-- ==== Sys2Proof/Word.lean ====
section
/-!
DEFINITION. The word types of the EK2 and the index types of its instance families (Table 0.5).
-/

namespace Sys2Proof

/-- One byte. -/
abbrev Byte := BitVec 8

/-- One 32-bit register word (R11). -/
abbrev Word := BitVec 32

/-- One 64-bit word: an instruction, a descriptor word, a token word. -/
abbrev DWord := BitVec 64

/-- Optical port P00 to P63. -/
abbrev Port := Fin 64

/-- Comb line L00 to L34. -/
abbrev Line := Fin 35

/-- A set of comb lines, bit n for line Ln. -/
abbrev LineSet := BitVec 35

/-- Beam B000 to B255. -/
abbrev Beam := Fin 256

/-- Die-to-die site: 0 to 3 for W0 to W3, 4 and 5 for T0 and T1 (R78, Table 4.3). -/
abbrev SiteIx := Fin 6

/-- Wide Port site W0 to W3. -/
abbrev WideIx := Fin 4

/-- Reach Port site T0, T1. -/
abbrev ReachIx := Fin 2

/-- A Wide Port site as a die-to-die site. -/
def WideIx.site (w : WideIx) : SiteIx := ⟨w.val, by omega⟩

/-- A Reach Port site as a die-to-die site. -/
def ReachIx.site (t : ReachIx) : SiteIx := ⟨4 + t.val, by omega⟩

/-- Reservoir stack H0, H1. -/
abbrev Stack := Fin 2

/-- Comb group CG0 to CG3. -/
abbrev CombGroup := Fin 4

/-- Comb die D0 to D4 of a group; D4 is the spare as delivered. -/
abbrev CombDie := Fin 5

/-- Ring number r = 105 × port + 35 × type + line (R271). -/
abbrev Ring := Fin 6720

end Sys2Proof
end

