-- ==== Sys2Proof/Syntax.lean ====
section
/-!
DEFINITION. The commands of the EK2: one constructor per row of spec/opcode_table.json, with the
operands the rules give it. Raw words and raw bytes stand where the spec lays out bits (register
values, flits, sideband slots, markers); measured quantities (temperatures, currents, optical
power, whether a pattern was received) are operands, because the spec names them as inputs of the
event and does not compute them.
-/

namespace Sys2Proof

/-- A master that accesses registers and locks (Table 16.5). -/
inductive Master where
  | mgmt
  | pcie
  | site (s : SiteIx)
  deriving DecidableEq, Repr

/-- The two reset inputs (R483). -/
inductive ResetPin where
  | sysRst
  | perst
  deriving DecidableEq, Repr

/-- The two sequencer units. -/
inductive SqUnit where
  | a
  | b
  deriving DecidableEq, Repr

/-- What a sequencer's or the control root's own checks report: an uncorrectable error of its schedule memory or plan store, a failed
internal check (R122, Table 4.15 causes 2 and 3), a nibble corrected in one of these stores or in the control root, an uncorrectable
error of the control root (R100, Table 4.10); and an error of three or more nibbles in the unit's stores or in the control root that the code
misses, unseen or taken for a correction (R402). -/
inductive SqFault where
  | store
  | internalCheck
  | corrected
  | controlRoot
  | missed (root corrects : Bool)
  deriving DecidableEq, Repr

/-- A register of the function's configuration space (Table 16.1), by its name in the PCI Express specification. -/
inductive CfgReg where
  | identifiers
  | command
  | classCode
  | headerType
  | bar (k : Fin 3) (high : Bool)
  | deviceControl
  | msixControl
  | powerControl
  deriving DecidableEq, Repr

/-- A configuration request (R459). -/
inductive CfgAccess where
  | read (r : CfgReg)
  | write (r : CfgReg) (v : BitVec 32)
  deriving DecidableEq, Repr

/-- Who acts on doorbell bits (R473): the host rings the firmware, the firmware clears its own bits or writes its masks, or the firmware
rings the host. -/
inductive DblAct where
  | ring
  | fwClear
  | fwMask
  | fwRingHost
  deriving DecidableEq, Repr

/-- The two halves of the BAR2 window (R89). -/
inductive Half where
  | a
  | b
  deriving DecidableEq, Repr

/-- The path on which a management command arrives: H2F channel 01 or the I3C mailbox (R444). -/
inductive MgtPath where
  | pcie
  | i3c
  deriving DecidableEq, Repr

/-- Where an undefined firmware command arrives (R88, R444). -/
inductive FwChannel where
  | image
  | mgt (p : MgtPath)
  deriving DecidableEq, Repr

/-- How one beat or word arrived through the (144,128) code (R402). An error in three or more nibbles may be missed: unseen, or taken for a
correction that is none. -/
inductive CodeResult where
  | clean
  | corrected
  | uncorrectable
  | missed (corrects : Bool)
  deriving DecidableEq, Repr

/-- The highest data rate that HBM4E training passes at every channel (Table 13.1). -/
inductive HbmRate where
  | r64
  | r80
  | r100
  deriving DecidableEq, Repr

/-- What a fetch brought (R63): a plan into a slot of the store (128 is the switch slot), or a
segment into a window. -/
inductive FetchItem where
  | plan (planId : BitVec 16) (slot : Fin 129)
  | segment (segId : BitVec 16) (window : Fin 32)
  deriving DecidableEq, Repr

/-- The two directions of a line of a port, seen from this chip. -/
inductive Dir where
  | tx
  | rx
  deriving DecidableEq, Repr

/-- A data codeword that a line received with a flit, its 68 symbols as they came off the fibre (R230, R232). -/
structure LineWord where
  line : Line
  symbols : List (BitVec 10)
  deriving DecidableEq, Repr

/-- A memory of the Collective Engine whose code reports errors (Tables 5.14, 5.25). -/
inductive CeMem
  | staging
  | window
  | route
  | table
  | eru
  deriving DecidableEq, Repr

/-- A code error that a unit meets while it runs an operation: where, and whether more than one nibble is wrong (R164, Table 5.25). -/
structure CeCode where
  /-- Memory -/
  mem : CeMem
  /-- Cluster, or Exact Reduction Unit -/
  unit : BitVec 6
  /-- 16-byte word address within the unit -/
  address : BitVec 22
  /-- Not confined to one nibble -/
  uncorrectable : Bool
  /-- Three or more nibbles, which the code misses: unseen, or with `uncorrectable` false and `corrects` taken for a correction (R402) -/
  missed : Bool := false
  /-- A missed error is taken for a correction -/
  corrects : Bool := false
  deriving DecidableEq, Repr

/-- The form of the elements in a collective segment (R190, R185). The spec does not code it in
the record (log entry 24). -/
inductive SegForm where
  | exponents
  | contribution
  | partialSum
  | result
  deriving DecidableEq, Repr

/-- What the measurements of one calibration of a line found (Table 9.9, Table 9.10). -/
structure CalMeasure where
  /-- Peak of the junction sweep less the position the model gives, in 1/1,024 GHz. -/
  peak : Int
  /-- OMA step of each of the five driver DAC segment sets. -/
  dacOma : Vector Int 5
  /-- Offset after trim of each of the three sampler slices. -/
  sliceOffset : Vector Int 3
  /-- Integrated swing of each capacitor bank, in 1/1,000 of the sampler range. -/
  bankSwing : Vector Int 6
  /-- The ratio at which the driven OMA is largest, in 1/1,000,000. -/
  rhoM : Int
  /-- Linewidth of the ring, in 1/1,024 GHz. -/
  width : Nat
  /-- The first marker after the relock showed on the light that leaves, which the transmit direction checks. -/
  marker : Bool
  deriving DecidableEq, Repr

/-- What the cold calibration sweep of a port found (R300). -/
structure GlintSweep where
  /-- Position found of L00 less the tabled one, on the transmit and on the receive bus, in 1/16 GHz (step 2). -/
  comb : Int × Int := (0, 0)
  /-- The peaks that each of the port's 105 rings takes, one sweep after another, above the frequency of L00 in 1/16 GHz (steps 3 and 4). -/
  peaks : List (List Int) := []
  /-- The neighbour coefficients that step 5 finds for each ring, in 1/1,024. -/
  nb : List (List Int) := []
  deriving DecidableEq, Repr

/-- What a Glint found: the cold sweep, and the calibration of each of L00 to L34, transmit and receive (R300 step 6, R490). -/
structure GlintFound where
  sweep : GlintSweep := {}
  cal : List (CalMeasure × CalMeasure) := []
  deriving DecidableEq, Repr

/-- What an optical port training step found (Table 8.8). -/
structure PortStep where
  /-- Lines locked at this receiver (step 2). -/
  locked : LineSet
  /-- Symbols corrected on each of L00 to L34 in 1 ms, and whether a codeword was uncorrectable (step 4, R260). -/
  counts : List (Nat × Bool)
  deriving DecidableEq, Repr

/-- What a Wide Port training step found: the good physical lanes of each direction, bit k for
lane k with spares at 64 to 67 (R348). Index 32 is the sideband (lanes 0 to 17). -/
structure WideStep where
  goodRx : List (BitVec 68)
  goodTx : List (BitVec 68)
  deriving DecidableEq, Repr

/-- What a Reach Port training step found for each of the 32 lanes (Table 12.8, step 3). -/
structure ReachLaneStep where
  locked : Bool
  corrected : Nat
  uncorrectable : Bool
  /-- FOM in 0.25 dB (R381). -/
  fom : BitVec 8
  ctle : BitVec 4
  deriving DecidableEq, Repr

/-- What a Reach Port training step found: this end's lanes and, from LANE_MAP, the partner's
bitmap of good quads. -/
structure ReachStep where
  lanes : List ReachLaneStep
  partnerGood : BitVec 8
  deriving DecidableEq, Repr

/-- A clock that the monitors found absent or off frequency (R41). -/
inductive ClockLoss where
  | site (s : SiteIx)
  | line (p : Port) (n : Line)
  deriving DecidableEq, Repr

/-- A rail sample: millivolts and milliamperes (R412). -/
structure RailSample where
  mv : Nat
  ma : Nat
  deriving DecidableEq, Repr

/-- Which thermal ceiling steps, and how (Table 14.5). -/
inductive CeilingStep where
  | junction
  | zone
  deriving DecidableEq, Repr

/-- An upstream or downstream mailbox channel (Table 16.4). -/
inductive MbxTx where
  | h2f (c : Fin 16)
  | h2d (s : SiteIx) (c : Fin 8)
  deriving DecidableEq, Repr

/-- A channel on which the host receives. -/
inductive MbxRx where
  | f2h (c : Fin 16)
  | d2h (s : SiteIx) (c : Fin 8)
  deriving DecidableEq, Repr

/-- A channel whose timer can run (R467): every channel that holds a message. -/
inductive MbxTimer where
  | tx (c : MbxTx)
  | rx (c : MbxRx)
  deriving DecidableEq, Repr

/-- The width of a register access (R12). -/
inductive AccessSize where
  | b8
  | b16
  | b32
  | b64
  deriving DecidableEq, Repr

/-- What an MSI-X configuration write changes (R476). -/
inductive MsixWrite where
  | enable (on : Bool)
  | functionMask (on : Bool)
  | vectorMask (v : Fin 64) (on : Bool)
  deriving DecidableEq, Repr

/-- The kinds of PCI Express function reset (R462). -/
inductive FnReset where
  | hot
  | linkDown
  | flr
  deriving DecidableEq, Repr

/-- The error pattern that a read of one 128-bit word meets (R402): how many nibbles are in error,
and, for three or more, whether the decoder marked it uncorrectable (not specified: operand). -/
inductive WordError where
  | none
  | oneNibble
  | twoNibbles
  | more (marked : Bool)
  deriving DecidableEq, Repr

/-- A word with an error that an operation reads in the Reservoir: by a staging transfer, or by a cluster or ERU (R407, Table 13.10). -/
structure HbmRead where
  /-- Read by a staging transfer -/
  staging : Bool
  /-- Global address ÷ 16 -/
  word : Nat
  /-- What is wrong with it -/
  err : WordError
  deriving DecidableEq, Repr

/-- The commands of the EK2, in the order of spec/opcode_table.json. A last operand with a default tells of what is mostly absent: an error of
a store, a size other than 32 bits, a number of elements where a form has one. -/
inductive Instr where
  -- supplies, reset and bring-up
  | powerOn
  | supplyFault (lasMv auxMv : Nat)
  | resetAssert (pin : ResetPin) (us : Nat)
  | resetRelease (pin : ResetPin)
  | fwReady
  | fwWatchdog
  | lockstepDisagreement
  | penumbraEntry
  | combGroupStart (g : CombGroup)
  | combLockTimeout (g : CombGroup) (d : Fin 4)
  | stackTrainingDone (st : Stack) (rate : Option HbmRate)
  | litEntryStart
  | litEntryComplete
  -- image commands
  | imgQuery
  | imgBegin
  | imgChunk
  | chunkMoved (h : Half)
  | imgVerify
  | verifyComplete (words : List (Nat × WordError) := [])
  | imgCommitFull
  | imgCommitRestart
  | imgAbort
  | devPenumbra
  | devPenumbraTimeout
  | undefinedCommand (ch : FwChannel)
  | replacementApply
  | replacementCopyDone (words : List (Nat × WordError) := [])
  | bar2Write (off : BitVec 26) (data : List Byte) (read : Nat := 0)
  -- sequencer instructions (Table 4.3)
  | nop
  | phase (barrier : Bool) (id : Word)
  | wait (kind : BitVec 4) (exempt : Bool) (slot : BitVec 12) (count : Byte) (site : BitVec 3)
  | switch (variant express : Bool) (vreg : Fin 16) (planId : BitVec 16)
  | issue (n : Byte) (target : BitVec 16)
  | token (kind : BitVec 4) (beam : Beam) (slot : BitVec 12)
  | notify (site : SiteIx) (slot : BitVec 12)
  | select (vreg : Fin 16) (family : BitVec 12) (handle : Word) (words : List (Nat × WordError) := [])
  | prefetch (segment : Bool) (id : BitVec 16) (slot : Byte)
  | hint (op : Fin 8) (lead hold : Byte)
  | commit (iterEnd : Bool)
  | setlc (counter : Fin 8) (value : Word)
  | branch (cond : BitVec 4) (n : Fin 16) (imm : Byte) (target : BitVec 16)
  | call (window : Fin 32) (segId : BitVec 16)
  | ret
  | halt
  -- sequencer events
  | fetchComplete (item : FetchItem) (words : List (Nat × WordError) := [])
  | tokenArrival (word : DWord)
  | operationDone (op : Nat) (codes : List CeCode := []) (words : List HbmRead := [])
  | mirrorRecord (beats : Vector CodeResult 8)
  | mirrorAck
  | mirrorAckTimeout
  | phaseWatchdogExpiry
  | heartbeatSend (u : SqUnit)
  | heartbeatTimeout (u : SqUnit)
  | sequencerFailureSignal (u : SqUnit) (why : SqFault)
  | fenceAcknowledged
  | selfTestComplete (u : SqUnit) (pass : Bool)
  | resyncTimer
  | resyncCopyDone
  | sqResumeGo (v : Word)
  | sqResumeRelease (v : Word)
  | sqCmdForceFailover (epoch : BitVec 16)
  | sqCmdResyncStandby (epoch : BitVec 16)
  | sqCmdTakeBackNow (epoch : BitVec 16)
  | sqCmdKeepStandbyOut (epoch : BitVec 16)
  | sqCmdReadmit (epoch : BitVec 16)
  -- operations
  | gate (op : Nat)
  | dispatch (op : Nat)
  | combine (op : Nat)
  | allreduce (op : Nat)
  | reducescatter (op : Nat)
  | allgather (op : Nat)
  | alltoallv (op : Nat)
  | broadcast (op : Nat)
  | stream (op : Nat)
  -- records
  | dispatchRecord (b : Beam) (op : Nat)
  | tentativeDispatch (b : Beam) (op : Nat)
  | combineReturn (b : Beam) (op : Nat)
  | commitMarker (b : Beam) (op : Nat)
  | cancelMarker (b : Beam) (op : Nat)
  | collectiveSegment (b : Beam) (op : Nat) (form : SegForm) (len : Nat) (total : Nat := 0)
  | ceCtrlWrite (v : Word)
  -- plan switches
  | switchArrival (p : Port)
  | switchAnchor (p : Port)
  | switchRingsSet (p : Port)
  | lineRelock (p : Port) (n : Line)
  | switchComplete (p : Port)
  | switchTimeout (b : Beam)
  -- flits
  | dataFlit (b : Beam) (raw : List Byte) (words : List LineWord) (code : CodeResult := .clean)
  | idleFlit (b : Beam) (raw : List Byte)
  | nak (b : Beam) (raw : List Byte)
  | switchIdle (b : Beam) (raw : List Byte)
  | init (b : Beam) (raw : List Byte)
  | initResend (b : Beam)
  | initTimeout (b : Beam)
  | retransmitTimerExpiry (b : Beam)
  | creditTimeout (b : Beam)
  | replayEntryGrant (p : Port)
  | retrainRequest (b : Beam) (raw : List Byte)
  | retrainRequestResend (b : Beam)
  | retrainGo (b : Beam) (raw : List Byte)
  | retrainDeskewDone (b : Beam)
  | retrainReady (b : Beam) (raw : List Byte)
  | retrainTimeout (b : Beam)
  -- lines and ports
  | lineMarker (p : Port) (n : Line) (raw : List Byte)
  | lineMarkerSend
  | lineAlignmentLost (p : Port) (n : Line)
  | train (p : Port) (raw : List Byte)
  | portTrainingStep (p : Port) (r : PortStep)
  | portTrainingTimeout (p : Port)
  | l00LockLost (p : Port)
  | prtCmdRetrain (v : Word)
  | prtCmdHold (v : Word)
  | prtCmdRelease (v : Word)
  -- rings and calibration
  | ringLoopVisit (r : Ring) (power : Nat) (row : CodeResult)
  | ringZoneSample (p : Port) (temp20 : Int)
  | samplerTrim (p : Port) (n : Line) (ones : Nat)
  | hintLearn (p : Port) (s : SiteIx) (rise20 : Int)
  | calibrationStart (p : Port) (n : Line) (d : Dir)
  | calibrationComplete (p : Port) (n : Line) (d : Dir) (m : CalMeasure)
  | calibrationOverdue (p : Port) (n : Line) (d : Dir)
  | glintCalibrationDone (p : Port) (shutterOk : Bool) (found : GlintFound := {})
  | substitutionRequest (b : Beam) (raw : List Byte)
  | substitutionGo (b : Beam) (raw : List Byte)
  | substitutionApplied (b : Beam) (raw : List Byte)
  | substitutionRepeat (p : Port) (d : Dir) (upper : Bool)
  | substitutionMarker (p : Port) (upper : Bool) (count : Word)
  | lineRequalify (p : Port) (n : Line) (d : Dir)
  | requalifyEnd (p : Port) (n : Line) (corrected : Nat) (uncorrectable : Bool)
  -- comb sources and eye safety
  | gridLoop (g : CombGroup) (d : CombDie) (offsetMhz : Int) (temp8 : Int)
  | biasLoop (g : CombGroup) (d : CombDie) (estimates : List (Port × Line × Int)) (temp8 : Int)
  | combThermalReduction (g : CombGroup) (d : CombDie) (temp8 : Int)
  | agingLogWrite (ok : Bool)
  | combDieFailure (g : CombGroup) (d : CombDie) (sudden : Bool)
  | spareGainRamp (g : CombGroup)
  | spareCombLocked (g : CombGroup)
  | openFibre (p : Port)
  | probeStart (p : Port)
  | probeLightReceived (p : Port) (us : Nat)
  | qclkLoss
  | rxPowerWarning (p : Port) (n : Line) (cdbm : Int)
  -- die-to-die sites
  | moduleFrame (w : WideIx) (m : Fin 33) (lanes : List DWord)
  | retry (s : SiteIx) (slot : List Byte)
  | level (s : SiteIx) (slot : List Byte)
  | laneMap (s : SiteIx) (slot : List Byte)
  | laneMapApply (s : SiteIx) (index : Word)
  | repair (s : SiteIx) (slot : List Byte)
  | repairStart (w : WideIx) (m : Fin 33)
  | repairTestEnd (w : WideIx) (m : Fin 33) (noError : BitVec 68)
  | parity (s : SiteIx) (slot : List Byte)
  | creditInit (s : SiteIx) (slot : List Byte)
  | credit (s : SiteIx) (slot : List Byte)
  | creditReturnTimer (s : SiteIx)
  | sbToken (s : SiteIx) (slot : List Byte)
  | sbHint (s : SiteIx) (slot : List Byte)
  | mbxData (s : SiteIx) (slot : List Byte)
  | mbxGo (s : SiteIx) (slot : List Byte)
  | mbxResp (s : SiteIx) (slot : List Byte)
  | doorbell (s : SiteIx) (slot : List Byte)
  | lock (s : SiteIx) (slot : List Byte)
  | sbReservedMessage (s : SiteIx) (slot : List Byte)
  | sbResendTimeout (s : SiteIx)
  | sidebandFailed (s : SiteIx)
  | siteResetRelease (s : SiteIx)
  | wpTrainingStep (w : WideIx) (r : WideStep)
  | wpTrainingTimeout (w : WideIx)
  | clockLossDetected (c : ClockLoss)
  | wpCmdRetrain (v : Word)
  | wpCmdHold (v : Word)
  | wpCmdRelease (v : Word)
  | wpCmdRepairModule (v : Word)
  | reachCodeword (t : ReachIx) (q : Fin 8) (symbols : List (BitVec 10))
  | laneMarker (t : ReachIx) (lane : Fin 32) (raw : List Byte) (bip : Byte)
  | tpMarkerSend (t : ReachIx)
  | trainingFrame (t : ReachIx) (lane : Fin 32) (control status : Word)
  | fomMeasurement (t : ReachIx) (lane : Fin 32) (fom : Byte)
  | tpTrainingStep (t : ReachIx) (r : ReachStep)
  | tpTrainingTimeout (t : ReachIx)
  | retestStart (t : ReachIx)
  | retestComplete (t : ReachIx) (pass : Bool)
  | tpCmdRetrain (v : Word)
  | tpCmdHold (v : Word)
  | tpCmdRelease (v : Word)
  | tpCmdRetestQuad (v : Word)
  | tpCmdEnterTest (v : Word)
  | tpCmdLeaveTest (v : Word)
  | tpPatCtrlWrite (v : Word)
  | tpInjectSingleBit (v : Word)
  | tpInjectSymbols (v : Word)
  | tpInjectMarker (v : Word)
  | tpInjectSbCrc (v : Word)
  | tpInjectStop (v : Word)
  | tpInjectRepeat (t : ReachIx)
  -- Reservoir
  | bar4Read (off : BitVec 36) (len : Nat) (err : WordError) (words : List (Nat × WordError) := [])
  | bar4Write (off : BitVec 36) (data : List Byte)
  | hbmApertureWrite (v : Word)
  | hbmScrubWrite (v : Word)
  | scrubStep (err : WordError)
  | hbmStackPoll (st : Stack) (temp8 : Int) (onDieEcc : Nat)
  -- power and thermal
  | powerSample (rails : List RailSample) (counts : List Nat)
  | capPeriodStart
  | railSettled (mv : Nat)
  | vralertAssert (ns : Nat)
  | vralertHoldEnd
  | droopDetect (branch : Fin 19)
  | droopClear (branch : Fin 19)
  | droopClear1us
  | thermalSample (temps8 : List (Option Int)) (failed : List Nat := [])
  | thermalCeilingStep (which : CeilingStep)
  | junctionTrip
  | clusterAgingCheck (slackPermille : List Nat)
  | pwrCtrlWrite (v : Word)
  | pwrCapHostWrite (v : Word)
  | mgtCapMgmtWrite (v : Word)
  | thmWarnWrite (v : Word)
  -- management
  | sensorSnapshot (stores : CodeResult := .clean)
  | mgtQuery (p : MgtPath)
  | fwBegin (p : MgtPath)
  | fwEraseDone (ok : Bool)
  | fwChunk (p : MgtPath)
  | fwChunkProgrammed (ok : Bool)
  | fwVerify (p : MgtPath)
  | fwActivate (p : MgtPath)
  | fwConfirm (p : MgtPath)
  | attest (p : MgtPath)
  | attestSigned
  | combSwap (p : MgtPath)
  | combSwapDone
  | fatalRead (p : MgtPath)
  | fatalClear (p : MgtPath)
  | fatalPersisted (ok : Bool)
  | i3cAddressAssign (addr : BitVec 7) (via : Option (BitVec 7) := none)
  | i3cPrivateWrite (off : Word) (words : List Word)
  | i3cPrivateRead (n : Nat)
  | i3cMbxGo
  | i3cRspClear
  -- host interface
  | mbxSend (c : MbxTx) (tag : BitVec 16) (fw : Option (Vector (BitVec 32) 16) := none)
  | mbxTake (c : MbxRx) (fw : Bool := false)
  | mailboxTimeout (c : MbxTimer)
  | dblFwRing (v : Word) (act : DblAct := .ring)
  | dblSiteRing (s : SiteIx) (v : Word)
  | lckAcquire (m : Master) (n : Fin 32)
  | lckRelease (m : Master) (v : Word)
  | lowWordRead (m : Master) (off : Nat) (size : AccessSize := .b32)
  | registerWrite (m : Master) (off : Nat) (v : Word) (size : AccessSize := .b32)
  | msixUnmask (w : MsixWrite)
  | pcieFunctionReset (k : FnReset)
  | pcieLinkChange (speed : BitVec 4) (width : BitVec 6)
  | poisonedTlp
  -- errors and Echo
  | errCtrlRelease (v : Word)
  | errEchoLine (v : Word)
  | errEchoFibre (v : Word)
  | errEchoModule (v : Word)
  | errEchoStop (v : Word) (bits errors : Nat) (worstLane : BitVec 7)
  | echoNonceReturn
  | echoNotLooped
  -- completions and periodic sends
  | fullCommitComplete (words : List (Nat × WordError) := [])
  | fwVerifyComplete (ok : Bool := true)
  | fwActivateComplete (ok : Bool)
  | fwConfirmComplete (fuseOk : Bool)
  | fatalClearComplete (ok : Bool)
  | flitBoundary (b : Beam) (code : CodeResult := .clean)
  | moduleFrameSend (w : WideIx) (m : Fin 32)
  | sidebandFrameSend (s : SiteIx)
  | reachCodewordSend (t : ReachIx) (q : Fin 8)
  | probeEnd (p : Port)
  | vralertRelease
  | switchStall (b : Beam)
  | powerOff
  | stackChannelLoss (st : Stack)
  | functionPowerStateWrite (d3hot : Bool) (cfg : List CfgAccess := [])
  deriving DecidableEq, Repr

end Sys2Proof
end

