-- ==== Sys2Proof/Decode.lean ====
section
/-!
DEFINITION. Decoding by the table's bits. No row of spec/opcode_table.json gives bits (every `fields` list is empty), so
no word spells a command.
-/

namespace Sys2Proof

/-- The command that a word spells by the bits of spec/opcode_table.json: none, since its rows give no bits. -/
def decodeTableWord (_nbits _w : Nat) : Option Instr := none

end Sys2Proof
end

