-- ==== Sys2Proof/Config.lean ====
section
/-!
DEFINITION. What one EK2 fixes for itself (fuses and factory tables) and the free values and unstated functions of
the manual. Nothing here has a body, so no proof can rest on a value.
-/

namespace Sys2Proof

/-- A value the manual leaves open: `freeValue w n` is the `n`-th one, of `w` bits (log entry 9). -/
opaque Config.freeValue (w : Nat) (n : Nat) : BitVec w

/-- A free choice between two outcomes the manual allows. -/
opaque Config.freeChoice (n : Nat) : Bool

/-- GLB_ID.vendor (fused, Table 16.9). -/
opaque Config.vendor : BitVec 16

/-- Device serial, 16 bytes (R438). -/
opaque Config.serial : BitVec 128

/-- The 256-bit device secret of the fuse bank, which no register, bus or debug path can read (R438). -/
opaque Config.deviceSecret : BitVec 256

/-- SEC_STATUS.secret_ok (fused, Table 15.13). -/
opaque Config.secretOk : Bool

/-- The anti-rollback counter as the fuses hold it, 0 to 64 (R438). -/
opaque Config.fusedCounter : Fin 65

/-- The revoke fuse of root slot 0 (R438). -/
opaque Config.fusedSlot0Revoked : Bool

/-- Digests of the two firmware root keys (R438). -/
opaque Config.rootKey : Fin 2 → BitVec 256

/-- SLH-DSA-SHA2-128f key generation (R447; FIPS 205, named by the manual and not restated there; log entry 10): the 32-byte public key of
the three 16-byte seeds SK, PRF and PK. -/
opaque Config.slhKeygen128f : BitVec 128 → BitVec 128 → BitVec 128 → BitVec 256

/-- SHA-256 of the boot ROM (Table 15.5). -/
opaque Config.romDigest : BitVec 256

/-- SHA-256 (FIPS 180-4, named by the manual and not restated there; log entry 10). -/
opaque Config.sha256 : List Byte → BitVec 256

/-- Pure SLH-DSA-SHA2-192s verification with an empty context: public key, message, signature. -/
opaque Config.slhVerify192s : List Byte → List Byte → List Byte → Bool

/-- The pure SLH-DSA-SHA2-128f signature, 17,088 bytes, of a message under the key of three seeds, SK, PRF and PK (R448). -/
opaque Config.slhSign128f : BitVec 128 → BitVec 128 → BitVec 128 → List Byte → List Byte

/-- Records that the flash's aging log and weak-row log hold: the length of a record is not stated, the areas are 1,984 KiB and 1 MiB
(Table 15.1). -/
opaque Config.agingRoom : Fin 2031616
/-- As `Config.agingRoom`, for the weak-row log. -/
opaque Config.weakRoom : Fin 1048576

/-- The nonce of a fibre Echo, formed from the local microsecond counter and the port number in a way that is not stated (R511). -/
opaque Config.echoNonce : Nat → Nat → BitVec 64

/-- The bytes of a fatal record's sensor snapshot, whose layout is not stated (R450): the sensors' validity and temperature, the hottest
junction and zone, and the power readings. -/
opaque Config.snapshotBytes : List (Bool × Int) → Int × Int → Nat × Nat → List Byte

/-- Fused maximum frequency of each cluster, 10 MHz units, at most 2.30 GHz (R420, Tables 1.4, 14.11). -/
opaque Config.clusterMax : Fin 16 → Fin 231

/-- Core rail voltage in mV that a cluster needs at a frequency of 10 MHz units (R416). -/
opaque Config.clusterMillivolts : Fin 16 → Nat → Nat

/-- Activity counters of one tile (R414; the spec does not say how many). -/
opaque Config.tileCounters : Nat

/-- Fused coefficient of a tile's activity counter, in µW per count of a sample (R414): tile and counter. -/
opaque Config.tileCoefficient : Nat → Nat → Nat

/-- Core rail voltage of each operating point but OP7 in mV, fused (R416). -/
opaque Config.opMillivolts : Fin 8 → Nat

/-- Factory gain current of each comb die in µA (R312), by group and die. -/
opaque Config.factoryGain : Fin 4 → Fin 5 → Nat

/-- The plan in force puts a spare in pass at every via place of a beam in its transmit direction (R293): a fact of the other places' plan blocks.
By program, plan, beam and spare. -/
opaque Config.viasPassSpare : BitVec 64 → BitVec 16 → Nat → Nat → Bool

/-- The power model's prediction in µW of the saving of the steps taken and not yet settled (R414, R422), by the number of
those steps and the number of the sample. -/
opaque Config.unsettledSaving : Nat → Nat → Nat

/-- The power model's cost in µW of the next restore (R422): resource code and number of the sample. -/
opaque Config.restoreCost : Nat → Nat → Nat

/-- The row of a Reservoir address within its pseudo-channel (R407 names rows, the manual gives no row map). -/
opaque Config.rowOf : Nat → BitVec 32

/-- The factory row of a ring in the Halo matrix, 64 bytes laid out as in Table 9.3, byte 0 lowest (fused, R278). -/
opaque Config.haloRow : Nat → BitVec 512

/-- e^(−t/tau) as the loop engines compute it, t and tau in µs (R279, R281; the manual gives no precision). -/
opaque Config.expMinus : Nat → Nat → Rat

/-- What a Halo row with an efficiency of 0 divides by: no such row is described (R272), so the value is open. -/
opaque Config.noEfficiency : Nat

/-- What the algorithm of NORM (R141, "one fixed algorithm") leaves open: the scale, the position of a weight, and the weights, in FP32. -/
opaque Config.norm : List (BitVec 32) → BitVec 32

/-- Which of the FP32 values within 2 ulp of the exact function ACT's algorithm gives (R141): kind, position, and the scores. -/
opaque Config.actChoice : Nat → Nat → List (BitVec 32) → Nat

/-- What ACT gives for a score that is infinite, where the exact function has no limit (R141 states none). -/
opaque Config.actInfinite : Nat → Nat → List (BitVec 32) → BitVec 32

end Sys2Proof
end

