-- ==== Sys2Proof/Machine/Base.lean ====
section
/-!
DEFINITION. Plain helpers of the model: updates of vectors, lists keyed by numbers, byte-addressed
memory as a sorted list of (address, byte) pairs, little-endian words, and register fields.
-/

namespace Sys2Proof.Machine

/-- The vector `v` with the entry `i` changed by `f`. -/
def upd {α : Type} {n : Nat} (v : Vector α n) (i : Fin n) (f : α → α) : Vector α n :=
  v.set i.val (f v[i.val]) i.isLt

/-- The vector `v` with the entry at the number `i` changed by `f`; unchanged when out of range. -/
def updN {α : Type} {n : Nat} (v : Vector α n) (i : Nat) (f : α → α) : Vector α n :=
  if h : i < n then v.set i (f v[i]) h else v

/-- All indices below `n`. -/
def fins (n : Nat) : List (Fin n) := List.finRange n

/-- A vector computed entry by entry. -/
def vmk {α : Type} (n : Nat) (f : Fin n → α) : Vector α n := Vector.ofFn f

/-- The entry `i` of a list, or a given value past its end. -/
def nth {α : Type} (l : List α) (i : Nat) (d : α) : α := (l[i]?).getD d

/-- The list `l` with entry `i` changed by `f`. -/
def lupd {α : Type} : List α → Nat → (α → α) → List α
  | [], _, _ => []
  | x :: r, 0, f => f x :: r
  | x :: r, i + 1, f => x :: lupd r i f

/-- The value stored under a key. -/
def aget {κ α : Type} [DecidableEq κ] : List (κ × α) → κ → Option α
  | [], _ => none
  | (k, v) :: r, x => if k = x then some v else aget r x

/-- Removes a key. -/
def adel {κ α : Type} [DecidableEq κ] : List (κ × α) → κ → List (κ × α)
  | [], _ => []
  | (k, v) :: r, x => if k = x then adel r x else (k, v) :: adel r x

/-- Stores a value under a key. -/
def aput {κ α : Type} [DecidableEq κ] (l : List (κ × α)) (x : κ) (v : α) : List (κ × α) :=
  (x, v) :: adel l x

/-! ### Byte-addressed memory -/

/-- Memory: the listed bytes in strictly rising address order, none of them 0. -/
abbrev Mem := List Host.Cell

/-- What an address that is not listed reads as (log entry 2). -/
def Mem.unlisted : Byte := 0

/-- One byte of memory. -/
def Mem.read : Mem → Nat → Byte
  | [], _ => Mem.unlisted
  | (k, v) :: r, a => if k = a then v else if a < k then Mem.unlisted else Mem.read r a

/-- Stores one byte, keeping the canonical form. -/
def Mem.write : Mem → Nat → Byte → Mem
  | [], a, b => if b = Mem.unlisted then [] else [(a, b)]
  | (k, v) :: r, a, b =>
    if k = a then (if b = Mem.unlisted then r else (a, b) :: r)
    else if a < k then (if b = Mem.unlisted then (k, v) :: r else (a, b) :: (k, v) :: r)
    else (k, v) :: Mem.write r a b

/-- Every listed address is at least `lo`, addresses rise strictly, no listed byte is the value an
unlisted address reads as. -/
def Mem.wfFrom : Nat → Mem → Bool
  | _, [] => true
  | lo, (k, v) :: r => decide (lo ≤ k) && decide (v ≠ Mem.unlisted) && Mem.wfFrom (k + 1) r

/-- The canonical form of memory. -/
def Mem.wf (m : Mem) : Bool := Mem.wfFrom 0 m

/-- `n` bytes from address `a`. -/
def Mem.readN (m : Mem) : Nat → Nat → List Byte
  | _, 0 => []
  | a, n + 1 => m.read a :: Mem.readN m (a + 1) n

/-- Stores bytes from address `a` on. -/
def Mem.writeN : Mem → Nat → List Byte → Mem
  | m, _, [] => m
  | m, a, b :: r => Mem.writeN (m.write a b) (a + 1) r

/-- Drops every byte in `[a, a + n)`. -/
def Mem.clear (m : Mem) (a n : Nat) : Mem := m.filter fun c => !(decide (a ≤ c.1) && decide (c.1 < a + n))

/-- The number that little-endian bytes spell (R11). -/
def leNat : List Byte → Nat
  | [] => 0
  | b :: r => b.toNat + 256 * leNat r

/-- `n` little-endian bytes of a number. -/
def leBytes : Nat → Nat → List Byte
  | 0, _ => []
  | n + 1, x => BitVec.ofNat 8 x :: leBytes n (x / 256)

/-- A little-endian number of `n` bytes at an address. -/
def Mem.nat (m : Mem) (a n : Nat) : Nat := leNat (m.readN a n)

/-- A 32-bit word at an address. -/
def Mem.word (m : Mem) (a : Nat) : Word := BitVec.ofNat 32 (m.nat a 4)

/-! ### Fields of registers -/

/-- Bits `[hi:lo]` of a number. -/
def bits (v : Nat) (hi lo : Nat) : Nat := v / 2 ^ lo % 2 ^ (hi + 1 - lo)

/-- Bits `[hi:lo]` of a register word. -/
def fld (v : Word) (hi lo : Nat) : Nat := bits v.toNat hi lo

/-- One bit of a register word. -/
def bit (v : Word) (i : Nat) : Bool := v.getLsbD i

/-- A Bool as a number. -/
def b2n (b : Bool) : Nat := if b then 1 else 0

/-- A register word from a number. -/
def w32 (n : Nat) : Word := BitVec.ofNat 32 n

/-- A vector of bits as a register field. -/
def boolsNat (l : List Bool) : Nat := l.foldr (fun b n => b2n b + 2 * n) 0

/-- Adds with a ceiling. -/
def satAdd (top a b : Nat) : Nat := min top (a + b)

/-- The two's-complement field of `w` bits for an integer. -/
def sfield (w : Nat) (x : Int) : Nat := (x % (2 ^ w : Int)).toNat

/-- The integer that a two's-complement field of `w` bits spells. -/
def sval (w : Nat) (n : Nat) : Int := if 2 * (n % 2 ^ w) < 2 ^ w then (n % 2 ^ w : Nat) else (n % 2 ^ w : Nat) - (2 ^ w : Int)

/-- Clears in an event field of `n` bits the bits a written word names (W1C, R18). -/
def w1c {n : Nat} (e : BitVec n) (v : Word) : BitVec n := e &&& ~~~ (v.setWidth n)

/-- Sets one bit. -/
def setBit {n : Nat} (e : BitVec n) (i : Nat) : BitVec n := e ||| BitVec.ofNat n (2 ^ i)

/-- Clears one bit. -/
def clrBit {n : Nat} (e : BitVec n) (i : Nat) : BitVec n := e &&& ~~~ BitVec.ofNat n (2 ^ i)

/-- Sets or clears one bit. -/
def putBit {n : Nat} (e : BitVec n) (i : Nat) (b : Bool) : BitVec n := if b then setBit e i else clrBit e i

/-- Cuts a list into pieces of `k` entries. -/
def chunksOf {α : Type} (k : Nat) : Nat → List α → List (List α)
  | 0, _ => []
  | n + 1, l => l.take k :: chunksOf k n (l.drop k)

/-- All pairs of positions and entries of a list. -/
def indexed {α : Type} (l : List α) : List (Nat × α) := (List.range l.length).zip l

end Sys2Proof.Machine
end

