-- ==== Sys2Proof/Machine/StHost.lean ====
section
/-!
DEFINITION. The state of the host side of the EK2: device state and supplies, PCI Express function,
mailboxes, doorbells, locks, error logging, management and security.
In every field's docstring: what it is, its width, the file and rule of spec/ that names it, and
its value at reset.
-/

namespace Sys2Proof.Machine

/-- Device states (R487, GLB_STATE.device_state). -/
inductive DevState where
  | umbra
  | penumbra
  | lit
  deriving DecidableEq, Repr

/-- Supplies, reset inputs and the device state. -/
structure Dev where
  /-- Every supply within tolerance | 1 | 17 R482 | 1 (log entry 1) -/
  powered : Bool := true
  /-- SYS_RST_N asserted | 1 | 17 R483 | 1 (log entry 1) -/
  sysRst : Bool := true
  /-- PERST_N asserted | 1 | 17 R483 | 1 (log entry 1) -/
  perst : Bool := true
  /-- GLB_STATE.device_state | 2 | 16 R478 Table 16.9, 17 R487 | 0 Umbra -/
  state : DevState := .umbra
  /-- GLB_STATE.state_epoch | 16 | 16 R478 Table 16.9 | 0x0000 -/
  epoch : BitVec 16 := 0
  /-- GLB_EVENT | 3 | 16 R478 Table 16.9 | 0 -/
  event : BitVec 3 := 0
  /-- GLB_EVENT_MASK | 3 | 16 R478 Table 16.9 | 0 -/
  mask : BitVec 3 := 0
  /-- GLB_SCRATCH | 32 | 16 R478 Table 16.9 | 0 -/
  scratch : Word := 0
  /-- A Fatal event or a junction trip holds Umbra until a reset | 1 | 10 R327, 17 R485 | 0 -/
  fatal : Bool := false
  /-- The trip comparator asserted the junction at 110 °C | 1 | 14 R429 | 0 -/
  tripped : Bool := false
  /-- The entry actions of Lit are running | 1 | 17 R491 | 0 -/
  litEntry : Bool := false
  deriving DecidableEq, Repr

/-- One MSI-X vector's table entry. -/
structure MsixVec where
  /-- Message address of the vector's table entry | 64 | 16 R476 (PCI Express Base Specification) | 0 (log entry 3) -/
  addr : BitVec 64 := 0
  /-- Message data of the vector's table entry | 32 | 16 R476 | 0 (log entry 3) -/
  data : Word := 0
  /-- Vector mask bit of the table entry | 1 | 16 R476 | 1 (log entry 3) -/
  masked : Bool := true
  deriving DecidableEq, Repr

/-- The function's configuration space (Table 16.1): the type 0 header's writable registers and Device Control. MSI-X Control and the power
state are fields of their own. -/
structure CfgSpace where
  /-- Command register | 16 | 16 R459 Table 16.1 | 0 PRESUMED (log entry 3) -/
  command : BitVec 16 := 0
  /-- Addresses of BAR0, BAR2 and BAR4 | 3 x 64 | 16 R460 Table 16.2 | 0 PRESUMED (log entry 3) -/
  bar : Vector (BitVec 64) 3 := Vector.replicate 3 0
  /-- Max payload size: 128, 256 or 512 bytes as 0, 1, 2 | 3 | 16 R459 Table 16.1 | 0 PRESUMED (log entry 3) -/
  maxPayload : BitVec 3 := 0
  /-- Max read request size: 128 to 4,096 bytes as 0 to 5 | 3 | 16 R459 Table 16.1 | 2 PRESUMED (log entry 3) -/
  maxRead : BitVec 3 := 2
  deriving DecidableEq, Repr

/-- A non-fatal error that AER logs (R466, R459, R405). The request header of a Completer Abort is that of a posted write of one word at
`addr`; its other bits are free, by `seed`. -/
inductive AerEvent where
  | completerAbort (addr : Nat) (seed : Nat)
  | poisonedTlp
  | poisonedCompletion
  deriving DecidableEq, Repr

/-- The PCI Express function and its windows. -/
structure HostIf where
  /-- GLB_LINK.speed | 4 | 16 R478 Table 16.9 | 0 -/
  speed : BitVec 4 := 0
  /-- GLB_LINK.width | 6 | 16 R478 Table 16.9 | 0 -/
  width : BitVec 6 := 0
  /-- Function power state D3hot | 1 | 16 R459 Table 16.1 | 0 (D0; log entry 3) -/
  d3hot : Bool := false
  /-- MSI-X Enable of the function | 1 | 16 R476 | 0 (log entry 3) -/
  msixEnable : Bool := false
  /-- MSI-X Function Mask | 1 | 16 R476 | 0 (log entry 3) -/
  msixFmask : Bool := false
  /-- MSI-X table, 64 vectors | 64 x 97 | 16 R476, R463 | 0, each vector masked (log entry 3) -/
  vec : Vector MsixVec 64 := Vector.replicate 64 {}
  /-- MSI-X pending-bit array | 64 | 16 R476, R463 | 0 (log entry 3) -/
  pend : BitVec 64 := 0
  /-- Vector conditions as last seen, which makes "becomes true" an edge | 64 | 16 R476 | 0 -/
  was : BitVec 64 := 0
  /-- BAR2 staging window, a read returns the bytes last written | 2^26 bytes | 16 R460 Table 16.2, 03 R89 | no byte listed (log entry 2) -/
  bar2 : Mem := []
  /-- High words latched by low-word reads, per master and register | 32 each | 00 R13 | none latched -/
  latch : List ((Master × Nat) × Word) := []
  /-- Configuration space | see CfgSpace | 16 R459, R460 | see CfgSpace -/
  cfg : CfgSpace := {}
  /-- AER log of the endpoint, newest first | list | 16 R466, R459 | empty -/
  aer : List AerEvent := []
  deriving DecidableEq, Repr

/-- A mailbox message: 16 words with the sender's code and tag. -/
structure Msg where
  /-- The 16 words of the message | 16 x 32 | 16 R464 | 0 -/
  words : Vector Word 16 := Vector.replicate 16 0
  /-- Sender tag | 16 | 16 R479 Tables 16.11, 16.12 | 0 -/
  tag : BitVec 16 := 0
  /-- Sender code of R78 | 8 | 16 R479 Table 16.12 | 0 -/
  sender : BitVec 8 := 0
  /-- Halves of the BAR2 window that the host has written since it sent the message | 2 | 03 R89 | 0 -/
  dirty : BitVec 2 := 0
  deriving DecidableEq, Repr

/-- A channel on which the host sends (MBX_H2F, MBX_H2D). -/
structure TxChan where
  /-- MBX_*_DATA staging words of the host | 16 x 32 | 16 R465, R479 | 0 -/
  staging : Vector Word 16 := Vector.replicate 16 0
  /-- MBX_*_CTRL.tag | 16 | 16 R479 Table 16.11 | 0 -/
  tag : BitVec 16 := 0
  /-- MBX_*_CTRL bits 7:2: accepted, taken, rejected, aborted, timeout, unbound | 6 | 16 R479 Table 16.11 | 0 -/
  status : BitVec 6 := 0
  /-- MBX_*_CTRL.go | 1 | 16 R479 Table 16.11 | 0 -/
  go : Bool := false
  /-- The message in the channel | 16 x 32, tag 16, sender 8 | 16 R464, R465 | 0 -/
  msg : Msg := {}
  /-- Start of the take timer and its limit in µs, while it runs | 64 + 32 | 16 R467 | not running -/
  timer : Option (Nat × Nat) := none
  /-- H2D: the partner adapter has accepted the message | 1 | 11 R363 | 0 -/
  acked : Bool := false
  /-- H2D: messages sent before a function reset that the partner adapter has not answered yet | - | 16 R469 | 0 -/
  oldDue : Nat := 0
  /-- H2D: a message accepted before a function reset stays at the compute die | 1 | 16 R469 | 0 -/
  oldHeld : Bool := false
  deriving DecidableEq, Repr

/-- A channel on which the host receives (MBX_F2H, MBX_D2H). -/
structure RxChan where
  /-- The held message | 16 x 32, tag 16, sender 8 | 16 R468, R479 Table 16.12 | 0 -/
  msg : Msg := {}
  /-- MBX_*_CTRL.go | 1 | 16 R479 Table 16.12 | 0 -/
  go : Bool := false
  /-- Parts of a message arriving in MBX_DATA messages | 64 bytes | 11 Table 11.9, R363 | 0 -/
  parts : Vector Byte 64 := Vector.replicate 64 0
  /-- Start of the take timer and its limit in µs, while it runs | 64 + 32 | 16 R467 | not running -/
  timer : Option (Nat × Nat) := none
  deriving DecidableEq, Repr

/-- The mailbox channels. -/
structure Mbx where
  /-- MBX_H2F channels CH00-CH15 | 16 | 16 R464, R479 | every channel empty -/
  h2f : Vector TxChan 16 := Vector.replicate 16 {}
  /-- MBX_F2H channels CH00-CH15 | 16 | 16 R464, R479 | every channel empty -/
  f2h : Vector RxChan 16 := Vector.replicate 16 {}
  /-- MBX_H2D channels of each site | 6 x 8 | 16 R464, R479 | every channel empty -/
  h2d : Vector (Vector TxChan 8) 6 := Vector.replicate 6 (Vector.replicate 8 {})
  /-- MBX_D2H channels of each site | 6 x 8 | 16 R464, R479 | every channel empty -/
  d2h : Vector (Vector RxChan 8) 6 := Vector.replicate 6 (Vector.replicate 8 {})
  /-- MBX_RX_MASK_0 and _1 | 64 | 16 R479 Table 16.12 | 0 -/
  rxMask : BitVec 64 := 0
  /-- MBX_TX_MASK_0 and _1 | 64 | 16 R479 Table 16.12 | 0 -/
  txMask : BitVec 64 := 0
  /-- Firmware's queue of replies for each F2H channel, at most 16, oldest first | 16 x 16 messages | 16 R471 | empty -/
  f2hQueue : Vector (List Msg) 16 := Vector.replicate 16 []
  /-- Firmware's queue of replies for each H2D channel, at most 16, oldest first | 48 x 16 messages | 16 R471 | empty -/
  h2dQueue : Vector (Vector (List Msg) 8) 6 := Vector.replicate 6 (Vector.replicate 8 [])
  deriving DecidableEq, Repr

/-- Doorbells. -/
structure Dbl where
  /-- DBL_HOST_PENDING | 32 | 16 R480 Table 16.14 | 0 -/
  host : Word := 0
  /-- DBL_HOST_MASK | 32 | 16 R480 Table 16.14 | 0 -/
  hostMask : Word := 0
  /-- DBL_FW_PENDING | 32 | 16 R480 Table 16.14 | 0 -/
  fw : Word := 0
  /-- The firmware's doorbell mask bits | 32 | 16 R473 | 0 DESIGN CHOICE (log entry 4) -/
  fwMask : Word := 0
  /-- DBL_EVENT.dropped | 6 | 16 R480 Table 16.14 | 0 -/
  event : BitVec 6 := 0
  /-- DBL_EVENT_MASK.mask | 6 | 16 R480 Table 16.14 | 0 -/
  mask : BitVec 6 := 0
  deriving DecidableEq, Repr

/-- Hardware locks. -/
structure Lck where
  /-- Owner code of LCK_00 to LCK_31 | 32 x 4 | 16 R474, R481 Table 16.16 | 0 -/
  owner : Vector (BitVec 4) 32 := Vector.replicate 32 0
  deriving DecidableEq, Repr

/-- One log record (Table 15.6). -/
structure LogRec where
  /-- Local microsecond counter of the event | 64 | 15 R449 Table 15.6 | - -/
  time : Nat
  /-- Class: 0 reported, 1 Corrected, 2 Recoverable, 3 Contained, 4 Fatal | 8 | 15 Table 15.6 | - -/
  cls : BitVec 8
  /-- Block code | 8 | 15 Table 15.6 | - -/
  block : BitVec 8
  /-- Event code | 16 | 18 R529 | - -/
  code : BitVec 16
  /-- Instance | 16 | 18 R529 | - -/
  inst : BitVec 16
  /-- state_epoch after the event of the status register concerned | 16 | 15 R449 | - -/
  epoch : BitVec 16
  /-- Repeat count of a Corrected record | 32 | 18 R508 | - -/
  rep : Word
  /-- Number that selects the record's free diagnostic data | model's own | 18 R529 (layout not specified) | - -/
  seed : Nat
  deriving DecidableEq, Repr

/-- Echo loopback state. -/
structure Echo where
  /-- ERR_ECHO_STATUS.result | 3 | 18 R514 Table 18.9 | 0 idle -/
  result : BitVec 3 := 0
  /-- Mode of the running or last Echo | 2 | 18 R510 | 0 -/
  mode : BitVec 2 := 0
  /-- Port or module of the Echo | 6 | 18 Table 18.9 | 0 -/
  index : BitVec 6 := 0
  /-- Site of a module Echo | 2 | 18 Table 18.9 | 0 -/
  site : BitVec 2 := 0
  /-- Line of a line Echo | 6 | 18 Table 18.9 | 0 -/
  line : BitVec 6 := 0
  /-- Nonce of a fibre Echo | 64 | 18 R511 | 0 -/
  nonce : BitVec 64 := 0
  /-- The nonce has returned, so the pattern is sent | 1 | 18 R511 | 0 -/
  patternOn : Bool := false
  /-- ERR_ECHO_STATUS.worst_lane | 7 | 18 Table 18.9 | 127 -/
  worst : BitVec 7 := 127
  /-- ERR_ECHO_BITS_LO, _HI | 64 | 18 Table 18.9 | 0 -/
  bits : BitVec 64 := 0
  /-- ERR_ECHO_ERR_LO, _HI | 64 | 18 Table 18.9 | 0 -/
  errors : BitVec 64 := 0
  deriving DecidableEq, Repr

/-- The ERR_ block and the log. -/
structure Err where
  /-- ERR_STATUS.state_epoch | 16 | 18 R514 Table 18.6 | 0x0000 -/
  epoch : BitVec 16 := 0
  /-- ERR_EVENT | 7 | 18 R514 Table 18.7 | 0 -/
  event : BitVec 7 := 0
  /-- ERR_EVENT_MASK | 7 | 18 R514 Table 18.7 | 0 -/
  mask : BitVec 7 := 0
  /-- ERR_FIRST_DATA, ERR_STATUS.captured | 256 | 18 R509, Tables 18.6 and 18.8 | no record, reads 0 -/
  first : Option LogRec := none
  /-- ERR_CNT_SEL.block | 5 | 18 Table 18.8 | 0 -/
  cntBlock : BitVec 5 := 0
  /-- ERR_CNT_SEL.class | 3 | 18 Table 18.8 | 0 -/
  cntClass : BitVec 3 := 0
  /-- Event counts by block (index 1-17) and class (0-4) | 18 x 5 x 64 | 18 R507 | 0 -/
  counts : Vector (Vector (BitVec 64) 5) 18 := Vector.replicate 18 (Vector.replicate 5 0)
  /-- ERR_LINE_SEL.port | 6 | 18 Table 18.8 | 0 -/
  lineSelPort : BitVec 6 := 0
  /-- ERR_LINE_SEL.line | 6 | 18 Table 18.8 | 0 -/
  lineSelLine : BitVec 6 := 0
  /-- ERR_ECHO_ registers and the running Echo | see Echo | 18 R510-R512 | idle -/
  echo : Echo := {}
  /-- Log ring in log SRAM, newest first, at most 32,768 records | 32,768 x 256 | 15 R449 | empty (log entry 5) -/
  log : List LogRec := []
  /-- MGT_LOG_COUNT | 32 | 15 R457 Table 15.10 | 0 -/
  logCount : Word := 0
  deriving DecidableEq, Repr

/-- State of one firmware slot in the boot record (R440, MGT_BOOT coding). -/
inductive SlotState where
  | empty
  | valid
  | pending
  | confirmed
  | failed
  deriving DecidableEq, Repr

/-- One firmware slot of the boot record. -/
structure BootSlot where
  /-- Slot state | 4 | 15 R440, Table 15.10 | empty, kept in flash (log entry 5) -/
  state : SlotState := .empty
  /-- security_version of the slot | 8 | 15 R440 | 0, kept in flash (log entry 5) -/
  svn : Nat := 0
  /-- Package digest | 256 | 15 R440 | 0, kept in flash (log entry 5) -/
  digest : BitVec 256 := 0
  /-- Boot attempts | 8 | 15 R440 | 0, kept in flash (log entry 5) -/
  attempts : Nat := 0
  deriving DecidableEq, Repr

/-- A copy of the boot record in the boot control sector (R439, Table 15.1). -/
structure BootCopy where
  /-- Slots A and B as this copy gives them | see BootSlot | 15 R439, R440 | empty (log entry 5) -/
  slots : Vector BootSlot 2 := Vector.replicate 2 {}
  /-- Write count | - | 15 R439 | 0 (log entry 5) -/
  count : Nat := 0
  /-- Its CRC-32 agrees | 1 | 15 R439 | 0 (log entry 5) -/
  ok : Bool := false
  deriving DecidableEq, Repr

/-- An entry of the image key table of the running firmware (R443). -/
structure KeyEntry where
  /-- Public key digest | 256 | 15 R443 | none -/
  digest : BitVec 256
  /-- Floor | 16 | 15 R443 | none -/
  floor : Nat
  /-- Flags, bit 0 valid | 16 | 15 R443 | none -/
  flags : BitVec 16
  deriving DecidableEq, Repr

/-- What an open update is doing (R446). -/
inductive UpdPhase where
  | erasing
  | ready
  | programming (off len src : Nat)
  | verifying
  | verified
  | activating
  deriving DecidableEq, Repr

/-- An open firmware update. -/
structure FwUpdate where
  /-- Path that opened it | 1 | 15 R446 | none -/
  path : MgtPath
  /-- Package size | 64 | 15 R444 Table 15.3 | none -/
  size : Nat
  /-- Tag of the command being carried out | 16 | 15 R444 | none -/
  tag : BitVec 16
  /-- Step of the update | - | 15 R446 | none -/
  phase : UpdPhase
  /-- The host wrote the half while a chunk was being programmed from it, so the chunk's bytes are unpredictable | 1 | 15 R444, 03 R89 | none -/
  torn : Bool := false
  deriving DecidableEq, Repr

/-- A command of Table 15.3 that is being carried out beside an update. -/
inductive MgtRun where
  | confirm (p : MgtPath) (tag : BitVec 16)
  | attest (p : MgtPath) (tag : BitVec 16) (body : List Byte)
  | combSwap (p : MgtPath) (tag : BitVec 16) (group die : Nat)
  | fatalClear (p : MgtPath) (tag : BitVec 16)
  deriving DecidableEq, Repr

/-- A fatal record (R450). -/
structure FatalRec where
  /-- Time of the Fatal event | 64 | 15 R450 | none -/
  time : Nat
  /-- Newest log records, at most 256 | 256 x 256 | 15 R450 | none -/
  log : List LogRec
  /-- Last sensor snapshot: the sensors, THM_HOT and PWR_POWER as published | 150 x 17, 4 x 16 | 15 R450, R437 | none -/
  snap : List (Bool × Int) × (Int × Int) × (Nat × Nat)
  /-- Number that selects the free header bytes (layout not specified) | model's own | 15 R450 | none -/
  seed : Nat
  deriving DecidableEq, Repr

/-- A record of the aging log (R312, R420). -/
inductive AgingRec where
  | comb (group die : Nat) (microAmps : Nat) (launch : Int) (temp8 : Int) (hours : Nat)
  | cluster (c limit : Nat)
  deriving DecidableEq, Repr

/-- The management complex. -/
structure Mgt where
  /-- MGT_STATUS.fw_state | 4 | 15 R457 Table 15.10 | 0 -/
  fwState : BitVec 4 := 0
  /-- MGT_STATUS.state_epoch | 16 | 15 R457 Table 15.10 | 0x0000 -/
  epoch : BitVec 16 := 0
  /-- MGT_STATUS.lockstep | 4 | 15 R457 Table 15.10 | 0 -/
  lockstep : BitVec 4 := 0
  /-- Time of the last lockstep disagreement | 64 | 15 R435 | none -/
  lastDisagree : Option Nat := none
  /-- MGT_STATUS.fatal_pending: fatal records awaiting persisting, oldest first | list | 15 R450, Table 15.10, 00 R8 | none -/
  fatalPending : List FatalRec := []
  /-- MGT_FW_VERSION | 32 | 15 Table 15.10 | 0 -/
  version : Word := 0
  /-- Boot record of slots A and B, the copy last written (flash) | see BootSlot | 15 R440 | empty (log entry 5) -/
  slots : Vector BootSlot 2 := Vector.replicate 2 {}
  /-- Place of that copy in the boot control sector | 1 | 15 R439, Table 15.1 | 0 (log entry 5) -/
  bootAt : Fin 2 := 0
  /-- Write count of that copy | - | 15 R439 | 0 (log entry 5) -/
  bootCount : Nat := 0
  /-- The other copy of the boot record | see BootCopy | 15 R439 | empty, CRC wrong (log entry 5) -/
  bootOther : BootCopy := {}
  /-- MGT_BOOT of the last boot is read from the boot record; zero before boot | 1 | 15 Table 15.10 | 0 -/
  booted : Bool := false
  /-- MGT_BOOT.running | 1 | 15 Table 15.10 | 0 -/
  running : Fin 2 := 0
  /-- Root key slot that verified the running firmware | 1 | 15 R458 Table 15.13 | 0 -/
  rootSlot : Fin 2 := 0
  /-- Running security_version, SEC_STATUS.fw_svn | 8 | 15 Table 15.13 | 0 -/
  fwSvn : Nat := 0
  /-- Digest of the running package | 256 | 15 R448 Table 15.5 | 0 -/
  fwDigest : BitVec 256 := 0
  /-- Revoke flag of the running package | 1 | 15 R445, Table 15.2 | 0 -/
  fwRevoke : Bool := false
  /-- Image key table of the running firmware | 8 x 512 | 15 R443 | empty -/
  keys : List KeyEntry := []
  /-- Bytes of the running key table | list | 15 R448 keytab_digest | empty -/
  keyBytes : List Byte := []
  /-- MGT_EVENT | 7 | 15 Table 15.11 | 0 -/
  event : BitVec 7 := 0
  /-- MGT_EVENT_MASK | 7 | 15 Table 15.11 | 0 -/
  mask : BitVec 7 := 0
  /-- MGT_LOG_SEL.index | 15 | 15 Table 15.10 | 0 -/
  logSel : BitVec 15 := 0
  /-- MGT_FLASH.present | 1 | 15 Table 15.10 | 0 -/
  flashPresent : Bool := false
  /-- MGT_FLASH.failures | 8 | 15 Table 15.10 | 0 -/
  flashFailures : BitVec 8 := 0
  /-- Whether a flash is fitted and answers (R439) | 1 | 15 R439, 17 Table 17.6 | 1 DESIGN CHOICE (log entry 5) -/
  flashFitted : Bool := true
  /-- Flash contents, slots A and B and the integrator area | 2^26 bytes | 15 R439 Table 15.1 | no byte listed (log entry 5) -/
  flash : Mem := []
  /-- Aging log in flash, newest first | list | 10 R312, 14 R420, 15 Table 15.1 | empty (log entry 5) -/
  aging : List AgingRec := []
  /-- Comb dies D0 to D3 of CG0 to CG3 that a planned swap has taken out, never used again; kept with the aging log (log entry 196) | 16 | 10 R315 | as the flash holds, none when new -/
  swappedOut : BitVec 16 := 0
  /-- Weak-row log in flash, global row keys | list | 13 R407, 15 Table 15.1 | empty (log entry 5) -/
  weakRows : List Nat := []
  /-- Fatal records in flash, newest first, at most 128 | list | 15 R450, Table 15.1 | empty (log entry 5) -/
  fatals : List FatalRec := []
  /-- MGT_CAP_MGMT.cap_w | 10 | 15 Table 15.10 | 850 -/
  capMgmt : BitVec 10 := 850
  /-- Open firmware update | see FwUpdate | 15 R446 | none -/
  update : Option FwUpdate := none
  /-- Management commands being carried out | list | 15 R444 | none -/
  runs : List MgtRun := []
  /-- serial_no of the next attestation report | 16 | 15 R448 Table 15.5 | 0 -/
  reportSerial : BitVec 16 := 0
  /-- MGT_REPORT | 32 KiB | 15 Table 15.9, R448 | no byte listed -/
  report : Mem := []
  /-- MGT_I3C_STAGE | 4 KiB | 15 Table 15.9 | no byte listed -/
  stage : Mem := []
  /-- MGT_I3C_MBX_DATA_00 to _15 | 16 x 32 | 15 Table 15.10 | 0 -/
  i3cMbx : Vector Word 16 := Vector.replicate 16 0
  /-- MGT_I3C_MBX_CTRL.go | 1 | 15 Table 15.10 | 0 -/
  i3cGo : Bool := false
  /-- MGT_I3C_RSP_DATA_00 to _15 | 16 x 32 | 15 Table 15.10 | 0 -/
  i3cRsp : Vector Word 16 := Vector.replicate 16 0
  /-- MGT_I3C_RSP_CTRL.go | 1 | 15 Table 15.10 | 0 -/
  i3cRspGo : Bool := false
  /-- Responses waiting for MGT_I3C_RSP_CTRL.go to clear, oldest first | list | 15 R453 | none -/
  i3cHeld : List (Vector Word 16) := []
  /-- I3C dynamic address | 7 | 15 R451 | none assigned -/
  i3cAddr : Option (BitVec 7) := none
  /-- High words latched by low-word reads over I3C | 32 each | 00 R13, 15 R452 | none latched -/
  i3cLatch : List (Nat × Word) := []
  /-- Last offset written over I3C | 32 | 15 R452 | 0 DESIGN CHOICE (log entry 6) -/
  i3cOff : Word := 0
  deriving DecidableEq, Repr

/-- The security registers. -/
structure Sec where
  /-- SEC_STATUS.counter, the anti-rollback counter c (fuses) | 8 | 15 R438, R458 Table 15.13 | Fused (Config.fusedCounter) -/
  counter : Nat
  /-- SEC_STATUS.slot0_revoked (fuse) | 1 | 15 R438, Table 15.13 | Fused (Config.fusedSlot0Revoked) -/
  slot0Revoked : Bool
  /-- SEC_STATUS.att_ready, attestation key derived | 1 | 15 Table 15.13 | 0 -/
  attReady : Bool := false
  /-- SEC_KEY_SEL.word | 4 | 15 Table 15.13 | 0 -/
  keyWord : BitVec 4 := 0
  /-- SEC_KEY_SEL.entry | 4 | 15 Table 15.13 | 0 -/
  keyEntry : BitVec 4 := 0
  /-- SEC_EVENT | 7 | 15 Table 15.13 | 0 -/
  event : BitVec 7 := 0
  /-- SEC_EVENT_MASK | 7 | 15 Table 15.13 | 0 -/
  mask : BitVec 7 := 0
  deriving DecidableEq, Repr

end Sys2Proof.Machine
end

