-- ==== Sys2Proof/Machine/StPower.lean ====
section
/-!
DEFINITION. The state of power, droop and thermal control, of the Reservoir and of the comb sources.
-/

namespace Sys2Proof.Machine

/-- POWER record (Table 3.10). -/
structure PowerRec where
  /-- cap_w | 16 | 03 R82 Table 3.10 | 850 without an image (R419) -/
  cap : Nat := 850
  /-- op_start | 8 | 03 Table 3.10 | 0 -/
  opStart : Nat := 0
  /-- op_max | 8 | 03 Table 3.10 | 6 without an image (R419) -/
  opMax : Nat := 6
  /-- op_min | 8 | 03 Table 3.10 | 0 without an image (R419) -/
  opMin : Nat := 0
  /-- Priority, kept longest first | 3 x 8 | 03 Table 3.10 | 1, 2, 3 (R419) -/
  priority : List Nat := [1, 2, 3]
  /-- Heavy-phase hints honoured | 1 | 03 Table 3.10 | 0 (R419) -/
  hints : Bool := false
  /-- Dim plans in shedding order | 16 x 16 | 03 Table 3.10 | none (R419) -/
  dim : List (BitVec 16) := []
  deriving DecidableEq, Repr, Inhabited

/-- The power controller. -/
structure Pwr where
  /-- PWR_CTRL.op_ceiling | 3 | 14 R433 Table 14.9 | 7 -/
  opCeiling : Nat := 7
  /-- PWR_CTRL.hints_off | 1 | 14 Table 14.9 | 0 -/
  hintsOff : Bool := false
  /-- PWR_STATUS.state_epoch | 16 | 14 Table 14.9 | 0x0000 -/
  epoch : BitVec 16 := 0
  /-- PWR_STATUS.op, the operating point in force | 3 | 14 Table 14.9 | 0 -/
  op : Nat := 0
  /-- Operating point whose higher voltage is commanded and awaited | 3 | 14 R417 | none -/
  raise : Option Nat := none
  /-- The rail reads within 5 mV of the set point of the awaited increase | 1 | 14 R417 | 0 -/
  railOk : Bool := false
  /-- PWR_STATUS.cap_unattainable | 1 | 14 R424, Table 14.9 | 0 -/
  capUnattainable : Bool := false
  /-- VRALERT_N asserted (pulse of 20 ns or more) | 1 | 14 R425 | 0 -/
  alertPin : Bool := false
  /-- OP0 is held for 100 µs after the release of VRALERT_N | 1 | 14 R425 | 0 -/
  alertHold : Bool := false
  /-- Stretched branches: C00-C15, fabric and ERU, SQ-A, SQ-B | 19 | 14 R426 | 0 -/
  droop : BitVec 19 := 0
  /-- The droop has been clear for 1 µs | 1 | 14 R427 | 1 (DEDUCED: no droop has been) -/
  droopQuiet : Bool := true
  /-- Compute level of the cap controller, 7 when not shed | 3 | 14 R422 Table 14.3 | 7 -/
  compute : Nat := 7
  /-- POWER record in force: that of the committed image from the next 1 ms window on | see PowerRec | 03 R82, R94 Table 3.18, 14 Table 14.7 | the defaults of R419 -/
  policy : PowerRec := {}
  /-- op_start of a full commit, until Lit has taken the operating point there (log entry 45) | 8 | 03 R82 Table 3.10 | none -/
  start : Option Nat := none
  /-- Memory steps shed by the cap | 2 | 14 R422 Table 14.3 | 0 -/
  memCap : Nat := 0
  /-- Memory steps by the temperature of each stack | 2 x 2 | 14 R428 Table 14.5 | 0 -/
  memHeat : Vector Nat 2 := Vector.replicate 2 0
  /-- Dim level D | 5 | 14 R422, 07 R221 | 0 -/
  dim : Nat := 0
  /-- Thermal ceiling by the junction | 3 | 14 Table 14.5 | 7 -/
  junctionCeiling : Nat := 7
  /-- Thermal ceiling by ring zones | 3 | 14 Table 14.5 | 7 -/
  zoneCeiling : Nat := 7
  /-- OP0 forced at 103 °C | 1 | 14 Table 14.5 | 0 -/
  heatForced : Bool := false
  /-- OP0 forced because fewer than 48 junction sensors remain | 1 | 14 R428 | 0 -/
  sensorForced : Bool := false
  /-- Hints in force: operating point and the serial at whose commit each ends | list | 14 R419 | none -/
  hints : List (Nat × Nat) := []
  /-- PWR_CAP_HOST.cap_w | 10 | 14 Table 14.10 | 850 -/
  capHost : BitVec 10 := 850
  /-- PWR_CAP_EFF.cap_w | 10 | 14 Table 14.10 | 850 -/
  capEff : BitVec 10 := 850
  /-- PWR_CAP_EFF.source | 2 | 14 Table 14.10 | 0 -/
  capSource : BitVec 2 := 0
  /-- Last 100 samples of the input power in µW, newest first | 100 x 32 | 14 R412, R421 | none, PWR_POWER reads 0 -/
  samples : List Nat := []
  /-- What the tiles' estimates are scaled by, once per ms, to sum to P | - | 14 R414 | 1 (fused coefficients) -/
  tileScale : Rat := 1
  /-- Sum of the tiles' last estimates before scaling, µW | - | 14 R414 | 0 -/
  tileRaw : Nat := 0
  /-- Energy in pJ, PWR_ENERGY is this divided by 10^6 | 64 (µJ) | 14 R413 | 0 -/
  energy : Nat := 0
  /-- Samples since the cap controller last took or restored a step | - | 14 R422 | 0 -/
  quiet : Nat := 0
  /-- Steps taken and not yet settled | - | 14 R422 | 0 -/
  unsettled : Nat := 0
  /-- Consecutive samples fully shed with pred above the cap | - | 14 R424 | 0 -/
  overFor : Nat := 0
  /-- Consecutive samples with pred at or below the cap | - | 14 R424 | 0 -/
  underFor : Nat := 0
  /-- PWR_REASONS.active | 11 | 14 R431 Table 14.11 | 0 -/
  reasons : BitVec 11 := 0
  /-- Cumulative active µs of each reason up to its last end | 11 x 64 | 14 R431 | 0 -/
  reasonDur : Vector Nat 11 := Vector.replicate 11 0
  /-- Local µs counter at each reason's last start | 11 x 64 | 14 R431 | 0 -/
  reasonLast : Vector Nat 11 := Vector.replicate 11 0
  /-- PWR_REASON_SEL.reason | 4 | 14 Table 14.11 | 0 -/
  reasonSel : BitVec 4 := 0
  /-- PWR_CLUSTER_SEL.cluster | 4 | 14 Table 14.11 | 0 -/
  clusterSel : BitVec 4 := 0
  /-- PWR_POWER.avg_1ms and .sample as published, µW | 2 x 16 (0.1 W) | 14 Table 14.10, 15 R437 | 0 -/
  shown : Nat × Nat := (0, 0)
  /-- PWR_CLUSTER.limit of each cluster, 10 MHz units | 16 x 8 | 14 R420, Table 14.11 | Fused (Config.clusterMax), or the aging log's value -/
  limits : Vector Nat 16 := Vector.ofFn fun c => (Config.clusterMax c).val
  /-- PWR_EVENT | 6 | 14 Table 14.12 | 0 -/
  event : BitVec 6 := 0
  /-- PWR_EVENT_MASK | 6 | 14 Table 14.12 | 0 -/
  mask : BitVec 6 := 0
  deriving DecidableEq, Repr

/-- Thermal sensors and registers. -/
structure Thm where
  /-- Junction sensors as last sampled, 0.125 °C; none for a sensor that failed its self-check | 64 x 16 | 14 R428 | 0 DESIGN CHOICE (log entry 7) -/
  junction : Vector (Option Int) 64 := Vector.replicate 64 (some 0)
  /-- Sensor snapshot published every 1 ms: valid and 0.125 °C, by THM_SENS_SEL number | 150 x 17 | 15 R437, 14 Table 14.14 | 0 -/
  snap : List (Bool × Int) := []
  /-- THM_HOT.junction and .zone as published | 2 x 16 | 14 Table 14.14, 15 R437 | 0 -/
  hot : Int × Int := (0, 0)
  /-- THM_SENS_SEL.sensor | 8 | 14 Table 14.14 | 0 -/
  sel : BitVec 8 := 0
  /-- THM_WARN.junction_warn | 8 | 14 Table 14.14 | 95 -/
  warn : BitVec 8 := 95
  /-- Sensors beyond the junction's that fail their self-check, by THM_SENS_SEL number | 86 | 14 R428, Table 14.14 | none -/
  failed : List Nat := []
  /-- Conditions of the junction that hold: junction_warn, junction_throttle, junction_forced | 3 | 14 R428 | 0 -/
  cond : BitVec 3 := 0
  /-- THM_EVENT | 8 | 14 Table 14.14 | 0 -/
  event : BitVec 8 := 0
  /-- THM_EVENT_MASK | 8 | 14 Table 14.14 | 0 -/
  mask : BitVec 8 := 0
  deriving DecidableEq, Repr

/-- One HBM4E stack. -/
structure HbmStack where
  /-- HBM_STATUS.state: 0 Off, 1 Training, 2 Ready, 3 Failed | 4 | 13 Table 13.7 | 0 -/
  state : BitVec 4 := 0
  /-- HBM_STATUS.rate | 2 | 13 Table 13.7 | 0 -/
  rate : BitVec 2 := 0
  /-- HBM_TEMP: hottest die, 0.125 °C | 16 | 13 Table 13.11 | 0 -/
  temp : Int := 0
  /-- HBM counters 0x00 to 0x07 | 8 x 64 | 13 Table 13.11 | 0 -/
  counters : Vector (BitVec 64) 8 := Vector.replicate 8 0
  deriving DecidableEq, Repr

/-- The Reservoir. -/
structure Hbm where
  /-- Stacks H0 and H1 | see HbmStack | 13 R399 | Off -/
  stack : Vector HbmStack 2 := Vector.replicate 2 {}
  /-- Contents of both stacks by global address | 2^37 bytes | 13 R401 | no byte listed (log entry 2) -/
  mem : Mem := []
  /-- Poisoned 128-bit words, by global address ÷ 16 | list | 13 R403 | none -/
  poison : List Nat := []
  /-- Rows with corrections and their number of occasions | list | 13 R407 | none -/
  rows : List (Nat × Nat) := []
  /-- Next word of the patrol scrub | 33 | 13 R407 | 0 DESIGN CHOICE (log entry 8) -/
  scrubPos : Nat := 0
  /-- HBM_STATUS.state_epoch | 16 | 13 Table 13.7 | 0x0000 -/
  epoch : BitVec 16 := 0
  /-- HBM_APERTURE.base | 7 | 13 Table 13.7 | 0 -/
  base : BitVec 7 := 0
  /-- HBM_SCRUB.enable | 1 | 13 Table 13.8 | 1 -/
  scrubOn : Bool := true
  /-- HBM_SCRUB.period_h | 8 | 13 Table 13.8 | 24 -/
  period : BitVec 8 := 24
  /-- HBM_SCRUB.passes | 16 | 13 Table 13.8 | 0 -/
  passes : BitVec 16 := 0
  /-- HBM_EVENT | 6 | 13 Table 13.9 | 0 -/
  event : BitVec 6 := 0
  /-- HBM_EVENT_MASK | 6 | 13 Table 13.9 | 0 -/
  mask : BitVec 6 := 0
  /-- HBM_ERR_ADDR | 37 | 13 Table 13.10 | 0 -/
  errAddr : BitVec 37 := 0
  /-- HBM_ERR_INFO.source | 4 | 13 Table 13.10 | 0 -/
  errSource : BitVec 4 := 0
  /-- HBM_ERR_INFO.region_id | 8 | 13 Table 13.10 | 0xFF -/
  errRegion : BitVec 8 := 0xFF
  /-- HBM_CNT_SEL.counter | 8 | 13 Table 13.11 | 0 -/
  cntSel : BitVec 8 := 0
  /-- HBM_CNT_SEL.stack | 1 | 13 Table 13.11 | 0 -/
  cntStack : Fin 2 := 0
  deriving DecidableEq, Repr

/-- States of a comb die (chapter 10). -/
inductive DieState where
  | off
  | warming
  | active
  | standby
  | failed
  | swappedOut
  deriving DecidableEq, Repr

/-- One comb die. -/
structure Die where
  /-- Die state | - | 10 R314-R316, 17 R489 | off -/
  state : DieState := .off
  /-- Gain current in µA | 24 | 10 R310, R327 | 0 -/
  current : Nat := 0
  /-- Die temperature, 0.125 °C | 16 | 10 R309 | 0 DESIGN CHOICE (log entry 7) -/
  temp8 : Int := 0
  /-- The grid loop holds L00 on its nominal frequency | 1 | 10 R309 | 0 -/
  gridHeld : Bool := false
  /-- The die is being lowered by the 70 °C rule | 1 | 10 R311 | 0 -/
  reducing : Bool := false
  /-- Offset of L00 from nominal, MHz, as last measured | - | 10 R309 | 0 -/
  offsetMhz : Int := 0
  /-- Temperature that the grid loop sets, 0.125 °C | 16 | 10 R309 | 0 DESIGN CHOICE (log entry 7) -/
  set8 : Nat := 0
  /-- Saturable-absorber bias | 16 | 10 R309 | 0 DESIGN CHOICE (log entry 7) -/
  absorber : BitVec 16 := 0
  /-- Amount by which the last run of the grid loop moves the frequency of L00, MHz | - | 10 R309 | 0 -/
  movedMhz : Int := 0
  /-- Median launch as last estimated, 0.01 dBm OMA | 16 | 10 R310 | 0 DESIGN CHOICE (log entry 7) -/
  launch : Int := 0
  /-- Conditions already reported: current at warning, at the limit, launch below -1.0 dBm | 3 | 10 R310, R311, R315 | 0 -/
  reported : BitVec 3 := 0
  /-- Hours in service | 32 | 10 R312 | 0 -/
  hours : Nat := 0
  deriving DecidableEq, Repr

/-- Why D4 of a group is being brought up. -/
inductive SpareTask where
  | replace (d : Fin 4)
  | planned (d : Fin 4)
  deriving DecidableEq, Repr

/-- One comb group. -/
structure CGroup where
  /-- Comb dies D0 to D4 | 5 | 10 R308 | off -/
  die : Vector Die 5 := Vector.replicate 5 {}
  /-- Local time of the start of the group's warm-up | 64 | 17 R489 | not started -/
  started : Option Nat := none
  /-- The group is locked | 1 | 17 R489 | 0 -/
  locked : Bool := false
  /-- The group is exhausted | 1 | 10 R316 | 0 -/
  exhausted : Bool := false
  /-- Position of D4 behind the MZI switches: the active die it stands for | 3 | 10 R314, R315 | none (absorber) -/
  spareAt : Option (Fin 4) := none
  /-- Replacement or swap under way | 3 | 10 R314, R315 | none -/
  task : Option SpareTask := none
  deriving DecidableEq, Repr

/-- The comb sources. -/
structure Comb where
  /-- Comb groups CG0 to CG3 | 4 | 10 R308 | not started -/
  group : Vector CGroup 4 := Vector.replicate 4 {}
  /-- Ports whose estimates are excluded from the median | 64 | 10 R310 | 0 -/
  excluded : BitVec 64 := 0
  /-- Local time since which a port's estimate disagrees by more than 1.0 dB | list | 10 R310 | none -/
  disagree : List (Port × Nat) := []
  deriving DecidableEq, Repr

end Sys2Proof.Machine
end

