-- ==== Sys2Proof/Machine/StSite.lean ====
section
/-!
DEFINITION. The state of the die-to-die sites: Wide Port W0-W3, Reach Port T0-T1, their sidebands, streams and credits.
-/

namespace Sys2Proof.Machine

/-- A sideband message: type and the 16 body bytes (Table 11.8). -/
structure SbMsg where
  /-- Message type | 8 | 11 R358 Table 11.9 | - -/
  typ : Byte
  /-- Message body | 16 bytes | 11 R358 Table 11.8 | - -/
  body : List Byte
  /-- By site that serves the compute die: its transfers with a lower number go before the message | list | 11 R361, 12 R385 | none -/
  after : List (SiteIx × Nat) := []
  deriving DecidableEq, Repr

/-- The sideband link of one site (R359). -/
structure Sideband where
  /-- Next sequence number to send | 8 | 11 R359 | 0 -/
  txSeq : BitVec 8 := 0
  /-- Sent and not acknowledged, oldest first, at most 128 | 128 messages | 11 R359 | empty -/
  unacked : List (BitVec 8 × SbMsg) := []
  /-- How many of the newest unacknowledged messages are to be resent | 8 | 11 R359 | 0 -/
  resend : Nat := 0
  /-- Messages waiting for their first frame, oldest first | list | 11 R358 | empty -/
  queue : List SbMsg := []
  /-- Next sequence number expected from the partner adapter | 8 | 11 R359 | 0 -/
  rxSeq : BitVec 8 := 0
  /-- A RETRY naming the expected number is owed | 1 | 11 R359 | 0 -/
  retryOwed : Bool := false
  /-- WP_SB_STATUS.resent, TP_SB_STATUS.resent | 16 | 11 R369 Table 11.19, 12 Table 12.19 | 0 -/
  resent : BitVec 16 := 0
  /-- WP_SB_STATUS.up, TP_SB_STATUS.up | 1 | 11 Table 11.19, 12 Table 12.19 | 0 -/
  up : Bool := false
  deriving DecidableEq, Repr

/-- A transfer that is arriving or waiting for its operation (R353, R355). -/
structure Transfer where
  /-- Stream | 9 | 11 R354 | - -/
  stream : Nat
  /-- Offset in 4 KiB units | 16 | 11 R354 | - -/
  offset : Nat
  /-- Length in bytes | 29 | 11 R354 | - -/
  length : Nat
  /-- Bytes received or to be sent | list | 11 R353 | - -/
  data : List Byte
  /-- Frames or codewords it holds in the inbound buffer | - | 11 R356 | - -/
  frames : Nat
  /-- Number of a transfer to the compute die, in the order of their queuing | - | 11 R361, 12 R385 | - -/
  id : Nat := 0
  deriving DecidableEq, Repr

/-- One stream of a site in the direction from the compute die (R352, R356). -/
structure RxStream where
  /-- Frames advertised | 16 | 11 R356, 12 R384 | - -/
  advertised : Nat := 0
  /-- Cumulative frames freed modulo 65,536 | 16 | 11 R356 | 0 -/
  freed : BitVec 16 := 0
  /-- Frames freed since the last CREDIT | - | 11 R356 | 0 -/
  owed : Nat := 0
  /-- Open transfer | - | 11 R353 | none -/
  opened : Option Transfer := none
  deriving DecidableEq, Repr

/-- One stream of a site in the direction to the compute die (R352, R356). -/
structure TxStream where
  /-- Frames the partner adapter advertised | 16 | 11 R356 | - -/
  limit : Nat := 0
  /-- Head and data frames sent | - | 11 R356 | 0 -/
  spent : Nat := 0
  /-- Frames the partner adapter freed, unwrapped | - | 11 R356 | 0 -/
  freed : Nat := 0
  /-- Window at the compute die in bytes | 29 | 11 R355 Table 11.9 | 0 -/
  window : Nat := 0
  /-- CREDIT_INIT received | 1 | 11 Table 11.5 | 0 -/
  inited : Bool := false
  /-- Transfers waiting, oldest first; the first is open when its head has been sent | list | 11 R353 | empty -/
  queue : List Transfer := []
  /-- The head of the first transfer has been sent | 1 | 11 R353 | 0 -/
  opened : Bool := false
  deriving DecidableEq, Repr

/-- What every die-to-die site keeps. -/
structure Site where
  /-- WP_STATUS.state, TP_STATUS.state: 0 Off, 1 Reset, 2 Training, 3 Active, 4 Repair or Retest, 5 Contained, 6 Disabled, 7 Test | 4 | 11 R369 Table 11.18, 12 Table 12.19 | 0 -/
  state : BitVec 4 := 0
  /-- WP_STATUS.step, TP_STATUS.step | 4 | 11 Table 11.18, 12 Table 12.19 | 0 -/
  step : BitVec 4 := 0
  /-- WP_STATUS.reason, TP_STATUS.reason | 4 | 11 Table 11.18, 12 Table 12.19 | 0 -/
  reason : BitVec 4 := 0
  /-- WP_STATUS.hold, TP_STATUS.hold | 1 | 11 Table 11.18, 12 Table 12.19 | 0 -/
  hold : Bool := false
  /-- WP_STATUS.penumbra, TP_STATUS.penumbra | 1 | 11 Table 11.18, 12 Table 12.19 | 0 -/
  penumbra : Bool := false
  /-- WPn_RSTN or TPn_RSTN asserted | 1 | 11 R332, 12 R370 | 1 -/
  rstn : Bool := true
  /-- WP_STATUS.state_epoch, TP_STATUS.state_epoch | 16 | 11 Table 11.18, 12 Table 12.19 | 0x0000 -/
  epoch : BitVec 16 := 0
  /-- WP_EVENT (11 bits) or TP_EVENT (10 bits) | 11 | 11 Table 11.20, 12 Table 12.19 | 0 -/
  event : BitVec 11 := 0
  /-- WP_EVENT_MASK or TP_EVENT_MASK | 11 | 11 Table 11.20, 12 Table 12.19 | 0 -/
  mask : BitVec 11 := 0
  /-- WP_LEVEL.settled, TP_LEVEL.settled | 16 | 11 Table 11.19, 12 Table 12.19 | 0x0000 -/
  settled : BitVec 16 := 0
  /-- WP_LEVEL.partner_high, TP_LEVEL.partner_high | 16 | 11 Table 11.19, 12 Table 12.19 | 0x0000 -/
  partnerHigh : BitVec 16 := 0
  /-- LEVEL received in this training | 1 | 11 Table 11.5, R349 | 0 -/
  levelSeen : Bool := false
  /-- WP_LATENCY.partner | 8 | 11 R346, Table 11.19 | 0 -/
  partnerLatency : BitVec 8 := 0
  /-- WP_LATENCY.pad, the pad in force | 4 | 11 R345, Table 11.19 | 0 -/
  pad : BitVec 4 := 0
  /-- The sideband | see Sideband | 11 R358, 12 R376 | down -/
  sb : Sideband := {}
  /-- Streams from the compute die | 512 | 11 R352 | none bound -/
  rx : List (Nat × RxStream) := []
  /-- Streams to the compute die | 512 | 11 R352 | none bound -/
  tx : List (Nat × TxStream) := []
  /-- Transfers complete and not yet taken by an operation, oldest first | list | 11 R355 | empty -/
  inbound : List Transfer := []
  /-- Number of the next transfer to the compute die | - | 11 R361, 12 R385 | 0 -/
  nextId : Nat := 0
  /-- Next TX stream in round robin (Reach Port) | 9 | 12 R384 | 0 -/
  rr : Nat := 0
  /-- Counters of the site: 0x08, 0x09, 0x0A of Table 11.17, 0x03 to 0x08 of Table 12.17 | 16 x 64 | 11 Table 11.17, 12 Table 12.17 | 0 -/
  counters : Vector (BitVec 64) 16 := Vector.replicate 16 0
  deriving DecidableEq, Repr

/-- What a repair of a module or of the sideband is doing (Table 11.4). -/
inductive RepairPhase where
  | idle
  | requested
  | testing
  | mapping
  deriving DecidableEq, Repr

/-- One direction of a module or of the sideband. -/
structure LaneDir where
  /-- Good physical lanes, data lanes then spares | 68 | 11 R340, Table 11.16 | 0 -/
  good : BitVec 68 := 0
  /-- Suspected lanes | 68 | 11 R341, Table 11.15 | 0 -/
  suspected : BitVec 68 := 0
  /-- How often each lane has been suspected since training | list | 11 R341 | 0 -/
  count : List (Nat × Nat) := []
  /-- Map named in LANE_MAP and its frame | 32 + 68 | 11 R342 Table 11.4, Table 11.9 | none -/
  nextMap : Option (Word × BitVec 68) := none
  deriving DecidableEq, Repr

/-- One module of a Wide Port site; index 32 stands for the sideband. -/
structure Module where
  /-- Direction from the compute die | see LaneDir | 11 R340 | unused -/
  rx : LaneDir := {}
  /-- Direction to the compute die | see LaneDir | 11 R340 | unused -/
  tx : LaneDir := {}
  /-- A repair is due | 1 | 11 R341 | 0 -/
  due : Bool := false
  /-- Local time at which the repair fell due | 64 | 11 R341 | 0 -/
  dueAt : Nat := 0
  /-- A commit has come since the repair fell due | 1 | 11 R341 | 0 -/
  atCommit : Bool := false
  /-- Step of the repair under way | 2 | 11 R342 Table 11.4 | idle -/
  phase : RepairPhase := .idle
  /-- REPAIR ready received | 1 | 11 Table 11.4 | 0 -/
  partnerReady : Bool := false
  /-- The partner adapter's LANE_MAP of the repair under way has come | 1 | 11 Table 11.4 | 0 -/
  mapSeen : Bool := false
  /-- The lanes of the last test frame received | 68 x 64 | 11 R348 | none -/
  wtLast : List DWord := []
  /-- Lanes on which the test under way has found an error | 68 | 11 R342, R348 | 0 -/
  wtBad : BitVec 68 := 0
  /-- Good sets that WT-B has reported, by lane | list | 11 R348 | none -/
  reports : List (Nat × BitVec 68) := []
  /-- Frames received since training | 32 | 11 R351 Table 11.6 | 0 -/
  rxFrame : Word := 0
  /-- Frames sent since training | 32 | 11 R351 Table 11.6 | 0 -/
  txFrame : Word := 0
  /-- WT-A frames sent since step 2 of training began | - | 11 R348 | 0 -/
  wtFrames : Nat := 0
  /-- Counters 0x00 to 0x07 of Table 11.17 | 8 x 64 | 11 Table 11.17 | 0 -/
  counters : Vector (BitVec 64) 8 := Vector.replicate 8 0
  deriving DecidableEq, Repr

/-- What a Wide Port site keeps beside Site. -/
structure WideSite where
  /-- Modules M00-M31, and the sideband as index 32 | 33 | 11 R330 | unused -/
  mods : Vector Module 33 := Vector.replicate 33 {}
  deriving DecidableEq, Repr

/-- One lane of a Reach Port site. -/
structure ReachLane where
  /-- TP_LANE_STATUS.state: 0 unused, 1 good, 2 suspected, 3 failed | 2 | 12 Table 12.16 | 0 -/
  state : BitVec 2 := 0
  /-- TP_LANE_STATUS.fom | 8 | 12 Table 12.16 | 0 -/
  fom : BitVec 8 := 0
  /-- TP_LANE_STATUS.peer_fom | 8 | 12 Table 12.16 | 0 -/
  peerFom : BitVec 8 := 0
  /-- TP_LANE_STATUS.ctle | 4 | 12 Table 12.16 | 0 -/
  ctle : BitVec 4 := 0
  /-- TP_LANE_STATUS.locked | 1 | 12 Table 12.16 | 0 -/
  locked : Bool := false
  /-- Transmit taps c(-2), c(-1), c(+1), c(+2) | 4 x 5 | 12 R380, Table 12.16 | 0 (c(0) 64) -/
  taps : Vector Int 4 := Vector.replicate 4 0
  /-- Last preset applied | 3 | 12 Table 12.6, R380 | 1 (training starts from P1) -/
  preset : BitVec 3 := 1
  /-- Responses shown for the taps | 4 x 2 | 12 Table 12.6, R380 | 0 -/
  resp : Vector (BitVec 2) 4 := Vector.replicate 4 0
  /-- Partner's done flag | 1 | 12 Table 12.6 | 0 -/
  partnerDone : Bool := false
  /-- This end's requests for the partner's taps | 4 x 2 | 12 Table 12.6, R380 | 0 (hold) -/
  reqs : Vector (BitVec 2) 4 := Vector.replicate 4 0
  /-- This end's done flag | 1 | 12 Table 12.6, R382 | 0 -/
  done : Bool := false
  /-- State of the PRBS-13 of the training frames sent, 0 before the first | 13 | 12 R379 | 0 -/
  prbs : BitVec 13 := 0
  /-- Local time since which FOM is below 12.0 dB | 64 | 12 R388 | none -/
  lowSince : Option Nat := none
  /-- FOM at this end's last requests to the partner's transmitter, newest first, at most 16 | 16 x 8 | 12 R382 Table 12.8 | none -/
  asked : List (BitVec 8) := []
  /-- Corrected symbols of the preceding 1 ms, by the local time they came at, newest first | list | 12 R388 | none -/
  recent : List (Nat × Nat) := []
  /-- Corrected symbols since the lane's qualification in a retest began | 32 | 12 R389 Table 12.8 | 0 -/
  qual : Nat := 0
  /-- Pattern generator: shift register of the PRBS, or UI of the wave | 32 | 12 R393 | 0 -/
  gen : Word := 0
  /-- Pattern checker: shift register of the PRBS, or UI of the wave that is expected | 32 | 12 R393 | 0 -/
  chk : Word := 0
  /-- UI in a row that the checker found without error, up to 64 | 7 | 12 R393 | 0 -/
  chkOk : Nat := 0
  /-- Markers missed in a row | 2 | 12 R377 | 0 -/
  missed : Nat := 0
  /-- A first marker was found | 1 | 12 R377 | 0 -/
  seen : Bool := false
  /-- Parity of the bits sent since the last marker sent | 8 | 12 R377 Table 12.4 | 0 -/
  txBip : Byte := 0
  /-- The lane is aligned | 1 | 12 R377 | 0 -/
  aligned : Bool := false
  /-- Counters 0x00 corrected, 0x02 bip, 0x09 checker, 0x0A injected | 4 x 64 | 12 Table 12.17 | 0 -/
  counters : Vector (BitVec 64) 4 := Vector.replicate 4 0
  deriving DecidableEq, Repr

/-- Error injection of a Reach Port site (R394). -/
structure Inject where
  /-- TP_INJECT.kind | 4 | 12 R394 Table 12.18 | 0 -/
  kind : BitVec 4 := 0
  /-- TP_INJECT.count | 5 | 12 Table 12.18 | 0 -/
  count : BitVec 5 := 0
  /-- TP_INJECT.side | 1 | 12 Table 12.18 | 0 -/
  side : Bool := false
  /-- TP_INJECT.repeat | 1 | 12 Table 12.18 | 0 -/
  again : Bool := false
  /-- TP_INJECT.lane | 5 | 12 Table 12.18 | 0 -/
  lane : BitVec 5 := 0
  /-- TP_INJECT.interval | 12 | 12 Table 12.18 | 0 -/
  interval : BitVec 12 := 0
  /-- The next codeword or marker of the lane is to carry the error | 1 | 12 R394 | 0 -/
  armed : Bool := false
  deriving DecidableEq, Repr

/-- What a Reach Port site keeps beside Site. -/
structure ReachSite where
  /-- Lanes | 32 | 12 R370 | unused -/
  lanes : Vector ReachLane 32 := Vector.replicate 32 {}
  /-- Counter 0x01 uncorrectable codewords of each quad | 8 x 64 | 12 Table 12.17 | 0 -/
  uncorr : Vector (BitVec 64) 8 := Vector.replicate 8 0
  /-- Codeword index c received, per quad | 8 x 32 | 12 R377 | 0 -/
  rxIndex : Vector Word 8 := Vector.replicate 8 0
  /-- Codeword index c to send, per quad | 8 x 32 | 12 R377 | 0 -/
  txIndex : Vector Word 8 := Vector.replicate 8 0
  /-- Marker count received | 32 | 12 R377 | 0 -/
  rxMarker : Word := 0
  /-- Marker count to send | 32 | 12 R377 | 0 -/
  txMarker : Word := 0
  /-- LANE_MAP received and not yet applied: good quads, quads in service, index | 8 + 8 + 32 | 12 R383 | none -/
  partnerMap : Option (BitVec 8 × BitVec 8 × Word) := none
  /-- LANE_MAP sent and not yet applied: good quads, quads in service, index | 8 + 8 + 32 | 12 R383, R389 | none -/
  ownMap : Option (BitVec 8 × BitVec 8 × Word) := none
  /-- Good quads and quads in service by the last applied map of this end | 8 + 8 | 12 R389 | 0 -/
  ownNow : BitVec 8 × BitVec 8 := (0, 0)
  /-- Good quads and quads in service by the last applied map of the partner | 8 + 8 | 12 R389 | 0 -/
  partnerNow : BitVec 8 × BitVec 8 := (0, 0)
  /-- Quads due for retest | 8 | 12 R388 | 0 -/
  due : BitVec 8 := 0
  /-- Local time at which each quad fell due | 8 x 64 | 12 R388, 11 R341 | 0 -/
  dueAt : Vector Nat 8 := Vector.replicate 8 0
  /-- Quads that were due at the last commit, of which one may start | 8 | 12 R388 Table 12.13 | 0 -/
  atCommit : BitVec 8 := 0
  /-- Local time at which the lanes' equalisation began (step 2) | 64 | 12 Table 12.8 | 0 -/
  stepAt : Nat := 0
  /-- Local time at which a lane last found frame lock in this training | 64 | 12 R382 Table 12.8 | 0 -/
  lockAt : Nat := 0
  /-- Local time at which the retest under way began | 64 | 12 R389 Table 12.9 | 0 -/
  retestAt : Nat := 0
  /-- Local time at which the quad under retest began to qualify (step 3) | 64 | 12 R389 Table 12.8 | none -/
  qualAt : Option Nat := none
  /-- An uncorrectable codeword came on the quad while it qualifies in a retest | 1 | 12 R389 Table 12.8 | 0 -/
  qualBad : Bool := false
  /-- Quad under retest | 3 | 12 R389 | none -/
  retest : Option (Fin 8) := none
  /-- REPAIR ready received for the retest | 1 | 12 Table 12.9 | 0 -/
  partnerReady : Bool := false
  /-- State from which Test was entered, and its hold | 4 | 12 R392 Table 12.10 | 0 -/
  testFrom : BitVec 4 := 0
  /-- TP_INJECT in force | see Inject | 12 R394 | none -/
  inject : Inject := {}
  deriving DecidableEq, Repr

/-- A repair of the module falls due, if none is. -/
def Module.fallDue (now : Nat) (q : Module) : Module :=
  if q.due then q else { q with due := true, dueAt := now, atCommit := false }

/-- A retest of a quad falls due, if none is. -/
def ReachSite.fallDue (now : Nat) (q : Fin 8) (r : ReachSite) : ReachSite :=
  if r.due.getLsbD q.val then r
  else { r with due := setBit r.due q.val, dueAt := upd r.dueAt q fun _ => now, atCommit := clrBit r.atCommit q.val }

/-- A commit comes: what is due may start (R341, R388). -/
def Module.commitDue (q : Module) : Module := { q with atCommit := q.due }

/-- Good quads at both ends, TP_QUADS.good (Table 12.19). -/
def ReachSite.good (r : ReachSite) : BitVec 8 := r.ownNow.1 &&& r.partnerNow.1

/-- Quads in service at both ends, TP_QUADS.in_service (Table 12.19). -/
def ReachSite.inService (r : ReachSite) : BitVec 8 := r.ownNow.2 &&& r.partnerNow.2

/-- The command and selector registers of the WP_ and TP_ blocks. -/
structure SiteRegs where
  /-- WP_CMD_STATUS: command, busy, result | 8 + 1 + 2 | 11 Table 11.14 | 0 -/
  wpCmd : BitVec 8 × Bool × BitVec 2 := (0, false, 0)
  /-- WP_MOD_SEL: site, module, dir | 2 + 6 + 1 | 11 Table 11.15 | 0 -/
  wpModSel : BitVec 9 := 0
  /-- WP_CNT_SEL: counter, site, module | 8 + 2 + 6 | 11 Table 11.17 | 0 -/
  wpCnt : BitVec 8 × BitVec 2 × BitVec 6 := (0, 0, 0)
  /-- TP_CMD_STATUS: command, busy, result | 8 + 1 + 2 | 12 Table 12.15 | 0 -/
  tpCmd : BitVec 8 × Bool × BitVec 2 := (0, false, 0)
  /-- TP_LANE_SEL: site, lane | 1 + 5 | 12 Table 12.16 | 0 -/
  tpLaneSel : BitVec 6 := 0
  /-- TP_CNT_SEL: counter, site, lane | 8 + 1 + 5 | 12 Table 12.17 | 0 -/
  tpCnt : BitVec 8 × BitVec 1 × BitVec 5 := (0, 0, 0)
  /-- TP_PAT_CTRL.pattern | 4 | 12 Table 12.18 | 0 -/
  pattern : BitVec 4 := 0
  /-- TP_PAT_CTRL.checker | 1 | 12 Table 12.18 | 0 -/
  checker : Bool := false
  /-- TP_PAT_CTRL.echo | 1 | 12 Table 12.18 | 0 -/
  echo : Bool := false
  /-- TP_PAT_CTRL.site | 1 | 12 Table 12.18 | 0 -/
  patSite : Fin 2 := 0
  /-- TP_PAT_STATUS.locked | 32 | 12 Table 12.18 | 0 -/
  patLocked : Word := 0
  deriving DecidableEq, Repr

end Sys2Proof.Machine
end

