-- ==== Sys2Proof/Machine/StLink.lean ====
section
/-!
DEFINITION. The state of the optical side: beams, ports, lines, plans, rings and calibration.
-/

namespace Sys2Proof.Machine

/-- Beam entry of a plan (Table 7.5). -/
structure PlanBeam where
  /-- Beam | 8 | 07 R208 Table 7.5 | no plan -/
  beam : Beam
  /-- Local lines | 35 | 07 Table 7.5 | no plan -/
  tx : LineSet
  /-- Terminated lines | 35 | 07 Table 7.5 | no plan -/
  rx : LineSet
  deriving DecidableEq, Repr, Inhabited

/-- Port block of a plan (Table 7.4). -/
structure PlanBlock where
  /-- Port | 8 | 07 R208 Table 7.4 | no plan -/
  port : Nat
  /-- Lines in pass | 35 | 07 Table 7.4 | no plan -/
  pass : LineSet
  /-- Beam entries | 12 bytes each | 07 Table 7.4 | no plan -/
  beams : List PlanBeam
  deriving DecidableEq, Repr, Inhabited

/-- Plan record (Table 7.3). -/
structure PlanRec where
  /-- plan_id | 16 | 07 R208 Table 7.3 | no plan -/
  planId : BitVec 16
  /-- Dim flag | 1 | 07 Table 7.3 | no plan -/
  dim : Bool
  /-- Port blocks | list | 07 Table 7.3 | no plan -/
  blocks : List PlanBlock
  deriving DecidableEq, Repr, Inhabited

/-- Transmitter states of a beam (Table 8.6). -/
inductive TxSt where
  | uninit
  | init
  | run
  | creditWait
  | replayWait
  | paused
  | unlit
  | broken
  deriving DecidableEq, Repr, Inhabited

/-- Receiver states of a beam (Table 8.7). -/
inductive RxSt where
  | uninit
  | run
  | gap
  | broken
  deriving DecidableEq, Repr, Inhabited

/-- One DATA flit waiting to be sent for the first time, or held in a replay entry. -/
structure OutFlit where
  /-- Class: 0 request, 1 response | 2 | 08 R235 Table 8.3 | - -/
  cls : BitVec 2
  /-- Head flag | 1 | 08 Table 8.3 | - -/
  head : Bool
  /-- Token word of the token extension | 64 | 08 R237 | - -/
  token : Option DWord
  /-- Attempt of the sending phase | 4 | 08 Table 8.3 | - -/
  attempt : BitVec 4
  /-- Payload bytes: 240, or at most 228 with a token | list | 08 R235, R237 | - -/
  payload : List Byte
  /-- It belongs to a tentative record, which outlives its phase | 1 | 05 R153, R155 | 0 -/
  ahead : Bool := false
  /-- Serial of the newest switch issued when the flit was queued: it waits for the switches up to that one on its beam's lines | - | 04 R109 | 0 -/
  behind : Nat := 0
  /-- Serial of the phase that queued the flit | 32 | 02 R54, 04 R112 | 0 -/
  serial : Word := 0
  deriving DecidableEq, Repr

/-- A record accepted from the open stream of a beam. -/
structure SeenRec where
  /-- Attempt of its flits | 4 | 04 R124, 08 R247 | - -/
  attempt : BitVec 4
  /-- Operation that admitted it, by its place among the ISSUEs of the phase | - | 04 Table 4.4 | - -/
  op : Nat
  /-- Serial of this place's phase that admitted it | 32 | 04 R112, Table 4.4 | - -/
  serial : Word
  /-- Form of the elements of a segment | - | 06 R190 | - -/
  form : SegForm
  /-- A Fast-mode sum: sent again, its bytes may differ | 1 | 02 R58 | 0 -/
  loose : Bool := false
  /-- The record: header and payload | list | 05 Table 5.7 | - -/
  bytes : List Byte
  deriving DecidableEq, Repr

/-- A control flit waiting to be sent: type and payload fields (Table 8.5). -/
structure CtlFlit where
  /-- Flit type | 4 | 08 R236 Table 8.4 | - -/
  typ : BitVec 4
  /-- Payload bytes before padding | list | 08 Table 8.5 | - -/
  payload : List Byte
  deriving DecidableEq, Repr

/-- A retrain of a beam under way (R264-R266). -/
structure Retrain where
  /-- Request number | 8 | 08 Table 8.5 | - -/
  number : BitVec 8
  /-- Masks wanted by this end, transmit and receive | 2 x 35 | 08 R264 | - -/
  wantTx : LineSet
  /-- Receive mask wanted by this end | 35 | 08 R264 | - -/
  wantRx : LineSet
  /-- A request is being repeated every 100 ns | 1 | 08 R264 | - -/
  requesting : Bool
  /-- Go sent or received | 1 | 08 R266 | 0 -/
  going : Bool := false
  /-- Deskew aligned | 1 | 08 R266 | 0 -/
  aligned : Bool := false
  /-- Peer's ready received | 1 | 08 R266 | 0 -/
  peerReady : Bool := false
  deriving DecidableEq, Repr

/-- Link-layer state of one beam. -/
structure BeamSt where
  /-- BEAM_STATUS.state: 0 unused, 1 unlit, 2 training, 3 up, 4 switching, 5 degraded, 6 broken | 4 | 07 R229 Table 7.24, 08 R267 | 0 -/
  state : BitVec 4 := 0
  /-- Transmitter state | - | 08 R256 Table 8.6 | Uninitialised -/
  tx : TxSt := .uninit
  /-- Receiver state | - | 08 R257 Table 8.7 | Uninitialised -/
  rx : RxSt := .uninit
  /-- Transmit lines in use | 35 | 07 R229 Table 7.23 | 0 -/
  txMask : LineSet := 0
  /-- Receive lines in use | 35 | 07 R229 Table 7.23 | 0 -/
  rxMask : LineSet := 0
  /-- Local lines held dark by the Dim overlay | 35 | 07 R221, Table 7.24 | 0 -/
  shed : LineSet := 0
  /-- Next sequence number to send | 16 | 08 R240 | 0 -/
  seq : BitVec 16 := 0
  /-- Sent and not acknowledged, oldest first, one replay entry each | 1,024 entries | 08 R248 | empty -/
  unacked : List (BitVec 16 × OutFlit) := []
  /-- Latest cumulative acknowledgement | 16 | 08 R242 | 0 -/
  acked : BitVec 16 := 0
  /-- Numbers to be resent, in order | list | 08 R244, R245 | empty -/
  resend : List (BitVec 16) := []
  /-- New DATA flits, oldest first | list | 08 R244 | empty -/
  queue : List OutFlit := []
  /-- Control flits waiting, oldest first | list | 08 R244 | empty -/
  ctl : List CtlFlit := []
  /-- Next expected sequence number | 16 | 08 R240 | 0 -/
  next : BitVec 16 := 0
  /-- Reorder buffer: flits ahead of next | 1,024 entries | 08 R241, R249 | empty -/
  held : List (BitVec 16 × OutFlit) := []
  /-- Missing numbers already named in a NAK | list | 08 R241, R243 | empty -/
  naked : List (BitVec 16) := []
  /-- Delivered flits in the inbound buffer, oldest first; those of a class are the queue of that class | list | 08 R241, R252 | empty -/
  inbound : List OutFlit := []
  /-- The record or stream of each class that is being handed to its destination: flits that have left the inbound buffer | 2 lists | 08 R252 | empty -/
  part : Vector (List OutFlit) 2 := Vector.replicate 2 []
  /-- Records accepted from the open stream of the beam; a token closes the stream | list | 04 R112, R124, 08 R247 | empty -/
  seen : List SeenRec := []
  /-- A replay entry has been granted to the stalled beam and not yet taken | 1 | 08 R248 | 0 -/
  granted : Bool := false
  /-- Attempt of the open stream | 4 | 08 R247 | none -/
  openAttempt : Option (BitVec 4) := none
  /-- Switches that affected the beam since full commit | 4 (low bits carried) | 07 R214 | 0 -/
  swcount : Nat := 0
  /-- Newest switch count accepted from the peer | 4 | 07 R214 | 0 -/
  peerSw : BitVec 4 := 0
  /-- The beam waits for a flit of the new count | 1 | 07 R214 | 0 -/
  waitNew : Bool := false
  /-- A flit of the count that the beam waits for has been accepted | 1 | 07 R214 | 0 -/
  newSeen : Bool := false
  /-- Flits sent: the next one's place in the beam's stream of words | - | 08 R238 | 0 -/
  txFlits : Nat := 0
  /-- Word of the stream at which the next flit to come starts | - | 08 R238 | 0 -/
  rxWords : Nat := 0
  /-- The line set has changed: the next good flit gives the receiver its place in the stream of words | 1 | 08 R238, R266 | 0 -/
  placeLost : Bool := false
  /-- INIT received from the peer | 1 | 08 R263 | 0 -/
  initSeen : Bool := false
  /-- INIT received with bit 0 set | 1 | 08 R263 | 0 -/
  initAcked : Bool := false
  /-- Peer's advertised credits: rq_hdr, rq_data, rs_hdr, rs_data | 4 x 16 | 08 R252, Table 8.5 | 0 -/
  advertised : Vector Nat 4 := Vector.replicate 4 0
  /-- Peer's returned credits, unwrapped | 4 | 08 R253 | 0 -/
  returned : Vector Nat 4 := Vector.replicate 4 0
  /-- Credits consumed since INIT | 4 | 08 R253 | 0 -/
  consumed : Vector Nat 4 := Vector.replicate 4 0
  /-- Credits this end has returned since INIT | 4 | 08 R252 | 0 -/
  given : Vector Nat 4 := Vector.replicate 4 0
  /-- Next counter of the credit rotation | 2 | 08 R253 | 0 -/
  csel : Fin 4 := 0
  /-- Retransmit timer expiries in a row | - | 08 R255 | 0 -/
  expiries : Nat := 0
  /-- Retrain under way | see Retrain | 08 R264-R266 | none -/
  retrain : Option Retrain := none
  /-- A further retrain is wanted when the current one resumes | 2 x 35 | 08 R265 | none -/
  again : Option (LineSet × LineSet) := none
  /-- Number of the last retrain request of this end | 8 | 08 Table 8.5 | 0 -/
  lastReq : BitVec 8 := 0
  /-- Local time until which a receive line of the beam was terminated and locked | 64 | 07 R218 | none -/
  lockedAt : Option Nat := none
  /-- Beam counters 0x03 to 0x0E of Table 8.20 | 16 x 64 | 08 Table 8.20 | 0 -/
  counters : Vector (BitVec 64) 16 := Vector.replicate 16 0
  deriving DecidableEq, Repr, Inhabited

/-- Calibration state of one direction of a line. -/
structure CalSt where
  /-- Local time since which the calibration is due | 64 | 09 R286 | none -/
  dueSince : Option Nat := none
  /-- Reported as overdue | 1 | 09 R286 | 0 -/
  overdue : Bool := false
  /-- Calibration running | 1 | 09 R288 | 0 -/
  running : Bool := false
  deriving DecidableEq, Repr

/-- One line of a port. -/
structure LineSt where
  /-- Codeword alignment at this receiver | 1 | 08 R233 | 0 -/
  aligned : Bool := false
  /-- Expected markers missing or failed in a row | 2 | 08 R233 | 0 -/
  missed : Nat := 0
  /-- Marker count of the last marker received | 32 | 08 Table 8.1, R231 | none -/
  lastCount : Option Word := none
  /-- The last marker named another line | 1 | 08 R233, 09 R301 | 0 -/
  wrong : Bool := false
  /-- Markers in a row that named this line since a wrong one | - | 09 R302 | 0 -/
  right : Nat := 0
  /-- The line needs full acquisition after a switch, or relocks | 1 | 07 R218 | 0 -/
  acquiring : Bool := false
  /-- Receiver has locked the newly terminated line | 1 | 07 R218 | 1 -/
  locked : Bool := true
  /-- Phase entry: the skew against the port's line-clock reference, in steps of the elastic buffer | 16 | 07 R218 | none -/
  phase : Option (BitVec 16) := none
  /-- Bytes sent on the line that wait for their codeword to be full | at most 80 bytes | 08 R230, R238 | empty -/
  txBytes : List Byte := []
  /-- Scrambler state at the transmitter, started from 0x5555_5500 + n after each marker | 31 | 08 R232 | 0 DESIGN CHOICE (log entry 185) -/
  txScr : BitVec 31 := 0
  /-- Scrambler state at the receiver, likewise | 31 | 08 R232 | 0 DESIGN CHOICE (log entry 185) -/
  rxScr : BitVec 31 := 0
  /-- Place field of the last marker received | 24 | 08 Table 8.1, 09 R293 | none -/
  farPlace : Option (BitVec 24) := none
  /-- rx_power at this end, 0.01 dBm | 16 | 18 Table 18.8, 10 R319 | none, reads 0x8000 -/
  rxPower : Option Int := none
  /-- rx_power field of the last marker | 16 | 18 Table 18.8 | 0x8000 -/
  farPower : BitVec 16 := 0x8000
  /-- Low-power warning and end-of-margin alarm reported | 2 | 10 R319 | 0 -/
  lowReported : BitVec 2 := 0
  /-- Out of service for a fault in the receive, transmit direction | 2 | 18 R504 | 0 -/
  out : BitVec 2 := 0
  /-- Requalification running | 1 | 18 R504 | 0 -/
  requal : Bool := false
  /-- Calibration of the transmit direction | see CalSt | 09 R286 | none -/
  calTx : CalSt := {}
  /-- Calibration of the receive direction | see CalSt | 09 R286 | none -/
  calRx : CalSt := {}
  /-- Driver DAC segment set left out, 0-4 | 3 | 09 R289 Table 9.10 | 0 DESIGN CHOICE (log entry 7) -/
  driverOut : Nat := 0
  /-- Sampler slice left out, 0-2 | 2 | 09 Table 9.10 | 0 DESIGN CHOICE (log entry 7) -/
  sliceOut : Nat := 0
  /-- Integrator capacitor bank, 0-5 | 3 | 09 Table 9.10 | 0 DESIGN CHOICE (log entry 7) -/
  bank : Nat := 0
  /-- Sampler threshold in steps | - | 09 R291 | 0 DESIGN CHOICE (log entry 7) -/
  threshold : Int := 0
  /-- A trim of the threshold that waits for a flit-frame boundary or an IDLE flit, in steps | - | 09 R291 | 0 -/
  trim : Int := 0
  /-- Modulator target rho, 1/1,000,000 | - | 09 R275, R288 | 0 DESIGN CHOICE (log entry 7) -/
  rhoM : Int := 0
  /-- Line counters 0x00 to 0x02 | 3 x 64 | 08 Table 8.20 | 0 -/
  counters : Vector (BitVec 64) 3 := Vector.replicate 3 0
  deriving DecidableEq, Repr

/-- Progress of a substitution (R296). -/
inductive SubPhase where
  | requested
  | going
  | standing
  | returning
  deriving DecidableEq, Repr

/-- A substitution of a spare for a line in one direction of a port. -/
structure Subst where
  /-- Beam that the line serves | 8 | 09 R295 | - -/
  beam : Beam
  /-- Line 1-32 | 6 | 09 Table 9.13 | - -/
  line : Line
  /-- Reason: 0 calibration, 1 wrong line, 2 line fault | 8 | 09 R294 Table 9.12 | - -/
  reason : BitVec 8
  /-- Request number | 8 | 09 Table 9.13 | - -/
  request : BitVec 8
  /-- Progress | - | 09 R296 | - -/
  phase : SubPhase
  /-- Marker count m at which the switch applies | 32 | 09 Table 9.13 | 0 -/
  marker : Word := 0
  /-- A go that names the marker has been sent or received | 1 | 09 R296 | 0 -/
  goSeen : Bool := false
  /-- The need is this end's own | 1 | 09 R294 | 0 -/
  own : Bool := false
  /-- Direction at this place: receive, or transmit | 1 | 09 R293 | 0 -/
  rx : Bool := false
  /-- suspect flag | 1 | 09 Table 9.13 | 0 -/
  suspect : Bool := false
  deriving DecidableEq, Repr

/-- How far a plan switch has come at a Port Engine (Table 7.6): on its way, arrived but held by a retrain, arrived, past t0, rings set. -/
inductive SwitchStage where
  | coming
  | held
  | arrived
  | anchored
  | ringsSet
  deriving DecidableEq, Repr

/-- A plan switch at a Port Engine (R213): each runs a timeline of its own (Table 7.10). -/
structure PortSwitch where
  /-- How far it has come | - | 07 R213 Table 7.6 | on its way -/
  stage : SwitchStage := .coming
  /-- Serial of the switch | - | 07 R213 | - -/
  serial : Nat
  /-- plan_id of the new plan | 16 | 07 R211 | - -/
  planId : BitVec 16
  /-- Port block of the new plan | record | 07 R211 | - -/
  block : PlanBlock
  /-- Beams that the switch affects at this port | list | 07 R212 | - -/
  beams : List Beam
  /-- Lines that its event 1 makes local, lit at event 2 | 35 | 07 R213 Table 7.6 | 0 -/
  lines : LineSet := 0
  deriving DecidableEq, Repr

/-- Settings of a port's shutter (R323, R326). -/
inductive Shutter where
  | closed
  | probe
  | opened
  deriving DecidableEq, Repr, Inhabited

/-- One optical port. -/
structure PortSt where
  /-- PRT_STATUS.state: 0 Dark, 1 Glint, 2 Training, 3 Up, 4 Degraded | 4 | 08 R270 Table 8.22 | 0 -/
  state : BitVec 4 := 0
  /-- PRT_STATUS.step | 4 | 08 Table 8.22 | 0 -/
  step : BitVec 4 := 0
  /-- PRT_STATUS.reason | 4 | 08 Table 8.22 | 0 -/
  reason : BitVec 4 := 0
  /-- PRT_STATUS.hold | 1 | 08 Table 8.22 | 0 -/
  hold : Bool := false
  /-- PRT_STATUS.penumbra | 1 | 08 Table 8.22 | 0 -/
  penumbra : Bool := false
  /-- PRT_STATUS.state_epoch | 16 | 08 Table 8.22 | 0x0000 -/
  epoch : BitVec 16 := 0
  /-- PRT_LINE: lines locked and qualified at this receiver | 35 | 08 Table 8.23 | 0 -/
  lineOk : LineSet := 0
  /-- Lines locked in the running training | 35 | 08 R258 Table 8.8 | 0 -/
  lockOk : LineSet := 0
  /-- Lines have been qualified in the running training, and the mask sent | 1 | 08 Table 8.8 | 0 -/
  qualDone : Bool := false
  /-- The partner's mask of qualified lines has come in the running training | 1 | 08 Table 8.8 | 0 -/
  maskSeen : Bool := false
  /-- line_ok that the partner reported, as later retrains changed it | 35 | 18 R505 | 0 -/
  partnerOk : LineSet := 0
  /-- PRT_PEER.match | 2 | 08 Table 8.24 | 0 -/
  peerMatch : BitVec 2 := 0
  /-- PRT_PEER.partner_port | 6 | 08 Table 8.24 | 0 -/
  peerPort : BitVec 6 := 0
  /-- PRT_PEER.partner_place | 24 | 08 Table 8.24 | 0 -/
  peerPlace : BitVec 24 := 0
  /-- PRT_LEVEL.settled | 16 | 08 Table 8.24 | 0 -/
  settled : BitVec 16 := 0
  /-- PRT_LEVEL.partner_high | 16 | 08 Table 8.24 | 0 -/
  partnerHigh : BitVec 16 := 0
  /-- Partner's TRAIN received in this training with identity accepted, and Penumbra flag | 2 | 08 R258, R259 | 0 -/
  trainSeen : Bool := false
  /-- Partner's identity-accepted flag | 1 | 08 Table 8.9 | 0 -/
  partnerAccepts : Bool := false
  /-- PRT_PEVENT | 11 | 08 Table 8.25 | 0 -/
  event : BitVec 11 := 0
  /-- PRT_PEVENT_MASK | 11 | 08 Table 8.25 | 0 -/
  mask : BitVec 11 := 0
  /-- PRT_REPLAY.peak | 11 | 08 Table 8.25 | 0 -/
  peak : Nat := 0
  /-- Next beam in the grant of replay entries | 8 | 08 R248 | 0 -/
  grant : Nat := 0
  /-- Port counters 0x0D and 0x0F | 2 x 64 | 08 Table 8.20 | 0 -/
  counters : Vector (BitVec 64) 2 := Vector.replicate 2 0
  /-- Shutter | - | 10 R323, R326, R327 | closed -/
  shutter : Shutter := .closed
  /-- Every exchange ring tuned, so no comb line leaves | 1 | 10 R323, R327 | 1 -/
  exchangeTuned : Bool := true
  /-- Shutter check failed at Glint | 1 | 10 R323 | 0 -/
  shutterFailed : Bool := false
  /-- No comb light until a reset | 1 | 10 R316 | 0 -/
  noComb : Bool := false
  /-- A probe is running | 1 | 10 R326 | 0 -/
  probing : Bool := false
  /-- L00 received for 1 ms in the running probe | 1 | 10 R326 | 0 -/
  probeLight : Bool := false
  /-- Consecutive probes of its own that received light | 2 | 10 R326 | 0 -/
  probes : Nat := 0
  /-- The cold calibration sweep has run since the device reset | 1 | 17 R490, 09 R300 | 0 -/
  coldSwept : Bool := false
  /-- Comb offset of the transmit and of the receive bus, 1/16 GHz | 2 x 16 | 09 R300 step 2 | 0 DESIGN CHOICE (log entry 7) -/
  combOffset : Int × Int := (0, 0)
  /-- Ring-zone temperature, 0.05 °C | 16 | 09 R272 | 0 DESIGN CHOICE (log entry 7) -/
  zone : Int := 0
  /-- Zone samples of the preceding 1 ms, newest first, at most 101 | list | 09 R286 | none -/
  zoneHist : List Int := []
  /-- Switches that this Port Engine has not completed, oldest first | list | 07 R213, R227 | none -/
  switchQ : List PortSwitch := []
  /-- The Port Engine's copy of the port block of the plan in force: plan_id and block | record | 07 R211 | none -/
  block : Option (BitVec 16 × PlanBlock) := none
  /-- Reason that the last training since the port was Up ended with | 4 | 08 R261 | 0 -/
  lastFail : BitVec 4 := 0
  /-- Lines that the Dim overlay holds dark | 35 | 07 R221 | 0 -/
  dimmed : LineSet := 0
  /-- Lines | 35 | 08 R230, 18 Table 18.8 | unaligned -/
  line : Vector LineSt 35 := Vector.replicate 35 {}
  /-- Substitutions: transmit by L33, L34, receive by L33, L34 | 4 | 09 R292 | none -/
  sub : Vector (Option Subst) 4 := Vector.replicate 4 none
  /-- Needs for a spare that wait for it, of this end and requests of the far end, oldest first | list | 09 R294 | none -/
  needs : List Subst := []
  /-- Number of the last substitution request of this end | 8 | 09 Table 9.13 | 0 -/
  lastSub : BitVec 8 := 0
  deriving DecidableEq, Repr

/-- State of one plan store slot. -/
structure PlanSlot where
  /-- 0 empty, 1 resident, 2 fetch in flight | 2 | 07 Table 7.16 | 0 -/
  state : BitVec 2 := 0
  /-- plan_id | 16 | 07 Table 7.16 | 0xFFFF -/
  planId : BitVec 16 := 0xFFFF
  deriving DecidableEq, Repr, Inhabited

/-- Light plans and the registers of the PLN_, BEAM_ and PRT_ blocks. -/
structure Pln where
  /-- PLN_IN_FORCE.plan_id | 16 | 07 R228 Table 7.12 | 0xFFFF -/
  inForce : BitVec 16 := 0xFFFF
  /-- PLN_IN_FORCE.previous | 16 | 07 Table 7.12 | 0xFFFF -/
  previous : BitVec 16 := 0xFFFF
  /-- Serial of the newest switch issued | - | 07 R213 | 0 -/
  issued : Nat := 0
  /-- Serial of the newest switch that has had an event 1 | - | 07 R217 | 0 -/
  shown : Nat := 0
  /-- PLN_STATUS.state_epoch | 16 | 07 Table 7.13 | 0x0000 -/
  epoch : BitVec 16 := 0
  /-- PLN_SWITCH_COUNT | 64 | 07 Table 7.14 | 0 -/
  switches : BitVec 64 := 0
  /-- PLN_SELECT_LAST.family | 12 | 07 Table 7.15 | 0 -/
  selFamily : BitVec 12 := 0
  /-- PLN_SELECT_LAST.variant | 8 | 07 Table 7.15 | 0 -/
  selVariant : BitVec 8 := 0
  /-- PLN_SLOT_SEL.slot | 7 | 07 Table 7.16 | 0 -/
  slotSel : BitVec 7 := 0
  /-- State of plan store slots 0-127 and of the switch slot; the plans lie in the stores of the two sequencers | 129 x 18 | 07 R211, 02 R63, R64 | empty -/
  slots : Vector PlanSlot 129 := Vector.replicate 129 {}
  /-- PLN_EVENT | 4 | 07 Table 7.17 | 0 -/
  event : BitVec 4 := 0
  /-- PLN_EVENT_MASK | 4 | 07 Table 7.17 | 0 -/
  mask : BitVec 4 := 0
  /-- PLN_FOREIGN | 32 | 07 Table 7.18 | 0 -/
  foreign : Word := 0
  /-- PLN_ACQUIRE | 32 | 07 Table 7.19 | 0 -/
  acquire : Word := 0
  /-- BEAM_BROKEN_0 to _7 | 256 | 07 R229 Table 7.21 | 0 -/
  broken : BitVec 256 := 0
  /-- BEAM_BROKEN_MASK_0 to _7 | 256 | 07 Table 7.21 | 0 -/
  brokenMask : BitVec 256 := 0
  /-- BEAM_VIEW_SEL: view, beam | 9 | 07 Table 7.22 | 0 -/
  viewSel : BitVec 9 := 0
  /-- PRT_CMD_STATUS: command, busy, result | 8 + 1 + 2 | 08 Table 8.18 | 0 -/
  prtCmd : BitVec 8 × Bool × BitVec 2 := (0, false, 0)
  /-- PRT_CNT_SEL: port, beam, line, counter | 6 + 8 + 6 + 8 | 08 Table 8.19 | 0 -/
  cntSel : BitVec 6 × BitVec 8 × BitVec 6 × BitVec 8 := (0, 0, 0, 0)
  /-- Marker count of this chip: the count of the next marker it sends | 32 | 08 R231 | 0 DESIGN CHOICE (log entry 11) -/
  marker : Word := 0
  deriving DecidableEq, Repr

/-- A row of the Halo matrix (Table 9.3). -/
structure HaloRow where
  /-- Resonance temperature coefficient, 1/1,024 GHz/°C | 16 | 09 R278 Table 9.3 | Fused (Config.haloRow) -/
  tc : Nat
  /-- Heater efficiency, 1/64 GHz/mW | 16 | 09 Table 9.3 | Fused -/
  eff : Nat
  /-- Neighbours: ring and coefficient in 1/1,024 | 12 x 24 | 09 Table 9.3 | Fused -/
  nb : List (Nat × Int)
  /-- Tiles: tile and coefficient in 1/256 GHz/W | 4 x 24 | 09 Table 9.3 | Fused -/
  tile : List (Nat × Int)
  /-- Unheated resonance minus the line's frequency at 55 °C, 1/16 GHz | 16 | 09 Table 9.3 | Fused -/
  f0 : Int
  deriving DecidableEq, Repr, Inhabited

/-- Loop state of one ring. -/
structure RingSt where
  /-- Closed loop | 1 | 09 R275, R276 | 0 -/
  closed : Bool := false
  /-- Visits in a row with the monitor below 1 % of full scale | - | 09 R276 | 0 -/
  darkVisits : Nat := 0
  /-- Heater DAC value, 0.061 µW a step | 16 | 09 R272 Table 9.2, R280 | 0 DESIGN CHOICE (log entry 7) -/
  heater : BitVec 16 := 0
  /-- Junction DAC value, 0.064 GHz a step from −10 GHz | 10 | 09 R272 Table 9.2 | 0 DESIGN CHOICE (log entry 7) -/
  junction : BitVec 10 := 0
  /-- The junction stands on the positive side of the dither | 1 | 09 R275 | 0 DESIGN CHOICE (log entry 7) -/
  dither : Bool := false
  /-- Monitor integral of the last half-period | - | 09 R275 | none -/
  half : Option Nat := none
  /-- Linewidth that the last calibration found, 1/1,024 GHz | - | 09 R288 Table 9.9 | 0 DESIGN CHOICE (log entry 7) -/
  width : Nat := 0
  /-- The ring fails its setpoint check | 1 | 09 R301 | 0 -/
  astray : Bool := false
  /-- Integrator in mW | - | 09 R280, R300 | 0 -/
  integ : Rat := 0
  /-- Zone temperature at the last calibration, 0.05 °C | 16 | 09 R286 | 0 DESIGN CHOICE (log entry 7) -/
  calTemp : Int := 0
  deriving DecidableEq, Repr

/-- A hint model entry (Table 9.4). -/
structure HintEntry where
  /-- Gain, 0.001 °C/W | 16, signed | 09 R279 Table 9.4, R282 | 6 -/
  gain : Int := 6
  /-- Fast time constant, µs | 16 | 09 R282 | 300 -/
  tau1 : Nat := 300
  /-- Slow time constant, µs | 16 | 09 R282 | 2,000 -/
  tau2 : Nat := 2000
  /-- Share of the fast term, 1/256 | 8 | 09 R282 | 128 -/
  a : Nat := 128
  /-- learned flag | 1 | 09 Table 9.4 | 0 -/
  learned : Bool := false
  deriving DecidableEq, Repr

/-- A thermal hint in force (R281). -/
structure ThermalHint where
  /-- Site | 3 | 09 R281 | - -/
  site : SiteIx
  /-- Power change in 0.1 W | 16 | 11 Table 11.9 | - -/
  dP : Int
  /-- Local time at which it takes effect | 64 | 09 R281, 11 R362 | - -/
  from_ : Nat
  /-- Local time at which it came | 64 | 09 R282 | 0 -/
  came : Nat := 0
  /-- Zones that have learnt from it | 64 | 09 R282 | none -/
  learnt : BitVec 64 := 0
  deriving DecidableEq, Repr

/-- Rings, Halo matrix and hint model. -/
structure Rings where
  /-- Ring loop states that differ from the default | 6,720 | 09 R271 | default -/
  ring : List (Nat × RingSt) := []
  /-- Halo rows refined since the factory tables were loaded | 6,720 x 64 bytes | 09 R278 | Fused (Config.haloRow) -/
  halo : List (Nat × HaloRow) := []
  /-- Hint model, zone by site | 64 x 6 | 09 R279, R282 | fused defaults -/
  hint : Vector (Vector HintEntry 6) 64 := Vector.replicate 64 (Vector.replicate 6 {})
  /-- Thermal hints received, newest first | list | 09 R281 | none -/
  hints : List ThermalHint := []
  /-- Filtered tile powers, W | 256 | 09 R279, R280 | 0 -/
  tiles : List Rat := []
  deriving DecidableEq, Repr

end Sys2Proof.Machine
end

