-- ==== Sys2Proof/Machine/StSeq.lean ====
section
/-!
DEFINITION. The state of the Ihlox image (committed tables, loading), of the schedule sequencers and the control
root, and of the Collective Engine.
-/

namespace Sys2Proof.Machine

/-! ### Records of an image -/

/-- Site entry of STRUCTURE (Table 3.5). -/
structure SiteRec where
  /-- In use | 8 | 03 R75 Table 3.5 | no image -/
  use : Bool := false
  /-- Compute die served | 8 | 03 Table 3.5 | no image -/
  die : Nat := 0
  /-- Lowest adapter level | 16 | 03 Table 3.5 | no image -/
  adapterMin : BitVec 16 := 0
  /-- Modules or lanes in use | 32 | 03 Table 3.5 | no image -/
  laneMask : Word := 0
  /-- Latency pad | 8 | 03 Table 3.5 | no image -/
  pad : BitVec 4 := 0
  /-- Degraded variant present | 1 | 03 Table 3.5 | no image -/
  degraded : Bool := false
  /-- Thermal hints feed the Halo matrix | 1 | 03 Table 3.5 | no image -/
  hints : Bool := false
  deriving DecidableEq, Repr, Inhabited

/-- Port entry of STRUCTURE (Table 3.6). -/
structure PortRec where
  /-- Partner place, 0xFFFF_FFFF if unconnected | 32 | 03 R76 Table 3.6 | no image -/
  place : Word := 0xFFFFFFFF
  /-- Partner port | 8 | 03 Table 3.6 | no image -/
  port : Nat := 0
  /-- fibre_m, declared fibre length in metres | 8 | 03 Table 3.6 | no image -/
  fibre : Nat := 0
  /-- connectors, declared count | 8 | 03 Table 3.6 | no image -/
  connectors : Nat := 0
  /-- express_enable | 1 | 03 Table 3.6 | no image -/
  express : Bool := false
  /-- express_mask | 64 | 03 Table 3.6 | no image -/
  mask : BitVec 64 := 0
  deriving DecidableEq, Repr, Inhabited

/-- Fabric connection record (R77). -/
structure ConnRec where
  /-- Source endpoint | 16 | 03 R77 | no image -/
  src : Nat
  /-- Destination endpoint | 16 | 03 R77 | no image -/
  dst : Nat
  /-- Stream number | 16 | 03 R77 | no image -/
  stream : Nat
  /-- Both directions | 1 | 03 R77 | no image -/
  both : Bool
  /-- Credit class | 2 | 03 R77 | no image -/
  cls : BitVec 2
  deriving DecidableEq, Repr, Inhabited

/-- Mailbox binding record (R78). -/
structure BindRec where
  /-- Sender code | 8 | 03 R78 | no image -/
  sender : Nat
  /-- Receiver code | 8 | 03 R78 | no image -/
  receiver : Nat
  /-- Channel | 8 | 03 R78 | no image -/
  channel : Nat
  /-- Sender tag | 16 | 03 R78 | no image -/
  tag : BitVec 16
  deriving DecidableEq, Repr, Inhabited

/-- Beam record (Table 7.2). -/
structure BeamRec where
  /-- Valid | 1 | 07 R204 Table 7.2 | no image -/
  valid : Bool := false
  /-- Port | 8 | 07 Table 7.2 | no image -/
  port : Port := 0
  /-- Express hops | 8 | 07 Table 7.2 | no image -/
  hops : Nat := 0
  /-- Peer's number of the beam | 8 | 07 Table 7.2 | no image -/
  peerBeam : BitVec 8 := 0
  /-- Peer place | 24 | 07 Table 7.2 | no image -/
  peerPlace : BitVec 24 := 0
  /-- via0 to via2 | 3 x 32 | 07 Table 7.2 | no image -/
  via : List Word := []
  /-- Credits advertised: rq_hdr, rq_data, rs_hdr, rs_data | 4 x 16 | 07 Table 7.2 | no image -/
  adv : List Nat := []
  deriving DecidableEq, Repr, Inhabited

/-- Selector family (Table 7.7). -/
structure FamilyRec where
  /-- First rule | 16 | 07 R219 Table 7.7 | no image -/
  firstRule : Nat
  /-- Rule count | 8 | 07 Table 7.7 | no image -/
  ruleCount : Nat
  /-- Default variant | 8 | 07 Table 7.7 | no image -/
  default_ : BitVec 8
  /-- Histogram format | 8 | 07 Table 7.7 | no image -/
  histFmt : Nat
  /-- variant_count | 8 | 07 Table 7.7 | no image -/
  variants : Nat
  /-- Counts in the histogram | 16 | 07 Table 7.7 | no image -/
  e : Nat
  deriving DecidableEq, Repr, Inhabited

/-- Selector rule (Table 7.8). -/
structure RuleRec where
  /-- List start | 24 | 07 R219 Table 7.8 | no image -/
  start : Nat
  /-- List length | 8 | 07 Table 7.8 | no image -/
  len : Nat
  /-- Threshold | 16 | 07 Table 7.8 | no image -/
  threshold : Nat
  /-- Variant | 8 | 07 Table 7.8 | no image -/
  variant : BitVec 8
  deriving DecidableEq, Repr, Inhabited

/-- Segment record (Table 3.8). -/
structure SegRec where
  /-- segment_id | 16 | 03 R80 Table 3.8 | no image -/
  id : BitVec 16
  /-- Length in bytes | 32 | 03 Table 3.8 | no image -/
  len : Nat
  /-- Global Reservoir address | 64 | 03 Table 3.8 | no image -/
  addr : Nat
  deriving DecidableEq, Repr, Inhabited

/-- Restart point (Table 3.8). -/
structure RestartRec where
  /-- restart_id | 16 | 03 R80 Table 3.8 | no image -/
  id : BitVec 16
  /-- Hold flag | 1 | 03 Table 3.8 | no image -/
  hold : Bool
  /-- Index of the COMMIT | 32 | 03 Table 3.8 | no image -/
  index : Nat
  deriving DecidableEq, Repr, Inhabited

/-- RESMAP region (Table 3.9). -/
structure RegionRec where
  /-- region_id | 16 | 03 R81 Table 3.9 | no image -/
  id : Nat
  /-- Use | 8 | 03 Table 3.9 | no image -/
  use : Nat
  /-- Stack | 8 | 03 Table 3.9 | no image -/
  stack : Nat
  /-- Base | 64 | 03 Table 3.9 | no image -/
  base : Nat
  /-- Length | 64 | 03 Table 3.9 | no image -/
  length : Nat
  /-- Init | 8 | 03 Table 3.9 | no image -/
  init : Nat
  deriving DecidableEq, Repr, Inhabited

/-- CALIB record (Table 3.11). -/
structure CalibRec where
  /-- recal_threshold, 0.1 °C | 8 | 03 R82 Table 3.11 | 15 -/
  recal : Nat := 15
  /-- halo_ff | 2 | 03 Table 3.11 | 0b11 -/
  haloFf : Nat := 3
  /-- retransmit_ns | 32 | 03 Table 3.11 | 2,000 -/
  retransmit : Nat := 2000
  /-- credit_timeout_us | 32 | 03 Table 3.11 | 50 -/
  creditUs : Nat := 50
  /-- mailbox_timeout_us | 32 | 03 Table 3.11 | 10,000 -/
  mailboxUs : Nat := 10000
  /-- phase_watchdog_us | 32 | 03 Table 3.11 | 1,000 -/
  watchdogUs : Nat := 1000
  deriving DecidableEq, Repr, Inhabited

/-- A RESDATA section (R81). -/
structure ResSec where
  /-- Region identifier | 16 | 03 R71, R81 | no image -/
  region : Nat
  /-- Byte offset within the region | 64 | 03 Table 3.2 | no image -/
  dest : Nat
  /-- Offset in the image load area | 64 | 03 Table 3.2 | no image -/
  off : Nat
  /-- Length | 64 | 03 Table 3.2 | no image -/
  len : Nat
  /-- Digest | 256 | 03 Table 3.2 | no image -/
  digest : BitVec 256
  deriving DecidableEq, Repr, Inhabited

/-- The committed image: what the chip holds of it after a full commit. -/
structure Image where
  /-- program_id | 64 | 02 R48, 03 R69 | 0 -/
  programId : BitVec 64 := 0
  /-- Place identifier | 24 | 02 R46, R47, 03 R69 | none without an image -/
  place : BitVec 24 := 0
  /-- Number of places N | 32 | 02 R46, 03 R69 | none -/
  places : Nat := 1
  /-- security_version of the image | 16 | 03 R84, 15 Table 15.5 | none -/
  svn : Nat := 0
  /-- Digest of the key that signed it | 256 | 15 Table 15.5 | none -/
  keyDigest : BitVec 256 := 0
  /-- SHA-256 of its manifest | 256 | 15 Table 15.5 | none -/
  manifest : BitVec 256 := 0
  /-- STRUCTURE part 0: sites | 6 | 03 R75 | unused -/
  sites : Vector SiteRec 6 := Vector.replicate 6 {}
  /-- STRUCTURE part 1: ports | 64 | 03 R76 | unconnected -/
  ports : Vector PortRec 64 := Vector.replicate 64 {}
  /-- STRUCTURE part 2: fabric connections | list | 03 R77 | none -/
  conns : List ConnRec := []
  /-- STRUCTURE part 3: mailbox bindings | list | 03 R78 | none -/
  binds : List BindRec := []
  /-- BEAMS, B000 first | 256 | 07 R204 | unused -/
  beams : List BeamRec := []
  /-- PLANS slot directory: plan_id and Dim flag | 128 | 03 R79 | empty -/
  slotDir : List (BitVec 16 × Bool) := []
  /-- Plan records, resident and paged | list | 07 R208 | none -/
  plans : List PlanRec := []
  /-- SELECTORS families | 4,096 | 07 R219 | none -/
  families : List FamilyRec := []
  /-- SELECTORS rules | 65,536 | 07 R219 | none -/
  rules : List RuleRec := []
  /-- SELECTORS expert indices | 262,144 | 07 R219 | none -/
  experts : List Nat := []
  /-- SCHEDULE program | 65,536 x 64 | 03 R80 | empty -/
  program : List DWord := []
  /-- SCHEDULE entry: start after commit, opening of an iteration | 2 x 32 | 03 R80 | 0 -/
  entry : Nat × Nat := (0, 0)
  /-- SCHEDULE segments | list | 03 R80 | none -/
  segs : List SegRec := []
  /-- SCHEDULE restart points | list | 03 R80 | none -/
  restarts : List RestartRec := []
  /-- SCHEDULE unhidden costs: phase and ns | list | 03 R80, 02 R65 | none -/
  costs : List (Word × Nat) := []
  /-- RESMAP regions | list | 03 R81 | none -/
  regions : List RegionRec := []
  /-- POWER | see PowerRec | 03 R82 | defaults of R419 -/
  power : PowerRec := {}
  /-- CALIB | see CalibRec | 03 R82 | defaults -/
  calib : CalibRec := {}
  /-- GATE records, 16 bytes each | 128 each | 05 R138 | none -/
  gate : List (BitVec 128) := []
  /-- PLACEMENT records | 8 bytes each | 05 R144 | none -/
  placement : List DWord := []
  /-- PREDICTOR records | 8 bytes each | 05 R151 | none -/
  predictor : List DWord := []
  /-- Section digests of the image: type, instance, digest | list | 03 R94 | none -/
  digests : List (Nat × Nat × BitVec 256) := []
  /-- Where its sections lie in the load area: type, instance, offset, length | list | 03 R71, R95 | none -/
  spans : List (Nat × Nat × Nat × Nat) := []
  /-- GATE part 1: route entries | 4 bytes each | 05 R137, R159 | none -/
  routes : List Word := []
  /-- RESDATA sections | list | 03 R81 | none -/
  resdata : List ResSec := []
  /-- The bytes keep the rules of R68, R70 and the section tables that the loader does not check | model's own | 03 R68, R70, R90 | none -/
  sound : Bool := true
  deriving DecidableEq, Repr, Inhabited

/-- Load states (Table 3.17). -/
inductive LoadState where
  | idle
  | loading
  | verifying
  | verified
  | armed
  deriving DecidableEq, Repr

/-- A chunk being moved out of a half of the window (R89). -/
structure Chunk where
  /-- Offset in the image | 64 | 03 R88 | - -/
  off : Nat
  /-- Length | 32 | 03 R88 | - -/
  len : Nat
  /-- Tag of the IMG_CHUNK | 16 | 03 R88 | - -/
  tag : BitVec 16
  /-- The image it belonged to has been discarded since | 1 | 03 R90 Table 3.17 | 0 -/
  dead : Bool := false
  /-- The host wrote its half meanwhile, so its bytes are unpredictable | 1 | 03 R89 | 0 -/
  torn : Bool := false
  deriving DecidableEq, Repr

/-- Image loading. The image load area itself lies in the Reservoir at global address 2^37 - 2^32. -/
structure Load where
  /-- Load state | - | 03 R90 Table 3.17 | Idle -/
  state : LoadState := .idle
  /-- Size named by IMG_BEGIN | 64 | 03 R88 | 0 -/
  size : Nat := 0
  /-- Byte ranges of the image that chunks have written | list | 03 R90 | empty -/
  written : List (Nat × Nat) := []
  /-- Chunks being moved out of half A and half B | 2 | 03 R89 | none -/
  half : Vector (Option Chunk) 2 := Vector.replicate 2 none
  /-- Tag of the running IMG_VERIFY, of the arming, or of the commit under way | 16 | 03 R88, R97 | 0 -/
  tag : BitVec 16 := 0
  /-- The verified pending image | see Image | 03 R90, R91 | none -/
  pending : Option Image := none
  /-- A full commit is being carried out | 1 | 03 R92 | 0 -/
  committing : Bool := false
  /-- A replacement is being copied at a restart point | 1 | 03 R95 | 0 -/
  copying : Bool := false
  /-- An arming lost to a management reset is to be answered ABORTED with this tag | 16 | 03 R97 | none -/
  lostArm : Option (BitVec 16) := none
  /-- Each DEV_PENUMBRA received and not yet answered: tag and parameter, oldest first | 16 + 32 | 03 R93, 17 R494 | none -/
  penumbra : List (BitVec 16 × Nat) := []
  /-- The committed image | see Image | 03 R91, R92 | none -/
  image : Option Image := none
  /-- A full commit is complete and its program has not started: only then does the device leave Penumbra for Lit | 1 | 17 R487, 04 Table 4.6 | 0 -/
  startDue : Bool := false
  deriving DecidableEq, Repr

/-! ### Control root and sequencers -/

/-- One slot of a token bank (R103). -/
structure TokSlot where
  /-- Expected generation g | 8 | 04 R103 | 0 -/
  gen : BitVec 8 := 0
  /-- Counts of generations g to g + 15 | 16 | 04 R103 | 0 -/
  counts : List Nat := []
  deriving DecidableEq, Repr

/-- A WAIT of the open phase (Table 4.3). -/
structure WaitCond where
  /-- Kind | 4 | 04 Table 4.3 | - -/
  kind : BitVec 4
  /-- Watchdog-exempt | 1 | 04 Table 4.3 | - -/
  exempt : Bool
  /-- Slot | 12 | 04 Table 4.3 | - -/
  slot : Nat
  /-- Count | 8 | 04 Table 4.3 | - -/
  count : Nat
  /-- Site, 7 none | 3 | 04 Table 4.3 | - -/
  site : Nat
  deriving DecidableEq, Repr

/-- An operation issued by the open phase (R133). -/
structure OpSt where
  /-- Target endpoint code | 16 | 04 Table 4.3, 03 Table 3.7 | - -/
  target : Nat
  /-- Descriptor words | n x 64 | 04 Table 4.3 | - -/
  words : List DWord
  /-- The unit has reported done | 1 | 04 R113 | 0 -/
  done : Bool := false
  /-- The operation has been started by its row | 1 | 05 R133 | 0 -/
  started : Bool := false
  /-- Every output is formed and every outbound stream handed to its Port Engine | 1 | 05 R136 | 0 -/
  final : Bool := false
  /-- What it has sent, by route entry and step | list | 05 R161, R162 | none -/
  sent : List Nat := []
  /-- Beams on which it sends | list | 05 R136 | none -/
  beams : List Beam := []
  deriving DecidableEq, Repr

/-- A record admitted whole by an operation of the open phase (R112, Table 4.4). -/
structure Admit where
  /-- Operation, by its place among the ISSUEs of the phase | - | 04 Table 4.4 | - -/
  op : Nat
  /-- Beam on which it came | 8 | 05 R147 | - -/
  beam : Beam
  /-- Its 16-byte header | 128 | 05 Table 5.7 | - -/
  head : List Byte
  /-- Form of the elements of a segment | - | 06 R190 | - -/
  form : SegForm
  /-- Payload | list | 05 Table 5.8 | - -/
  data : List Byte
  /-- Elements that the sender gives to the chunk (log entry 175) | 32 | 05 R160 | - -/
  total : Nat := 0
  deriving DecidableEq, Repr

/-- An arming record (R97). -/
structure ArmRec where
  /-- restart_id | 16 | 03 R97 | - -/
  id : BitVec 16
  /-- Tag of the arming | 16 | 03 R97 | - -/
  tag : BitVec 16
  /-- Marked partial | 1 | 03 R97 | 0 -/
  part : Bool := false
  /-- The pending image of the arming was lost to a management reset | 1 | 03 R97 | 0 -/
  lost : Bool := false
  deriving DecidableEq, Repr

/-- The control root. -/
structure Ctl where
  /-- SQ_STATUS.phase_state | 4 | 04 R113 Tables 4.5, 4.14 | 0 Idle -/
  phase : BitVec 4 := 0
  /-- SQ_EPOCH | 32 | 04 R104 Table 4.16 | 0 -/
  epoch : Word := 0
  /-- SQ_SERIAL, the commit register | 32 | 04 R112 Table 4.17 | 0 -/
  serial : Word := 0
  /-- SQ_PHASE | 32 | 04 Table 4.18 | 0 -/
  phaseId : Word := 0
  /-- The open phase is an epoch barrier | 1 | 04 Table 4.3 | 0 -/
  barrier : Bool := false
  /-- Attempt of the open phase | 8 | 04 R124 | 0 -/
  attempt : BitVec 8 := 0
  /-- SQ_ITER | 32 | 04 R115 Table 4.20 | 0 -/
  iter : Word := 0
  /-- Local time at which the open phase entered Waiting | 64 | 11 R341, 12 R388 | 0 -/
  waitSince : Nat := 0
  /-- The phase watchdog runs | 1 | 04 R114 | 0 -/
  watchdog : Bool := false
  /-- Current token bank | 4,096 slots | 04 R103 | empty -/
  bank : List (Nat × TokSlot) := []
  /-- Next token bank | 4,096 slots | 04 R103 | empty -/
  nextBank : List (Nat × TokSlot) := []
  /-- Epoch that the next bank holds | 32 | 04 R104 | 1 (DEDUCED, log entry 12) -/
  nextEpoch : Word := 1
  /-- Generations of commit notifications per site and slot | list of 8 | 04 R101 | 0 -/
  notifyGen : List ((Nat × Nat) × BitVec 8) := []
  /-- Send records per beam and remote slot: generation, serial in which the token was sent | 8,192 | 04 R105 | empty -/
  sendRec : List ((Nat × Nat) × (BitVec 8 × Option Word)) := []
  /-- WAIT conditions of the open phase | 32 | 04 R106 | none -/
  waits : List WaitCond := []
  /-- Index of the SWITCH of the open phase that has been resolved | 16 | 04 R109 | none -/
  switch_ : Option Nat := none
  /-- Queued commit notifications: site, slot | list | 04 Table 4.3 | none -/
  notifies : List (Nat × Nat) := []
  /-- TOKEN instructions of the phase waiting for their streams: kind, beam, slot | list | 04 R105 | none -/
  tokens : List (Nat × Nat × Nat) := []
  /-- Beams on which the phase sent a stream, with the class of the last | list | 04 R101 | none -/
  streams : List (Nat × BitVec 2) := []
  /-- Operations issued by the phase | list | 04 R113, 05 R133 | none -/
  ops : List OpSt := []
  /-- Outputs of the phase not yet visible: buffer handle, offset in the buffer, bytes | list | 02 R51, 04 Table 4.4 | none -/
  outputs : List (Nat × Nat × List Byte) := []
  /-- Records that operations of the open phase have admitted; a fence leaves them | list | 04 R112, R124 | none -/
  admitted : List Admit := []
  /-- Transfers that operations of this epoch have named: site, stream, offset | list | 11 R355 | none -/
  named : List (Nat × Nat × Nat) := []
  /-- COMMIT of the phase decoded, with its iteration-end flag | 1 + 1 | 04 R113 | none -/
  commit_ : Option Bool := none
  /-- Item for which the sequencer is Fetching | - | 04 R113, 02 R64 | none -/
  fetching : Option FetchItem := none
  /-- Fetches in flight | list | 02 R63 | none -/
  fetches : List FetchItem := []
  /-- Run-ahead predictor enabled | 1 | 04 R115, 02 R59 | 0 -/
  runAhead : Bool := false
  /-- Arming record | see ArmRec | 03 R97 | none -/
  arm : Option ArmRec := none
  /-- Restart point at which the sequencer is Held | 16 | 04 Table 4.6 | none -/
  heldAt : Option (BitVec 16) := none
  /-- Family whose variant SELECT last put into each variant register | model's own | 07 R220 | none -/
  families : List (Nat × Nat) := []
  /-- An applied replacement changed SCHEDULE, so a release continues at its entry | 1 | 03 R95 | 0 -/
  newEntry : Bool := false
  /-- A replacement has been applied at the hold | 1 | 03 R95, R98 Table 3.19 | 0 -/
  applied : Bool := false
  deriving DecidableEq, Repr, Inhabited

/-- Unit states (Table 4.9, SQ_UNIT.unit_state coding). -/
inductive UnitState where
  | active
  | inSync
  | stale
  | failed
  | selfTest
  | resyncing
  | keptOut
  deriving DecidableEq, Repr, Inhabited

/-- A Mirror record (Table 4.7). -/
structure MirrorRec where
  /-- Barrier commit, iteration end | 2 | 04 Table 4.7 | 0 -/
  flags : Bool × Bool := (false, false)
  /-- Value of SQ_ITER after the commit | 32 | 04 Table 4.7 | 0 -/
  iter : Word := 0
  /-- Phase committed | 32 | 04 Table 4.7 | 0 -/
  phaseId : Word := 0
  /-- Serial of the commit it records | 32 | 04 R119 Table 4.7 | 0 -/
  serial : Word := 0
  /-- Epoch after the commit | 32 | 04 Table 4.7 | 0 -/
  epoch : Word := 0
  /-- Program counter after the COMMIT | 16 | 04 Table 4.7 | 0 -/
  pc : BitVec 16 := 0
  /-- Loop counters | 8 x 32 | 04 Table 4.7 | 0 -/
  lc : Vector Word 8 := Vector.replicate 8 0
  /-- Call stack | 4 x 16 + depth | 04 Table 4.7 | empty -/
  stack : List (BitVec 16) := []
  /-- Variant registers | 16 x 8 | 04 Table 4.7 | 0 -/
  v : Vector Byte 16 := Vector.replicate 16 0
  deriving DecidableEq, Repr, Inhabited

/-- What a segment window of a schedule memory holds (R108). -/
structure SegWindow where
  /-- segment_id | 16 | 04 R108 | - -/
  id : BitVec 16
  /-- Its instructions | at most 2,048 x 64 | 04 R108 | - -/
  words : List DWord
  deriving DecidableEq, Repr, Inhabited

/-- One sequencer unit. -/
structure SqUnitSt where
  /-- SQ_UNIT.unit_state | 4 | 04 R128 Tables 4.9, 4.15 | DESIGN CHOICE A active 0, B standby in sync 1 (log entry 13) -/
  state : UnitState := .active
  /-- SQ_UNIT.fail_count | 8 | 04 Table 4.15 | 0 -/
  failCount : BitVec 8 := 0
  /-- Failures since the last full commit that count towards the third of R126 | - | 04 R126, R128 | 0 -/
  strikes : Nat := 0
  /-- SQ_UNIT.cause | 4 | 04 Table 4.15 | 0 -/
  cause : BitVec 4 := 0
  /-- Loop counters LC0-LC7 | 8 x 32 | 04 R99 | 0 DESIGN CHOICE (log entry 14) -/
  lc : Vector Word 8 := Vector.replicate 8 0
  /-- Call stack, newest first, at most four | 4 x 16 | 04 R99 | empty DESIGN CHOICE (log entry 14) -/
  stack : List (BitVec 16) := []
  /-- Variant registers V0-V15 | 16 x 8 | 04 R99 | 0 DESIGN CHOICE (log entry 14) -/
  v : Vector Byte 16 := Vector.replicate 16 0
  /-- Program counter | 16 | 04 R99, Table 4.19 | 0 -/
  pc : BitVec 16 := 0
  /-- Schedule memory, the program part | 65,536 x 64 with the windows | 04 R99, 03 R80 | empty DESIGN CHOICE (log entry 14) -/
  program : List DWord := []
  /-- Schedule memory, the segment windows | 32 | 04 R99, R108 | empty DESIGN CHOICE (log entry 14) -/
  window : Vector (Option SegWindow) 32 := Vector.replicate 32 none
  /-- Plan store: slots 0-127 and the switch slot | 129 x 4 KiB | 04 R99, 07 R211 | empty DESIGN CHOICE (log entry 14) -/
  plans : Vector (Option PlanRec) 129 := Vector.replicate 129 none
  /-- Confirmed record held as standby | see MirrorRec | 04 R119 | none -/
  confirmed : Option MirrorRec := none
  /-- Pending record held as standby | see MirrorRec | 04 R119 | none -/
  pending : Option MirrorRec := none
  deriving DecidableEq, Repr, Inhabited

/-- Progress of a takeover (Table 4.8). -/
structure Fence where
  /-- Unit that failed | 1 | 04 R123 | - -/
  failed : Fin 2
  /-- Phase state when the failure was declared | 4 | 04 R123 | - -/
  from_ : BitVec 4
  /-- The phase watchdog expired during the takeover, so the epoch is aborted after it | 1 | 04 R131 Table 4.11 | 0 -/
  abortAfter : Bool := false
  deriving DecidableEq, Repr

/-- The sequencers and the SQ_ registers. -/
structure Sq where
  /-- Units SQ-A and SQ-B | 2 | 04 R99 | see SqUnitSt -/
  unit : Vector SqUnitSt 2 := #v[{}, { state := .inSync }]
  /-- SQ_STATUS.active | 1 | 04 Table 4.14 | 0 -/
  active : Fin 2 := 0
  /-- SQ_CTRL.takeback_en | 1 | 04 Table 4.13 | 1 -/
  takeback : Bool := true
  /-- SQ_CTRL.primary | 1 | 04 Table 4.13 | 0 -/
  primary : Fin 2 := 0
  /-- SQ_STATUS.state_epoch | 16 | 04 Table 4.14 | 0x0000 -/
  epoch : BitVec 16 := 0
  /-- SQ_CMD_STATUS: command, busy, result | 8 + 1 + 2 | 04 Table 4.22 | 0 -/
  cmd : BitVec 8 × Bool × BitVec 2 := (0, false, 0)
  /-- SQ_RESUME_EPOCH | 32 | 04 Table 4.24 | 0 -/
  resumeEpoch : Word := 0
  /-- SQ_EVENT | 11 | 04 Table 4.25 | 0 -/
  event : BitVec 11 := 0
  /-- SQ_EVENT_MASK | 11 | 04 Table 4.25 | 0 -/
  mask : BitVec 11 := 0
  /-- SQ_FO_TIME | 64 | 04 Table 4.26 | 0 -/
  foTime : BitVec 64 := 0
  /-- SQ_WDOG | 32 | 04 Table 4.27 | 0 -/
  wdog : Word := 0
  /-- Fence in progress | see Fence | 04 R123 | none -/
  fence : Option Fence := none
  /-- Mirror record sent and not acknowledged, and whether it has been resent | - | 04 R119, R120 | none -/
  sent : Option (MirrorRec × Bool) := none
  /-- The pending record has arrived intact and its acknowledgement is on the way | 1 | 04 R119 | 0 -/
  ackDue : Bool := false
  /-- A swap by SQ_CMD take back now is due at the next commit | 1 | 04 R128 | 0 -/
  takebackNow : Bool := false
  /-- The resync copy has ended and the standby waits for a sealed commit | 1 | 04 R121 | 0 -/
  copied : Bool := false
  /-- The record under way is that of a commit after the end of the resync copy: its acknowledgement puts the standby in sync | 1 | 04 R121, Table 4.9 | 0 -/
  sealed : Bool := false
  /-- Local time of the last heartbeat of each unit | 2 x 64 | 04 R122 | 0 -/
  beatAt : Vector Nat 2 := Vector.replicate 2 0
  deriving DecidableEq, Repr

end Sys2Proof.Machine
end

