-- ==== Sys2Proof/Machine/StCe.lean ====
section
/-!
DEFINITION. The state of the Collective Engine.
-/

namespace Sys2Proof.Machine

/-- A copy of a token, as a DISPATCH formed it (R145, R150). -/
structure Copy where
  /-- Serial of the DISPATCH that formed it | 32 | 05 R150 | - -/
  serial : Word
  /-- Token index | 16 | 05 R145 | - -/
  token : Nat
  /-- Rank among the token's experts | 4 | 05 R145 | - -/
  rank : Nat
  /-- Placement entry | 16 | 05 R145 | - -/
  entry : Nat
  /-- Held by a compute die of this place | 1 | 05 R144 | - -/
  here : Bool
  /-- Destination place | 24 | 05 R144, R150 | - -/
  place : Nat
  /-- Beam to it | 8 | 05 R144, R150 | - -/
  beam : Beam
  /-- Expert slot | 10 | 05 R144, R150 | - -/
  slot : Nat
  /-- Quota of its entry | 8 | 05 R144 | - -/
  quota : Nat
  /-- Count n | 6 | 05 R145, R150 | - -/
  n : Nat
  /-- Gate weight | 32 | 05 R140, R150 | - -/
  weight : Word
  /-- It is parked | 1 | 05 R145 | - -/
  parked : Bool
  /-- It was parked by an earlier DISPATCH | 1 | 05 R150 | - -/
  old : Bool
  /-- Payload of a parked copy | list | 05 R150 | - -/
  data : List Byte := []
  deriving DecidableEq, Repr

/-- An entry of a receive list with what its COMBINE needs of the record (R149, R157). -/
structure Arrival where
  /-- Position | 32 | 05 R148 | - -/
  pos : Nat
  /-- Source token index | 16 | 05 R149 | - -/
  token : Nat
  /-- Delivered by run-ahead | 1 | 05 R149 | - -/
  ahead : Bool
  /-- Overflow copy | 1 | 05 R149 | - -/
  over_ : Bool
  /-- Slot and n | 16 | 05 Table 5.7 | - -/
  slot : Nat
  /-- Count n | 6 | 05 Table 5.7 | - -/
  n : Nat
  /-- Beam to the source, none for a local copy | 8 | 05 R157 | - -/
  beam : Option Beam
  deriving DecidableEq, Repr

/-- A deferred sum (R158): Exact long form per element, or FP32. -/
structure Deferred where
  /-- Overflow region handle | 32 | 05 R158 | - -/
  region : Nat
  /-- Serial of the DISPATCH whose token it is | 32 | 05 R158 | - -/
  serial : Word
  /-- Token index | 16 | 05 R158 | - -/
  token : Nat
  /-- Exact mode | 1 | 05 R158, 06 R200 | - -/
  exact : Bool
  /-- Long form: L and status per element | H x 40 bytes | 06 R194 | - -/
  long : List (Int × Byte)
  /-- FP32 sum per element, in Fast mode | H x 32 | 06 R195 | - -/
  fast : List Word
  deriving DecidableEq, Repr

/-- A tentative record in a beam's queue (R153, R155). -/
structure Tentative where
  /-- Beam | 8 | 05 R153 | - -/
  beam : Beam
  /-- Window entry | 5 | 05 R153 | - -/
  entry : Nat
  /-- Serial of the run-ahead phase | 32 | 05 R153, Table 5.8 | - -/
  serial : Word
  /-- Token index | 16 | 05 R153 | - -/
  token : Nat
  /-- Placement entry | 16 | 05 R151 | - -/
  place : Nat
  /-- Its transmission has started | 1 | 05 R155 | 0 -/
  started : Bool
  /-- Its record: flits to be sent | list | 05 R153 | - -/
  flits : List OutFlit
  deriving DecidableEq, Repr

/-- An entry of an inbound window (R154, R156). -/
structure WindowEntry where
  /-- Beam | 8 | 05 R154 | - -/
  beam : Beam
  /-- Window entry | 5 | 05 R154 | - -/
  entry : Nat
  /-- Attempt of its stream | 4 | 05 R156 | - -/
  attempt : BitVec 4
  /-- Source token index | 16 | 05 Table 5.7 | - -/
  token : Nat
  /-- Source place | 24 | 05 Table 5.7 | - -/
  source : Nat
  /-- Staging address of the entry | 27 | 05 R154 | - -/
  addr : Nat
  /-- Payload | list | 05 R154 | - -/
  data : List Byte
  /-- How a marker resolved it: not yet, committed, cancelled | 2 | 05 R156 | none -/
  resolved : Option Bool
  deriving DecidableEq, Repr

/-- What the Collective Engine applies at the commit of the open phase (Table 4.4). -/
structure CePend where
  /-- Parked copies of an overflow region after the commit | list | 05 R150 | none -/
  parked : List (Nat × List Copy) := []
  /-- Copies newly parked | 24 | 05 R150 | 0 -/
  fresh : Nat := 0
  /-- Dispatch records | list | 05 R152 | none -/
  disp : List (Nat × List Copy) := []
  /-- Receive lists | list | 05 R149 | none -/
  lists : List (Nat × List Arrival) := []
  /-- Deferred sums after the commit, where they change | list | 05 R158 | none -/
  sums : Option (List Deferred) := none
  /-- Biases | list | 05 R142 | none -/
  bias : List (Nat × Word) := []
  deriving DecidableEq, Repr, Inhabited

/-- The Collective Engine and the CE_ registers. -/
structure Ce where
  /-- CE_CTRL.ra_disable | 1 | 05 R166 Table 5.17 | 0 -/
  raDisable : Bool := false
  /-- CE_STATUS.state_epoch | 16 | 05 Table 5.18 | 0x0000 -/
  epoch : BitVec 16 := 0
  /-- CE_EVENT | 6 | 05 Table 5.20 | 0 -/
  event : BitVec 6 := 0
  /-- CE_EVENT_MASK | 6 | 05 Table 5.20 | 0 -/
  mask : BitVec 6 := 0
  /-- CE_PARKED | 24 | 05 Table 5.20 | 0 -/
  parked : Nat := 0
  /-- CE_PARK_TOTAL | 64 | 05 Table 5.21 | 0 -/
  parkTotal : BitVec 64 := 0
  /-- CE_RA_COMMIT | 64 | 05 Table 5.22 | 0 -/
  raCommit : BitVec 64 := 0
  /-- CE_RA_CANCEL | 64 | 05 Table 5.23 | 0 -/
  raCancel : BitVec 64 := 0
  /-- CE_VIEW_SEL.view | 4 | 05 Table 5.24 | 0 -/
  view : BitVec 4 := 0
  /-- CE_VIEW_SEL.index | 16 | 05 Table 5.24 | 0 -/
  viewIndex : BitVec 16 := 0
  /-- CE_STATUS.park_high | 1 | 05 Table 5.18 | 0 -/
  parkHigh : Bool := false
  /-- CE_ERR_INFO: kind, unit, address | 4 + 6 + 22 | 05 Table 5.25 | 0 -/
  errInfo : BitVec 4 × BitVec 6 × BitVec 22 := (0, 0, 0)
  /-- Bias table, FP32 by placement index | 65,536 x 32 | 05 R142 | 0 -/
  bias : List (Nat × Word) := []
  /-- Staging SRAM, cluster x 2^23 + byte | 16 x 6 MiB | 05 R134, 02 Table 2.6 | 0 DESIGN CHOICE (log entry 2) -/
  staging : Mem := []
  /-- Ranges that committed phases have written: Reservoir addresses, and staging addresses from 2^40 on | list | 04 R110 | empty -/
  written : List (Nat × Nat) := []
  /-- Parked copies of each overflow region, oldest first | list | 05 R150 | empty -/
  parkedAt : List (Nat × List Copy) := []
  /-- Dispatch records by handle, their internal layout being unspecified | list | 05 R152 Table 5.9 | empty -/
  disp : List (Nat × List Copy) := []
  /-- Receive lists by handle | list | 05 R149 | empty -/
  lists : List (Nat × List Arrival) := []
  /-- Deferred sums | list | 05 R158 | empty -/
  sums : List Deferred := []
  /-- Reservoir address and length of what each overflow region holds, where the last commit that changed it put it | list | 05 R150, 06 R194 (log entry 140) | empty -/
  overAt : List (Nat × Nat × Nat) := []
  /-- Tentative records formed by mode 1 DISPATCHes and not yet resolved | list | 05 R153 | empty -/
  queue : List Tentative := []
  /-- Window entries of inbound beams | 256 x 32 | 05 R154 | empty -/
  window : List WindowEntry := []
  /-- Window area that this place's mode 1 DISPATCH opened: handle, W, payload bytes, until the dispatch phase commits | 32 + 6 + 18 | 05 R154 | none -/
  area : Option (Nat × Nat × Nat) := none
  /-- What the commit of the open phase applies | see CePend | 04 Table 4.4 | none -/
  pend : CePend := {}
  deriving DecidableEq, Repr, Inhabited

end Sys2Proof.Machine
end

