-- ==== Sys2Proof/Machine/State.lean ====
section
/-!
DEFINITION. The machine state, its faults and refusals, and the state after reset.
-/

namespace Sys2Proof.Machine

/-- Why a step stops with a fault: the spec names no event of this block that stops it, and the unpredictable outcome of a host error is a
next state whose work is free (R6, R61, log entry 169), so no fault is ever raised. -/
inductive Fault where
  deriving DecidableEq, Repr

/-- Why a step refuses. -/
inductive Refusal where
  /-- A command that has no meaning yet, by its mnemonic; raised by Machine/Dispatch.lean alone; safe. -/
  | notModelled (mnemonic : String)
  deriving DecidableEq, Repr

/-- What the block sends or reports to the outside, as a command brings it about. -/
inductive Emission where
  /-- An MSI-X message of a vector (R476). -/
  | msix (v : Nat) (addr : BitVec 64) (data : Word)
  /-- An I3C in-band interrupt with its mandatory byte (R452). -/
  | ibi (b : Byte)
  /-- A flit sent on a beam, 256 bytes (R235). -/
  | flit (b : Beam) (raw : List Byte)
  /-- A TRAIN flit payload sent on every locked line of a port (R258). -/
  | train (p : Port) (raw : List Byte)
  /-- Markers sent on the lit lines of a port: line and the 80 bytes (R231). -/
  | marker (p : Port) (n : Line) (raw : List Byte)
  /-- A codeword sent on a line, its 68 symbols as they go onto the fibre (R230, R232). -/
  | lineCodeword (p : Port) (n : Line) (symbols : List (BitVec 10))
  /-- Scrambled IDLE codewords that a line carries which serves no beam, one after the other (R230, R288, R292). -/
  | idleCodewords (p : Port) (n : Line) (words : List (List (BitVec 10)))
  /-- The clock pattern that L00 of a port carries, 64 bits of it, the least significant first (R232). -/
  | clock (p : Port) (pattern : DWord)
  /-- A frame of a module, or of the sideband as module 32: the 64 UI of each lane, UI 0 the least significant (R334 to R339, R348). -/
  | frame (w : WideIx) (m : Fin 33) (lanes : List DWord)
  /-- A sideband frame of six slots, 126 bytes (R358). -/
  | sideband (s : SiteIx) (raw : List Byte)
  /-- A TOKEN message of a site's sideband that leaves just before the site's link is taken down, its body (R93, Table 18.2). -/
  | token (s : SiteIx) (body : List Byte)
  /-- The answer aborted to a message of a compute die on a channel, as its site leaves Active (R363, R368). -/
  | siteAborted (s : SiteIx) (channel : Fin 8)
  /-- A codeword of a Reach Port quad, its 544 symbols (R374). -/
  | codeword (t : ReachIx) (q : Fin 8) (symbols : List (BitVec 10))
  /-- A lane marker of the Reach Port, 40 bytes (R377). -/
  | laneMarker (t : ReachIx) (lane : Fin 32) (raw : List Byte)
  /-- The control and status words of a Reach Port training frame (R379). -/
  | trainWord (t : ReachIx) (lane : Fin 32) (control status : Word)
  /-- The PAM4 levels of the UI that a Reach Port lane sends, in order (R373). -/
  | levels (t : ReachIx) (lane : Fin 32) (l : List (Fin 4))
  /-- The data of a register read by a master (R13). -/
  | regRead (m : Master) (off : Nat) (v : Word)
  /-- The data of a configuration read (R459). -/
  | cfgRead (r : CfgReg) (v : Word)
  /-- The bytes of a host's read of the BAR2 window (R460). -/
  | bar2Read (data : List Byte)
  /-- Doorbell bits that reach the firmware: newly set and not masked (R473). -/
  | fwDoorbell (bits : Word)
  /-- Words read over I3C (R452). -/
  | i3cRead (ws : List Word)
  /-- The completion of a BAR4 read: data, or none when it is poisoned (R405). -/
  | bar4 (data : Option (List Byte))
  /-- A reply that the firmware discarded because its queue was full, by F2H channel (R471). -/
  | replyLost (c : Nat)
  /-- A probe of L00 emitted by a port (R326). -/
  | probe (p : Port)
  /-- A voltage in mV written to the core regulator over AVSBus (R516). -/
  | avs (mv : Nat)
  /-- The nonce of a fibre Echo, in its first 16 codewords (R511). -/
  | echoNonce (p : Port) (nonce : BitVec 64)
  /-- The pattern of a fibre Echo: RS(68,64) codewords with PRBS-31 payload on L01 to L08 (Table 18.3). -/
  | echoPattern (p : Port)
  /-- A thermal or electrical action on every comb die: all currents 0 (R327). -/
  | dark
  deriving DecidableEq, Repr

/-- The state of the EK2. -/
structure State where
  /-- Device state, supplies, resets -/
  dev : Dev := {}
  /-- PCI Express function -/
  host : HostIf := {}
  /-- Mailboxes -/
  mbx : Mbx := {}
  /-- Doorbells -/
  dbl : Dbl := {}
  /-- Locks -/
  lck : Lck := {}
  /-- Errors and log -/
  err : Err := {}
  /-- Management -/
  mgt : Mgt := {}
  /-- Security -/
  sec : Sec := { counter := Config.fusedCounter.val, slot0Revoked := Config.fusedSlot0Revoked }
  /-- Power -/
  pwr : Pwr := {}
  /-- Thermal -/
  thm : Thm := {}
  /-- Reservoir -/
  hbm : Hbm := {}
  /-- Comb sources -/
  comb : Comb := {}
  /-- Die-to-die sites W0-W3, T0, T1 -/
  site : Vector Site 6 := Vector.replicate 6 {}
  /-- Wide Port parts of W0-W3 -/
  wide : Vector WideSite 4 := Vector.replicate 4 {}
  /-- Reach Port parts of T0, T1 -/
  reach : Vector ReachSite 2 := Vector.replicate 2 {}
  /-- WP_ and TP_ command registers -/
  siteReg : SiteRegs := {}
  /-- Beams B000-B255 -/
  beam : Vector BeamSt 256 := Vector.replicate 256 {}
  /-- Ports P00-P63 -/
  port : Vector PortSt 64 := Vector.replicate 64 {}
  /-- Plans and link registers -/
  pln : Pln := {}
  /-- Rings -/
  ring : Rings := {}
  /-- Image loading and the committed image -/
  img : Load := {}
  /-- Control root -/
  ctl : Ctl := {}
  /-- Sequencers -/
  sq : Sq := {}
  /-- Collective Engine -/
  ce : Ce := {}
  /-- Local microsecond counter, MGT_TIME | 64 | 15 R437, 01 R37 | 0 -/
  time : Nat := 0
  /-- The model's own: emissions, newest first | list | log entry 15 | empty -/
  out : List Emission := []
  /-- The model's own: number of free values used | - | log entry 9 | 0 DESIGN CHOICE -/
  fresh : Nat := 0
  /-- Commands waiting, first in first out | list | the model's queue | empty -/
  pending : List Instr := []
  deriving DecidableEq, Repr

/-- The machine right after reset (log entry 1). -/
def State.reset : State := {}

/-- The data and state of the work using the device, which a host error leaves unpredictable (R6, R61): the phase, epoch and token state, the
private state of the sequencers with their stores, the beams, the plans in store and in force at each port, the image's tables, the tables and
memories of the Collective Engine, the Reservoir regions that the image declares, and what is queued for or delivered to compute dies and
peers. -/
structure Work where
  /-- Control root -/
  ctl : Ctl
  /-- Private state of SQ-A and SQ-B -/
  unit : Vector SqUnitSt 2
  /-- Link-layer state of the beams -/
  beam : Vector BeamSt 256
  /-- Plan store slots and the switch slot -/
  slots : Vector PlanSlot 129
  /-- Plan in force -/
  inForce : BitVec 16
  /-- Port block in force at each Port Engine -/
  blocks : Vector (Option (BitVec 16 × PlanBlock)) 64
  /-- Switches on their way at each Port Engine -/
  switches : Vector (List PortSwitch) 64
  /-- Tables of the committed image -/
  tables : Image
  /-- Transfers queued for each compute die, by stream -/
  queued : Vector (List (Nat × List Transfer)) 6
  /-- Collective Engine -/
  ce : Ce
  /-- Bytes written to staging SRAM -/
  staging : List Host.Cell
  /-- Bytes written to the Reservoir, of which only those in declared regions count -/
  hbm : List Host.Cell
  /-- What is sent, of which only deliveries to compute dies and peers count -/
  out : List Emission
  deriving Inhabited

end Sys2Proof.Machine

namespace Sys2Proof

/-- The `n`-th free value of the work after a host error (R5, R61, log entry 169). -/
opaque Config.workAfter : Nat → Machine.Work

/-- The `n`-th free Mirror record, after an error that the code of the link missed (R402, log entry 221). -/
opaque Config.recordAfter : Nat → Machine.MirrorRec

/-- The `n`-th free log record, after an error that the code of the log SRAM missed (R402, R435, log entry 221). -/
opaque Config.logAfter : Nat → Option Machine.LogRec

end Sys2Proof
end

