-- ==== Sys2Proof/Machine/Ops.lean ====
section
/-!
DEFINITION. The named operations that many commands share: events and the log, interrupts, notices to the compute
dies, aborting an epoch, containing a site, darkening a port, and entering Umbra.
-/

namespace Sys2Proof.Machine

/-! ### Small accessors -/

/-- GLB_REV.stepping of this device: B0 (R1), which Table 16.9 codes as 1. -/
def stepping : BitVec 8 := 1

/-- Sends something to the outside. -/
def emit (e : Emission) (s : State) : State := { s with out := e :: s.out }

/-- Changes one port. -/
def onPort (p : Port) (f : PortSt → PortSt) (s : State) : State := { s with port := upd s.port p f }

/-- Changes one line of a port. -/
def onLine (p : Port) (n : Line) (f : LineSt → LineSt) (s : State) : State :=
  onPort p (fun q => { q with line := upd q.line n f }) s

/-- Changes one beam. -/
def onBeam (b : Beam) (f : BeamSt → BeamSt) (s : State) : State := { s with beam := upd s.beam b f }

/-- Changes one die-to-die site. -/
def onSite (x : SiteIx) (f : Site → Site) (s : State) : State := { s with site := upd s.site x f }

/-- Changes one module (index 32: the sideband) of a Wide Port site. -/
def onMod (w : WideIx) (m : Fin 33) (f : Module → Module) (s : State) : State :=
  { s with wide := upd s.wide w fun y => { y with mods := upd y.mods m f } }

/-- Changes the Reach part of a site. -/
def onReach (t : ReachIx) (f : ReachSite → ReachSite) (s : State) : State := { s with reach := upd s.reach t f }

/-- Changes one lane of a Reach Port site. -/
def onLane (t : ReachIx) (l : Fin 32) (f : ReachLane → ReachLane) (s : State) : State :=
  onReach t (fun r => { r with lanes := upd r.lanes l f }) s

/-- The POWER record in force, with the defaults of R419 without an image (R94, Table 3.18). -/
def powerRec (s : State) : PowerRec := s.pwr.policy

/-- The CALIB record in force, with its defaults without an image (R82). -/
def calibRec (s : State) : CalibRec := (s.img.image.map (·.calib)).getD {}

/-- The site entry of the committed image (R75). -/
def siteRec (s : State) (x : SiteIx) : SiteRec := (s.img.image.map (·.sites[x])).getD {}

/-- The port entry of the committed image (R76). -/
def portRec (s : State) (p : Port) : PortRec := (s.img.image.map (·.ports[p])).getD {}

/-- The record of a beam, unused without an image (R204). -/
def beamRec (s : State) (b : Beam) : BeamRec := nth ((s.img.image.map (·.beams)).getD []) b.val {}

/-- The plan record with a plan_id, of the committed image. -/
def planRec (s : State) (id : BitVec 16) : Option PlanRec :=
  ((s.img.image.map (·.plans)).getD []).find? fun r => r.planId == id

/-- Writes both sequencers' stores alike, as the fetch engine and the firmware do (R99, R100). -/
def bothStores (f : SqUnitSt → SqUnitSt) (s : State) : State := { s with sq := { s.sq with unit := s.sq.unit.map f } }

/-- The plan in a slot of the active sequencer's store, once it is resident (R99, R211). -/
def planIn (s : State) (k : Fin 129) : Option PlanRec :=
  if (s.pln.slots[k]).state = 1 then ((s.sq.unit[s.sq.active]).plans)[k] else none

/-- The index of a Wide Port site. -/
def wideOf (x : SiteIx) : Option WideIx := if h : x.val < 4 then some ⟨x.val, h⟩ else none

/-- The index of a Reach Port site. -/
def reachOf (x : SiteIx) : Option ReachIx := if h : 4 ≤ x.val then some ⟨x.val - 4, by omega⟩ else none

/-- The device runs: supplies up and both reset inputs released (R483). -/
def running (s : State) : Bool := s.dev.powered && !s.dev.sysRst && !s.dev.perst

/-- A command that needs a running device has no effect without supplies or in reset (log entry 1). -/
def live (f : State → State) (s : State) : State := if running s then f s else s

/-! ### Events and the log (R449, R507 to R509, R529) -/

/-- Block codes of Table 15.6. -/
def blkGLB : Nat := 1
/-- MBX block. -/
def blkMBX : Nat := 2
/-- DBL block. -/
def blkDBL : Nat := 3
/-- PWR block. -/
def blkPWR : Nat := 5
/-- THM block. -/
def blkTHM : Nat := 6
/-- ERR block. -/
def blkERR : Nat := 7
/-- PRT block. -/
def blkPRT : Nat := 8
/-- BEAM block. -/
def blkBEAM : Nat := 9
/-- PLN block. -/
def blkPLN : Nat := 10
/-- SQ block. -/
def blkSQ : Nat := 11
/-- CE block. -/
def blkCE : Nat := 12
/-- WP block. -/
def blkWP : Nat := 13
/-- TP block. -/
def blkTP : Nat := 14
/-- HBM block. -/
def blkHBM : Nat := 15
/-- MGT block. -/
def blkMGT : Nat := 16
/-- SEC block. -/
def blkSEC : Nat := 17

/-- Classes of Table 0.3 as the log codes them (Table 15.6). -/
def clsReported : Nat := 0
/-- Corrected. -/
def clsCorrected : Nat := 1
/-- Recoverable. -/
def clsRecoverable : Nat := 2
/-- Contained. -/
def clsContained : Nat := 3
/-- Fatal. -/
def clsFatal : Nat := 4

/-- An index as a member of a family of `n`, wrapping. -/
def fin! (n : Nat) [NeZero n] (i : Nat) : Fin n := Fin.ofNat n i

/-- The block of a die-to-die site. -/
def siteBlk (x : SiteIx) : Nat := if x.val < 4 then blkWP else blkTP

/-- The instance number of a site within its block. -/
def siteInst (x : SiteIx) : Nat := if x.val < 4 then x.val else x.val - 4

/-- The state_epoch of the status register of a block and instance, after the event (R449). -/
def blockEpoch (s : State) (blk inst : Nat) : BitVec 16 :=
  if blk = 1 then s.dev.epoch
  else if blk = 5 then s.pwr.epoch
  else if blk = 7 then s.err.epoch
  else if blk = 8 then (if inst < 64 then (s.port[fin! 64 inst]).epoch else 0)
  else if blk = 10 then s.pln.epoch
  else if blk = 11 then s.sq.epoch
  else if blk = 12 then s.ce.epoch
  else if blk = 13 then (if inst < 4 then (s.site[fin! 6 inst]).epoch else 0)
  else if blk = 14 then (if inst < 2 then (s.site[fin! 6 (inst + 4)]).epoch else 0)
  else if blk = 15 then s.hbm.epoch
  else if blk = 16 then s.mgt.epoch
  else 0

/-- Adds `n` repeats to the newest Corrected record of the same block, code and instance if it is at
most 1 ms old (R508). -/
def mergeRec (now blk code inst : Nat) : List LogRec → Option (List LogRec)
  | [] => none
  | r :: rest =>
    if r.cls = 1 ∧ r.block = BitVec.ofNat 8 blk ∧ r.code = BitVec.ofNat 16 code ∧ r.inst = BitVec.ofNat 16 inst ∧
        now ≤ r.time + 1000 then
      some ({ r with rep := if r.rep = BitVec.allOnes 32 then r.rep else r.rep + 1 } :: rest)
    else (mergeRec now blk code inst rest).map (r :: ·)

/-- Records the log holds (R449). -/
def logDepth : Nat := 32768

/-- Logs and counts one event: counter of block and class (R507), record of the log ring, merged when it is a
recurring Corrected event (R508), the class's bit of ERR_EVENT (Table 18.2), and the first Contained or Fatal
capture (R509). -/
def logEvent (cls blk code inst : Nat) (s : State) : State :=
  let e1 := { s.err with
    counts := updN s.err.counts blk fun v => updN v cls (· + 1)
    epoch := if 3 ≤ cls then s.err.epoch + 1 else s.err.epoch
    event := if cls = 0 then s.err.event else setBit s.err.event (cls - 1) }
  let s1 := { s with err := e1 }
  let r : LogRec := {
    time := s.time, cls := BitVec.ofNat 8 cls, block := BitVec.ofNat 8 blk,
    code := BitVec.ofNat 16 code, inst := BitVec.ofNat 16 inst, epoch := blockEpoch s1 blk inst,
    rep := if cls = 1 then 1 else 0, seed := s.fresh }
  let merged := if cls = 1 then mergeRec s.time blk code inst e1.log else none
  match merged with
  | some l => { s1 with err := { e1 with log := l } }
  | none =>
    { s1 with
      fresh := s.fresh + 1
      err := { e1 with
        log := (r :: e1.log).take logDepth
        logCount := e1.logCount + 1
        first := if 3 ≤ cls ∧ e1.first = none then some r else e1.first } }

/-- Sets one bit of a block's event register (the instance picks the port, beam or site). A THM bit that becomes
set and is not masked raises an in-band interrupt (R452). -/
def setEv (blk inst bit : Nat) (s : State) : State :=
  if blk = 1 then { s with dev := { s.dev with event := setBit s.dev.event bit } }
  else if blk = 3 then { s with dbl := { s.dbl with event := setBit s.dbl.event bit } }
  else if blk = 5 then { s with pwr := { s.pwr with event := setBit s.pwr.event bit } }
  else if blk = 6 then
    let s1 := { s with thm := { s.thm with event := setBit s.thm.event bit } }
    if s.thm.event.getLsbD bit = false ∧ s.thm.mask.getLsbD bit = false then emit (.ibi 2) s1 else s1
  else if blk = 7 then { s with err := { s.err with event := setBit s.err.event bit } }
  else if blk = 8 then onPort (fin! 64 inst) (fun q => { q with event := setBit q.event bit }) s
  else if blk = 9 then { s with pln := { s.pln with broken := setBit s.pln.broken inst } }
  else if blk = 10 then { s with pln := { s.pln with event := setBit s.pln.event bit } }
  else if blk = 11 then { s with sq := { s.sq with event := setBit s.sq.event bit } }
  else if blk = 12 then { s with ce := { s.ce with event := setBit s.ce.event bit } }
  else if blk = 13 then onSite (fin! 6 inst) (fun q => { q with event := setBit q.event bit }) s
  else if blk = 14 then onSite (fin! 6 (inst + 4)) (fun q => { q with event := setBit q.event bit }) s
  else if blk = 15 then { s with hbm := { s.hbm with event := setBit s.hbm.event bit } }
  else if blk = 16 then { s with mgt := { s.mgt with event := setBit s.mgt.event bit } }
  else if blk = 17 then { s with sec := { s.sec with event := setBit s.sec.event bit } }
  else s

/-- An event of a class that sets an event bit: its code is 1 + the bit (R529). -/
def eventBit (cls blk inst bit : Nat) (s : State) : State := logEvent cls blk (bit + 1) inst (setEv blk inst bit s)

/-- An event that is no error and sets an event bit: logged as reported (R529, log entry 17). -/
def flag (blk inst bit : Nat) (s : State) : State := eventBit 0 blk inst bit s

/-! ### Notices to the compute dies and the sideband -/

/-- Queues a sideband message on a site whose sideband is up (R358). -/
def sbSend (x : SiteIx) (typ : Byte) (body : List Byte) (s : State) : State :=
  onSite x (fun q => if q.sb.up then { q with sb := { q.sb with queue := q.sb.queue ++ [{ typ := typ, body := body }] } } else q) s

/-- A token word (Table 4.1). -/
def tokenWord (kind slot gen : Nat) (epoch : Word) : DWord :=
  BitVec.ofNat 64 (kind * 2 ^ 60 + slot % 4096 * 2 ^ 48 + gen % 256 * 2 ^ 40 + epoch.toNat)

/-- Bytes of a token word as the TOKEN message carries them. -/
def tokenBytes (w : DWord) : List Byte := leBytes 8 w.toNat

/-- The sites that serve the same compute die as a site, with the number of the next transfer on each (R75, R361). -/
def dieTransfers (s : State) (x : SiteIx) : List (SiteIx × Nat) :=
  ((fins 6).filter fun y => decide (y = x) || ((siteRec s y).use && (siteRec s y).die == (siteRec s x).die)).map fun y => (y, (s.site[y]).nextId)

/-- Sends a token word to the compute die of a site, behind every transfer to that die queued before it (message TOKEN, Table 11.9, R361). -/
def sendToken (x : SiteIx) (w : DWord) (s : State) : State :=
  onSite x (fun q => if q.sb.up then
    { q with sb := { q.sb with queue := q.sb.queue ++ [{ typ := 0x17, body := tokenBytes w, after := dieTransfers s x }] } } else q) s

/-- Sends a notice of a kind to every compute die in use, over each site in use (Table 4.2, log entry 16). -/
def noticeAll (kind : Nat) (s : State) : State :=
  (fins 6).foldl (fun t x => if (siteRec t x).use then sendToken x (tokenWord kind 0 0 t.ctl.epoch) t else t) s

/-- Rings or messages for the firmware's mailbox side: places or queues a message for the host (R471). -/
def fwSend (c : Fin 16) (m : Msg) (s : State) : State :=
  if (s.mbx.f2h[c]).go = false then
    { s with mbx := { s.mbx with f2h := upd s.mbx.f2h c fun r =>
      { r with msg := m, go := true, timer := some (s.time, (calibRec s).mailboxUs) } } }
  else if (s.mbx.f2hQueue[c]).length < 16 then
    { s with mbx := { s.mbx with f2hQueue := upd s.mbx.f2hQueue c (· ++ [m]) } }
  else logEvent 0 2 0x0103 (0x0100 + c.val) (emit (.replyLost c.val) s)

/-- A reply: word 00 holds code and tag, word 01 the status, further words follow (R88, R444). -/
def replyWords (code : Nat) (tag : BitVec 16) (status : Nat) (more : List Word) : Vector Word 16 :=
  vmk 16 fun i => if i.val = 0 then w32 (code + tag.toNat * 65536) else if i.val = 1 then w32 status
    else nth more (i.val - 2) 0

/-- Answers an image command on F2H channel 00 (R88). -/
def imgReply (code : Nat) (tag : BitVec 16) (status : Nat) (more : List Word) (s : State) : State :=
  fwSend 0 { words := replyWords code tag status more, tag := tag, sender := 0 } s

/-- Places a response in the I3C mailbox, or holds it until the earlier one is cleared (R453). -/
def i3cRespond (ws : Vector Word 16) (s : State) : State :=
  if s.mgt.i3cRspGo then { s with mgt := { s.mgt with i3cHeld := s.mgt.i3cHeld ++ [ws] } }
  else emit (.ibi 1) { s with mgt := { s.mgt with i3cRsp := ws, i3cRspGo := true } }

/-- Answers a management command on the path it came by (R444). -/
def mgtReply (p : MgtPath) (code : Nat) (tag : BitVec 16) (status : Nat) (more : List Word) (s : State) : State :=
  match p with
  | .pcie => fwSend 1 { words := replyWords code tag status more, tag := tag, sender := 0 } s
  | .i3c => i3cRespond (replyWords code tag status more) s

/-! ### Aborting the epoch (R54, R500, Table 4.6) -/

/-- A phase state from which a Contained event aborts: Between, Waiting, Fetching, Running, Sealing or Held. -/
def abortable (c : BitVec 4) : Bool := decide (1 ≤ c.toNat) && decide (c.toNat ≤ 6)

/-- A phase is Waiting, Fetching, Running or Sealing. -/
def phaseOpen (c : BitVec 4) : Bool := decide (2 ≤ c.toNat) && decide (c.toNat ≤ 5)

/-- What an open phase holds, discarded: its outputs, conditions, operations and queued effects. -/
def dropPhase (c : Ctl) : Ctl :=
  { c with waits := [], switch_ := none, notifies := [], tokens := [], streams := [], ops := [], outputs := [],
           commit_ := none, fetching := none, watchdog := false, heldAt := none, applied := false, admitted := [], named := [] }

/-- The unsent outputs of the phase of a serial leave the queue: its DATA flits that have not begun their first transmission. A stream of which
flits have left ends where it stands; a tentative record that has started is sent whole, and flits and tokens of committed phases stay
(R51, R54, R155). -/
def dropUnsent (n : Word) (q : BeamSt) : BeamSt := { q with queue := q.queue.filter fun o => o.ahead || o.serial != n }

/-- The Aborted transition: uncommitted outputs discarded, abort notice, SQ_EVENT.abort. -/
def abortEpoch (s : State) : State :=
  noticeAll 6 { s with
    ctl := { dropPhase s.ctl with phase := 7 }
    ce := { s.ce with pend := {}, queue := [], window := [], area := none }
    beam := s.beam.map (dropUnsent (s.ctl.serial + 1))
    sq := { s.sq with event := setBit s.sq.event 10, sent := none } }

/-- An abort during a takeover: the abort wins, and the standby takes over in Aborted (Table 4.11). -/
def abortFenced (s : State) : State :=
  match s.sq.fence with
  | some f =>
    if s.ctl.phase = 8 ∧ abortable f.from_ = true then
      let s1 := abortEpoch s
      { s1 with ctl := { s1.ctl with phase := 8 }, sq := { s1.sq with fence := some { f with from_ := 7 } } }
    else s
  | none => s

/-- A Contained event whose scope touches the program aborts it (R500). -/
def abortIf (touches : Bool) (s : State) : State :=
  if touches && s.img.image.isSome then (if abortable s.ctl.phase then abortEpoch s else abortFenced s) else s

/-! ### Containing a site, darkening a port, Umbra -/

/-- What happens to channels and locks when a site leaves Active: a message in place from the compute die is answered aborted, one for it is
given back aborted (R363, R364, R469, R475). -/
def clearSiteChannels (x : SiteIx) (s : State) : State :=
  let s0 := (fins 8).foldl (fun t c =>
    if ((t.mbx.d2h[x])[c]).go then emit (.siteAborted x c) t else t) s
  let s1 := (fins 8).foldl (fun t c =>
    if ((t.mbx.h2d[x])[c]).go then
      logEvent 0 2 0x0102 (16 + 8 * x.val + c.val) { t with mbx := { t.mbx with
        h2d := upd t.mbx.h2d x fun v => upd v c fun ch =>
          { ch with go := false, timer := none, status := setBit ch.status 3 } } }
    else t) s0
  { s1 with
    mbx := { s1.mbx with
      d2h := upd s1.mbx.d2h x fun v => v.map fun ch => { ch with go := false, timer := none }
      h2d := upd s1.mbx.h2d x fun v => v.map fun ch => { ch with oldDue := 0, oldHeld := false }
      h2dQueue := upd s1.mbx.h2dQueue x fun v => v.map fun _ => [] }
    lck := { owner := s1.lck.owner.map fun o => if o = BitVec.ofNat 4 (3 + x.val) then 0 else o } }

/-- A site in Off or Reset keeps no link state: its sideband, streams and buffers are discarded. -/
def siteIdle (q : Site) : Site :=
  { q with sb := {}, rx := [], tx := [], inbound := [], rr := 0, levelSeen := false, step := 0 }

/-- The site enters Contained: RSTN asserted, mailboxes cleared, the event bit set and logged as Contained with a
code, the program aborted when it uses the site (R343, Table 11.6). -/
def containSite (x : SiteIx) (reason : Nat) (code : Nat) (s : State) : State :=
  let s1 := clearSiteChannels x s
  let s2 := onSite x (fun q => { siteIdle q with
    state := 5, reason := BitVec.ofNat 4 reason, rstn := true, epoch := q.epoch + 1 }) s1
  let s3 := logEvent 3 (siteBlk x) code (siteInst x) (setEv (siteBlk x) (siteInst x) 2 s2)
  abortIf (siteRec s x).use s3

/-- A Contained event on a site's streams that leaves the site in its state (Table 11.11, Table 12.10). -/
def containStreams (x : SiteIx) (reason : Nat) (code : Nat) (s : State) : State :=
  let s1 := onSite x (fun q => { q with reason := BitVec.ofNat 4 reason }) s
  abortIf (siteRec s x).use (logEvent 3 (siteBlk x) code (siteInst x) s1)

/-- The beam is declared broken: DATA stops, its buffers are released, it is reported as a Contained event on the
beam (R254, R268). -/
def breakBeamSt (q : BeamSt) : BeamSt :=
  { q with state := 6, tx := .broken, rx := .broken, unacked := [], held := [], queue := [], resend := [],
           granted := false, waitNew := false, newSeen := false, retrain := none, again := none, expiries := 0 }

/-- The beam is in use under the committed image. -/
def beamUsed (s : State) (b : Beam) : Bool := (beamRec s b).valid

/-- Declares a beam broken and aborts the program that uses it. -/
def breakBeam (b : Beam) (s : State) : State :=
  if (s.beam[b]).state = 6 then s
  else
    let s1 := onBeam b breakBeamSt s
    let s2 := setEv 8 (beamRec s b).port.val 7 s1
    abortIf (beamUsed s b) (eventBit 3 9 b.val 0 s2)

/-- The beams of a port that are lit: training, up, switching or degraded. -/
def litBeams (s : State) (p : Port) : List Beam :=
  (fins 256).filter fun b => (beamRec s b).valid && decide ((beamRec s b).port = p) &&
    decide (2 ≤ (s.beam[b]).state.toNat) && decide ((s.beam[b]).state.toNat ≤ 5)

/-- The reason that a Dark port reads: no comb light and a failed shutter stay until a reset (R316, R323). -/
def darkReason (q : PortSt) (r : BitVec 4) : BitVec 4 := if q.noComb then 8 else if q.shutterFailed then 7 else r

/-- What a port that goes Dark forgets: training, probes, calibrations, substitutions and alignment. -/
def portDarkSt (reason : Nat) (q : PortSt) : PortSt :=
  { q with state := 0, step := 0, reason := darkReason q (BitVec.ofNat 4 reason), epoch := q.epoch + 1, shutter := .closed,
           exchangeTuned := true, probing := false, probeLight := false, probes := 0, lineOk := 0, lockOk := 0,
           trainSeen := false, partnerAccepts := false, qualDone := false, maskSeen := false, switchQ := [],
           block := match q.switchQ.getLast? with
             | some e => some (e.planId, e.block)
             | none => q.block,
           sub := Vector.replicate 4 none, needs := [],
           line := q.line.map fun l => { l with
             aligned := false, missed := 0, wrong := false, acquiring := false, trim := 0,
             requal := false, calTx := { l.calTx with running := false }, calRx := { l.calRx with running := false } } }

/-- Every substitution of a port that leaves Up and Degraded ends: Recoverable (R297, Table 9.15). -/
def endSubs (p : Port) (s : State) : State :=
  (fins 4).foldl (fun t i => if ((t.port[p]).sub[i]).isSome then logEvent clsRecoverable 8 0x0107 p.val t else t) s

/-- The lines whose uncorrectable codewords an Echo counts: the named line in mode 1, L01 to L08 in mode 2 (R512, Table 18.3). -/
def echoLines (e : Echo) : List Nat :=
  if e.patternOn = false then [] else if e.mode = 1 then [e.line.toNat] else if e.mode = 2 then (List.range 8).map (· + 1) else []

/-- Adds an Echo's uncorrectable codewords, a number that no operand gives, to line counter 0x01 (R512, log entry 20). -/
def echoUncorr (s : State) : State :=
  (echoLines s.err.echo).foldl (fun t n =>
    { onLine (fin! 64 t.err.echo.index.toNat) (fin! 35 n) (fun l =>
        { l with counters := upd l.counters 1 (· + Config.freeValue 64 t.fresh) }) t with fresh := t.fresh + 1 }) s

/-- A running Echo ends with result ended (R510, R513). What its checker had compared until then no operand gives
(log entry 20). -/
def endEcho (s : State) : State :=
  if s.err.echo.result = 1 then
    let e := s.err.echo
    let e1 : Echo := if e.patternOn then
        { e with result := 5, bits := Config.freeValue 64 s.fresh, errors := Config.freeValue 64 (s.fresh + 1),
                 worst := if e.mode = 3 then Config.freeValue 7 (s.fresh + 2) else e.worst }
      else { e with result := 5 }
    flag 7 0 5 (echoUncorr { s with fresh := s.fresh + 3, err := { s.err with epoch := s.err.epoch + 1, echo := e1 } })
  else s

/-- Ends the Echo if it runs on this port. -/
def endEchoPort (p : Port) (s : State) : State :=
  if (s.err.echo.mode = 1 ∨ s.err.echo.mode = 2) ∧ s.err.echo.index.toNat = p.val then endEcho s else s

/-- Ends the Echo if it runs on this site. -/
def endEchoSite (x : SiteIx) (s : State) : State :=
  if s.err.echo.mode = 3 ∧ s.err.echo.site.toNat = x.val then endEcho s else s

/-- A fibre Echo ends when its port leaves Up and Degraded (R510, Table 18.3). -/
def endEchoFibre (p : Port) (s : State) : State :=
  if s.err.echo.mode = 2 ∧ s.err.echo.index.toNat = p.val then endEcho s else s

/-- The port goes Dark: its light goes out and the dark bit is set when it left Training, Up or Degraded. -/
def portDark (p : Port) (reason : Nat) (s : State) : State :=
  let was := (s.port[p]).state.toNat
  let s1 := onPort p (portDarkSt reason) (endEchoFibre p (endSubs p s))
  if 2 ≤ was then flag 8 p.val 1 s1 else s1

/-- The port goes Dark and every beam lit on it is broken (Table 8.10). -/
def portDarkBreak (p : Port) (reason : Nat) (s : State) : State :=
  (litBeams s p).foldl (fun t b => breakBeam b t) (portDark p reason s)

/-- The device state changes: state_epoch and GLB_EVENT.state_change (Table 16.9). -/
def setDev (d : DevState) (s : State) : State :=
  if s.dev.state = d then s
  else flag 1 0 1 { s with dev := { s.dev with state := d, epoch := s.dev.epoch + 1 } }

/-- Every comb gain current 0 (R327). -/
def combOff (c : Comb) : Comb :=
  { c with group := c.group.map fun g => { g with
      locked := false, task := none, started := none,
      die := g.die.map fun d => { d with
        current := 0, gridHeld := false, reducing := false,
        state := if d.state = .failed ∨ d.state = .swappedOut then d.state else .off } } }

/-- Every port that is not Dark goes Dark, and its lit beams are broken (R327, Tables 8.10 and 8.25). -/
def portsDark (s : State) : State :=
  (fins 64).foldl (fun t p => if (t.port[p]).state = 0 then t else portDarkBreak p (t.port[p]).reason.toNat t) s

/-- Umbra: all comb currents 0, every shutter closed, every exchange ring tuned, no probes, ports Dark, no plan in
force (R327, Table 7.12). Lit beams are broken by their port's going Dark (Table 8.11). -/
def umbraEnter (s0 : State) : State :=
  let s := portsDark s0
  let s1 := setDev .umbra { s with
    comb := combOff s.comb
    port := s.port.map fun q => if q.state = 0 then { portDarkSt q.reason.toNat q with epoch := q.epoch }
      else portDarkSt q.reason.toNat q
    beam := s.beam.map fun q => if 2 ≤ q.state.toNat ∧ q.state.toNat ≤ 5 then breakBeamSt q else q
    pln := { s.pln with inForce := 0xFFFF }
    dev := { s.dev with litEntry := false } }
  endEcho (emit .dark s1)

/-- The TOKEN messages that wait on a site's sideband leave before its RSTN or retrain takes the link down (R93, Table 18.2). -/
def lastTokens (x : SiteIx) (s : State) : State :=
  let l := (s.site[x]).sb.queue.filter fun m => m.typ == 0x17
  { s with out := (l.map fun m => Emission.token x m.body).reverse ++ s.out }

/-- RSTN of every site asserted, as a Fatal event does (Table 18.2); the sites read Off (log entry 18). -/
def sitesOff (s : State) : State :=
  (fins 6).foldl (fun t x =>
    let u := if (t.site[x]).state.toNat = 3 ∨ (t.site[x]).state.toNat = 4 then clearSiteChannels x t else t
    onSite x (fun q => { siteIdle q with
      state := 0, rstn := true,
      epoch := if q.state = 0 then q.epoch else q.epoch + 1 }) u) s

/-- The device goes dark with a program in it: the epoch is aborted with its notices, every site's RSTN, Umbra (Table 18.2). -/
def goDark (s : State) : State :=
  let quiet := s.ctl.phase = 0 ∨ s.ctl.phase = 7 ∨ s.ctl.phase = 9 ∨ s.ctl.phase = 10
  let s1 := if quiet then s else if s.ctl.phase = 8 then abortFenced s else abortEpoch s
  umbraEnter (sitesOff ((fins 6).foldl (fun t x => lastTokens x t) s1))

/-- A Fatal event (R499, Table 18.2): logged, captured, a fatal record made pending with the last sensor snapshot (R450), and Umbra. -/
def fatalEvent (blk code inst : Nat) (s : State) : State :=
  let s1 := setEv 1 0 2 (logEvent 4 blk code inst s)
  let r : FatalRec := { time := s.time, log := s1.err.log.take 256, snap := (s1.thm.snap, s1.thm.hot, s1.pwr.shown), seed := s1.fresh }
  goDark { s1 with
    mgt := { s1.mgt with fatalPending := s1.mgt.fatalPending ++ [r] }
    fresh := s1.fresh + 1
    dev := { s1.dev with fatal := true } }

/-! ### Interrupts (R476) -/

/-- MBX_RX_PENDING_0 and _1 as one number (R479). -/
def rxPending (s : State) : BitVec 64 :=
  BitVec.ofNat 64 (boolsNat (s.mbx.f2h.toList.map (·.go)) +
    2 ^ 16 * boolsNat (s.mbx.d2h.toList.flatMap fun v => v.toList.map (·.go)))

/-- MBX_TX_EVENT_0 and _1 as one number (R479). -/
def txEvent (s : State) : BitVec 64 :=
  BitVec.ofNat 64 (boolsNat (s.mbx.h2f.toList.map fun c => c.status != 0) +
    2 ^ 16 * boolsNat (s.mbx.h2d.toList.flatMap fun v => v.toList.map fun c => c.status != 0))

/-- The condition of vectors 0 to 16 (Table 16.6). -/
def irqCond (s : State) (v : Nat) : Bool :=
  match v with
  | 0 => s.dev.event &&& ~~~ s.dev.mask != 0
  | 1 => s.err.event &&& ~~~ s.err.mask != 0
  | 2 => rxPending s &&& ~~~ s.mbx.rxMask != 0
  | 3 => txEvent s &&& ~~~ s.mbx.txMask != 0
  | 4 => s.sq.event &&& ~~~ s.sq.mask != 0
  | 5 => s.ce.event &&& ~~~ s.ce.mask != 0
  | 6 => s.pln.event &&& ~~~ s.pln.mask != 0
  | 7 => s.pln.broken &&& ~~~ s.pln.brokenMask != 0
  | 8 => s.port.toList.any fun q => q.event &&& ~~~ q.mask != 0
  | 9 => (s.site.toList.take 4).any fun q => q.event &&& ~~~ q.mask != 0
  | 10 => (s.site.toList.drop 4).any fun q => q.event &&& ~~~ q.mask != 0
  | 11 => s.hbm.event &&& ~~~ s.hbm.mask != 0
  | 12 => s.pwr.event &&& ~~~ s.pwr.mask != 0
  | 13 => s.thm.event &&& ~~~ s.thm.mask != 0
  | 14 => s.mgt.event &&& ~~~ s.mgt.mask != 0
  | 15 => s.sec.event &&& ~~~ s.sec.mask != 0
  | 16 => s.dbl.event &&& ~~~ s.dbl.mask != 0
  | _ => false

/-- Every vector's condition: 0 to 16 by Table 16.6, 17 to 31 never, 32 + b the host doorbell bit b. -/
def irqConds (s : State) : BitVec 64 :=
  BitVec.ofNat 64 (boolsNat ((List.range 17).map (irqCond s)) +
    2 ^ 32 * (s.dbl.host &&& ~~~ s.dbl.hostMask).toNat)

/-- A vector's message can be sent: MSI-X enabled, neither function nor vector masked, function in D0. -/
def irqOpen (h : HostIf) (v : Fin 64) : Bool := h.msixEnable && !h.msixFmask && !(h.vec[v]).masked && !h.d3hot

/-- Sends the messages of conditions that became true, or holds them as pending bits; sends held ones whose masks
have cleared while the condition is still true (R476). -/
def irqSettle (s : State) : State :=
  let now := irqConds s
  let pend := (s.host.pend &&& now) ||| (now &&& ~~~ s.host.was)
  let send := (fins 64).filter fun v => pend.getLsbD v.val && irqOpen s.host v
  { s with
    host := { s.host with was := now, pend := send.foldl (fun p v => clrBit p v.val) pend }
    out := (send.map fun v => Emission.msix v.val (s.host.vec[v]).addr (s.host.vec[v]).data).reverse ++ s.out }

/-- A write to one of a vector's W1C or go bits: its message is sent again if the condition stays true (R476). -/
def irqResend (v : Nat) (s : State) : State :=
  if (irqConds s).getLsbD v then { s with host := { s.host with pend := setBit s.host.pend v, was := setBit s.host.was v } } else s

/-- The outcome of a command: the next state, with interrupts settled. -/
def done (s : State) : Host.Outcome State Fault Refusal := .next (irqSettle s)

/-! ### Host errors (R5, R6, R61) -/

/-- The global Reservoir address of a region's first byte (R81, R401). -/
def regionBase (r : RegionRec) : Nat := r.stack * 2 ^ 36 + r.base

/-- An address lies in a region that the committed image declares. -/
def declaredAt (s : State) (a : Nat) : Bool :=
  ((s.img.image.map (·.regions)).getD []).any fun r => decide (regionBase r ≤ a) && decide (a < regionBase r + r.length)

/-- Bytes written one by one. -/
def Mem.writeCells (m : Mem) (l : List Host.Cell) : Mem := l.foldl (fun t c => t.write c.1 c.2) m

/-- What reaches a compute die or a peer place. -/
def isDelivery (e : Emission) : Bool :=
  match e with
  | .flit .. | .frame .. | .sideband .. | .token .. | .codeword .. => true
  | _ => false

/-- A unit's private state is free; which unit is active, and what the Fail-over Arbiter counts of it, is not. -/
def freeUnit (q w : SqUnitSt) : SqUnitSt :=
  { w with state := q.state, failCount := q.failCount, strikes := q.strikes, cause := q.cause }

/-- The phase state that a host error leaves: any one of a running program. A takeover that is under way stays one and none begins, so that
DEV_PENUMBRA takes effect, and out of Lit the sequencer stays as it is, so that a full commit starts its program (R61, R62). -/
def freePhase (s : State) (ph : BitVec 4) : BitVec 4 :=
  if s.dev.state ≠ .lit ∨ s.ctl.phase = 8 ∨ ph = 8 ∨ 10 < ph.toNat then s.ctl.phase else ph

/-- The control root's state is free but for the arming, which belongs to the loading of images, and the phase state as `freePhase` has it. -/
def freeCtl (s : State) (c : Ctl) : Ctl := { c with phase := freePhase s c.phase, arm := s.ctl.arm }

/-- The tables of the committed image are free; what it is, its STRUCTURE of sites and ports, its regions, policy and sections are not. -/
def freeImage (i w : Image) : Image :=
  { i with
    conns := w.conns, beams := w.beams, slotDir := w.slotDir, plans := w.plans, families := w.families, rules := w.rules, experts := w.experts
    program := w.program, entry := w.entry, segs := w.segs, restarts := w.restarts, costs := w.costs, gate := w.gate, placement := w.placement
    predictor := w.predictor, routes := w.routes }

/-- The transfers queued for a compute die are free. -/
def freeQueued (l : List (Nat × List Transfer)) (q : Site) : Site :=
  { q with tx := q.tx.map fun e => (e.1, { e.2 with queue := (aget l e.1).getD [] }) }

/-- The tables and memories of the Collective Engine are free but for its registers; staging SRAM takes free bytes. -/
def freeCe (c : Ce) (w : Work) : Ce :=
  { w.ce with raDisable := c.raDisable, mask := c.mask, view := c.view, viewIndex := c.viewIndex, staging := Mem.writeCells c.staging w.staging }

/-- The unpredictable outcome of a host error: the work using the device takes a free value, and nothing else changes: the management
firmware, its log and records, the flash, fuses and keys, every protection, the lines of the ports and the combs, the registers of the driver,
the identity, STRUCTURE, regions and policy of the committed image, and every Reservoir byte outside its regions (R6, R61). Without a committed
image the work is the staging SRAM alone. -/
def freeWork (s : State) : State :=
  let w := Config.workAfter s.fresh
  if s.img.image.isNone then { s with ce := { s.ce with staging := Mem.writeCells s.ce.staging w.staging }, fresh := s.fresh + 1 }
  else { s with
    ctl := freeCtl s w.ctl
    img := { s.img with image := s.img.image.map fun i => freeImage i w.tables }
    site := vmk 6 fun x => freeQueued w.queued[x] s.site[x]
    port := vmk 64 fun p => { s.port[p] with block := w.blocks[p], switchQ := w.switches[p] }
    sq := { s.sq with unit := vmk 2 fun u => freeUnit s.sq.unit[u] w.unit[u], sent := none, ackDue := false }
    beam := w.beam
    pln := { s.pln with slots := w.slots, inForce := w.inForce }
    ce := freeCe s.ce w
    hbm := { s.hbm with mem := Mem.writeCells s.hbm.mem (w.hbm.filter fun c => declaredAt s c.1) }
    out := w.out.filter isDelivery ++ s.out
    fresh := s.fresh + 1 }

/-- The number of free values used, advanced past the next `n`. -/
def spend (n : Nat) (s : State) : State := { s with fresh := s.fresh + n }

/-- The outcome of a host error, named by its rule: the state with its work free. -/
def hostError (_rule : Nat) (s : State) : Host.Outcome State Fault Refusal := done (freeWork s)

/-- The outcome of a command of a running device. -/
def run (f : State → State) (s : State) : Host.Outcome State Fault Refusal := done (live f s)

/-- One microsecond with nothing commanded: the local microsecond counter of a running device counts (R37, R437); in reset it stays
at 0 (Table 17.1). DESIGN CHOICE (log entry 182): the spec does not say whether QCLK returns after its loss; the counter goes on in every idle
step of a running device, also after QCLK_LOSS. -/
def idle (s : State) : State := if running s then { s with time := s.time + 1 } else s

end Sys2Proof.Machine
end

