-- ==== Sys2Proof/Machine/Regs.lean ====
section
/-!
DEFINITION. Reading registers: every register of the global index (Table 16.3), its fields, and the latching of
high words and record words by low-word reads (R13, R457, R514, R369, R270, R229).
-/

namespace Sys2Proof.Machine

/-- A register's value and the bits that some field defines; the others are reserved and read as any value (R18). -/
abbrev RegVal := Word × Word

/-- A register from its fields: high bit, low bit, value. -/
def mkReg (fs : List (Nat × Nat × Nat)) : RegVal :=
  fs.foldl (fun r f =>
    (r.1 ||| w32 (f.2.2 % 2 ^ (f.1 + 1 - f.2.1) * 2 ^ f.2.1),
     r.2 ||| w32 ((2 ^ (f.1 + 1 - f.2.1) - 1) * 2 ^ f.2.1))) (0, 0)

/-- A register all of whose bits are one field. -/
def whole (n : Nat) : RegVal := (w32 n, BitVec.allOnes 32)

/-- The low word of a 64-bit register. -/
def lo64 (n : Nat) : RegVal := whole (n % 2 ^ 32)

/-- The high word of a 64-bit register. -/
def hi64 (n : Nat) : RegVal := whole (n / 2 ^ 32 % 2 ^ 32)

/-- An offset that Table 16.3 or a block's map does not name: reserved (R461). -/
def noReg : RegVal := (0, 0)

/-- The device-state code of GLB_STATE. -/
def devCode : DevState → Nat
  | .umbra => 0
  | .penumbra => 1
  | .lit => 2

/-- GLB_ registers (Tables 16.8, 16.9). -/
def readGlb (s : State) (o : Nat) : RegVal :=
  if o = 0x000 then mkReg [(31, 16, 0x6432), (15, 0, Config.vendor.toNat)]
  else if o = 0x004 then mkReg [(31, 16, 0x0200), (15, 0, 0x0200)]
  else if o = 0x008 then mkReg [(31, 16, 0x0200), (7, 0, stepping.toNat)]
  else if o = 0x00C then mkReg [(31, 16, s.dev.epoch.toNat), (1, 0, devCode s.dev.state)]
  else if o = 0x010 then mkReg [(9, 4, s.host.width.toNat), (3, 0, s.host.speed.toNat)]
  else if o = 0x014 then mkReg [(16, 0, boolsNat ((List.range 17).map (irqCond s)))]
  else if o = 0x018 then mkReg [(2, 0, s.dev.event.toNat)]
  else if o = 0x01C then mkReg [(2, 0, s.dev.mask.toNat)]
  else if o = 0x020 then whole s.dev.scratch.toNat
  else noReg

/-- A binding admits the host with the tag on the channel; H2F channels 00 and 01 admit every tag (R464, R465). -/
def hostBound (s : State) (receiver chan : Nat) (tag : BitVec 16) : Bool :=
  (receiver = 0 && decide (chan < 2)) ||
  ((s.img.image.map (·.binds)).getD []).any fun b =>
    b.sender == 1 && b.receiver == receiver && b.channel == chan && b.tag == tag

/-- MBX_H2F_CTRL or MBX_H2D_CTRL (Table 16.11). -/
def txCtrl (s : State) (receiver chan : Nat) (c : TxChan) : RegVal :=
  mkReg [(31, 16, c.tag.toNat), (8, 8, b2n (hostBound s receiver chan c.tag)), (7, 2, c.status.toNat), (1, 1, 0),
         (0, 0, b2n c.go)]

/-- MBX_F2H_CTRL or MBX_D2H_CTRL (Table 16.12). -/
def rxCtrl (c : RxChan) : RegVal :=
  mkReg [(31, 16, c.msg.tag.toNat), (15, 8, c.msg.sender.toNat), (0, 0, b2n c.go)]

/-- A word of a channel's window: data words 0x00 to 0x3C, CTRL at 0x40. -/
def chanWord (ws : Vector Word 16) (ctrl : RegVal) (o : Nat) : RegVal :=
  if o < 0x40 then whole (nth ws.toList (o / 4) 0).toNat else if o = 0x40 then ctrl else noReg

/-- MBX_ registers (Tables 16.10 to 16.12). -/
def readMbx (s : State) (o : Nat) : RegVal :=
  if o < 0x0800 then
    let c := s.mbx.h2f[fin! 16 (o / 0x80)]
    chanWord c.staging (txCtrl s 0 (o / 0x80) c) (o % 0x80)
  else if o < 0x1000 then
    let c := s.mbx.f2h[fin! 16 ((o - 0x800) / 0x80)]
    chanWord c.msg.words (rxCtrl c) (o % 0x80)
  else if o < 0x2800 then
    let x := (o - 0x1000) / 0x400
    let k := (o - 0x1000) % 0x400 / 0x80
    let c := (s.mbx.h2d[fin! 6 x])[fin! 8 k]
    chanWord c.staging (txCtrl s (x + 2) k c) (o % 0x80)
  else if o < 0x4000 then
    let x := (o - 0x2800) / 0x400
    let k := (o - 0x2800) % 0x400 / 0x80
    let c := (s.mbx.d2h[fin! 6 x])[fin! 8 k]
    chanWord c.msg.words (rxCtrl c) (o % 0x80)
  else if o = 0x4000 then lo64 (rxPending s).toNat
  else if o = 0x4004 then hi64 (rxPending s).toNat
  else if o = 0x4008 then lo64 s.mbx.rxMask.toNat
  else if o = 0x400C then hi64 s.mbx.rxMask.toNat
  else if o = 0x4010 then lo64 (txEvent s).toNat
  else if o = 0x4014 then hi64 (txEvent s).toNat
  else if o = 0x4018 then lo64 s.mbx.txMask.toNat
  else if o = 0x401C then hi64 s.mbx.txMask.toNat
  else noReg

/-- DBL_ registers (Tables 16.13, 16.14). -/
def readDbl (s : State) (o : Nat) : RegVal :=
  if o = 0x000 then whole s.dbl.host.toNat
  else if o = 0x004 then whole s.dbl.hostMask.toNat
  else if o = 0x008 then whole 0
  else if o = 0x00C then whole s.dbl.fw.toNat
  else if 0x010 ≤ o ∧ o < 0x028 then whole 0
  else if o = 0x028 then mkReg [(5, 0, s.dbl.event.toNat)]
  else if o = 0x02C then mkReg [(5, 0, s.dbl.mask.toNat)]
  else noReg

/-- LCK_ registers other than the acquiring LCK_n (Tables 16.15, 16.16). -/
def readLck (s : State) (o : Nat) : RegVal :=
  if o = 0x080 then mkReg [(4, 0, 0)]
  else if o = 0x084 then whole (boolsNat (s.lck.owner.toList.map fun c => c != 0))
  else noReg

/-- Word `k` of a log record (Table 15.6); the event's own data has no specified layout (R529). -/
def logWord (r : LogRec) (k : Nat) : Nat :=
  if k = 0 then r.time % 2 ^ 32
  else if k = 1 then r.time / 2 ^ 32 % 2 ^ 32
  else if k = 2 then r.cls.toNat + r.block.toNat * 2 ^ 8 + r.code.toNat * 2 ^ 16
  else if k = 3 then r.inst.toNat + r.epoch.toNat * 2 ^ 16
  else if k = 4 ∧ r.cls = 1 then r.rep.toNat
  else (Config.freeValue 128 r.seed).toNat / 2 ^ (32 * (k - 4)) % 2 ^ 32

/-- The count that ERR_CNT_SEL selects: of a block and class, or of a class over all blocks (Table 18.8); a reserved code gives a free value
(log entry 181). -/
def errCount (s : State) : Nat :=
  let e := s.err
  let of (v : Vector (BitVec 64) 5) : Nat := (nth v.toList e.cntClass.toNat 0).toNat
  if 17 < e.cntBlock.toNat ∨ 4 < e.cntClass.toNat then (Config.freeValue 64 s.fresh).toNat
  else if e.cntBlock = 0 then (e.counts.toList.map of).foldl (· + ·) 0
  else ((e.counts.toList[e.cntBlock.toNat]?).map of).getD 0

/-- ERR_LINE_DATA of the selected line; a line above 34 gives a free value (log entry 181). -/
def errLine (s : State) : Nat :=
  let l := ((s.port[fin! 64 s.err.lineSelPort.toNat]).line)[fin! 35 s.err.lineSelLine.toNat]
  if 34 < s.err.lineSelLine.toNat then (Config.freeValue 32 s.fresh).toNat
  else (l.rxPower.map (sfield 16)).getD 0x8000 * 2 ^ 16 + l.farPower.toNat

/-- The results of the last Echo; while its pattern runs, what its checker has counted so far is free (R512, log entry 20). -/
def echoShown (s : State) : Echo :=
  let e := s.err.echo
  if e.result = 1 ∧ e.patternOn then
    { e with
      bits := Config.freeValue 64 s.fresh, errors := Config.freeValue 64 (s.fresh + 1)
      worst := if e.mode = 3 then Config.freeValue 7 s.fresh else e.worst }
  else e

/-- ERR_ registers (Tables 18.5 to 18.9). -/
def readErr (s : State) (o : Nat) : RegVal :=
  let e := s.err
  let x := echoShown s
  if o = 0x000 then mkReg [(31, 16, e.epoch.toNat), (3, 3, b2n e.first.isSome), (2, 2, b2n (s.ctl.phase == 10)),
    (1, 1, b2n (s.ctl.phase == 7)), (0, 0, b2n (e.echo.result == 1))]
  else if o = 0x004 then mkReg [(31, 16, 0), (0, 0, 0)]
  else if o = 0x008 then mkReg [(6, 0, e.event.toNat)]
  else if o = 0x00C then mkReg [(6, 0, e.mask.toNat)]
  else if o = 0x010 then mkReg [(31, 27, e.cntBlock.toNat), (26, 24, e.cntClass.toNat)]
  else if o = 0x014 then lo64 (errCount s)
  else if o = 0x018 then hi64 (errCount s)
  else if 0x020 ≤ o ∧ o < 0x040 then whole ((e.first.map fun r => logWord r ((o - 0x020) / 4)).getD 0)
  else if o = 0x040 then mkReg [(13, 8, e.lineSelPort.toNat), (5, 0, e.lineSelLine.toNat)]
  else if o = 0x044 then whole (errLine s)
  else if o = 0x048 then whole 0
  else if o = 0x04C then mkReg [(31, 29, x.result.toNat), (6, 0, x.worst.toNat)]
  else if o = 0x050 then lo64 x.bits.toNat
  else if o = 0x054 then hi64 x.bits.toNat
  else if o = 0x058 then lo64 x.errors.toNat
  else if o = 0x05C then hi64 x.errors.toNat
  else noReg

/-- Frequency of an operating point in 10 MHz units (Table 14.2). -/
def opFreq (op : Nat) : Nat := nth [120, 140, 155, 170, 180, 190, 200, 215] op 120

/-- Frequency of a cluster now, unstretched, in 10 MHz units: in OP7 its own limit (R416). -/
def clusterFreq (s : State) (c : Fin 16) : Nat := if s.pwr.op = 7 then s.pwr.limits[c] else opFreq s.pwr.op

/-- The average of the samples of the last 1 ms in µW (R421). -/
def avgPower (l : List Nat) : Nat := l.foldl (· + ·) 0 / max 1 l.length

/-- Cumulative active time of a reason, the running stretch included (R431). -/
def reasonTime (s : State) (c : Fin 11) : Nat :=
  s.pwr.reasonDur[c] + (if s.pwr.reasons.getLsbD c.val then s.time - s.pwr.reasonLast[c] else 0)

/-- OP0 is forced by heat, for want of sensors or by the regulator alert (R418, R428). -/
def opForced (p : Pwr) : Bool := p.heatForced || p.sensorForced || p.alertPin || p.alertHold

/-- Memory level in force: the deeper of the cap's and the stacks' (Table 14.9). -/
def memLevel (p : Pwr) : Nat := max p.memCap (max p.memHeat[0] p.memHeat[1])

/-- PWR_ registers (Tables 14.8 to 14.12). A reason above 10 gives free times (log entry 181). -/
def readPwr (s : State) (o : Nat) : RegVal :=
  let p := s.pwr
  let c : Fin 16 := fin! 16 p.clusterSel.toNat
  let known := decide (p.reasonSel.toNat < 11)
  let dur := if known then reasonTime s (fin! 11 p.reasonSel.toNat) else (Config.freeValue 64 s.fresh).toNat
  let last := if known then nth p.reasonLast.toList p.reasonSel.toNat 0 else (Config.freeValue 64 s.fresh).toNat
  if o = 0x000 then mkReg [(31, 16, 0), (3, 3, b2n p.hintsOff), (2, 0, p.opCeiling)]
  else if o = 0x004 then mkReg [(31, 16, p.epoch.toNat), (15, 15, b2n p.capUnattainable),
    (14, 14, b2n (p.alertPin || p.alertHold)), (13, 13, b2n (p.droop != 0)), (12, 12, b2n (p.heatForced || p.alertPin || p.alertHold)),
    (11, 10, memLevel p), (9, 5, p.dim), (2, 0, p.op)]
  else if o = 0x008 then mkReg [(9, 0, p.capHost.toNat)]
  else if o = 0x00C then mkReg [(11, 10, p.capSource.toNat), (9, 0, p.capEff.toNat)]
  else if o = 0x010 then mkReg [(31, 16, p.shown.1 / 100000), (15, 0, p.shown.2 / 100000)]
  else if o = 0x014 then lo64 (p.energy / 1000000)
  else if o = 0x018 then hi64 (p.energy / 1000000)
  else if o = 0x01C then mkReg [(10, 0, p.reasons.toNat)]
  else if o = 0x020 then mkReg [(3, 0, p.reasonSel.toNat)]
  else if o = 0x024 then lo64 dur
  else if o = 0x028 then hi64 dur
  else if o = 0x02C then lo64 last
  else if o = 0x030 then hi64 last
  else if o = 0x034 then mkReg [(3, 0, p.clusterSel.toNat)]
  else if o = 0x038 then mkReg [(31, 24, (Config.clusterMax c).val), (23, 16, p.limits[c]), (15, 8, clusterFreq s c),
    (0, 0, b2n (p.droop.getLsbD c.val))]
  else if o = 0x03C then mkReg [(5, 0, p.event.toNat)]
  else if o = 0x040 then mkReg [(5, 0, p.mask.toNat)]
  else noReg

/-- THM_ registers (Tables 14.13, 14.14), as the last snapshot published them (R437). A reserved sensor number gives a free value (log entry
181). -/
def readThm (s : State) (o : Nat) : RegVal :=
  let d := if s.thm.sel.toNat < 150 then nth s.thm.snap s.thm.sel.toNat (false, 0)
    else (Config.freeChoice s.fresh, sval 16 (Config.freeValue 16 s.fresh).toNat)
  if o = 0x000 then mkReg [(31, 16, sfield 16 s.thm.hot.2), (15, 0, sfield 16 s.thm.hot.1)]
  else if o = 0x004 then mkReg [(7, 0, s.thm.sel.toNat)]
  else if o = 0x008 then mkReg [(31, 31, b2n d.1), (15, 0, sfield 16 d.2)]
  else if o = 0x00C then mkReg [(7, 0, s.thm.warn.toNat)]
  else if o = 0x010 then mkReg [(7, 0, s.thm.event.toNat)]
  else if o = 0x014 then mkReg [(7, 0, s.thm.mask.toNat)]
  else noReg

/-- The slot-state code of MGT_BOOT. -/
def slotCode : SlotState → Nat
  | .empty => 0
  | .valid => 1
  | .pending => 2
  | .confirmed => 3
  | .failed => 4

/-- MGT_BOOT (Table 15.10), as the management side reports it; 0 before boot. -/
def bootWord (s : State) : List (Nat × Nat × Nat) :=
  let a := s.mgt.slots[0]
  let b := s.mgt.slots[1]
  let att := if a.state = .pending then a.attempts else if b.state = .pending then b.attempts else 0
  if s.mgt.booted then [(23, 16, att), (15, 12, slotCode b.state), (11, 8, slotCode a.state), (0, 0, s.mgt.running.val)]
  else [(23, 16, 0), (15, 12, 0), (11, 8, 0), (0, 0, 0)]

/-- MGT_FLASH.busy: an erasure or programming is in progress (Table 15.10). -/
def flashBusy (m : Mgt) : Bool :=
  m.runs.any (fun r => match r with
    | .fatalClear _ _ => true
    | _ => false) ||
  (m.update.map fun u => match u.phase with
    | .erasing | .programming _ _ _ | .activating => true
    | .ready | .verifying | .verified => false).getD false

/-- MGT_ registers (Tables 15.9 to 15.11). -/
def readMgt (s : State) (o : Nat) : RegVal :=
  let m := s.mgt
  if o = 0x000 then mkReg [(31, 16, m.epoch.toNat), (15, 12, m.fwState.toNat), (7, 4, m.lockstep.toNat),
    (0, 0, b2n (!m.fatalPending.isEmpty))]
  else if o = 0x004 then whole m.version.toNat
  else if o = 0x008 then mkReg (bootWord s)
  else if o = 0x00C then mkReg [(9, 0, m.capMgmt.toNat)]
  else if o = 0x010 then lo64 s.time
  else if o = 0x014 then hi64 s.time
  else if o = 0x018 then whole s.err.logCount.toNat
  else if o = 0x01C then mkReg [(14, 0, m.logSel.toNat)]
  else if 0x020 ≤ o ∧ o < 0x040 then
    whole (((s.err.log[m.logSel.toNat]?).map fun r => logWord r ((o - 0x020) / 4)).getD 0)
  else if o = 0x040 then mkReg [(6, 0, m.event.toNat)]
  else if o = 0x044 then mkReg [(6, 0, m.mask.toNat)]
  else if o = 0x048 then mkReg [(31, 31, b2n m.flashPresent), (30, 30, b2n (flashBusy m)), (7, 0, m.flashFailures.toNat)]
  else if 0x080 ≤ o ∧ o < 0x0C0 then whole (nth m.i3cMbx.toList ((o - 0x080) / 4) 0).toNat
  else if o = 0x0C0 then mkReg [(0, 0, b2n m.i3cGo)]
  else if 0x100 ≤ o ∧ o < 0x140 then whole (nth m.i3cRsp.toList ((o - 0x100) / 4) 0).toNat
  else if o = 0x140 then mkReg [(0, 0, b2n m.i3cRspGo)]
  else if 0x1000 ≤ o ∧ o < 0x9000 then whole (m.report.nat (o - 0x1000) 4)
  else if 0x9000 ≤ o ∧ o < 0xA000 then whole (m.stage.nat (o - 0x9000) 4)
  else noReg

/-- One of the attestation key's seeds: the first 16 bytes of SHA-256(device secret ‖ label) (R447, log entry 229). -/
def attSeed (label : String) : BitVec 128 :=
  (Config.sha256 (leBytes 32 Config.deviceSecret.toNat ++ label.toList.map fun c => BitVec.ofNat 8 c.toNat)).setWidth 128

/-- The attestation public key of the device (R447). -/
def attPublic : BitVec 256 := Config.slhKeygen128f (attSeed "EK2-ATT-SK") (attSeed "EK2-ATT-PRF") (attSeed "EK2-ATT-PK")

/-- The signature of a report under the attestation key (R447, R448). -/
def attSign (m : List Byte) : List Byte := Config.slhSign128f (attSeed "EK2-ATT-SK") (attSeed "EK2-ATT-PRF") (attSeed "EK2-ATT-PK") m

/-- SEC_KEY_DATA: the selected word of an entry, 0 past keytab_count; words 9 to 15 are not defined and read as any value (Table 15.13,
log entry 181). -/
def keyData (s : State) : RegVal :=
  match s.mgt.keys[s.sec.keyEntry.toNat]? with
  | none => whole 0
  | some k =>
    if s.sec.keyWord.toNat < 8 then whole (k.digest.toNat / 2 ^ (32 * s.sec.keyWord.toNat) % 2 ^ 32)
    else if s.sec.keyWord = 8 then whole (k.floor % 2 ^ 16 + k.flags.toNat * 2 ^ 16) else noReg

/-- SEC_ registers (Tables 15.12, 15.13). -/
def readSec (s : State) (o : Nat) : RegVal :=
  let c := s.sec
  if o = 0x000 then mkReg [(31, 24, c.counter), (23, 16, s.mgt.fwSvn), (9, 9, s.mgt.rootSlot.val),
    (8, 8, b2n c.slot0Revoked), (1, 1, b2n c.attReady), (0, 0, b2n Config.secretOk)]
  else if 0x004 ≤ o ∧ o < 0x014 then whole (Config.serial.toNat / 2 ^ (8 * (o - 4)) % 2 ^ 32)
  else if 0x014 ≤ o ∧ o < 0x034 then
    whole (if c.attReady then attPublic.toNat / 2 ^ (8 * (o - 0x14)) % 2 ^ 32 else 0)
  else if o = 0x034 then mkReg [(7, 4, c.keyWord.toNat), (3, 0, c.keyEntry.toNat)]
  else if o = 0x038 then keyData s
  else if o = 0x03C then mkReg [(6, 0, c.event.toNat)]
  else if o = 0x040 then mkReg [(6, 0, c.mask.toNat)]
  else noReg

/-- The unit-state code of SQ_UNIT (Table 4.15). -/
def unitCode : UnitState → Nat
  | .active => 0
  | .inSync => 1
  | .stale => 2
  | .failed => 3
  | .selfTest => 4
  | .resyncing => 5
  | .keptOut => 6

/-- SQ_STATUS.standby of the unit that is not active (Table 4.14). -/
def standbyCode : UnitState → Nat
  | .stale => 1
  | .failed => 2
  | .selfTest => 2
  | .resyncing => 2
  | .keptOut => 3
  | _ => 0

/-- The other unit. -/
def otherUnit (u : Fin 2) : Fin 2 := if u = 0 then 1 else 0

/-- SQ_ registers (Tables 4.12 to 4.27). -/
def readSq (s : State) (o : Nat) : RegVal :=
  let q := s.sq
  let unitReg (u : Fin 2) : RegVal :=
    mkReg [(31, 24, (q.unit[u]).failCount.toNat), (15, 12, (q.unit[u]).cause.toNat), (7, 4, unitCode (q.unit[u]).state)]
  if o = 0x000 then mkReg [(2, 2, b2n q.takeback), (1, 1, q.primary.val)]
  else if o = 0x004 then mkReg [(31, 16, q.epoch.toNat), (15, 12, s.ctl.phase.toNat),
    (2, 1, standbyCode (q.unit[otherUnit q.active]).state), (0, 0, q.active.val)]
  else if o = 0x008 then unitReg 0
  else if o = 0x00C then unitReg 1
  else if o = 0x010 then whole s.ctl.epoch.toNat
  else if o = 0x014 then whole s.ctl.serial.toNat
  else if o = 0x018 then whole s.ctl.phaseId.toNat
  else if o = 0x01C then mkReg [(15, 0, (q.unit[q.active]).pc.toNat)]
  else if o = 0x020 then whole s.ctl.iter.toNat
  else if o = 0x024 then mkReg [(31, 16, 0), (7, 0, 0)]
  else if o = 0x028 then mkReg [(15, 8, q.cmd.1.toNat), (2, 2, b2n q.cmd.2.1), (1, 0, q.cmd.2.2.toNat)]
  else if o = 0x02C then mkReg [(31, 30, 0), (15, 0, 0)]
  else if o = 0x030 then whole q.resumeEpoch.toNat
  else if o = 0x034 then mkReg [(10, 0, q.event.toNat)]
  else if o = 0x038 then mkReg [(10, 0, q.mask.toNat)]
  else if o = 0x03C then lo64 q.foTime.toNat
  else if o = 0x040 then hi64 q.foTime.toNat
  else if o = 0x044 then whole q.wdog.toNat
  else noReg

/-- CE_ registers (Tables 5.16 to 5.25). -/
def readCe (s : State) (o : Nat) : RegVal :=
  let c := s.ce
  let i := c.viewIndex.toNat
  let place := (nth ((s.img.image.map fun (i : Image) => i.placement).getD []) i 0).toNat
  let pred := (nth ((s.img.image.map fun (i : Image) => i.predictor).getD []) i 0).toNat
  let data : RegVal :=
    if c.view = 0 then whole ((aget c.bias i).getD 0).toNat
    else if c.view = 1 then lo64 place
    else if c.view = 2 then hi64 place
    else if c.view = 3 then lo64 pred
    else if c.view = 4 then hi64 pred
    else noReg
  if o = 0x000 then mkReg [(31, 16, 0), (0, 0, b2n c.raDisable)]
  else if o = 0x004 then mkReg [(31, 16, c.epoch.toNat), (7, 7, b2n s.ctl.runAhead), (6, 6, b2n c.parkHigh)]
  else if o = 0x008 then mkReg [(5, 0, c.event.toNat)]
  else if o = 0x00C then mkReg [(5, 0, c.mask.toNat)]
  else if o = 0x010 then mkReg [(23, 0, c.parked)]
  else if o = 0x014 then lo64 c.parkTotal.toNat
  else if o = 0x018 then hi64 c.parkTotal.toNat
  else if o = 0x01C then lo64 c.raCommit.toNat
  else if o = 0x020 then hi64 c.raCommit.toNat
  else if o = 0x024 then lo64 c.raCancel.toNat
  else if o = 0x028 then hi64 c.raCancel.toNat
  else if o = 0x02C then mkReg [(31, 28, c.view.toNat), (15, 0, i)]
  else if o = 0x030 then data
  else if o = 0x034 then mkReg [(31, 28, c.errInfo.1.toNat), (27, 22, c.errInfo.2.1.toNat), (21, 0, c.errInfo.2.2.toNat)]
  else noReg

/-- The plan in slot `i` of the store carries the Dim flag (R79). -/
def slotDim (s : State) (i : Nat) : Bool := ((planIn s (fin! 129 i)).map fun r => r.dim).getD false

/-- PLN_ registers (Tables 7.11 to 7.19). -/
def readPln (s : State) (o : Nat) : RegVal :=
  let p := s.pln
  let sl := nth p.slots.toList p.slotSel.toNat {}
  if o = 0x000 then mkReg [(31, 16, p.previous.toNat), (15, 0, p.inForce.toNat)]
  else if o = 0x004 then mkReg [(31, 16, p.epoch.toNat), (12, 8, s.pwr.dim),
    (1, 1, b2n (s.port.toList.any fun q => q.line.toList.any (·.acquiring))),
    (0, 0, b2n (s.beam.toList.any (·.waitNew)))]
  else if o = 0x008 then lo64 p.switches.toNat
  else if o = 0x00C then hi64 p.switches.toNat
  else if o = 0x010 then mkReg [(27, 16, p.selFamily.toNat), (7, 0, p.selVariant.toNat)]
  else if o = 0x014 then mkReg [(6, 0, p.slotSel.toNat)]
  else if o = 0x018 then mkReg [(31, 30, sl.state.toNat), (29, 29, b2n (slotDim s p.slotSel.toNat)), (15, 0, sl.planId.toNat)]
  else if o = 0x01C then mkReg [(3, 0, p.event.toNat)]
  else if o = 0x020 then mkReg [(3, 0, p.mask.toNat)]
  else if o = 0x024 then whole p.foreign.toNat
  else if o = 0x028 then whole p.acquire.toNat
  else noReg

/-- Number of lines in a set. -/
def popc (m : LineSet) : Nat := ((fins 35).filter fun n => m.getLsbD n.val).length

/-- The lines that carry a beam in a direction now, a spare in the place of the line it stands in for (Table 7.23). -/
def viewMask (s : State) (b : Beam) (rx : Bool) : LineSet :=
  let q := s.beam[b]
  let p := s.port[(beamRec s b).port]
  ((fins 4).filter fun i => decide (2 ≤ i.val) == rx).foldl (fun m i =>
    match p.sub[i] with
    | some u =>
      if decide (u.beam = b) && (u.phase == .standing || u.phase == .returning) && m.getLsbD u.line.val then
        setBit (clrBit m u.line.val) (33 + i.val % 2)
      else m
    | none => m) (if rx then q.rxMask else q.txMask)

/-- BEAM_ registers (Tables 7.20 to 7.25). -/
def readBeam (s : State) (o : Nat) : RegVal :=
  let p := s.pln
  let vm := viewMask s (fin! 256 (p.viewSel.toNat % 256)) (p.viewSel.getLsbD 8)
  if o < 0x020 then whole (p.broken.toNat / 2 ^ (8 * o) % 2 ^ 32)
  else if o < 0x040 then whole (p.brokenMask.toNat / 2 ^ (8 * (o - 0x20)) % 2 ^ 32)
  else if o = 0x040 then mkReg [(8, 0, p.viewSel.toNat)]
  else if o = 0x044 then whole (vm.toNat % 2 ^ 32)
  else if o = 0x048 then mkReg [(2, 0, vm.toNat / 2 ^ 32)]
  else if 0x400 ≤ o ∧ o < 0x800 then
    let b : Beam := fin! 256 ((o - 0x400) / 4)
    let q := s.beam[b]
    let r := beamRec s b
    mkReg [(31, 28, if r.valid then q.state.toNat else 0), (27, 22, popc q.txMask), (21, 16, popc q.rxMask),
      (15, 10, r.port.val), (9, 8, r.hops), (7, 2, popc q.shed)]
  else if 0x800 ≤ o ∧ o < 0xC00 then
    let r := beamRec s (fin! 256 ((o - 0x800) / 4))
    mkReg [(31, 24, r.peerBeam.toNat), (23, 0, r.peerPlace.toNat)]
  else noReg

/-- Replay entries in use on a port: sent flits that no ack covers, and entries granted and not yet taken (R248). -/
def replayUse (s : State) (p : Port) : Nat :=
  ((fins 256).map fun b =>
    if (beamRec s b).valid ∧ (beamRec s b).port = p then (s.beam[b]).unacked.length + b2n (s.beam[b]).granted else 0).foldl (· + ·) 0

/-- Reorder entries in use on a port (R249). -/
def reorderUse (s : State) (p : Port) : Nat :=
  ((fins 256).map fun b =>
    if (beamRec s b).valid ∧ (beamRec s b).port = p then (s.beam[b]).held.length else 0).foldl (· + ·) 0

/-- The counter that PRT_CNT_SEL selects (Table 8.20). DESIGN CHOICE (log entry 181): a reserved counter code, and a line counter of an index
above 34, read a free value. -/
def prtCount (s : State) : Nat :=
  let c := s.pln.cntSel
  let k := c.2.2.2.toNat
  let q := s.port[fin! 64 c.1.toNat]
  let free := (Config.freeValue 64 (64 * k + c.2.2.1.toNat)).toNat
  if k < 3 then (if c.2.2.1.toNat < 35 then (nth ((q.line[fin! 35 c.2.2.1.toNat]).counters.toList) k 0).toNat else free)
  else if k = 0x0D then (q.counters[0]).toNat
  else if k = 0x0F then (q.counters[1]).toNat
  else if k < 0x0F then (nth (s.beam[fin! 256 c.2.1.toNat]).counters.toList k 0).toNat
  else free

/-- A port is Up or Degraded. -/
def portUp (q : PortSt) : Bool := q.state == 3 || q.state == 4

/-- PRT_ registers (Tables 8.14 to 8.25). -/
def readPrt (s : State) (o : Nat) : RegVal :=
  let ups := boolsNat (s.port.toList.map portUp)
  let evs := boolsNat (s.port.toList.map fun q => q.event &&& ~~~ q.mask != 0)
  if o = 0x000 then lo64 ups
  else if o = 0x004 then hi64 ups
  else if o = 0x008 then lo64 evs
  else if o = 0x00C then hi64 evs
  else if o = 0x010 then mkReg [(31, 16, 0), (13, 0, 0)]
  else if o = 0x014 then mkReg [(15, 8, s.pln.prtCmd.1.toNat), (2, 2, b2n s.pln.prtCmd.2.1), (1, 0, s.pln.prtCmd.2.2.toNat)]
  else if o = 0x018 then mkReg [(31, 26, s.pln.cntSel.1.toNat), (25, 18, s.pln.cntSel.2.1.toNat),
    (17, 12, s.pln.cntSel.2.2.1.toNat), (7, 0, s.pln.cntSel.2.2.2.toNat)]
  else if o = 0x01C then lo64 (prtCount s)
  else if o = 0x020 then hi64 (prtCount s)
  else if 0x100 ≤ o ∧ o < 0x900 then
    let p : Port := fin! 64 ((o - 0x100) / 0x20)
    let q := s.port[p]
    let r := (o - 0x100) % 0x20
    if r = 0x00 then mkReg [(31, 16, q.epoch.toNat), (15, 12, q.state.toNat), (11, 8, q.step.toNat),
      (7, 4, q.reason.toNat), (1, 1, b2n q.hold), (0, 0, b2n q.penumbra)]
    else if r = 0x04 then whole (q.lineOk.toNat % 2 ^ 32)
    else if r = 0x08 then mkReg [(2, 0, q.lineOk.toNat / 2 ^ 32)]
    else if r = 0x0C then mkReg [(31, 30, q.peerMatch.toNat), (29, 24, q.peerPort.toNat), (23, 0, q.peerPlace.toNat)]
    else if r = 0x10 then mkReg [(31, 16, q.settled.toNat), (15, 0, q.partnerHigh.toNat)]
    else if r = 0x14 then mkReg [(10, 0, q.event.toNat)]
    else if r = 0x18 then mkReg [(10, 0, q.mask.toNat)]
    else if r = 0x1C then mkReg [(26, 16, q.peak), (10, 0, replayUse s p)]
    else noReg
  else noReg

/-- Number of lanes of a set, data lanes and spares. -/
def popc68 (m : BitVec 68) : Nat := ((List.range 68).filter fun i => m.getLsbD i).length

/-- The lanes a module direction, or the sideband (18 lanes), has. -/
def laneCount (m : Nat) : Nat := if m = 32 then 18 else 68

/-- Width of a module direction: 0 full, 1 degraded, 2 failed; the sideband needs 16 lanes (R340). -/
def laneWidth (m : Nat) (good : BitVec 68) : Nat :=
  if m = 32 then (if 16 ≤ popc68 good then 0 else 2)
  else if 64 ≤ popc68 good then 0 else if 32 ≤ popc68 good then 1 else 2

/-- A module is in use: named by lane_mask of a site in use; the sideband with its site. -/
def modUsed (s : State) (w : WideIx) (m : Nat) : Bool :=
  (siteRec s w.site).use && (m == 32 || (siteRec s w.site).laneMask.getLsbD m)

/-- Streams bound on module `m` of site `w` in a direction, ascending (R352): `tx` to the compute die. -/
def boundStreams (s : State) (w : WideIx) (m : Nat) (tx : Bool) : List Nat :=
  let cs := (s.img.image.map (·.conns)).getD []
  let code := 32 * w.val + m
  ((List.range 16).map (16 * m + ·)).filter fun st => cs.any fun c =>
    c.stream == st && ((c.dst == code && (tx || c.both)) || (c.src == code && (!tx || c.both)))

/-- RX latency in UI of a site (R345): 64 plus the pad in adapter cycles of 16 UI, and 64 more when a module in use
is degraded. -/
def wpLatency (s : State) (w : WideIx) : Nat :=
  let deg := (fins 32).any fun m => modUsed s w m.val && laneWidth m.val (((s.wide[w]).mods[m.val]'(by omega)).rx.good) == 1
  if (siteRec s w.site).use then 64 + 16 * (s.site[w.site]).pad.toNat + (if deg then 64 else 0) else 0

/-- WP_DEGRADED of a site (Table 11.19). -/
def wpDegraded (s : State) (w : WideIx) : Nat :=
  boolsNat ((fins 32).map fun m =>
    let d := (s.wide[w]).mods[m.val]'(by omega)
    modUsed s w m.val && (laneWidth m.val d.rx.good == 1 || laneWidth m.val d.tx.good == 1))

/-- The direction that WP_MOD_SEL selects, when its module is in use. -/
def selDir (s : State) : Option (WideIx × Nat × LaneDir) :=
  let v := s.siteReg.wpModSel.toNat
  let w : WideIx := fin! 4 (v / 128)
  let m := v / 2 % 64
  if h : m < 33 then
    if modUsed s w m then
      some (w, m, if v % 2 = 1 then ((s.wide[w]).mods[m]'h).tx else ((s.wide[w]).mods[m]'h).rx)
    else none
  else none

/-- One of the two spare lanes of the sideband is in use in a direction: it has moved into the 16 lanes that carry it (R340). -/
def spareInUse (good : BitVec 68) : Bool := good.toNat % 2 ^ 16 != 2 ^ 16 - 1 && good.toNat / 2 ^ 16 % 4 != 0

/-- WP_ registers (Tables 11.13 to 11.20). A reserved counter code, and a module above 31 for a module counter, give a free value (log entry
181). -/
def readWp (s : State) (o : Nat) : RegVal :=
  let r := s.siteReg
  let c := r.wpCnt
  let cw : WideIx := fin! 4 c.2.1.toNat
  let count : Nat :=
    if c.1.toNat < 8 ∧ 32 ≤ c.2.2.toNat then (Config.freeValue 64 s.fresh).toNat
    else if c.1.toNat < 8 then (nth (nth ((s.wide[cw]).mods.toList.map fun (m : Module) => m.counters.toList) c.2.2.toNat []) c.1.toNat 0).toNat
    else if c.1.toNat < 0x0B then (nth (s.site[cw.site]).counters.toList c.1.toNat 0).toNat
    else (Config.freeValue 64 s.fresh).toNat
  let good := match selDir s with
    | some (_, m, d) => if m = 32 then d.good.toNat % 2 ^ 16 + d.good.toNat / 2 ^ 16 * 2 ^ 64 else d.good.toNat
    | none => 0
  if o = 0x000 then mkReg [(31, 11, 0), (9, 0, 0)]
  else if o = 0x004 then mkReg [(15, 8, r.wpCmd.1.toNat), (2, 2, b2n r.wpCmd.2.1), (1, 0, r.wpCmd.2.2.toNat)]
  else if o = 0x008 then mkReg [(8, 0, r.wpModSel.toNat)]
  else if o = 0x00C then
    match selDir s with
    | none => mkReg [(31, 30, 3), (29, 23, 0), (22, 16, 0), (3, 0, 0)]
    | some (w, m, d) => mkReg [(31, 30, laneWidth m d.good), (29, 23, laneCount m - popc68 d.good),
        (22, 16, popc68 d.suspected), (3, 0, (boundStreams s w m (r.wpModSel.toNat % 2 = 1)).length)]
  else if o = 0x010 then whole (good % 2 ^ 32)
  else if o = 0x014 then whole (good / 2 ^ 32 % 2 ^ 32)
  else if o = 0x018 then mkReg [(3, 0, good / 2 ^ 64)]
  else if o = 0x01C then mkReg [(31, 24, c.1.toNat), (9, 8, c.2.1.toNat), (7, 2, c.2.2.toNat)]
  else if o = 0x020 then lo64 count
  else if o = 0x024 then hi64 count
  else if 0x100 ≤ o ∧ o < 0x200 then
    let w : WideIx := fin! 4 ((o - 0x100) / 0x40)
    let q := s.site[w.site]
    let i := (o - 0x100) % 0x40
    if i = 0x00 then mkReg [(31, 16, q.epoch.toNat), (15, 12, q.state.toNat), (11, 8, q.step.toNat),
      (7, 4, q.reason.toNat), (1, 1, b2n q.hold), (0, 0, b2n q.penumbra)]
    else if i = 0x04 then mkReg [(31, 16, q.settled.toNat), (15, 0, q.partnerHigh.toNat)]
    else if i = 0x08 then mkReg [(31, 24, q.partnerLatency.toNat), (23, 20, q.pad.toNat), (8, 0, wpLatency s w)]
    else if i = 0x0C then mkReg [(10, 0, q.event.toNat)]
    else if i = 0x10 then mkReg [(10, 0, q.mask.toNat)]
    else if i = 0x14 then whole (wpDegraded s w)
    else if i = 0x18 then mkReg [(31, 16, q.sb.resent.toNat),
      (1, 1, b2n (spareInUse ((s.wide[w]).mods[32]).rx.good || spareInUse ((s.wide[w]).mods[32]).tx.good)),
      (0, 0, b2n q.sb.up)]
    else noReg
  else noReg

/-- c(0) from the other taps (R380). -/
def tapC0 (taps : Vector Int 4) : Int := 64 - (taps.toList.map fun t => (t.natAbs : Int)).foldl (· + ·) 0

/-- Quads that the lane_mask of a site in use sets (R374). -/
def quadMask (s : State) (t : ReachIx) : BitVec 8 :=
  if (siteRec s t.site).use then
    BitVec.ofNat 8 (boolsNat ((List.range 8).map fun q => fld (siteRec s t.site).laneMask (4 * q + 3) (4 * q) == 15))
  else 0

/-- Streams bound on a Reach Port site in a direction, ascending (R77, R384): `tx` to the compute die. -/
def reachStreams (s : State) (t : ReachIx) (tx : Bool) : List Nat :=
  let cs := (s.img.image.map (·.conns)).getD []
  (List.range 512).filter fun st => cs.any fun c =>
    c.stream == st && ((c.dst == 0x1000 + t.val && (tx || c.both)) || (c.src == 0x1000 + t.val && (!tx || c.both)))

/-- TP_ registers (Tables 12.14 to 12.19). A reserved counter code gives a free value (log entry 181). -/
def readTp (s : State) (o : Nat) : RegVal :=
  let r := s.siteReg
  let l := ((s.reach[fin! 2 (r.tpLaneSel.toNat / 32)]).lanes)[fin! 32 r.tpLaneSel.toNat]
  let c := r.tpCnt
  let ct : ReachIx := fin! 2 c.2.1.toNat
  let cl := ((s.reach[ct]).lanes)[fin! 32 c.2.2.toNat]
  let k := c.1.toNat
  let count : Nat :=
    if k = 0 then (cl.counters[0]).toNat
    else if k = 1 then ((s.reach[ct]).uncorr[fin! 8 (c.2.2.toNat / 4)]).toNat
    else if k = 2 then (cl.counters[1]).toNat
    else if k = 9 then (cl.counters[2]).toNat
    else if k = 0x0A then (cl.counters[3]).toNat
    else if k < 9 then (nth (s.site[ct.site]).counters.toList k 0).toNat
    else (Config.freeValue 64 s.fresh).toNat
  if o = 0x000 then mkReg [(31, 16, 0), (11, 0, 0)]
  else if o = 0x004 then mkReg [(15, 8, r.tpCmd.1.toNat), (2, 2, b2n r.tpCmd.2.1), (1, 0, r.tpCmd.2.2.toNat)]
  else if o = 0x008 then mkReg [(5, 0, r.tpLaneSel.toNat)]
  else if o = 0x00C then mkReg [(31, 30, l.state.toNat), (23, 16, l.fom.toNat), (15, 12, l.ctle.toNat),
    (8, 1, l.peerFom.toNat), (0, 0, b2n l.locked)]
  else if o = 0x010 then mkReg [(31, 25, sfield 7 (tapC0 l.taps)), (24, 21, sfield 4 l.taps[3]), (20, 16, sfield 5 l.taps[2]),
    (15, 11, sfield 5 l.taps[1]), (10, 7, sfield 4 l.taps[0])]
  else if o = 0x014 then mkReg [(31, 24, k), (6, 6, c.2.1.toNat), (5, 1, c.2.2.toNat)]
  else if o = 0x018 then lo64 count
  else if o = 0x01C then hi64 count
  else if o = 0x020 then mkReg [(31, 28, r.pattern.toNat), (27, 27, b2n r.checker), (26, 26, b2n r.echo), (25, 25, r.patSite.val)]
  else if o = 0x024 then whole r.patLocked.toNat
  else if o = 0x028 then mkReg [(31, 23, 0), (19, 0, 0)]
  else if 0x100 ≤ o ∧ o < 0x180 then
    let t : ReachIx := fin! 2 ((o - 0x100) / 0x40)
    let q := s.site[t.site]
    let i := (o - 0x100) % 0x40
    if i = 0x00 then mkReg [(31, 16, q.epoch.toNat), (15, 12, q.state.toNat), (11, 8, q.step.toNat),
      (7, 4, q.reason.toNat), (1, 1, b2n q.hold), (0, 0, b2n q.penumbra)]
    else if i = 0x04 then mkReg [(31, 16, q.settled.toNat), (15, 0, q.partnerHigh.toNat)]
    else if i = 0x08 then mkReg [(23, 16, (quadMask s t).toNat), (15, 8, (s.reach[t]).good.toNat), (7, 0, (s.reach[t]).inService.toNat)]
    else if i = 0x0C then mkReg [(9, 0, q.event.toNat)]
    else if i = 0x10 then mkReg [(9, 0, q.mask.toNat)]
    else if i = 0x14 then mkReg [(31, 16, q.sb.resent.toNat), (0, 0, b2n q.sb.up)]
    else noReg
  else noReg

/-- HBM_ registers (Tables 13.6 to 13.11). A reserved counter code gives a free value (log entry 181). -/
def readHbm (s : State) (o : Nat) : RegVal :=
  let h := s.hbm
  let h0 := h.stack[0]
  let h1 := h.stack[1]
  let count := if h.cntSel.toNat < 8 then (nth (h.stack[h.cntStack]).counters.toList h.cntSel.toNat 0).toNat
    else (Config.freeValue 64 s.fresh).toNat
  if o = 0x000 then mkReg [(31, 16, h.epoch.toNat), (11, 10, h1.rate.toNat), (9, 8, h0.rate.toNat),
    (7, 4, h1.state.toNat), (3, 0, h0.state.toNat)]
  else if o = 0x004 then mkReg [(6, 0, h.base.toNat)]
  else if o = 0x008 then mkReg [(31, 31, b2n h.scrubOn), (23, 16, h.period.toNat), (15, 0, h.passes.toNat)]
  else if o = 0x00C then mkReg [(5, 0, h.event.toNat)]
  else if o = 0x010 then mkReg [(5, 0, h.mask.toNat)]
  else if o = 0x014 then whole (h.errAddr.toNat % 2 ^ 32)
  else if o = 0x018 then mkReg [(4, 0, h.errAddr.toNat / 2 ^ 32)]
  else if o = 0x01C then mkReg [(31, 28, h.errSource.toNat), (27, 20, h.errRegion.toNat)]
  else if o = 0x020 then mkReg [(31, 24, h.cntSel.toNat), (0, 0, h.cntStack.val)]
  else if o = 0x024 then lo64 count
  else if o = 0x028 then hi64 count
  else if o = 0x02C then mkReg [(31, 16, sfield 16 h1.temp), (15, 0, sfield 16 h0.temp)]
  else noReg

/-- MSI-X table entries and pending bits (R463, R476). -/
def readMsix (s : State) (o : Nat) : RegVal :=
  if o < 0x400 then
    let e := s.host.vec[fin! 64 (o / 16)]
    let i := o % 16
    if i = 0 then lo64 e.addr.toNat
    else if i = 4 then hi64 e.addr.toNat
    else if i = 8 then whole e.data.toNat
    else mkReg [(0, 0, b2n e.masked)]
  else if o = 0x1000 then lo64 s.host.pend.toNat
  else if o = 0x1004 then hi64 s.host.pend.toNat
  else noReg

/-- Any register by its BAR0 offset (Table 16.3). -/
def readReg (s : State) (off : Nat) : RegVal :=
  let o := off % 65536
  let b := off / 65536
  if b = 0x00 then readGlb s o
  else if b = 0x01 then readMbx s o
  else if b = 0x02 then readDbl s o
  else if b = 0x03 then readLck s o
  else if b = 0x04 then readErr s o
  else if b = 0x05 then readPwr s o
  else if b = 0x06 then readThm s o
  else if b = 0x07 then readMgt s o
  else if b = 0x08 then readSec s o
  else if b = 0x09 then readSq s o
  else if b = 0x0A then readCe s o
  else if b = 0x0B then readPln s o
  else if b = 0x0C then readBeam s o
  else if b = 0x0D then readPrt s o
  else if b = 0x0E then readWp s o
  else if b = 0x0F then readTp s o
  else if b = 0x10 then readHbm s o
  else if b = 0xF0 then readMsix s o
  else noReg

/-- The registers whose value a read of `off` latches for the same master: the high word of a 64-bit register, the
other words of a record or of a set (R13 and the rules that act in its manner). -/
def latchedBy (off : Nat) : List Nat :=
  let next := [off + 4]
  if off ∈ [0x40014, 0x40050, 0x40058, 0x50014, 0x50024, 0x5002C, 0x70010, 0x9003C, 0xA0014, 0xA001C, 0xA0024,
      0xB0008, 0xC0044, 0xD001C, 0xE0020, 0xF0018, 0x100014, 0x100024] then next
  else if off = 0x40020 ∨ off = 0x70020 then (List.range 7).map fun k => off + 4 + 4 * k
  else if off = 0xE0010 then [0xE0014, 0xE0018]
  else if 0xD0100 ≤ off ∧ off < 0xD0900 ∧ off % 0x20 = 0x04 then next
  else []

/-- Reserved bits read as any value: the free value fills them. -/
def fillReserved (r : RegVal) (n : Nat) : Word := (r.1 &&& r.2) ||| (Config.freeValue 32 n &&& ~~~ r.2)

end Sys2Proof.Machine
end

