-- ==== Sys2Proof/Machine/Host.lean ====
section
/-!
DEFINITION. The host interface (chapter 16) and the Echo loopbacks (chapter 18): mailboxes, doorbells, locks, MSI-X
configuration, link and function power, the error capture and Echo.
-/

namespace Sys2Proof.Machine

/-- A command that the host brings through a BAR: not answered in D3hot (Table 16.1). -/
def bar (f : State → State) (s : State) : State := if s.host.d3hot then s else f s

/-- A BAR command of a running device. -/
def runBar (f : State → State) (s : State) : Host.Outcome State Fault Refusal := run (bar f) s

/-- CE_VIEW_DATA, one read-only field whatever CE_VIEW_SEL.view selects (Table 5.24); under a reserved view its value is open. -/
def ceViewData : Nat := 0xA0030

/-- A written value has a bit in a reserved field of the register at `off`: a host error (R20). -/
def rsvBad (s : State) (off : Nat) (v : Word) : Bool := off != ceViewData && v &&& ~~~(readReg s off).2 != 0

/-- A register access that is a host error: whether it acts on the registers is open, and the work is free (R5, R6, R12, R20). -/
def badAccess (rule : Nat) (f : State → State) (s : State) : Host.Outcome State Fault Refusal :=
  hostError rule (if Config.freeChoice s.fresh then f (spend 1 s) else spend 1 s)

/-- A command that is the host's write of `v` to the register at `off`: a host error when it sets a reserved bit. -/
def regRow (off : Nat) (v : Word) (f : State → State) (s : State) : Host.Outcome State Fault Refusal :=
  if running s && !s.host.d3hot && rsvBad s off v then badAccess 20 f s else runBar f s

/-- The site is in service: Active, or Active with a repair or retest under way (R364, Table 11.7). -/
def siteUp (s : State) (x : SiteIx) : Bool := (s.site[x]).state == 3 || (s.site[x]).state == 4

/-! ### Mailbox channels -/

/-- Changes an H2F channel. -/
def onH2f (c : Fin 16) (f : TxChan → TxChan) (s : State) : State :=
  { s with mbx := { s.mbx with h2f := upd s.mbx.h2f c f } }

/-- Changes an H2D channel. -/
def onH2d (x : SiteIx) (c : Fin 8) (f : TxChan → TxChan) (s : State) : State :=
  { s with mbx := { s.mbx with h2d := upd s.mbx.h2d x fun v => upd v c f } }

/-- Changes an F2H channel. -/
def onF2h (c : Fin 16) (f : RxChan → RxChan) (s : State) : State :=
  { s with mbx := { s.mbx with f2h := upd s.mbx.f2h c f } }

/-- Changes a D2H channel. -/
def onD2h (x : SiteIx) (c : Fin 8) (f : RxChan → RxChan) (s : State) : State :=
  { s with mbx := { s.mbx with d2h := upd s.mbx.d2h x fun v => upd v c f } }

/-- Changes the channel that a host send names. -/
def onTx (c : MbxTx) (f : TxChan → TxChan) (s : State) : State :=
  match c with
  | .h2f c => onH2f c f s
  | .h2d x c => onH2d x c f s

/-- The channel that a host send names. -/
def txChan (s : State) : MbxTx → TxChan
  | .h2f c => s.mbx.h2f[c]
  | .h2d x c => (s.mbx.h2d[x])[c]

/-- The receiver code of R78 of a host send. -/
def txReceiver : MbxTx → Nat
  | .h2f _ => 0
  | .h2d x _ => 2 + x.val

/-- The channel number of a host send. -/
def txNumber : MbxTx → Nat
  | .h2f c => c.val
  | .h2d _ c => c.val

/-- The instance of a channel in the log: `0x0100 + c` for H2F and F2H, the summary bit for a site's channel (R529). -/
def txInst : MbxTx → Nat
  | .h2f c => 0x0100 + c.val
  | .h2d x c => 16 + 8 * x.val + c.val

/-- The instance of a receive channel in the log (R529). -/
def rxInst : MbxRx → Nat
  | .f2h c => 0x0100 + c.val
  | .d2h x c => 16 + 8 * x.val + c.val

/-- Byte `i` of a message. -/
def msgByte (ws : Vector Word 16) (i : Nat) : Byte :=
  BitVec.ofNat 8 ((nth ws.toList (i / 4) 0).toNat / 256 ^ (i % 4))

/-- Part `p` of a message as MBX_DATA carries it: 14 bytes, bytes past 63 are 0 (Table 11.9). -/
def mbxPart (ws : Vector Word 16) (p : Nat) : List Byte :=
  (List.range 14).map fun i => if 14 * p + i < 64 then msgByte ws (14 * p + i) else 0

/-- A 16-byte sideband body from its leading bytes; the rest is 0 (Table 11.9). -/
def sbBody (l : List Byte) : List Byte := (l ++ List.replicate 16 0).take 16

/-- MBX_DATA parts 0 to 4 and MBX_GO on the sideband of a site (R465, Table 11.9). -/
def sendToDie (x : SiteIx) (c : Fin 8) (m : Msg) (s : State) : State :=
  let s1 := (List.range 5).foldl (fun t p =>
    sbSend x 0x19 (sbBody ([BitVec.ofNat 8 c.val, BitVec.ofNat 8 p] ++ mbxPart m.words p)) t) s
  sbSend x 0x1A (sbBody ([BitVec.ofNat 8 c.val, 0] ++ leBytes 2 m.tag.toNat)) s1

/-- MBX_RESP on the sideband of a site: 0 accepted, 1 rejected, 2 taken, 3 aborted, 4 timeout, 5 unbound (Table 11.9). -/
def sendResp (x : SiteIx) (c : Nat) (code : Nat) (s : State) : State :=
  sbSend x 0x1B (sbBody [BitVec.ofNat 8 c, BitVec.ofNat 8 code]) s

/-- Positions of the status bits of MBX_*_CTRL[7:2] within `TxChan.status` (Table 16.11). -/
def stAccepted : Nat := 0
/-- taken. -/
def stTaken : Nat := 1
/-- rejected. -/
def stRejected : Nat := 2
/-- aborted. -/
def stAborted : Nat := 3
/-- timeout. -/
def stTimeout : Nat := 4
/-- unbound. -/
def stUnbound : Nat := 5

/-- Sets a status bit of a channel. -/
def txStatus (c : MbxTx) (i : Nat) (s : State) : State := onTx c (fun h => { h with status := setBit h.status i }) s

/-- The site of an H2D channel is not in service, so a send is aborted at once (R469). -/
def txDown (s : State) : MbxTx → Bool
  | .h2f _ => false
  | .h2d x _ => !siteUp s x

/-- BAR0 address of the CTRL of a channel on which the host sends (Table 16.10). -/
def txCtrlAddr (s : State) (c : MbxTx) : Nat :=
  (s.host.cfg.bar[(0 : Fin 3)]).toNat + 0x10040 + match c with
    | .h2f c => 0x80 * c.val
    | .h2d x c => 0x1000 + 0x400 * x.val + 0x80 * c.val

/-- A rejection of a host send: rejected, a log record, and a Completer Abort with the header of the posted write to CTRL (R466). -/
def sendRejected (c : MbxTx) (s : State) : State :=
  logEvent clsReported blkMBX 0x0100 (txInst c) { txStatus c stRejected s with
    fresh := s.fresh + 1
    host := { s.host with aer := .completerAbort (txCtrlAddr s c) s.fresh :: s.host.aer } }

/-- A message enters a channel: go, and its timer starts (R465, R467). -/
def txPlace (c : MbxTx) (m : Msg) (s : State) : State :=
  let s1 := onTx c (fun h => { h with go := true, acked := false, msg := m, timer := some (s.time, (calibRec s).mailboxUs) }) s
  match c with
  | .h2f _ => s1
  | .h2d x k => sendToDie x k m s1

/-- A host send: its outcome is resolved at once (R465, R466, R469; the order unbound, aborted, rejected is log entry 21). -/
def mbxSendTo (c : MbxTx) (tag : BitVec 16) (s0 : State) : State :=
  let s := onTx c (fun h => { h with tag := tag }) s0
  let h := txChan s c
  if hostBound s (txReceiver c) (txNumber c) tag = false then txStatus c stUnbound s
  else if txDown s c then txStatus c stAborted s
  else if h.go then sendRejected c s
  else txPlace c { words := h.staging, tag := tag, sender := 1 } (txStatus c stAccepted s)

/-- MGT_STATUS.fw_state running. -/
def fwRunning : BitVec 4 := 2

/-- A binding admits the firmware as a sender with the tag on a channel (R78, R464). -/
def fwBound (s : State) (receiver chan : Nat) (tag : BitVec 16) : Bool :=
  ((s.img.image.map fun i : Image => i.binds).getD []).any fun b =>
    b.sender == 0 && b.receiver == receiver && b.channel == chan && b.tag == tag

/-- A send of the firmware on an H2D channel (R470, R471): behind a message of its own it waits in the firmware's queue, or is lost from a
full one; a host's message in the channel, or a site that is not Active, turns it away. -/
def fwDieSend (x : SiteIx) (c : Fin 8) (m : Msg) (s : State) : State :=
  let h := (s.mbx.h2d[x])[c]
  if siteUp s x = false then logEvent clsReported blkMBX 0x0102 (txInst (.h2d x c)) s
  else if h.go && h.msg.sender == 0 then
    (if ((s.mbx.h2dQueue[x])[c]).length < 16 then
      { s with mbx := { s.mbx with h2dQueue := upd s.mbx.h2dQueue x fun v => upd v c (· ++ [m]) } }
    else logEvent clsReported blkMBX 0x0103 (txInst (.h2d x c)) s)
  else if h.go then logEvent clsReported blkMBX 0x0100 (txInst (.h2d x c)) s
  else txPlace (.h2d x c) m s

/-- A message of the firmware to the host or to a compute die, when a binding admits it (R464); channels 00 and 01 carry its replies. The
F2H channel has the number of the H2F channel named (log entry 231). -/
def fwMessage (c : MbxTx) (tag : BitVec 16) (ws : Vector Word 16) (s : State) : State :=
  let m : Msg := { words := ws, tag := tag, sender := 0 }
  if s.mgt.fwState ≠ fwRunning then s
  else match c with
    | .h2f c => if fwBound s 1 c.val tag then fwSend c m s else s
    | .h2d x c => if fwBound s (2 + x.val) c.val tag then fwDieSend x c m s else s

/-- MBX_SEND: the host sends on an H2F or H2D channel, or the firmware on an F2H or H2D one. -/
def execMbxSend (c : MbxTx) (tag : BitVec 16) (s : State) (fw : Option (Vector Word 16) := none) : Host.Outcome State Fault Refusal :=
  match fw with
  | none => runBar (mbxSendTo c tag) s
  | some ws => run (fwMessage c tag ws) s

/-- The next queued reply enters an empty F2H channel (R471). -/
def nextReply (c : Fin 16) (s : State) : State :=
  match s.mbx.f2hQueue[c] with
  | [] => s
  | m :: r => fwSend c m { s with mbx := { s.mbx with f2hQueue := upd s.mbx.f2hQueue c fun _ => r } }

/-- A binding makes the firmware the receiver of a site's channel (R78, Table 16.4). -/
def dieToFw (s : State) (x : SiteIx) (c : Fin 8) : Bool :=
  ((s.img.image.map fun i : Image => i.binds).getD []).any fun b => b.sender == 2 + x.val && b.receiver == 0 && b.channel == c.val

/-- The receiver clears go of a site's message, and the compute die is told taken (R468). -/
def d2hTake (x : SiteIx) (c : Fin 8) (s : State) : State :=
  if ((s.mbx.d2h[x])[c]).go then sendResp x c.val 2 (onD2h x c (fun r => { r with go := false, timer := none }) s) else s

/-- The host takes the message of a receive channel and its sender is told; with go clear nothing happens (R468). A message bound to the
firmware is not the host's to take (Table 16.4). While go is clear the words, tag and sender stay as the last message left them (log entry 232). -/
def mbxTakeFrom (c : MbxRx) (s : State) : State :=
  match c with
  | .f2h c =>
    if (s.mbx.f2h[c]).go then nextReply c (onF2h c (fun r => { r with go := false, timer := none }) s) else s
  | .d2h x c => if dieToFw s x c then s else d2hTake x c s

/-- The receiver of a host send clears go: taken is set and the timer stops (R467). -/
def mbxTaken (c : MbxTx) (s : State) : State :=
  onTx c (fun h => { h with go := false, timer := none, status := setBit h.status stTaken }) s

/-- The firmware takes a message: of a compute die on a D2H channel bound to it, or of the host on the H2F channel with the number of the F2H
channel named; the messages of H2F 00 and 01 are commands, taken as they are carried out (R464, log entry 231). -/
def fwTake (c : MbxRx) (s : State) : State :=
  if s.mgt.fwState ≠ fwRunning then s
  else match c with
    | .f2h c => if 2 ≤ c.val ∧ (s.mbx.h2f[c]).go then mbxTaken (.h2f c) s else s
    | .d2h x c => if dieToFw s x c then d2hTake x c s else s

/-- MBX_TAKE: a write of 1 to go of an F2H or D2H channel, a write to a go bit of vector 2 (R468, R476); or the firmware takes its message. -/
def execMbxTake (c : MbxRx) (s : State) (fw : Bool := false) : Host.Outcome State Fault Refusal :=
  if fw then run (fwTake c) s else runBar (fun s => irqResend 2 (mbxTakeFrom c s)) s

/-- A compute die's message that waits for a receiver under reset is discarded, and the die is told aborted (R469). -/
def d2hAborted (fw : Bool) (x : SiteIx) (c : Fin 8) (s : State) : State :=
  if ((s.mbx.d2h[x])[c]).go && dieToFw s x c == fw then
    sendResp x c.val 3 (logEvent clsReported blkMBX 0x0102 (rxInst (.d2h x c)) (onD2h x c (fun r => { r with go := false, timer := none }) s))
  else s

/-- Every compute die's message to the firmware, or to the host, that waits for it. -/
def diesAborted (fw : Bool) (s : State) : State :=
  (fins 6).foldl (fun t x => (fins 8).foldl (fun u c => d2hAborted fw x c u) t) s

/-- A running timer expires: the message stays, timeout is set for its sender (R467, R363). -/
def mbxExpire (c : MbxTimer) (s : State) : State :=
  match c with
  | .tx c =>
    if (txChan s c).go && (txChan s c).timer.isSome then
      logEvent 0 2 0x0101 (txInst c) (onTx c (fun h => { h with
        timer := none, status := if h.msg.sender = 1 then setBit h.status stTimeout else h.status }) s)
    else s
  | .rx (.f2h c) =>
    if (s.mbx.f2h[c]).go && (s.mbx.f2h[c]).timer.isSome then
      logEvent 0 2 0x0101 (rxInst (.f2h c)) (onF2h c (fun r => { r with timer := none }) s)
    else s
  | .rx (.d2h x c) =>
    if ((s.mbx.d2h[x])[c]).go && ((s.mbx.d2h[x])[c]).timer.isSome then
      logEvent 0 2 0x0101 (rxInst (.d2h x c)) (sendResp x c.val 4 (onD2h x c (fun r => { r with timer := none }) s))
    else s

/-- MAILBOX_TIMEOUT: go has stayed set for the timeout that was in force when it was set. -/
def execMailboxTimeout (c : MbxTimer) (s : State) : Host.Outcome State Fault Refusal := run (mbxExpire c) s

/-! ### Doorbells and locks -/

/-- 1s set the firmware's bits; those newly set that it does not mask reach it (R473). -/
def ringFw (v : Word) (s : State) : State :=
  let new := v &&& ~~~s.dbl.fw &&& ~~~s.dbl.fwMask
  let s1 := { s with dbl := { s.dbl with fw := s.dbl.fw ||| v } }
  if new = 0 then s1 else emit (.fwDoorbell new) s1

/-- What the firmware does with doorbells: it clears its bits, writes its masks, or rings the host (R473). -/
def fwDoorbells (act : DblAct) (v : Word) (s : State) : State :=
  if s.mgt.fwState ≠ fwRunning then s
  else match act with
    | .ring => s
    | .fwClear => { s with dbl := { s.dbl with fw := s.dbl.fw &&& ~~~v } }
    | .fwMask => { s with dbl := { s.dbl with fwMask := v } }
    | .fwRingHost => { s with dbl := { s.dbl with host := s.dbl.host ||| v } }

/-- DBL_FW_RING, or one of the firmware's own doorbell actions. -/
def execDblFwRing (v : Word) (s : State) (act : DblAct := .ring) : Host.Outcome State Fault Refusal :=
  if act = .ring then runBar (ringFw v) s else run (fwDoorbells act v) s

/-- Rings a compute die, or drops the ring of a site that is not in service (R473). -/
def ringSite (x : SiteIx) (v : Word) (s : State) : State :=
  if v = 0 then s
  else if siteUp s x then sbSend x 0x1C (sbBody (leBytes 4 v.toNat)) s
  else flag blkDBL x.val x.val s

/-- DBL_SITE_RING. -/
def execDblSiteRing (x : SiteIx) (v : Word) (s : State) : Host.Outcome State Fault Refusal := runBar (ringSite x v) s

/-- The owner code of a master (Table 16.5). -/
def ownerCode : Master → BitVec 4
  | .mgmt => 1
  | .pcie => 2
  | .site x => BitVec.ofNat 4 (3 + x.val)

/-- An acquire attempt: whether it succeeded, and the state after it (R474). -/
def acquire (o : BitVec 4) (n : Fin 32) (s : State) : Bool × State :=
  if s.lck.owner[n] = 0 then (true, { s with lck := { s.lck with owner := upd s.lck.owner n fun _ => o } }) else (false, s)

/-- A release, ignored unless the writer owns the lock (R474). -/
def release (o : BitVec 4) (n : Fin 32) (s : State) : State :=
  if s.lck.owner[n] = o then { s with lck := { s.lck with owner := upd s.lck.owner n fun _ => 0 } } else s

/-- The word that a read of LCK_n returns: got and the owner after the read; the RSV bits are free (Table 16.16). -/
def lckWord (got : Bool) (owner : BitVec 4) : RegVal := mkReg [(31, 31, b2n got), (3, 0, owner.toNat)]

/-- A master's read of LCK_n over its register path, or a site's LOCK acquire, which the partner adapter is answered by
LOCK_RESP (R474, R365). -/
def lckRead (m : Master) (n : Fin 32) (s : State) : State :=
  let r := acquire (ownerCode m) n s
  let o := r.2.lck.owner[n]
  match m with
  | .site x => sbSend x 0x1E (sbBody [BitVec.ofNat 8 n.val, BitVec.ofNat 8 (b2n r.1), o.setWidth 8]) r.2
  | _ => emit (.regRead m (0x30000 + 4 * n.val) (fillReserved (lckWord r.1 o) s.fresh)) { r.2 with fresh := s.fresh + 1 }

/-- The path of a master answers: a BAR in D0, a site in service. -/
def masterOn (m : Master) (s : State) : Bool :=
  match m with
  | .mgmt => true
  | .pcie => !s.host.d3hot
  | .site x => siteUp s x

/-- LCK_ACQUIRE. -/
def execLckAcquire (m : Master) (n : Fin 32) (s : State) : Host.Outcome State Fault Refusal :=
  run (fun s => if masterOn m s then lckRead m n s else s) s

/-- LCK_RELEASE: the register's bits 31:5 are reserved, so a non-zero value there is a host error (R20). -/
def execLckRelease (m : Master) (v : Word) (s : State) : Host.Outcome State Fault Refusal :=
  if running s && masterOn m s && rsvBad s 0x30080 v then badAccess 20 (release (ownerCode m) (fin! 32 (fld v 4 0))) s
  else run (fun s => if masterOn m s then release (ownerCode m) (fin! 32 (fld v 4 0)) s else s) s

/-! ### PCI Express -/

/-- The change a configuration write makes to MSI-X. -/
def msixChange (w : MsixWrite) (h : HostIf) : HostIf :=
  match w with
  | .enable on => { h with msixEnable := on }
  | .functionMask on => { h with msixFmask := on }
  | .vectorMask v on => { h with vec := upd h.vec v fun e => { e with masked := on } }

/-- MSIX_UNMASK: messages withheld are sent when their masks clear while the condition holds (R476). The vector mask
lies in BAR0, which D3hot does not answer. -/
def execMsixUnmask (w : MsixWrite) (s : State) : Host.Outcome State Fault Refusal :=
  run (fun s =>
    match w, s.host.d3hot with
    | .vectorMask _ _, true => s
    | _, _ => { s with host := msixChange w s.host }) s

/-- PCIE_LINK_CHANGE: speed and width of GLB_LINK, and link_change when they differ (Table 16.9). -/
def execPcieLinkChange (speed : BitVec 4) (width : BitVec 6) (s : State) : Host.Outcome State Fault Refusal :=
  run (fun s =>
    if s.host.speed = speed ∧ s.host.width = width then s
    else flag blkGLB 0 0 { s with host := { s.host with speed := speed, width := width } }) s

/-- POISONED_TLP: discarded, logged by AER and as a reported event (R459, Table 18.10). -/
def execPoisonedTlp (s : State) : Host.Outcome State Fault Refusal :=
  run (fun s => logEvent 0 blkERR 0x0100 0 { s with host := { s.host with aer := .poisonedTlp :: s.host.aer } }) s

/-- Address bits of a BAR that are writable: its size decodes the others (Table 16.2). -/
def barSize (k : Fin 3) : Nat := if k = 0 then 2 ^ 24 else if k = 1 then 2 ^ 26 else 2 ^ 36

/-- A 64-bit BAR as it reads: the address, and the type bits, prefetchable for BAR2 and BAR4 (Table 16.2). -/
def barWord (h : HostIf) (k : Fin 3) : Nat := (h.cfg.bar[k]).toNat + (if k = 0 then 0x4 else 0xC)

/-- A register of the configuration space, its reserved and unstated bits free (Table 16.1; register formats PRESUMED, log entry 233). -/
def cfgValue (s : State) (r : CfgReg) : RegVal :=
  let h := s.host
  match r with
  | .identifiers => whole (0x6432 * 2 ^ 16 + Config.vendor.toNat)
  | .command => mkReg [(15, 0, h.cfg.command.toNat)]
  | .classCode => mkReg [(31, 8, 0x120000)]
  | .headerType => mkReg [(23, 16, 0)]
  | .bar k high => whole (if high then barWord h k / 2 ^ 32 else barWord h k % 2 ^ 32)
  | .deviceControl => mkReg [(14, 12, h.cfg.maxRead.toNat), (7, 5, h.cfg.maxPayload.toNat)]
  | .msixControl => mkReg [(31, 31, b2n h.msixEnable), (30, 30, b2n h.msixFmask), (26, 16, 63)]
  | .powerControl => mkReg [(1, 0, if h.d3hot then 3 else 0)]

/-- A configuration write (Table 16.1, log entry 233): payload sizes above 512 bytes and read requests above 4,096 bytes are not taken. -/
def cfgWrite (r : CfgReg) (v : Word) (h : HostIf) : HostIf :=
  match r with
  | .identifiers | .classCode | .headerType => h
  | .command => { h with cfg := { h.cfg with command := v.setWidth 16 } }
  | .bar k high =>
    let new := if high then v.toNat * 2 ^ 32 + (h.cfg.bar[k]).toNat % 2 ^ 32 else (h.cfg.bar[k]).toNat / 2 ^ 32 * 2 ^ 32 + v.toNat
    { h with cfg := { h.cfg with bar := upd h.cfg.bar k fun _ => BitVec.ofNat 64 (new / barSize k * barSize k) } }
  | .deviceControl =>
    let p := fld v 7 5
    let q := fld v 14 12
    { h with cfg := { h.cfg with
      maxPayload := if p ≤ 2 then BitVec.ofNat 3 p else h.cfg.maxPayload
      maxRead := if q ≤ 5 then BitVec.ofNat 3 q else h.cfg.maxRead } }
  | .msixControl => { h with msixEnable := bit v 31, msixFmask := bit v 30 }
  | .powerControl => if fld v 1 0 = 3 then { h with d3hot := true } else if fld v 1 0 = 0 then { h with d3hot := false } else h

/-- A configuration request, which the function answers in D0 and in D3hot (Table 16.1). -/
def cfgDo (s : State) (a : CfgAccess) : State :=
  match a with
  | .read r => emit (.cfgRead r (fillReserved (cfgValue s r) s.fresh)) { s with fresh := s.fresh + 1 }
  | .write r v => { s with host := cfgWrite r v s.host }

/-- FUNCTION_POWER_STATE_WRITE: the function moves between D0 and D3hot, and answers the configuration requests that follow (Table 16.1). -/
def execFunctionPowerStateWrite (d3 : Bool) (s : State) (cfg : List CfgAccess := []) : Host.Outcome State Fault Refusal :=
  run (fun s => cfg.foldl cfgDo { s with host := { s.host with d3hot := d3 } }) s

/-! ### The error capture and Echo (R509 to R514) -/

/-- A command write was stale: stale_cmd of ERR_EVENT (R514). -/
def errStale (s : State) : State := flag blkERR 0 6 s

/-- ERR_CTRL: frees the capture, or is ignored as stale (R509, R514). -/
def errRelease (v : Word) (s : State) : State :=
  if fld v 31 16 ≠ s.err.epoch.toNat then errStale s
  else if bit v 0 then { s with err := { s.err with first := none, epoch := s.err.epoch + 1 } }
  else s

/-- ERR_CTRL_RELEASE. -/
def execErrCtrlRelease (v : Word) (s : State) : Host.Outcome State Fault Refusal :=
  regRow 0x40004 v (errRelease v) s

/-- An Echo write refused: result refused, but a running Echo keeps its result (log entry 22); echo_fail. -/
def echoRefuse (s : State) : State :=
  flag blkERR 0 5 (if s.err.echo.result = 1 then s
    else { s with err := { s.err with echo := { s.err.echo with result := 3 } } })

/-- An Echo starts (R510): results from zero, state_epoch. -/
def echoStart (mode : BitVec 2) (v : Word) (pattern : Bool) (s : State) : State :=
  { s with
    fresh := s.fresh + 1
    err := { s.err with
      epoch := s.err.epoch + 1
      echo := { result := 1, mode := mode, index := BitVec.ofNat 6 (fld v 13 8), site := BitVec.ofNat 2 (fld v 7 6),
                line := BitVec.ofNat 6 (fld v 5 0), nonce := Config.echoNonce s.time (fld v 13 8), patternOn := pattern } } }

/-- Common part of an Echo start: the named epoch, then the state that Table 18.3 asks for and no running Echo. -/
def echoTry (mode : BitVec 2) (v : Word) (epoch : BitVec 16) (may : Bool) (s : State) : State :=
  if fld v 31 16 ≠ epoch.toNat then errStale (echoRefuse s)
  else if may && s.err.echo.result != 1 then
    let t := echoStart mode v (mode != 2) s
    if mode = 2 then emit (.echoNonce (fin! 64 (fld v 13 8)) t.err.echo.nonce) t else t
  else echoRefuse s

/-- The port that an ERR_ECHO_CTRL value names. -/
def echoPort (v : Word) : Port := fin! 64 (fld v 13 8)

/-- The site that an ERR_ECHO_CTRL value names. -/
def echoSite (v : Word) : SiteIx := WideIx.site (fin! 4 (fld v 7 6))

/-- Mode 1, on a Dark port held by PRT_CMD (Table 18.3). -/
def echoLine (v : Word) (s : State) : State :=
  let q := s.port[echoPort v]
  echoTry 1 v q.epoch (q.state == 0 && q.hold && decide (1 ≤ fld v 5 0) && decide (fld v 5 0 ≤ 34)) s

/-- ERR_ECHO_LINE. -/
def execErrEchoLine (v : Word) (s : State) : Host.Outcome State Fault Refusal := runBar (echoLine v) s

/-- Mode 2, in Penumbra on a port Up or Degraded whose partner is itself or its pair (Table 18.3). -/
def echoFibre (v : Word) (s : State) : State :=
  let q := s.port[echoPort v]
  let p := (echoPort v).val
  echoTry 2 v q.epoch (s.dev.state == .penumbra && portUp q &&
    (q.peerPort.toNat == p || q.peerPort.toNat == (if p % 2 = 0 then p + 1 else p - 1))) s

/-- ERR_ECHO_FIBRE. -/
def execErrEchoFibre (v : Word) (s : State) : Host.Outcome State Fault Refusal := runBar (echoFibre v) s

/-- Mode 3, on a module of a site held in Reset by WP_CMD (Table 18.3). -/
def echoModule (v : Word) (s : State) : State :=
  let q := s.site[echoSite v]
  echoTry 3 v q.epoch (q.state == 1 && q.hold && decide (fld v 13 8 < 32)) s

/-- ERR_ECHO_MODULE. -/
def execErrEchoModule (v : Word) (s : State) : Host.Outcome State Fault Refusal := runBar (echoModule v) s

/-- The epoch that a stop of the running Echo must name: that of its own port or site (R514). -/
def echoEpoch (s : State) : BitVec 16 :=
  if s.err.echo.mode = 3 then (s.site[WideIx.site (fin! 4 s.err.echo.site.toNat)]).epoch
  else (s.port[fin! 64 s.err.echo.index.toNat]).epoch

/-- Mode 0 stops the running Echo with what its checker compared (R510, R512); with no Echo running it does nothing. -/
def echoStop (v : Word) (nbits errors : Nat) (worst : BitVec 7) (s : State) : State :=
  if s.err.echo.result ≠ 1 then s
  else if fld v 31 16 ≠ (echoEpoch s).toNat then errStale s
  else
    let e := s.err.echo
    let e1 : Echo := if e.patternOn then
        { e with result := 2, bits := BitVec.ofNat 64 nbits, errors := BitVec.ofNat 64 errors,
                 worst := if e.mode = 3 then worst else e.worst }
      else { e with result := 2 }
    flag blkERR 0 4 (echoUncorr { s with err := { s.err with epoch := s.err.epoch + 1, echo := e1 } })

/-- ERR_ECHO_STOP. -/
def execErrEchoStop (v : Word) (nbits errors : Nat) (worst : BitVec 7) (s : State) : Host.Outcome State Fault Refusal :=
  runBar (echoStop v nbits errors worst) s

/-- A mode 2 Echo waits for its nonce (R511). -/
def echoAwaits (s : State) : Bool := s.err.echo.result == 1 && s.err.echo.mode == 2 && !s.err.echo.patternOn

/-- ECHO_NONCE_RETURN: the pattern starts (R511). -/
def execEchoNonceReturn (s : State) : Host.Outcome State Fault Refusal :=
  run (fun s => if echoAwaits s then
      emit (.echoPattern (fin! 64 s.err.echo.index.toNat)) { s with err := { s.err with echo := { s.err.echo with patternOn := true } } }
    else s) s

/-- ECHO_NOT_LOOPED: the Echo stops with not_looped, no pattern sent (R511). -/
def execEchoNotLooped (s : State) : Host.Outcome State Fault Refusal :=
  run (fun s =>
    if echoAwaits s then
      flag blkERR 0 5 { s with err := { s.err with epoch := s.err.epoch + 1, echo := { s.err.echo with result := 4 } } }
    else s) s

end Sys2Proof.Machine
end

