-- ==== Sys2Proof/Machine/Operands.lean ====
section
/-!
DEFINITION. The raw operand forms of the commands: bit strings, cyclic redundancy checks and sideband message slots
(Table 11.8).
-/

namespace Sys2Proof.Machine

/-- One bit of a CRC of width `w`, most significant bit first (unreflected). -/
def crcBit {w : Nat} (poly c : BitVec w) : BitVec w := if c.msb then (c <<< 1) ^^^ poly else c <<< 1

/-- Eight bits of a CRC. -/
def crcByte {w : Nat} (poly c : BitVec w) (b : Byte) : BitVec w :=
  let c0 := c ^^^ (b.setWidth w <<< (w - 8))
  crcBit poly (crcBit poly (crcBit poly (crcBit poly (crcBit poly (crcBit poly (crcBit poly (crcBit poly c0)))))))

/-- An unreflected CRC over bytes. -/
def crcOf {w : Nat} (poly init : BitVec w) (l : List Byte) : BitVec w := l.foldl (crcByte poly) init

/-- CRC-16 of the message slots: polynomial 0x1021, initial 0xFFFF (Table 11.8). -/
def crc16 (l : List Byte) : BitVec 16 := crcOf (0x1021 : BitVec 16) 0xFFFF l

/-- Byte `i` of a byte string, 0 past its end. -/
def byteAt (l : List Byte) (i : Nat) : Byte := nth l i 0

/-- The fields of a message slot (Table 11.8). -/
structure Slot where
  /-- type -/
  typ : Byte
  /-- sequence number -/
  seq : Byte
  /-- body, 16 bytes -/
  body : List Byte
  /-- next seq the sender expects -/
  ack : Byte
  deriving DecidableEq, Repr

/-- The 19 bytes of a slot that its CRC covers. -/
def slotHead (x : Slot) : List Byte := x.typ :: x.seq :: ((x.body ++ List.replicate 16 0).take 16 ++ [x.ack])

/-- The 21 bytes of a slot (Table 11.8). -/
def slotBytes (x : Slot) : List Byte := slotHead x ++ leBytes 2 (crc16 (slotHead x)).toNat

/-- The slot that 21 bytes spell, when the CRC holds (R359). -/
def slotOf (raw : List Byte) : Option Slot :=
  if raw.length = 21 ∧ leNat ((raw.drop 19).take 2) = (crc16 (raw.take 19)).toNat then
    some { typ := byteAt raw 0, seq := byteAt raw 1, body := (raw.drop 2).take 16, ack := byteAt raw 18 }
  else none

/-- Bits of a byte string, bit i of byte b at position 8b + i (R335). -/
def bitsOf (l : List Byte) : List Bool := l.flatMap fun b => (List.range 8).map fun i => b.getLsbD i

/-- A byte from its bits, bit 0 first. -/
def byteOf (l : List Bool) : Byte := BitVec.ofNat 8 (boolsNat l)

/-- Bytes of a bit string. -/
def bytesOf (l : List Bool) : List Byte := (chunksOf 8 (l.length / 8) l).map byteOf

end Sys2Proof.Machine
end

