-- ==== Sys2Proof/Machine/Codec.lean ====
section
/-!
DEFINITION. The Reed-Solomon codes over GF(2^10): RS(68,64) of an optical line (R230) and RS(544,514) of a Reach Port quad (R374). Arithmetic of
the field, the encoder, the decoder, the line scrambler (R232), and the striping of a beam's words over its lines (R238).
-/

namespace Sys2Proof.Machine

/-- A symbol of GF(2^10). -/
abbrev Sym := BitVec 10

/-- Multiplication by α, with the primitive polynomial x^10 + x^3 + 1 (R230). -/
def gfDouble (a : Sym) : Sym := if a.msb then (a <<< 1) ^^^ 9 else a <<< 1

/-- Multiplication in the field. -/
def gfMul (a b : Sym) : Sym :=
  (List.range 10).foldr (fun i acc => let d := gfDouble acc; if b.getLsbD i then d ^^^ a else d) 0

/-- The product of a^2, a^4, …, a^(2^n). -/
def gfSquares : Nat → Sym → Sym
  | 0, _ => 1
  | n + 1, a => let b := gfMul a a; gfMul b (gfSquares n b)

/-- α to the power `n`. -/
def gfAlpha : Nat → Sym
  | 0 => 1
  | n + 1 => gfDouble (gfAlpha n)

/-- The inverse of a non-zero symbol, its power 1,022. -/
def gfInv (a : Sym) : Sym := gfSquares 9 a

/-- The polynomial with coefficients `p`, lowest first, at `x`. -/
def polyAt (p : List Sym) (x : Sym) : Sym := p.foldr (fun c acc => gfMul acc x ^^^ c) 0

/-- Product of polynomials, lowest coefficient first. -/
def polyMul : List Sym → List Sym → List Sym
  | [], _ => []
  | a :: p, q =>
    let r := 0 :: polyMul p q
    (List.range (max r.length q.length)).map fun i => nth r i 0 ^^^ gfMul a (nth q i 0)

/-- The generator polynomial of `k` parity symbols: the product of x − α^i for i below `k`, lowest coefficient first. -/
def rsGen : Nat → List Sym
  | 0 => [1]
  | k + 1 => polyMul [gfAlpha k, 1] (rsGen k)

/-- One step of the division by the generator: the register, highest coefficient first, takes a data symbol. -/
def rsShift (g : List Sym) (r : List Sym) (d : Sym) : List Sym :=
  let f := d ^^^ nth r 0 0
  (List.range r.length).map fun i => nth r (i + 1) 0 ^^^ gfMul f (nth g i 0)

/-- The codeword of a data part: its symbols, then `k` parity symbols. -/
def rsEncode (k : Nat) (d : List Sym) : List Sym :=
  let g := ((rsGen k).reverse.drop 1)
  d ++ d.foldl (rsShift g) (List.replicate k 0)

/-- Syndromes 0 to `k` − 1; the first symbol is the highest coefficient. -/
def rsSyndromes (k : Nat) (w : List Sym) : List Sym :=
  (List.range k).map fun i => let a := gfAlpha i; w.foldl (fun acc c => gfMul acc a ^^^ c) 0

/-- State of the search for the shortest error locator. -/
structure Locator where
  /-- locator, lowest coefficient first -/
  c : List Sym
  /-- locator before the last change of length -/
  b : List Sym
  /-- length -/
  len : Nat
  /-- steps since the last change of length -/
  gap : Nat
  /-- discrepancy at the last change of length -/
  disc : Sym

/-- One step of the search, on syndrome `n`. -/
def locStep (syn : List Sym) (l : Locator) (n : Nat) : Locator :=
  let d := (List.range (l.len + 1)).foldl (fun acc i => acc ^^^ gfMul (nth l.c i 0) (nth syn (n - i) 0)) 0
  if d = 0 then { l with gap := l.gap + 1 }
  else
    let f := gfMul d (gfInv l.disc)
    let sh := List.replicate l.gap 0 ++ l.b.map (gfMul f)
    let c := (List.range (max l.c.length sh.length)).map fun i => nth l.c i 0 ^^^ nth sh i 0
    if 2 * l.len ≤ n then { c := c, b := l.c, len := n + 1 - l.len, gap := 1, disc := d }
    else { l with c := c, gap := l.gap + 1 }

/-- The positions and values of the errors that the locator of a word names. -/
def rsErrors (k : Nat) (w : List Sym) : List (Nat × Sym) :=
  let syn := rsSyndromes k w
  let l := (List.range k).foldl (locStep syn) { c := [1], b := [1], len := 0, gap := 1, disc := 1 }
  let ev := (polyMul syn l.c).take k
  let der := (indexed (l.c.drop 1)).map fun e => if e.1 % 2 = 0 then e.2 else 0
  (List.range w.length).filterMap fun j =>
    let x := gfAlpha (w.length - 1 - j)
    let xi := gfInv x
    if polyAt l.c xi = 0 then some (j, gfMul x (gfMul (polyAt ev xi) (gfInv (polyAt der xi)))) else none

/-- A word with errors added. -/
def addErrors (es : List (Nat × Sym)) (w : List Sym) : List Sym := es.foldl (fun v e => lupd v e.1 (· ^^^ e.2)) w

/-- The codeword within `k` / 2 symbols of a received word, and the positions corrected; none when uncorrectable (R374). -/
def rsDecode (k : Nat) (w : List Sym) : Option (List Sym × List Nat) :=
  if (rsSyndromes k w).all (· == 0) then some (w, [])
  else
    let es := rsErrors k w
    let v := addErrors es w
    if es.length ≤ k / 2 ∧ (rsSyndromes k v).all (· == 0) then some (v, es.map (·.1)) else none

/-! ### Codewords of an optical line (R230, R232) -/

/-- The symbols of 80 data bytes: bit 0 of byte 0 first, 10 bits a symbol, least significant first. -/
def lineSymbols (b : List Byte) : List Sym :=
  (chunksOf 10 64 (bitsOf ((b ++ List.replicate 80 0).take 80))).map fun c => BitVec.ofNat 10 (boolsNat c)

/-- The codeword of 80 data bytes. -/
def lineEncode (b : List Byte) : List Sym := rsEncode 4 (lineSymbols b)

/-- The data bytes of a received codeword and the number of symbols corrected, at most two; none when it is uncorrectable. -/
def lineDecode (w : List Sym) : Option (List Byte × Nat) :=
  (rsDecode 4 w).map fun e => (bytesOf ((e.1.take 64).flatMap fun c => (List.range 10).map c.getLsbD), e.2.length)

/-- One bit of a shift register whose polynomial has the exponents `taps` beside 0: the bit given, and the next state. Bit k of the state is
the bit of k + 1 steps before (log entry 185). -/
def lfsrBit {n : Nat} (taps : List Nat) (r : BitVec n) : Bool × BitVec n :=
  let b := taps.foldl (fun a k => a ^^ r.getLsbD (k - 1)) false
  (b, (r <<< 1) ||| (BitVec.ofBool b).setWidth n)

/-- `k` bits of a shift register, and the state after them. -/
def lfsrBits {n : Nat} (taps : List Nat) : Nat → BitVec n → List Bool × BitVec n
  | 0, r => ([], r)
  | k + 1, r =>
    let x := lfsrBit taps r
    let y := lfsrBits taps k x.2
    (x.1 :: y.1, y.2)

/-- One bit of the scrambler x^31 + x^28 + 1: the bit that is added to the line, and the next state. -/
def scramBit (r : BitVec 31) : Bool × BitVec 31 := lfsrBit [31, 28] r

/-- Ten bits of the scrambler as a symbol, and the state after them. -/
def scramSymbol (r : BitVec 31) : Sym × BitVec 31 :=
  (List.range 10).foldl (fun a i => let x := scramBit a.2; (if x.1 then setBit a.1 i else a.1, x.2)) (0, r)

/-- A codeword with the scrambler added, which is the codeword again when it is added to that; and the state after its 680 bits. -/
def scramble : BitVec 31 → List Sym → List Sym × BitVec 31
  | r, [] => ([], r)
  | r, c :: w =>
    let x := scramSymbol r
    let y := scramble x.2 w
    ((c ^^^ x.1) :: y.1, y.2)

/-- The state in which a marker leaves the scrambler of a line. -/
def scramStart (n : Line) : BitVec 31 := BitVec.ofNat 31 (0x55555500 + n.val)

/-- The pattern of L00: 1010 and so on, its first bit the least significant. -/
def clockPattern : DWord := 0x5555555555555555

/-! ### Striping over the lines of a beam (R238) -/

/-- Of `n` words of which the first goes on line `start` of `w`, how many go on the `i`-th line. -/
def shareLen (w start n i : Nat) : Nat :=
  let r := (i + w - start % w) % w
  if r < n then (n - 1 - r) / w + 1 else 0

/-- The share of the `i`-th of `w` lines, when the first word goes on line `start`. -/
def shareOf {α : Type} (w start i : Nat) (l : List α) : List α :=
  ((indexed l).filter fun e => (start + e.1) % w == i).map (·.2)

/-- The words as they lie on `w` lines: the shares in ascending order of the lines. -/
def stripe {α : Type} (w start : Nat) (l : List α) : List α := (List.range w).flatMap fun i => shareOf w start i l

/-- The place of word `k` in the shares. -/
def stripeAt (w start n k : Nat) : Nat :=
  ((List.range ((start + k) % w)).map (shareLen w start n)).foldl (· + ·) 0 + k / w

/-- The words in order again, from their shares. -/
def unstripe {α : Type} (w start : Nat) (l : List α) : List α :=
  (List.range l.length).filterMap fun k => l[stripeAt w start l.length k]?

/-- A flit of 256 bytes as 32 words, and back. -/
def flitWords (raw : List Byte) : List (List Byte) := chunksOf 8 32 raw

/-! ### PAM4 levels (R373) -/

/-- The level of a bit pair by the Gray code 00 → 0, 01 → 1, 11 → 2, 10 → 3; the first bit is the more significant. -/
def pamLevel (first second : Bool) : Fin 4 := if first then (if second then 2 else 3) else if second then 1 else 0

/-- The bit pair of a level. -/
def pamBits (l : Fin 4) : Bool × Bool := (decide (2 ≤ l.val), decide (l.val = 1 ∨ l.val = 2))

/-- The levels that bits are sent as, two to a UI. -/
def pamLevels : List Bool → List (Fin 4)
  | a :: b :: r => pamLevel a b :: pamLevels r
  | _ => []

/-- A training frame's word: a 1 as levels 3, 0 and a 0 as levels 0, 3, bit 0 first (R379). -/
def wordLevels (w : Word) : List (Fin 4) := (List.range 32).flatMap fun i => if w.getLsbD i then [3, 0] else [0, 3]

/-- PRBS-13 of x^13 + x^12 + x^2 + x + 1 (R379). -/
def prbs13 (r : BitVec 13) : List Bool × BitVec 13 := lfsrBits [13, 12, 2, 1] 1760 r

/-- The 1,024 levels of a training frame: the frame mark, the control word, the status word and 880 UI of PRBS-13 (R379). -/
def trainLevels (control status : Word) (prbs : List Bool) : List (Fin 4) :=
  List.replicate 8 3 ++ List.replicate 8 0 ++ wordLevels control ++ wordLevels status ++ pamLevels prbs

/-! ### Test patterns of the Reach Port (R393, Table 12.18) -/

/-- `k` UI of a PRBS of `n` bits: the first bit sent of each is the more significant (R373). -/
def prbsUi (n : Nat) (taps : List Nat) (g : Word) : (Bool × Bool) × Word :=
  let a := lfsrBit taps (g.setWidth n)
  let b := lfsrBit taps a.2
  ((a.1, b.1), b.2.setWidth 32)

/-- UI of one period of a wave pattern: eight of level 3 and eight of level 0 (DEDUCED, log entry 219), or 16 of each of the levels 0 to 3. -/
def waveLevel (p i : Nat) : Fin 4 := if p = 4 then (if i % 16 < 8 then 3 else 0) else fin! 4 (i / 16 % 4)

/-- UI in one period of a wave pattern. -/
def wavePeriod (p : Nat) : Nat := if p = 4 then 16 else 64

/-- The bits of the next UI of a pattern of TP_PAT_CTRL, and the state after it; none with no pattern. The polynomials of PRBS-9 and PRBS-31,
x^9 + x^5 + 1 and x^31 + x^28 + 1, are PRESUMED (log entry 219). -/
def patUi (p : Nat) (g : Word) : Option ((Bool × Bool) × Word) :=
  if p = 1 then some (prbsUi 9 [9, 5] g)
  else if p = 2 then some (prbsUi 13 [13, 12, 2, 1] g)
  else if p = 3 then some (prbsUi 31 [31, 28] g)
  else if p = 4 ∨ p = 5 then some (pamBits (waveLevel p g.toNat), w32 ((g.toNat + 1) % wavePeriod p))
  else none

/-- `k` UI of a pattern, and the state after them. -/
def patUis (p : Nat) : Nat → Word → List (Bool × Bool) × Word
  | 0, g => ([], g)
  | k + 1, g =>
    match patUi p g with
    | none => ([], g)
    | some e => let r := patUis p k e.2; (e.1 :: r.1, r.2)

/-- Bits of a PRBS register. -/
def patWidth (p : Nat) : Nat := if p = 1 then 9 else if p = 2 then 13 else 31

/-- The state that a pattern goes on from after a received UI, as far as the UI tells: the PRBS register takes the bits in; a wave starts anew
at the first UI of the level. -/
def patFollow (p : Nat) (g : Word) (u : Bool × Bool) : Word :=
  if p = 4 ∨ p = 5 then
    let l := pamLevel u.1 u.2
    match (List.range (wavePeriod p)).find? fun i => waveLevel p i == l with
    | some i => w32 (i + 1)
    | none => 0
  else ((((g <<< 1) ||| w32 (b2n u.1)) <<< 1) ||| w32 (b2n u.2)) &&& w32 (2 ^ patWidth p - 1)

/-- Bits in which a UI differs from the one expected. -/
def uiErrors (u e : Bool × Bool) : Nat := b2n (u.1 != e.1) + b2n (u.2 != e.2)

/-- One UI at a checker: its state, how many UI in a row were without error, and the bit errors counted. Locked after 64 of them, it runs on by
itself and counts every bit in error; before, it follows the UI (R393). A PRBS register of zeros shows no pattern. -/
def checkUi (p : Nat) (c : Word × Nat × Nat) (u : Bool × Bool) : Word × Nat × Nat :=
  match patUi p c.1 with
  | none => c
  | some e =>
    let bad := uiErrors u e.1
    if 64 ≤ c.2.1 then (e.2, c.2.1, c.2.2 + bad)
    else if bad = 0 ∧ (4 ≤ p ∨ c.1 ≠ 0) then (e.2, c.2.1 + 1, c.2.2)
    else (patFollow p c.1 u, 0, c.2.2)

/-- Bits of UI, in the order sent. -/
def uiBits (l : List (Bool × Bool)) : List Bool := l.flatMap fun u => [u.1, u.2]

/-- UI of bits. -/
def uisOf : List Bool → List (Bool × Bool)
  | a :: b :: r => (a, b) :: uisOf r
  | _ => []

/-! ### Codewords of a quad (R374, R375) -/

/-- `n` bits of a number, least significant first. -/
def natBits (n x : Nat) : List Bool := (List.range n).map x.testBit

/-- The 544 symbols of a codeword of a kind, with its stream and payload. -/
def reachSymbols (kind stream : Nat) (payload : List Byte) : List Sym :=
  let bs := natBits 2 kind ++ natBits 9 stream ++ natBits 9 0 ++ bitsOf ((payload ++ List.replicate 640 0).take 640)
  rsEncode 30 ((chunksOf 10 514 bs).map fun c => BitVec.ofNat 10 (boolsNat c))

/-- The symbol positions of a codeword that travel on a lane (R374). -/
def laneSymbols (l : Nat) : List Nat := (List.range 544).filter fun j => j % 4 == l % 4

/-- The bits that a lane sends of a codeword: its 136 symbols in order, bit 0 of a symbol first (R374). -/
def laneBits (w : List Sym) (l : Nat) : List Bool := (laneSymbols l).flatMap fun j => natBits 10 (nth w j 0).toNat

/-- The 544 symbols that four lanes of a quad carry, each 136 of its own bits ten by ten (R374). -/
def weaveLanes (lanes : List (List Bool)) : List Sym :=
  (List.range 544).map fun j => BitVec.ofNat 10 (boolsNat (((nth lanes (j % 4) []).drop (10 * (j / 4))).take 10))

/-- The data bits of a codeword. -/
def reachBits (w : List Sym) : List Bool := (w.take 514).flatMap fun c => natBits 10 c.toNat

/-- Kind, stream and payload of a codeword. -/
def reachFields (w : List Sym) : Nat × Nat × List Byte :=
  let bs := reachBits w
  (boolsNat (bs.take 2), boolsNat ((bs.drop 2).take 9), bytesOf (bs.drop 20))

end Sys2Proof.Machine
end

