-- ==== Sys2Proof/Machine/Reservoir.lean ====
section
/-!
DEFINITION. The Reservoir (chapter 13): the (144,128) code's corrections and poison, BAR4, the patrol scrub and the
stacks.
-/

namespace Sys2Proof.Machine

/-- Where the image load area begins: the top 4 GiB of H1 (Table 13.2). -/
def loadBase : Nat := 2 ^ 37 - 2 ^ 32

/-- The stack of a global address (R401). -/
def stackOf (a : Nat) : Stack := fin! 2 (a / 2 ^ 36)

/-- The channel of an address within its stack: every 256 bytes the next of 32 (R401). -/
def channelOf (a : Nat) : Fin 32 := fin! 32 (a / 256)

/-- The pseudo-channel: every 8 KiB the other of two (R401). -/
def pseudoOf (a : Nat) : Fin 2 := fin! 2 (a / 8192)

/-- A row of the Reservoir: its stack, channel and pseudo-channel, and the row within it. -/
def rowAt (a : Nat) : Nat := (((stackOf a).val * 32 + (channelOf a).val) * 2 + (pseudoOf a).val) * 2 ^ 32 + (Config.rowOf a).toNat

/-- Codes of a stack state in HBM_STATUS. -/
def stReady : BitVec 4 := 2
/-- Failed. -/
def stFailed : BitVec 4 := 3

/-- Changes one stack. -/
def onStack (h : Stack) (f : HbmStack → HbmStack) (s : State) : State :=
  { s with hbm := { s.hbm with stack := upd s.hbm.stack h f } }

/-- Adds to an HBM counter of a stack (Table 13.11). -/
def hbmCount (h : Stack) (i : Fin 8) (n : Nat) (s : State) : State :=
  onStack h (fun q => { q with counters := upd q.counters i (· + BitVec.ofNat 64 n) }) s

/-- The region of the committed image that holds a global address. -/
def regionAt (s : State) (a : Nat) : Option RegionRec :=
  ((s.img.image.map fun i : Image => i.regions).getD []).find? fun r =>
    decide (regionBase r ≤ a) && decide (a < regionBase r + r.length)

/-- The committed program has a region on a stack. -/
def regionOn (s : State) (h : Stack) : Bool :=
  ((s.img.image.map fun i : Image => i.regions).getD []).any fun r => r.stack == h.val

/-- Requesters as HBM_ERR_INFO.source codes them (Table 13.10). -/
def srcFetch : Nat := 1
/-- A cluster or an ERU. -/
def srcCluster : Nat := 2
/-- A staging transfer. -/
def srcStaging : Nat := 3
/-- BAR4. -/
def srcBar4 : Nat := 4
/-- The patrol scrub. -/
def srcScrub : Nat := 5
/-- The firmware. -/
def srcFirmware : Nat := 6

/-- An uncorrectable word was read: it is poisoned, counted and held in HBM_ERR_ADDR and HBM_ERR_INFO (R403, R411). -/
def uncorrWord (source word : Nat) (s : State) : State :=
  setEv blkHBM (stackOf (16 * word)).val 2 (hbmCount (stackOf (16 * word)) 2 1 { s with hbm := { s.hbm with
    poison := if word ∈ s.hbm.poison then s.hbm.poison else word :: s.hbm.poison
    errAddr := BitVec.ofNat 37 (16 * word)
    errSource := BitVec.ofNat 4 source
    errRegion := match regionAt s (16 * word) with
      | some r => BitVec.ofNat 8 r.id
      | none => 0xFF } })

/-- A word was corrected, on demand or by the scrub: counted, and its row is logged as weak on the fourth occasion
(R407, Table 13.4). -/
def correctWord (scrub : Bool) (word : Nat) (s : State) : State :=
  let h := stackOf (16 * word)
  let row := rowAt (16 * word)
  let n := (aget s.hbm.rows row).getD 0 + 1
  let s1 := eventBit clsCorrected blkHBM h.val (b2n scrub) (hbmCount h (if scrub then 1 else 0) 1
    { s with hbm := { s.hbm with rows := aput s.hbm.rows row n } })
  if n = 4 then
    eventBit clsCorrected blkHBM h.val 3 { s1 with mgt := { s1.mgt with weakRows := (row :: s1.mgt.weakRows).take (Config.weakRoom.val + 1) } }
  else s1

/-- A word whose error the decoder neither corrected rightly nor marked: it now holds an unspecified value, and the
decoder may have taken it for a correction (R402). -/
def missedWord (scrub : Bool) (word : Nat) (s : State) : State :=
  let s1 := { s with
    fresh := s.fresh + 2
    hbm := { s.hbm with mem := s.hbm.mem.writeN (16 * word) (leBytes 16 (Config.freeValue 128 s.fresh).toNat) } }
  if Config.freeChoice (s.fresh + 1) then correctWord scrub word s1 else s1

/-- What one read of a word met: whether it is uncorrectable, and the state after the decoder. -/
def decodeWord (source word : Nat) (e : WordError) (s : State) : Bool × State :=
  if word ∈ s.hbm.poison then (true, uncorrWord source word s)
  else match e with
    | .none => (false, s)
    | .oneNibble => (false, correctWord (source == srcScrub) word s)
    | .twoNibbles => (true, uncorrWord source word s)
    | .more true => (true, uncorrWord source word s)
    | .more false => (false, missedWord (source == srcScrub) word s)

/-- The first word of `[a, a + n)` that is poisoned. -/
def poisonIn (s : State) (a n : Nat) : Option Nat :=
  s.hbm.poison.find? fun w => decide (a < 16 * w + 16) && decide (16 * w < a + n)

/-- Bytes at a global address, and the poison that is left: a word written whole loses its own (R403). -/
def hbmPut (a : Nat) (data : List Byte) (m : Hbm) : Hbm :=
  { m with
    mem := m.mem.writeN a data
    poison := m.poison.filter fun w => !(decide (a ≤ 16 * w) && decide (16 * w + 16 ≤ a + data.length)) }

/-- Stores bytes at a global address, which are counted (Table 13.11). -/
def hbmWrite (a : Nat) (data : List Byte) (s : State) : State :=
  hbmCount (stackOf a) 4 data.length { s with hbm := hbmPut a data s.hbm }

/-- A word of a stack was uncorrectable for a requester of the program: Contained on the program's resources (Table 13.4). -/
def wordContained (h : Stack) (s : State) : State := abortIf true (logEvent clsContained blkHBM 3 h.val s)

/-- A requester of the program met an uncorrectable word. -/
def uncorrContained (source word : Nat) (s : State) : State := wordContained (stackOf (16 * word)) (uncorrWord source word s)

/-- A requester of the program reads a word that has an error: corrected and written back, or Contained (R407, Table 13.4). -/
def demandRead (source : Nat) (s : State) (r : Nat × WordError) : State :=
  let d := decodeWord source r.1 r.2 s
  if d.1 then wordContained (stackOf (16 * r.1)) d.2 else d.2

/-- The words among `l` within `n` bytes at an address. -/
def wordsWithin (a n : Nat) (l : List (Nat × WordError)) : List (Nat × WordError) :=
  l.filter fun r => decide (a < 16 * r.1 + 16) && decide (16 * r.1 < a + n)

/-- The poisoned words within `n` bytes at an address. -/
def poisonedIn (s : State) (a n : Nat) : List Nat := s.hbm.poison.filter fun w => decide (a < 16 * w + 16) && decide (16 * w < a + n)

/-- A requester reads `n` bytes at an address (R407): they are counted, each poisoned word is uncorrectable again, and each word of `words` within
them, the words with a new error, is corrected, missed or uncorrectable. -/
def readRange (source a n : Nat) (words : List (Nat × WordError)) (s : State) : State :=
  let s1 := (poisonedIn s a n).foldl (fun t w => uncorrWord source w t) (hbmCount (stackOf a) 3 n s)
  (wordsWithin a n words).foldl (fun t e => if e.1 ∈ t.hbm.poison then t else (decodeWord source e.1 e.2 t).2) s1

/-! ### BAR4 -/

/-- The global address that a BAR4 offset reaches (R404). -/
def bar4Addr (s : State) (off : BitVec 36) : Nat := s.hbm.base.toNat * 2 ^ 30 + off.toNat

/-- A BAR4 access that is refused: the load area, a stack not Ready, or beyond the last address (R405). -/
def bar4Refused (s : State) (a : Nat) : Bool :=
  decide (loadBase ≤ a) || (s.hbm.stack[stackOf a]).state != stReady

/-- A host access to a region whose use Table 13.3 keeps from the host while the image is committed. -/
def bar4HostError (s : State) (a n : Nat) : Bool :=
  ((s.img.image.map fun i : Image => i.regions).getD []).any fun r =>
    decide (2 ≤ r.use) && decide (r.use ≤ 5) && decide (regionBase r < a + n) && decide (a < regionBase r + r.length)

/-- A request that the endpoint serves: not empty and within one 4 KiB page (R405). A malformed one is left to the PCI Express
specification and has no effect here. -/
def bar4Shaped (a n : Nat) : Bool := decide (0 < n) && decide (a % 4096 + n ≤ 4096)

/-- A refusal (R405): counted against the stack, if the address has one. -/
def bar4Refuse (a : Nat) (s : State) : State :=
  flag blkHBM (if a < 2 ^ 37 then (stackOf a).val else 0) 4 (if a < 2 ^ 37 then hbmCount (stackOf a) 6 1 s else s)

/-- A BAR4 read: refused with all-ones data, served, or completed poisoned (R405). -/
def bar4ReadAt (a n : Nat) (words : List (Nat × WordError)) (s : State) : State :=
  if bar4Refused s a then emit (.bar4 (some (List.replicate n 0xFF))) (bar4Refuse a s)
  else
    let s1 := readRange srcBar4 a n words s
    if (poisonIn s1 a n).isSome then
      emit (.bar4 none) (logEvent clsReported blkHBM 0x0101 (stackOf a).val
        { s1 with host := { s1.host with aer := .poisonedCompletion :: s1.host.aer } })
    else emit (.bar4 (some (s1.hbm.mem.readN a n))) s1

/-- BAR4_READ: `e` is the error of the first word, `words` those of others. -/
def execBar4Read (off : BitVec 36) (n : Nat) (e : WordError) (s : State) (words : List (Nat × WordError) := []) :
    Host.Outcome State Fault Refusal :=
  let ws := (bar4Addr s off / 16, e) :: words
  if running s && !s.host.d3hot && bar4Shaped (bar4Addr s off) n && bar4HostError s (bar4Addr s off) n then
    hostError 404 (if Config.freeChoice s.fresh then bar4ReadAt (bar4Addr s off) n ws (spend 1 s) else spend 1 s)
  else runBar (fun s => if bar4Shaped (bar4Addr s off) n then bar4ReadAt (bar4Addr s off) n ws s else s) s

/-- A BAR4 write: refused and discarded, or stored (R405). -/
def bar4WriteAt (a : Nat) (data : List Byte) (s : State) : State :=
  if bar4Refused s a then bar4Refuse a s else hbmWrite a data s

/-- BAR4_WRITE. -/
def execBar4Write (off : BitVec 36) (data : List Byte) (s : State) : Host.Outcome State Fault Refusal :=
  if running s && !s.host.d3hot && bar4Shaped (bar4Addr s off) data.length && bar4HostError s (bar4Addr s off) data.length then
    hostError 404 (spend 1 s)
  else runBar (fun s => if bar4Shaped (bar4Addr s off) data.length then bar4WriteAt (bar4Addr s off) data s else s) s

/-- HBM_APERTURE: a base above 64 leaves the field (Table 13.7). -/
def apertureSet (v : Word) (s : State) : State :=
  if fld v 6 0 ≤ 64 then { s with hbm := { s.hbm with base := BitVec.ofNat 7 (fld v 6 0) } } else s

/-- HBM_APERTURE_WRITE. -/
def execHbmApertureWrite (v : Word) (s : State) : Host.Outcome State Fault Refusal := regRow 0x100004 v (apertureSet v) s

/-- HBM_SCRUB: enable, and a period of 1 to 168 hours; others leave the period (Table 13.8). -/
def scrubSet (v : Word) (s : State) : State :=
  { s with hbm := { s.hbm with
      scrubOn := bit v 31
      period := if 1 ≤ fld v 23 16 ∧ fld v 23 16 ≤ 168 then BitVec.ofNat 8 (fld v 23 16) else s.hbm.period } }

/-- HBM_SCRUB_WRITE. -/
def execHbmScrubWrite (v : Word) (s : State) : Host.Outcome State Fault Refusal := regRow 0x100008 v (scrubSet v) s

/-! ### Patrol scrub and stacks -/

/-- Words of both stacks. -/
def scrubWords : Nat := 2 ^ 33

/-- The scrub goes on to the next word; a completed pass is counted, saturating (Table 13.8). -/
def scrubNext (s : State) : State :=
  if s.hbm.scrubPos + 1 < scrubWords then { s with hbm := { s.hbm with scrubPos := s.hbm.scrubPos + 1 } }
  else { s with hbm := { s.hbm with
      scrubPos := 0, passes := if s.hbm.passes = BitVec.allOnes 16 then s.hbm.passes else s.hbm.passes + 1 } }

/-- The scrub reads its next word (R407): corrected as on demand, or poisoned and reported. A stack that is not Ready is
passed over. -/
def scrubRead (e : WordError) (s : State) : State :=
  if s.hbm.scrubOn = false then s
  else if (s.hbm.stack[stackOf (16 * s.hbm.scrubPos)]).state ≠ stReady then scrubNext s
  else
    let d := decodeWord srcScrub s.hbm.scrubPos e s
    let s1 := hbmCount (stackOf (16 * s.hbm.scrubPos)) 3 16 d.2
    scrubNext (if d.1 then logEvent clsReported blkHBM 3 (stackOf (16 * s.hbm.scrubPos)).val s1 else s1)

/-- SCRUB_STEP. -/
def execScrubStep (e : WordError) (s : State) : Host.Outcome State Fault Refusal := run (scrubRead e) s

/-- A stack changes state. -/
def setStack (h : Stack) (st : BitVec 4) (rate : BitVec 2) (s : State) : State :=
  let s1 := onStack h (fun q => { q with state := st, rate := rate }) s
  if (s.hbm.stack[h]).state = st then s1 else { s1 with hbm := { s1.hbm with epoch := s1.hbm.epoch + 1 } }

/-- A stack enters Failed: Contained for a committed program with a region on it, reported otherwise (Table 13.4). -/
def stackFail (h : Stack) (s : State) : State :=
  abortIf (regionOn s h) (eventBit (if regionOn s h then clsContained else clsReported) blkHBM h.val 5 (setStack h stFailed 0 s))

end Sys2Proof.Machine
end

