-- ==== Sys2Proof/Machine/Sideband.lean ====
section
/-!
DEFINITION. What the Wide Port and Reach Port sites share: site states, the sideband link and its messages (chapter 11).
-/

namespace Sys2Proof.Machine

/-- Changes the sideband of a site. -/
def onSb (x : SiteIx) (f : Sideband → Sideband) (s : State) : State := onSite x (fun q => { q with sb := f q.sb }) s

/-- Codes of a site's state (Tables 11.18, 12.19). -/
def siReset : BitVec 4 := 1
/-- Training -/
def siTraining : BitVec 4 := 2
/-- Active -/
def siActive : BitVec 4 := 3
/-- Repair or Retest -/
def siRepair : BitVec 4 := 4
/-- Contained -/
def siContained : BitVec 4 := 5
/-- Disabled -/
def siDisabled : BitVec 4 := 6
/-- Test -/
def siTest : BitVec 4 := 7

/-- A site changes state: its state epoch increases (Table 11.18). A change from Active or Repair to any state but these clears its
channels (R364). -/
def setSite (x : SiteIx) (st : BitVec 4) (s : State) : State :=
  let q := s.site[x]
  let s1 := if siteUp s x && st != siActive && st != siRepair then clearSiteChannels x s else s
  onSite x (fun r => { r with state := st, epoch := if q.state = st then r.epoch else r.epoch + 1 }) s1

/-- The modules of a Wide Port site forget their training: sets, repairs and frame numbers; the counters stay. -/
def wideForget (x : SiteIx) (s : State) : State :=
  match wideOf x with
  | none => s
  | some w => { s with wide := upd s.wide w fun y => { mods := y.mods.map fun m => { counters := m.counters } } }

/-- The lanes of a Reach Port site forget their training. -/
def reachForget (x : SiteIx) (s : State) : State :=
  match reachOf x with
  | none => s
  | some t => onReach t (fun r => { uncorr := r.uncorr, testFrom := r.testFrom,
                                    lanes := r.lanes.map fun l => { counters := l.counters } }) s

/-- Penumbra rate is asked for by this end: in force except from the entry actions of Lit on (R491, R493). -/
def ownPenumbra (s : State) : Bool := !(s.dev.state == .lit || s.dev.litEntry)

/-- The site enters Reset: RSTN asserted, link state discarded (Table 11.6). -/
def siteReset (x : SiteIx) (s : State) : State :=
  let s1 := setSite x siReset s
  reachForget x (wideForget x (onSite x (fun q => { siteIdle q with rstn := true, reason := 0, settled := 0, partnerHigh := 0 }) s1))

/-- The site is Disabled with a reason, and reported (R350). -/
def siteDisable (x : SiteIx) (reason : Nat) (s : State) : State :=
  let s1 := onSite x (fun q => { siteIdle q with reason := BitVec.ofNat 4 reason }) (setSite x siDisabled s)
  flag (siteBlk x) (siteInst x) 1 s1

/-- The site becomes Active: event, frame counters at 0, its channels empty (Table 11.6). -/
def siteActive (x : SiteIx) (s : State) : State :=
  let s1 := onSite x (fun q => { q with step := 0, reason := 0 }) (setSite x siActive s)
  let s2 := { s1 with mbx := { s1.mbx with d2h := upd s1.mbx.d2h x fun _ => Vector.replicate 8 {} } }
  let s3 := match wideOf x with
    | some w => { s2 with wide := upd s2.wide w fun y => { mods := y.mods.map fun m => { m with rxFrame := 0, txFrame := 0 } } }
    | none => s2
  flag (siteBlk x) (siteInst x) 0 s3

/-- The RSTN pulse of a site that is not held ends: training starts at step 1 (Table 11.6). -/
def siteRelease (x : SiteIx) (s : State) : State :=
  let q := s.site[x]
  if q.state = siReset ∧ q.hold = false ∧ (siteRec s x).use then
    onSite x (fun r => { r with rstn := false, step := 1, penumbra := ownPenumbra s, pad := (siteRec s x).pad }) (setSite x siTraining s)
  else s

/-- One phase has stayed Waiting for 1 ms since a repair or retest fell due (R341). -/
def waitedDue (s : State) (dueAt : Nat) : Bool :=
  s.ctl.phase == 2 && decide (dueAt + 1000 ≤ s.time) && decide (s.ctl.waitSince + 1000 ≤ s.time)

/-- A due repair or retest may start: no phase is open, a commit has come, or a phase has stayed Waiting for 1 ms (R341, R388). -/
def mayRepair (s : State) (atCommit : Bool) (dueAt : Nat) : Bool := !phaseOpen s.ctl.phase || atCommit || waitedDue s dueAt

/-- SITE_RESET_RELEASE. -/
def execSiteResetRelease (x : SiteIx) (s : State) : Host.Outcome State Fault Refusal := run (siteRelease x) s

/-! ### The sideband link (R358, R359) -/

/-- Messages outstanding before the one an acknowledgement names. -/
def ackCount (b : Sideband) (ack : Byte) : Nat :=
  match b.unacked with
  | [] => 0
  | (q, _) :: _ => let n := (ack - q).toNat; if n ≤ b.unacked.length then n else 0

/-- An acknowledgement arrives: the messages before it are done (R359). -/
def sbAck (ack : Byte) (b : Sideband) : Sideband :=
  let l := b.unacked.drop (ackCount b ack)
  { b with unacked := l, resend := min b.resend l.length }

/-- Every message from index `k` of the unacknowledged ones is to be resent. -/
def sbResendFrom (x : SiteIx) (k : Nat) (s : State) : State :=
  let n := (s.site[x]).sb.unacked.length - k
  if n = 0 then s
  else eventBit clsCorrected (siteBlk x) (siteInst x) 7 (onSb x (fun b => { b with resend := max b.resend n }) s)

/-- A slot arrives. With a CRC that fails nothing happens; otherwise its ack counts, and a sequenced message is delivered in order,
once, or answered by RETRY (R359). `f` is what the message does. -/
def sbSlot (x : SiteIx) (raw : List Byte) (is : Byte → Bool) (f : Slot → State → State) (s : State) : State :=
  match slotOf raw with
  | none => s
  | some m =>
    if (s.site[x]).sb.up = false ∨ is m.typ = false then s
    else
      let s1 := onSb x (sbAck m.ack) s
      if m.typ.toNat < 0x10 then f m s1
      else if m.seq = (s.site[x]).sb.rxSeq then f m (onSb x (fun b => { b with rxSeq := b.rxSeq + 1 }) s1)
      else onSb x (fun b => { b with retryOwed := true }) s1

/-- A slot of one type, whose message does `f`. -/
def sbRow (x : SiteIx) (raw : List Byte) (typ : Byte) (f : List Byte → State → State) (s : State) : Host.Outcome State Fault Refusal :=
  run (sbSlot x raw (· == typ) fun m => f m.body) s

/-- A body field of `n` little-endian bytes. -/
def bnat (b : List Byte) (o n : Nat) : Nat := leNat ((b.drop o).take n)

/-- RETRY: the messages from the named seq are resent (R359). -/
def retryMsg (x : SiteIx) (b : List Byte) (s : State) : State := sbResendFrom x (ackCount (s.site[x]).sb (byteAt b 0)) s

/-- RETRY, and the empty slot 0x00, of which only the ack counts: the two types below 0x10 that Table 11.9 has. -/
def execRetry (x : SiteIx) (raw : List Byte) (s : State) : Host.Outcome State Fault Refusal :=
  run (sbSlot x raw (fun t => t == 0x01 || t == 0x00) fun m s => if m.typ = 0x01 then retryMsg x m.body s else s) s

/-- SB_RESEND_TIMEOUT: the ack has not advanced for 1 µs while a message is unacknowledged (R359). -/
def execSbResendTimeout (x : SiteIx) (s : State) : Host.Outcome State Fault Refusal :=
  run (fun s => if (s.site[x]).sb.up then sbResendFrom x 0 s else s) s

/-- The lowest number among the transfers to the compute die that still wait or are under way, the next number with none (R361). -/
def txOldest (q : Site) : Nat := q.tx.foldl (fun n e => e.2.queue.foldl (fun n t => min n t.id) n) q.nextId

/-- A message may go: the transfers to its compute die that it waits for have left (R361, R385). -/
def mayLeave (s : State) (m : SbMsg) : Bool := m.after.all fun e => decide (e.2 ≤ txOldest (s.site[e.1]))

/-- The first waiting message that may go: a notice waits for the transfers before it, the others do not (R361, R385). -/
def sbReady (may : SbMsg → Bool) : List SbMsg → Option (SbMsg × List SbMsg)
  | [] => none
  | m :: r => if may m then some (m, r) else (sbReady may r).map fun e => (e.1, m :: e.2)

/-- The next slot of a sideband frame: a RETRY that is owed, a message to be resent, the next waiting message while fewer than
128 are unacknowledged, or an empty slot (R358, R359). `may` says which waiting messages may go. -/
def sbNext (may : SbMsg → Bool) (b : Sideband) : Slot × Sideband × Bool :=
  if b.retryOwed then ({ typ := 0x01, seq := 0, body := [b.rxSeq], ack := b.rxSeq }, { b with retryOwed := false }, false)
  else if 0 < b.resend then
    match b.unacked[b.unacked.length - b.resend]? with
    | some (q, m) => ({ typ := m.typ, seq := q, body := m.body, ack := b.rxSeq },
        { b with resend := b.resend - 1, resent := if b.resent = BitVec.allOnes 16 then b.resent else b.resent + 1 }, true)
    | none => ({ typ := 0, seq := 0, body := [], ack := b.rxSeq }, { b with resend := 0 }, false)
  else match sbReady may b.queue with
    | none => ({ typ := 0, seq := 0, body := [], ack := b.rxSeq }, b, false)
    | some (m, r) =>
      if b.unacked.length < 128 then
        ({ typ := m.typ, seq := b.txSeq, body := m.body, ack := b.rxSeq },
         { b with queue := r, txSeq := b.txSeq + 1, unacked := b.unacked ++ [(b.txSeq, m)] }, false)
      else ({ typ := 0, seq := 0, body := [], ack := b.rxSeq }, b, false)

/-- `n` slots of a sideband frame, the sideband after them, and how many messages were resent. -/
def sbSlots (may : SbMsg → Bool) : Nat → Sideband → List Byte × Sideband × Nat
  | 0, b => ([], b, 0)
  | n + 1, b =>
    let r := sbNext may b
    let t := sbSlots may n r.2.1
    (slotBytes r.1 ++ t.1, t.2.1, b2n r.2.2 + t.2.2)

/-! ### Messages of every site -/

/-- Changes a stream of a list. -/
def onStream {α : Type} (l : List (Nat × α)) (k : Nat) (f : α → α) : List (Nat × α) :=
  l.map fun e => if e.1 = k then (e.1, f e.2) else e

/-- The level that two LEVEL messages settle: the lower of the two highs, not below either low (R349); this end's are both 2.0. -/
def settle (high low : Nat) : Option Nat := if low ≤ min 0x0200 high ∧ 0x0200 ≤ min 0x0200 high then some (min 0x0200 high) else none

/-- LEVEL: settled, or the site is Disabled for want of a common level, or below adapter_min (R349, R86). -/
def levelMsg (x : SiteIx) (b : List Byte) (s : State) : State :=
  if (s.site[x]).state ≠ siTraining then s
  else
    let high := bnat b 0 2
    let s1 := onSite x (fun q => { q with
      partnerHigh := BitVec.ofNat 16 high
      partnerLatency := if x.val < 4 then byteAt b 4 else q.partnerLatency
      penumbra := q.penumbra || (byteAt b 5).getLsbD 0
      levelSeen := true }) s
    match settle high (bnat b 2 2) with
    | none => siteDisable x 2 s1
    | some l =>
      if l < (siteRec s x).adapterMin.toNat then siteDisable x 3 (onSite x (fun q => { q with settled := BitVec.ofNat 16 l }) s1)
      else onSite x (fun q => { q with settled := BitVec.ofNat 16 l }) s1

/-- LEVEL. -/
def execLevel (x : SiteIx) (raw : List Byte) (s : State) : Host.Outcome State Fault Refusal := sbRow x raw 0x10 (levelMsg x) s

/-- CREDIT_INIT: a stream's frames and its window, 0 standing for 256 MiB (Table 11.9). -/
def creditInitMsg (x : SiteIx) (b : List Byte) (s : State) : State :=
  if (s.site[x]).state ≠ siTraining then s
  else onSite x (fun q => { q with tx := onStream q.tx (bnat b 0 2) fun t =>
    { t with limit := bnat b 2 2, window := (if byteAt b 4 = 0 then 256 else (byteAt b 4).toNat) * 2 ^ 20, inited := true } }) s

/-- CREDIT_INIT. -/
def execCreditInit (x : SiteIx) (raw : List Byte) (s : State) : Host.Outcome State Fault Refusal := sbRow x raw 0x15 (creditInitMsg x) s

/-- Unwraps a cumulative count of 16 bits against the last one (R356, R253). -/
def unwrap16 (last new : Nat) : Nat := last + (new + 65536 - last % 65536) % 65536

/-- CREDIT: up to four pairs of a stream and its cumulative frames freed (Table 11.9). -/
def creditMsg (x : SiteIx) (b : List Byte) (s : State) : State :=
  (List.range 4).foldl (fun t i =>
    if bnat b (4 * i) 2 = 0xFFFF then t
    else onSite x (fun q => { q with tx := onStream q.tx (bnat b (4 * i) 2) fun e =>
      { e with freed := unwrap16 e.freed (bnat b (4 * i + 2) 2) } }) t) s

/-- CREDIT. -/
def execCredit (x : SiteIx) (raw : List Byte) (s : State) : Host.Outcome State Fault Refusal := sbRow x raw 0x16 (creditMsg x) s

/-- CREDIT messages for streams with frames freed and not yet reported, four to a message (Table 11.9). -/
def creditBodies : Nat → List (Nat × RxStream) → List (List Byte)
  | 0, _ => []
  | n + 1, l =>
    match l with
    | [] => []
    | _ =>
      let pair (i : Nat) : List Byte := match l[i]? with
        | some e => leBytes 2 e.1 ++ leBytes 2 e.2.freed.toNat
        | none => [0xFF, 0xFF, 0, 0]
      (pair 0 ++ pair 1 ++ pair 2 ++ pair 3) :: creditBodies n (l.drop 4)

/-- Sends CREDIT for the streams that satisfy `p` (R356). -/
def sendCredits (x : SiteIx) (p : RxStream → Bool) (s : State) : State :=
  let l := (s.site[x]).rx.filter fun e => p e.2
  let s1 := (creditBodies l.length l).foldl (fun t b => sbSend x 0x16 b t) s
  onSite x (fun q => { q with rx := q.rx.map fun e => if p e.2 then (e.1, { e.2 with owed := 0 }) else e }) s1

/-- CREDIT_RETURN_TIMER: 50 ns after a first freeing (R356). -/
def execCreditReturnTimer (x : SiteIx) (s : State) : Host.Outcome State Fault Refusal :=
  run (sendCredits x fun r => decide (0 < r.owed)) s

/-- Frames of a stream leave the inbound buffer: CREDIT goes out when 8 are owed (R356). -/
def freeFrames (x : SiteIx) (stream n : Nat) (s : State) : State :=
  sendCredits x (fun r => decide (8 ≤ r.owed)) (onSite x (fun q => { q with rx := onStream q.rx stream fun r =>
    { r with freed := r.freed + BitVec.ofNat 16 n, owed := r.owed + n } }) s)

/-! ### Mailboxes, doorbells and locks over the sideband (R363 to R365) -/

/-- A D2H channel that a message body names, if it names one. -/
def chanOf (b : List Byte) : Option (Fin 8) := if h : (byteAt b 0).toNat < 8 then some ⟨(byteAt b 0).toNat, h⟩ else none

/-- MBX_DATA: bytes 14 × part to 14 × part + 13 of the message under way (Table 11.9). -/
def mbxDataMsg (x : SiteIx) (b : List Byte) (s : State) : State :=
  match chanOf b with
  | none => s
  | some c =>
    if 4 < (byteAt b 1).toNat then s
    else onD2h x c (fun r => { r with parts := vmk 64 fun i =>
      if i.val / 14 = (byteAt b 1).toNat then byteAt b (2 + i.val % 14) else r.parts[i] }) s

/-- MBX_DATA. -/
def execMbxData (x : SiteIx) (raw : List Byte) (s : State) : Host.Outcome State Fault Refusal := sbRow x raw 0x19 (mbxDataMsg x) s

/-- The words that 64 bytes spell. -/
def partWords (p : Vector Byte 64) : Vector Word 16 := vmk 16 fun i => w32 (leNat ((p.toList.drop (4 * i.val)).take 4))

/-- A binding names a channel for a site (R78, R363). -/
def dieBound (s : State) (x : SiteIx) (c : Fin 8) : Bool :=
  ((s.img.image.map fun i : Image => i.binds).getD []).any fun b =>
    b.sender == 2 + x.val && decide (b.receiver < 2) && b.channel == c.val

/-- MBX_GO: accepted into an empty channel, rejected, or unbound (R363). -/
def mbxGoMsg (x : SiteIx) (b : List Byte) (s : State) : State :=
  match chanOf b with
  | none => sendResp x (byteAt b 0).toNat 5 s
  | some c =>
    let r := (s.mbx.d2h[x])[c]
    if dieBound s x c = false then sendResp x c.val 5 s
    else if r.go then sendResp x c.val 1 s
    else sendResp x c.val 0 (onD2h x c (fun r => { r with
      msg := { words := partWords r.parts, tag := BitVec.ofNat 16 (bnat b 2 2), sender := BitVec.ofNat 8 (2 + x.val) }
      go := true, timer := some (s.time, (calibRec s).mailboxUs) }) s)

/-- The site has left Active and its link is down. -/
def siteGone (s : State) (x : SiteIx) : Bool := (s.site[x]).state == siReset || (s.site[x]).state == siContained

/-- An MBX_GO that arrives as the site leaves Active is answered aborted (Table 11.12). -/
def goGone (x : SiteIx) (raw : List Byte) (s : State) : State :=
  match (slotOf raw).filter fun m => m.typ == 0x1A with
  | some m => (match chanOf m.body with
    | some c => emit (.siteAborted x c) (onD2h x c (fun r => { r with go := false, timer := none }) s)
    | none => s)
  | none => s

/-- MBX_GO. -/
def execMbxGo (x : SiteIx) (raw : List Byte) (s : State) : Host.Outcome State Fault Refusal :=
  run (fun s => if siteGone s x then goGone x raw s else sbSlot x raw (· == 0x1A) (fun m => mbxGoMsg x m.body) s) s

/-- The next queued message of the firmware enters an H2D channel that its last one has left (R471). -/
def nextDie (x : SiteIx) (c : Fin 8) (s : State) : State :=
  match (s.mbx.h2dQueue[x])[c] with
  | [] => s
  | m :: r => fwDieSend x c m { s with mbx := { s.mbx with h2dQueue := upd s.mbx.h2dQueue x fun v => upd v c fun _ => r } }

/-- The message of an H2D channel has left it: the host sees the outcome of its own, the firmware's queue goes on after one of its own. -/
def dieGone (x : SiteIx) (c : Fin 8) (i : Nat) (s : State) : State :=
  let own := (((s.mbx.h2d[x])[c]).msg.sender == 1 : Bool)
  let s1 := onH2d x c (fun h => { h with go := false, timer := none, status := if own then setBit h.status i else h.status }) s
  if own then s1 else nextDie x c s1

/-- MBX_RESP to a message sent before a function reset, which is discarded (R469): the answers to sends come in their order, and a message
that was accepted keeps the channel until its last answer (DEDUCED, log entry 234). None when the response is not to such a message. -/
def oldResp (code : Nat) (h : TxChan) : Option TxChan :=
  if code = 0 ∨ code = 1 ∨ code = 5 then
    (if 0 < h.oldDue then some { h with oldDue := h.oldDue - 1, oldHeld := h.oldHeld || code == 0 } else none)
  else if h.oldHeld then some { h with oldHeld := code == 4 } else none

/-- MBX_RESP on a channel whose message is at the compute die; a response with go clear is discarded (R363, R465, R469). -/
def mbxRespMsg (x : SiteIx) (b : List Byte) (s : State) : State :=
  match chanOf b with
  | none => s
  | some c =>
    let h := (s.mbx.h2d[x])[c]
    let code := (byteAt b 1).toNat
    let inst := txInst (.h2d x c)
    match oldResp code h with
    | some h1 => onH2d x c (fun _ => h1) s
    | none =>
      if h.go = false then s
      else if code = 0 then onH2d x c (fun h => { h with acked := true }) s
      else if code = 1 then
        (if h.msg.sender = 1 then sendRejected (.h2d x c) (dieGone x c stRejected s)
        else logEvent clsReported blkMBX 0x0100 inst (dieGone x c stRejected s))
      else if code = 2 then dieGone x c stTaken s
      else if code = 3 then logEvent clsReported blkMBX 0x0102 inst (dieGone x c stAborted s)
      else if code = 4 then
        (if h.timer.isSome then logEvent clsReported blkMBX 0x0101 inst (onH2d x c (fun h => { h with
          timer := none, status := if h.msg.sender = 1 then setBit h.status stTimeout else h.status }) s) else s)
      else if code = 5 then dieGone x c stUnbound s
      else s

/-- MBX_RESP. -/
def execMbxResp (x : SiteIx) (raw : List Byte) (s : State) : Host.Outcome State Fault Refusal := sbRow x raw 0x1B (mbxRespMsg x) s

/-- DOORBELL from a compute die: 0 rings the firmware, 1 the host (Table 11.9, R473). -/
def doorbellMsg (b : List Byte) (s : State) : State :=
  let v := w32 (bnat b 0 4)
  if byteAt b 4 = 0 then ringFw v s
  else if byteAt b 4 = 1 then { s with dbl := { s.dbl with host := s.dbl.host ||| v } }
  else s

/-- DOORBELL. -/
def execDoorbell (x : SiteIx) (raw : List Byte) (s : State) : Host.Outcome State Fault Refusal := sbRow x raw 0x1C doorbellMsg s

/-- LOCK: an acquire, answered by LOCK_RESP, or a release (R365). A lock above 31, or another code, names nothing (log entry 198). -/
def lockMsg (x : SiteIx) (b : List Byte) (s : State) : State :=
  if h : (byteAt b 0).toNat < 32 then
    if byteAt b 1 = 0 then lckRead (.site x) ⟨(byteAt b 0).toNat, h⟩ s
    else if byteAt b 1 = 1 then release (ownerCode (.site x)) ⟨(byteAt b 0).toNat, h⟩ s
    else s
  else s

/-- LOCK. -/
def execLock (x : SiteIx) (raw : List Byte) (s : State) : Host.Outcome State Fault Refusal := sbRow x raw 0x1D (lockMsg x) s

/-- A type that Table 11.9 reserves, and PARITY on a Reach Port site (R383). -/
def sbReserved (x : SiteIx) (t : Byte) : Bool :=
  (decide (2 ≤ t.toNat) && decide (t.toNat < 0x10)) || decide (0x1E < t.toNat) || (decide (4 ≤ x.val) && t == 0x13)

/-- A message of a reserved type is discarded, counted and reported (R360, Table 11.11). -/
def reservedMsg (x : SiteIx) (s : State) : State :=
  logEvent clsReported (siteBlk x) 0x0103 (siteInst x) (onSite x (fun q =>
    { q with counters := upd q.counters (if x.val < 4 then 0x0A else 0x08) (· + 1) }) s)

/-- SB_RESERVED_MESSAGE (R360). -/
def execSbReservedMessage (x : SiteIx) (raw : List Byte) (s : State) : Host.Outcome State Fault Refusal :=
  run (sbSlot x raw (sbReserved x) fun _ s => reservedMsg x s) s

end Sys2Proof.Machine
end

