-- ==== Sys2Proof/Machine/Wide.lean ====
section
/-!
DEFINITION. The Wide Port (chapter 11): module frames, lane maps and repair, training and the WP_CMD commands.
-/

namespace Sys2Proof.Machine

/-! ### Frames (R334 to R340) -/

/-- The good lanes in the order that carries logical lanes 0, 1, … (R340). -/
def laneOrder (good : BitVec 68) : List Nat := (List.range 68).filter fun k => good.getLsbD k

/-- Active lanes of a module direction: 64 at full width, 32 when degraded (R340). -/
def activeLanes (good : BitVec 68) : List Nat := if 64 ≤ popc68 good then (laneOrder good).take 64 else (laneOrder good).take 32

/-- The number of lane-frames that a module frame spans (R339). -/
def spans (good : BitVec 68) : Nat := if 64 ≤ popc68 good then 1 else 2

/-- A module frame's type as PARITY codes it: 0 data, 1 head, 2 idle (Table 11.9). -/
abbrev FrameTyp := Fin 3

/-- Whether logical lane `i` of `n` has odd parity in a frame of a type (Table 11.3). -/
def senseOdd (n : Nat) (t : FrameTyp) (i : Nat) : Bool := t = 2 || (t = 1 && decide (i < n / 2))

/-- The 64 UI of a lane hold an odd number of ones. -/
def oddLane (w : DWord) : Bool := ((List.range 64).filter fun i => w.getLsbD i).length % 2 == 1

/-- Logical lanes whose parity differs from the pattern of a type. -/
def differing (n : Nat) (odds : List Bool) (t : FrameTyp) : List Nat :=
  (List.range n).filter fun i => nth odds i false != senseOdd n t i

/-- The class of one lane-frame: its type and the logical lanes in error, or unclassifiable (R338). -/
def classify (n : Nat) (odds : List Bool) : Option (FrameTyp × List Nat) :=
  let d (t : FrameTyp) : Nat := (differing n odds t).length
  let t : FrameTyp := if d 0 ≤ d 1 ∧ d 0 ≤ d 2 then 0 else if d 1 ≤ d 2 then 1 else 2
  if d t ≤ n / 8 then some (t, differing n odds t) else none

/-- The words of the active lanes of lane-frame `k`. -/
def laneWords (order : List Nat) (lanes : List DWord) (k : Nat) : List DWord := order.map fun p => nth lanes (68 * k + p) 0

/-- The class of a module frame of one or two lane-frames; two of different types are unclassifiable (R339). -/
def classifyFrame (good : BitVec 68) (lanes : List DWord) : Option (FrameTyp × List Nat) :=
  let o := activeLanes good
  let one (k : Nat) : Option (FrameTyp × List Nat) := classify o.length ((laneWords o lanes k).map oddLane)
  if spans good = 1 then one 0
  else match one 0, one 1 with
    | some a, some b => if a.1 = b.1 then some (a.1, (a.2 ++ b.2).dedup) else none
    | _, _ => none

/-- The bytes of a module frame: bit k on logical lane k mod n, data position ⌊k ÷ n⌋ (R335, R339). -/
def frameBytes (good : BitVec 68) (lanes : List DWord) : List Byte :=
  let o := activeLanes good
  let n := o.length
  let ws := laneWords o lanes 0 ++ (if spans good = 1 then [] else laneWords o lanes 1)
  bytesOf ((List.range 4032).map fun k =>
    let j := k / n
    (nth ws (n * (j / 63) + k % n) 0).getLsbD (j % 63))

/-- One lane's word: its 63 data bits, and the parity that its frame's type asks for (R337). -/
def laneWord (ds : List Bool) (odd : Bool) : DWord :=
  let ones := (ds.filter id).length % 2 == 1
  BitVec.ofNat 64 (boolsNat (ds ++ [ones != odd]))

/-- The words of `count` physical lanes for lane-frame `f` of bits `bs`: frame bit n × UI + i on the i-th active lane, lanes not active held
low (R335, R340). `odd` is the parity sense of a logical lane. -/
def spread (count : Nat) (order : List Nat) (bs : List Bool) (odd : Nat → Bool) (f : Nat) : List DWord :=
  (List.range count).map fun p =>
    match order.findIdx? (· == p) with
    | some i => laneWord ((List.range 63).map fun u => nth bs (order.length * (63 * f + u) + i) false) (odd i)
    | none => 0

/-- The lane words that carry a module frame of a type: 68 for each lane-frame (R335 to R337, R339). -/
def frameLanes (good : BitVec 68) (t : FrameTyp) (data : List Byte) : List DWord :=
  let o := activeLanes good
  let bs := bitsOf (data ++ List.replicate (504 - data.length) 0)
  (List.range (spans good)).flatMap (spread 68 o bs (senseOdd o.length t))

/-- The 18 lane words that carry a sideband frame of 126 bytes, every lane even (R335 to R337). -/
def sidebandLanes (good : BitVec 68) (data : List Byte) : List DWord :=
  spread 18 ((laneOrder good).take 16) (bitsOf (data ++ List.replicate (126 - data.length) 0)) (fun _ => false) 0

/-- The lanes of a sideband frame with odd parity, which is an error (R337). -/
def sidebandOdd (good : BitVec 68) (lanes : List DWord) : List Nat := ((laneOrder good).take 16).filter fun p => oddLane (nth lanes p 0)

/-! ### Test patterns (R348) -/

/-- The state of a lane's PRBS-15, x^15 + x^14 + 1, before the WT-A frame of number `k`: 56 UI a frame, seeded with the lane index + 1. -/
def wtSeed (lane : Nat) : Nat → BitVec 15
  | 0 => BitVec.ofNat 15 (lane + 1)
  | k + 1 => (lfsrBits [15, 14] 56 (wtSeed lane k)).2

/-- WT-A on the lanes of a module, or of the sideband: lane index, PRBS-15, even parity. -/
def wtA (m k : Nat) : List DWord :=
  (List.range (laneCount m)).map fun p => laneWord (natBits 7 p ++ (lfsrBits [15, 14] 56 (wtSeed p k)).1) false

/-- One frame of a WT-B pair: lane index, which of the pair, and 55 of the 110 report bits: the good set received and the module. The model
takes WT-B and WT-C with even parity too, the data pattern (DEDUCED, log entry 197). -/
def wtB (m : Nat) (good : BitVec 68) (second : Bool) : List DWord :=
  let report := natBits 68 good.toNat ++ natBits 8 m ++ List.replicate 34 false
  (List.range (laneCount m)).map fun p => laneWord (natBits 7 p ++ [second] ++ (if second then report.drop 55 else report.take 55)) false

/-- WT-C on every lane. -/
def wtC (m : Nat) : List DWord :=
  (List.range (laneCount m)).map fun _ => laneWord ((List.range 63).map fun u => u % 2 == 0) false

/-! ### Lanes in error (R341) -/

/-- Lanes become suspected, and each is counted (R341). DESIGN CHOICE (log entry 217): an error on a lane that is suspected already counts towards
the third too. -/
def suspect (ls : List Nat) (d : LaneDir) : LaneDir :=
  ls.foldl (fun e l => { e with suspected := setBit e.suspected l, count := aput e.count l ((aget e.count l).getD 0 + 1) }) d

/-- Suspected lanes of a module in the direction from the compute die: Corrected, and a repair is due (R341, Tables 11.11 and 18.10). -/
def suspectRx (w : WideIx) (m : Fin 33) (ls : List Nat) (s : State) : State :=
  if ls = [] then s else logEvent clsCorrected blkWP 0x0100 w.val (onMod w m (fun q => { q with rx := suspect ls q.rx }.fallDue s.time) s)

/-- The same in the direction to the compute die, from a PARITY report. -/
def suspectTx (w : WideIx) (m : Fin 33) (ls : List Nat) (s : State) : State :=
  if ls = [] then s else logEvent clsCorrected blkWP 0x0100 w.val (onMod w m (fun q => { q with tx := suspect ls q.tx }.fallDue s.time) s)

/-- Adds one to a module counter (Table 11.17). -/
def modCount (w : WideIx) (m : Fin 33) (i : Fin 8) (n : Nat) (s : State) : State :=
  onMod w m (fun q => { q with counters := upd q.counters i (· + BitVec.ofNat 64 n) }) s

/-- A parity error on a data or head frame, or an unclassifiable frame: Contained for the site's streams (R338). -/
def parityContained (w : WideIx) (s : State) : State := containStreams w.site 9 4 (setEv blkWP w.val 3 s)

/-- A parity error on an idle frame: Corrected. -/
def parityIdle (w : WideIx) (s : State) : State := eventBit clsCorrected blkWP w.val 4 s

/-- A protocol error on a site's streams (R353). -/
def protocolError (x : SiteIx) (s : State) : State := containStreams x 8 0x0101 s

/-! ### Receiving a module frame -/

/-- The stream whose slot a frame number is: the bound streams share the frames in ascending order (R353). -/
def slotStream (l : List Nat) (f : Nat) : Option Nat := if l = [] then none else l[f % l.length]?

/-- An operation waits for the transfer of a stream with an offset (R355). -/
def isNamed (s : State) (x : SiteIx) (t : Transfer) : Bool := s.ctl.named.contains (x.val, t.stream, t.offset)

/-- A complete transfer leaves its stream for the inbound list, where it waits for its operation (R355). -/
def completeRx (x : SiteIx) (k : Nat) (s : State) : State :=
  match aget (s.site[x]).rx k with
  | some r =>
    match r.opened with
    | some t =>
      if t.length ≤ t.data.length then
        onSite x (fun q => { q with
          rx := onStream q.rx k fun e => { e with opened := none }
          inbound := q.inbound ++ [{ t with data := t.data.take t.length }] }) s
      else s
    | none => s
  | none => s

/-- A frame of a transfer is stored; it leaves the buffer at once, and its credit returns, when an operation waits for the transfer
(R355, R356). -/
def storeFrame (x : SiteIx) (k : Nat) (t : Transfer) (s : State) : State :=
  let put (n : Nat) : State :=
    completeRx x k (onSite x (fun q => { q with rx := onStream q.rx k fun e => { e with opened := some { t with frames := t.frames + n } } }) s)
  if isNamed s x t then freeFrames x k 1 (put 0) else put 1

/-- A head of a transfer on its stream: stream, offset and length as Table 11.7 lays them out, then the first data bytes. -/
def headRx (x : SiteIx) (k : Nat) (b : List Byte) (s : State) : State :=
  let len := bnat b 4 4
  match aget (s.site[x]).rx k with
  | none => protocolError x s
  | some r =>
    if r.opened.isSome ∨ bnat b 0 2 ≠ k ∨ len = 0 ∨ 2 ^ 28 < len then protocolError x s
    else storeFrame x k { stream := k, offset := bnat b 2 2, length := len, data := b.drop 16, frames := 0 } s

/-- Data of the open transfer of a stream. -/
def dataRx (x : SiteIx) (k : Nat) (b : List Byte) (s : State) : State :=
  match aget (s.site[x]).rx k with
  | none => protocolError x s
  | some r =>
    match r.opened with
    | none => protocolError x s
    | some t => storeFrame x k { t with data := t.data ++ b } s

/-- Frames of a stream that the inbound buffer holds. -/
def heldFrames (q : Site) (k : Nat) : Nat :=
  ((q.inbound.filter fun t => t.stream == k).map (·.frames)).foldl (· + ·) 0 +
    (((aget q.rx k).bind (·.opened)).map (·.frames)).getD 0

/-- The partner adapter sends a head or data frame without a credit: what it has sent and not had reported as freed, the frames held and those
freed but still owed a CREDIT, is all that was advertised (R356, R357). -/
def noCredit (q : Site) (k : Nat) : Bool :=
  match aget q.rx k with
  | some r => decide (r.advertised ≤ heldFrames q k + r.owed)
  | none => false

/-- Frames run on a module: the site is in service and the module in use. -/
def modOn (s : State) (w : WideIx) (m : Fin 33) : Bool := siteUp s w.site && modUsed s w m.val

/-- The repair test runs on a module: its lanes carry WT-A (Table 11.4). -/
def modTests (s : State) (w : WideIx) (m : Fin 33) : Bool := ((s.wide[w]).mods[m]).phase == .testing

/-- The module as an index of the site's module table. -/
def mix (m : Fin 32) : Fin 33 := ⟨m.val, by omega⟩

/-- What a clean head or data frame does on its slot's stream. -/
def cleanFrame (w : WideIx) (m : Fin 32) (t : FrameTyp) (good : BitVec 68) (lanes : List DWord) (s : State) : State :=
  if t = 2 then modCount w (mix m) 2 1 s
  else
    let f := ((s.wide[w]).mods[(mix m).val]).rxFrame.toNat
    match slotStream (boundStreams s w m.val false) f with
    | none => protocolError w.site s
    | some k =>
      if t = 1 then headRx w.site k (frameBytes good lanes) (modCount w (mix m) 1 1 s)
      else dataRx w.site k (frameBytes good lanes) (modCount w (mix m) 0 1 s)

/-- A frame of a module: classified, then handled by its class (R338). -/
def classRx (w : WideIx) (m : Fin 32) (lanes : List DWord) (s : State) : State :=
  let d := ((s.wide[w]).mods[(mix m).val]).rx
  let phys (ls : List Nat) : List Nat := ls.map fun i => nth (activeLanes d.good) i 0
  match classifyFrame d.good lanes with
  | none => parityContained w (modCount w (mix m) 5 1 s)
  | some (t, []) => cleanFrame w m t d.good lanes s
  | some (t, ls) =>
    if t = 2 then parityIdle w (suspectRx w (mix m) (phys ls) (modCount w (mix m) 4 1 s))
    else parityContained w (suspectRx w (mix m) (phys ls) (modCount w (mix m) 3 1 s))

/-- A frame of the sideband: lanes with odd parity are suspected, Corrected. Its slots are judged one by one by their CRC: they come as the
commands of their messages (R338). -/
def sidebandParity (w : WideIx) (lanes : List DWord) (s : State) : State :=
  suspectRx w 32 (sidebandOdd (((s.wide[w]).mods[(32 : Fin 33)]).rx.good) lanes) s

/-- A lane's test frame: lane index, even parity, and the 56 bits from UI 7 on (R348). -/
def wtBits (p : Nat) (x : DWord) : Option (List Bool) :=
  let b := natBits 64 x.toNat
  if b.take 7 = natBits 7 p ∧ oddLane x = false then some ((b.drop 7).take 56) else none

/-- A lane carries WT-A: its bits, with those of its last frame before them, follow the PRBS-15 x^15 + x^14 + 1. -/
def wtLaneOk (p : Nat) (last : Option DWord) (x : DWord) : Bool :=
  match wtBits p x with
  | none => false
  | some b =>
    let l := ((last.bind (wtBits p)).map (·.drop 41)).getD [] ++ b
    b.any id && (List.range (l.length - 15)).all fun i => nth l (i + 15) false == (nth l i false != nth l (i + 1) false)

/-- What a lane's WT-B pair reports: a good set, when the module index and the zeros that follow it are right (R348). -/
def wtReport (m p : Nat) (first second : DWord) : Option (BitVec 68) :=
  match wtBits p first, wtBits p second with
  | some a, some b =>
    let l := a.drop 1 ++ b.drop 1
    if a.head? = some false ∧ b.head? = some true ∧ l.drop 68 = natBits 8 m ++ List.replicate 34 false then some (BitVec.ofNat 68 (boolsNat (l.take 68)))
    else none
  | _, _ => none

/-- A test frame arrives. A frame of which more than half of the lanes break WT-A is not one; of the others each wrong lane is noted. The pairs of
WT-B leave their reports (R342, R348; DEDUCED, log entry 216). -/
def wtFrame (w : WideIx) (m : Fin 33) (lanes : List DWord) (s : State) : State :=
  onMod w m (fun q =>
    let n := laneCount m.val
    let bad := (List.range n).filter fun p => !wtLaneOk p q.wtLast[p]? (nth lanes p 0)
    { q with
      wtLast := lanes
      wtBad := if n < 2 * bad.length then q.wtBad else bad.foldl setBit q.wtBad
      reports := q.reports ++ (List.range n).filterMap fun p => (wtReport m.val p (nth q.wtLast p 0) (nth lanes p 0)).map fun g => (p, g) }) s

/-- The site aligns and tests the module's lanes (Table 11.5 steps 2 and 3). -/
def wtListens (s : State) (w : WideIx) (m : Fin 33) : Bool :=
  let q := s.site[w.site]
  modUsed s w m.val && q.state == siTraining && (q.step == 2 || q.step == 3)

/-- Frames run on a module: as soon as training has its maps, the sideband carries messages (Table 11.5 step 4). -/
def frameOn (s : State) (w : WideIx) (m : Fin 33) : Bool :=
  let q := s.site[w.site]
  modOn s w m || (decide (m = 32) && modUsed s w m.val && q.state == siTraining && decide (4 ≤ q.step.toNat))

/-- A module frame, or a sideband frame as module 32. In a test nothing but the test is done with it; frame counting never pauses
(R338, R342, R348, Table 11.12). -/
def frameRx (w : WideIx) (m : Fin 33) (lanes : List DWord) (s : State) : State :=
  if wtListens s w m then wtFrame w m lanes s
  else if frameOn s w m = false then s
  else
    let s1 := if modTests s w m then wtFrame w m lanes s
      else if h : m.val < 32 then classRx w ⟨m.val, h⟩ lanes s else sidebandParity w lanes s
    onMod w m (fun q => { q with rxFrame := q.rxFrame + 1 }) s1

/-- The slot's stream has no credit for this clean head or data frame: the host error of R357. -/
def frameOverrun (w : WideIx) (m : Fin 33) (lanes : List DWord) (s : State) : Bool :=
  let q := (s.wide[w]).mods[m]
  m.val != 32 && !modTests s w m &&
    match classifyFrame q.rx.good lanes, slotStream (boundStreams s w m.val false) q.rxFrame.toNat with
    | some (t, []), some k => t != 2 && noCredit (s.site[w.site]) k
    | _, _ => false

/-! ### Sending a module frame (R353 to R356) -/

/-- The 16-byte head of a transfer (Table 11.7). -/
def headBytes (t : Transfer) : List Byte :=
  leBytes 2 t.stream ++ leBytes 2 t.offset ++ leBytes 4 t.length ++ List.replicate 8 0

/-- The next frame of a stream: type and bytes, and the stream after it; none without a transfer or a credit. `first` and `more` are the
data bytes of a head and of a data frame. -/
def txNext (first more : Nat) (e : TxStream) : Option (FrameTyp × List Byte × TxStream) :=
  match e.queue with
  | [] => none
  | t :: r =>
    if e.limit ≤ e.spent - e.freed then none
    else
      let n := if e.opened then more else first
      let rest := t.data.drop n
      let e1 : TxStream := { e with spent := e.spent + 1 }
      some (if e.opened then 0 else 1, (if e.opened then [] else headBytes t) ++ t.data.take n,
        if rest = [] then { e1 with queue := r, opened := false }
        else { e1 with queue := { t with data := rest } :: r, opened := true })

/-- A WT-A frame on every lane of a module or of the sideband. -/
def sendWtA (w : WideIx) (m : Fin 33) (s : State) : State :=
  emit (.frame w m (wtA m.val ((s.wide[w]).mods[m]).wtFrames)) (onMod w m (fun q => { q with wtFrames := q.wtFrames + 1 }) s)

/-- WT-A is due on a module's lanes: in steps 2 and 3 of training, on the sideband from step 1 on, whose end it makes (Table 11.5). -/
def wtTime (s : State) (w : WideIx) (m : Fin 33) : Bool :=
  let q := s.site[w.site]
  modUsed s w m.val && q.state == siTraining && (q.step == 2 || q.step == 3 || (q.step == 1 && m.val == 32))

/-- MODULE_FRAME_SEND: a frame of the slot's stream, or an idle frame; only idle frames while a repair is under way (Table 11.4), and WT-A in
its test and in training (R348). -/
def frameTx (w : WideIx) (m : Fin 32) (s : State) : State :=
  if modOn s w (mix m) = false then (if wtTime s w (mix m) then sendWtA w (mix m) s else s)
  else if modTests s w (mix m) then sendWtA w (mix m) (onMod w (mix m) (fun q => { q with txFrame := q.txFrame + 1 }) s)
  else
    let q := (s.wide[w]).mods[(mix m).val]
    let adv := onMod w (mix m) (fun q => { q with txFrame := q.txFrame + 1 })
    let idle := emit (.frame w (mix m) (frameLanes q.tx.good 2 [])) (adv s)
    match (if q.phase = .idle then slotStream (boundStreams s w m.val true) q.txFrame.toNat else none) with
    | none => idle
    | some k =>
      match aget (s.site[w.site]).tx k with
      | none => idle
      | some e =>
        match txNext 488 504 e with
        | some (t, b, e1) =>
          emit (.frame w (mix m) (frameLanes q.tx.good t b)) (modCount w (mix m) 6 1
            (onSite w.site (fun y => { y with tx := onStream y.tx k fun _ => e1 }) (adv s)))
        | none => if e.queue = [] then idle else modCount w (mix m) 7 (4 * spans q.tx.good) idle

/-- MODULE_FRAME_SEND. -/
def execModuleFrameSend (w : WideIx) (m : Fin 32) (s : State) : Host.Outcome State Fault Refusal := run (frameTx w m) s

/-! ### Repair (R341 to R343, Table 11.4) -/

/-- The modules of a site under repair. -/
def repairing (s : State) (w : WideIx) : Bool := (s.wide[w]).mods.toList.any fun q => q.phase != .idle

/-- The module, or the sideband, as a sideband message names it. -/
def modCode (m : Fin 33) : Byte := BitVec.ofNat 8 m.val

/-- A module index that a message body names. -/
def modOf (b : Byte) : Option (Fin 33) := if h : b.toNat < 33 then some ⟨b.toNat, h⟩ else none

/-- REPAIR_START: a due repair that may start does (R341): the request, and this end's ready (events 1 and 2). -/
def repairStart (w : WideIx) (m : Fin 33) (s : State) : State :=
  let q := (s.wide[w]).mods[m]
  if siteUp s w.site && modUsed s w m.val && q.due && q.phase == .idle && mayRepair s q.atCommit q.dueAt then
    sbSend w.site 0x12 (sbBody [modCode m, 1]) (sbSend w.site 0x12 (sbBody [modCode m, 0])
      (setSite w.site siRepair (onMod w m (fun q => { q with due := false, atCommit := false, phase := .requested, partnerReady := false, mapSeen := false }) s)))
  else s

/-- REPAIR_START. -/
def execRepairStart (w : WideIx) (m : Fin 33) (s : State) : Host.Outcome State Fault Refusal := run (repairStart w m) s

/-- REPAIR from the partner adapter: a request makes a repair due, unless this end has requested the same one; a ready starts the test (R341,
Tables 11.4 and 11.12). -/
def repairMsgW (w : WideIx) (b : List Byte) (s : State) : State :=
  match modOf (byteAt b 0) with
  | none => s
  | some m =>
    if byteAt b 1 = 0 then (if ((s.wide[w]).mods[m]).phase = .requested then s else onMod w m (Module.fallDue s.time) s)
    else if ((s.wide[w]).mods[m]).phase = .requested then
      onMod w m (fun q => { q with phase := .testing, partnerReady := true, wtLast := [], wtBad := 0 }) s
    else s

/-- LANE_MAP body: module, degraded flag, good set and frame (Table 11.9). -/
def laneMapBody (m : Fin 33) (good : BitVec 68) (f : Word) : List Byte :=
  sbBody ([modCode m, BitVec.ofNat 8 (b2n (laneWidth m.val good == 1))] ++ leBytes 9 good.toNat ++ leBytes 4 f.toNat)

/-- Lanes suspected three times or more since training are removed without a test (R341). -/
def thrice (d : LaneDir) : BitVec 68 := (d.count.filter fun e => decide (3 ≤ e.2)).foldl (fun v e => setBit v e.1) 0

/-- The good set that a receiving end decides after the test: only lanes removed (R342). -/
def testedGood (d : LaneDir) (noError : BitVec 68) : BitVec 68 := d.good &&& noError &&& ~~~ thrice d

/-- REPAIR_TEST_END: the receiver decides its good set, without the lanes on which its frames or its lane logic have found an error, and names the frame of the change, at least 64 ahead (Table 11.4). -/
def repairTested (w : WideIx) (m : Fin 33) (noError : BitVec 68) (s : State) : State :=
  let q := (s.wide[w]).mods[m]
  if q.phase ≠ .testing then s
  else
    let g := testedGood q.rx (noError &&& ~~~ q.wtBad)
    let f : Word := q.rxFrame + 64 + (Config.freeValue 6 s.fresh).setWidth 32
    let s1 := { onMod w m (fun q => { q with phase := .mapping, rx := { q.rx with nextMap := some (f, g), suspected := 0 } }) s with
      fresh := s.fresh + 1 }
    let s2 := if g = q.rx.good then s1 else eventBit clsCorrected blkWP w.val 5 s1
    sbSend w.site 0x11 (laneMapBody m g f) s2

/-- REPAIR_TEST_END. -/
def execRepairTestEnd (w : WideIx) (m : Fin 33) (noError : BitVec 68) (s : State) : Host.Outcome State Fault Refusal :=
  run (repairTested w m noError) s

/-- LANE_MAP from the partner adapter: the good set of the direction to it (Table 11.9). A lane that it removes is reported. -/
def laneMapMsgW (w : WideIx) (b : List Byte) (s : State) : State :=
  match modOf (byteAt b 0) with
  | none => s
  | some m =>
    let g := BitVec.ofNat 68 (bnat b 2 9)
    let s1 := onMod w m (fun q => { q with mapSeen := true, tx := { q.tx with nextMap := some (w32 (bnat b 11 4), g), suspected := 0 } }) s
    if ((s.wide[w]).mods[m]).tx.good &&& ~~~ g = 0 then s1 else eventBit clsCorrected blkWP w.val 5 s1

/-- A direction's map is applied if it is due at frame `f`. -/
def applyDir (f : Word) (d : LaneDir) : LaneDir :=
  match d.nextMap with
  | some (g, good) => if g = f then { d with good := good, nextMap := none } else d
  | none => d

/-- A module's repair is complete when both ends have named their maps and neither has one to come (Table 11.4 events 5 to 7). -/
def repairOver (q : Module) : Module :=
  if q.phase = .mapping ∧ q.mapSeen = true ∧ q.rx.nextMap = none ∧ q.tx.nextMap = none then { q with phase := .idle, partnerReady := false } else q

/-- The worse width of a module's directions: 0 full, 1 degraded, 2 failed (R340). -/
def modWidth (m : Nat) (q : Module) : Nat := max (laneWidth m q.rx.good) (laneWidth m q.tx.good)

/-- A module direction that was at full width has become degraded. -/
def newlyDegraded (m : Nat) (old new : Module) : Bool :=
  (laneWidth m old.rx.good == 0 && laneWidth m new.rx.good == 1) || (laneWidth m old.tx.good == 0 && laneWidth m new.tx.good == 1)

/-- What a map leaves of a module: a failed one contains the site, a direction that becomes degraded too without the degraded variant (R343). -/
def judgeModule (w : WideIx) (m : Fin 33) (before : Module) (s : State) : State :=
  let q := (s.wide[w]).mods[m]
  let now := modWidth m.val q
  if now = 2 then containSite w.site (if m.val = 32 then 7 else 5) 3 s
  else if newlyDegraded m.val before q then
    (if (siteRec s w.site).degraded then eventBit clsCorrected blkWP w.val 6 s
     else containSite w.site 6 3 (setEv blkWP w.val 6 s))
  else s

/-- Maps due at frame `f` are applied on every module; the site is Active again when no repair is left (Table 11.6). -/
def mapsApplyW (w : WideIx) (f : Word) (s : State) : State :=
  let one (q : Module) : Module := repairOver { q with rx := applyDir f q.rx, tx := applyDir f q.tx }
  let s1 := { s with wide := upd s.wide w fun y => { mods := y.mods.map one } }
  let s2 := (fins 33).foldl (fun t m =>
    if siteUp t w.site && modUsed t w m.val then judgeModule w m ((s.wide[w]).mods[m]) t else t) s1
  if (s2.site[w.site]).state = siRepair ∧ repairing s2 w = false then setSite w.site siActive s2 else s2

/-- PARITY: a report of an error in the TX direction, handled as if the EK2 had detected it (R367). In a repair test the lane fails the test, which
the partner adapter judges (Table 11.12). -/
def parityMsgW (w : WideIx) (b : List Byte) (s : State) : State :=
  match modOf (byteAt b 0) with
  | none => s
  | some m =>
    let ls := (List.range 68).filter fun k => (BitVec.ofNat 72 (bnat b 6 9)).getLsbD k
    let s1 := setEv blkWP w.val 9 s
    if modTests s w m then s1
    else if m.val = 32 then suspectTx w m ls s1
    else if byteAt b 1 = 2 then parityIdle w (suspectTx w m ls (modCount w m 4 1 s1))
    else if byteAt b 1 = 3 then parityContained w (modCount w m 5 1 s1)
    else parityContained w (suspectTx w m ls (modCount w m 3 1 s1))

/-! ### Training (R348, Table 11.5) -/

/-- The report that at least half of a set of good lanes agree on; without one no lane is good (R348). -/
def agreedReport (good : BitVec 68) (l : List (Nat × BitVec 68)) : BitVec 68 :=
  let own := l.filter fun e => good.getLsbD e.1
  let lanes (g : BitVec 68) : Nat := ((own.filter fun e => e.2 == g).map (·.1)).dedup.length
  ((own.find? fun e => decide (popc68 good ≤ 2 * lanes e.2)).map (·.2)).getD 0

/-- The good sets that step 3 finds: the lanes that the lane logic passes and on which no frame had an error, and what WT-B reports of the other
direction. Where no WT-B frame was spelled out, the operand is the agreed report. -/
def trainMaps (w : WideIx) (r : WideStep) (s : State) : State :=
  let one (y : WideSite) (m : Fin 33) : Module :=
    if modUsed s w m.val then
      let q := y.mods[m]
      let g := nth r.goodRx m.val 0 &&& ~~~ q.wtBad
      { q with rx := { good := g }, tx := { good := if q.reports = [] then nth r.goodTx m.val 0 else agreedReport g q.reports } }
    else y.mods[m]
  { s with wide := upd s.wide w fun y => { mods := vmk 33 (one y) } }

/-- A stream's bitmap within its module, as STREAM_MAP carries it. -/
def streamBits (m : Nat) (l : List Nat) : Nat := boolsNat ((List.range 16).map fun i => decide (16 * m + i ∈ l))

/-- What step 4 sends: LEVEL, STREAM_MAP for every module in use, CREDIT_INIT for every stream received (Table 11.5, R356). -/
def exchange (w : WideIx) (s : State) : State :=
  let ms := (List.range 32).filter fun m => modUsed s w m
  let rx := ms.flatMap fun m => let l := boundStreams s w m false; l.map fun k => (k, 256 / l.length)
  let tx := ms.flatMap fun m => boundStreams s w m true
  let s1 := onSite w.site (fun q => { q with
    sb := { up := true }
    rx := rx.map fun e => (e.1, { advertised := e.2 })
    tx := tx.map fun k => (k, {}) }) s
  let s2 := sbSend w.site 0x10 (sbBody [0, 2, 0, 2, 0, BitVec.ofNat 8 (b2n (s1.site[w.site]).penumbra)]) s1
  let s3 := ms.foldl (fun t m => sbSend w.site 0x14 (sbBody ([BitVec.ofNat 8 m] ++
    leBytes 2 (streamBits m (boundStreams s w m true)) ++ leBytes 2 (streamBits m (boundStreams s w m false)))) t) s2
  rx.foldl (fun t e => sbSend w.site 0x15 (sbBody (leBytes 2 e.1 ++ leBytes 2 e.2 ++ [0])) t) s3

/-- A module in use has failed, or the sideband has (R350). -/
def trainFailed (w : WideIx) (s : State) : Option Nat :=
  if laneWidth 32 (((s.wide[w]).mods[32]).rx.good) = 2 ∨ laneWidth 32 (((s.wide[w]).mods[32]).tx.good) = 2 then some 7
  else if (fins 32).any fun m => modUsed s w m.val && modWidth m.val ((s.wide[w]).mods[(mix m).val]) == 2 then some 5
  else none

/-- Modules that training left degraded are reported (Table 11.20). -/
def reportDegraded (w : WideIx) (s : State) : State :=
  if wpDegraded s w = 0 then s
  else eventBit (if (siteRec s w.site).degraded then clsCorrected else clsReported) blkWP w.val 6 s

/-- A lane-frame on the modules of a site in use and on its sideband. -/
def sendOnAll (w : WideIx) (f : Fin 33 → List DWord) (s : State) : State :=
  ((fins 33).filter fun m => modUsed s w m.val).foldl (fun t m => emit (.frame w m (f m)) t) s

/-- The WT-B pair that reports the good sets of step 3. -/
def sendReports (w : WideIx) (s : State) : State :=
  let good (m : Fin 33) : BitVec 68 := ((s.wide[w]).mods[m]).rx.good
  sendOnAll w (fun m => wtB m.val (good m) true) (sendOnAll w (fun m => wtB m.val (good m) false) s)

/-- Step 2 begins: the PRBS of every lane starts from its seed (R348). -/
def alignStart (w : WideIx) (s : State) : State :=
  { s with wide := upd s.wide w fun y => { mods := y.mods.map fun q => { q with wtFrames := 0 } } }

/-- Step 3 begins: errors count from here on. -/
def testStart (w : WideIx) (s : State) : State :=
  { s with wide := upd s.wide w fun y => { mods := y.mods.map fun q => { q with wtBad := 0, reports := [] } } }

/-- A training step ends at both ends (Table 11.5). -/
def wpStep (w : WideIx) (r : WideStep) (s : State) : State :=
  let q := s.site[w.site]
  let go (k : BitVec 4) : State → State := onSite w.site fun q => { q with step := k }
  if q.state ≠ siTraining then s
  else if q.step = 1 then alignStart w (go 2 s)
  else if q.step = 2 then testStart w (go 3 s)
  else if q.step = 3 then
    let s1 := sendReports w (trainMaps w r s)
    match trainFailed w s1 with
    | some reason => siteDisable w.site reason s1
    | none => exchange w (go 4 (reportDegraded w s1))
  else if q.step = 4 then (if q.levelSeen && q.tx.all (fun e => e.2.inited) then go 5 s else s)
  else if q.step = 5 then siteActive w.site (sendOnAll w (fun m => wtC m.val) s)
  else s

/-- WP_TRAINING_STEP. -/
def execWpTrainingStep (w : WideIx) (r : WideStep) (s : State) : Host.Outcome State Fault Refusal := run (wpStep w r) s

/-- WP_TRAINING_TIMEOUT: a step exceeded 10 ms (R350). Table 11.18 names no reason for it; 1, absent, is a DESIGN CHOICE (log entry 53). -/
def execWpTrainingTimeout (w : WideIx) (s : State) : Host.Outcome State Fault Refusal :=
  run (fun s => if (s.site[w.site]).state = siTraining then siteDisable w.site 1 s else s) s

/-! ### WP_CMD (R369) -/

/-- Holds a site in Reset; a Contained site only records the hold (Table 11.6). -/
def siteHold (x : SiteIx) (s : State) : State :=
  let s1 := onSite x (fun q => { q with hold := true }) s
  if (s.site[x]).state = siContained then s1 else siteReset x s1

/-- Releases a held site: its RSTN pulse of 1 µs follows. Leaving Reset's hold ends an Echo of its modules (R510). -/
def siteUnhold (x : SiteIx) (s : State) : State := endEchoSite x (onSite x (fun q => { q with hold := false }) s)

/-- The effect of an allowed WP_CMD, none when it is refused (R369). -/
def wpCmdEffect (code : Nat) (w : WideIx) (m : Fin 33) (s : State) : Option State :=
  let q := s.site[w.site]
  if code = 1 then (if q.state = siDisabled then some (siteReset w.site s) else none)
  else if code = 2 then (if 1 ≤ q.state.toNat ∧ q.state.toNat ≤ 6 then some (siteHold w.site s) else none)
  else if code = 3 then (if q.hold then some (siteUnhold w.site s) else none)
  else if code = 4 then
    (if siteUp s w.site && modUsed s w m.val then some (onMod w m (Module.fallDue s.time) s) else none)
  else none

/-- A WP_CMD write: stale, refused or carried out (R369). It is carried out at once, so busy reads 0 (DESIGN CHOICE, log entry 180). -/
def wpCmd (code : Nat) (v : Word) (s : State) : State :=
  let w : WideIx := fin! 4 (fld v 9 8)
  let put (r : Nat) (t : State) : State := { t with siteReg := { t.siteReg with wpCmd := (BitVec.ofNat 8 code, false, BitVec.ofNat 2 r) } }
  if fld v 31 16 ≠ (s.site[w.site]).epoch.toNat then flag blkWP w.val 10 (put 2 s)
  else match wpCmdEffect code w (fin! 33 (fld v 15 11)) s with
    | some t => put 1 (onSite w.site (fun q => { q with epoch := q.epoch + 1 }) t)
    | none => put 3 s

/-- WP_CMD_RETRAIN. -/
def execWpCmdRetrain (v : Word) (s : State) : Host.Outcome State Fault Refusal := regRow 0xE0000 v (wpCmd 1 v) s
/-- WP_CMD_HOLD. -/
def execWpCmdHold (v : Word) (s : State) : Host.Outcome State Fault Refusal := regRow 0xE0000 v (wpCmd 2 v) s
/-- WP_CMD_RELEASE. -/
def execWpCmdRelease (v : Word) (s : State) : Host.Outcome State Fault Refusal := regRow 0xE0000 v (wpCmd 3 v) s
/-- WP_CMD_REPAIR_MODULE. -/
def execWpCmdRepairModule (v : Word) (s : State) : Host.Outcome State Fault Refusal := regRow 0xE0000 v (wpCmd 4 v) s

end Sys2Proof.Machine
end

