-- ==== Sys2Proof/Machine/Reach.lean ====
section
/-!
DEFINITION. The Reach Port (chapter 12): markers, training frames, quads and their retest, sending codewords, the TP_CMD commands, pattern
generators and error injection.
-/

namespace Sys2Proof.Machine

/-- Quads named by a bitmap, ascending. -/
def quadsOf (v : BitVec 8) : List (Fin 8) := (fins 8).filter fun q => v.getLsbD q.val

/-- Number of quads in a bitmap. -/
def quadCount (v : BitVec 8) : Nat := (quadsOf v).length

/-- The quad of a lane. -/
def quadOf (l : Fin 32) : Fin 8 := ⟨l.val / 4, by omega⟩

/-- The four lanes of a quad. -/
def lanesOf (q : Fin 8) : List (Fin 32) := (fins 32).filter fun l => l.val / 4 == q.val

/-- Fewest good quads with which a site of `n` quads is not failed (R383, R390). -/
def quadsNeeded (n : Nat) : Nat := (n + 1) / 2

/-- Adds to a lane counter: 0 corrected symbols, 1 bip errors, 2 checker errors, 3 injected (Table 12.17). -/
def tpLaneCount (t : ReachIx) (l : Fin 32) (k : Fin 4) (n : Nat) (s : State) : State :=
  onLane t l (fun r => { r with counters := upd r.counters k (· + BitVec.ofNat 64 n) }) s

/-- Adds one to a counter of the site (Tables 11.17, 12.17). -/
def siteCount (x : SiteIx) (k : Fin 16) (n : Nat) (s : State) : State :=
  onSite x (fun q => { q with counters := upd q.counters k (· + BitVec.ofNat 64 n) }) s

/-! ### Suspected lanes (R388) -/

/-- A lane is suspected and the retest of its quad due, without a log record of its own. -/
def suspectQuiet (t : ReachIx) (l : Fin 32) (s : State) : State :=
  setEv blkTP t.val 4 (onLane t l (fun y => { y with state := 2 }) (onReach t (ReachSite.fallDue s.time (quadOf l)) s))

/-- A lane is suspected: Corrected (R388, Table 12.12). -/
def suspectLane (t : ReachIx) (l : Fin 32) (s : State) : State := logEvent clsCorrected blkTP 5 t.val (suspectQuiet t l s)

/-- A quad is good at this site (R382, R389). -/
def quadGood (s : State) (t : ReachIx) (q : Fin 8) : Bool := (s.reach[t]).good.getLsbD q.val

/-- A quad is in service (R376, R389). -/
def quadServes (s : State) (t : ReachIx) (q : Fin 8) : Bool := siteUp s t.site && (s.reach[t]).inService.getLsbD q.val

/-- The FOM below which a lane is suspected, in 0.25 dB (12.0 dB, R388). -/
def fomLow : Nat := 48

/-- The FOM that qualifies a lane, in 0.25 dB (14.0 dB, Table 12.8). -/
def fomPass : Nat := 56

/-- A FOM window of a lane ends (R381, R388). -/
def fomWindow (t : ReachIx) (l : Fin 32) (fom : Byte) (s : State) : State :=
  let y := (s.reach[t]).lanes[l]
  let s1 := onLane t l (fun r => { r with
    fom := fom
    lowSince := if fom.toNat < fomLow then some (y.lowSince.getD s.time) else none }) s
  match y.lowSince with
  | some t0 => if fom.toNat < fomLow ∧ t0 + 10000 ≤ s.time ∧ siteUp s t.site ∧ quadGood s t (quadOf l) then suspectLane t l s1 else s1
  | none => s1

/-- FOM_MEASUREMENT. -/
def execFomMeasurement (t : ReachIx) (lane : Fin 32) (fom : Byte) (s : State) : Host.Outcome State Fault Refusal := run (fomWindow t lane fom) s

/-- What came in the 1 ms before `now`. -/
def inLastMs (now : Nat) (l : List (Nat × Nat)) : List (Nat × Nat) := l.filter fun e => decide (now < e.1 + 1000)

/-- Corrected symbols of a lane in the 1 ms before `now` (R388). -/
def msSum (now : Nat) (y : ReachLane) : Nat := ((inLastMs now y.recent).map (·.2)).sum

/-- Corrected symbols of a lane; more than 11,200 in the preceding 1 ms make it suspected (R388). -/
def laneCorrected (t : ReachIx) (l : Fin 32) (n : Nat) (s : State) : State :=
  if n = 0 then s
  else
    let y := (s.reach[t]).lanes[l]
    let s1 := tpLaneCount t l 0 n (onLane t l (fun r => { r with recent := (s.time, n) :: inLastMs s.time r.recent }) s)
    if 11200 < msSum s.time y + n ∧ y.state ≠ 2 then suspectLane t l s1 else s1

/-- The lane of a quad with the most corrected symbols in the preceding 1 ms (R388). -/
def worstLane (s : State) (t : ReachIx) (q : Fin 8) : Fin 32 :=
  let n (l : Fin 32) : Nat := msSum s.time (s.reach[t]).lanes[l]
  (lanesOf q).foldl (fun a l => if n a < n l then l else a) (fin! 32 (4 * q.val))

/-! ### Markers (R377, Table 12.4) -/

/-- The marker pattern. -/
def tpPattern : List Byte := [0x3C, 0xC3, 0x69, 0x96, 0x0F, 0xF0, 0x5A, 0xA5]

/-- The injection of a kind that is armed at a side of a site (R394). -/
def armedFor (s : State) (t : ReachIx) (kind : Nat) (side : Bool) : Bool :=
  let j := (s.reach[t]).inject
  j.armed && j.kind.toNat == kind && j.side == side

/-- An armed injection has been placed. -/
def placed (t : ReachIx) (s : State) : State := onReach t (fun r => { r with inject := { r.inject with armed := false } }) s

/-- A marker whose pattern is missing: three in a row lose the lane's alignment. -/
def markerMissed (t : ReachIx) (l : Fin 32) (s : State) : State :=
  onLane t l (fun y => { y with missed := min 3 (y.missed + 1), aligned := y.aligned && decide (y.missed + 1 < 3), seen := false }) s

/-- A marker with its pattern: alignment, marker count, bip and the partner's FOM. -/
def markerGood (t : ReachIx) (l : Fin 32) (raw : List Byte) (bip : Byte) (s : State) : State :=
  let count := w32 (bnat raw 10 4)
  let s1 := onReach t (fun r => { r with
    rxMarker := count
    rxIndex := upd r.rxIndex (quadOf l) fun _ => count * 1024
    lanes := upd r.lanes l fun y => { y with seen := true, aligned := y.aligned || y.seen, missed := 0, peerFom := byteAt raw 15 } }) s
  if byteAt raw 14 = bip ∨ siteUp s t.site = false then s1
  else suspectLane t l (tpLaneCount t l 1 1 s1)

/-- LANE_MARKER: a marker is received on a lane; `bip` is the parity of the bits received since the one before. -/
def markerRx (t : ReachIx) (l : Fin 32) (raw : List Byte) (bip : Byte) (s : State) : State :=
  if (s.site[t.site]).state = siTraining ∨ siteUp s t.site then
    if armedFor s t 3 true && (s.reach[t]).inject.lane.toNat == l.val then markerMissed t l (tpLaneCount t l 3 1 (placed t s))
    else if raw.take 8 = tpPattern then markerGood t l raw bip s
    else markerMissed t l s
  else s

/-- LANE_MARKER. -/
def execLaneMarker (t : ReachIx) (lane : Fin 32) (raw : List Byte) (bip : Byte) (s : State) : Host.Outcome State Fault Refusal :=
  run (markerRx t lane raw bip) s

/-- The 40 bytes of a marker sent on a lane. -/
def markerBytes (t : ReachIx) (l : Fin 32) (count : Word) (y : ReachLane) : List Byte :=
  tpPattern ++ [BitVec.ofNat 8 l.val, BitVec.ofNat 8 t.val] ++ leBytes 4 count.toNat ++ [y.txBip, y.fom] ++ List.replicate 24 0

/-- A byte that is not 0. -/
def nonZero (b : Byte) : Byte := if b = 0 then 1 else b

/-- A marker goes onto a lane, as levels too (R373, R377). -/
def emitMarker (t : ReachIx) (l : Fin 32) (raw : List Byte) (s : State) : State :=
  emit (.levels t l (pamLevels (bitsOf raw))) (emit (.laneMarker t l raw) s)

/-- One lane's marker, its pattern corrupted when that injection is armed for it. -/
def sendMarker (t : ReachIx) (s : State) (l : Fin 32) : State :=
  let r := s.reach[t]
  let raw := markerBytes t l r.txMarker r.lanes[l]
  let s1 := onLane t l (fun y => { y with txBip := 0 }) s
  if armedFor s t 3 false && r.inject.lane.toNat == l.val then
    { emitMarker t l (lupd raw 0 (· ^^^ nonZero (Config.freeValue 8 s.fresh))) (tpLaneCount t l 3 1 (placed t s1)) with fresh := s.fresh + 1 }
  else emitMarker t l raw s1

/-- TP_MARKER_SEND: every lane of the site sends a marker, and the codeword index follows its count. -/
def tpMarkers (t : ReachIx) (s : State) : State :=
  let q := s.site[t.site]
  if siteUp s t.site ∨ (q.state = siTraining ∧ 3 ≤ q.step.toNat) then
    let s1 := ((fins 32).filter fun l => (siteRec s t.site).laneMask.getLsbD l.val).foldl (sendMarker t) s
    onReach t (fun r => { r with txIndex := Vector.replicate 8 (r.txMarker * 1024), txMarker := r.txMarker + 1 }) s1
  else s

/-- TP_MARKER_SEND. -/
def execTpMarkerSend (t : ReachIx) (s : State) : Host.Outcome State Fault Refusal := run (tpMarkers t) s

/-! ### Training frames and taps (R379, R380) -/

/-- CRC-8 of a training frame word: polynomial 0x07, initial value 0, over bits [23:0] in the order they are sent. -/
def crc8 (w : Word) : Byte :=
  (List.range 24).foldl (fun c i => crcBit (0x07 : Byte) (if w.getLsbD i then c ^^^ 0x80 else c)) 0

/-- The word's CRC-8 holds. -/
def crc8Ok (w : Word) : Bool := fld w 31 24 == (crc8 w).toNat

/-- The taps c(−2), c(−1), c(+1), c(+2) of a preset (Table 12.7). -/
def presetTaps (n : Nat) : Vector Int 4 :=
  if n = 2 then #v[0, -4, 0, 0] else if n = 3 then #v[0, -8, -2, 0] else if n = 4 then #v[2, -12, -4, 0] else #v[0, 0, 0, 0]

/-- The range of a tap (Table 12.7). -/
def tapRange (i : Fin 4) : Int × Int := if i.val = 0 ∨ i.val = 3 then (-4, 4) else (-16, 0)

/-- A tap request: hold clears the response; a request not yet answered moves the tap, or meets its limit or that of c(0). -/
def tapRequest (i : Fin 4) (req : Nat) (y : ReachLane) : ReachLane :=
  if req = 0 then { y with resp := upd y.resp i fun _ => 0 }
  else if req = 3 ∨ y.resp[i] ≠ 0 then y
  else
    let v := y.taps[i] + (if req = 1 then 1 else -1)
    let taps := upd y.taps i fun _ => v
    if v < (tapRange i).1 ∨ (tapRange i).2 < v then { y with resp := upd y.resp i fun _ => 2 }
    else if tapC0 taps < 32 then { y with resp := upd y.resp i fun _ => 3 }
    else { y with taps := taps, resp := upd y.resp i fun _ => 1 }

/-- What a control word asks of a lane's transmitter (Table 12.6). -/
def controlWord (w : Word) (y : ReachLane) : ReachLane :=
  let p := fld w 10 8
  let y1 : ReachLane := { y with partnerDone := bit w 11 }
  if 1 ≤ p ∧ p ≤ 4 then { y1 with taps := presetTaps p, preset := BitVec.ofNat 3 p }
  else (fins 4).foldl (fun z i => tapRequest i (fld w (2 * i.val + 1) (2 * i.val)) z) y1

/-- The status word that this end's transmitter shows on a lane (Table 12.6). -/
def statusWord (step : Nat) (y : ReachLane) : Word :=
  let w := w32 ((fins 4).foldl (fun n i => n + (y.resp[i]).toNat * 2 ^ (2 * i.val)) 0 + y.preset.toNat * 2 ^ 8 +
    b2n y.locked * 2 ^ 11 + step * 2 ^ 12 + y.fom.toNat * 2 ^ 16)
  w ||| w32 ((crc8 w).toNat * 2 ^ 24)

/-- The quad is out of service for the retest under way (R389). -/
def inRetest (s : State) (t : ReachIx) (q : Fin 8) : Bool :=
  siteUp s t.site && (s.reach[t]).retest == some q && !quadServes s t q

/-- The quad qualifies in the retest under way: step 3 of Table 12.8 (Table 12.9 event 4). -/
def qualifies (s : State) (t : ReachIx) (q : Fin 8) : Bool := inRetest s t q && (s.reach[t]).qualAt.isSome

/-- The lanes of a quad run training frames: in steps 1 and 2, or while the quad equalises in a retest (R379, R389). -/
def quadTrains (s : State) (t : ReachIx) (q : Fin 8) : Bool :=
  let x := s.site[t.site]
  (x.state == siTraining && (x.step == 1 || x.step == 2)) || (inRetest s t q && !qualifies s t q)

/-- A lane takes training frames. -/
def inTraining (s : State) (t : ReachIx) (l : Fin 32) : Bool :=
  (siteRec s t.site).laneMask.getLsbD l.val && quadTrains s t (quadOf l)

/-- The step that a lane's training frames show: the site's, or step 2 in a retest. -/
def laneStep (s : State) (t : ReachIx) : Nat := if (s.site[t.site]).state = siTraining then (s.site[t.site]).step.toNat else 2

/-- A tap's request after the partner's response: kept until one is shown, then hold, and a new one from hold (R380). Which is asked is the
receiver's own choice, `free`. -/
def nextRequest (shown : Nat) (now free : BitVec 2) : BitVec 2 :=
  if now ≠ 0 then (if shown = 0 then now else 0) else if shown ≠ 0 ∨ free = 3 then 0 else free

/-- FOM rose by less than 0.1 dB from `old` to `new`: a fall is such, a step of 0.25 dB or none may be either, which is the receiver's to see
(`free`), and two steps are more (R382). -/
def fomFlat (old new : Byte) (free : Bool) : Bool := decide (new.toNat < old.toNat) || (free && decide (new.toNat ≤ old.toNat + 1))

/-- 16 requests in a row have raised a lane's FOM by less than 0.1 dB (Table 12.8 step 2). -/
def gainOver (free : Bool) (y : ReachLane) : Bool :=
  match y.asked[15]? with
  | some f => fomFlat f y.fom free
  | none => false

/-- What this end asks of the partner's transmitter on a lane, in step 2, after a status word: the requests, and done when 16 requests in a row
brought too little, or 3 ms after the step began (R380 to R382). DEDUCED (log entry 197): with done a request still open stays until it is
answered, and none is made. -/
def ownRequests (status : Word) (s : State) (stepAt : Nat) (y : ReachLane) : ReachLane :=
  let d := y.done || decide (stepAt + 3000 ≤ s.time) || gainOver (Config.freeChoice (s.fresh + 2)) y
  let free (i : Fin 4) : BitVec 2 := if d then 0 else BitVec.ofNat 2 ((Config.freeValue 8 s.fresh).toNat / 4 ^ i.val)
  let reqs : Vector (BitVec 2) 4 := vmk 4 fun i =>
    if crc8Ok status then nextRequest (fld status (2 * i.val + 1) (2 * i.val)) y.reqs[i] (free i) else y.reqs[i]
  let news := ((fins 4).filter fun i => y.reqs[i] == 0 && reqs[i] != 0).map fun _ => y.fom
  { y with done := d, reqs := reqs, asked := (news ++ y.asked).take 16 }

/-- The control word that this end sends on a lane (Table 12.6); the preset asked for is the receiver's choice, none when done or in step 1. -/
def ownControl (l : Fin 32) (preset : Nat) (y : ReachLane) : Word :=
  let w := w32 ((fins 4).foldl (fun n i => n + (y.reqs[i]).toNat * 2 ^ (2 * i.val)) 0 + preset % 5 * 2 ^ 8 + b2n y.done * 2 ^ 11 + l.val * 2 ^ 16)
  w ||| w32 ((crc8 w).toNat * 2 ^ 24)

/-- A training frame goes out on a lane: its words, and its levels, the PRBS running on from its seed (R379). -/
def sendTrainFrame (t : ReachIx) (l : Fin 32) (preset : Nat) (s : State) : State :=
  let y := (s.reach[t]).lanes[l]
  let p := prbs13 (if y.prbs = 0 then BitVec.ofNat 13 (l.val + 1) else y.prbs)
  let c := ownControl l preset y
  let v := statusWord (laneStep s t) y
  emit (.levels t l (trainLevels c v p.1)) (emit (.trainWord t l c v) (onLane t l (fun y => { y with prbs := p.2 }) s))

/-- What a received training frame does to its lane: frame lock, and its control word carried out (R380). -/
def frameOnLane (control : Word) (y : ReachLane) : ReachLane :=
  let y1 : ReachLane := { y with locked := true }
  if crc8Ok control then controlWord control y1 else y1

/-- The next training frame of a lane goes out; in step 2 it may ask for a preset, which is the receiver's choice, until done is shown. -/
def nextTrainFrame (t : ReachIx) (l : Fin 32) (s : State) : State :=
  let asks := decide (laneStep s t = 2) && !((s.reach[t]).lanes[l]).done
  sendTrainFrame t l (if asks then (Config.freeValue 3 s.fresh).toNat else 0) { s with fresh := s.fresh + 1 }

/-- Done is shown in both directions on every locked lane of a list (Table 12.8 step 2). -/
def doneOn (r : ReachSite) (ls : List (Fin 32)) : Bool :=
  ls.all fun l => let y := r.lanes[l]; !y.locked || (y.done && y.partnerDone)

/-- The quad under retest goes on to qualify when its lanes have equalised (Table 12.9 event 4, Table 12.8 steps 2 and 3). -/
def qualBegin (now : Nat) (l : Fin 32) (r : ReachSite) : ReachSite :=
  if r.retest = some (quadOf l) ∧ r.qualAt = none ∧ doneOn r (lanesOf (quadOf l)) then
    { r with qualAt := some now, qualBad := false,
             lanes := (lanesOf (quadOf l)).foldl (fun v k => upd v k fun y => { y with qual := 0 }) r.lanes }
  else r

/-- A training frame: the lane has frame lock, its words are answered, and this end's frame is sent (R379, R380). -/
def trainFrame (t : ReachIx) (l : Fin 32) (control status : Word) (s : State) : State :=
  if inTraining s t l = false then s
  else
    let equalise := laneStep s t = 2
    let s1 := onReach t (fun r => { r with
      lockAt := if r.lanes[l].locked then r.lockAt else s.time
      lanes := upd r.lanes l fun y =>
        let y1 := frameOnLane control y
        if equalise then ownRequests status s r.stepAt y1 else y1 }) s
    onReach t (qualBegin s.time l) (nextTrainFrame t l { s1 with fresh := s.fresh + 3 })

/-- TRAINING_FRAME. -/
def execTrainingFrame (t : ReachIx) (lane : Fin 32) (control status : Word) (s : State) : Host.Outcome State Fault Refusal :=
  run (trainFrame t lane control status) s

/-! ### Lane maps (R383, R389, R390) -/

/-- LANE_MAP of a Reach Port site: good quads, quads in service and the index (R383). -/
def quadMapBody (q : Nat) (good serve : BitVec 8) (f : Word) : List Byte :=
  sbBody ([0x40, BitVec.ofNat 8 (b2n (decide (quadCount good < q))), good, serve] ++ List.replicate 7 0 ++ leBytes 4 f.toNat)

/-- The latest index that a quad of the site is to send (R377: indices compare by their signed difference). -/
def latestIndex (s : State) (t : ReachIx) : Word :=
  let ix (q : Fin 8) : Word := (s.reach[t]).txIndex[q]
  match quadsOf (quadMask s t) with
  | [] => 0
  | q :: l => l.foldl (fun a k => if sval 32 (ix k - a).toNat < 0 then a else ix k) (ix q)

/-- This end names good quads and quads in service from an index at least 64 codewords ahead of every quad. -/
def sendQuadMap (t : ReachIx) (good serve : BitVec 8) (s : State) : State :=
  let f : Word := latestIndex s t + 64 + (Config.freeValue 6 s.fresh).setWidth 32
  sbSend t.site 0x11 (quadMapBody (quadCount (quadMask s t)) good serve f)
    { onReach t (fun r => { r with ownMap := some (good, serve, f) }) s with fresh := s.fresh + 1 }

/-- LANE_MAP from the partner adapter of a Reach Port site. -/
def laneMapMsgR (t : ReachIx) (b : List Byte) (s : State) : State :=
  if byteAt b 0 = 0x40 then
    onReach t (fun r => { r with partnerMap := some (byteAt b 2, byteAt b 3, w32 (bnat b 11 4)) }) s
  else s

/-- LANE_MAP: of a module of a Wide Port, or of the quads of a Reach Port (R342, R383). -/
def laneMapMsg (x : SiteIx) (b : List Byte) (s : State) : State :=
  match wideOf x, reachOf x with
  | some w, _ => laneMapMsgW w b s
  | none, some t => laneMapMsgR t b s
  | none, none => s

/-- LANE_MAP. -/
def execLaneMap (x : SiteIx) (raw : List Byte) (s : State) : Host.Outcome State Fault Refusal := sbRow x raw 0x11 (laneMapMsg x) s

/-- The maps of a Reach Port that name an index take effect there. -/
def dueMaps (f : Word) (r : ReachSite) : ReachSite :=
  let r1 : ReachSite := match r.ownMap with
    | some (g, v, i) => if i = f then { r with ownNow := (g, v), ownMap := none } else r
    | none => r
  match r1.partnerMap with
  | some (g, v, i) => if i = f then { r1 with partnerNow := (g, v), partnerMap := none } else r1
  | none => r1

/-- The quad under retest is back, in service or not good, at this end and no map is to come. -/
def retestOver (r : ReachSite) : Bool :=
  match r.retest with
  | some q => r.ownMap.isNone && r.partnerMap.isNone && (r.inService.getLsbD q.val || !r.good.getLsbD q.val)
  | none => false

/-- Fewer good quads than before: degraded, or failed (R390). -/
def judgeQuads (t : ReachIx) (before : Nat) (s : State) : State :=
  let g := quadCount (s.reach[t]).good
  let q := quadCount (quadMask s t)
  if g = before then s
  else if g < quadsNeeded q then containSite t.site 5 3 s
  else if g < q ∧ before = q then
    (if (siteRec s t.site).degraded then eventBit clsCorrected blkTP t.val 6 s else containSite t.site 6 3 (setEv blkTP t.val 6 s))
  else s

/-- Equalisation begins on lanes (step 2 of Table 12.8): nothing is done or asked yet. -/
def equaliseStart (now : Nat) (ls : List (Fin 32)) (r : ReachSite) : ReachSite :=
  { r with
    stepAt := now
    lanes := ls.foldl (fun v l => upd v l fun y =>
      { y with done := false, partnerDone := false, asked := [], reqs := Vector.replicate 4 0 }) r.lanes }

/-- The first frame of lanes is to come: the PRBS starts from its seed (R379). -/
def firstFrames (ls : List (Fin 32)) (r : ReachSite) : ReachSite :=
  { r with lanes := ls.foldl (fun v l => upd v l fun y => { y with prbs := 0 }) r.lanes }

/-- The quad under retest leaves service at this index: its lanes equalise (Table 12.9 event 4). -/
def retestLeaves (now : Nat) (before after : ReachSite) : ReachSite :=
  match after.retest with
  | some q =>
    if before.inService.getLsbD q.val && !after.inService.getLsbD q.val then
      firstFrames (lanesOf q) (equaliseStart now (lanesOf q) { after with qualAt := none, qualBad := false })
    else after
  | none => after

/-- The quad under retest is back and not good, whichever end's map dropped it: quad_out (Table 12.19). -/
def quadOut (t : ReachIx) (q : Fin 8) (s : State) : State :=
  if (s.reach[t]).good.getLsbD q.val then s else eventBit clsCorrected blkTP t.val 5 s

/-- Index f of a Reach Port is reached (R389). -/
def mapsApplyR (t : ReachIx) (f : Word) (s : State) : State :=
  if siteUp s t.site = false then s
  else
    let before := quadCount (s.reach[t]).good
    let u := onReach t (fun r => retestLeaves s.time r (dueMaps f r)) s
    match (u.reach[t]).retest with
    | some q =>
      if retestOver (u.reach[t]) then
        let s1 := judgeQuads t before (quadOut t q u)
        if siteUp s1 t.site then setSite t.site siActive (onReach t (fun r => { r with retest := none, partnerReady := false }) s1) else s1
      else judgeQuads t before u
    | none => judgeQuads t before u

/-- LANE_MAP_APPLY: frame f of a Wide Port, or index f of a Reach Port, is reached. -/
def mapsApply (x : SiteIx) (f : Word) (s : State) : State :=
  match wideOf x, reachOf x with
  | some w, _ => mapsApplyW w f s
  | none, some t => mapsApplyR t f s
  | none, none => s

/-! ### Retest (R388, R389, Table 12.9) -/

/-- The good quads that are due and may start, ascending (R388, Table 12.13). -/
def retestable (s : State) (t : ReachIx) : List (Fin 8) :=
  let r := s.reach[t]
  (quadsOf (r.due &&& r.good)).filter fun q => mayRepair s (r.atCommit.getLsbD q.val) r.dueAt[q]

/-- RETEST_START: the lowest due quad is retested, one at a time, one per commit (Table 12.13). -/
def retestStart (t : ReachIx) (s : State) : State :=
  match retestable s t with
  | q :: _ =>
    if siteUp s t.site ∧ (s.reach[t]).retest = none then
      sbSend t.site 0x12 (sbBody [BitVec.ofNat 8 (0x40 + q.val), 0]) (setSite t.site siRepair (onReach t (fun r => { r with
        due := clrBit r.due q.val, atCommit := 0, retest := some q, retestAt := s.time, partnerReady := false }) s))
    else s
  | [] => s

/-- RETEST_START. -/
def execRetestStart (t : ReachIx) (s : State) : Host.Outcome State Fault Refusal := run (retestStart t) s

/-- The quad that the first byte of a REPAIR names. -/
def repairQuad (b : Byte) : Option (Fin 8) := if h : 0x40 ≤ b.toNat ∧ b.toNat < 0x48 then some ⟨b.toNat - 0x40, by omega⟩ else none

/-- REPAIR of a Reach Port: a request makes a retest due; a ready lets this end take the quad out of service. -/
def repairMsgR (t : ReachIx) (b : List Byte) (s : State) : State :=
  match repairQuad (byteAt b 0) with
  | none => s
  | some q =>
    let r := s.reach[t]
    if byteAt b 1 = 0 then onReach t (ReachSite.fallDue s.time q) s
    else if byteAt b 1 = 1 ∧ r.retest = some q ∧ r.partnerReady = false then
      sendQuadMap t r.good (clrBit r.inService q.val) (onReach t (fun r => { r with partnerReady := true }) s)
    else s

/-- REPAIR. -/
def repairMsg (x : SiteIx) (b : List Byte) (s : State) : State :=
  match wideOf x, reachOf x with
  | some w, _ => repairMsgW w b s
  | none, some t => repairMsgR t b s
  | none, none => s

/-- REPAIR. -/
def execRepair (x : SiteIx) (raw : List Byte) (s : State) : Host.Outcome State Fault Refusal := sbRow x raw 0x12 (repairMsg x) s

/-- PARITY: a report on a Wide Port, a reserved type on a Reach Port (R367, R383). -/
def parityMsg (x : SiteIx) (b : List Byte) (s : State) : State :=
  match wideOf x with
  | some w => parityMsgW w b s
  | none => reservedMsg x s

/-- A lane of the quad under retest passes step 3 of Table 12.8: frame lock, done in both directions, at most 1,120 corrected symbols and FOM of
14.0 dB or more. -/
def retestLane (y : ReachLane) : Bool :=
  y.locked && y.done && y.partnerDone && decide (y.qual ≤ 1120) && decide (fomPass ≤ y.fom.toNat)

/-- The quad under retest qualifies (Table 12.9 event 4, Table 12.8 step 3): its four lanes pass, and no uncorrectable codeword came. -/
def retestPasses (r : ReachSite) (q : Fin 8) : Bool := r.qualAt.isSome && !r.qualBad && (lanesOf q).all fun l => retestLane r.lanes[l]

/-- The retest may end: 1 ms of counting is over, or the 5 ms that it may take (Table 12.8 step 3, Table 12.9 event 5). -/
def retestRipe (now : Nat) (r : ReachSite) : Bool :=
  (match r.qualAt with
   | some a => decide (a + 1000 ≤ now)
   | none => false) || decide (r.retestAt + 5000 ≤ now)

/-- RETEST_COMPLETE: the quad returns to service, or is not good, from an index f′ (Table 12.9 event 5). It passes when it qualifies and `ok`,
what the receivers saw beside what the state holds, is true (log entry 218). -/
def retestEnd (t : ReachIx) (ok : Bool) (s : State) : State :=
  let r := s.reach[t]
  match r.retest with
  | none => s
  | some q =>
    if siteUp s t.site = false ∨ r.inService.getLsbD q.val ∨ r.ownMap.isSome ∨ retestRipe s.time r = false then s
    else
      let pass := ok && retestPasses r q
      let mark (y : ReachLane) : ReachLane :=
        if pass then { y with state := 1, lowSince := none } else if y.state = 2 then { y with state := 3 } else y
      let s1 := (lanesOf q).foldl (fun a l => onLane t l mark a) s
      if pass then sendQuadMap t (setBit r.ownNow.1 q.val) (setBit r.ownNow.2 q.val) s1
      else sendQuadMap t (clrBit r.ownNow.1 q.val) r.ownNow.2 s1

/-- RETEST_COMPLETE. -/
def execRetestComplete (t : ReachIx) (pass : Bool) (s : State) : Host.Outcome State Fault Refusal := run (retestEnd t pass) s

/-! ### Training (R382, Table 12.8) -/

/-- Lane `l` passes step 3 of training. -/
def lanePasses (r : ReachStep) (l : Nat) : Bool :=
  match r.lanes[l]? with
  | some y => y.locked && decide (y.corrected ≤ 1120) && decide (fomPass ≤ y.fom.toNat) && !y.uncorrectable
  | none => false

/-- A quad is good at this end when its four lanes pass. -/
def quadPasses (r : ReachStep) (q : Fin 8) : Bool := (lanesOf q).all fun l => lanePasses r l.val

/-- The lanes as step 3 leaves them. -/
def judgeLanes (s : State) (t : ReachIx) (r : ReachStep) (y : ReachSite) : ReachSite :=
  { y with lanes := vmk 32 fun l =>
      match r.lanes[l.val]? with
      | some m =>
        if (siteRec s t.site).laneMask.getLsbD l.val then
          { y.lanes[l] with state := if lanePasses r l.val then 1 else 3, fom := m.fom, ctle := m.ctle, locked := m.locked }
        else y.lanes[l]
      | none => y.lanes[l] }

/-- Bytes of STREAM_MAP of a group of 16 streams (R383). -/
def groupMap (g : Nat) (tx rx : List Nat) : List Byte :=
  sbBody ([BitVec.ofNat 8 g] ++ leBytes 2 (streamBits g tx) ++ leBytes 2 (streamBits g rx))

/-- What step 4 sends: LEVEL, STREAM_MAP of every group with a bound stream, CREDIT_INIT of every stream received (R383, R384). -/
def exchangeR (t : ReachIx) (s : State) : State :=
  let rx := reachStreams s t false
  let tx := reachStreams s t true
  let n := 1024 / rx.length
  let s1 := onSite t.site (fun q => { q with
    rx := rx.map fun k => (k, { advertised := n })
    tx := tx.map fun k => (k, {}) }) s
  let s2 := sbSend t.site 0x10 (sbBody [0, 2, 0, 2, 0, BitVec.ofNat 8 (b2n (s1.site[t.site]).penumbra)]) s1
  let s3 := ((List.range 32).filter fun g => (rx ++ tx).any fun k => k / 16 == g).foldl
    (fun a g => sbSend t.site 0x14 (groupMap g tx rx) a) s2
  rx.foldl (fun a k => sbSend t.site 0x15 (sbBody (leBytes 2 k ++ leBytes 2 n ++ [0])) a) s3

/-- Step 3 ends: lanes judged, quads good at both ends, LANE_MAP exchanged; too few good quads fail the training (R383), and fewer than all of
them contain a site whose degraded variant is absent (R390, Table 12.12). -/
def qualify (t : ReachIx) (r : ReachStep) (s : State) : State :=
  let mask := quadMask s t
  let own := BitVec.ofNat 8 (boolsNat ((fins 8).map fun q => mask.getLsbD q.val && quadPasses r q))
  let good := own &&& r.partnerGood
  let s1 := onReach t (fun y => { judgeLanes s t r y with ownNow := (own, 0), partnerNow := (r.partnerGood, 0) }) s
  if quadCount good < quadsNeeded (quadCount mask) then siteDisable t.site 5 s1
  else if quadCount good < quadCount mask ∧ (siteRec s t.site).degraded = false then
    containSite t.site 6 3 (setEv blkTP t.val 6 s1)
  else
    let s2 := onSite t.site (fun q => { q with step := 4, sb := { up := true } }) s1
    let s3 := sbSend t.site 0x11 (quadMapBody (quadCount mask) own 0 0) s2
    exchangeR t (if quadCount good < quadCount mask then eventBit clsCorrected blkTP t.val 6 s3 else s3)

/-- The site is Active from index f with its good quads in service (Table 12.8 step 5). -/
def reachStart (t : ReachIx) (s : State) : State :=
  siteActive t.site (onReach t (fun r => { r with
    ownNow := (r.ownNow.1, r.good), partnerNow := (r.partnerNow.1, r.good), ownMap := none, partnerMap := none }) s)

/-- The lanes of lane_mask. -/
def laneSet (s : State) (t : ReachIx) : List (Fin 32) := (fins 32).filter fun l => (siteRec s t.site).laneMask.getLsbD l.val

/-- Equalisation is done in both directions on every locked lane of lane_mask (Table 12.8 step 2). -/
def equalised (s : State) (t : ReachIx) : Bool := doneOn (s.reach[t]) (laneSet s t)

/-- Step 1 may end: every lane that receives has frame lock, or 1 ms has passed since the last lane locked. Whether a lane without lock receives
at all is open, `free` (Table 12.8). -/
def framesLocked (s : State) (t : ReachIx) (free : Bool) : Bool :=
  let r := s.reach[t]
  let some := (laneSet s t).any fun l => r.lanes[l].locked
  let all := (laneSet s t).all fun l => r.lanes[l].locked
  some && (all || free || decide (r.lockAt + 1000 ≤ s.time))

/-- A Reach Port training step ends (Table 12.8). -/
def tpStep (t : ReachIx) (r : ReachStep) (s : State) : State :=
  let q := s.site[t.site]
  let go (k : BitVec 4) : State → State := onSite t.site fun q => { q with step := k }
  if q.state ≠ siTraining then s
  else if q.step = 1 then
    (if framesLocked s t (Config.freeChoice s.fresh) then go 2 (onReach t (equaliseStart s.time (fins 32)) { s with fresh := s.fresh + 1 })
     else { s with fresh := s.fresh + 1 })
  else if q.step = 2 then (if equalised s t then go 3 s else s)
  else if q.step = 3 then qualify t r s
  else if q.step = 4 then
    (if q.levelSeen && q.tx.all (fun e => e.2.inited) then
      let y := s.reach[t]
      go 5 (sendQuadMap t y.ownNow.1 y.good s)
     else s)
  else if q.step = 5 then reachStart t s
  else s

/-- TP_TRAINING_TIMEOUT: a step exceeded 10 ms (R382). Table 12.19 names no reason for it; 1, absent, is a DESIGN CHOICE (log entry 53). -/
def execTpTrainingTimeout (t : ReachIx) (s : State) : Host.Outcome State Fault Refusal :=
  run (fun s => if (s.site[t.site]).state = siTraining then siteDisable t.site 1 s else s) s

/-! ### Error injection (R394) -/

/-- `k` distinct entries of a list, each with a non-zero error, all free (log entry 32). -/
def pickErrors : Nat → List Nat → Nat → List (Nat × Sym)
  | 0, _, _ => []
  | k + 1, l, n =>
    match l[(Config.freeValue 10 n).toNat % l.length]? with
    | none => []
    | some p =>
      let v : Sym := Config.freeValue 10 (n + 1)
      (p, if v = 0 then 1 else v) :: pickErrors k (l.erase p) (n + 2)

/-- The errors that an armed injection of kind 1 or 2 places in a codeword of a quad at a side. -/
def wordErrors (s : State) (t : ReachIx) (q : Fin 8) (side : Bool) : List (Nat × Sym) :=
  let j := (s.reach[t]).inject
  if j.lane.toNat / 4 ≠ q.val then []
  else if armedFor s t 1 side then
    (pickErrors 1 (laneSymbols j.lane.toNat) s.fresh).map fun e => (e.1, BitVec.ofNat 10 (2 ^ (e.2.toNat % 10)))
  else if armedFor s t 2 side then pickErrors j.count.toNat (List.range 544) s.fresh
  else []

/-- Injected errors are counted on the lanes they fall on, and the injection is spent (Table 12.17). -/
def spendErrors (t : ReachIx) (q : Fin 8) (es : List (Nat × Sym)) (s : State) : State :=
  if es = [] then s
  else
    let s1 := es.foldl (fun a e => tpLaneCount t (fin! 32 (4 * q.val + e.1 % 4)) 3 1 a) (placed t s)
    { s1 with fresh := s1.fresh + 2 * es.length }

/-- The sideband payload of a quad with one slot's CRC corrupted when that injection is armed (kind 4). -/
def slotErrors (t : ReachIx) (q : Fin 8) (side : Bool) (s : State) : List Byte → List Byte × State := fun b =>
  if armedFor s t 4 side && (s.reach[t]).inject.lane.toNat / 4 == q.val then
    let i := (Config.freeValue 10 s.fresh).toNat % 30
    (lupd b (21 * i + 19) (· ^^^ nonZero (Config.freeValue 8 (s.fresh + 1))),
     { tpLaneCount t (fin! 32 (s.reach[t]).inject.lane.toNat) 3 1 (placed t s) with fresh := s.fresh + 2 })
  else (b, s)

/-- A site and state in which an injection of a kind is allowed (R394). -/
def injectAllowed (s : State) (t : ReachIx) (kind : Nat) : Bool :=
  siteUp s t.site || (kind == 1 && (s.site[t.site]).state == siTest)

/-- An injection starts, or comes round again: the next codeword, marker or stretch of pattern at its place carries the error. -/
def armInject (t : ReachIx) (j : Inject) (s : State) : State := onReach t (fun r => { r with inject := { j with armed := true } }) s

/-- A TP_INJECT write of a kind; outside its states or its ranges it is refused (R394). -/
def injectWrite (kind : Nat) (v : Word) (s : State) : State :=
  let t : ReachIx := fin! 2 (fld v 17 17)
  let j : Inject := { kind := BitVec.ofNat 4 kind, count := BitVec.ofNat 5 (fld v 27 23), side := bit v 19, again := bit v 18,
                      lane := BitVec.ofNat 5 (fld v 16 12), interval := BitVec.ofNat 12 (fld v 11 0) }
  if injectAllowed s t kind = false ∨ (kind = 2 ∧ (j.count = 0 ∨ 16 < j.count.toNat)) ∨ (j.again ∧ j.interval = 0) then s
  else armInject t j s

/-- TP_INJECT of kind 1. -/
def execTpInjectSingleBit (v : Word) (s : State) : Host.Outcome State Fault Refusal := regRow 0xF0028 v (injectWrite 1 v) s
/-- TP_INJECT of kind 2. -/
def execTpInjectSymbols (v : Word) (s : State) : Host.Outcome State Fault Refusal := regRow 0xF0028 v (injectWrite 2 v) s
/-- TP_INJECT of kind 3. -/
def execTpInjectMarker (v : Word) (s : State) : Host.Outcome State Fault Refusal := regRow 0xF0028 v (injectWrite 3 v) s
/-- TP_INJECT of kind 4. -/
def execTpInjectSbCrc (v : Word) (s : State) : Host.Outcome State Fault Refusal := regRow 0xF0028 v (injectWrite 4 v) s

/-- Kind 0: repeated injection stops (Table 12.18). -/
def injectStop (v : Word) (s : State) : State := onReach (fin! 2 (fld v 17 17)) (fun r => { r with inject := {} }) s

/-- TP_INJECT of kind 0. -/
def execTpInjectStop (v : Word) (s : State) : Host.Outcome State Fault Refusal := regRow 0xF0028 v (injectStop v) s

/-- TP_INJECT_REPEAT: the interval of a repeated injection has passed. -/
def execTpInjectRepeat (t : ReachIx) (s : State) : Host.Outcome State Fault Refusal :=
  run (fun s =>
    let j := (s.reach[t]).inject
    if j.again && injectAllowed s t j.kind.toNat then armInject t j s else s) s

/-! ### Pattern generators and checkers (R393) -/

/-- The pattern that a site's generators and checkers run: none outside Test, or at the other site. -/
def patternOf (s : State) (t : ReachIx) : Nat :=
  if (s.site[t.site]).state = siTest ∧ s.siteReg.patSite = t then s.siteReg.pattern.toNat else 0

/-- The state in which a lane's generator starts: a wave at its first UI; a PRBS where it may, not at 0, which is free (log entry 219). -/
def genStart (p : Nat) (l : Fin 32) (fresh : Nat) : Word :=
  if p = 4 ∨ p = 5 then 0
  else
    let g := Config.freeValue 31 (fresh + l.val) &&& BitVec.ofNat 31 (2 ^ patWidth p - 1)
    if g = 0 then 1 else g.setWidth 32

/-- Generators start their pattern, and no checker is locked. -/
def checkersNow (s : State) : State :=
  let r := s.siteReg
  let u := onReach r.patSite (fun y => { y with
    lanes := vmk 32 fun l => { y.lanes[l] with gen := genStart r.pattern.toNat l s.fresh, chk := 0, chkOk := 0 } }) s
  { u with siteReg := { r with patLocked := 0 }, fresh := s.fresh + 32 }

/-- The bits of a lane's next 680 UI of the pattern. -/
def patBits (s : State) (t : ReachIx) (l : Fin 32) : List Bool := uiBits (patUis (patternOf s t) 680 ((s.reach[t]).lanes[l]).gen).1

/-- A lane's checker takes bits; what it counts after it is locked are errors (Table 12.17). -/
def checkLane (t : ReachIx) (l : Fin 32) (bits : List Bool) (s : State) : State :=
  let y := (s.reach[t]).lanes[l]
  let c := (uisOf bits).foldl (checkUi (patternOf s t)) (y.chk, y.chkOk, 0)
  let s1 := tpLaneCount t l 2 c.2.2 (onLane t l (fun r => { r with chk := c.1, chkOk := c.2.1 }) s)
  if 64 ≤ c.2.1 then { s1 with siteReg := { s1.siteReg with patLocked := setBit s1.siteReg.patLocked l.val } } else s1

/-- The checkers of a quad take 680 UI of its receivers, with the errors injected after the samplers (R393, R394). -/
def patternRx (t : ReachIx) (q : Fin 8) (w : List Sym) (s : State) : State :=
  let es := wordErrors s t q true
  let s1 := spendErrors t q es s
  if s.siteReg.checker && patternOf s t != 0 then (lanesOf q).foldl (fun a l => checkLane t l (laneBits (addErrors es w) l.val) a) s1 else s1

/-- The generators of a quad send 680 UI, to the TX bumps, or with echo to the lanes' own receivers (R393). -/
def patternTx (t : ReachIx) (q : Fin 8) (s : State) : State :=
  let p := patternOf s t
  if p = 0 ∨ 5 < p then s
  else
    let es := wordErrors s t q false
    let w := addErrors es (weaveLanes ((lanesOf q).map (patBits s t)))
    let s1 := (lanesOf q).foldl (fun a l => onLane t l (fun y => { y with gen := (patUis p 680 y.gen).2 }) a) (spendErrors t q es s)
    if s.siteReg.echo then patternRx t q w s1
    else (lanesOf q).foldl (fun a l => emit (.levels t l (pamLevels (laneBits w l.val))) a) s1

/-! ### Sending codewords (R375, R376, R384) -/

/-- The first stream from `rr` on, cyclically, that has a codeword to send (R384). -/
def nextStream (q : Site) : Option (Nat × FrameTyp × List Byte × TxStream) :=
  let l := q.tx.filter (fun e => decide (q.rr ≤ e.1)) ++ q.tx.filter (fun e => decide (e.1 < q.rr))
  (l.filterMap fun e => (txNext 624 640 e.2).map fun r => (e.1, r)).head?

/-- Parity of bit position i mod 8 of a lane's symbols, sent least significant bit first (Table 12.4). -/
def bipOf (w : List Sym) (lane : Nat) : Byte :=
  (bytesOf (laneBits w lane)).foldl (· ^^^ ·) 0

/-- A codeword is sent on a quad, with any error injected at the transmitter. -/
def sendWord (t : ReachIx) (q : Fin 8) (w : List Sym) (s : State) : State :=
  let es := wordErrors s t q false
  let s1 := (lanesOf q).foldl (fun a l => onLane t l (fun y => { y with txBip := y.txBip ^^^ bipOf w l.val }) a) s
  (lanesOf q).foldl (fun a l => emit (.levels t l (pamLevels (laneBits (addErrors es w) l.val))) a)
    (emit (.codeword t q (addErrors es w)) (spendErrors t q es s1))

/-- One position of a quad passes. -/
def advTx (t : ReachIx) (q : Fin 8) : State → State := onReach t (fun r => { r with txIndex := upd r.txIndex q (· + 1) })

/-- This codeword time of the site is counted at this quad: the lowest in service. -/
def firstServing (s : State) (t : ReachIx) (q : Fin 8) : Bool := (fins 8).all fun k => decide (q.val ≤ k.val) || !quadServes s t k

/-- An idle codeword for want of credit: TCLK cycles of this codeword time, 10 or 11, are counted once for the site (Table 12.17). -/
def creditWait (t : ReachIx) (q : Fin 8) (s : State) : State :=
  if firstServing s t q && (s.site[t.site]).tx.any (fun e => e.2.queue != []) then
    { siteCount t.site 6 (10 + b2n (Config.freeChoice s.fresh)) s with fresh := s.fresh + 1 }
  else s

/-- The lanes of a quad that run training frames send one each; in step 1 the first follows the first lock, of which TCLK is formed (R379,
Table 12.8). -/
def trainTx (t : ReachIx) (q : Fin 8) (s : State) : State :=
  if (laneSet s t).any fun l => ((s.reach[t]).lanes[l]).locked then
    ((lanesOf q).filter fun l => (siteRec s t.site).laneMask.getLsbD l.val).foldl (fun a l => nextTrainFrame t l a) s
  else s

/-- REACH_CODEWORD_SEND: a sideband, head, data or idle codeword, by the quad's position and service (R376, R384); training frames on lanes that
run them (R379), and the pattern in Test (R393). -/
def codewordTx (t : ReachIx) (q : Fin 8) (s : State) : State :=
  let x := t.site
  let c := ((s.reach[t]).txIndex[q])
  let adv := advTx t q
  if (s.site[x]).state = siTest then patternTx t q s
  else if siteUp s x = false ∧ (s.site[x]).state ≠ siTraining ∨ (quadMask s t).getLsbD q.val = false then s
  else if quadTrains s t q then trainTx t q (if siteUp s x then adv s else s)
  else if (s.site[x]).sb.up && (quadServes s t q || (s.site[x]).state == siTraining) && c.toNat % 32 == 4 * q.val then
    let r := sbSlots (mayLeave s) 30 (s.site[x]).sb
    let e := slotErrors t q false (siteCount x 5 r.2.2 (onSb x (fun _ => r.2.1) (adv s))) r.1
    sendWord t q (reachSymbols 3 0 e.1) e.2
  else if quadServes s t q = false then sendWord t q (reachSymbols 0 0 []) (adv s)
  else match nextStream (s.site[x]) with
    | some (k, typ, b, e) =>
      sendWord t q (reachSymbols (if typ = 1 then 1 else 2) k b) (siteCount x 4 1
        (onSite x (fun y => { y with tx := onStream y.tx k fun _ => e, rr := (k + 1) % 512 }) (adv s)))
    | none => sendWord t q (reachSymbols 0 0 []) (creditWait t q (adv s))

/-- REACH_CODEWORD_SEND. -/
def execReachCodewordSend (t : ReachIx) (q : Fin 8) (s : State) : Host.Outcome State Fault Refusal := run (codewordTx t q) s

/-- SIDEBAND_FRAME_SEND: the six slots of a sideband frame of a Wide Port, on the sideband's lanes (R335, R358), and WT-A in the sideband's
repair test and in training (R348). A Reach Port carries its slots in codewords (R376). -/
def sidebandTx (x : SiteIx) (s : State) : State :=
  match wideOf x with
  | none => s
  | some w =>
    let adv := onMod w 32 (fun q => { q with txFrame := q.txFrame + 1 })
    if wtTime s w 32 then sendWtA w 32 s
    else if modTests s w 32 then sendWtA w 32 (adv s)
    else if (s.site[x]).sb.up then
      let r := sbSlots (mayLeave s) 6 (s.site[x]).sb
      emit (.frame w 32 (sidebandLanes (((s.wide[w]).mods[(32 : Fin 33)]).tx.good) r.1))
        (emit (.sideband x r.1) (siteCount x 8 r.2.2 (onSb x (fun _ => r.2.1) (adv s))))
    else s

/-- SIDEBAND_FRAME_SEND. -/
def execSidebandFrameSend (x : SiteIx) (s : State) : Host.Outcome State Fault Refusal := run (sidebandTx x) s

/-! ### TP_CMD (R392, R398) -/

/-- A TP_PAT_CTRL write. -/
def patWrite (v : Word) (s : State) : State :=
  checkersNow { s with siteReg := { s.siteReg with
    pattern := BitVec.ofNat 4 (fld v 31 28), checker := bit v 27, echo := bit v 26, patSite := fin! 2 (fld v 25 25) } }

/-- TP_PAT_CTRL_WRITE. -/
def execTpPatCtrlWrite (v : Word) (s : State) : Host.Outcome State Fault Refusal := regRow 0xF0020 v (patWrite v) s

/-- States in which a site may enter Test (Table 12.10). -/
def mayTest (q : Site) : Bool :=
  q.state == 0 || q.state == siDisabled || q.state == siContained || (q.state == siReset && q.hold)

/-- Taps start at P1 in Test (R393). -/
def testLanes (r : ReachSite) : ReachSite :=
  { r with lanes := r.lanes.map fun y => { y with taps := presetTaps 1, preset := 1 } }

/-- The effect of an allowed TP_CMD, none when it is refused (R398). -/
def tpCmdEffect (code : Nat) (t : ReachIx) (quad : Fin 8) (s : State) : Option State :=
  let x := t.site
  let q := s.site[x]
  if code = 1 then (if q.state = siDisabled then some (siteReset x s) else none)
  else if code = 2 then (if 1 ≤ q.state.toNat ∧ q.state.toNat ≤ 6 then some (siteHold x s) else none)
  else if code = 3 then (if q.hold && q.state != siTest then some (siteUnhold x s) else none)
  else if code = 4 then
    (if siteUp s x && (quadMask s t).getLsbD quad.val then some (onReach t (ReachSite.fallDue s.time quad) s) else none)
  else if code = 5 then
    (if mayTest q then
      some (checkersNow (onReach t (fun r => { testLanes r with testFrom := q.state })
        (onSite x (fun y => { y with rstn := true }) (setSite x siTest s))))
     else none)
  else if code = 6 then
    (if q.state = siTest then
      some (checkersNow (onReach t (fun r => { r with inject := {} })
        (onSite x (fun y => { y with rstn := (s.reach[t]).testFrom != siDisabled }) (setSite x (s.reach[t]).testFrom s))))
     else none)
  else none

/-- A TP_CMD write: stale, refused or carried out (R398). It is carried out at once, so busy reads 0 (DESIGN CHOICE, log entry 180). -/
def tpCmd (code : Nat) (v : Word) (s : State) : State :=
  let t : ReachIx := fin! 2 (fld v 8 8)
  let put (r : Nat) (u : State) : State := { u with siteReg := { u.siteReg with tpCmd := (BitVec.ofNat 8 code, false, BitVec.ofNat 2 r) } }
  if fld v 31 16 ≠ (s.site[t.site]).epoch.toNat then flag blkTP t.val 9 (put 2 s)
  else match tpCmdEffect code t (fin! 8 (fld v 11 9)) s with
    | some u => put 1 (onSite t.site (fun q => { q with epoch := q.epoch + 1 }) u)
    | none => put 3 s

/-- TP_CMD_RETRAIN. -/
def execTpCmdRetrain (v : Word) (s : State) : Host.Outcome State Fault Refusal := regRow 0xF0000 v (tpCmd 1 v) s
/-- TP_CMD_HOLD. -/
def execTpCmdHold (v : Word) (s : State) : Host.Outcome State Fault Refusal := regRow 0xF0000 v (tpCmd 2 v) s
/-- TP_CMD_RELEASE. -/
def execTpCmdRelease (v : Word) (s : State) : Host.Outcome State Fault Refusal := regRow 0xF0000 v (tpCmd 3 v) s
/-- TP_CMD_RETEST_QUAD. -/
def execTpCmdRetestQuad (v : Word) (s : State) : Host.Outcome State Fault Refusal := regRow 0xF0000 v (tpCmd 4 v) s
/-- TP_CMD_ENTER_TEST. -/
def execTpCmdEnterTest (v : Word) (s : State) : Host.Outcome State Fault Refusal := regRow 0xF0000 v (tpCmd 5 v) s
/-- TP_CMD_LEAVE_TEST. -/
def execTpCmdLeaveTest (v : Word) (s : State) : Host.Outcome State Fault Refusal := regRow 0xF0000 v (tpCmd 6 v) s

/-! ### Receiving a codeword (R374 to R376) -/

/-- A codeword that cannot be corrected: its worst lane is suspected; Corrected at a sideband position, else Contained (R388, Table 12.12). In
training, where no stream runs, it is counted. -/
def uncorrectableRx (t : ReachIx) (q : Fin 8) (sideband : Bool) (s : State) : State :=
  let s0 := onReach t (fun r => { r with uncorr := upd r.uncorr q (· + 1) }) s
  if siteUp s t.site = false then s0
  else
    let s1 := suspectQuiet t (worstLane s t q) s0
    if sideband then eventBit clsCorrected blkTP t.val 3 s1
    else containStreams t.site 9 4 (setEv blkTP t.val 3 s1)

/-- Symbols corrected on the lanes of a quad: Corrected (Table 12.12). -/
def correctedRx (t : ReachIx) (q : Fin 8) (ps : List Nat) (s : State) : State :=
  if ps = [] then s
  else
    let s1 := logEvent clsCorrected blkTP 0x0100 t.val s
    (fins 4).foldl (fun a i => laneCorrected t (fin! 32 (4 * q.val + i.val)) (ps.filter fun j => j % 4 == i.val).length a) s1

/-- A decoded codeword of kind 0, 1 or 2, or of a kind at the wrong position. -/
def kindRx (t : ReachIx) (kind stream : Nat) (b : List Byte) (s : State) : State :=
  if kind = 0 then s
  else if kind = 1 then headRx t.site stream b (siteCount t.site 3 1 s)
  else if kind = 2 then dataRx t.site stream b (siteCount t.site 3 1 s)
  else protocolError t.site s

end Sys2Proof.Machine
end

