-- ==== Sys2Proof/Machine/Parse.lean ====
section
/-!
DEFINITION. Reading an Ihlox image (chapter 3): header, section table, the checks of R90 and the sections' records.
-/

namespace Sys2Proof.Machine

/-- `n` bytes of a byte string from offset `o`; bytes past its end read as 0. -/
def cut (b : List Byte) (o n : Nat) : List Byte := (b.drop o).take n

/-- A little-endian number of `n` bytes at an offset. -/
def numAt (b : List Byte) (o n : Nat) : Nat := leNat (cut b o n)

/-- A section table entry (Table 3.2). -/
structure SecEntry where
  /-- type -/
  typ : Nat
  /-- instance -/
  inst : Nat
  /-- required flag -/
  required : Bool
  /-- level -/
  level : Nat
  /-- offset in the image -/
  off : Nat
  /-- length -/
  len : Nat
  /-- destination -/
  dest : Nat
  /-- digest -/
  digest : BitVec 256
  deriving DecidableEq, Repr

/-- A 32-byte digest as its bytes spell it. -/
def digestOf (b : List Byte) : BitVec 256 := BitVec.ofNat 256 (leNat b)

/-- Entry `i` of the section table (R71). -/
def secEntry (b : List Byte) (i : Nat) : SecEntry :=
  let o := 0x100 + 64 * i
  { typ := numAt b o 2, inst := numAt b (o + 2) 2, required := numAt b (o + 4) 2 % 2 == 1, level := numAt b (o + 6) 2,
    off := numAt b (o + 8) 8, len := numAt b (o + 0x10) 8, dest := numAt b (o + 0x18) 8,
    digest := digestOf (cut b (o + 0x20) 32) }

/-- section_count of the header (Table 3.1). -/
def secCount (b : List Byte) : Nat := numAt b 0x00E 2

/-- The section table. -/
def secTable (b : List Byte) : List SecEntry := (List.range (secCount b)).map (secEntry b)

/-- The bytes of a section. -/
def secBytes (b : List Byte) (e : SecEntry) : List Byte := cut b e.off e.len

/-- The major part of a level (R69). -/
def major (l : Nat) : Nat := l / 256

/-- The type code of SIGNATURE (Table 3.3). -/
def tySignature : Nat := 0x00FF

/-- A type that a device of level 2.0 knows: those of Table 3.3 with contents, and annotations (R73). -/
def typeKnown (t : Nat) : Bool := (decide (1 ≤ t) && decide (t ≤ 0x000C)) || t == tySignature || decide (0x8000 ≤ t)

/-- A section that the loader rejects with status LEVEL (R73). -/
def levelBad (format : Nat) (e : SecEntry) : Bool :=
  if e.typ = tySignature then major e.level != major format
  else e.required && (!typeKnown e.typ || major e.level != major format || decide (0 < e.level % 256))

/-- A section that the loader ignores after checking its digest (R73), or that is never loaded (Table 3.3). -/
def ignored (format : Nat) (e : SecEntry) : Bool :=
  !typeKnown e.typ || decide (0x8000 ≤ e.typ) || major e.level != major format || decide (0 < e.level % 256)

/-! ### The checks of R90 -/

/-- Load status codes (Tables 3.16 and 15.4). -/
def stOK : Nat := 0
/-- SEQUENCE -/
def stSequence : Nat := 1
/-- SIZE -/
def stSize : Nat := 2
/-- LEVEL -/
def stLevel : Nat := 3
/-- KEY -/
def stKey : Nat := 4
/-- SIGNATURE -/
def stSignature : Nat := 5
/-- VERSION -/
def stVersion : Nat := 6
/-- DIGEST -/
def stDigest : Nat := 7
/-- STATE -/
def stState : Nat := 8
/-- MISMATCH -/
def stMismatch : Nat := 9
/-- ABORTED -/
def stAborted10 : Nat := 10
/-- UNAVAILABLE -/
def stUnavailable : Nat := 11
/-- STALE -/
def stStale : Nat := 12
/-- ROLLBACK -/
def stRollback : Nat := 13
/-- FLASH -/
def stFlash : Nat := 14
/-- BUSY -/
def stBusy : Nat := 15
/-- FUSE -/
def stFuse : Nat := 16
/-- UNKNOWN -/
def stUnknown : Nat := 17

/-- A set of byte ranges covers `[a, a + n)`, searched with as many ranges as there are. -/
def covered (w : List (Nat × Nat)) : Nat → Nat → Nat → Bool
  | 0, a, z => decide (z ≤ a)
  | fuel + 1, a, z =>
    if z ≤ a then true
    else match w.find? fun r => decide (r.1 ≤ a) && decide (a < r.1 + r.2) with
      | some r => covered w fuel (r.1 + r.2) z
      | none => false

/-- Check 3 of R90. -/
def sizeOk (b : List Byte) (size : Nat) : Bool :=
  numAt b 0x018 8 == size && decide (2 ≤ secCount b) && decide (secCount b ≤ 1024) &&
    decide (0x100 + 64 * secCount b ≤ size) && (secTable b).all fun e => decide (e.off + e.len ≤ size)

/-- Check 4 of R90: the levels (R85, R73); the device's format level is 2.0. -/
def levelsOk (b : List Byte) : Bool :=
  let f := numAt b 0x006 2
  let g := numAt b 0x008 2
  major f == 2 && decide (g ≤ 0x0200) && major f == major g && (secTable b).all fun e => !levelBad f e

/-- The SIGNATURE entry: exactly one, the last of the table, long enough, algorithm 1 (check 5 of R90). -/
def signatureEntry (b : List Byte) : Option SecEntry :=
  match (secTable b).filter fun e => e.typ == tySignature with
  | [e] =>
    if (secTable b).getLast? = some e ∧ 16408 ≤ e.len ∧ numAt b e.off 2 = 1 then some e else none
  | _ => none

/-- The key entry that enrols a public key (R84, R443). -/
def keyEntry (keys : List KeyEntry) (pk : List Byte) : Option KeyEntry :=
  keys.find? fun k => k.flags.getLsbD 0 && k.digest == Config.sha256 pk

/-- The manifest agrees with the header and the table, and the signature holds (R83, check 7 of R90). -/
def manifestOk (b : List Byte) (e : SecEntry) : Bool :=
  let o := e.off + 0x38
  numAt b o 4 == 0x4D584849 && numAt b (o + 4) 2 == numAt b 0x006 2 && numAt b (o + 6) 2 == numAt b 0x010 2 &&
    numAt b (o + 8) 8 == numAt b 0x020 8 && numAt b (o + 0x10) 4 == numAt b 0x028 4 && numAt b (o + 0x14) 2 == secCount b &&
    numAt b (o + 0x18) 8 == numAt b 0x018 8 &&
    digestOf (cut b (o + 0x20) 32) == Config.sha256 (cut b 0 (0x100 + 64 * secCount b)) &&
    Config.slhVerify192s (cut b (e.off + 8) 48) (cut b o 128) (cut b (e.off + 0xB8) 16224)

/-- Check 9 of R90. -/
def digestsOk (b : List Byte) : Bool :=
  (secTable b).all fun e => e.typ == tySignature || Config.sha256 (secBytes b e) == e.digest

/-- A word of the load area within `[o, o + n)` of the image is uncorrectable. -/
def loadBad (s : State) (o n : Nat) : Bool := (poisonIn s (loadBase + o) n).isSome

/-- The bytes of the image in the load area. -/
def loadBytes (s : State) : List Byte := s.hbm.mem.readN loadBase s.img.size

/-- The checks of R90 in their order: the first failing status, or OK. A check that meets an uncorrectable word of what it
reads answers DIGEST (Table 13.4, log entry 25). -/
def verifyStatus (s : State) : Nat :=
  let b := loadBytes s
  if covered s.img.written (s.img.written.length + 1) 0 s.img.size = false then stSize
  else if loadBad s 0 0x100 then stDigest
  else if numAt b 0 4 ≠ 0x584C4849 ∨ numAt b 4 2 ≠ 256 ∨ numAt b 0x030 8 ≠ 0x100 then stLevel
  else if loadBad s 0x100 (min (64 * secCount b) (s.img.size - 0x100)) then stDigest
  else if sizeOk b s.img.size = false then stSize
  else if levelsOk b = false then stLevel
  else match signatureEntry b with
    | none => stSignature
    | some e =>
      if loadBad s e.off e.len then stDigest
      else match keyEntry s.mgt.keys (cut b (e.off + 8) 48) with
        | none => stKey
        | some k =>
          if manifestOk b e = false then stSignature
          else if numAt b 0x010 2 < k.floor then stVersion
          else if loadBad s 0 s.img.size ∨ digestsOk b = false then stDigest
          else stOK

/-! ### Sections -/

/-- The part descriptors or records of a section start after its 16-byte header (R74): part `i` as offset and count. -/
def partOf (x : List Byte) (i : Nat) : Nat × Nat := (numAt x (16 + 8 * i) 4, numAt x (20 + 8 * i) 4)

/-- The records of `k` bytes of part `i`. -/
def partRecs (x : List Byte) (i k : Nat) : List (List Byte) :=
  (List.range (partOf x i).2).map fun j => cut x ((partOf x i).1 + k * j) k

/-- The records of `k` bytes that follow a section header (R74). -/
def flatRecs (x : List Byte) (k : Nat) : List (List Byte) :=
  (List.range (numAt x 4 4)).map fun j => cut x (16 + k * j) k

/-- Site entry (Table 3.5). -/
def parseSite (r : List Byte) : SiteRec :=
  { use := numAt r 0 1 == 1, die := numAt r 1 1, adapterMin := BitVec.ofNat 16 (numAt r 2 2),
    laneMask := w32 (numAt r 4 4), pad := BitVec.ofNat 4 (numAt r 8 1), degraded := numAt r 9 1 % 2 == 1,
    hints := numAt r 9 1 / 2 % 2 == 1 }

/-- Port entry (Table 3.6). -/
def parsePort (r : List Byte) : PortRec :=
  { place := w32 (numAt r 0 4), port := numAt r 4 1, fibre := numAt r 5 1, connectors := numAt r 6 1, express := numAt r 7 1 % 2 == 1, mask := BitVec.ofNat 64 (numAt r 8 8) }

/-- Fabric connection (R77). -/
def parseConn (r : List Byte) : ConnRec :=
  { src := numAt r 0 2, dst := numAt r 2 2, stream := numAt r 4 2, both := numAt r 6 1 % 2 == 1,
    cls := BitVec.ofNat 2 (numAt r 6 1 / 2) }

/-- Mailbox binding (R78). -/
def parseBind (r : List Byte) : BindRec :=
  { sender := numAt r 0 1, receiver := numAt r 1 1, channel := numAt r 2 1, tag := BitVec.ofNat 16 (numAt r 4 2) }

/-- Beam record (Table 7.2). -/
def parseBeam (r : List Byte) : BeamRec :=
  { valid := numAt r 0 1 % 2 == 1, port := fin! 64 (numAt r 1 1), hops := numAt r 2 1,
    peerBeam := BitVec.ofNat 8 (numAt r 3 1), peerPlace := BitVec.ofNat 24 (numAt r 4 4),
    via := [w32 (numAt r 8 4), w32 (numAt r 0xC 4), w32 (numAt r 0x10 4)],
    adv := [numAt r 0x14 2, numAt r 0x16 2, numAt r 0x18 2, numAt r 0x1A 2] }

/-- Beam entry of a plan (Table 7.5). -/
def parsePlanBeam (r : List Byte) : PlanBeam :=
  { beam := fin! 256 (numAt r 0 1), tx := BitVec.ofNat 35 (numAt r 2 5), rx := BitVec.ofNat 35 (numAt r 7 5) }

/-- `n` port blocks from the start of a byte string (R208). -/
def parseBlocks : Nat → List Byte → List PlanBlock
  | 0, _ => []
  | n + 1, b =>
    let k := numAt b 1 1
    { port := numAt b 0 1, pass := BitVec.ofNat 35 (numAt b 2 5),
      beams := (List.range k).map fun j => parsePlanBeam (cut b (8 + 12 * j) 12) } :: parseBlocks n (b.drop (8 + 12 * k))

/-- Plan record (Table 7.3). -/
def parsePlan (b : List Byte) : PlanRec :=
  { planId := BitVec.ofNat 16 (numAt b 0 2), dim := numAt b 5 1 % 2 == 1, blocks := parseBlocks (numAt b 4 1) (b.drop 16) }

/-- Records of a slot directory (R79): plan_id, Dim flag and offset. -/
def parseDir (rs : List (List Byte)) : List (BitVec 16 × Bool × Nat) :=
  rs.map fun r => (BitVec.ofNat 16 (numAt r 0 2), numAt r 2 1 % 2 == 1, numAt r 4 4)

/-- The plans that a directory names, their offsets counted from the start of the byte string. -/
def dirPlans (x : List Byte) (d : List (BitVec 16 × Bool × Nat)) : List PlanRec :=
  (d.filter fun e => e.1 != 0xFFFF).map fun e => parsePlan (x.drop e.2.2)

/-- Family record (Table 7.7). -/
def parseFamily (r : List Byte) : FamilyRec :=
  { firstRule := numAt r 0 2, ruleCount := numAt r 2 1, default_ := BitVec.ofNat 8 (numAt r 3 1),
    variants := numAt r 4 1, histFmt := numAt r 5 1,
    e := numAt r 6 2 }

/-- Rule record (Table 7.8). -/
def parseRule (r : List Byte) : RuleRec :=
  { start := numAt r 0 3, len := numAt r 3 1, threshold := numAt r 4 2, variant := BitVec.ofNat 8 (numAt r 6 1) }

/-- Segment record (Table 3.8). -/
def parseSeg (r : List Byte) : SegRec := { id := BitVec.ofNat 16 (numAt r 0 2), len := numAt r 4 4, addr := numAt r 8 8 }

/-- Restart point (Table 3.8). -/
def parseRestart (r : List Byte) : RestartRec :=
  { id := BitVec.ofNat 16 (numAt r 0 2), hold := numAt r 2 2 % 2 == 1, index := numAt r 4 4 }

/-- Region record (Table 3.9). -/
def parseRegion (r : List Byte) : RegionRec :=
  { id := numAt r 0 2, use := numAt r 2 1, stack := numAt r 3 1, base := numAt r 8 8, length := numAt r 0x10 8,
    init := numAt r 0x18 1 }

/-- POWER record (Table 3.10). -/
def parsePower (r : List Byte) : PowerRec :=
  { cap := numAt r 0 2, opStart := numAt r 2 1, opMax := numAt r 3 1, opMin := numAt r 4 1,
    priority := [numAt r 5 1, numAt r 6 1, numAt r 7 1], hints := numAt r 8 2 % 2 == 1,
    dim := (List.range (numAt r 0xA 1)).map fun i => BitVec.ofNat 16 (numAt r (0xC + 2 * i) 2) }

/-- A timer field of CALIB: 0 selects the default (R82). -/
def timer (v d : Nat) : Nat := if v = 0 then d else v

/-- CALIB record (Table 3.11). -/
def parseCalib (r : List Byte) : CalibRec :=
  { recal := numAt r 0 1, haloFf := numAt r 1 1 % 4, retransmit := timer (numAt r 4 4) 2000,
    creditUs := timer (numAt r 8 4) 50, mailboxUs := timer (numAt r 0xC 4) 10000, watchdogUs := timer (numAt r 0x10 4) 1000 }

/-- A CALIB value within its range (Table 3.11). -/
def calibOk (c : CalibRec) : Bool :=
  decide (5 ≤ c.recal) && decide (c.recal ≤ 40) && decide (500 ≤ c.retransmit) && decide (c.retransmit ≤ 20000) &&
    decide (5 ≤ c.creditUs) && decide (c.creditUs ≤ 1000) && decide (100 ≤ c.mailboxUs) && decide (c.mailboxUs ≤ 1000000) &&
    decide (10 ≤ c.watchdogUs) && decide (c.watchdogUs ≤ 1000000)

/-- A POWER value within its range (Table 3.10). -/
def powerOk (p : PowerRec) : Bool :=
  decide (300 ≤ p.cap) && decide (p.cap ≤ 850) && decide (p.opStart ≤ 7) && decide (p.opMax ≤ 7) && decide (p.opMin ≤ 7) &&
    decide (p.dim.length ≤ 16) && p.priority.all fun c => decide (1 ≤ c) && decide (c ≤ 3)

/-- The sections that the loader loads, by type and instance. -/
def loadedSecs (b : List Byte) : List SecEntry := (secTable b).filter fun e => !ignored (numAt b 0x006 2) e

/-- The bytes of the one section of a type, empty when the image has none. -/
def theSec (b : List Byte) (t : Nat) : List Byte :=
  match (loadedSecs b).find? fun e => e.typ == t with
  | some e => secBytes b e
  | none => []

/-- What RESDATA puts into a region, from its start (R81). -/
def regionBytes (b : List Byte) (r : RegionRec) : List Byte :=
  ((loadedSecs b).filter fun e => e.typ == 0x000A && e.inst == r.id).foldl
    (fun acc e => (acc.take e.dest ++ List.replicate (e.dest - acc.length) 0) ++ secBytes b e ++ acc.drop (e.dest + e.len)) []

/-- Plans of the paged-plan regions, read from their RESDATA (R79): the directory lies at the region's start. -/
def pagedPlans (b : List Byte) (regions : List RegionRec) : List PlanRec :=
  (regions.filter fun r => r.use == 2).flatMap fun r =>
    let x := regionBytes b r
    dirPlans x (parseDir ((List.range (numAt x 0 4)).map fun j => cut x (8 + 8 * j) 8))

/-- What the chip holds of a verified image. -/
def parseImage (b : List Byte) : Image :=
  let st := theSec b 1
  let pl := theSec b 3
  let sl := theSec b 4
  let sc := theSec b 5
  let sites := partRecs st 0 16
  let ports := partRecs st 1 16
  let dir := parseDir (flatRecs pl 8)
  let regions := (flatRecs (theSec b 9) 32).map parseRegion
  let sg := (signatureEntry b).getD ⟨0, 0, false, 0, 0, 0, 0, 0⟩
  { programId := BitVec.ofNat 64 (numAt b 0x020 8)
    place := BitVec.ofNat 24 (numAt b 0x028 4)
    places := numAt b 0x02C 4 % 2 ^ 24
    svn := numAt b 0x010 2
    keyDigest := Config.sha256 (cut b (sg.off + 8) 48)
    manifest := Config.sha256 (cut b (sg.off + 0x38) 128)
    sites := vmk 6 fun i => parseSite (nth sites i.val [])
    ports := vmk 64 fun i => parsePort (nth ports i.val [])
    conns := (partRecs st 2 8).map parseConn
    binds := (partRecs st 3 8).map parseBind
    beams := (flatRecs (theSec b 2) 32).map parseBeam
    slotDir := dir.map fun e => (e.1, e.2.1)
    plans := dirPlans pl dir ++ pagedPlans b regions
    families := (partRecs sl 0 16).map parseFamily
    rules := (partRecs sl 1 8).map parseRule
    experts := (partRecs sl 2 2).map leNat
    program := (partRecs sc 0 8).map fun r => BitVec.ofNat 64 (leNat r)
    entry := (numAt (cut sc (partOf sc 1).1 8) 0 4, numAt (cut sc (partOf sc 1).1 8) 4 4)
    segs := (partRecs sc 2 16).map parseSeg
    restarts := (partRecs sc 3 8).map parseRestart
    costs := (partRecs sc 4 8).map fun r => (w32 (numAt r 0 4), numAt r 4 4)
    regions := regions
    power := parsePower (cut (theSec b 0xB) 16 64)
    calib := parseCalib (cut (theSec b 0xC) 16 64)
    gate := (partRecs (theSec b 6) 0 16).map fun r => BitVec.ofNat 128 (leNat r)
    routes := (partRecs (theSec b 6) 1 4).map fun r => w32 (leNat r)
    placement := (flatRecs (theSec b 7) 8).map fun r => BitVec.ofNat 64 (leNat r)
    predictor := (flatRecs (theSec b 8) 8).map fun r => BitVec.ofNat 64 (leNat r)
    digests := (loadedSecs b).map fun e => (e.typ, e.inst, e.digest)
    spans := (loadedSecs b).map fun e => (e.typ, e.inst, e.off, e.len)
    resdata := ((loadedSecs b).filter fun e => e.typ == 0x000A).map fun e => { region := e.inst, dest := e.dest, off := e.off, len := e.len, digest := e.digest } }

end Sys2Proof.Machine
end

