-- ==== Sys2Proof/Machine/Sound.lean ====
section
/-!
DEFINITION. The rules of an Ihlox image that the loader does not check (R50, R90) and whose violation is the host error "inconsistent image
structure" or "an image whose declared resources exceed the device" (Table 2.5): layout, reserved bytes, references and limits.
-/

namespace Sys2Proof.Machine

/-! ### Layout of the file (R68) -/

/-- Two byte ranges, offset and length, share no byte. -/
def apart (a b : Nat × Nat) : Bool := decide (a.1 + a.2 ≤ b.1) || decide (b.1 + b.2 ≤ a.1) || a.2 == 0 || b.2 == 0

/-- The ranges of a list share no byte with one another. -/
def allApart : List (Nat × Nat) → Bool
  | [] => true
  | r :: l => l.all (apart r) && allApart l

/-- Every section begins on a multiple of 256 bytes behind the table, no two overlap, and SIGNATURE ends the file (R68). -/
def layoutOk (b : List Byte) : Bool :=
  let l := secTable b
  let top := 0x100 + 64 * secCount b
  (l.all fun e => e.off % 256 == 0 && decide (top ≤ e.off)) && allApart (l.map fun e => (e.off, e.len)) &&
    l.all fun e => e.typ == tySignature || l.all fun g => g.typ != tySignature || decide (e.off + e.len ≤ g.off)

/-! ### Reserved bytes and bits inside the sections (R70) -/

/-- `n` reserved bytes at an offset are 0. -/
def zeroAt (r : List Byte) (o n : Nat) : Bool := (cut r o n).all (· == 0)

/-- Bits of a byte from `lo` up are 0. -/
def highZero (r : List Byte) (o lo : Nat) : Bool := decide (numAt r o 1 < 2 ^ lo)

/-- record_count, where a section type fixes it, and record_size (Table 3.4, R74 to R82, R137, R144, R151, R204, R219): part descriptors have 8
bytes. -/
def headShape (t : Nat) : Option (Option Nat × Nat) :=
  match t with
  | 1 => some (some 4, 8)
  | 2 => some (some 256, 32)
  | 3 => some (some 128, 8)
  | 4 => some (some 3, 8)
  | 5 => some (some 5, 8)
  | 6 => some (some 2, 8)
  | 7 | 8 => some (none, 8)
  | 9 => some (none, 32)
  | 0xB | 0xC => some (some 1, 64)
  | _ => none

/-- record_count and record_size are those of the section's type, and the records lie within the section. -/
def shapeOk (t : Nat) (x : List Byte) : Bool :=
  match headShape t with
  | some (n, k) => n.getD (numAt x 4 4) == numAt x 4 4 && numAt x 8 4 == k && decide (16 + k * numAt x 4 4 ≤ x.length)
  | none => true

/-- Entry sizes of the parts of a section type (R75 to R80, R137, R219). -/
def partSizes (t : Nat) : List Nat :=
  match t with
  | 1 => [16, 16, 8, 8]
  | 4 => [16, 8, 2]
  | 5 => [8, 8, 16, 8, 8]
  | 6 => [16, 4]
  | _ => []

/-- Every part lies behind the part descriptors and within the section (R74). -/
def partsFit (t : Nat) (x : List Byte) : Bool :=
  (indexed (partSizes t)).all fun e =>
    let d := partOf x e.1
    d.2 == 0 || (decide (16 + 8 * (partSizes t).length ≤ d.1) && decide (d.1 + e.2 * d.2 ≤ x.length))

/-- The section header repeats type and level, counts its records and keeps its reserved bytes 0 (Table 3.4, R74). -/
def headOk (b : List Byte) (e : SecEntry) : Bool :=
  let x := secBytes b e
  e.typ == 0x000A || e.typ == tySignature || decide (0x8000 ≤ e.typ) ||
    (numAt x 0 2 == e.typ && numAt x 2 2 == e.level && zeroAt x 0xC 4 && shapeOk e.typ x && partsFit e.typ x)

/-- The lane_mask of a Reach Port site in use sets whole quads, and at least one (R374). -/
def quadsOk (m : Nat) : Bool := m != 0 && (List.range 8).all fun q => m / 16 ^ q % 16 == 0 || m / 16 ^ q % 16 == 15

/-- Site entries (Table 3.5); `k` is the site. -/
def siteSound (k : Nat) (r : List Byte) : Bool :=
  (decide (k < 4) || numAt r 0 1 == 0 || quadsOk (numAt r 4 4)) && decide (numAt r 0 1 ≤ 1) && decide (numAt r 1 1 ≤ 3) && highZero r 8 4 && (decide (k < 4) || numAt r 8 1 == 0) && highZero r 9 2 &&
    zeroAt r 0xA 6

/-- Port entries (Table 3.6, R76). -/
def portSound (r : List Byte) : Bool :=
  (numAt r 0 4 == 0xFFFFFFFF || (numAt r 3 1 == 0 && highZero r 4 6)) && decide (numAt r 5 1 ≤ 100) && highZero r 7 1 &&
    numAt r 8 8 % 2 == 0 && decide (numAt r 8 8 < 2 ^ 35) && (numAt r 8 8 == 0 || numAt r 7 1 % 2 == 1)

/-- The entries of an express pair carry the same express_enable (R76). -/
def pairsSound : List (List Byte) → Bool
  | p :: q :: l => numAt p 7 1 % 2 == numAt q 7 1 % 2 && pairsSound l
  | _ => true

/-- Endpoint codes (Table 3.7). -/
def endpointOk (c : Nat) : Bool :=
  let i := c % 4096
  match c / 4096 with
  | 0 => decide (i < 128)
  | 1 => decide (i < 2)
  | 2 => decide (i < 256)
  | 3 => decide (i < 64)
  | 4 => decide (i < 16)
  | 5 => decide (i < 64)
  | 6 => i == 0
  | _ => false

/-- The stream number of a connection with a die-to-die endpoint lies in its module's 16, or below 512 at a Reach Port (R352, R384). -/
def streamOk (c s : Nat) : Bool :=
  match c / 4096 with
  | 0 => s / 16 == c % 4096 % 32
  | 1 => decide (s < 512)
  | _ => true

/-- Fabric connections (R77). -/
def connSound (r : List Byte) : Bool :=
  streamOk (numAt r 0 2) (numAt r 4 2) && streamOk (numAt r 2 2) (numAt r 4 2) && endpointOk (numAt r 0 2) && endpointOk (numAt r 2 2) && highZero r 6 3 && decide (numAt r 6 1 / 2 ≤ 1) && zeroAt r 7 1

/-- Mailbox bindings (R78). -/
def bindSound (r : List Byte) : Bool := highZero r 0 3 && highZero r 1 3 && zeroAt r 3 1 && zeroAt r 6 2

/-- Beam records (Table 7.2): hops counts the used vias, which come first (R205), and every advertised credit value of a valid beam lies between
1 and 2,048 (R251). -/
def beamSound (r : List Byte) : Bool :=
  let viaOk (k : Nat) : Bool :=
    let v := numAt r (8 + 4 * k) 4
    if k < numAt r 2 1 then decide (v < 2 ^ 30) else v == 0xFFFFFFFF
  let credit (k : Nat) : Bool := decide (1 ≤ numAt r (0x14 + 2 * k) 2) && decide (numAt r (0x14 + 2 * k) 2 ≤ 2048)
  (numAt r 0 1 % 2 == 0 || (List.range 4).all credit) && highZero r 0 1 && highZero r 1 6 && decide (numAt r 2 1 ≤ 3) && zeroAt r 7 1 && viaOk 0 && viaOk 1 && viaOk 2 && zeroAt r 0x1C 4

/-- Slot directory records (R79). -/
def dirSound (r : List Byte) : Bool := highZero r 2 1 && zeroAt r 3 1

/-- A beam entry of a plan (Table 7.5). -/
def planBeamSound (r : List Byte) : Bool :=
  let mask (o : Nat) : Bool := numAt r o 5 % 2 == 0 && decide (numAt r o 5 < 2 ^ 33)
  zeroAt r 1 1 && mask 2 && mask 7

/-- `n` port blocks from the start of a byte string (Table 7.4). -/
def blocksSound : Nat → List Byte → Bool
  | 0, _ => true
  | n + 1, b =>
    let k := numAt b 1 1
    highZero b 0 6 && decide (k ≤ 32) && numAt b 2 5 % 2 == 0 && decide (numAt b 2 5 < 2 ^ 35) && zeroAt b 7 1 &&
      ((List.range k).all fun j => planBeamSound (cut b (8 + 12 * j) 12)) && blocksSound n (b.drop (8 + 12 * k))

/-- Bytes of `n` port blocks. -/
def blocksLen : Nat → List Byte → Nat
  | 0, _ => 0
  | n + 1, b => let k := 8 + 12 * numAt b 1 1; k + blocksLen n (b.drop k)

/-- The plan record that a directory record names (Tables 7.3 and 7.9): its plan_id, its Dim flag, its length. -/
def planSound (x : List Byte) (d : BitVec 16 × Bool × Nat) : Bool :=
  let p := x.drop d.2.2
  d.1 == 0xFFFF ||
    (BitVec.ofNat 16 (numAt p 0 2) == d.1 && numAt p 2 2 == 16 + blocksLen (numAt p 4 1) (p.drop 16) && decide (numAt p 2 2 ≤ 4096) &&
      decide (numAt p 4 1 ≤ 64) && highZero p 5 1 && (numAt p 5 1 == 1) == d.2.1 && zeroAt p 9 7 && blocksSound (numAt p 4 1) (p.drop 16))

/-- Family records (Table 7.7). -/
def familySound (r : List Byte) : Bool := zeroAt r 8 8

/-- Rule records (Table 7.8). -/
def ruleSound (r : List Byte) : Bool := zeroAt r 7 1

/-- Segment records and restart points (Table 3.8). -/
def segSound (r : List Byte) : Bool := zeroAt r 2 2

/-- Restart points (Table 3.8). -/
def restartSound (r : List Byte) : Bool := decide (numAt r 2 2 < 2)

/-- Region records (Table 3.9). -/
def regionSound (r : List Byte) : Bool :=
  decide (1 ≤ numAt r 2 1) && decide (numAt r 2 1 ≤ 5) && decide (numAt r 3 1 ≤ 1) && zeroAt r 4 4 && decide (numAt r 0 2 ≤ 255) &&
    decide (numAt r 0x18 1 ≤ 2) && zeroAt r 0x19 7

/-- The POWER record (Table 3.10). -/
def powerSound (r : List Byte) : Bool :=
  decide (numAt r 8 2 < 2) && zeroAt r 0xB 1 && zeroAt r 0x2C 20 &&
    (List.range 16).all fun i => decide (i < numAt r 0xA 1) || numAt r (0xC + 2 * i) 2 == 0xFFFF

/-- The CALIB record (Table 3.11). -/
def calibSound (r : List Byte) : Bool := highZero r 1 2 && zeroAt r 2 2 && zeroAt r 0x14 44

/-- The SIGNATURE section and its manifest (Tables 3.12 and 3.13). -/
def signatureSound (b : List Byte) : Bool :=
  match signatureEntry b with
  | some e => zeroAt b (e.off + 2) 6 && zeroAt b (e.off + 0x38 + 0x16) 2 && zeroAt b (e.off + 0x38 + 0x40) 64
  | none => false

/-- Placement records (R144). -/
def placementSound (r : List Byte) : Bool := highZero r 7 2

/-- A gate operation record keeps its reserved operands 0 (Table 5.5). -/
def gateSound (r : List Byte) : Bool :=
  match numAt r 0 1 with
  | 1 => zeroAt r 12 4 && decide (numAt r 2 2 < 2)
  | 2 => zeroAt r 1 1 && decide (numAt r 2 2 < 3)
  | 3 => zeroAt r 1 1 && decide (numAt r 2 2 < 2)
  | 4 => zeroAt r 1 1
  | _ => true

/-- The paged-plan directories keep their reserved bytes 0 and name sound records without the Dim flag (R79, R224). -/
def pagedSound (b : List Byte) (regions : List RegionRec) : Bool :=
  (regions.filter fun r => r.use == 2).all fun r =>
    let x := regionBytes b r
    let rs := (List.range (numAt x 0 4)).map fun j => cut x (8 + 8 * j) 8
    zeroAt x 4 4 && rs.all dirSound && (parseDir rs).all fun d => !d.2.1 && planSound x d

/-! ### Instruction words (R105, R106) -/

/-- An instruction word has an opcode and fields of Table 4.3, with its reserved fields 0. -/
def instrSound (w : Nat) : Bool :=
  let f := bits w
  match w / 2 ^ 56 with
  | 0x0 | 0xE | 0xF => f 55 0 == 0
  | 0x1 => f 55 49 == 0 && f 47 32 == 0
  | 0x2 => decide (1 ≤ f 55 52) && decide (f 55 52 ≤ 3) && f 51 49 == 0 && f 35 28 != 0 && f 27 25 != 6 && f 24 0 == 0
  | 0x3 => f 55 50 == 0 && f 43 32 == 0 && f 15 0 == 0
  | 0x4 => decide (1 ≤ f 55 48) && decide (f 55 48 ≤ 64) && f 31 0 == 0
  | 0x5 => (f 55 52 == 2 || f 55 52 == 3) && f 31 0 == 0
  | 0x6 => decide (f 55 52 ≤ 5) && f 39 0 == 0
  | 0x7 => f 39 32 == 0
  | 0x8 => (if f 55 48 = 0 then decide (f 31 24 < 128) else f 55 48 == 1 && decide (f 31 24 < 32)) && f 23 0 == 0
  | 0x9 => decide (f 55 48 < 8) && f 39 32 != 0 && f 31 0 == 0
  | 0xA => f 55 49 == 0 && f 47 0 == 0
  | 0xB => f 55 51 == 0 && f 47 32 == 0
  | 0xC => decide (f 55 52 ≤ 2) && (f 55 52 != 1 || decide (f 51 48 < 8)) && f 39 16 == 0
  | 0xD => decide (f 55 48 < 32) && f 31 0 == 0
  | _ => false

/-- The instruction words of a program or segment: those that are not descriptor words of an ISSUE, of which `skip` are still to come. -/
def instrWords : Nat → List Nat → List Nat
  | _, [] => []
  | n + 1, _ :: l => instrWords n l
  | 0, w :: l => w :: instrWords (if w / 2 ^ 56 = 4 then bits w 55 48 else 0) l

/-- The words that RESDATA puts into a segment (R80, R81). -/
def segWords (b : List Byte) (regions : List RegionRec) (g : SegRec) : List Nat :=
  match regions.find? fun r => r.use == 3 && decide (r.stack * 2 ^ 36 + r.base ≤ g.addr) &&
      decide (g.addr < r.stack * 2 ^ 36 + r.base + r.length) with
  | some r =>
    let x := regionBytes b r
    (List.range (g.len / 8)).map fun k => numAt x (g.addr - (r.stack * 2 ^ 36 + r.base) + 8 * k) 8
  | none => []

/-- The words of the program part. -/
def progWords (b : List Byte) : List Nat := (partRecs (theSec b 5) 0 8).map leNat

/-- The code of the image: the program part, and each segment. -/
def codeLists (b : List Byte) (regions : List RegionRec) : List (List Nat) :=
  progWords b :: ((partRecs (theSec b 5) 2 16).map parseSeg).map (segWords b regions)

/-- Every instruction of the image: of the program part and of the segments. -/
def imageInstrs (b : List Byte) (regions : List RegionRec) : List Nat := (codeLists b regions).flatMap (instrWords 0)

/-- The descriptors of the ISSUEs among code words, of which `skip` are still descriptor words. -/
def descrsOf : Nat → List Nat → List (List Nat)
  | _, [] => []
  | n + 1, _ :: l => descrsOf n l
  | 0, w :: l => if w / 2 ^ 56 = 4 then l.take (bits w 55 48) :: descrsOf (bits w 55 48) l else descrsOf 0 l

/-- Reserved fields of a descriptor are 0, and it has the words that it counts (R70, R133, Tables 5.6, 5.9, 5.10, R152, R157, R160, Table 6.4). -/
def descrSound (ws : List Nat) : Bool :=
  let f (i hi lo : Nat) : Nat := bits (nth ws i 0) hi lo
  ws.length == f 0 39 32 &&
    match f 0 63 56 with
    | 0x10 => f 0 51 40 == 0 && f 2 15 0 == 0 && f 3 63 16 == 0
    | 0x20 => f 0 51 48 == 0 && f 0 47 43 == 0 && (if f 0 41 40 = 1 then f 3 63 0 == 0 else f 2 26 16 == 0)
    | 0x21 => f 0 41 41 == 0 && f 0 47 43 == 0 && f 4 31 16 == 0
    | 0x35 => f 0 55 48 == 0
    | _ => true

/-- A route entry keeps its reserved bits 0 (R159). -/
def routeSound (r : List Byte) : Bool := highZero r 1 4

/-! ### What the program refers to (R60, R80, Tables 2.2 and 2.5) -/

/-- The window that an instruction index would lie in (R108). -/
def windowOf (i : Nat) : Nat := (65535 - i) / 2048

/-- First instruction index of a window (R108). -/
def windowBase (w : Nat) : Nat := 65536 - 2048 * (w + 1)

/-- Instruction words with their indices, from index `i` on; `skip` words are still descriptor words. -/
def instrsAt : Nat → Nat → List Nat → List (Nat × Nat)
  | _, _, [] => []
  | n + 1, i, _ :: l => instrsAt n (i + 1) l
  | 0, i, w :: l => (i, w) :: instrsAt (if w / 2 ^ 56 = 4 then bits w 55 48 else 0) (i + 1) l

/-- The program, and each segment in every window to which a CALL of the image takes it. -/
def codeAt (b : List Byte) (regions : List RegionRec) : List (List (Nat × Nat)) :=
  let segs := (partRecs (theSec b 5) 2 16).map parseSeg
  instrsAt 0 0 (progWords b) :: ((imageInstrs b regions).filter fun w => w / 2 ^ 56 == 0xD).filterMap fun w =>
    (segs.find? fun g => g.id.toNat == bits w 47 32).map fun g => instrsAt 0 (windowBase (bits w 55 48)) (segWords b regions g)

/-- The instruction at an index is the COMMIT of an epoch barrier phase. -/
def closesBarrier (l : List (Nat × Nat)) (i : Nat) : Bool :=
  (l.any fun e => e.1 == i && e.2 / 2 ^ 56 == 0xA) &&
    ((l.filter fun e => decide (e.1 < i) && e.2 / 2 ^ 56 == 1).getLast?.map fun e => bits e.2 48 48 == 1).getD false

/-- The entry names instructions, each restart point the COMMIT of a barrier phase, and each unhidden cost a phase (Table 3.8). -/
def pointsOk (b : List Byte) (regions : List RegionRec) : Bool :=
  let sc := theSec b 5
  let e := cut sc (partOf sc 1).1 8
  let code := codeAt b regions
  let named (l : List (Nat × Nat)) (i : Nat) : Bool := l.any fun x => x.1 == i
  (partOf sc 1).2 == 1 && named (instrsAt 0 0 (progWords b)) (numAt e 0 4) && (code.any fun l => named l (numAt e 4 4)) &&
    ((partRecs sc 3 8).map parseRestart).all (fun r => code.any fun l => closesBarrier l r.index) &&
    (partRecs sc 4 8).all fun r => (imageInstrs b regions).any fun w => w / 2 ^ 56 == 1 && bits w 31 0 == numAt r 0 4

/-- The instruction words of code split at its PHASEs. -/
def phasesOf : List Nat → List (List Nat)
  | [] => []
  | w :: l => match phasesOf l with
    | [] => [[w]]
    | p :: r => if (p.head?.map fun x => x / 2 ^ 56 == 1).getD false then [w] :: p :: r else (w :: p) :: r

/-- No phase waits for a token that it sends itself on a beam that returns to this place (Table 2.2, Progress); the rest of the token graph lies
in the images of other places. -/
def progressOk (b : List Byte) (regions : List RegionRec) : Bool :=
  let beams := (flatRecs (theSec b 2) 32).map parseBeam
  (codeLists b regions).all fun l => (phasesOf (instrWords 0 l)).all fun p =>
    let sent := (p.filter fun w => w / 2 ^ 56 == 5 && (nth beams (bits w 51 44) {}).peerPlace.toNat == numAt b 0x028 4 % 2 ^ 24).map fun w => bits w 43 32
    p.all fun w => w / 2 ^ 56 != 2 || !sent.contains (bits w 47 36)

/-- Every overflow region into which a DISPATCH may park has a DISPATCH with the overflow flag that empties it (Table 2.2, Capacity). -/
def capacityOk (b : List Byte) (regions : List RegionRec) : Bool :=
  let ds := ((codeLists b regions).flatMap (descrsOf 0)).filter fun d => bits (nth d 0 0) 63 56 == 0x20 && bits (nth d 0 0) 41 40 != 1
  ds.all fun d => bits (nth d 3 0) 63 32 == 2 ^ 32 - 1 ||
    ds.any fun g => bits (nth g 0 0) 42 42 == 1 && bits (nth g 3 0) 63 32 == bits (nth d 3 0) 63 32

/-- The image uses at most 8,192 pairs of beam and remote slot (R105). -/
def sendPairsOk (ws : List Nat) : Bool :=
  decide (((ws.filter fun w => w / 2 ^ 56 == 5).map fun w => (bits w 51 44, bits w 43 32)).dedup.length ≤ 8192)

/-- The layout of R68, the reserved bytes of R70, the record layouts of the section tables and the instruction words of R106 hold. -/
def imageSound (b : List Byte) : Bool :=
  let st := theSec b 1
  let pl := theSec b 3
  let sl := theSec b 4
  let sc := theSec b 5
  let sites := partRecs st 0 16
  let ports := partRecs st 1 16
  let code := imageInstrs b ((flatRecs (theSec b 9) 32).map parseRegion)
  let rs := (flatRecs (theSec b 9) 32).map parseRegion
  code.all instrSound && ((codeLists b rs).flatMap (descrsOf 0)).all descrSound && (partRecs (theSec b 6) 1 4).all routeSound && pointsOk b rs &&
    progressOk b rs && capacityOk b rs && sendPairsOk code && layoutOk b && (loadedSecs b).all (headOk b) && sites.length == 6 && ((indexed sites).all fun e => siteSound e.1 e.2) &&
    ports.length == 64 && ports.all portSound && pairsSound ports && (partRecs st 2 8).all connSound && (partRecs st 3 8).all bindSound &&
    (flatRecs (theSec b 2) 32).all beamSound && (flatRecs pl 8).all dirSound && (parseDir (flatRecs pl 8)).all (planSound pl) &&
    (partRecs sl 0 16).all familySound && (partRecs sl 1 8).all ruleSound && (partRecs sc 2 16).all segSound &&
    (partRecs sc 3 8).all restartSound && (flatRecs (theSec b 9) 32).all regionSound &&
    pagedSound b ((flatRecs (theSec b 9) 32).map parseRegion) && powerSound (cut (theSec b 0xB) 16 64) && calibSound (cut (theSec b 0xC) 16 64) &&
    signatureSound b && (flatRecs (theSec b 7) 8).all placementSound && (partRecs (theSec b 6) 0 16).all gateSound

/-! ### Places, regions and segments (R46, R76, R80, R81) -/

/-- A place identifier that level 2.0 does not reserve (R46). -/
def placeOk (p : Nat) : Bool := decide (p < 0x8000)

/-- The image's places: its own below N, N from 1 to 32,768, and every place that a port, a beam or a placement entry names (R46). -/
def placesOk (i : Image) : Bool :=
  decide (1 ≤ i.places) && decide (i.places ≤ 32768) && decide (i.place.toNat < i.places) &&
    (i.ports.toList.all fun r => r.place == 0xFFFFFFFF || placeOk r.place.toNat) &&
    (i.beams.all fun r => !r.valid || (placeOk r.peerPlace.toNat && r.via.all fun v => v == 0xFFFFFFFF || placeOk (v.toNat % 2 ^ 24))) &&
    i.placement.all fun w => !w.getLsbD 56 || placeOk (w.toNat % 2 ^ 24)

/-- Regions lie in their stack, do not overlap one another or the image load area, and each region_id occurs once (R81). -/
def regionsOk (i : Image) : Bool :=
  (i.regions.all fun r => decide (r.base + r.length ≤ 2 ^ 36)) &&
    allApart ((loadBase, 2 ^ 32) :: i.regions.map fun r => (regionBase r, r.length)) && (i.regions.map (·.id)).Nodup

/-- A range lies wholly within one region of a use (R63, R80). -/
def inUse (i : Image) (use a n : Nat) : Bool :=
  i.regions.any fun r => r.use == use && decide (regionBase r ≤ a) && decide (a + n ≤ regionBase r + r.length)

/-- Segments are 1 byte to 16 KiB long and lie in a region of use 3; the program fits the schedule memory (R80). -/
def scheduleOk (i : Image) : Bool :=
  decide (i.program.length ≤ 65536) && i.segs.all fun g => decide (1 ≤ g.len) && decide (g.len ≤ 16384) && inUse i 3 g.addr g.len

/-! ### Plans and selectors (R203, R209, R220, R221, R224, R226) -/

/-- The masks of a list share no line. -/
def disjoint35 : List LineSet → Bool
  | [] => true
  | m :: l => (l.all fun k => m &&& k == 0) && disjoint35 l

/-- Lines in a mask. -/
def width35 (m : LineSet) : Nat := ((List.range 35).filter fun n => m.getLsbD n).length

/-- The lines that a plan makes local on a port. -/
def planLocal (p : PlanRec) (q : Nat) : LineSet :=
  (p.blocks.filter fun k => k.port == q).foldl (fun m k => k.beams.foldl (fun n e => n ||| e.tx) m) 0

/-- The lines that a plan puts in pass on a port's receive fibre. -/
def planPass (p : PlanRec) (q : Nat) : LineSet := (p.blocks.filter fun k => k.port == q).foldl (fun m k => m ||| k.pass) 0

/-- The other port of an express pair (R27). -/
def pairOf (q : Nat) : Nat := if q % 2 = 0 then q + 1 else q - 1

/-- The lines of a port that may be express (R76, R202). -/
def expressAllowed (r : PortRec) : LineSet := if r.express then r.mask.setWidth 35 else 0

/-- Where this place is a via of a beam, its plan puts the beam's lines in pass on the entry port's receive fibre one way, and on the exit port's
the other way (R209). -/
def viasPass (i : Image) (p : PlanRec) (e : PlanBeam) : Bool :=
  (nth i.beams e.beam.val {}).via.all fun v =>
    v == 0xFFFFFFFF || v.toNat % 2 ^ 24 != i.place.toNat ||
      (e.tx &&& ~~~ planPass p (v.toNat / 2 ^ 24 % 64) == 0 && e.rx &&& ~~~ planPass p (pairOf (v.toNat / 2 ^ 24 % 64)) == 0)

/-- Every line that R202 makes express on a port is allowed by the port's express_mask. -/
def expressOk (i : Image) (p : PlanRec) : Bool :=
  (List.finRange 64).all fun q => planPass p (pairOf q.val) &&& ~~~ planLocal p q.val &&& ~~~ expressAllowed i.ports[q] == 0

/-- The peer beam of a beam that returns to this place is lit in the same plan with the masks exchanged (R209); the plans of other places lie
in their own images. -/
def peerOk (i : Image) (p : PlanRec) (e : PlanBeam) : Bool :=
  let r := nth i.beams e.beam.val {}
  r.peerPlace != i.place || p.blocks.any fun k => k.beams.any fun g => g.beam.val == r.peerBeam.toNat && g.tx == e.rx && g.rx == e.tx

/-- A beam entry names a valid beam of the block's port, and both its widths lie from 1 to 32 (R209). -/
def planBeamOk (i : Image) (p : PlanRec) (k : PlanBlock) (e : PlanBeam) : Bool :=
  let r := nth i.beams e.beam.val {}
  r.valid && r.port.val == k.port && decide (1 ≤ width35 e.tx) && decide (width35 e.tx ≤ 32) && decide (1 ≤ width35 e.rx) &&
    decide (width35 e.rx ≤ 32) && peerOk i p e && viasPass i p e

/-- One port block of a plan that is no Dim plan (R209). -/
def blockOk (i : Image) (p : PlanRec) (k : PlanBlock) : Bool :=
  disjoint35 (k.beams.map (·.tx)) && disjoint35 (k.beams.map (·.rx)) && (k.beams.all fun e => e.rx &&& k.pass == 0) &&
    decide (k.beams.length ≤ 32) && k.beams.all (planBeamOk i p k)

/-- Ports rise from block to block, so each appears at most once (R208, R209). -/
def portsRise : List PlanBlock → Bool
  | a :: b :: l => decide (a.port < b.port) && portsRise (b :: l)
  | _ => true

/-- A Dim plan shows only shed sets, of valid beams of the block's port, and no line twice (R209, R221). -/
def dimOk (i : Image) (p : PlanRec) : Bool :=
  p.blocks.all fun k => k.pass == 0 && disjoint35 (k.beams.map (·.tx)) &&
    k.beams.all fun e =>
      let r := nth i.beams e.beam.val {}
      e.rx == 0 && r.valid && r.port.val == k.port

/-- A plan record keeps the conditions of R209, or those of R221 when it is a Dim plan. -/
def planOk (i : Image) (p : PlanRec) : Bool :=
  portsRise p.blocks && (p.blocks.all fun k => decide (k.port < 64)) &&
    (if p.dim then dimOk i p else p.blocks.all (blockOk i p) && expressOk i p)

/-- Every plan_id occurs at most once, every plan keeps its conditions, and the plan in slot 0 is no Dim plan (R79, R209, R211). -/
def plansOk (i : Image) : Bool := (i.plans.map (·.planId)).Nodup && i.plans.all (planOk i) && !((i.slotDir.head?.map (·.2)).getD false)

/-- The plans of dim_plan are resident and carry the Dim flag (R224). -/
def dimPlansOk (i : Image) : Bool :=
  i.power.dim.all fun d => i.slotDir.any (fun e => e.1 == d && e.2) && i.plans.any fun p => p.planId == d && p.dim

/-- The loss of a span, 0.0001 dB: connectors and declared fibre (Table 10.3). -/
def declaredLoss (r : PortRec) : Nat := 5000 * r.connectors + 5 * r.fibre

/-- What this place's image declares of the loss of a beam's path, 0.0001 dB: the endpoint penalty, each hop, its first span, and the spans that
leave this place where it is a via (R318, Table 10.3). -/
def pathLoss (i : Image) (r : BeamRec) : Nat :=
  14500 + 14500 * r.hops + declaredLoss i.ports[r.port] +
    ((r.via.filter fun v => v != 0xFFFFFFFF && v.toNat % 2 ^ 24 == i.place.toNat).map fun v =>
      declaredLoss i.ports[fin! 64 (pairOf (v.toNat / 2 ^ 24 % 64))]).foldl (· + ·) 0

/-- Every valid beam's path fits the budget of 8.5 dB as far as this image declares its spans (R318, Table 2.2; DEDUCED,
log entry 212). -/
def lossOk (i : Image) : Bool := i.beams.all fun r => !r.valid || decide (pathLoss i r ≤ 85000)

/-- The credits that the beams of a port advertise fit its buffers: 2,048 data credits and 1,024 header credits (R251). -/
def creditsOk (i : Image) : Bool :=
  (List.finRange 64).all fun p =>
    let l := i.beams.filter fun r => r.valid && r.port == p
    let sum (k : Nat) : Nat := (l.map fun r => nth r.adv k 0).foldl (· + ·) 0
    decide (sum 1 + sum 3 ≤ 2048) && decide (sum 0 + sum 2 ≤ 1024)

/-- A family's variants, rules and experts lie within their limits (R220, Table 7.9). -/
def familyOk (i : Image) (f : FamilyRec) : Bool :=
  decide (f.ruleCount ≤ 16) && decide (1 ≤ f.variants) && decide (f.variants ≤ 64) && decide (f.default_.toNat < f.variants) &&
    decide (0xB ≤ f.histFmt) && decide (f.histFmt ≤ 0xD) && decide (1 ≤ f.e) && decide (f.e ≤ 1024) &&
    decide (f.firstRule + f.ruleCount ≤ i.rules.length) &&
    ((i.rules.drop f.firstRule).take f.ruleCount).all fun r =>
      decide (1 ≤ r.len) && decide (r.len ≤ 32) && decide (r.variant.toNat < f.variants) && decide (r.start + r.len ≤ i.experts.length) &&
        ((i.experts.drop r.start).take r.len).all fun x => decide (x < f.e)

/-- The tables of an image lie within the limits of Tables 2.6, 7.9 and of R137, R144. -/
def tablesOk (i : Image) : Bool :=
  decide (i.families.length ≤ 4096) && decide (i.rules.length ≤ 65536) && decide (i.experts.length ≤ 262144) && i.families.all (familyOk i) &&
    decide (i.gate.length ≤ 4096) && decide (i.routes.length ≤ 16384) && decide (i.placement.length ≤ 65536)

/-! ### The image as a whole -/

/-- How many sections of a type an image has. -/
def secsOf (i : Image) (t : Nat) : Nat := (i.digests.filter fun d => d.1 == t).length

/-- Section counts as Table 3.3 permits them (R72). -/
def countsOk (i : Image) : Bool :=
  ([1, 2, 3, 5, 9, 0xB, 0xC].all fun t => secsOf i t == 1) && ([4, 6, 7, 8].all fun t => decide (secsOf i t ≤ 1)) && decide (secsOf i 0xA ≤ 255)

/-- RESDATA goes into a region whose init is 2 and fits within it (R81). -/
def resdataOk (i : Image) : Bool :=
  i.resdata.all fun d => i.regions.any fun r => r.id == d.region && r.init == 2 && decide (d.dest + d.len ≤ r.length)

/-- The image keeps every rule that the loader leaves unchecked and that one place's image shows (Table 2.5). -/
def imageConsistent (i : Image) : Bool :=
  i.sound && countsOk i && resdataOk i && calibOk i.calib && powerOk i.power && placesOk i && regionsOk i && scheduleOk i && plansOk i &&
    dimPlansOk i && tablesOk i && lossOk i && creditsOk i

end Sys2Proof.Machine
end

