-- ==== Sys2Proof/Machine/Image.lean ====
section
/-!
DEFINITION. Image loading: the firmware's image commands of chapter 3 and the replacement at a restart point.
-/

namespace Sys2Proof.Machine

/-- Word `i` of a message. -/
def mword (m : Msg) (i : Nat) : Nat := (nth m.words.toList i 0).toNat

/-- Two words of a message as a 64-bit number, low word first. -/
def mword2 (m : Msg) (i : Nat) : Nat := mword m i + 2 ^ 32 * mword m (i + 1)

/-- The code of a command message (R88). -/
def mcode (m : Msg) : Nat := mword m 0 % 65536

/-- The tag of a command message (R88). -/
def mtag (m : Msg) : BitVec 16 := BitVec.ofNat 16 (mword m 0 / 65536)

/-- The firmware answers image commands: it runs, and Penumbra has been entered (R494) or a Fatal event led back to Umbra
(Table 16.7). -/
def imgOn (s : State) : Bool := s.mgt.fwState == fwRunning && (s.dev.state != .umbra || s.dev.fatal)

/-- The message waiting on host-to-firmware channel 00. -/
def imgWaiting (s : State) : Option Msg := if (s.mbx.h2f[0]).go then some (s.mbx.h2f[0]).msg else none

/-- The sequencer holds at the armed restart point with a replacement to apply. -/
def applyReady (s : State) : Bool :=
  s.img.state == .armed && s.ctl.phase == 6 && s.ctl.heldAt.isSome && (s.ctl.arm.map (·.id)) == s.ctl.heldAt

/-- An armed restart point that the sequencer has reached: the replacement is applied, and the load state is Idle from then on
(Tables 3.17, 3.19). -/
def applyDue (s : State) : State := if applyReady s then { s with img := { s.img with state := .idle, copying := true } } else s

/-- Takes the waiting image command of a code and carries it out; without one, nothing happens (log entry 26). -/
def onImg (code : Nat) (f : Msg → State → State) (s : State) : State :=
  match imgWaiting s with
  | some m => if imgOn s ∧ mcode m = code then f m (mbxTaken (.h2f 0) (applyDue s)) else s
  | none => s

/-- Codes of Table 3.15. -/
def cImgQuery : Nat := 0x0101
/-- IMG_BEGIN -/
def cImgBegin : Nat := 0x0102
/-- IMG_CHUNK -/
def cImgChunk : Nat := 0x0103
/-- IMG_VERIFY -/
def cImgVerify : Nat := 0x0104
/-- IMG_COMMIT -/
def cImgCommit : Nat := 0x0105
/-- IMG_ABORT -/
def cImgAbort : Nat := 0x0106
/-- DEV_PENUMBRA -/
def cDevPenumbra : Nat := 0x0107

/-- The load-state code of IMG_QUERY. -/
def loadCode : LoadState → Nat
  | .idle => 0
  | .loading => 1
  | .verifying => 2
  | .verified => 3
  | .armed => 4

/-- The reply words of IMG_QUERY from word 02 on (Table 3.15). -/
def queryWords (s : State) : List Word :=
  let p := (s.img.image.map fun i : Image => i.programId.toNat).getD 0
  [w32 (0x0200 + 0x0200 * 65536),
   w32 (stepping.toNat + devCode s.dev.state * 2 ^ 8 + loadCode s.img.state * 2 ^ 16 + b2n s.ctl.arm.isSome * 2 ^ 24),
   w32 (p % 2 ^ 32), w32 (p / 2 ^ 32),
   (s.img.image.map fun i : Image => i.place.setWidth 32).getD 0xFFFFFFFF]

/-- IMG_QUERY. -/
def execImgQuery (s : State) : Host.Outcome State Fault Refusal :=
  run (onImg cImgQuery fun m s => imgReply cImgQuery (mtag m) stOK (queryWords s) s) s

/-- The chunks that are still being moved reach the load area no more. -/
def killChunks (l : Load) : Load := { l with half := l.half.map fun h => h.map fun c => { c with dead := true } }

/-- The image that was being loaded is discarded: its chunks still moving no longer count. -/
def discard (l : Load) : Load := { killChunks l with state := .idle, pending := none, written := [] }

/-- The record of an arming, cleared unless it is marked partial (R97). -/
def clearArm (c : Ctl) : Ctl := if (c.arm.map (·.part)).getD false then c else { c with arm := none }

/-- A running verification, or the arming of an armed image, is answered ABORTED; an arming's record is cleared unless partial
(Table 3.17). -/
def abortRunning (s : State) : State :=
  match s.img.state with
  | .verifying => imgReply cImgVerify s.img.tag stAborted10 [] s
  | .armed => imgReply cImgCommit s.img.tag stAborted10 [] { s with ctl := clearArm s.ctl }
  | _ => s

/-- The status with which IMG_BEGIN is refused, or OK (R88, R409, R446, R494; their order is log entry 27). -/
def beginStatus (s : State) (size : Nat) : Nat :=
  if (s.hbm.stack[1]).state = stFailed then stUnavailable
  else if (s.hbm.stack[1]).state ≠ stReady then stBusy
  else if (s.mgt.update.map (·.path)) = some .pcie then stBusy
  else if 2 ^ 32 < size then stSize
  else stOK

/-- IMG_BEGIN: Loading, any pending image discarded (Table 3.17). -/
def imgBeginCmd (m : Msg) (s : State) : State :=
  let st := beginStatus s (mword2 m 1)
  if st ≠ stOK then imgReply cImgBegin (mtag m) st [] s
  else
    let s1 := abortRunning s
    imgReply cImgBegin (mtag m) stOK [] { s1 with img := { discard s1.img with state := .loading, size := mword2 m 1 } }

/-- A commit or a restart-point copy is reading the load area. -/
def loadInUse (s : State) : Bool := s.img.committing || s.img.copying

/-- IMG_BEGIN. While a commit or a copy reads the load area the command waits in its channel (log entry 26). -/
def execImgBegin (s : State) : Host.Outcome State Fault Refusal :=
  run (fun s => if loadInUse (applyDue s) then s else onImg cImgBegin imgBeginCmd s) s

/-- The longest chunk: one half of the window (R89). -/
def chunkMax : Nat := 2 ^ 25

/-- A half from which no chunk is being moved. -/
def halfFree (s : State) (h : Nat) : Bool := (nth s.img.half.toList h none).isNone

/-- IMG_CHUNK (Table 3.15): starts moving a chunk, or refuses it and moves nothing. -/
def imgChunkCmd (m : Msg) (s : State) : State :=
  if 1 < mword m 4 then imgReply cImgChunk (mtag m) stUnknown [] s
  else if s.img.state ≠ .loading then imgReply cImgChunk (mtag m) stSequence [] s
  else if mword m 3 = 0 ∨ chunkMax < mword m 3 ∨ s.img.size < mword2 m 1 + mword m 3 then
    imgReply cImgChunk (mtag m) stSize [] s
  else { s with img := { s.img with
      half := updN s.img.half (mword m 4) fun _ =>
        some { off := mword2 m 1, len := mword m 3, tag := mtag m, torn := m.dirty.getLsbD (mword m 4) } } }

/-- IMG_CHUNK. A chunk that names a half still being emptied waits in its channel (log entry 26). -/
def execImgChunk (s : State) : Host.Outcome State Fault Refusal :=
  run (fun s =>
    match imgWaiting s with
    | some m => if halfFree s (mword m 4) ∨ 1 < mword m 4 then onImg cImgChunk imgChunkCmd s else s
    | none => s) s

/-- The index of a half. -/
def halfIx : Half → Fin 2
  | .a => 0
  | .b => 1

/-- A chunk has left its half: its bytes lie in the load area and the reply is sent (R89). -/
def chunkDone (h : Fin 2) (s : State) : State :=
  match s.img.half[h] with
  | none => s
  | some c =>
    let s1 := { s with img := { s.img with half := upd s.img.half h fun _ => none } }
    let data := if c.torn then leBytes c.len (Config.freeValue (8 * c.len) s.fresh).toNat
      else s.host.bar2.readN (h.val * 2 ^ 25) c.len
    let s2 := if c.dead then s1
      else hbmWrite (loadBase + c.off) data
        { s1 with fresh := s.fresh + 1, img := { s1.img with written := (c.off, c.len) :: s1.img.written } }
    imgReply cImgChunk c.tag stOK [] s2

/-- CHUNK_MOVED. -/
def execChunkMoved (h : Half) (s : State) : Host.Outcome State Fault Refusal := run (chunkDone (halfIx h)) s

/-- IMG_VERIFY: Verifying, or SEQUENCE (R90). -/
def imgVerifyCmd (m : Msg) (s : State) : State :=
  if s.img.state = .loading then { s with img := { s.img with state := .verifying, tag := mtag m } }
  else imgReply cImgVerify (mtag m) stSequence [] s

/-- IMG_VERIFY. -/
def execImgVerify (s : State) : Host.Outcome State Fault Refusal := run (onImg cImgVerify imgVerifyCmd) s

/-- What a refused image reports: key or floor as an event of Table 18.10, signature or digest by its SEC_EVENT bit (Tables 15.7,
15.13). -/
def refusedImage (st : Nat) (s : State) : State :=
  if st = stKey ∨ st = stVersion then logEvent clsReported blkMGT 0x0106 0 (setEv blkSEC 0 0 s)
  else if st = stSignature ∨ st = stDigest then
    flag blkSEC 0 1 s
  else s

/-- The firmware reads ranges of the load area; an uncorrectable word among them is reported (Tables 13.4, 18.10). -/
def loadReads (ranges : List (Nat × Nat)) (words : List (Nat × WordError)) (s : State) : State :=
  let s1 := ranges.foldl (fun t r => readRange srcFirmware (loadBase + r.1) r.2 words t) s
  if (ranges.any fun r => (poisonIn s1 (loadBase + r.1) r.2).isSome) then logEvent clsReported blkHBM 0x0102 1 s1 else s1

/-- What verification reads: the whole image, when its chunks cover it (log entry 25). -/
def verifyRanges (s : State) : List (Nat × Nat) := if covered s.img.written (s.img.written.length + 1) 0 s.img.size then [(0, s.img.size)] else []

/-- Verification ends (R90, Table 3.17). A chunk that is still being moved then changes no verified byte (R91, log entry 171). -/
def verifyDone (words : List (Nat × WordError)) (s0 : State) : State :=
  if s0.img.state ≠ .verifying then s0
  else
    let s := loadReads (verifyRanges s0) words s0
    let st := verifyStatus s
    let s1 := if st = stOK then { s with img := { killChunks s.img with
        state := .verified, pending := some { parseImage (loadBytes s) with sound := imageSound (loadBytes s) } } }
      else refusedImage st { s with img := discard s.img }
    imgReply cImgVerify s.img.tag st [] s1

/-- VERIFY_COMPLETE. -/
def execVerifyComplete (s : State) (words : List (Nat × WordError) := []) : Host.Outcome State Fault Refusal := run (verifyDone words) s

/-- IMG_ABORT: the pending image is discarded, an arming withdrawn, and a held record that is not partial cleared (Table 3.17, R97). -/
def imgAbortCore (s : State) : State :=
  if loadInUse s then s else
  let s1 := abortRunning s
  { s1 with img := discard s1.img, ctl := clearArm s1.ctl }

/-- IMG_ABORT. -/
def imgAbortCmd (m : Msg) (s : State) : State :=
  if loadInUse s ∨ (s.img.state = .idle ∧ s.ctl.arm = none) then imgReply cImgAbort (mtag m) stSequence [] s
  else imgReply cImgAbort (mtag m) stOK [] (imgAbortCore s)

/-- IMG_ABORT. -/
def execImgAbort (s : State) : Host.Outcome State Fault Refusal := run (onImg cImgAbort imgAbortCmd) s

/-! ### Commits -/

/-- An IMG_COMMIT of a mode waits. -/
def commitWaits (s : State) (mode : Nat) : Bool :=
  match imgWaiting s with
  | some m => imgOn s && mcode m == cImgCommit && mword m 1 == mode
  | none => false

/-- A region of an image lies on a Failed stack (R409). -/
def namesFailed (s : State) (i : Image) : Bool :=
  i.regions.any fun r => (s.hbm.stack[fin! 2 r.stack]).state == stFailed

/-- The status of a mode 0 commit, OK when it is accepted (Table 3.17, R92, R409, R494). DESIGN CHOICE (log entry 184): the spec is silent on a
full commit while Lit entry is under way; the model accepts it, and Lit waits for it to complete. -/
def fullStatus (s : State) : Nat :=
  match s.img.state, s.img.pending with
  | .verified, some i =>
    if s.dev.state ≠ .penumbra ∨ phaseOpen s.ctl.phase then stState
    else if (s.hbm.stack[1]).state = stFailed ∨ namesFailed s i then stUnavailable
    else if (s.hbm.stack[1]).state ≠ stReady then stBusy
    else stOK
  | _, _ => stSequence

/-- A mode 0 commit starts, or is refused. -/
def commitFullCmd (m : Msg) (s : State) : State :=
  let st := fullStatus s
  if st ≠ stOK then imgReply cImgCommit (mtag m) st [] s
  else { s with img := { s.img with state := .idle, committing := true, tag := mtag m } }

/-- IMG_COMMIT_FULL. -/
def execImgCommitFull (s : State) : Host.Outcome State Fault Refusal :=
  run (fun s => if commitWaits s 0 then onImg cImgCommit commitFullCmd s else s) s

/-- The sections that change only through Penumbra, as type, instance and digest (Table 3.18). -/
def penumbraSecs (i : Image) : List (Nat × Nat × BitVec 256) :=
  i.digests.filter fun d => d.1 ∈ [1, 2, 3, 4, 9] ||
    (d.1 == 0xA && i.regions.any fun r => r.id == d.2.1 && (r.use == 2 || r.use == 3))

/-- Two lists hold the same entries. -/
def sameSet {α : Type} [DecidableEq α] (a b : List α) : Bool := (a.all fun x => x ∈ b) && b.all fun x => x ∈ a

/-- A replacement that may be armed at a restart point (R94). -/
def matches_ (c p : Image) (id : BitVec 16) : Bool :=
  c.programId == p.programId && c.place == p.place && sameSet (penumbraSecs c) (penumbraSecs p) &&
    c.restarts.any fun r => r.id == id

/-- The status of a mode 1 commit (Table 3.17, R94); a partial record admits only its own point (log entry 28). -/
def restartStatus (s : State) (id : BitVec 16) : Nat :=
  match s.img.state, s.img.pending with
  | .verified, some p =>
    if (s.ctl.arm.map fun a => a.part && a.id != id).getD false then stSequence
    else match s.img.image with
      | some c => if matches_ c p id then stOK else stMismatch
      | none => stMismatch
  | _, _ => stSequence

/-- A mode 1 commit arms a replacement and records it in the control root (R97), or is refused. DESIGN CHOICE (log entry 183): R97 does not list a
commit that names another restart point among what clears a held record that is not partial; the model replaces the record. -/
def commitRestartCmd (m : Msg) (s : State) : State :=
  let id := BitVec.ofNat 16 (mword m 2)
  let st := restartStatus s id
  imgReply cImgCommit (mtag m) st []
    (if st = stOK then { s with
        img := { s.img with state := .armed, tag := mtag m }
        ctl := { s.ctl with arm := some { id := id, tag := mtag m, part := (s.ctl.arm.map (·.part)).getD false } } }
     else s)

/-- IMG_COMMIT_RESTART. -/
def execImgCommitRestart (s : State) : Host.Outcome State Fault Refusal :=
  run (fun s => if commitWaits s 1 then onImg cImgCommit commitRestartCmd s else s) s

/-! ### Replacement at a restart point (R95, R97) -/

/-- REPLACEMENT_APPLY: the copy starts. -/
def execReplacementApply (s : State) : Host.Outcome State Fault Refusal := run applyDue s

/-- A section of a type differs between two images. -/
def secChanged (c p : Image) (t : Nat) : Bool :=
  !sameSet (c.digests.filter fun d => d.1 == t) (p.digests.filter fun d => d.1 == t)

/-- A RESDATA section that another image holds alike: same region, place, length and digest. -/
def sameRes (a b : ResSec) : Bool := a.region == b.region && a.dest == b.dest && a.len == b.len && a.digest == b.digest

/-- The RESDATA sections of regions of use 1 that a replacement copies: those that the committed image does not hold alike, or all of them
after a partial copy (R95, R97). -/
def weightSecs (c p : Image) (part : Bool) : List ResSec :=
  p.resdata.filter fun d => (p.regions.any fun r => r.id == d.region && r.use == 1) && (part || !c.resdata.any (sameRes d))

/-- Copies RESDATA sections out of the load area into their regions (R81). -/
def copyResdata (i : Image) (l : List ResSec) (s : State) : State :=
  l.foldl (fun t d =>
    match i.regions.find? fun r => r.id == d.region with
    | some r => hbmWrite (regionBase r + d.dest) (t.hbm.mem.readN (loadBase + d.off) d.len) t
    | none => t) s

/-- The ranges of the load area that a replacement copies: its changed sections, or every one that may change at a restart point after a partial
copy (R95, R97, Table 3.18). -/
def copiedRanges (c p : Image) (part : Bool) : List (Nat × Nat) :=
  ((p.spans.filter fun e => (e.1 ∈ [5, 6, 7, 8, 0xB, 0xC]) && (part || secChanged c p e.1)).map (·.2.2)) ++
    (weightSecs c p part).map fun d => (d.off, d.len)

/-- The first uncorrectable word in ranges of the load area. -/
def rangesPoison (s : State) (l : List (Nat × Nat)) : Option Nat := l.findSome? fun r => poisonIn s (loadBase + r.1) r.2

/-- The image as a copy finds it in the load area: as verified, but for words whose error the code missed (R402). -/
def imageRead (words : List (Nat × WordError)) (p : Image) (s : State) : Image :=
  if words.any fun e => e.2 == .more false then { parseImage (loadBytes s) with sound := imageSound (loadBytes s) } else p

/-- The state of the active sequencer as a Mirror record of its last commit (Table 4.7). -/
def recordNow (s : State) : MirrorRec :=
  let u := s.sq.unit[s.sq.active]
  { iter := s.ctl.iter, phaseId := s.ctl.phaseId, serial := s.ctl.serial, epoch := s.ctl.epoch, pc := u.pc, lc := u.lc, stack := u.stack, v := u.v }

/-- A standby in sync holds the active's state as its confirmed record (R119). -/
def mirrorNow (s : State) : State :=
  let b := otherUnit s.sq.active
  if (s.sq.unit[b]).state = .inSync then
    { s with sq := { s.sq with unit := upd s.sq.unit b fun q => { q with confirmed := some (recordNow s), pending := none } } }
  else s

/-- A hold ends while a takeover is under way: the standby resumes after the hold (Table 3.19). -/
def holdEndsFenced (e : Nat) (f : Fence) (s : State) : State :=
  let b := otherUnit s.sq.active
  let go (r : MirrorRec) : MirrorRec := if s.ctl.newEntry then { r with pc := BitVec.ofNat 16 e } else r
  { s with
    ctl := { s.ctl with heldAt := none, newEntry := false, applied := false }
    sq := { s.sq with
      fence := some { f with from_ := 1 }
      unit := upd s.sq.unit b fun q => { q with confirmed := q.confirmed.map go } } }

/-- The sequencer leaves Held: at the SCHEDULE entry when an applied replacement changed SCHEDULE, otherwise after the barrier
(R95, Table 4.6). -/
def holdEnds (s : State) : State :=
  let e := (s.img.image.map fun i : Image => i.entry.1).getD 0
  match s.sq.fence with
  | some f => holdEndsFenced e f s
  | none =>
    let s1 := { s with ctl := { s.ctl with phase := 1, heldAt := none, newEntry := false, applied := false } }
    mirrorNow (if s.ctl.newEntry then { s1 with sq := { s1.sq with unit := upd s1.sq.unit s1.sq.active fun u => { u with pc := BitVec.ofNat 16 e } } }
      else s1)

/-- The restart point at which the sequencer is Held has the hold flag in the SCHEDULE that reached it (R80, R95). -/
def heldByFlag (c : Image) (s : State) : Bool := c.restarts.any fun r => some r.id == s.ctl.heldAt && r.hold

/-- The changed sections take effect (R95, Table 3.18): the committed image is the replacement, run-ahead and biases as its
changes ask. After a partial copy every section is written, and the changes are those against the committed image (R97). -/
def applyImage (c p : Image) (part : Bool) (s : State) : State :=
  let ch (t : Nat) : Bool := secChanged c p t
  let s1 := bothStores (fun q => if ch 5 || part then { q with program := p.program } else q) (copyResdata p (weightSecs c p part) s)
  { s1 with
    img := { s1.img with image := some p, pending := none, copying := false, written := [] }
    ctl := { s1.ctl with
      arm := none
      newEntry := s1.ctl.newEntry || ch 5
      applied := true
      runAhead := s1.ctl.runAhead && !(ch 5 || ch 6 || ch 7 || ch 8) }
    ce := if ch 6 || ch 7 then { s1.ce with bias := [] } else s1.ce }

/-- The copy of R95 ends; an uncorrectable word in what it copies stops it: DIGEST, the image discarded, the program Ended (Table 13.4). -/
def copyDone (words : List (Nat × WordError)) (s0 : State) : State :=
  if s0.img.copying = false then s0
  else match s0.img.image, s0.img.pending, s0.ctl.arm with
    | some c, some p0, some a =>
      let s := loadReads (copiedRanges c p0 a.part) words s0
      let p := imageRead words p0 s
      if (rangesPoison s (copiedRanges c p0 a.part)).isSome then
        imgReply cImgCommit a.tag stDigest [] (refusedImage stDigest { s with
          img := { discard s.img with copying := false }, ctl := { dropPhase s.ctl with phase := 10 } })
      else
        let s1 := imgReply cImgCommit a.tag stOK [] (applyImage c p a.part s)
        let s2 := if s1.ctl.heldAt.isNone || heldByFlag c s1 then s1 else holdEnds s1
        if imageConsistent p then s2 else freeWork s2
    | _, _, _ => s0

/-! ### The staging window -/

/-- The half of the window that an offset lies in. -/
def halfOf (off : Nat) : Nat := off / 2 ^ 25

/-- A message that waits in a firmware channel while the host writes halves of the window keeps note of them. -/
def noteHalves (hit : Nat → Bool) (c : Fin 16) (t : TxChan) : TxChan :=
  if t.go ∧ c.val ≤ 1 then { t with msg := { t.msg with dirty := t.msg.dirty ||| BitVec.ofNat 2 (b2n (hit 0) + 2 * b2n (hit 1)) } } else t

/-- The host's bytes enter the window (R460). Writing a half between sending a chunk command that names it and the reply is a host error
whose outcome is confined to the pending image or package (R89, Table 2.5): the chunk's bytes become unpredictable. -/
def bar2Store (off : Nat) (data : List Byte) (s : State) : State :=
  let hit (h : Nat) : Bool := (List.range data.length).any fun i => halfOf (off + i) == h
  let fw (u : FwUpdate) : FwUpdate := match u.phase with
    | .programming _ _ src => { u with torn := u.torn || hit src }
    | _ => u
  { s with
    host := { s.host with bar2 := s.host.bar2.writeN off data }
    mbx := { s.mbx with h2f := vmk 16 fun c => noteHalves hit c s.mbx.h2f[c] }
    mgt := { s.mgt with update := s.mgt.update.map fw }
    img := { s.img with half := vmk 2 fun h => (s.img.half[h]).map fun c => { c with torn := c.torn || hit h.val } } }

/-- A host's read of `n` bytes of the window: the bytes last written (R460). -/
def bar2Load (off n : Nat) (s : State) : State :=
  if n = 0 then s else emit (.bar2Read (s.host.bar2.readN off (min n (2 ^ 26 - off)))) s

/-- BAR2_WRITE, and the host's read of `read` bytes at the same place, which no row of its own commands. -/
def execBar2Write (off : BitVec 26) (data : List Byte) (s : State) (read : Nat := 0) : Host.Outcome State Fault Refusal :=
  runBar (fun s => bar2Load off.toNat read (bar2Store off.toNat (data.take (2 ^ 26 - off.toNat)) s)) s

end Sys2Proof.Machine
end

