-- ==== Sys2Proof/Machine/Link.lean ====
section
/-!
DEFINITION. The optical link layer of a beam (chapter 8): the flit, sequence numbers and credits, the transmitter and receiver of a beam, and the
retrain handshake.
-/

namespace Sys2Proof.Machine

/-! ### Flits (R235 to R237) -/

/-- One bit of a reflected CRC-32. -/
def crc32Bit (c : Word) : Word := if c.getLsbD 0 then (c >>> 1) ^^^ 0xEDB88320 else c >>> 1

/-- The CRC-32 of IEEE 802.3 (R235). -/
def crc32 (l : List Byte) : Word :=
  ~~~ l.foldl (fun c b => crc32Bit (crc32Bit (crc32Bit (crc32Bit (crc32Bit (crc32Bit (crc32Bit (crc32Bit (c ^^^ b.setWidth 32))))))))) 0xFFFFFFFF

/-- The fields of a flit (Table 8.3). -/
structure Flit where
  /-- type -/
  typ : BitVec 4
  /-- class -/
  cls : BitVec 2
  /-- head flag -/
  head : Bool
  /-- token flag -/
  tok : Bool
  /-- switch count, low 4 bits -/
  sw : BitVec 4
  /-- attempt -/
  attempt : BitVec 4
  /-- sequence number -/
  seq : BitVec 16
  /-- acknowledgement -/
  ack : BitVec 16
  /-- source place -/
  place : BitVec 24
  /-- source beam -/
  beam : BitVec 8
  /-- credit counter -/
  csel : Fin 4
  /-- cumulative returned credits, modulo 16,384 -/
  ccount : BitVec 14
  /-- 240 payload bytes -/
  body : List Byte
  deriving DecidableEq, Repr

/-- The 252 bytes of a flit that its CRC covers. -/
def flitHead (f : Flit) : List Byte :=
  [BitVec.ofNat 8 (f.typ.toNat + 16 * f.cls.toNat + 64 * b2n f.head + 128 * b2n f.tok),
   BitVec.ofNat 8 (f.sw.toNat + 16 * f.attempt.toNat)] ++
  leBytes 2 f.seq.toNat ++ leBytes 2 f.ack.toNat ++ leBytes 3 f.place.toNat ++ [f.beam] ++
  leBytes 2 (f.csel.val + 4 * f.ccount.toNat) ++ (f.body ++ List.replicate 240 0).take 240

/-- The 256 bytes of a flit (R235). -/
def flitBytes (f : Flit) : List Byte := flitHead f ++ leBytes 4 (crc32 (flitHead f)).toNat

/-- The flit that 256 bytes spell, when the CRC holds (R235). -/
def flitOf (raw : List Byte) : Option Flit :=
  if raw.length = 256 ∧ leNat ((raw.drop 252).take 4) = (crc32 (raw.take 252)).toNat then
    let b0 := (byteAt raw 0).toNat
    let b1 := (byteAt raw 1).toNat
    let c := leNat ((raw.drop 10).take 2)
    some { typ := BitVec.ofNat 4 b0, cls := BitVec.ofNat 2 (b0 / 16), head := b0 / 64 % 2 == 1, tok := b0 / 128 % 2 == 1
           sw := BitVec.ofNat 4 b1, attempt := BitVec.ofNat 4 (b1 / 16)
           seq := BitVec.ofNat 16 (leNat ((raw.drop 2).take 2)), ack := BitVec.ofNat 16 (leNat ((raw.drop 4).take 2))
           place := BitVec.ofNat 24 (leNat ((raw.drop 6).take 3)), beam := byteAt raw 9
           csel := fin! 4 c, ccount := BitVec.ofNat 14 (c / 4), body := (raw.drop 12).take 240 }
  else none

/-- The payload bytes of a DATA flit on the wire, with its token extension (R237). -/
def outBody (o : OutFlit) : List Byte :=
  match o.token with
  | none => (o.payload ++ List.replicate 240 0).take 240
  | some w => (o.payload ++ List.replicate 228 0).take 228 ++ leBytes 2 (min 228 o.payload.length) ++ [0, 0] ++ leBytes 8 w.toNat

/-- A received DATA flit as its queue holds it. -/
def inFlit (f : Flit) : OutFlit :=
  if f.tok then
    { cls := f.cls, head := f.head, token := some (BitVec.ofNat 64 (leNat ((f.body.drop 232).take 8))), attempt := f.attempt,
      payload := f.body.take (min 228 (leNat ((f.body.drop 228).take 2))) }
  else { cls := f.cls, head := f.head, token := none, attempt := f.attempt, payload := f.body }

/-- Bytes of a line mask (Table 7.5). -/
def maskBytes (m : LineSet) : List Byte := leBytes 5 m.toNat

/-- The line mask that 5 bytes of a payload spell. -/
def maskAt (b : List Byte) (o : Nat) : LineSet := BitVec.ofNat 35 (leNat ((b.drop o).take 5))

/-! ### Beams and their masks -/

/-- This place, all ones without an image. -/
def ownPlace (s : State) : BitVec 24 := (s.img.image.map fun i : Image => i.place).getD 0xFFFFFF

/-- The port of a beam. -/
def portOf (s : State) (b : Beam) : Port := (beamRec s b).port

/-- The beams of a port. -/
def beamsOf (s : State) (p : Port) : List Beam := (fins 256).filter fun b => (beamRec s b).valid && decide (portOf s b = p)

/-- A beam is lit: training, up, switching or degraded. -/
def beamLit (q : BeamSt) : Bool := decide (2 ≤ q.state.toNat) && decide (q.state.toNat ≤ 5)

/-- What the Port Engine's plan in force gives a beam. -/
def planEntry (s : State) (b : Beam) : Option PlanBeam :=
  ((s.port[portOf s b]).block).bind fun e => e.2.beams.find? fun r => decide (r.beam = b)

/-- Lines that a substitution carries in a direction: transmit substitutions are 0 and 1, receive ones 2 and 3. -/
def carried (q : PortSt) (rx : Bool) : LineSet :=
  ((fins 4).filter fun i => decide (2 ≤ i.val) == rx).foldl (fun m i =>
    match q.sub[i] with
    | some u => if u.phase = .standing ∨ u.phase = .returning then setBit m u.line.val else m
    | none => m) 0

/-- Lines not out of service for a fault in a direction: bit 0 receive, bit 1 transmit (R504). -/
def inOrder (q : PortSt) (d : Nat) : LineSet :=
  BitVec.ofNat 35 (boolsNat ((fins 35).map fun n => !((q.line[n]).out.getLsbD d)))

/-- Lines whose share a spare carries, or is about to (R294, R296): a substitution of any progress, or a need that waits for its spare. -/
def coveredLines (q : PortSt) (rx : Bool) : LineSet :=
  let m := ((fins 4).filter fun i => decide (2 ≤ i.val) == rx).foldl (fun m i =>
    match q.sub[i] with
    | some u => setBit m u.line.val
    | none => m) 0
  q.needs.foldl (fun m u => if u.rx == rx then setBit m u.line.val else m) m

/-- The lines that a beam's plan and this end's usable lines ask for in each direction (R265, R505). -/
def wantMasks (s : State) (b : Beam) : LineSet × LineSet :=
  let q := s.port[portOf s b]
  match planEntry s b with
  | none => (0, 0)
  | some e => (e.tx &&& ~~~ q.dimmed &&& ((q.partnerOk &&& inOrder q 1) ||| coveredLines q false), e.rx &&& ((q.lineOk &&& inOrder q 0) ||| coveredLines q true))

/-- Number of lines of a mask. -/
def lineCount (m : LineSet) : Nat := popc m

/-- The widths equal the plan's less the lines that Dim sheds (Table 8.11). -/
def fullWidth (s : State) (b : Beam) : Bool :=
  match planEntry s b with
  | none => false
  | some e =>
    let q := s.beam[b]
    lineCount q.txMask == lineCount (e.tx &&& ~~~ (s.port[portOf s b]).dimmed) && lineCount q.rxMask == lineCount e.rx

/-- A beam's line set changes: its receiver has to find its place in the stream of words again (R238, R266). -/
def setMasks (m : LineSet × LineSet) (q : BeamSt) : BeamSt := { q with txMask := m.1, rxMask := m.2, placeLost := true }

/-- A beam that carries data again is Up or Degraded, or still Training when a retrain has been requested meanwhile (Table 8.11). -/
def beamOpen (b : Beam) (s : State) : State :=
  onBeam b (fun q => { q with state := if q.retrain.isSome then 2 else if fullWidth s b then 3 else 5 }) s

/-- Adds to a beam counter (Table 8.20). -/
def beamCount (b : Beam) (k : Fin 16) (n : Nat) (s : State) : State :=
  onBeam b (fun q => { q with counters := upd q.counters k (· + BitVec.ofNat 64 n) }) s

/-- Queues a control flit. -/
def pushCtl (b : Beam) (typ : BitVec 4) (payload : List Byte) (s : State) : State :=
  onBeam b (fun q => { q with ctl := q.ctl ++ [⟨typ, payload⟩] }) s

/-- A switch has arrived at a Port Engine and is not complete. -/
def PortSwitch.running (e : PortSwitch) : Bool := e.stage == .arrived || e.stage == .anchored || e.stage == .ringsSet

/-- No switch that affects the beam is under way at its port. -/
def switchDone (s : State) (b : Beam) : Bool :=
  (s.port[portOf s b]).switchQ.all fun e => !(e.running && decide (b ∈ e.beams))

/-- Lines that a switch has made local and that its rings do not serve yet: they are lit at event 2 (Table 7.6). -/
def darkLines (q : PortSt) : LineSet := q.switchQ.foldl (fun m e => if e.stage = .anchored then m ||| e.lines else m) 0

/-- The transmit lines on which a beam's flits go out, on a port in service. -/
def sendLines (s : State) (b : Beam) : LineSet :=
  let q := s.port[portOf s b]
  if portUp q then (s.beam[b]).txMask &&& ~~~ darkLines q else 0

/-! ### INIT (R263, Table 8.6) -/

/-- The INIT payload: the credits this end advertises, and whether the peer's INIT has been received (Table 8.5). -/
def initPayload (s : State) (b : Beam) (seen : Bool) : List Byte :=
  ((beamRec s b).adv ++ [0, 0, 0, 0]).take 4 |>.flatMap (leBytes 2) |> (· ++ [BitVec.ofNat 8 (b2n seen)])

/-- A beam is first lit: it trains and sends INIT (Table 8.6). -/
def beamFirst (b : Beam) (s : State) : State :=
  pushCtl b 6 (initPayload s b false) (onBeam b (fun q => { q with state := 2, tx := .init, seq := 0, txFlits := 0, rxWords := 0, placeLost := true }) s)

/-- INIT_RESEND: INIT goes out again every 100 ns while the transmitter is in Init. -/
def initResend (b : Beam) (s : State) : State :=
  if (s.beam[b]).tx = .init then pushCtl b 6 (initPayload s b (s.beam[b]).initSeen) s else s

/-- INIT_RESEND. -/
def execInitResend (b : Beam) (s : State) : Host.Outcome State Fault Refusal := run (initResend b) s

/-- Initialisation ends: the transmitter runs. A beam that a switch affects, and that has not yet met both conditions of R214, waits for them. -/
def initDone (b : Beam) (s : State) : State :=
  let q := s.beam[b]
  if switchDone s b && q.peerSw == BitVec.ofNat 4 q.swcount then beamOpen b (onBeam b (fun q => { q with tx := .run }) s)
  else onBeam b (fun q => { q with state := 4, tx := .paused, waitNew := true, newSeen := decide (q.peerSw = BitVec.ofNat 4 q.swcount) }) s

/-- What an INIT does: the receiver starts, the INIT is answered, and the transmitter runs when bit 0 is set (Tables 8.6, 8.7). -/
def initMsg (b : Beam) (body : List Byte) (s : State) : State :=
  let acked := (byteAt body 8).getLsbD 0
  let adv : Vector Nat 4 := vmk 4 fun i => leNat ((body.drop (2 * i.val)).take 2)
  let q := s.beam[b]
  let s1 := onBeam b (fun q => { q with
    initSeen := true
    initAcked := q.initAcked || acked
    rx := if q.rx = .uninit then .run else q.rx
    next := if q.rx = .uninit then 0 else q.next
    advertised := if q.tx = .init then adv else q.advertised }) s
  let s2 := pushCtl b 6 (initPayload s1 b true) s1
  if q.tx = .init ∧ acked then initDone b s2 else s2

/-! ### Acknowledgement, credits, resume (R242, R244, R253) -/

/-- Flits of a beam that an acknowledgement covers. -/
def ackCovers (q : BeamSt) (ack : BitVec 16) : Nat :=
  match q.unacked with
  | [] => 0
  | (n, _) :: _ => let k := (ack - n).toNat; if k ≤ q.unacked.length then k else 0

/-- An acknowledgement: covered flits leave their replay entries (R242, R248). -/
def ackRx (ack : BitVec 16) (q : BeamSt) : BeamSt :=
  let k := ackCovers q ack
  if k = 0 then q
  else
    let l := q.unacked.drop k
    { q with unacked := l, acked := ack, expiries := 0, resend := q.resend.filter fun n => l.any fun e => e.1 == n }

/-- A returned-credit count, unwrapped (R253). -/
def creditRx (c : Fin 4) (n : BitVec 14) (q : BeamSt) : BeamSt :=
  { q with returned := upd q.returned c fun r => r + (n.toNat + 16384 - r % 16384) % 16384 }

/-- A flit that costs no credit: token-only (R251). -/
def tokenOnly (o : OutFlit) : Bool := o.token.isSome && decide (o.payload = [])

/-- The counters a flit needs a credit of: its class's data counter, and its header counter when it has the head flag (R251). -/
def creditsOf (o : OutFlit) : List (Fin 4) :=
  if tokenOnly o then []
  else
    let h : Fin 4 := fin! 4 (2 * o.cls.toNat)
    let d : Fin 4 := fin! 4 (2 * o.cls.toNat + 1)
    if o.head then [h, d] else [d]

/-- A counter's credits allow one more flit (R253). -/
def hasCredit (q : BeamSt) (c : Fin 4) : Bool := decide (q.consumed[c] + 1 ≤ q.advertised[c] + q.returned[c])

/-- A flit has the credits it needs. -/
def affordable (q : BeamSt) (o : OutFlit) : Bool := (creditsOf o).all (hasCredit q)

/-- Credit wait ends when the limit has advanced enough (Table 8.6). -/
def creditOk (q : BeamSt) : BeamSt :=
  match q.tx, q.queue with
  | .creditWait, o :: _ => if affordable q o then { q with tx := .run } else q
  | .creditWait, [] => { q with tx := .run }
  | _, _ => q

/-- A swcount is older than another: behind it by 1 to 8 modulo 16 (R214). -/
def swOlder (newest x : BitVec 4) : Bool := decide (1 ≤ (newest - x).toNat) && decide ((newest - x).toNat ≤ 8)

/-- A swcount is newer: ahead by 1 to 7 modulo 16 (R214). -/
def swNewer (newest x : BitVec 4) : Bool := decide (1 ≤ (x - newest).toNat) && decide ((x - newest).toNat ≤ 7)

/-- A beam resumes data: every flit that the latest ack does not cover is resent (Table 8.6). -/
def resume (b : Beam) (s : State) : State :=
  beamOpen b (onBeam b (fun q => { q with
    tx := .run, resend := q.unacked.map (·.1), expiries := 0, waitNew := false, newSeen := false }) s)

/-- A retrain of a beam has passed its go. -/
def retrainGoes (q : BeamSt) : Bool := (q.retrain.map (·.going)).getD false

/-- A beam waiting under R214 resumes once the local switch is complete and a flit of the new count has been accepted. -/
def tryResume (b : Beam) (s : State) : State :=
  let q := s.beam[b]
  if q.waitNew && q.newSeen && switchDone s b && !retrainGoes q then resume b s else s

/-- The switch count of an accepted flit: a newer one is the newest (R214). -/
def countRx (x : BitVec 4) (q : BeamSt) : BeamSt :=
  { q with peerSw := if swNewer q.peerSw x then x else q.peerSw
           newSeen := q.newSeen || (q.waitNew && x == BitVec.ofNat 4 q.swcount) }

/-- What the header of an accepted flit does: switch count, acknowledgement, credits (R214, R242, R253). -/
def headerRx (b : Beam) (f : Flit) (s : State) : State :=
  tryResume b (onBeam b (fun q => creditOk (creditRx f.csel f.ccount (ackRx f.ack (countRx f.sw q)))) s)

/-- A flit that fails its CRC, or that touches a line locked to another's light, is discarded whole (R235, R233). -/
def flitFailed (b : Beam) (s : State) : State :=
  logEvent clsCorrected blkPRT 0x0101 (portOf s b).val (beamCount b 5 1 s)

/-- A foreign flit is discarded and counted (R207). -/
def foreignFlit (s : State) : State :=
  flag blkPLN 0 3 { s with pln := { s.pln with foreign := if s.pln.foreign = BitVec.allOnes 32 then s.pln.foreign else s.pln.foreign + 1 } }

/-- The spare of a line: 0 for L33, 1 for L34 (R292). -/
def spareOf (n : Line) : Nat := if n.val ≤ 16 then 0 else 1

/-- The spare's line. -/
def spareLine (upper : Nat) : Line := fin! 35 (33 + upper)

/-- The receive lines of a beam whose share comes from a line that has found another line's marker and is not recovered: the line itself, or the
spare that stood in for it until that marker (R233, R297). -/
def wrongLines (s : State) (b : Beam) : LineSet :=
  let q := s.port[portOf s b]
  BitVec.ofNat 35 (boolsNat ((fins 35).map fun n => (s.beam[b]).rxMask.getLsbD n.val && !(carried q true).getLsbD n.val &&
    ((q.line[n]).wrong || ((q.line[n]).out.getLsbD 0 && (q.line[spareLine (spareOf n)]).wrong))))

/-- A flit touches such a line: every flit of the beam does, since its 32 words go round all of the beam's lines (R233, R238). -/
def touchesWrong (s : State) (b : Beam) : Bool := wrongLines s b != 0

/-- The 256 bytes of a flit that starts at word `k`, rebuilt from its words as they lie on the beam's receive lines: the share of each line, in
ascending order of the lines (R238, log entry 187). -/
def rebuiltAt (s : State) (b : Beam) (raw : List Byte) (k : Nat) : List Byte :=
  let w := lineCount (s.beam[b]).rxMask
  if w ≤ 1 ∨ raw.length ≠ 256 then raw else (unstripe w k (flitWords raw)).flatten

/-- The word at which the flit that comes in starts: the one after the last flit. After a change of the line set, when flits may have been lost,
the receiver takes the first place at which the CRC holds (DEDUCED, log entry 187). -/
def flitStart (s : State) (b : Beam) (raw : List Byte) : Nat :=
  let q := s.beam[b]
  if q.placeLost then
    (((List.range (lineCount q.rxMask)).map (q.rxWords + ·)).find? fun k => (flitOf (rebuiltAt s b raw k)).isSome).getD q.rxWords
  else q.rxWords

/-- The 256 bytes of the next flit of a beam. -/
def rebuilt (s : State) (b : Beam) (raw : List Byte) : List Byte := rebuiltAt s b raw (flitStart s b raw)

/-- The receive lines that carry the words of a beam: its own, and a spare that stands in for one of them. -/
def wordLines (s : State) (b : Beam) : LineSet :=
  let q := s.port[portOf s b]
  (fins 4).foldl (fun m i =>
    match q.sub[i] with
    | some u => if 2 ≤ i.val ∧ u.beam = b ∧ (u.phase = .standing ∨ u.phase = .returning) then setBit m (33 + i.val % 2) else m
    | none => m) (s.beam[b]).rxMask

/-- The end of a flit is a flit-frame boundary of the beam's lines: a threshold trim that waits there takes effect (R291). -/
def trimsApply (b : Beam) (s : State) : State :=
  onPort (portOf s b) (fun q => { q with
    line := vmk 35 fun n =>
      if (wordLines s b).getLsbD n.val then { q.line[n] with threshold := q.line[n].threshold + q.line[n].trim, trim := 0 } else q.line[n] }) s

/-- A flit has come in on a beam, whatever becomes of it. -/
def flitCame (b : Beam) (raw : List Byte) (s : State) : State :=
  trimsApply b (onBeam b (fun q => { q with
    rxWords := flitStart s b raw + 32, placeLost := q.placeLost && (flitOf (rebuilt s b raw)).isNone }) s)

/-- A flit is checked, then handled by `k` when it is of the row's type (R207, R235). -/
def flitTaken (b : Beam) (f : Option Flit) (typ : BitVec 4) (k : Flit → State → State) (s : State) : State :=
  match f with
  | none => flitFailed b s
  | some f =>
    if f.place ≠ (beamRec s b).peerPlace ∨ f.beam ≠ (beamRec s b).peerBeam then foreignFlit s
    else if f.typ = typ then k f s else s

/-- A flit arrives on a lit beam, striped over its lines. -/
def flitRx (b : Beam) (raw : List Byte) (typ : BitVec 4) (k : Flit → State → State) (s : State) : State :=
  if beamLit (s.beam[b]) = false then s
  else flitTaken b (if touchesWrong s b then none else flitOf (rebuilt s b raw)) typ k (flitCame b raw s)

/-- A flit that comes whole on each line of the beam: it fails when every line has found another line's marker (R233, R264). -/
def wholeRx (b : Beam) (raw : List Byte) (typ : BitVec 4) (k : Flit → State → State) (s : State) : State :=
  if beamLit (s.beam[b]) = false then s
  else flitTaken b (if (s.beam[b]).rxMask &&& ~~~ wrongLines s b = 0 then none else flitOf raw) typ k (trimsApply b s)

/-- A control flit: its header, then its payload. -/
def ctlRx (b : Beam) (raw : List Byte) (typ : BitVec 4) (k : List Byte → State → State) (s : State) : State :=
  flitRx b raw typ (fun f s => k f.body (headerRx b f s)) s

/-- IDLE_FLIT. -/
def execIdleFlit (b : Beam) (raw : List Byte) (s : State) : Host.Outcome State Fault Refusal := run (ctlRx b raw 0 fun _ s => s) s

/-- SWITCH_IDLE. -/
def execSwitchIdle (b : Beam) (raw : List Byte) (s : State) : Host.Outcome State Fault Refusal := run (ctlRx b raw 3 fun _ s => s) s

/-- INIT. -/
def execInit (b : Beam) (raw : List Byte) (s : State) : Host.Outcome State Fault Refusal := run (ctlRx b raw 6 (initMsg b)) s

/-- A NAK: the named flits that are not yet acknowledged are resent ahead of new data (R244, Table 8.13). -/
def nakMsg (b : Beam) (body : List Byte) (s : State) : State :=
  let n := min 64 (leNat (body.take 2))
  let ns := (List.range n).map fun i => BitVec.ofNat 16 (leNat ((body.drop (2 + 2 * i)).take 2))
  beamCount b 7 n (onBeam b (fun q => { q with
    resend := q.resend ++ (ns.filter fun x => (q.unacked.any fun e => e.1 == x) && !q.resend.contains x) }) s)

/-- NAK. -/
def execNak (b : Beam) (raw : List Byte) (s : State) : Host.Outcome State Fault Refusal := run (ctlRx b raw 2 (nakMsg b)) s

/-! ### Receiving DATA (R240, R241, R247) -/

/-- The queue of a class: its flits in the inbound buffer (R241). -/
def classQueue (q : BeamSt) (c : Fin 2) : List OutFlit := q.inbound.filter fun o => o.cls == BitVec.ofNat 2 c.val && !tokenOnly o

/-- A flit leaves the inbound buffer for the fabric: its data credit is returned (R252). -/
def giveData (o : OutFlit) (q : BeamSt) : BeamSt :=
  if tokenOnly o then q else { q with given := upd q.given (fin! 4 (2 * o.cls.toNat + 1)) (· + 1) }

/-- The record or stream that a flit begins has been handed over: its header credit is returned (R252). -/
def giveHead (o : OutFlit) (q : BeamSt) : BeamSt :=
  if o.head && !tokenOnly o then { q with given := upd q.given (fin! 4 (2 * o.cls.toNat)) (· + 1) } else q

/-- A flit discarded from the inbound buffer returns both. -/
def giveBoth (o : OutFlit) (q : BeamSt) : BeamSt := giveHead o (giveData o q)

/-- The flit belongs to a tentative record: its first flit says so, and the following ones of the class belong to it (R153, Table 5.8). -/
def isTentative (q : BeamSt) (o : OutFlit) : Bool :=
  if o.head then byteAt o.payload 0 == 0x02
  else (((q.part[fin! 2 o.cls.toNat]) ++ classQueue q (fin! 2 o.cls.toNat)).getLast?.map (·.ahead)).getD false

/-- Flits behind the last token of a list, and those up to it. -/
def openFlits : List OutFlit → List OutFlit × List OutFlit
  | [] => ([], [])
  | o :: r =>
    let x := openFlits r
    if x.1 ≠ [] then (o :: x.1, x.2) else if o.token.isSome then ([o], x.2) else ([], o :: x.2)

/-- The first flit of another attempt arrives: the partial stream of the earlier attempt is discarded, of the tentative records or of the
others as the flit is (R124, R156, R247). -/
def newAttempt (o : OutFlit) (q : BeamSt) : BeamSt :=
  let old (x : OutFlit) : Bool := x.attempt != o.attempt && x.ahead == o.ahead
  let x := openFlits q.inbound
  let q1 := (x.2.filter old).foldl (fun a f => giveBoth f a) { q with inbound := x.1 ++ x.2.filter fun f => !old f }
  if x.1 ≠ [] then q1
  else (q.part.toList.map fun l => l.filter old).flatten.foldl (fun a f => giveHead f a)
    { q1 with part := q.part.map fun l => if l.any old then [] else l }

/-- A delivered flit: counted, put in the queue of its class, its attempt kept until a token closes the stream (R241, R247). -/
def deliverOne (x : OutFlit) (q0 : BeamSt) : BeamSt :=
  let o := { x with ahead := isTentative q0 x }
  let q := if o.head && (q0.openAttempt.map fun a => a != o.attempt).getD false then newAttempt o q0 else q0
  { q with
    inbound := q.inbound ++ [o]
    next := q.next + 1
    openAttempt := if o.token.isSome then none else some o.attempt
    counters := upd q.counters 4 (· + 1) }

/-- Held flits that now follow in order are delivered too, at most `n` of them. -/
def deliverHeld : Nat → BeamSt → BeamSt
  | 0, q => q
  | n + 1, q =>
    match q.held.find? fun e => e.1 == q.next with
    | some (k, o) => deliverHeld n (deliverOne o { q with held := q.held.filter fun e => e.1 != k })
    | none => q

/-- The flit that was expected arrives. -/
def deliverNext (o : OutFlit) (q : BeamSt) : BeamSt :=
  let r := deliverHeld q.held.length (deliverOne o q)
  { r with rx := if r.held = [] then .run else .gap, naked := r.naked.filter fun n => decide ((n - r.next).toNat < 1024) }

/-- Numbers missing below `seq` that no NAK has named and that are not held. -/
def missing (q : BeamSt) (seq : BitVec 16) : List (BitVec 16) :=
  ((List.range (seq - q.next).toNat).map fun i => q.next + BitVec.ofNat 16 i).filter fun n =>
    !(q.held.any fun e => e.1 == n) && !q.naked.contains n

/-- NAK flits naming numbers, at most 64 in each (Table 8.5). -/
def sendNaks (b : Beam) (ns : List (BitVec 16)) (s : State) : State :=
  if ns = [] then s
  else
    let groups := (chunksOf 64 ((ns.length + 63) / 64) ns)
    let s1 := groups.foldl (fun t g => pushCtl b 2 (leBytes 2 g.length ++ g.flatMap fun n => leBytes 2 n.toNat) t) s
    beamCount b 6 ns.length (onBeam b (fun q => { q with naked := q.naked ++ ns }) s1)

/-- A flit ahead in the window is held and the gap named; without a free reorder entry it is discarded and named (R241). DESIGN CHOICE (log
entry 179): a flit that is held already and arrives again is discarded as a duplicate, counter 0x0A; R241 gives that case no count. -/
def aheadRx (b : Beam) (f : Flit) (s : State) : State :=
  let q := s.beam[b]
  if q.held.any fun e => e.1 == f.seq then beamCount b 10 1 s
  else if 1024 ≤ reorderUse s (portOf s b) then
    let s1 := flag blkPRT (portOf s b).val 9 (beamCount b 11 1 s)
    sendNaks b (if q.naked.contains f.seq then [] else [f.seq]) s1
  else
    sendNaks b (missing q f.seq) (onBeam b (fun q => { q with held := q.held ++ [(f.seq, inFlit f)], rx := .gap }) s)

/-- A DATA flit whose CRC passed (R241). -/
def dataRxFlit (b : Beam) (f : Flit) (s : State) : State :=
  let q := s.beam[b]
  if swOlder q.peerSw f.sw then s
  else
    let s1 := headerRx b f s
    if q.rx = .uninit then s1
    else
      let d := (f.seq - q.next).toNat
      if d = 0 then onBeam b (deliverNext (inFlit f)) s1
      else if d < 1024 then aheadRx b f s1
      else if 32768 ≤ d then beamCount b 10 1 s1
      else beamCount b 11 1 s1

/-- What a line decoder reports: symbols corrected, and codewords it could not correct (R230). -/
structure FecReport where
  /-- Line -/
  line : Line
  /-- Symbols corrected -/
  corrected : Nat
  /-- Uncorrectable codewords -/
  uncorrectable : Nat
  deriving DecidableEq, Repr

/-- A data codeword comes off a line: the scrambler is taken away and the codeword decoded (R230, R232). -/
def lineWordRx (p : Port) (w : LineWord) (s : State) : FecReport × State :=
  let x := scramble ((s.port[p]).line[w.line]).rxScr w.symbols
  (match lineDecode x.1 with
   | some e => ⟨w.line, e.2, 0⟩
   | none => ⟨w.line, 0, 1⟩, onLine p w.line (fun l => { l with rxScr := x.2 }) s)

/-- The codewords that came with a flit, decoded one after the other. -/
def lineWordsRx (p : Port) (ws : List LineWord) (s : State) : List FecReport × State :=
  ws.foldl (fun a w => let r := lineWordRx p w a.2; (a.1 ++ [r.1], r.2)) ([], s)

/-- What the line decoders report with a flit: corrected symbols and uncorrectable codewords of each line (R230, Table 8.12). -/
def fecRx (p : Port) (rs : List FecReport) (s : State) : State :=
  rs.foldl (fun t r =>
    let more (v : Vector (BitVec 64) 3) : Vector (BitVec 64) 3 :=
      upd (upd v 0 (· + BitVec.ofNat 64 r.corrected)) 1 (· + BitVec.ofNat 64 r.uncorrectable)
    let t1 := onLine p r.line (fun l => { l with counters := more l.counters }) t
    let t2 := if 0 < r.corrected then logEvent clsCorrected blkPRT 0x0100 p.val t1 else t1
    if 0 < r.uncorrectable then setEv blkPRT p.val 6 (logEvent clsCorrected blkPRT 0x0101 p.val t2) else t2) s

/-- Bytes of a flit that pass a datapath, or stand in the replay or the reorder buffer, under the (144,128) code: one 16-byte word of them is
unspecified when its error is uncorrectable or missed, and the flit's own CRC then judges them (R402, R268, log entry 222). -/
def codeBytes (code : CodeResult) (n : Nat) (raw : List Byte) : List Byte :=
  match code with
  | .clean | .corrected => raw
  | .uncorrectable | .missed _ =>
    let k := (Config.freeValue 4 n).toNat
    raw.take (16 * k) ++ (leBytes 16 (Config.freeValue 128 n).toNat ++ raw.drop (16 * k + 16)).take (raw.length - 16 * k)

/-- A correction in these stores is Corrected, as the corrected symbols of a line are (Table 8.12, log entry 222). -/
def codeLogged (p : Port) (code : CodeResult) (s : State) : State :=
  let s1 := if code = .clean then s else { s with fresh := s.fresh + 1 }
  if code = .corrected ∨ code = .missed true then logEvent clsCorrected blkPRT 0x0100 p.val s1 else s1

/-- A DATA flit arrives, with the codewords that carried it. A flit that an uncorrectable codeword spoilt is one event (R268). -/
def dataFlitRx (b : Beam) (raw0 : List Byte) (words : List LineWord) (code : CodeResult) (s0 : State) : State :=
  if beamLit (s0.beam[b]) = false then s0
  else
    let raw := codeBytes code s0.fresh raw0
    let s := codeLogged (portOf s0 b) code s0
    let x := lineWordsRx (portOf s b) words s
    let s1 := fecRx (portOf s b) x.1 x.2
    if (flitOf (rebuilt s b raw)).isNone ∧ x.1.any (fun r => decide (0 < r.uncorrectable)) then beamCount b 5 1 (flitCame b raw s1)
    else flitRx b raw 1 (dataRxFlit b) s1

/-! ### Sending (R244, R245, R248) -/

/-- The carriers of a line's share at this end: while a take-over or a return runs, line and spare both; while a spare stands in, the spare
(R296). -/
def carriers (q : PortSt) (n : Line) : List Line :=
  let i : Fin 4 := if n.val ≤ 16 then 0 else 1
  match q.sub[i] with
  | some u =>
    if u.line ≠ n then [n]
    else match u.phase with
      | .requested => [n]
      | .standing => [fin! 35 (33 + i.val)]
      | .going | .returning => [n, fin! 35 (33 + i.val)]
  | none => [n]

/-- Bytes go on a line: every 80 of them leave as a codeword with the scrambler added (R230, R232), at most `k` codewords. -/
def lineSend (p : Port) (n : Line) : Nat → State → State
  | 0, s => s
  | k + 1, s =>
    let l := (s.port[p]).line[n]
    if l.txBytes.length < 80 then s
    else
      let x := scramble l.txScr (lineEncode (l.txBytes.take 80))
      lineSend p n k (emit (.lineCodeword p n x.1) (onLine p n (fun l => { l with txBytes := l.txBytes.drop 80, txScr := x.2 }) s))

/-- Bytes of a line's share go out on its carriers. -/
def bytesOut (p : Port) (n : Line) (bytes : List Byte) (s : State) : State :=
  (carriers (s.port[p]) n).foldl (fun u n => lineSend p n (bytes.length / 80 + 1) (onLine p n (fun l => { l with txBytes := l.txBytes ++ bytes }) u)) s

/-- A flit is striped over the beam's lit transmit lines, each share on its carriers (R238). -/
def stripeOut (b : Beam) (raw : List Byte) (s : State) : State :=
  let p := portOf s b
  let q := s.beam[b]
  let ls := (fins 35).filter fun n => (sendLines s b).getLsbD n.val
  let s1 := (indexed ls).foldl (fun t e =>
    let bytes := (shareOf ls.length (32 * q.txFlits) e.1 (flitWords raw)).flatten
    bytesOut p e.2 bytes t) s
  onBeam b (fun q => { q with txFlits := q.txFlits + 1 }) s1

/-- A retrain request goes out whole on every line of the beam that still has alignment at its far end (R264; DEDUCED, log entry 213). It takes 32
words of each line, and so leaves the places of the following words as they are. -/
def wholeOut (b : Beam) (raw : List Byte) (s : State) : State :=
  let q := s.port[portOf s b]
  let m := sendLines s b &&& ((q.partnerOk &&& inOrder q 1) ||| coveredLines q false)
  ((fins 35).filter fun n => m.getLsbD n.val).foldl (fun t n => bytesOut (portOf s b) n raw t) s

/-- Sends one flit; the header takes the refreshed ack and the next credit counter of the rotation (R244, R253). DESIGN CHOICE (log entry
178): a flit that is resent carries the sender's switch count of that moment, as R214 and Table 8.3 say of every flit, where R244 keeps
its other header fields. -/
def sendFlit (b : Beam) (typ : BitVec 4) (cls : BitVec 2) (head tok : Bool) (attempt : BitVec 4) (seq : BitVec 16) (body : List Byte)
    (s : State) (put : Beam → List Byte → State → State := stripeOut) (via : List Byte → List Byte := fun raw => raw) : State :=
  let q := s.beam[b]
  let f : Flit := { typ := typ, cls := cls, head := head, tok := tok, sw := BitVec.ofNat 4 q.swcount, attempt := attempt, seq := seq,
                    ack := q.next, place := ownPlace s, beam := BitVec.ofNat 8 b.val, csel := q.csel,
                    ccount := BitVec.ofNat 14 q.given[q.csel], body := body }
  put b (via (flitBytes f)) (emit (.flit b (via (flitBytes f))) (onBeam b (fun q => { q with csel := q.csel + 1 }) s))

/-- Sends a control flit: a retrain request whole on each line, any other one striped. -/
def sendCtl (b : Beam) (c : CtlFlit) (s : State) : State :=
  sendFlit b c.typ 2 false false 0 0 c.payload s (if c.typ = 5 ∧ c.payload.head? = some 0 then wholeOut else stripeOut)

/-- Sends a DATA flit out of the replay buffer, with the error that a word of it meets there. -/
def sendData (b : Beam) (n : BitVec 16) (o : OutFlit) (s0 : State) (code : CodeResult := .clean) : State :=
  let s := codeLogged (portOf s0 b) code s0
  sendFlit b 1 o.cls o.head o.token.isSome o.attempt n (outBody o) s (via := codeBytes code s0.fresh)

/-- Nothing else to send: IDLE, or SWITCH_IDLE with the plan in force while the beam waits under R214. -/
def sendIdle (b : Beam) (s : State) : State :=
  if (s.beam[b]).waitNew then sendCtl b ⟨3, leBytes 2 s.pln.inForce.toNat⟩ s else sendCtl b ⟨0, []⟩ s

/-- LCLK root cycles (1 ns each) of one flit time, 34 ns ÷ width; a part of a cycle may or may not count. -/
def flitCycles (w : Nat) (n : Nat) : Nat :=
  if w = 0 then 0 else 34 / w + (if 34 % w = 0 then 0 else b2n (Config.freeChoice n))

/-- A flit time in which the beam waits for credit: counter 0x0C. -/
def countWait (b : Beam) (s : State) : State :=
  beamCount b 12 (flitCycles (lineCount (s.beam[b]).txMask) s.fresh) { s with fresh := s.fresh + 1 }

/-- A flit time passes on a port whose replay buffer is full: counter 0x0D, counted by the flit times of the port's first lit beam. -/
def countFull (b : Beam) (s : State) : State :=
  let p := portOf s b
  if 1024 ≤ replayUse s p ∧ (litBeams s p).head? = some b then
    let n := flitCycles (lineCount (s.beam[b]).txMask) s.fresh
    onPort p (fun q => { q with counters := upd q.counters 0 (· + BitVec.ofNat 64 n) }) { s with fresh := s.fresh + 1 }
  else s

/-- A new flit of a beam finds no replay entry: none is free, or those that are belong to beams that have waited for one (R248). -/
def replayShort (s : State) (b : Beam) : Bool :=
  !(s.beam[b]).granted &&
    (decide (1024 ≤ replayUse s (portOf s b)) || (beamsOf s (portOf s b)).any fun c => (s.beam[c]).tx == .replayWait)

/-- A DATA flit waits for a switch, issued before it was queued, that is still to change lines of its beam (R109). -/
def behindSwitch (s : State) (b : Beam) (o : OutFlit) : Bool :=
  (s.port[portOf s b]).switchQ.any fun e => decide (e.serial ≤ o.behind) && decide (b ∈ e.beams)

/-- A new DATA flit is sent for the first time: it takes a replay entry and its credits (R248, R253). -/
def sendNew (b : Beam) (o : OutFlit) (rest : List OutFlit) (s : State) (code : CodeResult := .clean) : State :=
  let n := (s.beam[b]).seq
  let s1 := onBeam b (fun q => { q with
    queue := rest, seq := q.seq + 1, unacked := q.unacked ++ [(n, o)], granted := false
    consumed := (creditsOf o).foldl (fun v c => upd v c (· + 1)) q.consumed }) s
  let s2 := onPort (portOf s b) (fun q => { q with peak := max q.peak (replayUse s1 (portOf s b)) }) s1
  sendData b n o (beamCount b 3 1 s2) code

/-- The oldest tentative record of a beam whose transmission has not started. -/
def tentNext (s : State) (b : Beam) : Option Tentative := s.ce.queue.find? fun e => decide (e.beam = b) && !e.started

/-- With nothing else to send, a waiting tentative record starts: from then on it is sent whole (R153, R155). DESIGN CHOICE (log entry 176):
R153 does not rank tentative records against the other traffic of their beam; the model starts one only when nothing else is queued. -/
def tentStart (b : Beam) (s : State) : State :=
  let q := s.beam[b]
  match tentNext s b with
  | none => s
  | some e =>
    let ready := (e.flits.head?.map fun o => affordable q o).getD true
    if q.tx = .run ∧ q.ctl = [] ∧ q.resend = [] ∧ q.queue = [] ∧ ready = true ∧ replayShort s b = false then
      onBeam b (fun q => { q with queue := e.flits.map fun o => { o with behind := s.pln.issued } }) { s with ce := { s.ce with
        queue := s.ce.queue.map fun x => if x = e then { x with started := true } else x } }
    else s

/-- A beam without a new flit to send gives back an entry that was granted to it. -/
def grantBack (b : Beam) (s : State) : State := onBeam b (fun q => { q with granted := false, tx := if q.tx = .replayWait then .run else q.tx }) s

/-- The next flit of a beam, in the order of R244. -/
def flitNext (b : Beam) (s : State) (code : CodeResult := .clean) : State :=
  let q := s.beam[b]
  if (beamLit q = false ∧ q.state ≠ 6) ∨ sendLines s b = 0 then s
  else match q.ctl with
    | c :: r => sendCtl b c (onBeam b (fun q => { q with ctl := r }) s)
    | [] =>
      if q.tx = .run ∨ q.tx = .creditWait ∨ q.tx = .replayWait then
        match q.resend with
        | n :: r =>
          let s1 := onBeam b (fun q => { q with resend := r }) s
          match q.unacked.find? fun e => e.1 == n with
          | some (_, o) => sendData b n o (beamCount b 8 1 s1) code
          | none => sendIdle b s1
        | [] =>
          match q.queue with
          | [] => sendIdle b (grantBack b s)
          | o :: r =>
            if behindSwitch s b o then sendIdle b s
            else if q.tx = .replayWait then sendIdle b s
            else if affordable q o = false then
              sendIdle b (if q.tx = .creditWait then s else countWait b (onBeam b (fun q => { q with tx := .creditWait }) s))
            else if replayShort s b then sendIdle b (onBeam b (fun q => { q with tx := .replayWait }) s)
            else sendNew b o r (onBeam b (fun q => { q with tx := .run }) s) code
      else sendIdle b s

/-- A flit boundary of a beam: the flit time counts, and the next flit goes. -/
def flitTx (b : Beam) (s : State) (code : CodeResult := .clean) : State :=
  let t := countFull b (tentStart b s)
  flitNext b (if (s.beam[b]).tx = .creditWait then countWait b t else t) code

/-- FLIT_BOUNDARY. -/
def execFlitBoundary (b : Beam) (s : State) (code : CodeResult := .clean) : Host.Outcome State Fault Refusal :=
  run (fun s => flitTx b s code) s

/-- REPLAY_ENTRY_GRANT: a free replay entry goes round-robin to a stalled beam, which holds it from then on (R248). -/
def replayGrant (p : Port) (s : State) : State :=
  if 1024 ≤ replayUse s p then s
  else
    let g := (s.port[p]).grant
    let l := (beamsOf s p).filter fun b => (s.beam[b]).tx == .replayWait
    match (l.filter (fun b => decide (g ≤ b.val)) ++ l.filter (fun b => decide (b.val < g))).head? with
    | some b => onPort p (fun q => { q with grant := (b.val + 1) % 256 }) (onBeam b (fun q => { q with tx := .run, granted := true }) s)
    | none => s

/-- REPLAY_ENTRY_GRANT. -/
def execReplayEntryGrant (p : Port) (s : State) : Host.Outcome State Fault Refusal := run (replayGrant p) s

/-- A beam's retransmit timer and credit timeout run: not unlit, paused or broken (R245, R254). -/
def timersRun (q : BeamSt) : Bool := q.tx == .run || q.tx == .creditWait || q.tx == .replayWait

/-! ### Retrain of a beam (R264 to R266) -/

/-- The RETRAIN payload of a kind with masks, seen from this end (Table 8.5). -/
def retrainPayload (s : State) (b : Beam) (kind : Nat) (number : BitVec 8) (m : LineSet × LineSet) : List Byte :=
  [BitVec.ofNat 8 kind, number] ++ maskBytes m.1 ++ maskBytes m.2 ++ leBytes 3 (ownPlace s).toNat ++ [BitVec.ofNat 8 (portOf s b).val]

/-- This end leads a retrain: the lower place, with equal places the lower port (R265). -/
def leads (s : State) (b : Beam) (peerPort : Nat) : Bool :=
  let p := (beamRec s b).peerPlace
  decide ((ownPlace s).toNat < p.toNat) || (ownPlace s == p && decide ((portOf s b).val < peerPort))

/-- The merge of a direction: the smaller width wins, on equal widths the leader's mask (R265). -/
def mergeMask (leader follower : LineSet) : LineSet := if lineCount follower < lineCount leader then follower else leader

/-- The transmit lines that this end has asked for, or uses while it asks for nothing. -/
def askedTx (q : BeamSt) : LineSet := (q.retrain.map (·.wantTx)).getD q.txMask

/-- What a peer's masks say of the lines it can receive: one that this end asks for and the peer leaves out is out of its service, one that
the peer names is in it (R505). A line that this end does not ask for is not judged. -/
def learnPeer (b : Beam) (peerRx : LineSet) (s : State) : State :=
  match planEntry s b with
  | none => s
  | some e => onPort (portOf s b) (fun q =>
      { q with partnerOk := (q.partnerOk &&& ~~~ (e.tx &&& askedTx (s.beam[b]) &&& ~~~ peerRx)) ||| (e.tx &&& peerRx) }) s

/-! ### Receive lines that join and leave a beam (R218, R266) -/

/-- A beam has a phase reference when its receive lines go from one set to another (R218): a line stays, or was terminated and locked up to
now or within the last 1 µs, or L00 comes from the peer itself. -/
def phaseRef (s : State) (b : Beam) (old new : LineSet) : Bool :=
  old &&& new != 0 || ((fins 35).any fun n => old.getLsbD n.val && ((s.port[portOf s b]).line[n]).locked) ||
    (match (s.beam[b]).lockedAt with
     | some t => decide (s.time ≤ t + 1)
     | none => false) ||
    ((beamRec s b).hops == 0 && portUp (s.port[portOf s b]))

/-- Newly terminated lines of a beam relock; without a phase reference they acquire their phase, each counted and reported (R218). -/
def joinLines (b : Beam) (old new : LineSet) (s : State) : State :=
  let p := portOf s b
  let ref := phaseRef s b old new
  ((fins 35).filter fun n => (new &&& ~~~ old).getLsbD n.val).foldl (fun t n =>
    let t1 := onLine p n (fun l => { l with locked := false, acquiring := !ref }) t
    if ref then t1
    else flag blkPLN 0 2 { t1 with pln := { t1.pln with acquire := if t1.pln.acquire = BitVec.allOnes 32 then t1.pln.acquire else t1.pln.acquire + 1 } }) s

/-- The receivers of lines that are no longer terminated are disabled (Table 7.6, R223). -/
def leaveLines (p : Port) (m : LineSet) (s : State) : State :=
  onPort p (fun q => { q with
    line := vmk 35 fun n =>
      if m.getLsbD n.val then { q.line[n] with locked := false, acquiring := false, trim := 0 } else q.line[n] }) s

/-- A substitution whose line leaves its beam at a retrain is over, a need of such a line too: its spare is free (R297). -/
def freeSubs (b : Beam) (m : LineSet × LineSet) (s : State) : State :=
  onPort (portOf s b) (fun q => { q with
    needs := q.needs.filter fun u => u.beam != b || (if u.rx then m.2 else m.1).getLsbD u.line.val
    sub := vmk 4 fun i => (q.sub[i]).filter fun u =>
    u.beam != b || u.phase == .requested || (if 2 ≤ i.val then m.2 else m.1).getLsbD u.line.val }) s

/-- Go takes effect: the beam pauses on the merged masks, lines that join relock and lines that leave go dark; a direction without a line
breaks it (R266). A beam that waits under R214 still reads switching (R217). -/
def goApply (b : Beam) (number : BitVec 8) (m : LineSet × LineSet) (s : State) : State :=
  if m.1 = 0 ∨ m.2 = 0 then breakBeam b s
  else
    let old := (s.beam[b]).rxMask
    let s0 := freeSubs b m (leaveLines (portOf s b) (old &&& ~~~ m.2) (joinLines b old m.2 s))
    let s1 := onBeam b (fun q => { setMasks m q with
      tx := if timersRun q then .paused else q.tx
      state := if q.waitNew then 4 else 2
      retrain := some { number := number, wantTx := m.1, wantRx := m.2, requesting := false, going := true } }) s0
    let s2 := setEv blkPRT (portOf s b).val 8 (beamCount b 14 1 s1)
    logEvent clsRecoverable blkBEAM 0x0100 b.val s2

/-- The masks that an end brings into the handshake: those of its own request, or its current masks with the lines that the peer's request
shows to be in service again, which is a cause of its own (R264, R265; DEDUCED, log entry 157). -/
def ownMasks (s : State) (b : Beam) (peer : LineSet × LineSet) : LineSet × LineSet :=
  let q := s.beam[b]
  let w := wantMasks s b
  match q.retrain with
  | some r => if r.going then w else (r.wantTx, r.wantRx)
  | none => (w.1 &&& (q.txMask ||| peer.1), w.2 &&& (q.rxMask ||| peer.2))

/-- A request of an end goes out, or is brought to these masks (R264). -/
def putRequest (b : Beam) (m : LineSet × LineSet) (s : State) : State :=
  match (s.beam[b]).retrain with
  | some r => onBeam b (fun q => { q with retrain := some { r with wantTx := m.1, wantRx := m.2, requesting := true } }) s
  | none =>
    let n := (s.beam[b]).lastReq + 1
    pushCtl b 5 (retrainPayload s b 0 n m) (onBeam b (fun q => { q with
      lastReq := n, state := if q.state = 3 ∨ q.state = 5 then 2 else q.state
      retrain := some { number := n, wantTx := m.1, wantRx := m.2, requesting := true } }) s)

/-- A retrain is requested: a request goes out, or, after go, a further retrain follows the current one (R264, R265, Table 8.13). -/
def askRetrain (b : Beam) (s : State) : State :=
  let q := s.beam[b]
  let m := wantMasks s b
  if beamLit q = false ∨ q.tx = .init then s
  else if retrainGoes q then onBeam b (fun q => { q with again := some m }) s
  else putRequest b m s

/-- A RETRAIN request: the leader merges and sends go, the follower forwards its masks (R265). -/
def requestMsg (b : Beam) (body : List Byte) (s0 : State) : State :=
  let peer := (maskAt body 7, maskAt body 2)
  let s := learnPeer b (maskAt body 7) s0
  let own := ownMasks s b peer
  if (s.beam[b]).tx = .init then s
  else if leads s b (byteAt body 15).toNat then
    if retrainGoes (s.beam[b]) then
      (if ((s.beam[b]).retrain.map (·.number)) = some (byteAt body 1) then s else onBeam b (fun q => { q with again := some own }) s)
    else
      let m := (mergeMask own.1 peer.1, mergeMask own.2 peer.2)
      goApply b (byteAt body 1) m (pushCtl b 5 (retrainPayload s b 1 (byteAt body 1) m) s)
  else if retrainGoes (s.beam[b]) then s
  else putRequest b own s

/-- RETRAIN_REQUEST_RESEND: every 100 ns until go arrives. -/
def requestResend (b : Beam) (s : State) : State :=
  match (s.beam[b]).retrain with
  | some r => if r.requesting then pushCtl b 5 (retrainPayload s b 0 r.number (r.wantTx, r.wantRx)) s else s
  | none => s

/-- RETRAIN_REQUEST_RESEND. -/
def execRetrainRequestResend (b : Beam) (s : State) : Host.Outcome State Fault Refusal := run (requestResend b) s

/-- A RETRAIN go, in the leader's view (R265, R266). -/
def goMsg (b : Beam) (body : List Byte) (s : State) : State :=
  let q := s.beam[b]
  if q.tx = .init ∨ retrainGoes q then s
  else goApply b (byteAt body 1) (maskAt body 7, maskAt body 2) (learnPeer b (maskAt body 7) s)

/-- A retrain ends when this end is aligned and the peer's ready has come; a further request then starts anew (R265, R266). A beam that a
switch had paused still waits under R214. -/
def retrainEnds (b : Beam) (s : State) : State :=
  match (s.beam[b]).retrain with
  | some r =>
    if r.going && r.aligned && r.peerReady then
      let more := (s.beam[b]).again.isSome
      let s1 := onBeam b (fun q => { q with retrain := none, again := none }) s
      let s2 := if (s.beam[b]).waitNew then tryResume b (onBeam b (fun q => { q with state := 4 }) s1) else resume b s1
      if more then askRetrain b s2 else s2
    else s
  | none => s

/-- This end's deskew is aligned: it sends ready (R266). -/
def deskewDone (b : Beam) (s : State) : State :=
  match (s.beam[b]).retrain with
  | some r =>
    if r.going ∧ r.aligned = false then
      retrainEnds b (pushCtl b 5 (retrainPayload s b 2 r.number ((s.beam[b]).txMask, (s.beam[b]).rxMask))
        (onBeam b (fun q => { q with retrain := some { r with aligned := true } }) s))
    else s
  | none => s

/-- A RETRAIN ready (kind 2). -/
def readyMsg (b : Beam) (body : List Byte) (s : State) : State :=
  if byteAt body 0 ≠ 2 then s
  else match (s.beam[b]).retrain with
    | some r => if r.going then retrainEnds b (onBeam b (fun q => { q with retrain := some { r with peerReady := true } }) s) else s
    | none => s

/-- A retrain that has not resumed within 10 ms of go breaks its beam (R266). -/
def retrainExpires (b : Beam) (s : State) : State := if retrainGoes (s.beam[b]) then breakBeam b s else s

/-- The retransmit timer expires: the oldest unacknowledged flit is resent; the eighth expiry in a row requests a retrain (R245, R255). -/
def retransmit (b : Beam) (s : State) : State :=
  let q := s.beam[b]
  match q.unacked with
  | [] => s
  | (n, _) :: _ =>
    if timersRun q = false then s
    else
      let s1 := beamCount b 9 1 (onBeam b (fun q => { q with
        expiries := q.expiries + 1, resend := if q.resend.contains n then q.resend else q.resend ++ [n] }) s)
      if q.expiries + 1 = 8 then askRetrain b (onBeam b (fun q => { q with tx := .paused, expiries := 0 }) s1) else s1

/-- RETRANSMIT_TIMER_EXPIRY. -/
def execRetransmitTimerExpiry (b : Beam) (s : State) : Host.Outcome State Fault Refusal := run (retransmit b) s

/-! ### Handing delivered flits on (R252) -/

/-- What stays of the first `n` flits of a class when they leave the buffer: the token that one carries waits for every earlier flit (R246). -/
def dropClass (c : Fin 2) : Nat → List OutFlit → List OutFlit
  | _, [] => []
  | 0, l => l
  | n + 1, o :: r =>
    if o.cls = BitVec.ofNat 2 c.val ∧ tokenOnly o = false then
      (if o.token.isSome then { o with head := false, payload := [] } :: dropClass c n r else dropClass c n r)
    else o :: dropClass c (n + 1) r

/-- The flits of a class that are at hand for its destination: those handed over so far, and those in its queue. -/
def atHand (q : BeamSt) (c : Fin 2) : List OutFlit := q.part[c] ++ classQueue q c

/-- The first `k` flits at hand have been handed to their destination whole, and the following `m` have left the buffer for it (R252). -/
def handOn (c : Fin 2) (k m : Nat) (q : BeamSt) : BeamSt :=
  let l := atHand q c
  let n := k + m - (q.part[c]).length
  let q1 := (l.take k).foldl (fun a o => giveHead o a) (((classQueue q c).take n).foldl (fun a o => giveData o a) q)
  { q1 with part := upd q1.part c fun _ => (l.drop k).take m, inbound := dropClass c n q.inbound }

/-- The token at the front of the inbound buffer has left it. -/
def dropToken (q : BeamSt) : BeamSt := { q with inbound := q.inbound.drop 1, seen := [] }

/-- Queues DATA flits of a stream or record on a beam: the first one starts it, a token closes it. They wait for the switches issued so far on
the beam's lines (R109). -/
def queueFlits (b : Beam) (l : List OutFlit) (s : State) : State :=
  onBeam b (fun q => { q with queue := q.queue ++ l.map fun o => { o with behind := s.pln.issued, serial := s.ctl.serial + 1 } }) s

end Sys2Proof.Machine
end

