-- ==== Sys2Proof/Machine/Halo.lean ====
section
/-!
DEFINITION. The Halo matrix, the actuators of a ring and the model value of its heater (R271, R272, R278 to R281, R301).
-/

namespace Sys2Proof.Machine

/-- Ring types of Table 9.1. -/
def ringModulator : Nat := 0
/-- Exchange ring. -/
def ringExchange : Nat := 1
/-- Drop ring. -/
def ringDrop : Nat := 2

/-- The number of a ring (R271). -/
def ringOf (p : Port) (typ : Nat) (n : Line) : Nat := 105 * p.val + 35 * typ + n.val

/-- The port of a ring. -/
def ringPort (r : Nat) : Port := fin! 64 (r / 105)

/-- The type of a ring. -/
def ringType (r : Nat) : Nat := r % 105 / 35

/-- The line of a ring. -/
def ringLine (r : Nat) : Line := fin! 35 (r % 35)

/-- The loop state of a ring. -/
def ringSt (s : State) (r : Nat) : RingSt := (aget s.ring.ring r).getD {}

/-- Changes the loop state of a ring. -/
def onRing (r : Nat) (f : RingSt → RingSt) (s : State) : State :=
  { s with ring := { s.ring with ring := aput s.ring.ring r (f (ringSt s r)) } }

/-- A row of the Halo matrix from its 64 bytes (Table 9.3). -/
def haloOf (w : BitVec 512) : HaloRow :=
  let at_ (o n : Nat) : Nat := w.toNat / 2 ^ (8 * o) % 2 ^ (8 * n)
  { tc := at_ 4 2
    eff := at_ 6 2
    nb := (List.range (at_ 2 1)).map fun i => let e := at_ (8 + 3 * i) 3; (e % 2 ^ 13, sval 11 (e / 2 ^ 13))
    tile := (List.range (at_ 3 1)).map fun i => let e := at_ (0x2C + 3 * i) 3; (e % 2 ^ 8, sval 16 (e / 2 ^ 8))
    f0 := sval 16 (at_ 0x38 2) }

/-- The row of a ring in force: refined since reset, or the factory's (R278). -/
def haloRow (s : State) (r : Nat) : HaloRow := (aget s.ring.halo r).getD (haloOf (Config.haloRow r))

/-- The rows of a port reload from the fused tables (R304). -/
def reloadRows (p : Port) (s : State) : State :=
  { s with ring := { s.ring with halo := s.ring.halo.filter fun e => e.1 / 105 != p.val } }

/-- A ring's position is corrected by an amount in 1/16 GHz towards higher frequency: its f0 takes it up (R288, R300; log entry 192). -/
def moveRow (r : Nat) (d : Int) (s : State) : State :=
  { s with ring := { s.ring with halo := aput s.ring.halo r { haloRow s r with f0 := sval 16 (sfield 16 ((haloRow s r).f0 + d)) } } }

/-- Heater efficiency of a row in GHz/mW. -/
def effGHz (h : HaloRow) : Rat := if h.eff = 0 then (Config.noEfficiency : Rat) else (h.eff : Rat) / 64

/-- A number between two others. -/
def clampRat (lo hi x : Rat) : Rat := if x < lo then lo else if hi < x then hi else x

/-! ### The actuators (R272, Table 9.2) -/

/-- The heater power of a DAC value, in mW: 0.061 µW a step. -/
def heaterMw (d : BitVec 16) : Rat := (d.toNat : Rat) * 61 / 1000000

/-- The DAC value of a heater power in mW: clamped to 0 to 4.0 mW, and the nearest step (log entry 190). -/
def heaterDac (mw : Rat) : BitVec 16 := BitVec.ofNat 16 (min 65535 ((clampRat 0 4 mw) * 1000000 / 61 + 1 / 2).floor.toNat)

/-- The DAC value of a junction trim in GHz from the heater's position: −10 GHz and 0.064 GHz a step. -/
def junctionDac (ghz : Rat) : BitVec 10 := BitVec.ofNat 10 ((clampRat (-10) 55 ghz + 10) * 1000 / 64 + 1 / 2).floor.toNat

/-- Linewidth of a ring type in GHz (Table 9.1). -/
def linewidth (typ : Nat) : Rat := if typ = ringModulator then 18 else 16

/-! ### The heater model (R280, R281) -/

/-- The temperature rise that the hints of one zone predict (R281). -/
def hintRise (s : State) (p : Port) : Rat :=
  (s.ring.hints.filter fun h => decide (h.from_ ≤ s.time)).foldl (fun acc h =>
    let e := (s.ring.hint[p])[h.site]
    let t := s.time - h.from_
    let a : Rat := (e.a : Rat) / 256
    acc + (e.gain : Rat) / 1000 * ((h.dP : Rat) / 10) * (1 - a * Config.expMinus t e.tau1 - (1 - a) * Config.expMinus t e.tau2)) 0

/-- The heater value that the model gives a ring, without its integrator, in mW (R280, R281). -/
def modelHeater (s : State) (r : Nat) : Rat :=
  let h := haloRow s r
  let p := ringPort r
  let eff := effGHz h
  let tc : Rat := (h.tc : Rat) / 1024
  let tz : Rat := ((s.port[p]).zone : Rat) / 20
  let ff := (calibRec s).haloFf
  let base := -((h.f0 : Rat) / 16 + tc * (tz - 55))
  let tiles := if ff % 2 = 1 then h.tile.foldl (fun a e => a + (e.2 : Rat) / 256 * nth s.ring.tiles e.1 0) 0 else 0
  let hints := if ff / 2 % 2 = 1 then tc * hintRise s p else 0
  let nbs := h.nb.foldl (fun a e => a + (e.2 : Rat) / 1024 * eff * heaterMw (ringSt s e.1).heater) 0
  (base - tiles - hints - nbs) / eff

/-- The heater value of a ring in mW. -/
def ringHeater (s : State) (r : Nat) : Rat := heaterMw (ringSt s r).heater

/-- The setpoint check: the heater lies more than 40 GHz ÷ eff from the value that the model gives without its integrator (R301). -/
def setpointFails (s : State) (r : Nat) : Bool :=
  let d := (ringHeater s r - modelHeater s r) * effGHz (haloRow s r)
  decide (40 < d) || decide (d < -40)

/-- A ring is relocked: its heater goes to the model value, its integrator to zero, and its junction sweeps from there (R302). -/
def relockRing (r : Nat) (s : State) : State :=
  onRing r (fun z => { z with integ := 0, heater := heaterDac (modelHeater s r), closed := false, darkVisits := 0, half := none }) s

end Sys2Proof.Machine
end

