-- ==== Sys2Proof/Machine/Ports.lean ====
section
/-!
DEFINITION. Optical ports and lines (chapter 8) and the spare lines (chapter 9): markers, lost and wrong lines, substitutions, port training,
requalification and the PRT_CMD commands.
-/

namespace Sys2Proof.Machine

/-! ### Lines of a port -/

/-- Data lines that a port runs: L01 to L32, at the Penumbra rate L01 to L08 (R234). -/
def dataLines (q : PortSt) : LineSet := if q.penumbra then 0x1FE else 0x1FFFFFFFE

/-- Usable data lines: locked and qualified, or with a spare that carries their share or is about to. -/
def usableLines (q : PortSt) : LineSet := ((q.lineOk &&& inOrder q 0) ||| coveredLines q true) &&& dataLines q

/-- A port that is Up becomes Degraded with fewer usable data lines, and a Degraded one Up with all of them (Table 8.10). -/
def widthCheck (p : Port) (s : State) : State :=
  let q := s.port[p]
  let whole := usableLines q == dataLines q
  if q.state = 3 ∧ whole = false then flag blkPRT p.val 2 (onPort p (fun q => { q with state := 4, epoch := q.epoch + 1 }) s)
  else if q.state = 4 ∧ whole then flag blkPRT p.val 0 (onPort p (fun q => { q with state := 3, epoch := q.epoch + 1 }) s)
  else s

/-- The beam whose plan gives it line `n` of a port in a direction. -/
def lineBeam (s : State) (p : Port) (n : Line) (rx : Bool) : Option Beam :=
  ((s.port[p]).block.bind fun e => e.2.beams.find? fun r => if rx then r.rx.getLsbD n.val else r.tx.getLsbD n.val).map (·.beam)

/-- The lit beam that uses line `n` in a direction. -/
def servedBeam (s : State) (p : Port) (n : Line) (rx : Bool) : Option Beam :=
  match lineBeam s p n rx with
  | some b =>
    if beamLit (s.beam[b]) && (if rx then (s.beam[b]).rxMask else (s.beam[b]).txMask).getLsbD n.val then some b else none
  | none => none

/-- Marks a line out of service for a fault, or back, in a direction: 0 receive, 1 transmit (R504). -/
def setOut (p : Port) (n : Line) (d : Nat) (v : Bool) (s : State) : State := onLine p n (fun l => { l with out := putBit l.out d v }) s

/-- The other port of an express pair (R27). -/
def pairPort (p : Port) : Port := fin! 64 (if p.val % 2 = 0 then p.val + 1 else p.val - 1)

/-- Lines that a port's plan in force passes on its receive fibre. -/
def passMask (s : State) (p : Port) : LineSet := ((s.port[p]).block.map fun e => e.2.pass).getD 0

/-- Lines that are express on a transmit fibre: in pass on the pair's receive fibre, and allowed by the port's express_enable and express_mask
(R202). -/
def expressMask (s : State) (p : Port) : LineSet :=
  passMask s (pairPort p) &&& (if (portRec s p).express then BitVec.ofNat 35 (portRec s p).mask.toNat else 0)

/-- A beam's lines are lit: it is training, up, switching, degraded or broken; a broken beam sends no data and keeps its lines (R254). -/
def beamActive (q : BeamSt) : Bool := beamLit q || q.state == 6

/-- Lines that a port lights for its beams: all but those that a switch makes local and has not lit yet (Table 7.6), and those that the owner
calibrates while a spare stands in for them (R296 step 5). A local line that the pair port has in pass stays lit whatever its beam uses (R222). -/
def beamLines (s : State) (p : Port) : LineSet :=
  let q := s.port[p]
  let dark (n : Line) : Bool := (q.line[n]).calTx.running && (carried q false).getLsbD n.val
  ((beamsOf s p).filter fun b => beamActive (s.beam[b])).foldl (fun m b =>
      m ||| (s.beam[b]).txMask ||| (((planEntry s b).map (·.tx)).getD 0 &&& passMask s (pairPort p))) 0 &&&
    ~~~ darkLines q &&& ~~~ BitVec.ofNat 35 (boolsNat ((fins 35).map dark))

/-- The integrating receiver of a line is on (Table 7.1, R292): of L00 and of every line in training, of the lines of the Penumbra rate, of the
lines that the port's beams terminate, and of spares that the plan does not pass. It is off for lines in pass, dark, or shed by the peer. -/
def receiverOn (s : State) (p : Port) (n : Line) : Bool :=
  let q := s.port[p]
  if q.state.toNat < 2 then false
  else if n.val = 0 then true
  else if q.state = 2 ∨ q.penumbra then (dataLines q ||| (if q.penumbra then 0 else 0x600000000)).getLsbD n.val
  else if 33 ≤ n.val then !(passMask s p).getLsbD n.val
  else (beamsOf s p).any fun b => beamActive (s.beam[b]) && (s.beam[b]).rxMask.getLsbD n.val

/-! ### Substitutions (R292 to R299) -/

/-- A substitution slot of a port: direction and spare. -/
def subIx (rx : Bool) (upper : Nat) : Fin 4 := fin! 4 (2 * b2n rx + upper)

/-- A spare works on this port: its receive side is locked and not in pass, its transmit side is received by the partner and not express
(R293). -/
def spareWorks (s : State) (p : Port) (i : Fin 4) : Bool :=
  let q := s.port[p]
  let n := spareLine (i.val % 2)
  if 2 ≤ i.val then q.lineOk.getLsbD n.val && (inOrder q 0).getLsbD n.val && !((q.line[n]).wrong) && !(passMask s p).getLsbD n.val
  else q.partnerOk.getLsbD n.val && !(expressMask s p).getLsbD n.val

/-- The path of a beam passes a spare: a direct beam's does; over via places the receiving end sees it by the markers on the spare, which come
from the beam's far end (R293; DEDUCED, log entry 189). In the transmit direction it rests on the plan's blocks of the via places, which no
record of this place holds: an open constant of the plan in force. -/
def pathPasses (s : State) (p : Port) (i : Fin 4) (b : Beam) : Bool :=
  (beamRec s b).hops == 0 ||
    (if 2 ≤ i.val then ((s.port[p]).line[spareLine (i.val % 2)]).farPlace == some (beamRec s b).peerPlace
     else Config.viasPassSpare ((s.img.image.map fun m : Image => m.programId).getD 0) (((s.port[p]).block.map (·.1)).getD 0xFFFF) b.val (i.val % 2))

/-- A spare can take a line of a beam: port Up or Degraded at full rate, the spare working, and on the beam's path (R292, R293, R299). -/
def spareOk (s : State) (p : Port) (i : Fin 4) (b : Beam) : Bool :=
  portUp (s.port[p]) && !(s.port[p]).penumbra && spareWorks s p i && pathPasses s p i b

/-- Changes a substitution slot. -/
def putSub (p : Port) (i : Fin 4) (u : Option Subst) (s : State) : State := onPort p (fun q => { q with sub := upd q.sub i fun _ => u }) s

/-- The RETRAIN payload of kinds 3 to 5 (Table 9.13). -/
def subPayload (s : State) (p : Port) (kind : Nat) (u : Subst) (back : Bool) : List Byte :=
  [BitVec.ofNat 8 kind, u.request, BitVec.ofNat 8 u.line.val, BitVec.ofNat 8 (33 + spareOf u.line), BitVec.ofNat 8 (b2n back), u.reason] ++
    leBytes 4 (if kind = 3 then 0 else u.marker.toNat) ++ [BitVec.ofNat 8 (b2n u.suspect), 0] ++ leBytes 3 (ownPlace s).toNat ++
    [BitVec.ofNat 8 p.val]

/-- Sends a flit of the handshake on the beam that the line serves. -/
def subSend (p : Port) (kind : Nat) (u : Subst) (back : Bool) (s : State) : State := pushCtl u.beam 5 (subPayload s p kind u back) s

/-- The marker that the owner names: the first it sends at least 500 ns after the go, the next one or the one after (R296). -/
def withMarker (u : Subst) (s : State) : Subst × State :=
  ({ u with marker := s.pln.marker + BitVec.ofNat 32 (b2n (Config.freeChoice s.fresh)), goSeen := true }, { s with fresh := s.fresh + 1 })

/-- A calibration stops without a result; its line stays due (R294). -/
def stopCal (p : Port) (n : Line) (rx : Bool) (s : State) : State :=
  onLine p n (fun l => if rx then { l with calRx := { l.calRx with running := false } } else { l with calTx := { l.calTx with running := false } }) s

/-- A spare is taken: a calibration of the spare itself that runs in place stops, and stays due (R289). -/
def takeSpare (p : Port) (i : Fin 4) (u : Subst) (s : State) : State :=
  putSub p i (some u) (stopCal p (spareLine (i.val % 2)) (decide (2 ≤ i.val)) s)

/-- The owner names a marker and sends go for a take-over, or for a return. -/
def ownerGo (p : Port) (i : Fin 4) (u : Subst) (back : Bool) (s : State) : State :=
  let r := withMarker { u with phase := if back then .returning else .going } s
  subSend p 4 r.1 back ((if back then putSub p i (some r.1) else takeSpare p i r.1) r.2)

/-- A substitution that stands is to be returned: the owner names a marker, the receiving end asks for it (R296). -/
def startReturn (p : Port) (i : Fin 4) (u : Subst) (s : State) : State :=
  if i.val < 2 then ownerGo p i u true s
  else
    let v : Subst := { u with phase := .returning, goSeen := false, marker := 0 }
    subSend p 3 v true (putSub p i (some v) s)

/-- A substitution starts: the owner sends go, the receiving end a request. -/
def startSub (p : Port) (i : Fin 4) (u : Subst) (s : State) : State :=
  let v : Subst := { u with request := (s.port[p]).lastSub + 1, own := true }
  let s1 := onPort p (fun q => { q with lastSub := q.lastSub + 1 }) s
  if i.val < 2 then ownerGo p i v false s1 else subSend p 3 v false (takeSpare p i v s1)

/-- The first waiting need of a spare in a direction, by priority (Table 9.12) and then age. -/
def firstNeed (l : List Subst) (i : Fin 4) : Option Subst :=
  let m := l.filter fun u => subIx u.rx (spareOf u.line) == i
  (m.find? (·.reason == 2)) <|> (m.find? (·.reason == 1)) <|> m.head?

/-- A spare is free: the next waiting need takes it. The owner grants it with a go; the receiving end's request is out already (R294). -/
def serveNeeds (p : Port) (i : Fin 4) (s : State) : State :=
  match firstNeed (s.port[p]).needs i with
  | some u =>
    if spareOk s p i u.beam ∧ (s.port[p]).sub[i] = none then
      let s1 := onPort p (fun q => { q with needs := q.needs.erase u }) s
      if 2 ≤ i.val then takeSpare p i u s1 else ownerGo p i u false s1
    else s
  | none => s

/-- The higher of two reasons. -/
def maxReason (a b : BitVec 8) : BitVec 8 := if a.toNat < b.toNat then b else a

/-- A need joins the waiting ones of its spare, or raises the reason of one for the same line. -/
def joinNeeds (p : Port) (u : Subst) (s : State) : State :=
  let same (v : Subst) : Bool := v.rx == u.rx && v.line == u.line
  onPort p (fun q => { q with
    needs := if q.needs.any same then q.needs.map fun v => if same v then { v with reason := maxReason v.reason u.reason } else v else q.needs ++ [u] }) s

/-- A higher need meets a calibration on its spare: the calibration is abandoned and its line returns (R294). One whose take-over is still
under way is abandoned when it stands (`subStands`). -/
def abandonCal (p : Port) (i : Fin 4) (s : State) : State :=
  match (s.port[p]).sub[i] with
  | some v => if v.reason = 0 ∧ v.phase = .standing then startReturn p i v (stopCal p v.line (decide (2 ≤ i.val)) s) else s
  | none => s

/-- After a wrong-line lock the receiving end relocks its drop ring, and the owner its modulator ring unless the request named the drop ring
as suspect: without that it relocks when its own ring fails the check, and, when neither fails, both relock (R302). -/
def subRelocks (p : Port) (i : Fin 4) (u : Subst) (s : State) : State :=
  if u.reason ≠ 1 then s
  else if 2 ≤ i.val then relockRing (ringOf p ringDrop u.line) s
  else if u.suspect then s
  else relockRing (ringOf p ringModulator u.line) s

/-- A substitution stands for a fault or a wrong lock: logged by its reason, and its ring relocks (R296, R302, R529, Table 9.15). -/
def subServes (p : Port) (i : Fin 4) (u : Subst) (s : State) : State :=
  let s1 := if u.reason = 2 then logEvent clsCorrected blkPRT 0x0105 p.val s
    else if u.reason = 1 then logEvent clsCorrected blkPRT 0x0106 p.val s else s
  subRelocks p i u s1

/-- A substitution for a line serves a higher reason from now on (R305). -/
def raiseSub (p : Port) (i : Fin 4) (v u : Subst) (s : State) : State :=
  if v.reason.toNat < u.reason.toNat then
    let w : Subst := { v with reason := u.reason, suspect := u.suspect }
    let s1 := putSub p i (some w) s
    if v.phase = .standing then subServes p i w s1 else s1
  else s

/-- A need of this end for a spare on a line of a beam. None when no spare can take it (R294, R299). A line that has a spare keeps it for the
higher reason, which the receiving end tells the owner (R305). A calibration waits for a spare that serves another line (Table 9.8). -/
def needSpare (p : Port) (rx : Bool) (u0 : Subst) (s : State) : Option State :=
  let u : Subst := { u0 with rx := rx, own := true }
  let i := subIx rx (spareOf u.line)
  if spareOk s p i u.beam = false then none
  else match (s.port[p]).sub[i] with
    | none => some (startSub p i u s)
    | some v =>
      if v.line = u.line then
        (if v.reason.toNat < u.reason.toNat then
          let s1 := raiseSub p i v u s
          some (if rx then subSend p 3 { v with reason := u.reason, suspect := u.suspect } false s1 else s1)
         else some s)
      else if v.reason = 2 ∧ u.reason ≠ 0 then none
      else
        let w : Subst := { u with request := (s.port[p]).lastSub + 1 }
        let s1 := joinNeeds p w (onPort p (fun q => { q with lastSub := q.lastSub + 1 }) s)
        let s2 := if rx then subSend p 3 w false s1 else s1
        some (if u.reason = 0 then s2 else abandonCal p i s2)

/-- A substitution ends without a return: Recoverable, and its beam retrains (R297). A line that the loss of its spare leaves without a
carrier is out of service until it qualifies again (log entry 188). -/
def subEnd (p : Port) (i : Fin 4) (lost : Bool) (s : State) : State :=
  match (s.port[p]).sub[i] with
  | none => s
  | some u =>
    let s1 := logEvent clsRecoverable blkPRT 0x0107 p.val (stopCal p u.line (decide (2 ≤ i.val)) (putSub p i none s))
    let s2 := if lost && !(u.reason == 0 && (u.phase == .requested || u.phase == .going)) then setOut p u.line 0 true s1 else s1
    serveNeeds p i (widthCheck p (askRetrain u.beam s2))

/-- A calibration that waited for its substitution runs; with a higher need waiting for the spare it is abandoned (R294). -/
def subCalibrates (p : Port) (i : Fin 4) (u : Subst) (s : State) : State :=
  if u.reason = 0 ∧ u.own then
    (if (s.port[p]).needs.any fun v => subIx v.rx (spareOf v.line) == i && v.reason != 0 then abandonCal p i s
     else onLine p u.line (fun l => if 2 ≤ i.val then { l with calRx := { l.calRx with running := true } }
       else { l with calTx := { l.calTx with running := true } }) s)
  else s

/-- A line that recovered while its take-over was under way goes back (R296). -/
def subRecovered (p : Port) (i : Fin 4) (u : Subst) (s : State) : State :=
  match (s.port[p]).sub[i] with
  | some v =>
    if 2 ≤ i.val ∧ u.reason ≠ 0 ∧ (s.port[p]).lineOk.getLsbD u.line.val ∧ ((s.port[p]).line[u.line]).wrong = false then startReturn p i v s else s
  | none => s

/-- A substitution stands: its calibration runs, or its ring relocks (R296, R302). -/
def subStands (p : Port) (i : Fin 4) (u : Subst) (s : State) : State :=
  let s1 := putSub p i (some { u with phase := .standing, goSeen := false }) s
  widthCheck p (subRecovered p i u (subCalibrates p i u (subServes p i u s1)))

/-- A substitution has returned: the line carries its share again and the spare is free. -/
def subReturned (p : Port) (i : Fin 4) (u : Subst) (s : State) : State :=
  let s1 := putSub p i none s
  let s2 := if 2 ≤ i.val then
      setOut p u.line 0 false (onPort p (fun q => { q with lineOk := setBit q.lineOk u.line.val }) (onLine p u.line (fun l => { l with wrong := false, right := 0 }) s1))
    else setOut p u.line 1 false s1
  serveNeeds p i (widthCheck p s2)

/-- A line that a fault or a wrong lock removes, with no spare: Recoverable, the beam retrains without it, the port may become
Degraded (R299, R264, Table 9.15). -/
def lineRemoved (p : Port) (n : Line) (s : State) : State :=
  let s1 := widthCheck p (setOut p n 0 true (onPort p (fun q => { q with lineOk := clrBit q.lineOk n.val }) s))
  match servedBeam s p n true with
  | some b => askRetrain b (logEvent clsRecoverable blkPRT 0x0108 p.val s1)
  | none => s1

/-- A data line that a beam uses needs a spare for a reason; without one it is removed. -/
def lineNeeds (p : Port) (n : Line) (reason : BitVec 8) (suspect : Bool) (s : State) : State :=
  match servedBeam s p n true with
  | none => if reason = 2 then widthCheck p (setOut p n 0 true s) else s
  | some b =>
    let s1 := if reason = 2 then setOut p n 0 true s else s
    match needSpare p true { beam := b, line := n, reason := reason, request := 0, phase := .requested, suspect := suspect } s1 with
    | some t => widthCheck p t
    | none => lineRemoved p n s

/-- A receive spare is lost: its substitution ends, and the lines that wait for it are removed (R297, R299). -/
def spareLost (p : Port) (n : Line) (s : State) : State :=
  let i := subIx true (n.val - 33)
  let waiting := (s.port[p]).needs.filter fun u => u.rx && u.reason != 0 && spareOf u.line == n.val - 33
  let s1 := onPort p (fun q => { q with needs := q.needs.filter fun u => !(u.rx && spareOf u.line == n.val - 33) }) s
  waiting.foldl (fun t u => lineRemoved p u.line t) (subEnd p i true s1)

/-- A receive line loses light or alignment (R233, R264): what is in use is no longer usable. A line whose receiver is off has none to lose. -/
def lineLost (p : Port) (n : Line) (s : State) : State :=
  if receiverOn s p n = false then s
  else
    let s1 := onLine p n (fun l => { l with aligned := false, missed := 0, lastCount := none }) s
    if portUp (s.port[p]) = false ∨ n.val = 0 then s1
    else
      let s2 := onPort p (fun q => { q with lineOk := clrBit q.lineOk n.val }) s1
      if 33 ≤ n.val then spareLost p n (setOut p n 0 true s2)
      else if ((s.port[p]).line[n]).out.getLsbD 0 then s2
      else lineNeeds p n 2 false s2

/-- LINE_ALIGNMENT_LOST. -/
def execLineAlignmentLost (p : Port) (n : Line) (s : State) : Host.Outcome State Fault Refusal := run (lineLost p n) s

/-- A line that has recovered: back by a return substitution, or by a beam retrain (R264, R504). -/
def lineBack (p : Port) (n : Line) (s : State) : State :=
  let i := subIx true (spareOf n)
  let s1 := onPort p (fun q => { q with lineOk := setBit q.lineOk n.val }) (onLine p n (fun l => { l with wrong := false, right := 0 }) s)
  match (s.port[p]).sub[i].filter fun u => u.line == n with
  | some u => if u.phase = .standing then startReturn p i u s1 else s1
  | none =>
    let s2 := widthCheck p (setOut p n 0 false s1)
    match (lineBeam s2 p n true).filter fun b => beamLit s2.beam[b] with
    | some b => askRetrain b s2
    | none => s2

/-- A marker in training that names another line: the drop ring moves by one line and repeats, without a spare (R300): its model moves by
100 GHz towards the line it is for. -/
def ringMoves (p : Port) (n : Line) (named : Nat) (s : State) : State :=
  let r := ringOf p ringDrop n
  relockRing r (moveRow r (if n.val < named then -1600 else 1600) s)

/-- The count and the place that a marker whose pattern is right brings, whatever line it names; two at the correct spacing give alignment
(R233). After a marker the scrambler starts anew (R232). -/
def markerCame (p : Port) (n : Line) (count : Word) (place : BitVec 24) (s : State) : State :=
  onLine p n (fun l => { l with
    aligned := l.aligned || l.lastCount == some (count - 1), missed := 0, lastCount := some count, farPlace := some place, rxScr := scramStart n }) s

/-- A marker that names another line: a wrong-line lock (R233, R301, R302). A free spare relocks in place. -/
def wrongLine (p : Port) (n : Line) (named : Nat) (s : State) : State :=
  let s1 := onLine p n (fun l => { l with wrong := true, right := 0, counters := upd l.counters 2 (· + 1) }) s
  if (s.port[p]).state = 2 then ringMoves p n named s1
  else if ((s.port[p]).line[n]).wrong ∨ portUp (s.port[p]) = false then s1
  else if 33 ≤ n.val then relockRing (ringOf p ringDrop n) (spareLost p n s1)
  else lineNeeds p n 1 (setpointFails s (ringOf p ringDrop n)) s1

/-- A marker that names its line: after a wrong lock two in a row bring the line back (R233, R302). -/
def rightLine (p : Port) (n : Line) (power : BitVec 16) (s : State) : State :=
  let s1 := onLine p n (fun l => { l with farPower := power, right := if l.wrong then l.right + 1 else l.right }) s
  let l := (s1.port[p]).line[n]
  if l.wrong = false then s1
  else if 33 ≤ n.val ∨ (s.port[p]).state = 2 then onLine p n (fun l => { l with wrong := false, right := 0 }) s1
  else if 2 ≤ l.right then lineBack p n s1 else s1

/-- The pattern of a marker codeword (Table 8.1). -/
def linePattern : List Byte := [0xA5, 0x5A, 0xC3, 0x3C, 0x96, 0x69, 0xF0, 0x0F]

/-- LINE_MARKER: the marker codeword of a line (R231, R233). L00 carries none (R232), and a receiver that is off finds none. -/
def lineMarkerRx (p : Port) (n : Line) (raw : List Byte) (s : State) : State :=
  let q := s.port[p]
  if n.val = 0 ∨ receiverOn s p n = false then s
  else if raw.take 8 ≠ linePattern then
    (if 2 ≤ (q.line[n]).missed then lineLost p n s else onLine p n (fun l => { l with missed := l.missed + 1 }) s)
  else
    let named := (byteAt raw 8).toNat
    let s1 := markerCame p n (w32 (leNat ((raw.drop 10).take 4))) (BitVec.ofNat 24 (leNat ((raw.drop 14).take 3))) s
    if named ≠ n.val then wrongLine p n named s1 else rightLine p n (BitVec.ofNat 16 (leNat ((raw.drop 18).take 2))) s1

/-- LINE_MARKER. -/
def execLineMarker (p : Port) (n : Line) (raw : List Byte) (s : State) : Host.Outcome State Fault Refusal := run (lineMarkerRx p n raw) s

/-- The lines that a port lights with codewords (R232, R234, R292): in training all of its rate; Up or Degraded at the Penumbra rate L01 to L08,
else the lines of its beams, and the spares that are not express. -/
def litLines (s : State) (p : Port) : LineSet :=
  let q := s.port[p]
  if q.state = 2 then (if 2 ≤ q.step.toNat then dataLines q ||| (if q.penumbra then 0 else 0x600000000) else 0)
  else if portUp q = false then 0
  else if q.penumbra then dataLines q
  else beamLines s p ||| (0x600000000 &&& ~~~ expressMask s p)

/-- A transmit line is local: of a beam, of a spare, at the Penumbra rate, or L00, on a port that emits light (Table 7.1). A probe emits L00
alone (R326). -/
def lineLocal (s : State) (p : Port) (n : Line) : Bool :=
  if (s.port[p]).exchangeTuned then decide (n.val = 0) && (s.port[p]).probing else decide (n.val = 0) || (litLines s p).getLsbD n.val

/-- A ring is parked: a modulator off its line, an exchange ring of a local line, a drop ring of a line in pass (Table 7.1). -/
def ringParked (s : State) (r : Nat) : Bool :=
  let p := ringPort r
  let n := ringLine r
  if ringType r = ringModulator then !lineLocal s p n
  else if ringType r = ringExchange then lineLocal s p n
  else (passMask s p).getLsbD n.val

/-- The junction of a ring: 50 GHz from tuned when parked, else on its side of the dither of 0.02 linewidths (Table 9.1, R275). -/
def junctionOf (s : State) (r : Nat) (up : Bool) : BitVec 10 :=
  if ringParked s r then junctionDac 50 else junctionDac (linewidth (ringType r) * (if up then 1 else -1) / 50)

/-- The rings of a port take their positions: the junctions swing within 3 ns (Table 9.2, Table 7.6 event 2). -/
def ringsPlace (p : Port) (s : State) : State :=
  (List.range 105).foldl (fun t k => onRing (105 * p.val + k) (fun z => { z with junction := junctionOf s (105 * p.val + k) z.dither }) t) s

/-- The 80 data bytes of a marker codeword (Table 8.1). -/
def markerData (s : State) (p : Port) (n : Line) : List Byte :=
  let q := s.port[p]
  linePattern ++ [BitVec.ofNat 8 n.val, BitVec.ofNat 8 p.val] ++ leBytes 4 s.pln.marker.toNat ++ leBytes 3 (ownPlace s).toNat ++
    [BitVec.ofNat 8 (b2n q.penumbra)] ++
    leBytes 2 (match (q.line[n]).rxPower with
      | some x => sfield 16 x
      | none => 0x8000) ++ List.replicate 60 0

/-- One line sends its marker codeword, unscrambled, and its scrambler starts anew (R231, R232). -/
def markerTx (p : Port) (n : Line) (s : State) : State :=
  onLine p n (fun l => { l with txScr := scramStart n }) (emit (.marker p n (markerData s p n)) (emit (.lineCodeword p n (lineEncode (markerData s p n))) s))

/-- The lines of a port that carry a share of a beam's flits. -/
def shareLines (s : State) (p : Port) : LineSet :=
  ((beamsOf s p).filter fun b => beamActive (s.beam[b])).foldl (fun m b =>
    (fins 35).foldl (fun m n => if (sendLines s b).getLsbD n.val then (carriers (s.port[p]) n).foldl (fun m c => setBit m c.val) m else m) m) 0

/-- `k` scrambled IDLE codewords from a scrambler state. What data IDLE codewords hold the spec does not say: it is free (log
entry 214). -/
def idleWords : Nat → Nat → BitVec 31 → List (List Sym)
  | 0, _, _ => []
  | k + 1, n, z =>
    let x := scramble z (lineEncode ((List.range 80).map fun i => Config.freeValue 8 (n + i)))
    x.1 :: idleWords k (n + 80) x.2

/-- The 256 data codewords before a marker of a line that is lit and carries no flits: a free spare, a line in training or at the Penumbra rate
(R230, R231, R292, Table 8.8). -/
def idleTx (p : Port) (n : Line) (s : State) : State :=
  if (shareLines s p).getLsbD n.val then s
  else spend 20480 (emit (.idleCodewords p n (idleWords 256 s.fresh ((s.port[p]).line[n]).txScr)) s)

/-- A port whose L00 is lit sends the clock pattern on it (R232). -/
def clockTx (p : Port) (s : State) : State := if 2 ≤ (s.port[p]).state.toNat then emit (.clock p clockPattern) s else s

/-- LINE_MARKER_SEND: all lit transmit lines send a marker in the same cycle, after their 256 data codewords (R230, R231). -/
def markersTx (s : State) : State :=
  let s1 := (fins 64).foldl (fun t p =>
    clockTx p (((fins 35).filter fun n => (litLines s p).getLsbD n.val).foldl (fun u n => markerTx p n (idleTx p n u)) t)) s
  { s1 with pln := { s1.pln with marker := s1.pln.marker + 1 } }

/-- LINE_MARKER_SEND. -/
def execLineMarkerSend (s : State) : Host.Outcome State Fault Refusal := run markersTx s

/-! ### The substitution handshake (R295, R296) -/

/-- The line that byte 2 of the payload names, if a beam of the port uses it. -/
def subLine (b : List Byte) : Option Line :=
  if h : 1 ≤ (byteAt b 2).toNat ∧ (byteAt b 2).toNat ≤ 32 then some ⟨(byteAt b 2).toNat, by omega⟩ else none

/-- A request for a take-over reaches the owner: granted at once, or in its order when the spare is taken; a calibration that stands in its way
gives way to a higher reason (R294). -/
def takeOverAsked (p : Port) (i : Fin 4) (b : Beam) (n : Line) (body : List Byte) (s : State) : State :=
  let u : Subst := { beam := b, line := n, reason := byteAt body 5, request := byteAt body 1, phase := .going, suspect := (byteAt body 10).getLsbD 0 }
  let s1 := if u.reason = 2 then setOut p n 1 true s else s
  if spareOk s p i b = false then s
  else match (s.port[p]).sub[i] with
    | none => ownerGo p i u false s1
    | some v =>
      if v.line = n then
        (if v.phase = .returning then joinNeeds p u s1
         else
           let s2 := raiseSub p i v u s1
           if v.phase = .going then subSend p 4 { v with reason := maxReason v.reason u.reason } false s2 else s2)
      else if u.reason = 0 then joinNeeds p u s1
      else abandonCal p i (joinNeeds p u s1)

/-- A request for a return reaches the owner; a calibration of its own that runs meanwhile stops (R289, R294). -/
def returnAsked (p : Port) (i : Fin 4) (n : Line) (s : State) : State :=
  match (s.port[p]).sub[i] with
  | some v => if v.line = n ∧ v.phase = .standing then ownerGo p i v true (stopCal p n false s) else s
  | none => s

/-- SUBSTITUTION_REQUEST (kind 3). -/
def subRequestMsg (b : Beam) (body : List Byte) (s : State) : State :=
  match subLine body with
  | none => s
  | some n =>
    let p := portOf s b
    let i := subIx false (spareOf n)
    if byteAt body 0 ≠ 3 then s
    else if byteAt body 4 = 0 then takeOverAsked p i b n body s
    else if byteAt body 4 = 1 then returnAsked p i n s
    else s

/-- SUBSTITUTION_REQUEST. -/
def execSubstitutionRequest (b : Beam) (raw : List Byte) (s : State) : Host.Outcome State Fault Refusal := run (ctlRx b raw 5 (subRequestMsg b)) s

/-- A go for a take-over reaches the receiving end, for a need that waits or of the owner's own: a request of this end for another line then waits
in its turn (R305). A go whose switch has been applied is answered again, also when the return is already asked for. -/
def goTakeOver (p : Port) (i : Fin 4) (b : Beam) (n : Line) (body : List Byte) (s : State) : State :=
  let m := w32 (leNat ((body.drop 6).take 4))
  let fresh : Subst := { beam := b, line := n, reason := byteAt body 5, request := byteAt body 1, phase := .going, rx := true }
  let mine := (s.port[p]).needs.find? fun u => u.rx && u.line == n
  let granted (s : State) : State := takeSpare p i { mine.getD fresh with phase := .going, marker := m, goSeen := true }
    (onPort p (fun q => { q with needs := q.needs.filter fun u => !(u.rx && u.line == n) }) s)
  match (s.port[p]).sub[i] with
  | none => granted s
  | some u =>
    if u.line ≠ n then (if u.phase = .requested then granted (joinNeeds p u s) else s)
    else if u.phase = .requested ∨ u.phase = .going then putSub p i (some { u with phase := .going, marker := m, goSeen := true }) s
    else subSend p 5 { u with marker := m } false s

/-- A go for a return reaches the receiving end; one whose switch has been applied is answered again (R296, R305). -/
def goReturn (p : Port) (i : Fin 4) (b : Beam) (n : Line) (body : List Byte) (s : State) : State :=
  let m := w32 (leNat ((body.drop 6).take 4))
  match (s.port[p]).sub[i].filter fun u => u.line == n && (u.phase == .standing || u.phase == .returning) with
  | some u => stopCal p n true (putSub p i (some { u with phase := .returning, marker := m, goSeen := true }) s)
  | none => subSend p 5 { beam := b, line := n, reason := byteAt body 5, request := byteAt body 1, phase := .returning, marker := m } true s

/-- SUBSTITUTION_GO (kind 4). -/
def subGoMsg (b : Beam) (body : List Byte) (s : State) : State :=
  match subLine body with
  | none => s
  | some n =>
    let p := portOf s b
    let i := subIx true (spareOf n)
    if byteAt body 0 ≠ 4 then s
    else if byteAt body 4 = 0 then goTakeOver p i b n body s
    else if byteAt body 4 = 1 then goReturn p i b n body s
    else s

/-- SUBSTITUTION_GO. -/
def execSubstitutionGo (b : Beam) (raw : List Byte) (s : State) : Host.Outcome State Fault Refusal := run (ctlRx b raw 5 (subGoMsg b)) s

/-- SUBSTITUTION_MARKER: marker m passes on the spare; the receiving end reads the share from the new carrier and answers applied. -/
def subMarker (p : Port) (upper : Bool) (count : Word) (s : State) : State :=
  let i := subIx true (b2n upper)
  match (s.port[p]).sub[i] with
  | none => s
  | some u =>
    if u.goSeen = false ∨ u.marker ≠ count then s
    else if u.phase = .going then subSend p 5 u false (subStands p i u s)
    else if u.phase = .returning then subSend p 5 u true (subReturned p i u s)
    else s

/-- SUBSTITUTION_MARKER. -/
def execSubstitutionMarker (p : Port) (upper : Bool) (count : Word) (s : State) : Host.Outcome State Fault Refusal := run (subMarker p upper count) s

/-- SUBSTITUTION_APPLIED (kind 5): the owner stops sending the share on the old carrier. -/
def subAppliedMsg (b : Beam) (body : List Byte) (s : State) : State :=
  match subLine body with
  | none => s
  | some n =>
    let p := portOf s b
    let i := subIx false (spareOf n)
    match (s.port[p]).sub[i] with
    | none => s
    | some u =>
      if byteAt body 0 ≠ 5 ∨ u.line ≠ n then s
      else if u.phase = .going ∧ byteAt body 4 = 0 then subStands p i u s
      else if u.phase = .returning ∧ byteAt body 4 = 1 then subReturned p i u s
      else s

/-- SUBSTITUTION_APPLIED. -/
def execSubstitutionApplied (b : Beam) (raw : List Byte) (s : State) : Host.Outcome State Fault Refusal := run (ctlRx b raw 5 (subAppliedMsg b)) s

/-- SUBSTITUTION_REPEAT: a request or go that is not yet answered is sent again, a waiting request too. -/
def subRepeat (p : Port) (d : Dir) (upper : Bool) (s : State) : State :=
  let rx := d == Dir.rx
  let i := subIx rx (b2n upper)
  let s1 := if rx then ((s.port[p]).needs.filter fun u => subIx u.rx (spareOf u.line) == i).foldl (fun t u => subSend p 3 u false t) s else s
  match (s.port[p]).sub[i] with
  | none => serveNeeds p i s1
  | some u =>
    if rx then
      (if u.phase = .requested then subSend p 3 u false s1
       else if u.phase = .returning ∧ u.goSeen = false then subSend p 3 u true s1 else s1)
    else if u.phase = .going then subSend p 4 u false s1
    else if u.phase = .returning then subSend p 4 u true s1
    else s1

/-- SUBSTITUTION_REPEAT. -/
def execSubstitutionRepeat (p : Port) (d : Dir) (upper : Bool) (s : State) : Host.Outcome State Fault Refusal := run (subRepeat p d upper) s

/-! ### Requalification (R504, R260) -/

/-- A line qualifies: at most 64 corrected symbols and no uncorrectable codeword in 1 ms (R260). -/
def lineQualifies (corrected : Nat) (uncorrectable : Bool) : Bool := decide (corrected ≤ 64) && !uncorrectable

/-- LINE_REQUALIFY: a line out of service for a fault is tried again. -/
def requalify (p : Port) (n : Line) (d : Dir) (s : State) : State :=
  let l := (s.port[p]).line[n]
  if portUp (s.port[p]) ∧ d = .rx ∧ l.out.getLsbD 0 then onLine p n (fun l => { l with requal := true }) s else s

/-- LINE_REQUALIFY. -/
def execLineRequalify (p : Port) (n : Line) (d : Dir) (s : State) : Host.Outcome State Fault Refusal := run (requalify p n d) s

/-- REQUALIFY_END. -/
def requalified (p : Port) (n : Line) (corrected : Nat) (uncorrectable : Bool) (s : State) : State :=
  if ((s.port[p]).line[n]).requal = false then s
  else
    let s1 := fecRx p [⟨n, corrected, b2n uncorrectable⟩] (onLine p n (fun l => { l with requal := false }) s)
    if lineQualifies corrected uncorrectable then
      (if 33 ≤ n.val then onPort p (fun q => { q with lineOk := setBit q.lineOk n.val }) (setOut p n 0 false s1) else lineBack p n s1)
    else s1

/-- REQUALIFY_END. -/
def execRequalifyEnd (p : Port) (n : Line) (corrected : Nat) (uncorrectable : Bool) (s : State) : Host.Outcome State Fault Refusal :=
  run (requalified p n corrected uncorrectable) s

/-! ### Port training (R258 to R262) -/

/-- Penumbra rate is asked for by this end: in force except from the entry actions of Lit on (R491, R493). -/
def ownPenumbraRate (s : State) : Bool := !(s.dev.state == .lit || s.dev.litEntry)

/-- The TRAIN flit of a port in its step (Table 8.9). -/
def trainBytes (s : State) (p : Port) : List Byte :=
  let q := s.port[p]
  let im := s.img.image.isSome
  let flags := b2n im + 2 * b2n (ownPenumbraRate s) + 4 * b2n (q.peerMatch == 1 || q.peerMatch == 3)
  flitBytes { typ := 4, cls := 2, head := false, tok := false, sw := 0, attempt := 0, seq := 0, ack := 0, place := ownPlace s, beam := 0,
              csel := 0, ccount := 0,
              body := [0, 2, 0, 2] ++ leBytes 4 (if im then (ownPlace s).toNat else 0xFFFFFFFF) ++
                leBytes 8 ((s.img.image.map fun i : Image => i.programId).getD 0).toNat ++
                [BitVec.ofNat 8 p.val, q.step.setWidth 8, BitVec.ofNat 8 flags, 0] ++ maskBytes (q.lineOk &&& ~~~ 1) }

/-- A training step starts and sends its TRAIN flits. -/
def trainStep (p : Port) (k : BitVec 4) (s : State) : State :=
  let s1 := onPort p (fun q => { q with step := k }) s
  emit (.train p (trainBytes s1 p)) s1

/-- The beams of a port pause while it retrains; their numbers and replay entries are kept (R262, Table 8.11). One that waits under R214 still
reads switching (R217). -/
def pausePort (p : Port) (s : State) : State :=
  (beamsOf s p).foldl (fun t b => onBeam b (fun q =>
    if beamLit q then { q with state := if q.waitNew then 4 else 2, tx := if timersRun q then .paused else q.tx, retrain := none, again := none }
    else q) t) s

/-- A port trains from a step (Table 8.10): its substitutions end, its beams pause. -/
def trainPort (p : Port) (k : BitVec 4) (s : State) : State :=
  let s1 := pausePort p (endEchoFibre p (endSubs p s))
  trainStep p k (onPort p (fun q => { q with
    state := 2, epoch := q.epoch + 1, trainSeen := false, partnerAccepts := false, peerMatch := 0, settled := 0
    lineOk := 0, lockOk := 0, qualDone := false, maskSeen := false
    penumbra := ownPenumbraRate s, sub := Vector.replicate 4 none, needs := [] }) s1)

/-- A port that is Up or Degraded retrains from a step: counted, Recoverable (R268, Table 8.20). -/
def retrainPort (p : Port) (k : BitVec 4) (s : State) : State :=
  if portUp (s.port[p]) = false then s
  else logEvent clsRecoverable blkPRT 0x0102 p.val (trainPort p k (onPort p (fun q => { q with counters := upd q.counters 1 (· + 1) }) s))

/-- The beams that the committed image lights on a port: those of the plan in force, or before Lit of the plan in slot 0 (R211, R268). -/
def imageLights (s : State) (p : Port) : List Beam :=
  let blocks : List PlanBlock := match (s.port[p]).block with
    | some e => [e.2]
    | none => ((planIn s 0).map fun (r : PlanRec) => r.blocks.filter fun k => k.port == p.val).getD []
  blocks.flatMap fun k => (k.beams.filter fun e => e.tx != 0 && e.rx != 0).map (·.beam)

/-- Training ends in Dark with a reason and its event bit; a repeated result raises no new event (R261). Contained for the beams that the image
lights on the port (R268). -/
def trainFails (p : Port) (reason bit : Nat) (s : State) : State :=
  let again := (s.port[p]).lastFail == BitVec.ofNat 4 reason
  let s1 := (litBeams s p ++ (if again then [] else imageLights s p)).foldl (fun t b => breakBeam b t) (onPort p (fun q => { portDarkSt reason q with lastFail := BitVec.ofNat 4 reason }) s)
  if again then s1 else flag blkPRT p.val bit (setEv blkPRT p.val 1 s1)

/-- The level that two ranges settle: the lower of the highs, not below either low (R259); this end's are both 2.0. -/
def settleLevel (high low : Nat) : Option Nat := if low ≤ min 0x0200 high ∧ 0x0200 ≤ min 0x0200 high then some (min 0x0200 high) else none

/-- The identity that the partner reports: accepted, mismatch, or no image to compare (R48, R259). -/
def identity (s : State) (p : Port) (flags place : Nat) (program : BitVec 64) : Nat :=
  match s.img.image with
  | none => 3
  | some i =>
    if flags % 2 = 0 then 3
    else if place % 2 ^ 24 = (i.ports[p]).place.toNat ∧ program = i.programId then 1 else 2

/-- The judgement of step 3: identity, then level. -/
def judgePartner (p : Port) (m high low : Nat) (s : State) : State :=
  if m = 2 then trainFails p 2 4 s
  else match settleLevel high low with
    | none => trainFails p 3 5 s
    | some l =>
      let s1 := onPort p (fun q => { q with settled := BitVec.ofNat 16 l, trainSeen := true }) s
      if (s.port[p]).trainSeen then s1 else emit (.train p (trainBytes s1 p)) s1

/-- A spare is given to the lowest failing line of its group in a direction, standing from the end of training on (Table 8.8 step 4; log entry
188). -/
def assignSpare (p : Port) (i : Fin 4) (s : State) : State :=
  let rx := decide (2 ≤ i.val)
  let lost (n : Line) : Bool := decide (1 ≤ n.val) && decide (n.val ≤ 32) && subIx rx (spareOf n) == i &&
    ((s.port[p]).line[n]).out.getLsbD (if rx then 0 else 1)
  match (fins 35).findSome? fun n => if lost n then (lineBeam s p n rx).map fun b => (n, b) else none with
  | some e =>
    if spareWorks s p i && pathPasses s p i e.2 then
      let u : Subst := { beam := e.2, line := e.1, reason := 2, request := 0, phase := .standing, own := rx, rx := rx }
      subServes p i u (takeSpare p i u s)
    else s
  | none => s

/-- The lines that qualified at their receivers are in service, the others are out of service for a fault (R260, R504). -/
def qualified (q : PortSt) : PortSt :=
  let all := dataLines q ||| (if q.penumbra then 0 else 0x600000000)
  { q with line := vmk 35 fun n => { q.line[n] with
      out := putBit (putBit q.line[n].out 0 (all.getLsbD n.val && !q.lineOk.getLsbD n.val)) 1 (all.getLsbD n.val && !q.partnerOk.getLsbD n.val)
      wrong := false, right := 0 } }

/-- Step 4 ends once this end has qualified its lines and the masks are exchanged: spares are assigned, and step 5 begins (Table 8.8). -/
def masksExchanged (p : Port) (s : State) : State :=
  let q := s.port[p]
  if q.state = 2 ∧ q.step = 4 ∧ q.qualDone ∧ q.maskSeen then
    let s1 := onPort p qualified s
    trainStep p 5 (if q.penumbra then s1 else (fins 4).foldl (fun t i => assignSpare p i t) s1)
  else s

/-- A TRAIN payload (Table 8.9). A mask of qualified lines comes with step 4 once it is not empty, and with step 5. -/
def trainMsg (p : Port) (b : List Byte) (s : State) : State :=
  let q := s.port[p]
  let flags := (byteAt b 18).toNat
  let place := leNat ((b.drop 4).take 4)
  let m := identity s p flags place (BitVec.ofNat 64 (leNat ((b.drop 8).take 8)))
  let s1 := onPort p (fun q => { q with
    partnerHigh := BitVec.ofNat 16 (leNat (b.take 2)), peerPlace := BitVec.ofNat 24 place, peerPort := BitVec.ofNat 6 (byteAt b 16).toNat
    penumbra := q.penumbra || (byteAt b 18).getLsbD 1, partnerAccepts := (byteAt b 18).getLsbD 2
    partnerOk := maskAt b 20
    maskSeen := q.maskSeen || decide ((byteAt b 17).toNat = 5) || (decide ((byteAt b 17).toNat = 4) && maskAt b 20 != 0)
    peerMatch := if q.step = 3 then BitVec.ofNat 2 m else q.peerMatch }) s
  if q.step = 3 then judgePartner p m (leNat (b.take 2)) (leNat ((b.drop 2).take 2)) s1 else masksExchanged p s1

/-- TRAIN: a TRAIN flit while the port is Training. A port in service whose partner trains from step 1 or 2 trains with it, as when the partner
leaves Penumbra (R258, R259; DEDUCED, log entry 186). -/
def trainRx (p : Port) (raw : List Byte) (s : State) : State :=
  match flitOf raw with
  | none => s
  | some f =>
    if f.typ ≠ 4 then s
    else
      let k := (byteAt f.body 17).toNat
      let s1 := if portUp (s.port[p]) ∧ (k = 1 ∨ k = 2) then retrainPort p (BitVec.ofNat 4 k) s else s
      if (s1.port[p]).state = 2 then trainMsg p f.body s1 else s1

/-- A beam that the plan in force lights on a port in service takes the lines it can use (R206, R505, Tables 8.6 and 8.11). It starts when it was
never lit; one that was unlit, or that a switch has moved meanwhile, waits for a flit of its switch count; one that its port's training paused
asks for its retrain. A direction without a line breaks it, and a broken beam stays broken. -/
def lightBeam (b : Beam) (s : State) : State :=
  let q := s.beam[b]
  let m := wantMasks s b
  if (planEntry s b).isNone then s
  else if q.state = 6 then onBeam b (setMasks m) s
  else if m.1 = 0 ∨ m.2 = 0 then breakBeam b (onBeam b (fun q => { q with state := 2 }) s)
  else
    let s1 := onBeam b (setMasks m) s
    if q.tx = .uninit then beamFirst b s1
    else if q.tx = .unlit then onBeam b (fun q => { q with state := 4, tx := .paused, waitNew := true, newSeen := false }) s1
    else if q.waitNew then tryResume b (onBeam b (fun q => { q with state := 4 }) s1)
    else if q.tx = .paused then askRetrain b s1
    else s1

/-- The beams of a port that is Up or Degraded initialise or resume; a port at the Penumbra rate holds them unlit (R259). -/
def lightPort (p : Port) (s : State) : State :=
  if portUp (s.port[p]) = false then s
  else if (s.port[p]).penumbra then
    (beamsOf s p).foldl (fun t b => onBeam b (fun q =>
      if beamLit q then { q with
        state := 1, tx := if q.tx = .init ∨ q.tx = .uninit then .uninit else .unlit, txMask := 0, rxMask := 0, waitNew := false, newSeen := false }
      else q) t) s
  else (beamsOf s p).foldl (fun t b => lightBeam b t) s

/-- The phase entries of the lines in service are trained: the skews that training finds, which no operand gives (R218). -/
def phasesTrained (n : Nat) (q : PortSt) : PortSt :=
  { q with line := vmk 35 fun k => { q.line[k] with
      phase := if q.lineOk.getLsbD k.val then some (Config.freeValue 16 (n + k.val)) else q.line[k].phase
      acquiring := false, locked := q.lineOk.getLsbD k.val } }

/-- Training step 5 ends: the port is Up with all its data lines, else Degraded. -/
def portOpens (p : Port) (s : State) : State :=
  let q := s.port[p]
  let whole := usableLines q == dataLines q
  let s1 := spend 35 (onPort p (fun q => { phasesTrained s.fresh q with
    state := if whole then 3 else 4, step := 0, epoch := q.epoch + 1, lastFail := 0 }) s)
  lightPort p (flag blkPRT p.val (if whole then 0 else 2) s1)

/-- The lines that pass the count of step 4: locked, at most 64 corrected symbols and no uncorrectable codeword in 1 ms (R260). -/
def linesQualify (q : PortSt) (counts : List (Nat × Bool)) : LineSet :=
  let all := dataLines q ||| (if q.penumbra then 0 else 0x600000000)
  q.lockOk &&& all &&& BitVec.ofNat 35 (boolsNat ((List.range 35).map fun n => let c := nth counts n (0, false); lineQualifies c.1 c.2))

/-- Step 4's millisecond ends: the mask goes to the partner, and the port waits for the partner's. -/
def portQualifies (p : Port) (counts : List (Nat × Bool)) (s : State) : State :=
  let s1 := onPort p (fun q => { q with lineOk := linesQualify q counts ||| (q.lineOk &&& 1), qualDone := true }) s
  let fec := (fins 35).filterMap fun n => let c := nth counts n.val (0, false)
    if n.val = 0 ∨ (s.port[p]).lockOk.getLsbD n.val = false ∨ c = (0, false) then none else some ⟨n, c.1, b2n c.2⟩
  let s2 := fecRx p fec s1
  masksExchanged p (emit (.train p (trainBytes s2 p)) s2)

/-- A port training step ends (Table 8.8). -/
def portStep (p : Port) (r : PortStep) (s : State) : State :=
  let q := s.port[p]
  if q.state ≠ 2 then s
  else if q.step = 1 then trainStep p 2 (onPort p (fun q => { q with lineOk := 1 }) s)
  else if q.step = 2 then
    trainStep p 3 (onPort p (fun q => { q with
      lineOk := 1, lockOk := r.locked
      line := vmk 35 fun n => { q.line[n] with aligned := decide (0 < n.val) && r.locked.getLsbD n.val, missed := 0 } }) s)
  else if q.step = 3 then (if q.trainSeen && q.partnerAccepts then trainStep p 4 s else s)
  else if q.step = 4 then (if q.qualDone then s else portQualifies p r.counts s)
  else if q.step = 5 then portOpens p s
  else s

/-- L00_LOCK_LOST: the port retrains from step 1 (Table 8.10). -/
def execL00LockLost (p : Port) (s : State) : Host.Outcome State Fault Refusal := run (retrainPort p 1) s

/-! ### PRT_CMD (R270) -/

/-- The effect of an allowed PRT_CMD, none when it is refused. -/
def prtCmdEffect (code : Nat) (p : Port) (s : State) : Option State :=
  let q := s.port[p]
  if code = 1 then (if portUp q then some (retrainPort p 2 s) else none)
  else if code = 2 then (if q.hold then none else some (onPort p (fun q => { q with hold := true, reason := darkReason q 6, shutter := .closed })
    (if q.state = 0 then onPort p (fun q => { q with probing := false, probes := 0 }) s else portDarkBreak p 6 s)))
  else if code = 3 then (if q.hold then some (endEchoPort p (onPort p (fun q => { q with hold := false }) s)) else none)
  else none

/-- A PRT_CMD write: stale, refused or carried out. DESIGN CHOICE (log entry 180): R270 does not say when a command is in progress; the model
carries one out within its write, so PRT_CMD_STATUS.busy reads 0. -/
def prtCmd (code : Nat) (v : Word) (s : State) : State :=
  let p : Port := fin! 64 (fld v 13 8)
  let put (r : Nat) (t : State) : State := { t with pln := { t.pln with prtCmd := (BitVec.ofNat 8 code, false, BitVec.ofNat 2 r) } }
  if fld v 31 16 ≠ (s.port[p]).epoch.toNat then flag blkPRT p.val 10 (put 2 s)
  else match prtCmdEffect code p s with
    | some t => put 1 (onPort p (fun q => { q with epoch := q.epoch + 1 }) t)
    | none => put 3 s

end Sys2Proof.Machine
end

