-- ==== Sys2Proof/Machine/Plans.lean ====
section
/-!
DEFINITION. Light plans (chapter 7): the plan store, the Dim overlay, and the plan switch at each Port Engine.
-/

namespace Sys2Proof.Machine

/-! ### The plan store (R211) -/

/-- The record of a plan that one of slots 0 to 127 of the store holds; the switch slot does not count as resident (R64). -/
def storePlan (s : State) (id : BitVec 16) : Option PlanRec :=
  ((fins 129).find? fun k => k.val != 128 && (s.pln.slots[k]).state == 1 && (s.pln.slots[k]).planId == id).bind (planIn s)

/-- The block of a port in a plan: every line dark without one (R208). -/
def blockIn (r : PlanRec) (p : Port) : PlanBlock :=
  (r.blocks.find? fun b => b.port == p.val).getD { port := p.val, pass := 0, beams := [] }

/-- The port block in force, empty without a plan. -/
def blockNow (s : State) (p : Port) : PlanBlock := ((s.port[p]).block.map (·.2)).getD { port := p.val, pass := 0, beams := [] }

/-! ### Dim plans (R221 to R225) -/

/-- The local lines of a port that the first D Dim plans name. -/
def shedSet (s : State) (p : Port) : LineSet :=
  ((powerRec s).dim.take s.pwr.dim).foldl (fun m id =>
    match storePlan s id with
    | some r => (blockIn r p).beams.foldl (fun m e => m ||| e.tx) m
    | none => m) 0

/-- The lowest line of a set. -/
def lowestLine (m : LineSet) : LineSet :=
  match (fins 35).find? fun n => m.getLsbD n.val with
  | some n => BitVec.ofNat 35 (2 ^ n.val)
  | none => 0

/-- The lines of a beam that are shed: local, not passed by the pair's receive fibre, and never all of them (R222). -/
def shedOf (shed pairPass : LineSet) (e : PlanBeam) : LineSet :=
  let c := e.tx &&& shed &&& ~~~ pairPass
  if c = e.tx then c &&& ~~~ lowestLine c else c

/-- The lines of a port that the Dim overlay holds dark under a block. The lines that the pair passes are those of its receive fibre, allowed
by the express mask or not. -/
def dimmedLines (s : State) (p : Port) (blk : PlanBlock) : LineSet :=
  blk.beams.foldl (fun m e => m ||| shedOf (shedSet s p) (passMask s (pairPort p)) e) 0

/-- A beam's shed field follows the overlay (Table 7.24). -/
def setShed (p : Port) (s : State) : State :=
  (blockNow s p).beams.foldl (fun t e => onBeam e.beam (fun q => { q with shed := e.tx &&& (t.port[p]).dimmed }) t) s

/-- The overlay of a port changes: its beams whose lines change retrain, and a request that has not met its go takes the new masks (R223, R264,
Table 8.13). -/
def putDim (p : Port) (d : LineSet) (s : State) : State :=
  if d = (s.port[p]).dimmed then s
  else
    let s1 := setShed p (onPort p (fun q => { q with dimmed := d }) s)
    (blockNow s p).beams.foldl (fun t e =>
      if (t.beam[e.beam]).retrain.isNone ∧ (wantMasks t e.beam).1 = (t.beam[e.beam]).txMask then t else askRetrain e.beam t) s1

/-- The overlay of a port is brought to the Dim level and to the pass lines of its pair (R222). During a switch it waits for the switch to be
complete (Table 7.10). -/
def portDim (p : Port) (s : State) : State :=
  if (s.port[p]).switchQ.any (·.running) then s else putDim p (dimmedLines s p (blockNow s p)) s

/-- The pair port's pass lines have changed: the overlay of a port follows them, and gives back a line that is now in pass there even while a
switch of its own is running (R222). -/
def pairDim (p : Port) (s : State) : State :=
  if (s.port[p]).switchQ.any (·.running) then putDim p ((s.port[p]).dimmed &&& dimmedLines s p (blockNow s p)) s else portDim p s

/-- The Dim level has changed: event, state epoch, and the overlay on every port (R221, Tables 7.13, 7.17). -/
def dimApply (s : State) : State :=
  (fins 64).foldl (fun t p => portDim p t) (flag blkPLN 0 0 { s with pln := { s.pln with epoch := s.pln.epoch + 1 } })

/-! ### Switching (R213 to R218, Table 7.6) -/

/-- What a block gives a beam. -/
def entryIn (blk : PlanBlock) (b : Beam) : Option PlanBeam := blk.beams.find? fun e => decide (e.beam = b)

/-- The masks a block gives a beam, none when it is unlit. -/
def masksIn (blk : PlanBlock) (b : Beam) : LineSet × LineSet := ((entryIn blk b).map fun e => (e.tx, e.rx)).getD (0, 0)

/-- The beams that a change of block affects: those whose masks differ. -/
def affected (old new : PlanBlock) : List Beam :=
  ((old.beams ++ new.beams).map (·.beam)).dedup.filter fun b => masksIn old b != masksIn new b

/-- The block that a port will hold once every switch on its way is done. -/
def blockAhead (s : State) (p : Port) : PlanBlock := (((s.port[p]).switchQ.getLast?).map (·.block)).getD (blockNow s p)

/-- The plan_id that will be in force once every switch on its way is done. -/
def planAhead (s : State) : BitVec 16 :=
  (((fins 64).findSome? fun p => (s.port[p]).switchQ.find? fun e => e.serial == s.pln.issued).map (·.planId)).getD s.pln.inForce

/-- The plan in force, or the one on its way to the beam's port, lights the beam: it has a local and a terminated line (R206). -/
def beamInPlan (s : State) (b : Beam) : Bool :=
  let m := masksIn (blockAhead s (beamRec s b).port) b
  m.1 != 0 && m.2 != 0

/-- The switch to a plan as a port gets it. -/
def portSwitch (s : State) (r : PlanRec) (p : Port) : PortSwitch :=
  { serial := s.pln.issued + 1, planId := r.planId, block := blockIn r p, beams := affected (blockAhead s p) (blockIn r p) }

/-- A SWITCH takes effect: it goes to every Port Engine (R213). A switch to the plan that is, or is already to be, in force is a no-op
(R109, R227). -/
def switchStart (r : PlanRec) (s : State) : State :=
  if r.planId = planAhead s then s
  else { s with
    pln := { s.pln with issued := s.pln.issued + 1 }
    port := vmk 64 fun p => { s.port[p] with switchQ := (s.port[p]).switchQ ++ [portSwitch s r p] } }

/-- A switch at a port with its stage changed. -/
def setStage (n : Nat) (c : SwitchStage) (q : PortSt) : PortSt :=
  { q with switchQ := q.switchQ.map fun e => if e.serial = n then { e with stage := c } else e }

/-- A beam that a switch affects retrains: the switch is applied when the retrain ends (Table 7.10). -/
def switchBlocked (s : State) (e : PortSwitch) : Bool := e.beams.any fun b => (s.beam[b]).retrain.isSome && beamLit (s.beam[b])

/-- A switch starts at a Port Engine: no data flit is started on an affected beam (R213). -/
def switchPauses (p : Port) (e : PortSwitch) (s : State) : State :=
  e.beams.foldl (fun t b => onBeam b (fun q => { q with tx := if timersRun q then .paused else q.tx }) t) (onPort p (setStage e.serial .arrived) s)

/-- A switch reaches a Port Engine (R213). It is held while a beam that it affects retrains, and while an earlier one is held. -/
def switchArrive (p : Port) (s : State) : State :=
  match (s.port[p]).switchQ.find? fun e => e.stage == .coming with
  | none => s
  | some e =>
    if switchBlocked s e ∨ ((s.port[p]).switchQ.any fun e => e.stage == .held) = true then onPort p (setStage e.serial .held) s
    else switchPauses p e s

/-- SWITCH_ARRIVAL. -/
def execSwitchArrival (p : Port) (s : State) : Host.Outcome State Fault Refusal := run (switchArrive p) s

/-- The first held switch of a port is applied if no retrain holds it any more. -/
def heldSwitch (p : Port) (s : State) : State :=
  match (s.port[p]).switchQ.find? fun e => e.stage == .held with
  | some e => if switchBlocked s e then s else switchPauses p e s
  | none => s

/-- All lines that a block terminates. -/
def blockRx (blk : PlanBlock) : LineSet := blk.beams.foldl (fun m e => m ||| e.rx) 0

/-- All lines that a block makes local. -/
def blockTx (blk : PlanBlock) : LineSet := blk.beams.foldl (fun m e => m ||| e.tx) 0

/-- A switch at a port meets its event 1; the lines that it makes local wait for event 2. -/
def anchored (n : Nat) (m : LineSet) (q : PortSt) : PortSt :=
  { q with switchQ := q.switchQ.map fun e => if e.serial = n then { e with stage := .anchored, lines := m } else e }

/-- A beam leaves the plan in force: it keeps its link state, and its timers stop (R206). -/
def unlight (q : BeamSt) : BeamSt :=
  { q with state := 1, tx := if q.tx = .uninit ∨ q.tx = .init then .uninit else .unlit, txMask := 0, rxMask := 0, shed := 0
           waitNew := false, newSeen := false, granted := false, retrain := none, again := none }

/-- A beam whose receive lines are about to change had a terminated and locked one up to now (R218). -/
def noteLocked (b : Beam) (s : State) : State :=
  if (fins 35).any fun n => (s.beam[b]).rxMask.getLsbD n.val && ((s.port[portOf s b]).line[n]).locked then
    onBeam b (fun q => { q with lockedAt := some s.time }) s
  else s

/-- A beam with a new line set pauses and waits for a flit of its switch count (R214). -/
def awaitNew (q : BeamSt) : BeamSt :=
  { q with state := 4, tx := if q.tx = .uninit ∨ q.tx = .init then q.tx else .paused, waitNew := true
           newSeen := decide (q.peerSw = BitVec.ofNat 4 q.swcount) }

/-- A request for a retrain that has not met its go takes the masks of the new plan. -/
def renewRequest (b : Beam) (s : State) : State :=
  if (s.beam[b]).retrain.isSome && !retrainGoes (s.beam[b]) then askRetrain b s else s

/-- An affected beam on a port in service: it takes its new lines and waits under R214, or starts. -/
def switchLines (b : Beam) (s : State) : State :=
  let q := s.beam[b]
  let m := wantMasks s b
  if m.1 = 0 ∨ m.2 = 0 then breakBeam b (onBeam b (fun q => { q with state := 4 }) s)
  else
    let s2 := onBeam b (setMasks m) (joinLines b q.rxMask m.2 s)
    if q.tx = .uninit then beamFirst b s2
    else if q.tx = .init then s2
    else renewRequest b (onBeam b awaitNew s2)

/-- Event 1 for an affected beam: its switch count advances; it goes unlit, or takes its new lines. A broken beam keeps to its plan's lines. A
beam that its port's training has paused waits under R214 once the port is in service; one that the plan lights on a port not in service
starts there with the port (R206, R259). -/
def switchBeam (p : Port) (new : PlanBlock) (b : Beam) (s : State) : State :=
  let q := s.beam[b]
  let s1 := onBeam b (fun q => { q with swcount := q.swcount + 1 }) s
  match entryIn new b with
  | none => onBeam b (fun r => if q.state = 6 then { r with txMask := 0, rxMask := 0, shed := 0 } else unlight r) s1
  | some _ =>
    if q.state = 6 then onBeam b (setMasks (wantMasks s1 b)) s1
    else if portUp (s.port[p]) = false then (if beamLit q then onBeam b awaitNew s1 else s1)
    else if (s.port[p]).penumbra then s1
    else switchLines b s1

/-- Substitutions whose line leaves its beam are abandoned, and needs of such a line are over (Table 7.10). -/
def dropSubs (p : Port) (new : PlanBlock) (s0 : State) : State :=
  let s := onPort p (fun q => { q with needs := q.needs.filter fun u => (if u.rx then (masksIn new u.beam).2 else (masksIn new u.beam).1).getLsbD u.line.val }) s0
  (fins 4).foldl (fun t i =>
    match (t.port[p]).sub[i] with
    | some u =>
      let m := masksIn new u.beam
      if (if 2 ≤ i.val then m.2 else m.1).getLsbD u.line.val then t else subEnd p i false t
    | none => t) s

/-- PLN_IN_FORCE takes the new plan at the first event 1 of a switch (R217). -/
def showPlan (n : Nat) (id : BitVec 16) (s : State) : State :=
  if n ≤ s.pln.shown then s
  else { s with pln := { s.pln with
    shown := n, previous := s.pln.inForce, inForce := id, epoch := s.pln.epoch + 1, switches := s.pln.switches + 1 } }

/-- Event 1 at a Port Engine: the new block with the Dim overlay, its beams and lines (R213, R225). The pair port's overlay follows the lines
now in pass here (R222). -/
def switchAnchor (p : Port) (s0 : State) : State :=
  let s := heldSwitch p s0
  match (s.port[p]).switchQ.find? fun e => e.stage == .arrived with
  | none => s
  | some e =>
    let old := blockNow s p
    let s1 := onPort p (fun q => { anchored e.serial (blockTx e.block &&& ~~~ blockTx old) q with
      block := some (e.planId, e.block), dimmed := dimmedLines s p e.block }) (showPlan e.serial e.planId s)
    let s2 := e.beams.foldl (fun t b => switchBeam p e.block b t) (e.beams.foldl (fun t b => noteLocked b t) s1)
    let s3 := dropSubs p e.block (setShed p (leaveLines p (blockRx old &&& ~~~ blockRx e.block) s2))
    if old.pass = e.block.pass then s3 else pairDim (pairPort p) s3

/-- SWITCH_RINGS_SET: newly local lines are lit and carry switch-idle flits (event 2). -/
def execSwitchRingsSet (p : Port) (s : State) : Host.Outcome State Fault Refusal :=
  run (fun s => match (s.port[p]).switchQ.find? fun e => e.stage == .anchored with
    | some e => ringsPlace p (onPort p (setStage e.serial .ringsSet) s)
    | none => s) s

/-- LINE_RELOCK: a newly terminated line is locked (event 3, R218). -/
def execLineRelock (p : Port) (n : Line) (s : State) : Host.Outcome State Fault Refusal :=
  run (onLine p n fun l => { l with locked := true, acquiring := false }) s

/-- SWITCH_COMPLETE: the beams that wait may resume (event 5, R214), and a Dim level that changed meanwhile applies. -/
def switchComplete (p : Port) (s : State) : State :=
  match (s.port[p]).switchQ.find? fun e => e.stage == .ringsSet with
  | none => s
  | some e =>
    let s1 := onPort p (fun q => { q with switchQ := q.switchQ.filter fun d => d.serial != e.serial }) s
    portDim p (e.beams.foldl (fun t b => tryResume b t) s1)

/-- SWITCH_COMPLETE. -/
def execSwitchComplete (p : Port) (s : State) : Host.Outcome State Fault Refusal := run (switchComplete p) s

/-- SWITCH_STALL: a beam has waited more than 1 µs under R214 (Table 7.17). -/
def execSwitchStall (b : Beam) (s : State) : Host.Outcome State Fault Refusal :=
  run (fun s => if (s.beam[b]).waitNew then flag blkPLN 0 1 s else s) s

/-- RETRAIN_DESKEW_DONE. -/
def execRetrainDeskewDone (b : Beam) (s : State) : Host.Outcome State Fault Refusal :=
  run (fun s => heldSwitch (portOf s b) (deskewDone b s)) s

/-- RETRAIN_READY (kind 2). -/
def execRetrainReady (b : Beam) (raw : List Byte) (s : State) : Host.Outcome State Fault Refusal :=
  run (ctlRx b raw 5 fun body s => heldSwitch (portOf s b) (readyMsg b body s)) s

/-! ### Putting a plan in force, and withdrawing it (R211, R493) -/

/-- A plan comes into force on every port at once, as at Lit entry: its blocks, and its beams lit on ports in service. -/
def planInstall (r : PlanRec) (s : State) : State :=
  let s1 := { s with
    pln := { s.pln with previous := s.pln.inForce, inForce := r.planId }
    port := vmk 64 fun p => { s.port[p] with block := some (r.planId, blockIn r p), switchQ := [] } }
  (fins 64).foldl (fun t p => lightPort p (setShed p (onPort p (fun q => { q with dimmed := dimmedLines t p (blockNow t p) }) t))) s1

/-- No plan is in force: every beam is unlit and keeps its link-layer state (R493, R206). -/
def planWithdraw (s : State) : State :=
  let t := (fins 256).foldl (fun t b => if beamLit (t.beam[b]) then noteLocked b t else t) s
  { t with
    pln := { t.pln with inForce := 0xFFFF }
    port := t.port.map fun q => { q with block := none, switchQ := [], dimmed := 0 }
    beam := t.beam.map fun q => if beamLit q then unlight q else q }

end Sys2Proof.Machine
end

