-- ==== Sys2Proof/Machine/Rings.lean ====
section
/-!
DEFINITION. Ring loops, feed-forward hints and calibration (chapter 9).
-/

namespace Sys2Proof.Machine

/-! ### The loop (R275, R276, R301) -/

/-- The light is absent from the monitor: its integral is below 1 % of full scale, which an operand gives in 1/1,000,000 (R276). -/
def monitorDark (power : Nat) : Bool := decide (power < 10000)

/-- The ratio ρ of the integrals over a pair of half-periods (R275). -/
def rhoOf (plus minus : Nat) : Rat := ((plus : Rat) - minus) / (plus + minus)

/-- The target of a ring's ρ (R275). -/
def rhoTarget (s : State) (r : Nat) : Rat :=
  if ringType r = ringModulator then (((s.port[ringPort r]).line[ringLine r]).rhoM : Rat) / 1000000 else 0

/-- What a pair of visits adds to a ring's integrator, in mW: 2.10 µs at a velocity constant of 9,425 per second, times the error of the ring's
position. That error is 100 GHz times the error of ρ on a line of 16 GHz, and in proportion on another (R275, R283; log entry 190). -/
def loopStep (s : State) (r : Nat) (rho : Rat) : Rat :=
  -(9425 * 21 / 10000000) * (100 * linewidth (ringType r) / 16) * (rho - rhoTarget s r) / effGHz (haloRow s r)

/-- A wrong-line lock by the setpoint check (R301). A drop ring of a terminated line asks for its spare, as the ring at fault, and one of a spare
relocks in place. A modulator or an exchange ring is marked: its owner relocks it when the far end asks (R302). -/
def setpointCheck (r : Nat) (s0 : State) : State :=
  let p := ringPort r
  let n := ringLine r
  let fails := !ringParked s0 r && setpointFails s0 r
  let s := onRing r (fun z => { z with astray := fails }) s0
  if fails = false ∨ ringType r ≠ ringDrop ∨ n.val = 0 ∨ ((s.port[p]).line[n]).wrong ∨ portUp (s.port[p]) = false ∨ receiverOn s p n = false then s
  else
    let s1 := onLine p n (fun l => { l with wrong := true, right := 0 }) s
    if 33 ≤ n.val then relockRing r (spareLost p n s1) else lineNeeds p n 1 true s1

/-- One visit of the loop engine to a ring: it reads the integral of the half-period that ends, updates the integrator after each pair, and
writes the heater and, with the dither reversed, the junction (R275, R276, R280). -/
def ringVisit (r power : Nat) (s : State) : State :=
  let y := ringSt s r
  let dark := if monitorDark power then min 10 (y.darkVisits + 1) else 0
  let closed := !ringParked s r && (if monitorDark power then y.closed && decide (dark < 10) else true)
  let pair := if closed then y.half else none
  let step := match pair with
    | some h => if 0 < power + h then loopStep s r (if y.dither then rhoOf power h else rhoOf h power) else 0
    | none => 0
  let m := modelHeater s r
  let raw := m + y.integ + step
  let windsOut := (decide (4 < raw) && decide (0 < step)) || (decide (raw < 0) && decide (step < 0))
  let integ := if windsOut then y.integ else y.integ + step
  setpointCheck r (onRing r (fun z => { z with
    closed := closed, darkVisits := dark, integ := integ, heater := heaterDac (m + integ)
    half := if closed && pair.isNone then some power else none
    dither := !y.dither, junction := junctionOf s r (!y.dither) }) s)

/-- The code of loop memory reports an error of a ring's row: corrected, or the port's rows reload from the fused tables and the port retrains
from step 1 (R278, Table 9.15). -/
def rowCode (p : Port) (c : CodeResult) (s : State) : State :=
  match c with
  | .clean => s
  | .corrected => logEvent clsCorrected blkPRT 0x0103 p.val s
  | .uncorrectable => retrainPort p 1 (logEvent clsRecoverable blkPRT 0x0104 p.val (reloadRows p s))
  | .missed _ => s

/-- The row of a ring whose error the code missed holds an unspecified value (R402). -/
def rowMissed (r : Nat) (c : CodeResult) (s : State) : State :=
  match c with
  | .missed corrects =>
    let s1 := if corrects then logEvent clsCorrected blkPRT 0x0103 (ringPort r).val s else s
    { s1 with ring := { s1.ring with halo := aput s1.ring.halo r (haloOf (Config.freeValue 512 s1.fresh)) }, fresh := s1.fresh + 1 }
  | _ => s

/-- RING_LOOP_VISIT. -/
def execRingLoopVisit (r : Ring) (power : Nat) (row : CodeResult) (s : State) : Host.Outcome State Fault Refusal :=
  run (fun s => ringVisit r.val power (rowMissed r.val row (rowCode (ringPort r.val) row s))) s

/-- A tile's power by the fused coefficients: each of its activity counters times its coefficient, in µW (R414). `counts` holds the counters of
tile 0, then those of tile 1, and so on. -/
def tileUw (counts : List Nat) (i : Nat) : Nat :=
  let n := Config.tileCounters
  ((List.range n).map fun j => Config.tileCoefficient i j * nth counts (i * n + j) 0).sum

/-- The filtered tile powers take a sample of 10 µs through a first-order filter of 300 µs (R279, R280). The coefficients in force are the fused
ones times `Pwr.tileScale`, which each ms scales to the measured power (R414). -/
def tileSample (counts : List Nat) (s : State) : State :=
  let k := Config.expMinus 10 300
  { s with
    pwr := { s.pwr with tileRaw := ((List.range 256).map (tileUw counts)).sum }
    ring := { s.ring with tiles := (List.range 256).map fun i =>
      let x : Rat := s.pwr.tileScale * (tileUw counts i : Rat) / 1000000
      x + (nth s.ring.tiles i 0 - x) * k } }

/-! ### Hints (R281, R282, R362) -/

/-- HINT: a change of a compute die's power, taking effect after its lead; ignored where the hint term does not apply. -/
def hintMsg (x : SiteIx) (b : List Byte) (s : State) : State :=
  if (calibRec s).haloFf / 2 % 2 = 1 ∧ (siteRec s x).hints then
    { s with ring := { s.ring with
        hints := { site := x, dP := sval 16 (bnat b 0 2), from_ := s.time + bnat b 2 2, came := s.time } :: s.ring.hints } }
  else s

/-- SB_HINT. -/
def execSbHint (x : SiteIx) (raw : List Byte) (s : State) : Host.Outcome State Fault Refusal := sbRow x raw 0x18 (hintMsg x) s

/-- The gain that a measured rise moves a hint's gain to: by one eighth of the difference between the measured and the predicted rise of the
zone, as the hint's own share of power and time shows it, to the nearest step and within 0 to 0.050 °C/W (R282; log entry 78). -/
def learntGain (s : State) (p : Port) (h : ThermalHint) (rise20 : Int) (g : HintEntry) : Int :=
  let t := s.time - h.from_
  let a : Rat := (g.a : Rat) / 256
  let share := (h.dP : Rat) / 10 * (1 - a * Config.expMinus t g.tau1 - (1 - a) * Config.expMinus t g.tau2)
  if share = 0 then g.gain
  else
    let moved := (g.gain : Rat) + ((rise20 : Rat) / 20 - hintRise s p) / share * 1000 / 8
    (clampRat 0 50 ((moved + 1 / 2).floor : Rat)).floor

/-- HINT_LEARN: the oldest hint of the site that is 8 ms old and that the zone has not learnt from (R282). -/
def hintLearn (p : Port) (x : SiteIx) (rise20 : Int) (s : State) : State :=
  let mine (h : ThermalHint) : Bool := decide (h.site = x) && decide (h.came + 8000 ≤ s.time) && !h.learnt.getLsbD p.val
  match s.ring.hints.reverse.find? mine with
  | none => s
  | some h =>
    { s with ring := { s.ring with
        hints := (s.ring.hints.reverse.replace h { h with learnt := setBit h.learnt p.val }).reverse
        hint := upd s.ring.hint p fun v => upd v x fun g => { g with gain := learntGain s p h rise20 g, learned := true } } }

/-- HINT_LEARN. -/
def execHintLearn (p : Port) (x : SiteIx) (rise20 : Int) (s : State) : Host.Outcome State Fault Refusal := run (hintLearn p x rise20) s

/-! ### When a calibration is due, and how it runs (R286, R287) -/

/-- The rings that a direction of a line uses (R286). -/
def ringsUsed (p : Port) (n : Line) (d : Dir) : List Nat :=
  match d with
  | .tx => [ringOf p ringModulator n, ringOf p ringExchange n]
  | .rx => [ringOf p ringDrop n]

/-- The calibration state of a direction of a line. -/
def calOf (l : LineSt) (d : Dir) : CalSt := match d with
  | .tx => l.calTx
  | .rx => l.calRx

/-- Changes the calibration state of a direction of a line. -/
def onCal (p : Port) (n : Line) (d : Dir) (f : CalSt → CalSt) (s : State) : State :=
  onLine p n (fun l => match d with
    | .tx => { l with calTx := f l.calTx }
    | .rx => { l with calRx := f l.calRx }) s

/-- The zone lies further than recal_threshold from where one of the rings was last calibrated (R286). -/
def calDue (s : State) (p : Port) (n : Line) (d : Dir) : Bool :=
  (ringsUsed p n d).any fun r => decide (2 * (calibRec s).recal < ((s.port[p]).zone - (ringSt s r).calTemp).natAbs)

/-- A zone sample makes calibrations due, or no longer due. -/
def markDue (p : Port) (s : State) : State :=
  let one (q : Bool) (c : CalSt) : CalSt :=
    if q then { c with dueSince := some (c.dueSince.getD s.time) } else { c with dueSince := none, overdue := false }
  if (s.port[p]).coldSwept then
    onPort p (fun q => { q with line := vmk 35 fun n => { q.line[n] with
      calTx := one (calDue s p n .tx) q.line[n].calTx, calRx := one (calDue s p n .rx) q.line[n].calRx } }) s
  else s

/-- The events of a ring zone: at 83 °C or more, below 36 °C, outside 35 to 85 °C (Tables 14.5, 14.14). -/
def zoneCond (bit : Nat) (z : Int) : Bool :=
  if bit = 3 then decide (83 * 20 ≤ z) else if bit = 4 then decide (z < 36 * 20) else decide (z < 35 * 20 ∨ 85 * 20 < z)

/-- A ring zone's condition that its last reading did not meet is reported, by its sensor number (R428). -/
def zoneEvent (p : Port) (was : Option Int) (now : Int) (s : State) (bit : Nat) : State :=
  if zoneCond bit now && !(was.any (zoneCond bit)) then flag blkTHM (64 + p.val) bit s else s

/-- A sensor beyond the junction's works, by its THM_SENS_SEL number (R428). -/
def sensorOk (s : State) (k : Nat) : Bool := !s.thm.failed.contains k

/-- RING_ZONE_SAMPLE (R272, R428); a sensor that fails its self-check is excluded. -/
def zoneSample (p : Port) (temp20 : Int) (s : State) : State :=
  if sensorOk s (64 + p.val) = false then s
  else
    let s1 := [3, 4, 5].foldl (zoneEvent p (s.port[p]).zoneHist.head? temp20) s
    markDue p (onPort p (fun q => { q with zone := temp20, zoneHist := (temp20 :: q.zoneHist).take 101 }) s1)

/-- RING_ZONE_SAMPLE. -/
def execRingZoneSample (p : Port) (temp20 : Int) (s : State) : Host.Outcome State Fault Refusal := run (zoneSample p temp20) s

/-- The zone changed by less than 0.25 °C throughout the preceding 1 ms (R286): 101 samples of 0.05 °C. -/
def zoneSteady (q : PortSt) : Bool :=
  let lo := q.zoneHist.foldl min q.zone
  let hi := q.zoneHist.foldl max q.zone
  decide (q.zoneHist.length = 101) && decide (hi - lo < 5)

/-- What Table 9.8 says of a line in a direction. -/
inductive CalWay where
  | inPlace
  | onSpare (b : Beam)
  | waits

/-- How a due calibration runs (Table 9.8). A line in pass or express waits, a spare too. -/
def calWay (s : State) (p : Port) (n : Line) (d : Dir) : CalWay :=
  let rx := d == Dir.rx
  if n.val = 0 then .inPlace
  else match servedBeam s p n rx with
    | some b => .onSpare b
    | none =>
      if (if rx then passMask s p else expressMask s p).getLsbD n.val then .waits
      else if 33 ≤ n.val ∧ ((s.port[p]).sub[subIx rx (n.val - 33)]).isSome then .waits
      else .inPlace

/-- CALIBRATION_START. -/
def calStart (p : Port) (n : Line) (d : Dir) (s : State) : State :=
  let c := calOf ((s.port[p]).line[n]) d
  if c.dueSince.isNone ∨ c.running ∨ zoneSteady (s.port[p]) = false then s
  else match calWay s p n d with
    | .inPlace => onCal p n d (fun c => { c with running := true }) s
    | .waits => s
    | .onSpare b =>
      (needSpare p (d == Dir.rx) { beam := b, line := n, reason := 0, request := 0, phase := .requested } s).getD s

/-- CALIBRATION_START. -/
def execCalibrationStart (p : Port) (n : Line) (d : Dir) (s : State) : Host.Outcome State Fault Refusal := run (calStart p n d) s

/-- CALIBRATION_OVERDUE: due for 10 s without running; reported, and it keeps waiting (R286). -/
def calOverdue (p : Port) (n : Line) (d : Dir) (s : State) : State :=
  let c := calOf ((s.port[p]).line[n]) d
  match c.dueSince with
  | some t =>
    if c.running ∨ c.overdue ∨ s.time < t + 10000000 then s
    else logEvent clsReported blkPRT 0x0109 p.val (onCal p n d (fun c => { c with overdue := true }) s)
  | none => s

/-- CALIBRATION_OVERDUE. -/
def execCalibrationOverdue (p : Port) (n : Line) (d : Dir) (s : State) : Host.Outcome State Fault Refusal := run (calOverdue p n d) s

/-! ### What a calibration chooses (R288 to R290, Table 9.10) -/

/-- The first index of the largest entry. -/
def argMax (l : List Nat) : Nat := (indexed l).foldl (fun a e => if nth l a 0 < e.2 then e.1 else a) 0

/-- The median of five. -/
def median5 (v : Vector Int 5) : Int := nth (v.toList.mergeSort (fun a b => decide (a ≤ b))) 2 0

/-- The DAC segment set left out: the one whose OMA step lies farthest from the median of the five. -/
def pickDac (v : Vector Int 5) : Nat := argMax (v.toList.map fun x => (x - median5 v).natAbs)

/-- The sampler slice left out: the two with the smallest offsets stay. -/
def pickSlice (v : Vector Int 3) : Nat := argMax (v.toList.map fun x => x.natAbs)

/-- The capacitor bank whose swing lies closest to 60 % of the sampler range. -/
def pickBank (v : Vector Int 6) : Nat :=
  let l := v.toList.map fun x => (x - 600).natAbs
  (indexed l).foldl (fun a e => if e.2 < nth l a 0 then e.1 else a) 0

/-- A calibration corrects a ring: its model from the peak of the sweep, to the nearest 1/16 GHz, its integrator zeroed, its linewidth kept
(Table 9.9 steps 1 and 2). -/
def ringFix (r : Nat) (m : CalMeasure) (s : State) : State :=
  onRing r (fun z => { z with integ := 0, half := none, width := m.width }) (moveRow r ((m.peak + 32) / 64) s)

/-- The rings of a direction count from this temperature (R286). -/
def ringsCalibrated (p : Port) (n : Line) (d : Dir) (s : State) : State :=
  (ringsUsed p n d).foldl (fun t r => onRing r (fun z => { z with calTemp := (t.port[p]).zone }) t) s

/-- The settings that a calibration leaves on a line (Table 9.10). The step at which the threshold stands after its trim is free. -/
def calSettings (d : Dir) (m : CalMeasure) (n : Nat) (l : LineSt) : LineSt :=
  match d with
  | .tx => { l with driverOut := pickDac m.dacOma, rhoM := m.rhoM, calTx := {} }
  | .rx => { l with sliceOut := pickSlice m.sliceOffset, bank := pickBank m.bankSwing, trim := 0
                    threshold := sval 10 (Config.freeValue 10 n).toNat, calRx := {} }

/-- What a calibration leaves: the ring and the settings of the line. -/
def calApply (p : Port) (n : Line) (d : Dir) (m : CalMeasure) (s : State) : State :=
  let r := ringOf p (if d = .tx then ringModulator else ringDrop) n
  spend 1 (ringsCalibrated p n d (ringFix r m (onLine p n (calSettings d m s.fresh) s)))

/-- No traffic runs on the line: no lit beam uses it in the direction, or a spare carries its share; a spare stands in for no line (R289). -/
def lineQuiet (s : State) (p : Port) (n : Line) (rx : Bool) : Bool :=
  if 33 ≤ n.val then ((s.port[p]).sub[subIx rx (n.val - 33)]).isNone
  else n.val == 0 || (servedBeam s p n rx).isNone || (carried (s.port[p]) rx).getLsbD n.val

/-- A calibration of this end is over: the line that a spare stands in for returns, unless a fault of it has taken the substitution over (R296,
R305). -/
def calReturns (p : Port) (n : Line) (rx : Bool) (s : State) : State :=
  let i := subIx rx (spareOf n)
  match (s.port[p]).sub[i] with
  | some u => if u.line = n ∧ u.reason = 0 ∧ u.phase = .standing ∧ u.own then startReturn p i u s else s
  | none => s

/-- CALIBRATION_COMPLETE: choices made, ring relocked; traffic returns from a spare (R288, R296). A line that carries traffic takes no choice, and
a transmit calibration whose marker check fails none either: it stays due (R289; log entry 191). -/
def calDone (p : Port) (n : Line) (d : Dir) (m : CalMeasure) (s : State) : State :=
  if (calOf ((s.port[p]).line[n]) d).running = false then s
  else
    let good := lineQuiet s p n (d == Dir.rx) && (d == Dir.rx || m.marker)
    calReturns p n (d == Dir.rx) (if good then calApply p n d m s else onCal p n d (fun c => { c with running := false }) s)

/-- CALIBRATION_COMPLETE. -/
def execCalibrationComplete (p : Port) (n : Line) (d : Dir) (m : CalMeasure) (s : State) : Host.Outcome State Fault Refusal :=
  run (calDone p n d m) s

/-- SAMPLER_TRIM: the density of ones over 64,000 bits lies more than 0.006 from 0.5; the threshold of a terminated line in service moves one
step, at the next flit-frame boundary where the line carries flits, and at once where it carries IDLE (R291). -/
def samplerTrim (p : Port) (n : Line) (ones : Nat) (s : State) : State :=
  let d : Int := if 32384 < ones then 1 else if ones < 31616 then -1 else 0
  if n.val = 0 ∨ d = 0 ∨ portUp (s.port[p]) = false ∨ receiverOn s p n = false ∨ ((s.port[p]).line[n]).out.getLsbD 0 then s
  else if (litBeams s p).any fun b => (wordLines s b).getLsbD n.val then onLine p n (fun l => { l with trim := d }) s
  else onLine p n (fun l => { l with threshold := l.threshold + d }) s

/-- SAMPLER_TRIM. -/
def execSamplerTrim (p : Port) (n : Line) (ones : Nat) (s : State) : Host.Outcome State Fault Refusal := run (samplerTrim p n ones) s

/-! ### Glint (R300, R323, R490) -/

/-- The line whose light a ring has found, counted from L00: its peak in 1/16 GHz above L00 over 100 GHz, rounded (R300 step 4). -/
def lineCounted (peak : Int) : Int := (peak + 800) / 1600

/-- A ring takes the peaks of its sweeps: one that counts another line moves by the difference and sweeps again, one that counts its own corrects
its model by what is left (R300 steps 3 and 4). -/
def takePeaks (r : Nat) : List Int → State → State
  | [], s => s
  | x :: l, s =>
    let n := (ringLine r).val
    if lineCounted x = (n : Int) then moveRow r (x - 1600 * (n : Int)) s
    else takePeaks r l (moveRow r (1600 * ((n : Int) - lineCounted x)) s)

/-- One ring in the cold sweep: heater from the tables with its integrator zero, moved by its bus's comb offset, then to its line, then its
neighbour coefficients as found (R300 steps 1 to 5). -/
def sweepRing (p : Port) (w : GlintSweep) (k : Nat) (s : State) : State :=
  let r := 105 * p.val + k
  let s1 := moveRow r (if ringType r = ringDrop then w.comb.2 else w.comb.1) (relockRing r s)
  let s2 := if (ringLine r).val = 0 then s1 else takePeaks r (nth w.peaks k []) s1
  let h := haloRow s2 r
  let h1 : HaloRow := { h with nb := (indexed h.nb).map fun e => (e.2.1, sval 11 (sfield 11 (nth (nth w.nb k []) e.1 e.2.2))) }
  { s2 with ring := { s2.ring with halo := aput s2.ring.halo r h1 } }

/-- The cold calibration sweep of a port, at its first Glint after a reset (R300, R490). -/
def coldSweep (p : Port) (w : GlintSweep) (s : State) : State :=
  onPort p (fun q => { q with coldSwept := true, combOffset := w.comb }) ((List.range 105).foldl (fun t k => sweepRing p w k t) s)

/-- Every line of a port calibrates in place, both directions (R300 step 6, R490). -/
def glintCal (p : Port) (l : List (CalMeasure × CalMeasure)) (s : State) : State :=
  (fins 35).foldl (fun t n =>
    match l[n.val]? with
    | some m => calApply p n .rx m.2 (calApply p n .tx m.1 t)
    | none => t) s

/-- GLINT_CALIBRATION_DONE: the shutter check, then training step 1 (R323, R300, Table 8.10). -/
def glintDone (p : Port) (shutterOk : Bool) (f : GlintFound) (s : State) : State :=
  if (s.port[p]).state ≠ 1 then s
  else if shutterOk = false then
    logEvent clsReported blkPRT 0x010F p.val (onPort p (fun q => { portDarkSt 7 q with shutterFailed := true }) s)
  else
    let s1 := if (s.port[p]).coldSwept then s else coldSweep p f.sweep s
    trainPort p 1 (onPort p (fun q => { q with shutter := .opened, exchangeTuned := false }) (glintCal p f.cal s1))

/-- GLINT_CALIBRATION_DONE. -/
def execGlintCalibrationDone (p : Port) (shutterOk : Bool) (s : State) (found : GlintFound := {}) : Host.Outcome State Fault Refusal :=
  run (glintDone p shutterOk found) s

end Sys2Proof.Machine
end

