-- ==== Sys2Proof/Machine/Power.lean ====
section
/-!
DEFINITION. Power, droop and thermal control (chapter 14).
-/

namespace Sys2Proof.Machine

/-- Changes the power controller. -/
def onPwr (f : Pwr → Pwr) (s : State) : State := { s with pwr := f s.pwr }

/-! ### The operating point (R416 to R420) -/

/-- The policy target (R419). -/
def policyTarget (s : State) : Nat :=
  let p := powerRec s
  if p.hints && !s.pwr.hintsOff then (s.pwr.hints.map (·.1)).foldl max p.opMin else p.opMax

/-- The lowest current limit among the clusters. -/
def lowestLimit (l : Vector Nat 16) : Nat := l.toList.foldl min 230

/-- The aging ceiling (R420). -/
def agingCeiling (l : Vector Nat 16) : Nat :=
  let low := lowestLimit l
  if 215 ≤ low then 7 else ((List.range 7).filter fun o => decide (opFreq o ≤ low)).foldl max 0

/-- The operating point that R418 asks for: OP0 outside Lit (R493), when forced by the alert, by heat or for want of sensors, and
otherwise the lowest ceiling. -/
def opLimit (s : State) : Nat :=
  let p := s.pwr
  if s.dev.state ≠ .lit ∨ opForced p then 0
  else min (policyTarget s) (min (powerRec s).opMax (min p.opCeiling (min (agingCeiling p.limits)
    (min p.junctionCeiling (min p.zoneCeiling p.compute)))))

/-- The operating point that is brought about: that of R418, after a full commit by way of op_start (R82, log entry 45). -/
def opWanted (s : State) : Nat := min (opLimit s) (s.pwr.start.getD 7)

/-- The operating point has been at op_start since the commit, or R418 allows no more: the start is over. -/
def startEnds (s : State) : State :=
  if s.dev.state = .lit ∧ opForced s.pwr = false ∧ (s.pwr.start.any fun o => decide (o ≤ s.pwr.op) || decide (opLimit s ≤ o)) = true then
    onPwr (fun p => { p with start := none }) s
  else s

/-- Reasons of Table 14.6 as bits. -/
def reasonBits (s : State) : BitVec 11 :=
  let p := s.pwr
  BitVec.ofNat 11 (boolsNat [
    decide (p.compute < policyTarget s), decide (0 < p.memCap), decide (0 < p.dim), decide (p.junctionCeiling < 7), p.heatForced,
    p.alertPin || p.alertHold, p.droop != 0, decide (p.zoneCeiling < 7), decide (0 < max p.memHeat[0] p.memHeat[1]),
    decide (agingCeiling p.limits < (powerRec s).opMax), decide (p.opCeiling < policyTarget s)])

/-- One reason starts or ends (R431): its times, and the throttle event of a start. -/
def reasonStep (now : BitVec 11) (s : State) (c : Fin 11) : State :=
  let was := s.pwr.reasons.getLsbD c.val
  let is := now.getLsbD c.val
  if is && !was then
    logEvent clsReported blkPWR (0x0100 + c.val) c.val (setEv blkPWR 0 0
      (onPwr (fun p => { p with reasons := setBit p.reasons c.val, reasonLast := upd p.reasonLast c fun _ => s.time }) s))
  else if was && !is then
    onPwr (fun p => { p with
      reasons := clrBit p.reasons c.val
      reasonDur := upd p.reasonDur c (· + (s.time - p.reasonLast[c])) }) s
  else s

/-- The highest voltage that any cluster needs at its current frequency limit, in mV (R416). -/
def clustersMv (l : Vector Nat 16) : Nat := ((fins 16).map fun c => Config.clusterMillivolts c l[c]).foldl max 0

/-- The voltage of an operating point that the EK2 writes, in mV: the fused one, in OP7 what the clusters' limits need, never outside 0.60 V to
0.85 V (R416, R516). -/
def railMv (p : Pwr) (op : Nat) : Nat := max 600 (min 850 (if op = 7 then clustersMv p.limits else Config.opMillivolts (fin! 8 op)))

/-- The operating point whose voltage the core rail is set to: an awaited higher one, otherwise the one in force (R417). -/
def railOp (p : Pwr) : Nat := p.raise.getD p.op

/-- The droop has been clear for 1 µs, so that an increase may go on (R427). -/
def droopOver (p : Pwr) : Bool := p.droopQuiet && p.droop == 0

/-- An increase to `w` starts with its voltage, or a waiting one changes its aim. One that needs a higher voltage waits for the droop to be over
(R417, R427). -/
def raiseTo (w : Nat) (p : Pwr) : Pwr :=
  if p.raise = some w then p
  else if droopOver p || p.raise.any (fun r => decide (w < r)) then { p with raise := some w, railOk := false }
  else p

/-- Brings the operating point to what is wanted: a decrease at once and then its voltage, an increase by commanding the higher voltage first
(R417). -/
def opMove (s : State) : State :=
  let w := opWanted s
  onPwr (fun p => if w ≤ p.op then { p with op := w, raise := none, railOk := false } else raiseTo w p) s

/-- Each change of the rail's set point is one AVSBus write (R516). -/
def railWrite (was : Pwr) (s : State) : State :=
  if railMv s.pwr (railOp s.pwr) = railMv was (railOp was) then s else emit (.avs (railMv s.pwr (railOp s.pwr))) s

/-- How often PWR_STATUS.state_epoch increases between two states of the controller (Table 14.9). -/
def pwrChanges (a b : Pwr) : Nat :=
  b2n (a.op != b.op) + b2n (memLevel a != memLevel b) + b2n (a.dim != b.dim) + b2n (a.capUnattainable != b.capUnattainable)

/-- The PWR records that a change has logged carry the state epoch after it (R449): of the newest `n` records. -/
def restamp (n : Nat) (s : State) : State :=
  let f (r : LogRec) : LogRec := if r.block = BitVec.ofNat 8 blkPWR then { r with epoch := s.pwr.epoch } else r
  { s with err := { s.err with log := (s.err.log.take n).map f ++ s.err.log.drop n } }

/-- After any change: the operating point, the state epoch and the reasons follow. -/
def pwrSettle (f : State → State) (s : State) : State :=
  let s1 := railWrite s.pwr (opMove (startEnds (f s)))
  let s2 := restamp (s1.err.logCount - s.err.logCount).toNat
    (onPwr (fun p => { p with epoch := p.epoch + BitVec.ofNat 16 (pwrChanges s.pwr p) }) s1)
  (fins 11).foldl (reasonStep (reasonBits s2)) s2

/-- A waiting increase proceeds once the rail is up and the droop has been clear for 1 µs (R417, R427). -/
def raiseGo (s : State) : State :=
  match s.pwr.raise with
  | some w => if s.pwr.railOk && droopOver s.pwr then
      onPwr (fun p => { p with op := w, raise := none, railOk := false }) s else s
  | none => s

/-- RAIL_SETTLED: the core rail's own monitor reads a voltage; within 5 mV of the set point the branches move up. -/
def execRailSettled (mv : Nat) (s : State) : Host.Outcome State Fault Refusal :=
  run (pwrSettle fun s =>
    match s.pwr.raise with
    | some w =>
      let set := railMv s.pwr w
      if set ≤ mv + 5 ∧ mv ≤ set + 5 then raiseGo (onPwr (fun p => { p with railOk := true }) s) else s
    | none => s) s

/-! ### The power cap (R421 to R424) -/

/-- The resource can be shed by one more step (Table 14.3). At OP0 compute has none left, whichever ceiling holds it there (Table 14.7). -/
def canShed (s : State) (r : Nat) : Bool :=
  if r = 3 then decide (0 < min s.pwr.compute (policyTarget s)) && decide (0 < s.pwr.op)
  else if r = 2 then decide (s.pwr.memCap < 3)
  else if r = 1 then s.dev.state == .lit && decide (s.pwr.dim < (powerRec s).dim.length)
  else false

/-- Sheds one step of a resource. -/
def shedStep (s : State) (r : Nat) : State :=
  if r = 3 then onPwr (fun p => { p with compute := min p.compute (policyTarget s) - 1 }) s
  else if r = 2 then onPwr (fun p => { p with memCap := p.memCap + 1 }) s
  else dimApply (onPwr (fun p => { p with dim := p.dim + 1 }) s)

/-- The resource is shed, and can be restored; links have no step without a plan (R422). -/
def isShed (s : State) (r : Nat) : Bool :=
  if r = 3 then decide (s.pwr.compute < policyTarget s) else if r = 2 then decide (0 < s.pwr.memCap)
  else if r = 1 then s.dev.state == .lit && decide (0 < s.pwr.dim) else false

/-- Restores one step of a resource. -/
def restoreStep (s : State) (r : Nat) : State :=
  if r = 3 then onPwr (fun p => { p with compute := if p.compute + 1 < policyTarget s then p.compute + 1 else 7 }) s
  else if r = 2 then onPwr (fun p => { p with memCap := p.memCap - 1 }) s
  else dimApply (onPwr (fun p => { p with dim := p.dim - 1 }) s)

/-- The next resource to shed: the priority lists resources kept longest first, so its reverse (R422). -/
def nextShed (s : State) : Option Nat := (powerRec s).priority.reverse.find? (canShed s)

/-- The next resource to restore, in the reverse order of shedding (R422). -/
def nextRestore (s : State) : Option Nat := (powerRec s).priority.find? (isShed s)

/-- The effective cap in µW. -/
def capUw (s : State) : Nat := s.pwr.capEff.toNat * 1000000

/-- max(10 W, 2 % of cap), in µW (R422). -/
def capMargin (s : State) : Nat := max 10000000 (capUw s * 2 / 100)

/-- The modelled saving of unsettled steps; which of them have settled by a sample the manual leaves to the model (log entry 30). -/
def savingOf (s : State) : Nat :=
  if s.pwr.unsettled = 0 ∨ Config.freeChoice s.fresh then 0 else Config.unsettledSaving s.pwr.unsettled s.fresh

/-- Counts how long pred has been above the cap with everything shed, or at or below it, and sets or clears
cap_unattainable after 1 ms, 100 samples (R424). -/
def capWatch (above allShed : Bool) (s : State) : State :=
  let o := if above && allShed then s.pwr.overFor + 1 else 0
  let u := if above then 0 else s.pwr.underFor + 1
  let s1 := onPwr (fun p => { p with overFor := o, underFor := u }) s
  if 100 ≤ o ∧ s.pwr.capUnattainable = false then
    flag blkPWR 0 1 (onPwr (fun p => { p with capUnattainable := true }) s1)
  else if 100 ≤ u then onPwr (fun p => { p with capUnattainable := false }) s1
  else s1

/-- One run of the controller of R422 for the last sample. -/
def capStep (pUw : Nat) (s : State) : State :=
  let saving := savingOf s
  let pred := pUw - saving
  let s0 := { onPwr (fun p => { p with quiet := p.quiet + 1, unsettled := if saving = 0 then 0 else p.unsettled }) s with
    fresh := s.fresh + 1 }
  if capUw s < pred then
    match nextShed s with
    | some r => capWatch true false (onPwr (fun p => { p with quiet := 0, unsettled := p.unsettled + 1 }) (shedStep s0 r))
    | none => capWatch true true s0
  else
    let s1 := capWatch false false s0
    match nextRestore s1 with
    | some r =>
      if 10 ≤ s1.pwr.quiet ∧ s1.pwr.capUnattainable = false ∧ pUw + Config.restoreCost r s1.fresh + capMargin s1 ≤ capUw s1 then
        onPwr (fun p => { p with quiet := 0 }) (restoreStep { s1 with fresh := s1.fresh + 1 } r)
      else s1
    | none => s1

/-- The input power of a sample: the sum of voltage × current over the rails, in µW (R412). -/
def inputPower (rails : List RailSample) : Nat := (rails.map fun r => r.mv * r.ma).foldl (· + ·) 0

/-- POWER_SAMPLE: P, the energy, the tiles' activity, and one run of the controller. -/
def execPowerSample (rails : List RailSample) (counts : List Nat) (s : State) : Host.Outcome State Fault Refusal :=
  run (pwrSettle fun s =>
    let p := inputPower rails
    capStep p (tileSample counts (onPwr (fun q => { q with
      samples := (p :: q.samples).take 100, energy := q.energy + 10 * p }) s))) s

/-- The committed image's POWER record comes into force; Dim plans that it changes apply (R94, Tables 3.18, 14.7). D stays within its dim_count. -/
def policyTakes (s : State) : State :=
  let r := (s.img.image.map fun i : Image => i.power).getD {}
  let s1 := onPwr (fun p => { p with policy := r, dim := min p.dim r.dim.length }) s
  if s1.pwr.dim ≠ s.pwr.dim then dimApply s1
  else if r.dim = s.pwr.policy.dim then s1
  else (fins 64).foldl (fun t p => portDim p t) s1

/-- Once per ms the sum of the tiles' estimates is scaled to the measured P; that of the last sample is taken (R414, log entry 200). -/
def tilesRescale (s : State) : State :=
  onPwr (fun p => { p with tileScale := if p.tileRaw = 0 then p.tileScale else (p.samples.headD 0 : Rat) / p.tileRaw }) s

/-- CAP_PERIOD_START, the start of a 1 ms window: the committed POWER record is in force, the model rescales (R414), and the lowest of the three
sources takes effect (R421); a tie names the image before the host before the management cap. -/
def execCapPeriodStart (s : State) : Host.Outcome State Fault Refusal :=
  run (pwrSettle fun s =>
    let s := tilesRescale (policyTakes s)
    let i := (powerRec s).cap
    let h := s.pwr.capHost.toNat
    let m := s.mgt.capMgmt.toNat
    let e := min i (min h m)
    onPwr (fun p => { p with capEff := BitVec.ofNat 10 e, capSource := if i = e then 0 else if h = e then 1 else 2 }) s) s

/-! ### Regulator alert and droop (R425 to R427) -/

/-- VRALERT_ASSERT: a pulse of 20 ns or more forces OP0; an increase is abandoned (Table 14.7). -/
def execVralertAssert (ns : Nat) (s : State) : Host.Outcome State Fault Refusal :=
  run (pwrSettle fun s =>
    if ns < 20 ∨ s.pwr.alertPin then s
    else flag blkPWR 0 2 (onPwr (fun p => { p with alertPin := true, alertHold := false, raise := none, railOk := false }) s)) s

/-- VRALERT_RELEASE: OP0 is held for 100 µs more. -/
def execVralertRelease (s : State) : Host.Outcome State Fault Refusal :=
  run (pwrSettle fun s => if s.pwr.alertPin then onPwr (fun p => { p with alertPin := false, alertHold := true }) s else s) s

/-- VRALERT_HOLD_END: the 100 µs are over. -/
def execVralertHoldEnd (s : State) : Host.Outcome State Fault Refusal :=
  run (pwrSettle fun s => onPwr (fun p => { p with alertHold := false }) s) s

/-- DROOP_DETECT: the branch is stretched (R426). -/
def execDroopDetect (b : Fin 19) (s : State) : Host.Outcome State Fault Refusal :=
  run (pwrSettle fun s => onPwr (fun p => { p with droop := setBit p.droop b.val, droopQuiet := false }) s) s

/-- DROOP_CLEAR: the stretch of the branch ends. -/
def execDroopClear (b : Fin 19) (s : State) : Host.Outcome State Fault Refusal :=
  run (pwrSettle fun s => onPwr (fun p => { p with droop := clrBit p.droop b.val }) s) s

/-- DROOP_CLEAR_1US: the droop has been clear for 1 µs and a waiting increase proceeds (R427). -/
def execDroopClear1us (s : State) : Host.Outcome State Fault Refusal :=
  run (pwrSettle fun s => if s.pwr.droop = 0 then raiseGo (onPwr (fun p => { p with droopQuiet := true }) s) else s) s

/-! ### Thermal control (R428, R429) -/

/-- The working junction sensors' temperatures. -/
def working (j : Vector (Option Int) 64) : List Int := j.toList.filterMap id

/-- The junction temperature: the hottest working sensor (R15). DESIGN CHOICE (log entry 224): 0 °C when none works. -/
def hottest (j : Vector (Option Int) 64) : Int :=
  match working j with
  | [] => 0
  | t :: r => r.foldl max t

/-- The ring zones' temperatures, 0.05 °C, but for those whose sensor fails its self-check (R428). -/
def zones (s : State) : List Int := ((fins 64).filter fun p => sensorOk s (64 + p.val)).map fun p => (s.port[p]).zone

/-- A condition of the junction (Table 14.5) holds or not: its event comes when it starts to hold. -/
def thmCond (i : Nat) (holds : Bool) (s : State) : State :=
  let s1 := { s with thm := { s.thm with cond := putBit s.thm.cond i holds } }
  if holds && !s.thm.cond.getLsbD i then flag blkTHM 0 i s1 else s1

/-- The trip at 110 °C: Fatal, and Umbra (R429). Which sensor tripped no operand says. -/
def tripFatal (s : State) : State :=
  if s.dev.tripped then s
  else fatalEvent blkTHM 0x0101 (Config.freeValue 6 s.fresh).toNat
    { s with fresh := s.fresh + 1, dev := { s.dev with tripped := true } }

/-- New sensor values of the junction, and which sensors beyond it fail their self-check: a sensor that newly fails is reported (R428). -/
def takeSensors (temps8 : List (Option Int)) (failed : List Nat) (s : State) : State :=
  let new : Vector (Option Int) 64 := vmk 64 fun i => nth temps8 i.val none
  let s1 := { s with thm := { s.thm with junction := new, failed := failed.filter fun k => decide (64 ≤ k ∧ k < 150) } }
  let s2 := (fins 64).foldl (fun t i => if (s.thm.junction[i]).isSome && (new[i]).isNone then flag blkTHM i.val 7 t else t) s1
  ((List.range 150).filter fun k => sensorOk s k && !sensorOk s1 k).foldl (fun t k => flag blkTHM k 7 t) s2

/-- OP0 forced at 103 °C, released below 100 °C (Table 14.5). -/
def heatForce (t8 : Int) (s : State) : State :=
  if 103 * 8 ≤ t8 then
    (if s.pwr.heatForced then s else flag blkPWR 0 3 (onPwr (fun p => { p with heatForced := true }) s))
  else if t8 < 100 * 8 then onPwr (fun p => { p with heatForced := false }) s
  else s

/-- Fewer than 48 working sensors force OP0 until a reset (R428). -/
def sensorForce (s : State) : State :=
  if (working s.thm.junction).length < 48 ∧ s.pwr.sensorForced = false then
    logEvent clsReported blkTHM 0x0100 0 (onPwr (fun p => { p with sensorForced := true }) s)
  else s

/-- THERMAL_SAMPLE: junction sensors are sampled and the thresholds applied. -/
def execThermalSample (temps8 : List (Option Int)) (s : State) (failed : List Nat := []) : Host.Outcome State Fault Refusal :=
  run (pwrSettle fun s =>
    let s1 := takeSensors temps8 failed s
    let t8 := hottest s1.thm.junction
    let s2 := thmCond 2 (decide (103 * 8 ≤ t8)) (thmCond 1 (decide (98 * 8 ≤ t8))
      (thmCond 0 (decide (8 * (s.thm.warn.toNat : Int) ≤ t8)) s1))
    let s3 := sensorForce (heatForce t8 s2)
    if 110 * 8 ≤ t8 then tripFatal s3 else s3) s

/-- THERMAL_CEILING_STEP: a ceiling steps down while its sensor is at or above the threshold, and up while it is at or below
the release (Table 14.5). -/
def execThermalCeilingStep (w : CeilingStep) (s : State) : Host.Outcome State Fault Refusal :=
  run (pwrSettle fun s =>
    match w with
    | .junction =>
      let t8 := hottest s.thm.junction
      if 98 * 8 ≤ t8 then onPwr (fun p => { p with junctionCeiling := p.junctionCeiling - 1 }) s
      else if t8 ≤ 96 * 8 then onPwr (fun p => { p with junctionCeiling := min 7 (p.junctionCeiling + 1) }) s
      else s
    | .zone =>
      if (zones s).any fun z => decide (83 * 20 ≤ z) then onPwr (fun p => { p with zoneCeiling := p.zoneCeiling - 1 }) s
      else if (zones s).all fun z => decide (z ≤ 81 * 20) then onPwr (fun p => { p with zoneCeiling := min 7 (p.zoneCeiling + 1) }) s
      else s) s

/-- JUNCTION_TRIP. -/
def execJunctionTrip (s : State) : Host.Outcome State Fault Refusal := run (pwrSettle tripFatal) s

/-- Memory steps that a stack's temperature asks for, with 3 °C of hysteresis (Table 14.5). -/
def heatLevel (was : Nat) (t8 : Int) : Nat :=
  if 100 * 8 ≤ t8 then 3 else if was = 3 ∧ 97 * 8 ≤ t8 then 3
  else if 95 * 8 ≤ t8 then 2 else if 2 ≤ was ∧ 92 * 8 ≤ t8 then 2 else 0

/-- HBM_STACK_POLL: a stack's temperature, unless its sensor fails its self-check, and the corrections of its on-die ECC (R399, R428, Table
13.4). -/
def execHbmStackPoll (h : Stack) (temp8 : Int) (onDie : Nat) (s : State) : Host.Outcome State Fault Refusal :=
  run (pwrSettle fun s =>
    let t8 := if sensorOk s (148 + h.val) then temp8 else (s.hbm.stack[h]).temp
    let s1 := hbmCount h 7 onDie (onStack h (fun q => { q with temp := t8 }) s)
    let s2 := (List.range onDie).foldl (fun t _ => logEvent clsCorrected blkHBM 0x0100 h.val t) s1
    let s3 := onPwr (fun p => { p with memHeat := upd p.memHeat h fun w => heatLevel w t8 }) s2
    if 95 * 8 ≤ t8 ∧ s.pwr.memHeat[h] < 2 then flag blkTHM h.val 6 s3 else s3) s

/-! ### Aging (R420) -/

/-- The cluster limits: the lowest that the aging log holds, or the fused maximum; none is ever raised (R420, Table 17.5). -/
def loggedLimits (s : State) : Vector Nat 16 :=
  vmk 16 fun c => (s.mgt.aging.filterMap fun r => match r with
    | .cluster k l => if k = c.val then some l else none
    | .comb _ _ _ _ _ _ => none).foldl min (Config.clusterMax c).val

/-- A record enters the circular aging log: its area holds a bounded number, the newest stay (R439, Table 15.1, log entry
228). -/
def intoAging (r : AgingRec) (l : List AgingRec) : List AgingRec := (r :: l).take (Config.agingRoom.val + 1)

/-- One cluster's check: a limit lowered by 20 MHz down to 1.20 GHz and recorded, or an end-of-life alarm. -/
def agingCluster (s : State) (c : Fin 16) : State :=
  let l := min s.pwr.limits[c] (loggedLimits s)[c]
  if 120 < l then
    let l1 := max 120 (l - 2)
    flag blkPWR c.val 4 { onPwr (fun p => { p with limits := upd p.limits c fun _ => l1 }) s with
      mgt := { s.mgt with aging := intoAging (.cluster c.val l1) s.mgt.aging } }
  else logEvent clsReported blkPWR 0x0110 c.val s

/-- CLUSTER_AGING_CHECK: slack of each cluster in 1/1,000; below 3 % its limit falls. A fallen aging ceiling raises an alarm of
its own. -/
def execClusterAgingCheck (slackPermille : List Nat) (s : State) : Host.Outcome State Fault Refusal :=
  run (pwrSettle fun s =>
    let s1 := (fins 16).foldl (fun t c => if nth slackPermille c.val 1000 < 30 then agingCluster t c else t) s
    if agingCeiling s1.pwr.limits < agingCeiling s.pwr.limits then flag blkPWR 0 4 s1 else s1) s

/-! ### Register writes -/

/-- PWR_CTRL: op_ceiling and hints_off, or ignored as stale (R433). -/
def pwrCtrl (v : Word) (s : State) : State :=
  if fld v 31 16 ≠ s.pwr.epoch.toNat then flag blkPWR 0 5 s
  else onPwr (fun p => { p with hintsOff := bit v 3, opCeiling := fld v 2 0, epoch := p.epoch + 1 }) s

/-- PWR_CTRL_WRITE. -/
def execPwrCtrlWrite (v : Word) (s : State) : Host.Outcome State Fault Refusal := regRow 0x50000 v (pwrSettle (pwrCtrl v)) s

/-- A cap of 300 to 850 W; other values leave the field (Table 14.10). -/
def capField (old : BitVec 10) (v : Word) : BitVec 10 :=
  if 300 ≤ fld v 9 0 ∧ fld v 9 0 ≤ 850 then BitVec.ofNat 10 (fld v 9 0) else old

/-- PWR_CAP_HOST_WRITE. -/
def execPwrCapHostWrite (v : Word) (s : State) : Host.Outcome State Fault Refusal :=
  regRow 0x50008 v (onPwr fun p => { p with capHost := capField p.capHost v }) s

/-- THM_WARN: 60 to 97 °C; other values leave the field (Table 14.14). -/
def thmWarn (v : Word) (s : State) : State :=
  if 60 ≤ fld v 7 0 ∧ fld v 7 0 ≤ 97 then { s with thm := { s.thm with warn := BitVec.ofNat 8 (fld v 7 0) } } else s

/-- THM_WARN_WRITE. -/
def execThmWarnWrite (v : Word) (s : State) : Host.Outcome State Fault Refusal := regRow 0x6000C v (thmWarn v) s

/-- A ring-zone temperature of 0.05 °C units in units of 0.125 °C; which way it rounds is not stated (log entry 31). -/
def zone8 (z : Int) (n : Nat) : Int := 2 * z / 5 + (if 2 * z % 5 ≠ 0 ∧ Config.freeChoice n then 1 else 0)

/-- The 150 sensors as THM_SENS_SEL numbers them (Table 14.14). -/
def sensorList (s : State) : List (Bool × Int) :=
  (s.thm.junction.toList.map fun t => (t.isSome, t.getD 0)) ++
  (indexed ((s.port.toList.map fun q => zone8 q.zone s.fresh) ++
    (s.comb.group.toList.flatMap fun g => g.die.toList.map fun d => d.temp8) ++
    (s.hbm.stack.toList.map fun h => h.temp))).map fun e => (sensorOk s (64 + e.1), e.2)

/-- What the code of the management stores met since the last snapshot: a nibble corrected in ROM, SRAM or log, or an uncorrectable error in
management SRAM, Fatal while the firmware runs (R435, Table 15.7). -/
def mgtCode (c : CodeResult) (s : State) : State :=
  match c with
  | .clean => s
  | .corrected => logEvent clsCorrected blkMGT 0x0103 0 s
  | .uncorrectable => if s.mgt.fwState = fwRunning then fatalEvent blkMGT 0x0102 0 s else s
  | .missed corrects =>
    let s1 := if corrects then logEvent clsCorrected blkMGT 0x0103 0 s else s
    let k := (Config.freeValue 10 s1.fresh).toNat
    { s1 with err := { s1.err with log := lupd s1.err.log k fun r => (Config.logAfter s1.fresh).getD r }, fresh := s1.fresh + 1 }

/-- The hub publishes its snapshot of the sensors and of the rail monitors (R437, Table 14.10). -/
def snapshot (s : State) : State :=
  let z := zones s
  { s with
    fresh := s.fresh + 1
    pwr := { s.pwr with shown := (avgPower s.pwr.samples, s.pwr.samples.headD 0) }
    thm := { s.thm with
      snap := sensorList s
      hot := (hottest s.thm.junction, zone8 (z.foldl max (z.headD 0)) s.fresh) } }

/-- SENSOR_SNAPSHOT: every 1 ms the hub publishes its snapshot to THM_ and PWR_ (R437); a code error of the management stores is reported with it. -/
def execSensorSnapshot (s : State) (stores : CodeResult := .clean) : Host.Outcome State Fault Refusal :=
  run (fun s => mgtCode stores (snapshot s)) s

end Sys2Proof.Machine
end

