-- ==== Sys2Proof/Machine/Comb.lean ====
section
/-!
DEFINITION. Comb sources, eye safety and probes (chapter 10), and the clock monitors of R41.
-/

namespace Sys2Proof.Machine

/-! ### Dies, groups and their ports -/

/-- Changes one comb group. -/
def onGroup (g : CombGroup) (f : CGroup → CGroup) (s : State) : State := { s with comb := { s.comb with group := upd s.comb.group g f } }

/-- Changes one comb die. -/
def onDie (g : CombGroup) (d : CombDie) (f : Die → Die) (s : State) : State := onGroup g (fun q => { q with die := upd q.die d f }) s

/-- The comb group of a port (R26). -/
def portGroup (p : Port) : CombGroup := fin! 4 (p.val / 16)

/-- The position within its group that feeds a port (R26). -/
def portPos (p : Port) : Fin 4 := fin! 4 (p.val / 4 % 4)

/-- The four ports that a position of a group feeds (R26). -/
def posPorts (g : CombGroup) (k : Fin 4) : List Port := (List.range 4).map fun j => fin! 64 (16 * g.val + 4 * k.val + j)

/-- The die that feeds a position: D4 in the place it has taken, else the position's own die. -/
def fedBy (q : CGroup) (k : Fin 4) : CombDie := if q.spareAt = some k then 4 else ⟨k.val, by omega⟩

/-- A die emits its lines on the grid. -/
def dieLit (d : Die) : Bool := d.state == .active && d.gridHeld && decide (0 < d.current)

/-- A port has comb light: its group has locked and its die is lit (R490, R316). -/
def combLit (s : State) (p : Port) : Bool :=
  let q := s.comb.group[portGroup p]
  q.locked && dieLit (q.die[fedBy q (portPos p)])

/-- The instance of a comb die in a log record (R529). -/
def combInst (g : CombGroup) (d : Nat) : Nat := 0x0100 + 5 * g.val + d

/-- The position that a die serves as an active die. -/
def diePos (q : CGroup) (d : CombDie) : Option (Fin 4) :=
  if h : d.val < 4 then (if q.spareAt = some ⟨d.val, h⟩ then none else some ⟨d.val, h⟩) else q.spareAt

/-- The gain current that a die last logged, else its factory value (R312). -/
def loggedGain (s : State) (g : CombGroup) (d : CombDie) : Nat :=
  ((s.mgt.aging.findSome? fun r => match r with
    | .comb a b c _ _ _ => if a = g.val ∧ b = d.val then some c else none
    | .cluster _ _ => none).getD (Config.factoryGain g d))

/-- The hours in service that a die last logged (R312). -/
def loggedHours (s : State) (g : CombGroup) (d : CombDie) : Nat :=
  ((s.mgt.aging.findSome? fun r => match r with
    | .comb a b _ _ _ h => if a = g.val ∧ b = d.val then some h else none
    | .cluster _ _ => none).getD 0)

/-- A position has lost its comb light until a reset (R316). -/
def posLost (s : State) (g : CombGroup) (k : Fin 4) : Bool := (s.port[fin! 64 (16 * g.val + 4 * k.val)]).noComb

/-- A group locks once every position that can have light holds the grid (R489). -/
def groupCheck (g : CombGroup) (s : State) : State :=
  let q := s.comb.group[g]
  if q.started.isSome && (fins 4).all (fun k => posLost s g k || dieLit (q.die[fedBy q k])) then onGroup g (fun q => { q with locked := true }) s
  else s

/-! ### The loops of a die (R309 to R311) -/

/-- One run of the grid loop moves L00 towards its nominal frequency, by at most 0.1 GHz per ms, which is 10 MHz in the 100 µs between runs; how
far within that the spec leaves open: it is free (R309; log entry 193). -/
def gridMove (n : Nat) (off : Int) : Int :=
  let k : Int := ((Config.freeValue 16 n).toNat % (min 10 off.natAbs + 1) : Nat)
  if 0 < off then -k else k

/-- What the grid loop sets: a die temperature between 45 and 65 °C, and the bias of the saturable absorber. How it divides a move between the
two the spec leaves open: both values are free (R309; log entry 193). -/
def gridSet (n : Nat) (off : Int) (y : Die) : Die :=
  { y with set8 := 360 + (Config.freeValue 8 n).toNat % 161, absorber := Config.freeValue 16 (n + 1), movedMhz := gridMove (n + 2) off }

/-- A comb die's temperature as its sensor gives it; while the sensor fails its self-check its reading is not taken, and the last stands (R428, log
entry 225). -/
def dieTemp (s : State) (g : CombGroup) (d : CombDie) (temp8 : Int) : Int :=
  if sensorOk s (128 + 5 * g.val + d.val) then temp8 else ((s.comb.group[g]).die[d]).temp8

/-- GRID_LOOP: the die's temperature and the offset of its L00 as measured; it holds the grid within ±1.0 GHz (R306, R309). A
spare in standby lases below threshold at 45 °C, which the loop leaves alone (Table 10.1). -/
def gridLoop (g : CombGroup) (d : CombDie) (off temp8 : Int) (s : State) : State :=
  let lit := decide (0 < ((s.comb.group[g]).die[d]).current) && ((s.comb.group[g]).die[d]).state != .standby
  let held := lit && decide (off.natAbs ≤ 1000)
  let home := decide (d.val < 4) || (s.comb.group[g]).spareAt.isSome
  let s1 := onDie g d (fun y => { (if lit then gridSet s.fresh off y else y) with
    temp8 := temp8, offsetMhz := off, gridHeld := held
    state := if held && y.state == .warming && home then .active else y.state }) s
  groupCheck g (spend 3 s1)

/-- GRID_LOOP. -/
def execGridLoop (g : CombGroup) (d : CombDie) (off temp8 : Int) (s : State) : Host.Outcome State Fault Refusal := run (fun s => gridLoop g d off (dieTemp s g d temp8) s) s

/-- The median of a list of estimates, the lower of the two middle ones for an even number. -/
def medianOf (l : List Int) : Option Int := (l.mergeSort fun a b => decide (a ≤ b))[(l.length - 1) / 2]?

/-- Loss of the span to a port's direct partner in 0.0001 dB: the endpoint penalty, 0.50 dB a connector and 0.05 dB per 100 m (Table 10.3). -/
def spanLoss (s : State) (p : Port) : Int := 14500 + 5000 * ((portRec s p).connectors : Int) + 5 * ((portRec s p).fibre : Int)

/-- How far the estimates of a port's lines lie from what their far end returns, in 0.0001 dB: for each line whose markers come from the direct
partner and state a received power, the estimate less the loss of the span less that power (R310, R231). -/
def farErrors (s : State) (p : Port) (est : List (Port × Line × Int)) : List Int :=
  est.filterMap fun e =>
    let l := (s.port[p]).line[e.2.1]
    if e.1 = p ∧ l.farPower ≠ 0x8000 ∧ l.farPlace.map (·.setWidth 32) = some (portRec s p).place then
      some (100 * e.2.2 - spanLoss s p - 100 * sval 16 l.farPower.toNat)
    else none

/-- One port's cross-check: its estimates disagree with the far end's powers by more than 1.0 dB, in the median of its lines (R310; DEDUCED, log
entry 194). Sustained for 1 s, it is reported and the port is excluded from the median. -/
def crossCheck (est : List (Port × Line × Int)) (s : State) (p : Port) : State :=
  if ((medianOf (farErrors s p est)).map fun x => decide (10000 < x.natAbs)).getD false then
    match aget s.comb.disagree p with
    | none => { s with comb := { s.comb with disagree := aput s.comb.disagree p s.time } }
    | some t =>
      if t + 1000000 ≤ s.time ∧ s.comb.excluded.getLsbD p.val = false then
        logEvent clsReported blkPRT 0x010D p.val { s with comb := { s.comb with excluded := setBit s.comb.excluded p.val } }
      else s
  else { s with comb := { s.comb with disagree := adel s.comb.disagree p, excluded := clrBit s.comb.excluded p.val } }

/-- Reports conditions of a die that have become true: current at warning, at the limit, a launch below -1.0 dBm (Table 10.8). Launch is that of
one data line (R317), so the report asks for the lowest (R311; DEDUCED, log entry 215). -/
def dieReport (g : CombGroup) (d : CombDie) (launches : List Int) (s : State) : State :=
  let y := (s.comb.group[g]).die[d]
  let now : BitVec 3 := BitVec.ofNat 3 (boolsNat [decide (1500000 ≤ y.current), decide (1600000 ≤ y.current), launches.any fun x => decide (x < -100)])
  let s1 := onDie g d (fun y => { y with reported := now }) s
  let news := now &&& ~~~ y.reported
  let one (i code : Nat) (t : State) : State := if news.getLsbD i then logEvent clsReported blkPRT code (combInst g d.val) t else t
  one 2 0x010C (one 1 0x0114 (one 0 0x0113 s1))

/-- The new gain current of the bias loop: at most 0.5 mA towards the target of -0.5 dBm, never raised above 1.60 A nor at 68 °C or above;
how far within that the manual leaves open (R310). -/
def biasStep (n : Nat) (launch temp8 : Int) (cur : Nat) : Nat :=
  let move := (Config.freeValue 16 n).toNat % 501
  if launch < -50 then (if 544 ≤ temp8 ∨ 1600000 ≤ cur then cur else min 1600000 (cur + move))
  else if -50 < launch then cur - move
  else cur

/-- BIAS_LOOP: one run of the bias loop of an active die, with the launch estimates of its lines in 0.01 dBm (R310). -/
def biasLoop (g : CombGroup) (d : CombDie) (est : List (Port × Line × Int)) (temp8 : Int) (s : State) : State :=
  let q := s.comb.group[g]
  match diePos q d with
  | none => s
  | some k =>
    if (q.die[d]).state ≠ .active then s
    else
      let s1 := (posPorts g k).foldl (crossCheck est) s
      let use := est.filter fun e => decide (e.1 ∈ posPorts g k) && !s1.comb.excluded.getLsbD e.1.val
      match medianOf (use.map (·.2.2)) with
      | none => onDie g d (fun y => { y with temp8 := temp8 }) s1
      | some m =>
        dieReport g d (use.map (·.2.2)) { onDie g d (fun y => { y with temp8 := temp8, launch := m, current := biasStep s1.fresh m temp8 y.current }) s1 with
          fresh := s1.fresh + 1 }

/-- BIAS_LOOP. -/
def execBiasLoop (g : CombGroup) (d : CombDie) (est : List (Port × Line × Int)) (temp8 : Int) (s : State) : Host.Outcome State Fault Refusal :=
  run (fun s => biasLoop g d est (dieTemp s g d temp8) s) s

/-- COMB_THERMAL_REDUCTION: from 70 °C on the current falls by 2 % every 10 ms until the die is below 69 °C (R311). -/
def thermalReduction (g : CombGroup) (d : CombDie) (temp8 : Int) (s : State) : State :=
  let y := (s.comb.group[g]).die[d]
  let s1 := onDie g d (fun y => { y with temp8 := temp8 }) s
  if y.current = 0 then s1
  else if 560 ≤ temp8 ∨ (y.reducing = true ∧ 552 ≤ temp8) then
    let s2 := onDie g d (fun y => { y with reducing := true, current := y.current * 98 / 100 }) s1
    if y.reducing then s2 else logEvent clsReported blkPRT 0x0115 (combInst g d.val) s2
  else onDie g d (fun y => { y with reducing := false }) s1

/-- COMB_THERMAL_REDUCTION. -/
def execCombThermalReduction (g : CombGroup) (d : CombDie) (temp8 : Int) (s : State) : Host.Outcome State Fault Refusal :=
  run (fun s => thermalReduction g d (dieTemp s g d temp8) s) s

/-- A flash operation failed: flash_fail and the failure count, without a log record of its own. -/
def flashFailed (s : State) : State :=
  setEv blkMGT 0 3 { s with mgt := { s.mgt with
    flashFailures := if s.mgt.flashFailures = 0xFF then 0xFF else s.mgt.flashFailures + 1 } }

/-- The active dies of every group. -/
def activeDies (s : State) : List (CombGroup × CombDie) :=
  (fins 4).flatMap fun g => ((fins 5).filter fun d => ((s.comb.group[g]).die[d]).state == .active).map fun d => (g, d)

/-- One record of the aging log for a die, with one more hour in service (R312). -/
def agingRecord (s : State) (e : CombGroup × CombDie) : State :=
  let s1 := onDie e.1 e.2 (fun y => { y with hours := y.hours + 1 }) s
  let y := (s1.comb.group[e.1]).die[e.2]
  { s1 with mgt := { s1.mgt with aging := intoAging (.comb e.1.val e.2.val y.current y.launch y.temp8 y.hours) s1.mgt.aging } }

/-- AGING_LOG_WRITE: one record per active die every hour; a failure is reported and the loops go on (R312). -/
def agingWrite (ok : Bool) (s : State) : State :=
  if ok && s.mgt.flashFitted then (activeDies s).foldl agingRecord s
  else logEvent clsReported blkPRT 0x0116 0
    (flashFailed ((activeDies s).foldl (fun t e => onDie e.1 e.2 (fun y => { y with hours := y.hours + 1 }) t) s))

/-- AGING_LOG_WRITE. -/
def execAgingLogWrite (ok : Bool) (s : State) : Host.Outcome State Fault Refusal := run (agingWrite ok) s

/-! ### Darkening ports (R323, R324) -/

/-- A port goes Dark for an event that has its own log record: the dark bit is set, its lit beams are broken. A port that is Dark already closes
its shutter on the probe that runs (R314 step 1). -/
def darkFor (reason : Nat) (s : State) (p : Port) : State :=
  let q := s.port[p]
  if q.state = 0 then onPort p (fun q => { q with probing := false, probeLight := false, probes := 0, shutter := .closed }) s
  else
    let bs := litBeams s p
    let s1 := onPort p (portDarkSt reason) (endEchoFibre p (endSubs p s))
    let s2 := if 2 ≤ q.state.toNat then setEv blkPRT p.val 1 s1 else s1
    bs.foldl (fun t b => breakBeam b t) s2

/-- OPEN_FIBRE: the port's light goes out; Contained on the beams lit on it (R324, R328). -/
def openFibre (p : Port) (s : State) : State :=
  if (s.port[p]).state = 0 then s
  else logEvent clsContained blkPRT 0x010E p.val (darkFor 4 s p)

/-! ### Failures of a die (R313 to R316) -/

/-- The ports of a position have no comb light until a reset (R316). -/
def posExhausted (g : CombGroup) (k : Fin 4) (s : State) : State :=
  (posPorts g k).foldl (fun t p => onPort p (fun q => { q with noComb := true, reason := 8 }) t)
    (onGroup g (fun q => { q with exhausted := true }) s)

/-- D4 can take the place of a position now, or is being brought up for the planned swap of that very die. -/
def spareFree (q : CGroup) (k : Fin 4) : Bool :=
  (q.spareAt == none) && ((q.task == none && (q.die[4]).state == .standby) || q.task == some (.planned k))

/-- An active die of a group has failed (R314, R316): its current is 0, its ports go Dark, D4 begins to replace it or the group is
exhausted. Contained. -/
def dieFails (g : CombGroup) (d : CombDie) (s : State) : State :=
  let q := s.comb.group[g]
  match diePos q d with
  | none => s
  | some k =>
    if (q.die[d]).state ≠ .active ∧ (q.die[d]).state ≠ .warming then s
    else
      let s1 := (posPorts g k).foldl (darkFor 4) (onDie g d (fun y => { y with state := .failed, current := 0, gridHeld := false, reducing := false }) s)
      if spareFree q k then logEvent clsContained blkPRT 0x0110 (combInst g d.val) (onGroup g (fun q => { q with task := some (.replace k) }) s1)
      else groupCheck g (logEvent clsContained blkPRT 0x0111 (combInst g d.val) (posExhausted g k s1))

/-- The second criterion of R313: the gain current at the limit, and the median launch below −1.0 dBm OMA. -/
def dieSpent (y : Die) : Bool := y.state == .active && decide (1600000 ≤ y.current) && decide (y.launch < -100)

/-- SPARE_GAIN_RAMP: D4's gain current rises to the failed die's last logged value (R314 step 2). -/
def spareRamp (g : CombGroup) (s : State) : State :=
  match (s.comb.group[g]).task with
  | some (.replace k) => onDie g 4 (fun y => { y with state := .warming, current := loggedGain s g ⟨k.val, by omega⟩ }) s
  | _ => s

/-- SPARE_GAIN_RAMP. -/
def execSpareGainRamp (g : CombGroup) (s : State) : Host.Outcome State Fault Refusal := run (spareRamp g) s

/-- SPARE_COMB_LOCKED: D4 holds the grid and moves into the failed die's position (R314 steps 3 and 4). -/
def spareLocked (g : CombGroup) (s : State) : State :=
  let q := s.comb.group[g]
  match q.task with
  | some (.replace k) =>
    if (q.die[4]).state ≠ .warming then s
    else groupCheck g (onGroup g (fun q => { q with task := none, spareAt := some k })
      (onDie g 4 (fun y => { y with state := .active, gridHeld := true }) s))
  | _ => s

/-- SPARE_COMB_LOCKED. -/
def execSpareCombLocked (g : CombGroup) (s : State) : Host.Outcome State Fault Refusal := run (spareLocked g) s

/-- A planned swap starts: D4 is brought to lasing with its output on the absorber (R315 step 1). -/
def swapStart (g : CombGroup) (k : Fin 4) (s : State) : State :=
  onDie g 4 (fun y => { y with state := .warming, current := loggedGain s g ⟨k.val, by omega⟩ }) (onGroup g (fun q => { q with task := some (.planned k) }) s)

/-- A port whose light a planned swap interrupts retrains from step 1 (R315 step 3). -/
def swapPort (s : State) (p : Port) : State :=
  if portUp (s.port[p]) then trainPort p 1 (onPort p (fun q => { q with counters := upd q.counters 1 (· + 1) }) s)
  else if (s.port[p]).state = 2 then trainPort p 1 s
  else s

/-- A planned swap completes: both switches move, the old die is never used again, its ports retrain (R315). Recoverable. -/
def swapFinish (g : CombGroup) (k : Fin 4) (s : State) : State :=
  let s1 := onGroup g (fun q => { q with task := none, spareAt := some k })
    (onDie g 4 (fun y => { y with state := .active, gridHeld := true })
      (onDie g ⟨k.val, by omega⟩ (fun y => { y with state := .swappedOut, current := 0, gridHeld := false, reducing := false })
        { s with mgt := { s.mgt with swappedOut := s.mgt.swappedOut ||| BitVec.ofNat 16 (2 ^ (4 * g.val + k.val)) } }))
  logEvent clsRecoverable blkPRT 0x0112 (combInst g k.val) ((posPorts g k).foldl swapPort s1)

/-! ### Probes (R326) -/

/-- A port may probe: Dark, not held, not unconnected by the image, with a working shutter and comb light, outside Umbra. -/
def mayProbe (s : State) (p : Port) : Bool :=
  let q := s.port[p]
  q.state == 0 && !q.hold && !q.shutterFailed && !q.noComb && combLit s p && s.dev.state != .umbra &&
    (s.img.image.isNone || (portRec s p).place != 0xFFFFFFFF)

/-- PROBE_START: L00 alone, with the shutter at its probe setting. -/
def probeBegin (p : Port) (s : State) : State :=
  if mayProbe s p && !(s.port[p]).probing then emit (.probe p) (ringsPlace p <| onPort p (fun q => { q with probing := true, probeLight := false, shutter := .probe }) s)
  else s

/-- PROBE_START. -/
def execProbeStart (p : Port) (s : State) : Host.Outcome State Fault Refusal := run (probeBegin p) s

/-- The port enters Glint. -/
def glintEnter (p : Port) (s : State) : State :=
  onPort p (fun q => { q with state := 1, step := 0, epoch := q.epoch + 1, probing := false, probeLight := false, probes := 0, shutter := .opened }) s

/-- PROBE_LIGHT_RECEIVED: answered by a probe of its own; 1 ms of light in each of two consecutive own probes opens Glint. -/
def probeLight (p : Port) (us : Nat) (s : State) : State :=
  let q := s.port[p]
  if mayProbe s p = false then s
  else if q.probing = false then probeBegin p s
  else if us < 1000 ∨ q.probeLight then s
  else if 1 ≤ q.probes then glintEnter p s
  else onPort p (fun q => { q with probeLight := true }) s

/-- PROBE_LIGHT_RECEIVED. -/
def execProbeLightReceived (p : Port) (us : Nat) (s : State) : Host.Outcome State Fault Refusal := run (probeLight p us) s

/-- PROBE_END: L00 goes dark; a probe without light ends the row of lit ones. -/
def probeFinish (p : Port) (s : State) : State :=
  if (s.port[p]).state = 0 ∧ (s.port[p]).probing then
    ringsPlace p (onPort p (fun q => { q with
      probing := false, probeLight := false, shutter := .closed, probes := if q.probeLight then q.probes + 1 else 0 }) s)
  else s

/-- PROBE_END. -/
def execProbeEnd (p : Port) (s : State) : Host.Outcome State Fault Refusal := run (probeFinish p) s

/-! ### Clocks and received power -/

/-- QCLK_LOSS: every comb gain current goes to 0; Fatal (R323, R328). -/
def execQclkLoss (s : State) : Host.Outcome State Fault Refusal := run (fatalEvent blkPRT 0x0117 0) s

/-- RX_POWER_WARNING: the power of a line over the last second, in 0.01 dBm; a terminated one warns (R319). -/
def rxPower (p : Port) (n : Line) (cdbm : Int) (s : State) : State :=
  if portUp (s.port[p]) = false ∨ (passMask s p).getLsbD n.val then s
  else
    let was := ((s.port[p]).line[n]).lowReported
    let on := receiverOn s p n
    let now : BitVec 2 := BitVec.ofNat 2 (boolsNat [on && decide (cdbm < -850), on && decide (cdbm < -950)])
    let s1 := onLine p n (fun l => { l with rxPower := some cdbm, lowReported := now }) s
    let s2 := if now.getLsbD 0 && !was.getLsbD 0 then logEvent clsReported blkPRT 0x010A p.val s1 else s1
    if now.getLsbD 1 && !was.getLsbD 1 then logEvent clsReported blkPRT 0x010B p.val s2 else s2

/-- RX_POWER_WARNING. -/
def execRxPowerWarning (p : Port) (n : Line) (cdbm : Int) (s : State) : Host.Outcome State Fault Refusal := run (rxPower p n cdbm) s

/-- CLOCK_LOSS_DETECTED: a site whose clock is lost is contained, a line whose clock is lost is lost (R41, Tables 11.6, 12.10). -/
def clockLost (c : ClockLoss) (s : State) : State :=
  match c with
  | .site x => if (s.site[x]).state = 3 ∨ (s.site[x]).state = 4 then containSite x 4 0x0104 s else s
  | .line p n => lineLost p n s

end Sys2Proof.Machine
end

