-- ==== Sys2Proof/Machine/Mgmt.lean ====
section
/-!
DEFINITION. The management complex and security (chapter 15): boot, management reset, firmware update, confirmation, attestation, fatal
records and the I3C target.
-/

namespace Sys2Proof.Machine

/-- Changes the management complex. -/
def onMgt (f : Mgt → Mgt) (s : State) : State := { s with mgt := f s.mgt }

/-! ### Firmware packages (R441, R442) -/

/-- The longest package, and the size of a slot (R442, Table 15.1). -/
def slotSize : Nat := 2 ^ 24

/-- The signature block's length (Table 3.12). -/
def sigLen : Nat := 16408

/-- First flash byte of a slot (Table 15.1). -/
def slotBase (k : Fin 2) : Nat := k.val * slotSize

/-- security_version of a package header (Table 15.2). -/
def pkgSvn (b : List Byte) : Nat := numAt b 0x008 1

/-- package_size of a package header. -/
def pkgSize (b : List Byte) : Nat := numAt b 0x010 8

/-- The package that a slot of the flash holds, as long as its header says. -/
def pkgBytes (s : State) (k : Fin 2) : List Byte :=
  s.mgt.flash.readN (slotBase k) (min slotSize (max 256 (pkgSize (s.mgt.flash.readN (slotBase k) 256))))

/-- The header is well formed (Table 15.2), its parts in the order of R442. -/
def pkgHeadOk (b : List Byte) : Bool :=
  let code := numAt b 0x018 4
  let key := numAt b 0x020 4
  numAt b 0 4 == 0x57464B45 && numAt b 4 2 == 256 && numAt b 6 2 == 0x0200 && decide (pkgSvn b ≤ 64) && decide (numAt b 9 1 < 2) &&
    numAt b 0xA 2 == 0 && code % 256 == 0 && decide (256 ≤ code) && decide (1 ≤ numAt b 0x01C 4) && decide (numAt b 0x01C 4 ≤ 1572864) &&
    key % 64 == 0 && decide (code + numAt b 0x01C 4 ≤ key) && decide (numAt b 0x024 4 ≤ 8) && numAt b 0x028 216 == 0 &&
    decide (key + 64 * numAt b 0x024 4 + sigLen ≤ pkgSize b) && decide (pkgSize b ≤ slotSize)

/-- The signature block of a package. -/
def pkgSig (b : List Byte) : List Byte := b.drop (pkgSize b - sigLen)

/-- The SHA-256 digest of every byte before the signature block (R442). -/
def pkgDigest (b : List Byte) : BitVec 256 := Config.sha256 (b.take (pkgSize b - sigLen))

/-- The root key slot whose digest a package's public key has, if it is not revoked (R438, R441). -/
def pkgRoot (s : State) (b : List Byte) : Option (Fin 2) :=
  let d := Config.sha256 (cut (pkgSig b) 8 48)
  if d = Config.rootKey 0 ∧ s.sec.slot0Revoked = false then some 0 else if d = Config.rootKey 1 then some 1 else none

/-- The manifest agrees with the header, and the signature over it verifies (R442). -/
def pkgSignOk (b : List Byte) : Bool :=
  let m := cut (pkgSig b) 0x38 128
  numAt (pkgSig b) 0 2 == 1 && numAt m 0 4 == 0x4D464B45 && numAt m 4 2 == numAt b 6 2 && numAt m 6 2 == pkgSvn b && numAt m 8 8 == pkgSize b &&
    Config.slhVerify192s (cut (pkgSig b) 8 48) m (cut (pkgSig b) 0xB8 16224)

/-- The checks of R441 on a package, with the status each failure gives FW_VERIFY. For a header that is not well formed Table 15.4 names none:
LEVEL is a DESIGN CHOICE (log entry 94). -/
def pkgStatus (s : State) (b : List Byte) : Nat :=
  if pkgHeadOk b = false then stLevel
  else match pkgRoot s b with
    | none => stKey
    | some _ =>
      if pkgSignOk b = false then stSignature
      else if digestOf (cut (pkgSig b) (0x38 + 0x10) 32) ≠ pkgDigest b then stDigest
      else if pkgSvn b < s.sec.counter then stRollback
      else stOK

/-- The image key table of a package (R443). -/
def pkgKeys (b : List Byte) : List KeyEntry :=
  (List.range (numAt b 0x024 4)).map fun i =>
    let e := cut b (numAt b 0x020 4 + 64 * i) 64
    { digest := digestOf (cut e 0 32), floor := numAt e 32 2, flags := BitVec.ofNat 16 (numAt e 34 2) }

/-- A slot or package fails R441: fw_verify_fail, and rollback_refused for its version (Table 15.13). -/
def pkgFailBit (st : Nat) (s : State) : State :=
  let s1 := setEv blkSEC 0 2 s
  if st = stRollback then setEv blkSEC 0 3 s1 else s1

/-! ### Boot (R440) -/

/-- Rewrites the boot record: the copy that is not in force is written, with the next write count, and is then the one in force (R439). -/
def onBoots (f : Vector BootSlot 2 → Vector BootSlot 2) (s : State) : State :=
  onMgt (fun m => { m with
    slots := f m.slots, bootAt := otherUnit m.bootAt, bootCount := m.bootCount + 1
    bootOther := { slots := m.slots, count := m.bootCount, ok := true } }) s

/-- Changes a slot of the boot record. -/
def onBoot (k : Fin 2) (f : BootSlot → BootSlot) (s : State) : State := onBoots (fun v => upd v k f) s

/-- The ROM uses the copy with a valid CRC and the higher write count (Table 15.8). -/
def bootRead (s : State) : State :=
  onMgt (fun m => if m.bootOther.ok && decide (m.bootCount < m.bootOther.count) then { m with
    slots := m.bootOther.slots, bootAt := otherUnit m.bootAt, bootCount := m.bootOther.count
    bootOther := { slots := m.slots, count := m.bootCount, ok := true } } else m) s

/-- fw_state changes and its epoch with it (Table 15.10). -/
def fwTo (st : BitVec 4) (s : State) : State :=
  if s.mgt.fwState = st then s else onMgt (fun m => { m with fwState := st, epoch := m.epoch + 1 }) s

/-- A slot becomes failed at boot: reported. -/
def slotFails (k : Fin 2) (s : State) : State :=
  logEvent clsReported blkMGT 0x0104 0 (onBoot k (fun b => { b with state := .failed }) s)

/-- A pending slot that has had three attempts becomes failed (R440). -/
def retirePending (s : State) (k : Fin 2) : State :=
  if (s.mgt.slots[k]).state = .pending ∧ 3 ≤ (s.mgt.slots[k]).attempts then slotFails k s else s

/-- The slot that the ROM chooses: pending, else confirmed, else the valid one with the higher security_version; slot A of two pending or
equal ones (DESIGN CHOICE, log entry 100). -/
def bootChoice (s : State) : Option (Fin 2) :=
  let is (st : SlotState) (k : Fin 2) : Bool := (s.mgt.slots[k]).state == st
  let best := if is .valid 0 && is .valid 1 then (if (s.mgt.slots[0]).svn < (s.mgt.slots[1]).svn then some 1 else some 0)
    else if is .valid 0 then some 0 else if is .valid 1 then some 1 else none
  if is .pending 0 then some 0 else if is .pending 1 then some 1 else if is .confirmed 0 then some 0 else if is .confirmed 1 then some 1 else best

/-- The firmware of a slot starts: what the registers and the attestation report show of it. -/
def slotRuns (k : Fin 2) (s : State) : State :=
  let b := pkgBytes s k
  fwTo 1 (onMgt (fun m => { m with
    booted := true, running := k, version := w32 (numAt b 0x00C 4), fwSvn := pkgSvn b, rootSlot := (pkgRoot s b).getD 0
    fwDigest := pkgDigest b, fwRevoke := numAt b 9 1 % 2 == 1, keys := pkgKeys b
    keyBytes := cut b (numAt b 0x020 4) (64 * numAt b 0x024 4) }) s)

/-- The ROM loads and checks a slot: its firmware starts, or the slot is marked failed. An empty slot holds no package to start. -/
def slotTry (k : Fin 2) (s : State) : Bool × State :=
  let st := pkgStatus s (pkgBytes s k)
  if (s.mgt.slots[k]).state = .empty then (false, s)
  else if st = stOK then (true, slotRuns k s)
  else (false, slotFails k (pkgFailBit st s))

/-- The ROM enters recovery: reported, and the device is in Umbra meanwhile, also when a management reset has found it lit (R440, Table 15.7,
log entry 226). -/
def recover (s : State) : State :=
  let s1 := logEvent clsReported blkMGT 0x0105 0 (fwTo 3 (onMgt (fun m => { m with booted := true }) s))
  if s1.dev.state = .umbra then s1 else goDark s1

/-- The ROM's choice and checks at every start (R440, R496). -/
def romBoot (s : State) : State :=
  let s0 := bootRead (onMgt (fun m => { m with flashPresent := m.flashFitted }) (fwTo 0 s))
  if s0.mgt.flashFitted = false then recover s0
  else
    let s1 := (fins 2).foldl retirePending s0
    match bootChoice s1 with
    | none => recover s1
    | some k =>
      let s2 := if (s1.mgt.slots[k]).state = .pending then onBoot k (fun b => { b with attempts := b.attempts + 1 }) s1 else s1
      let r := slotTry k s2
      if r.1 then r.2
      else
        let r2 := slotTry (otherUnit k) r.2
        if r2.1 then r2.2 else recover r2.2

/-! ### Management reset (R436) -/

/-- A message to the firmware that is discarded: the host's channel reports aborted (R469). -/
def h2fAborted (s : State) (c : Fin 16) : State :=
  if (s.mbx.h2f[c]).go then
    logEvent 0 blkMBX 0x0102 (txInst (.h2f c)) (onH2f c (fun h => { h with go := false, timer := none, status := setBit h.status stAborted }) s)
  else s

/-- The answer that the hardware gives a lost I3C message (R453). -/
def i3cAborted (word00 : Word) (s : State) : State :=
  i3cRespond (vmk 16 fun i => if i.val = 0 then word00 else if i.val = 1 then w32 stAborted10 else 0) s

/-- A command that the firmware had taken and not answered is aborted towards its requester (Table 15.8). -/
def runAborted (p : MgtPath) (c : Fin 16) (code : Nat) (tag : BitVec 16) (s : State) : State :=
  match p with
  | .pcie => logEvent 0 blkMBX 0x0102 (txInst (.h2f c)) (onH2f c (fun h => { h with status := setBit h.status stAborted }) s)
  | .i3c => i3cAborted (w32 (code + tag.toNat * 65536)) s

/-- Path, code and tag of a management command being carried out. -/
def runOf : MgtRun → MgtPath × Nat × BitVec 16
  | .confirm p t => (p, 0x0206, t)
  | .attest p t _ => (p, 0x0207, t)
  | .combSwap p t _ _ => (p, 0x0208, t)
  | .fatalClear p t => (p, 0x020A, t)

/-- The command of an open update that is being carried out, none between two commands. -/
def updCode : UpdPhase → Option Nat
  | .erasing => some 0x0202
  | .programming _ _ _ => some 0x0203
  | .verifying => some 0x0204
  | .activating => some 0x0205
  | .ready => none
  | .verified => none

/-- Every management command being carried out, of an update or not. -/
def runsNow (m : Mgt) : List (MgtPath × Nat × BitVec 16) :=
  m.runs.map runOf ++ (match m.update with
    | some u => ((updCode u.phase).map fun c => (u.path, c, u.tag)).toList
    | none => [])

/-- The image load state is discarded: an armed restart point and a partial copy stay recorded in the control root (R436, R97). -/
def imgLost (s : State) : State :=
  let armed := s.img.state == .armed
  let a : Option ArmRec := s.ctl.arm.map fun a => { a with part := a.part || s.img.copying, lost := a.lost || armed }
  { s with
    img := { discard s.img with half := Vector.replicate 2 none, committing := false, copying := false
                                lostArm := if armed then some s.img.tag else s.img.lostArm }
    ctl := { s.ctl with arm := a } }

/-- The revoke fuse of root slot 0 is to be programmed (R445 step 2). -/
def revokeDue (s : State) : Bool := s.mgt.fwRevoke && s.mgt.rootSlot == 1 && !s.sec.slot0Revoked

/-- Fuse steps that FW_CONFIRM has to program: counter steps, then the revoke fuse (R445). -/
def fuseSteps (s : State) : Nat := s.mgt.fwSvn - s.sec.counter + b2n (revokeDue s)

/-- Fuses after the first `n` steps of FW_CONFIRM. -/
def fusesAfter (n : Nat) (s : State) : Sec :=
  { s.sec with
    counter := max s.sec.counter (min s.mgt.fwSvn (s.sec.counter + n))
    slot0Revoked := s.sec.slot0Revoked || (revokeDue s && decide (fuseSteps s ≤ n)) }

/-- FW_CONFIRM is being carried out. -/
def confirming (s : State) : Bool := s.mgt.runs.any fun r => match r with
  | .confirm _ _ => true
  | _ => false

/-- The first `n` steps of FW_CONFIRM are programmed: counter_advanced and root_revoked as they take effect. -/
def burn (n : Nat) (s : State) : State :=
  let f := fusesAfter n s
  let s1 := { s with sec := f }
  let s2 := if s.sec.counter < f.counter then flag blkSEC 0 4 s1 else s1
  if f.slot0Revoked && !s.sec.slot0Revoked then flag blkSEC 0 5 s2 else s2

/-- A FW_CONFIRM cut short by a reset or a loss of power: how many of its steps were programmed is open (R445). -/
def confirmCut (s : State) : State :=
  if confirming s then burn ((Config.freeValue 8 s.fresh).toNat % (fuseSteps s + 1)) { s with fresh := s.fresh + 1 } else s

/-- A management reset, and the boot that follows it (R435, R436, R440). -/
def mgmtReset (s : State) : State :=
  let s1 := confirmCut (flag blkMGT 0 1 (fwTo 4 s))
  let s2 := diesAborted true ((fins 16).foldl h2fAborted s1)
  let s3 := if s2.mgt.i3cGo then i3cAborted s2.mgt.i3cMbx[0] (onMgt (fun m => { m with i3cGo := false }) s2) else s2
  let s4 := (runsNow s3.mgt).foldl (fun t r => runAborted r.1 1 r.2.1 r.2.2 t) s3
  let s5 := if s4.img.committing then runAborted .pcie 0 cImgCommit s4.img.tag s4 else s4
  let s6 := imgLost (onMgt (fun m => { m with update := none, runs := [] }) s5)
  romBoot { s6 with lck := { owner := s6.lck.owner.map fun o => if o = 1 then 0 else o } }

/-- The firmware has been started and has not declared itself ready. -/
def fwLoading : BitVec 4 := 1

/-- FW_READY: fw_ready, and the answer to an arming lost to a management reset (R441, R97). -/
def fwReady (s : State) : State :=
  if s.mgt.fwState ≠ fwLoading then s
  else
    let s1 := flag blkMGT 0 0 { fwTo fwRunning s with sec := { s.sec with attReady := Config.secretOk } }
    match s1.img.lostArm with
    | some t => imgReply cImgCommit t stAborted10 [] { s1 with img := { s1.img with lostArm := none } }
    | none => s1

/-- FW_READY. -/
def execFwReady (s : State) : Host.Outcome State Fault Refusal := run fwReady s

/-- FW_WATCHDOG: 10 s without a ready declaration: Recoverable, a management reset (R440). -/
def execFwWatchdog (s : State) : Host.Outcome State Fault Refusal :=
  run (fun s => if s.mgt.fwState = fwLoading then logEvent clsRecoverable blkMGT 0x0100 0 (mgmtReset s) else s) s

/-- LOCKSTEP_DISAGREEMENT: a management reset, Recoverable; a second one within 1 s is Fatal (R435). -/
def lockstep (s : State) : State :=
  let second := match s.mgt.lastDisagree with
    | some t => decide (s.time ≤ t + 1000000)
    | none => false
  let s1 := setEv blkMGT 0 2 (onMgt (fun m => { m with
    lastDisagree := some s.time, lockstep := if m.lockstep = 15 then 15 else m.lockstep + 1 }) s)
  if second then fatalEvent blkMGT 0x0101 0 (mgmtReset s1)
  else logEvent clsRecoverable blkMGT 3 0 (mgmtReset s1)

/-- LOCKSTEP_DISAGREEMENT. -/
def execLockstepDisagreement (s : State) : Host.Outcome State Fault Refusal := run lockstep s

/-! ### Management commands (R444) -/

/-- The message waiting on a path. -/
def mgtWaiting (s : State) (p : MgtPath) : Option Msg :=
  match p with
  | .pcie => if (s.mbx.h2f[1]).go then some (s.mbx.h2f[1]).msg else none
  | .i3c => if s.mgt.i3cGo then some { words := s.mgt.i3cMbx, tag := 0, sender := 0 } else none

/-- The firmware takes the message of a path. -/
def mgtTake (p : MgtPath) (s : State) : State :=
  match p with
  | .pcie => mbxTaken (.h2f 1) s
  | .i3c => onMgt (fun m => { m with i3cGo := false }) s

/-- MGT_QUERY -/
def cMgtQuery : Nat := 0x0201
/-- FW_BEGIN -/
def cFwBegin : Nat := 0x0202
/-- FW_CHUNK -/
def cFwChunk : Nat := 0x0203
/-- FW_VERIFY -/
def cFwVerify : Nat := 0x0204
/-- FW_ACTIVATE -/
def cFwActivate : Nat := 0x0205
/-- FW_CONFIRM -/
def cFwConfirm : Nat := 0x0206
/-- ATTEST -/
def cAttest : Nat := 0x0207
/-- COMB_SWAP -/
def cCombSwap : Nat := 0x0208
/-- FATAL_READ -/
def cFatalRead : Nat := 0x0209
/-- FATAL_CLEAR -/
def cFatalClear : Nat := 0x020A

/-- A command is answered: by the running firmware, or in recovery by the ROM when it is MGT_QUERY or of the update (R440). -/
def mgtServed (s : State) (code : Nat) : Bool :=
  s.mgt.fwState == fwRunning || (s.mgt.fwState == 3 && decide (cMgtQuery ≤ code) && decide (code ≤ cFwActivate))

/-- Takes the waiting management command of a code and carries it out; without one, nothing happens (log entry 26). -/
def onCmd (p : MgtPath) (code : Nat) (f : Msg → State → State) (s : State) : State :=
  match mgtWaiting s p with
  | some m => if mgtServed s code ∧ mcode m = code then f m (mgtTake p s) else s
  | none => s

/-- MGT_QUERY: version, versions and slots, MGT_BOOT. -/
def mgtQueryCmd (p : MgtPath) (m : Msg) (s : State) : State :=
  let g := s.mgt
  mgtReply p cMgtQuery (mtag m) stOK
    [g.version, w32 (g.fwSvn + s.sec.counter * 2 ^ 8 + g.running.val * 2 ^ 16 + g.rootSlot.val * 2 ^ 17), (mkReg (bootWord s)).1] s

/-- MGT_QUERY. -/
def execMgtQuery (p : MgtPath) (s : State) : Host.Outcome State Fault Refusal := run (onCmd p cMgtQuery (mgtQueryCmd p)) s

/-! ### Update (R446) -/

/-- The slot that is not running. -/
def spareSlot (s : State) : Fin 2 := otherUnit s.mgt.running

/-- Changes the open update. -/
def onUpd (f : FwUpdate → FwUpdate) (s : State) : State := onMgt (fun m => { m with update := m.update.map f }) s

/-- Update refused (Table 15.7): logged for ROLLBACK, SIGNATURE, KEY, DIGEST and FLASH. -/
def updRefused (st : Nat) (s : State) : State :=
  let s1 := if st = stFlash then flashFailed s else if st = stRollback ∨ st = stSignature ∨ st = stKey ∨ st = stDigest ∨ st = stLevel ∨ st = stSize
    then pkgFailBit st s else s
  if st = stRollback ∨ st = stSignature ∨ st = stKey ∨ st = stDigest ∨ st = stFlash then logEvent clsReported blkMGT 0x0106 0 s1 else s1

/-- An error reply ends the update (R446). -/
def updError (p : MgtPath) (code : Nat) (tag : BitVec 16) (st : Nat) (s : State) : State :=
  mgtReply p code tag st [] (onMgt (fun m => { m with update := none }) s)

/-- The update is open on this path. -/
def updOn (s : State) (p : MgtPath) : Option FwUpdate := s.mgt.update.filter fun u => u.path == p

/-- A command of the update is being carried out: the next one of its path waits (log entry 26). -/
def updBusy (s : State) (p : MgtPath) : Bool := ((updOn s p).map fun u => (updCode u.phase).isSome).getD false

/-- FW_BEGIN: the inactive slot becomes empty and its erasure starts, or BUSY. -/
def fwBeginCmd (p : MgtPath) (m : Msg) (s : State) : State :=
  let other := (s.mgt.update.map fun u => u.path != p).getD false
  if other ∨ s.img.state ≠ .idle then mgtReply p cFwBegin (mtag m) stBusy [] s
  else if slotSize < mword2 m 1 then updError p cFwBegin (mtag m) stSize s
  else if s.mgt.flashFitted = false then updError p cFwBegin (mtag m) stFlash (updRefused stFlash s)
  else onBoot (spareSlot s) (fun _ => {}) (onMgt (fun g => { g with
    update := some { path := p, size := mword2 m 1, tag := mtag m, phase := .erasing } }) s)

/-- FW_BEGIN. -/
def execFwBegin (p : MgtPath) (s : State) : Host.Outcome State Fault Refusal :=
  run (fun s => if updBusy s p then s else onCmd p cFwBegin (fwBeginCmd p) s) s

/-- Whole 64 KiB sectors for a size (R439). -/
def sectors (n : Nat) : Nat := (n + 65535) / 65536 * 65536

/-- FW_ERASE_DONE. -/
def eraseDone (ok : Bool) (s : State) : State :=
  match s.mgt.update with
  | some u =>
    if u.phase ≠ .erasing then s
    else if ok then
      mgtReply u.path cFwBegin u.tag stOK [] (onUpd (fun u => { u with phase := .ready })
        (onMgt (fun m => { m with flash := m.flash.clear (slotBase (spareSlot s)) (sectors u.size) }) s))
    else updError u.path cFwBegin u.tag stFlash (updRefused stFlash s)
  | none => s

/-- FW_ERASE_DONE. -/
def execFwEraseDone (ok : Bool) (s : State) : Host.Outcome State Fault Refusal := run (eraseDone ok) s

/-- The longest chunk of a path and source (R444). -/
def fwChunkMax (p : MgtPath) (src : Nat) : Nat := if p = .i3c ∨ src = 2 then 4096 else slotSize

/-- FW_CHUNK: programming starts, or the chunk is refused. -/
def fwChunkCmd (p : MgtPath) (m : Msg) (s : State) : State :=
  let off := mword2 m 1
  let len := mword m 3
  if 2 < mword m 4 then mgtReply p cFwChunk (mtag m) stUnknown [] s
  else match updOn s p with
    | none => mgtReply p cFwChunk (mtag m) stSequence [] s
    | some u =>
      if len = 0 ∨ fwChunkMax p (mword m 4) < len ∨ u.size < off + len then updError p cFwChunk (mtag m) stSize s
      else onUpd (fun u => { u with phase := .programming off len (mword m 4), tag := mtag m, torn := m.dirty.getLsbD (mword m 4) }) s

/-- FW_CHUNK. -/
def execFwChunk (p : MgtPath) (s : State) : Host.Outcome State Fault Refusal :=
  run (fun s => if updBusy s p then s else onCmd p cFwChunk (fwChunkCmd p) s) s

/-- The bytes of a chunk at the start of its source; unpredictable when the host wrote the half meanwhile (R444, R89). -/
def chunkBytes (s : State) (u : FwUpdate) (len src : Nat) : List Byte :=
  if u.torn then leBytes len (Config.freeValue (8 * len) s.fresh).toNat
  else if src = 2 then s.mgt.stage.readN 0 len
  else s.host.bar2.readN (src * 2 ^ 25) len

/-- FW_CHUNK_PROGRAMMED. -/
def chunkProgrammed (ok : Bool) (s : State) : State :=
  match s.mgt.update with
  | some u =>
    match u.phase with
    | .programming off len src =>
      if ok then
        mgtReply u.path cFwChunk u.tag stOK [] (onUpd (fun u => { u with phase := .ready })
          { onMgt (fun m => { m with flash := m.flash.writeN (slotBase (spareSlot s) + off) (chunkBytes s u len src) }) s with
            fresh := s.fresh + 1 })
      else updError u.path cFwChunk u.tag stFlash (updRefused stFlash s)
    | _ => s
  | none => s

/-- FW_CHUNK_PROGRAMMED. -/
def execFwChunkProgrammed (ok : Bool) (s : State) : Host.Outcome State Fault Refusal := run (chunkProgrammed ok) s

/-- FW_VERIFY starts, or SEQUENCE. -/
def fwVerifyCmd (p : MgtPath) (m : Msg) (s : State) : State :=
  match updOn s p with
  | some _ => onUpd (fun u => { u with phase := .verifying, tag := mtag m }) s
  | none => mgtReply p cFwVerify (mtag m) stSequence [] s

/-- FW_VERIFY. -/
def execFwVerify (p : MgtPath) (s : State) : Host.Outcome State Fault Refusal :=
  run (fun s => if updBusy s p then s else onCmd p cFwVerify (fwVerifyCmd p) s) s

/-- The status of FW_VERIFY: the package must have the size that FW_BEGIN named and pass R441. -/
def slotStatus (s : State) (u : FwUpdate) : Nat :=
  let b := pkgBytes s (spareSlot s)
  if pkgHeadOk b ∧ pkgSize b ≠ u.size then stSize else pkgStatus s b

/-- FW_VERIFY_COMPLETE: the slot has been read back and is checked, or the read-back failed. -/
def fwVerified (ok : Bool) (s : State) : State :=
  match s.mgt.update with
  | some u =>
    if u.phase ≠ .verifying then s
    else
      let st := if ok then slotStatus s u else stFlash
      if st = stOK then mgtReply u.path cFwVerify u.tag stOK [] (onUpd (fun u => { u with phase := .verified }) s)
      else updError u.path cFwVerify u.tag st (updRefused st s)
  | none => s

/-- FW_VERIFY_COMPLETE. -/
def execFwVerifyComplete (s : State) (ok : Bool := true) : Host.Outcome State Fault Refusal := run (fwVerified ok) s

/-- FW_ACTIVATE starts after a passed FW_VERIFY, or SEQUENCE. -/
def fwActivateCmd (p : MgtPath) (m : Msg) (s : State) : State :=
  match updOn s p with
  | some u =>
    if u.phase = .verified then onUpd (fun u => { u with phase := .activating, tag := mtag m }) s
    else updError p cFwActivate (mtag m) stSequence s
  | none => mgtReply p cFwActivate (mtag m) stSequence [] s

/-- FW_ACTIVATE. -/
def execFwActivate (p : MgtPath) (s : State) : Host.Outcome State Fault Refusal :=
  run (fun s => if updBusy s p then s else onCmd p cFwActivate (fwActivateCmd p) s) s

/-- The boot record of an activation of slot `k`: pending, with no attempts. -/
def activatedBoot (k : Fin 2) (s : State) : State :=
  let b := pkgBytes s k
  onBoot k (fun _ => { state := .pending, svn := pkgSvn b, digest := pkgDigest b, attempts := 0 }) s

/-- FW_ACTIVATE_COMPLETE: the slot is pending with no attempts, the update closes. -/
def fwActivated (ok : Bool) (s : State) : State :=
  match s.mgt.update with
  | some u =>
    if u.phase ≠ .activating then s
    else if ok then
      mgtReply u.path cFwActivate u.tag stOK [] (flag blkMGT 0 6 (activatedBoot (spareSlot s) (onMgt (fun m => { m with update := none }) s)))
    else updError u.path cFwActivate u.tag stFlash (updRefused stFlash s)
  | none => s

/-- FW_ACTIVATE_COMPLETE. -/
def execFwActivateComplete (ok : Bool) (s : State) : Host.Outcome State Fault Refusal := run (fwActivated ok) s

/-! ### Confirmation (R445) -/

/-- Ends a management command being carried out. -/
def endRun (r : MgtRun) (s : State) : State := onMgt (fun m => { m with runs := m.runs.erase r }) s

/-- FW_CONFIRM: accepted only when the running slot is pending. -/
def fwConfirmCmd (p : MgtPath) (m : Msg) (s : State) : State :=
  if (s.mgt.slots[s.mgt.running]).state ≠ .pending then mgtReply p cFwConfirm (mtag m) stSequence [] s
  else if s.mgt.runs.any (fun r => (runOf r).2.1 == cFwConfirm) then mgtReply p cFwConfirm (mtag m) stBusy [] s
  else onMgt (fun g => { g with runs := g.runs ++ [.confirm p (mtag m)] }) s

/-- FW_CONFIRM. -/
def execFwConfirm (p : MgtPath) (s : State) : Host.Outcome State Fault Refusal := run (onCmd p cFwConfirm (fwConfirmCmd p)) s

/-- The boot record of a confirmation of slot `k`: confirmed, and the other slot under the new counter valid if it passes R441, failed
otherwise (R445 step 3). -/
def confirmedBoot (k : Fin 2) (s : State) : State :=
  let b := pkgBytes s (otherUnit k)
  onBoots (fun v => upd (upd v k fun r => { r with state := .confirmed }) (otherUnit k) fun r =>
    if pkgStatus s b = stOK then { r with state := .valid, svn := pkgSvn b, digest := pkgDigest b } else { r with state := .failed }) s

/-- FW_CONFIRM_COMPLETE: fuses programmed and the slots settled, or FUSE; how many counter steps took when one failed is not stated. -/
def fwConfirmed (ok : Bool) (s : State) : State :=
  match s.mgt.runs.find? fun r => (runOf r).2.1 == cFwConfirm with
  | none => s
  | some r =>
    let p := (runOf r).1
    let tag := (runOf r).2.2
    let s0 := endRun r s
    if ok then
      mgtReply p cFwConfirm tag stOK [] (flag blkMGT 0 6 (confirmedBoot s.mgt.running (burn (fuseSteps s) s0)))
    else
      let s1 := burn ((Config.freeValue 8 s.fresh).toNat % max 1 (fuseSteps s)) { s0 with fresh := s.fresh + 1 }
      mgtReply p cFwConfirm tag stFuse [] (logEvent clsReported blkMGT 0x0107 0 s1)

/-- FW_CONFIRM_COMPLETE. -/
def execFwConfirmComplete (fuseOk : Bool) (s : State) : Host.Outcome State Fault Refusal := run (fwConfirmed fuseOk) s

/-! ### Attestation (R448) -/

/-- Little-endian bytes of a 256-bit digest. -/
def digestBytes (d : BitVec 256) : List Byte := leBytes 32 d.toNat

/-- Bytes 0x000 to 0x11F of the report (Table 15.5). -/
def attestBody (s : State) (nonce : List Byte) : List Byte :=
  let im := s.img.image
  leBytes 4 0x52414B45 ++ leBytes 2 0x0200 ++ [stepping, BitVec.ofNat 8 (devCode s.dev.state)] ++ leBytes 16 Config.serial.toNat ++
  nonce ++ leBytes 8 s.time ++ leBytes 2 0x0200 ++ [BitVec.ofNat 8 s.sec.counter, BitVec.ofNat 8 s.mgt.fwSvn] ++
  [BitVec.ofNat 8 (s.mgt.running.val + 2 * s.mgt.rootSlot.val + 4 * b2n s.sec.slot0Revoked), 0, 0, 0] ++
  digestBytes s.mgt.fwDigest ++ digestBytes Config.romDigest ++ digestBytes ((im.map fun i : Image => i.manifest).getD 0) ++
  leBytes 8 ((im.map fun i : Image => i.programId.toNat).getD 0) ++ leBytes 4 ((im.map fun i : Image => i.place.toNat).getD 0xFFFFFFFF) ++
  leBytes 2 ((im.map fun i : Image => i.svn).getD 0) ++ leBytes 2 s.mgt.reportSerial.toNat ++
  digestBytes ((im.map fun i : Image => i.keyDigest).getD 0) ++ digestBytes (Config.sha256 s.mgt.keyBytes) ++ leBytes 8 0 ++
  digestBytes attPublic

/-- The nonce of an ATTEST, words 02 to 09. -/
def nonceOf (m : Msg) : List Byte := (List.range 8).flatMap fun i => leBytes 4 (mword m (2 + i))

/-- ATTEST: the report is built from one snapshot and its signing starts, or BUSY. -/
def attestCmd (p : MgtPath) (m : Msg) (s : State) : State :=
  if s.mgt.runs.any (fun r => (runOf r).2.1 == cAttest) then mgtReply p cAttest (mtag m) stBusy [] s
  else onMgt (fun g => { g with runs := g.runs ++ [.attest p (mtag m) (attestBody s (nonceOf m))], reportSerial := g.reportSerial + 1 }) s

/-- ATTEST. -/
def execAttest (p : MgtPath) (s : State) : Host.Outcome State Fault Refusal := run (onCmd p cAttest (attestCmd p)) s

/-- The report in MGT_REPORT: the body and its signature. -/
def reportBytes (body : List Byte) : List Byte := body ++ attSign body

/-- ATTEST_SIGNED. -/
def attestDone (s : State) : State :=
  match s.mgt.runs.find? fun r => (runOf r).2.1 == cAttest with
  | some (.attest p tag body) =>
    mgtReply p cAttest tag stOK [17376, w32 (numAt body 0x0B6 2)] (flag blkSEC 0 6
      (onMgt (fun m => { m with report := m.report.writeN 0 (reportBytes body) }) (endRun (.attest p tag body) s)))
  | _ => s

/-- ATTEST_SIGNED. -/
def execAttestSigned (s : State) : Host.Outcome State Fault Refusal := run attestDone s

/-! ### The comb-swap command (R315) -/

/-- D4 of a group is in standby and the die it is to replace is active. -/
def swapStatus (s : State) (g : CombGroup) (k : Fin 4) : Nat :=
  let q := s.comb.group[g]
  if q.task.isSome then stBusy
  else if (q.die[4]).state ≠ .standby ∨ (q.die[(⟨k.val, by omega⟩ : Fin 5)]).state ≠ .active then stUnavailable
  else stOK

/-- COMB_SWAP: STALE when the port's epoch differs, otherwise D4 is brought up. -/
def combSwapCmd (p : MgtPath) (m : Msg) (s : State) : State :=
  let g : CombGroup := fin! 4 (bits (mword m 2) 7 4)
  let k : Fin 4 := fin! 4 (bits (mword m 2) 3 0)
  let port : Port := fin! 64 (16 * g.val + 4 * k.val)
  if 3 < bits (mword m 2) 7 4 ∨ 3 < bits (mword m 2) 3 0 then mgtReply p cCombSwap (mtag m) stUnknown [] s
  else if mword m 3 ≠ (s.port[port]).epoch.toNat then mgtReply p cCombSwap (mtag m) stStale [] s
  else if swapStatus s g k ≠ stOK then mgtReply p cCombSwap (mtag m) (swapStatus s g k) [] s
  else swapStart g k (onMgt (fun q => { q with runs := q.runs ++ [.combSwap p (mtag m) g.val k.val] }) s)

/-- COMB_SWAP. -/
def execCombSwap (p : MgtPath) (s : State) : Host.Outcome State Fault Refusal := run (onCmd p cCombSwap (combSwapCmd p)) s

/-- The group of a planned swap under way, and the position. -/
def swapNow (s : State) : Option (CombGroup × Fin 4) :=
  (fins 4).findSome? fun g => match (s.comb.group[g]).task with
    | some (.planned k) => some (g, k)
    | _ => none

/-- COMB_SWAP_DONE: both switches move, the ports retrain, and the command that asked is answered. -/
def combSwapDone (s : State) : State :=
  match swapNow s with
  | none => s
  | some (g, k) =>
    let s1 := swapFinish g k s
    match s1.mgt.runs.find? fun r => match r with
      | .combSwap _ _ a b => a == g.val && b == k.val
      | _ => false with
    | some r => mgtReply (runOf r).1 cCombSwap (runOf r).2.2 stOK [] (endRun r s1)
    | none => s1

/-- COMB_SWAP_DONE. -/
def execCombSwapDone (s : State) : Host.Outcome State Fault Refusal := run combSwapDone s

/-! ### Fatal records (R450) -/

/-- The sensor snapshot of a fatal record as bytes; an entry has 16 KiB. -/
def snapBytes (r : FatalRec) : List Byte := (Config.snapshotBytes r.snap.1 r.snap.2.1 r.snap.2.2).take 8128

/-- The length of a fatal record: header, 256 log records and the snapshot. -/
def fatalLen (r : FatalRec) : Nat := 8256 + (snapBytes r).length

/-- A log record as bytes (Table 15.6). -/
def logBytes (r : LogRec) : List Byte := (List.range 8).flatMap fun k => leBytes 4 (logWord r k)

/-- A fatal record as bytes; its header has no stated layout. -/
def fatalBytes (r : FatalRec) : List Byte :=
  leBytes 64 (Config.freeValue 512 r.seed).toNat ++ ((List.range 256).flatMap fun i => match r.log[i]? with
    | some e => logBytes e
    | none => List.replicate 32 0) ++ snapBytes r

/-- FATAL_READ: a persisted record in MGT_REPORT, length 0 for an entry that holds none. -/
def fatalReadCmd (p : MgtPath) (m : Msg) (s : State) : State :=
  if 127 < mword m 2 then mgtReply p cFatalRead (mtag m) stUnknown [] s
  else match s.mgt.fatals[mword m 2]? with
    | some r => mgtReply p cFatalRead (mtag m) stOK [w32 (fatalLen r)] (onMgt (fun g => { g with report := g.report.writeN 0 (fatalBytes r) }) s)
    | none => mgtReply p cFatalRead (mtag m) stOK [0] s

/-- FATAL_READ. -/
def execFatalRead (p : MgtPath) (s : State) : Host.Outcome State Fault Refusal := run (onCmd p cFatalRead (fatalReadCmd p)) s

/-- FATAL_CLEAR: erasing starts. -/
def fatalClearCmd (p : MgtPath) (m : Msg) (s : State) : State :=
  onMgt (fun g => { g with runs := g.runs ++ [.fatalClear p (mtag m)] }) s

/-- FATAL_CLEAR. -/
def execFatalClear (p : MgtPath) (s : State) : Host.Outcome State Fault Refusal := run (onCmd p cFatalClear (fatalClearCmd p)) s

/-- FATAL_CLEAR_COMPLETE. -/
def fatalCleared (ok : Bool) (s : State) : State :=
  match s.mgt.runs.find? fun r => (runOf r).2.1 == cFatalClear with
  | none => s
  | some r =>
    let s1 := endRun r s
    if ok then mgtReply (runOf r).1 cFatalClear (runOf r).2.2 stOK [] (onMgt (fun m => { m with fatals := [] }) s1)
    else mgtReply (runOf r).1 cFatalClear (runOf r).2.2 stFlash [] (logEvent clsReported blkMGT 4 0 (flashFailed s1))

/-- FATAL_CLEAR_COMPLETE. -/
def execFatalClearComplete (ok : Bool) (s : State) : Host.Outcome State Fault Refusal := run (fatalCleared ok) s

/-- FATAL_PERSISTED: the oldest pending record reaches the flash, or stays pending with flash_fail; each Fatal event has one (Table 0.3). -/
def fatalStored (ok : Bool) (s : State) : State :=
  match s.mgt.fatalPending with
  | [] => s
  | r :: rest =>
    if s.mgt.fwState ≠ fwRunning then s
    else if ok && s.mgt.flashFitted then
      flag blkMGT 0 4 (onMgt (fun m => { m with fatals := (r :: m.fatals).take 128, fatalPending := rest }) s)
    else logEvent clsReported blkMGT 4 0 (flashFailed s)

/-- FATAL_PERSISTED. -/
def execFatalPersisted (ok : Bool) (s : State) : Host.Outcome State Fault Refusal := run (fatalStored ok) s

/-! ### Undefined commands (R88, R444) -/

/-- An image message whose code or parameter Table 3.15 does not define. -/
def imgUndefined (m : Msg) : Bool :=
  if mcode m = cImgChunk then decide (1 < mword m 4)
  else if mcode m = cImgCommit then decide (1 < mword m 1)
  else if mcode m = cDevPenumbra then decide (1 < mword m 1)
  else decide (mcode m < cImgQuery) || decide (cDevPenumbra < mcode m)

/-- A management message whose code or parameter Table 15.3 does not define. -/
def mgtUndefined (m : Msg) : Bool :=
  if mcode m = cFwChunk then decide (2 < mword m 4)
  else if mcode m = cCombSwap then decide (3 < bits (mword m 2) 7 4) || decide (3 < bits (mword m 2) 3 0)
  else if mcode m = cFatalRead then decide (127 < mword m 2)
  else decide (mcode m < cMgtQuery) || decide (cFatalClear < mcode m)

/-- A message that names no defined command is answered UNKNOWN with its tag and changes nothing else. -/
def undefCmd (ch : FwChannel) (s : State) : State :=
  match ch with
  | .image => match imgWaiting s with
    | some m => if imgOn s ∧ imgUndefined m then imgReply (mcode m) (mtag m) stUnknown [] (mbxTaken (.h2f 0) s) else s
    | none => s
  | .mgt p => match mgtWaiting s p with
    | some m => if s.mgt.fwState = fwRunning ∧ mgtUndefined m then mgtReply p (mcode m) (mtag m) stUnknown [] (mgtTake p s) else s
    | none => s

/-- UNDEFINED_COMMAND. -/
def execUndefinedCommand (ch : FwChannel) (s : State) : Host.Outcome State Fault Refusal := run (undefCmd ch) s

/-! ### The I3C target (R451 to R453) -/

/-- The static address that SETDASA names (R451). -/
def i3cStatic : BitVec 7 := 0x5A

/-- I3C_ADDRESS_ASSIGN: by ENTDAA, or by SETDASA to a static address, which only this target's own reaches (R451, log
entry 230). -/
def execI3cAddressAssign (addr : BitVec 7) (s : State) (via : Option (BitVec 7) := none) : Host.Outcome State Fault Refusal :=
  run (fun s => if via = none ∨ via = some i3cStatic then onMgt (fun m => { m with i3cAddr := some addr }) s else s) s

/-- The management cap, 300 to 850 W (Table 15.10). -/
def capMgmtSet (v : Word) (s : State) : State := onMgt (fun m => { m with capMgmt := capField m.capMgmt v }) s

/-- go of the I3C mailbox is written 1: the message passes to the firmware, or is discarded while the last one waits (R453). -/
def i3cGoSet (s : State) : State :=
  if s.mgt.i3cGo then flag blkMGT 0 5 s else onMgt (fun m => { m with i3cGo := true }) s

/-- The controller clears the response; a held one is placed (R453). -/
def i3cRspClear (s : State) : State :=
  if s.mgt.i3cRspGo = false then s
  else match s.mgt.i3cHeld with
    | [] => onMgt (fun m => { m with i3cRspGo := false }) s
    | w :: r => i3cRespond w (onMgt (fun m => { m with i3cRspGo := false, i3cHeld := r }) s)

/-- The I3C target listens: a dynamic address is assigned (R451). -/
def i3cOn (f : State → State) (s : State) : State := if s.mgt.i3cAddr.isSome then f s else s

/-- A register that I3C may write: MGT_CAP_MGMT, those of the I3C mailbox but its read-only response words, and MGT_I3C_STAGE (R452,
Table 15.10). -/
def i3cMay (off : Nat) : Bool :=
  off % 4 == 0 && (off == 0x7000C || (decide (0x70080 ≤ off) && decide (off ≤ 0x700C0)) || off == 0x70140 ||
    (decide (0x79000 ≤ off) && decide (off < 0x7A000)))

/-- A write of the staging buffer while a chunk is programmed from it: what is programmed is open (R444). -/
def stageTorn (u : FwUpdate) : FwUpdate :=
  match u.phase with
  | .programming _ _ 2 => { u with torn := true }
  | _ => u

/-- One word written over I3C. -/
def i3cWord (off : Nat) (v : Word) (s : State) : State :=
  if i3cMay off = false then flag blkMGT 0 5 s
  else if off = 0x7000C then capMgmtSet v s
  else if 0x79000 ≤ off then onUpd stageTorn (onMgt (fun m => { m with stage := m.stage.writeN (off - 0x79000) (leBytes 4 v.toNat) }) s)
  else if off < 0x700C0 then
    (if s.mgt.i3cGo then flag blkMGT 0 5 s else onMgt (fun m => { m with i3cMbx := updN m.i3cMbx ((off - 0x70080) / 4) fun _ => v }) s)
  else if off = 0x700C0 then (if bit v 0 then i3cGoSet s else s)
  else (if bit v 0 then i3cRspClear s else s)

/-- Words written one after another; the offset increases by 4 per word (R452). -/
def i3cWrite : Nat → List Word → State → State
  | off, [], s => onMgt (fun m => { m with i3cOff := w32 off }) s
  | off, v :: r, s => i3cWrite (off + 4) r (i3cWord off v s)

/-- A word sets a reserved bit of a register that I3C may write: a host error (R20). -/
def i3cBad (s : State) (off : Nat) : List Word → Bool
  | [] => false
  | v :: r => (i3cMay off && rsvBad s off v) || i3cBad s (off + 4) r

/-- I3C_PRIVATE_WRITE. -/
def execI3cPrivateWrite (off : Word) (ws : List Word) (s : State) : Host.Outcome State Fault Refusal :=
  if running s && s.mgt.i3cAddr.isSome && i3cBad s off.toNat ws then badAccess 20 (i3cOn (i3cWrite off.toNat ws)) s
  else run (i3cOn (i3cWrite off.toNat ws)) s

/-- MGT_CAP_MGMT_WRITE. -/
def execMgtCapMgmtWrite (v : Word) (s : State) : Host.Outcome State Fault Refusal :=
  if running s && s.mgt.i3cAddr.isSome && rsvBad s 0x7000C v then badAccess 20 (i3cOn (capMgmtSet v)) s else run (i3cOn (capMgmtSet v)) s

/-- I3C_MBX_GO. -/
def execI3cMbxGo (s : State) : Host.Outcome State Fault Refusal := run (i3cOn i3cGoSet) s

/-- I3C_RSP_CLEAR. -/
def execI3cRspClear (s : State) : Host.Outcome State Fault Refusal := run (i3cOn i3cRspClear) s

/-- A read of a register: a latched word is returned once (R13), otherwise the live one, whose read latches what belongs to it. Reserved
bits read as free values from `n` on. -/
def latchRead {κ : Type} [DecidableEq κ] (l : List (κ × Word)) (key : Nat → κ) (s : State) (n off : Nat) : Word × List (κ × Word) :=
  match aget l (key off) with
  | some w => (w, adel l (key off))
  | none =>
    (fillReserved (readReg s off) n,
     (latchedBy off).foldl (fun m o => aput m (key o) (fillReserved (readReg s o) (n + 1))) l)

/-- The blocks that I3C may read: GLB, ERR, PWR, THM, MGT and SEC (R452). -/
def i3cSees (off : Nat) : Bool := off / 65536 ∈ [0, 4, 5, 6, 7, 8]

/-- Words read over I3C from the current offset on (R452). -/
def i3cReadWords : Nat → List Word → State → List Word × State
  | 0, acc, s => (acc.reverse, s)
  | k + 1, acc, s =>
    let off := s.mgt.i3cOff.toNat
    let r := if i3cSees off then latchRead s.mgt.i3cLatch id s s.fresh off else (BitVec.allOnes 32, s.mgt.i3cLatch)
    i3cReadWords k (r.1 :: acc) { s with
      fresh := s.fresh + 2, mgt := { s.mgt with i3cLatch := r.2, i3cOff := s.mgt.i3cOff + 4 } }

/-- I3C_PRIVATE_READ. -/
def execI3cPrivateRead (n : Nat) (s : State) : Host.Outcome State Fault Refusal :=
  run (i3cOn fun s =>
    let r := i3cReadWords n [] s
    emit (.i3cRead r.1) r.2) s

end Sys2Proof.Machine
end

