-- ==== Sys2Proof/Machine/Reset.lean ====
section
/-!
DEFINITION. Bring-up, reset and the device states (chapter 17), the full commit (R92) and DEV_PENUMBRA (R93).
-/

namespace Sys2Proof.Machine

/-! ### Supplies and resets (R482 to R485, Table 17.1) -/

/-- What every reset keeps: fuses and flash, the supplies and pins, and the model's own fields. A FW_CONFIRM is cut short. -/
def resetBase (s0 : State) : State :=
  let s := confirmCut s0
  { State.reset with
    dev := { powered := s.dev.powered, sysRst := s.dev.sysRst, perst := s.dev.perst }
    mgt := {
      slots := s.mgt.slots, bootAt := s.mgt.bootAt, bootCount := s.mgt.bootCount, bootOther := s.mgt.bootOther
      flashFitted := s.mgt.flashFitted, flash := s.mgt.flash, aging := s.mgt.aging
      weakRows := s.mgt.weakRows, fatals := s.mgt.fatals, swappedOut := s.mgt.swappedOut }
    sec := { counter := s.sec.counter, slot0Revoked := s.sec.slot0Revoked }
    out := s.out, fresh := s.fresh, pending := s.pending }

/-- A device reset: as `resetBase`, with the log SRAM and a fatal record that waits in it kept (R450). -/
def deviceReset (s : State) : State :=
  let r := resetBase s
  emit .dark { r with err := { r.err with log := s.err.log }, mgt := { r.mgt with fatalPending := s.mgt.fatalPending } }

/-- POWER_ON: a power-on reset; SYS_RST_N is held asserted until every supply is good (R482, R483). -/
def powerOn (s : State) : State :=
  if s.dev.powered then s
  else let r := resetBase s; { r with dev := { r.dev with powered := true, sysRst := true } }

/-- POWER_ON. -/
def execPowerOn (s : State) : Host.Outcome State Fault Refusal := done (powerOn s)

/-- Power is lost in `s` while a boot record copy is written: in `r`, which keeps the flash, that copy is as before, torn, its CRC wrong, or
whole (R439, Table 15.8, log entry 227). -/
def bootCut (s r : State) : State :=
  let fused := fuseSteps { s with sec := r.sec } = 0
  let written : Option State :=
    if s.mgt.update.any fun u => u.phase == .activating then some (activatedBoot (spareSlot s) r)
    else if confirming s ∧ fused then some (confirmedBoot s.mgt.running r) else none
  let c := (Config.freeValue 2 r.fresh).toNat
  match written with
  | none => r
  | some w => onMgt (fun m => { m with
      bootOther := if c = 0 then m.bootOther else if c = 1 then { m.bootOther with ok := false }
        else { slots := w.mgt.slots, count := w.mgt.bootCount, ok := true } }) { r with fresh := r.fresh + 1 }

/-- POWER_OFF: what fuses and flash hold survives (R482, Table 17.1). -/
def powerOff (s : State) : State :=
  if s.dev.powered = false then s
  else let r := bootCut s (resetBase s); emit .dark { r with dev := { r.dev with powered := false, sysRst := true } }

/-- POWER_OFF. -/
def execPowerOff (s : State) : Host.Outcome State Fault Refusal := done (powerOff s)

/-- Every active comb die is treated as failed (R517). -/
def allDiesFail (s : State) : State :=
  (fins 4).foldl (fun t g => (fins 5).foldl (fun u d => dieFails g d u) t) s

/-- SUPPLY_FAULT: below 0.69 V the auxiliary supply turns the comb sources off, below 1.62 V on the laser supply every active die is treated
as failed; every other behaviour is unspecified: the work is free, and whether the device goes on or needs a power cycle (R517, log
entry 107). -/
def supplyFault (lasMv auxMv : Nat) (s : State) : State :=
  let s1 := if auxMv < 690 then emit .dark { s with comb := combOff s.comb } else s
  let s2 := freeWork (if lasMv < 1620 then allDiesFail s1 else s1)
  if Config.freeChoice s2.fresh then powerOff (spend 1 s2) else spend 1 s2

/-- SUPPLY_FAULT. -/
def execSupplyFault (lasMv auxMv : Nat) (s : State) : Host.Outcome State Fault Refusal := run (supplyFault lasMv auxMv) s

/-- Asserts or releases a reset input. -/
def setPin (p : ResetPin) (v : Bool) (d : Dev) : Dev :=
  match p with
  | .sysRst => { d with sysRst := v }
  | .perst => { d with perst := v }

/-- RESET_ASSERT: an assertion of 10 µs or more resets the device and puts it in Umbra; a shorter one is ignored (R483, R485). -/
def resetAssert (p : ResetPin) (us : Nat) (s : State) : State :=
  if us < 10 then s
  else
    let s1 := { s with dev := setPin p true s.dev }
    if s.dev.powered then deviceReset s1 else s1

/-- RESET_ASSERT. -/
def execResetAssert (p : ResetPin) (us : Nat) (s : State) : Host.Outcome State Fault Refusal := done (resetAssert p us s)

/-- RESET_RELEASE: the release of the later input is t0, where the ROM boot starts; releasing one while the other stays asserted keeps the
reset (R483, Table 17.3). -/
def resetRelease (p : ResetPin) (s : State) : State :=
  let s1 := { s with dev := setPin p false s.dev }
  if running s1 && !running s then romBoot s1 else s1

/-- RESET_RELEASE. -/
def execResetRelease (p : ResetPin) (s : State) : Host.Outcome State Fault Refusal := done (resetRelease p s)

/-! ### Bumps and fibres (R521, R524) -/

/-- The kinds of signal bump of Table 19.5. -/
inductive Bump where
  | siteOut (x : SiteIx)
  | siteIn (x : SiteIx)
  | siteRstn (x : SiteIx)
  | stack (h : Stack)
  | pcieTx
  | mgtOut
  | i3cSda
  deriving DecidableEq, Repr

/-- The states of Table 19.5. -/
inductive BumpLevel where
  | low
  | offPullDown
  | hbmReset
  | electricalIdle
  | offPullUp
  | released
  deriving DecidableEq, Repr

/-- The state of a bump before reset release, and while its block is held in reset or unused (R521); none where its block drives or reads it. -/
def bumpState (s : State) (b : Bump) : Option BumpLevel :=
  let down (x : SiteIx) : Bool := !running s || decide ((s.site[x]).state.toNat ≤ 1)
  match b with
  | .siteOut x => if down x then some .low else none
  | .siteIn x => if down x then some .offPullDown else none
  | .siteRstn x => if !running s || (s.site[x]).rstn then some .low else none
  | .stack h => if !running s || (s.hbm.stack[h]).state == 0 then some .hbmReset else none
  | .pcieTx => if running s then none else some .electricalIdle
  | .mgtOut => if running s then none else some .offPullUp
  | .i3cSda => if running s then none else some .released

/-- Fibre array unit and position of a port's transmit or receive fibre (R524). -/
def fibreOf (p : Port) (rx : Bool) : Fin 4 × Fin 32 := (fin! 4 (p.val / 16), fin! 32 (2 * (p.val % 16) + b2n rx))

/-! ### PCI Express function reset (R462, R469) -/

/-- The messages that wait for the host are discarded; a compute die is told aborted (R469). -/
def hostInboxCleared (s : State) : State :=
  let s1 := (fins 16).foldl (fun t c =>
    if (t.mbx.f2h[c]).go then
      nextReply c (logEvent clsReported blkMBX 0x0102 (rxInst (.f2h c)) (onF2h c (fun r => { r with go := false, timer := none, msg := {} }) t))
    else onF2h c (fun r => { r with msg := {} }) t) s
  let s2 := diesAborted false s1
  let clear (r : RxChan) : RxChan := if r.go then r else { r with msg := {} }
  { s2 with mbx := { s2.mbx with d2h := s2.mbx.d2h.map fun v => v.map clear } }

/-- A channel of the host towards a compute die after a function reset: a message of the firmware in it stays, one of the host's that was
delivered stays at the compute die, its responses to be discarded (R469). -/
def h2dCleared (h : TxChan) : TxChan :=
  let own := h.go && h.msg.sender == 1
  { go := h.go && !own, msg := if own then {} else h.msg, timer := if own then none else h.timer, acked := h.acked && !own
    oldDue := h.oldDue + b2n (own && !h.acked), oldHeld := h.oldHeld || (own && h.acked) }

/-- The host-side state of the mailboxes, doorbells and locks (R462): every host-side CTRL, the staging words and the masks. -/
def hostSideCleared (s : State) : State :=
  { s with
    mbx := { s.mbx with
      h2f := Vector.replicate 16 {}, h2d := s.mbx.h2d.map fun v => v.map h2dCleared
      rxMask := 0, txMask := 0 }
    dbl := { s.dbl with host := 0, hostMask := 0, event := 0, mask := 0 }
    lck := { owner := s.lck.owner.map fun o => if o = 2 then 0 else o } }

/-- An update opened over PCI Express closes (R462). -/
def pcieUpdateClosed (s : State) : State :=
  match s.mgt.update with
  | some u => if u.path = .pcie then onMgt (fun m => { m with update := none }) s else s
  | none => s

/-- PCIE_FUNCTION_RESET: a hot reset, a link down and an FLR do the same (R462). -/
def functionReset (s : State) : State :=
  let s1 := hostSideCleared (hostInboxCleared s)
  let s2 := pcieUpdateClosed (imgAbortCore (applyDue s1))
  { s2 with
    host := { s2.host with
      d3hot := false, msixEnable := false, msixFmask := false, vec := Vector.replicate 64 {}, pend := 0, was := 0, cfg := {}, aer := [] }
    dev := { s2.dev with scratch := 0 }
    hbm := { s2.hbm with base := 0 } }

/-- PCIE_FUNCTION_RESET. -/
def execPcieFunctionReset (_k : FnReset) (s : State) : Host.Outcome State Fault Refusal := run functionReset s

/-! ### Penumbra, comb groups and stacks (R487, R489, R399) -/

/-- Answers every held DEV_PENUMBRA with OK (R493, R494). -/
def penumbraReplies (s : State) : State :=
  let l := s.img.penumbra
  l.foldl (fun t e => imgReply cDevPenumbra e.1 stOK [] t) { s with img := { s.img with penumbra := [] } }

/-- PENUMBRA_ENTRY: from Umbra on the way up, once the firmware is ready; the stacks start training and a held DEV_PENUMBRA is answered
(R487, R494). -/
def penumbraEntry (s : State) : State :=
  if s.dev.state ≠ .umbra ∨ s.dev.fatal ∨ s.dev.tripped ∨ s.mgt.fwState ≠ fwRunning then s
  else
    let s1 := pwrSettle (fun t => onPwr (fun p => { p with limits := loggedLimits s }) t) (setDev .penumbra s)
    penumbraReplies (setStack 1 1 0 (setStack 0 1 0 s1))

/-- PENUMBRA_ENTRY. -/
def execPenumbraEntry (s : State) : Host.Outcome State Fault Refusal := run penumbraEntry s

/-- Gain current of a die heated to its standby state, µA (Table 10.1). -/
def standbyGain : Nat := 100000

/-- The position whose die a planned swap has taken out of service for good (R315). -/
def swappedPos (s : State) (g : CombGroup) : Option (Fin 4) := (fins 4).find? fun k => s.mgt.swappedOut.getLsbD (4 * g.val + k.val)

/-- A die at the start of its group: D4 goes to standby at 45 °C, D0 to D3 ramp to their logged or factory current; a die swapped out stays so,
and D4 ramps in its place (R489, R315, Table 10.1). -/
def dieStart (s : State) (g : CombGroup) (d : CombDie) (y : Die) : Die :=
  let out := swappedPos s g
  if y.state ≠ .off then y
  else if (out.map fun k => decide (k.val = d.val)).getD false then { y with state := .swappedOut, hours := loggedHours s g d }
  else if d.val = 4 ∧ out = none then { y with state := .standby, current := standbyGain, set8 := 360, hours := loggedHours s g d }
  else { y with state := .warming, current := loggedGain s g d, hours := loggedHours s g d }

/-- A group's turn has come: 8.5 s after the start of the one before it (R489). -/
def groupTurn (g : CombGroup) (s : State) : Bool :=
  g.val == 0 || ((s.comb.group[fin! 4 (g.val - 1)]).started.map fun t => decide (t + 8500000 ≤ s.time)).getD false

/-- COMB_GROUP_START (R489). -/
def combGroupStart (g : CombGroup) (s : State) : State :=
  let q := s.comb.group[g]
  if s.dev.state = .umbra ∨ q.started.isSome ∨ groupTurn g s = false then s
  else onGroup g (fun q => { q with
    started := some s.time, spareAt := q.spareAt <|> swappedPos s g
    die := vmk 5 fun d => dieStart s g d q.die[d] }) s

/-- COMB_GROUP_START. -/
def execCombGroupStart (g : CombGroup) (s : State) : Host.Outcome State Fault Refusal := run (combGroupStart g) s

/-- COMB_LOCK_TIMEOUT: the die of a position that has not locked within 20 s of its group's start is declared failed (R489). -/
def combLockTimeout (g : CombGroup) (d : Fin 4) (s : State) : State :=
  let k := fedBy (s.comb.group[g]) d
  if (s.comb.group[g]).started.isSome && ((s.comb.group[g]).die[k]).state == .warming then dieFails g k s else s

/-- COMB_LOCK_TIMEOUT. -/
def execCombLockTimeout (g : CombGroup) (d : Fin 4) (s : State) : Host.Outcome State Fault Refusal := run (combLockTimeout g d) s

/-- Codes of HBM_STATUS.rate (Table 13.7). -/
def rateCode : HbmRate → BitVec 2
  | .r64 => 1
  | .r80 => 2
  | .r100 => 3

/-- STACK_TRAINING_DONE: Ready at the rate that every channel passes, or Failed (R399, R408). -/
def stackTrained (h : Stack) (r : Option HbmRate) (s : State) : State :=
  if (s.hbm.stack[h]).state ≠ 1 then s
  else match r with
    | some x => setStack h stReady (rateCode x) s
    | none => stackFail h s

/-- STACK_TRAINING_DONE. -/
def execStackTrainingDone (h : Stack) (r : Option HbmRate) (s : State) : Host.Outcome State Fault Refusal := run (stackTrained h r) s

/-! ### The full commit (R92, Tables 3.17, 3.18, 4.9) -/

/-- The plan_id that the slot directory gives a slot; the switch slot is empty (R79, R211). -/
def dirId (i : Image) (k : Fin 129) : Option (BitVec 16) :=
  (i.slotDir[k.val]?).bind fun d => if d.1 = 0xFFFF ∨ k.val = 128 then none else some d.1

/-- The slots as the slot directory fills them (R79). -/
def slotsOf (i : Image) : Vector PlanSlot 129 := vmk 129 fun k => (dirId i k).elim {} fun d => { state := 1, planId := d }

/-- The plan store that the slot directory fills (R79, R211). -/
def storeOf (i : Image) : Vector (Option PlanRec) 129 := vmk 129 fun k => (dirId i k).bind fun d => i.plans.find? fun r => r.planId == d

/-- A full commit loads a sequencer's stores from the image (R80, R92, R99). -/
def loadStores (i : Image) (q : SqUnitSt) : SqUnitSt :=
  { q with program := i.program, window := Vector.replicate 32 none, plans := storeOf i }

/-- A region is zero-filled at commit, which also ends the poison of its whole words (R81). -/
def zeroRegion (s : State) (r : RegionRec) : State :=
  if r.init ≠ 1 then s
  else { s with hbm := { s.hbm with
    mem := s.hbm.mem.clear (regionBase r) r.length
    poison := s.hbm.poison.filter fun w => !(decide (regionBase r ≤ 16 * w) && decide (16 * w + 16 ≤ regionBase r + r.length)) } }

/-- The regions are initialised as RESMAP declares (R81, R92). -/
def regionsInit (i : Image) (s : State) : State := copyResdata i i.resdata (i.regions.foldl zeroRegion s)

/-- A unit in the first row of the full-commit transition of Table 4.9. -/
def commitFits (c : UnitState) : Bool := c == .active || c == .inSync || c == .stale || c == .resyncing

/-- The state of a unit after a full commit (Table 4.9): a unit of the first row becomes active if it is the primary, or if the primary is in none
of these states. -/
def commitState (q : Sq) (u : Fin 2) : UnitState :=
  let c := (q.unit[u]).state
  if commitFits c then (if u == q.primary || !commitFits (q.unit[q.primary]).state then .active else .inSync) else c

/-- Both units after a full commit. -/
def commitUnits (q : Sq) : Vector SqUnitSt 2 :=
  vmk 2 fun u => { q.unit[u] with failCount := 0, strikes := 0, confirmed := none, pending := none, state := commitState q u }

/-- A unit of a pair is active. -/
def activeUnit (v : Vector SqUnitSt 2) : Option (Fin 2) := (fins 2).find? fun u => v[u].state == .active

/-- The sequencers at a full commit: both stores loaded alike, SQ_ITER and fail counts 0. The state epoch increases on each change of a row. -/
def sqCommit (s : State) : State :=
  let u := commitUnits s.sq
  let n := ((fins 2).filter fun k => (u[k]).state != (s.sq.unit[k]).state).length
  { s with sq := { s.sq with
    unit := u, active := (activeUnit u).getD s.sq.active, epoch := s.sq.epoch + BitVec.ofNat 16 n
    sent := none, fence := none, ackDue := false, takebackNow := false, copied := false } }

/-- The control root at a full commit: epoch 0, empty token banks and send records, run-ahead off, no arming (R92, R97, R105). Without an active
unit the phase state is Idle (Table 4.9). -/
def ctlCommit (s : State) : Ctl :=
  { (dropPhase s.ctl) with
    epoch := 0, serial := 0, iter := 0, attempt := 0, phaseId := s.ctl.phaseId, bank := [], nextBank := [], nextEpoch := 1
    notifyGen := [], sendRec := [], runAhead := false, arm := none, newEntry := false, applied := false, fetches := []
    phase := if (activeUnit s.sq.unit).isNone then 0 else s.ctl.phase }

/-- A site at a full commit: Reset to train under the new STRUCTURE, or Off (Tables 11.6, 12.10). -/
def siteCommit (s : State) (x : SiteIx) : State :=
  let s1 := onSite x (fun q => { q with counters := Vector.replicate 16 0, pad := (siteRec s x).pad }) s
  if (siteRec s x).use then siteReset x s1
  else
    let s2 := reachForget x (wideForget x (setSite x 0 s1))
    onSite x (fun q => { siteIdle q with rstn := true, reason := 0, hold := false, settled := 0, partnerHigh := 0 }) s2

/-- Counters of modules and lanes that count since the last full commit are 0 (Tables 11.17, 12.17); it ends Test, so no checker is locked
(Table 12.10). -/
def laneCountersClear (s : State) : State :=
  { s with
    wide := s.wide.map fun w => { mods := w.mods.map fun m => { m with counters := Vector.replicate 8 0 } }
    reach := s.reach.map fun r => { r with
      uncorr := Vector.replicate 8 0, lanes := r.lanes.map fun l => { l with counters := Vector.replicate 4 0 } }
    siteReg := { s.siteReg with patLocked := 0 } }

/-- A port that is in service or trains starts its training again, from step 2, or from step 1 when it had not passed it (Table 8.10). -/
def trainAgain (p : Port) (s : State) : State :=
  let q := s.port[p]
  if portUp q then retrainPort p 2 s
  else if q.state = 2 then trainPort p (if q.step.toNat ≤ 1 then 1 else 2) s
  else s

/-- A port at a full commit: it trains under the new STRUCTURE, or stays Dark when it is unconnected (R92, Table 8.10). -/
def portCommit (s : State) (p : Port) : State :=
  let s1 := onPort p (fun q => { q with
    counters := Vector.replicate 2 0, peak := 0, lastFail := 0, block := none, switchQ := [], dimmed := 0
    line := q.line.map fun l => { l with counters := Vector.replicate 3 0, phase := none } }) s
  if (portRec s p).place = 0xFFFFFFFF then
    (if (s.port[p]).state = 0 then onPort p (fun q => { q with reason := darkReason q 5, probing := false, probeLight := false, probes := 0, shutter := .closed }) s1 else portDark p 5 s1)
  else trainAgain p s1

/-- A planned swap starts at a full commit for a die whose bias is at its limit, when D4 stands by (R315). -/
def swapsDue (s : State) : State :=
  let due (q : CGroup) (k : Fin 4) : Bool :=
    let y := q.die[fin! 5 k.val]
    y.state == .active && decide (1600000 ≤ y.current) && q.task == none && q.spareAt == none && (q.die[(4 : Fin 5)]).state == .standby
  (fins 4).foldl (fun (t : State) (g : CombGroup) => (fins 4).foldl (fun u k => if due (u.comb.group[g]) k then swapStart g k u else u) t) s

/-- Logged weak rows are repaired at a full commit (R407). -/
def rowsRepaired (s : State) : State :=
  { s with hbm := { s.hbm with rows := s.hbm.rows.filter fun r => !(decide (r.1 ∈ s.mgt.weakRows)) } }

/-- What every full commit does once the sections are in place (R92). -/
def commitApply (i : Image) (s : State) : State :=
  let s1 := endEcho { s with
    img := { s.img with image := some i, pending := none, committing := false, written := [], startDue := true }
    dev := { s.dev with litEntry := false }
    pln := { s.pln with
      slots := slotsOf i, epoch := s.pln.epoch + 1, switches := 0, foreign := 0, acquire := 0, inForce := 0xFFFF }
    beam := vmk 256 fun b => { state := if (nth i.beams b.val {}).valid then 1 else 0 }
    pwr := { s.pwr with hints := [], start := some i.power.opStart }
    ce := { s.ce with
      parkedAt := [], disp := [], lists := [], sums := [], overAt := [], queue := [], window := [], area := none, written := [], pend := {}
      bias := [], epoch := s.ce.epoch + 1, parked := 0, parkTotal := 0, raCommit := 0, raCancel := 0, parkHigh := false } }
  let s2 := sqCommit (bothStores (loadStores i) (rowsRepaired (regionsInit i s1)))
  let s3 := laneCountersClear { s2 with ctl := ctlCommit s2 }
  let s4 := (fins 64).foldl portCommit ((fins 6).foldl siteCommit s3)
  pwrSettle (fun s => s) (swapsDue s4)

/-- FULL_COMMIT_COMPLETE: the mode 0 reply; an uncorrectable word met on the way stops the commit with DIGEST and the image discarded
(R92, Table 13.4). -/
def fullCommitDone (words : List (Nat × WordError)) (s0 : State) : State :=
  match s0.img.pending with
  | none => s0
  | some p =>
    let s := loadReads [(0, s0.img.size)] words s0
    let i := imageRead words p s
    if s0.img.committing = false then s0
    else if (poisonIn s loadBase s.img.size).isSome then
      imgReply cImgCommit s.img.tag stDigest [] (refusedImage stDigest
        { s with img := { discard s.img with committing := false, startDue := false }, ctl := { dropPhase s.ctl with phase := 10 } })
    else
      let s1 := imgReply cImgCommit s.img.tag stOK [] (commitApply i s)
      if imageConsistent i then s1 else freeWork s1

/-- FULL_COMMIT_COMPLETE. -/
def execFullCommitComplete (s : State) (words : List (Nat × WordError) := []) : Host.Outcome State Fault Refusal := run (fullCommitDone words) s

/-! ### Lit (R491) -/

/-- A port that STRUCTURE names is Up, Degraded or Dark. -/
def portsSettled (s : State) : Bool :=
  (fins 64).all fun p => (portRec s p).place == 0xFFFFFFFF || portUp (s.port[p]) || (s.port[p]).state == 0

/-- Every site in use is Active, Disabled or Contained. -/
def sitesSettled (s : State) : Bool :=
  (fins 6).all fun x => !(siteRec s x).use || (s.site[x]).state == siActive || (s.site[x]).state == siDisabled ||
    (s.site[x]).state == siContained

/-- Each stack is Ready, or Failed with no region on it. -/
def stacksSettled (s : State) : Bool :=
  (fins 2).all fun h => (s.hbm.stack[h]).state == stReady || ((s.hbm.stack[h]).state == stFailed && !regionOn s h)

/-- Every condition of R491 holds, after a full commit: only through one does the device leave Penumbra for Lit (chapter 17, R97). -/
def litReady (s : State) : Bool :=
  s.dev.state == .penumbra && !s.dev.litEntry && s.img.image.isSome && s.img.startDue && !s.img.committing &&
    s.comb.group.toList.all (fun g => g.locked || g.exhausted) && portsSettled s && sitesSettled s && stacksSettled s

/-- LIT_ENTRY_START: in parallel, ports retrain from step 2, Active sites at their full rate, and the plan in slot 0 comes into force. -/
def litStart (s : State) : State :=
  if litReady s = false then s
  else
    let s1 := { s with dev := { s.dev with litEntry := true } }
    let s2 := match planIn s1 0 with
      | some r => planInstall r s1
      | none => s1
    let s3 := (fins 64).foldl (fun t p => retrainPort p 2 t) s2
    (fins 6).foldl (fun t x => if (t.site[x]).state = siActive then siteReset x t else t) s3

/-- LIT_ENTRY_START. -/
def execLitEntryStart (s : State) : Host.Outcome State Fault Refusal := run litStart s

/-- Nothing trains any more: no port in Training, no site in use in Reset or Training but a held one. -/
def litTrained (s : State) : Bool :=
  (fins 64).all (fun p => (s.port[p]).state != 2) &&
    (fins 6).all fun x => !((siteRec s x).use && !(s.site[x]).hold && ((s.site[x]).state == siReset || (s.site[x]).state == siTraining))

/-- The "full commit complete" transition of Table 4.6: from Idle, Stopped or Ended to Between at the SCHEDULE entry, with the resume notice
of epoch 0. With no active unit the phase state stays Idle (Table 4.9). -/
def programStarts (s : State) : State :=
  let ph := s.ctl.phase
  if (ph = 0 ∨ ph = 9 ∨ ph = 10) ∧ (s.sq.unit[s.sq.active]).state = .active then
    let e := (s.img.image.map fun i : Image => i.entry.1).getD 0
    noticeAll 5 (mirrorNow { s with
      ctl := { s.ctl with phase := 1, epoch := 0, serial := 0, attempt := 0 }
      sq := { s.sq with unit := upd s.sq.unit s.sq.active fun u => { u with
        pc := BitVec.ofNat 16 e, lc := Vector.replicate 8 0, stack := [], v := Vector.replicate 16 0 } } })
  else s

/-! ### DEV_PENUMBRA (R93) -/

/-- The open Fetching state belongs to a phase: it waits for a plan. -/
def fetchInPhase (c : Ctl) : Bool := match c.fetching with
  | some (.plan _ _) => true
  | _ => false

/-- A phase is running: Waiting, Running, Sealing, or Fetching for its SWITCH. -/
def phaseRuns (c : Ctl) : Bool := c.phase == 2 || c.phase == 4 || c.phase == 5 || (c.phase == 3 && fetchInPhase c)

/-- The count of a slot's expected generation in the current bank (R103). -/
def slotCount (c : Ctl) (k : Nat) : Nat := ((aget c.bank k).map fun t => nth t.counts 0 0).getD 0

/-- A WAIT is met. -/
def waitMet (c : Ctl) (w : WaitCond) : Bool := decide (w.count ≤ slotCount c w.slot)

/-- The running phase waits at a watchdog-exempt WAIT. -/
def exemptWait (c : Ctl) : Bool := c.phase == 2 && c.waits.any fun w => w.exempt && !waitMet c w

/-- The held DEV_PENUMBRA acts with parameter 1. -/
def penumbraAtOnce (s : State) : Bool := s.img.penumbra.any (fun e => e.2 == 1) || exemptWait s.ctl

/-- The held DEV_PENUMBRA takes effect now: in Lit, with no takeover and no replacement copy under way. -/
def penumbraDue (s : State) : Bool :=
  s.dev.state == .lit && !s.img.penumbra.isEmpty && s.sq.fence.isNone && !s.img.copying && s.ctl.phase != 8 &&
    (penumbraAtOnce s || !phaseRuns s.ctl)

/-- An arming is withdrawn with ABORTED and its record cleared; the pending image stays Verified (Table 3.17). -/
def withdrawArm (s : State) : State :=
  if s.img.state = .armed then
    imgReply cImgCommit s.img.tag stAborted10 [] { s with img := { s.img with state := .verified }, ctl := clearArm s.ctl }
  else s

/-- The sequencer stops (R93): Stopped but from Idle, any arming record cleared, the abort notice when an epoch is aborted. -/
def penumbraStop (s : State) : State :=
  let ab := penumbraAtOnce s && abortable s.ctl.phase
  let s1 := { s with
    ctl := { dropPhase s.ctl with phase := if s.ctl.phase = 0 then 0 else 9, arm := none, newEntry := false, applied := false }
    ce := { s.ce with pend := {}, queue := [], window := [], area := none }
    beam := s.beam.map (dropUnsent (s.ctl.serial + 1))
    sq := { s.sq with sent := none, ackDue := false } }
  if ab then noticeAll 6 s1 else s1

/-- DEV_PENUMBRA takes effect (R93, R493): the sequencer stops, the plan is withdrawn, ports fall to the Penumbra rate, sites retrain. -/
def penumbraEffect (s : State) : State :=
  let s1 := (fins 6).foldl (fun t x => lastTokens x t) (penumbraStop (withdrawArm s))
  let s2 := setDev .penumbra (planWithdraw s1)
  let s3 := (fins 64).foldl (fun t p => trainAgain p t) s2
  let s4 := (fins 6).foldl (fun t x =>
    let c := (t.site[x]).state
    if (siteRec t x).use && (c == siReset || c == siTraining || c == siActive || c == siRepair) then siteReset x t else t) s3
  penumbraReplies (pwrSettle (fun s => s) s4)

/-- A held DEV_PENUMBRA takes effect when it may. -/
def penumbraCheck (s : State) : State := if penumbraDue s then penumbraEffect s else s

/-- After a change from `s` to `t` that ends, holds or aborts the program, or ends a replacement copy, a held DEV_PENUMBRA takes effect at
once (R93). -/
def stopAfter (s t : State) : State :=
  if t.ctl.phase ≠ s.ctl.phase ∨ t.img.copying ≠ s.img.copying then penumbraCheck t else t

/-- `f`, and the stop that it may bring (R93). -/
def stopping (f : State → State) (s : State) : State := stopAfter s (f s)

/-- DEV_PENUMBRA arrives: answered at once in Penumbra, held in Umbra and during Lit entry, otherwise it stops the sequencer (R93, R487, R494). -/
def penumbraCmd (m : Msg) (s : State) : State :=
  let e := (mtag m, mword m 1)
  let hold (s : State) : State := { s with img := { s.img with penumbra := s.img.penumbra ++ [e] } }
  if 2 ≤ e.2 then imgReply cDevPenumbra e.1 stUnknown [] s
  else match s.dev.state with
    | .umbra => hold s
    | .penumbra => if s.dev.litEntry then hold s else
        let s1 := withdrawArm s
        imgReply cDevPenumbra e.1 stOK [] { s1 with ctl := { s1.ctl with arm := none } }
    | .lit => penumbraCheck (hold (withdrawArm s))

/-- DEV_PENUMBRA; the firmware takes it in Umbra too (R494). -/
def execDevPenumbra (s : State) : Host.Outcome State Fault Refusal :=
  run (fun s => match imgWaiting s with
    | some m => if s.mgt.fwState = fwRunning ∧ mcode m = cDevPenumbra then penumbraCmd m (mbxTaken (.h2f 0) (applyDue s)) else s
    | none => s) s

/-- DEV_PENUMBRA_TIMEOUT: from phase_watchdog_us after its arrival, parameter 0 acts as parameter 1 (R93). -/
def penumbraTimeout (s : State) : State :=
  if s.dev.state = .lit then
    penumbraCheck { s with img := { s.img with penumbra := s.img.penumbra.map fun e => (e.1, 1) } }
  else s

/-- DEV_PENUMBRA_TIMEOUT. -/
def execDevPenumbraTimeout (s : State) : Host.Outcome State Fault Refusal := run penumbraTimeout s

/-- LIT_ENTRY_COMPLETE: the retrains are done; the device is in Lit, phase memory is trained, an Echo of mode 2 ends, the program starts
(R491). A DEV_PENUMBRA that came meanwhile applies then (Table 17.7). -/
def litComplete (s : State) : State :=
  if s.dev.litEntry = false ∨ litTrained s = false ∨ s.img.committing then s
  else
    let s0 := if s.err.echo.mode = 2 then endEcho s else s
    let s1 := setDev .lit { s0 with
      dev := { s0.dev with litEntry := false }
      img := { s0.img with startDue := false } }
    penumbraCheck (programStarts (pwrSettle (fun s => s) s1))

/-- LIT_ENTRY_COMPLETE. -/
def execLitEntryComplete (s : State) : Host.Outcome State Fault Refusal := run litComplete s

end Sys2Proof.Machine
end

