-- ==== Sys2Proof/Machine/Buffers.lean ====
section
/-!
DEFINITION. Buffers (R134): what a handle names, and reading and writing staging SRAM, Reservoir regions and die streams through it.
-/

namespace Sys2Proof.Machine

/-- What a buffer handle names (Table 5.3): a staging address, a Reservoir address, or a die stream with its offset. -/
inductive Loc where
  | staging (a : Nat)
  | hbm (a : Nat)
  | die (x : SiteIx) (stream off : Nat)
  deriving DecidableEq, Repr

/-- Bytes of staging SRAM in a cluster (Table 2.6). -/
def stagingBytes : Nat := 6 * 2 ^ 20

/-- The handle "none". -/
def noHandle : Nat := 0xFFFFFFFF

/-- The unit of a Reservoir-region handle: the smallest power of two from 4 KiB on for which 2^20 units cover the region (R134). -/
def regionUnit (len : Nat) : Nat := ((List.range 16).find? fun i => decide (len ≤ 2 ^ (32 + i))).elim (2 ^ 28) fun i => 2 ^ (12 + i)

/-- What `n` bytes from byte `off` of a handle's buffer are; none when the handle is reserved, names no region, or runs past its space. -/
def bufLoc (s : State) (h off n : Nat) : Option Loc :=
  let space := h / 2 ^ 28
  if h = noHandle then none
  else if space = 0 then
    let c := h / 2 ^ 24 % 16
    let o := 64 * (h % 2 ^ 24) + off
    if o + n ≤ stagingBytes then some (.staging (c * 2 ^ 23 + o)) else none
  else if space = 1 then
    match ((s.img.image.map fun i : Image => i.regions).getD []).find? fun r => r.id == h / 2 ^ 20 % 256 with
    | some r =>
      let o := regionUnit r.length * (h % 2 ^ 20) + off
      if o + n ≤ r.length then some (.hbm (regionBase r + o)) else none
    | none => none
  else if space = 2 then
    let x := h / 2 ^ 25 % 8
    if hx : x < 6 then some (.die ⟨x, hx⟩ (h / 2 ^ 16 % 512) (h % 2 ^ 16)) else none
  else none

/-- Bytes of staging SRAM or the Reservoir at a place; a die stream has none. -/
def locRead (s : State) (l : Loc) (n : Nat) : List Byte :=
  match l with
  | .staging a => s.ce.staging.readN a n
  | .hbm a => s.hbm.mem.readN a n
  | .die _ _ _ => []

/-- `n` bytes read at a place: counted when they lie in the Reservoir (Table 13.11). -/
def countRead (l : Loc) (n : Nat) (s : State) : State :=
  match l with
  | .hbm a => hbmCount (stackOf a) 3 n s
  | _ => s

/-- The first poisoned word among `n` bytes at a place. -/
def locPoison (s : State) (l : Loc) (n : Nat) : Option Nat :=
  match l with
  | .hbm a => poisonIn s a n
  | _ => none

/-- A range that a committed phase wrote, as `Ce.written` holds it. -/
def locRange (l : Loc) (n : Nat) : List (Nat × Nat) :=
  match l with
  | .staging a => [(2 ^ 40 + a, n)]
  | .hbm a => [(a, n)]
  | .die _ _ _ => []

/-- Committed phases have written all of `n` bytes at a place (R110). -/
def locWritten (s : State) (l : Loc) (n : Nat) : Bool :=
  (locRange l n).all fun r => covered s.ce.written (s.ce.written.length + 1) r.1 (r.1 + r.2)

/-- Notes a written range once. -/
def noteWritten (l : Loc) (n : Nat) (s : State) : State :=
  { s with ce := { s.ce with written := (locRange l n).foldl (fun w r => if w.contains r then w else r :: w) s.ce.written } }

/-- Stores bytes at a place of staging SRAM or the Reservoir. -/
def locWrite (l : Loc) (data : List Byte) (s : State) : State :=
  match l with
  | .staging a => noteWritten l data.length { s with ce := { s.ce with staging := s.ce.staging.writeN a data } }
  | .hbm a => noteWritten l data.length (hbmWrite a data s)
  | .die _ _ _ => s

/-! ### Transfers to and from compute dies (R355) -/

/-- The transfer that a die-stream handle names, if it has arrived whole. -/
def transferAt (s : State) (x : SiteIx) (stream off : Nat) : Option Transfer :=
  (s.site[x]).inbound.find? fun t => t.stream == stream && t.offset == off

/-- Frees the frames that the first transfer with a stream and offset holds, whole or still arriving. -/
def freeNamed (x : SiteIx) (stream off : Nat) (s : State) : State :=
  match transferAt s x stream off with
  | some t =>
    freeFrames x stream t.frames (onSite x (fun q => { q with inbound := q.inbound.map fun u => if u = t then { u with frames := 0 } else u }) s)
  | none =>
    match (aget (s.site[x]).rx stream).bind (·.opened) with
    | some t =>
      if t.offset = off then
        freeFrames x stream t.frames (onSite x (fun q => { q with rx := onStream q.rx stream fun e =>
          { e with opened := some { t with frames := 0 } } }) s)
      else s
    | none => s

/-- An operation names a transfer: from now on its frames leave the buffer as they come (R355, R356). -/
def nameTransfer (x : SiteIx) (stream off : Nat) (s : State) : State :=
  if s.ctl.named.contains (x.val, stream, off) then s
  else freeNamed x stream off { s with ctl := { s.ctl with named := (x.val, stream, off) :: s.ctl.named } }

/-- Removes the first transfer of a list with a stream and offset. -/
def dropTransfer (stream off : Nat) : List Transfer → List Transfer
  | [] => []
  | t :: r => if t.stream = stream ∧ t.offset = off then r else t :: dropTransfer stream off r

/-- The transfers that the phase's operations have named leave the sites at its commit. -/
def takeNamed (s : State) : State :=
  s.ctl.named.foldl (fun t k => onSite (fin! 6 k.1) (fun q => { q with inbound := dropTransfer k.2.1 k.2.2 q.inbound }) t) s

/-- At the commit of an epoch barrier, the transfers that no operation has named are discarded, counted and reported (R355). -/
def dropUnnamed (s : State) : State :=
  (fins 6).foldl (fun t x =>
    (t.site[x]).inbound.foldl (fun u r =>
      let c : Fin 16 := if x.val < 4 then 9 else 7
      flag (siteBlk x) (siteInst x) 8 (freeFrames x r.stream r.frames (onSite x (fun q => { q with
        inbound := dropTransfer r.stream r.offset q.inbound, counters := upd q.counters c (· + 1) }) u))) t) s

/-- A transfer of a die-stream handle would run past its stream's window at the compute die, or the stream is not bound. -/
def pastWindow (s : State) (x : SiteIx) (stream off n : Nat) : Bool :=
  match aget (s.site[x]).tx stream with
  | some e => decide (e.window < 4096 * off + n)
  | none => true

/-- Queues one transfer to a compute die. -/
def queueTransfer (x : SiteIx) (stream off : Nat) (data : List Byte) (s : State) : State :=
  onSite x (fun q => { q with
    nextId := q.nextId + 1
    tx := onStream q.tx stream fun e => { e with queue := e.queue ++
      [{ stream := stream, offset := off, length := data.length, data := data, frames := 0, id := q.nextId }] } }) s

/-! ### Outputs (R51) -/

/-- The bytes between pieces of one die-stream output that no piece writes: any values. -/
def gapBytes (n seed : Nat) : List Byte := leBytes n (Config.freeValue (8 * n) seed).toNat

/-- Lays pieces of a buffer, each an offset and its bytes, over a run of bytes that starts at `lo`. -/
def layPieces (lo : Nat) (base : List Byte) (ps : List (Nat × List Byte)) : List Byte :=
  ps.foldl (fun b p => b.take (p.1 - lo) ++ p.2 ++ b.drop (p.1 - lo + p.2.length)) base

/-- The outputs of one die-stream handle go as one transfer, from the lowest 4 KiB boundary that a piece touches (R355). -/
def sendPieces (h : Nat) (ps : List (Nat × List Byte)) (s : State) : State :=
  match bufLoc s h 0 0 with
  | some (.die x stream off) =>
    let lo := ps.foldl (fun m p => min m (p.1 / 4096 * 4096)) ((ps.head?.map (·.1)).getD 0)
    let hi := ps.foldl (fun m p => max m (p.1 + p.2.length)) lo
    let data := layPieces lo (gapBytes (hi - lo) s.fresh) ps
    if hi = lo then s else queueTransfer x stream (off + lo / 4096) data { s with fresh := s.fresh + 1 }
  | _ => s

/-- A handle names a die stream. -/
def isDie (h : Nat) : Bool := h / 2 ^ 28 == 2

/-- Every output of the phase becomes visible. -/
def applyOutputs (s : State) : State :=
  let o := s.ctl.outputs
  let s1 := (o.filter fun e => !isDie e.1).foldl (fun t e =>
    match bufLoc t e.1 e.2.1 e.2.2.length with
    | some l => locWrite l e.2.2 t
    | none => t) s
  ((o.filter fun e => isDie e.1).map (·.1)).dedup.foldl (fun t h => sendPieces h ((o.filter fun e => e.1 == h).map (·.2)) t) s1

end Sys2Proof.Machine
end

