-- ==== Sys2Proof/Machine/Arith.lean ====
section
/-!
DEFINITION. Number formats and arithmetic (chapter 6): exact values, the formats of Table 5.4, conversion with rounding and saturation, packing
of rows, FP32 sums and products.
-/

namespace Sys2Proof.Machine

/-- A value: NaN, an infinity, or (−1)^neg × m × 2^e exactly. -/
inductive FV where
  | nan
  | inf (neg : Bool)
  | num (neg : Bool) (m : Nat) (e : Int)
  deriving DecidableEq, Repr, Inhabited

/-- +0 -/
def FV.zero : FV := .num false 0 0

/-- A value is a zero. -/
def FV.isZero : FV → Bool
  | .num _ m _ => m == 0
  | _ => false

/-- A value is NaN. -/
def FV.isNan : FV → Bool
  | .nan => true
  | _ => false

/-- A value is an infinity. -/
def FV.isInf : FV → Bool
  | .inf _ => true
  | _ => false

/-- ⌊log₂ |v|⌋ of a value, none of a zero, an infinity or a NaN. -/
def FV.log : FV → Option Int
  | .num _ m e => if m = 0 then none else some (e + m.log2)
  | _ => none

/-- The sign bit of a value. -/
def FV.neg : FV → Bool
  | .nan => false
  | .inf n => n
  | .num n _ _ => n

/-- An integer times a power of two, 0 being +0 (R175). -/
def ofInt (n : Int) (e : Int) : FV := .num (decide (n < 0)) n.natAbs e

/-- The integer of a finite value at a scale no coarser than its own. -/
def scaled (e0 : Int) (neg : Bool) (m : Nat) (e : Int) : Int :=
  let k : Int := ((m * 2 ^ (e - e0).toNat : Nat) : Int)
  if neg then -k else k

/-! ### Rounding and floating-point formats (R167, R168, R173, R174) -/

/-- m × 2^d rounded to an integer, to nearest with ties to even. -/
def roundShift (m : Nat) (d : Int) : Nat :=
  if 0 ≤ d then m * 2 ^ d.toNat
  else
    let k := (-d).toNat
    let q := m / 2 ^ k
    let r := m % 2 ^ k
    if 2 ^ k < 2 * r ∨ (2 * r = 2 ^ k ∧ q % 2 = 1) then q + 1 else q

/-- A floating-point format (Table 6.1): exponent and mantissa bits, bias, whether it codes infinity and NaN as IEEE 754, its largest finite
code, and its NaN code when it has one (Table 6.3). -/
structure FFmt where
  /-- Exponent bits -/
  eb : Nat
  /-- Mantissa bits -/
  mb : Nat
  /-- Bias -/
  bias : Nat
  /-- Infinity and NaN as IEEE 754 -/
  ieee : Bool
  /-- Largest finite code without sign -/
  top : Nat
  /-- Canonical NaN code -/
  nan : Option Nat
  deriving DecidableEq, Repr

/-- FP32 -/
def fp32 : FFmt := ⟨8, 23, 127, true, 0x7F7FFFFF, some 0x7FC00000⟩
/-- BF16 -/
def bf16 : FFmt := ⟨8, 7, 127, true, 0x7F7F, some 0x7FC0⟩
/-- FP16 -/
def fp16 : FFmt := ⟨5, 10, 15, true, 0x7BFF, some 0x7E00⟩
/-- E4M3 -/
def e4m3 : FFmt := ⟨4, 3, 7, false, 0x7E, some 0x7F⟩
/-- E5M2 -/
def e5m2 : FFmt := ⟨5, 2, 15, true, 0x7B, some 0x7E⟩
/-- E3M2 -/
def e3m2 : FFmt := ⟨3, 2, 3, false, 0x1F, none⟩
/-- E2M3 -/
def e2m3 : FFmt := ⟨2, 3, 1, false, 0x1F, none⟩
/-- E2M1 -/
def e2m1 : FFmt := ⟨2, 1, 1, false, 0x7, none⟩

/-- Bits of a format below its sign. -/
def FFmt.body (f : FFmt) : Nat := f.eb + f.mb

/-- The value of a code (R167, R168). -/
def FFmt.decode (f : FFmt) (code : Nat) : FV :=
  let neg := code / 2 ^ f.body % 2 == 1
  let x := code % 2 ^ f.body
  let ex := x / 2 ^ f.mb
  let m := x % 2 ^ f.mb
  if f.ieee ∧ ex = 2 ^ f.eb - 1 then (if m = 0 then .inf neg else .nan)
  else if f.ieee = false ∧ f.nan = some x then .nan
  else if ex = 0 then .num neg m (1 - (f.bias : Int) - f.mb)
  else .num neg (2 ^ f.mb + m) ((ex : Int) - f.bias - f.mb)

/-- The magnitude code nearest to m × 2^e, ties to even; it may lie past the largest finite code. -/
def FFmt.round (f : FFmt) (m : Nat) (e : Int) : Nat :=
  if m = 0 then 0
  else
    let ex : Int := max (e + m.log2) (1 - (f.bias : Int))
    roundShift m (e - (ex - f.mb)) + ((ex + f.bias - 1).toNat) * 2 ^ f.mb

/-- The sign bit of a format. -/
def FFmt.sign (f : FFmt) (neg : Bool) : Nat := if neg then 2 ^ f.body else 0

/-- The code of infinity. -/
def FFmt.infCode (f : FFmt) : Nat := (2 ^ f.eb - 1) * 2 ^ f.mb

/-- A value converted into a format (R173, R174, Table 6.3): FP32, BF16 and FP16 overflow to infinity, E5M2 and E4M3 saturate. -/
def FFmt.encode (f : FFmt) (v : FV) : Nat :=
  match v with
  | .nan => f.nan.getD 0
  | .inf n => f.sign n + (if f.ieee then f.infCode else f.top)
  | .num n m e =>
    let c := f.round m e
    f.sign n + (if c ≤ f.top then c else if f.ieee ∧ f ≠ e5m2 then f.infCode else f.top)

/-! ### Format codes (Tables 5.4, 6.2) -/

/-- Element types. -/
inductive Elem where
  | flt (f : FFmt)
  | int (bytes : Nat)
  | mx (f : FFmt) (emax : Int)
  | mxint
  deriving DecidableEq, Repr

/-- The format of a code, none when it is reserved. -/
def fmtOf : Nat → Option Elem
  | 0x0 => some (.flt fp32)
  | 0x1 => some (.flt bf16)
  | 0x2 => some (.flt fp16)
  | 0x3 => some (.flt e4m3)
  | 0x4 => some (.flt e5m2)
  | 0x5 => some (.mx e4m3 8)
  | 0x6 => some (.mx e5m2 15)
  | 0x7 => some (.mx e2m3 2)
  | 0x8 => some (.mx e3m2 4)
  | 0x9 => some (.mx e2m1 2)
  | 0xA => some .mxint
  | 0xB => some (.int 1)
  | 0xC => some (.int 2)
  | 0xD => some (.int 4)
  | _ => none

/-- Bits of one element. -/
def Elem.bits : Elem → Nat
  | .flt f => f.body + 1
  | .int b => 8 * b
  | .mx f _ => f.body + 1
  | .mxint => 8

/-- A Microscaling format. -/
def Elem.isMx : Elem → Bool
  | .mx _ _ => true
  | .mxint => true
  | _ => false

/-- An integer format. -/
def Elem.isInt : Elem → Bool
  | .int _ => true
  | _ => false

/-- Bytes of a row of `n` elements (R172). -/
def rowBytes (f : Elem) (n : Nat) : Nat := f.bits * n / 8 + (if f.isMx then n / 32 else 0)

/-- A length rounded up to 64 bytes (R172). -/
def stride64 (n : Nat) : Nat := (n + 63) / 64 * 64

/-- Element code `i` of packed elements of `w` bits (R172). -/
def elemAt (b : List Byte) (w i : Nat) : Nat := leNat ((b.drop (w * i / 8)).take (w / 8 + 2)) / 2 ^ (w * i % 8) % 2 ^ w

/-- A value times a power of two. -/
def FV.scale (k : Int) : FV → FV
  | .num n m e => .num n m (e + k)
  | v => v

/-- The value of an element code under a block's scale code (R169 to R171). -/
def elemValue (f : Elem) (scale code : Nat) : FV :=
  match f with
  | .flt g => g.decode code
  | .int b => ofInt (sval (8 * b) code) 0
  | .mx g _ => if scale = 0xFF then .nan else (g.decode code).scale ((scale : Int) - 127)
  | .mxint => if scale = 0xFF then .nan else ofInt (sval 8 code) ((scale : Int) - 133)

/-- The values of a row of `n` elements (R172). -/
def decodeRow (f : Elem) (n : Nat) (b : List Byte) : List FV :=
  (List.range n).map fun i =>
    elemValue f (if f.isMx then (nth b (f.bits * n / 8 + i / 32) 0).toNat else 0) (elemAt b f.bits i)

/-- Packs codes of `w` bits, the first lowest (R172). -/
def packCodes (w : Nat) (l : List Nat) : List Byte :=
  leBytes (w * l.length / 8) (l.foldr (fun c n => c % 2 ^ w + 2 ^ w * n) 0)

/-- A value as a saturating integer of `n` bits, rounded to nearest even; NaN gives 0 (Table 6.3). -/
def intEncode (n : Nat) (v : FV) : Nat :=
  let top : Int := 2 ^ (n - 1) - 1
  match v with
  | .nan => 0
  | .inf s => sfield n (if s then -top - 1 else top)
  | .num s m e =>
    let k : Int := roundShift m e
    sfield n (max (-top - 1) (min top (if s then -k else k)))

/-- The scale code of a block (R176): all zeros give 0. -/
def mxScale (emax : Int) (vs : List FV) : Nat :=
  match vs.filterMap FV.log with
  | [] => 0
  | l :: r => (max (-127) (min 127 (r.foldl max l - emax)) + 127).toNat

/-- One block of an MX format: element codes and scale code. An infinity or NaN makes the whole block NaN (Table 6.3, R176). -/
def mxBlock (f : Elem) (vs : List FV) : List Nat × Nat :=
  let special := vs.any fun v => match v with
    | .num _ _ _ => false
    | _ => true
  if special then (vs.map fun _ => 0, 0xFF)
  else
    let x := mxScale (match f with
      | .mx _ m => m
      | _ => 0) vs
    let k : Int := 127 - (x : Int)
    (vs.map fun v => match f with
      | .mx g _ => (match v with
        | .num n m e => g.sign n + min g.top (g.round m (e + k))
        | _ => 0)
      | _ => intEncode 8 (v.scale (k + 6)), x)

/-- Rows of values converted into a format and packed (R172, R176). -/
def encodeRow (f : Elem) (vs : List FV) : List Byte :=
  match f with
  | .flt g => packCodes f.bits (vs.map g.encode)
  | .int b => packCodes f.bits (vs.map (intEncode (8 * b)))
  | _ =>
    let bs := (chunksOf 32 (vs.length / 32) vs).map (mxBlock f)
    packCodes f.bits (bs.flatMap (·.1)) ++ bs.map fun b => BitVec.ofNat 8 b.2

/-! ### Sums and products -/

/-- The exact product. -/
def FV.mul : FV → FV → FV
  | .nan, _ => .nan
  | _, .nan => .nan
  | .inf a, .inf b => .inf (a != b)
  | .inf a, .num b m _ => if m = 0 then .nan else .inf (a != b)
  | .num a m _, .inf b => if m = 0 then .nan else .inf (a != b)
  | .num a m e, .num b n f => .num (a != b) (m * n) (e + f)

/-- The exact sum with the signs of zeros as IEEE 754 gives them under round to nearest (R175). -/
def FV.add : FV → FV → FV
  | .nan, _ => .nan
  | _, .nan => .nan
  | .inf a, .inf b => if a = b then .inf a else .nan
  | .inf a, .num _ _ _ => .inf a
  | .num _ _ _, .inf b => .inf b
  | .num a m e, .num b n f =>
    if m = 0 ∧ n = 0 then .num (a && b) 0 0
    else ofInt (scaled (min e f) a m e + scaled (min e f) b n f) (min e f)

/-- The exact sum of a block's products, a zero being +0 (R175, R178). -/
def exactSum (l : List FV) : FV :=
  match l.foldl FV.add FV.zero with
  | .num n m e => if m = 0 then FV.zero else .num n m e
  | v => v

/-- A value rounded to FP32, as its bits. -/
def toF32 (v : FV) : Word := w32 (fp32.encode v)

/-- The value of FP32 bits. -/
def ofF32 (w : Word) : FV := fp32.decode w.toNat

/-- FP32 addition (R195). -/
def addF32 (a b : Word) : Word := toF32 ((ofF32 a).add (ofF32 b))

/-- FP32 multiplication, rounded once (R157). -/
def mulF32 (a b : Word) : Word := toF32 ((ofF32 a).mul (ofF32 b))

/-- A number is less than another; NaN is less than every number, and the zeros are equal (R141). -/
def FV.lt : FV → FV → Bool
  | .nan, .nan => false
  | .nan, _ => true
  | _, .nan => false
  | .inf a, .inf b => a && !b
  | .inf a, .num _ _ _ => a
  | .num _ _ _, .inf b => !b
  | .num a m e, .num b n f => decide (scaled (min e f) a m e < scaled (min e f) b n f)

end Sys2Proof.Machine
end

