-- ==== Sys2Proof/Machine/Flags.lean ====
section
/-!
DEFINITION. The status flags of Exact-mode sums (chapter 6): which special values a position has seen, the exponent codes, partial sums and the
long form.
-/

namespace Sys2Proof.Machine

/-- NaN seen. -/
def flNan : Nat := 0
/-- +infinity seen. -/
def flPos : Nat := 1
/-- −infinity seen. -/
def flNeg : Nat := 2

/-- A finite value whose exponent lies past FP32's, possible only in MX formats (Table 6.6). -/
def FV.tooBig (v : FV) : Bool := (v.log.map fun e => decide (127 < e)).getD false

/-- The status flags that one value sets in an Exact-mode sum: NaN, and infinities with which a value past FP32's range counts (R188, R190). -/
def statusOf (v : FV) : Byte :=
  match v with
  | .nan => setBit 0 flNan
  | .inf n => setBit 0 (if n then flNeg else flPos)
  | .num n _ _ => if v.tooBig then setBit 0 (if n then flNeg else flPos) else 0

/-- The value that merged status flags make of a position, none when they are clear (R188, R194). -/
def statusValue (f : Byte) : Option FV :=
  if f.getLsbD flNan ∨ (f.getLsbD flPos ∧ f.getLsbD flNeg) then some .nan
  else if f.getLsbD flPos then some (.inf false)
  else if f.getLsbD flNeg then some (.inf true)
  else none

/-- The exponent code of an element (Table 6.6). -/
def expCode (v : FV) : Nat :=
  match v with
  | .nan => 255
  | .inf _ => 255
  | .num _ _ _ => match v.log with
    | none => 0
    | some e => if 127 < e then 255 else (max e (-126) + 127).toNat

/-- A contribution's code of a block: the largest among its elements (R185). -/
def blockCode (vs : List FV) : Nat := vs.foldl (fun c v => max c (expCode v)) 0

/-- Eg of a block: G − 127, and 127 for a G of 255 (R186, R188). -/
def egOf (g : Nat) : Int := if g = 255 then 127 else (g : Int) - 127

/-- q(v): v × 2^(40 − Eg) truncated toward zero (R186); a special value and one past FP32's range add nothing (R188). -/
def quantum (eg : Int) (v : FV) : Int :=
  match v with
  | .num n m e =>
    if v.tooBig then 0
    else
      let d := e + 40 - eg
      let k : Int := if 0 ≤ d then ((m * 2 ^ d.toNat : Nat) : Int) else ((m / 2 ^ (-d).toNat : Nat) : Int)
      if n then -k else k
  | _ => 0

/-- The result at a position of a block with global code G, from the integer sum and the merged status (R186 to R188). -/
def exactResult (g : Nat) (sum : Int) (status : Byte) : FV :=
  if g = 0 then FV.zero
  else match (if g = 255 then statusValue status else none) with
    | some v => v
    | none => ofInt sum (egOf g - 40)

/-- A long-form element: L in units of 2^−149 and its status (R194). -/
abbrev LongForm := Int × Byte

/-- An FP32 product enters a long-form sum (R194). -/
def longAdd (p : Word) (x : LongForm) : LongForm :=
  match ofF32 p with
  | .num n m e => (x.1 + scaled (-149) n m e, x.2)
  | v => (x.1, x.2 ||| statusOf v)

/-- The value of a long-form sum (R194). -/
def longValue (x : LongForm) : FV := (statusValue x.2).getD (ofInt x.1 (-149))

end Sys2Proof.Machine
end

