-- ==== Sys2Proof/Machine/Receive.lean ====
section
/-!
DEFINITION. Descriptors of operations (R133), record headers (R147), placement entries (R144), and what the commit of a dispatch phase makes
of the records it received (R148, R149, R156).
-/

namespace Sys2Proof.Machine

/-! ### Descriptors (R133) -/

/-- Bits [hi:lo] of word `i` of an operation's descriptor. -/
def opBits (o : OpSt) (i hi lo : Nat) : Nat := bits (nth o.words i 0).toNat hi lo

/-- op -/
def opCode (o : OpSt) : Nat := opBits o 0 63 56

/-- in_fmt -/
def opIn (o : OpSt) : Option Elem := fmtOf (opBits o 0 55 52)

/-- out_fmt -/
def opOut (o : OpSt) : Option Elem := fmtOf (opBits o 0 51 48)

/-- One bit of flags. -/
def opFlag (o : OpSt) (i : Nat) : Bool := opBits o 0 (40 + i) (40 + i) == 1

/-- count -/
def opCount (o : OpSt) : Nat := opBits o 0 31 0

/-- Mode of a DISPATCH (R152). -/
def dispMode (o : OpSt) : Nat := opBits o 0 41 40

/-- Bytes of one token of a DISPATCH. -/
def dispRow (o : OpSt) : Nat := (opIn o).elim 0 fun f => rowBytes f (opBits o 2 15 0)

/-! ### Placement (R144, R148) -/

/-- A placement record. -/
structure PlaceRec where
  /-- The place holding the expert -/
  place : Nat
  /-- Beam to that place -/
  beam : Beam
  /-- Slot -/
  slot : Nat
  /-- Quota q -/
  quota : Nat
  /-- Local flag -/
  here : Bool
  deriving DecidableEq, Repr

/-- The placement entry with an index, none when there is none or its valid bit is clear. -/
def placeRec (s : State) (i : Nat) : Option PlaceRec :=
  (((s.img.image.map fun m : Image => m.placement).getD [])[i]?).bind fun w =>
    let x := w.toNat
    if bits x 56 56 = 1 then
      some { place := bits x 23 0, beam := fin! 256 (bits x 31 24), slot := bits x 41 32, quota := bits x 55 48, here := bits x 57 57 == 1 }
    else none

/-- The quota of a DISPATCH: that of its entries, all of which carry the same (R144). -/
def dispQuota (s : State) (o : OpSt) : Nat :=
  ((List.range (opBits o 2 47 32)).findSome? fun e => (placeRec s (opBits o 2 63 48 + e)).map (·.quota)).getD 1

/-- Number of places of the program. -/
def placeCount (s : State) : Nat := (s.img.image.map fun m : Image => m.places).getD 1

/-- A position of the receive buffer (R148). -/
def rxPos (places q slot place n : Nat) : Nat := (slot * places + place) * (2 * q) + n

/-! ### Record headers (Table 5.7) -/

/-- Type -/
def hdType (h : List Byte) : Nat := (byteAt h 0).toNat

/-- Token index at the source, or chunk index of a segment -/
def hdToken (h : List Byte) : Nat := leNat ((h.drop 2).take 2)

/-- Source place -/
def hdSource (h : List Byte) : Nat := leNat ((h.drop 4).take 3)

/-- Window entry -/
def hdEntry (h : List Byte) : Nat := (byteAt h 7).toNat

/-- Element offset of a segment within its chunk -/
def hdOffset (h : List Byte) : Nat := leNat ((h.drop 8).take 8)

/-- Slot field `i`: slot and n. A marker's slot field lies behind its serial, in bytes [13:12]. -/
def hdSlot (h : List Byte) (i : Nat) : Nat × Nat :=
  let x := leNat ((h.drop (8 + 2 * i)).take 2)
  (x % 1024, x / 1024)

/-- The valid slot fields of a dispatch record, or the one of a commit marker (Table 5.8). -/
def hdSlots (h : List Byte) : List (Nat × Nat) :=
  if hdType h = 0x10 then [hdSlot h 2] else (List.range (min 4 (byteAt h 1).toNat)).map (hdSlot h)

/-- A record header from its fields. -/
def mkHead (typ nslot token source entry : Nat) (rest : List Byte) : List Byte :=
  [BitVec.ofNat 8 typ, BitVec.ofNat 8 nslot] ++ leBytes 2 token ++ leBytes 3 source ++ BitVec.ofNat 8 entry :: (rest ++ List.replicate 8 0xFF).take 8

/-- A slot field. -/
def slotField (slot n : Nat) : List Byte := leBytes 2 (slot % 1024 + n % 64 * 1024)

/-! ### Records of a beam (R112, R147) -/

/-- Gathers `n` bytes of a record from flits: how many flits, and the bytes when they are complete; a second head ends a partial record. -/
def gather (n : Nat) : List OutFlit → List Byte → Nat → Nat × Option (List Byte)
  | [], _, k => (k, none)
  | f :: r, acc, k =>
    if k ≠ 0 ∧ f.head = true then (k, none)
    else
      let a := acc ++ f.payload
      if n ≤ a.length then (k + 1, some (a.take n)) else gather n r a (k + 1)

/-- The first record of `n` bytes among the flits of a class, after the remains of earlier attempts: where it begins, and, when it is there
whole, how many flits it has and its bytes. -/
def recordAt (n : Nat) : Nat → List OutFlit → Nat → Nat × Option (Nat × List Byte)
  | 0, _, skip => (skip, none)
  | _ + 1, [], skip => (skip, none)
  | fuel + 1, f :: r, skip =>
    if f.head = false then recordAt n fuel r (skip + 1)
    else match gather n (f :: r) [] 0 with
      | (k, some b) => (skip, some (k, b))
      | (k, none) => if (f :: r).length ≤ k then (skip, none) else recordAt n fuel ((f :: r).drop k) (skip + k)

/-- A record that the re-executed phase of its sender sends again: the open stream has brought the same one under another attempt, to the same
operation where this place's phase is the same (`now`). Of a Fast-mode sum the header alone is the same. A record sent twice under one attempt
is two records (DEDUCED, log entry 211). -/
def isAgain (now : Word) (k : Nat) (att : BitVec 4) (form : SegForm) (r : List Byte) (e : SeenRec) : Bool :=
  e.attempt != att && e.form == form && (e.serial != now || e.op == k) && (e.bytes == r || (e.loose && e.bytes.take 16 == r.take 16))

/-- Operation `k` of the open phase has taken another record with this header under another attempt, so this one belongs to another operation. -/
def tookOther (now : Word) (k : Nat) (att : BitVec 4) (form : SegForm) (r : List Byte) (e : SeenRec) : Bool :=
  e.attempt != att && e.form == form && e.serial == now && e.op == k && e.bytes.take 16 == r.take 16 && !isAgain now k att form r e

/-- The first entry that satisfies a test takes a new attempt. -/
def renew (att : BitVec 4) (p : SeenRec → Bool) : List SeenRec → List SeenRec
  | [] => []
  | e :: r => if p e then { e with attempt := att } :: r else e :: renew att p r

/-- The first record at hand of a class, when it is one that the open stream has brought to an earlier phase of this place: how many flits go with
it, its attempt, and its entry. -/
def staleRec (s : State) (b : Beam) (c : Fin 2) (e : SeenRec) : Option (Nat × BitVec 4) :=
  let l := atHand s.beam[b] c
  if e.serial = s.ctl.serial + 1 then none
  else match recordAt e.bytes.length (l.length + 1) l 0 with
    | (j, some (k, r)) =>
      ((l.drop j).head?).bind fun h => if isAgain (s.ctl.serial + 1) e.op h.attempt e.form r e then some (j + k, h.attempt) else none
    | _ => none

/-- Records sent again for a phase that this place has committed leave the queues of a beam: no operation takes them any more, and they do not
hold back the tokens behind them (R52, R57, Table 4.4). At most `n` of them. -/
def dropStale (b : Beam) : Nat → State → State
  | 0, s => s
  | n + 1, s =>
    match (s.beam[b]).seen.findSome? fun e => [0, 1].findSome? fun c : Fin 2 => (staleRec s b c e).map fun x => (c, e, x) with
    | some (c, e, k, att) => dropStale b n (onBeam b (fun q => { handOn c k 0 q with seen := renew att (· == e) q.seen }) s)
    | none => s

/-! ### The commit of a dispatch phase -/

/-- The receive-list entries of an admitted record, each with its payload. -/
def recArrivals (s : State) (o : OpSt) (a : Admit) : List (Arrival × List Byte) :=
  let q := dispQuota s o
  (hdSlots a.head).map fun f =>
    ({ pos := rxPos (placeCount s) q f.1 (hdSource a.head) f.2, token := hdToken a.head, ahead := hdType a.head == 0x10,
       over_ := decide (q ≤ f.2), slot := f.1, n := f.2, beam := some a.beam }, a.data)

/-- Puts an entry at its place in ascending position order; a position that is taken stays as it is. -/
def insArrival (x : Arrival) : List Arrival → List Arrival
  | [] => [x]
  | y :: r => if x.pos < y.pos then x :: y :: r else if x.pos = y.pos then y :: r else y :: insArrival x r

/-- The bytes of a receive list (R149). -/
def listBytes (l : List Arrival) : List Byte :=
  leBytes 8 l.length ++ l.flatMap fun a =>
    leBytes 4 a.pos ++ leBytes 2 a.token ++ [BitVec.ofNat 8 (b2n a.over_ + 2 * b2n a.ahead), 0]

/-- The receive buffer and the receive list of one DISPATCH (R148, R149). -/
def finishDispatch (k : Nat) (o : OpSt) (s : State) : State :=
  let rx := (s.ctl.admitted.filter fun a => a.op == k).flatMap (recArrivals s o)
  let rl := opBits o 4 31 0
  let l := rx.foldl (fun l e => insArrival e.1 l) ((aget s.ce.pend.lists rl).getD [])
  let out := (rx.map fun e => (opBits o 4 63 32, e.1.pos * stride64 (dispRow o), e.2)) ++ [(rl, 0, listBytes l)]
  { s with ctl := { s.ctl with outputs := s.ctl.outputs ++ out }
           ce := { s.ce with pend := { s.ce.pend with lists := aput s.ce.pend.lists rl l } } }

/-- After a mode 2 DISPATCH every tentative record is resolved: unresolved window entries are discarded (R155, R156). DESIGN CHOICE (log entry
210): no rule says when a window area stops being one; from this commit on its bytes, those of cancelled and discarded entries too, read as
ordinary staging SRAM. -/
def closeWindows (s : State) : State := { s with ce := { s.ce with queue := [], window := [], area := none } }

/-- What the commit makes of the DISPATCHes of its phase. -/
def finishDispatches (s : State) : State :=
  let ds := (indexed s.ctl.ops).filter fun e => opCode e.2 == 0x20 && dispMode e.2 != 1 && e.2.started
  let s1 := ds.foldl (fun t e => finishDispatch e.1 e.2 t) s
  if ds.any fun e => dispMode e.2 == 2 then closeWindows s1 else s1

end Sys2Proof.Machine
end

