-- ==== Sys2Proof/Machine/Seq.lean ====
section
/-!
DEFINITION. The schedule sequencer (chapter 4): the instruction words, the program, the life of a phase, its commit and the token table.
-/

namespace Sys2Proof.Machine

/-! ### Instruction words (R106) -/

/-- An instruction word from its opcode and its fields, each a value and its lowest bit. -/
def instrWord (op : Nat) (fs : List (Nat × Nat)) : DWord := BitVec.ofNat 64 (op * 2 ^ 56 + fs.foldl (fun n f => n + f.1 * 2 ^ f.2) 0)

/-- Bits of an instruction or descriptor word. -/
def wbits (w : DWord) (hi lo : Nat) : Nat := bits w.toNat hi lo

/-- The opcode of an instruction word. -/
def opcode (w : DWord) : Nat := wbits w 63 56

/-- The segment record of a segment_id. -/
def segRec (i : Image) (id : BitVec 16) : Option SegRec := i.segs.find? fun r => r.id == id

/-- The instruction word at an index of a unit's schedule memory: of the segment in the window that covers it, else of the program
(R80, R99, R108). -/
def memWord (q : SqUnitSt) (i : Nat) : Option DWord :=
  match nth q.window.toList (windowOf i) none with
  | some w => w.words[i - windowBase (windowOf i)]?
  | none => q.program[i]?

/-- The instruction word at an index of the active unit's schedule memory, with an image committed. -/
def schedWord (s : State) (i : Nat) : Option DWord := if s.img.image.isSome then memWord s.sq.unit[s.sq.active] i else none

/-! ### The active sequencer -/

/-- Changes one unit. -/
def onUnit (u : Fin 2) (f : SqUnitSt → SqUnitSt) (s : State) : State := { s with sq := { s.sq with unit := upd s.sq.unit u f } }

/-- The unit that SQ_STATUS.active names. -/
def actUnit (s : State) : SqUnitSt := s.sq.unit[s.sq.active]

/-- The other unit. -/
def standby (s : State) : Fin 2 := otherUnit s.sq.active

/-- The standby is in sync. -/
def inSync (s : State) : Bool := (s.sq.unit[standby s]).state == .inSync

/-- An active unit runs the committed program. -/
def seqOn (s : State) : Bool := s.img.image.isSome && (actUnit s).state == .active && !s.img.committing

/-- The program counter of the active unit. -/
def pcOf (s : State) : Nat := (actUnit s).pc.toNat

/-- The active unit goes to an index; a SWITCH that took effect at the start of Running is passed over. -/
def pcTo (n : Nat) (s : State) : State :=
  let m := if s.ctl.phase = 4 ∧ s.ctl.switch_ = some n then n + 1 else n
  onUnit s.sq.active (fun q => { q with pc := BitVec.ofNat 16 m }) s

/-- The next instruction. -/
def pcNext (s : State) : State := pcTo (pcOf s + 1) s

/-- Where an instruction may stand (Table 4.3). -/
inductive Col where
  | between
  | waits
  | body
  | anywhere
  deriving DecidableEq, Repr

/-- The phase state in which an instruction of a column is decoded. -/
def colFits (c : Col) (ph : BitVec 4) : Bool :=
  match c with
  | .between => ph == 1
  | .waits => ph == 2
  | .body => ph == 4
  | .anywhere => ph == 1 || ph == 4

/-- The active sequencer decodes an instruction when it is the word at its program counter. In the wrong column, or with fields that
the manual excludes (`bad` names the rule), it is an inconsistent image structure. -/
def instrRow (c : Col) (w : DWord) (bad : State → Option Nat) (f : State → State) (s : State) : Host.Outcome State Fault Refusal :=
  if running s = false ∨ seqOn s = false ∨ schedWord s (pcOf s) ≠ some w then done s
  else if colFits c s.ctl.phase then
    (match bad s with
     | some r => hostError r s
     | none => done (f s))
  else if s.ctl.phase = 1 ∨ s.ctl.phase = 4 then hostError 106 s
  else done s

/-- A field excluded by Table 4.3. -/
def badIf (b : Bool) (r : Nat) : State → Option Nat := fun _ => if b then some r else none

/-- NOP. -/
def execNop (s : State) : Host.Outcome State Fault Refusal := instrRow .anywhere (instrWord 0x00 []) (fun _ => none) pcNext s

/-! ### Opening a phase (R113, Table 4.6) -/

/-- Every WAIT of the phase is met. -/
def waitsMet (s : State) : Bool := s.ctl.waits.all (waitMet s.ctl)

/-- Another WAIT stands at the program counter. -/
def waitNext (s : State) : Bool := ((schedWord s (pcOf s)).map fun w => opcode w == 0x02).getD false

/-- The SWITCH of a body, found from an index on, before its first ISSUE (Table 4.3), searched over `n` words. -/
def switchAhead (s : State) : Nat → Nat → Option Nat
  | 0, _ => none
  | n + 1, i =>
    match schedWord s i with
    | none => none
    | some w =>
      if opcode w = 0x03 then some i
      else if opcode w = 0x00 ∨ opcode w = 0x05 ∨ opcode w = 0x06 ∨ opcode w = 0x08 ∨ opcode w = 0x09 then switchAhead s n (i + 1)
      else none

/-- The SWITCH that the opened phase makes at the start of Running. -/
def phaseSwitch (s : State) : Option Nat := switchAhead s 65536 (pcOf s)

/-- The phase enters Running. -/
def phaseRun (s : State) : State := pcTo (pcOf s) { s with ctl := { s.ctl with phase := 4 } }

/-- The opened phase is past its WAITs and every one is met. -/
def phaseReady (s : State) : Bool := s.ctl.phase == 2 && seqOn s && !waitNext s && waitsMet s

/-- A phase whose WAITs are met enters Running at once when it makes no SWITCH; with one it waits for SWITCH to be resolved. -/
def phaseCheck (s : State) : State := if phaseReady s && (phaseSwitch s).isNone then phaseRun s else s

/-- After a wait was decoded or a token counted: the phase may enter Running, and a held DEV_PENUMBRA may take effect (R93). -/
def afterWait (s : State) : State := penumbraCheck (phaseCheck s)

/-- PHASE: the phase opens, its watchdog starts; the attempt is the control root's. What a fenced attempt of the phase has admitted is still
there (Table 4.4). -/
def phaseOpens (barrier : Bool) (id : Word) (s : State) : State :=
  afterWait (pcNext { s with ctl := { dropPhase s.ctl with
    phase := 2, barrier := barrier, phaseId := id, watchdog := true, admitted := s.ctl.admitted, waitSince := s.time } })

/-- PHASE. -/
def execPhase (barrier : Bool) (id : Word) (s : State) : Host.Outcome State Fault Refusal :=
  instrRow .between (instrWord 0x01 [(b2n barrier, 48), (id.toNat, 0)]) (fun _ => none) (phaseOpens barrier id) s

/-- A WAIT that Table 4.3 or R114 excludes. -/
def waitBad (kind : BitVec 4) (exempt : Bool) (count : Byte) (site : BitVec 3) (s : State) : Option Nat :=
  if kind = 0 ∨ 3 < kind.toNat ∨ count = 0 ∨ 32 ≤ s.ctl.waits.length ∨ site = 6 then some 106
  else if (exempt = true ∧ site = 7) ∨ (kind ≠ 1 ∧ site ≠ 7) then some 114
  else none

/-- WAIT adds an input condition. -/
def waitAdds (w : WaitCond) (s : State) : State := afterWait (pcNext { s with ctl := { s.ctl with waits := s.ctl.waits ++ [w] } })

/-- WAIT. -/
def execWait (kind : BitVec 4) (exempt : Bool) (slot : BitVec 12) (count : Byte) (site : BitVec 3) (s : State) :
    Host.Outcome State Fault Refusal :=
  instrRow .waits (instrWord 0x02 [(kind.toNat, 52), (b2n exempt, 48), (slot.toNat, 36), (count.toNat, 28), (site.toNat, 25)])
    (waitBad kind exempt count site)
    (waitAdds { kind := kind, exempt := exempt, slot := slot.toNat, count := count.toNat, site := site.toNat }) s

/-! ### Fetches (R63 to R66) -/

/-- Bytes of a plan record (Tables 7.3 to 7.5). -/
def planBytes (r : PlanRec) : Nat := 16 + (r.blocks.map fun b => 8 + 12 * b.beams.length).foldl (· + ·) 0

/-- A plan in the paged-plan regions: its address and record (R79, R63). -/
def pagedPlan (s : State) (id : BitVec 16) : Option (Nat × PlanRec) :=
  let rs := ((s.img.image.map fun i : Image => i.regions).getD []).filter fun r => r.use == 2
  (rs.filterMap fun r =>
    let b := regionBase r
    let n := min (s.hbm.mem.nat b 4) (r.length / 8)
    ((List.range n).find? fun j => s.hbm.mem.nat (b + 8 + 8 * j) 2 == id.toNat).map fun j =>
      let a := b + s.hbm.mem.nat (b + 12 + 8 * j) 4
      (a, parsePlan (s.hbm.mem.readN a 4096))).head?

/-- A segment of the committed image. -/
def segOf (s : State) (id : BitVec 16) : Option SegRec := s.img.image.bind fun i : Image => segRec i id

/-- The place that a fetch fills: a plan slot, or 256 + window. -/
def itemPlace : FetchItem → Nat
  | .plan _ k => k.val
  | .segment _ w => 256 + w.val

/-- Requests a fetch; an earlier one into the same place is released. A fetch in flight is not requested again. -/
def fetchAsk (i : FetchItem) (s : State) : State :=
  if s.ctl.fetches.contains i then s
  else
    let c := { s.ctl with fetches := (s.ctl.fetches.filter fun j => itemPlace j != itemPlace i) ++ [i] }
    match i with
    | .plan id k => { s with ctl := c, pln := { s.pln with slots := upd s.pln.slots k fun _ => { state := 2, planId := id } } }
    | .segment _ w => bothStores (fun q => { q with window := upd q.window w fun _ => none }) { s with ctl := c }

/-- The instructions of a segment as the Reservoir holds them. -/
def segInstrs (s : State) (r : SegRec) : List DWord := (List.range (r.len / 8)).map fun k => BitVec.ofNat 64 (s.hbm.mem.nat (r.addr + 8 * k) 8)

/-- A fetched item is written into its slot or window of both sequencers' stores (R100). -/
def fetchFill (i : FetchItem) (s : State) : State :=
  match i with
  | .plan id k =>
    bothStores (fun q => { q with plans := upd q.plans k fun _ => (pagedPlan s id).map (·.2) })
      { s with pln := { s.pln with slots := upd s.pln.slots k fun _ => { state := 1, planId := id } } }
  | .segment id w => bothStores (fun q => { q with window := upd q.window w fun _ => (segOf s id).map fun r => { id := id, words := segInstrs s r } }) s

/-- The plan directories that a search for a plan reads, up to the one that names it (R79, log entry 223). -/
def planDirs (s : State) (id : BitVec 16) : List (Nat × Nat) :=
  let rs := ((s.img.image.map fun i : Image => i.regions).getD []).filter fun r => r.use == 2
  let n (r : RegionRec) : Nat := min (s.hbm.mem.nat (regionBase r) 4) (r.length / 8)
  let has (r : RegionRec) : Bool := (List.range (n r)).any fun j => s.hbm.mem.nat (regionBase r + 8 + 8 * j) 2 == id.toNat
  let k := (rs.findIdx? has).elim rs.length (· + 1)
  (rs.take k).map fun r => (regionBase r, 8 + 8 * n r)

/-- What a fetch reads before its item: the directory of a plan. -/
def fetchDirs (i : FetchItem) (s : State) : List (Nat × Nat) :=
  match i with
  | .plan id _ => planDirs s id
  | .segment _ _ => []

/-- Where a fetch reads, and how many bytes. -/
def fetchRange (i : FetchItem) (s : State) : Option (Nat × Nat) :=
  match i with
  | .plan id _ => (pagedPlan s id).map fun e => (e.1, planBytes e.2)
  | .segment id _ => (segOf s id).map fun r => (r.addr, r.len)

/-- The first uncorrectable word among what a fetch reads. -/
def fetchPoison (i : FetchItem) (s : State) : Option Nat :=
  (fetchDirs i s ++ (fetchRange i s).toList).findSome? fun r => poisonIn s r.1 r.2

/-- A fetch reads its words, the directory first: they are counted, and those with an error are corrected or poisoned (R407). -/
def fetchReads (i : FetchItem) (words : List (Nat × WordError)) (s : State) : State :=
  let s1 := (fetchDirs i s).foldl (fun t r => readRange srcFetch r.1 r.2 words t) s
  match fetchRange i s1 with
  | some r => readRange srcFetch r.1 r.2 words s1
  | none => s1

/-- A fetch that met an uncorrectable word leaves its place empty. -/
def fetchEmpty (i : FetchItem) (s : State) : State :=
  match i with
  | .plan _ k => { s with pln := { s.pln with slots := upd s.pln.slots k fun _ => {} } }
  | .segment _ _ => s

/-! ### SWITCH (R109) -/

/-- The plan_id that a SWITCH word names, with V[vreg] added when its variant flag is set. -/
def switchPlan (s : State) (w : DWord) : BitVec 16 :=
  BitVec.ofNat 16 (wbits w 31 16) +
    (if wbits w 48 48 = 1 then ((actUnit s).v[fin! 16 (wbits w 47 44)]).setWidth 16 else 0)

/-- No port has a switch on its way, so the plan in force is in force on every line. -/
def switchesQuiet (s : State) : Bool := s.port.toList.all fun q => q.switchQ == []

/-- The SWITCH names the plan in force on every line: a no-op without a fetch (R109). -/
def switchNoop (s : State) (id : BitVec 16) : Bool := id == s.pln.inForce && switchesQuiet s

/-- A plan changes a pass mask of the plan that will be in force. -/
def passChanges (s : State) (r : PlanRec) : Bool :=
  s.pln.inForce != 0xFFFF && (fins 64).any fun p => (blockAhead s p).pass != (blockIn r p).pass

/-- The family whose variant a SWITCH with the variant flag makes has a variant that is no declared plan, or a Dim plan (R220, R224). -/
def variantsBad (s : State) (w : DWord) : Bool :=
  match (aget s.ctl.families (wbits w 47 44)).bind fun k => s.img.image.bind fun i : Image => i.families[k]? with
  | some f => (List.range f.variants).any fun k => ((planRec s (BitVec.ofNat 16 (wbits w 31 16 + k))).map (·.dim)).getD true
  | none => false

/-- A plan changes the lines of a beam that carries unresolved tentative records (Table 5.15). -/
def tentativeMoved (s : State) (r : PlanRec) : Bool :=
  let open_ (b : Beam) : Bool := (s.ce.queue.any fun e => e.beam == b) || s.ce.window.any fun w => w.beam == b && w.resolved.isNone
  (fins 64).any fun p => (affected (blockAhead s p) (blockIn r p)).any open_

/-- What makes a resolved SWITCH an inconsistent image structure: express outside a barrier phase (R109), a Dim plan or a family that is not
declared (R220, R224), a changed pass mask without express (R212), or unresolved tentative records on its lines (R165). -/
def switchBad (s : State) (w : DWord) (r : Option PlanRec) : Option Nat :=
  let express := wbits w 49 49 == 1
  if express && !s.ctl.barrier then some 109
  else if (r.map (·.dim)).getD false || (wbits w 48 48 == 1 && variantsBad s w) then some 224
  else if !express && (r.map (passChanges s)).getD false then some 212
  else if (r.map (tentativeMoved s)).getD false then some 165
  else none

/-- The plan fetch under way for a plan_id, or a new one into the switch slot (R64). -/
def planItem (s : State) (id : BitVec 16) : FetchItem :=
  (s.ctl.fetches.find? fun i => match i with
    | .plan j _ => j == id
    | .segment _ _ => false).getD (.plan id 128)

/-- The SWITCH takes effect and the phase enters Running. -/
def switchRun (i : Nat) (r : Option PlanRec) (s : State) : State :=
  let s1 := { s with ctl := { s.ctl with switch_ := some i, fetching := none } }
  phaseRun (match r with
    | some r => switchStart r s1
    | none => s1)

/-- The SWITCH of a ready phase is resolved: a resident plan, or the plan in force, takes effect; otherwise the sequencer is Fetching. -/
def switchResolve (i : Nat) (w : DWord) (s : State) : Host.Outcome State Fault Refusal :=
  let id := switchPlan s w
  let r := storePlan s id
  match switchBad s w r with
  | some e => hostError e s
  | none =>
    if r.isSome ∨ switchNoop s id = true then done (switchRun i r s)
    else
      let it := planItem s id
      if s.ctl.fetches.contains it = false ∧ (pagedPlan s id).isNone then hostError 63 s
      else
        let s1 := fetchAsk it s
        done { s1 with ctl := { s1.ctl with phase := 3, switch_ := some i, fetching := some it } }

/-- SWITCH: resolved when the phase enters Running. A second SWITCH, or one after an ISSUE, is an inconsistent image structure. -/
def execSwitch (variant express : Bool) (vreg : Fin 16) (planId : BitVec 16) (s : State) : Host.Outcome State Fault Refusal :=
  let w := instrWord 0x03 [(b2n variant + 2 * b2n express, 48), (vreg.val, 44), (planId.toNat, 16)]
  if running s && phaseReady s then
    match phaseSwitch s with
    | some i => if schedWord s i = some w then switchResolve i w s else done s
    | none => done s
  else if running s && seqOn s && (s.ctl.phase == 1 || s.ctl.phase == 4) && schedWord s (pcOf s) == some w then hostError 106 s
  else done s

/-- A fetch that completed lets the sequencer go on (Table 4.6): the SWITCH takes effect, or CALL is decoded again. -/
def fetchResume (i : FetchItem) (s : State) : State :=
  match i with
  | .plan _ k => switchRun (s.ctl.switch_.getD 0) (planIn s k) s
  | .segment _ _ => penumbraCheck { s with ctl := { s.ctl with phase := 1, fetching := none } }

/-- The SWITCH that waits for a fetch would be an inconsistent image structure with the plan fetched. -/
def fetchedBad (i : FetchItem) (s : State) : Option Nat :=
  match i, s.ctl.switch_ with
  | .plan _ k, some j => (schedWord s j).bind fun w => switchBad s w (planIn s k)
  | _, _ => none

/-- FETCH_COMPLETE: a fetch lands in its place; an uncorrectable word is Contained (Table 13.4). `words` are the words read with an error. -/
def execFetchComplete (i : FetchItem) (s : State) (words : List (Nat × WordError) := []) : Host.Outcome State Fault Refusal :=
  if running s = false ∨ s.ctl.fetches.contains i = false then done s
  else
    let s1 := fetchReads i words { s with ctl := { s.ctl with fetches := s.ctl.fetches.filter fun j => j != i } }
    match fetchPoison i s1 with
    | some w => done (stopAfter s (wordContained (stackOf (16 * w)) (fetchEmpty i s1)))
    | none =>
      let s2 := fetchFill i s1
      if s2.ctl.phase = 3 ∧ s2.ctl.fetching = some i then
        (match fetchedBad i s2 with
         | some e => hostError e s2
         | none => done (fetchResume i s2))
      else done s2

/-- A slot that holds the plan of a switch not yet made, or of the phase that runs (R66). -/
def slotInUse (s : State) (k : Fin 129) : Bool :=
  let id := (s.pln.slots[k]).planId
  (s.pln.slots[k]).state == 1 &&
    ((s.ctl.phase == 4 && id == s.pln.inForce) || s.port.toList.any fun q => q.switchQ.any fun e => e.planId == id)

/-- A PREFETCH that the manual excludes: a field out of range, an item that does not exist, a slot in use. -/
def prefetchBad (segment : Bool) (id : BitVec 16) (slot : Byte) (s : State) : Option Nat :=
  if segment then
    (if 32 ≤ slot.toNat then some 106 else if (segOf s id).isNone then some 60 else none)
  else if 128 ≤ slot.toNat then some 106
  else if (pagedPlan s id).isNone then some 63
  else if ((planIn s (fin! 129 slot.toNat)).map (·.dim)).getD false then some 224
  else if slotInUse s (fin! 129 slot.toNat) then some 66
  else none

/-- PREFETCH releases the slot and requests the item. -/
def prefetch (segment : Bool) (id : BitVec 16) (slot : Byte) (s : State) : State :=
  pcNext (fetchAsk (if segment then .segment id (fin! 32 slot.toNat) else .plan id (fin! 129 slot.toNat)) s)

/-- PREFETCH. -/
def execPrefetch (segment : Bool) (id : BitVec 16) (slot : Byte) (s : State) : Host.Outcome State Fault Refusal :=
  instrRow .anywhere (instrWord 0x08 [(b2n segment, 48), (id.toNat, 32), (slot.toNat, 24)]) (prefetchBad segment id slot)
    (prefetch segment id slot) s

/-! ### The body -/

/-- The descriptor words that follow an ISSUE. -/
def issueWords (s : State) (n : Nat) : Option (List DWord) :=
  ((List.range n).map fun i => schedWord s (pcOf s + 1 + i)).foldr (fun w l => w.bind fun x => l.map (x :: ·)) (some [])

/-- Operations: code, length in words, and whether the target is an Exact Reduction Unit (Table 5.2). -/
def opTable : List (Nat × Nat × Bool) :=
  [(0x10, 4, false), (0x20, 5, false), (0x21, 5, false), (0x30, 3, true), (0x31, 3, true), (0x32, 3, false), (0x33, 4, false),
   (0x34, 3, false), (0x35, 3, false)]

/-- The target endpoint of an operation exists and is of its kind (Tables 3.7, 5.2). -/
def targetFits (eru : Bool) (t : Nat) : Bool :=
  if eru then t / 4096 == 5 && decide (t % 4096 < 64) else t / 4096 == 4 && decide (t % 4096 < 16)

/-- A descriptor agrees with Table 5.2. -/
def descrFits (n target : Nat) (ws : List DWord) : Bool :=
  match ws with
  | [] => false
  | w :: _ => opTable.any fun e => e.1 == wbits w 63 56 && e.2.1 == n && wbits w 39 32 == n && targetFits e.2.2 target

/-- An ISSUE that the manual excludes (R106, R133). -/
def issueBad (n : Byte) (target : BitVec 16) (s : State) : Option Nat :=
  if n = 0 ∨ 64 < n.toNat then some 106
  else match issueWords s n.toNat with
    | none => some 106
    | some ws => if descrFits n.toNat target.toNat ws = false then some 133 else if descrSound (ws.map (·.toNat)) then none else some 70

/-- ISSUE sends its descriptor to the target. -/
def issue (n : Byte) (target : BitVec 16) (s : State) : State :=
  pcTo (pcOf s + 1 + n.toNat) { s with ctl := { s.ctl with
    ops := s.ctl.ops ++ [{ target := target.toNat, words := (issueWords s n.toNat).getD [] }] } }

/-- ISSUE. -/
def execIssue (n : Byte) (target : BitVec 16) (s : State) : Host.Outcome State Fault Refusal :=
  instrRow .body (instrWord 0x04 [(n.toNat, 48), (target.toNat, 32)]) (issueBad n target) (issue n target) s

/-- A TOKEN that the manual excludes: its kind, a beam that does not exist, or a beam that the plan in force leaves unlit (R206). The image
declares at most 8,192 pairs of beam and remote slot (R105, `sendPairsOk`). -/
def tokenBad (kind : BitVec 4) (b : Beam) (s : State) : Option Nat :=
  if kind ≠ 2 ∧ kind ≠ 3 then some 106 else if beamUsed s b = false then some 60 else if beamInPlan s b then none else some 206

/-- TOKEN: a token follows every stream of the phase on the beam. -/
def tokenAsk (kind : BitVec 4) (b : Beam) (slot : BitVec 12) (s : State) : State :=
  pcNext { s with ctl := { s.ctl with tokens := s.ctl.tokens ++ [(kind.toNat, b.val, slot.toNat)] } }

/-- TOKEN. -/
def execToken (kind : BitVec 4) (b : Beam) (slot : BitVec 12) (s : State) : Host.Outcome State Fault Refusal :=
  instrRow .body (instrWord 0x05 [(kind.toNat, 52), (b.val, 44), (slot.toNat, 32)]) (tokenBad kind b) (tokenAsk kind b slot) s

/-- NOTIFY queues a commit notification. -/
def execNotify (x : SiteIx) (slot : BitVec 12) (s : State) : Host.Outcome State Fault Refusal :=
  instrRow .body (instrWord 0x06 [(x.val, 52), (slot.toNat, 40)]) (fun _ => none)
    (fun s => pcNext { s with ctl := { s.ctl with notifies := s.ctl.notifies ++ [(x.val, slot.toNat)] } }) s

/-! ### Between instructions -/

/-- Bytes of an integer format code (Table 5.4). -/
def intBytes (fmt : Nat) : Nat := if fmt = 0xB then 1 else if fmt = 0xC then 2 else 4

/-- An integer of `n` bytes, two's complement, little-endian (R169). -/
def intAt (b : List Byte) (n i : Nat) : Int := sval (8 * n) (leNat ((b.drop (n * i)).take n))

/-- The counts of a histogram buffer. -/
def histCounts (s : State) (l : Loc) (fmt e : Nat) : List Int :=
  let b := locRead s l (intBytes fmt * e)
  (List.range e).map (intAt b (intBytes fmt))

/-- The sum of the counts of a rule's experts. -/
def groupSum (i : Image) (counts : List Int) (r : RuleRec) : Int :=
  ((List.range r.len).map fun j => nth counts (nth i.experts (r.start + j) 0) 0).foldl (· + ·) 0

/-- The rules of a family. -/
def familyRules (i : Image) (f : FamilyRec) : List RuleRec := (i.rules.drop f.firstRule).take f.ruleCount

/-- The variant that SELECT chooses (R220). -/
def selectVariant (i : Image) (f : FamilyRec) (counts : List Int) : BitVec 8 :=
  let total := counts.foldl (· + ·) 0
  if total ≤ 0 then f.default_
  else match (familyRules i f).find? fun r => decide ((r.threshold : Int) * total ≤ 65536 * groupSum i counts r) with
    | some r => r.variant
    | none => f.default_

/-- The family that SELECT names. -/
def familyOf (s : State) (k : Nat) : Option FamilyRec := s.img.image.bind fun i : Image => i.families[k]?

/-- A family record that R220 excludes. -/
def familyBad (i : Image) (f : FamilyRec) : Bool :=
  decide (f.variants ≤ f.default_.toNat) || (familyRules i f).length != f.ruleCount ||
    (familyRules i f).any fun r => decide (f.variants ≤ r.variant.toNat) ||
      (List.range r.len).any fun j => decide (f.e ≤ nth i.experts (r.start + j) f.e)

/-- The degraded-variant flag of a site is set (Table 3.5). -/
def anyDegradedFlag (s : State) : Bool := (fins 6).any fun x => (siteRec s x).use && (siteRec s x).degraded

/-- `n` bytes from `a` of staging SRAM touch an entry of the open window area for which no commit marker has come: one that is not filled, one
that was discarded, one that is not resolved (R154, R156). -/
def areaTouched (s : State) (a n : Nat) : Bool :=
  match s.ce.area with
  | some (h, w, len) =>
    (match bufLoc s h 0 (256 * w * stride64 len) with
     | some (.staging x) =>
       let d := stride64 len
       let lo := max a x
       let hi := min (a + n) (x + 256 * w * d)
       decide (lo < hi) && (List.range ((hi - 1 - x) / d + 1 - (lo - x) / d)).any fun j =>
         let i := (lo - x) / d + j
         !s.ce.window.any fun e => e.beam.val == i / w && e.entry == i % w && e.resolved == some true
     | _ => false)
  | none => false

/-- A range of staging SRAM meets an entry of a window before its commit marker (R156). -/
def inWindow (s : State) (l : Loc) (n : Nat) : Bool :=
  match l with
  | .staging a => areaTouched s a n || s.ce.window.any fun e => e.resolved != some true && decide (e.addr < a + n) && decide (a < e.addr + e.data.length)
  | _ => false

/-- A SELECT that the manual excludes (R110, R156, R220, R344). -/
def selectBad (vreg : Fin 16) (family : BitVec 12) (handle : Word) (s : State) : Option Nat :=
  match s.img.image, familyOf s family.toNat with
  | some i, some f =>
    if familyBad i f then some 220
    else if vreg = 15 ∧ anyDegradedFlag s = true then some 344
    else match bufLoc s handle.toNat 0 (intBytes f.histFmt * f.e) with
      | some l =>
        if inWindow s l (intBytes f.histFmt * f.e) then some 156
        else if locWritten s l (intBytes f.histFmt * f.e) then none else some 110
      | none => some 134
  | _, _ => some 60

/-- A cluster reads `n` bytes at a place, with the errors that its words meet in the Reservoir (R407). -/
def locReads (l : Loc) (n : Nat) (words : List (Nat × WordError)) (s : State) : State :=
  match l with
  | .hbm a => readRange srcCluster a n words s
  | _ => s

/-- SELECT writes the chosen variant into V[vreg]; an uncorrectable histogram word is Contained. -/
def select (vreg : Fin 16) (family : BitVec 12) (handle : Word) (words : List (Nat × WordError)) (s : State) : State :=
  match s.img.image, familyOf s family.toNat with
  | some i, some f =>
    let n := intBytes f.histFmt * f.e
    match bufLoc s handle.toNat 0 n with
    | some l =>
      let s1 := locReads l n words s
      match locPoison s1 l n with
      | some w => wordContained (stackOf (16 * w)) s1
      | none =>
        let v := selectVariant i f (histCounts s1 l f.histFmt f.e)
        pcNext (onUnit s.sq.active (fun q => { q with v := upd q.v vreg fun _ => v })
          { s1 with
            pln := { s1.pln with selFamily := family, selVariant := v }
            ctl := { s1.ctl with families := aput s1.ctl.families vreg.val family.toNat } })
    | none => s
  | _, _ => s

/-- SELECT. -/
def execSelect (vreg : Fin 16) (family : BitVec 12) (handle : Word) (s : State) (words : List (Nat × WordError) := []) :
    Host.Outcome State Fault Refusal :=
  instrRow .between (instrWord 0x07 [(vreg.val, 52), (family.toNat, 40), (handle.toNat, 0)]) (selectBad vreg family handle)
    (stopping (select vreg family handle words)) s

/-- HINT: the policy target is raised until the commit of serial s + lead + hold (R419); issuing it twice acts as once (R111). -/
def hint (op : Fin 8) (lead hold : Byte) (s : State) : State :=
  let h := (op.val, (s.ctl.serial.toNat + 1 + lead.toNat + hold.toNat) % 2 ^ 32)
  pcNext (pwrSettle (onPwr fun p => { p with hints := if p.hints.contains h then p.hints else h :: p.hints }) s)

/-- HINT. -/
def execHint (op : Fin 8) (lead hold : Byte) (s : State) : Host.Outcome State Fault Refusal :=
  instrRow .anywhere (instrWord 0x09 [(op.val, 48), (lead.toNat, 40), (hold.toNat, 32)]) (badIf (hold == 0) 106) (hint op lead hold) s

/-- SETLC. -/
def execSetlc (counter : Fin 8) (value : Word) (s : State) : Host.Outcome State Fault Refusal :=
  instrRow .between (instrWord 0x0B [(counter.val, 48), (value.toNat, 0)]) (fun _ => none)
    (fun s => pcNext (onUnit s.sq.active (fun q => { q with lc := upd q.lc counter fun _ => value }) s)) s

/-- A BRANCH's target is a Between instruction (R106). -/
def betweenAt (s : State) (i : Nat) : Bool :=
  ((schedWord s i).map fun w => [0x00, 0x01, 0x07, 0x08, 0x09, 0x0B, 0x0C, 0x0D, 0x0E, 0x0F].contains (opcode w)).getD false

/-- A BRANCH that the manual excludes. -/
def branchBad (cond : BitVec 4) (n : Fin 16) (target : BitVec 16) (s : State) : Option Nat :=
  if 2 < cond.toNat ∨ (cond = 1 ∧ 8 ≤ n.val) ∨ betweenAt s target.toNat = false then some 106 else none

/-- BRANCH jumps when its condition holds; a loop counter that is not 0 is decremented. -/
def branch (cond : BitVec 4) (n : Fin 16) (imm : Byte) (target : BitVec 16) (s : State) : State :=
  let u := actUnit s
  if cond = 0 then pcTo target.toNat s
  else if cond = 1 then
    let c : Fin 8 := fin! 8 n.val
    if u.lc[c] = 0 then pcNext s
    else pcTo target.toNat (onUnit s.sq.active (fun q => { q with lc := upd q.lc c (· - 1) }) s)
  else if u.v[n] = imm then pcTo target.toNat s
  else pcNext s

/-- BRANCH. -/
def execBranch (cond : BitVec 4) (n : Fin 16) (imm : Byte) (target : BitVec 16) (s : State) : Host.Outcome State Fault Refusal :=
  instrRow .between (instrWord 0x0C [(cond.toNat, 52), (n.val, 48), (imm.toNat, 40), (target.toNat, 0)]) (branchBad cond n target)
    (branch cond n imm target) s

/-- A CALL that the manual excludes: a segment that does not exist, or a stack deeper than four. -/
def callBad (segId : BitVec 16) (s : State) : Option Nat :=
  if (segOf s segId).isNone then some 60 else if 4 ≤ (actUnit s).stack.length then some 106 else none

/-- CALL jumps to its window when that holds the segment; otherwise the sequencer is Fetching (R64, R108). -/
def call (w : Fin 32) (segId : BitVec 16) (s : State) : State :=
  if ((actUnit s).window[w]).map (·.id) = some segId then
    pcTo (windowBase w.val) (onUnit s.sq.active (fun q => { q with stack := (q.pc + 1) :: q.stack }) s)
  else
    let it := FetchItem.segment segId w
    let s1 := fetchAsk it s
    { s1 with ctl := { s1.ctl with phase := 3, fetching := some it } }

/-- CALL. -/
def execCall (w : Fin 32) (segId : BitVec 16) (s : State) : Host.Outcome State Fault Refusal :=
  instrRow .between (instrWord 0x0D [(w.val, 48), (segId.toNat, 32)]) (callBad segId) (call w segId) s

/-- RETURN pops the return index. -/
def returns (s : State) : State :=
  match (actUnit s).stack with
  | [] => s
  | i :: r => pcTo i.toNat (onUnit s.sq.active (fun q => { q with stack := r }) s)

/-- RETURN. -/
def execRet (s : State) : Host.Outcome State Fault Refusal :=
  instrRow .between (instrWord 0x0E []) (fun s => if (actUnit s).stack = [] then some 106 else none) returns s

/-- HALT ends the program. -/
def halts (s : State) : State := penumbraCheck (flag blkSQ 0 7 { s with ctl := { dropPhase s.ctl with phase := 0 } })

/-- HALT. -/
def execHalt (s : State) : Host.Outcome State Fault Refusal := instrRow .between (instrWord 0x0F []) (fun _ => none) halts s

/-! ### Tokens (R101 to R105) -/

/-- One more token of a generation on a slot, discarded when it is behind g or more than 15 ahead (R103). -/
def slotAdd (gen : BitVec 8) (t : TokSlot) : TokSlot :=
  let d := (gen - t.gen).toNat
  if d < 16 then { t with counts := lupd ((t.counts ++ List.replicate 16 0).take 16) d (· + 1) } else t

/-- A token counts in a bank. -/
def bankAdd (slot : Nat) (gen : BitVec 8) (b : List (Nat × TokSlot)) : List (Nat × TokSlot) :=
  aput b slot (slotAdd gen ((aget b slot).getD {}))

/-- The difference of two epoch numbers (R104). -/
def epochDiff (a b : Word) : Int := (a - b).toInt

/-- The sequencer is Aborted or Idle, a takeover in Aborted counting as Aborted. -/
def tokensWait (s : State) : Bool := s.ctl.phase == 0 || s.ctl.phase == 7 || (s.ctl.phase == 8 && (s.sq.fence.map fun f => f.from_ == 7).getD false)

/-- A token in the table: counted in the current or the next bank, or discarded (R103, R104). -/
def tokenCount (slot : Nat) (gen : BitVec 8) (epoch : Word) (s : State) : State :=
  let c := s.ctl
  let d := epochDiff epoch c.epoch
  let e := epochDiff epoch c.nextEpoch
  if d < 0 then s
  else if d = 0 then { s with ctl := { c with bank := bankAdd slot gen c.bank } }
  else if e = 0 then (if d = 1 ∨ tokensWait s = true then { s with ctl := { c with nextBank := bankAdd slot gen c.nextBank } } else s)
  else if tokensWait s = true ∧ 0 < e then { s with ctl := { c with nextBank := bankAdd slot gen [], nextEpoch := epoch } }
  else s

/-- A token word arrives at the control root: kinds 1 to 3 count, a die token only in Lit; every other kind is discarded. -/
def tokenRx (w : DWord) (s : State) : State :=
  let kind := wbits w 63 60
  if kind = 0 ∨ 3 < kind ∨ (kind = 1 ∧ s.dev.state ≠ .lit) then s
  else afterWait (tokenCount (wbits w 59 48) (BitVec.ofNat 8 (wbits w 47 40)) (w32 (wbits w 31 0)) s)

/-- Token-only flits at the front of a beam's delivered flits go to the control root once every earlier flit has been handed over, at most
`n` of them; each closes the stream (R246, R247). -/
def drainTokens (b : Beam) : Nat → State → State
  | 0, s => s
  | n + 1, s =>
    match (s.beam[b]).inbound with
    | f :: _ =>
      if tokenOnly f && (s.beam[b]).part.toList.all (· == []) then
        drainTokens b n (match f.token with
          | some w => tokenRx w (onBeam b dropToken s)
          | none => s)
      else s
    | [] => s

/-- What a beam's queues let go at once: records sent again for a committed phase, and then the tokens in front. -/
def drainBeam (b : Beam) (s : State) : State :=
  let s1 := dropStale b (s.beam[b]).seen.length s
  drainTokens b (s1.beam[b]).inbound.length s1

/-- After a commit, records that wait and were sent again for its phase are let go. -/
def drainBeams (s : State) : State := (fins 256).foldl (fun t b => if (t.beam[b]).seen = [] then t else drainBeam b t) s

/-- TOKEN_ARRIVAL. -/
def execTokenArrival (w : DWord) (s : State) : Host.Outcome State Fault Refusal := run (tokenRx w) s

/-- The slots a phase waited on advance by one generation and drop its count (R103). -/
def slotNext (t : TokSlot) : TokSlot := { gen := t.gen + 1, counts := t.counts.drop 1 }

/-- Consumes the tokens of a phase's WAITs. -/
def consume (c : Ctl) : Ctl :=
  { c with bank := (c.waits.map (·.slot)).dedup.foldl (fun b k => aput b k (slotNext ((aget b k).getD {}))) c.bank }

/-- The send record of a beam and remote slot. -/
def sendRec (s : State) (b slot : Nat) : BitVec 8 × Option Word := (aget s.ctl.sendRec (b, slot)).getD (0, none)

/-- A token has been sent on a beam in the current serial, so the beam's streams of the phase are suppressed (R105, Table 4.4). -/
def beamSent (s : State) (b : Beam) : Bool :=
  s.ctl.sendRec.any fun e => e.1.1 == b.val && e.2.2 == some (s.ctl.serial + 1)

/-- A token-only flit in the class of the last stream that the phase sent on the beam, the request class without one (R101). -/
def tokenFlit (s : State) (kind b slot : Nat) : OutFlit :=
  { cls := (aget s.ctl.streams b).getD 0, head := false, payload := []
    token := some (tokenWord kind slot (sendRec s b slot).1.toNat s.ctl.epoch)
    attempt := BitVec.ofNat 4 s.ctl.attempt.toNat }

/-- The tokens of the phase go out, each once per beam, slot and serial (R105). -/
def sendTokens (s : State) : State :=
  s.ctl.tokens.foldl (fun t k =>
    let r := sendRec t k.2.1 k.2.2
    if r.2 = some (t.ctl.serial + 1) then t
    else queueFlits (fin! 256 k.2.1) [tokenFlit t k.1 k.2.1 k.2.2]
      { t with ctl := { t.ctl with sendRec := aput t.ctl.sendRec (k.2.1, k.2.2) (r.1, some (t.ctl.serial + 1)) } }) s

/-- The generations of the sent tokens advance at the commit (R105). -/
def sendAdvance (serial : Word) (l : List ((Nat × Nat) × (BitVec 8 × Option Word))) : List ((Nat × Nat) × (BitVec 8 × Option Word)) :=
  l.map fun e => if e.2.2 = some serial then (e.1, (e.2.1 + 1, none)) else e

/-! ### Commit (R112, Table 4.4) -/

/-- The state that the commit of the sealed phase will establish (R119, Table 4.7). -/
def commitRecord (s : State) : MirrorRec :=
  let it := s.ctl.commit_ == some true
  { recordNow s with
    flags := (s.ctl.barrier, it)
    serial := s.ctl.serial + 1
    epoch := if s.ctl.barrier then s.ctl.epoch + 1 else s.ctl.epoch
    iter := if it then s.ctl.iter + 1 else s.ctl.iter
    pc := (actUnit s).pc + 1 }

/-- The Collective Engine's deferred effects: biases, parking and release, records and lists (Table 4.4). -/
def ceCommit (s : State) : State :=
  let p := s.ce.pend
  let parked := p.parked.foldl (fun l e => aput l e.1 e.2) s.ce.parkedAt
  let c := { s.ce with
    bias := p.bias.foldl (fun l e => aput l e.1 e.2) s.ce.bias
    parkedAt := parked
    parked := (parked.map fun e => e.2.length).foldl (· + ·) 0 % 2 ^ 24
    parkTotal := s.ce.parkTotal + BitVec.ofNat 64 p.fresh
    disp := p.disp.foldl (fun l e => aput l e.1 e.2) s.ce.disp
    lists := p.lists.foldl (fun l e => aput l e.1 e.2) s.ce.lists
    sums := p.sums.getD s.ce.sums
    pend := {} }
  if p.fresh = 0 then { s with ce := c } else flag blkCE 0 0 { s with ce := c }

/-- Bytes that an overflow region holds: parked copies with a 16-byte record each, and deferred sums (R150, R158, R194). -/
def overflowUse (s : State) (h : Nat) : Nat :=
  (((aget s.ce.parkedAt h).getD []).map fun c => 16 + c.data.length).foldl (· + ·) 0 +
    ((s.ce.sums.filter fun d => d.region == h).map fun d => 40 * d.long.length + 4 * d.fast.length).foldl (· + ·) 0

/-- The 40 bytes of a long form (R194). -/
def longBytes (x : LongForm) : List Byte := leBytes 36 (sfield 288 x.1) ++ [x.2, 0, 0, 0]

/-- The bytes of a deferred sum: its long forms, or FP32 (R158, R194, R195). -/
def sumBytes (d : Deferred) : List Byte := d.long.flatMap longBytes ++ d.fast.flatMap fun w => leBytes 4 w.toNat

/-- What an overflow region holds: each parked copy with its 16 bytes of destination and weight, whose layout R150 does not give, and the
deferred sums. -/
def overflowBytes (s : State) (h : Nat) : List Byte :=
  ((indexed ((aget s.ce.parkedAt h).getD [])).flatMap fun e => leBytes 16 (Config.freeValue 128 (s.fresh + 1 + e.1)).toNat ++ e.2.data) ++
    (s.ce.sums.filter fun d => d.region == h).flatMap sumBytes

/-- The bytes are written to the region; where in it no rule says (log entry 140). -/
def overflowStore (s : State) (h : Nat) : State :=
  let b := overflowBytes s h
  match bufLoc s h 0 b.length with
  | some (.hbm a) =>
    let room := (((s.img.image.map fun i : Image => i.regions).getD []).find? fun r => r.id == h / 2 ^ 20 % 256).elim 0 fun r =>
      regionBase r + r.length - a - b.length
    let at_ := a + (Config.freeValue 64 s.fresh).toNat % (room + 1)
    spend (1 + ((aget s.ce.parkedAt h).getD []).length) (hbmWrite at_ b { s with ce := { s.ce with overAt := aput s.ce.overAt h (at_, b.length) } })
  | _ => s

/-- The overflow regions that a commit changes take their bytes (R150, R158, R194). -/
def overflowStores (p : CePend) (old : List Deferred) (s : State) : State :=
  let sums := match p.sums with
    | some l => (old ++ l).map (·.region)
    | none => []
  (p.parked.map (·.1) ++ sums).dedup.foldl overflowStore s

/-- An uncorrectable word in what an overflow region holds. -/
def overflowPoison (s : State) (h : Nat) : Option Nat := (aget s.ce.overAt h).bind fun e => poisonIn s e.1 e.2

/-- What an overflow region holds is read, and counted (Table 13.11). -/
def overflowRead (h : Nat) (s : State) : State :=
  match aget s.ce.overAt h with
  | some e => hbmCount (stackOf e.1) 3 e.2 s
  | none => s

/-- The length of the region that an overflow handle names. -/
def overflowSize (s : State) (h : Nat) : Nat :=
  (((s.img.image.map fun i : Image => i.regions).getD []).find? fun r => r.id == h / 2 ^ 20 % 256).elim 0 (·.length)

/-- park_high follows the overflow regions: set, with its event, when one passes 75 % (Tables 5.18, 5.19). -/
def parkHighCheck (s : State) : State :=
  let hs := (s.ce.parkedAt.map (·.1) ++ s.ce.sums.map (·.region)).dedup
  let high := hs.any fun h => decide (3 * overflowSize s h < 4 * overflowUse s h)
  let s1 := { s with ce := { s.ce with parkHigh := high } }
  if high && !s.ce.parkHigh then flag blkCE 0 1 s1 else s1

/-- The epoch advances at the commit of a barrier (R104); the generations of the epoch start at 0 on both sides (R102). -/
def epochNext (s : State) : State :=
  let c := s.ctl
  dropUnnamed { s with ctl := { c with
    epoch := c.epoch + 1
    bank := if c.nextEpoch = c.epoch + 1 then c.nextBank else []
    nextBank := [], nextEpoch := c.epoch + 2
    notifyGen := [], sendRec := [] } }

/-- Emits the queued commit notifications with the epoch in force after the commit (R101, R102). -/
def sendNotifies (l : List (Nat × Nat)) (s : State) : State :=
  l.foldl (fun t k =>
    let g := (aget t.ctl.notifyGen k).getD 0
    sendToken (fin! 6 k.1) (tokenWord 4 k.2 g.toNat t.ctl.epoch)
      { t with ctl := { t.ctl with notifyGen := aput t.ctl.notifyGen k (g + 1) } }) s

/-- An iteration ends: SQ_ITER, and the first one enables the run-ahead predictor (R115). -/
def iterEnds (s : State) : State :=
  let s1 := { s with ctl := { s.ctl with iter := s.ctl.iter + 1 } }
  if s.ctl.runAhead then s1
  else flag blkCE 0 4 { s1 with ctl := { s1.ctl with runAhead := true }, ce := { s1.ce with epoch := s1.ce.epoch + 1 } }

/-- Hints whose window ends with this commit are over (R419). -/
def hintsEnd (s : State) : State :=
  pwrSettle (onPwr fun p => { p with hints := p.hints.filter fun h => h.2 != s.ctl.serial.toNat }) s

/-- A commit lets the due repairs and retests of the sites start (R341, R388). -/
def repairsAtCommit (s : State) : State :=
  { s with
    wide := s.wide.map fun y => { mods := y.mods.map Module.commitDue }
    reach := s.reach.map fun r => { r with atCommit := r.due } }

/-- Every deferred effect of the phase, at the write of its serial. -/
def commitEffects (s : State) : State :=
  let c := s.ctl
  let s0 := applyOutputs (finishDispatches s)
  let s1 := parkHighCheck (overflowStores s0.ce.pend s0.ce.sums (ceCommit s0))
  let s2 := takeNamed { s1 with ctl := { consume s1.ctl with sendRec := sendAdvance (c.serial + 1) s1.ctl.sendRec, serial := c.serial + 1 } }
  let s3 := if c.barrier then epochNext s2 else s2
  let s4 := if c.commit_ = some true then iterEnds s3 else s3
  repairsAtCommit (hintsEnd (sendNotifies c.notifies s4))

/-! ### Units (Table 4.9) -/

/-- A unit changes state; SQ_STATUS.state_epoch increases on each change (R129). -/
def setUnit (u : Fin 2) (st : UnitState) (s : State) : State :=
  let s1 := onUnit u (fun q => { q with state := st }) s
  if (s.sq.unit[u]).state = st then s1
  else { s1 with sq := { s1.sq with epoch := s1.sq.epoch + 1, takebackNow := false, copied := false, sealed := false } }

/-- The standby's records after a commit: a standby in sync confirms; to one that resyncs the record goes over the link (R119, R121). -/
def standbyCommit (r : MirrorRec) (s : State) : State :=
  let b := standby s
  match (s.sq.unit[b]).state with
  | .inSync => onUnit b (fun q => { q with confirmed := some r, pending := none }) s
  | .resyncing => { s with sq := { s.sq with sent := some (r, false), ackDue := false, sealed := s.sq.copied } }
  | _ => s

/-- The gates swap: the standby continues from the record of the commit, with no re-execution (R127). -/
def swapUnits (s : State) : State :=
  let a := s.sq.active
  let b := standby s
  let u := s.sq.unit[a]
  let load (q : SqUnitSt) : SqUnitSt := { q with pc := u.pc, lc := u.lc, stack := u.stack, v := u.v, confirmed := none, pending := none }
  let s1 := setUnit a .inSync (setUnit b .active (onUnit b load s))
  flag blkSQ 0 1 (mirrorNow { s1 with sq := { s1.sq with active := b } })

/-- A takeback is due at this commit: the primary is standby in sync, by takeback_en or by command (R127, R128). -/
def swapDue (s : State) : Bool := inSync s && standby s == s.sq.primary && (s.sq.takeback || s.sq.takebackNow)

/-- The restart point whose barrier's COMMIT stands at an index. -/
def restartAt (s : State) (i : Nat) : Option RestartRec :=
  ((s.img.image.map fun i : Image => i.restarts).getD []).find? fun r => r.index == i

/-- The sequencer holds at a restart point: its hold flag, or an arming recorded for it (Table 4.6, R97). -/
def holdsAt (s : State) (r : RestartRec) : Bool := r.hold || (s.ctl.arm.map (·.id)) == some r.id

/-- The sequencer enters Held. -/
def enterHeld (id : BitVec 16) (s : State) : State := flag blkSQ 0 6 { s with ctl := { s.ctl with phase := 6, heldAt := some id } }

/-- The commit register takes the next serial: every deferred effect takes place, and the sequencer is Between or Held (R112). -/
def commitWrite (s : State) : State :=
  let i := pcOf s
  let barrier := s.ctl.barrier
  let swap := swapDue s
  let r := commitRecord s
  let s1 := commitEffects s
  let s2 := pcTo (i + 1) { s1 with
    ctl := { dropPhase s1.ctl with phase := 1, attempt := 0, barrier := false }, sq := { s1.sq with sent := none, ackDue := false } }
  let s3 := standbyCommit r s2
  let s4 := if swap && inSync s3 then swapUnits s3 else s3
  let s5 := match (if barrier then restartAt s i else none) with
    | some p => if holdsAt s p then enterHeld p.id s4 else s4
    | none => s4
  penumbraCheck (drainBeams s5)

/-- Every operation of the phase has reported done. -/
def opsDone (s : State) : Bool := s.ctl.ops.all (·.done)

/-- COMMIT decoded and every unit done: the tokens go out, the record goes to the standby; with none in sync the commit is written at once
(R119, Table 4.6). DESIGN CHOICE (log entry 173): R119 sends the record at the decode of COMMIT, Table 4.6 once every unit is done too; the
model follows Table 4.6. -/
def trySeal (s : State) : State :=
  if s.ctl.phase = 4 ∧ s.ctl.commit_.isSome = true ∧ opsDone s = true then
    let s1 := sendTokens s
    let s2 := { s1 with ctl := { s1.ctl with phase := 5 } }
    if inSync s2 then { s2 with sq := { s2.sq with sent := some (commitRecord s2, false), ackDue := false } } else commitWrite s2
  else s

/-- A Reach Port site is degraded: fewer good quads than lane_mask sets, and not failed (R390). -/
def reachDegraded (s : State) (t : ReachIx) : Bool :=
  let g := quadCount (s.reach[t]).good
  let n := quadCount (quadMask s t)
  (siteRec s t.site).use && decide (quadsNeeded n ≤ g ∧ g < n)

/-- V15 at a COMMIT decode and after a resume: the degraded sites (R344, R391). -/
def v15 (s : State) : Byte :=
  BitVec.ofNat 8 (boolsNat ((fins 4).map (fun w => wpDegraded s w != 0) ++ (fins 2).map (fun t => reachDegraded s t)))

/-- The control root writes V15. -/
def writeV15 (s : State) : State := onUnit s.sq.active (fun q => { q with v := upd q.v 15 fun _ => v15 s }) s

/-- COMMIT closes the phase. -/
def commits (iterEnd : Bool) (s : State) : State := trySeal (writeV15 { s with ctl := { s.ctl with commit_ := some iterEnd } })

/-- COMMIT. -/
def execCommit (iterEnd : Bool) (s : State) : Host.Outcome State Fault Refusal :=
  instrRow .body (instrWord 0x0A [(b2n iterEnd, 48)]) (fun _ => none) (fun s => if s.ctl.commit_.isSome then s else commits iterEnd s) s

/-- The streams of an operation have left its Port Engines' queues. -/
def opDrained (s : State) (o : OpSt) : Bool := o.beams.all fun b => (s.beam[b]).queue.all (·.ahead)

/-- Operation `k` may report done: its outputs are written and its streams sent (R136). -/
def opFinished (s : State) (k : Nat) : Bool :=
  match s.ctl.ops[k]? with
  | some o => o.started && o.final && !o.done && opDrained s o
  | none => false

/-- The kind field of CE_ERR_INFO (Table 5.25). -/
def ceKind : CeMem → BitVec 4
  | .staging => 1
  | .window => 2
  | .route => 3
  | .table => 4
  | .eru => 5

/-- The tables and memories of the Collective Engine hold an unspecified value where an error was missed (R402, log entry 221). -/
def ceMissed (s : State) : State :=
  { s with ce := freeCe s.ce (Config.workAfter s.fresh), fresh := s.fresh + 1 }

/-- One code error of the Collective Engine: Corrected, or Contained with its state epoch increased (R164, Tables 5.14, 5.18, 5.25); or missed,
unseen or taken for a correction (R402). -/
def ceError (s0 : State) (c : CeCode) : State :=
  if c.missed && !c.corrects then ceMissed s0 else
  let s := if c.missed then ceMissed s0 else s0
  let s1 := { s with ce := { s.ce with errInfo := (ceKind c.mem, c.unit, c.address) } }
  if c.uncorrectable && !c.missed then abortIf true (eventBit clsContained blkCE 0 3 { s1 with ce := { s1.ce with epoch := s1.ce.epoch + 1 } })
  else eventBit clsCorrected blkCE 0 2 s1

/-- OPERATION_DONE. -/
def opReports (k : Nat) (s : State) : State :=
  if s.ctl.phase = 4 ∧ opFinished s k = true then
    trySeal { s with ctl := { s.ctl with ops := lupd s.ctl.ops k fun o => { o with done := true } } }
  else s

/-- One word of the Reservoir with an error, read by an operation (R407). -/
def opRead (s : State) (r : HbmRead) : State := demandRead (if r.staging then srcStaging else srcCluster) s (r.word, r.err)

/-- A started operation meets code errors while it runs, in its own memories and in the Reservoir, and then reports done; an uncorrectable one
has aborted it (R164, R407). -/
def opEnds (k : Nat) (codes : List CeCode) (words : List HbmRead) (s : State) : State :=
  match s.ctl.ops[k]? with
  | some o => if s.ctl.phase = 4 ∧ o.started ∧ o.done = false then opReports k (words.foldl opRead (codes.foldl ceError s)) else s
  | none => s

/-- OPERATION_DONE. -/
def execOperationDone (k : Nat) (s : State) (codes : List CeCode := []) (words : List HbmRead := []) : Host.Outcome State Fault Refusal :=
  run (stopping (opEnds k codes words)) s

end Sys2Proof.Machine
end

