-- ==== Sys2Proof/Machine/Failover.lean ====
section
/-!
DEFINITION. Fail-over of the sequencers (chapter 4): the Mirror link, the Fail-over Arbiter, takeover, resync, SQ_RESUME and SQ_CMD, and the
phase watchdog.
-/

namespace Sys2Proof.Machine

/-- A unit by its name. -/
def unitIx : SqUnit → Fin 2
  | .a => 0
  | .b => 1

/-! ### Mirror link (R118 to R120) -/

/-- The standby takes Mirror records: in sync, or resyncing. -/
def mirrorOn (s : State) : Bool := inSync s || (s.sq.unit[standby s]).state == .resyncing

/-- The record as it arrives: what it holds is unspecified when an error of a beat was missed (R402, log entry 221). -/
def beatsMissed (beats : Vector CodeResult 8) (n : Nat) (r : MirrorRec) : MirrorRec :=
  if beats.toList.any fun b => b == .missed true || b == .missed false then Config.recordAfter n else r

/-- The beats of a record arrive: a corrected beat is logged; with all eight intact the record is pending and is acknowledged. -/
def mirrorRx (beats : Vector CodeResult 8) (s : State) : State :=
  match s.sq.sent with
  | none => s
  | some (r, _) =>
    if mirrorOn s = false ∨ s.sq.ackDue = true then s
    else
      let s1 := beats.toList.foldl (fun t b => if b = .corrected ∨ b = .missed true then logEvent clsCorrected blkSQ 0x0100 0 t else t) s
      if beats.toList.contains .uncorrectable then s1
      else onUnit (standby s) (fun q => { q with pending := some (beatsMissed beats s.fresh r) })
        { s1 with fresh := s1.fresh + 1, sq := { s1.sq with ackDue := true } }

/-- MIRROR_RECORD. -/
def execMirrorRecord (beats : Vector CodeResult 8) (s : State) : Host.Outcome State Fault Refusal := run (mirrorRx beats) s

/-- The record of the first commit sealed after the resync copy is acknowledged: the standby is in sync and confirms it (R121, Table 4.9,
log entry 128). -/
def resyncEnds (s : State) : State :=
  let b := standby s
  flag blkSQ 0 3 (onUnit b (fun q => { q with confirmed := q.pending, pending := none }) (setUnit b .inSync s))

/-- The acknowledgement arrives: a Sealing phase is committed (Table 4.6), or a standby that resynced is in sync. -/
def mirrorAcked (s : State) : State :=
  if s.sq.ackDue = false then s
  else
    let s1 := { s with sq := { s.sq with sent := none, ackDue := false } }
    if s.ctl.phase = 5 ∧ inSync s = true then commitWrite s1
    else if (s.sq.unit[standby s]).state = .resyncing ∧ s.sq.sealed = true then resyncEnds s1
    else s1

/-- MIRROR_ACK. -/
def execMirrorAck (s : State) : Host.Outcome State Fault Refusal := run mirrorAcked s

/-- A standby that is no longer in sync lets a Sealing phase commit without it (Table 4.6). -/
def sealAlone (s : State) : State :=
  if s.ctl.phase = 5 ∧ inSync s = false then commitWrite { s with sq := { s.sq with sent := none, ackDue := false } } else s

/-- The Mirror has failed: the standby becomes stale, reported as Corrected (R120, R121). -/
def mirrorFails (s : State) : State :=
  let s1 := setUnit (standby s) .stale (onUnit (standby s) (fun q => { q with pending := none, confirmed := none })
    { s with sq := { s.sq with sent := none, ackDue := false } })
  sealAlone (eventBit clsCorrected blkSQ 0 2 s1)

/-- No acknowledgement within 64 cycles: the record goes once more; the second time the standby becomes stale. -/
def mirrorTimeout (s : State) : State :=
  match s.sq.sent with
  | none => s
  | some (r, again) =>
    if mirrorOn s = false then s
    else if again then mirrorFails s
    else { s with sq := { s.sq with sent := some (r, true), ackDue := false } }

/-- MIRROR_ACK_TIMEOUT. -/
def execMirrorAckTimeout (s : State) : Host.Outcome State Fault Refusal := run mirrorTimeout s

/-! ### Phase watchdog (R114) -/

/-- The watchdog's count pauses: the phase has unmet WAITs, every one of them exempt, and the site of each neither Disabled nor
Contained. -/
def watchdogPaused (s : State) : Bool :=
  let l := s.ctl.waits.filter fun w => !waitMet s.ctl w
  l != [] && l.all fun w => w.exempt &&
    !((s.site[fin! 6 w.site]).state == siDisabled || (s.site[fin! 6 w.site]).state == siContained)

/-- The watchdog expires: its phase_id is recorded and the epoch is aborted as a Contained event, during a takeover once that is complete
(R114, Table 4.11). -/
def watchdogExpires (s : State) : State :=
  if s.ctl.watchdog = false ∨ (s.ctl.phase = 2 ∧ watchdogPaused s = true) then s
  else
    let s1 := eventBit clsContained blkSQ 0 5 { s with sq := { s.sq with wdog := s.ctl.phaseId }, ctl := { s.ctl with watchdog := false } }
    match s1.sq.fence with
    | some f => { s1 with sq := { s1.sq with fence := some { f with abortAfter := true } } }
    | none => abortIf true s1

/-- PHASE_WATCHDOG_EXPIRY. -/
def execPhaseWatchdogExpiry (s : State) : Host.Outcome State Fault Refusal := run (stopping watchdogExpires) s

/-! ### Failures (R122 to R126) -/

/-- The arbiter watches a unit: active, in sync, stale or resyncing (R122). -/
def watched (s : State) (u : Fin 2) : Bool := commitFits (s.sq.unit[u]).state

/-- A heartbeat restarts the arbiter's count for its unit. -/
def heartbeat (u : Fin 2) (s : State) : State :=
  if watched s u then { s with sq := { s.sq with beatAt := upd s.sq.beatAt u fun _ => s.time } } else s

/-- HEARTBEAT_SEND. -/
def execHeartbeatSend (u : SqUnit) (s : State) : Host.Outcome State Fault Refusal := run (heartbeat (unitIx u)) s

/-- A unit is Failed: its fail count and cause; a forced failure does not count towards the third (R128). -/
def failUnit (u : Fin 2) (cause : Nat) (forced : Bool) (s : State) : State :=
  setUnit u .failed (onUnit u (fun q => { q with
    failCount := if q.failCount = BitVec.allOnes 8 then q.failCount else q.failCount + 1
    cause := BitVec.ofNat 4 cause
    strikes := if forced then q.strikes else q.strikes + 1
    confirmed := none, pending := none }) s)

/-- A failed unit is reset within its island and enters self-test, or is kept out at its third failure (R126). DESIGN CHOICE (log entry 174):
a unit readmitted after its third failure has three still, so that its next failure, a forced one too, keeps it out without a self-test. -/
def failedUnit (u : Fin 2) (s : State) : State :=
  if 3 ≤ (s.sq.unit[u]).strikes then eventBit clsCorrected blkSQ 0 9 (setUnit u .keptOut s) else setUnit u .selfTest s

/-- No program runs: Idle, Stopped or Ended (R125). -/
def phaseQuiet (c : BitVec 4) : Bool := c == 0 || c == 9 || c == 10

/-- A standby becomes active; failover is set and the time recorded. -/
def takeOver (u : Fin 2) (s : State) : State :=
  setUnit u .active { s with sq := { s.sq with active := u, foTime := BitVec.ofNat 64 s.time } }

/-- The active fails with no program running: a standby in sync becomes active at once (R125). -/
def failQuiet (u : Fin 2) (cause : Nat) (forced : Bool) (s : State) : State :=
  let b := otherUnit u
  let ok := inSync s
  let s1 := failUnit u cause forced s
  let s2 := if ok then setEv blkSQ 0 0 (takeOver b s1) else s1
  failedUnit u (logEvent clsCorrected blkSQ 0x0103 0 s2)

/-- The fence drops the unsent DATA flits of the streams of the phase of a serial. A token that its Port Engine has taken, which its send
record marks as sent, still leaves (R105, R124). -/
def fenceUnsent (n : Word) (q : BeamSt) : BeamSt := { q with queue := q.queue.filter fun o => o.ahead || o.token.isSome || o.serial != n }

/-- What the fence cancels: the uncommitted phase's operations, outputs and unsent flits. Inbound streams, admitted results and sent
tokens stay (R123, R124). -/
def fenceDrops (s : State) : State :=
  { s with
    ctl := { s.ctl with
      waits := [], switch_ := none, notifies := [], tokens := [], streams := [], ops := [], outputs := [], commit_ := none, fetching := none }
    ce := { s.ce with pend := {}, queue := s.ce.queue.filter fun e => e.serial != s.ctl.serial + 1 }
    beam := s.beam.map (fenceUnsent (s.ctl.serial + 1))
    sq := { s.sq with sent := none, ackDue := false } }

/-- The active fails while the standby is in sync: Fenced (Table 4.8, events 1 to 3). -/
def failFence (u : Fin 2) (cause : Nat) (forced : Bool) (s : State) : State :=
  let f : Fence := { failed := u, from_ := s.ctl.phase }
  let s1 := fenceDrops (failUnit u cause forced s)
  { s1 with ctl := { s1.ctl with phase := 8 }, sq := { s1.sq with fence := some f } }

/-- The job ends: no standby in sync (R125). -/
def failEnds (s : State) : State :=
  let s1 := noticeAll 6 { s with
    ctl := { dropPhase s.ctl with phase := 10 }
    ce := { s.ce with pend := {}, queue := [], window := [], area := none }
    beam := s.beam.map (dropUnsent (s.ctl.serial + 1))
    sq := { s.sq with sent := none, ackDue := false, fence := none } }
  logEvent clsContained blkSQ 0x0103 0 s1

/-- The standby fails: Corrected; during a takeover both have failed and the job ends (R125, R128). -/
def failStandby (u : Fin 2) (cause : Nat) (s : State) : State :=
  if s.ctl.phase = 8 then
    let f := s.sq.active
    failedUnit f (failedUnit u (failEnds (failUnit u cause false s)))
  else sealAlone (failedUnit u (logEvent clsCorrected blkSQ 0x0102 0 (failUnit u cause false s)))

/-- The arbiter declares a unit failed. A unit that it does not watch is not declared failed again (R122). -/
def declareFailed (u : Fin 2) (cause : Nat) (forced : Bool) (s : State) : State :=
  if watched s u = false then s
  else if (s.sq.unit[u]).state ≠ .active then failStandby u cause s
  else if phaseQuiet s.ctl.phase then failQuiet u cause forced s
  else if inSync s then failFence u cause forced s
  else failedUnit u (failEnds (failUnit u cause forced s))

/-- HEARTBEAT_TIMEOUT: 1,024 cycles of 1 ns without a heartbeat, so one of its own microsecond has passed. -/
def execHeartbeatTimeout (u : SqUnit) (s : State) : Host.Outcome State Fault Refusal :=
  run (stopping fun s => if s.sq.beatAt[unitIx u] < s.time then declareFailed (unitIx u) 1 false s else s) s

/-- What a check of the stores or the control root reports (R122, Table 4.10): a unit failure, a Corrected event of the unit, or a Contained
event of the control root. -/
def sqReports (u : Fin 2) (why : SqFault) (s : State) : State :=
  match why with
  | .store => declareFailed u 2 false s
  | .internalCheck => declareFailed u 3 false s
  | .corrected => logEvent clsCorrected blkSQ 0x0100 u.val s
  | .controlRoot => abortIf true (logEvent clsContained blkSQ 0x0101 0 s)
  | .missed root corrects =>
    let s1 := if corrects then logEvent clsCorrected blkSQ 0x0100 u.val s else s
    let w := Config.workAfter s1.fresh
    if root then { s1 with ctl := freeCtl s1 w.ctl, fresh := s1.fresh + 1 }
    else onUnit u (fun q => { q with program := w.unit[u].program, window := w.unit[u].window, plans := w.unit[u].plans })
      { s1 with fresh := s1.fresh + 1 }

/-- SEQUENCER_FAILURE_SIGNAL. -/
def execSequencerFailureSignal (u : SqUnit) (why : SqFault) (s : State) : Host.Outcome State Fault Refusal :=
  run (stopping (sqReports (unitIx u) why)) s

/-- The record that the standby takes: the pending one when the commit register holds its serial, else the confirmed one (Table 4.8). -/
def chosenRecord (q : SqUnitSt) (serial : Word) : Option MirrorRec × Bool :=
  match q.pending with
  | some r => if r.serial = serial then (some r, true) else (q.confirmed, false)
  | none => (q.confirmed, false)

/-- A record is loaded into a unit. -/
def loadRecord (r : Option MirrorRec) (q : SqUnitSt) : SqUnitSt :=
  match r with
  | some r => { q with pc := r.pc, lc := r.lc, stack := r.stack, v := r.v, confirmed := none, pending := none }
  | none => { q with confirmed := none, pending := none }

/-- A takeover from Held stays at the hold while a replacement is being applied there, once one has been applied, or while a record is held
for the point (Table 3.19, R97); at a point held by its flag alone it ends in Between as every takeover does (Table 4.6, log entry 172). -/
def holdStays (s : State) : Bool := s.img.copying || s.ctl.applied || (s.ctl.arm.isSome && (s.ctl.arm.map (·.id)) == s.ctl.heldAt)

/-- The phase state after a takeover from a state (Tables 4.6, 4.8, 4.11). -/
def afterFence (from_ : BitVec 4) (s : State) : BitVec 4 := if from_ = 7 ∨ (from_ = 6 ∧ holdStays s = true) then from_ else 1

/-- A watchdog that expired during the takeover aborts the epoch once it is complete (Table 4.11). -/
def lateAbort (due : Bool) (s : State) : State := if due then abortIf true s else s

/-- Every unit has acknowledged the fence: the standby takes its record and becomes active (Table 4.8, events 4 to 8). -/
def fenceDone (s : State) : State :=
  match s.sq.fence with
  | none => s
  | some f =>
    let b := otherUnit f.failed
    if s.ctl.phase ≠ 8 ∨ (s.sq.unit[b]).state ≠ .inSync then s
    else
      let c := chosenRecord (s.sq.unit[b]) s.ctl.serial
      let ph := afterFence f.from_ s
      let s1 := onUnit b (loadRecord c.1) { s with
        ctl := { s.ctl with
          phase := ph, attempt := if c.2 then s.ctl.attempt else s.ctl.attempt + 1, heldAt := if ph = 6 then s.ctl.heldAt else none }
        sq := { s.sq with fence := none } }
      let s2 := eventBit clsRecoverable blkSQ 0 0 (takeOver b s1)
      penumbraCheck (lateAbort f.abortAfter (failedUnit f.failed s2))

/-- FENCE_ACKNOWLEDGED. -/
def execFenceAcknowledged (s : State) : Host.Outcome State Fault Refusal := run fenceDone s

/-- An active unit exists. -/
def anyActive (s : State) : Bool := (activeUnit s.sq.unit).isSome

/-- The self-test of a unit ends (R126, Table 4.9). -/
def selfTested (u : Fin 2) (pass : Bool) (s : State) : State :=
  if (s.sq.unit[u]).state ≠ .selfTest then s
  else if pass then heartbeat u (setUnit u (if anyActive s then .resyncing else .stale) s)
  else eventBit clsCorrected blkSQ 0 4 (setUnit u .keptOut (onUnit u (fun q => { q with cause := 4 }) s))

/-- SELF_TEST_COMPLETE. -/
def execSelfTestComplete (u : SqUnit) (pass : Bool) (s : State) : Host.Outcome State Fault Refusal := run (selfTested (unitIx u) pass) s

/-- A resync of a stale standby starts (R121). -/
def resyncStart (s : State) : State :=
  if anyActive s && (s.sq.unit[standby s]).state == .stale then setUnit (standby s) .resyncing s else s

/-- RESYNC_TIMER. -/
def execResyncTimer (s : State) : Host.Outcome State Fault Refusal := run resyncStart s

/-- A unit takes the schedule memory and the plan store of another (R121). -/
def copyStores (u q : SqUnitSt) : SqUnitSt := { q with program := u.program, window := u.window, plans := u.plans }

/-- The copy over the Mirror link has ended: the standby holds the active's stores, and is in sync at the next sealed commit (R121). -/
def resyncCopied (s : State) : State :=
  if anyActive s && (s.sq.unit[standby s]).state == .resyncing then
    onUnit (standby s) (copyStores (actUnit s)) { s with sq := { s.sq with copied := true } }
  else s

/-- RESYNC_COPY_DONE. -/
def execResyncCopyDone (s : State) : Host.Outcome State Fault Refusal := run resyncCopied s

/-! ### SQ_RESUME (R116, R117) -/

/-- SQ_CMD_STATUS takes a command and its result. -/
def sqResult (code result : Nat) (s : State) : State :=
  { s with sq := { s.sq with cmd := (BitVec.ofNat 8 code, false, BitVec.ofNat 2 result) } }

/-- An arming record marked partial is held. -/
def partHeld (s : State) : Bool := (s.ctl.arm.map (·.part)).getD false

/-- The restart point of an id. -/
def restartById (s : State) (id : BitVec 16) : Option RestartRec :=
  ((s.img.image.map fun i : Image => i.restarts).getD []).find? fun r => r.id == id

/-- A resume is refused (R117); without an active unit nothing can resume either. -/
def goRefused (s : State) (id : BitVec 16) : Bool :=
  !(s.ctl.phase == 7 || s.ctl.phase == 0) || s.img.image.isNone || s.img.committing || (restartById s id).isNone || partHeld s || !anyActive s

/-- The token banks on a resume at an epoch (R104). -/
def banksResume (e : Word) (c : Ctl) : Ctl :=
  { c with epoch := e, bank := if c.nextEpoch = e then c.nextBank else [], nextBank := [], nextEpoch := e + 1, notifyGen := [], sendRec := [] }

/-- Every overflow list and deferred sum is cleared (R165). -/
def overflowClear (s : State) : State :=
  { s with ce := { s.ce with parkedAt := [], sums := [], overAt := [], disp := [], parked := 0, parkHigh := false } }

/-- An arming for another point is withdrawn by a resume; a partial record stays (R97). -/
def resumeArm (id : BitVec 16) (s : State) : State :=
  if (s.ctl.arm.map fun a => a.id != id).getD false then
    let s1 := withdrawArm s
    { s1 with ctl := clearArm s1.ctl }
  else s

/-- The sequencer resumes after the barrier of a restart point; at the armed point it holds, so that the replacement is applied
(R116, Table 3.19). -/
def resumeAt (r : RestartRec) (s0 : State) : State :=
  let s := resumeArm r.id (overflowClear { s0 with beam := s0.beam.map fun q => { q with seen := [] } })
  let s1 := { s with ctl := { banksResume s.sq.resumeEpoch (dropPhase s.ctl) with phase := 1, newEntry := false } }
  let s2 := onUnit s1.sq.active (fun q => { q with
    lc := Vector.replicate 8 0, stack := [], v := Vector.replicate 16 0, pc := BitVec.ofNat 16 (r.index + 1) }) s1
  let s3 := noticeAll 5 (mirrorNow (writeV15 s2))
  if (s3.ctl.arm.map (·.id)) = some r.id then enterHeld r.id s3 else s3

/-- A write of SQ_RESUME (R117). With go and release both set the command code reported is open. -/
def resumeWrite (v : Word) (s : State) : State :=
  let id := BitVec.ofNat 16 (fld v 15 0)
  if bit v 31 ∧ bit v 30 then
    sqResult (if Config.freeChoice s.fresh then 0x10 else 0x11) 3 { s with fresh := s.fresh + 1 }
  else if bit v 31 then
    (if goRefused s id then sqResult 0x10 3 s
     else match restartById s id with
       | some r => sqResult 0x10 1 (resumeAt r s)
       | none => s)
  else if bit v 30 then
    (if s.ctl.phase ≠ 6 ∨ s.img.copying = true ∨ applyReady s = true ∨ partHeld s = true then sqResult 0x11 3 s
     else sqResult 0x11 1 (penumbraCheck (holdEnds s)))
  else s

/-- SQ_RESUME_GO. -/
def execSqResumeGo (v : Word) (s : State) : Host.Outcome State Fault Refusal := regRow 0x9002C v (resumeWrite v) s

/-- SQ_RESUME_RELEASE. -/
def execSqResumeRelease (v : Word) (s : State) : Host.Outcome State Fault Refusal := regRow 0x9002C v (resumeWrite v) s

/-! ### SQ_CMD (R129) -/

/-- The unit other than the active one; without an active unit, the one that satisfies `p`. -/
def cmdUnit (s : State) (p : UnitState → Bool) : Option (Fin 2) :=
  [standby s, s.sq.active].find? fun u => (s.sq.unit[u]).state != .active && p (s.sq.unit[u]).state

/-- A unit that can be kept out: a standby in sync or stale, failed, in self-test or resyncing. -/
def canKeepOut (c : UnitState) : Bool := c != .active && c != .keptOut

/-- A unit is kept out by command. During a takeover it leaves no unit to take over, and the job ends as with no standby in sync (R125, log
entry 125). -/
def keepOut (u : Fin 2) (s : State) : State :=
  let s1 := eventBit clsCorrected blkSQ 0 9 (setUnit u .keptOut s)
  match s.sq.fence with
  | some f => if (s.sq.unit[u]).state = .inSync then failedUnit f.failed (failEnds s1) else s1
  | none => sealAlone s1

/-- What an allowed command does, none when it is refused (R129, Table 4.9). -/
def sqEffect (code : Nat) (s : State) : Option State :=
  if code = 1 then
    (if (actUnit s).state = .active ∧ inSync s = true then some (declareFailed s.sq.active 5 true s) else none)
  else if code = 2 then (cmdUnit s (· == .stale)).map fun u => setUnit u .resyncing s
  else if code = 3 then
    (if inSync s && standby s == s.sq.primary then some { s with sq := { s.sq with takebackNow := true } } else none)
  else if code = 4 then (cmdUnit s canKeepOut).map fun u => keepOut u s
  else if code = 5 then (cmdUnit s (· == .keptOut)).map fun u => setUnit u .selfTest s
  else none

/-- A write of SQ_CMD: stale, refused or carried out. -/
def sqCmd (code : Nat) (epoch : BitVec 16) (s : State) : State :=
  if epoch ≠ s.sq.epoch then flag blkSQ 0 8 (sqResult code 2 s)
  else match sqEffect code s with
    | some t => sqResult code 1 t
    | none => sqResult code 3 s

/-- SQ_CMD_FORCE_FAILOVER. -/
def execSqCmdForceFailover (epoch : BitVec 16) (s : State) : Host.Outcome State Fault Refusal := runBar (stopping (sqCmd 1 epoch)) s
/-- SQ_CMD_RESYNC_STANDBY. -/
def execSqCmdResyncStandby (epoch : BitVec 16) (s : State) : Host.Outcome State Fault Refusal := runBar (stopping (sqCmd 2 epoch)) s
/-- SQ_CMD_TAKE_BACK_NOW. -/
def execSqCmdTakeBackNow (epoch : BitVec 16) (s : State) : Host.Outcome State Fault Refusal := runBar (stopping (sqCmd 3 epoch)) s
/-- SQ_CMD_KEEP_STANDBY_OUT. -/
def execSqCmdKeepStandbyOut (epoch : BitVec 16) (s : State) : Host.Outcome State Fault Refusal := runBar (stopping (sqCmd 4 epoch)) s
/-- SQ_CMD_READMIT. -/
def execSqCmdReadmit (epoch : BitVec 16) (s : State) : Host.Outcome State Fault Refusal := runBar (stopping (sqCmd 5 epoch)) s

end Sys2Proof.Machine
end

