-- ==== Sys2Proof/Machine/Records.lean ====
section
/-!
DEFINITION. What the operations of the Collective Engine share: starting an issued operation, its inputs and outputs, sending records and
admitting received ones (chapter 5).
-/

namespace Sys2Proof.Machine

/-- An effect that may meet a host error, named by its rule. -/
abbrev Res := Except Nat State

/-- An effect has sent on a beam that the plan in force does not light: a stream of the phase, or a run-ahead stream (R206). -/
def sendsUnlit (s t : State) : Bool :=
  (t.ctl.streams.any fun e => !beamInPlan t (fin! 256 e.1)) || (t.ce.queue.any fun e => !s.ce.queue.contains e && !beamInPlan t e.beam)

/-- The outcome of an effect on a state. A stream on an unlit beam is an inconsistent image structure (R206). -/
def resOut (s : State) : Res → Host.Outcome State Fault Refusal
  | .ok t => if sendsUnlit s t then hostError 206 s else done (stopAfter s t)
  | .error r => hostError r s

/-- The host error of an operation's descriptor, none when it agrees with its rules. -/
abbrev OpCheck := State → OpSt → Option Nat

/-- An operation that was issued in the running phase and has not started runs: with a descriptor that its rules exclude it is an
inconsistent image structure. -/
def opRow (code k : Nat) (bad : OpCheck) (f : Nat → OpSt → State → Res) (s : State) : Host.Outcome State Fault Refusal :=
  if running s = false ∨ s.ctl.phase ≠ 4 then done s
  else match s.ctl.ops[k]? with
    | none => done s
    | some o =>
      if opCode o ≠ code ∨ o.started then done s
      else match bad s o with
        | some r => hostError r s
        | none => resOut s (f k o s)

/-- Changes one operation of the phase. -/
def onOp (k : Nat) (f : OpSt → OpSt) (s : State) : State := { s with ctl := { s.ctl with ops := lupd s.ctl.ops k f } }

/-- The operation has read its inputs. -/
def opStarts (k : Nat) (s : State) : State := onOp k (fun o => { o with started := true }) s

/-- Every output of the operation is formed and every stream handed to its Port Engine. -/
def opFinal (k : Nat) (s : State) : State := onOp k (fun o => { o with started := true, final := true }) s

/-! ### Inputs and outputs (R51, R134, R355) -/

/-- A buffer of `n` bytes exists: in its space, or a die stream of a site. -/
def bufFits (s : State) (h n : Nat) : Bool := (bufLoc s h 0 n).isSome

/-- What an operation finds of an input buffer. -/
inductive Input where
  | ready (b : List Byte)
  | waiting (x : SiteIx) (stream off : Nat)
  | mismatch (x : SiteIx)
  | poisoned (word : Nat)
  | bad (rule : Nat)
  deriving DecidableEq, Repr

/-- An input of `n` bytes: committed bytes of memory, or the transfer that a die-stream handle names, of the same length (R355). -/
def inputOf (s : State) (h n : Nat) : Input :=
  match bufLoc s h 0 n with
  | none => .bad 134
  | some (.die x stream off) =>
    (match transferAt s x stream off with
     | none => .waiting x stream off
     | some t => if t.length = n then .ready t.data else .mismatch x)
  | some l =>
    if inWindow s l n then .bad 156
    else match locPoison s l n with
      | some w => .poisoned w
      | none => .ready (locRead s l n)

/-- Names the transfers among inputs. -/
def nameInputs (l : List (Nat × Nat)) (s : State) : State :=
  l.foldl (fun t e => match bufLoc s e.1 0 e.2 with
    | some (.die x stream off) => nameTransfer x stream off t
    | _ => t) s

/-- The bytes that an operation's inputs read in the Reservoir, counted once, as it starts (Table 13.11). -/
def countInputs (l : List (Nat × Nat)) (s : State) : State :=
  l.foldl (fun t e => match bufLoc s e.1 0 e.2 with
    | some p => countRead p e.2 t
    | none => t) s

/-- The requester that reads a word for an operation: a staging transfer in a region of use 5, else a cluster or ERU (Tables 13.3, 13.10). -/
def readSource (s : State) (word : Nat) : Nat :=
  match regionAt s (16 * word) with
  | some r => if r.use = 5 then srcStaging else srcCluster
  | none => srcCluster

/-- Reads inputs, each a handle and a length, for an operation. While a transfer is missing the operation has not started; a length mismatch
is Contained on the site's streams, an uncorrectable word Contained. -/
def withInputs (l : List (Nat × Nat)) (f : List (List Byte) → State → Res) (s : State) : Res :=
  let ins := l.map fun e => inputOf s e.1 e.2
  match ins.findSome? fun i => match i with
    | .bad r => some r
    | _ => none with
  | some r => .error r
  | none =>
    let s1 := nameInputs l s
    match ins.find? fun i => match i with
      | .ready _ => false
      | _ => true with
    | some (.mismatch x) => .ok (containStreams x 8 0x0102 s1)
    | some (.poisoned w) => .ok (uncorrContained (readSource s1 w) w s1)
    | some _ => .ok s1
    | none => f (ins.map fun i => match i with
        | .ready b => b
        | _ => []) s1

/-- Stages one output piece of a buffer: visible at the commit (R51). A transfer past its stream's window is not sent and is Contained. -/
def stage (h off : Nat) (b : List Byte) (s : State) : State :=
  match bufLoc s h off b.length with
  | some (.die x stream o) =>
    if pastWindow s x stream o (off + b.length) then containStreams x 8 0x0102 s
    else { s with ctl := { s.ctl with outputs := s.ctl.outputs ++ [(h, off, b)] } }
  | _ => { s with ctl := { s.ctl with outputs := s.ctl.outputs ++ [(h, off, b)] } }

/-! ### Sending records (R147, R136) -/

/-- A record cut into DATA flits, the first with the head flag (R235, R252). -/
def recordFlits (cls : BitVec 2) (attempt : BitVec 4) (ahead : Bool) (b : List Byte) : List OutFlit :=
  (indexed (chunksOf 240 ((b.length + 239) / 240) b)).map fun e =>
    { cls := cls, head := e.1 == 0, token := none, attempt := attempt, payload := e.2, ahead := ahead }

/-- Attempt of the phase's streams, 4 bits. -/
def attempt4 (s : State) : BitVec 4 := BitVec.ofNat 4 s.ctl.attempt.toNat

/-- Operation `k` hands a record to a Port Engine; a stream whose token has been sent is suppressed (R105, Table 4.4). -/
def sendRecord (k : Nat) (b : Beam) (cls : BitVec 2) (bytes : List Byte) (s : State) : State :=
  if beamSent s b then s
  else
    let s1 := queueFlits b (recordFlits cls (attempt4 s) false bytes) s
    onOp k (fun o => { o with beams := if o.beams.contains b then o.beams else b :: o.beams })
      { s1 with ctl := { s1.ctl with streams := aput s1.ctl.streams b.val cls } }

/-! ### Receiving records (R112, R147) -/

/-- Takes a beam's record of `n` bytes of a type from the queue of a class: `f` has its effect, then the tokens behind it count. Of a record
that is not there whole, what is there leaves for its destination; a record of another type, or one that is not the operation's, waits. -/
def takeRecord (b : Beam) (c : Fin 2) (typ n : Nat) (mine : BitVec 4 → List Byte → Bool) (f : BitVec 4 → List Byte → State → Res) (s : State) : Res :=
  let l := atHand s.beam[b] c
  let x := recordAt n (l.length + 1) l 0
  match (l.drop x.1).head? with
  | none => .ok s
  | some h =>
    if (byteAt h.payload 0).toNat ≠ typ then .ok s
    else match x.2 with
      | none => .ok (onBeam b (handOn c x.1 (l.length - x.1)) s)
      | some (k, r) =>
        if mine h.attempt r = false then .ok s
        else match f h.attempt r (onBeam b (handOn c (x.1 + k) 0) s) with
          | .ok s1 => .ok (drainBeam b s1)
          | .error e => .error e

/-- A record is not operation `k`'s: that has taken another one with the same header from the open stream, under another attempt (R52). -/
def otherOps (s : State) (b : Beam) (k : Nat) (form : SegForm) (att : BitVec 4) (r : List Byte) : Bool :=
  let now := s.ctl.serial + 1
  !(s.beam[b]).seen.any (isAgain now k att form r) && (s.beam[b]).seen.any (tookOther now k att form r)

/-- A record row: for an operation that the running phase has issued, of the right kind. -/
def recordRow (b : Beam) (typ k : Nat) (form : SegForm) (fits : OpSt → Bool) (cls : OpSt → Fin 2) (len : OpSt → Nat)
    (f : OpSt → BitVec 4 → List Byte → State → Res) (s : State) : Host.Outcome State Fault Refusal :=
  if running s = false ∨ s.ctl.phase ≠ 4 then done s
  else match s.ctl.ops[k]? with
    | none => done s
    | some o => if fits o = false then done s else resOut s (takeRecord b (cls o) typ (len o) (fun att r => !otherOps s b k form att r) (f o) s)

/-- Notes that operation `k` has taken a record from a beam's open stream. -/
def noteSeen (k : Nat) (b : Beam) (att : BitVec 4) (form : SegForm) (loose : Bool) (r : List Byte) (s : State) : State :=
  let e : SeenRec := { attempt := att, op := k, serial := s.ctl.serial + 1, form := form, loose := loose, bytes := r }
  onBeam b (fun q => { q with seen := q.seen ++ [e] }) s

/-- Admits a record to operation `k` once per source and phase of the source (R112, Table 4.4): a second one of a beam's open stream, which a
fence at the sender makes it send again, is dropped (R52, R58). `loose`: it is a Fast-mode sum. -/
def admitRec (k : Nat) (b : Beam) (att : BitVec 4) (form : SegForm) (r : List Byte) (data : List Byte) (total : Nat) (s : State)
    (loose : Bool := false) : State :=
  let again := isAgain (s.ctl.serial + 1) k att form r
  if (s.beam[b]).seen.any again then onBeam b (fun q => { q with seen := renew att again q.seen }) s
  else
    let s1 := noteSeen k b att form loose r s
    { s1 with ctl := { s1.ctl with
      admitted := s1.ctl.admitted ++ [{ op := k, beam := b, head := r.take 16, form := form, data := data, total := total }] } }

end Sys2Proof.Machine
end

