-- ==== Sys2Proof/Machine/Gate.lean ====
section
/-!
DEFINITION. GATE (R137 to R142, R178 to R183): gate programs, the GEMM, activation, top-k, histogram and bias update.
-/

namespace Sys2Proof.Machine

/-! ### Gate programs (R138) -/

/-- A gate operation record. -/
structure GateRec where
  /-- op -/
  op : Nat
  /-- fmt -/
  fmt : Nat
  /-- flags -/
  flags : Nat
  /-- Operand a -/
  a : Nat
  /-- Operand b -/
  b : Nat
  /-- Operand c -/
  c : Nat
  deriving DecidableEq, Repr

/-- The record that 16 bytes hold. -/
def gateRec (w : BitVec 128) : GateRec :=
  let x := w.toNat
  { op := bits x 7 0, fmt := bits x 15 8, flags := bits x 31 16, a := bits x 63 32, b := bits x 95 64, c := bits x 127 96 }

/-- A gate program from its first record on: each operation at most once, in the order of Table 5.5, up to END. -/
def gateProgram : List (BitVec 128) → Nat → Option (List GateRec)
  | [], _ => none
  | w :: r, last =>
    let g := gateRec w
    if g.op ≤ last ∨ 7 < g.op then none else if g.op = 7 then some [] else (gateProgram r g.op).map (g :: ·)

/-- An operation of a program. -/
def gateOp (p : List GateRec) (op : Nat) : Option GateRec := p.find? fun g => g.op == op

/-! ### The GEMM (R178 to R183) -/

/-- The pairs of weight and token formats of Table 6.5. -/
def gemmPair (w t : Nat) : Bool :=
  let narrow (x : Nat) : Bool := x == 3 || x == 4 || (decide (5 ≤ x) && decide (x ≤ 10))
  let half (x : Nat) : Bool := x == 1 || x == 2
  (narrow w && narrow t) || (w == 0xB && t == 0xB) || (half w && half t)

/-- Bytes of a dense or a 2:4 weight column of H positions before rounding up to the stride (R172, R182). -/
def colBytes (f : Elem) (sparse : Bool) (h : Nat) : Nat :=
  if sparse then f.bits * (h / 2) / 8 + h / 8 + (if f.isMx then h / 32 else 0) else rowBytes f h

/-- The stored value `j` of a 2:4 column, under the scale of its positions (R182). -/
def sparseValue (f : Elem) (h : Nat) (b : List Byte) (j : Nat) : FV :=
  elemValue f (if f.isMx then (nth b (f.bits * (h / 2) / 8 + h / 8 + j / 16) 0).toNat else 0) (elemAt b f.bits j)

/-- The four positions of group `g` of a 2:4 column (R183). -/
def sparseGroup (f : Elem) (h : Nat) (b : List Byte) (g : Nat) : List FV :=
  let m := (nth b (f.bits * (h / 2) / 8 + g / 2) 0).toNat / 16 ^ (g % 2) % 16
  let i0 := m % 4
  let i1 := m / 4
  (List.range 4).map fun i =>
    if i = i0 then sparseValue f h b (2 * g) else if i = i1 ∧ i0 < i1 then sparseValue f h b (2 * g + 1) else FV.zero

/-- The decoded weight column. -/
def column (f : Elem) (sparse : Bool) (h : Nat) (b : List Byte) : List FV :=
  if sparse then (List.range (h / 4)).flatMap (sparseGroup f h b) else decodeRow f h b

/-- One score: FP32 accumulation of exact block sums (R178), or one conversion of the exact integer sum (R180). -/
def score (ints : Bool) (x w : List FV) : Word :=
  let p := List.zipWith FV.mul x w
  if ints then toF32 (exactSum p)
  else (chunksOf 32 (p.length / 32) p).foldl (fun acc b => toF32 ((ofF32 acc).add (exactSum b))) 0

/-- The scores of every token against every expert (R178). -/
def gemm (ft fw : Elem) (sparse : Bool) (h t e : Nat) (tok wts : List Byte) : List (List Word) :=
  let cols := (List.range e).map fun j => column fw sparse h (wts.drop (j * stride64 (colBytes fw sparse h)))
  (List.range t).map fun i =>
    let x := decodeRow ft h (tok.drop (i * stride64 (rowBytes ft h)))
    cols.map (score fw.isInt x)

/-! ### Activation, choice, normalisation, histogram (R140, R141) -/

/-- Bits behind the point of the fixed-point numbers in which the exact functions are enclosed. -/
def fracBits : Nat := 640

/-- Σ y^i / i! over `n` terms from the `i`-th on, `t` being the term before, in fixed point. -/
def expSeries (y : Int) : Nat → Nat → Int → Int
  | 0, _, _ => 0
  | n + 1, i, t => t + expSeries y n (i + 1) (t * y / 2 ^ fracBits / i)

/-- `n` squarings. -/
def squareTimes : Nat → Int → Int
  | 0, x => x
  | n + 1, x => squareTimes n (x * x / 2 ^ fracBits)

/-- e^y of a y from −256 to 0, in fixed point with an error below 2^−600: the series of e^(y/512), squared nine times. -/
def expFixed (y : Int) : Nat := (squareTimes 9 (expSeries (y / 512) 120 1 (2 ^ fracBits))).toNat

/-- A finite FP32 value in fixed point, exactly. -/
def fixedOf (v : FV) : Int :=
  match v with
  | .num n m e =>
    let k : Int := roundShift m (e + fracBits)
    if n then -k else k
  | _ => 0

/-- e^(x − top) for x at most top, below 2^−369 taken as 0. -/
def expBelow (top x : Int) : Nat := if x - top < -(256 * 2 ^ fracBits) then 0 else expFixed (x - top)

/-- The exact value of ACT in fixed point, for finite scores: softmax of score `i`, or its sigmoid (R141, Table 5.5). -/
def actExact (kind i : Nat) (vs : List FV) : Nat :=
  let xs := vs.map fixedOf
  let x := nth xs i 0
  if kind = 1 then
    let top := xs.foldl max (nth xs 0 0)
    2 ^ fracBits * expBelow top x / ((xs.map (expBelow top)).foldl (· + ·) 0)
  else
    let top := max x 0
    2 ^ fracBits * expBelow top x / (expBelow top x + expBelow top 0)

/-- One unit in the last place of FP32 at a fixed-point value. -/
def ulpAt (x : Nat) : Nat := 2 ^ (max (x.log2 - 23) (fracBits - 149))

/-- The FP32 codes of no sign within `n` ulp of a fixed-point value, the nearest first; past the largest number the nearest alone. -/
def nearCodes (n x : Nat) : List Nat :=
  let c := fp32.round x (-fracBits)
  let val (k : Nat) : Int := fixedOf (fp32.decode k)
  let l := (((List.range n).flatMap fun k => [c + (k + 1), c - (k + 1)]).dedup).filter fun k =>
    k != c && decide (k < 0x7F800000) && decide ((val k - (x : Int)).natAbs ≤ n * ulpAt x)
  c :: l

/-- One of the codes within 2 ulp of an exact value of ACT, by the chip's own algorithm (R141). -/
def actPick (kind i : Nat) (sc : List Word) (x : Nat) : Word :=
  let l := nearCodes 2 x
  w32 (nth l (Config.actChoice kind i sc % l.length) 0)

/-- One activated score. A NaN among the operands gives the canonical NaN (R175); finite ones, and the sigmoid of an infinite one, whose limit is
1 or 0, give a value within 2 ulp of the exact function (R141); the softmax of infinite scores no rule states, but a NaN is canonical. -/
def actOne (kind i : Nat) (sc : List Word) : Word :=
  let vs := if kind = 1 then sc.map ofF32 else [ofF32 (nth sc i 0)]
  let j := if kind = 1 then i else 0
  if vs.any FV.isNan then 0x7FC00000
  else if vs.any FV.isInf then
    (if kind = 2 then actPick kind j [nth sc i 0] (if (nth vs 0 FV.zero).neg then 0 else 2 ^ fracBits) else toF32 (ofF32 (Config.actInfinite kind i sc)))
  else actPick kind j (if kind = 1 then sc else [nth sc i 0]) (actExact kind j vs)

/-- Activated scores of one token: none, softmax over E, or sigmoid (R141). -/
def activate (kind : Nat) (sc : List Word) : List Word :=
  if kind = 1 ∨ kind = 2 then (List.range sc.length).map fun i => actOne kind i sc else sc

/-- Puts an expert among others in falling order of selection score, the lower index first on equal scores. -/
def insRank (x : FV × Nat) : List (FV × Nat) → List (FV × Nat)
  | [] => [x]
  | y :: r => if y.1.lt x.1 then x :: y :: r else y :: insRank x r

/-- The k experts that TOPK chooses, in rank order (R141). -/
def topk (k : Nat) (sel : List FV) : List Nat := (((indexed sel).foldl (fun l e => insRank (e.2, e.1) l) []).take k).map (·.2)

/-- The bias of a placement entry. -/
def biasOf (s : State) (i : Nat) : Word := (aget s.ce.bias i).getD 0

/-- A weight as NORM scales it, for weights that are finite, of no sign and not all 0, and a finite scale: its share of the sum times the scale
(Table 5.5), one of the codes within k + 1 ulp of that, since the sum, the quotient and the product of k weights round at most k + 1 times
(R141, log entry 44). -/
def normScaled (scale : Word) (i : Nat) (w : List Word) : Word :=
  let xs := w.map fun x => (fixedOf (ofF32 x)).toNat
  let l := nearCodes (w.length + 1) (nth xs i 0 * (fixedOf (ofF32 scale)).natAbs / xs.foldl (· + ·) 0)
  let v := w32 (nth l ((Config.norm (scale :: w32 i :: w)).toNat % l.length) 0)
  if (ofF32 scale).neg then v ^^^ 0x80000000 else v

/-- NORM of a token's weights: each is scaled so that they sum to the scale. Of weights with a sign, infinite ones, or a sum of 0 the result is
the algorithm's own (R141, log entry 44); a NaN is canonical (R175). -/
def normed (scale : Word) (i : Nat) (w : List Word) : Word :=
  let vs := (scale :: w).map ofF32
  if vs.any FV.isInf ∨ (w.map ofF32).any (fun v => v.neg) ∨ w.all (fun x => fixedOf (ofF32 x) == 0) then
    toF32 (ofF32 (Config.norm (scale :: w32 i :: w)))
  else normScaled scale i w

/-- The gate weights of the chosen experts: A, scaled by NORM (R140). A NaN among the operands gives the canonical NaN (R175). -/
def gateWeights (norm : Option GateRec) (a : List Word) (ch : List Nat) : List Word :=
  let w := ch.map fun e => nth a e 0
  match norm with
  | some g =>
    if (w32 g.a :: w).any fun x => (ofF32 x).isNan then w.map fun _ => 0x7FC00000
    else (indexed w).map fun e => normed (w32 g.a) e.1 w
  | none => w

/-- One route-result entry (R140). -/
def routeEntry (e : Nat) (w : Word) : List Byte := leBytes 2 e ++ [0, 0] ++ leBytes 4 w.toNat

/-- A count in an integer format, saturated to its largest integer (R174, Table 6.3). -/
def countBytes (n x : Nat) : List Byte := leBytes n (min x (2 ^ (8 * n - 1) - 1))

/-! ### Bias update (R142) -/

/-- The new bias of an expert, from its count, the sum of counts, γ and β. A NaN among the values leaves the result open, but a NaN is the
canonical one (R175). -/
def newBias (e : Nat) (count total : Int) (gamma beta old : Word) (seed : Nat) : Word :=
  let c : Int := e * count
  let sgn : Word := if c < total then 0x3F800000 else if total < c then 0xBF800000 else 0
  let b := addF32 old (mulF32 gamma sgn)
  let x := ofF32 b
  let hi := ofF32 beta
  let lo := ofF32 (beta ^^^ 0x80000000)
  if x.isNan ∨ hi.isNan then toF32 (ofF32 (Config.freeValue 32 seed))
  else
    let m := if x.lt lo then beta ^^^ 0x80000000 else b
    if hi.lt (ofF32 m) then beta else m

/-! ### GATE (R139) -/

/-- The gate program that a GATE names. -/
def gateProg (s : State) (o : OpSt) : Option (List GateRec) :=
  gateProgram (((s.img.image.map fun i : Image => i.gate).getD []).drop (opBits o 2 63 48)) 0

/-- E -/
def gateE (o : OpSt) : Nat := opBits o 2 31 16

/-- An integer format code of HIST and BUPD. -/
def histFmt (f : Nat) : Bool := decide (0xB ≤ f) && decide (f ≤ 0xD)

/-- A GEMM that Tables 5.5, 6.4 and 6.5 exclude. DESIGN CHOICE (log entry 177): an H that is no multiple of 32 is excluded too, also for INT8,
whose H R180 bounds by 65,535 alone: R178 cuts H into blocks of 32 and no rule gives a shorter block. -/
def gemmBad (o : OpSt) (g : GateRec) : Bool :=
  !gemmPair g.fmt (opBits o 0 55 52) || g.b == 0 || g.b % 32 != 0 || decide (65535 < g.b)

/-- A GATE that R137 to R142 exclude. -/
def gateBad : OpCheck := fun s o =>
  match gateProg s o with
  | none => some 138
  | some p =>
    let t := opCount o
    let e := gateE o
    if t = 0 ∨ 1024 < t ∨ e = 0 ∨ 1024 < e ∨ 65536 < opBits o 2 47 32 + e ∨ opBits o 3 15 0 = 0 then some 139
    else if (gateOp p 1).any (gemmBad o) then some 177
    else if (gateOp p 2).any (fun g => g.flags % 4 == 3) ∨ (gateOp p 3).any (fun g => g.a == 0 || decide (16 < g.a)) then some 138
    else if (gateOp p 5).any (fun g => !histFmt g.fmt) ∨ (gateOp p 6).any (fun g => !histFmt g.fmt) then some 177
    else if (gateOp p 3).any (fun g => !bufFits s (opBits o 1 31 0) (8 * g.a * t)) ∨
        (gateOp p 5).any (fun g => !bufFits s g.a (intBytes g.fmt * e)) then some 134
    else none

/-- The input buffers of a GATE: tokens and weights for a GEMM, the histogram for a BUPD. -/
def gateInputs (o : OpSt) (p : List GateRec) : List (Nat × Nat) :=
  (match gateOp p 1, opIn o with
   | some g, some ft =>
     [(opBits o 1 63 32, opCount o * stride64 (rowBytes ft g.b)),
      (g.a, gateE o * stride64 ((fmtOf g.fmt).elim 0 fun f => colBytes f (g.flags % 2 == 1) g.b))]
   | _, _ => []) ++
  (match gateOp p 6 with
   | some g => [(g.a, intBytes g.fmt * gateE o)]
   | none => [])

/-- The scores: of the GEMM; without one no operation gives them, so they are open. -/
def gateScores (o : OpSt) (p : List GateRec) (ins : List (List Byte)) (seed : Nat) : List (List Word) :=
  match gateOp p 1, opIn o with
  | some g, some ft =>
    (match fmtOf g.fmt with
     | some fw => gemm ft fw (g.flags % 2 == 1) g.b (opCount o) (gateE o) (nth ins 0 []) (nth ins 1 [])
     | none => [])
  | _, _ => (List.range (opCount o)).map fun i => (List.range (gateE o)).map fun j => Config.freeValue 32 (seed + i * gateE o + j)

/-- The experts that TOPK chooses for each token. -/
def gateChoice (s : State) (o : OpSt) (g : GateRec) (act : List (List Word)) : List (List Nat) :=
  act.map fun a => topk g.a ((indexed a).map fun e =>
    if g.flags % 2 = 1 then ofF32 (addF32 e.2 (biasOf s (opBits o 2 47 32 + e.1))) else ofF32 e.2)

/-- The route result of one token: entries past the E experts, which R140 does not give, are open. -/
def routeRow (k seed : Nat) (norm : Option GateRec) (a : List Word) (ch : List Nat) : List Byte :=
  (List.zipWith routeEntry ch (gateWeights norm a ch)).flatten ++ leBytes (8 * (k - ch.length)) (Config.freeValue (64 * 16) seed).toNat

/-- Stages the outputs of the scored part of a program. -/
def gateRoutes (o : OpSt) (p : List GateRec) (ins : List (List Byte)) (s : State) : State :=
  match gateOp p 3 with
  | none =>
    (match gateOp p 5 with
     | some h => stage h.a 0 (List.replicate (intBytes h.fmt * gateE o) 0) s
     | none => s)
  | some g =>
    let act := (gateScores o p ins s.fresh).map (activate ((gateOp p 2).elim 0 fun a => a.flags % 4))
    let ch := gateChoice s o g act
    let rows := (List.zipWith (routeRow g.a s.fresh (gateOp p 4)) act ch).flatten
    let s1 := stage (opBits o 1 31 0) 0 rows { s with fresh := s.fresh + opCount o * gateE o + 1 }
    match gateOp p 5 with
    | some h =>
      let all := ch.flatten
      stage h.a 0 ((List.range (gateE o)).flatMap fun e => countBytes (intBytes h.fmt) (all.count e)) s1
    | none => s1

/-- BUPD: the biases of the layer that the commit sets (R142). -/
def gateBias (o : OpSt) (p : List GateRec) (ins : List (List Byte)) (s : State) : State :=
  match gateOp p 6 with
  | none => s
  | some g =>
    let b := (ins.getLast?).getD []
    let counts := (List.range (gateE o)).map (intAt b (intBytes g.fmt))
    let total := counts.foldl (· + ·) 0
    let base := opBits o 2 47 32
    let bias := (indexed counts).map fun e =>
      (base + e.1, newBias (gateE o) e.2 total (w32 g.b) (w32 g.c) (biasOf s (base + e.1)) (s.fresh + e.1))
    { s with fresh := s.fresh + gateE o, ce := { s.ce with pend := { s.ce.pend with bias := s.ce.pend.bias ++ bias } } }

/-- GATE runs its program once its inputs are there. -/
def gateRun (k : Nat) (o : OpSt) (s : State) : Res :=
  let p := (gateProg s o).getD []
  withInputs (gateInputs o p) (fun ins t =>
    .ok (opFinal k (gateBias o p ins (gateRoutes o p ins (countInputs (gateInputs o p) t))))) s

/-- GATE. -/
def execGate (k : Nat) (s : State) : Host.Outcome State Fault Refusal := opRow 0x10 k gateBad gateRun s

end Sys2Proof.Machine
end

