-- ==== Sys2Proof/Machine/Moe.lean ====
section
/-!
DEFINITION. DISPATCH, run-ahead dispatch and COMBINE (R144 to R158), and the records they exchange.
-/

namespace Sys2Proof.Machine

/-! ### Forming the copies (R145, R150) -/

/-- Parked copies in an overflow slot: for the m-th one of an entry, n is q + m; it is sent when m < q and stays parked otherwise. -/
def overflowSlot (q : Nat) : List Copy → List (Nat × Nat) → List Copy × List Copy
  | [], _ => ([], [])
  | c :: r, cnt =>
    let m := (aget cnt c.entry).getD 0
    let x := overflowSlot q r (aput cnt c.entry (m + 1))
    if m < q then ({ c with n := q + m, old := true, parked := false } :: x.1, x.2) else (x.1, c :: x.2)

/-- One chosen copy of a route result: token, rank, expert, gate weight. -/
structure Chosen where
  /-- Token -/
  token : Nat
  /-- Rank -/
  rank : Nat
  /-- Expert index within the layer -/
  expert : Nat
  /-- Gate weight -/
  weight : Word
  deriving DecidableEq, Repr

/-- The choices of a route result, tokens ascending, each in rank order (R140). -/
def choices (t k : Nat) (rr : List Byte) : List Chosen :=
  (List.range (t * k)).map fun i =>
    let e := rr.drop (8 * i)
    { token := i / k, rank := i % k, expert := leNat (e.take 2), weight := w32 (leNat ((e.drop 4).take 4)) }

/-- Row `t` of a token buffer. -/
def tokenRow (o : OpSt) (tok : List Byte) (t : Nat) : List Byte := (tok.drop (t * stride64 (dispRow o))).take (dispRow o)

/-- The fresh copies in their fixed order (R145). An expert without a valid entry, or entries of several quotas, is a host error. -/
def formCopies (s : State) (o : OpSt) (tok : List Byte) : List Chosen → List (Nat × Nat) → Except Nat (List Copy)
  | [], _ => .ok []
  | x :: r, cnt =>
    let i := opBits o 2 63 48 + x.expert
    match (if x.expert < opBits o 2 47 32 then placeRec s i else none) with
    | none => .error 144
    | some p =>
      if p.quota ≠ dispQuota s o then .error 144
      else
        let n := (aget cnt i).getD 0
        match formCopies s o tok r (aput cnt i (n + 1)) with
        | .error e => .error e
        | .ok l => .ok ({ serial := s.ctl.serial + 1, token := x.token, rank := x.rank, entry := i, here := p.here,
                          place := if p.here then (ownPlace s).toNat else p.place, beam := p.beam, slot := p.slot, quota := p.quota,
                          n := n, weight := x.weight, parked := decide (p.quota ≤ n), old := false, data := tokenRow o tok x.token } :: l)

/-! ### Records and markers (R146, R147, R155) -/

/-- Two copies that may share a record: one token, one place, one beam. -/
def sameRecord (a b : Copy) : Bool := a.serial == b.serial && a.token == b.token && a.place == b.place && a.beam == b.beam

/-- Adds a copy to the records formed so far, each of at most four; `alone` gives it a record of its own. -/
def addCopy (alone : Bool) (c : Copy) : List (List Copy) → List (List Copy)
  | [] => [[c]]
  | g :: r =>
    if !alone && decide (g.length < 4) && (g.head?.map (sameRecord c)).getD false then (g ++ [c]) :: r else g :: addCopy alone c r

/-- The bytes of a dispatch record. -/
def dispatchBytes (s : State) (g : List Copy) : List Byte :=
  match g with
  | [] => []
  | c :: _ => mkHead 0x01 g.length c.token (ownPlace s).toNat 0xFF (g.flatMap fun d => slotField d.slot d.n) ++ c.data

/-- The tentative records in transmission that a DISPATCH resolves: those of a mode 2 DISPATCH; in mode 0 it leaves them alone (R155). -/
def startedAhead (o : OpSt) (s : State) : List Tentative := if dispMode o = 2 then s.ce.queue.filter (·.started) else []

/-- The started tentative record that carried a final copy ahead, among those that the DISPATCH resolves. -/
def aheadOf (q : List Tentative) (c : Copy) : Option Tentative :=
  if c.old ∨ c.parked ∨ c.here then none else q.find? fun e => e.token == c.token && e.place == c.entry

/-- The marker of a started tentative record: commit with the final slot and n when its copy is final, else cancel. -/
def aheadMarker (s : State) (q : List Tentative) (final : List Copy) (e : Tentative) : List Byte :=
  match final.find? fun c => aheadOf q c == some e with
  | some c => mkHead 0x10 0 e.token (ownPlace s).toNat e.entry (leBytes 4 e.serial.toNat ++ slotField c.slot c.n)
  | none => mkHead 0x11 0 e.token (ownPlace s).toNat e.entry (leBytes 4 e.serial.toNat)

/-- A final copy shares token and place with a committed tentative copy. -/
def sharesAhead (q : List Tentative) (final : List Copy) (c : Copy) : Bool :=
  !c.old && final.any fun d => !d.old && d.token == c.token && d.place == c.place && (aheadOf q d).isSome

/-- The dispatch records of the sent copies that go to other places and were not carried ahead. -/
def dispatchGroups (q : List Tentative) (final : List Copy) : List (List Copy) :=
  (final.filter fun c => !c.here && (aheadOf q c).isNone).foldl (fun l c => addCopy (sharesAhead q final c) c l) []

/-! ### DISPATCH, modes 0 and 2 (R145 to R152, R155) -/

/-- A DISPATCH that R139, R144 or R152 excludes. -/
def dispatchBad : OpCheck := fun s o =>
  let t := opCount o
  let k := opBits o 2 31 27
  let row := stride64 (dispRow o)
  if (opIn o).isNone then some 177
  else if t = 0 ∨ 1024 < t ∨ k = 0 ∨ 16 < k ∨ opBits o 2 15 0 = 0 ∨ opBits o 2 15 0 % 32 ≠ 0 ∨ dispMode o = 3 then some 152
  else if bufFits s (opBits o 1 63 32) (t * row) = false ∨ bufFits s (opBits o 1 31 0) (8 * k * t) = false then some 134
  else if dispMode o = 1 then
    (let w := opBits o 2 23 16
     if opBits o 2 26 24 = 0 ∨ 4 < opBits o 2 26 24 ∨ w = 0 ∨ 32 < w then some 152
     else if opBits o 4 31 28 ≠ 0 ∨ bufFits s (opBits o 4 31 0) (256 * w * row) = false then some 134 else none)
  else if bufFits s (opBits o 3 31 0) (8 * k * t) = false then some 134
  else none

/-- The parked copies of an overflow region as the open phase leaves them so far. -/
def parkedNow (s : State) (h : Nat) : List Copy := ((aget s.ce.pend.parked h).orElse fun _ => aget s.ce.parkedAt h).getD []

/-- The parked copies of a DISPATCH's overflow region: those that an overflow slot sends, and those that stay parked (R150). -/
def overflowSplit (s : State) (o : OpSt) : List Copy × List Copy :=
  let h := opBits o 3 63 32
  if h = noHandle then ([], []) else if opFlag o 2 then overflowSlot (dispQuota s o) (parkedNow s h) [] else ([], parkedNow s h)

/-- The flags that DISPATCH sets in a route result (R140). -/
def routeFlags (q : List Tentative) (rr : List Byte) (fresh : List Copy) : List Byte :=
  (List.zipWith (fun (e : List Byte) (c : Copy) =>
    e.take 2 ++ [BitVec.ofNat 8 (b2n c.parked + 2 * b2n c.here + 4 * b2n (aheadOf q c).isSome)] ++ e.drop 3)
    (chunksOf 8 fresh.length rr) fresh).flatten

/-- The local copies' receive-list entries. -/
def localArrivals (s : State) (o : OpSt) (final : List Copy) : List Arrival :=
  (final.filter (·.here)).foldl (fun l c =>
    insArrival { pos := rxPos (placeCount s) (dispQuota s o) c.slot (ownPlace s).toNat c.n, token := c.token, ahead := false,
                 over_ := decide (dispQuota s o ≤ c.n), slot := c.slot, n := c.n, beam := none } l) []

/-- Writes the local copies to this place's own receive buffer (R146). -/
def stageLocal (o : OpSt) (final : List Copy) (s : State) : State :=
  (final.filter (·.here)).foldl (fun t c =>
    stage (opBits o 4 63 32) (rxPos (placeCount s) (dispQuota s o) c.slot (ownPlace s).toNat c.n * stride64 (dispRow o)) c.data t) s

/-- Sends the markers of the tentative records that it resolves and then the records. -/
def sendDispatch (k : Nat) (q : List Tentative) (final : List Copy) (s : State) : State :=
  let marks := q.map fun e => (e.beam, aheadMarker s q final e)
  let recs := (dispatchGroups q final).map fun g => ((g.head?.map (·.beam)).getD 0, dispatchBytes s g)
  (marks ++ recs).foldl (fun t e => sendRecord k e.1 0 e.2 t) s

/-- DISPATCH with its copies formed: `sent` from the overflow list, `stay` still parked, `fresh` new. -/
def dispatchCopies (k : Nat) (o : OpSt) (rr : List Byte) (sent stay fresh : List Copy) (s : State) : Res :=
  let h := opBits o 3 63 32
  let parked := fresh.filter (·.parked)
  let final := sent ++ fresh.filter fun c => !c.parked
  let all := stay ++ parked
  if parked ≠ [] ∧ h = noHandle then .error 150
  else
    let p := s.ce.pend
    let rl := opBits o 4 31 0
    let s1 := { s with ce := { s.ce with pend := { p with
      parked := if h = noHandle then p.parked else aput p.parked h all
      fresh := p.fresh + parked.length
      disp := aput p.disp (opBits o 3 31 0) ((sent ++ fresh).map fun c => { c with data := [] })
      lists := aput p.lists rl (localArrivals s o final) } } }
    if h ≠ noHandle ∧ overflowSize s h < overflowUse { s1 with ce := { s1.ce with parkedAt := aput s.ce.parkedAt h all } } h then .error 150
    else
      let n := 8 * (opBits o 2 31 27 * opCount o)
      let s2 := stage (opBits o 1 31 0) 0 (routeFlags (startedAhead o s) rr fresh) s1
      let s3 := stage (opBits o 3 31 0) 0 (leBytes n (Config.freeValue (8 * n) s.fresh).toNat) { s2 with fresh := s2.fresh + 1 }
      let s4 := sendDispatch k (startedAhead o s) final (stageLocal o final s3)
      .ok (opFinal k (if dispMode o = 2 then { s4 with ce := { s4.ce with queue := s4.ce.queue.filter (·.started) } } else s4))

/-- What a DISPATCH reads: its rows and its route results. -/
def dispInputs (o : OpSt) : List (Nat × Nat) :=
  [(opBits o 1 63 32, opCount o * stride64 (dispRow o)), (opBits o 1 31 0, 8 * (opBits o 2 31 27 * opCount o))]

/-- DISPATCH in mode 0 or 2. -/
def dispatchPlain (k : Nat) (o : OpSt) (s : State) : Res :=
  withInputs (dispInputs o) (fun ins u =>
    let h := opBits o 3 63 32
    let t0 := countInputs (dispInputs o) u
    let t := if h ≠ noHandle ∧ opFlag o 2 = true then overflowRead h t0 else t0
    let rr := nth ins 1 []
    match (if h ≠ noHandle ∧ opFlag o 2 = true then overflowPoison t h else none) with
    | some w => .ok (uncorrContained srcCluster w t)
    | none =>
    let ov := overflowSplit t o
    match formCopies t o (nth ins 0 []) (choices (opCount o) (opBits o 2 31 27) rr) [] with
    | .error e => .error e
    | .ok fresh => dispatchCopies k o rr ov.1 ov.2 fresh t) s

/-! ### Run-ahead dispatch (R151 to R154) -/

/-- The four predictions of a predictor record. -/
def predictions (s : State) (i : Nat) : Option (List Nat) :=
  (((s.img.image.map fun m : Image => m.predictor).getD [])[i]?).map fun w => (List.range 4).map fun j => bits w.toNat (16 * j + 15) (16 * j)

/-- Appends the entries of a list that are not yet there. -/
def addNew (l : List Nat) : List Nat → List Nat
  | [] => l
  | x :: r => addNew (if x = 0xFFFF ∨ l.contains x then l else l ++ [x]) r

/-- The predicted set of a token whose experts are given in rank order: at most `r` experts (R151). -/
def predictedSet (s : State) (o : OpSt) : List Nat → List Nat → Except Nat (List Nat)
  | [], acc => .ok (acc.take (opBits o 2 26 24))
  | e :: l, acc =>
    match predictions s (opBits o 4 63 32 + e) with
    | none => .error 151
    | some p => predictedSet s o l (addNew acc p)

/-- The predicted copies to other places of tokens, in queue order: token, placement entry, record. -/
def predictedCopies (s : State) (o : OpSt) (ch : List Chosen) : List Nat → Except Nat (List (Nat × Nat × PlaceRec))
  | [] => .ok []
  | t :: r =>
    match predictedSet s o ((ch.filter fun c => c.token == t).map (·.expert)) [], predictedCopies s o ch r with
    | .ok es, .ok l =>
      let base := opBits o 2 63 48
      let ps := es.map fun e => if e < opBits o 2 47 32 then (placeRec s (base + e)).map fun p => (t, base + e, p) else none
      if ps.any (·.isNone) then .error 144 else .ok ((ps.filterMap id).filter (fun x => !x.2.2.here) ++ l)
    | .error e, _ => .error e
    | _, .error e => .error e

/-- The tentative records, at most W on a beam; the window entry is the position in the beam's queue (R153). -/
def tentatives (s : State) (o : OpSt) (tok : List Byte) : List (Nat × Nat × PlaceRec) → List Tentative → List Tentative
  | [], q => q
  | x :: r, q =>
    let b := x.2.2.beam
    let n := (q.filter fun e => e.beam == b).length
    tentatives s o tok r (if n < opBits o 2 23 16 then
      q ++ [{ beam := b, entry := n, serial := s.ctl.serial + 1, token := x.1, place := x.2.1, started := false
              flits := recordFlits 0 (attempt4 s) true
                (mkHead 0x02 1 x.1 (ownPlace s).toNat n (slotField x.2.2.slot 63) ++ tokenRow o tok x.1) }] else q)

/-- The window area that a mode 1 DISPATCH opens for inbound records (R154). -/
def windowArea (o : OpSt) : Nat × Nat × Nat := (opBits o 4 31 0, opBits o 2 23 16, dispRow o)

/-- A mode 1 DISPATCH acts: the predictor is enabled and ra_disable is 0 (R153). -/
def aheadOn (s : State) : Bool := s.ctl.runAhead && !s.ce.raDisable

/-- DISPATCH in mode 1: it opens its windows and, when it acts, queues the tentative records; it is done at once. -/
def dispatchAhead (k : Nat) (o : OpSt) (s : State) : Res :=
  let opened (t : State) : State := { t with ce := { t.ce with area := some (windowArea o) } }
  if aheadOn s = false then .ok (opFinal k (opened s))
  else
    withInputs (dispInputs o) (fun ins u =>
      let t := countInputs (dispInputs o) u
      match predictedCopies t o (choices (opCount o) (opBits o 2 31 27) (nth ins 1 [])) (List.range (opCount o)) with
      | .error e => .error e
      | .ok l => .ok (opFinal k (opened { t with ce := { t.ce with queue := t.ce.queue ++ tentatives t o (nth ins 0 []) l [] } }))) s

/-- DISPATCH. -/
def execDispatch (k : Nat) (s : State) : Host.Outcome State Fault Refusal :=
  opRow 0x20 k dispatchBad (fun k o t => if dispMode o = 1 then dispatchAhead k o t else dispatchPlain k o t) s

/-! ### Records of a dispatch -/

/-- A DISPATCH of mode 0 or 2 receives dispatch records and markers. -/
def takesDispatch (o : OpSt) : Bool := opCode o == 0x20 && dispMode o != 1

/-- DISPATCH_RECORD: its copies are written at their receive positions at the commit (R148). -/
def execDispatchRecord (b : Beam) (k : Nat) (s : State) : Host.Outcome State Fault Refusal :=
  recordRow b 0x01 k .contribution takesDispatch (fun _ => 0) (fun o => 16 + dispRow o)
    (fun _ a r t => .ok (admitRec k b a .contribution r (r.drop 16) 0 t)) s

/-- The window area in force: that of an issued mode 1 DISPATCH, or the one that stays open until the dispatch phase commits. DESIGN CHOICE (log
entry 209): a tentative record carries no serial, so one that arrives while the area of an earlier layer is open enters that area. -/
def areaNow (s : State) (k : Nat) : Option (Nat × Nat × Nat) :=
  match s.ctl.ops[k]? with
  | some o => if s.ctl.phase = 4 ∧ opCode o = 0x20 ∧ dispMode o = 1 then some (windowArea o) else s.ce.area
  | none => s.ce.area

/-- A tentative record enters its window entry; entries of an earlier attempt on its beam are discarded (R154, R156). -/
def windowEnter (b : Beam) (a : Nat × Nat × Nat) (att : BitVec 4) (r : List Byte) (s : State) : Res :=
  let e := hdEntry r
  let data := r.drop 16
  match bufLoc s a.1 ((b.val * a.2.1 + e) * stride64 a.2.2) a.2.2 with
  | some (.staging x) =>
    if a.2.1 ≤ e then .error 154
    else
      let keep := s.ce.window.filter fun w => w.beam != b || (w.attempt == att && w.entry != e)
      .ok { s with ce := { s.ce with
        staging := s.ce.staging.writeN x data
        window := keep ++ [{ beam := b, entry := e, attempt := att, token := hdToken r, source := hdSource r, addr := x, data := data,
                             resolved := none }] } }
  | _ => .error 154

/-- TENTATIVE_DISPATCH: it waits, with its credits withheld, until this place's own mode 1 DISPATCH is issued (R154). -/
def execTentativeDispatch (b : Beam) (k : Nat) (s : State) : Host.Outcome State Fault Refusal :=
  if running s = false then done s
  else match areaNow s k with
    | none => done s
    | some a => resOut s (takeRecord b 0 0x02 (16 + a.2.2) (fun _ _ => true) (windowEnter b a) s)

/-- The window entry that a marker names. -/
def windowAt (s : State) (b : Beam) (e : Nat) : Option WindowEntry := s.ce.window.find? fun w => w.beam == b && w.entry == e

/-- A window entry is resolved. -/
def resolve (w : WindowEntry) (how : Bool) (s : State) : State :=
  { s with ce := { s.ce with
    window := s.ce.window.map fun v => if v = w then { v with resolved := some how } else v
    raCommit := if how then s.ce.raCommit + 1 else s.ce.raCommit
    raCancel := if how then s.ce.raCancel else s.ce.raCancel + 1 } }

/-- A marker: a commit gives the entry its receive position, a cancel discards it; a resolved entry stays as it is (R156). -/
def marker (k : Nat) (b : Beam) (how : Bool) (att : BitVec 4) (r : List Byte) (s : State) : State :=
  match windowAt s b (hdEntry r) with
  | some w =>
    if w.resolved.isSome then s
    else if how then admitRec k b att .contribution r w.data 0 (resolve w true s)
    else noteSeen k b att .contribution false r (resolve w false s)
  | none => s

/-- COMMIT_MARKER. -/
def execCommitMarker (b : Beam) (k : Nat) (s : State) : Host.Outcome State Fault Refusal :=
  recordRow b 0x10 k .contribution takesDispatch (fun _ => 0) (fun _ => 16) (fun _ a r t => .ok (marker k b true a r t)) s

/-- CANCEL_MARKER. -/
def execCancelMarker (b : Beam) (k : Nat) (s : State) : Host.Outcome State Fault Refusal :=
  recordRow b 0x11 k .contribution takesDispatch (fun _ => 0) (fun _ => 16) (fun _ a r t => .ok (marker k b false a r t)) s

/-! ### COMBINE (R157, R158) -/

/-- The copies of the dispatch record that a COMBINE names. -/
def combCopies (s : State) (o : OpSt) : List Copy := (aget s.ce.disp (opBits o 1 63 32)).getD []

/-- The receive list that a COMBINE names. -/
def combList (s : State) (o : OpSt) : List Arrival := (aget s.ce.lists (opBits o 2 31 0)).getD []

/-- Bytes of one expert output. -/
def combRow (o : OpSt) : Nat := (opIn o).elim 0 fun f => rowBytes f (opBits o 4 15 0)

/-- k of the dispatch that a COMBINE matches: its fresh copies per token. -/
def combK (s : State) (o : OpSt) : Nat := ((combCopies s o).filter fun c => !c.old).length / opCount o

/-- The deferred sum of a token in an overflow region. -/
def sumOf (s : State) (h : Nat) (serial : Word) (token : Nat) : Option Deferred :=
  (s.ce.pend.sums.getD s.ce.sums).find? fun d => d.region == h && d.serial == serial && d.token == token

/-- A COMBINE that R157, R158, R177 or R200 excludes. -/
def combineBad : OpCheck := fun s o =>
  let fmtBad (f : Option Elem) : Bool := (f.map (·.isInt)).getD true
  let t := opCount o
  let h := opBits o 4 15 0
  let old := (combCopies s o).filter (·.old)
  if fmtBad (opIn o) ∨ fmtBad (opOut o) then some 177
  else if t = 0 ∨ 1024 < t ∨ h = 0 ∨ h % 32 ≠ 0 then some 157
  else if (aget s.ce.disp (opBits o 1 63 32)).isNone ∨ (aget s.ce.lists (opBits o 2 31 0)).isNone then some 60
  else if bufFits s (opBits o 1 31 0) (8 * combK s o * t) = false ∨
      (combList s o ≠ [] ∧ bufFits s (opBits o 2 63 32) ((combList s o).length * stride64 (combRow o)) = false) then some 134
  else if old ≠ [] ∧ opFlag o 2 = false then some 157
  else if old.any fun c => (sumOf s (opBits o 4 63 32) c.serial c.token).isNone then some 158
  else if old.any fun c => (sumOf s (opBits o 4 63 32) c.serial c.token).any fun d => d.exact != opFlag o 0 then some 200
  else none

/-- The inputs of a COMBINE: the route result, and the expert outputs when the receive list has entries. -/
def combInputs (s : State) (o : OpSt) : List (Nat × Nat) :=
  (opBits o 1 31 0, 8 * (combK s o * opCount o)) ::
    (if combList s o = [] then [] else [(opBits o 2 63 32, (combList s o).length * stride64 (combRow o))])

/-- The expert output of receive-list entry `i`. -/
def combOutput (o : OpSt) (eo : List Byte) (i : Nat) : List Byte := (eo.drop (i * stride64 (combRow o))).take (combRow o)

/-- Returns the expert outputs to other places, on the response class (R147, R157). -/
def sendReturns (k : Nat) (o : OpSt) (eo : List Byte) (s : State) : State :=
  (indexed (combList s o)).foldl (fun t e =>
    match e.2.beam with
    | some b => sendRecord k b 1 (mkHead 0x03 1 e.2.token (ownPlace s).toNat 0xFF (slotField e.2.slot e.2.n) ++ combOutput o eo e.1) t
    | none => t) s

/-- The returns that are there, in arrival order, each with its copy: the local ones, then those that beams brought. -/
def returnsIn (k : Nat) (o : OpSt) (eo : List Byte) (s : State) : List (Copy × List Byte) :=
  let cs := (combCopies s o).filter fun c => !c.parked
  let own := (indexed (combList s o)).filterMap fun e =>
    if e.2.beam.isSome then none
    else (cs.find? fun c => c.here && c.token == e.2.token && c.slot == e.2.slot && c.n == e.2.n).map fun c => (c, combOutput o eo e.1)
  own ++ (s.ctl.admitted.filter fun a => a.op == k).filterMap fun a =>
    (cs.find? fun c => !c.here && c.beam == a.beam && c.token == hdToken a.head && (c.slot, c.n) == hdSlot a.head 0).map fun c => (c, a.data)

/-- The gate weight of a copy: of the route result, or the one it was parked with (R150). -/
def copyWeight (s : State) (o : OpSt) (rr : List Byte) (c : Copy) : Word :=
  if c.old then c.weight else w32 (leNat ((rr.drop (8 * (c.token * combK s o + c.rank) + 4)).take 4))

/-- The products of a return with its gate weight, each rounded to FP32 (R157). -/
def products (f : Elem) (h : Nat) (w : Word) (b : List Byte) : List Word := (decodeRow f h b).map fun v => toF32 (v.mul (ofF32 w))

/-- A token's sum so far in either mode: long form per element, or FP32 with nothing added yet empty. -/
abbrev Sum := List LongForm × List Word

/-- Adds one row of products. -/
def sumAdd (exact : Bool) (x : Sum) (p : List Word) : Sum :=
  if exact then (List.zipWith longAdd p x.1, x.2) else (x.1, if x.2 = [] then p else List.zipWith addF32 x.2 p)

/-- The combined row of a sum, converted once to out_fmt (R157, R194, R195). -/
def sumRow (exact : Bool) (g : Elem) (h : Nat) (x : Sum) : List Byte :=
  encodeRow g (if exact then x.1.map longValue else if x.2 = [] then List.replicate h FV.zero else x.2.map ofF32)

/-- The empty sum. -/
def sumZero (exact : Bool) (h : Nat) : Sum := (if exact then List.replicate h (0, 0) else [], [])

/-- Adds the returns of a token. -/
def sumToken (s : State) (o : OpSt) (rr : List Byte) (rs : List (Copy × List Byte)) (serial : Word) (token : Nat) (old : Bool) (x : Sum) : Sum :=
  (rs.filter fun e => e.1.old == old && e.1.token == token && (!old || e.1.serial == serial)).foldl (fun a e =>
    sumAdd (opFlag o 0) a (products ((opIn o).getD (.int 1)) (opBits o 4 15 0) (copyWeight s o rr e.1) e.2)) x

/-- What becomes of one token: its index, whether it is from an earlier slot, its serial, its sum, and whether copies are still parked. -/
structure TokenSum where
  /-- Token index -/
  token : Nat
  /-- From an earlier slot -/
  old : Bool
  /-- Serial of its DISPATCH -/
  serial : Word
  /-- Its sum -/
  sum : Sum
  /-- Copies of it are parked -/
  later : Bool
  deriving DecidableEq, Repr

/-- The sums of the fresh tokens and of the deferred ones that this slot served (R158). -/
def tokenSums (s : State) (o : OpSt) (rr : List Byte) (rs : List (Copy × List Byte)) : List TokenSum :=
  let cs := combCopies s o
  let h := opBits o 4 63 32
  let fresh := cs.filter fun c => !c.old
  let serial := (fresh.head?.map (·.serial)).getD 0
  let keys := ((cs.filter (·.old)).map fun c => (c.serial, c.token)).dedup
  ((List.range (opCount o)).map fun t =>
    { token := t, old := false, serial := serial, sum := sumToken s o rr rs serial t false (sumZero (opFlag o 0) (opBits o 4 15 0))
      later := fresh.any fun c => c.token == t && c.parked }) ++
  keys.map fun k =>
    { token := k.2, old := true, serial := k.1
      sum := sumToken s o rr rs k.1 k.2 true ((sumOf s h k.1 k.2).elim (sumZero (opFlag o 0) (opBits o 4 15 0)) fun d => (d.long, d.fast))
      later := (parkedNow s h).any fun c => c.serial == k.1 && c.token == k.2 }

/-- The completed tokens with their rows: a fresh token's own row, deferred ones from row T on. -/
def completed (t : Nat) : List TokenSum → Nat → List (TokenSum × Nat)
  | [], _ => []
  | x :: r, n => if x.later then completed t r n else if x.old then (x, t + n) :: completed t r (n + 1) else (x, x.token) :: completed t r n

/-- The bytes of a completion list (R158). -/
def completionBytes (l : List (TokenSum × Nat)) : List Byte :=
  leBytes 8 l.length ++ l.flatMap fun e => leBytes 2 e.1.token ++ leBytes 2 (b2n e.1.old) ++ leBytes 2 e.2 ++ [0, 0]

/-- The deferred sums after the COMBINE. -/
def sumsAfter (s : State) (o : OpSt) (ts : List TokenSum) : List Deferred :=
  let h := opBits o 4 63 32
  let served := ts.filter (·.old)
  ((s.ce.pend.sums.getD s.ce.sums).filter fun d => !(d.region == h && served.any fun x => x.serial == d.serial && x.token == d.token)) ++
    (ts.filter (·.later)).map fun x =>
      { region := h, serial := x.serial, token := x.token, exact := opFlag o 0, long := x.sum.1, fast := x.sum.2 }

/-- The COMBINE ends once every return is there: rows, completion list, deferred sums. -/
def combFinish (k : Nat) (o : OpSt) (rr eo : List Byte) (s : State) : Res :=
  let rs := returnsIn k o eo s
  if (combCopies s o).any fun c => !c.parked && !(rs.any fun e => e.1 == c) then .ok s
  else
    let ts := tokenSums s o rr rs
    let h := opBits o 4 63 32
    let sums := sumsAfter s o ts
    let s1 := { s with ce := { s.ce with pend := { s.ce.pend with sums := some sums } } }
    if ts.any (·.later) ∧ (h = noHandle ∨ overflowSize s h < overflowUse { s1 with ce := { s1.ce with sums := sums } } h) then .error 150
    else
      let g := (opOut o).getD (.int 1)
      let done := completed (opCount o) ts 0
      let s2 := done.foldl (fun t e => stage (opBits o 3 63 32) (e.2 * stride64 (rowBytes g (opBits o 4 15 0)))
        (sumRow (opFlag o 0) g (opBits o 4 15 0) e.1.sum) t) s1
      .ok (opFinal k (stage (opBits o 3 31 0) 0 (completionBytes done) s2))

/-- COMBINE goes on with the returns it has; an uncorrectable word in the deferred sums that it completes is Contained (R200). -/
def combAdvance (k : Nat) (o : OpSt) (s : State) : Res :=
  withInputs (combInputs s o) (fun ins t =>
    match (if (combCopies t o).any (·.old) then overflowPoison t (opBits o 4 63 32) else none) with
    | some w => .ok (uncorrContained srcCluster w t)
    | none => combFinish k o (nth ins 0 []) (nth ins 1 []) t) s

/-- COMBINE. -/
def execCombine (k : Nat) (s : State) : Host.Outcome State Fault Refusal :=
  opRow 0x21 k combineBad (fun k o t => withInputs (combInputs t o) (fun ins u =>
    let u1 := countInputs (combInputs t o) u
    let u2 := if (combCopies u1 o).any (·.old) then overflowRead (opBits o 4 63 32) u1 else u1
    combAdvance k o (sendReturns k o (nth ins 1 []) (opStarts k u2))) t) s

/-- COMBINE_RETURN: admitted once; the last one completes its COMBINE. -/
def execCombineReturn (b : Beam) (k : Nat) (s : State) : Host.Outcome State Fault Refusal :=
  recordRow b 0x03 k .contribution (fun o => opCode o == 0x21) (fun _ => 1) (fun o => 16 + combRow o) (fun o a r t =>
    let t1 := admitRec k b a .contribution r (r.drop 16) 0 t
    if o.started && !o.final then combAdvance k o t1 else .ok t1) s

end Sys2Proof.Machine
end

