-- ==== Sys2Proof/Machine/Wire.lean ====
section
/-!
DEFINITION. How vectors travel in collective segments: contributions, partial sums, results and exponent codes (R190, R195), shadow-mask encoding
(R197 to R199), and the sending and gathering of segments.
-/

namespace Sys2Proof.Machine

/-! ### Blocks of 32 elements -/

/-- The layout of a payload: a vector of a format, cut into blocks of 32 of which the first `sh` places are empty, without the blocks of
code 0 (R187); or the sums of blocks, each of a length of its own (R190). -/
inductive Wire where
  | fmt (f : Elem) (sh : Nat) (codes : List Nat)
  | sums (lens : List Nat)
  deriving DecidableEq, Repr

/-- Blocks of a vector of `n` elements (R184). -/
def blockCount (n : Nat) : Nat := (n + 31) / 32

/-- First element of block `i` of a vector whose first element is the `sh`-th of its block. -/
def blockFrom (sh i : Nat) : Nat := 32 * i - sh

/-- Elements of block `i`. -/
def blockElemsAt (sh n i : Nat) : Nat := min n (32 * (i + 1) - sh) - blockFrom sh i

/-- Elements of block `i`. -/
def blockElems (n i : Nat) : Nat := blockElemsAt 0 n i

/-- Bytes of `m` elements as a block (R198). -/
def elemsLen (f : Elem) (m : Nat) : Nat := f.bits * m / 8 + (if f.isMx then 1 else 0)

/-- Blocks of a vector of `n` elements in a layout. -/
def Wire.blocks (w : Wire) (n : Nat) : Nat :=
  match w with
  | .fmt _ sh _ => blockCount (n + sh)
  | .sums _ => blockCount n

/-- Bytes of block `i`: none of a block that is not carried (R187, R198). -/
def Wire.blockLen (w : Wire) (n i : Nat) : Nat :=
  match w with
  | .fmt f sh codes => if nth codes i 1 = 0 then 0 else elemsLen f (blockElemsAt sh n i)
  | .sums l => nth l i 0

/-- Cuts a vector of `n` elements into blocks, an MX block with its scale byte behind it. -/
def cutVecAt (sh : Nat) (f : Elem) (n : Nat) (b : List Byte) : List (List Byte) :=
  (List.range (blockCount (n + sh))).map fun i =>
    (b.drop (f.bits * blockFrom sh i / 8)).take (f.bits * blockElemsAt sh n i / 8) ++
      (if f.isMx then (b.drop (f.bits * n / 8 + i)).take 1 else [])

/-- Cuts a vector of `n` elements into blocks of 32. -/
def cutVec (f : Elem) (n : Nat) (b : List Byte) : List (List Byte) := cutVecAt 0 f n b

/-- The blocks that a layout carries: a block of code 0 is empty (R187). -/
def carriedBlocks (codes : List Nat) (l : List (List Byte)) : List (List Byte) :=
  (indexed l).map fun e => if nth codes e.1 1 = 0 then [] else e.2

/-- The blocks of a vector from those that were carried: the others are all zero (R187). -/
def filledBlocks (f : Elem) (sh n : Nat) (codes : List Nat) (l : List (List Byte)) : List (List Byte) :=
  (indexed l).map fun e => if nth codes e.1 1 = 0 then List.replicate (elemsLen f (blockElemsAt sh n e.1)) 0 else e.2

/-- Joins blocks into a vector (R172). -/
def joinVec (f : Elem) (l : List (List Byte)) : List Byte :=
  if f.isMx then l.flatMap (fun b => b.take (b.length - 1)) ++ l.flatMap fun b => b.drop (b.length - 1) else l.flatten

/-- Elements that bytes of a format hold. -/
def segElems (f : Elem) (len : Nat) : Nat := if f.isMx then len / (4 * f.bits + 1) * 32 else 8 * len / f.bits

/-- Cuts bytes into the blocks from `i` on, each of its length, at most `n` of them, until the bytes end. -/
def cutLens (l : Nat → Nat) : Nat → Nat → List Byte → List (Nat × List Byte)
  | 0, _, _ => []
  | n + 1, i, b => if b = [] ∧ l i ≠ 0 then [] else (i, b.take (l i)) :: cutLens l n (i + 1) (b.drop (l i))

/-! ### Shadow-mask encoding (R197 to R199) -/

/-- A block is present when some byte of it is not zero. -/
def present (b : List Byte) : Bool := b.any (· != 0)

/-- One shadow-encoded segment of at most 32 blocks (R198). -/
def shadowSeg (l : List (List Byte)) : List Byte :=
  let b := leBytes 4 (boolsNat (l.map present)) ++ List.replicate 12 0 ++ (l.filter present).flatten
  b ++ List.replicate ((16 - b.length % 16) % 16) 0

/-- The blocks of a shadow-encoded segment, absent ones all zero (R199): `n` blocks from mask bit `i` on, each of a given length. -/
def unshadow (mask : Nat) : List Nat → Nat → List Byte → List (List Byte)
  | [], _, _ => []
  | k :: r, i, b =>
    if mask / 2 ^ i % 2 = 1 then b.take k :: unshadow mask r (i + 1) (b.drop k) else List.replicate k 0 :: unshadow mask r (i + 1) b

/-! ### Segments -/

/-- The segments of a vector of `n` elements: the whole vector, or 1,024 elements each when shadow-encoded; element offset and payload. -/
def segments (w : Wire) (shadow : Bool) (l : List (List Byte)) : List (Nat × List Byte) :=
  if shadow then
    (List.range ((l.length + 31) / 32)).map fun j => (1024 * j, shadowSeg ((l.drop (32 * j)).take 32))
  else [(0, match w with
    | .fmt f _ _ => joinVec f l
    | .sums _ => l.flatten)]

/-- The blocks that a received segment holds, by block number; none when its offset or length does not fit. -/
def segBlocks (w : Wire) (shadow : Bool) (n off : Nat) (b : List Byte) : Option (List (Nat × List Byte)) :=
  let sh := match w with
    | .fmt _ sh _ => sh
    | .sums _ => 0
  let i := (off + sh) / 32
  let top := w.blocks n - i
  if off ≠ blockFrom sh i then none
  else if shadow then
    let lens := (List.range (min 32 top)).map fun j => w.blockLen n (i + j)
    some ((indexed (unshadow (leNat (b.take 4)) lens 0 (b.drop 16))).map fun e => (i + e.1, e.2))
  else
    let raw := match w with
      | .fmt f _ _ => if f.isMx then (cutVec f (segElems f b.length) b).flatten else b
      | .sums _ => b
    let l := cutLens (w.blockLen n) top i raw
    if (l.map fun e => e.2.length).foldl (· + ·) 0 = raw.length ∧ raw.length = b.length then some l else none

/-- The segments that operation `k` has admitted on a beam in a form, with a chunk index where the operation has several chunks. -/
def segsIn (s : State) (k : Nat) (b : Beam) (form : SegForm) (chunk : Option Nat) : List Admit :=
  s.ctl.admitted.filter fun a => a.op == k && a.beam == b && a.form == form && (chunk.map fun c => hdToken a.head == c).getD true

/-- Every block of a vector, from admitted segments: none while some are missing, an error when a segment does not fit its place. -/
def gathered (w : Wire) (shadow : Bool) (n : Nat) (l : List Admit) : Except Nat (Option (List (List Byte))) :=
  if l = [] then .ok none
  else
    let ps := l.map fun a => segBlocks w shadow n (hdOffset a.head) a.data
    if ps.any (·.isNone) then .error 161
    else
      let all := (ps.filterMap id).flatten
      let bs := (List.range (w.blocks n)).map fun i =>
        if w.blockLen n i = 0 then some [] else (all.find? fun e => e.1 == i).map (·.2)
      if bs.any (·.isNone) then .ok none
      else if (bs.filterMap id) |> indexed |>.any (fun e => e.2.length != w.blockLen n e.1) then .error 161
      else .ok (some (bs.filterMap id))

/-- Collects an item from each of several sources: none while one is missing. -/
def collectAll {α β : Type} (f : α → Except Nat (Option β)) : List α → Except Nat (Option (List β))
  | [] => .ok (some [])
  | a :: r =>
    match f a, collectAll f r with
    | .error e, _ => .error e
    | _, .error e => .error e
    | .ok (some x), .ok (some l) => .ok (some (x :: l))
    | _, _ => .ok none

/-- Operation `k` has sent what a key names. -/
def hasSent (s : State) (k key : Nat) : Bool := ((s.ctl.ops[k]?).map fun o => o.sent.contains key).getD false

/-- A collective segment's record (Table 5.8). -/
def segRecord (s : State) (chunk off : Nat) (b : List Byte) : List Byte :=
  mkHead 0x20 0 chunk (ownPlace s).toNat 0xFF (leBytes 8 off) ++ b

/-- Operation `k` sends segments on a beam, once for each step (`stp`), beam and chunk. -/
def sendSegs (k stp : Nat) (b : Beam) (cls : BitVec 2) (chunk : Nat) (l : List (Nat × List Byte)) (s : State) : State :=
  let key := b.val + 256 * (stp + 2048 * chunk)
  if hasSent s k key then s
  else l.foldl (fun t e => sendRecord k b cls (segRecord t chunk e.1 e.2) t) (onOp k (fun o => { o with sent := key :: o.sent }) s)

/-! ### Sums (R186 to R190, R195) -/

/-- How a reduction adds. -/
inductive RMode where
  | exact
  | ints
  | fast
  deriving DecidableEq, Repr

/-- A contribution's element as its sum holds it, in a block of global code `g`; an FP32 sum holds its bits. -/
def elOf (m : RMode) (g : Nat) (v : FV) : LongForm :=
  match m with
  | .exact => (quantum (egOf g) v, if g = 255 then statusOf v else 0)
  | .ints => (match v with
    | .num n a e => scaled 0 n a e
    | _ => 0, 0)
  | .fast => ((toF32 v).toNat, 0)

/-- Adds two elements of sums. -/
def elAdd (m : RMode) (a b : LongForm) : LongForm :=
  match m with
  | .fast => ((addF32 (BitVec.ofInt 32 a.1) (BitVec.ofInt 32 b.1)).toNat, 0)
  | _ => (a.1 + b.1, a.2 ||| b.2)

/-- The value that a sum gives. -/
def elValue (m : RMode) (g : Nat) (x : LongForm) : FV :=
  match m with
  | .exact => exactResult g x.1 x.2
  | .ints => ofInt (sval 64 (sfield 64 x.1)) 0
  | .fast => ofF32 (BitVec.ofInt 32 x.1)

/-- The layout of a partial sum. -/
def sumWire (m : RMode) (codes : List Nat) : Wire :=
  match m with
  | .fast => .fmt (.flt fp32) 0 []
  | .ints => .sums (codes.map fun _ => 256)
  | .exact => .sums (codes.map fun g => if g = 0 then 0 else if g = 255 then 288 else 256)

/-- One block of a partial sum (R190). -/
def sumBlock (m : RMode) (g : Nat) (l : List LongForm) : List Byte :=
  match m with
  | .fast => l.flatMap fun x => leBytes 4 (sfield 32 x.1)
  | _ =>
    let w := (l.flatMap fun x => leBytes 8 (sfield 64 x.1)) ++ List.replicate (8 * (32 - l.length)) 0
    if m = .exact ∧ g = 0 then [] else if m = .exact ∧ g = 255 then w ++ l.map (·.2) ++ List.replicate (32 - l.length) 0 else w

/-- The elements of a block of a partial sum, `n` of them. -/
def sumUnblock (m : RMode) (g n : Nat) (b : List Byte) : List LongForm :=
  (List.range n).map fun i =>
    match m with
    | .fast => ((leNat ((b.drop (4 * i)).take 4) : Nat), 0)
    | _ => if m = .exact ∧ g = 0 then (0, 0) else (intAt b 8 i, if m = .exact ∧ g = 255 then byteAt b (256 + i) else 0)

/-- The elements of a contribution, its elements being numbers `lo` on of the vector whose block codes are `codes`, the first that of the
block of `lo`. -/
def contribEls (m : RMode) (f : Elem) (codes : List Nat) (lo n : Nat) (b : List Byte) : List LongForm :=
  (indexed (decodeRow f n b)).map fun e => elOf m (nth codes ((lo + e.1) / 32 - lo / 32) 0) e.2

/-- A partial sum's blocks. -/
def sumBlocks (m : RMode) (codes : List Nat) (l : List LongForm) : List (List Byte) :=
  (List.range (blockCount l.length)).map fun i => sumBlock m (nth codes i 0) ((l.drop (32 * i)).take 32)

/-- A result: each sum's value converted once into out_fmt (R186, R189, R195). -/
def sumResult (m : RMode) (g : Elem) (codes : List Nat) (lo : Nat) (l : List LongForm) : List Byte :=
  encodeRow g ((indexed l).map fun e => elValue m (nth codes ((lo + e.1) / 32 - lo / 32) 0) e.2)

/-- Where the blocks of a contribution's elements `lo` on begin: those of the whole vector, or, shadow-encoded, from the chunk's start (R184,
R198). -/
def contribShift (shadow : Bool) (lo : Nat) : Nat := if shadow then 0 else lo % 32

/-- The codes of those blocks: a block of the shadow encoding that lies in two blocks of the vector is carried when one of them is. -/
def contribCodes (shadow : Bool) (lo : Nat) (codes : List Nat) : List Nat :=
  if shadow && decide (lo % 32 ≠ 0) then (indexed codes).map fun e => max e.2 (nth codes (e.1 + 1) 0) else codes

/-- The layout of a contribution: blocks whose G is 0 are omitted (R187, R190). -/
def contribWire (f : Elem) (shadow : Bool) (lo : Nat) (codes : List Nat) : Wire :=
  .fmt f (contribShift shadow lo) (contribCodes shadow lo codes)

/-- The segments of a contribution of `n` elements from `lo` on. -/
def contribSegs (f : Elem) (shadow : Bool) (lo n : Nat) (codes : List Nat) (b : List Byte) : List (Nat × List Byte) :=
  segments (contribWire f shadow lo codes) shadow
    (carriedBlocks (contribCodes shadow lo codes) (cutVecAt (contribShift shadow lo) f n b))

/-- What a beam has brought for a sum of `n` elements: a contribution or a partial sum (R190). -/
def elsFrom (s : State) (k : Nat) (m : RMode) (f : Elem) (codes : List Nat) (lo n : Nat) (shadow : Bool) (chunk : Option Nat) (b : Beam) :
    Except Nat (Option (List LongForm)) :=
  match gathered (contribWire f shadow lo codes) shadow n (segsIn s k b .contribution chunk) with
  | .error e => .error e
  | .ok (some l) =>
    .ok (some (contribEls m f codes lo n (joinVec f (filledBlocks f (contribShift shadow lo) n (contribCodes shadow lo codes) l))))
  | .ok none =>
    match gathered (sumWire m codes) shadow n (segsIn s k b .partialSum chunk) with
    | .error e => .error e
    | .ok none => .ok none
    | .ok (some l) => .ok (some ((indexed l).flatMap fun e => sumUnblock m (nth codes e.1 0) (blockElems n e.1) e.2))

/-- Adds what beams have brought to a sum, in the order given. -/
def addAll (m : RMode) (l : List (List LongForm)) (x : List LongForm) : List LongForm := l.foldl (List.zipWith (elAdd m)) x

/-- Beams in the order in which their values were first admitted (R195). -/
def admitOrder (s : State) (k : Nat) (bs : List Beam) : List Beam :=
  (s.ctl.admitted.filter fun a => a.op == k && (a.form == .contribution || a.form == .partialSum)).foldl (fun l a =>
    if bs.contains a.beam && !l.contains a.beam then l ++ [a.beam] else l) []

/-! ### Exponent codes (R185) -/

/-- The codes of the blocks that elements `lo` to `lo + n` of a vector touch. -/
def codesOf (vals : List FV) (lo n : Nat) : List Nat :=
  (List.range ((lo + n + 31) / 32 - lo / 32)).map fun i => blockCode ((vals.drop (32 * (lo / 32 + i))).take 32)

/-- The larger codes. -/
def maxCodes (a b : List Nat) : List Nat := List.zipWith max a b

/-- The codes that a beam has brought. -/
def codesFrom (s : State) (k n : Nat) (chunk : Option Nat) (b : Beam) : Except Nat (Option (List Nat)) :=
  match segsIn s k b .exponents chunk with
  | [] => .ok none
  | a :: _ => if a.data.length = n then .ok (some (a.data.map (·.toNat))) else .error 161

/-- Codes as a segment. -/
def codeSegs (l : List Nat) : List (Nat × List Byte) := [(0, l.map (BitVec.ofNat 8))]

end Sys2Proof.Machine
end

