-- ==== Sys2Proof/Machine/Coll.lean ====
section
/-!
DEFINITION. The collectives (R159 to R162, R184 to R199): ALLREDUCE, REDUCESCATTER, ALLGATHER, ALLTOALLV, BROADCAST, STREAM, and the segments they
receive; and the write of CE_CTRL.
-/

namespace Sys2Proof.Machine

/-! ### Descriptors and routes (R159, R160) -/

/-- A route entry. -/
structure Route where
  /-- Beam -/
  beam : Beam
  /-- Role (Table 5.11) -/
  role : Nat
  /-- Chunk index -/
  chunk : Nat
  deriving DecidableEq, Repr

/-- Source handle -/
def collSrc (o : OpSt) : Nat := opBits o 1 63 32

/-- Destination handle -/
def collDst (o : OpSt) : Nat := opBits o 1 31 0

/-- Number of route entries -/
def routeCount (o : OpSt) : Nat := opBits o 2 47 32

/-- Chunk elements -/
def chunkSize (o : OpSt) : Nat := opBits o 2 31 0

/-- Shadow-mask encoding (R197) -/
def shadowed (o : OpSt) : Bool := opFlag o 3

/-- The route of a collective. -/
def routeOf (s : State) (o : OpSt) : List Route :=
  ((((s.img.image.map fun i : Image => i.routes).getD []).drop (opBits o 2 63 48)).take (routeCount o)).map fun w =>
    { beam := fin! 256 (fld w 7 0), role := fld w 11 8, chunk := fld w 31 16 }

/-- The route entries of a role. -/
def roleOf (s : State) (o : OpSt) (role : Nat) : List Route := (routeOf s o).filter fun e => e.role == role

/-- A route that names entries or beams that do not exist. -/
def routeBad (s : State) (o : OpSt) : Bool :=
  (routeOf s o).length != routeCount o || (routeOf s o).any fun e => !beamUsed s e.beam || decide (4 < e.role)

/-- A vector length that a format cannot hold (R172). -/
def lenBad (f : Elem) (n : Nat) : Bool := f.isMx && n % 32 != 0

/-- The formats of a collective, each with INT8 in place of a reserved code (which `bad` has excluded). -/
def collIn (o : OpSt) : Elem := (opIn o).getD (.int 1)
/-- Its out_fmt. -/
def collOut (o : OpSt) : Elem := (opOut o).getD (.int 1)

/-- How a reduction adds (R162, R189). -/
def redMode (o : OpSt) : RMode := if (collIn o).isInt then .ints else if opFlag o 0 then .exact else .fast

/-- Formats that Table 6.4 excludes for a reduction. -/
def redFmtBad (o : OpSt) : Bool := (opIn o).isNone || (opOut o).isNone || (collIn o).isInt != (collOut o).isInt

/-- Formats that Table 6.4 excludes for a move. -/
def moveFmtBad (o : OpSt) : Bool := (opIn o).isNone || opBits o 0 55 52 != opBits o 0 51 48

/-! ### ALLREDUCE (R161, R162) -/

/-- An ALLREDUCE that the rules exclude. -/
def allreduceBad : OpCheck := fun s o =>
  let n := opCount o
  if redFmtBad o then some 177
  else if n = 0 ∨ lenBad (collIn o) n ∨ lenBad (collOut o) n then some 172
  else if routeCount o = 0 ∨ 1024 < routeCount o ∨ routeBad s o then some 60
  else if bufFits s (collSrc o) (rowBytes (collIn o) n) && bufFits s (collDst o) (rowBytes (collOut o) n) then none else some 134

/-- What the parent gives for a step: at the top of the route what is known here. -/
def fromParent {α : Type} (par : List Route) (own : α) (f : Beam → Except Nat (Option α)) : Except Nat (Option α) :=
  match par with
  | [] => .ok (some own)
  | p :: _ => f p.beam

/-- Sends the same segments to each of several entries. -/
def sendEach (k stp : Nat) (cls : BitVec 2) (l : List Route) (segs : List (Nat × List Byte)) (s : State) : State :=
  l.foldl (fun t e => sendSegs k stp e.beam cls e.chunk segs t) s

/-- The exponent step (R162, R185): up from the children, among exchange peers, to the parent, and back down. It answers the global codes
when they are known here. -/
def exponentStep (k : Nat) (o : OpSt) (own : List Nat) (s : State) : Except Nat (State × Option (List Nat)) :=
  let kids := roleOf s o 0
  let par := roleOf s o 1
  let xs := roleOf s o 4
  let codes := codesFrom s k own.length none
  match collectAll codes (kids.map (·.beam)) with
  | .error e => .error e
  | .ok none => .ok (s, none)
  | .ok (some cs) =>
    let u := cs.foldl maxCodes own
    let s1 := sendEach k 0 0 xs (codeSegs u) s
    match collectAll codes (xs.map (·.beam)) with
    | .error e => .error e
    | .ok none => .ok (s1, none)
    | .ok (some xc) =>
      let v := xc.foldl maxCodes u
      let s2 := sendEach k 0 0 par (codeSegs v) s1
      match fromParent par v codes with
      | .error e => .error e
      | .ok none => .ok (s2, none)
      | .ok (some g) => .ok (sendEach k 1 1 kids (codeSegs g) s2, some g)

/-- A place's sum as it travels: its own contribution alone in in_fmt, or a partial sum (R190). -/
def upSegs (o : OpSt) (codes : List Nat) (src : List Byte) (alone : Bool) (l : List LongForm) : List (Nat × List Byte) :=
  if alone then contribSegs (collIn o) (shadowed o) 0 (opCount o) codes src
  else segments (sumWire (redMode o) codes) (shadowed o) (sumBlocks (redMode o) codes l)

/-- The form of such a sum. -/
def upForm (alone : Bool) : SegForm := if alone then .contribution else .partialSum

/-- The result reaches the children and the destination. -/
def reduceDone (k : Nat) (o : OpSt) (r : List Byte) (s : State) : State :=
  let s1 := sendEach k 3 1 (roleOf s o 0) (segments (.fmt (collOut o) 0 []) (shadowed o) (cutVec (collOut o) (opCount o) r)) s
  opFinal k (stage (collDst o) 0 r s1)

/-- What all of several beams have brought, in the order of their admission. -/
def allEls (s : State) (k : Nat) (els : Beam → Except Nat (Option (List LongForm))) (bs : List Beam) : Except Nat (Option (List (List LongForm))) :=
  match collectAll els bs with
  | .ok (some _) => collectAll els (admitOrder s k bs)
  | x => x

/-- The value step (R186 to R190, R195). -/
def valueStep (k : Nat) (o : OpSt) (src : List Byte) (codes : List Nat) (s : State) : Res :=
  let n := opCount o
  let m := redMode o
  let kids := roleOf s o 0
  let par := roleOf s o 1
  let xs := roleOf s o 4
  let own := contribEls m (collIn o) codes 0 n src
  let els := elsFrom s k m (collIn o) codes 0 n (shadowed o) none
  match allEls s k els (kids.map (·.beam)) with
  | .error e => .error e
  | .ok none => .ok s
  | .ok (some kc) =>
    let s1 := sendEach k 2 0 xs (upSegs o codes src (kids == []) (addAll m kc own)) s
    match allEls s k els ((kids ++ xs).map (·.beam)) with
    | .error e => .error e
    | .ok none => .ok s1
    | .ok (some xc) =>
      let sum := addAll m xc own
      let s2 := sendEach k 2 0 par (upSegs o codes src (kids == [] && xs == []) sum) s1
      match fromParent par [] (fun b => gathered (.fmt (collOut o) 0 []) (shadowed o) n (segsIn s k b .result none)) with
      | .error e => .error e
      | .ok none => .ok s2
      | .ok (some l) =>
        .ok (reduceDone k o (if par = [] then sumResult m (collOut o) codes 0 sum else joinVec (collOut o) l) s2)

/-- The codes of a reduction without an exponent step. -/
def noCodes (n : Nat) : List Nat := List.replicate (blockCount n) 1

/-- ALLREDUCE goes on with what it has admitted. -/
def allreduceBody (k : Nat) (o : OpSt) (ins : List (List Byte)) (s : State) : Res :=
  let src := nth ins 0 []
  let n := opCount o
  if redMode o = .exact then
    match exponentStep k o (codesOf (decodeRow (collIn o) n src) 0 n) s with
    | .error e => .error e
    | .ok (t, none) => .ok t
    | .ok (t, some g) => valueStep k o src g t
  else valueStep k o src (noCodes n) s

/-! ### REDUCESCATTER -/

/-- The lowest chunk index that no entry names: this place's own chunk. -/
def ownChunk (l : List Route) : Nat := ((List.range (l.length + 1)).find? fun i => !(l.any fun e => e.chunk == i)).getD 0

/-- The elements of a chunk of a vector: first one, and how many. -/
def chunkRange (o : OpSt) (c : Nat) : Nat × Nat := (c * chunkSize o, min (chunkSize o) (opCount o - c * chunkSize o))

/-- The bytes of elements `lo` to `lo + m` of a vector of `n`. -/
def vecSlice (f : Elem) (n lo m : Nat) (b : List Byte) : List Byte :=
  (b.drop (f.bits * lo / 8)).take (f.bits * m / 8) ++ (if f.isMx then (b.drop (f.bits * n / 8 + lo / 32)).take (m / 32) else [])

/-- A REDUCESCATTER that the rules exclude. -/
def reducescatterBad : OpCheck := fun s o =>
  let n := opCount o
  let c := chunkSize o
  let own := chunkRange o (ownChunk (routeOf s o))
  if redFmtBad o then some 177
  else if n = 0 ∨ c = 0 ∨ lenBad (collIn o) n ∨ lenBad (collIn o) c ∨ lenBad (collOut o) c ∨ lenBad (collOut o) n then some 172
  else if routeCount o = 0 ∨ 1024 < routeCount o ∨ routeBad s o then some 60
  else if own.2 = 0 ∨ (routeOf s o).any (fun e => (chunkRange o e.chunk).2 == 0) then some 161
  else if bufFits s (collSrc o) (rowBytes (collIn o) n) && bufFits s (collDst o) (rowBytes (collOut o) own.2) then none else some 134

/-- The codes of the blocks that a chunk touches, of the codes of the whole vector. -/
def chunkCodes (r : Nat × Nat) (codes : List Nat) : List Nat := (codes.drop (r.1 / 32)).take ((r.1 + r.2 + 31) / 32 - r.1 / 32)

/-- The exponent step sends each exchange peer this place's codes of every block of the whole vector (R184, R185). -/
def scatterCodes (k : Nat) (o : OpSt) (own : List Nat) (s : State) : State := sendEach k 0 0 (roleOf s o 4) (codeSegs own) s

/-- The value step sends each exchange peer the contribution for the chunk that the entry names, without the blocks whose G is 0 (R187). -/
def scatterSends (k : Nat) (o : OpSt) (src : List Byte) (codes : List Nat) (s : State) : State :=
  (roleOf s o 4).foldl (fun t e =>
    let r := chunkRange o e.chunk
    sendSegs k 2 e.beam 0 e.chunk (contribSegs (collIn o) (shadowed o) r.1 r.2 (chunkCodes r codes)
      (vecSlice (collIn o) (opCount o) r.1 r.2 src)) t) s

/-- REDUCESCATTER goes on with what it has admitted. -/
def reducescatterBody (k : Nat) (o : OpSt) (ins : List (List Byte)) (s : State) : Res :=
  let src := nth ins 0 []
  let f := collIn o
  let m := redMode o
  let c := ownChunk (routeOf s o)
  let r := chunkRange o c
  let own := codesOf (decodeRow f (opCount o) src) 0 (opCount o)
  let xs := (roleOf s o 4).map (·.beam)
  let s0 := if m = .exact then scatterCodes k o own s else s
  match (if m = .exact then collectAll (codesFrom s k own.length none) xs else .ok (some [])) with
  | .error e => .error e
  | .ok none => .ok s0
  | .ok (some cs) =>
    let whole := if m = .exact then cs.foldl maxCodes own else own.map fun _ => 1
    let codes := chunkCodes r whole
    let s1 := scatterSends k o src whole s0
    let els := elsFrom s k m f codes r.1 r.2 (shadowed o) (some c)
    match allEls s k els xs with
    | .error e => .error e
    | .ok none => .ok s1
    | .ok (some l) =>
      let sum := addAll m l (contribEls m f codes r.1 r.2 (vecSlice f (opCount o) r.1 r.2 src))
      .ok (opFinal k (stage (collDst o) 0 (sumResult m (collOut o) codes r.1 sum) s1))

/-! ### ALLGATHER -/

/-- This place's own chunk in an ALLGATHER: that of the first entry with role 2, else the lowest that no entry names. -/
def gatherChunk (l : List Route) : Nat := ((l.find? fun e => e.role == 2).map (·.chunk)).getD (ownChunk l)

/-- Chunks of the destination of an ALLGATHER. -/
def chunkCount (l : List Route) : Nat := l.foldl (fun n e => max n (e.chunk + 1)) (gatherChunk l + 1)

/-- An ALLGATHER that the rules exclude. -/
def allgatherBad : OpCheck := fun s o =>
  let n := opCount o
  let c := chunkSize o
  if moveFmtBad o then some 177
  else if n = 0 ∨ c < n ∨ lenBad (collIn o) n ∨ lenBad (collIn o) c then some 160
  else if routeCount o = 0 ∨ 1024 < routeCount o ∨ routeBad s o then some 60
  else if (routeOf s o).any (fun e => e.role == 2 && e.chunk != gatherChunk (routeOf s o) &&
      !((routeOf s o).any fun d => (d.role == 3 || d.role == 4) && d.chunk == e.chunk)) then some 50
  else if bufFits s (collSrc o) (rowBytes (collIn o) n) && bufFits s (collDst o) (rowBytes (collIn o) (c * chunkCount (routeOf s o))) then none
  else some 134

/-- Stages one chunk of a destination vector of `total` elements, from element `lo` on: its elements, and its scales behind all elements. -/
def stageChunk (f : Elem) (h total lo : Nat) (l : List (List Byte)) (s : State) : State :=
  if f.isMx then
    stage h (f.bits * total / 8 + lo / 32) (l.flatMap fun b => b.drop (b.length - 1))
      (stage h (f.bits * lo / 8) (l.flatMap fun b => b.take (b.length - 1)) s)
  else stage h (f.bits * lo / 8) l.flatten s

/-- Elements of a chunk that the place it comes from contributes: the images of both places agree on the number, which no record carries
(Table 2.2, log entry 175). -/
def chunkElems (o : OpSt) (l : List Admit) : Nat := min (chunkSize o) ((l.head?.map (·.total)).getD 0)

/-- A chunk as a beam has brought it. -/
def chunkFrom (s : State) (k : Nat) (o : OpSt) (e : Route) : Except Nat (Option (Nat × List (List Byte))) :=
  let l := segsIn s k e.beam .contribution (some e.chunk)
  match gathered (.fmt (collIn o) 0 []) (shadowed o) (chunkElems o l) l with
  | .error r => .error r
  | .ok none => .ok none
  | .ok (some b) => .ok (some (e.chunk, b))

/-- ALLGATHER goes on: own chunk out, received chunks forwarded, and all of them staged when they are there. -/
def allgatherBody (k : Nat) (o : OpSt) (ins : List (List Byte)) (s : State) : Res :=
  let f := collIn o
  let rt := routeOf s o
  let own := gatherChunk rt
  let rx := rt.filter fun e => e.role == 3 || e.role == 4
  let mine := (own, cutVec f (opCount o) (nth ins 0 []))
  let s1 := (rt.filter fun e => e.role == 4).foldl (fun t e => sendSegs k 2 e.beam 0 own (segments (.fmt f 0 []) (shadowed o) mine.2) t) s
  let got := rx.map (chunkFrom s k o)
  match got.findSome? fun g => match g with
    | .error e => some e
    | _ => none with
  | some e => .error e
  | none =>
    let have_ := mine :: got.filterMap fun g => match g with
      | .ok x => x
      | _ => none
    let s2 := (rt.filter fun e => e.role == 2).foldl (fun t e =>
      match have_.find? fun h => h.1 == e.chunk with
      | some h => sendSegs k 2 e.beam 0 e.chunk (segments (.fmt f 0 []) (shadowed o) h.2) t
      | none => t) s1
    if have_.length = rx.length + 1 then
      .ok (opFinal k (have_.foldl (fun t h => stageChunk f (collDst o) (chunkSize o * chunkCount rt) (h.1 * chunkSize o) h.2 t) s2))
    else .ok s2

/-! ### ALLTOALLV -/

/-- The send-count table's counts. -/
def sendCounts (b : List Byte) (n : Nat) : List Nat := (List.range n).map fun i => leNat ((b.drop (4 * i)).take 4)

/-- An ALLTOALLV that the rules exclude. -/
def alltoallvBad : OpCheck := fun s o =>
  if moveFmtBad o then some 177
  else if opCount o ≠ 0 then some 133
  else if routeCount o = 0 ∨ 1024 < routeCount o ∨ routeBad s o then some 60
  else if bufFits s (opBits o 3 63 32) (4 * routeCount o) && bufFits s (opBits o 3 31 0) (4 * routeCount o) then none else some 134

/-- The inputs of an ALLTOALLV: the counts, and as many elements as they name. -/
def alltoallvInputs (s : State) (o : OpSt) : List (Nat × Nat) :=
  let n := 4 * routeCount o
  (opBits o 3 63 32, n) ::
    (match inputOf s (opBits o 3 63 32) n with
     | .ready b =>
       let total := (sendCounts b (routeCount o)).foldl (· + ·) 0
       if total = 0 then [] else [(collSrc o, rowBytes (collIn o) total)]
     | _ => [])

/-- The segment that receive entry number `j` of a beam takes: the j-th that the beam has brought. -/
def pieceFrom (s : State) (k : Nat) (b : Beam) (j : Nat) : Option Admit :=
  (s.ctl.admitted.filter fun a => a.op == k && a.beam == b && a.form == .contribution)[j]?

/-- Every receive entry with its number among its beam's receive entries. -/
def rxEntries : List Route → List Beam → List (Option (Beam × Nat))
  | [], _ => []
  | e :: r, seen =>
    if e.role = 3 ∨ e.role = 4 then some (e.beam, seen.count e.beam) :: rxEntries r (e.beam :: seen) else none :: rxEntries r seen

/-- Sends each entry its elements in turn; entry `i` starts at element `lo` (R161). -/
def sendPiecesOf (k : Nat) (o : OpSt) (total : Nat) (src : List Byte) : List (Route × Nat) → Nat → Nat → State → State
  | [], _, _, s => s
  | (e, n) :: r, i, lo, s =>
    let f := collIn o
    let s1 := if e.role = 3 then s
      else sendSegs k (2 + i) e.beam 0 e.chunk [(0, vecSlice f total lo n src)] s
    sendPiecesOf k o total src r (i + 1) (lo + n) s1

/-- ALLTOALLV goes on: everything is sent at its start; when every receive entry has its elements they are staged in entry order, with
their counts. -/
def alltoallvBody (k : Nat) (o : OpSt) (ins : List (List Byte)) (s : State) : Res :=
  let f := collIn o
  let rt := routeOf s o
  let cs := sendCounts (nth ins 0 []) (routeCount o)
  let total := cs.foldl (· + ·) 0
  if cs.any fun n => lenBad f n then .error 172
  else
    let s1 := sendPiecesOf k o total (nth ins 1 []) (rt.zip cs) 0 0 s
    let got := (rxEntries rt []).map fun e => match e with
      | none => some (0, [])
      | some (b, j) => (pieceFrom s k b j).map fun a => (segElems f a.data.length, a.data)
    if got.any (·.isNone) then .ok s1
    else
      let ps := got.filterMap id
      if ps.any fun p => rowBytes f p.1 != p.2.length then .error 161
      else
        let dst := joinVec f (ps.flatMap fun p => cutVec f p.1 p.2)
        if bufFits s (collDst o) dst.length then
          .ok (opFinal k (stage (opBits o 3 31 0) 0 (ps.flatMap fun p => leBytes 4 p.1) (if dst = [] then s1 else stage (collDst o) 0 dst s1)))
        else .error 134

/-! ### BROADCAST and STREAM -/

/-- The entry from which a place that is not the root receives. -/
def upEntry (s : State) (o : OpSt) : Option Route := (routeOf s o).find? fun e => e.role == 1 || e.role == 3

/-- A BROADCAST that the rules exclude. -/
def broadcastBad : OpCheck := fun s o =>
  let n := opCount o
  let root := opFlag o 1
  if moveFmtBad o then some 177
  else if n = 0 ∨ lenBad (collIn o) n then some 172
  else if routeCount o = 0 ∨ 1024 < routeCount o ∨ routeBad s o then some 60
  else if root = false ∧ (upEntry s o).isNone then some 50
  else if (!root || bufFits s (collSrc o) (rowBytes (collIn o) n)) && bufFits s (collDst o) (rowBytes (collIn o) n) then none else some 134

/-- The root's vector goes on to the children and reaches the destination. -/
def broadcastOn (k : Nat) (o : OpSt) (b : List Byte) (s : State) : State :=
  let f := collIn o
  let segs := segments (.fmt f 0 []) (shadowed o) (cutVec f (opCount o) b)
  let s1 := (routeOf s o).foldl (fun t e =>
    if e.role = 0 then sendSegs k 3 e.beam 1 e.chunk segs t else if e.role = 2 then sendSegs k 2 e.beam 0 e.chunk segs t else t) s
  opFinal k (stage (collDst o) 0 b s1)

/-- BROADCAST goes on: the root sends, every other place forwards what it has received. -/
def broadcastBody (k : Nat) (o : OpSt) (ins : List (List Byte)) (s : State) : Res :=
  if opFlag o 1 then .ok (broadcastOn k o (nth ins 0 []) s)
  else match upEntry s o with
    | none => .ok s
    | some e =>
      match gathered (.fmt (collIn o) 0 []) (shadowed o) (opCount o) (segsIn s k e.beam (if e.role = 1 then .result else .contribution) none) with
      | .error r => .error r
      | .ok none => .ok s
      | .ok (some l) => .ok (broadcastOn k o (joinVec (collIn o) l) s)

/-- The single route entry of a STREAM. -/
def streamEntry (s : State) (o : OpSt) : Option Route := (routeOf s o).head?

/-- The STREAM reads its source: between a site stream and a buffer, or an entry that sends. -/
def streamReads (s : State) (o : OpSt) : Bool := ((streamEntry s o).map fun e => e.role != 3).getD true

/-- The STREAM writes its destination. -/
def streamWrites (s : State) (o : OpSt) : Bool := ((streamEntry s o).map fun e => e.role != 2).getD true

/-- A STREAM that the rules exclude. -/
def streamBad : OpCheck := fun s o =>
  let n := opCount o
  if n = 0 ∨ 1 < routeCount o then some 161
  else if routeBad s o then some 60
  else if (routeOf s o).any (fun e => decide (e.role < 2)) then some 161
  else if (!streamReads s o || bufFits s (collSrc o) n) && (!streamWrites s o || bufFits s (collDst o) n) then none else some 134

/-- STREAM goes on: the bytes go out over the entry and come in over it, or move between the two buffers. -/
def streamBody (k : Nat) (o : OpSt) (ins : List (List Byte)) (s : State) : Res :=
  let b := nth ins 0 []
  match streamEntry s o with
  | none => .ok (opFinal k (stage (collDst o) 0 b s))
  | some e =>
    let s1 := if streamReads s o then sendSegs k 2 e.beam 0 e.chunk [(0, b)] s else s
    if streamWrites s o then
      match pieceFrom s k e.beam 0 with
      | none => .ok s1
      | some a => if a.data.length = opCount o then .ok (opFinal k (stage (collDst o) 0 a.data s1)) else .error 161
    else .ok (opFinal k s1)

/-! ### Rows -/

/-- The inputs of a collective. -/
def collInputs (s : State) (o : OpSt) : List (Nat × Nat) :=
  let n := rowBytes (collIn o) (opCount o)
  let c := opCode o
  if c = 0x33 then alltoallvInputs s o
  else if c = 0x34 then (if opFlag o 1 then [(collSrc o, n)] else [])
  else if c = 0x35 then (if streamReads s o then [(collSrc o, opCount o)] else [])
  else [(collSrc o, n)]

/-- What a collective does with its inputs and what it has admitted. -/
def collBody (k : Nat) (o : OpSt) (ins : List (List Byte)) (s : State) : Res :=
  let c := opCode o
  if c = 0x30 then allreduceBody k o ins s
  else if c = 0x31 then reducescatterBody k o ins s
  else if c = 0x32 then allgatherBody k o ins s
  else if c = 0x33 then alltoallvBody k o ins s
  else if c = 0x34 then broadcastBody k o ins s
  else streamBody k o ins s

/-- A collective starts. -/
def collStart (k : Nat) (o : OpSt) (s : State) : Res := withInputs (collInputs s o) (fun ins t => collBody k o ins (opStarts k (countInputs (collInputs s o) t))) s

/-- ALLREDUCE. -/
def execAllreduce (k : Nat) (s : State) : Host.Outcome State Fault Refusal := opRow 0x30 k allreduceBad collStart s

/-- REDUCESCATTER. -/
def execReducescatter (k : Nat) (s : State) : Host.Outcome State Fault Refusal := opRow 0x31 k reducescatterBad collStart s

/-- ALLGATHER. -/
def execAllgather (k : Nat) (s : State) : Host.Outcome State Fault Refusal := opRow 0x32 k allgatherBad collStart s

/-- ALLTOALLV. -/
def execAlltoallv (k : Nat) (s : State) : Host.Outcome State Fault Refusal := opRow 0x33 k alltoallvBad collStart s

/-- BROADCAST. -/
def execBroadcast (k : Nat) (s : State) : Host.Outcome State Fault Refusal := opRow 0x34 k broadcastBad collStart s

/-- STREAM. -/
def execStream (k : Nat) (s : State) : Host.Outcome State Fault Refusal := opRow 0x35 k streamBad collStart s

/-- An operation that receives collective segments. -/
def takesSegments (o : OpSt) : Bool := decide (0x30 ≤ opCode o) && decide (opCode o ≤ 0x35)

/-- The class that brings a segment: results, and exponent codes from a parent, come down on the response class (Table 5.11). -/
def segClass (s : State) (b : Beam) (form : SegForm) (o : OpSt) : Fin 2 :=
  if form = .result ∨ (form = .exponents ∧ (roleOf s o 1).any (fun e => e.beam == b) = true) then 1 else 0

/-- A segment carries a Fast-mode sum, which depends on the order in which its contributions came (R58). -/
def looseSum (o : OpSt) (form : SegForm) : Bool :=
  (form == .partialSum || form == .result) && (opCode o == 0x30 || opCode o == 0x31) && redMode o != .exact

/-- COLLECTIVE_SEGMENT: admitted once; its collective goes on. -/
def execCollectiveSegment (b : Beam) (k : Nat) (form : SegForm) (len : Nat) (s : State) (total : Nat := 0) : Host.Outcome State Fault Refusal :=
  recordRow b 0x20 k form takesSegments (segClass s b form) (fun _ => 16 + len) (fun o a r t =>
    let t1 := admitRec k b a form r (r.drop 16) total t (looseSum o form)
    if o.started && !o.final then withInputs (collInputs t1 o) (collBody k o) t1 else .ok t1) s

/-! ### CE_CTRL (R166) -/

/-- CE_CTRL_WRITE. -/
def ceCtrl (v : Word) (s : State) : State :=
  if BitVec.ofNat 16 (fld v 31 16) ≠ s.ce.epoch then flag blkCE 0 5 s
  else { s with ce := { s.ce with raDisable := bit v 0, epoch := s.ce.epoch + 1 } }

/-- CE_CTRL_WRITE. -/
def execCeCtrlWrite (v : Word) (s : State) : Host.Outcome State Fault Refusal := regRow 0xA0000 v (ceCtrl v) s

end Sys2Proof.Machine
end

