-- ==== Sys2Proof/Machine/Contain.lean ====
section
/-!
DEFINITION. The commands below the sequencer whose effect may abort the program: a held DEV_PENUMBRA then takes effect at once (R93).
-/

namespace Sys2Proof.Machine

/-! ### Combs and fibres -/

/-- COMB_DIE_FAILURE: declared for a sudden fall of the tap, or for a current at the limit with a median launch below −1.0 dBm (R313). A die
that fails in the second way is replaced like the first (log entry 195). -/
def execCombDieFailure (g : CombGroup) (d : CombDie) (sudden : Bool) (s : State) : Host.Outcome State Fault Refusal :=
  run (stopping fun s => if sudden || dieSpent (s.comb.group[g]).die[d] then dieFails g d s else s) s

/-- OPEN_FIBRE. -/
def execOpenFibre (p : Port) (s : State) : Host.Outcome State Fault Refusal := run (stopping (openFibre p)) s

/-- CLOCK_LOSS_DETECTED. -/
def execClockLossDetected (c : ClockLoss) (s : State) : Host.Outcome State Fault Refusal := run (stopping (clockLost c)) s

/-! ### Ports and plans -/

/-- TRAIN. -/
def execTrain (p : Port) (raw : List Byte) (s : State) : Host.Outcome State Fault Refusal := run (stopping (trainRx p raw)) s

/-- PORT_TRAINING_STEP. -/
def execPortTrainingStep (p : Port) (r : PortStep) (s : State) : Host.Outcome State Fault Refusal := run (stopping (portStep p r)) s

/-- PORT_TRAINING_TIMEOUT: a step exceeded 10 ms (R258). -/
def execPortTrainingTimeout (p : Port) (s : State) : Host.Outcome State Fault Refusal :=
  run (stopping fun s => if (s.port[p]).state = 2 then trainFails p 1 3 s else s) s

/-- PRT_CMD_RETRAIN. -/
def execPrtCmdRetrain (v : Word) (s : State) : Host.Outcome State Fault Refusal := regRow 0xD0010 v (stopping (prtCmd 1 v)) s

/-- PRT_CMD_HOLD. -/
def execPrtCmdHold (v : Word) (s : State) : Host.Outcome State Fault Refusal := regRow 0xD0010 v (stopping (prtCmd 2 v)) s

/-- PRT_CMD_RELEASE. -/
def execPrtCmdRelease (v : Word) (s : State) : Host.Outcome State Fault Refusal := regRow 0xD0010 v (stopping (prtCmd 3 v)) s

/-- SWITCH_ANCHOR. -/
def execSwitchAnchor (p : Port) (s : State) : Host.Outcome State Fault Refusal := run (stopping (switchAnchor p)) s

/-- SWITCH_TIMEOUT: no flit of the new count within the credit timeout (R216). -/
def execSwitchTimeout (b : Beam) (s : State) : Host.Outcome State Fault Refusal :=
  run (stopping fun s => if (s.beam[b]).waitNew && !(s.beam[b]).newSeen && switchDone s b then breakBeam b s else s) s

/-! ### Beams -/

/-- INIT_TIMEOUT: no INIT has arrived within 10 ms (R263). -/
def execInitTimeout (b : Beam) (s : State) : Host.Outcome State Fault Refusal :=
  run (stopping fun s => if (s.beam[b]).tx = .init ∧ (s.beam[b]).initSeen = false then breakBeam b s else s) s

/-- CREDIT_TIMEOUT: credit or acknowledgement has not advanced for credit_timeout_us (R254). -/
def execCreditTimeout (b : Beam) (s : State) : Host.Outcome State Fault Refusal :=
  run (stopping fun s => let q := s.beam[b]
    if timersRun q && (q.tx == .creditWait || q.unacked != []) then breakBeam b s else s) s

/-- RETRAIN_REQUEST (kind 0). -/
def execRetrainRequest (b : Beam) (raw : List Byte) (s : State) : Host.Outcome State Fault Refusal :=
  run (stopping (wholeRx b raw 5 fun f s => (fun s => if byteAt f.body 0 = 0 then requestMsg b f.body s else s) (headerRx b f s))) s

/-- RETRAIN_GO (kind 1). -/
def execRetrainGo (b : Beam) (raw : List Byte) (s : State) : Host.Outcome State Fault Refusal :=
  run (stopping (ctlRx b raw 5 fun body s => if byteAt body 0 = 1 then goMsg b body s else s)) s

/-- RETRAIN_TIMEOUT: a switch that the retrain held goes on. -/
def execRetrainTimeout (b : Beam) (s : State) : Host.Outcome State Fault Refusal :=
  run (stopping fun s => heldSwitch (portOf s b) (retrainExpires b s)) s

/-! ### Sites -/

/-- SIDEBAND_FAILED: no ack for 100 µs while a message is unacknowledged; the site is Contained (R359, Table 11.6). -/
def execSidebandFailed (x : SiteIx) (s : State) : Host.Outcome State Fault Refusal :=
  run (stopping fun s => if siteUp s x ∧ (s.site[x]).sb.unacked ≠ [] then containSite x 7 3 s else s) s

/-- PARITY. -/
def execParity (x : SiteIx) (raw : List Byte) (s : State) : Host.Outcome State Fault Refusal := sbRow x raw 0x13 (fun b => stopping (parityMsg x b)) s

/-- LANE_MAP_APPLY. -/
def execLaneMapApply (x : SiteIx) (index : Word) (s : State) : Host.Outcome State Fault Refusal := run (stopping (mapsApply x index)) s

/-- MODULE_FRAME. -/
def execModuleFrame (w : WideIx) (m : Fin 33) (lanes : List DWord) (s : State) : Host.Outcome State Fault Refusal :=
  if running s && modOn s w m && frameOverrun w m lanes s then hostError 357 s else run (stopping (frameRx w m lanes)) s

/-- TP_TRAINING_STEP. -/
def execTpTrainingStep (t : ReachIx) (r : ReachStep) (s : State) : Host.Outcome State Fault Refusal := run (stopping (tpStep t r)) s

/-! ### Reservoir and image -/

/-- STACK_CHANNEL_LOSS: a Ready stack that loses more than one channel in service becomes Failed (R408). -/
def execStackChannelLoss (h : Stack) (s : State) : Host.Outcome State Fault Refusal :=
  run (stopping fun s => if (s.hbm.stack[h]).state = stReady then stackFail h s else s) s

/-- REPLACEMENT_COPY_DONE. -/
def execReplacementCopyDone (s : State) (words : List (Nat × WordError) := []) : Host.Outcome State Fault Refusal := run (stopping (copyDone words)) s

end Sys2Proof.Machine
end

