-- ==== Sys2Proof/Machine/Deliver.lean ====
section
/-!
DEFINITION. Deliveries that bring several things at once: DATA flits with tokens (R241), die tokens (R361), and the Reach codewords
with their sideband slots (R374 to R376).
-/

namespace Sys2Proof.Machine

/-- A DATA flit arrives; token-only flits that it delivers in order reach the control root (R241, R57). -/
def dataFlitMeaning (b : Beam) (raw : List Byte) (words : List LineWord) (code : CodeResult) (s : State) : State :=
  drainBeam b (dataFlitRx b raw words code s)

/-- DATA_FLIT. -/
def execDataFlit (b : Beam) (raw : List Byte) (words : List LineWord) (s : State) (code : CodeResult := .clean) :
    Host.Outcome State Fault Refusal :=
  run (dataFlitMeaning b raw words code) s

/-- TOKEN: a die token reaches the control root (R361). -/
def tokenMsg (b : List Byte) (s : State) : State := tokenRx (BitVec.ofNat 64 (bnat b 0 8)) s

/-- SB_TOKEN. -/
def execSbToken (x : SiteIx) (slot : List Byte) (s : State) : Host.Outcome State Fault Refusal := sbRow x slot 0x17 tokenMsg s

/-- What a sideband message of a site does, by its type (Table 11.9). STREAM_MAP and LOCK_RESP come from the EK2 only. -/
def slotMsg (x : SiteIx) (m : Slot) (s : State) : State :=
  if sbReserved x m.typ then reservedMsg x s
  else if m.typ = 0x01 then retryMsg x m.body s
  else if m.typ = 0x10 then levelMsg x m.body s
  else if m.typ = 0x11 then laneMapMsg x m.body s
  else if m.typ = 0x12 then repairMsg x m.body s
  else if m.typ = 0x13 then parityMsg x m.body s
  else if m.typ = 0x15 then creditInitMsg x m.body s
  else if m.typ = 0x16 then creditMsg x m.body s
  else if m.typ = 0x17 then tokenMsg m.body s
  else if m.typ = 0x18 then hintMsg x m.body s
  else if m.typ = 0x19 then mbxDataMsg x m.body s
  else if m.typ = 0x1A then mbxGoMsg x m.body s
  else if m.typ = 0x1B then mbxRespMsg x m.body s
  else if m.typ = 0x1C then doorbellMsg m.body s
  else if m.typ = 0x1D then lockMsg x m.body s
  else s

/-- The 30 message slots of a sideband codeword, in order (Table 12.3). -/
def sidebandRx (t : ReachIx) (payload : List Byte) (s : State) : State :=
  (chunksOf 21 30 payload).foldl (fun a raw => sbSlot t.site raw (fun _ => true) (slotMsg t.site) a) s

/-- A decoded codeword at position `side` or not: sideband slots there, heads and data elsewhere; a kind at the wrong position is a protocol
error of a site in service (R376). -/
def decodedRx (t : ReachIx) (q : Fin 8) (side : Bool) (c : Nat × Nat × List Byte) (s : State) : State :=
  if side && c.1 = 3 then
    let e := slotErrors t q true s c.2.2
    sidebandRx t e.1 e.2
  else if siteUp s t.site = false then s
  else if side || c.1 = 3 then protocolError t.site s
  else kindRx t c.1 c.2.1 c.2.2 s

/-- A quad's codewords are listened to: the quad in service, or the site at step 4 of training or later (R376, R383). -/
def quadHears (s : State) (t : ReachIx) (q : Fin 8) : Bool :=
  (quadMask s t).getLsbD q.val &&
    (quadServes s t q || ((s.site[t.site]).state == siTraining && decide (4 ≤ (s.site[t.site]).step.toNat)))

/-- Codewords run on the site: in service, or from step 3 of training on (R382). -/
def wordsRun (s : State) (t : ReachIx) : Bool :=
  siteUp s t.site || ((s.site[t.site]).state == siTraining && decide (3 ≤ (s.site[t.site]).step.toNat))

/-- The received codeword of index c is at the sideband position of its quad (R376). -/
def atSideband (s : State) (t : ReachIx) (q : Fin 8) : Bool := (s.reach[t]).rxIndex[q].toNat % 32 == 4 * q.val

/-- The codeword as the decoder sees it, with the errors injected after the samplers (R394). -/
def wordSeen (s : State) (t : ReachIx) (q : Fin 8) (w : List Sym) : List Sym := addErrors (wordErrors s t q true) w

/-- The state after the injected errors and the index of a received codeword are counted. -/
def wordCounted (t : ReachIx) (q : Fin 8) (s : State) : State :=
  onReach t (fun r => { r with rxIndex := upd r.rxIndex q (· + 1) }) (spendErrors t q (wordErrors s t q true) s)

/-- A codeword of a quad that qualifies in a retest: its corrected symbols are counted, an uncorrectable one fails the quad and is otherwise
ignored (R389, Table 12.8 step 3, Table 12.13). -/
def qualRx (t : ReachIx) (q : Fin 8) (d : Option (List Sym × List Nat)) (s : State) : State :=
  match d with
  | none => onReach t (fun r => { r with qualBad := true }) s
  | some (_, ps) =>
    (lanesOf q).foldl (fun a l => onLane t l (fun y => { y with qual := y.qual + (ps.filter fun j => j % 4 == l.val % 4).length }) a)
      (correctedRx t q ps s)

/-- A received codeword: corrected and handled by its kind and position, or uncorrectable (R374 to R376, R388). In Test the lanes of the quad
bring the pattern of the loopback, unless echo is set (R393). -/
def codewordRx (t : ReachIx) (q : Fin 8) (w : List Sym) (s : State) : State :=
  if (s.site[t.site]).state = siTest then (if s.siteReg.echo then s else patternRx t q w s)
  else if wordsRun s t = false then s
  else
    let s1 := wordCounted t q s
    if qualifies s t q then qualRx t q (rsDecode 30 (wordSeen s t q w)) s1
    else if quadHears s t q = false then s1
    else match rsDecode 30 (wordSeen s t q w) with
      | none => uncorrectableRx t q (atSideband s t q) s1
      | some (v, ps) => decodedRx t q (atSideband s t q) (reachFields v) (correctedRx t q ps s1)

/-- A head or data codeword for which the partner adapter holds no credit (R387, R357). -/
def wordOverrun (t : ReachIx) (q : Fin 8) (w : List Sym) (s : State) : Bool :=
  siteUp s t.site && quadHears s t q && !atSideband s t q &&
    match rsDecode 30 (wordSeen s t q w) with
    | none => false
    | some (v, _) =>
      let c := reachFields v
      (c.1 == 1 || c.1 == 2) && noCredit (s.site[t.site]) c.2.1

/-- REACH_CODEWORD: exceeding a stream's credit is the host error of R357. -/
def execReachCodeword (t : ReachIx) (q : Fin 8) (symbols : List (BitVec 10)) (s : State) : Host.Outcome State Fault Refusal :=
  if running s && wordOverrun t q symbols s then hostError 357 s else run (stopping (codewordRx t q symbols)) s

end Sys2Proof.Machine
end

