-- ==== Sys2Proof/Machine/Write.lean ====
section
/-!
DEFINITION. Accesses of a master to a register of the global index: what a write does by the access codes of its fields (R18, R461), and
a read, which latches what belongs to it (R13).
-/

namespace Sys2Proof.Machine

/-- A master with a register path that answers: the management processor, and PCI Express in D0. A compute die has none. -/
def regPath (m : Master) (s : State) : Bool :=
  match m with
  | .mgmt => true
  | .pcie => !s.host.d3hot
  | .site _ => false

/-- A write to a W1C register of a vector: its message is sent again when a 1 was written and the condition stays (R476). -/
def w1cVec (vec : Nat) (v : Word) (f : State → State) (s : State) : State := if v = 0 then f s else irqResend vec (f s)

/-- Half `hi` of a 64-bit field takes a word. -/
def put64 (hi : Bool) (old : BitVec 64) (v : Word) : BitVec 64 :=
  if hi then BitVec.ofNat 64 (v.toNat * 2 ^ 32 + old.toNat % 2 ^ 32) else BitVec.ofNat 64 (old.toNat / 2 ^ 32 * 2 ^ 32 + v.toNat)

/-- GLB_ (Table 16.9). -/
def writeGlb (o : Nat) (v : Word) (s : State) : State :=
  if o = 0x018 then w1cVec 0 v (fun s => { s with dev := { s.dev with event := w1c s.dev.event v } }) s
  else if o = 0x01C then { s with dev := { s.dev with mask := v.setWidth 3 } }
  else if o = 0x020 then { s with dev := { s.dev with scratch := v } }
  else s

/-- MBX_H2F_CTRL or MBX_H2D_CTRL: the tag, the status bits cleared, and a send (Table 16.11). -/
def txCtrlWrite (c : MbxTx) (v : Word) (s : State) : State :=
  let b : BitVec 6 := BitVec.ofNat 6 (fld v 7 2)
  let tag := BitVec.ofNat 16 (fld v 31 16)
  let s1 := onTx c (fun h => { h with tag := tag, status := h.status &&& ~~~b }) s
  let s2 := if bit v 1 then mbxSendTo c tag s1 else s1
  if b = 0 then s2 else irqResend 3 s2

/-- A word of a channel on which the host sends: a staging word or CTRL. -/
def txWord (c : MbxTx) (o : Nat) (v : Word) (s : State) : State :=
  if o < 0x40 then onTx c (fun h => { h with staging := updN h.staging (o / 4) fun _ => v }) s
  else if o = 0x40 then txCtrlWrite c v s
  else s

/-- A word of a channel on which the host receives: go of CTRL (Table 16.12). -/
def rxWord (c : MbxRx) (o : Nat) (v : Word) (s : State) : State :=
  if o = 0x40 ∧ bit v 0 then irqResend 2 (mbxTakeFrom c s) else s

/-- MBX_ (Table 16.10). -/
def writeMbx (o : Nat) (v : Word) (s : State) : State :=
  if o < 0x0800 then txWord (.h2f (fin! 16 (o / 0x80))) (o % 0x80) v s
  else if o < 0x1000 then rxWord (.f2h (fin! 16 ((o - 0x800) / 0x80))) (o % 0x80) v s
  else if o < 0x2800 then txWord (.h2d (fin! 6 ((o - 0x1000) / 0x400)) (fin! 8 ((o - 0x1000) % 0x400 / 0x80))) (o % 0x80) v s
  else if o < 0x4000 then rxWord (.d2h (fin! 6 ((o - 0x2800) / 0x400)) (fin! 8 ((o - 0x2800) % 0x400 / 0x80))) (o % 0x80) v s
  else if o = 0x4008 ∨ o = 0x400C then { s with mbx := { s.mbx with rxMask := put64 (o == 0x400C) s.mbx.rxMask v } }
  else if o = 0x4018 ∨ o = 0x401C then { s with mbx := { s.mbx with txMask := put64 (o == 0x401C) s.mbx.txMask v } }
  else s

/-- DBL_ (Table 16.14). -/
def writeDbl (o : Nat) (v : Word) (s : State) : State :=
  if o = 0x000 then { s with dbl := { s.dbl with host := w1c s.dbl.host v } }
  else if o = 0x004 then { s with dbl := { s.dbl with hostMask := v } }
  else if o = 0x008 then ringFw v s
  else if 0x010 ≤ o ∧ o < 0x028 then ringSite (fin! 6 ((o - 0x010) / 4)) v s
  else if o = 0x028 then w1cVec 16 v (fun s => { s with dbl := { s.dbl with event := w1c s.dbl.event v } }) s
  else if o = 0x02C then { s with dbl := { s.dbl with mask := v.setWidth 6 } }
  else s

/-- LCK_ (Table 16.16). -/
def writeLck (m : Master) (o : Nat) (v : Word) (s : State) : State :=
  if o = 0x080 then release (ownerCode m) (fin! 32 (fld v 4 0)) s else s

/-- ERR_ECHO_CTRL by its mode; a stop shows what the checker compared, which no operand brings (log entry 20). -/
def echoWrite (v : Word) (s : State) : State :=
  let k := fld v 15 14
  if k = 1 then echoLine v s
  else if k = 2 then echoFibre v s
  else if k = 3 then echoModule v s
  else echoStop v (Config.freeValue 64 s.fresh).toNat (Config.freeValue 64 (s.fresh + 1)).toNat (Config.freeValue 7 (s.fresh + 2))
    { s with fresh := s.fresh + 3 }

/-- ERR_ (Tables 18.6 to 18.9). -/
def writeErr (o : Nat) (v : Word) (s : State) : State :=
  if o = 0x004 then errRelease v s
  else if o = 0x008 then w1cVec 1 v (fun s => { s with err := { s.err with event := w1c s.err.event v } }) s
  else if o = 0x00C then { s with err := { s.err with mask := v.setWidth 7 } }
  else if o = 0x010 then { s with err := { s.err with cntBlock := BitVec.ofNat 5 (fld v 31 27), cntClass := BitVec.ofNat 3 (fld v 26 24) } }
  else if o = 0x040 then { s with err := { s.err with lineSelPort := BitVec.ofNat 6 (fld v 13 8), lineSelLine := BitVec.ofNat 6 (fld v 5 0) } }
  else if o = 0x048 then echoWrite v s
  else s

/-- PWR_ (Tables 14.10 to 14.12). -/
def writePwr (o : Nat) (v : Word) (s : State) : State :=
  if o = 0x000 then pwrSettle (pwrCtrl v) s
  else if o = 0x008 then onPwr (fun p => { p with capHost := capField p.capHost v }) s
  else if o = 0x020 then onPwr (fun p => { p with reasonSel := v.setWidth 4 }) s
  else if o = 0x034 then onPwr (fun p => { p with clusterSel := v.setWidth 4 }) s
  else if o = 0x03C then w1cVec 12 v (onPwr fun p => { p with event := w1c p.event v }) s
  else if o = 0x040 then onPwr (fun p => { p with mask := v.setWidth 6 }) s
  else s

/-- THM_ (Table 14.14). -/
def writeThm (o : Nat) (v : Word) (s : State) : State :=
  if o = 0x004 then { s with thm := { s.thm with sel := v.setWidth 8 } }
  else if o = 0x00C then thmWarn v s
  else if o = 0x010 then w1cVec 13 v (fun s => { s with thm := { s.thm with event := w1c s.thm.event v } }) s
  else if o = 0x014 then { s with thm := { s.thm with mask := v.setWidth 8 } }
  else s

/-- MGT_ over a register path; MGT_CAP_MGMT, the mailbox words and the staging buffer are written over I3C only (R452, R453). -/
def writeMgt (o : Nat) (v : Word) (s : State) : State :=
  if o = 0x01C then onMgt (fun m => { m with logSel := v.setWidth 15 }) s
  else if o = 0x040 then w1cVec 14 v (onMgt fun m => { m with event := w1c m.event v }) s
  else if o = 0x044 then onMgt (fun m => { m with mask := v.setWidth 7 }) s
  else s

/-- SEC_ (Table 15.13). -/
def writeSec (o : Nat) (v : Word) (s : State) : State :=
  if o = 0x034 then { s with sec := { s.sec with keyWord := BitVec.ofNat 4 (fld v 7 4), keyEntry := BitVec.ofNat 4 (fld v 3 0) } }
  else if o = 0x03C then w1cVec 15 v (fun s => { s with sec := { s.sec with event := w1c s.sec.event v } }) s
  else if o = 0x040 then { s with sec := { s.sec with mask := v.setWidth 7 } }
  else s

/-- SQ_ (Tables 4.13 to 4.25). -/
def writeSq (o : Nat) (v : Word) (s : State) : State :=
  if o = 0x000 then { s with sq := { s.sq with takeback := bit v 2, primary := if bit v 1 then 1 else 0 } }
  else if o = 0x024 then sqCmd (fld v 7 0) (BitVec.ofNat 16 (fld v 31 16)) s
  else if o = 0x02C then resumeWrite v s
  else if o = 0x030 then { s with sq := { s.sq with resumeEpoch := v } }
  else if o = 0x034 then w1cVec 4 v (fun s => { s with sq := { s.sq with event := w1c s.sq.event v } }) s
  else if o = 0x038 then { s with sq := { s.sq with mask := v.setWidth 11 } }
  else s

/-- CE_ (Tables 5.17 to 5.24). -/
def writeCe (o : Nat) (v : Word) (s : State) : State :=
  if o = 0x000 then ceCtrl v s
  else if o = 0x008 then w1cVec 5 v (fun s => { s with ce := { s.ce with event := w1c s.ce.event v } }) s
  else if o = 0x00C then { s with ce := { s.ce with mask := v.setWidth 6 } }
  else if o = 0x02C then { s with ce := { s.ce with view := BitVec.ofNat 4 (fld v 31 28), viewIndex := BitVec.ofNat 16 (fld v 15 0) } }
  else s

/-- PLN_ (Tables 7.16, 7.17). -/
def writePln (o : Nat) (v : Word) (s : State) : State :=
  if o = 0x014 then { s with pln := { s.pln with slotSel := v.setWidth 7 } }
  else if o = 0x01C then w1cVec 6 v (fun s => { s with pln := { s.pln with event := w1c s.pln.event v } }) s
  else if o = 0x020 then { s with pln := { s.pln with mask := v.setWidth 4 } }
  else s

/-- The word at byte `o` of a set of 256 bits, moved to its place. -/
def wordAt (o : Nat) (v : Word) : BitVec 256 := BitVec.ofNat 256 (v.toNat * 2 ^ (8 * o))

/-- BEAM_ (Tables 7.21, 7.22). -/
def writeBeam (o : Nat) (v : Word) (s : State) : State :=
  if o < 0x020 then w1cVec 7 v (fun s => { s with pln := { s.pln with broken := s.pln.broken &&& ~~~ wordAt o v } }) s
  else if o < 0x040 then
    { s with pln := { s.pln with
      brokenMask := (s.pln.brokenMask &&& ~~~ wordAt (o - 0x20) (BitVec.allOnes 32)) ||| wordAt (o - 0x20) v } }
  else if o = 0x040 then { s with pln := { s.pln with viewSel := v.setWidth 9 } }
  else s

/-- PRT_ (Tables 8.15 to 8.24). -/
def writePrt (o : Nat) (v : Word) (s : State) : State :=
  if o = 0x010 then prtCmd (fld v 7 0) v s
  else if o = 0x018 then
    { s with pln := { s.pln with cntSel :=
      (BitVec.ofNat 6 (fld v 31 26), BitVec.ofNat 8 (fld v 25 18), BitVec.ofNat 6 (fld v 17 12), BitVec.ofNat 8 (fld v 7 0)) } }
  else if 0x100 ≤ o ∧ o < 0x900 then
    let p : Port := fin! 64 ((o - 0x100) / 0x20)
    if o % 0x20 = 0x14 then w1cVec 8 v (onPort p fun q => { q with event := w1c q.event v }) s
    else if o % 0x20 = 0x18 then onPort p (fun q => { q with mask := v.setWidth 11 }) s
    else s
  else s

/-- The events and masks of a site. -/
def writeSite (vec : Nat) (x : SiteIx) (i : Nat) (v : Word) (s : State) : State :=
  if i = 0x0C then w1cVec vec v (onSite x fun q => { q with event := w1c q.event v }) s
  else if i = 0x10 then onSite x (fun q => { q with mask := v.setWidth 11 }) s
  else s

/-- WP_ (Tables 11.14 to 11.20). -/
def writeWp (o : Nat) (v : Word) (s : State) : State :=
  if o = 0x000 then wpCmd (fld v 7 0) v s
  else if o = 0x008 then { s with siteReg := { s.siteReg with wpModSel := v.setWidth 9 } }
  else if o = 0x01C then
    { s with siteReg := { s.siteReg with wpCnt := (BitVec.ofNat 8 (fld v 31 24), BitVec.ofNat 2 (fld v 9 8), BitVec.ofNat 6 (fld v 7 2)) } }
  else if 0x100 ≤ o ∧ o < 0x200 then writeSite 9 (WideIx.site (fin! 4 ((o - 0x100) / 0x40))) (o % 0x40) v s
  else s

/-- TP_INJECT by its kind; a kind that Table 12.18 does not list has no effect. -/
def injectByKind (v : Word) (s : State) : State :=
  let k := fld v 31 28
  if k = 0 then injectStop v s else if k ≤ 4 then injectWrite k v s else s

/-- TP_ (Tables 12.15 to 12.19). -/
def writeTp (o : Nat) (v : Word) (s : State) : State :=
  if o = 0x000 then tpCmd (fld v 7 0) v s
  else if o = 0x008 then { s with siteReg := { s.siteReg with tpLaneSel := v.setWidth 6 } }
  else if o = 0x014 then
    { s with siteReg := { s.siteReg with tpCnt := (BitVec.ofNat 8 (fld v 31 24), BitVec.ofNat 1 (fld v 6 6), BitVec.ofNat 5 (fld v 5 1)) } }
  else if o = 0x020 then patWrite v s
  else if o = 0x028 then injectByKind v s
  else if 0x100 ≤ o ∧ o < 0x180 then writeSite 10 (ReachIx.site (fin! 2 ((o - 0x100) / 0x40))) (o % 0x40) v s
  else s

/-- HBM_ (Tables 13.7 to 13.10). -/
def writeHbm (o : Nat) (v : Word) (s : State) : State :=
  if o = 0x004 then apertureSet v s
  else if o = 0x008 then scrubSet v s
  else if o = 0x00C then w1cVec 11 v (fun s => { s with hbm := { s.hbm with event := w1c s.hbm.event v } }) s
  else if o = 0x010 then { s with hbm := { s.hbm with mask := v.setWidth 6 } }
  else if o = 0x020 then
    { s with hbm := { s.hbm with cntSel := BitVec.ofNat 8 (fld v 31 24), cntStack := if bit v 0 then 1 else 0 } }
  else s

/-- The MSI-X table; its pending bits are read only (R463, R476). -/
def writeMsix (o : Nat) (v : Word) (s : State) : State :=
  if o < 0x400 then
    { s with host := { s.host with vec := upd s.host.vec (fin! 64 (o / 16)) fun e =>
      if o % 16 = 0 then { e with addr := put64 false e.addr v }
      else if o % 16 = 4 then { e with addr := put64 true e.addr v }
      else if o % 16 = 8 then { e with data := v }
      else { e with masked := bit v 0 } } }
  else s

/-- A master's write of a word to a register (R18, R463). -/
def writeReg (m : Master) (off : Nat) (v : Word) (s : State) : State :=
  let o := off % 65536
  let b := off / 65536
  if b = 0x00 then writeGlb o v s
  else if b = 0x01 then writeMbx o v s
  else if b = 0x02 then writeDbl o v s
  else if b = 0x03 then writeLck m o v s
  else if b = 0x04 then writeErr o v s
  else if b = 0x05 then writePwr o v s
  else if b = 0x06 then writeThm o v s
  else if b = 0x07 then writeMgt o v s
  else if b = 0x08 then writeSec o v s
  else if b = 0x09 then writeSq o v s
  else if b = 0x0A then writeCe o v s
  else if b = 0x0B then writePln o v s
  else if b = 0x0C then writeBeam o v s
  else if b = 0x0D then writePrt o v s
  else if b = 0x0E then writeWp o v s
  else if b = 0x0F then writeTp o v s
  else if b = 0x10 then writeHbm o v s
  else if b = 0xF0 then writeMsix o v s
  else s

/-- LCK_00 to LCK_31, whose reads acquire. -/
def isLock (off : Nat) : Bool := decide (0x30000 ≤ off) && decide (off < 0x30080)

/-- A write sets a reserved bit or names a reserved offset with a value that is not 0 (R20, R461). -/
def writeBad (s : State) (off : Nat) (v : Word) : Bool :=
  if isLock off then v &&& ~~~(lckWord false 0).2 != 0 else rsvBad s off v

/-- A naturally aligned 32-bit access (R12). -/
def accessOk (off : Nat) (size : AccessSize) : Bool := off % 4 == 0 && size == .b32

/-- REGISTER_WRITE: an access that is not 32 bits wide and aligned, or sets a reserved bit, is a host error (R12, R20). -/
def execRegisterWrite (m : Master) (off : Nat) (v : Word) (s : State) (size : AccessSize := .b32) : Host.Outcome State Fault Refusal :=
  if running s && regPath m s then
    (if accessOk off size = false then badAccess 12 (stopping (writeReg m (off / 4 * 4) v)) s
     else if writeBad s off v then badAccess 20 (stopping (writeReg m off v)) s
     else run (stopping (writeReg m off v)) s)
  else done s

/-- A master's read of a register: the value it sees, and what the read latches for it (R13); a read of LCK_n acquires (R474). -/
def readWord (m : Master) (off : Nat) (s : State) : State :=
  if isLock off then lckRead m (fin! 32 (off % 0x80 / 4)) s
  else
    let r := latchRead s.host.latch (fun o => (m, o)) s s.fresh off
    emit (.regRead m off r.1) { s with fresh := s.fresh + 2, host := { s.host with latch := r.2 } }

/-- LOW_WORD_READ: an access that is not 32 bits wide and aligned is a host error, and what it returns is open (R12). -/
def execLowWordRead (m : Master) (off : Nat) (s : State) (size : AccessSize := .b32) : Host.Outcome State Fault Refusal :=
  if running s && regPath m s then
    (if accessOk off size then run (readWord m off) s
     else hostError 12 (emit (.regRead m off (Config.freeValue 32 s.fresh)) (spend 1 s)))
  else done s

end Sys2Proof.Machine
end

