-- ==== Sys2Proof/Machine/Dispatch.lean ====
section
/-!
DEFINITION. The dispatch: one arm per command.
-/

namespace Sys2Proof.Machine

/-- The effect of a command on everything but the queue. -/
def exec (i : Instr) (s : State) : Host.Outcome State Fault Refusal :=
  match i with
  | .powerOn => Sys2Proof.Machine.execPowerOn s
  | .supplyFault lasMv auxMv => Sys2Proof.Machine.execSupplyFault lasMv auxMv s
  | .resetAssert pin us => Sys2Proof.Machine.execResetAssert pin us s
  | .resetRelease pin => Sys2Proof.Machine.execResetRelease pin s
  | .fwReady => Sys2Proof.Machine.execFwReady s
  | .fwWatchdog => Sys2Proof.Machine.execFwWatchdog s
  | .lockstepDisagreement => Sys2Proof.Machine.execLockstepDisagreement s
  | .penumbraEntry => Sys2Proof.Machine.execPenumbraEntry s
  | .combGroupStart g => Sys2Proof.Machine.execCombGroupStart g s
  | .combLockTimeout g d => Sys2Proof.Machine.execCombLockTimeout g d s
  | .stackTrainingDone st rate => Sys2Proof.Machine.execStackTrainingDone st rate s
  | .litEntryStart => Sys2Proof.Machine.execLitEntryStart s
  | .litEntryComplete => Sys2Proof.Machine.execLitEntryComplete s
  | .imgQuery => Sys2Proof.Machine.execImgQuery s
  | .imgBegin => Sys2Proof.Machine.execImgBegin s
  | .imgChunk => Sys2Proof.Machine.execImgChunk s
  | .chunkMoved h => Sys2Proof.Machine.execChunkMoved h s
  | .imgVerify => Sys2Proof.Machine.execImgVerify s
  | .verifyComplete words => Sys2Proof.Machine.execVerifyComplete s words
  | .imgCommitFull => Sys2Proof.Machine.execImgCommitFull s
  | .imgCommitRestart => Sys2Proof.Machine.execImgCommitRestart s
  | .imgAbort => Sys2Proof.Machine.execImgAbort s
  | .devPenumbra => Sys2Proof.Machine.execDevPenumbra s
  | .devPenumbraTimeout => Sys2Proof.Machine.execDevPenumbraTimeout s
  | .undefinedCommand ch => Sys2Proof.Machine.execUndefinedCommand ch s
  | .replacementApply => Sys2Proof.Machine.execReplacementApply s
  | .replacementCopyDone words => Sys2Proof.Machine.execReplacementCopyDone s words
  | .bar2Write off data read => Sys2Proof.Machine.execBar2Write off data s read
  | .nop => Sys2Proof.Machine.execNop s
  | .phase barrier id => Sys2Proof.Machine.execPhase barrier id s
  | .wait kind exempt slot count site => Sys2Proof.Machine.execWait kind exempt slot count site s
  | .switch variant express vreg planId => Sys2Proof.Machine.execSwitch variant express vreg planId s
  | .issue n target => Sys2Proof.Machine.execIssue n target s
  | .token kind beam slot => Sys2Proof.Machine.execToken kind beam slot s
  | .notify site slot => Sys2Proof.Machine.execNotify site slot s
  | .select vreg family handle words => Sys2Proof.Machine.execSelect vreg family handle s words
  | .prefetch segment id slot => Sys2Proof.Machine.execPrefetch segment id slot s
  | .hint op lead hold => Sys2Proof.Machine.execHint op lead hold s
  | .commit iterEnd => Sys2Proof.Machine.execCommit iterEnd s
  | .setlc counter value => Sys2Proof.Machine.execSetlc counter value s
  | .branch cond n imm target => Sys2Proof.Machine.execBranch cond n imm target s
  | .call window segId => Sys2Proof.Machine.execCall window segId s
  | .ret => Sys2Proof.Machine.execRet s
  | .halt => Sys2Proof.Machine.execHalt s
  | .fetchComplete item words => Sys2Proof.Machine.execFetchComplete item s words
  | .tokenArrival word => Sys2Proof.Machine.execTokenArrival word s
  | .operationDone op codes words => Sys2Proof.Machine.execOperationDone op s codes words
  | .mirrorRecord beats => Sys2Proof.Machine.execMirrorRecord beats s
  | .mirrorAck => Sys2Proof.Machine.execMirrorAck s
  | .mirrorAckTimeout => Sys2Proof.Machine.execMirrorAckTimeout s
  | .phaseWatchdogExpiry => Sys2Proof.Machine.execPhaseWatchdogExpiry s
  | .heartbeatSend u => Sys2Proof.Machine.execHeartbeatSend u s
  | .heartbeatTimeout u => Sys2Proof.Machine.execHeartbeatTimeout u s
  | .sequencerFailureSignal u why => Sys2Proof.Machine.execSequencerFailureSignal u why s
  | .fenceAcknowledged => Sys2Proof.Machine.execFenceAcknowledged s
  | .selfTestComplete u pass => Sys2Proof.Machine.execSelfTestComplete u pass s
  | .resyncTimer => Sys2Proof.Machine.execResyncTimer s
  | .resyncCopyDone => Sys2Proof.Machine.execResyncCopyDone s
  | .sqResumeGo v => Sys2Proof.Machine.execSqResumeGo v s
  | .sqResumeRelease v => Sys2Proof.Machine.execSqResumeRelease v s
  | .sqCmdForceFailover epoch => Sys2Proof.Machine.execSqCmdForceFailover epoch s
  | .sqCmdResyncStandby epoch => Sys2Proof.Machine.execSqCmdResyncStandby epoch s
  | .sqCmdTakeBackNow epoch => Sys2Proof.Machine.execSqCmdTakeBackNow epoch s
  | .sqCmdKeepStandbyOut epoch => Sys2Proof.Machine.execSqCmdKeepStandbyOut epoch s
  | .sqCmdReadmit epoch => Sys2Proof.Machine.execSqCmdReadmit epoch s
  | .gate op => Sys2Proof.Machine.execGate op s
  | .dispatch op => Sys2Proof.Machine.execDispatch op s
  | .combine op => Sys2Proof.Machine.execCombine op s
  | .allreduce op => Sys2Proof.Machine.execAllreduce op s
  | .reducescatter op => Sys2Proof.Machine.execReducescatter op s
  | .allgather op => Sys2Proof.Machine.execAllgather op s
  | .alltoallv op => Sys2Proof.Machine.execAlltoallv op s
  | .broadcast op => Sys2Proof.Machine.execBroadcast op s
  | .stream op => Sys2Proof.Machine.execStream op s
  | .dispatchRecord b op => Sys2Proof.Machine.execDispatchRecord b op s
  | .tentativeDispatch b op => Sys2Proof.Machine.execTentativeDispatch b op s
  | .combineReturn b op => Sys2Proof.Machine.execCombineReturn b op s
  | .commitMarker b op => Sys2Proof.Machine.execCommitMarker b op s
  | .cancelMarker b op => Sys2Proof.Machine.execCancelMarker b op s
  | .collectiveSegment b op form len total => Sys2Proof.Machine.execCollectiveSegment b op form len s total
  | .ceCtrlWrite v => Sys2Proof.Machine.execCeCtrlWrite v s
  | .switchArrival p => Sys2Proof.Machine.execSwitchArrival p s
  | .switchAnchor p => Sys2Proof.Machine.execSwitchAnchor p s
  | .switchRingsSet p => Sys2Proof.Machine.execSwitchRingsSet p s
  | .lineRelock p n => Sys2Proof.Machine.execLineRelock p n s
  | .switchComplete p => Sys2Proof.Machine.execSwitchComplete p s
  | .switchTimeout b => Sys2Proof.Machine.execSwitchTimeout b s
  | .dataFlit b raw fec code => Sys2Proof.Machine.execDataFlit b raw fec s code
  | .idleFlit b raw => Sys2Proof.Machine.execIdleFlit b raw s
  | .nak b raw => Sys2Proof.Machine.execNak b raw s
  | .switchIdle b raw => Sys2Proof.Machine.execSwitchIdle b raw s
  | .init b raw => Sys2Proof.Machine.execInit b raw s
  | .initResend b => Sys2Proof.Machine.execInitResend b s
  | .initTimeout b => Sys2Proof.Machine.execInitTimeout b s
  | .retransmitTimerExpiry b => Sys2Proof.Machine.execRetransmitTimerExpiry b s
  | .creditTimeout b => Sys2Proof.Machine.execCreditTimeout b s
  | .replayEntryGrant p => Sys2Proof.Machine.execReplayEntryGrant p s
  | .retrainRequest b raw => Sys2Proof.Machine.execRetrainRequest b raw s
  | .retrainRequestResend b => Sys2Proof.Machine.execRetrainRequestResend b s
  | .retrainGo b raw => Sys2Proof.Machine.execRetrainGo b raw s
  | .retrainDeskewDone b => Sys2Proof.Machine.execRetrainDeskewDone b s
  | .retrainReady b raw => Sys2Proof.Machine.execRetrainReady b raw s
  | .retrainTimeout b => Sys2Proof.Machine.execRetrainTimeout b s
  | .lineMarker p n raw => Sys2Proof.Machine.execLineMarker p n raw s
  | .lineMarkerSend => Sys2Proof.Machine.execLineMarkerSend s
  | .lineAlignmentLost p n => Sys2Proof.Machine.execLineAlignmentLost p n s
  | .train p raw => Sys2Proof.Machine.execTrain p raw s
  | .portTrainingStep p r => Sys2Proof.Machine.execPortTrainingStep p r s
  | .portTrainingTimeout p => Sys2Proof.Machine.execPortTrainingTimeout p s
  | .l00LockLost p => Sys2Proof.Machine.execL00LockLost p s
  | .prtCmdRetrain v => Sys2Proof.Machine.execPrtCmdRetrain v s
  | .prtCmdHold v => Sys2Proof.Machine.execPrtCmdHold v s
  | .prtCmdRelease v => Sys2Proof.Machine.execPrtCmdRelease v s
  | .ringLoopVisit r power row => Sys2Proof.Machine.execRingLoopVisit r power row s
  | .ringZoneSample p temp20 => Sys2Proof.Machine.execRingZoneSample p temp20 s
  | .samplerTrim p n ones => Sys2Proof.Machine.execSamplerTrim p n ones s
  | .hintLearn p x rise20 => Sys2Proof.Machine.execHintLearn p x rise20 s
  | .calibrationStart p n d => Sys2Proof.Machine.execCalibrationStart p n d s
  | .calibrationComplete p n d m => Sys2Proof.Machine.execCalibrationComplete p n d m s
  | .calibrationOverdue p n d => Sys2Proof.Machine.execCalibrationOverdue p n d s
  | .glintCalibrationDone p shutterOk found => Sys2Proof.Machine.execGlintCalibrationDone p shutterOk s found
  | .substitutionRequest b raw => Sys2Proof.Machine.execSubstitutionRequest b raw s
  | .substitutionGo b raw => Sys2Proof.Machine.execSubstitutionGo b raw s
  | .substitutionApplied b raw => Sys2Proof.Machine.execSubstitutionApplied b raw s
  | .substitutionRepeat p d upper => Sys2Proof.Machine.execSubstitutionRepeat p d upper s
  | .substitutionMarker p upper count => Sys2Proof.Machine.execSubstitutionMarker p upper count s
  | .lineRequalify p n d => Sys2Proof.Machine.execLineRequalify p n d s
  | .requalifyEnd p n corrected uncorrectable => Sys2Proof.Machine.execRequalifyEnd p n corrected uncorrectable s
  | .gridLoop g d offsetMhz temp8 => Sys2Proof.Machine.execGridLoop g d offsetMhz temp8 s
  | .biasLoop g d estimates temp8 => Sys2Proof.Machine.execBiasLoop g d estimates temp8 s
  | .combThermalReduction g d temp8 => Sys2Proof.Machine.execCombThermalReduction g d temp8 s
  | .agingLogWrite ok => Sys2Proof.Machine.execAgingLogWrite ok s
  | .combDieFailure g d sudden => Sys2Proof.Machine.execCombDieFailure g d sudden s
  | .spareGainRamp g => Sys2Proof.Machine.execSpareGainRamp g s
  | .spareCombLocked g => Sys2Proof.Machine.execSpareCombLocked g s
  | .openFibre p => Sys2Proof.Machine.execOpenFibre p s
  | .probeStart p => Sys2Proof.Machine.execProbeStart p s
  | .probeLightReceived p us => Sys2Proof.Machine.execProbeLightReceived p us s
  | .qclkLoss => Sys2Proof.Machine.execQclkLoss s
  | .rxPowerWarning p n cdbm => Sys2Proof.Machine.execRxPowerWarning p n cdbm s
  | .moduleFrame w m lanes => Sys2Proof.Machine.execModuleFrame w m lanes s
  | .retry x slot => Sys2Proof.Machine.execRetry x slot s
  | .level x slot => Sys2Proof.Machine.execLevel x slot s
  | .laneMap x slot => Sys2Proof.Machine.execLaneMap x slot s
  | .laneMapApply x index => Sys2Proof.Machine.execLaneMapApply x index s
  | .repair x slot => Sys2Proof.Machine.execRepair x slot s
  | .repairStart w m => Sys2Proof.Machine.execRepairStart w m s
  | .repairTestEnd w m noError => Sys2Proof.Machine.execRepairTestEnd w m noError s
  | .parity x slot => Sys2Proof.Machine.execParity x slot s
  | .creditInit x slot => Sys2Proof.Machine.execCreditInit x slot s
  | .credit x slot => Sys2Proof.Machine.execCredit x slot s
  | .creditReturnTimer x => Sys2Proof.Machine.execCreditReturnTimer x s
  | .sbToken x slot => Sys2Proof.Machine.execSbToken x slot s
  | .sbHint x slot => Sys2Proof.Machine.execSbHint x slot s
  | .mbxData x slot => Sys2Proof.Machine.execMbxData x slot s
  | .mbxGo x slot => Sys2Proof.Machine.execMbxGo x slot s
  | .mbxResp x slot => Sys2Proof.Machine.execMbxResp x slot s
  | .doorbell x slot => Sys2Proof.Machine.execDoorbell x slot s
  | .lock x slot => Sys2Proof.Machine.execLock x slot s
  | .sbReservedMessage x slot => Sys2Proof.Machine.execSbReservedMessage x slot s
  | .sbResendTimeout x => Sys2Proof.Machine.execSbResendTimeout x s
  | .sidebandFailed x => Sys2Proof.Machine.execSidebandFailed x s
  | .siteResetRelease x => Sys2Proof.Machine.execSiteResetRelease x s
  | .wpTrainingStep w r => Sys2Proof.Machine.execWpTrainingStep w r s
  | .wpTrainingTimeout w => Sys2Proof.Machine.execWpTrainingTimeout w s
  | .clockLossDetected c => Sys2Proof.Machine.execClockLossDetected c s
  | .wpCmdRetrain v => Sys2Proof.Machine.execWpCmdRetrain v s
  | .wpCmdHold v => Sys2Proof.Machine.execWpCmdHold v s
  | .wpCmdRelease v => Sys2Proof.Machine.execWpCmdRelease v s
  | .wpCmdRepairModule v => Sys2Proof.Machine.execWpCmdRepairModule v s
  | .reachCodeword t q symbols => Sys2Proof.Machine.execReachCodeword t q symbols s
  | .laneMarker t lane raw bip => Sys2Proof.Machine.execLaneMarker t lane raw bip s
  | .tpMarkerSend t => Sys2Proof.Machine.execTpMarkerSend t s
  | .trainingFrame t lane control status => Sys2Proof.Machine.execTrainingFrame t lane control status s
  | .fomMeasurement t lane fom => Sys2Proof.Machine.execFomMeasurement t lane fom s
  | .tpTrainingStep t r => Sys2Proof.Machine.execTpTrainingStep t r s
  | .tpTrainingTimeout t => Sys2Proof.Machine.execTpTrainingTimeout t s
  | .retestStart t => Sys2Proof.Machine.execRetestStart t s
  | .retestComplete t pass => Sys2Proof.Machine.execRetestComplete t pass s
  | .tpCmdRetrain v => Sys2Proof.Machine.execTpCmdRetrain v s
  | .tpCmdHold v => Sys2Proof.Machine.execTpCmdHold v s
  | .tpCmdRelease v => Sys2Proof.Machine.execTpCmdRelease v s
  | .tpCmdRetestQuad v => Sys2Proof.Machine.execTpCmdRetestQuad v s
  | .tpCmdEnterTest v => Sys2Proof.Machine.execTpCmdEnterTest v s
  | .tpCmdLeaveTest v => Sys2Proof.Machine.execTpCmdLeaveTest v s
  | .tpPatCtrlWrite v => Sys2Proof.Machine.execTpPatCtrlWrite v s
  | .tpInjectSingleBit v => Sys2Proof.Machine.execTpInjectSingleBit v s
  | .tpInjectSymbols v => Sys2Proof.Machine.execTpInjectSymbols v s
  | .tpInjectMarker v => Sys2Proof.Machine.execTpInjectMarker v s
  | .tpInjectSbCrc v => Sys2Proof.Machine.execTpInjectSbCrc v s
  | .tpInjectStop v => Sys2Proof.Machine.execTpInjectStop v s
  | .tpInjectRepeat t => Sys2Proof.Machine.execTpInjectRepeat t s
  | .bar4Read off len err words => Sys2Proof.Machine.execBar4Read off len err s words
  | .bar4Write off data => Sys2Proof.Machine.execBar4Write off data s
  | .hbmApertureWrite v => Sys2Proof.Machine.execHbmApertureWrite v s
  | .hbmScrubWrite v => Sys2Proof.Machine.execHbmScrubWrite v s
  | .scrubStep err => Sys2Proof.Machine.execScrubStep err s
  | .hbmStackPoll st temp8 onDieEcc => Sys2Proof.Machine.execHbmStackPoll st temp8 onDieEcc s
  | .powerSample rails counts => Sys2Proof.Machine.execPowerSample rails counts s
  | .capPeriodStart => Sys2Proof.Machine.execCapPeriodStart s
  | .railSettled mv => Sys2Proof.Machine.execRailSettled mv s
  | .vralertAssert ns => Sys2Proof.Machine.execVralertAssert ns s
  | .vralertHoldEnd => Sys2Proof.Machine.execVralertHoldEnd s
  | .droopDetect branch => Sys2Proof.Machine.execDroopDetect branch s
  | .droopClear branch => Sys2Proof.Machine.execDroopClear branch s
  | .droopClear1us => Sys2Proof.Machine.execDroopClear1us s
  | .thermalSample temps8 failed => Sys2Proof.Machine.execThermalSample temps8 s failed
  | .thermalCeilingStep which => Sys2Proof.Machine.execThermalCeilingStep which s
  | .junctionTrip => Sys2Proof.Machine.execJunctionTrip s
  | .clusterAgingCheck slackPermille => Sys2Proof.Machine.execClusterAgingCheck slackPermille s
  | .pwrCtrlWrite v => Sys2Proof.Machine.execPwrCtrlWrite v s
  | .pwrCapHostWrite v => Sys2Proof.Machine.execPwrCapHostWrite v s
  | .mgtCapMgmtWrite v => Sys2Proof.Machine.execMgtCapMgmtWrite v s
  | .thmWarnWrite v => Sys2Proof.Machine.execThmWarnWrite v s
  | .sensorSnapshot stores => Sys2Proof.Machine.execSensorSnapshot s stores
  | .mgtQuery p => Sys2Proof.Machine.execMgtQuery p s
  | .fwBegin p => Sys2Proof.Machine.execFwBegin p s
  | .fwEraseDone ok => Sys2Proof.Machine.execFwEraseDone ok s
  | .fwChunk p => Sys2Proof.Machine.execFwChunk p s
  | .fwChunkProgrammed ok => Sys2Proof.Machine.execFwChunkProgrammed ok s
  | .fwVerify p => Sys2Proof.Machine.execFwVerify p s
  | .fwActivate p => Sys2Proof.Machine.execFwActivate p s
  | .fwConfirm p => Sys2Proof.Machine.execFwConfirm p s
  | .attest p => Sys2Proof.Machine.execAttest p s
  | .attestSigned => Sys2Proof.Machine.execAttestSigned s
  | .combSwap p => Sys2Proof.Machine.execCombSwap p s
  | .combSwapDone => Sys2Proof.Machine.execCombSwapDone s
  | .fatalRead p => Sys2Proof.Machine.execFatalRead p s
  | .fatalClear p => Sys2Proof.Machine.execFatalClear p s
  | .fatalPersisted ok => Sys2Proof.Machine.execFatalPersisted ok s
  | .i3cAddressAssign addr via => Sys2Proof.Machine.execI3cAddressAssign addr s via
  | .i3cPrivateWrite off words => Sys2Proof.Machine.execI3cPrivateWrite off words s
  | .i3cPrivateRead n => Sys2Proof.Machine.execI3cPrivateRead n s
  | .i3cMbxGo => Sys2Proof.Machine.execI3cMbxGo s
  | .i3cRspClear => Sys2Proof.Machine.execI3cRspClear s
  | .mbxSend c tag fw => Sys2Proof.Machine.execMbxSend c tag s fw
  | .mbxTake c fw => Sys2Proof.Machine.execMbxTake c s fw
  | .mailboxTimeout c => Sys2Proof.Machine.execMailboxTimeout c s
  | .dblFwRing v act => Sys2Proof.Machine.execDblFwRing v s act
  | .dblSiteRing x v => Sys2Proof.Machine.execDblSiteRing x v s
  | .lckAcquire m n => Sys2Proof.Machine.execLckAcquire m n s
  | .lckRelease m v => Sys2Proof.Machine.execLckRelease m v s
  | .lowWordRead m off size => Sys2Proof.Machine.execLowWordRead m off s size
  | .registerWrite m off v size => Sys2Proof.Machine.execRegisterWrite m off v s size
  | .msixUnmask w => Sys2Proof.Machine.execMsixUnmask w s
  | .pcieFunctionReset k => Sys2Proof.Machine.execPcieFunctionReset k s
  | .pcieLinkChange speed width => Sys2Proof.Machine.execPcieLinkChange speed width s
  | .poisonedTlp => Sys2Proof.Machine.execPoisonedTlp s
  | .errCtrlRelease v => Sys2Proof.Machine.execErrCtrlRelease v s
  | .errEchoLine v => Sys2Proof.Machine.execErrEchoLine v s
  | .errEchoFibre v => Sys2Proof.Machine.execErrEchoFibre v s
  | .errEchoModule v => Sys2Proof.Machine.execErrEchoModule v s
  | .errEchoStop v bits errors worstLane => Sys2Proof.Machine.execErrEchoStop v bits errors worstLane s
  | .echoNonceReturn => Sys2Proof.Machine.execEchoNonceReturn s
  | .echoNotLooped => Sys2Proof.Machine.execEchoNotLooped s
  | .fullCommitComplete words => Sys2Proof.Machine.execFullCommitComplete s words
  | .fwVerifyComplete ok => Sys2Proof.Machine.execFwVerifyComplete s ok
  | .fwActivateComplete ok => Sys2Proof.Machine.execFwActivateComplete ok s
  | .fwConfirmComplete fuseOk => Sys2Proof.Machine.execFwConfirmComplete fuseOk s
  | .fatalClearComplete ok => Sys2Proof.Machine.execFatalClearComplete ok s
  | .flitBoundary b code => Sys2Proof.Machine.execFlitBoundary b s code
  | .moduleFrameSend w m => Sys2Proof.Machine.execModuleFrameSend w m s
  | .sidebandFrameSend x => Sys2Proof.Machine.execSidebandFrameSend x s
  | .reachCodewordSend t q => Sys2Proof.Machine.execReachCodewordSend t q s
  | .probeEnd p => Sys2Proof.Machine.execProbeEnd p s
  | .vralertRelease => Sys2Proof.Machine.execVralertRelease s
  | .switchStall b => Sys2Proof.Machine.execSwitchStall b s
  | .powerOff => Sys2Proof.Machine.execPowerOff s
  | .stackChannelLoss st => Sys2Proof.Machine.execStackChannelLoss st s
  | .functionPowerStateWrite d3hot cfg => Sys2Proof.Machine.execFunctionPowerStateWrite d3hot s cfg

end Sys2Proof.Machine
end

