-- ==== Sys2Proof/Safety.lean ====
section
/-!
DEFINITION. What counts as a safe run, the terms in which statements speak of a command's circumstances and its answer, the invariants of the
machine, and which commands may change which part of the state.
-/

namespace Sys2Proof

/-- A state from which the next step neither faults nor refuses. -/
def stepSafe (s : Machine.State) : Prop := ∃ t, Machine.step s = .next t

/-- Every one of the first `k` steps is safe. -/
def runSafe : Nat → Machine.State → Prop
  | 0, _ => True
  | k + 1, s => ∃ t, Machine.step s = .next t ∧ runSafe k t

/-- The host commands over a BAR: the device runs and its function is in D0 (Table 16.1). -/
def hostOn (s : Machine.State) : Prop := Machine.running s = true ∧ s.host.d3hot = false

/-- An image command of a code waits in H2F channel 00 as message `m`, the firmware serves it, and F2H channel 00 is free for the answer (R88). -/
def imgAsked (code : Nat) (m : Machine.Msg) (s : Machine.State) : Prop :=
  Machine.running s = true ∧ Machine.imgOn s = true ∧ Machine.imgWaiting s = some m ∧ Machine.mcode m = code ∧
    (s.mbx.f2h[(0 : Fin 16)]).go = false

/-- F2H channel 00 holds the answer to an image command (R88). -/
def imgAnswered (code : Nat) (tag : BitVec 16) (status : Nat) (more : List Word) (t : Machine.State) : Prop :=
  (t.mbx.f2h[(0 : Fin 16)]).go = true ∧ (t.mbx.f2h[(0 : Fin 16)]).msg.words = Machine.replyWords code tag status more

/-- A management command of a code waits on a path as message `m`, the firmware runs, and the answer's place is free (R444, R453). -/
def mgtAsked (p : MgtPath) (code : Nat) (m : Machine.Msg) (s : Machine.State) : Prop :=
  Machine.running s = true ∧ s.mgt.fwState = 2 ∧ Machine.mgtWaiting s p = some m ∧ Machine.mcode m = code ∧
    (s.mbx.f2h[(1 : Fin 16)]).go = false ∧ s.mgt.i3cRspGo = false

/-- The path holds the answer to a management command (R444, R453). -/
def mgtAnswered (p : MgtPath) (code : Nat) (tag : BitVec 16) (status : Nat) (more : List Word) (t : Machine.State) : Prop :=
  match p with
  | .pcie => (t.mbx.f2h[(1 : Fin 16)]).go = true ∧ (t.mbx.f2h[(1 : Fin 16)]).msg.words = Machine.replyWords code tag status more
  | .i3c => t.mgt.i3cRspGo = true ∧ t.mgt.i3cRsp = Machine.replyWords code tag status more

open Sys2Proof.Machine

/-! ### Circumstances of a command -/

/-- The instruction word stands at the program counter of an active sequencer that decodes instructions of the column (R106, Table 4.3). -/
def atWord (c : Col) (w : DWord) (s : State) : Prop :=
  running s = true ∧ seqOn s = true ∧ schedWord s (pcOf s) = some w ∧ colFits c s.ctl.phase = true
/-- Every stream that the running phase has sent so far lies on a beam that the plan lights (R206). -/
def streamsLit (s : State) : Prop := ∀ e ∈ s.ctl.streams, beamInPlan s (fin! 256 e.1) = true
/-- Operation `k` of the running phase was issued with a code and has not started (R136). -/
def opIssued (k code : Nat) (o : OpSt) (s : State) : Prop :=
  running s = true ∧ s.ctl.phase = 4 ∧ s.ctl.ops[k]? = some o ∧ opCode o = code ∧ o.started = false ∧ streamsLit s
/-- Operation `k` of the running phase is there to take records (R112). -/
def opThere (k : Nat) (o : OpSt) (s : State) : Prop :=
  running s = true ∧ s.ctl.phase = 4 ∧ s.ctl.ops[k]? = some o ∧ streamsLit s ∧ s.img.penumbra = []
/-- The beams of the operation's route entries are in the plan in force (R206). -/
def routeLit (o : OpSt) (s : State) : Prop := ∀ e ∈ routeOf s o, beamInPlan s e.beam = true
/-- Between the states, segments of a chunk have been handed to a beam's Port Engine, behind what was there (R147, R160). -/
def segsSent (b : Beam) (cls : BitVec 2) (chunk : Nat) (l : List (Nat × List Byte)) (s t : State) : Prop :=
  (t.beam[b]).queue = (s.beam[b]).queue ++
    (l.flatMap fun g => recordFlits cls (attempt4 s) false (segRecord s chunk g.1 g.2)).map fun x =>
      { x with behind := s.pln.issued, serial := s.ctl.serial + 1 }
/-- The handle names staging SRAM or a Reservoir region, no die stream (R134). -/
def inMemory (h : Nat) : Prop := h / 2 ^ 28 ≠ 2
/-- Every input of an operation, a handle and a length each, is there in memory with these bytes (R51). -/
def inputsReady (l : List (Nat × Nat)) (ins : List (List Byte)) (s : State) : Prop :=
  (∀ e ∈ l, inMemory e.1) ∧ (l.map fun e => inputOf s e.1 e.2) = ins.map Input.ready
/-- Operation `k` has formed every output and handed every stream to its Port Engine (R136). -/
def opEnded (k : Nat) (t : State) : Prop := (t.ctl.ops[k]?).map (·.final) = some true
/-- Operation `k` has started and is not done with its outputs. -/
def opGoesOn (k : Nat) (t : State) : Prop := (t.ctl.ops[k]?).map (fun o => (o.started, o.final)) = some (true, false)
/-- A record of `n` bytes, of a type and an attempt, is complete among a beam's delivered flits of a class, before any other record of that
class (R147, R246). -/
def recordWaits (b : Beam) (c : Fin 2) (typ n : Nat) (att : BitVec 4) (r : List Byte) (s : State) : Prop :=
  ∃ j k h, recordAt n ((atHand s.beam[b] c).length + 1) (atHand s.beam[b] c) 0 = (j, some (k, r)) ∧
    ((atHand s.beam[b] c).drop j).head? = some h ∧ (byteAt h.payload 0).toNat = typ ∧ h.attempt = att
/-- The beam's open stream has brought this record under another attempt, to operation `k` where the phase is the same (R112, Table 4.4). -/
def broughtBefore (k : Nat) (b : Beam) (att : BitVec 4) (r : List Byte) (form : SegForm) (s : State) : Bool :=
  (s.beam[b]).seen.any (isAgain (s.ctl.serial + 1) k att form r)
/-- A flit of a type arrives whole on a lit beam, rebuilt from its words, from the beam's peer (R235, R238, R207, R233). -/
def flitArrives (b : Beam) (raw : List Byte) (typ : BitVec 4) (f : Flit) (s : State) : Prop :=
  running s = true ∧ beamLit (s.beam[b]) = true ∧ flitOf (rebuilt s b raw) = some f ∧ touchesWrong s b = false ∧ f.place = (beamRec s b).peerPlace ∧
    f.beam = (beamRec s b).peerBeam ∧ f.typ = typ
/-- A flit of a type that comes whole on each line of a lit beam arrives from the beam's peer, on some line that brings the peer's light (R264). -/
def wholeArrives (b : Beam) (raw : List Byte) (typ : BitVec 4) (f : Flit) (s : State) : Prop :=
  running s = true ∧ beamLit (s.beam[b]) = true ∧ flitOf raw = some f ∧ (s.beam[b]).rxMask &&& ~~~ wrongLines s b ≠ 0 ∧
    f.place = (beamRec s b).peerPlace ∧ f.beam = (beamRec s b).peerBeam ∧ f.typ = typ
/-- A whole sideband slot of a type arrives at a site whose sideband is up; a sequenced one is the next in order (R358, R359). -/
def slotArrives (x : SiteIx) (raw : List Byte) (m : Slot) (s : State) : Prop :=
  running s = true ∧ slotOf raw = some m ∧ (s.site[x]).sb.up = true ∧ (0x10 ≤ m.typ.toNat → m.seq = (s.site[x]).sb.rxSeq)

/-- Fuses after a command: the counter never falls and the revoke fuse stays programmed, and without a programming under way both are as before (R445). -/
def fusesKept (s t : State) : Prop :=
  s.sec.counter ≤ t.sec.counter ∧ (s.sec.slot0Revoked = true → t.sec.slot0Revoked = true) ∧
    (confirming s = false → t.sec.counter = s.sec.counter ∧ t.sec.slot0Revoked = s.sec.slot0Revoked)

/-- The codes with which an ALLREDUCE forms its sum: in Exact mode the largest of its own and of what its children and exchange peers have brought,
else no exponent step is made (R162, R185). -/
def codesKnown (k : Nat) (o : OpSt) (b : List Byte) (g : List Nat) (s : State) : Prop :=
  let own := codesOf (decodeRow (collIn o) (opCount o) b) 0 (opCount o)
  (redMode o ≠ .exact ∧ g = noCodes (opCount o)) ∨
  (redMode o = .exact ∧ ∃ cs xs, collectAll (codesFrom s k own.length none) ((roleOf s o 0).map (·.beam)) = .ok (some cs) ∧
    collectAll (codesFrom s k own.length none) ((roleOf s o 4).map (·.beam)) = .ok (some xs) ∧ g = xs.foldl maxCodes (cs.foldl maxCodes own))
/-- The codes with which a REDUCESCATTER forms its sum (R185). -/
def scatterKnown (k : Nat) (o : OpSt) (b : List Byte) (g : List Nat) (s : State) : Prop :=
  let own := codesOf (decodeRow (collIn o) (opCount o) b) 0 (opCount o)
  (redMode o ≠ .exact ∧ g = own.map fun _ => 1) ∨
  (redMode o = .exact ∧ ∃ cs, collectAll (codesFrom s k own.length none) ((roleOf s o 4).map (·.beam)) = .ok (some cs) ∧ g = cs.foldl maxCodes own)

/-- Where ALLGATHER stages a chunk of its destination: its elements, and behind all elements its scales (R161, R172). -/
def gatherPieces (o : OpSt) (total : Nat) (h : Nat × List (List Byte)) : List (Nat × Nat × List Byte) :=
  let f := collIn o
  let lo := h.1 * chunkSize o
  if f.isMx then [(collDst o, f.bits * lo / 8, h.2.flatMap fun b => b.take (b.length - 1)),
    (collDst o, f.bits * total / 8 + lo / 32, h.2.flatMap fun b => b.drop (b.length - 1))]
  else [(collDst o, f.bits * lo / 8, h.2.flatten)]

/-- The switches of a port with the one of a serial moved to a stage of its timeline (Table 7.6). -/
def switchAt (n : Nat) (c : SwitchStage) (l : List PortSwitch) : List PortSwitch :=
  l.map fun e => if e.serial = n then { e with stage := c } else e

/-- The switches of a port with the one of a serial at its event 1, the lines that it makes local noted (Table 7.6). -/
def switchAnchored (n : Nat) (m : LineSet) (l : List PortSwitch) : List PortSwitch :=
  l.map fun e => if e.serial = n then { e with stage := .anchored, lines := m } else e

/-- No need of a higher reason waits for the spare of a substitution that stands for a calibration of this end (R294, Table 9.12). -/
def noHigherNeed (p : Port) (i : Fin 4) (u : Subst) (s : State) : Prop :=
  u.reason = 0 → u.own = true → ∀ v ∈ (s.port[p]).needs, subIx v.rx (spareOf v.line) = i → v.reason = 0

/-- What a host error leaves as it is (R6, R61): all but the program of the committed image, its plans and tables, staging SRAM, the regions that it
declares, and what is on its way to compute dies and peers. -/
def workOnly (s t : State) : Prop :=
  t.dev = s.dev ∧ t.mbx = s.mbx ∧ t.dbl = s.dbl ∧ t.lck = s.lck ∧ t.err = s.err ∧ t.mgt = s.mgt ∧ t.sec = s.sec ∧ t.pwr = s.pwr ∧ t.thm = s.thm ∧
  t.comb = s.comb ∧ t.ring = s.ring ∧ t.wide = s.wide ∧ t.reach = s.reach ∧ t.siteReg = s.siteReg ∧ t.time = s.time ∧
  (∀ p : Port, { t.port[p] with block := none, switchQ := [] } = { s.port[p] with block := none, switchQ := [] }) ∧
  (∀ x : SiteIx, { t.site[x] with tx := [] } = { s.site[x] with tx := [] }) ∧
  { t.img with image := none } = { s.img with image := none } ∧
  t.img.image.map (fun i => freeImage i {}) = s.img.image.map (fun i => freeImage i {}) ∧
  (∀ a, declaredAt s a = false → t.hbm.mem.read a = s.hbm.mem.read a)

/-! ### Invariants -/

/-- Every memory of the machine is in its canonical form: addresses strictly rising, no listed byte equal to what an unlisted address reads as. -/
def memoryCanonical (s : State) : Prop :=
  s.hbm.mem.wf = true ∧ s.ce.staging.wf = true ∧ s.host.bar2.wf = true ∧ s.mgt.flash.wf = true ∧ s.mgt.report.wf = true ∧ s.mgt.stage.wf = true

/-- Umbra is dark (R327): no comb die carries a current or is on its way to one, every port is Dark and none probes; a Fatal event holds Umbra (R485), and
a device held in reset or without its supplies is in Umbra (R482, R483). -/
def umbraDark (s : State) : Prop :=
  (s.dev.state = .umbra → s.dev.litEntry = false ∧
    (∀ g : CombGroup, (s.comb.group[g]).task = none ∧ (s.comb.group[g]).started = none ∧
      ∀ d : CombDie, ((s.comb.group[g]).die[d]).current = 0 ∧
        (((s.comb.group[g]).die[d]).state = .off ∨ ((s.comb.group[g]).die[d]).state = .failed ∨ ((s.comb.group[g]).die[d]).state = .swappedOut)) ∧
    ∀ p : Port, (s.port[p]).state = 0 ∧ (s.port[p]).probing = false) ∧
  (s.dev.fatal = true → s.dev.state = .umbra) ∧ (running s = false → s.dev.state = .umbra)

/-- The MSI-X pending-bit array holds no bit of a vector whose message can be sent (R476). -/
def openVectorsSent (s : State) : Prop := ∀ v : Fin 64, irqOpen s.host v = true → s.host.pend.getLsbD v.val = false

/-! ### Which commands may change a part of the state -/

/-- The commands that may reset the whole device: a power-on, a power-off, the assertion of a reset input (R482, R483), and a supply fault, after
which a power cycle may be needed (R517). -/
def Instr.resets (c : Instr) : Bool :=
  match c with
  | .powerOn | .powerOff | .resetAssert .. | .supplyFault .. => true
  | _ => false

/-- Commands that can meet a host error, after which the work of the device is free (R5, R6, R61). -/
def Instr.mayErr (c : Instr) : Bool :=
  match c with
  | .allgather .. | .allreduce .. | .alltoallv .. | .bar4Read .. | .bar4Write .. | .branch .. | .broadcast .. | .call .. | .cancelMarker .. |
    .ceCtrlWrite .. | .collectiveSegment .. | .combine .. | .combineReturn .. | .commit .. | .commitMarker .. | .dispatch .. |
    .dispatchRecord .. | .errCtrlRelease .. | .fetchComplete .. | .fullCommitComplete .. | .gate .. | .halt | .hbmApertureWrite .. |
    .hbmScrubWrite .. | .hint .. | .i3cPrivateWrite .. | .issue .. | .lckRelease .. | .lowWordRead .. | .mgtCapMgmtWrite .. |
    .moduleFrame .. | .nop | .notify .. | .phase .. | .prefetch .. | .prtCmdHold .. | .prtCmdRelease .. | .prtCmdRetrain .. |
    .pwrCapHostWrite .. | .pwrCtrlWrite .. | .reachCodeword .. | .reducescatter .. | .registerWrite .. | .replacementCopyDone .. | .ret |
    .select .. | .setlc .. | .sqResumeGo .. | .sqResumeRelease .. | .stream .. | .switch .. | .tentativeDispatch .. | .thmWarnWrite .. |
    .token .. | .tpCmdEnterTest .. | .tpCmdHold .. | .tpCmdLeaveTest .. | .tpCmdRelease .. | .tpCmdRetestQuad .. | .tpCmdRetrain .. |
    .tpInjectMarker .. | .tpInjectSbCrc .. | .tpInjectSingleBit .. | .tpInjectStop .. | .tpInjectSymbols .. | .tpPatCtrlWrite .. | .wait .. |
    .wpCmdHold .. | .wpCmdRelease .. | .wpCmdRepairModule .. | .wpCmdRetrain .. => true
  | _ => false

/-- Commands that may change the ring loops, the hint model and the Halo state (chapter 9). -/
def Instr.changesRings (c : Instr) : Bool :=
  match c with
  | .calibrationComplete .. | .calibrationStart .. | .clockLossDetected .. | .glintCalibrationDone .. | .hintLearn .. | .lineAlignmentLost .. |
    .lineMarker .. | .portTrainingStep .. | .powerSample .. | .probeEnd .. | .probeLightReceived .. | .probeStart .. | .reachCodeword .. |
    .ringLoopVisit .. | .sbHint .. | .substitutionApplied .. | .substitutionMarker .. | .substitutionRequest .. | .switchRingsSet .. | .train .. => true
  | _ => false

/-- Commands that may change a comb die or a comb group (chapter 10, R429, R489, R517). -/
def Instr.changesCombs (c : Instr) : Bool :=
  match c with
  | .agingLogWrite .. | .biasLoop .. | .combDieFailure .. | .combGroupStart .. | .combLockTimeout .. | .combSwap .. | .combSwapDone |
    .combThermalReduction .. | .fullCommitComplete .. | .fwWatchdog | .gridLoop .. | .junctionTrip | .lockstepDisagreement | .qclkLoss |
    .resetRelease .. | .sensorSnapshot .. | .spareCombLocked .. | .spareGainRamp .. | .thermalSample .. => true
  | _ => false

/-- Commands that may change the WP_ and TP_ command, selector and pattern registers (chapters 11 and 12). -/
def Instr.changesSiteCommands (c : Instr) : Bool :=
  match c with
  | .fullCommitComplete .. | .reachCodeword .. | .reachCodewordSend .. | .registerWrite .. | .tpCmdEnterTest .. | .tpCmdHold .. |
    .tpCmdLeaveTest .. | .tpCmdRelease .. | .tpCmdRetestQuad .. | .tpCmdRetrain .. | .tpPatCtrlWrite .. | .wpCmdHold .. | .wpCmdRelease .. |
    .wpCmdRepairModule .. | .wpCmdRetrain .. => true
  | _ => false

/-- Commands that may blow a fuse of the anti-rollback counter or revoke root key slot 0 (R443). -/
def Instr.changesFuses (c : Instr) : Bool :=
  match c with
  | .fwConfirmComplete .. => true
  | _ => false

/-- Commands that may change the firmware slots' bytes in flash (R441). -/
def Instr.changesFlash (c : Instr) : Bool :=
  match c with
  | .fwChunkProgrammed .. | .fwEraseDone .. => true
  | _ => false

/-- Commands that may add to the aging log (R312, R420). -/
def Instr.changesAging (c : Instr) : Bool :=
  match c with
  | .agingLogWrite .. | .clusterAgingCheck .. => true
  | _ => false

/-- Commands that may change the persisted fatal records (R450). -/
def Instr.changesFatals (c : Instr) : Bool :=
  match c with
  | .fatalClearComplete .. | .fatalPersisted .. => true
  | _ => false

/-- Commands that may change the committed image (R92, R94), or leave its tables free as work of the device (R61). -/
def Instr.changesImage (c : Instr) : Bool :=
  match c with
  | .fullCommitComplete .. | .replacementCopyDone .. => true
  | _ => c.mayErr

/-- Commands that may change a byte of the Reservoir (chapter 13). -/
def Instr.changesReservoir (c : Instr) : Bool :=
  match c with
  | .chunkMoved .. | .heartbeatTimeout .. | .mirrorAck | .mirrorAckTimeout | .operationDone .. | .scrubStep .. | .sequencerFailureSignal .. |
    .sqCmdForceFailover .. | .sqCmdKeepStandbyOut .. | .sqCmdReadmit .. | .sqCmdResyncStandby .. | .sqCmdTakeBackNow .. | .verifyComplete .. => true
  | _ => c.mayErr

/-- Commands that may change a byte of staging SRAM (R51, R112, R154). -/
def Instr.changesStaging (c : Instr) : Bool :=
  match c with
  | .heartbeatTimeout .. | .mirrorAck | .mirrorAckTimeout | .operationDone .. | .sequencerFailureSignal .. | .sqCmdForceFailover .. |
    .sqCmdKeepStandbyOut .. | .sqCmdReadmit .. | .sqCmdResyncStandby .. | .sqCmdTakeBackNow .. => true
  | _ => c.mayErr

/-- Commands that may change what the plan store holds (R64, R66, R92). -/
def Instr.changesStore (c : Instr) : Bool := c.mayErr

/-- Commands that may change the MSI-X table (R476, R462). -/
def Instr.changesVectors (c : Instr) : Bool :=
  match c with
  | .msixUnmask .. | .pcieFunctionReset .. | .registerWrite .. => true
  | _ => false

/-- Commands that may add to or clear the AER log of the endpoint. -/
def Instr.changesAer (c : Instr) : Bool :=
  match c with
  | .bar4Read .. | .mbxResp .. | .mbxSend .. | .pcieFunctionReset .. | .poisonedTlp | .reachCodeword .. | .registerWrite .. => true
  | _ => false

/-- Commands that may change a byte of the BAR2 window (R89). -/
def Instr.changesStagingWindow (c : Instr) : Bool :=
  match c with
  | .bar2Write .. => true
  | _ => false

/-- Commands that may change the host's doorbell bits (R473). -/
def Instr.changesHostDoorbell (c : Instr) : Bool :=
  match c with
  | .dblFwRing .. | .doorbell .. | .pcieFunctionReset .. | .reachCodeword .. | .registerWrite .. => true
  | _ => false

/-- Commands that may change the firmware's doorbell bits (R473). -/
def Instr.changesFwDoorbell (c : Instr) : Bool :=
  match c with
  | .dblFwRing .. | .doorbell .. | .reachCodeword .. | .registerWrite .. => true
  | _ => false

/-- Commands that may change SQ_ITER: those with which a commit may be written (R115). -/
def Instr.changesIteration (c : Instr) : Bool :=
  match c with
  | .heartbeatTimeout .. | .mirrorAck | .mirrorAckTimeout | .operationDone .. | .sequencerFailureSignal .. | .sqCmdForceFailover .. |
    .sqCmdKeepStandbyOut .. | .sqCmdReadmit .. | .sqCmdResyncStandby .. | .sqCmdTakeBackNow .. => true
  | _ => c.mayErr

/-- Commands that may change the sensor snapshot (chapter 14). -/
def Instr.changesSnapshot (c : Instr) : Bool :=
  match c with
  | .sensorSnapshot .. => true
  | _ => false

end Sys2Proof
end

