-- ==== Sys2Proof/Certificates/Slice0/Obligations.lean ====
section
/-!
DEFINITION. The statements for the provers, one definition each; OBLIGATIONS.json lists them.
-/

open Sys2Proof Sys2Proof.Machine

/-- A host send fills an empty channel (R465), a take by the receiver empties it (R468), an expired timer leaves the message and sets the host's
timeout for its own (R467); a message bound to the firmware is taken by it alone, and the firmware sends where a binding admits it (R464). -/
def Obligations.MailboxMessagesMove : Prop :=
  (∀ (c : MbxTx) (tag : BitVec 16) (s : State), running s = true → s.host.d3hot = false →
      hostBound s (txReceiver c) (txNumber c) tag = true → txDown s c = false → (txChan s c).go = false →
      ∃ t, exec (.mbxSend c tag) s = .next t ∧ (txChan t c).go = true ∧ (txChan t c).tag = tag ∧
        (txChan t c).msg = { words := (txChan s c).staging, tag := tag, sender := 1 } ∧
        (txChan t c).status = setBit (txChan s c).status stAccepted ∧
        (txChan t c).timer = some (s.time, (calibRec s).mailboxUs)) ∧
  (∀ (c : Fin 16) (s : State), running s = true → s.host.d3hot = false → (s.mbx.f2h[c]).go = true → s.mbx.f2hQueue[c] = [] →
      ∃ t, exec (.mbxTake (.f2h c)) s = .next t ∧ (t.mbx.f2h[c]).go = false ∧ (t.mbx.f2h[c]).msg = (s.mbx.f2h[c]).msg ∧
        t.mbx.h2f = s.mbx.h2f ∧ t.mbx.d2h = s.mbx.d2h) ∧
  (∀ (c : Fin 16) (m : Msg) (r : List Msg) (s : State), running s = true → s.host.d3hot = false → (s.mbx.f2h[c]).go = true →
      s.mbx.f2hQueue[c] = m :: r →
      ∃ t, exec (.mbxTake (.f2h c)) s = .next t ∧ (t.mbx.f2h[c]).go = true ∧ (t.mbx.f2h[c]).msg = m ∧ t.mbx.f2hQueue[c] = r) ∧
  (∀ (x : SiteIx) (c : Fin 8) (s : State), running s = true → s.host.d3hot = false → ((s.mbx.d2h[x])[c]).go = true →
      ∃ t, exec (.mbxTake (.d2h x c)) s = .next t ∧ ((t.mbx.d2h[x])[c]).go = dieToFw s x c ∧ t.mbx.h2d = s.mbx.h2d ∧ t.mbx.f2h = s.mbx.f2h) ∧
  (∀ (x : SiteIx) (c : Fin 8) (s : State), running s = true → s.mgt.fwState = 2 → ((s.mbx.d2h[x])[c]).go = true →
      ∃ t, exec (.mbxTake (.d2h x c) true) s = .next t ∧ ((t.mbx.d2h[x])[c]).go = !dieToFw s x c ∧ t.mbx.h2d = s.mbx.h2d ∧ t.mbx.f2h = s.mbx.f2h) ∧
  (∀ (c : Fin 16) (s : State), running s = true → s.mgt.fwState = 2 → 2 ≤ c.val → (s.mbx.h2f[c]).go = true →
      ∃ t, exec (.mbxTake (.f2h c) true) s = .next t ∧ (t.mbx.h2f[c]).go = false ∧ (t.mbx.h2f[c]).status = setBit (s.mbx.h2f[c]).status stTaken ∧
        t.mbx.f2h = s.mbx.f2h ∧ t.mbx.d2h = s.mbx.d2h) ∧
  (∀ (c : Fin 16) (tag : BitVec 16) (ws : Vector Word 16) (s : State), running s = true → s.mgt.fwState = 2 → fwBound s 1 c.val tag = true →
      (s.mbx.f2h[c]).go = false →
      ∃ t, exec (.mbxSend (.h2f c) tag (some ws)) s = .next t ∧ (t.mbx.f2h[c]).go = true ∧
        (t.mbx.f2h[c]).msg = { words := ws, tag := tag, sender := 0 } ∧ t.mbx.h2f = s.mbx.h2f) ∧
  (∀ (x : SiteIx) (c : Fin 8) (tag : BitVec 16) (ws : Vector Word 16) (s : State), running s = true → s.mgt.fwState = 2 →
      fwBound s (2 + x.val) c.val tag = true → siteUp s x = true → ((s.mbx.h2d[x])[c]).go = false →
      ∃ t, exec (.mbxSend (.h2d x c) tag (some ws)) s = .next t ∧ ((t.mbx.h2d[x])[c]).go = true ∧
        ((t.mbx.h2d[x])[c]).msg = { words := ws, tag := tag, sender := 0 } ∧ ((t.mbx.h2d[x])[c]).status = ((s.mbx.h2d[x])[c]).status) ∧
  (∀ (c : MbxTx) (s : State), running s = true → (txChan s c).go = true → (txChan s c).timer.isSome = true →
      ∃ t, exec (.mailboxTimeout (.tx c)) s = .next t ∧ (txChan t c).go = true ∧ (txChan t c).msg = (txChan s c).msg ∧
        (txChan t c).timer = none ∧
        (txChan t c).status = (if (txChan s c).msg.sender = 1 then setBit (txChan s c).status stTimeout else (txChan s c).status)) ∧
  (∀ (x : SiteIx) (c : Fin 8) (s : State), running s = true → ((s.mbx.d2h[x])[c]).go = true → ((s.mbx.d2h[x])[c]).timer.isSome = true →
      ∃ t, exec (.mailboxTimeout (.rx (.d2h x c))) s = .next t ∧ ((t.mbx.d2h[x])[c]).go = true ∧
        ((t.mbx.d2h[x])[c]).msg = ((s.mbx.d2h[x])[c]).msg ∧ ((t.mbx.d2h[x])[c]).timer = none)

/-- A channel that still holds a message, of the host or of the firmware, rejects a further host send, keeps its message, and the endpoint logs a
Completer Abort for the write to its CTRL (R466, R470); an unbound send and one to a site out of service leave the channel as it is (R465, R469). -/
def Obligations.MailboxSendRefusedKeepsMessage : Prop :=
  ∀ (c : MbxTx) (tag : BitVec 16) (s t : State), running s = true → s.host.d3hot = false → exec (.mbxSend c tag) s = .next t →
    (hostBound s (txReceiver c) (txNumber c) tag = false →
      (txChan t c).go = (txChan s c).go ∧ (txChan t c).msg = (txChan s c).msg ∧ (txChan t c).status = setBit (txChan s c).status stUnbound) ∧
    (hostBound s (txReceiver c) (txNumber c) tag = true → txDown s c = true →
      (txChan t c).go = (txChan s c).go ∧ (txChan t c).msg = (txChan s c).msg ∧ (txChan t c).status = setBit (txChan s c).status stAborted) ∧
    (hostBound s (txReceiver c) (txNumber c) tag = true → txDown s c = false → (txChan s c).go = true →
      (txChan t c).go = true ∧ (txChan t c).msg = (txChan s c).msg ∧ (txChan t c).timer = (txChan s c).timer ∧
      (txChan t c).status = setBit (txChan s c).status stRejected ∧
      t.host.aer = .completerAbort (txCtrlAddr s c) s.fresh :: s.host.aer)

/-- Doorbells (R473): a ring adds its bits to the firmware's pending bits, crosses to a site in service as a DOORBELL message, and is dropped with its
event bit at a site that is not; the firmware clears its own bits and rings the host. -/
def Obligations.DoorbellRings : Prop :=
  (∀ (v : Word) (s : State), running s = true → s.host.d3hot = false →
      ∃ t, exec (.dblFwRing v) s = .next t ∧ t.dbl.fw = s.dbl.fw ||| v ∧ t.dbl.host = s.dbl.host ∧ t.dbl.event = s.dbl.event) ∧
  (∀ (v : Word) (s : State), running s = true → s.mgt.fwState = 2 →
      ∃ t, exec (.dblFwRing v .fwClear) s = .next t ∧ t.dbl = { s.dbl with fw := s.dbl.fw &&& ~~~v }) ∧
  (∀ (v : Word) (s : State), running s = true → s.mgt.fwState = 2 →
      ∃ t, exec (.dblFwRing v .fwMask) s = .next t ∧ t.dbl = { s.dbl with fwMask := v }) ∧
  (∀ (v : Word) (s : State), running s = true → s.mgt.fwState = 2 →
      ∃ t, exec (.dblFwRing v .fwRingHost) s = .next t ∧ t.dbl = { s.dbl with host := s.dbl.host ||| v }) ∧
  (∀ (x : SiteIx) (v : Word) (s : State), running s = true → s.host.d3hot = false → v ≠ 0 → siteUp s x = true → (s.site[x]).sb.up = true →
      ∃ t, exec (.dblSiteRing x v) s = .next t ∧ t.dbl = s.dbl ∧
        (t.site[x]).sb.queue = (s.site[x]).sb.queue ++ [{ typ := 0x1C, body := sbBody (leBytes 4 v.toNat) }]) ∧
  (∀ (x : SiteIx) (v : Word) (s : State), running s = true → s.host.d3hot = false → v ≠ 0 → siteUp s x = false →
      ∃ t, exec (.dblSiteRing x v) s = .next t ∧ t.dbl.event = setBit s.dbl.event x.val ∧ t.site = s.site)

/-- Locks (R474): a master's read of LCK_n acquires a free lock and returns got = 1 with its own code, and otherwise returns got = 0 with the owner's
code and changes no lock; a site is answered by LOCK_RESP; a release by the owner frees the lock and by another changes nothing; a read of LCK_HELD
acquires nothing. -/
def Obligations.LocksHaveOneOwner : Prop :=
  (∀ (m : Master) (n : Fin 32) (s : State), running s = true → masterOn m s = true →
      ∃ t, exec (.lckAcquire m n) s = .next t ∧
        t.lck.owner[n] = (if s.lck.owner[n] = 0 then ownerCode m else s.lck.owner[n]) ∧
        (∀ k : Fin 32, k ≠ n → t.lck.owner[k] = s.lck.owner[k]) ∧
        match m with
        | .site x => (s.site[x]).sb.up = true → (t.site[x]).sb.queue = (s.site[x]).sb.queue ++
            [{ typ := 0x1E, body := sbBody [BitVec.ofNat 8 n.val, if s.lck.owner[n] = 0 then 1 else 0, (t.lck.owner[n]).setWidth 8] }]
        | _ => ∃ w, Emission.regRead m (0x30000 + 4 * n.val) w ∈ t.out ∧ w.getLsbD 31 = decide (s.lck.owner[n] = 0) ∧ w.setWidth 4 = t.lck.owner[n]) ∧
  (∀ (m : Master) (n : Fin 32) (s : State), running s = true → masterOn m s = true →
      ∃ t, exec (.lckRelease m (w32 n.val)) s = .next t ∧
        t.lck.owner[n] = (if s.lck.owner[n] = ownerCode m then 0 else s.lck.owner[n]) ∧
        ∀ k : Fin 32, k ≠ n → t.lck.owner[k] = s.lck.owner[k]) ∧
  (∀ (m : Master) (s : State), running s = true → regPath m s = true → aget s.host.latch (m, 0x30084) = none →
      ∃ t, exec (.lowWordRead m 0x30084 .b32) s = .next t ∧ t.lck = s.lck ∧
        ∃ w, Emission.regRead m 0x30084 w ∈ t.out ∧ ∀ k : Fin 32, w.getLsbD k.val = decide (s.lck.owner[k] ≠ 0))

/-- What the PCI Express side sets: MSI-X enable and masks (R476), speed and width of the link (Table 16.9), the power state of the function (Table
16.1), the configuration requests that it answers in either state, a poisoned TLP (R459), and what a function reset clears (R462). -/
def Obligations.PcieFunctionSettings : Prop :=
  (∀ (on : Bool) (s : State), running s = true → ∃ t, exec (.msixUnmask (.enable on)) s = .next t ∧ t.host.msixEnable = on ∧
      t.host.msixFmask = s.host.msixFmask ∧ t.host.vec = s.host.vec) ∧
  (∀ (on : Bool) (s : State), running s = true → ∃ t, exec (.msixUnmask (.functionMask on)) s = .next t ∧ t.host.msixFmask = on ∧
      t.host.msixEnable = s.host.msixEnable ∧ t.host.vec = s.host.vec) ∧
  (∀ (v : Fin 64) (on : Bool) (s : State), running s = true → s.host.d3hot = false →
      ∃ t, exec (.msixUnmask (.vectorMask v on)) s = .next t ∧ (t.host.vec[v]).masked = on ∧
        ∀ k : Fin 64, k ≠ v → t.host.vec[k] = s.host.vec[k]) ∧
  (∀ (sp : BitVec 4) (w : BitVec 6) (s : State), running s = true → ¬(s.host.speed = sp ∧ s.host.width = w) →
      ∃ t, exec (.pcieLinkChange sp w) s = .next t ∧ t.host.speed = sp ∧ t.host.width = w ∧ t.dev.event = setBit s.dev.event 0) ∧
  (∀ (d3 : Bool) (s : State), running s = true → ∃ t, exec (.functionPowerStateWrite d3) s = .next t ∧ t.host.d3hot = d3 ∧ t.host.cfg = s.host.cfg) ∧
  (∀ (d3 : Bool) (cfg : List CfgAccess) (s : State), running s = true →
      ∃ t, exec (.functionPowerStateWrite d3 cfg) s = .next t ∧ t.mbx = s.mbx ∧ t.hbm = s.hbm ∧ t.host.bar2 = s.host.bar2 ∧
        ∀ r, CfgAccess.read r ∈ cfg → ∃ w, Emission.cfgRead r w ∈ t.out) ∧
  (∀ (d3 : Bool) (r : CfgReg) (s : State), running s = true →
      ∃ t w, exec (.functionPowerStateWrite d3 [.read r]) s = .next t ∧ Emission.cfgRead r w ∈ t.out ∧
        (r = .classCode → w.toNat / 256 = 0x120000) ∧ (r = .headerType → w.toNat / 65536 % 256 = 0)) ∧
  (∀ (d3 : Bool) (v : Word) (s : State), running s = true → fld v 7 5 ≤ 2 → fld v 14 12 ≤ 5 →
      ∃ t, exec (.functionPowerStateWrite d3 [.write .deviceControl v]) s = .next t ∧ t.host.cfg.maxPayload.toNat = fld v 7 5 ∧
        t.host.cfg.maxRead.toNat = fld v 14 12 ∧ t.host.d3hot = d3) ∧
  (∀ (d3 : Bool) (v : Word) (s : State), running s = true →
      ∃ t, exec (.functionPowerStateWrite d3 [.write .powerControl v]) s = .next t ∧ (fld v 1 0 = 3 → t.host.d3hot = true) ∧
        (fld v 1 0 = 0 → t.host.d3hot = false)) ∧
  (∀ s : State, running s = true → ∃ t, exec .poisonedTlp s = .next t ∧ t.host.aer = .poisonedTlp :: s.host.aer ∧
      (∃ r, t.err.log.head? = some r ∧ r.block = 7 ∧ r.code = 0x0100 ∧ r.time = s.time) ∧ t.mbx = s.mbx ∧ t.hbm = s.hbm) ∧
  (∀ (k : FnReset) (s : State), running s = true → ∃ t, exec (.pcieFunctionReset k) s = .next t ∧ t.host.msixEnable = false ∧
      t.host.d3hot = false ∧ t.host.cfg = {} ∧ t.host.vec = Vector.replicate 64 {} ∧ t.dev.scratch = 0 ∧ t.hbm.base = 0 ∧ t.dbl.host = 0 ∧ t.dbl.hostMask = 0 ∧
      t.mbx.h2f = Vector.replicate 16 {} ∧ t.mbx.rxMask = 0 ∧ t.mbx.txMask = 0 ∧
      (∀ c : Fin 16, (t.mbx.f2h[c]).go = false → (t.mbx.f2h[c]).msg = {}) ∧ (∀ n : Fin 32, t.lck.owner[n] ≠ 2) ∧
      t.hbm.mem = s.hbm.mem ∧ t.sec.counter = s.sec.counter)

/-- Accesses to registers over a register path: an RW register takes the word, a W1C register loses the bits written as 1 (R18), a read of a low word
gives the live word and latches the high one, and the next read of the high word gives what was latched (R13). Every other write has the effect of its
register's own rule. An access that is not an aligned one of 32 bits (R12), or a write that sets a reserved bit (R20), is a host error: the next state
keeps what R6 and R61 keep. A master without a register path changes nothing. -/
def Obligations.RegisterAccesses : Prop :=
  (∀ (m : Master) (v : Word) (s : State), running s = true → regPath m s = true →
      ∃ t, exec (.registerWrite m 0x20 v .b32) s = .next t ∧ t.dev.scratch = v ∧ t.dev.event = s.dev.event) ∧
  (∀ (m : Master) (v : BitVec 3) (s : State), running s = true → regPath m s = true →
      ∃ t, exec (.registerWrite m 0x18 (v.setWidth 32) .b32) s = .next t ∧ t.dev.event = s.dev.event &&& ~~~ v ∧ t.dev.mask = s.dev.mask) ∧
  (∀ (m : Master) (v : BitVec 3) (s : State), running s = true → regPath m s = true →
      ∃ t, exec (.registerWrite m 0x1C (v.setWidth 32) .b32) s = .next t ∧ t.dev.mask = v ∧ t.dev.event = s.dev.event) ∧
  (∀ (m : Master) (s : State), running s = true → regPath m s = true → aget s.host.latch (m, 0x50014) = none →
      ∃ t, exec (.lowWordRead m 0x50014 .b32) s = .next t ∧ Emission.regRead m 0x50014 (w32 (s.pwr.energy / 1000000 % 2 ^ 32)) ∈ t.out ∧
        aget t.host.latch (m, 0x50018) = some (w32 (s.pwr.energy / 1000000 / 2 ^ 32 % 2 ^ 32)) ∧ t.pwr = s.pwr) ∧
  (∀ (m : Master) (w : Word) (s : State), running s = true → regPath m s = true → aget s.host.latch (m, 0x50018) = some w →
      ∃ t, exec (.lowWordRead m 0x50018 .b32) s = .next t ∧ Emission.regRead m 0x50018 w ∈ t.out ∧ aget t.host.latch (m, 0x50018) = none) ∧
  (∀ (m : Master) (off : Nat) (s : State), running s = true → regPath m s = true → accessOk off .b32 = true → isLock off = false →
      ∃ t, exec (.lowWordRead m off .b32) s = .next t ∧ (∃ w, Emission.regRead m off w ∈ t.out) ∧ t.dev = s.dev ∧ t.mgt = s.mgt ∧ t.ctl = s.ctl) ∧
  (∀ (m : Master) (off : Nat) (v : Word) (s : State), running s = true → regPath m s = true → accessOk off .b32 = true → writeBad s off v = false →
      ∃ t, exec (.registerWrite m off v .b32) s = .next t ∧ t = irqSettle (stopAfter s (writeReg m off v s)) ∧ t.comb = s.comb ∧ t.ring = s.ring ∧
        t.img.image = s.img.image ∧ t.sec.counter = s.sec.counter ∧ t.mgt.fatals = s.mgt.fatals) ∧
  (∀ (m : Master) (off : Nat) (z : AccessSize) (v : Word) (s : State), running s = true → regPath m s = true →
      (accessOk off z = false ∨ writeBad s off v = true) →
      ∃ t, exec (.registerWrite m off v z) s = .next t ∧ t.comb = s.comb ∧ t.ring = s.ring ∧ t.mgt.flash = s.mgt.flash ∧
        t.sec.counter = s.sec.counter ∧ t.img.image.map (·.regions) = s.img.image.map (·.regions)) ∧
  (∀ (m : Master) (off : Nat) (v : Word) (z : AccessSize) (s : State), running s = true → regPath m s = false →
      ∃ t, exec (.registerWrite m off v z) s = .next t ∧ t.dev = s.dev ∧ t.mbx = s.mbx ∧ t.hbm = s.hbm) ∧
  (∀ (m : Master) (off : Nat) (z : AccessSize) (s : State), running s = true → regPath m s = true → accessOk off z = false →
      ∃ t, exec (.lowWordRead m off z) s = .next t ∧ (∃ w, Emission.regRead m off w ∈ t.out) ∧ workOnly s t)

/-- The first capture and Echo (R509 to R514): a release with the current epoch frees the capture, an Echo starts with results of zero in the state
that Table 18.3 asks for, a stop shows what its checker compared. -/
def Obligations.CaptureAndEcho : Prop :=
  (∀ s : State, running s = true → s.host.d3hot = false →
      ∃ t, exec (.errCtrlRelease (w32 (s.err.epoch.toNat * 65536 + 1))) s = .next t ∧ t.err.first = none ∧ t.err.epoch = s.err.epoch + 1) ∧
  (∀ (v : Word) (s : State), running s = true → s.host.d3hot = false → fld v 31 16 = (s.port[echoPort v]).epoch.toNat →
      (s.port[echoPort v]).state = 0 → (s.port[echoPort v]).hold = true → 1 ≤ fld v 5 0 → fld v 5 0 ≤ 34 → s.err.echo.result ≠ 1 →
      ∃ t, exec (.errEchoLine v) s = .next t ∧ t.err.echo.result = 1 ∧ t.err.echo.mode = 1 ∧ t.err.echo.patternOn = true ∧
        t.err.echo.bits = 0 ∧ t.err.echo.errors = 0 ∧ t.err.epoch = s.err.epoch + 1 ∧ t.port = s.port) ∧
  (∀ (v : Word) (s : State), running s = true → s.host.d3hot = false → fld v 31 16 = (s.port[echoPort v]).epoch.toNat →
      s.dev.state = .penumbra → portUp (s.port[echoPort v]) = true → (s.port[echoPort v]).peerPort.toNat = (echoPort v).val →
      s.err.echo.result ≠ 1 →
      ∃ t, exec (.errEchoFibre v) s = .next t ∧ t.err.echo.result = 1 ∧ t.err.echo.mode = 2 ∧ t.err.echo.patternOn = false) ∧
  (∀ (v : Word) (s : State), running s = true → s.host.d3hot = false → fld v 31 16 = (s.site[echoSite v]).epoch.toNat →
      (s.site[echoSite v]).state = 1 → (s.site[echoSite v]).hold = true → fld v 13 8 < 32 → s.err.echo.result ≠ 1 →
      ∃ t, exec (.errEchoModule v) s = .next t ∧ t.err.echo.result = 1 ∧ t.err.echo.mode = 3 ∧ t.err.echo.patternOn = true) ∧
  (∀ (v : Word) (n e : Nat) (w : BitVec 7) (s : State), running s = true → s.host.d3hot = false → s.err.echo.result = 1 →
      fld v 31 16 = (echoEpoch s).toNat → s.err.echo.patternOn = true →
      ∃ t, exec (.errEchoStop v n e w) s = .next t ∧ t.err.echo.result = 2 ∧ t.err.echo.bits = BitVec.ofNat 64 n ∧
        t.err.echo.errors = BitVec.ofNat 64 e ∧ t.err.epoch = s.err.epoch + 1) ∧
  (∀ s : State, running s = true → echoAwaits s = true →
      ∃ t, exec .echoNonceReturn s = .next t ∧ t.err.echo = { s.err.echo with patternOn := true }) ∧
  (∀ s : State, running s = true → echoAwaits s = true →
      ∃ t, exec .echoNotLooped s = .next t ∧ t.err.echo = { s.err.echo with result := 4 } ∧ t.err.event.getLsbD 5 = true)

/-- Supplies and reset inputs (R482, R483, R485, Table 17.1): a power-on reset starts with SYS_RST_N asserted, an assertion of 10 µs or more is a
device reset that ends in Umbra, the release of the later input starts the boot, and fuses and flash survive them all (a programming of fuses under
way may have got further, R445). -/
def Obligations.SuppliesAndResetInputs : Prop :=
  (∀ s : State, s.dev.powered = false → ∃ t, exec .powerOn s = .next t ∧ t.dev.powered = true ∧ t.dev.sysRst = true ∧
      t.dev.state = .umbra ∧ t.img.image = none ∧ t.err.log = [] ∧ t.mgt.flash = s.mgt.flash ∧ fusesKept s t) ∧
  (∀ s : State, s.dev.powered = true → ∃ t, exec .powerOff s = .next t ∧ t.dev.powered = false ∧ t.dev.state = .umbra ∧
      (∀ (g : Fin 4) (d : Fin 5), ((t.comb.group[g]).die[d]).current = 0) ∧ t.hbm.mem = [] ∧ t.mgt.flash = s.mgt.flash ∧
      fusesKept s t) ∧
  (∀ (p : ResetPin) (us : Nat) (s : State), s.dev.powered = true → 10 ≤ us → ∃ t, exec (.resetAssert p us) s = .next t ∧
      running t = false ∧ t.dev.state = .umbra ∧ t.img.image = none ∧ t.img.pending = none ∧ t.time = 0 ∧ t.pwr.energy = 0 ∧ t.hbm.mem = [] ∧
      (∀ n : Fin 32, t.lck.owner[n] = 0) ∧ t.ctl.phase = 0 ∧ (∀ p : Port, (t.port[p]).state = 0) ∧
      (∀ (g : Fin 4) (d : Fin 5), ((t.comb.group[g]).die[d]).current = 0) ∧
      t.err.log = s.err.log ∧ t.mgt.flash = s.mgt.flash ∧ t.mgt.aging = s.mgt.aging ∧ t.mgt.fatals = s.mgt.fatals ∧
      t.mgt.fatalPending = s.mgt.fatalPending ∧ fusesKept s t) ∧
  (∀ (p : ResetPin) (us : Nat) (s : State), us < 10 → exec (.resetAssert p us) s = .next (irqSettle s)) ∧
  (∀ (p : ResetPin) (s : State), running s = false → s.dev.state = .umbra → running { s with dev := setPin p false s.dev } = true →
      ∃ t, exec (.resetRelease p) s = .next t ∧ running t = true ∧ t.mgt.booted = true ∧ (t.mgt.fwState = 1 ∨ t.mgt.fwState = 3) ∧
        t.dev.state = .umbra ∧ t.mgt.flash = s.mgt.flash) ∧
  (∀ (p : ResetPin) (s : State), running { s with dev := setPin p false s.dev } = false →
      ∃ t, exec (.resetRelease p) s = .next t ∧ running t = false ∧ t.mgt = s.mgt ∧ t.dev.state = s.dev.state) ∧
  (∀ (las aux : Nat) (s : State), running s = true → aux < 690 → 1620 ≤ las →
      ∃ t, exec (.supplyFault las aux) s = .next t ∧ (∀ (g : Fin 4) (d : Fin 5), ((t.comb.group[g]).die[d]).current = 0) ∧
        Emission.dark ∈ t.out)

/-- From reset to Penumbra (R435, R440, R487, R489, R399): readiness of the firmware, its watchdog, a lockstep disagreement, the entry of Penumbra,
the start of a comb group 8.5 s after the one before it, a die that does not lock in time, and the end of a stack's training. -/
def Obligations.BringUpEvents : Prop :=
  (∀ s : State, running s = true → s.mgt.fwState = 1 → s.img.lostArm = none →
      ∃ t, exec .fwReady s = .next t ∧ t.mgt.fwState = 2 ∧ t.sec.attReady = Config.secretOk ∧ t.mgt.event.getLsbD 0 = true ∧ t.dev.state = s.dev.state) ∧
  (∀ s : State, running s = true → s.mgt.fwState = 1 →
      ∃ t, exec .fwWatchdog s = .next t ∧ t.mgt.event.getLsbD 1 = true ∧ (t.mgt.fwState = 1 ∨ t.mgt.fwState = 3) ∧ t.mgt.update = none ∧
        t.img.pending = none ∧ t.img.image = s.img.image ∧ ∀ n : Fin 32, t.lck.owner[n] ≠ 1) ∧
  (∀ s : State, running s = true → s.mgt.lastDisagree = none →
      ∃ t, exec .lockstepDisagreement s = .next t ∧ t.mgt.lastDisagree = some s.time ∧ t.mgt.event.getLsbD 2 = true ∧
        (t.mgt.fwState = 1 ∨ t.mgt.fwState = 3) ∧ t.dev.fatal = s.dev.fatal) ∧
  (∀ (u : Nat) (s : State), running s = true → s.mgt.lastDisagree = some u → s.time ≤ u + 1000000 →
      ∃ t, exec .lockstepDisagreement s = .next t ∧ t.dev.fatal = true ∧ t.dev.state = .umbra) ∧
  (∀ s : State, running s = true → s.dev.state = .umbra → s.dev.fatal = false → s.dev.tripped = false → s.mgt.fwState = 2 →
      ∃ t, exec .penumbraEntry s = .next t ∧ t.dev.state = .penumbra ∧ t.dev.epoch = s.dev.epoch + 1 ∧
        (∀ h : Fin 2, (t.hbm.stack[h]).state = 1) ∧ t.img.penumbra = []) ∧
  (∀ (g : CombGroup) (s : State), running s = true → s.dev.state ≠ .umbra → (s.comb.group[g]).started = none →
      groupTurn g s = true → (∀ d : Fin 5, ((s.comb.group[g]).die[d]).state = .off) →
      ∃ t, exec (.combGroupStart g) s = .next t ∧ (t.comb.group[g]).started = some s.time ∧
        (swappedPos s g = none → ((t.comb.group[g]).die[4]).state = .standby ∧
          ∀ d : Fin 5, d.val < 4 → ((t.comb.group[g]).die[d]).state = .warming ∧ ((t.comb.group[g]).die[d]).current = loggedGain s g d) ∧
        (∀ k : Fin 4, swappedPos s g = some k → ((t.comb.group[g]).die[fin! 5 k.val]).state = .swappedOut ∧
          ((t.comb.group[g]).die[4]).state = .warming ∧ ((t.comb.group[g]).die[4]).current = loggedGain s g 4) ∧
        ∀ k : Fin 4, k ≠ g → t.comb.group[k] = s.comb.group[k]) ∧
  (∀ (g : CombGroup) (s : State), running s = true → (s.comb.group[g]).started = none → groupTurn g s = false →
      ∃ t, exec (.combGroupStart g) s = .next t ∧ t.comb = s.comb) ∧
  (∀ (g : CombGroup) (d : Fin 4) (s : State), running s = true → (s.comb.group[g]).started.isSome = true →
      ((s.comb.group[g]).die[fin! 5 d.val]).state = .warming → diePos (s.comb.group[g]) (fin! 5 d.val) = some d →
      ∃ t, exec (.combLockTimeout g d) s = .next t ∧ ((t.comb.group[g]).die[fin! 5 d.val]).state = .failed ∧
        ((t.comb.group[g]).die[fin! 5 d.val]).current = 0) ∧
  (∀ (h : Stack) (r : HbmRate) (s : State), running s = true → (s.hbm.stack[h]).state = 1 →
      ∃ t, exec (.stackTrainingDone h (some r)) s = .next t ∧ (t.hbm.stack[h]).state = 2 ∧ (t.hbm.stack[h]).rate = rateCode r ∧
        t.hbm.epoch = s.hbm.epoch + 1 ∧ t.hbm.mem = s.hbm.mem) ∧
  (∀ (h : Stack) (s : State), running s = true → (s.hbm.stack[h]).state = 1 →
      ∃ t, exec (.stackTrainingDone h none) s = .next t ∧ (t.hbm.stack[h]).state = 3 ∧ t.hbm.event.getLsbD 5 = true) ∧
  (∀ (h : Stack) (s : State), running s = true → (s.hbm.stack[h]).state = 2 →
      ∃ t, exec (.stackChannelLoss h) s = .next t ∧ (t.hbm.stack[h]).state = 3 ∧ t.hbm.event.getLsbD 5 = true)

/-- Lit and back (R491, R493, R494): Lit entry starts once its conditions hold, is shown when nothing trains any more, and DEV_PENUMBRA is answered at
once in Penumbra and held in Umbra; its time-out makes each held one act as parameter 1. -/
def Obligations.LitAndPenumbra : Prop :=
  (∀ s : State, running s = true → litReady s = true →
      ∃ t, exec .litEntryStart s = .next t ∧ t.dev.litEntry = true ∧ t.dev.state = .penumbra ∧
        (∀ p : Port, portUp (s.port[p]) = true → (t.port[p]).state = 2 ∧ (t.port[p]).step = 2) ∧
        (∀ x : SiteIx, (s.site[x]).state = 3 → (t.site[x]).state = 1)) ∧
  (∀ s : State, running s = true → s.dev.litEntry = true → s.dev.state = .penumbra → litTrained s = true → s.img.committing = false →
      s.img.penumbra = [] →
      ∃ t, exec .litEntryComplete s = .next t ∧ t.dev.state = .lit ∧ t.dev.litEntry = false ∧ t.dev.epoch = s.dev.epoch + 1) ∧
  (∀ (m : Msg) (s : State), running s = true → s.mgt.fwState = 2 → imgWaiting s = some m → mcode m = 0x0107 → mword m 1 < 2 →
      s.dev.state = .umbra →
      ∃ t, exec .devPenumbra s = .next t ∧ t.img.penumbra = s.img.penumbra ++ [(mtag m, mword m 1)] ∧ (t.mbx.h2f[(0 : Fin 16)]).go = false ∧
        t.dev.state = .umbra) ∧
  (∀ (m : Msg) (s : State), running s = true → s.mgt.fwState = 2 → imgWaiting s = some m → mcode m = 0x0107 → mword m 1 < 2 →
      s.dev.state = .penumbra → s.dev.litEntry = false → s.img.state ≠ .armed → (s.mbx.f2h[(0 : Fin 16)]).go = false →
      ∃ t, exec .devPenumbra s = .next t ∧ (t.mbx.f2h[(0 : Fin 16)]).go = true ∧
        (t.mbx.f2h[(0 : Fin 16)]).msg.words = replyWords 0x0107 (mtag m) 0 [] ∧ t.dev.state = .penumbra ∧ t.ctl = { s.ctl with arm := none }) ∧
  (∀ s : State, running s = true → s.dev.state = .lit → s.sq.fence = none → s.img.copying = false → s.ctl.phase = 4 →
      (∃ e, e ∈ s.img.penumbra) →
      ∃ t, exec .devPenumbraTimeout s = .next t ∧ t.dev.state = .penumbra ∧ t.ctl.phase = 9 ∧ t.img.penumbra = [] ∧ t.pln.inForce = 0xFFFF ∧
        t.pwr.op = 0)

/-- The commands that load an image (R88 to R90, Tables 3.15 and 3.17): each is taken from H2F channel 00 and answered on F2H channel 00, or starts
what it asks for. -/
def Obligations.ImageLoadingCommands : Prop :=
  (∀ (m : Msg) (s : State), imgAsked 0x0101 m s →
      ∃ t, exec .imgQuery s = .next t ∧ imgAnswered 0x0101 (mtag m) 0 (queryWords (applyDue s)) t ∧ t.img = (applyDue s).img ∧ t.ctl = s.ctl ∧
        (t.mbx.h2f[(0 : Fin 16)]).go = false) ∧
  (∀ (m : Msg) (s : State), imgAsked 0x0102 m s → loadInUse s = false → s.img.state = .idle → beginStatus s (mword2 m 1) = 0 →
      ∃ t, exec .imgBegin s = .next t ∧ imgAnswered 0x0102 (mtag m) 0 [] t ∧ t.img.state = .loading ∧ t.img.size = mword2 m 1 ∧
        t.img.pending = none ∧ t.img.written = [] ∧ t.img.image = s.img.image) ∧
  (∀ (m : Msg) (s : State), imgAsked 0x0103 m s → s.img.state = .loading → mword m 4 < 2 → nth s.img.half.toList (mword m 4) none = none →
      0 < mword m 3 → mword m 3 ≤ 2 ^ 25 → mword2 m 1 + mword m 3 ≤ s.img.size →
      ∃ t, exec .imgChunk s = .next t ∧ nth t.img.half.toList (mword m 4) none =
          some { off := mword2 m 1, len := mword m 3, tag := mtag m, torn := m.dirty.getLsbD (mword m 4) } ∧
        t.img.state = .loading ∧ t.hbm.mem = s.hbm.mem ∧ (t.mbx.h2f[(0 : Fin 16)]).go = false) ∧
  (∀ (h : Half) (c : Chunk) (s : State), running s = true → s.img.half[halfIx h] = some c → c.dead = false → c.torn = false →
      (s.mbx.f2h[(0 : Fin 16)]).go = false →
      ∃ t, exec (.chunkMoved h) s = .next t ∧ imgAnswered 0x0103 c.tag 0 [] t ∧ t.img.half[halfIx h] = none ∧
        t.hbm.mem = s.hbm.mem.writeN (loadBase + c.off) (s.host.bar2.readN ((halfIx h).val * 2 ^ 25) c.len) ∧
        t.img.written = (c.off, c.len) :: s.img.written) ∧
  (∀ (m : Msg) (s : State), imgAsked 0x0104 m s → s.img.state = .loading →
      ∃ t, exec .imgVerify s = .next t ∧ t.img.state = .verifying ∧ t.img.tag = mtag m ∧ t.img.written = s.img.written ∧ t.hbm.mem = s.hbm.mem) ∧
  (∀ (words : List (Nat × WordError)) (s u : State), running s = true → s.img.state = .verifying → (s.mbx.f2h[(0 : Fin 16)]).go = false →
      u = loadReads (verifyRanges s) words s →
      ∃ t, exec (.verifyComplete words) s = .next t ∧ imgAnswered 0x0104 s.img.tag (verifyStatus u) [] t ∧
        (verifyStatus u = 0 → t.img.state = .verified ∧ t.img.pending = some { parseImage (loadBytes u) with sound := imageSound (loadBytes u) }) ∧
        (verifyStatus u ≠ 0 → t.img.state = .idle ∧ t.img.pending = none) ∧ t.img.image = s.img.image) ∧
  (∀ (m : Msg) (s : State), imgAsked 0x0106 m s → loadInUse s = false → s.img.state = .verified →
      ∃ t, exec .imgAbort s = .next t ∧ imgAnswered 0x0106 (mtag m) 0 [] t ∧ t.img.state = .idle ∧ t.img.pending = none ∧
        t.img.image = s.img.image ∧ t.ctl = clearArm s.ctl) ∧
  (∀ (off : BitVec 26) (data : List Byte) (n : Nat) (s : State), hostOn s → s.host.bar2.wf = true → off.toNat + data.length ≤ 2 ^ 26 →
      ∃ t, exec (.bar2Write off data n) s = .next t ∧ (0 < n → off.toNat + n ≤ 2 ^ 26 → Emission.bar2Read (t.host.bar2.readN off.toNat n) ∈ t.out) ∧ (∀ i, i < data.length → t.host.bar2.read (off.toNat + i) = nth data i 0) ∧
        (∀ a, a < off.toNat ∨ off.toNat + data.length ≤ a → t.host.bar2.read a = s.host.bar2.read a) ∧ t.hbm.mem = s.hbm.mem) ∧
  (∀ (m : Msg) (s : State), running s = true → imgOn s = true → imgWaiting s = some m → imgUndefined m = true →
      (s.mbx.f2h[(0 : Fin 16)]).go = false →
      ∃ t, exec (.undefinedCommand .image) s = .next t ∧ imgAnswered (mcode m) (mtag m) 17 [] t ∧ t.img = s.img ∧ t.ctl = s.ctl ∧ t.hbm = s.hbm)

/-- Commits (R92 to R97, Tables 3.17 and 3.18): a full commit starts only from a verified image in Penumbra, its completion makes the pending image
the committed one with every counter of the program at 0 (when the image is inconsistent the outcome of the program is open, and what R61 keeps stays;
an uncorrectable word met in what is copied stops either kind of commit with DIGEST), a restart-point commit arms, and the copy at the restart point
applies it. -/
def Obligations.CommitsChangeTheImage : Prop :=
  (∀ (m : Msg) (s : State), imgAsked 0x0105 m s → mword m 1 = 0 → fullStatus s = 0 →
      ∃ t, exec .imgCommitFull s = .next t ∧ t.img.committing = true ∧ t.img.state = .idle ∧ t.img.tag = mtag m ∧ t.img.pending = s.img.pending ∧
        t.img.image = s.img.image ∧ t.dev = s.dev) ∧
  (∀ (words : List (Nat × WordError)) (i : Image) (s u : State), running s = true → s.img.pending = some i → s.img.committing = true →
      u = loadReads [(0, s.img.size)] words s → poisonIn u loadBase s.img.size = none → (s.mbx.f2h[(0 : Fin 16)]).go = false →
      imageConsistent (imageRead words i u) = true →
      ∃ t, exec (.fullCommitComplete words) s = .next t ∧ imgAnswered 0x0105 s.img.tag 0 [] t ∧ t.img.image = some (imageRead words i u) ∧
        t.img.pending = none ∧ t.img.committing = false ∧ t.ctl.epoch = 0 ∧ t.ctl.serial = 0 ∧ t.ctl.iter = 0 ∧ t.ctl.bank = [] ∧
        t.ctl.arm = none ∧ t.ctl.runAhead = false ∧ t.pln.inForce = 0xFFFF ∧ t.ce.bias = [] ∧ t.dev.state = s.dev.state) ∧
  (∀ (words : List (Nat × WordError)) (i : Image) (s u : State), running s = true → s.img.pending = some i → s.img.committing = true →
      u = loadReads [(0, s.img.size)] words s → poisonIn u loadBase s.img.size = none → (s.mbx.f2h[(0 : Fin 16)]).go = false →
      imageConsistent (imageRead words i u) = false →
      ∃ t, exec (.fullCommitComplete words) s = .next t ∧ imgAnswered 0x0105 s.img.tag 0 [] t ∧ t.img.image.isSome = true ∧ t.img.committing = false ∧
        t.dev.state = s.dev.state ∧ t.mgt.flash = s.mgt.flash ∧ t.sec.counter = s.sec.counter ∧ t.comb = s.comb) ∧
  (∀ (words : List (Nat × WordError)) (i : Image) (s u : State), running s = true → s.img.pending = some i → s.img.committing = true →
      u = loadReads [(0, s.img.size)] words s → (poisonIn u loadBase s.img.size).isSome = true → (s.mbx.f2h[(0 : Fin 16)]).go = false →
      ∃ t, exec (.fullCommitComplete words) s = .next t ∧ imgAnswered 0x0105 s.img.tag 7 [] t ∧ t.img.image = s.img.image ∧ t.img.pending = none ∧
        t.img.committing = false ∧ t.ctl.phase = 10 ∧ t.sec.event.getLsbD 1 = true) ∧
  (∀ (m : Msg) (s : State), imgAsked 0x0105 m s → mword m 1 = 1 → restartStatus s (BitVec.ofNat 16 (mword m 2)) = 0 →
      ∃ t, exec .imgCommitRestart s = .next t ∧ imgAnswered 0x0105 (mtag m) 0 [] t ∧ t.img.state = .armed ∧ t.img.pending = s.img.pending ∧
        t.ctl.arm.map (·.id) = some (BitVec.ofNat 16 (mword m 2)) ∧ t.ctl.phase = s.ctl.phase ∧ t.img.image = s.img.image) ∧
  (∀ s : State, running s = true → applyReady s = true →
      ∃ t, exec .replacementApply s = .next t ∧ t.img.state = .idle ∧ t.img.copying = true ∧ t.img.image = s.img.image ∧ t.ctl = s.ctl) ∧
  (∀ (words : List (Nat × WordError)) (c p : Image) (a : ArmRec) (s u : State), running s = true → s.img.copying = true → s.img.image = some c →
      s.img.pending = some p → s.ctl.arm = some a → u = loadReads (copiedRanges c p a.part) words s →
      rangesPoison u (copiedRanges c p a.part) = none → (s.mbx.f2h[(0 : Fin 16)]).go = false → s.img.penumbra = [] →
      imageConsistent (imageRead words p u) = true →
      ∃ t, exec (.replacementCopyDone words) s = .next t ∧ t.img.image = some (imageRead words p u) ∧ t.img.pending = none ∧
        t.img.copying = false ∧ t.ctl.arm = none ∧ imgAnswered 0x0105 a.tag 0 [] t ∧ t.ctl.serial = s.ctl.serial ∧ t.ctl.epoch = s.ctl.epoch) ∧
  (∀ (words : List (Nat × WordError)) (c p : Image) (a : ArmRec) (s u : State), running s = true → s.img.copying = true → s.img.image = some c →
      s.img.pending = some p → s.ctl.arm = some a → u = loadReads (copiedRanges c p a.part) words s →
      (rangesPoison u (copiedRanges c p a.part)).isSome = true → (s.mbx.f2h[(0 : Fin 16)]).go = false → s.img.penumbra = [] →
      ∃ t, exec (.replacementCopyDone words) s = .next t ∧ t.img.image = s.img.image ∧ t.img.pending = none ∧ t.ctl.phase = 10 ∧
        imgAnswered 0x0105 a.tag 7 [] t ∧ t.sec.event.getLsbD 1 = true)

/-- A firmware update (R444 to R446): its commands start, and end with the answer on the path that sent them; a passed update leaves the inactive slot
pending with no boot attempts, in the copy of the boot record that was not in force before (R439); a read-back that fails answers FLASH. -/
def Obligations.FirmwareUpdateRuns : Prop :=
  (∀ (p : MgtPath) (m : Msg) (s : State), mgtAsked p 0x0202 m s → s.mgt.update = none → s.img.state = .idle → mword2 m 1 ≤ 2 ^ 24 →
      s.mgt.flashFitted = true →
      ∃ t, exec (.fwBegin p) s = .next t ∧ t.mgt.update = some { path := p, size := mword2 m 1, tag := mtag m, phase := .erasing } ∧
        flashBusy t.mgt = true ∧ (t.mgt.slots[spareSlot s]).state = .empty ∧ t.mgt.slots[s.mgt.running] = s.mgt.slots[s.mgt.running]) ∧
  (∀ (u : FwUpdate) (s : State), running s = true → s.mgt.update = some u → u.phase = .erasing → (s.mbx.f2h[(1 : Fin 16)]).go = false →
      s.mgt.i3cRspGo = false →
      ∃ t, exec (.fwEraseDone true) s = .next t ∧ mgtAnswered u.path 0x0202 u.tag 0 [] t ∧ t.mgt.update = some { u with phase := .ready } ∧
        t.mgt.flash = s.mgt.flash.clear (slotBase (spareSlot s)) (sectors u.size)) ∧
  (∀ (p : MgtPath) (m : Msg) (u : FwUpdate) (s : State), mgtAsked p 0x0203 m s → s.mgt.update = some u → u.path = p → u.phase = .ready →
      mword m 4 ≤ 2 → 0 < mword m 3 → mword m 3 ≤ fwChunkMax p (mword m 4) → mword2 m 1 + mword m 3 ≤ u.size →
      ∃ t, exec (.fwChunk p) s = .next t ∧ flashBusy t.mgt = true ∧
        ∃ torn : Bool, torn = m.dirty.getLsbD (mword m 4) ∧
          t.mgt.update = some { u with phase := .programming (mword2 m 1) (mword m 3) (mword m 4), tag := mtag m, torn := torn }) ∧
  (∀ (u : FwUpdate) (off len : Nat) (s : State), running s = true → s.mgt.update = some u → u.phase = .programming off len 2 → u.torn = false →
      (s.mbx.f2h[(1 : Fin 16)]).go = false → s.mgt.i3cRspGo = false →
      ∃ t, exec (.fwChunkProgrammed true) s = .next t ∧ mgtAnswered u.path 0x0203 u.tag 0 [] t ∧ t.mgt.update = some { u with phase := .ready } ∧
        t.mgt.flash = s.mgt.flash.writeN (slotBase (spareSlot s) + off) (s.mgt.stage.readN 0 len)) ∧
  (∀ (p : MgtPath) (m : Msg) (u : FwUpdate) (s : State), mgtAsked p 0x0204 m s → s.mgt.update = some u → u.path = p → u.phase = .ready →
      ∃ t, exec (.fwVerify p) s = .next t ∧ t.mgt.update = some { u with phase := .verifying, tag := mtag m } ∧ t.mgt.flash = s.mgt.flash) ∧
  (∀ (u : FwUpdate) (s : State), running s = true → s.mgt.update = some u → u.phase = .verifying →
      (s.mbx.f2h[(1 : Fin 16)]).go = false → s.mgt.i3cRspGo = false →
      ∃ t, exec (.fwVerifyComplete true) s = .next t ∧ mgtAnswered u.path 0x0204 u.tag (slotStatus s u) [] t ∧
        t.mgt.update = if slotStatus s u = 0 then some { u with phase := .verified } else none) ∧
  (∀ (u : FwUpdate) (s : State), running s = true → s.mgt.update = some u → u.phase = .verifying →
      (s.mbx.f2h[(1 : Fin 16)]).go = false → s.mgt.i3cRspGo = false →
      ∃ t, exec (.fwVerifyComplete false) s = .next t ∧ mgtAnswered u.path 0x0204 u.tag 14 [] t ∧ t.mgt.update = none ∧
        t.mgt.event.getLsbD 3 = true ∧ t.mgt.flash = s.mgt.flash) ∧
  (∀ (p : MgtPath) (m : Msg) (u : FwUpdate) (s : State), mgtAsked p 0x0205 m s → s.mgt.update = some u → u.path = p → u.phase = .verified →
      ∃ t, exec (.fwActivate p) s = .next t ∧ t.mgt.update = some { u with phase := .activating, tag := mtag m }) ∧
  (∀ (u : FwUpdate) (s : State), running s = true → s.mgt.update = some u → u.phase = .activating → (s.mbx.f2h[(1 : Fin 16)]).go = false →
      s.mgt.i3cRspGo = false →
      ∃ t, exec (.fwActivateComplete true) s = .next t ∧ mgtAnswered u.path 0x0205 u.tag 0 [] t ∧ t.mgt.update = none ∧
        (t.mgt.slots[spareSlot s]).state = .pending ∧ (t.mgt.slots[spareSlot s]).attempts = 0 ∧ t.mgt.event.getLsbD 6 = true ∧
        t.mgt.bootAt = otherUnit s.mgt.bootAt ∧ t.mgt.bootCount = s.mgt.bootCount + 1 ∧ t.mgt.bootOther = { slots := s.mgt.slots, count := s.mgt.bootCount, ok := true } ∧
        t.mgt.slots[s.mgt.running] = s.mgt.slots[s.mgt.running]) ∧
  (∀ (p : MgtPath) (m : Msg) (s : State), mgtAsked p 0x0206 m s → (s.mgt.slots[s.mgt.running]).state = .pending → s.mgt.runs = [] →
      ∃ t, exec (.fwConfirm p) s = .next t ∧ t.mgt.runs = [.confirm p (mtag m)] ∧ t.sec.counter = s.sec.counter) ∧
  (∀ (p : MgtPath) (tag : BitVec 16) (s : State), running s = true → s.mgt.runs = [.confirm p tag] → (s.mbx.f2h[(1 : Fin 16)]).go = false →
      s.mgt.i3cRspGo = false →
      ∃ t, exec (.fwConfirmComplete true) s = .next t ∧ mgtAnswered p 0x0206 tag 0 [] t ∧ (t.mgt.slots[s.mgt.running]).state = .confirmed ∧
        t.sec.counter = max s.sec.counter s.mgt.fwSvn ∧ t.mgt.runs = [] ∧ t.mgt.event.getLsbD 6 = true)

/-- The other management commands (R444, R448, R450, R315): a query, an attestation and its signing, a comb swap and its end, fatal records read,
cleared and persisted, and a message that names no command. -/
def Obligations.ManagementCommandsRun : Prop :=
  (∀ (p : MgtPath) (m : Msg) (s : State), mgtAsked p 0x0201 m s →
      ∃ t, exec (.mgtQuery p) s = .next t ∧ mgtAnswered p 0x0201 (mtag m) 0
        [s.mgt.version, w32 (s.mgt.fwSvn + s.sec.counter * 2 ^ 8 + s.mgt.running.val * 2 ^ 16 + s.mgt.rootSlot.val * 2 ^ 17),
         (mkReg (bootWord s)).1] t) ∧
  (∀ (p : MgtPath) (m : Msg) (s : State), mgtAsked p 0x0207 m s → s.mgt.runs = [] →
      ∃ t, exec (.attest p) s = .next t ∧ t.mgt.runs = [.attest p (mtag m) (attestBody s (nonceOf m))] ∧
        t.mgt.reportSerial = s.mgt.reportSerial + 1 ∧ t.mgt.report = s.mgt.report) ∧
  (∀ (p : MgtPath) (tag : BitVec 16) (body : List Byte) (s : State), running s = true → s.mgt.runs = [.attest p tag body] →
      (s.mbx.f2h[(1 : Fin 16)]).go = false → s.mgt.i3cRspGo = false →
      ∃ t, exec .attestSigned s = .next t ∧ t.mgt.report = s.mgt.report.writeN 0 (reportBytes body) ∧ t.mgt.runs = [] ∧
        t.sec.event.getLsbD 6 = true) ∧
  (∀ (p : MgtPath) (m : Msg) (g : CombGroup) (k : Fin 4) (s : State), mgtAsked p 0x0208 m s → mword m 2 = 16 * g.val + k.val →
      mword m 3 = (s.port[fin! 64 (16 * g.val + 4 * k.val)]).epoch.toNat → swapStatus s g k = 0 → s.mgt.runs = [] →
      ∃ t, exec (.combSwap p) s = .next t ∧ (t.comb.group[g]).task = some (.planned k) ∧ ((t.comb.group[g]).die[(4 : Fin 5)]).state = .warming ∧
        ((t.comb.group[g]).die[(4 : Fin 5)]).current = loggedGain s g (fin! 5 k.val) ∧ t.mgt.runs = [.combSwap p (mtag m) g.val k.val]) ∧
  (∀ (g : CombGroup) (k : Fin 4) (s : State), running s = true → swapNow s = some (g, k) →
      ∃ t, exec .combSwapDone s = .next t ∧ (t.comb.group[g]).task = none ∧ (t.comb.group[g]).spareAt = some k ∧
        ((t.comb.group[g]).die[(4 : Fin 5)]).state = .active ∧ ((t.comb.group[g]).die[fin! 5 k.val]).state = .swappedOut ∧
        ((t.comb.group[g]).die[fin! 5 k.val]).current = 0 ∧ t.mgt.swappedOut.getLsbD (4 * g.val + k.val) = true) ∧
  (∀ (p : MgtPath) (m : Msg) (r : FatalRec) (s : State), mgtAsked p 0x0209 m s → mword m 2 ≤ 127 → s.mgt.fatals[mword m 2]? = some r →
      ∃ t, exec (.fatalRead p) s = .next t ∧ mgtAnswered p 0x0209 (mtag m) 0 [w32 (fatalLen r)] t ∧
        t.mgt.report = s.mgt.report.writeN 0 (fatalBytes r) ∧ t.mgt.fatals = s.mgt.fatals) ∧
  (∀ (p : MgtPath) (m : Msg) (s : State), mgtAsked p 0x020A m s →
      ∃ t, exec (.fatalClear p) s = .next t ∧ t.mgt.runs = s.mgt.runs ++ [.fatalClear p (mtag m)] ∧ flashBusy t.mgt = true ∧
        t.mgt.fatals = s.mgt.fatals) ∧
  (∀ (p : MgtPath) (tag : BitVec 16) (s : State), running s = true → s.mgt.runs = [.fatalClear p tag] → (s.mbx.f2h[(1 : Fin 16)]).go = false →
      s.mgt.i3cRspGo = false →
      ∃ t, exec (.fatalClearComplete true) s = .next t ∧ mgtAnswered p 0x020A tag 0 [] t ∧ t.mgt.fatals = [] ∧ t.mgt.runs = []) ∧
  (∀ (r : FatalRec) (rest : List FatalRec) (s : State), running s = true → s.mgt.fatalPending = r :: rest → s.mgt.fwState = 2 → s.mgt.flashFitted = true →
      ∃ t, exec (.fatalPersisted true) s = .next t ∧ t.mgt.fatals = (r :: s.mgt.fatals).take 128 ∧ t.mgt.fatalPending = rest ∧
        t.mgt.event.getLsbD 4 = true) ∧
  (∀ (p : MgtPath) (m : Msg) (s : State), mgtAsked p (mcode m) m s → mgtUndefined m = true →
      ∃ t, exec (.undefinedCommand (.mgt p)) s = .next t ∧ mgtAnswered p (mcode m) (mtag m) 17 [] t ∧ t.hbm = s.hbm ∧ t.comb = s.comb)

/-- The I3C target (R451 to R453): its address by ENTDAA or by SETDASA to its static address, private writes and reads, the mailbox that passes a
message to the firmware, and the response that the controller clears. -/
def Obligations.I3cTargetServes : Prop :=
  (∀ (a : BitVec 7) (via : Option (BitVec 7)) (s : State), running s = true → (via = none ∨ via = some 0x5A) →
      ∃ t, exec (.i3cAddressAssign a via) s = .next t ∧ t.mgt.i3cAddr = some a ∧ t.mgt.i3cMbx = s.mgt.i3cMbx) ∧
  (∀ (a v : BitVec 7) (s : State), running s = true → v ≠ 0x5A → ∃ t, exec (.i3cAddressAssign a (some v)) s = .next t ∧ t.mgt = s.mgt) ∧
  (∀ (v : Word) (k : Fin 16) (s : State), running s = true → s.mgt.i3cAddr.isSome = true →
      ∃ t, exec (.i3cPrivateWrite (w32 (0x70100 + 4 * k.val)) [v]) s = .next t ∧ t.mgt.i3cRsp = s.mgt.i3cRsp ∧ t.mgt.event.getLsbD 5 = true) ∧
  (∀ (v : Word) (s : State), running s = true → s.mgt.i3cAddr.isSome = true → s.mgt.i3cGo = false →
      ∃ t, exec (.i3cPrivateWrite 0x70084 [v]) s = .next t ∧ t.mgt.i3cMbx[(1 : Fin 16)] = v ∧ t.mgt.i3cOff = 0x70088 ∧
        ∀ k : Fin 16, k.val ≠ 1 → t.mgt.i3cMbx[k] = s.mgt.i3cMbx[k]) ∧
  (∀ (v : Word) (s : State), running s = true → s.mgt.i3cAddr.isSome = true →
      ∃ t, exec (.i3cPrivateWrite 0x79010 [v]) s = .next t ∧ t.mgt.stage = s.mgt.stage.writeN 0x10 (leBytes 4 v.toNat) ∧ t.mgt.i3cMbx = s.mgt.i3cMbx) ∧
  (∀ (v : Word) (s : State), running s = true → s.mgt.i3cAddr.isSome = true →
      ∃ t, exec (.i3cPrivateWrite 0x00020 [v]) s = .next t ∧ t.dev.scratch = s.dev.scratch ∧ t.mgt.event.getLsbD 5 = true) ∧
  (∀ s : State, running s = true → s.mgt.i3cAddr.isSome = true → s.mgt.i3cOff = 0x00020 → aget s.mgt.i3cLatch 0x20 = none →
      ∃ t, exec (.i3cPrivateRead 1) s = .next t ∧ Emission.i3cRead [s.dev.scratch] ∈ t.out ∧ t.mgt.i3cOff = 0x00024 ∧ t.dev = s.dev) ∧
  (∀ (off : Word) (ws : List Word) (s : State), running s = true → s.mgt.i3cAddr.isSome = true → i3cBad s off.toNat ws = false →
      ∃ t, exec (.i3cPrivateWrite off ws) s = .next t ∧ t.mgt.i3cOff = w32 (off.toNat + 4 * ws.length) ∧ t.mgt.i3cAddr = s.mgt.i3cAddr) ∧
  (∀ (n : Nat) (s : State), running s = true → s.mgt.i3cAddr.isSome = true →
      ∃ t, exec (.i3cPrivateRead n) s = .next t ∧ (∃ l, Emission.i3cRead l ∈ t.out ∧ l.length = n) ∧ t.mgt.i3cOff = s.mgt.i3cOff + w32 (4 * n)) ∧
  (∀ s : State, running s = true → s.mgt.i3cAddr.isSome = true → s.mgt.i3cGo = false →
      ∃ t, exec .i3cMbxGo s = .next t ∧ t.mgt.i3cGo = true ∧ mgtWaiting t .i3c = some { words := s.mgt.i3cMbx, tag := 0, sender := 0 }) ∧
  (∀ s : State, running s = true → s.mgt.i3cAddr.isSome = true → s.mgt.i3cRspGo = true → s.mgt.i3cHeld = [] →
      ∃ t, exec .i3cRspClear s = .next t ∧ t.mgt.i3cRspGo = false ∧ t.mgt.i3cRsp = s.mgt.i3cRsp) ∧
  (∀ (w : Vector Word 16) (r : List (Vector Word 16)) (s : State), running s = true → s.mgt.i3cAddr.isSome = true → s.mgt.i3cRspGo = true →
      s.mgt.i3cHeld = w :: r →
      ∃ t, exec .i3cRspClear s = .next t ∧ t.mgt.i3cRspGo = true ∧ t.mgt.i3cRsp = w ∧ t.mgt.i3cHeld = r) ∧
  (∀ (w : BitVec 10) (s : State), running s = true → s.mgt.i3cAddr.isSome = true → 300 ≤ w.toNat → w.toNat ≤ 850 →
      ∃ t, exec (.mgtCapMgmtWrite (w.setWidth 32)) s = .next t ∧ t.mgt.capMgmt = w ∧ t.pwr = s.pwr)

/-- BAR4 (R404, R405): outside the load area on a Ready stack a write stores its bytes and no others and ends the poison of the words it covers, and a
read returns the bytes, corrected where the code corrects, or completes poisoned where a word is uncorrectable; the load area and a stack that is not
Ready are refused, with all ones for a read; a write into a region kept from the host is a host error, whose outcome is confined to the program's work
(R6, R61). -/
def Obligations.Bar4ReachesTheReservoir : Prop :=
  (∀ (off : BitVec 36) (data : List Byte) (s : State), hostOn s → s.hbm.mem.wf = true →
      bar4Shaped (bar4Addr s off) data.length = true → bar4HostError s (bar4Addr s off) data.length = false →
      bar4Refused s (bar4Addr s off) = false →
      ∃ t, exec (.bar4Write off data) s = .next t ∧
        (∀ i, i < data.length → t.hbm.mem.read (bar4Addr s off + i) = nth data i 0) ∧
        (∀ a, a < bar4Addr s off ∨ bar4Addr s off + data.length ≤ a → t.hbm.mem.read a = s.hbm.mem.read a) ∧
        t.hbm.mem.wf = true ∧
        (∀ w, w ∈ t.hbm.poison ↔ w ∈ s.hbm.poison ∧ ¬(bar4Addr s off ≤ 16 * w ∧ 16 * w + 16 ≤ bar4Addr s off + data.length))) ∧
  (∀ (off : BitVec 36) (n : Nat) (s : State), hostOn s → bar4Shaped (bar4Addr s off) n = true → bar4HostError s (bar4Addr s off) n = false →
      bar4Refused s (bar4Addr s off) = false → poisonIn s (bar4Addr s off) n = none → bar4Addr s off / 16 ∉ s.hbm.poison →
      ∃ t, exec (.bar4Read off n .none) s = .next t ∧ Emission.bar4 (some (s.hbm.mem.readN (bar4Addr s off) n)) ∈ t.out ∧
        t.hbm.mem = s.hbm.mem ∧ t.hbm.poison = s.hbm.poison) ∧
  (∀ (off : BitVec 36) (n : Nat) (e : WordError) (words : List (Nat × WordError)) (s u : State), hostOn s → bar4Shaped (bar4Addr s off) n = true →
      bar4HostError s (bar4Addr s off) n = false → bar4Refused s (bar4Addr s off) = false →
      u = readRange srcBar4 (bar4Addr s off) n ((bar4Addr s off / 16, e) :: words) s → poisonIn u (bar4Addr s off) n = none →
      ∃ t, exec (.bar4Read off n e words) s = .next t ∧ Emission.bar4 (some (u.hbm.mem.readN (bar4Addr s off) n)) ∈ t.out ∧
        t.hbm.mem = u.hbm.mem ∧ t.hbm.poison = u.hbm.poison) ∧
  (∀ (off : BitVec 36) (n : Nat) (e : WordError) (words : List (Nat × WordError)) (s u : State), hostOn s → bar4Shaped (bar4Addr s off) n = true →
      bar4HostError s (bar4Addr s off) n = false → bar4Refused s (bar4Addr s off) = false →
      u = readRange srcBar4 (bar4Addr s off) n ((bar4Addr s off / 16, e) :: words) s → (poisonIn u (bar4Addr s off) n).isSome = true →
      ∃ t, exec (.bar4Read off n e words) s = .next t ∧ Emission.bar4 none ∈ t.out ∧ t.host.aer.head? = some .poisonedCompletion) ∧
  (∀ (off : BitVec 36) (n : Nat) (e : WordError) (words : List (Nat × WordError)) (s : State), hostOn s → bar4Shaped (bar4Addr s off) n = true →
      bar4HostError s (bar4Addr s off) n = false → bar4Refused s (bar4Addr s off) = true →
      ∃ t, exec (.bar4Read off n e words) s = .next t ∧ Emission.bar4 (some (List.replicate n 0xFF)) ∈ t.out ∧ t.hbm.mem = s.hbm.mem ∧
        t.hbm.event.getLsbD 4 = true) ∧
  (∀ (off : BitVec 36) (data : List Byte) (s : State), hostOn s → bar4Shaped (bar4Addr s off) data.length = true →
      bar4HostError s (bar4Addr s off) data.length = false → bar4Refused s (bar4Addr s off) = true →
      ∃ t, exec (.bar4Write off data) s = .next t ∧ t.hbm.mem = s.hbm.mem ∧ t.hbm.poison = s.hbm.poison ∧ t.hbm.event.getLsbD 4 = true) ∧
  (∀ (off : BitVec 36) (data : List Byte) (s : State), hostOn s → bar4Shaped (bar4Addr s off) data.length = true →
      bar4HostError s (bar4Addr s off) data.length = true →
      ∃ t, exec (.bar4Write off data) s = .next t ∧ workOnly s t)

/-- The other Reservoir commands (R404, R407, R399): the aperture takes a base up to 64, the scrub register a period of 1 to 168 hours, a scrub step
without an error goes on to the next word and leaves the contents, an uncorrectable one poisons its word, and a poll shows a stack's temperature while
its sensor passes its self-check. -/
def Obligations.ReservoirControl : Prop :=
  (∀ (b : BitVec 7) (s : State), hostOn s → b.toNat ≤ 64 →
      ∃ t, exec (.hbmApertureWrite (b.setWidth 32)) s = .next t ∧ t.hbm.base = b ∧ t.hbm.mem = s.hbm.mem) ∧
  (∀ (b : BitVec 7) (s : State), hostOn s → 64 < b.toNat →
      ∃ t, exec (.hbmApertureWrite (b.setWidth 32)) s = .next t ∧ t.hbm = s.hbm) ∧
  (∀ (on : Bool) (h : BitVec 8) (s : State), hostOn s → 1 ≤ h.toNat → h.toNat ≤ 168 →
      ∃ t, exec (.hbmScrubWrite (w32 (b2n on * 2 ^ 31 + h.toNat * 2 ^ 16))) s = .next t ∧ t.hbm.scrubOn = on ∧ t.hbm.period = h ∧
        t.hbm.passes = s.hbm.passes) ∧
  (∀ s : State, running s = true → s.hbm.scrubOn = true → (s.hbm.stack[stackOf (16 * s.hbm.scrubPos)]).state = 2 →
      s.hbm.scrubPos ∉ s.hbm.poison → s.hbm.scrubPos + 1 < 2 ^ 33 →
      ∃ t, exec (.scrubStep .none) s = .next t ∧ t.hbm.scrubPos = s.hbm.scrubPos + 1 ∧ t.hbm.mem = s.hbm.mem ∧ t.hbm.poison = s.hbm.poison) ∧
  (∀ s : State, running s = true → s.hbm.scrubOn = true → (s.hbm.stack[stackOf (16 * s.hbm.scrubPos)]).state = 2 →
      ∃ t, exec (.scrubStep .twoNibbles) s = .next t ∧ s.hbm.scrubPos ∈ t.hbm.poison ∧ t.hbm.mem = s.hbm.mem ∧ t.hbm.event.getLsbD 2 = true ∧
        t.hbm.errAddr = BitVec.ofNat 37 (16 * s.hbm.scrubPos) ∧ t.hbm.errSource = 5) ∧
  (∀ (h : Stack) (t8 : Int) (n : Nat) (s : State), running s = true →
      ∃ t, exec (.hbmStackPoll h t8 n) s = .next t ∧ (t.hbm.stack[h]).temp = (if sensorOk s (148 + h.val) then t8 else (s.hbm.stack[h]).temp) ∧
        (t.hbm.stack[h]).counters[7] = (s.hbm.stack[h]).counters[7] + BitVec.ofNat 64 n ∧ t.hbm.mem = s.hbm.mem)

/-- The operating point, the cap, the power samples, the regulator alert and the droop (R412, R413, R417, R421, R425 to R427, R433): a sample is kept
and its energy counted, a settled rail lets a waiting increase proceed, the lowest cap of the three sources takes effect, a pulse of 20 ns or more
forces OP0 and drops a waiting increase, OP0 is held until 100 µs after the release, and a stretched branch is marked until it clears. -/
def Obligations.PowerAlertAndDroop : Prop :=
  (∀ (rails : List RailSample) (tiles : List Nat) (s : State), running s = true →
      ∃ t, exec (.powerSample rails tiles) s = .next t ∧ t.pwr.samples = (inputPower rails :: s.pwr.samples).take 100 ∧
        t.pwr.energy = s.pwr.energy + 10 * inputPower rails ∧ t.hbm.mem = s.hbm.mem) ∧
  (∀ s : State, running s = true →
      ∃ t, exec .capPeriodStart s = .next t ∧
        t.pwr.policy = (s.img.image.map fun i : Image => i.power).getD {} ∧
        t.pwr.capEff.toNat = min t.pwr.policy.cap (min s.pwr.capHost.toNat s.mgt.capMgmt.toNat) ∧ t.pwr.capHost = s.pwr.capHost) ∧
  (∀ (mv w : Nat) (s : State), running s = true → s.pwr.raise = some w → opWanted s = w → railMv s.pwr w ≤ mv + 5 → mv ≤ railMv s.pwr w + 5 →
      s.pwr.droopQuiet = true → s.pwr.droop = 0 →
      ∃ t, exec (.railSettled mv) s = .next t ∧ t.pwr.op = w ∧ (s.pwr.start = none → t.pwr.raise = none)) ∧
  (∀ (b : BitVec 3) (off : Bool) (s : State), hostOn s →
      ∃ t, exec (.pwrCtrlWrite (w32 (s.pwr.epoch.toNat * 2 ^ 16 + b2n off * 8 + b.toNat))) s = .next t ∧ t.pwr.opCeiling = b.toNat ∧
        t.pwr.hintsOff = off ∧ t.pwr.op ≤ b.toNat) ∧
  (∀ (b : BitVec 3) (e : BitVec 16) (s : State), hostOn s → e ≠ s.pwr.epoch →
      ∃ t, exec (.pwrCtrlWrite (w32 (e.toNat * 2 ^ 16 + b.toNat))) s = .next t ∧ t.pwr.opCeiling = s.pwr.opCeiling ∧
        t.pwr.hintsOff = s.pwr.hintsOff ∧ t.pwr.event.getLsbD 5 = true) ∧
  (∀ (w : BitVec 10) (s : State), hostOn s → 300 ≤ w.toNat → w.toNat ≤ 850 →
      ∃ t, exec (.pwrCapHostWrite (w.setWidth 32)) s = .next t ∧ t.pwr.capHost = w ∧ t.mgt.capMgmt = s.mgt.capMgmt) ∧
  (∀ (ns : Nat) (s : State), running s = true → 20 ≤ ns → s.pwr.alertPin = false →
      ∃ t, exec (.vralertAssert ns) s = .next t ∧ t.pwr.alertPin = true ∧ t.pwr.op = 0 ∧ t.pwr.raise = none ∧ t.pwr.event.getLsbD 2 = true) ∧
  (∀ (ns : Nat) (s : State), running s = true → ns < 20 →
      ∃ t, exec (.vralertAssert ns) s = .next t ∧ t.pwr.alertPin = s.pwr.alertPin ∧ t.pwr.alertHold = s.pwr.alertHold) ∧
  (∀ s : State, running s = true → s.pwr.alertPin = true →
      ∃ t, exec .vralertRelease s = .next t ∧ t.pwr.alertPin = false ∧ t.pwr.alertHold = true ∧ t.pwr.op = 0) ∧
  (∀ s : State, running s = true →
      ∃ t, exec .vralertHoldEnd s = .next t ∧ t.pwr.alertHold = false ∧ t.pwr.alertPin = s.pwr.alertPin) ∧
  (∀ (b : Fin 19) (s : State), running s = true →
      ∃ t, exec (.droopDetect b) s = .next t ∧ t.pwr.droop = setBit s.pwr.droop b.val ∧ t.pwr.droopQuiet = false) ∧
  (∀ (b : Fin 19) (s : State), running s = true → ∃ t, exec (.droopClear b) s = .next t ∧ t.pwr.droop = clrBit s.pwr.droop b.val) ∧
  (∀ s : State, running s = true → s.pwr.droop = 0 → ∃ t, exec .droopClear1us s = .next t ∧ t.pwr.droopQuiet = true ∧ t.pwr.droop = 0)

/-- Thermal control (R428, R429, R420, R437): a sample applies the thresholds, the ceilings step, the trip at 110 °C enters Umbra, a cluster without
slack loses 20 MHz and is recorded in the aging log, whose newest records stay, the warning threshold takes 60 to 97 °C, a sensor that newly fails its
self-check is reported, and a snapshot shows the sensors and the rail monitors, with the code errors of the management stores (Table 15.7). -/
def Obligations.ThermalControlCommands : Prop :=
  (∀ (temps : List (Option Int)) (failed : List Nat) (s : State), running s = true →
      let j : Vector (Option Int) 64 := vmk 64 fun i => nth temps i.val none
      103 * 8 ≤ hottest j → hottest j < 110 * 8 →
      ∃ t, exec (.thermalSample temps failed) s = .next t ∧ t.thm.junction = j ∧ t.pwr.heatForced = true ∧ t.pwr.op = 0 ∧
        t.thm.cond.getLsbD 2 = true ∧ t.dev.state = s.dev.state) ∧
  (∀ (temps : List (Option Int)) (failed : List Nat) (k : Nat) (s : State), running s = true → hottest (vmk 64 fun i => nth temps i.val none) < 110 * 8 →
      64 ≤ k → k < 150 →
      ∃ t, exec (.thermalSample temps failed) s = .next t ∧ sensorOk t k = !failed.contains k ∧
        (sensorOk s k = true → failed.contains k = true → t.thm.event.getLsbD 7 = true)) ∧
  (∀ (temps : List (Option Int)) (failed : List Nat) (s : State), running s = true → s.dev.tripped = false →
      110 * 8 ≤ hottest (vmk 64 fun i => nth temps i.val none) →
      ∃ t, exec (.thermalSample temps failed) s = .next t ∧ t.dev.tripped = true ∧ t.dev.state = .umbra ∧ t.dev.fatal = true) ∧
  (∀ s : State, running s = true → 98 * 8 ≤ hottest s.thm.junction → 0 < s.pwr.junctionCeiling →
      ∃ t, exec (.thermalCeilingStep .junction) s = .next t ∧ t.pwr.junctionCeiling = s.pwr.junctionCeiling - 1) ∧
  (∀ s : State, running s = true → (zones s).all (fun z => decide (z ≤ 81 * 20)) = true → s.pwr.zoneCeiling < 7 →
      ∃ t, exec (.thermalCeilingStep .zone) s = .next t ∧ t.pwr.zoneCeiling = s.pwr.zoneCeiling + 1) ∧
  (∀ s : State, running s = true → s.dev.tripped = false →
      ∃ t, exec .junctionTrip s = .next t ∧ t.dev.tripped = true ∧ t.dev.fatal = true ∧ t.dev.state = .umbra ∧
        (∀ (g : Fin 4) (d : Fin 5), ((t.comb.group[g]).die[d]).current = 0) ∧ t.mgt.fatalPending ≠ []) ∧
  (∀ (c : Fin 16) (l : List Nat) (w : Nat) (s : State), running s = true → w = min s.pwr.limits[c] (loggedLimits s)[c] →
      nth l c.val 1000 < 30 → (∀ k : Fin 16, k ≠ c → 30 ≤ nth l k.val 1000) →
      ∃ t, exec (.clusterAgingCheck l) s = .next t ∧ (∀ k : Fin 16, k ≠ c → t.pwr.limits[k] = s.pwr.limits[k]) ∧
        (if 120 < w then t.pwr.limits[c] = max 120 (w - 2) ∧
            t.mgt.aging = (.cluster c.val (max 120 (w - 2)) :: s.mgt.aging).take (Config.agingRoom.val + 1) ∧ t.pwr.event.getLsbD 4 = true
          else t.pwr.limits[c] = s.pwr.limits[c] ∧ t.mgt.aging = s.mgt.aging)) ∧
  (∀ (l : List Nat) (s : State), running s = true →
      ∃ t, exec (.clusterAgingCheck l) s = .next t ∧ ∀ c : Fin 16, t.pwr.limits[c] ≤ s.pwr.limits[c] ∧
        (30 ≤ nth l c.val 1000 → t.pwr.limits[c] = s.pwr.limits[c])) ∧
  (∀ (v : BitVec 8) (s : State), hostOn s → 60 ≤ v.toNat → v.toNat ≤ 97 →
      ∃ t, exec (.thmWarnWrite (v.setWidth 32)) s = .next t ∧ t.thm.warn = v) ∧
  (∀ (stores : CodeResult) (s : State), running s = true →
      ∃ t, exec (.sensorSnapshot stores) s = .next t ∧ t.thm.snap = sensorList s ∧ t.thm.hot.1 = hottest s.thm.junction ∧
        t.thm.junction = s.thm.junction ∧ t.pwr.shown = (avgPower s.pwr.samples, s.pwr.samples.headD 0) ∧
        (stores = .corrected → t.err.log.head?.map (·.code) = some 0x0103 ∧ t.dev = s.dev) ∧
        (stores = .uncorrectable → s.mgt.fwState = 2 → t.dev.fatal = true ∧ t.dev.state = .umbra))

/-- The loops of a comb die (R309 to R312): the grid loop holds L00 within 1.0 GHz of its nominal frequency, the bias loop moves the gain current by
at most 0.5 mA and raises it neither above 1.60 A nor at 68 °C or above, from 70 °C on the current falls, and every active die is logged every hour,
with its hours in service, while the aging log has room. A die's temperature is what its sensor gives while it passes its self-check. -/
def Obligations.CombDieLoops : Prop :=
  (∀ (g : CombGroup) (d : CombDie) (off t8 : Int) (s : State), running s = true → ((s.comb.group[g]).die[d]).state = .warming →
      d.val < 4 → 0 < ((s.comb.group[g]).die[d]).current → off.natAbs ≤ 1000 →
      ∃ t, exec (.gridLoop g d off t8) s = .next t ∧ ((t.comb.group[g]).die[d]).gridHeld = true ∧ ((t.comb.group[g]).die[d]).state = .active ∧
        ((t.comb.group[g]).die[d]).current = ((s.comb.group[g]).die[d]).current) ∧
  (∀ (g : CombGroup) (d : CombDie) (off t8 : Int) (s : State), running s = true → 1000 < off.natAbs →
      ∃ t, exec (.gridLoop g d off t8) s = .next t ∧ ((t.comb.group[g]).die[d]).gridHeld = false ∧
        ((t.comb.group[g]).die[d]).state = ((s.comb.group[g]).die[d]).state) ∧
  (∀ (g : CombGroup) (d : CombDie) (est : List (Port × Line × Int)) (t8 : Int) (s : State), running s = true →
      ((s.comb.group[g]).die[d]).state = .active → ((s.comb.group[g]).die[d]).current ≤ 1600000 →
      ∃ t, exec (.biasLoop g d est t8) s = .next t ∧
        ((t.comb.group[g]).die[d]).current ≤ ((s.comb.group[g]).die[d]).current + 500 ∧
        ((s.comb.group[g]).die[d]).current ≤ ((t.comb.group[g]).die[d]).current + 500 ∧
        ((t.comb.group[g]).die[d]).current ≤ 1600000 ∧
        (544 ≤ dieTemp s g d t8 → ((t.comb.group[g]).die[d]).current ≤ ((s.comb.group[g]).die[d]).current) ∧
        ∀ k : Fin 5, k ≠ d → ((t.comb.group[g]).die[k]).current = ((s.comb.group[g]).die[k]).current) ∧
  (∀ (g : CombGroup) (d : CombDie) (t8 : Int) (s : State), running s = true → ((s.comb.group[g]).die[d]).current ≠ 0 → 560 ≤ dieTemp s g d t8 →
      ∃ t, exec (.combThermalReduction g d t8) s = .next t ∧
        ((t.comb.group[g]).die[d]).current = ((s.comb.group[g]).die[d]).current * 98 / 100 ∧ ((t.comb.group[g]).die[d]).reducing = true) ∧
  (∀ s : State, running s = true → s.mgt.flashFitted = true → s.mgt.aging.length + (activeDies s).length ≤ Config.agingRoom.val + 1 →
      ∃ t, exec (.agingLogWrite true) s = .next t ∧ t.mgt.aging.length = s.mgt.aging.length + (activeDies s).length ∧
        t.mgt.flashFailures = s.mgt.flashFailures) ∧
  (∀ (ok : Bool) (g : CombGroup) (d : CombDie) (s : State), running s = true → (g, d) ∈ activeDies s →
      ∃ t, exec (.agingLogWrite ok) s = .next t ∧ ((t.comb.group[g]).die[d]).hours = ((s.comb.group[g]).die[d]).hours + 1 ∧
        ((t.comb.group[g]).die[d]).current = ((s.comb.group[g]).die[d]).current)

/-- Failures of a comb die and eye safety (R313 to R316, R323 to R328): a failed die emits nothing and D4 begins to take its place, D4 takes it when
it holds the grid, an open fibre and lost light darken the port, and probes show L00 alone until both ends see light. -/
def Obligations.CombFailureAndEyeSafety : Prop :=
  (∀ (g : CombGroup) (d : CombDie) (k : Fin 4) (b : Bool) (s : State), running s = true → ((s.comb.group[g]).die[d]).state = .active →
      diePos (s.comb.group[g]) d = some k → spareFree (s.comb.group[g]) k = true → d ≠ 4 →
      (b = true ∨ dieSpent ((s.comb.group[g]).die[d]) = true) →
      ∃ t, exec (.combDieFailure g d b) s = .next t ∧ ((t.comb.group[g]).die[d]).state = .failed ∧ ((t.comb.group[g]).die[d]).current = 0 ∧
        (t.comb.group[g]).task = some (.replace k) ∧ ∀ p : Port, p ∈ posPorts g k → (t.port[p]).state = 0) ∧
  (∀ (g : CombGroup) (d : CombDie) (s : State), running s = true → dieSpent ((s.comb.group[g]).die[d]) = false →
      ∃ t, exec (.combDieFailure g d false) s = .next t ∧ t.comb = s.comb ∧ t.port = s.port) ∧
  (∀ (g : CombGroup) (k : Fin 4) (s : State), running s = true → (s.comb.group[g]).task = some (.replace k) →
      ∃ t, exec (.spareGainRamp g) s = .next t ∧ ((t.comb.group[g]).die[(4 : Fin 5)]).state = .warming ∧
        ((t.comb.group[g]).die[(4 : Fin 5)]).current = loggedGain s g ⟨k.val, by omega⟩) ∧
  (∀ (g : CombGroup) (k : Fin 4) (s : State), running s = true → (s.comb.group[g]).task = some (.replace k) →
      ((s.comb.group[g]).die[(4 : Fin 5)]).state = .warming →
      ∃ t, exec (.spareCombLocked g) s = .next t ∧ (t.comb.group[g]).spareAt = some k ∧ (t.comb.group[g]).task = none ∧
        ((t.comb.group[g]).die[(4 : Fin 5)]).state = .active ∧ ((t.comb.group[g]).die[(4 : Fin 5)]).gridHeld = true) ∧
  (∀ (p : Port) (s : State), running s = true → (s.port[p]).state ≠ 0 →
      ∃ t, exec (.openFibre p) s = .next t ∧ (t.port[p]).state = 0 ∧ (t.port[p]).shutter = .closed ∧ (t.port[p]).exchangeTuned = true ∧
        (t.port[p]).epoch = (s.port[p]).epoch + 1 ∧ ∀ b : Beam, b ∈ litBeams s p → (t.beam[b]).state = 6) ∧
  (∀ (p : Port) (s : State), running s = true → mayProbe s p = true → (s.port[p]).probing = false →
      ∃ t, exec (.probeStart p) s = .next t ∧ (t.port[p]).probing = true ∧ (t.port[p]).state = 0 ∧ Emission.probe p ∈ t.out) ∧
  (∀ (p : Port) (us : Nat) (s : State), running s = true → mayProbe s p = true → (s.port[p]).probing = true → 1000 ≤ us →
      (s.port[p]).probeLight = false → (s.port[p]).probes = 1 →
      ∃ t, exec (.probeLightReceived p us) s = .next t ∧ (t.port[p]).state = 1 ∧ (t.port[p]).epoch = (s.port[p]).epoch + 1) ∧
  (∀ (p : Port) (us : Nat) (s : State), running s = true → mayProbe s p = true → (s.port[p]).probing = true → 1000 ≤ us →
      (s.port[p]).probeLight = false → (s.port[p]).probes = 0 →
      ∃ t, exec (.probeLightReceived p us) s = .next t ∧ (t.port[p]).state = 0 ∧ (t.port[p]).probeLight = true) ∧
  (∀ (p : Port) (s : State), running s = true → (s.port[p]).state = 0 → (s.port[p]).probing = true →
      ∃ t, exec (.probeEnd p) s = .next t ∧ (t.port[p]).probing = false ∧ (t.port[p]).shutter = .closed ∧
        (t.port[p]).probes = if (s.port[p]).probeLight then (s.port[p]).probes + 1 else 0) ∧
  (∀ s : State, running s = true → ∃ t, exec .qclkLoss s = .next t ∧ t.dev.state = .umbra ∧ t.dev.fatal = true ∧
      (∀ (g : Fin 4) (d : Fin 5), ((t.comb.group[g]).die[d]).current = 0) ∧ (∀ p : Port, (t.port[p]).state = 0) ∧
      (∀ x : SiteIx, (t.site[x]).rstn = true) ∧ t.mgt.fatalPending ≠ []) ∧
  (∀ (p : Port) (n : Line) (c : Int) (s : State), running s = true → portUp (s.port[p]) = true → (passMask s p).getLsbD n.val = false →
      ∃ t, exec (.rxPowerWarning p n c) s = .next t ∧ ((t.port[p]).line[n]).rxPower = some c ∧
        (((t.port[p]).line[n]).lowReported.getLsbD 0 = (receiverOn s p n && decide (c < -850))) ∧ (t.port[p]).state = (s.port[p]).state)

/-- The instructions between phases (R106, R108, R110, Table 4.3): NOP, SETLC, SELECT, BRANCH, CALL, RETURN and HALT do what the table says. -/
def Obligations.SequencerControlFlow : Prop :=
  (∀ s : State, atWord .anywhere (instrWord 0x00 []) s → s.ctl.phase = 1 →
      ∃ t, exec .nop s = .next t ∧ (actUnit t).pc = (actUnit s).pc + 1 ∧ t.ctl = s.ctl ∧ (actUnit t).v = (actUnit s).v ∧ (actUnit t).lc = (actUnit s).lc) ∧
  (∀ (c : Fin 8) (v : Word) (s : State), atWord .between (instrWord 0x0B [(c.val, 48), (v.toNat, 0)]) s →
      ∃ t, exec (.setlc c v) s = .next t ∧ (actUnit t).pc = (actUnit s).pc + 1 ∧ (actUnit t).lc[c] = v ∧
        (∀ k : Fin 8, k ≠ c → (actUnit t).lc[k] = (actUnit s).lc[k]) ∧ (actUnit t).v = (actUnit s).v ∧ t.ctl = s.ctl) ∧
  (∀ (n : Fin 16) (imm : Byte) (g : BitVec 16) (s : State), atWord .between (instrWord 0x0C [(0, 52), (n.val, 48), (imm.toNat, 40), (g.toNat, 0)]) s →
      betweenAt s g.toNat = true →
      ∃ t, exec (.branch 0 n imm g) s = .next t ∧ (actUnit t).pc = g ∧ (actUnit t).lc = (actUnit s).lc ∧ t.ctl = s.ctl) ∧
  (∀ (c : Fin 8) (n : Fin 16) (imm : Byte) (g : BitVec 16) (s : State), c.val = n.val →
      atWord .between (instrWord 0x0C [(1, 52), (n.val, 48), (imm.toNat, 40), (g.toNat, 0)]) s → betweenAt s g.toNat = true →
      ∃ t, exec (.branch 1 n imm g) s = .next t ∧
        ((actUnit s).lc[c] = 0 → (actUnit t).pc = (actUnit s).pc + 1 ∧ (actUnit t).lc = (actUnit s).lc) ∧
        ((actUnit s).lc[c] ≠ 0 → (actUnit t).pc = g ∧ (actUnit t).lc[c] = (actUnit s).lc[c] - 1)) ∧
  (∀ (n : Fin 16) (imm : Byte) (g : BitVec 16) (s : State), atWord .between (instrWord 0x0C [(2, 52), (n.val, 48), (imm.toNat, 40), (g.toNat, 0)]) s →
      betweenAt s g.toNat = true →
      ∃ t, exec (.branch 2 n imm g) s = .next t ∧ (actUnit t).pc = if (actUnit s).v[n] = imm then g else (actUnit s).pc + 1) ∧
  (∀ (w : Fin 32) (id : BitVec 16) (s : State), atWord .between (instrWord 0x0D [(w.val, 48), (id.toNat, 32)]) s → (segOf s id).isSome = true →
      (actUnit s).stack.length < 4 → ((actUnit s).window[w]).map (·.id) = some id →
      ∃ t, exec (.call w id) s = .next t ∧ pcOf t = windowBase w.val ∧ (actUnit t).stack = ((actUnit s).pc + 1) :: (actUnit s).stack) ∧
  (∀ (w : Fin 32) (id : BitVec 16) (s : State), atWord .between (instrWord 0x0D [(w.val, 48), (id.toNat, 32)]) s → (segOf s id).isSome = true →
      (actUnit s).stack.length < 4 → ((actUnit s).window[w]).map (·.id) ≠ some id →
      ∃ t, exec (.call w id) s = .next t ∧ t.ctl.phase = 3 ∧ t.ctl.fetching = some (.segment id w) ∧ FetchItem.segment id w ∈ t.ctl.fetches ∧
        (actUnit t).pc = (actUnit s).pc ∧ (actUnit t).stack = (actUnit s).stack) ∧
  (∀ (i : BitVec 16) (r : List (BitVec 16)) (s : State), atWord .between (instrWord 0x0E []) s → (actUnit s).stack = i :: r →
      ∃ t, exec .ret s = .next t ∧ (actUnit t).pc = i ∧ (actUnit t).stack = r) ∧
  (∀ s : State, atWord .between (instrWord 0x0F []) s → s.img.penumbra = [] →
      ∃ t, exec .halt s = .next t ∧ t.ctl.phase = 0 ∧ t.ctl.serial = s.ctl.serial ∧ t.sq.event = setBit s.sq.event 7) ∧
  (∀ (n : Fin 16) (k : BitVec 12) (h : Word) (f : FamilyRec) (i : Image) (l : Loc) (words : List (Nat × WordError)) (s u : State),
      atWord .between (instrWord 0x07 [(n.val, 52), (k.toNat, 40), (h.toNat, 0)]) s → s.img.image = some i → i.families[k.toNat]? = some f →
      selectBad n k h s = none → bufLoc s h.toNat 0 (intBytes f.histFmt * f.e) = some l → u = locReads l (intBytes f.histFmt * f.e) words s →
      locPoison u l (intBytes f.histFmt * f.e) = none →
      ∃ t, exec (.select n k h words) s = .next t ∧ (actUnit t).v[n] = selectVariant i f (histCounts u l f.histFmt f.e) ∧
        t.pln.selFamily = k ∧ t.pln.selVariant = (actUnit t).v[n] ∧ (actUnit t).pc = (actUnit s).pc + 1)

/-- A phase opens and collects its waits (R113, R114, Tables 4.3, 4.6): PHASE and WAIT enter and leave Waiting, and SWITCH is resolved when it ends.
-/
def Obligations.PhaseOpensAndWaits : Prop :=
  (∀ (b : Bool) (id : Word) (s : State), atWord .between (instrWord 0x01 [(b2n b, 48), (id.toNat, 0)]) s → s.img.penumbra = [] →
      ∃ t, exec (.phase b id) s = .next t ∧ t.ctl.barrier = b ∧ t.ctl.phaseId = id ∧ t.ctl.waits = [] ∧ t.ctl.watchdog = true ∧
        t.ctl.commit_ = none ∧ t.ctl.serial = s.ctl.serial ∧ (t.ctl.phase = 2 ∨ t.ctl.phase = 4) ∧ (actUnit t).pc = (actUnit s).pc + 1) ∧
  (∀ (kind : BitVec 4) (x : Bool) (slot : BitVec 12) (count : Byte) (site : BitVec 3) (s : State),
      atWord .waits (instrWord 0x02 [(kind.toNat, 52), (b2n x, 48), (slot.toNat, 36), (count.toNat, 28), (site.toNat, 25)]) s →
      waitBad kind x count site s = none → s.ctl.switch_ = none → s.img.penumbra = [] →
      ∃ t, exec (.wait kind x slot count site) s = .next t ∧
        t.ctl.waits = s.ctl.waits ++ [{ kind := kind, exempt := x, slot := slot.toNat, count := count.toNat, site := site.toNat }] ∧
        (slotCount s.ctl slot.toNat < count.toNat → t.ctl.phase = 2) ∧ (actUnit t).pc = (actUnit s).pc + 1) ∧
  (∀ (i : Nat) (va ex : Bool) (n : Fin 16) (id : BitVec 16) (s : State), running s = true → phaseReady s = true → phaseSwitch s = some i →
      schedWord s i = some (instrWord 0x03 [(b2n va + 2 * b2n ex, 48), (n.val, 44), (id.toNat, 16)]) →
      switchBad s (instrWord 0x03 [(b2n va + 2 * b2n ex, 48), (n.val, 44), (id.toNat, 16)]) none = none →
      storePlan s (switchPlan s (instrWord 0x03 [(b2n va + 2 * b2n ex, 48), (n.val, 44), (id.toNat, 16)])) = none →
      switchNoop s (switchPlan s (instrWord 0x03 [(b2n va + 2 * b2n ex, 48), (n.val, 44), (id.toNat, 16)])) = true →
      ∃ t, exec (.switch va ex n id) s = .next t ∧ t.ctl.phase = 4 ∧ t.ctl.switch_ = some i ∧ t.pln = s.pln ∧ t.port = s.port) ∧
  (∀ (i : Nat) (va ex : Bool) (n : Fin 16) (id : BitVec 16) (s : State), running s = true → phaseReady s = true → phaseSwitch s = some i →
      schedWord s i = some (instrWord 0x03 [(b2n va + 2 * b2n ex, 48), (n.val, 44), (id.toNat, 16)]) →
      switchBad s (instrWord 0x03 [(b2n va + 2 * b2n ex, 48), (n.val, 44), (id.toNat, 16)]) none = none →
      storePlan s (switchPlan s (instrWord 0x03 [(b2n va + 2 * b2n ex, 48), (n.val, 44), (id.toNat, 16)])) = none →
      switchNoop s (switchPlan s (instrWord 0x03 [(b2n va + 2 * b2n ex, 48), (n.val, 44), (id.toNat, 16)])) = false →
      (pagedPlan s (switchPlan s (instrWord 0x03 [(b2n va + 2 * b2n ex, 48), (n.val, 44), (id.toNat, 16)]))).isSome = true →
      ∃ t, exec (.switch va ex n id) s = .next t ∧ t.ctl.phase = 3 ∧ t.ctl.switch_ = some i ∧ t.ctl.fetching.isSome = true ∧ t.port = s.port) ∧
  (∀ (i : Nat) (va ex : Bool) (n : Fin 16) (id : BitVec 16) (r : PlanRec) (s : State), running s = true → phaseReady s = true → phaseSwitch s = some i →
      schedWord s i = some (instrWord 0x03 [(b2n va + 2 * b2n ex, 48), (n.val, 44), (id.toNat, 16)]) →
      switchBad s (instrWord 0x03 [(b2n va + 2 * b2n ex, 48), (n.val, 44), (id.toNat, 16)]) (some r) = none →
      storePlan s (switchPlan s (instrWord 0x03 [(b2n va + 2 * b2n ex, 48), (n.val, 44), (id.toNat, 16)])) = some r →
      ∃ t, exec (.switch va ex n id) s = .next t ∧ t.ctl.phase = 4 ∧ t.ctl.switch_ = some i ∧
        ∀ p : Port, (t.port[p]).switchQ = (s.port[p]).switchQ ++
          (if r.planId = planAhead s then [] else [portSwitch s r p])) ∧
  (∀ (k : FetchItem) (words : List (Nat × WordError)) (s : State), running s = true → k ∈ s.ctl.fetches → fetchPoison k s = none →
      (∀ w, w ∈ words → w.2 = .none ∨ w.2 = .oneNibble) → s.ctl.phase ≠ 3 →
      ∃ t, exec (.fetchComplete k words) s = .next t ∧ k ∉ t.ctl.fetches ∧ t.ctl.phase = s.ctl.phase ∧
        match k with
        | .plan id j => (t.pln.slots[j]).state = 1 ∧ (t.pln.slots[j]).planId = id
        | .segment id w => (actUnit t).window[w] = (segOf s id).map fun r => { id := id, words := segInstrs s r }) ∧
  (∀ (k : FetchItem) (s : State), running s = true → k ∈ s.ctl.fetches → (fetchPoison k s).isSome = true → s.img.image.isSome = true →
      abortable s.ctl.phase = true → s.img.penumbra = [] →
      ∃ t, exec (.fetchComplete k []) s = .next t ∧ k ∉ t.ctl.fetches ∧ t.ctl.phase = 7) ∧
  (∀ (g : Bool) (id : BitVec 16) (slot : Byte) (s : State), atWord .anywhere (instrWord 0x08 [(b2n g, 48), (id.toNat, 32), (slot.toNat, 24)]) s →
      prefetchBad g id slot s = none → s.ctl.phase = 1 →
      ∃ t, exec (.prefetch g id slot) s = .next t ∧
        (if g then FetchItem.segment id (fin! 32 slot.toNat) else .plan id (fin! 129 slot.toNat)) ∈ t.ctl.fetches ∧
        t.ctl.phase = 1 ∧ (actUnit t).pc = (actUnit s).pc + 1)

/-- The body of a phase and its commit (R101 to R104, R106, R112, Table 4.4): ISSUE, TOKEN, NOTIFY and HINT record what the commit needs, tokens of
the epoch count, a code error corrected while an operation runs leaves its end as it is and an uncorrectable one aborts the epoch (R164), and COMMIT
with no operation outstanding and no standby in sync advances the serial by 1 and the epoch at a barrier. -/
def Obligations.PhaseBodyAndCommit : Prop :=
  (∀ (n : Byte) (g : BitVec 16) (ws : List DWord) (s : State), atWord .body (instrWord 0x04 [(n.toNat, 48), (g.toNat, 32)]) s → 0 < n.toNat →
      n.toNat ≤ 64 → issueWords s n.toNat = some ws → descrFits n.toNat g.toNat ws = true →
      descrSound (ws.map (·.toNat)) = true →
      ∃ t, exec (.issue n g) s = .next t ∧ t.ctl.ops = s.ctl.ops ++ [{ target := g.toNat, words := ws }] ∧ t.ctl.phase = 4 ∧
        (s.ctl.switch_ = none → (actUnit t).pc = (actUnit s).pc + 1 + n.setWidth 16)) ∧
  (∀ (k : BitVec 4) (b : Beam) (slot : BitVec 12) (s : State), atWord .body (instrWord 0x05 [(k.toNat, 52), (b.val, 44), (slot.toNat, 32)]) s →
      k = 2 ∨ k = 3 → beamUsed s b = true → beamInPlan s b = true →
      ∃ t, exec (.token k b slot) s = .next t ∧ t.ctl.tokens = s.ctl.tokens ++ [(k.toNat, b.val, slot.toNat)] ∧ t.beam = s.beam) ∧
  (∀ (x : SiteIx) (slot : BitVec 12) (s : State), atWord .body (instrWord 0x06 [(x.val, 52), (slot.toNat, 40)]) s →
      ∃ t, exec (.notify x slot) s = .next t ∧ t.ctl.notifies = s.ctl.notifies ++ [(x.val, slot.toNat)] ∧ t.site = s.site) ∧
  (∀ (op : Fin 8) (l h : Byte) (s : State), atWord .anywhere (instrWord 0x09 [(op.val, 48), (l.toNat, 40), (h.toNat, 32)]) s → h ≠ 0 →
      ∃ t, exec (.hint op l h) s = .next t ∧
        (op.val, (s.ctl.serial.toNat + 1 + l.toNat + h.toNat) % 2 ^ 32) ∈ t.pwr.hints ∧ t.ctl.serial = s.ctl.serial) ∧
  (∀ (w : DWord) (s : State), running s = true → (wbits w 63 60 = 2 ∨ wbits w 63 60 = 3) → w32 (wbits w 31 0) = s.ctl.epoch →
      s.img.penumbra = [] →
      ∃ t, exec (.tokenArrival w) s = .next t ∧
        t.ctl.bank = bankAdd (wbits w 59 48) (BitVec.ofNat 8 (wbits w 47 40)) s.ctl.bank ∧ t.ctl.serial = s.ctl.serial) ∧
  (∀ (k : Nat) (codes : List CeCode) (words : List HbmRead) (s : State), running s = true → s.ctl.phase = 4 → opFinished s k = true →
      s.ctl.commit_ = none → (∀ c, c ∈ codes → c.uncorrectable = false) →
      (∀ r, r ∈ words → r.word ∉ s.hbm.poison ∧ (r.err = .none ∨ r.err = .oneNibble)) →
      ∃ t, exec (.operationDone k codes words) s = .next t ∧ (t.ctl.ops[k]?).map (·.done) = some true ∧ t.ctl.phase = 4 ∧
        t.ctl.serial = s.ctl.serial ∧ t.hbm.mem = s.hbm.mem) ∧
  (∀ (k : Nat) (c : CeCode) (s : State), running s = true → s.ctl.phase = 4 → opFinished s k = true → s.img.image.isSome = true →
      c.uncorrectable = true → c.missed = false → s.img.penumbra = [] →
      ∃ t, exec (.operationDone k [c] []) s = .next t ∧ t.ctl.phase = 7 ∧ t.ce.errInfo = (ceKind c.mem, c.unit, c.address) ∧
        t.ce.event.getLsbD 3 = true ∧ t.ce.epoch = s.ce.epoch + 1 ∧ t.ctl.serial = s.ctl.serial) ∧
  (∀ (e : Bool) (s : State), atWord .body (instrWord 0x0A [(b2n e, 48)]) s → s.ctl.commit_ = none → opsDone s = false →
      ∃ t, exec (.commit e) s = .next t ∧ t.ctl.phase = 4 ∧ t.ctl.commit_ = some e ∧ t.ctl.serial = s.ctl.serial ∧ (actUnit t).v[(15 : Fin 16)] = v15 s) ∧
  (∀ (e : Bool) (s : State), atWord .body (instrWord 0x0A [(b2n e, 48)]) s → s.ctl.commit_ = none → opsDone s = true → inSync s = true →
      ∃ t, exec (.commit e) s = .next t ∧ t.ctl.phase = 5 ∧ t.ctl.serial = s.ctl.serial ∧ t.sq.sent.isSome = true) ∧
  (∀ (e : Bool) (s : State), atWord .body (instrWord 0x0A [(b2n e, 48)]) s → s.ctl.commit_ = none → opsDone s = true → inSync s = false →
      s.img.penumbra = [] →
      ∃ t, exec (.commit e) s = .next t ∧ t.ctl.serial = s.ctl.serial + 1 ∧ (t.ctl.phase = 1 ∨ t.ctl.phase = 6) ∧
        t.ctl.epoch = (if s.ctl.barrier then s.ctl.epoch + 1 else s.ctl.epoch))

/-- The Mirror link, heartbeats and the phase watchdog (R114, R119, R120, R122): an intact record is pending and acknowledged, the acknowledgement
commits a sealed phase or ends a resync, a record not acknowledged goes once more and then the standby is stale, and an expired watchdog aborts the
epoch, during a takeover once that is complete. -/
def Obligations.MirrorLinkAndWatchdog : Prop :=
  (∀ (r : MirrorRec) (a : Bool) (v : Vector CodeResult 8) (s : State), running s = true → s.sq.sent = some (r, a) → mirrorOn s = true → s.sq.ackDue = false →
      CodeResult.uncorrectable ∉ v.toList →
      ∃ t, exec (.mirrorRecord v) s = .next t ∧ (t.sq.unit[standby s]).pending.isSome = true ∧ t.sq.ackDue = true ∧ t.ctl = s.ctl ∧
        ((∀ c, c ∈ v.toList → c = .clean ∨ c = .corrected) → (t.sq.unit[standby s]).pending = some r)) ∧
  (∀ s : State, running s = true → s.sq.ackDue = true → s.ctl.phase ≠ 5 →
      ∃ t, exec .mirrorAck s = .next t ∧ t.sq.sent = none ∧ t.sq.ackDue = false ∧ t.ctl = s.ctl) ∧
  (∀ s : State, running s = true → s.sq.ackDue = true → s.ctl.phase = 5 → inSync s = true → s.img.penumbra = [] →
      ∃ t, exec .mirrorAck s = .next t ∧ t.ctl.serial = s.ctl.serial + 1 ∧ (t.ctl.phase = 1 ∨ t.ctl.phase = 6) ∧
        t.ctl.epoch = (if s.ctl.barrier then s.ctl.epoch + 1 else s.ctl.epoch)) ∧
  (∀ s : State, running s = true → s.sq.ackDue = true → s.ctl.phase ≠ 5 → (s.sq.unit[standby s]).state = .resyncing → s.sq.sealed = true →
      ∃ t, exec .mirrorAck s = .next t ∧ (t.sq.unit[standby s]).state = .inSync ∧
        (t.sq.unit[standby s]).confirmed = (s.sq.unit[standby s]).pending ∧ t.sq.event = setBit s.sq.event 3) ∧
  (∀ (r : MirrorRec) (s : State), running s = true → s.sq.sent = some (r, false) → mirrorOn s = true →
      ∃ t, exec .mirrorAckTimeout s = .next t ∧ t.sq.sent = some (r, true) ∧ t.sq.unit = s.sq.unit ∧ t.ctl = s.ctl) ∧
  (∀ (r : MirrorRec) (s : State), running s = true → s.sq.sent = some (r, true) → mirrorOn s = true → s.ctl.phase ≠ 5 →
      ∃ t, exec .mirrorAckTimeout s = .next t ∧ t.sq.sent = none ∧ (t.sq.unit[standby s]).state = .stale ∧ t.sq.event = setBit s.sq.event 2 ∧
        t.sq.active = s.sq.active ∧ t.ctl = s.ctl) ∧
  (∀ s : State, running s = true → s.ctl.watchdog = true → (s.ctl.phase = 2 → watchdogPaused s = false) → abortable s.ctl.phase = true →
      s.img.image.isSome = true → s.sq.fence = none → s.img.penumbra = [] →
      ∃ t, exec .phaseWatchdogExpiry s = .next t ∧ t.sq.wdog = s.ctl.phaseId ∧ t.ctl.phase = 7 ∧ t.ctl.serial = s.ctl.serial ∧
        t.sq.event = setBit (setBit s.sq.event 5) 10) ∧
  (∀ (f : Fence) (s : State), running s = true → s.ctl.watchdog = true → s.ctl.phase = 8 → s.sq.fence = some f →
      ∃ t, exec .phaseWatchdogExpiry s = .next t ∧ t.sq.wdog = s.ctl.phaseId ∧ t.ctl.phase = 8 ∧
        t.sq.fence = some { f with abortAfter := true } ∧ t.sq.event = setBit s.sq.event 5) ∧
  (∀ (u : SqUnit) (s : State), running s = true → watched s (unitIx u) = true →
      ∃ t, exec (.heartbeatSend u) s = .next t ∧ t.sq.beatAt[unitIx u] = s.time ∧ t.sq.unit = s.sq.unit)

/-- Fail-over (R122 to R126, Tables 4.8 and 4.9): a failed active sequencer is fenced and its standby in sync takes over from its record with no
serial lost, a failed unit goes through self-test and resync, which copies the active's stores, and its cause is recorded. -/
def Obligations.SequencerFailOver : Prop :=
  (∀ (u : SqUnit) (s : State), running s = true → (s.sq.unit[unitIx u]).state = .active → s.sq.active = unitIx u → inSync s = true →
      phaseQuiet s.ctl.phase = false → s.sq.beatAt[unitIx u] < s.time →
      ∃ t, exec (.heartbeatTimeout u) s = .next t ∧ t.ctl.phase = 8 ∧ t.sq.fence = some { failed := unitIx u, from_ := s.ctl.phase } ∧
        (t.sq.unit[unitIx u]).state = .failed ∧ (t.sq.unit[unitIx u]).cause = 1 ∧ t.ctl.serial = s.ctl.serial) ∧
  (∀ (u : SqUnit) (s : State), running s = true → (s.sq.unit[unitIx u]).state = .active → s.sq.active = unitIx u → inSync s = true →
      phaseQuiet s.ctl.phase = false →
      ∃ t, exec (.sequencerFailureSignal u .store) s = .next t ∧ t.ctl.phase = 8 ∧ (t.sq.unit[unitIx u]).state = .failed ∧
        (t.sq.unit[unitIx u]).cause = 2) ∧
  (∀ (u : SqUnit) (s : State), running s = true →
      ∃ t, exec (.sequencerFailureSignal u .corrected) s = .next t ∧ t.ctl = s.ctl ∧ t.sq = s.sq ∧ t.err.log.head?.map (·.code) = some 0x0100) ∧
  (∀ (u : SqUnit) (s : State), running s = true → abortable s.ctl.phase = true → s.img.image.isSome = true → s.img.penumbra = [] →
      ∃ t, exec (.sequencerFailureSignal u .controlRoot) s = .next t ∧ t.ctl.phase = 7 ∧ t.sq.unit = s.sq.unit ∧ t.ctl.serial = s.ctl.serial) ∧
  (∀ (f : Fence) (s : State), running s = true → s.sq.fence = some f → s.ctl.phase = 8 → f.failed = s.sq.active →
      (s.sq.unit[otherUnit f.failed]).state = .inSync → s.img.penumbra = [] → f.abortAfter = false →
      ∃ t, exec .fenceAcknowledged s = .next t ∧ t.sq.active = otherUnit f.failed ∧ (t.sq.unit[otherUnit f.failed]).state = .active ∧ t.sq.fence = none ∧
        t.ctl.serial = s.ctl.serial ∧ t.ctl.phase = afterFence f.from_ s ∧ t.sq.event.getLsbD 0 = true ∧
        t.ctl.attempt = if (chosenRecord (s.sq.unit[otherUnit f.failed]) s.ctl.serial).2 then s.ctl.attempt else s.ctl.attempt + 1) ∧
  (∀ (f : Fence) (s : State), running s = true → s.sq.fence = some f → s.ctl.phase = 8 → f.failed = s.sq.active →
      (s.sq.unit[otherUnit f.failed]).state = .inSync → s.img.penumbra = [] → f.abortAfter = true → s.img.image.isSome = true →
      ∃ t, exec .fenceAcknowledged s = .next t ∧ t.sq.active = otherUnit f.failed ∧ (t.sq.unit[otherUnit f.failed]).state = .active ∧ t.sq.fence = none ∧
        t.ctl.phase = 7) ∧
  (∀ (u : SqUnit) (s : State), running s = true → (s.sq.unit[unitIx u]).state = .selfTest →
      ∃ t, exec (.selfTestComplete u true) s = .next t ∧ (t.sq.unit[unitIx u]).state = (if anyActive s then .resyncing else .stale) ∧ t.ctl = s.ctl) ∧
  (∀ (u : SqUnit) (s : State), running s = true → (s.sq.unit[unitIx u]).state = .selfTest →
      ∃ t, exec (.selfTestComplete u false) s = .next t ∧ (t.sq.unit[unitIx u]).state = .keptOut ∧ (t.sq.unit[unitIx u]).cause = 4 ∧
        t.sq.event = setBit s.sq.event 4) ∧
  (∀ s : State, running s = true → anyActive s = true → (s.sq.unit[standby s]).state = .stale →
      ∃ t, exec .resyncTimer s = .next t ∧ (t.sq.unit[standby s]).state = .resyncing ∧ t.sq.epoch = s.sq.epoch + 1) ∧
  (∀ s : State, running s = true → anyActive s = true → (s.sq.unit[standby s]).state = .resyncing →
      ∃ t, exec .resyncCopyDone s = .next t ∧ t.sq.copied = true ∧ (t.sq.unit[standby s]).state = .resyncing ∧
        (t.sq.unit[standby s]).program = (actUnit s).program ∧ (t.sq.unit[standby s]).window = (actUnit s).window ∧
        (t.sq.unit[standby s]).plans = (actUnit s).plans ∧ actUnit t = actUnit s)

/-- SQ_RESUME and SQ_CMD (R116, R117, R128, R129): a resume starts after the barrier of its restart point in the epoch of SQ_RESUME_EPOCH, a release
ends a hold, and a command that names the state epoch and fits the unit's state is carried out with result 1. -/
def Obligations.SequencerResumeAndCommands : Prop :=
  (∀ (v : Word) (r : RestartRec) (s : State), hostOn s → rsvBad s 0x9002C v = false → bit v 31 = true → bit v 30 = false →
      goRefused s (BitVec.ofNat 16 (fld v 15 0)) = false → restartById s (BitVec.ofNat 16 (fld v 15 0)) = some r → s.ctl.arm = none →
      ∃ t, exec (.sqResumeGo v) s = .next t ∧ t.ctl.phase = 1 ∧ (actUnit t).pc = BitVec.ofNat 16 (r.index + 1) ∧ t.ctl.epoch = s.sq.resumeEpoch ∧
        (actUnit t).stack = [] ∧ t.ctl.serial = s.ctl.serial ∧ t.sq.cmd = (0x10, false, 1)) ∧
  (∀ (v : Word) (s : State), hostOn s → rsvBad s 0x9002C v = false → bit v 31 = true → bit v 30 = false →
      goRefused s (BitVec.ofNat 16 (fld v 15 0)) = true →
      ∃ t, exec (.sqResumeGo v) s = .next t ∧ t.ctl = s.ctl ∧ t.sq.cmd = (0x10, false, 3)) ∧
  (∀ (v : Word) (s : State), hostOn s → rsvBad s 0x9002C v = false → bit v 31 = false → bit v 30 = true → s.ctl.phase = 6 → s.img.copying = false →
      applyReady s = false → partHeld s = false → s.sq.fence = none → s.img.penumbra = [] →
      ∃ t, exec (.sqResumeRelease v) s = .next t ∧ t.ctl.phase = 1 ∧ t.ctl.heldAt = none ∧ t.sq.cmd = (0x11, false, 1)) ∧
  (∀ s : State, hostOn s → (actUnit s).state = .active → inSync s = true → phaseQuiet s.ctl.phase = false →
      ∃ t, exec (.sqCmdForceFailover s.sq.epoch) s = .next t ∧ t.ctl.phase = 8 ∧ (t.sq.unit[s.sq.active]).state = .failed ∧
        (t.sq.unit[s.sq.active]).strikes = (s.sq.unit[s.sq.active]).strikes ∧ t.sq.cmd = (1, false, 1)) ∧
  (∀ s : State, hostOn s → anyActive s = true → (s.sq.unit[standby s]).state = .stale →
      ∃ t, exec (.sqCmdResyncStandby s.sq.epoch) s = .next t ∧ (t.sq.unit[standby s]).state = .resyncing ∧ t.sq.cmd = (2, false, 1)) ∧
  (∀ s : State, hostOn s → inSync s = true → standby s = s.sq.primary → s.ctl.phase ≠ 8 →
      ∃ t, exec (.sqCmdTakeBackNow s.sq.epoch) s = .next t ∧ t.sq.takebackNow = true ∧ t.sq.cmd = (3, false, 1) ∧ t.sq.unit = s.sq.unit) ∧
  (∀ s : State, hostOn s → s.sq.fence = none → s.ctl.phase ≠ 5 → canKeepOut (s.sq.unit[standby s]).state = true →
      ∃ t, exec (.sqCmdKeepStandbyOut s.sq.epoch) s = .next t ∧ (t.sq.unit[standby s]).state = .keptOut ∧ t.sq.cmd = (4, false, 1) ∧
        t.sq.event = setBit s.sq.event 9) ∧
  (∀ (f : Fence) (s : State), hostOn s → s.sq.fence = some f → f.failed = s.sq.active → inSync s = true → s.img.penumbra = [] →
      ∃ t, exec (.sqCmdKeepStandbyOut s.sq.epoch) s = .next t ∧ (t.sq.unit[standby s]).state = .keptOut ∧ t.ctl.phase = 10 ∧
        t.sq.cmd = (4, false, 1)) ∧
  (∀ s : State, hostOn s → (s.sq.unit[standby s]).state = .keptOut →
      ∃ t, exec (.sqCmdReadmit s.sq.epoch) s = .next t ∧ (t.sq.unit[standby s]).state = .selfTest ∧ t.sq.cmd = (5, false, 1)) ∧
  (∀ (e : BitVec 16) (s : State), hostOn s → e ≠ s.sq.epoch →
      ∃ t, exec (.sqCmdForceFailover e) s = .next t ∧ t.sq.unit = s.sq.unit ∧ t.ctl = s.ctl ∧ t.sq.cmd = (1, false, 2) ∧ t.sq.event = setBit s.sq.event 8)

/-- GATE (R139 to R142): with its inputs there, it scores, chooses and stages one route-result row a token, or, with a bias update, leaves the new
biases to the commit. -/
def Obligations.GateRoutesTokens : Prop :=
  (∀ (k : Nat) (o : OpSt) (p : List GateRec) (g : GateRec) (ins : List (List Byte)) (s : State), opIssued k 0x10 o s → gateProg s o = some p →
      gateBad s o = none → gateOp p 3 = some g → gateOp p 5 = none → gateOp p 6 = none → inputsReady (gateInputs o p) ins s →
      inMemory (opBits o 1 31 0) →
      ∃ t, exec (.gate k) s = .next t ∧ opEnded k t ∧ t.ce.bias = s.ce.bias ∧ t.ctl.outputs = s.ctl.outputs ++ [(opBits o 1 31 0, 0,
        (List.zipWith (routeRow g.a s.fresh (gateOp p 4))
          ((gateScores o p ins s.fresh).map (activate ((gateOp p 2).elim 0 fun a => a.flags % 4)))
          (gateChoice s o g ((gateScores o p ins s.fresh).map (activate ((gateOp p 2).elim 0 fun a => a.flags % 4))))).flatten)]) ∧
  (∀ (k : Nat) (o : OpSt) (p : List GateRec) (g : GateRec) (b : List Byte) (s : State), opIssued k 0x10 o s → gateProg s o = some p →
      gateBad s o = none → gateOp p 1 = none → gateOp p 3 = none → gateOp p 5 = none → gateOp p 6 = some g →
      inputsReady (gateInputs o p) [b] s →
      ∃ t, exec (.gate k) s = .next t ∧ opEnded k t ∧ t.ctl.outputs = s.ctl.outputs ∧ t.ce.bias = s.ce.bias ∧
        t.ce.pend.bias.length = s.ce.pend.bias.length + gateE o)

/-- DISPATCH and COMBINE (R144 to R158): a DISPATCH with its inputs there records its copies under its dispatch record; in mode 1 it opens its window
area and, when it acts, queues its tentative records. Copies beyond the quota stay in the overflow region, and an overflow slot sends those of earlier
slots. A COMBINE whose returns are all there stages its rows and completion list and keeps the sums of tokens with copies still parked; one with a
return missing goes on waiting. -/
def Obligations.DispatchAndCombineRun : Prop :=
  (∀ (k : Nat) (o : OpSt) (s : State), opIssued k 0x20 o s → dispatchBad s o = none → dispMode o = 1 → aheadOn s = false →
      ∃ t, exec (.dispatch k) s = .next t ∧ opEnded k t ∧ t.ce.area = some (windowArea o) ∧ t.ce.queue = s.ce.queue ∧ t.beam = s.beam) ∧
  (∀ (k : Nat) (o : OpSt) (tok rr : List Byte) (l : List (Nat × Nat × PlaceRec)) (s : State), opIssued k 0x20 o s → dispatchBad s o = none →
      dispMode o = 1 → aheadOn s = true → inputsReady (dispInputs o) [tok, rr] s →
      predictedCopies s o (choices (opCount o) (opBits o 2 31 27) rr) (List.range (opCount o)) = .ok l →
      (∀ e ∈ tentatives s o tok l [], beamInPlan s e.beam = true) →
      ∃ t, exec (.dispatch k) s = .next t ∧ opEnded k t ∧ t.ce.area = some (windowArea o) ∧
        t.ce.queue = s.ce.queue ++ tentatives s o tok l [] ∧ t.beam = s.beam) ∧
  (∀ (k : Nat) (o : OpSt) (tok rr : List Byte) (h : Nat) (fresh final stay : List Copy) (s : State), opIssued k 0x20 o s → dispatchBad s o = none →
      dispMode o ≠ 1 → h = opBits o 3 63 32 → inputsReady (dispInputs o) [tok, rr] s →
      formCopies s o tok (choices (opCount o) (opBits o 2 31 27) rr) [] = .ok fresh →
      final = (overflowSplit s o).1 ++ fresh.filter (!·.parked) → stay = (overflowSplit s o).2 ++ fresh.filter (·.parked) →
      (h = noHandle → ∀ c ∈ fresh, c.parked = false) → (h ≠ noHandle → (opFlag o 2 = true → overflowPoison s h = none) ∧
        overflowUse { s with ce := { s.ce with parkedAt := aput s.ce.parkedAt h stay } } h ≤ overflowSize s h) →
      (∀ c ∈ final, c.here = false → beamInPlan s c.beam = true) → (∀ e ∈ startedAhead o s, beamInPlan s e.beam = true) →
      inMemory (opBits o 1 31 0) → inMemory (opBits o 3 31 0) → inMemory (opBits o 4 63 32) →
      ∃ t, exec (.dispatch k) s = .next t ∧ opEnded k t ∧
        aget t.ce.pend.disp (opBits o 3 31 0) = some (((overflowSplit s o).1 ++ fresh).map fun c => { c with data := [] }) ∧
        aget t.ce.pend.lists (opBits o 4 31 0) = some (localArrivals s o final) ∧ (h ≠ noHandle → aget t.ce.pend.parked h = some stay) ∧
        (opBits o 1 31 0, 0, routeFlags (startedAhead o s) rr fresh) ∈ t.ctl.outputs ∧ t.ce.disp = s.ce.disp) ∧
  (∀ (k : Nat) (o : OpSt) (ins : List (List Byte)) (s : State), opIssued k 0x21 o s → combineBad s o = none → inputsReady (combInputs s o) ins s →
      ((∃ c ∈ combCopies s o, c.old = true) → overflowPoison s (opBits o 4 63 32) = none) →
      (∀ e ∈ combList s o, ∀ b, e.beam = some b → beamInPlan s b = true) →
      o.final = false → (∃ c ∈ combCopies s o, c.parked = false ∧ ∀ e ∈ returnsIn k o (nth ins 1 []) s, e.1 ≠ c) →
      ∃ t, exec (.combine k) s = .next t ∧ opGoesOn k t ∧ t.ctl.outputs = s.ctl.outputs ∧ t.ce = s.ce) ∧
  (∀ (k : Nat) (o : OpSt) (ins : List (List Byte)) (ts : List TokenSum) (h : Nat) (s : State), opIssued k 0x21 o s → combineBad s o = none →
      inputsReady (combInputs s o) ins s → ((∃ c ∈ combCopies s o, c.old = true) → overflowPoison s (opBits o 4 63 32) = none) →
      (∀ e ∈ combList s o, ∀ b, e.beam = some b → beamInPlan s b = true) → h = opBits o 4 63 32 →
      (∀ c ∈ combCopies s o, c.parked = false → ∃ e ∈ returnsIn k o (nth ins 1 []) s, e.1 = c) →
      ts = tokenSums s o (nth ins 0 []) (returnsIn k o (nth ins 1 []) s) → ((∃ x ∈ ts, x.later = true) →
        h ≠ noHandle ∧ overflowUse { s with ce := { s.ce with sums := sumsAfter s o ts } } h ≤ overflowSize s h) →
      inMemory (opBits o 3 63 32) → inMemory (opBits o 3 31 0) →
      ∃ t, exec (.combine k) s = .next t ∧ opEnded k t ∧ t.ce.pend.sums = some (sumsAfter s o ts) ∧
        (opBits o 3 31 0, 0, completionBytes (completed (opCount o) ts 0)) ∈ t.ctl.outputs ∧
        ∀ e ∈ completed (opCount o) ts 0, (opBits o 3 63 32, e.2 * stride64 (rowBytes (collOut o) (opBits o 4 15 0)),
          sumRow (opFlag o 0) (collOut o) (opBits o 4 15 0) e.1.sum) ∈ t.ctl.outputs)

/-- Records received (R112, R147, R148, R154, R156): a complete record of its type is admitted once to the operation that takes it (a record that its
sender's re-executed phase sends again is dropped, and one with the header of another record that the operation has taken under another attempt waits
for its own operation), a tentative record enters its window entry, and a marker resolves the entry it names. -/
def Obligations.RecordsAreAdmitted : Prop :=
  (∀ (b : Beam) (k : Nat) (o : OpSt) (att : BitVec 4) (r : List Byte) (s : State), opThere k o s → takesDispatch o = true →
      recordWaits b 0 0x01 (16 + dispRow o) att r s → otherOps s b k .contribution att r = false →
      ∃ t, exec (.dispatchRecord b k) s = .next t ∧ t.ctl.serial = s.ctl.serial ∧ t.ctl.admitted = s.ctl.admitted ++
        (if broughtBefore k b att r .contribution s then []
         else [{ op := k, beam := b, head := r.take 16, form := .contribution, data := r.drop 16, total := 0 }])) ∧
  (∀ (b : Beam) (k : Nat) (o : OpSt) (att : BitVec 4) (r : List Byte) (s : State), opThere k o s → takesDispatch o = true →
      recordWaits b 0 0x01 (16 + dispRow o) att r s → otherOps s b k .contribution att r = true → exec (.dispatchRecord b k) s = .next (irqSettle s)) ∧
  (∀ (b : Beam) (k : Nat) (o : OpSt) (att : BitVec 4) (r : List Byte) (s : State), opThere k o s → opCode o = 0x21 → o.started = false →
      recordWaits b 1 0x03 (16 + combRow o) att r s → otherOps s b k .contribution att r = false →
      ∃ t, exec (.combineReturn b k) s = .next t ∧ t.ctl.ops = s.ctl.ops ∧ t.ctl.admitted = s.ctl.admitted ++
        (if broughtBefore k b att r .contribution s then []
         else [{ op := k, beam := b, head := r.take 16, form := .contribution, data := r.drop 16, total := 0 }])) ∧
  (∀ (b : Beam) (k n total : Nat) (f : SegForm) (o : OpSt) (att : BitVec 4) (r : List Byte) (s : State), opThere k o s → takesSegments o = true →
      o.started = false → recordWaits b (segClass s b f o) 0x20 (16 + n) att r s → otherOps s b k f att r = false →
      ∃ t, exec (.collectiveSegment b k f n total) s = .next t ∧ t.ctl.ops = s.ctl.ops ∧ t.ctl.admitted = s.ctl.admitted ++
        (if broughtBefore k b att r f s then []
         else [{ op := k, beam := b, head := r.take 16, form := f, data := r.drop 16, total := total }])) ∧
  (∀ (b : Beam) (k : Nat) (a : Nat × Nat × Nat) (x : Nat) (att : BitVec 4) (r : List Byte) (s : State), running s = true → areaNow s k = some a →
      recordWaits b 0 0x02 (16 + a.2.2) att r s → hdEntry r < a.2.1 →
      bufLoc s a.1 ((b.val * a.2.1 + hdEntry r) * stride64 a.2.2) a.2.2 = some (.staging x) → s.img.penumbra = [] → streamsLit s →
      ∃ t, exec (.tentativeDispatch b k) s = .next t ∧ t.ce.staging = s.ce.staging.writeN x (r.drop 16) ∧
        ∃ w ∈ t.ce.window, w.beam = b ∧ w.entry = hdEntry r ∧ w.attempt = att ∧ w.token = hdToken r ∧ w.data = r.drop 16 ∧ w.resolved = none) ∧
  (∀ (b : Beam) (k : Nat) (o : OpSt) (att : BitVec 4) (r : List Byte) (w : WindowEntry) (s : State), opThere k o s → takesDispatch o = true →
      recordWaits b 0 0x10 16 att r s → otherOps s b k .contribution att r = false → windowAt s b (hdEntry r) = some w → w.resolved = none →
      ∃ t, exec (.commitMarker b k) s = .next t ∧ windowAt t b (hdEntry r) = some { w with resolved := some true } ∧
        t.ce.raCommit = s.ce.raCommit + 1 ∧ t.ce.raCancel = s.ce.raCancel ∧ t.ctl.admitted = s.ctl.admitted ++
        (if broughtBefore k b att r .contribution s then []
         else [{ op := k, beam := b, head := r.take 16, form := .contribution, data := w.data, total := 0 }])) ∧
  (∀ (b : Beam) (k : Nat) (o : OpSt) (att : BitVec 4) (r : List Byte) (w : WindowEntry) (s : State), opThere k o s → takesDispatch o = true →
      recordWaits b 0 0x11 16 att r s → otherOps s b k .contribution att r = false → windowAt s b (hdEntry r) = some w → w.resolved = none →
      ∃ t, exec (.cancelMarker b k) s = .next t ∧ windowAt t b (hdEntry r) = some { w with resolved := some false } ∧
        t.ce.raCancel = s.ce.raCancel + 1 ∧ t.ce.raCommit = s.ce.raCommit ∧ t.ctl.admitted = s.ctl.admitted)

/-- The collectives (R159 to R162, R184 to R190): with its source and what its peers send there, each stages its result and is done: a BROADCAST at
its root and elsewhere, a STREAM between buffers, out of and into a beam, an ALLREDUCE at the top and below, a REDUCESCATTER, an ALLGATHER and an
ALLTOALLV. A place that waits for its peers has sent them its own part. A write of CE_CTRL with the current epoch takes its bit. -/
def Obligations.CollectivesStart : Prop :=
  (∀ (k : Nat) (o : OpSt) (b : List Byte) (s : State), opIssued k 0x34 o s → broadcastBad s o = none → opFlag o 1 = true → routeLit o s →
      inputsReady [(collSrc o, rowBytes (collIn o) (opCount o))] [b] s → inMemory (collDst o) →
      ∃ t, exec (.broadcast k) s = .next t ∧ opEnded k t ∧ t.ctl.outputs = s.ctl.outputs ++ [(collDst o, 0, b)] ∧
        (∀ e, routeOf s o = [e] → e.role = 0 → o.sent = [] → beamSent s e.beam = false →
          segsSent e.beam 1 e.chunk (segments (.fmt (collIn o) 0 []) (shadowed o) (cutVec (collIn o) (opCount o) b)) s t)) ∧
  (∀ (k : Nat) (o : OpSt) (e : Route) (l : List (List Byte)) (s : State), opIssued k 0x34 o s → broadcastBad s o = none → opFlag o 1 = false →
      routeLit o s → upEntry s o = some e → inMemory (collDst o) →
      gathered (.fmt (collIn o) 0 []) (shadowed o) (opCount o) (segsIn s k e.beam (if e.role = 1 then .result else .contribution) none) = .ok (some l) →
      ∃ t, exec (.broadcast k) s = .next t ∧ opEnded k t ∧ t.ctl.outputs = s.ctl.outputs ++ [(collDst o, 0, joinVec (collIn o) l)]) ∧
  (∀ (k : Nat) (o : OpSt) (b : List Byte) (s : State), opIssued k 0x35 o s → streamBad s o = none → routeOf s o = [] →
      inputsReady [(collSrc o, opCount o)] [b] s → inMemory (collDst o) →
      ∃ t, exec (.stream k) s = .next t ∧ opEnded k t ∧ t.ctl.outputs = s.ctl.outputs ++ [(collDst o, 0, b)] ∧ t.beam = s.beam) ∧
  (∀ (k : Nat) (o : OpSt) (e : Route) (b : List Byte) (s : State), opIssued k 0x35 o s → streamBad s o = none → routeOf s o = [e] → e.role = 2 →
      routeLit o s → inputsReady [(collSrc o, opCount o)] [b] s → o.sent = [] → beamSent s e.beam = false →
      ∃ t, exec (.stream k) s = .next t ∧ opEnded k t ∧ t.ctl.outputs = s.ctl.outputs ∧ segsSent e.beam 0 e.chunk [(0, b)] s t) ∧
  (∀ (k : Nat) (o : OpSt) (e : Route) (a : Admit) (s : State), opIssued k 0x35 o s → streamBad s o = none → routeOf s o = [e] → e.role = 3 →
      pieceFrom s k e.beam 0 = some a → a.data.length = opCount o → inMemory (collDst o) →
      ∃ t, exec (.stream k) s = .next t ∧ opEnded k t ∧ t.ctl.outputs = s.ctl.outputs ++ [(collDst o, 0, a.data)] ∧ t.beam = s.beam) ∧
  (∀ (k : Nat) (o : OpSt) (b : List Byte) (g : List Nat) (kc xc : List (List LongForm)) (s : State), opIssued k 0x30 o s → allreduceBad s o = none →
      routeLit o s → inputsReady [(collSrc o, rowBytes (collIn o) (opCount o))] [b] s → inMemory (collDst o) → codesKnown k o b g s →
      roleOf s o 1 = [] →
      allEls s k (elsFrom s k (redMode o) (collIn o) g 0 (opCount o) (shadowed o) none) ((roleOf s o 0).map (·.beam)) = .ok (some kc) →
      allEls s k (elsFrom s k (redMode o) (collIn o) g 0 (opCount o) (shadowed o) none) ((roleOf s o 0 ++ roleOf s o 4).map (·.beam)) = .ok (some xc) →
      ∃ t, exec (.allreduce k) s = .next t ∧ opEnded k t ∧ t.ctl.outputs = s.ctl.outputs ++ [(collDst o, 0,
        sumResult (redMode o) (collOut o) g 0 (addAll (redMode o) xc (contribEls (redMode o) (collIn o) g 0 (opCount o) b)))]) ∧
  (∀ (k : Nat) (o : OpSt) (e : Route) (b : List Byte) (l : List (List Byte)) (s : State), opIssued k 0x30 o s → allreduceBad s o = none →
      redMode o ≠ .exact → routeLit o s → inputsReady [(collSrc o, rowBytes (collIn o) (opCount o))] [b] s → inMemory (collDst o) → routeOf s o = [e] →
      e.role = 1 → gathered (.fmt (collOut o) 0 []) (shadowed o) (opCount o) (segsIn s k e.beam .result none) = .ok (some l) →
      ∃ t, exec (.allreduce k) s = .next t ∧ opEnded k t ∧ t.ctl.outputs = s.ctl.outputs ++ [(collDst o, 0, joinVec (collOut o) l)] ∧
        (o.sent = [] → beamSent s e.beam = false →
          segsSent e.beam 0 e.chunk (contribSegs (collIn o) (shadowed o) 0 (opCount o) (noCodes (opCount o)) b) s t)) ∧
  (∀ (k : Nat) (o : OpSt) (b : List Byte) (g : List Nat) (l : List (List LongForm)) (s : State), opIssued k 0x31 o s → reducescatterBad s o = none →
      routeLit o s → inputsReady [(collSrc o, rowBytes (collIn o) (opCount o))] [b] s → inMemory (collDst o) → scatterKnown k o b g s →
      allEls s k (elsFrom s k (redMode o) (collIn o) (chunkCodes (chunkRange o (ownChunk (routeOf s o))) g) (chunkRange o (ownChunk (routeOf s o))).1
        (chunkRange o (ownChunk (routeOf s o))).2 (shadowed o) (some (ownChunk (routeOf s o)))) ((roleOf s o 4).map (·.beam)) = .ok (some l) →
      ∃ t, exec (.reducescatter k) s = .next t ∧ opEnded k t ∧ t.ctl.outputs = s.ctl.outputs ++ [(collDst o, 0,
        sumResult (redMode o) (collOut o) (chunkCodes (chunkRange o (ownChunk (routeOf s o))) g) (chunkRange o (ownChunk (routeOf s o))).1
          (addAll (redMode o) l (contribEls (redMode o) (collIn o) (chunkCodes (chunkRange o (ownChunk (routeOf s o))) g)
            (chunkRange o (ownChunk (routeOf s o))).1 (chunkRange o (ownChunk (routeOf s o))).2
            (vecSlice (collIn o) (opCount o) (chunkRange o (ownChunk (routeOf s o))).1 (chunkRange o (ownChunk (routeOf s o))).2 b))))]) ∧
  (∀ (k : Nat) (o : OpSt) (e : Route) (b : List Byte) (s : State), opIssued k 0x31 o s → reducescatterBad s o = none → redMode o ≠ .exact → routeLit o s →
      routeOf s o = [e] → e.role = 4 → s.ctl.admitted = [] → o.final = false → inputsReady [(collSrc o, rowBytes (collIn o) (opCount o))] [b] s →
      ∃ t, exec (.reducescatter k) s = .next t ∧ opGoesOn k t ∧ t.ctl.outputs = s.ctl.outputs ∧ (o.sent = [] → beamSent s e.beam = false →
        ∀ r, r = chunkRange o e.chunk → segsSent e.beam 0 e.chunk (contribSegs (collIn o) (shadowed o) r.1 r.2
          (chunkCodes r (List.replicate (blockCount (opCount o)) 1)) (vecSlice (collIn o) (opCount o) r.1 r.2 b)) s t)) ∧
  (∀ (k : Nat) (o : OpSt) (b : List Byte) (got : List (Nat × List (List Byte))) (s : State), opIssued k 0x32 o s → allgatherBad s o = none →
      routeLit o s → inputsReady [(collSrc o, rowBytes (collIn o) (opCount o))] [b] s → inMemory (collDst o) →
      ((routeOf s o).filter fun e => e.role == 3 || e.role == 4).map (chunkFrom s k o) = got.map (fun g => .ok (some g)) →
      ∃ t, exec (.allgather k) s = .next t ∧ opEnded k t ∧ t.ctl.outputs = s.ctl.outputs ++
        ((gatherChunk (routeOf s o), cutVec (collIn o) (opCount o) b) :: got).flatMap (gatherPieces o (chunkSize o * chunkCount (routeOf s o)))) ∧
  (∀ (k : Nat) (o : OpSt) (e : Route) (b : List Byte) (s : State), opIssued k 0x32 o s → allgatherBad s o = none → routeLit o s → routeOf s o = [e] →
      e.role = 4 → s.ctl.admitted = [] → o.final = false → inputsReady [(collSrc o, rowBytes (collIn o) (opCount o))] [b] s →
      ∃ t, exec (.allgather k) s = .next t ∧ opGoesOn k t ∧ t.ctl.outputs = s.ctl.outputs ∧ (o.sent = [] → beamSent s e.beam = false →
        segsSent e.beam 0 (gatherChunk (routeOf s o)) (segments (.fmt (collIn o) 0 []) (shadowed o) (cutVec (collIn o) (opCount o) b)) s t)) ∧
  (∀ (k : Nat) (o : OpSt) (ins : List (List Byte)) (ps : List (Nat × List Byte)) (dst : List Byte) (s : State), opIssued k 0x33 o s →
      alltoallvBad s o = none → routeLit o s → inputsReady (alltoallvInputs s o) ins s →
      (sendCounts (nth ins 0 []) (routeCount o)).all (fun n => !lenBad (collIn o) n) = true →
      ((rxEntries (routeOf s o) []).map fun e => match e with
        | none => some (0, [])
        | some (b, j) => (pieceFrom s k b j).map fun a => (segElems (collIn o) a.data.length, a.data)) = ps.map some →
      (∀ p ∈ ps, rowBytes (collIn o) p.1 = p.2.length) → inMemory (opBits o 3 31 0) → inMemory (collDst o) →
      dst = joinVec (collIn o) (ps.flatMap fun p => cutVec (collIn o) p.1 p.2) → bufFits s (collDst o) dst.length = true →
      ∃ t, exec (.alltoallv k) s = .next t ∧ opEnded k t ∧ t.ctl.outputs = s.ctl.outputs ++ (if dst = [] then [] else [(collDst o, 0, dst)]) ++
        [(opBits o 3 31 0, 0, ps.flatMap fun p => leBytes 4 p.1)]) ∧
  (∀ (v : Word) (s : State), hostOn s → rsvBad s 0xA0000 v = false → BitVec.ofNat 16 (fld v 31 16) = s.ce.epoch →
      ∃ t, exec (.ceCtrlWrite v) s = .next t ∧ t.ce.raDisable = bit v 0 ∧ t.ce.epoch = s.ce.epoch + 1 ∧ t.ce.event = s.ce.event)

/-- Receiving flits (R207, R235, R241, R242, R244, R263): the expected DATA flit is delivered in order, one ahead is held with its gap named, a flit
that fails its CRC is discarded and counted, a foreign one is discarded, IDLE and SWITCH_IDLE acknowledge, NAK asks for a resend and INIT starts the
beam, or, while a switch affects it, lets it wait. A word spoilt in a datapath or in the reorder buffer is judged by the flit's CRC. -/
def Obligations.LinkReceivesFlits : Prop :=
  (∀ (b : Beam) (raw : List Byte) (words : List LineWord) (code : CodeResult) (f : Flit) (s : State), flitArrives b (codeBytes code s.fresh raw) 1 f s →
      (s.beam[b]).rx ≠ .uninit → swOlder (s.beam[b]).peerSw f.sw = false → f.tok = false → f.seq = (s.beam[b]).next → (s.beam[b]).held = [] →
      (s.beam[b]).inbound = [] → (s.beam[b]).waitNew = false → (∀ e ∈ (s.beam[b]).seen, e.serial = s.ctl.serial + 1) →
      ∃ t, exec (.dataFlit b raw words code) s = .next t ∧ (t.beam[b]).inbound = [{ inFlit f with ahead := isTentative (s.beam[b]) (inFlit f) }] ∧
        (t.beam[b]).next = (s.beam[b]).next + 1 ∧
        (t.beam[b]).rx = .run ∧ (t.beam[b]).counters[(4 : Fin 16)] = (s.beam[b]).counters[(4 : Fin 16)] + 1) ∧
  (∀ (b : Beam) (raw : List Byte) (words : List LineWord) (code : CodeResult) (f : Flit) (s : State), flitArrives b (codeBytes code s.fresh raw) 1 f s →
      (s.beam[b]).rx ≠ .uninit → swOlder (s.beam[b]).peerSw f.sw = false →
      f.seq ≠ (s.beam[b]).next → (f.seq - (s.beam[b]).next).toNat < 1024 → (∀ e ∈ (s.beam[b]).held, e.1 ≠ f.seq) →
      reorderUse s (portOf s b) < 1024 → (s.beam[b]).inbound = [] → (s.beam[b]).waitNew = false →
      ∃ t, exec (.dataFlit b raw words code) s = .next t ∧ (t.beam[b]).held = (s.beam[b]).held ++ [(f.seq, inFlit f)] ∧ (t.beam[b]).rx = .gap ∧
        (t.beam[b]).next = (s.beam[b]).next ∧ (t.beam[b]).inbound = [] ∧
        ((s.beam[b]).naked = [] → (s.beam[b]).held = [] → (t.beam[b]).naked = missing (s.beam[b]) f.seq)) ∧
  (∀ (b : Beam) (raw : List Byte) (words : List LineWord) (code : CodeResult) (s : State), running s = true → beamLit (s.beam[b]) = true →
      flitOf (rebuilt s b (codeBytes code s.fresh raw)) = none → (s.beam[b]).inbound = [] →
      ∃ t, exec (.dataFlit b raw words code) s = .next t ∧ (t.beam[b]).counters[(5 : Fin 16)] = (s.beam[b]).counters[(5 : Fin 16)] + 1 ∧
        (t.beam[b]).inbound = [] ∧ (t.beam[b]).next = (s.beam[b]).next ∧ (t.beam[b]).unacked = (s.beam[b]).unacked) ∧
  (∀ (b : Beam) (raw : List Byte) (f : Flit) (s : State), running s = true → beamLit (s.beam[b]) = true → flitOf (rebuilt s b raw) = some f →
      touchesWrong s b = false →
      (f.place ≠ (beamRec s b).peerPlace ∨ f.beam ≠ (beamRec s b).peerBeam) → s.pln.foreign ≠ BitVec.allOnes 32 →
      ∃ t, exec (.idleFlit b raw) s = .next t ∧ t.pln.foreign = s.pln.foreign + 1 ∧
        t.beam[b] = { s.beam[b] with rxWords := flitStart s b raw + 32, placeLost := false } ∧ ∀ c : Beam, c ≠ b → t.beam[c] = s.beam[c]) ∧
  (∀ (b : Beam) (raw : List Byte) (f : Flit) (s : State), flitArrives b raw 0 f s → (s.beam[b]).waitNew = false →
      ∃ t, exec (.idleFlit b raw) s = .next t ∧ (t.beam[b]).unacked = (s.beam[b]).unacked.drop (ackCovers (s.beam[b]) f.ack) ∧
        (t.beam[b]).next = (s.beam[b]).next ∧ (t.beam[b]).inbound = (s.beam[b]).inbound ∧
        ∀ c : Beam, c ≠ b → t.beam[c] = s.beam[c]) ∧
  (∀ (b : Beam) (raw : List Byte) (f : Flit) (s : State), flitArrives b raw 3 f s → (s.beam[b]).waitNew = false →
      ∃ t, exec (.switchIdle b raw) s = .next t ∧ (t.beam[b]).unacked = (s.beam[b]).unacked.drop (ackCovers (s.beam[b]) f.ack) ∧
        (t.beam[b]).peerSw = (if swNewer (s.beam[b]).peerSw f.sw then f.sw else (s.beam[b]).peerSw)) ∧
  (∀ (b : Beam) (raw : List Byte) (f : Flit) (n : BitVec 16) (s : State), flitArrives b raw 2 f s → (s.beam[b]).waitNew = false →
      leNat (f.body.take 2) = 1 → BitVec.ofNat 16 (leNat ((f.body.drop 2).take 2)) = n → (s.beam[b]).resend = [] → ackCovers (s.beam[b]) f.ack = 0 →
      (∃ o, (n, o) ∈ (s.beam[b]).unacked) →
      ∃ t, exec (.nak b raw) s = .next t ∧ (t.beam[b]).resend = [n] ∧ (t.beam[b]).unacked = (s.beam[b]).unacked) ∧
  (∀ (b : Beam) (raw : List Byte) (f : Flit) (s : State), flitArrives b raw 6 f s → (s.beam[b]).tx = .init → (byteAt f.body 8).getLsbD 0 = true →
      (s.beam[b]).waitNew = false →
      ∃ t, exec (.init b raw) s = .next t ∧ (t.beam[b]).initSeen = true ∧ (t.beam[b]).initAcked = true ∧
        (t.beam[b]).ctl.length = (s.beam[b]).ctl.length + 1 ∧ ((s.beam[b]).rx = .uninit → (t.beam[b]).rx = .run ∧ (t.beam[b]).next = 0) ∧
        (if switchDone s b ∧ (if swNewer (s.beam[b]).peerSw f.sw then f.sw else (s.beam[b]).peerSw) = BitVec.ofNat 4 (s.beam[b]).swcount then
          (t.beam[b]).tx = .run ∧ ((s.beam[b]).retrain = none → (t.beam[b]).state = 3 ∨ (t.beam[b]).state = 5)
        else (t.beam[b]).tx = .paused ∧ (t.beam[b]).waitNew = true ∧ (t.beam[b]).state = 4))

/-- Sending flits and the timers of a beam (R244, R245, R248, R253 to R255, R263): control flits go first, a new DATA flit takes its number, a replay
entry and its credits or waits for them or for a switch, INIT is repeated, an expired retransmit timer resends the oldest flit, and a beam whose peer
stays silent is broken. -/
def Obligations.LinkSendsFlits : Prop :=
  (∀ (b : Beam) (c : CtlFlit) (r : List CtlFlit) (code : CodeResult) (s : State), running s = true → tentNext s b = none →
      beamLit (s.beam[b]) = true → sendLines s b ≠ 0 →
      (s.beam[b]).ctl = c :: r →
      ∃ t, exec (.flitBoundary b code) s = .next t ∧ (t.beam[b]).ctl = r ∧ (t.beam[b]).queue = (s.beam[b]).queue ∧ (t.beam[b]).seq = (s.beam[b]).seq ∧
        ∃ raw, Emission.flit b raw ∈ t.out ∧ raw.length = 256) ∧
  (∀ (b : Beam) (o : OutFlit) (r : List OutFlit) (code : CodeResult) (s : State), running s = true → tentNext s b = none →
      beamLit (s.beam[b]) = true → sendLines s b ≠ 0 → (s.beam[b]).ctl = [] → (s.beam[b]).resend = [] → (s.beam[b]).tx = .run → (s.beam[b]).queue = o :: r → behindSwitch s b o = false → affordable (s.beam[b]) o = true →
      replayShort s b = false →
      ∃ t, exec (.flitBoundary b code) s = .next t ∧ (t.beam[b]).queue = r ∧ (t.beam[b]).seq = (s.beam[b]).seq + 1 ∧
        (t.beam[b]).unacked = (s.beam[b]).unacked ++ [((s.beam[b]).seq, o)] ∧
        (t.beam[b]).consumed = (creditsOf o).foldl (fun v c => upd v c (· + 1)) (s.beam[b]).consumed ∧ ∃ raw, Emission.flit b raw ∈ t.out) ∧
  (∀ (b : Beam) (o : OutFlit) (r : List OutFlit) (code : CodeResult) (s : State), running s = true → tentNext s b = none →
      beamLit (s.beam[b]) = true → sendLines s b ≠ 0 → (s.beam[b]).ctl = [] → (s.beam[b]).resend = [] → (s.beam[b]).tx = .run → (s.beam[b]).queue = o :: r → behindSwitch s b o = false → affordable (s.beam[b]) o = false →
      ∃ t, exec (.flitBoundary b code) s = .next t ∧ (t.beam[b]).tx = .creditWait ∧ (t.beam[b]).queue = o :: r ∧ (t.beam[b]).seq = (s.beam[b]).seq ∧
        (t.beam[b]).unacked = (s.beam[b]).unacked) ∧
  (∀ (b : Beam) (o : OutFlit) (r : List OutFlit) (code : CodeResult) (s : State), running s = true → tentNext s b = none →
      beamLit (s.beam[b]) = true → sendLines s b ≠ 0 → (s.beam[b]).ctl = [] → (s.beam[b]).resend = [] → (s.beam[b]).tx = .run → (s.beam[b]).queue = o :: r → behindSwitch s b o = false → affordable (s.beam[b]) o = true →
      replayShort s b = true →
      ∃ t, exec (.flitBoundary b code) s = .next t ∧ (t.beam[b]).tx = .replayWait ∧ (t.beam[b]).queue = o :: r ∧ (t.beam[b]).unacked = (s.beam[b]).unacked) ∧
  (∀ (b : Beam) (o : OutFlit) (r : List OutFlit) (code : CodeResult) (s : State), running s = true → tentNext s b = none →
      beamLit (s.beam[b]) = true → sendLines s b ≠ 0 → (s.beam[b]).ctl = [] → (s.beam[b]).resend = [] → (s.beam[b]).tx = .run → (s.beam[b]).queue = o :: r → behindSwitch s b o = true →
      ∃ t, exec (.flitBoundary b code) s = .next t ∧ (t.beam[b]).tx = .run ∧ (t.beam[b]).queue = o :: r ∧ (t.beam[b]).unacked = (s.beam[b]).unacked) ∧
  (∀ (b : Beam) (s : State), running s = true → (s.beam[b]).tx = .init →
      ∃ t, exec (.initResend b) s = .next t ∧ (t.beam[b]).ctl = (s.beam[b]).ctl ++ [⟨6, initPayload s b (s.beam[b]).initSeen⟩]) ∧
  (∀ (b : Beam) (s : State), running s = true → (s.beam[b]).tx = .init → (s.beam[b]).initSeen = false → (s.beam[b]).state ≠ 6 → s.img.penumbra = [] →
      ∃ t, exec (.initTimeout b) s = .next t ∧ (t.beam[b]).state = 6 ∧ (t.beam[b]).tx = .broken) ∧
  (∀ (b : Beam) (n : BitVec 16) (o : OutFlit) (r : List (BitVec 16 × OutFlit)) (s : State), running s = true → (s.beam[b]).unacked = (n, o) :: r →
      timersRun (s.beam[b]) = true → (s.beam[b]).expiries + 1 < 8 →
      ∃ t, exec (.retransmitTimerExpiry b) s = .next t ∧ n ∈ (t.beam[b]).resend ∧ (t.beam[b]).expiries = (s.beam[b]).expiries + 1 ∧
        (t.beam[b]).unacked = (s.beam[b]).unacked ∧ (t.beam[b]).tx = (s.beam[b]).tx) ∧
  (∀ (b : Beam) (s : State), running s = true → timersRun (s.beam[b]) = true → (s.beam[b]).tx = .creditWait → (s.beam[b]).state ≠ 6 →
      s.img.penumbra = [] →
      ∃ t, exec (.creditTimeout b) s = .next t ∧ (t.beam[b]).state = 6 ∧ (t.beam[b]).rx = .broken ∧ (t.beam[b]).unacked = []) ∧
  (∀ (p : Port) (b : Beam) (s : State), running s = true → replayUse s p < 1024 → (beamsOf s p).filter (fun b => (s.beam[b]).tx == .replayWait) = [b] →
      ∃ t, exec (.replayEntryGrant p) s = .next t ∧ (t.beam[b]).tx = .run ∧ (t.beam[b]).granted = true ∧
        (t.port[p]).grant = (b.val + 1) % 256)

/-- The retrain of a beam (R264 to R266): the leader answers a request with go on the merged masks, go pauses the beam, each end sends ready when it
is aligned, both resume when both are ready, and a retrain not done in time breaks the beam. -/
def Obligations.BeamRetrains : Prop :=
  (∀ (b : Beam) (raw : List Byte) (f : Flit) (s : State), wholeArrives b raw 5 f s → (s.beam[b]).waitNew = false → byteAt f.body 0 = 0 →
      (s.beam[b]).tx ≠ .init → leads s b (byteAt f.body 15).toNat = true → (s.beam[b]).retrain = none →
      mergeMask (ownMasks (learnPeer b (maskAt f.body 7) s) b (maskAt f.body 7, maskAt f.body 2)).1 (maskAt f.body 7) ≠ 0 →
      mergeMask (ownMasks (learnPeer b (maskAt f.body 7) s) b (maskAt f.body 7, maskAt f.body 2)).2 (maskAt f.body 2) ≠ 0 →
      ∃ t, exec (.retrainRequest b raw) s = .next t ∧ (t.beam[b]).state = 2 ∧
        (t.beam[b]).txMask = mergeMask (ownMasks (learnPeer b (maskAt f.body 7) s) b (maskAt f.body 7, maskAt f.body 2)).1 (maskAt f.body 7) ∧
        (t.beam[b]).rxMask = mergeMask (ownMasks (learnPeer b (maskAt f.body 7) s) b (maskAt f.body 7, maskAt f.body 2)).2 (maskAt f.body 2) ∧
        ((t.beam[b]).retrain.map (·.going)) = some true ∧ (t.beam[b]).ctl.length = (s.beam[b]).ctl.length + 1) ∧
  (∀ (b : Beam) (r : Retrain) (s : State), running s = true → (s.beam[b]).retrain = some r → r.requesting = true →
      ∃ t, exec (.retrainRequestResend b) s = .next t ∧
        (t.beam[b]).ctl = (s.beam[b]).ctl ++ [⟨5, retrainPayload s b 0 r.number (r.wantTx, r.wantRx)⟩] ∧ (t.beam[b]).retrain = some r) ∧
  (∀ (b : Beam) (raw : List Byte) (f : Flit) (s : State), flitArrives b raw 5 f s → (s.beam[b]).waitNew = false → byteAt f.body 0 = 1 →
      (s.beam[b]).tx = .run → (s.beam[b]).retrain = none → maskAt f.body 7 ≠ 0 → maskAt f.body 2 ≠ 0 →
      ∃ t, exec (.retrainGo b raw) s = .next t ∧ (t.beam[b]).state = 2 ∧ (t.beam[b]).tx = .paused ∧ (t.beam[b]).txMask = maskAt f.body 7 ∧
        (t.beam[b]).rxMask = maskAt f.body 2 ∧ ((t.beam[b]).retrain.map fun r => (r.number, r.going)) = some (byteAt f.body 1, true)) ∧
  (∀ (b : Beam) (r : Retrain) (s : State), running s = true → (s.beam[b]).retrain = some r → r.going = true → r.aligned = false → r.peerReady = false →
      ∃ t, exec (.retrainDeskewDone b) s = .next t ∧ (t.beam[b]).retrain = some { r with aligned := true } ∧
        (t.beam[b]).ctl = (s.beam[b]).ctl ++ [⟨5, retrainPayload s b 2 r.number ((s.beam[b]).txMask, (s.beam[b]).rxMask)⟩]) ∧
  (∀ (b : Beam) (raw : List Byte) (f : Flit) (r : Retrain) (s : State), flitArrives b raw 5 f s → byteAt f.body 0 = 2 → (s.beam[b]).retrain = some r →
      r.going = true → r.aligned = true → (s.beam[b]).again = none → (s.beam[b]).waitNew = false →
      (∀ e ∈ (s.port[portOf s b]).switchQ, e.stage ≠ .held) →
      ∃ t, exec (.retrainReady b raw) s = .next t ∧ (t.beam[b]).retrain = none ∧ (t.beam[b]).tx = .run ∧
        (t.beam[b]).resend = (t.beam[b]).unacked.map (·.1) ∧ ((t.beam[b]).state = 3 ∨ (t.beam[b]).state = 5)) ∧
  (∀ (b : Beam) (r : Retrain) (s : State), running s = true → (s.beam[b]).retrain = some r → r.going = true → (s.beam[b]).state ≠ 6 →
      s.img.penumbra = [] →
      ∃ t, exec (.retrainTimeout b) s = .next t ∧ (t.beam[b]).state = 6 ∧ (t.beam[b]).retrain = none)

/-- The plan switch at a Port Engine (R213 to R218, Table 7.6): it arrives, its anchor puts the new block in force and counts it, its rings are set,
its new lines relock, and its end frees the port for the next one. A beam that stays silent after it is broken, one that has met a flit of the new
count is not. -/
def Obligations.PlanSwitchRuns : Prop :=
  (∀ (p : Port) (e : PortSwitch) (s : State), running s = true → (s.port[p]).switchQ.find? (fun d => d.stage == .coming) = some e →
      switchBlocked s e = false → (∀ d ∈ (s.port[p]).switchQ, d.stage ≠ .held) →
      ∃ t, exec (.switchArrival p) s = .next t ∧ (t.port[p]).switchQ = switchAt e.serial .arrived (s.port[p]).switchQ ∧
        (t.port[p]).block = (s.port[p]).block ∧ t.pln = s.pln ∧ ∀ b ∈ e.beams, timersRun (s.beam[b]) = true → (t.beam[b]).tx = .paused) ∧
  (∀ (p : Port) (e : PortSwitch) (s : State), running s = true → (s.port[p]).switchQ.find? (fun d => d.stage == .coming) = some e →
      switchBlocked s e = true →
      ∃ t, exec (.switchArrival p) s = .next t ∧ (t.port[p]).switchQ = switchAt e.serial .held (s.port[p]).switchQ ∧
        (t.port[p]).block = (s.port[p]).block ∧ t.pln = s.pln ∧ t.beam = s.beam) ∧
  (∀ (p : Port) (e : PortSwitch) (s : State), running s = true → (s.port[p]).switchQ.find? (fun d => d.stage == .arrived) = some e →
      (∀ d ∈ (s.port[p]).switchQ, d.stage ≠ .held) → s.pln.shown < e.serial → s.img.penumbra = [] →
      ∃ t, exec (.switchAnchor p) s = .next t ∧
        (t.port[p]).switchQ = switchAnchored e.serial (blockTx e.block &&& ~~~ blockTx (blockNow s p)) (s.port[p]).switchQ ∧
        (t.port[p]).block = some (e.planId, e.block) ∧ t.pln.inForce = e.planId ∧
        t.pln.previous = s.pln.inForce ∧ t.pln.switches = s.pln.switches + 1 ∧ t.pln.shown = e.serial) ∧
  (∀ (p : Port) (e : PortSwitch) (s : State), running s = true → (s.port[p]).switchQ.find? (fun d => d.stage == .anchored) = some e →
      ∃ t, exec (.switchRingsSet p) s = .next t ∧ (t.port[p]).switchQ = switchAt e.serial .ringsSet (s.port[p]).switchQ ∧ t.beam = s.beam ∧
        t.pln = s.pln) ∧
  (∀ (p : Port) (n : Line) (s : State), running s = true →
      ∃ t, exec (.lineRelock p n) s = .next t ∧ ((t.port[p]).line[n]).locked = true ∧ ((t.port[p]).line[n]).acquiring = false ∧
        ∀ k : Line, k ≠ n → (t.port[p]).line[k] = (s.port[p]).line[k]) ∧
  (∀ (p : Port) (e : PortSwitch) (s : State), running s = true → (s.port[p]).switchQ.find? (fun d => d.stage == .ringsSet) = some e →
      ∃ t, exec (.switchComplete p) s = .next t ∧ (t.port[p]).switchQ = (s.port[p]).switchQ.filter (fun d => d.serial != e.serial) ∧
        (t.port[p]).block = (s.port[p]).block) ∧
  (∀ (b : Beam) (s : State), running s = true → (s.beam[b]).waitNew = true → (s.beam[b]).newSeen = true → exec (.switchTimeout b) s = .next (irqSettle s)) ∧
  (∀ (b : Beam) (s : State), running s = true → (s.beam[b]).waitNew = true → (s.beam[b]).newSeen = false → switchDone s b = true →
      (s.beam[b]).state ≠ 6 → s.img.penumbra = [] →
      ∃ t, exec (.switchTimeout b) s = .next t ∧ (t.beam[b]).state = 6 ∧ (t.beam[b]).waitNew = false) ∧
  (∀ (b : Beam) (s : State), running s = true → (s.beam[b]).waitNew = true →
      ∃ t, exec (.switchStall b) s = .next t ∧ t.pln.event = setBit s.pln.event 1 ∧ t.beam = s.beam)

/-- Port training and its commands (R258 to R261, R270, Table 8.8): the five steps end with the port Up on all its data lines or Degraded, a step not
done in 10 ms leaves it Dark with reason 1, a lost L00 lock retrains it from step 1, and PRT_CMD retrains, holds and releases it at its epoch. -/
def Obligations.PortTrainingAndCommands : Prop :=
  (∀ (p : Port) (r : PortStep) (s : State), running s = true → (s.port[p]).state = 2 → (s.port[p]).step = 1 →
      ∃ t, exec (.portTrainingStep p r) s = .next t ∧ (t.port[p]).state = 2 ∧ (t.port[p]).step = 2 ∧ ∃ raw, Emission.train p raw ∈ t.out) ∧
  (∀ (p : Port) (r : PortStep) (s : State), running s = true → (s.port[p]).state = 2 → (s.port[p]).step = 2 →
      ∃ t, exec (.portTrainingStep p r) s = .next t ∧ (t.port[p]).step = 3 ∧ (t.port[p]).lockOk = r.locked ∧ (t.port[p]).lineOk = 1) ∧
  (∀ (p : Port) (r : PortStep) (s : State), running s = true → (s.port[p]).state = 2 → (s.port[p]).step = 3 →
      ∃ t, exec (.portTrainingStep p r) s = .next t ∧ (t.port[p]).state = 2 ∧
        (t.port[p]).step = if (s.port[p]).trainSeen && (s.port[p]).partnerAccepts then 4 else 3) ∧
  (∀ (p : Port) (r : PortStep) (s : State), running s = true → (s.port[p]).state = 2 → (s.port[p]).step = 4 →
      ∃ t, exec (.portTrainingStep p r) s = .next t ∧ (t.port[p]).state = 2 ∧ (t.port[p]).qualDone = true ∧
        ((s.port[p]).qualDone = true → (t.port[p]).step = 4 ∧ (t.port[p]).lineOk = (s.port[p]).lineOk) ∧
        ((s.port[p]).qualDone = false → (t.port[p]).step = (if (s.port[p]).maskSeen then 5 else 4) ∧
          (t.port[p]).lineOk = linesQualify (s.port[p]) r.counts ||| ((s.port[p]).lineOk &&& 1))) ∧
  (∀ (p : Port) (r : PortStep) (s : State), running s = true → (s.port[p]).state = 2 → (s.port[p]).step = 5 → s.img.penumbra = [] →
      ∃ t, exec (.portTrainingStep p r) s = .next t ∧ (t.port[p]).step = 0 ∧ (t.port[p]).epoch = (s.port[p]).epoch + 1 ∧
        (t.port[p]).state = if usableLines (s.port[p]) == dataLines (s.port[p]) then 3 else 4) ∧
  (∀ (p : Port) (raw : List Byte) (f : Flit) (s : State), running s = true → (s.port[p]).state = 2 → (s.port[p]).step ≠ 3 → flitOf raw = some f → f.typ = 4 →
      ∃ t, exec (.train p raw) s = .next t ∧ (t.port[p]).partnerAccepts = (byteAt f.body 18).getLsbD 2 ∧ (t.port[p]).partnerOk = maskAt f.body 20 ∧
        (t.port[p]).partnerHigh = BitVec.ofNat 16 (leNat (f.body.take 2)) ∧ (t.port[p]).state = 2 ∧
        ((s.port[p]).step ≠ 4 → (t.port[p]).step = (s.port[p]).step) ∧
        ((s.port[p]).step = 4 → (byteAt f.body 17).toNat = 5 → (t.port[p]).step = if (s.port[p]).qualDone then 5 else 4)) ∧
  (∀ (p : Port) (raw : List Byte) (f : Flit) (l : Nat) (s : State), running s = true → (s.port[p]).state = 2 → (s.port[p]).step = 3 → flitOf raw = some f →
      f.typ = 4 → identity s p (byteAt f.body 18).toNat (leNat ((f.body.drop 4).take 4)) (BitVec.ofNat 64 (leNat ((f.body.drop 8).take 8))) ≠ 2 →
      settleLevel (leNat (f.body.take 2)) (leNat ((f.body.drop 2).take 2)) = some l →
      ∃ t, exec (.train p raw) s = .next t ∧ (t.port[p]).state = 2 ∧ (t.port[p]).step = 3 ∧ (t.port[p]).trainSeen = true ∧
        (t.port[p]).settled = BitVec.ofNat 16 l) ∧
  (∀ (p : Port) (raw : List Byte) (f : Flit) (s : State), running s = true → (s.port[p]).state = 2 → (s.port[p]).step = 3 → flitOf raw = some f →
      f.typ = 4 → identity s p (byteAt f.body 18).toNat (leNat ((f.body.drop 4).take 4)) (BitVec.ofNat 64 (leNat ((f.body.drop 8).take 8))) = 2 →
      s.img.penumbra = [] →
      ∃ t, exec (.train p raw) s = .next t ∧ (t.port[p]).state = 0 ∧
        ((s.port[p]).noComb = false → (s.port[p]).shutterFailed = false → (t.port[p]).reason = 2)) ∧
  (∀ (p : Port) (s : State), running s = true → (s.port[p]).state = 2 → s.img.penumbra = [] →
      ∃ t, exec (.portTrainingTimeout p) s = .next t ∧ (t.port[p]).state = 0 ∧ (t.port[p]).shutter = .closed ∧
        ((s.port[p]).noComb = false → (s.port[p]).shutterFailed = false → (t.port[p]).reason = 1)) ∧
  (∀ (p : Port) (s : State), running s = true → portUp (s.port[p]) = true →
      ∃ t, exec (.l00LockLost p) s = .next t ∧ (t.port[p]).state = 2 ∧ (t.port[p]).step = 1 ∧
        (t.port[p]).counters[1] = (s.port[p]).counters[1] + 1) ∧
  (∀ (p : Port) (v : Word) (s : State), hostOn s → rsvBad s 0xD0010 v = false → fin! 64 (fld v 13 8) = p → fld v 31 16 = (s.port[p]).epoch.toNat →
      portUp (s.port[p]) = true →
      ∃ t, exec (.prtCmdRetrain v) s = .next t ∧ (t.port[p]).state = 2 ∧ (t.port[p]).step = 2 ∧ t.pln.prtCmd = (1, false, 1)) ∧
  (∀ (p : Port) (v : Word) (s : State), hostOn s → rsvBad s 0xD0010 v = false → fin! 64 (fld v 13 8) = p → fld v 31 16 = (s.port[p]).epoch.toNat →
      (s.port[p]).hold = false → s.img.penumbra = [] →
      ∃ t, exec (.prtCmdHold v) s = .next t ∧ (t.port[p]).hold = true ∧ (t.port[p]).state = 0 ∧ t.pln.prtCmd = (2, false, 1) ∧
        ((s.port[p]).noComb = false → (s.port[p]).shutterFailed = false → (t.port[p]).reason = 6)) ∧
  (∀ (p : Port) (v : Word) (s : State), hostOn s → rsvBad s 0xD0010 v = false → fin! 64 (fld v 13 8) = p → fld v 31 16 = (s.port[p]).epoch.toNat →
      (s.port[p]).hold = true →
      ∃ t, exec (.prtCmdRelease v) s = .next t ∧ (t.port[p]).hold = false ∧ (t.port[p]).state = (s.port[p]).state ∧ t.pln.prtCmd = (3, false, 1)) ∧
  (∀ (p : Port) (v : Word) (s : State), hostOn s → rsvBad s 0xD0010 v = false → fin! 64 (fld v 13 8) = p → fld v 31 16 ≠ (s.port[p]).epoch.toNat →
      ∃ t, exec (.prtCmdRetrain v) s = .next t ∧ (t.port[p]).state = (s.port[p]).state ∧ (t.port[p]).epoch = (s.port[p]).epoch ∧
        (t.port[p]).event = setBit (s.port[p]).event 10 ∧ t.pln.prtCmd = (1, false, 2))

/-- Line markers (R230 to R233): a marker that names its line is taken, one that names another line is a wrong-line lock, all lit lines send one in
the same cycle with their scramblers restarted, after IDLE codewords where no flits went, L00 sends the clock, and a line that loses alignment, or
fails to requalify, is marked; one that qualifies is in service again, or returns from its spare. -/
def Obligations.LineMarkersAndAlignment : Prop :=
  (∀ (p : Port) (n : Line) (raw : List Byte) (s : State), running s = true → n.val ≠ 0 → receiverOn s p n = true → raw.take 8 = linePattern →
      (byteAt raw 8).toNat = n.val → ((s.port[p]).line[n]).wrong = false →
      ∃ t, exec (.lineMarker p n raw) s = .next t ∧ ((t.port[p]).line[n]).lastCount = some (w32 (leNat ((raw.drop 10).take 4))) ∧
        ((t.port[p]).line[n]).missed = 0 ∧ ((t.port[p]).line[n]).farPower = BitVec.ofNat 16 (leNat ((raw.drop 18).take 2)) ∧
        (((s.port[p]).line[n]).lastCount = some (w32 (leNat ((raw.drop 10).take 4)) - 1) → ((t.port[p]).line[n]).aligned = true)) ∧
  (∀ (p : Port) (n : Line) (raw : List Byte) (s : State), running s = true → n.val ≠ 0 → receiverOn s p n = true → raw.take 8 = linePattern →
      (byteAt raw 8).toNat ≠ n.val →
      ∃ t, exec (.lineMarker p n raw) s = .next t ∧ ((t.port[p]).line[n]).wrong = true ∧ ((t.port[p]).line[n]).missed = 0 ∧
        ((t.port[p]).line[n]).lastCount = some (w32 (leNat ((raw.drop 10).take 4))) ∧
        ((t.port[p]).line[n]).counters[2] = ((s.port[p]).line[n]).counters[2] + 1) ∧
  (∀ (p : Port) (n : Line) (raw : List Byte) (s : State), running s = true → n.val = 0 ∨ receiverOn s p n = false →
      ∃ t, exec (.lineMarker p n raw) s = .next t ∧ t.port = s.port) ∧
  (∀ s : State, running s = true →
      ∃ t, exec .lineMarkerSend s = .next t ∧ t.pln.marker = s.pln.marker + 1 ∧ t.beam = s.beam ∧
        (∀ p : Port, 2 ≤ (s.port[p]).state.toNat → Emission.clock p clockPattern ∈ t.out) ∧
        ∀ (p : Port) (n : Line), (t.port[p]).state = (s.port[p]).state ∧
          (t.port[p]).line[n] = { (s.port[p]).line[n] with txScr := ((t.port[p]).line[n]).txScr } ∧
          ((litLines s p).getLsbD n.val = true → Emission.marker p n (markerData s p n) ∈ t.out ∧ ((t.port[p]).line[n]).txScr = scramStart n ∧
            Emission.lineCodeword p n (lineEncode (markerData s p n)) ∈ t.out ∧ ((shareLines s p).getLsbD n.val = false →
              ∃ k, Emission.idleCodewords p n (idleWords 256 k ((s.port[p]).line[n]).txScr) ∈ t.out)) ∧
          ((litLines s p).getLsbD n.val = false → ((t.port[p]).line[n]).txScr = ((s.port[p]).line[n]).txScr)) ∧
  (∀ (p : Port) (n : Line) (s : State), running s = true → receiverOn s p n = true →
      ∃ t, exec (.lineAlignmentLost p n) s = .next t ∧ ((t.port[p]).line[n]).aligned = false ∧ ((t.port[p]).line[n]).missed = 0 ∧
        (portUp (s.port[p]) = true → n.val ≠ 0 → ((t.port[p]).line[n]).out.getLsbD 0 = true ∧ (t.port[p]).lineOk.getLsbD n.val = false)) ∧
  (∀ (p : Port) (n : Line) (s : State), running s = true → receiverOn s p n = false →
      ∃ t, exec (.lineAlignmentLost p n) s = .next t ∧ t.port = s.port) ∧
  (∀ (p : Port) (n : Line) (s : State), running s = true → portUp (s.port[p]) = true → ((s.port[p]).line[n]).out.getLsbD 0 = true →
      ∃ t, exec (.lineRequalify p n .rx) s = .next t ∧ ((t.port[p]).line[n]).requal = true ∧ ((t.port[p]).line[n]).out = ((s.port[p]).line[n]).out) ∧
  (∀ (p : Port) (n : Line) (c : Nat) (s : State), running s = true → ((s.port[p]).line[n]).requal = true → 33 ≤ n.val → c ≤ 64 →
      ∃ t, exec (.requalifyEnd p n c false) s = .next t ∧ ((t.port[p]).line[n]).requal = false ∧ ((t.port[p]).line[n]).out.getLsbD 0 = false ∧
        (t.port[p]).lineOk.getLsbD n.val = true) ∧
  (∀ (p : Port) (n : Line) (c : Nat) (s : State), running s = true → ((s.port[p]).line[n]).requal = true → n.val < 33 → c ≤ 64 →
      ((s.port[p]).sub[subIx true (spareOf n)]).filter (fun u => u.line == n) = none →
      ∃ t, exec (.requalifyEnd p n c false) s = .next t ∧ ((t.port[p]).line[n]).requal = false ∧ ((t.port[p]).line[n]).out.getLsbD 0 = false ∧
        (t.port[p]).lineOk.getLsbD n.val = true) ∧
  (∀ (p : Port) (n : Line) (c : Nat) (u : Subst) (s : State), running s = true → ((s.port[p]).line[n]).requal = true → n.val < 33 → c ≤ 64 →
      (s.port[p]).sub[subIx true (spareOf n)] = some u → u.line = n → u.phase = .standing →
      ∃ t, exec (.requalifyEnd p n c false) s = .next t ∧ ((t.port[p]).line[n]).requal = false ∧ (t.port[p]).lineOk.getLsbD n.val = true ∧
        ((t.port[p]).sub[subIx true (spareOf n)]).map (·.phase) = some .returning) ∧
  (∀ (p : Port) (n : Line) (c : Nat) (s : State), running s = true → ((s.port[p]).line[n]).requal = true → 64 < c →
      ∃ t, exec (.requalifyEnd p n c false) s = .next t ∧ ((t.port[p]).line[n]).requal = false ∧ ((t.port[p]).line[n]).out = ((s.port[p]).line[n]).out)

/-- Ring loops, zones and calibrations (R272, R275, R276, R280 to R282, R286 to R291, R300, R323): a lit ring's loop closes with its heater within 0
to 4 mW, ten dark visits open it and leave its integrator, a zone sample is kept, the sampler threshold moves by one step at most, a hint gain stays
within 0 to 0.050 °C/W, a calibration that is due starts in place on a line without traffic, is reported after 10 s without running, and ends with the
settings its measures choose, and the sweep at Glint ends with training step 1, or with the port Dark when the shutter fails its check. -/
def Obligations.RingLoopsAndCalibrations : Prop :=
  (∀ (r : Ring) (power : Nat) (c : CodeResult) (s : State), running s = true → c ≠ .uncorrectable → ringParked s r.val = false →
      monitorDark power = false →
      ∃ t, exec (.ringLoopVisit r power c) s = .next t ∧ 0 ≤ heaterMw (ringSt t r.val).heater ∧ heaterMw (ringSt t r.val).heater ≤ 4 ∧
        ((ringSt t r.val).astray = false ∨ ringType r.val ≠ ringDrop ∨ (ringLine r.val).val < 33 →
          (ringSt t r.val).closed = true ∧ (ringSt t r.val).darkVisits = 0 ∧
          (ringSt t r.val).heater = heaterDac (modelHeater (rowMissed r.val c s) r.val + (ringSt t r.val).integ))) ∧
  (∀ (r : Ring) (power : Nat) (c : CodeResult) (s : State), running s = true → c ≠ .uncorrectable → monitorDark power = true →
      9 ≤ (ringSt s r.val).darkVisits →
      ∃ t, exec (.ringLoopVisit r power c) s = .next t ∧ (ringSt t r.val).closed = false ∧
        ((ringSt t r.val).astray = false ∨ ringType r.val ≠ ringDrop ∨ (ringLine r.val).val < 33 → (ringSt t r.val).integ = (ringSt s r.val).integ)) ∧
  (∀ (r : Ring) (power : Nat) (s : State), running s = true → portUp (s.port[ringPort r.val]) = true →
      ∃ t, exec (.ringLoopVisit r power .uncorrectable) s = .next t ∧ (t.port[ringPort r.val]).state = 2 ∧ (t.port[ringPort r.val]).step = 1 ∧
        ∀ k : Nat, k / 105 = (ringPort r.val).val → haloRow t k = haloOf (Config.haloRow k)) ∧
  (∀ (p : Port) (x : Int) (s : State), running s = true → sensorOk s (64 + p.val) = false → exec (.ringZoneSample p x) s = .next (irqSettle s)) ∧
  (∀ (p : Port) (x : Int) (s : State), running s = true → sensorOk s (64 + p.val) = true →
      ∃ t, exec (.ringZoneSample p x) s = .next t ∧ (∀ k ∈ [3, 4, 5], zoneCond k x = true → ((s.port[p]).zoneHist.head?).any (zoneCond k) = false →
        t.thm.event.getLsbD k = true) ∧ (t.port[p]).zone = x ∧ (t.port[p]).zoneHist = (x :: (s.port[p]).zoneHist).take 101 ∧
        ∀ q : Port, q ≠ p → t.port[q] = s.port[q]) ∧
  (∀ (p : Port) (n : Line) (k : Nat) (s : State), running s = true → n.val ≠ 0 → portUp (s.port[p]) = true → receiverOn s p n = true →
      ((s.port[p]).line[n]).out.getLsbD 0 = false →
      ∃ t, exec (.samplerTrim p n k) s = .next t ∧
        ((litBeams s p).any (fun b => (wordLines s b).getLsbD n.val) = false → ((t.port[p]).line[n]).threshold = ((s.port[p]).line[n]).threshold +
          (if 32384 < k then 1 else if k < 31616 then -1 else 0)) ∧
        ((litBeams s p).any (fun b => (wordLines s b).getLsbD n.val) = true → ((t.port[p]).line[n]).threshold = ((s.port[p]).line[n]).threshold ∧
          ((t.port[p]).line[n]).trim = if 32384 < k then 1 else if k < 31616 then -1 else ((s.port[p]).line[n]).trim)) ∧
  (∀ (p : Port) (n : Line) (k : Nat) (s : State), running s = true →
      n.val = 0 ∨ portUp (s.port[p]) = false ∨ receiverOn s p n = false ∨ ((s.port[p]).line[n]).out.getLsbD 0 = true →
      ∃ t, exec (.samplerTrim p n k) s = .next t ∧ t.port = s.port) ∧
  (∀ (p : Port) (x : SiteIx) (k : Int) (s : State), running s = true → 0 ≤ ((s.ring.hint[p])[x]).gain → ((s.ring.hint[p])[x]).gain ≤ 50 →
      ∃ t, exec (.hintLearn p x k) s = .next t ∧ 0 ≤ ((t.ring.hint[p])[x]).gain ∧ ((t.ring.hint[p])[x]).gain ≤ 50 ∧
        ((t.ring.hint[p])[x]).tau1 = ((s.ring.hint[p])[x]).tau1 ∧ t.ring.hints.length = s.ring.hints.length) ∧
  (∀ (p : Port) (x : SiteIx) (k : Int) (h : ThermalHint) (s : State), running s = true →
      s.ring.hints.reverse.find? (fun h => decide (h.site = x) && decide (h.came + 8000 ≤ s.time) && !h.learnt.getLsbD p.val) = some h →
      ∃ t, exec (.hintLearn p x k) s = .next t ∧ ((t.ring.hint[p])[x]).gain = learntGain s p h k ((s.ring.hint[p])[x]) ∧
        ((t.ring.hint[p])[x]).learned = true) ∧
  (∀ (p : Port) (n : Line) (d : Dir) (k : Nat) (s : State), running s = true → (calOf ((s.port[p]).line[n]) d).dueSince = some k →
      (calOf ((s.port[p]).line[n]) d).running = false → zoneSteady (s.port[p]) = true → calWay s p n d = .inPlace →
      ∃ t, exec (.calibrationStart p n d) s = .next t ∧ (calOf ((t.port[p]).line[n]) d).running = true ∧ t.beam = s.beam) ∧
  (∀ (p : Port) (n : Line) (d : Dir) (k : Nat) (s : State), running s = true → (calOf ((s.port[p]).line[n]) d).dueSince = some k →
      (calOf ((s.port[p]).line[n]) d).running = false → (calOf ((s.port[p]).line[n]) d).overdue = false → k + 10000000 ≤ s.time →
      ∃ t, exec (.calibrationOverdue p n d) s = .next t ∧ (calOf ((t.port[p]).line[n]) d).overdue = true ∧
        (calOf ((t.port[p]).line[n]) d).dueSince = some k) ∧
  (∀ (p : Port) (n : Line) (m : CalMeasure) (s : State), running s = true → (calOf ((s.port[p]).line[n]) .tx).running = true →
      lineQuiet s p n false = true → m.marker = true →
      ∃ t, exec (.calibrationComplete p n .tx m) s = .next t ∧ calOf ((t.port[p]).line[n]) .tx = {} ∧
        ((t.port[p]).line[n]).driverOut = pickDac m.dacOma ∧ ((t.port[p]).line[n]).rhoM = m.rhoM) ∧
  (∀ (p : Port) (n : Line) (m : CalMeasure) (s : State), running s = true → (calOf ((s.port[p]).line[n]) .rx).running = true →
      lineQuiet s p n true = true →
      ∃ t, exec (.calibrationComplete p n .rx m) s = .next t ∧ calOf ((t.port[p]).line[n]) .rx = {} ∧
        ((t.port[p]).line[n]).sliceOut = pickSlice m.sliceOffset ∧ ((t.port[p]).line[n]).bank = pickBank m.bankSwing) ∧
  (∀ (p : Port) (n : Line) (d : Dir) (m : CalMeasure) (s : State), running s = true → (calOf ((s.port[p]).line[n]) d).running = true →
      lineQuiet s p n (d == Dir.rx) = false ∨ (d = .tx ∧ m.marker = false) →
      ∃ t, exec (.calibrationComplete p n d m) s = .next t ∧ (calOf ((t.port[p]).line[n]) d).running = false ∧
        (calOf ((t.port[p]).line[n]) d).dueSince = (calOf ((s.port[p]).line[n]) d).dueSince ∧
        ((t.port[p]).line[n]).driverOut = ((s.port[p]).line[n]).driverOut ∧ ((t.port[p]).line[n]).rhoM = ((s.port[p]).line[n]).rhoM ∧
        ((t.port[p]).line[n]).sliceOut = ((s.port[p]).line[n]).sliceOut ∧ ((t.port[p]).line[n]).bank = ((s.port[p]).line[n]).bank) ∧
  (∀ (p : Port) (w : GlintFound) (s : State), running s = true → (s.port[p]).state = 1 →
      ∃ t, exec (.glintCalibrationDone p true w) s = .next t ∧ (t.port[p]).state = 2 ∧ (t.port[p]).step = 1 ∧ (t.port[p]).shutter = .opened ∧
        (t.port[p]).coldSwept = true) ∧
  (∀ (p : Port) (w : GlintFound) (s : State), running s = true → (s.port[p]).state = 1 →
      ∃ t, exec (.glintCalibrationDone p false w) s = .next t ∧ (t.port[p]).state = 0 ∧ (t.port[p]).shutter = .closed ∧
        (t.port[p]).reason = (if (s.port[p]).noComb then 8 else 7) ∧ (t.port[p]).shutterFailed = true)

/-- Spare lines (R293 to R296, Table 9.13): the owner answers a request with go, the receiving end takes the share at the named marker and answers
applied, on which the substitution stands at the owner (a calibration in the way of a higher need, and a line that has recovered meanwhile, go back at
once); an unanswered go is repeated, and a go that crosses a request for another line goes first. -/
def Obligations.SubstitutionHandshake : Prop :=
  (∀ (b : Beam) (raw : List Byte) (f : Flit) (n : Line) (s : State), flitArrives b raw 5 f s → subLine f.body = some n → byteAt f.body 0 = 3 →
      byteAt f.body 4 = 0 → (s.port[portOf s b]).sub[subIx false (spareOf n)] = none → spareOk s (portOf s b) (subIx false (spareOf n)) b = true →
      ∃ t, exec (.substitutionRequest b raw) s = .next t ∧
        (((t.port[portOf s b]).sub[subIx false (spareOf n)]).map fun u => (u.line, u.phase, u.request, u.goSeen)) =
          some (n, .going, byteAt f.body 1, true) ∧ (t.beam[b]).ctl.length = (s.beam[b]).ctl.length + 1) ∧
  (∀ (b : Beam) (raw : List Byte) (f : Flit) (n : Line) (s : State), flitArrives b raw 5 f s → subLine f.body = some n → byteAt f.body 0 = 4 →
      byteAt f.body 4 = 0 → (s.port[portOf s b]).sub[subIx true (spareOf n)] = none →
      ∃ t, exec (.substitutionGo b raw) s = .next t ∧
        (((t.port[portOf s b]).sub[subIx true (spareOf n)]).map fun u => (u.line, u.phase, u.marker, u.goSeen)) =
          some (n, .going, w32 (leNat ((f.body.drop 6).take 4)), true) ∧
        ((s.port[portOf s b]).needs.find? (fun u => u.rx && u.line == n) = none →
          ((t.port[portOf s b]).sub[subIx true (spareOf n)]).map (·.beam) = some b)) ∧
  (∀ (b : Beam) (raw : List Byte) (f : Flit) (n : Line) (u : Subst) (s : State), flitArrives b raw 5 f s → subLine f.body = some n → byteAt f.body 0 = 4 →
      byteAt f.body 4 = 0 → (s.port[portOf s b]).sub[subIx true (spareOf n)] = some u → u.line ≠ n → u.phase = .requested →
      ∃ t, exec (.substitutionGo b raw) s = .next t ∧
        (((t.port[portOf s b]).sub[subIx true (spareOf n)]).map fun u => (u.line, u.phase, u.goSeen)) = some (n, .going, true) ∧
        ∃ v ∈ (t.port[portOf s b]).needs, v.rx = u.rx ∧ v.line = u.line) ∧
  (∀ (p : Port) (upper : Bool) (u : Subst) (s : State), running s = true → (s.port[p]).sub[subIx true (b2n upper)] = some u → u.goSeen = true →
      u.phase = .going → noHigherNeed p (subIx true (b2n upper)) u s →
      u.reason = 0 ∨ (s.port[p]).lineOk.getLsbD u.line.val = false ∨ ((s.port[p]).line[u.line]).wrong = true →
      ∃ t, exec (.substitutionMarker p upper u.marker) s = .next t ∧
        (t.port[p]).sub[subIx true (b2n upper)] = some { u with phase := .standing, goSeen := false } ∧
        (t.beam[u.beam]).ctl.length = (s.beam[u.beam]).ctl.length + 1) ∧
  (∀ (p : Port) (upper : Bool) (u : Subst) (s : State), running s = true → (s.port[p]).sub[subIx true (b2n upper)] = some u → u.goSeen = true →
      u.phase = .going → u.reason ≠ 0 → (s.port[p]).lineOk.getLsbD u.line.val = true → ((s.port[p]).line[u.line]).wrong = false →
      ∃ t, exec (.substitutionMarker p upper u.marker) s = .next t ∧
        ((t.port[p]).sub[subIx true (b2n upper)]).map (fun u => (u.line, u.phase)) = some (u.line, .returning)) ∧
  (∀ (p : Port) (upper : Bool) (u v : Subst) (s : State), running s = true → (s.port[p]).sub[subIx true (b2n upper)] = some u → u.goSeen = true →
      u.phase = .going → u.reason = 0 → u.own = true → v ∈ (s.port[p]).needs → subIx v.rx (spareOf v.line) = subIx true (b2n upper) → v.reason ≠ 0 →
      ∃ t, exec (.substitutionMarker p upper u.marker) s = .next t ∧
        ((t.port[p]).sub[subIx true (b2n upper)]).map (fun u => (u.line, u.phase)) = some (u.line, .returning)) ∧
  (∀ (b : Beam) (raw : List Byte) (f : Flit) (n : Line) (u : Subst) (s : State), flitArrives b raw 5 f s → subLine f.body = some n → byteAt f.body 0 = 5 →
      byteAt f.body 4 = 0 → (s.port[portOf s b]).sub[subIx false (spareOf n)] = some u → u.line = n → u.phase = .going →
      noHigherNeed (portOf s b) (subIx false (spareOf n)) u s →
      ∃ t, exec (.substitutionApplied b raw) s = .next t ∧
        (t.port[portOf s b]).sub[subIx false (spareOf n)] = some { u with phase := .standing, goSeen := false }) ∧
  (∀ (p : Port) (upper : Bool) (u : Subst) (s : State), running s = true → (s.port[p]).sub[subIx false (b2n upper)] = some u → u.phase = .going →
      ∃ t, exec (.substitutionRepeat p .tx upper) s = .next t ∧ (t.beam[u.beam]).ctl = (s.beam[u.beam]).ctl ++ [⟨5, subPayload s p 4 u false⟩] ∧
        t.port = s.port)

/-- The sideband link of a site (R358 to R360, Table 11.6): a slot out of order asks for a RETRY, RETRY and 1 µs without an acknowledgement resend the
waiting messages, a reserved type is counted and discarded, and 100 µs of silence contain the site. -/
def Obligations.SidebandLinkRecovers : Prop :=
  (∀ (x : SiteIx) (raw : List Byte) (m : Slot) (s : State), slotArrives x raw m s → m.typ = 0x01 → ackCount (s.site[x]).sb m.ack = 0 →
      ackCount (s.site[x]).sb (byteAt m.body 0) = 0 → (s.site[x]).sb.unacked ≠ [] →
      ∃ t, exec (.retry x raw) s = .next t ∧ (t.site[x]).sb.resend = (s.site[x]).sb.unacked.length ∧
        (t.site[x]).sb.unacked = (s.site[x]).sb.unacked ∧ (t.site[x]).event = setBit (s.site[x]).event 7) ∧
  (∀ (x : SiteIx) (raw : List Byte) (m : Slot) (s : State), slotArrives x raw m s → m.typ = 0x00 →
      ∃ t, exec (.retry x raw) s = .next t ∧ (t.site[x]).sb.unacked = (s.site[x]).sb.unacked.drop (ackCount (s.site[x]).sb m.ack) ∧
        (t.site[x]).sb.rxSeq = (s.site[x]).sb.rxSeq ∧ (t.site[x]).state = (s.site[x]).state) ∧
  (∀ (x : SiteIx) (raw : List Byte) (m : Slot) (s : State), running s = true → slotOf raw = some m → m.typ = 0x1C → (s.site[x]).sb.up = true →
      m.seq ≠ (s.site[x]).sb.rxSeq →
      ∃ t, exec (.doorbell x raw) s = .next t ∧ (t.site[x]).sb.retryOwed = true ∧ (t.site[x]).sb.rxSeq = (s.site[x]).sb.rxSeq ∧ t.dbl = s.dbl) ∧
  (∀ (x : SiteIx) (s : State), running s = true → (s.site[x]).sb.up = true → (s.site[x]).sb.unacked ≠ [] →
      (s.site[x]).sb.resend ≤ (s.site[x]).sb.unacked.length →
      ∃ t, exec (.sbResendTimeout x) s = .next t ∧ (t.site[x]).sb.resend = (s.site[x]).sb.unacked.length ∧ (t.site[x]).state = (s.site[x]).state) ∧
  (∀ (x : SiteIx) (s : State), running s = true → siteUp s x = true → (s.site[x]).sb.unacked ≠ [] → s.img.penumbra = [] →
      ∃ t, exec (.sidebandFailed x) s = .next t ∧ (t.site[x]).state = 5 ∧ (t.site[x]).reason = 7 ∧ (t.site[x]).rstn = true ∧
        (t.site[x]).epoch = (s.site[x]).epoch + 1) ∧
  (∀ (x : SiteIx) (raw : List Byte) (m : Slot) (s : State), slotArrives x raw m s → sbReserved x m.typ = true →
      ∃ t, exec (.sbReservedMessage x raw) s = .next t ∧
        (t.site[x]).counters = upd (s.site[x]).counters (if x.val < 4 then 0x0A else 0x08) (· + 1) ∧ (t.site[x]).state = (s.site[x]).state)

/-- Levels and credits of a site (R349, R356, Table 11.9): a common level of at least adapter_min is settled, without one the site is Disabled with
reason 2, CREDIT_INIT sets a stream's frames and window, CREDIT its frames freed, and the return timer reports what is owed. -/
def Obligations.LevelsAndCredits : Prop :=
  (∀ (x : SiteIx) (raw : List Byte) (m : Slot) (l : Nat) (s : State), slotArrives x raw m s → m.typ = 0x10 → (s.site[x]).state = 2 →
      settle (bnat m.body 0 2) (bnat m.body 2 2) = some l → (siteRec s x).adapterMin.toNat ≤ l →
      ∃ t, exec (.level x raw) s = .next t ∧ (t.site[x]).settled = BitVec.ofNat 16 l ∧ (t.site[x]).levelSeen = true ∧ (t.site[x]).state = 2 ∧
        (t.site[x]).sb.rxSeq = (s.site[x]).sb.rxSeq + 1) ∧
  (∀ (x : SiteIx) (raw : List Byte) (m : Slot) (s : State), slotArrives x raw m s → m.typ = 0x10 → (s.site[x]).state = 2 →
      settle (bnat m.body 0 2) (bnat m.body 2 2) = none →
      ∃ t, exec (.level x raw) s = .next t ∧ (t.site[x]).state = 6 ∧ (t.site[x]).reason = 2 ∧ (t.site[x]).sb.up = false) ∧
  (∀ (x : SiteIx) (raw : List Byte) (m : Slot) (e : TxStream) (s : State), slotArrives x raw m s → m.typ = 0x15 → (s.site[x]).state = 2 →
      aget (s.site[x]).tx (bnat m.body 0 2) = some e →
      ∃ t, exec (.creditInit x raw) s = .next t ∧ aget (t.site[x]).tx (bnat m.body 0 2) = some { e with
        limit := bnat m.body 2 2, window := (if byteAt m.body 4 = 0 then 256 else (byteAt m.body 4).toNat) * 2 ^ 20, inited := true }) ∧
  (∀ (x : SiteIx) (raw : List Byte) (m : Slot) (e : TxStream) (s : State), slotArrives x raw m s → m.typ = 0x16 → bnat m.body 0 2 ≠ 0xFFFF →
      bnat m.body 4 2 = 0xFFFF → bnat m.body 8 2 = 0xFFFF → bnat m.body 12 2 = 0xFFFF → aget (s.site[x]).tx (bnat m.body 0 2) = some e →
      ∃ t, exec (.credit x raw) s = .next t ∧
        aget (t.site[x]).tx (bnat m.body 0 2) = some { e with freed := unwrap16 e.freed (bnat m.body 2 2) }) ∧
  (∀ (x : SiteIx) (s : State), running s = true →
      ∃ t, exec (.creditReturnTimer x) s = .next t ∧ (∀ e ∈ (t.site[x]).rx, e.2.owed = 0) ∧ (t.site[x]).rx.length = (s.site[x]).rx.length)

/-- Messages of the compute dies over the sideband (R361 to R365): TOKEN counts in its slot, HINT is kept for the ring model, MBX_DATA, MBX_GO and
MBX_RESP move a message (an answer that is late goes to no newer one, and the firmware's next one follows its last), DOORBELL rings, and LOCK acquires
for the site. -/
def Obligations.SidebandMessagesAct : Prop :=
  (∀ (x : SiteIx) (raw : List Byte) (m : Slot) (w : DWord) (s : State), slotArrives x raw m s → m.typ = 0x17 → BitVec.ofNat 64 (bnat m.body 0 8) = w →
      (wbits w 63 60 = 2 ∨ wbits w 63 60 = 3) → w32 (wbits w 31 0) = s.ctl.epoch → s.img.penumbra = [] →
      ∃ t, exec (.sbToken x raw) s = .next t ∧ t.ctl.bank = bankAdd (wbits w 59 48) (BitVec.ofNat 8 (wbits w 47 40)) s.ctl.bank) ∧
  (∀ (x : SiteIx) (raw : List Byte) (m : Slot) (s : State), slotArrives x raw m s → m.typ = 0x18 → (calibRec s).haloFf / 2 % 2 = 1 →
      (siteRec s x).hints = true →
      ∃ t, exec (.sbHint x raw) s = .next t ∧
        t.ring.hints = { site := x, dP := sval 16 (bnat m.body 0 2), from_ := s.time + bnat m.body 2 2, came := s.time } :: s.ring.hints) ∧
  (∀ (x : SiteIx) (raw : List Byte) (m : Slot) (c : Fin 8) (s : State), slotArrives x raw m s → m.typ = 0x19 → chanOf m.body = some c →
      (byteAt m.body 1).toNat ≤ 4 →
      ∃ t, exec (.mbxData x raw) s = .next t ∧ (∀ i : Fin 64, ((t.mbx.d2h[x])[c]).parts[i] =
        if i.val / 14 = (byteAt m.body 1).toNat then byteAt m.body (2 + i.val % 14) else ((s.mbx.d2h[x])[c]).parts[i]) ∧
        ((t.mbx.d2h[x])[c]).go = ((s.mbx.d2h[x])[c]).go) ∧
  (∀ (x : SiteIx) (raw : List Byte) (m : Slot) (c : Fin 8) (s : State), slotArrives x raw m s → m.typ = 0x1A → chanOf m.body = some c →
      siteGone s x = false → dieBound s x c = true → ((s.mbx.d2h[x])[c]).go = false →
      ∃ t, exec (.mbxGo x raw) s = .next t ∧ ((t.mbx.d2h[x])[c]).go = true ∧ ((t.mbx.d2h[x])[c]).msg.words = partWords ((s.mbx.d2h[x])[c]).parts ∧
        ((t.mbx.d2h[x])[c]).msg.tag = BitVec.ofNat 16 (bnat m.body 2 2)) ∧
  (∀ (x : SiteIx) (raw : List Byte) (m : Slot) (c : Fin 8) (s : State), running s = true → siteGone s x = true → slotOf raw = some m → m.typ = 0x1A →
      chanOf m.body = some c →
      ∃ t, exec (.mbxGo x raw) s = .next t ∧ ((t.mbx.d2h[x])[c]).go = false ∧ Emission.siteAborted x c ∈ t.out) ∧
  (∀ (x : SiteIx) (raw : List Byte) (m : Slot) (c : Fin 8) (h : TxChan) (s : State), slotArrives x raw m s → m.typ = 0x1B → chanOf m.body = some c →
      oldResp (byteAt m.body 1).toNat ((s.mbx.h2d[x])[c]) = some h →
      ∃ t, exec (.mbxResp x raw) s = .next t ∧ (t.mbx.h2d[x])[c] = h ∧ t.host.aer = s.host.aer) ∧
  (∀ (x : SiteIx) (raw : List Byte) (m : Slot) (c : Fin 8) (s : State), slotArrives x raw m s → m.typ = 0x1B → chanOf m.body = some c →
      oldResp (byteAt m.body 1).toNat ((s.mbx.h2d[x])[c]) = none → ((s.mbx.h2d[x])[c]).go = true → ((s.mbx.h2d[x])[c]).msg.sender = 1 →
      ∃ t, exec (.mbxResp x raw) s = .next t ∧ (byteAt m.body 1 = 0 → ((t.mbx.h2d[x])[c]).acked = true ∧ ((t.mbx.h2d[x])[c]).go = true) ∧
        (byteAt m.body 1 = 1 → ((t.mbx.h2d[x])[c]).go = false ∧ ((t.mbx.h2d[x])[c]).status = setBit ((s.mbx.h2d[x])[c]).status stRejected ∧
          t.host.aer = .completerAbort (txCtrlAddr s (.h2d x c)) s.fresh :: s.host.aer) ∧
        (byteAt m.body 1 = 2 → ((t.mbx.h2d[x])[c]).go = false ∧ ((t.mbx.h2d[x])[c]).timer = none ∧
          ((t.mbx.h2d[x])[c]).status = setBit ((s.mbx.h2d[x])[c]).status stTaken ∧ t.host = s.host)) ∧
  (∀ (x : SiteIx) (raw : List Byte) (m : Slot) (c : Fin 8) (e : Msg) (l : List Msg) (s : State), slotArrives x raw m s → m.typ = 0x1B →
      chanOf m.body = some c → byteAt m.body 1 = 2 → oldResp 2 ((s.mbx.h2d[x])[c]) = none → ((s.mbx.h2d[x])[c]).go = true →
      ((s.mbx.h2d[x])[c]).msg.sender = 0 → (s.mbx.h2dQueue[x])[c] = e :: l → siteUp s x = true →
      ∃ t, exec (.mbxResp x raw) s = .next t ∧ ((t.mbx.h2d[x])[c]).go = true ∧ ((t.mbx.h2d[x])[c]).msg = e ∧ (t.mbx.h2dQueue[x])[c] = l) ∧
  (∀ (x : SiteIx) (raw : List Byte) (m : Slot) (s : State), slotArrives x raw m s → m.typ = 0x1C → byteAt m.body 4 = 1 →
      ∃ t, exec (.doorbell x raw) s = .next t ∧ t.dbl.host = s.dbl.host ||| w32 (bnat m.body 0 4) ∧ t.dbl.fw = s.dbl.fw) ∧
  (∀ (x : SiteIx) (raw : List Byte) (m : Slot) (v : Word) (s : State), slotArrives x raw m s → m.typ = 0x1C → byteAt m.body 4 = 0 →
      w32 (bnat m.body 0 4) = v →
      ∃ t, exec (.doorbell x raw) s = .next t ∧ t.dbl.fw = s.dbl.fw ||| v ∧ t.dbl.host = s.dbl.host ∧
        (v &&& ~~~s.dbl.fw &&& ~~~s.dbl.fwMask ≠ 0 → Emission.fwDoorbell (v &&& ~~~s.dbl.fw &&& ~~~s.dbl.fwMask) ∈ t.out)) ∧
  (∀ (x : SiteIx) (raw : List Byte) (m : Slot) (s : State), slotArrives x raw m s → m.typ = 0x1D → byteAt m.body 1 = 0 →
      (byteAt m.body 0).toNat < 32 →
      ∃ t, exec (.lock x raw) s = .next t ∧ t.lck.owner[fin! 32 (byteAt m.body 0).toNat] =
        (if s.lck.owner[fin! 32 (byteAt m.body 0).toNat] = 0 then ownerCode (.site x) else s.lck.owner[fin! 32 (byteAt m.body 0).toNat]) ∧
        (t.site[x]).sb.queue.length = (s.site[x]).sb.queue.length + 1) ∧
  (∀ (x : SiteIx) (raw : List Byte) (m : Slot) (s : State), slotArrives x raw m s → m.typ = 0x1D → byteAt m.body 1 = 1 →
      (byteAt m.body 0).toNat < 32 →
      ∃ t, exec (.lock x raw) s = .next t ∧ t.lck.owner[fin! 32 (byteAt m.body 0).toNat] =
        (if s.lck.owner[fin! 32 (byteAt m.body 0).toNat] = ownerCode (.site x) then 0 else s.lck.owner[fin! 32 (byteAt m.body 0).toNat]))

/-- Sites come up by training (R348, R350, R382, Tables 11.5 and 12.8): release of the RSTN pulse starts step 1, steps advance, step 5 makes the site
Active with its frame counters at 0, and a step not done in 10 ms Disables it with reason 1. -/
def Obligations.SitesTrain : Prop :=
  (∀ (x : SiteIx) (s : State), running s = true → (s.site[x]).state = 1 → (s.site[x]).hold = false → (siteRec s x).use = true →
      ∃ t, exec (.siteResetRelease x) s = .next t ∧ (t.site[x]).state = 2 ∧ (t.site[x]).step = 1 ∧ (t.site[x]).rstn = false ∧
        (t.site[x]).epoch = (s.site[x]).epoch + 1) ∧
  (∀ (w : WideIx) (r : WideStep) (s : State), running s = true → (s.site[w.site]).state = 2 → (s.site[w.site]).step = 1 →
      ∃ t, exec (.wpTrainingStep w r) s = .next t ∧ (t.site[w.site]).state = 2 ∧ (t.site[w.site]).step = 2) ∧
  (∀ (w : WideIx) (r : WideStep) (s : State), running s = true → (s.site[w.site]).state = 2 → (s.site[w.site]).step = 3 →
      trainFailed w (trainMaps w r s) = none →
      ∃ t, exec (.wpTrainingStep w r) s = .next t ∧ (t.site[w.site]).step = 4 ∧ (t.site[w.site]).sb.up = true ∧
        ∀ m : Fin 33, modUsed s w m.val = true →
          ((t.wide[w]).mods[m]).rx.good = nth r.goodRx m.val 0 &&& ~~~ ((s.wide[w]).mods[m]).wtBad) ∧
  (∀ (w : WideIx) (r : WideStep) (k : Nat) (s : State), running s = true → (s.site[w.site]).state = 2 → (s.site[w.site]).step = 3 →
      trainFailed w (trainMaps w r s) = some k →
      ∃ t, exec (.wpTrainingStep w r) s = .next t ∧ (t.site[w.site]).state = 6 ∧ (t.site[w.site]).reason = BitVec.ofNat 4 k) ∧
  (∀ (w : WideIx) (r : WideStep) (s : State), running s = true → (s.site[w.site]).state = 2 → (s.site[w.site]).step = 5 →
      ∃ t, exec (.wpTrainingStep w r) s = .next t ∧ (t.site[w.site]).state = 3 ∧ (t.site[w.site]).step = 0 ∧
        ∀ m : Fin 33, ((t.wide[w]).mods[m]).rxFrame = 0 ∧ ((t.wide[w]).mods[m]).txFrame = 0) ∧
  (∀ (w : WideIx) (s : State), running s = true → (s.site[w.site]).state = 2 →
      ∃ t, exec (.wpTrainingTimeout w) s = .next t ∧ (t.site[w.site]).state = 6 ∧ (t.site[w.site]).reason = 1) ∧
  (∀ (q : ReachIx) (r : ReachStep) (s : State), running s = true → (s.site[q.site]).state = 2 → (s.site[q.site]).step = 1 →
      ∃ t, exec (.tpTrainingStep q r) s = .next t ∧ (t.site[q.site]).state = 2 ∧
        (t.site[q.site]).step = if framesLocked s q (Config.freeChoice s.fresh) then 2 else 1) ∧
  (∀ (q : ReachIx) (r : ReachStep) (s : State), running s = true → (s.site[q.site]).state = 2 → (s.site[q.site]).step = 2 →
      ∃ t, exec (.tpTrainingStep q r) s = .next t ∧ (t.site[q.site]).state = 2 ∧ (t.site[q.site]).step = if equalised s q then 3 else 2) ∧
  (∀ (q : ReachIx) (r : ReachStep) (g : BitVec 8) (s : State), running s = true → (s.site[q.site]).state = 2 → (s.site[q.site]).step = 3 →
      g = BitVec.ofNat 8 (boolsNat ((fins 8).map fun k => (quadMask s q).getLsbD k.val && quadPasses r k)) &&& r.partnerGood → s.img.penumbra = [] →
      ∃ t, exec (.tpTrainingStep q r) s = .next t ∧
        (if quadCount g < quadsNeeded (quadCount (quadMask s q)) then (t.site[q.site]).state = 6 ∧ (t.site[q.site]).reason = 5
        else if quadCount g < quadCount (quadMask s q) ∧ (siteRec s q.site).degraded = false then (t.site[q.site]).state = 5 ∧ (t.site[q.site]).reason = 6
        else (t.site[q.site]).state = 2 ∧ (t.site[q.site]).step = 4 ∧ (t.reach[q]).good = g)) ∧
  (∀ (q : ReachIx) (r : ReachStep) (s : State), running s = true → (s.site[q.site]).state = 2 → (s.site[q.site]).step = 5 →
      ∃ t, exec (.tpTrainingStep q r) s = .next t ∧ (t.site[q.site]).state = 3 ∧ (t.reach[q]).inService = (s.reach[q]).good) ∧
  (∀ (q : ReachIx) (s : State), running s = true → (s.site[q.site]).state = 2 →
      ∃ t, exec (.tpTrainingTimeout q) s = .next t ∧ (t.site[q.site]).state = 6 ∧ (t.site[q.site]).reason = 1)

/-- Module frames of a Wide Port (R338 to R340, R353 to R357, Table 11.7): a clean head opens its stream's transfer, an idle frame is counted, an
unclassifiable one is Contained on the site's streams, and every frame is counted; training and a test judge its lanes by WT-A; sending takes the
slot's stream or an idle frame, and a repair test carries WT-A. -/
def Obligations.WidePortFrames : Prop :=
  (∀ (w : WideIx) (m : Fin 32) (ls : List DWord) (s : State), running s = true → modOn s w (mix m) = true →
      modTests s w (mix m) = false → classifyFrame (((s.wide[w]).mods[mix m]).rx.good) ls = some (2, []) →
      ∃ t, exec (.moduleFrame w (mix m) ls) s = .next t ∧ ((t.wide[w]).mods[mix m]).rxFrame = ((s.wide[w]).mods[mix m]).rxFrame + 1 ∧
        ((t.wide[w]).mods[mix m]).counters[2] = ((s.wide[w]).mods[mix m]).counters[2] + 1 ∧ t.site = s.site) ∧
  (∀ (w : WideIx) (m : Fin 32) (ls : List DWord) (s : State), running s = true → modOn s w (mix m) = true →
      modTests s w (mix m) = false → classifyFrame (((s.wide[w]).mods[mix m]).rx.good) ls = none →
      s.img.penumbra = [] →
      ∃ t, exec (.moduleFrame w (mix m) ls) s = .next t ∧ ((t.wide[w]).mods[mix m]).rxFrame = ((s.wide[w]).mods[mix m]).rxFrame + 1 ∧
        ((t.wide[w]).mods[mix m]).counters[5] = ((s.wide[w]).mods[mix m]).counters[5] + 1 ∧ (t.site[w.site]).reason = 9 ∧
        (t.site[w.site]).event = setBit (s.site[w.site]).event 3 ∧ (t.site[w.site]).state = (s.site[w.site]).state) ∧
  (∀ (w : WideIx) (m : Fin 32) (ls : List DWord) (k : Nat) (r : RxStream) (b : List Byte) (s : State), running s = true → modOn s w (mix m) = true →
      modTests s w (mix m) = false → classifyFrame (((s.wide[w]).mods[mix m]).rx.good) ls = some (1, []) → frameBytes (((s.wide[w]).mods[mix m]).rx.good) ls = b →
      slotStream (boundStreams s w m.val false) ((s.wide[w]).mods[mix m]).rxFrame.toNat = some k → aget (s.site[w.site]).rx k = some r → r.opened = none →
      noCredit (s.site[w.site]) k = false → bnat b 0 2 = k → 0 < bnat b 4 4 → bnat b 4 4 ≤ 2 ^ 28 → (b.drop 16).length < bnat b 4 4 →
      s.ctl.named.contains (w.site.val, k, bnat b 2 2) = false →
      ∃ t, exec (.moduleFrame w (mix m) ls) s = .next t ∧ ((aget (t.site[w.site]).rx k).bind (·.opened)) =
          some { stream := k, offset := bnat b 2 2, length := bnat b 4 4, data := b.drop 16, frames := 1 } ∧
        ((t.wide[w]).mods[mix m]).counters[1] = ((s.wide[w]).mods[mix m]).counters[1] + 1) ∧
  (∀ (w : WideIx) (m : Fin 33) (ls : List DWord) (s : State), running s = true → modOn s w m = true → modTests s w m = true →
      ∃ t, exec (.moduleFrame w m ls) s = .next t ∧ ((t.wide[w]).mods[m]).rxFrame = ((s.wide[w]).mods[m]).rxFrame + 1 ∧
        ((t.wide[w]).mods[m]).counters = ((s.wide[w]).mods[m]).counters ∧ t.site = s.site) ∧
  (∀ (w : WideIx) (m : Fin 33) (ls : List DWord) (s : State), running s = true → wtListens s w m = true →
      ∃ t, exec (.moduleFrame w m ls) s = .next t ∧ t.wide = (wtFrame w m ls s).wide ∧ t.site = s.site) ∧
  (∀ (w : WideIx) (ls : List DWord) (s : State), running s = true → frameOn s w 32 = true → modTests s w 32 = false →
      ∃ t, exec (.moduleFrame w 32 ls) s = .next t ∧ ((t.wide[w]).mods[(32 : Fin 33)]).rxFrame = ((s.wide[w]).mods[(32 : Fin 33)]).rxFrame + 1 ∧
        (t.site[w.site]).state = (s.site[w.site]).state ∧
        (sidebandOdd (((s.wide[w]).mods[(32 : Fin 33)]).rx.good) ls ≠ [] → ((t.wide[w]).mods[(32 : Fin 33)]).due = true)) ∧
  (∀ (w : WideIx) (m : Fin 32) (s : State), running s = true → modOn s w (mix m) = true → modTests s w (mix m) = true →
      ∃ t, exec (.moduleFrameSend w m) s = .next t ∧ ((t.wide[w]).mods[mix m]).txFrame = ((s.wide[w]).mods[mix m]).txFrame + 1 ∧ t.site = s.site ∧
        Emission.frame w (mix m) (wtA m.val ((s.wide[w]).mods[mix m]).wtFrames) ∈ t.out) ∧
  (∀ (w : WideIx) (m : Fin 32) (s : State), running s = true → modOn s w (mix m) = true → modTests s w (mix m) = false →
      boundStreams s w m.val true = [] →
      ∃ t, exec (.moduleFrameSend w m) s = .next t ∧ ((t.wide[w]).mods[mix m]).txFrame = ((s.wide[w]).mods[mix m]).txFrame + 1 ∧ t.site = s.site ∧
        Emission.frame w (mix m) (frameLanes ((s.wide[w]).mods[mix m]).tx.good 2 []) ∈ t.out) ∧
  (∀ (w : WideIx) (m : Fin 32) (k : Nat) (e e1 : TxStream) (ty : FrameTyp) (b : List Byte) (s : State), running s = true → modOn s w (mix m) = true →
      ((s.wide[w]).mods[mix m]).phase = .idle → slotStream (boundStreams s w m.val true) ((s.wide[w]).mods[mix m]).txFrame.toNat = some k →
      aget (s.site[w.site]).tx k = some e → txNext 488 504 e = some (ty, b, e1) →
      ∃ t, exec (.moduleFrameSend w m) s = .next t ∧ aget (t.site[w.site]).tx k = some e1 ∧
        ((t.wide[w]).mods[mix m]).counters[6] = ((s.wide[w]).mods[mix m]).counters[6] + 1 ∧
        Emission.frame w (mix m) (frameLanes ((s.wide[w]).mods[mix m]).tx.good ty b) ∈ t.out) ∧
  (∀ (w : WideIx) (x : SiteIx) (s : State), running s = true → wideOf x = some w → (s.site[x]).sb.up = true →
      ((s.wide[w]).mods[(32 : Fin 33)]).phase = .idle → wtTime s w 32 = false →
      ∃ t, exec (.sidebandFrameSend x) s = .next t ∧
        Emission.frame w 32 (sidebandLanes (((s.wide[w]).mods[(32 : Fin 33)]).tx.good) (sbSlots (mayLeave s) 6 (s.site[x]).sb).1) ∈ t.out ∧ Emission.sideband x (sbSlots (mayLeave s) 6 (s.site[x]).sb).1 ∈ t.out ∧
        (t.site[x]).sb = (sbSlots (mayLeave s) 6 (s.site[x]).sb).2.1)

/-- Repair of a Wide Port (R341 to R343, R367, Table 11.4): a due repair asks its partner, ready starts the test, the test's end names a good set that
only loses lanes and a frame at least 64 ahead, both maps apply at their frames, the repair ends when both ends have named theirs, and a PARITY report
suspects lanes. A lost clock contains the site. -/
def Obligations.WidePortRepairs : Prop :=
  (∀ (w : WideIx) (m : Fin 33) (s : State), running s = true → siteUp s w.site = true → modUsed s w m.val = true → ((s.wide[w]).mods[m]).due = true →
      ((s.wide[w]).mods[m]).phase = .idle → (s.site[w.site]).sb.up = true →
      mayRepair s ((s.wide[w]).mods[m]).atCommit ((s.wide[w]).mods[m]).dueAt = true →
      ∃ t, exec (.repairStart w m) s = .next t ∧ ((t.wide[w]).mods[m]).phase = .requested ∧ ((t.wide[w]).mods[m]).due = false ∧
        (t.site[w.site]).state = 4 ∧ (t.site[w.site]).sb.queue.length = (s.site[w.site]).sb.queue.length + 2) ∧
  (∀ (x : SiteIx) (w : WideIx) (m : Fin 33) (raw : List Byte) (y : Slot) (s : State), slotArrives x raw y s → y.typ = 0x12 → wideOf x = some w →
      modOf (byteAt y.body 0) = some m → byteAt y.body 1 ≠ 0 → ((s.wide[w]).mods[m]).phase = .requested →
      ∃ t, exec (.repair x raw) s = .next t ∧ ((t.wide[w]).mods[m]).phase = .testing ∧ ((t.wide[w]).mods[m]).partnerReady = true) ∧
  (∀ (x : SiteIx) (w : WideIx) (m : Fin 33) (raw : List Byte) (y : Slot) (s : State), slotArrives x raw y s → y.typ = 0x12 → wideOf x = some w →
      modOf (byteAt y.body 0) = some m → byteAt y.body 1 = 0 →
      ∃ t, exec (.repair x raw) s = .next t ∧ (((s.wide[w]).mods[m]).phase = .requested → t.wide = s.wide) ∧
        (((s.wide[w]).mods[m]).phase ≠ .requested → ((t.wide[w]).mods[m]).due = true)) ∧
  (∀ (w : WideIx) (m : Fin 33) (g : BitVec 68) (s : State), running s = true → ((s.wide[w]).mods[m]).phase = .testing →
      ∃ t, exec (.repairTestEnd w m g) s = .next t ∧ ((t.wide[w]).mods[m]).phase = .mapping ∧ ∃ (f : Word) (r : BitVec 68),
        ((t.wide[w]).mods[m]).rx.nextMap = some (f, r) ∧ 64 ≤ (f - ((s.wide[w]).mods[m]).rxFrame).toNat ∧
        (f - ((s.wide[w]).mods[m]).rxFrame).toNat < 128 ∧ r &&& ((s.wide[w]).mods[m]).rx.good = r ∧ r &&& g = r ∧
        r &&& ((s.wide[w]).mods[m]).wtBad = 0) ∧
  (∀ (x : SiteIx) (w : WideIx) (m : Fin 33) (raw : List Byte) (y : Slot) (s : State), slotArrives x raw y s → y.typ = 0x11 → wideOf x = some w →
      modOf (byteAt y.body 0) = some m →
      ∃ t, exec (.laneMap x raw) s = .next t ∧
        ((t.wide[w]).mods[m]).tx.nextMap = some (w32 (bnat y.body 11 4), BitVec.ofNat 68 (bnat y.body 2 9)) ∧
        ((t.wide[w]).mods[m]).rx = ((s.wide[w]).mods[m]).rx ∧ ((t.wide[w]).mods[m]).mapSeen = true) ∧
  (∀ (x : SiteIx) (w : WideIx) (m : Fin 33) (f : Word) (g : BitVec 68) (s : State), running s = true → wideOf x = some w →
      ((s.wide[w]).mods[m]).rx.nextMap = some (f, g) → s.img.penumbra = [] →
      ∃ t, exec (.laneMapApply x f) s = .next t ∧ ((t.wide[w]).mods[m]).rx.good = g ∧ ((t.wide[w]).mods[m]).rx.nextMap = none ∧
        (((s.wide[w]).mods[m]).phase = .mapping → ((s.wide[w]).mods[m]).tx.nextMap = none →
          ((t.wide[w]).mods[m]).phase = if ((s.wide[w]).mods[m]).mapSeen then .idle else .mapping)) ∧
  (∀ (x : SiteIx) (w : WideIx) (m : Fin 33) (raw : List Byte) (y : Slot) (s : State), slotArrives x raw y s → y.typ = 0x13 → wideOf x = some w →
      modOf (byteAt y.body 0) = some m → m.val ≠ 32 → modTests s w m = false → byteAt y.body 1 = 2 →
      ∃ t, exec (.parity x raw) s = .next t ∧ ((t.wide[w]).mods[m]).counters[4] = ((s.wide[w]).mods[m]).counters[4] + 1 ∧
        (t.site[x]).event = setBit (setBit (s.site[x]).event 9) 4 ∧ (t.site[x]).state = (s.site[x]).state) ∧
  (∀ (x : SiteIx) (w : WideIx) (m : Fin 33) (raw : List Byte) (y : Slot) (s : State), slotArrives x raw y s → y.typ = 0x13 → wideOf x = some w →
      modOf (byteAt y.body 0) = some m → modTests s w m = true →
      ∃ t, exec (.parity x raw) s = .next t ∧ t.wide = s.wide ∧ (t.site[x]).event = setBit (s.site[x]).event 9 ∧ (t.site[x]).state = (s.site[x]).state) ∧
  (∀ (x : SiteIx) (s : State), running s = true → siteUp s x = true → s.img.penumbra = [] →
      ∃ t, exec (.clockLossDetected (.site x)) s = .next t ∧ (t.site[x]).state = 5 ∧ (t.site[x]).reason = 4 ∧ (t.site[x]).rstn = true) ∧
  (∀ (p : Port) (n : Line) (s : State), running s = true → receiverOn s p n = true →
      ∃ t, exec (.clockLossDetected (.line p n)) s = .next t ∧ ((t.port[p]).line[n]).aligned = false)

/-- WP_CMD (R369, Table 11.14): at its state epoch a command that fits the site's state is carried out with result 1, one that does not is refused
with result 3, and one with a stale epoch changes nothing but the result and its event bit. -/
def Obligations.WidePortCommands : Prop :=
  (∀ (w : WideIx) (v : Word) (s : State), hostOn s → rsvBad s 0xE0000 v = false → fin! 4 (fld v 9 8) = w → fld v 31 16 = (s.site[w.site]).epoch.toNat →
      (s.site[w.site]).state = 6 →
      ∃ t, exec (.wpCmdRetrain v) s = .next t ∧ (t.site[w.site]).state = 1 ∧ (t.site[w.site]).rstn = true ∧ t.siteReg.wpCmd = (1, false, 1)) ∧
  (∀ (w : WideIx) (v : Word) (s : State), hostOn s → rsvBad s 0xE0000 v = false → fin! 4 (fld v 9 8) = w → fld v 31 16 = (s.site[w.site]).epoch.toNat →
      (s.site[w.site]).state ≠ 6 →
      ∃ t, exec (.wpCmdRetrain v) s = .next t ∧ t.site = s.site ∧ t.siteReg.wpCmd = (1, false, 3)) ∧
  (∀ (w : WideIx) (v : Word) (s : State), hostOn s → rsvBad s 0xE0000 v = false → fin! 4 (fld v 9 8) = w → fld v 31 16 = (s.site[w.site]).epoch.toNat →
      1 ≤ (s.site[w.site]).state.toNat → (s.site[w.site]).state.toNat ≤ 6 → (s.site[w.site]).state ≠ 5 →
      ∃ t, exec (.wpCmdHold v) s = .next t ∧ (t.site[w.site]).hold = true ∧ (t.site[w.site]).state = 1 ∧ t.siteReg.wpCmd = (2, false, 1)) ∧
  (∀ (w : WideIx) (v : Word) (s : State), hostOn s → rsvBad s 0xE0000 v = false → fin! 4 (fld v 9 8) = w → fld v 31 16 = (s.site[w.site]).epoch.toNat →
      (s.site[w.site]).hold = true →
      ∃ t, exec (.wpCmdRelease v) s = .next t ∧ (t.site[w.site]).hold = false ∧ (t.site[w.site]).state = (s.site[w.site]).state ∧
        t.siteReg.wpCmd = (3, false, 1)) ∧
  (∀ (w : WideIx) (v : Word) (s : State), hostOn s → rsvBad s 0xE0000 v = false → fin! 4 (fld v 9 8) = w → fld v 31 16 = (s.site[w.site]).epoch.toNat →
      siteUp s w.site = true → modUsed s w (fin! 33 (fld v 15 11)).val = true →
      ∃ t, exec (.wpCmdRepairModule v) s = .next t ∧ ((t.wide[w]).mods[fin! 33 (fld v 15 11)]).due = true ∧ t.siteReg.wpCmd = (4, false, 1)) ∧
  (∀ (w : WideIx) (v : Word) (s : State), hostOn s → rsvBad s 0xE0000 v = false → fin! 4 (fld v 9 8) = w → fld v 31 16 ≠ (s.site[w.site]).epoch.toNat →
      ∃ t, exec (.wpCmdHold v) s = .next t ∧ (t.site[w.site]).state = (s.site[w.site]).state ∧ (t.site[w.site]).hold = (s.site[w.site]).hold ∧
        (t.site[w.site]).event = setBit (s.site[w.site]).event 10 ∧ t.siteReg.wpCmd = (2, false, 2))

/-- Codewords of a Reach Port (R374 to R376, R384, R387, R388): an idle word is counted, a head opens its stream's transfer, a word that cannot be
corrected suspects a lane and is Contained away from a sideband position, and sending takes the next stream round-robin or an idle word. -/
def Obligations.ReachCodewords : Prop :=
  (∀ (r : ReachIx) (q : Fin 8) (w : List Sym) (v : List Sym) (k : Nat) (b : List Byte) (s : State), running s = true → siteUp s r.site = true →
      quadHears s r q = true → atSideband s r q = false → wordErrors s r q true = [] → rsDecode 30 (wordSeen s r q w) = some (v, []) →
      reachFields v = (0, k, b) →
      ∃ t, exec (.reachCodeword r q w) s = .next t ∧ (t.reach[r]).rxIndex[q] = (s.reach[r]).rxIndex[q] + 1 ∧ t.site = s.site) ∧
  (∀ (r : ReachIx) (q : Fin 8) (w : List Sym) (v : List Sym) (k : Nat) (b : List Byte) (e : RxStream) (s : State), running s = true →
      siteUp s r.site = true → quadHears s r q = true → atSideband s r q = false → wordErrors s r q true = [] →
      rsDecode 30 (wordSeen s r q w) = some (v, []) → reachFields v = (1, k, b) → aget (s.site[r.site]).rx k = some e → e.opened = none →
      noCredit (s.site[r.site]) k = false → bnat b 0 2 = k → 0 < bnat b 4 4 → bnat b 4 4 ≤ 2 ^ 28 → (b.drop 16).length < bnat b 4 4 →
      s.ctl.named.contains (r.site.val, k, bnat b 2 2) = false →
      ∃ t, exec (.reachCodeword r q w) s = .next t ∧ ((aget (t.site[r.site]).rx k).bind (·.opened)) =
          some { stream := k, offset := bnat b 2 2, length := bnat b 4 4, data := b.drop 16, frames := 1 }) ∧
  (∀ (r : ReachIx) (q : Fin 8) (w : List Sym) (s : State), running s = true → siteUp s r.site = true → quadHears s r q = true → atSideband s r q = false →
      wordErrors s r q true = [] → rsDecode 30 (wordSeen s r q w) = none →
      s.img.penumbra = [] →
      ∃ t, exec (.reachCodeword r q w) s = .next t ∧ (t.reach[r]).uncorr[q] = (s.reach[r]).uncorr[q] + 1 ∧ (t.site[r.site]).reason = 9 ∧
        (t.reach[r]).due.getLsbD q.val = true ∧ (t.site[r.site]).state = (s.site[r.site]).state) ∧
  (∀ (r : ReachIx) (q : Fin 8) (s : State), running s = true → siteUp s r.site = true → (quadMask s r).getLsbD q.val = true → quadServes s r q = true →
      (s.reach[r]).txIndex[q].toNat % 32 ≠ 4 * q.val → nextStream (s.site[r.site]) = none → wordErrors s r q false = [] →
      ∃ t, exec (.reachCodewordSend r q) s = .next t ∧ (t.reach[r]).txIndex[q] = (s.reach[r]).txIndex[q] + 1 ∧
        Emission.codeword r q (addErrors [] (reachSymbols 0 0 [])) ∈ t.out) ∧
  (∀ (r : ReachIx) (q : Fin 8) (k : Nat) (ty : FrameTyp) (b : List Byte) (e : TxStream) (s : State), running s = true → siteUp s r.site = true →
      (quadMask s r).getLsbD q.val = true → quadServes s r q = true → (s.reach[r]).txIndex[q].toNat % 32 ≠ 4 * q.val →
      nextStream (s.site[r.site]) = some (k, ty, b, e) → wordErrors s r q false = [] →
      ∃ t, exec (.reachCodewordSend r q) s = .next t ∧ aget (t.site[r.site]).tx k = some e ∧ (t.site[r.site]).rr = (k + 1) % 512 ∧
        Emission.codeword r q (addErrors [] (reachSymbols (if ty = 1 then 1 else 2) k b)) ∈ t.out)

/-- Lanes of a Reach Port (R377 to R381, R388): markers keep a lane aligned and carry its bip and FOM, every lane of lane_mask sends one, a training
frame gives lane lock and is answered, a preset sets the taps, and a FOM measurement is kept. -/
def Obligations.ReachLanes : Prop :=
  (∀ (r : ReachIx) (l : Fin 32) (raw : List Byte) (bip : Byte) (s : State), running s = true → ((s.site[r.site]).state = 2 ∨ siteUp s r.site = true) →
      armedFor s r 3 true = false → raw.take 8 = tpPattern → byteAt raw 14 = bip →
      ∃ t, exec (.laneMarker r l raw bip) s = .next t ∧ (t.reach[r]).rxMarker = w32 (bnat raw 10 4) ∧ ((t.reach[r]).lanes[l]).missed = 0 ∧
        ((t.reach[r]).lanes[l]).peerFom = byteAt raw 15 ∧ (((s.reach[r]).lanes[l]).seen = true → ((t.reach[r]).lanes[l]).aligned = true)) ∧
  (∀ (r : ReachIx) (l : Fin 32) (raw : List Byte) (bip : Byte) (s : State), running s = true → siteUp s r.site = true → armedFor s r 3 true = false →
      raw.take 8 = tpPattern → byteAt raw 14 ≠ bip →
      ∃ t, exec (.laneMarker r l raw bip) s = .next t ∧ ((t.reach[r]).lanes[l]).state = 2 ∧
        ((t.reach[r]).lanes[l]).counters[1] = ((s.reach[r]).lanes[l]).counters[1] + 1 ∧ (t.reach[r]).due.getLsbD (quadOf l).val = true) ∧
  (∀ (r : ReachIx) (s : State), running s = true → siteUp s r.site = true →
      ∃ t, exec (.tpMarkerSend r) s = .next t ∧ (t.reach[r]).txMarker = (s.reach[r]).txMarker + 1 ∧
        ∀ l : Fin 32, (siteRec s r.site).laneMask.getLsbD l.val = true → ∃ raw, Emission.laneMarker r l raw ∈ t.out) ∧
  (∀ (r : ReachIx) (l : Fin 32) (c v : Word) (s : State), running s = true → inTraining s r l = true →
      ∃ t, exec (.trainingFrame r l c v) s = .next t ∧ ((t.reach[r]).lanes[l]).locked = true ∧ (∃ n, Emission.trainWord r l (ownControl l n ((t.reach[r]).lanes[l]))
          (statusWord (laneStep s r) ((t.reach[r]).lanes[l])) ∈ t.out) ∧
        (crc8Ok c = true → 1 ≤ fld c 10 8 → fld c 10 8 ≤ 4 → ((t.reach[r]).lanes[l]).taps = presetTaps (fld c 10 8)) ∧
        (crc8Ok c = false → ((t.reach[r]).lanes[l]).taps = ((s.reach[r]).lanes[l]).taps)) ∧
  (∀ (r : ReachIx) (l : Fin 32) (f : Byte) (s : State), running s = true →
      ∃ t, exec (.fomMeasurement r l f) s = .next t ∧ ((t.reach[r]).lanes[l]).fom = f ∧
        ((t.reach[r]).lanes[l]).lowSince.isSome = decide (f.toNat < 48))

/-- Retest of a quad (R388 to R390, Table 12.9): the lowest due good quad that may start is taken, the partner's ready lets this end name it out of
service from an index ahead, maps take effect at their index, the quad's codewords qualify it, and the test's end, once it is due, names it in service
again or not good. -/
def Obligations.ReachRetests : Prop :=
  (∀ (r : ReachIx) (q : Fin 8) (l : List (Fin 8)) (s : State), running s = true → siteUp s r.site = true → (s.reach[r]).retest = none →
      retestable s r = q :: l →
      ∃ t, exec (.retestStart r) s = .next t ∧ (t.reach[r]).retest = some q ∧ (t.reach[r]).due.getLsbD q.val = false ∧ (t.site[r.site]).state = 4) ∧
  (∀ (r : ReachIx) (x : SiteIx) (q : Fin 8) (raw : List Byte) (y : Slot) (s : State), slotArrives x raw y s → y.typ = 0x12 → reachOf x = some r →
      repairQuad (byteAt y.body 0) = some q → byteAt y.body 1 = 1 → (s.reach[r]).retest = some q → (s.reach[r]).partnerReady = false →
      ∃ t, exec (.repair x raw) s = .next t ∧ (t.reach[r]).partnerReady = true ∧
        ((t.reach[r]).ownMap.map fun m => (m.1, m.2.1)) = some ((s.reach[r]).good, clrBit (s.reach[r]).inService q.val)) ∧
  (∀ (r : ReachIx) (x : SiteIx) (raw : List Byte) (y : Slot) (s : State), slotArrives x raw y s → y.typ = 0x11 → reachOf x = some r → byteAt y.body 0 = 0x40 →
      ∃ t, exec (.laneMap x raw) s = .next t ∧
        (t.reach[r]).partnerMap = some (byteAt y.body 2, byteAt y.body 3, w32 (bnat y.body 11 4))) ∧
  (∀ (r : ReachIx) (x : SiteIx) (g v : BitVec 8) (f : Word) (s : State), running s = true → reachOf x = some r → siteUp s r.site = true →
      (s.reach[r]).ownMap = some (g, v, f) → s.img.penumbra = [] →
      ∃ t, exec (.laneMapApply x f) s = .next t ∧ (t.reach[r]).ownNow = (g, v) ∧ (t.reach[r]).ownMap = none) ∧
  (∀ (r : ReachIx) (x : SiteIx) (q : Fin 8) (g v : BitVec 8) (f : Word) (s : State), running s = true → reachOf x = some r → siteUp s r.site = true →
      (s.reach[r]).ownMap = some (g, v, f) → (s.reach[r]).partnerMap = none → (s.reach[r]).retest = some q → g.getLsbD q.val = false →
      s.img.penumbra = [] →
      ∃ t, exec (.laneMapApply x f) s = .next t ∧ (t.site[x]).event.getLsbD 5 = true ∧ (t.reach[r]).good.getLsbD q.val = false) ∧
  (∀ (r : ReachIx) (q : Fin 8) (w : List Sym) (s : State), running s = true → qualifies s r q = true → wordErrors s r q true = [] →
      ∃ t, exec (.reachCodeword r q w) s = .next t ∧ t.site = s.site ∧
        (rsDecode 30 (wordSeen s r q w) = none → (t.reach[r]).qualBad = true ∧ (t.reach[r]).uncorr = (s.reach[r]).uncorr)) ∧
  (∀ (r : ReachIx) (ok : Bool) (s : State), running s = true → retestRipe s.time (s.reach[r]) = false → exec (.retestComplete r ok) s = .next (irqSettle s)) ∧
  (∀ (r : ReachIx) (q : Fin 8) (s : State), running s = true → siteUp s r.site = true → (s.reach[r]).retest = some q →
      (s.reach[r]).inService.getLsbD q.val = false → (s.reach[r]).ownMap = none → retestRipe s.time (s.reach[r]) = true →
      retestPasses (s.reach[r]) q = true →
      ∃ t, exec (.retestComplete r true) s = .next t ∧ ((t.reach[r]).ownMap.map fun m => (m.1, m.2.1)) =
        some (setBit (s.reach[r]).ownNow.1 q.val, setBit (s.reach[r]).ownNow.2 q.val) ∧ ∀ l ∈ lanesOf q, ((t.reach[r]).lanes[l]).state = 1) ∧
  (∀ (r : ReachIx) (q : Fin 8) (ok : Bool) (s : State), running s = true → siteUp s r.site = true → (s.reach[r]).retest = some q →
      (s.reach[r]).inService.getLsbD q.val = false → (s.reach[r]).ownMap = none → retestRipe s.time (s.reach[r]) = true →
      ok = false ∨ retestPasses (s.reach[r]) q = false →
      ∃ t, exec (.retestComplete r ok) s = .next t ∧ ((t.reach[r]).ownMap.map fun m => (m.1, m.2.1)) =
        some (clrBit (s.reach[r]).ownNow.1 q.val, (s.reach[r]).ownNow.2) ∧
        ∀ l ∈ lanesOf q, ((t.reach[r]).lanes[l]).state = if ((s.reach[r]).lanes[l]).state = 2 then 3 else ((s.reach[r]).lanes[l]).state)

/-- TP_CMD, TP_PAT_CTRL and TP_INJECT (R392 to R394, R398, Tables 12.10, 12.17, 12.18): retrain, hold and release as on a Wide Port, a retest of a
quad, entering and leaving Test; a write of TP_INJECT in a state that allows it arms its injection at the next chance, kind 0 stops it, and a repeated
one comes round again at its interval. -/
def Obligations.ReachCommandsAndInjection : Prop :=
  (∀ (r : ReachIx) (v : Word) (s : State), hostOn s → rsvBad s 0xF0000 v = false → fin! 2 (fld v 8 8) = r → fld v 31 16 = (s.site[r.site]).epoch.toNat →
      ((s.site[r.site]).state = 6 → ∃ t, exec (.tpCmdRetrain v) s = .next t ∧ (t.site[r.site]).state = 1 ∧ (t.site[r.site]).rstn = true ∧
        t.siteReg.tpCmd = (1, false, 1)) ∧
      (1 ≤ (s.site[r.site]).state.toNat → (s.site[r.site]).state.toNat ≤ 6 → (s.site[r.site]).state ≠ 5 → ∃ t, exec (.tpCmdHold v) s = .next t ∧ (t.site[r.site]).hold = true ∧
        (t.site[r.site]).state = 1 ∧ t.siteReg.tpCmd = (2, false, 1)) ∧
      ((s.site[r.site]).hold = true → (s.site[r.site]).state ≠ 7 → ∃ t, exec (.tpCmdRelease v) s = .next t ∧ (t.site[r.site]).hold = false ∧ t.siteReg.tpCmd = (3, false, 1)) ∧
      ((s.site[r.site]).hold = true → (s.site[r.site]).state = 7 → ∃ t, exec (.tpCmdRelease v) s = .next t ∧ t.site = s.site ∧
        t.siteReg.tpCmd = (3, false, 3)) ∧
      (siteUp s r.site = true → (quadMask s r).getLsbD (fin! 8 (fld v 11 9)).val = true → ∃ t, exec (.tpCmdRetestQuad v) s = .next t ∧
        (t.reach[r]).due = setBit (s.reach[r]).due (fin! 8 (fld v 11 9)).val ∧ t.siteReg.tpCmd = (4, false, 1)) ∧
      (mayTest (s.site[r.site]) = true → ∃ t, exec (.tpCmdEnterTest v) s = .next t ∧ (t.site[r.site]).state = 7 ∧ (t.site[r.site]).rstn = true ∧
        (t.reach[r]).testFrom = (s.site[r.site]).state ∧ (∀ l : Fin 32, ((t.reach[r]).lanes[l]).taps = presetTaps 1) ∧ t.siteReg.tpCmd = (5, false, 1)) ∧
      ((s.site[r.site]).state = 7 → ∃ t, exec (.tpCmdLeaveTest v) s = .next t ∧ (t.site[r.site]).state = (s.reach[r]).testFrom ∧
        (t.site[r.site]).rstn = ((s.reach[r]).testFrom != 6) ∧
        (t.reach[r]).inject = {} ∧ t.siteReg.tpCmd = (6, false, 1))) ∧
  (∀ (v : Word) (s : State), hostOn s → rsvBad s 0xF0020 v = false →
      ∃ t, exec (.tpPatCtrlWrite v) s = .next t ∧ t.siteReg.pattern = BitVec.ofNat 4 (fld v 31 28) ∧ t.siteReg.checker = bit v 27 ∧
        t.siteReg.echo = bit v 26 ∧ t.siteReg.patLocked = 0 ∧ t.site = s.site) ∧
  (∀ (r : ReachIx) (q : Fin 8) (p : Nat) (s : State), running s = true → (s.site[r.site]).state = 7 → patternOf s r = p → 1 ≤ p → p ≤ 5 →
      s.siteReg.echo = false → wordErrors s r q false = [] →
      ∃ t, exec (.reachCodewordSend r q) s = .next t ∧ t.site = s.site ∧ (∀ k ∈ lanesOf q, ∃ l, Emission.levels r k l ∈ t.out) ∧
        ∀ k ∈ lanesOf q, ((t.reach[r]).lanes[k]).gen = (patUis p 680 ((s.reach[r]).lanes[k]).gen).2) ∧
  (∀ (r : ReachIx) (v : Word) (s : State), hostOn s → rsvBad s 0xF0028 v = false → fin! 2 (fld v 17 17) = r → siteUp s r.site = true → bit v 18 = false →
      (∃ t, exec (.tpInjectSingleBit v) s = .next t ∧ (t.reach[r]).inject.armed = true ∧ (t.reach[r]).inject.kind = 1 ∧
        (t.reach[r]).inject.lane = BitVec.ofNat 5 (fld v 16 12)) ∧
      (1 ≤ fld v 27 23 → fld v 27 23 ≤ 16 → ∃ t, exec (.tpInjectSymbols v) s = .next t ∧ (t.reach[r]).inject.armed = true ∧ (t.reach[r]).inject.kind = 2 ∧
        (t.reach[r]).inject.count.toNat = fld v 27 23) ∧
      (∃ t, exec (.tpInjectMarker v) s = .next t ∧ (t.reach[r]).inject.armed = true ∧ (t.reach[r]).inject.kind = 3) ∧
      (∃ t, exec (.tpInjectSbCrc v) s = .next t ∧ (t.reach[r]).inject.armed = true ∧ (t.reach[r]).inject.kind = 4)) ∧
  (∀ (r : ReachIx) (v : Word) (s : State), hostOn s → rsvBad s 0xF0028 v = false → fin! 2 (fld v 17 17) = r →
      ∃ t, exec (.tpInjectStop v) s = .next t ∧ (t.reach[r]).inject = {} ∧ t.site = s.site) ∧
  (∀ (r : ReachIx) (s : State), running s = true → siteUp s r.site = true → (s.reach[r]).inject.again = true →
      ∃ t, exec (.tpInjectRepeat r) s = .next t ∧ (t.reach[r]).inject = { (s.reach[r]).inject with armed := true })

/-- One step runs the command at the front of the queue on the state with the queue's rest, whatever the command answers; an empty queue idles, which
counts one microsecond of a running device (the model's choice, log entry 23); no table word spells a command. -/
def Obligations.StepRunsTheFrontCommand : Prop :=
  (∀ (c : Instr) (r : List Instr) (s : State), s.pending = c :: r → step s = exec c { s with pending := r }) ∧
  (∀ s : State, s.pending = [] → running s = true → ∃ t, step s = .next t ∧ t = { s with time := s.time + 1 }) ∧
  (∀ s : State, s.pending = [] → running s = false → step s = .next s) ∧
  (∀ (s : State) (n w : Nat), s.withFetchWord n w = s ∧ decodeTableWord n w = none)

/-- Right after reset the device is in Umbra and dark, holds no image, runs no program, every port is Dark, every site Off, no beam in use, every
mailbox channel and doorbell clear, every lock free, and the caps, the operating point and the energy have their reset values; the invariants hold. -/
def Obligations.ResetLeavesTheDeviceInUmbra : Prop :=
  State.reset.dev.state = .umbra ∧ State.reset.dev.epoch = 0 ∧ State.reset.dev.event = 0 ∧ State.reset.dev.scratch = 0 ∧
  State.reset.img.image = none ∧ State.reset.img.pending = none ∧ State.reset.ctl.phase = 0 ∧ State.reset.ctl.iter = 0 ∧
  (∀ p : Port, (State.reset.port[p]).state = 0 ∧ (State.reset.port[p]).epoch = 0) ∧
  (∀ x : SiteIx, (State.reset.site[x]).state = 0 ∧ (State.reset.site[x]).epoch = 0) ∧
  (∀ b : Beam, (State.reset.beam[b]).state = 0) ∧
  (∀ n : Fin 32, State.reset.lck.owner[n] = 0) ∧ State.reset.dbl.fw = 0 ∧ State.reset.dbl.host = 0 ∧ State.reset.dbl.event = 0 ∧
  (∀ c : MbxTx, (txChan State.reset c).go = false ∧ (txChan State.reset c).status = 0) ∧
  (∀ c : Fin 16, (State.reset.mbx.f2h[c]).go = false) ∧ (∀ (x : SiteIx) (c : Fin 8), ((State.reset.mbx.d2h[x])[c]).go = false) ∧
  State.reset.pwr.energy = 0 ∧ State.reset.pwr.op = 0 ∧ State.reset.pwr.capHost = 850 ∧ State.reset.mgt.capMgmt = 850 ∧ State.reset.pwr.event = 0 ∧
  State.reset.time = 0 ∧ State.reset.err.event = 0 ∧ State.reset.pln.inForce = 0xFFFF ∧ State.reset.pending = [] ∧
  memoryCanonical State.reset ∧ umbraDark State.reset ∧ openVectorsSent State.reset

/-- Every step keeps every memory in its canonical form, so equal memories are equal data. -/
def Obligations.MemoryStaysCanonical : Prop :=
  ∀ s t : State, memoryCanonical s → step s = .next t → memoryCanonical t

/-- Eye safety (R327, R485, R499): every step keeps Umbra dark; a Fatal event is cleared by a reset of the whole device alone, and only the loss of
QCLK, the junction at 110 °C, a lockstep disagreement and an uncorrectable error of the management SRAM are Fatal. -/
def Obligations.UmbraStaysDark : Prop :=
  (∀ s t : State, umbraDark s → step s = .next t → umbraDark t) ∧
  (∀ (c : Instr) (s t : State), exec c s = .next t → c.resets = false → s.dev.fatal = true → t.dev.fatal = true) ∧
  (∀ (c : Instr) (s t : State), exec c s = .next t → s.dev.fatal = false → t.dev.fatal = true →
    c = .qclkLoss ∨ c = .junctionTrip ∨ c = .lockstepDisagreement ∨ c = .sensorSnapshot .uncorrectable ∨ ∃ l f, c = .thermalSample l f)

/-- MSI-X messages (R476): after every command no vector whose message can be sent keeps a pending bit, and a vector whose condition became true by
the command and whose message can be sent has its message sent. -/
def Obligations.OpenVectorsAreSent : Prop :=
  (∀ s t : State, openVectorsSent s → step s = .next t → openVectorsSent t) ∧
  (∀ (c : Instr) (s t : State) (v : Fin 64), exec c s = .next t → c.resets = false → (∀ k, c ≠ .pcieFunctionReset k) →
    s.host.was.getLsbD v.val = false → (irqConds t).getLsbD v.val = true → irqOpen t.host v = true →
    Emission.msix v.val (t.host.vec[v]).addr (t.host.vec[v]).data ∈ t.out)

/-- PWR_ENERGY (R413): every sample of a running device adds P × 10 µs, in units of 10^-6 µJ, it starts at 0 at reset, a reset of the whole device
alone clears it, and no other command changes it; the register pair reads it in whole µJ. -/
def Obligations.EnergyCountsEverySample : Prop :=
  State.reset.pwr.energy = 0 ∧
  (∀ (rails : List RailSample) (tiles : List Nat) (s : State), running s = true →
    ∃ t, exec (.powerSample rails tiles) s = .next t ∧ t.pwr.energy = s.pwr.energy + 10 * inputPower rails) ∧
  (∀ (c : Instr) (s t : State), exec c s = .next t → c.resets = false → (∀ r l, c ≠ .powerSample r l) → t.pwr.energy = s.pwr.energy) ∧
  (∀ (p : ResetPin) (us : Nat) (s : State), s.dev.powered = true → 10 ≤ us →
    ∃ t, exec (.resetAssert p us) s = .next t ∧ t.pwr.energy = 0) ∧
  (∀ s : State, s.dev.powered = true → ∃ t, exec .powerOff s = .next t ∧ t.pwr.energy = 0) ∧
  (∀ s : State, readPwr s 0x014 = lo64 (s.pwr.energy / 1000000) ∧ readPwr s 0x018 = hi64 (s.pwr.energy / 1000000))

/-- Frames over all commands: each part of the state is unchanged by every command but those named for it and a reset of the whole device; what fuses
and flash hold is unchanged by a reset too (Table 17.1), but for the fuses of a FW_CONFIRM that it cuts short; the anti-rollback counter never falls,
and no command changes the queue. -/
def Obligations.PartsChangeOnlyByTheirCommands : Prop :=
  (∀ (c : Instr) (s t : State), exec c s = .next t → c.resets = false →
    (c.changesRings = false → t.ring = s.ring) ∧ (c.changesCombs = false → t.comb = s.comb) ∧
    (c.changesSiteCommands = false → t.siteReg = s.siteReg) ∧ (c.changesImage = false → t.img.image = s.img.image) ∧
    (c.changesStore = false → t.pln.slots = s.pln.slots) ∧ (c.changesVectors = false → t.host.vec = s.host.vec) ∧
    (c.changesAer = false → t.host.aer = s.host.aer) ∧ (c.changesHostDoorbell = false → t.dbl.host = s.dbl.host) ∧
    (c.changesFwDoorbell = false → t.dbl.fw = s.dbl.fw) ∧ (c.changesIteration = false → t.ctl.iter = s.ctl.iter) ∧
    (c.changesSnapshot = false → t.thm.snap = s.thm.snap) ∧ t.time = s.time) ∧
  (∀ (c : Instr) (s t : State), exec c s = .next t → t.pending = s.pending ∧
    s.sec.counter ≤ t.sec.counter ∧ (s.sec.slot0Revoked = true → t.sec.slot0Revoked = true) ∧
    (c.changesFuses = false → confirming s = false → t.sec.counter = s.sec.counter ∧ t.sec.slot0Revoked = s.sec.slot0Revoked) ∧
    (c.changesFlash = false → t.mgt.flash = s.mgt.flash) ∧ (c.changesAging = false → t.mgt.aging = s.mgt.aging) ∧
    (c.changesFatals = false → t.mgt.fatals = s.mgt.fatals))

/-- Bytes of memory change only by the commands that store to them: every byte of the Reservoir, of staging SRAM and of the BAR2 window reads as
before after every other command. -/
def Obligations.BytesChangeOnlyByStores : Prop :=
  ∀ (c : Instr) (s t : State), exec c s = .next t → c.resets = false →
    (c.changesReservoir = false → ∀ a, t.hbm.mem.read a = s.hbm.mem.read a) ∧
    (c.changesStaging = false → ∀ a, t.ce.staging.read a = s.ce.staging.read a) ∧
    (c.changesStagingWindow = false → ∀ a, t.host.bar2.read a = s.host.bar2.read a)

/-- Floating-point formats (R168): FP32, BF16, FP16 and E5M2 encode infinity and NaN as IEEE 754 does, E4M3 has no infinity and the one NaN
S.1111.111, and every code of E3M2, E2M3 and E2M1 is a number. -/
def Obligations.FormatsEncodeInfinityAndNan : Prop :=
  (∀ f ∈ [fp32, bf16, fp16, e5m2], ∀ (sg ex m : Nat), sg < 2 → ex < 2 ^ f.eb → m < 2 ^ f.mb →
    f.decode (sg * 2 ^ f.body + ex * 2 ^ f.mb + m) =
      (if ex = 2 ^ f.eb - 1 then (if m = 0 then .inf (sg == 1) else .nan)
       else if ex = 0 then .num (sg == 1) m (1 - (f.bias : Int) - f.mb)
       else .num (sg == 1) (2 ^ f.mb + m) ((ex : Int) - f.bias - f.mb))) ∧
  (∀ sg ex m : Nat, sg < 2 → ex < 16 → m < 8 →
    e4m3.decode (sg * 128 + ex * 8 + m) =
      (if ex = 15 ∧ m = 7 then .nan else if ex = 0 then .num (sg == 1) m (-9) else .num (sg == 1) (8 + m) ((ex : Int) - 10))) ∧
  (∀ f ∈ [e3m2, e2m3, e2m1], ∀ c : Nat, ∃ n m e, f.decode c = .num n m e)

/-- What is written reads back: a number of a format converts into its own code (R173), a codeword and a module frame give back the fields they were
built from with clean parity, no bit dropped, and the bytes that spell a flit or a sideband slot are exactly the bytes its fields are built into, with
its CRC (R235, R359, R375, R335, R337 to R339). -/
def Obligations.EncodingsReadBack : Prop :=
  (∀ f ∈ [fp32, bf16, fp16, e4m3, e5m2, e3m2, e2m3, e2m1], ∀ (c : Nat) (n : Bool) (m : Nat) (e : Int), c < 2 ^ (f.body + 1) →
    f.decode c = .num n m e → f.encode (f.decode c) = c) ∧
  (∀ (f : Flit) (raw : List Byte), f.body.length = 240 → (flitOf raw = some f ↔ raw = flitBytes f)) ∧
  (∀ (x : Slot) (raw : List Byte), x.body.length = 16 → (slotOf raw = some x ↔ raw = slotBytes x)) ∧
  (∀ (k st : Nat) (b : List Byte), k < 4 → st < 512 → b.length = 640 →
    (reachSymbols k st b).length = 544 ∧ reachFields (reachSymbols k st b) = (k, st, b)) ∧
  (∀ (good : BitVec 68) (t : FrameTyp) (b : List Byte), 32 ≤ popc68 good → b.length = 504 →
    frameBytes good (frameLanes good t b) = b ∧ classifyFrame good (frameLanes good t b) = some (t, []))
end

