-- ==== Sys2Proof/Laws/Base.lean ====
section
/-!
SUPPORT. Laws of the plain helpers: vectors, keyed lists, byte-addressed memory.
-/

namespace Sys2Proof.Machine

/-! ### Vectors -/

/-- The changed entry, by its number. -/
@[simp] theorem upd_val_self {α : Type} {n : Nat} (v : Vector α n) (i : Fin n) (f : α → α) : (upd v i f)[i.val] = f v[i.val] := by
  change (v.set i.val (f v[i.val]) i.isLt)[i.val] = f v[i.val]
  exact Vector.getElem_set_self ..

/-- The changed entry. -/
theorem upd_self {α : Type} {n : Nat} (v : Vector α n) (i : Fin n) (f : α → α) : (upd v i f)[i] = f v[i] := upd_val_self v i f

/-- Every other entry. -/
theorem upd_ne {α : Type} {n : Nat} (v : Vector α n) (i j : Fin n) (f : α → α) (h : i ≠ j) : (upd v i f)[j] = v[j] := by
  have h' : i.val ≠ j.val := fun e => h (Fin.ext e)
  change (v.set i.val (f v[i.val]) i.isLt)[j.val] = v[j.val]
  exact Vector.getElem_set_ne _ _ h'

/-- An entry of an updated vector. -/
theorem upd_get {α : Type} {n : Nat} (v : Vector α n) (i j : Fin n) (f : α → α) :
    (upd v i f)[j] = if i = j then f v[j] else v[j] := by
  split
  · next h => subst h; exact upd_self v i f
  · next h => exact upd_ne v i j f h

/-- An entry of a computed vector. -/
@[simp] theorem vmk_val {α : Type} {n : Nat} (f : Fin n → α) (i : Fin n) : (vmk n f)[i.val] = f i := by
  simp [vmk]

/-- An entry of a computed vector. -/
theorem vmk_get {α : Type} {n : Nat} (f : Fin n → α) (i : Fin n) : (vmk n f)[i] = f i := vmk_val f i

/-! ### Keyed lists -/

/-- The value just stored. -/
@[simp] theorem aget_aput {κ α : Type} [DecidableEq κ] (l : List (κ × α)) (x : κ) (v : α) : aget (aput l x v) x = some v := by
  simp [aput, aget]

/-- A removed key holds nothing. -/
@[simp] theorem aget_adel {κ α : Type} [DecidableEq κ] (l : List (κ × α)) (x : κ) : aget (adel l x) x = none := by
  induction l with
  | nil => rfl
  | cons c r ih =>
    obtain ⟨k, w⟩ := c
    simp only [adel]
    split
    · exact ih
    · next h => simp [aget, h, ih]

/-- Removing a key leaves the others. -/
theorem aget_adel_ne {κ α : Type} [DecidableEq κ] (l : List (κ × α)) (x y : κ) (h : x ≠ y) : aget (adel l x) y = aget l y := by
  induction l with
  | nil => rfl
  | cons c r ih =>
    obtain ⟨k, w⟩ := c
    simp only [adel]
    split
    · next e => subst e; simp [aget, h, ih]
    · simp only [aget]; split <;> simp_all

/-- Storing under a key leaves the others. -/
theorem aget_aput_ne {κ α : Type} [DecidableEq κ] (l : List (κ × α)) (x y : κ) (v : α) (h : x ≠ y) : aget (aput l x v) y = aget l y := by
  simp [aput, aget, h, aget_adel_ne]

/-! ### Byte-addressed memory -/

/-- A canonical memory from a bound on is canonical from any lower bound. -/
theorem Mem.wfFrom_mono {m : Mem} {lo lo' : Nat} (h : lo' ≤ lo) (hm : Mem.wfFrom lo m = true) : Mem.wfFrom lo' m = true := by
  cases m with
  | nil => rfl
  | cons c r => obtain ⟨k, v⟩ := c; simp [Mem.wfFrom] at hm ⊢; exact ⟨⟨by omega, hm.1.2⟩, hm.2⟩

/-- A write keeps the canonical form from any bound not above the address. -/
theorem Mem.wfFrom_write (m : Mem) (lo a : Nat) (b : Byte) (h : lo ≤ a) (hm : Mem.wfFrom lo m = true) : Mem.wfFrom lo (m.write a b) = true := by
  induction m generalizing lo with
  | nil => simp only [Mem.write]; split <;> simp_all [Mem.wfFrom]
  | cons c r ih =>
    obtain ⟨k, v⟩ := c
    simp only [Mem.wfFrom, Bool.and_eq_true, decide_eq_true_eq] at hm
    obtain ⟨⟨h1, h2⟩, h3⟩ := hm
    simp only [Mem.write]
    split
    · next e =>
      subst e
      split
      · exact Mem.wfFrom_mono (by omega) h3
      · next hb => simp [Mem.wfFrom, h1, hb, h3]
    · split
      · split
        · simp [Mem.wfFrom, h1, h2, h3]
        · next hlt hb => simp [Mem.wfFrom, h, hb, h2, h3]; omega
      · have := ih (k + 1) (by omega) h3
        simp [Mem.wfFrom, h1, h2, this]

/-- A write keeps the canonical form. -/
theorem Mem.wf_write (m : Mem) (a : Nat) (b : Byte) (hm : m.wf = true) : (m.write a b).wf = true :=
  Mem.wfFrom_write m 0 a b (Nat.zero_le a) hm

/-- Writing bytes keeps the canonical form. -/
theorem Mem.wf_writeN (l : List Byte) (m : Mem) (a : Nat) (hm : m.wf = true) : (m.writeN a l).wf = true := by
  induction l generalizing m a with
  | nil => exact hm
  | cons b r ih => exact ih _ _ (Mem.wf_write m a b hm)

/-- Dropping a range keeps the canonical form from a bound. -/
theorem Mem.wfFrom_clear (m : Mem) (lo a n : Nat) (hm : Mem.wfFrom lo m = true) : Mem.wfFrom lo (m.clear a n) = true := by
  induction m generalizing lo with
  | nil => rfl
  | cons c r ih =>
    obtain ⟨k, v⟩ := c
    simp only [Mem.wfFrom, Bool.and_eq_true, decide_eq_true_eq] at hm
    obtain ⟨⟨h1, h2⟩, h3⟩ := hm
    have h4 := ih (k + 1) h3
    simp only [Mem.clear, List.filter_cons] at *
    split
    · simp only [Mem.wfFrom, h4, Bool.and_true, Bool.and_eq_true, decide_eq_true_eq]; exact ⟨h1, h2⟩
    · exact Mem.wfFrom_mono (by omega) h4

/-- Dropping a range keeps the canonical form. -/
theorem Mem.wf_clear (m : Mem) (a n : Nat) (hm : m.wf = true) : (m.clear a n).wf = true := Mem.wfFrom_clear m 0 a n hm

/-- Below its lowest listed address a memory reads as unlisted. -/
theorem Mem.read_below (m : Mem) (lo a : Nat) (hm : Mem.wfFrom lo m = true) (h : a < lo) : m.read a = Mem.unlisted := by
  cases m with
  | nil => rfl
  | cons c r =>
    obtain ⟨k, v⟩ := c
    simp only [Mem.wfFrom, Bool.and_eq_true, decide_eq_true_eq] at hm
    have h1 : k ≠ a := by omega
    have h2 : a < k := by omega
    simp [Mem.read, h1, h2]

/-- A read after a write: the written byte at its address, the old byte elsewhere. -/
theorem Mem.read_write_from (m : Mem) (lo a x : Nat) (b : Byte) (hm : Mem.wfFrom lo m = true) :
    (m.write a b).read x = if a = x then b else m.read x := by
  induction m generalizing lo with
  | nil =>
    simp only [Mem.write]
    split
    · next hb => split <;> simp_all [Mem.read]
    · simp only [Mem.read]; split <;> simp_all
  | cons c r ih =>
    obtain ⟨k, v⟩ := c
    simp only [Mem.wfFrom, Bool.and_eq_true, decide_eq_true_eq] at hm
    obtain ⟨⟨h1, h2⟩, h3⟩ := hm
    simp only [Mem.write]
    split
    · next e =>
      subst e
      split
      · next hb =>
        by_cases hx : k = x
        · subst hx; rw [Mem.read_below r (k + 1) k h3 (by omega)]; simp [hb]
        · simp only [hx, if_false, Mem.read]
          split
          · next hlt => exact Mem.read_below r (k + 1) x h3 (by omega)
          · rfl
      · next hb =>
        by_cases hx : k = x
        · simp [Mem.read, hx]
        · simp [Mem.read, hx]
    · next hne =>
      split
      · next hlt =>
        split
        · next hb =>
          by_cases hx : a = x
          · subst hx; simp [Mem.read, hne, hlt, hb]
          · simp [hx]
        · by_cases hx : a = x
          · simp [Mem.read, hx]
          · simp only [Mem.read, hx, if_false]
            split
            · next hl => have : k ≠ x := by omega
                         simp [this]; intro; omega
            · rfl
      · next hlt =>
        simp only [Mem.read, ih (k + 1) h3]
        by_cases hx : a = x
        · subst hx; simp [hne, hlt]
        · simp [hx]

/-- A read after a write. -/
theorem Mem.read_write (m : Mem) (a x : Nat) (b : Byte) (hm : m.wf = true) : (m.write a b).read x = if a = x then b else m.read x :=
  Mem.read_write_from m 0 a x b hm

/-- A write of bytes leaves every address outside them. -/
theorem Mem.read_writeN_out (l : List Byte) (m : Mem) (a x : Nat) (hm : m.wf = true) (h : x < a ∨ a + l.length ≤ x) :
    (m.writeN a l).read x = m.read x := by
  induction l generalizing m a with
  | nil => rfl
  | cons b r ih =>
    simp only [List.length_cons] at h
    rw [Mem.writeN, ih _ _ (Mem.wf_write m a b hm) (by omega), Mem.read_write m a x b hm]
    simp; omega

/-- A write of bytes puts each at its address. -/
theorem Mem.read_writeN_in (l : List Byte) (m : Mem) (a i : Nat) (hm : m.wf = true) (h : i < l.length) :
    (m.writeN a l).read (a + i) = l[i] := by
  induction l generalizing m a i with
  | nil => simp at h
  | cons b r ih =>
    cases i with
    | zero =>
      rw [Mem.writeN, Mem.read_writeN_out r _ _ _ (Mem.wf_write m a b hm) (by omega), Mem.read_write m a _ b hm]
      simp
    | succ i =>
      rw [Mem.writeN, show a + (i + 1) = (a + 1) + i by omega, ih _ _ _ (Mem.wf_write m a b hm) (by simpa using h)]
      simp

end Sys2Proof.Machine
end

