-- ==== Sys2Proof/Laws/Flit.lean ====
section
/-! SUPPORT.
The flit codec: the little-endian numbers of a byte list, the fields of a flit's first 252 bytes, and that a flit is read
back from the bytes it is sent as.
-/

namespace Sys2Proof.Laws
open Sys2Proof Sys2Proof.Machine

theorem leBytes_length (n x : Nat) : (leBytes n x).length = n := by
  induction n generalizing x with
  | zero => rfl
  | succ k ih => simp [leBytes, ih]
theorem leNat_leBytes (n x : Nat) (h : x < 256 ^ n) : leNat (leBytes n x) = x := by
  induction n generalizing x with
  | zero => simp at h; simp [leBytes, leNat, h]
  | succ k ih =>
    simp only [leBytes, leNat]
    rw [ih _ (by rw [pow_succ] at h; omega)]
    simp; omega

theorem flitHead_length (f : Flit) : (flitHead f).length = 252 := by
  simp only [flitHead, List.length_append, leBytes_length, List.length_cons, List.length_nil, List.length_take, List.length_replicate]; omega

theorem flitHead_fields (f : Flit) (h : f.body.length = 240) :
    byteAt (flitHead f) 0 = BitVec.ofNat 8 (f.typ.toNat + 16 * f.cls.toNat + 64 * b2n f.head + 128 * b2n f.tok) ∧
    byteAt (flitHead f) 1 = BitVec.ofNat 8 (f.sw.toNat + 16 * f.attempt.toNat) ∧
    ((flitHead f).drop 2).take 2 = leBytes 2 f.seq.toNat ∧ ((flitHead f).drop 4).take 2 = leBytes 2 f.ack.toNat ∧
    ((flitHead f).drop 6).take 3 = leBytes 3 f.place.toNat ∧ byteAt (flitHead f) 9 = f.beam ∧
    ((flitHead f).drop 10).take 2 = leBytes 2 (f.csel.val + 4 * f.ccount.toNat) ∧ ((flitHead f).drop 12).take 240 = f.body := by
  have hb : (f.body ++ List.replicate 240 0).take 240 = f.body := by
    rw [List.take_append_of_le_length (by omega), List.take_of_length_le (by omega)]
  simp only [flitHead, hb]
  simp [leBytes, byteAt, nth, h]

theorem take_drop_append_left {α : Type} (a b : List α) (k n : Nat) (h : k + n ≤ a.length) :
    ((a ++ b).drop k).take n = (a.drop k).take n := by
  rw [List.drop_append_of_le_length (by omega), List.take_append_of_le_length (by simp; omega)]

theorem byteAt_append_left (a b : List Byte) (k : Nat) (h : k < a.length) : byteAt (a ++ b) k = byteAt a k := by
  simp [byteAt, nth, List.getElem?_append_left h]

/-- A flit is read back from its bytes (R235). -/
theorem flitOf_flitBytes (f : Flit) (h : f.body.length = 240) : flitOf (flitBytes f) = some f := by
  have hl := flitHead_length f
  obtain ⟨h0, h1, h2, h3, h4, h5, h6, h7⟩ := flitHead_fields f h
  have hc : (flitBytes f).length = 256 ∧ leNat (((flitBytes f).drop 252).take 4) = (crc32 ((flitBytes f).take 252)).toNat := by
    have ht : (flitBytes f).take 252 = flitHead f := by
      rw [flitBytes, List.take_append_of_le_length (by omega), List.take_of_length_le (by omega)]
    have hd : ((flitBytes f).drop 252).take 4 = leBytes 4 (crc32 (flitHead f)).toNat := by
      rw [flitBytes, List.drop_append, List.drop_of_length_le (by omega), hl, List.nil_append, Nat.sub_self, List.drop_zero,
        List.take_of_length_le (by rw [leBytes_length])]
    refine ⟨by rw [flitBytes, List.length_append, hl, leBytes_length], ?_⟩
    rw [ht, hd, leNat_leBytes]
    exact (crc32 (flitHead f)).isLt
  rw [flitOf, if_pos hc]
  simp only [flitBytes]
  rw [byteAt_append_left _ _ 0 (by omega), byteAt_append_left _ _ 1 (by omega), byteAt_append_left _ _ 9 (by omega),
    take_drop_append_left _ _ 2 2 (by omega), take_drop_append_left _ _ 4 2 (by omega), take_drop_append_left _ _ 6 3 (by omega),
    take_drop_append_left _ _ 10 2 (by omega), take_drop_append_left _ _ 12 240 (by omega), h0, h1, h2, h3, h4, h5, h6, h7]
  obtain ⟨typ, cls, head, tok, sw, attempt, seq, ack, place, beam, csel, ccount, body⟩ := f
  have t4 := typ.isLt; have c2 := cls.isLt; have s4 := sw.isLt; have a4 := attempt.isLt; have cc := ccount.isLt
  have cs := csel.isLt; have sq := seq.isLt; have ak := ack.isLt; have pl := place.isLt
  simp only [Nat.reducePow] at *
  rw [leNat_leBytes 2 _ (by norm_num; omega), leNat_leBytes 2 _ (by norm_num; omega), leNat_leBytes 2 _ (by norm_num; omega),
    leNat_leBytes 3 _ (by norm_num; omega)]
  have hh : b2n head ≤ 1 := by cases head <;> decide
  have hk : b2n tok ≤ 1 := by cases tok <;> decide
  have e0 : (BitVec.ofNat 8 (typ.toNat + 16 * cls.toNat + 64 * b2n head + 128 * b2n tok)).toNat = typ.toNat + 16 * cls.toNat + 64 * b2n head + 128 * b2n tok := by
    rw [BitVec.toNat_ofNat]; omega
  have e1 : (BitVec.ofNat 8 (sw.toNat + 16 * attempt.toNat)).toNat = sw.toNat + 16 * attempt.toNat := by
    rw [BitVec.toNat_ofNat]; omega
  simp only [e0, e1, Option.some.injEq, Flit.mk.injEq]
  refine ⟨?_, ?_, ?_, ?_, ?_, ?_, ?_, ?_, ?_, trivial, ?_, ?_, trivial⟩
  · apply BitVec.eq_of_toNat_eq; rw [BitVec.toNat_ofNat]; omega
  · apply BitVec.eq_of_toNat_eq; rw [BitVec.toNat_ofNat]; omega
  · cases head <;> cases tok <;> simp [b2n] <;> omega
  · cases head <;> cases tok <;> simp [b2n] <;> omega
  · apply BitVec.eq_of_toNat_eq; rw [BitVec.toNat_ofNat]; omega
  · apply BitVec.eq_of_toNat_eq; rw [BitVec.toNat_ofNat]; omega
  · simp
  · simp
  · simp
  · apply Fin.ext; show (csel.val + 4 * ccount.toNat) % 4 = csel.val; omega
  · apply BitVec.eq_of_toNat_eq; rw [BitVec.toNat_ofNat]; omega

end Sys2Proof.Laws
end

