-- ==== Sys2Proof/Laws/State.lean ====
section
/-!
SUPPORT. What each update of one part of the state leaves unchanged and what it changes: one lemma for each update and field.
-/

set_option linter.unusedVariables false

namespace Sys2Proof.Machine

@[simp] theorem emit_out (a : Emission) (s : State) :
    (emit a s).out = a :: s.out := rfl
@[simp] theorem emit_dev (a : Emission) (s : State) :
    (emit a s).dev = s.dev := rfl
@[simp] theorem emit_host (a : Emission) (s : State) :
    (emit a s).host = s.host := rfl
@[simp] theorem emit_mbx (a : Emission) (s : State) :
    (emit a s).mbx = s.mbx := rfl
@[simp] theorem emit_dbl (a : Emission) (s : State) :
    (emit a s).dbl = s.dbl := rfl
@[simp] theorem emit_lck (a : Emission) (s : State) :
    (emit a s).lck = s.lck := rfl
@[simp] theorem emit_err (a : Emission) (s : State) :
    (emit a s).err = s.err := rfl
@[simp] theorem emit_mgt (a : Emission) (s : State) :
    (emit a s).mgt = s.mgt := rfl
@[simp] theorem emit_sec (a : Emission) (s : State) :
    (emit a s).sec = s.sec := rfl
@[simp] theorem emit_pwr (a : Emission) (s : State) :
    (emit a s).pwr = s.pwr := rfl
@[simp] theorem emit_thm (a : Emission) (s : State) :
    (emit a s).thm = s.thm := rfl
@[simp] theorem emit_hbm (a : Emission) (s : State) :
    (emit a s).hbm = s.hbm := rfl
@[simp] theorem emit_comb (a : Emission) (s : State) :
    (emit a s).comb = s.comb := rfl
@[simp] theorem emit_site (a : Emission) (s : State) :
    (emit a s).site = s.site := rfl
@[simp] theorem emit_wide (a : Emission) (s : State) :
    (emit a s).wide = s.wide := rfl
@[simp] theorem emit_reach (a : Emission) (s : State) :
    (emit a s).reach = s.reach := rfl
@[simp] theorem emit_siteReg (a : Emission) (s : State) :
    (emit a s).siteReg = s.siteReg := rfl
@[simp] theorem emit_beam (a : Emission) (s : State) :
    (emit a s).beam = s.beam := rfl
@[simp] theorem emit_port (a : Emission) (s : State) :
    (emit a s).port = s.port := rfl
@[simp] theorem emit_pln (a : Emission) (s : State) :
    (emit a s).pln = s.pln := rfl
@[simp] theorem emit_ring (a : Emission) (s : State) :
    (emit a s).ring = s.ring := rfl
@[simp] theorem emit_img (a : Emission) (s : State) :
    (emit a s).img = s.img := rfl
@[simp] theorem emit_ctl (a : Emission) (s : State) :
    (emit a s).ctl = s.ctl := rfl
@[simp] theorem emit_sq (a : Emission) (s : State) :
    (emit a s).sq = s.sq := rfl
@[simp] theorem emit_ce (a : Emission) (s : State) :
    (emit a s).ce = s.ce := rfl
@[simp] theorem emit_time (a : Emission) (s : State) :
    (emit a s).time = s.time := rfl
@[simp] theorem emit_fresh (a : Emission) (s : State) :
    (emit a s).fresh = s.fresh := rfl
@[simp] theorem emit_pending (a : Emission) (s : State) :
    (emit a s).pending = s.pending := rfl
@[simp] theorem onPort_port (a : Port) (b : PortSt → PortSt) (s : State) :
    (onPort a b s).port = upd s.port a b := rfl
@[simp] theorem onPort_dev (a : Port) (b : PortSt → PortSt) (s : State) :
    (onPort a b s).dev = s.dev := rfl
@[simp] theorem onPort_host (a : Port) (b : PortSt → PortSt) (s : State) :
    (onPort a b s).host = s.host := rfl
@[simp] theorem onPort_mbx (a : Port) (b : PortSt → PortSt) (s : State) :
    (onPort a b s).mbx = s.mbx := rfl
@[simp] theorem onPort_dbl (a : Port) (b : PortSt → PortSt) (s : State) :
    (onPort a b s).dbl = s.dbl := rfl
@[simp] theorem onPort_lck (a : Port) (b : PortSt → PortSt) (s : State) :
    (onPort a b s).lck = s.lck := rfl
@[simp] theorem onPort_err (a : Port) (b : PortSt → PortSt) (s : State) :
    (onPort a b s).err = s.err := rfl
@[simp] theorem onPort_mgt (a : Port) (b : PortSt → PortSt) (s : State) :
    (onPort a b s).mgt = s.mgt := rfl
@[simp] theorem onPort_sec (a : Port) (b : PortSt → PortSt) (s : State) :
    (onPort a b s).sec = s.sec := rfl
@[simp] theorem onPort_pwr (a : Port) (b : PortSt → PortSt) (s : State) :
    (onPort a b s).pwr = s.pwr := rfl
@[simp] theorem onPort_thm (a : Port) (b : PortSt → PortSt) (s : State) :
    (onPort a b s).thm = s.thm := rfl
@[simp] theorem onPort_hbm (a : Port) (b : PortSt → PortSt) (s : State) :
    (onPort a b s).hbm = s.hbm := rfl
@[simp] theorem onPort_comb (a : Port) (b : PortSt → PortSt) (s : State) :
    (onPort a b s).comb = s.comb := rfl
@[simp] theorem onPort_site (a : Port) (b : PortSt → PortSt) (s : State) :
    (onPort a b s).site = s.site := rfl
@[simp] theorem onPort_wide (a : Port) (b : PortSt → PortSt) (s : State) :
    (onPort a b s).wide = s.wide := rfl
@[simp] theorem onPort_reach (a : Port) (b : PortSt → PortSt) (s : State) :
    (onPort a b s).reach = s.reach := rfl
@[simp] theorem onPort_siteReg (a : Port) (b : PortSt → PortSt) (s : State) :
    (onPort a b s).siteReg = s.siteReg := rfl
@[simp] theorem onPort_beam (a : Port) (b : PortSt → PortSt) (s : State) :
    (onPort a b s).beam = s.beam := rfl
@[simp] theorem onPort_pln (a : Port) (b : PortSt → PortSt) (s : State) :
    (onPort a b s).pln = s.pln := rfl
@[simp] theorem onPort_ring (a : Port) (b : PortSt → PortSt) (s : State) :
    (onPort a b s).ring = s.ring := rfl
@[simp] theorem onPort_img (a : Port) (b : PortSt → PortSt) (s : State) :
    (onPort a b s).img = s.img := rfl
@[simp] theorem onPort_ctl (a : Port) (b : PortSt → PortSt) (s : State) :
    (onPort a b s).ctl = s.ctl := rfl
@[simp] theorem onPort_sq (a : Port) (b : PortSt → PortSt) (s : State) :
    (onPort a b s).sq = s.sq := rfl
@[simp] theorem onPort_ce (a : Port) (b : PortSt → PortSt) (s : State) :
    (onPort a b s).ce = s.ce := rfl
@[simp] theorem onPort_time (a : Port) (b : PortSt → PortSt) (s : State) :
    (onPort a b s).time = s.time := rfl
@[simp] theorem onPort_out (a : Port) (b : PortSt → PortSt) (s : State) :
    (onPort a b s).out = s.out := rfl
@[simp] theorem onPort_fresh (a : Port) (b : PortSt → PortSt) (s : State) :
    (onPort a b s).fresh = s.fresh := rfl
@[simp] theorem onPort_pending (a : Port) (b : PortSt → PortSt) (s : State) :
    (onPort a b s).pending = s.pending := rfl
@[simp] theorem onLine_port (a : Port) (b : Line) (c : LineSt → LineSt) (s : State) :
    (onLine a b c s).port = upd s.port a fun q => { q with line := upd q.line b c } := rfl
@[simp] theorem onLine_dev (a : Port) (b : Line) (c : LineSt → LineSt) (s : State) :
    (onLine a b c s).dev = s.dev := rfl
@[simp] theorem onLine_host (a : Port) (b : Line) (c : LineSt → LineSt) (s : State) :
    (onLine a b c s).host = s.host := rfl
@[simp] theorem onLine_mbx (a : Port) (b : Line) (c : LineSt → LineSt) (s : State) :
    (onLine a b c s).mbx = s.mbx := rfl
@[simp] theorem onLine_dbl (a : Port) (b : Line) (c : LineSt → LineSt) (s : State) :
    (onLine a b c s).dbl = s.dbl := rfl
@[simp] theorem onLine_lck (a : Port) (b : Line) (c : LineSt → LineSt) (s : State) :
    (onLine a b c s).lck = s.lck := rfl
@[simp] theorem onLine_err (a : Port) (b : Line) (c : LineSt → LineSt) (s : State) :
    (onLine a b c s).err = s.err := rfl
@[simp] theorem onLine_mgt (a : Port) (b : Line) (c : LineSt → LineSt) (s : State) :
    (onLine a b c s).mgt = s.mgt := rfl
@[simp] theorem onLine_sec (a : Port) (b : Line) (c : LineSt → LineSt) (s : State) :
    (onLine a b c s).sec = s.sec := rfl
@[simp] theorem onLine_pwr (a : Port) (b : Line) (c : LineSt → LineSt) (s : State) :
    (onLine a b c s).pwr = s.pwr := rfl
@[simp] theorem onLine_thm (a : Port) (b : Line) (c : LineSt → LineSt) (s : State) :
    (onLine a b c s).thm = s.thm := rfl
@[simp] theorem onLine_hbm (a : Port) (b : Line) (c : LineSt → LineSt) (s : State) :
    (onLine a b c s).hbm = s.hbm := rfl
@[simp] theorem onLine_comb (a : Port) (b : Line) (c : LineSt → LineSt) (s : State) :
    (onLine a b c s).comb = s.comb := rfl
@[simp] theorem onLine_site (a : Port) (b : Line) (c : LineSt → LineSt) (s : State) :
    (onLine a b c s).site = s.site := rfl
@[simp] theorem onLine_wide (a : Port) (b : Line) (c : LineSt → LineSt) (s : State) :
    (onLine a b c s).wide = s.wide := rfl
@[simp] theorem onLine_reach (a : Port) (b : Line) (c : LineSt → LineSt) (s : State) :
    (onLine a b c s).reach = s.reach := rfl
@[simp] theorem onLine_siteReg (a : Port) (b : Line) (c : LineSt → LineSt) (s : State) :
    (onLine a b c s).siteReg = s.siteReg := rfl
@[simp] theorem onLine_beam (a : Port) (b : Line) (c : LineSt → LineSt) (s : State) :
    (onLine a b c s).beam = s.beam := rfl
@[simp] theorem onLine_pln (a : Port) (b : Line) (c : LineSt → LineSt) (s : State) :
    (onLine a b c s).pln = s.pln := rfl
@[simp] theorem onLine_ring (a : Port) (b : Line) (c : LineSt → LineSt) (s : State) :
    (onLine a b c s).ring = s.ring := rfl
@[simp] theorem onLine_img (a : Port) (b : Line) (c : LineSt → LineSt) (s : State) :
    (onLine a b c s).img = s.img := rfl
@[simp] theorem onLine_ctl (a : Port) (b : Line) (c : LineSt → LineSt) (s : State) :
    (onLine a b c s).ctl = s.ctl := rfl
@[simp] theorem onLine_sq (a : Port) (b : Line) (c : LineSt → LineSt) (s : State) :
    (onLine a b c s).sq = s.sq := rfl
@[simp] theorem onLine_ce (a : Port) (b : Line) (c : LineSt → LineSt) (s : State) :
    (onLine a b c s).ce = s.ce := rfl
@[simp] theorem onLine_time (a : Port) (b : Line) (c : LineSt → LineSt) (s : State) :
    (onLine a b c s).time = s.time := rfl
@[simp] theorem onLine_out (a : Port) (b : Line) (c : LineSt → LineSt) (s : State) :
    (onLine a b c s).out = s.out := rfl
@[simp] theorem onLine_fresh (a : Port) (b : Line) (c : LineSt → LineSt) (s : State) :
    (onLine a b c s).fresh = s.fresh := rfl
@[simp] theorem onLine_pending (a : Port) (b : Line) (c : LineSt → LineSt) (s : State) :
    (onLine a b c s).pending = s.pending := rfl
@[simp] theorem onBeam_beam (a : Beam) (b : BeamSt → BeamSt) (s : State) :
    (onBeam a b s).beam = upd s.beam a b := rfl
@[simp] theorem onBeam_dev (a : Beam) (b : BeamSt → BeamSt) (s : State) :
    (onBeam a b s).dev = s.dev := rfl
@[simp] theorem onBeam_host (a : Beam) (b : BeamSt → BeamSt) (s : State) :
    (onBeam a b s).host = s.host := rfl
@[simp] theorem onBeam_mbx (a : Beam) (b : BeamSt → BeamSt) (s : State) :
    (onBeam a b s).mbx = s.mbx := rfl
@[simp] theorem onBeam_dbl (a : Beam) (b : BeamSt → BeamSt) (s : State) :
    (onBeam a b s).dbl = s.dbl := rfl
@[simp] theorem onBeam_lck (a : Beam) (b : BeamSt → BeamSt) (s : State) :
    (onBeam a b s).lck = s.lck := rfl
@[simp] theorem onBeam_err (a : Beam) (b : BeamSt → BeamSt) (s : State) :
    (onBeam a b s).err = s.err := rfl
@[simp] theorem onBeam_mgt (a : Beam) (b : BeamSt → BeamSt) (s : State) :
    (onBeam a b s).mgt = s.mgt := rfl
@[simp] theorem onBeam_sec (a : Beam) (b : BeamSt → BeamSt) (s : State) :
    (onBeam a b s).sec = s.sec := rfl
@[simp] theorem onBeam_pwr (a : Beam) (b : BeamSt → BeamSt) (s : State) :
    (onBeam a b s).pwr = s.pwr := rfl
@[simp] theorem onBeam_thm (a : Beam) (b : BeamSt → BeamSt) (s : State) :
    (onBeam a b s).thm = s.thm := rfl
@[simp] theorem onBeam_hbm (a : Beam) (b : BeamSt → BeamSt) (s : State) :
    (onBeam a b s).hbm = s.hbm := rfl
@[simp] theorem onBeam_comb (a : Beam) (b : BeamSt → BeamSt) (s : State) :
    (onBeam a b s).comb = s.comb := rfl
@[simp] theorem onBeam_site (a : Beam) (b : BeamSt → BeamSt) (s : State) :
    (onBeam a b s).site = s.site := rfl
@[simp] theorem onBeam_wide (a : Beam) (b : BeamSt → BeamSt) (s : State) :
    (onBeam a b s).wide = s.wide := rfl
@[simp] theorem onBeam_reach (a : Beam) (b : BeamSt → BeamSt) (s : State) :
    (onBeam a b s).reach = s.reach := rfl
@[simp] theorem onBeam_siteReg (a : Beam) (b : BeamSt → BeamSt) (s : State) :
    (onBeam a b s).siteReg = s.siteReg := rfl
@[simp] theorem onBeam_port (a : Beam) (b : BeamSt → BeamSt) (s : State) :
    (onBeam a b s).port = s.port := rfl
@[simp] theorem onBeam_pln (a : Beam) (b : BeamSt → BeamSt) (s : State) :
    (onBeam a b s).pln = s.pln := rfl
@[simp] theorem onBeam_ring (a : Beam) (b : BeamSt → BeamSt) (s : State) :
    (onBeam a b s).ring = s.ring := rfl
@[simp] theorem onBeam_img (a : Beam) (b : BeamSt → BeamSt) (s : State) :
    (onBeam a b s).img = s.img := rfl
@[simp] theorem onBeam_ctl (a : Beam) (b : BeamSt → BeamSt) (s : State) :
    (onBeam a b s).ctl = s.ctl := rfl
@[simp] theorem onBeam_sq (a : Beam) (b : BeamSt → BeamSt) (s : State) :
    (onBeam a b s).sq = s.sq := rfl
@[simp] theorem onBeam_ce (a : Beam) (b : BeamSt → BeamSt) (s : State) :
    (onBeam a b s).ce = s.ce := rfl
@[simp] theorem onBeam_time (a : Beam) (b : BeamSt → BeamSt) (s : State) :
    (onBeam a b s).time = s.time := rfl
@[simp] theorem onBeam_out (a : Beam) (b : BeamSt → BeamSt) (s : State) :
    (onBeam a b s).out = s.out := rfl
@[simp] theorem onBeam_fresh (a : Beam) (b : BeamSt → BeamSt) (s : State) :
    (onBeam a b s).fresh = s.fresh := rfl
@[simp] theorem onBeam_pending (a : Beam) (b : BeamSt → BeamSt) (s : State) :
    (onBeam a b s).pending = s.pending := rfl
@[simp] theorem onSite_site (a : SiteIx) (b : Site → Site) (s : State) :
    (onSite a b s).site = upd s.site a b := rfl
@[simp] theorem onSite_dev (a : SiteIx) (b : Site → Site) (s : State) :
    (onSite a b s).dev = s.dev := rfl
@[simp] theorem onSite_host (a : SiteIx) (b : Site → Site) (s : State) :
    (onSite a b s).host = s.host := rfl
@[simp] theorem onSite_mbx (a : SiteIx) (b : Site → Site) (s : State) :
    (onSite a b s).mbx = s.mbx := rfl
@[simp] theorem onSite_dbl (a : SiteIx) (b : Site → Site) (s : State) :
    (onSite a b s).dbl = s.dbl := rfl
@[simp] theorem onSite_lck (a : SiteIx) (b : Site → Site) (s : State) :
    (onSite a b s).lck = s.lck := rfl
@[simp] theorem onSite_err (a : SiteIx) (b : Site → Site) (s : State) :
    (onSite a b s).err = s.err := rfl
@[simp] theorem onSite_mgt (a : SiteIx) (b : Site → Site) (s : State) :
    (onSite a b s).mgt = s.mgt := rfl
@[simp] theorem onSite_sec (a : SiteIx) (b : Site → Site) (s : State) :
    (onSite a b s).sec = s.sec := rfl
@[simp] theorem onSite_pwr (a : SiteIx) (b : Site → Site) (s : State) :
    (onSite a b s).pwr = s.pwr := rfl
@[simp] theorem onSite_thm (a : SiteIx) (b : Site → Site) (s : State) :
    (onSite a b s).thm = s.thm := rfl
@[simp] theorem onSite_hbm (a : SiteIx) (b : Site → Site) (s : State) :
    (onSite a b s).hbm = s.hbm := rfl
@[simp] theorem onSite_comb (a : SiteIx) (b : Site → Site) (s : State) :
    (onSite a b s).comb = s.comb := rfl
@[simp] theorem onSite_wide (a : SiteIx) (b : Site → Site) (s : State) :
    (onSite a b s).wide = s.wide := rfl
@[simp] theorem onSite_reach (a : SiteIx) (b : Site → Site) (s : State) :
    (onSite a b s).reach = s.reach := rfl
@[simp] theorem onSite_siteReg (a : SiteIx) (b : Site → Site) (s : State) :
    (onSite a b s).siteReg = s.siteReg := rfl
@[simp] theorem onSite_beam (a : SiteIx) (b : Site → Site) (s : State) :
    (onSite a b s).beam = s.beam := rfl
@[simp] theorem onSite_port (a : SiteIx) (b : Site → Site) (s : State) :
    (onSite a b s).port = s.port := rfl
@[simp] theorem onSite_pln (a : SiteIx) (b : Site → Site) (s : State) :
    (onSite a b s).pln = s.pln := rfl
@[simp] theorem onSite_ring (a : SiteIx) (b : Site → Site) (s : State) :
    (onSite a b s).ring = s.ring := rfl
@[simp] theorem onSite_img (a : SiteIx) (b : Site → Site) (s : State) :
    (onSite a b s).img = s.img := rfl
@[simp] theorem onSite_ctl (a : SiteIx) (b : Site → Site) (s : State) :
    (onSite a b s).ctl = s.ctl := rfl
@[simp] theorem onSite_sq (a : SiteIx) (b : Site → Site) (s : State) :
    (onSite a b s).sq = s.sq := rfl
@[simp] theorem onSite_ce (a : SiteIx) (b : Site → Site) (s : State) :
    (onSite a b s).ce = s.ce := rfl
@[simp] theorem onSite_time (a : SiteIx) (b : Site → Site) (s : State) :
    (onSite a b s).time = s.time := rfl
@[simp] theorem onSite_out (a : SiteIx) (b : Site → Site) (s : State) :
    (onSite a b s).out = s.out := rfl
@[simp] theorem onSite_fresh (a : SiteIx) (b : Site → Site) (s : State) :
    (onSite a b s).fresh = s.fresh := rfl
@[simp] theorem onSite_pending (a : SiteIx) (b : Site → Site) (s : State) :
    (onSite a b s).pending = s.pending := rfl
@[simp] theorem onMod_wide (a : WideIx) (b : Fin 33) (c : Module → Module) (s : State) :
    (onMod a b c s).wide = upd s.wide a fun y => { y with mods := upd y.mods b c } := rfl
@[simp] theorem onMod_dev (a : WideIx) (b : Fin 33) (c : Module → Module) (s : State) :
    (onMod a b c s).dev = s.dev := rfl
@[simp] theorem onMod_host (a : WideIx) (b : Fin 33) (c : Module → Module) (s : State) :
    (onMod a b c s).host = s.host := rfl
@[simp] theorem onMod_mbx (a : WideIx) (b : Fin 33) (c : Module → Module) (s : State) :
    (onMod a b c s).mbx = s.mbx := rfl
@[simp] theorem onMod_dbl (a : WideIx) (b : Fin 33) (c : Module → Module) (s : State) :
    (onMod a b c s).dbl = s.dbl := rfl
@[simp] theorem onMod_lck (a : WideIx) (b : Fin 33) (c : Module → Module) (s : State) :
    (onMod a b c s).lck = s.lck := rfl
@[simp] theorem onMod_err (a : WideIx) (b : Fin 33) (c : Module → Module) (s : State) :
    (onMod a b c s).err = s.err := rfl
@[simp] theorem onMod_mgt (a : WideIx) (b : Fin 33) (c : Module → Module) (s : State) :
    (onMod a b c s).mgt = s.mgt := rfl
@[simp] theorem onMod_sec (a : WideIx) (b : Fin 33) (c : Module → Module) (s : State) :
    (onMod a b c s).sec = s.sec := rfl
@[simp] theorem onMod_pwr (a : WideIx) (b : Fin 33) (c : Module → Module) (s : State) :
    (onMod a b c s).pwr = s.pwr := rfl
@[simp] theorem onMod_thm (a : WideIx) (b : Fin 33) (c : Module → Module) (s : State) :
    (onMod a b c s).thm = s.thm := rfl
@[simp] theorem onMod_hbm (a : WideIx) (b : Fin 33) (c : Module → Module) (s : State) :
    (onMod a b c s).hbm = s.hbm := rfl
@[simp] theorem onMod_comb (a : WideIx) (b : Fin 33) (c : Module → Module) (s : State) :
    (onMod a b c s).comb = s.comb := rfl
@[simp] theorem onMod_site (a : WideIx) (b : Fin 33) (c : Module → Module) (s : State) :
    (onMod a b c s).site = s.site := rfl
@[simp] theorem onMod_reach (a : WideIx) (b : Fin 33) (c : Module → Module) (s : State) :
    (onMod a b c s).reach = s.reach := rfl
@[simp] theorem onMod_siteReg (a : WideIx) (b : Fin 33) (c : Module → Module) (s : State) :
    (onMod a b c s).siteReg = s.siteReg := rfl
@[simp] theorem onMod_beam (a : WideIx) (b : Fin 33) (c : Module → Module) (s : State) :
    (onMod a b c s).beam = s.beam := rfl
@[simp] theorem onMod_port (a : WideIx) (b : Fin 33) (c : Module → Module) (s : State) :
    (onMod a b c s).port = s.port := rfl
@[simp] theorem onMod_pln (a : WideIx) (b : Fin 33) (c : Module → Module) (s : State) :
    (onMod a b c s).pln = s.pln := rfl
@[simp] theorem onMod_ring (a : WideIx) (b : Fin 33) (c : Module → Module) (s : State) :
    (onMod a b c s).ring = s.ring := rfl
@[simp] theorem onMod_img (a : WideIx) (b : Fin 33) (c : Module → Module) (s : State) :
    (onMod a b c s).img = s.img := rfl
@[simp] theorem onMod_ctl (a : WideIx) (b : Fin 33) (c : Module → Module) (s : State) :
    (onMod a b c s).ctl = s.ctl := rfl
@[simp] theorem onMod_sq (a : WideIx) (b : Fin 33) (c : Module → Module) (s : State) :
    (onMod a b c s).sq = s.sq := rfl
@[simp] theorem onMod_ce (a : WideIx) (b : Fin 33) (c : Module → Module) (s : State) :
    (onMod a b c s).ce = s.ce := rfl
@[simp] theorem onMod_time (a : WideIx) (b : Fin 33) (c : Module → Module) (s : State) :
    (onMod a b c s).time = s.time := rfl
@[simp] theorem onMod_out (a : WideIx) (b : Fin 33) (c : Module → Module) (s : State) :
    (onMod a b c s).out = s.out := rfl
@[simp] theorem onMod_fresh (a : WideIx) (b : Fin 33) (c : Module → Module) (s : State) :
    (onMod a b c s).fresh = s.fresh := rfl
@[simp] theorem onMod_pending (a : WideIx) (b : Fin 33) (c : Module → Module) (s : State) :
    (onMod a b c s).pending = s.pending := rfl
@[simp] theorem onReach_reach (a : ReachIx) (b : ReachSite → ReachSite) (s : State) :
    (onReach a b s).reach = upd s.reach a b := rfl
@[simp] theorem onReach_dev (a : ReachIx) (b : ReachSite → ReachSite) (s : State) :
    (onReach a b s).dev = s.dev := rfl
@[simp] theorem onReach_host (a : ReachIx) (b : ReachSite → ReachSite) (s : State) :
    (onReach a b s).host = s.host := rfl
@[simp] theorem onReach_mbx (a : ReachIx) (b : ReachSite → ReachSite) (s : State) :
    (onReach a b s).mbx = s.mbx := rfl
@[simp] theorem onReach_dbl (a : ReachIx) (b : ReachSite → ReachSite) (s : State) :
    (onReach a b s).dbl = s.dbl := rfl
@[simp] theorem onReach_lck (a : ReachIx) (b : ReachSite → ReachSite) (s : State) :
    (onReach a b s).lck = s.lck := rfl
@[simp] theorem onReach_err (a : ReachIx) (b : ReachSite → ReachSite) (s : State) :
    (onReach a b s).err = s.err := rfl
@[simp] theorem onReach_mgt (a : ReachIx) (b : ReachSite → ReachSite) (s : State) :
    (onReach a b s).mgt = s.mgt := rfl
@[simp] theorem onReach_sec (a : ReachIx) (b : ReachSite → ReachSite) (s : State) :
    (onReach a b s).sec = s.sec := rfl
@[simp] theorem onReach_pwr (a : ReachIx) (b : ReachSite → ReachSite) (s : State) :
    (onReach a b s).pwr = s.pwr := rfl
@[simp] theorem onReach_thm (a : ReachIx) (b : ReachSite → ReachSite) (s : State) :
    (onReach a b s).thm = s.thm := rfl
@[simp] theorem onReach_hbm (a : ReachIx) (b : ReachSite → ReachSite) (s : State) :
    (onReach a b s).hbm = s.hbm := rfl
@[simp] theorem onReach_comb (a : ReachIx) (b : ReachSite → ReachSite) (s : State) :
    (onReach a b s).comb = s.comb := rfl
@[simp] theorem onReach_site (a : ReachIx) (b : ReachSite → ReachSite) (s : State) :
    (onReach a b s).site = s.site := rfl
@[simp] theorem onReach_wide (a : ReachIx) (b : ReachSite → ReachSite) (s : State) :
    (onReach a b s).wide = s.wide := rfl
@[simp] theorem onReach_siteReg (a : ReachIx) (b : ReachSite → ReachSite) (s : State) :
    (onReach a b s).siteReg = s.siteReg := rfl
@[simp] theorem onReach_beam (a : ReachIx) (b : ReachSite → ReachSite) (s : State) :
    (onReach a b s).beam = s.beam := rfl
@[simp] theorem onReach_port (a : ReachIx) (b : ReachSite → ReachSite) (s : State) :
    (onReach a b s).port = s.port := rfl
@[simp] theorem onReach_pln (a : ReachIx) (b : ReachSite → ReachSite) (s : State) :
    (onReach a b s).pln = s.pln := rfl
@[simp] theorem onReach_ring (a : ReachIx) (b : ReachSite → ReachSite) (s : State) :
    (onReach a b s).ring = s.ring := rfl
@[simp] theorem onReach_img (a : ReachIx) (b : ReachSite → ReachSite) (s : State) :
    (onReach a b s).img = s.img := rfl
@[simp] theorem onReach_ctl (a : ReachIx) (b : ReachSite → ReachSite) (s : State) :
    (onReach a b s).ctl = s.ctl := rfl
@[simp] theorem onReach_sq (a : ReachIx) (b : ReachSite → ReachSite) (s : State) :
    (onReach a b s).sq = s.sq := rfl
@[simp] theorem onReach_ce (a : ReachIx) (b : ReachSite → ReachSite) (s : State) :
    (onReach a b s).ce = s.ce := rfl
@[simp] theorem onReach_time (a : ReachIx) (b : ReachSite → ReachSite) (s : State) :
    (onReach a b s).time = s.time := rfl
@[simp] theorem onReach_out (a : ReachIx) (b : ReachSite → ReachSite) (s : State) :
    (onReach a b s).out = s.out := rfl
@[simp] theorem onReach_fresh (a : ReachIx) (b : ReachSite → ReachSite) (s : State) :
    (onReach a b s).fresh = s.fresh := rfl
@[simp] theorem onReach_pending (a : ReachIx) (b : ReachSite → ReachSite) (s : State) :
    (onReach a b s).pending = s.pending := rfl
@[simp] theorem onLane_reach (a : ReachIx) (b : Fin 32) (c : ReachLane → ReachLane) (s : State) :
    (onLane a b c s).reach = upd s.reach a fun r => { r with lanes := upd r.lanes b c } := rfl
@[simp] theorem onLane_dev (a : ReachIx) (b : Fin 32) (c : ReachLane → ReachLane) (s : State) :
    (onLane a b c s).dev = s.dev := rfl
@[simp] theorem onLane_host (a : ReachIx) (b : Fin 32) (c : ReachLane → ReachLane) (s : State) :
    (onLane a b c s).host = s.host := rfl
@[simp] theorem onLane_mbx (a : ReachIx) (b : Fin 32) (c : ReachLane → ReachLane) (s : State) :
    (onLane a b c s).mbx = s.mbx := rfl
@[simp] theorem onLane_dbl (a : ReachIx) (b : Fin 32) (c : ReachLane → ReachLane) (s : State) :
    (onLane a b c s).dbl = s.dbl := rfl
@[simp] theorem onLane_lck (a : ReachIx) (b : Fin 32) (c : ReachLane → ReachLane) (s : State) :
    (onLane a b c s).lck = s.lck := rfl
@[simp] theorem onLane_err (a : ReachIx) (b : Fin 32) (c : ReachLane → ReachLane) (s : State) :
    (onLane a b c s).err = s.err := rfl
@[simp] theorem onLane_mgt (a : ReachIx) (b : Fin 32) (c : ReachLane → ReachLane) (s : State) :
    (onLane a b c s).mgt = s.mgt := rfl
@[simp] theorem onLane_sec (a : ReachIx) (b : Fin 32) (c : ReachLane → ReachLane) (s : State) :
    (onLane a b c s).sec = s.sec := rfl
@[simp] theorem onLane_pwr (a : ReachIx) (b : Fin 32) (c : ReachLane → ReachLane) (s : State) :
    (onLane a b c s).pwr = s.pwr := rfl
@[simp] theorem onLane_thm (a : ReachIx) (b : Fin 32) (c : ReachLane → ReachLane) (s : State) :
    (onLane a b c s).thm = s.thm := rfl
@[simp] theorem onLane_hbm (a : ReachIx) (b : Fin 32) (c : ReachLane → ReachLane) (s : State) :
    (onLane a b c s).hbm = s.hbm := rfl
@[simp] theorem onLane_comb (a : ReachIx) (b : Fin 32) (c : ReachLane → ReachLane) (s : State) :
    (onLane a b c s).comb = s.comb := rfl
@[simp] theorem onLane_site (a : ReachIx) (b : Fin 32) (c : ReachLane → ReachLane) (s : State) :
    (onLane a b c s).site = s.site := rfl
@[simp] theorem onLane_wide (a : ReachIx) (b : Fin 32) (c : ReachLane → ReachLane) (s : State) :
    (onLane a b c s).wide = s.wide := rfl
@[simp] theorem onLane_siteReg (a : ReachIx) (b : Fin 32) (c : ReachLane → ReachLane) (s : State) :
    (onLane a b c s).siteReg = s.siteReg := rfl
@[simp] theorem onLane_beam (a : ReachIx) (b : Fin 32) (c : ReachLane → ReachLane) (s : State) :
    (onLane a b c s).beam = s.beam := rfl
@[simp] theorem onLane_port (a : ReachIx) (b : Fin 32) (c : ReachLane → ReachLane) (s : State) :
    (onLane a b c s).port = s.port := rfl
@[simp] theorem onLane_pln (a : ReachIx) (b : Fin 32) (c : ReachLane → ReachLane) (s : State) :
    (onLane a b c s).pln = s.pln := rfl
@[simp] theorem onLane_ring (a : ReachIx) (b : Fin 32) (c : ReachLane → ReachLane) (s : State) :
    (onLane a b c s).ring = s.ring := rfl
@[simp] theorem onLane_img (a : ReachIx) (b : Fin 32) (c : ReachLane → ReachLane) (s : State) :
    (onLane a b c s).img = s.img := rfl
@[simp] theorem onLane_ctl (a : ReachIx) (b : Fin 32) (c : ReachLane → ReachLane) (s : State) :
    (onLane a b c s).ctl = s.ctl := rfl
@[simp] theorem onLane_sq (a : ReachIx) (b : Fin 32) (c : ReachLane → ReachLane) (s : State) :
    (onLane a b c s).sq = s.sq := rfl
@[simp] theorem onLane_ce (a : ReachIx) (b : Fin 32) (c : ReachLane → ReachLane) (s : State) :
    (onLane a b c s).ce = s.ce := rfl
@[simp] theorem onLane_time (a : ReachIx) (b : Fin 32) (c : ReachLane → ReachLane) (s : State) :
    (onLane a b c s).time = s.time := rfl
@[simp] theorem onLane_out (a : ReachIx) (b : Fin 32) (c : ReachLane → ReachLane) (s : State) :
    (onLane a b c s).out = s.out := rfl
@[simp] theorem onLane_fresh (a : ReachIx) (b : Fin 32) (c : ReachLane → ReachLane) (s : State) :
    (onLane a b c s).fresh = s.fresh := rfl
@[simp] theorem onLane_pending (a : ReachIx) (b : Fin 32) (c : ReachLane → ReachLane) (s : State) :
    (onLane a b c s).pending = s.pending := rfl
@[simp] theorem onH2f_mbx (a : Fin 16) (b : TxChan → TxChan) (s : State) :
    (onH2f a b s).mbx = { s.mbx with h2f := upd s.mbx.h2f a b } := rfl
@[simp] theorem onH2f_dev (a : Fin 16) (b : TxChan → TxChan) (s : State) :
    (onH2f a b s).dev = s.dev := rfl
@[simp] theorem onH2f_host (a : Fin 16) (b : TxChan → TxChan) (s : State) :
    (onH2f a b s).host = s.host := rfl
@[simp] theorem onH2f_dbl (a : Fin 16) (b : TxChan → TxChan) (s : State) :
    (onH2f a b s).dbl = s.dbl := rfl
@[simp] theorem onH2f_lck (a : Fin 16) (b : TxChan → TxChan) (s : State) :
    (onH2f a b s).lck = s.lck := rfl
@[simp] theorem onH2f_err (a : Fin 16) (b : TxChan → TxChan) (s : State) :
    (onH2f a b s).err = s.err := rfl
@[simp] theorem onH2f_mgt (a : Fin 16) (b : TxChan → TxChan) (s : State) :
    (onH2f a b s).mgt = s.mgt := rfl
@[simp] theorem onH2f_sec (a : Fin 16) (b : TxChan → TxChan) (s : State) :
    (onH2f a b s).sec = s.sec := rfl
@[simp] theorem onH2f_pwr (a : Fin 16) (b : TxChan → TxChan) (s : State) :
    (onH2f a b s).pwr = s.pwr := rfl
@[simp] theorem onH2f_thm (a : Fin 16) (b : TxChan → TxChan) (s : State) :
    (onH2f a b s).thm = s.thm := rfl
@[simp] theorem onH2f_hbm (a : Fin 16) (b : TxChan → TxChan) (s : State) :
    (onH2f a b s).hbm = s.hbm := rfl
@[simp] theorem onH2f_comb (a : Fin 16) (b : TxChan → TxChan) (s : State) :
    (onH2f a b s).comb = s.comb := rfl
@[simp] theorem onH2f_site (a : Fin 16) (b : TxChan → TxChan) (s : State) :
    (onH2f a b s).site = s.site := rfl
@[simp] theorem onH2f_wide (a : Fin 16) (b : TxChan → TxChan) (s : State) :
    (onH2f a b s).wide = s.wide := rfl
@[simp] theorem onH2f_reach (a : Fin 16) (b : TxChan → TxChan) (s : State) :
    (onH2f a b s).reach = s.reach := rfl
@[simp] theorem onH2f_siteReg (a : Fin 16) (b : TxChan → TxChan) (s : State) :
    (onH2f a b s).siteReg = s.siteReg := rfl
@[simp] theorem onH2f_beam (a : Fin 16) (b : TxChan → TxChan) (s : State) :
    (onH2f a b s).beam = s.beam := rfl
@[simp] theorem onH2f_port (a : Fin 16) (b : TxChan → TxChan) (s : State) :
    (onH2f a b s).port = s.port := rfl
@[simp] theorem onH2f_pln (a : Fin 16) (b : TxChan → TxChan) (s : State) :
    (onH2f a b s).pln = s.pln := rfl
@[simp] theorem onH2f_ring (a : Fin 16) (b : TxChan → TxChan) (s : State) :
    (onH2f a b s).ring = s.ring := rfl
@[simp] theorem onH2f_img (a : Fin 16) (b : TxChan → TxChan) (s : State) :
    (onH2f a b s).img = s.img := rfl
@[simp] theorem onH2f_ctl (a : Fin 16) (b : TxChan → TxChan) (s : State) :
    (onH2f a b s).ctl = s.ctl := rfl
@[simp] theorem onH2f_sq (a : Fin 16) (b : TxChan → TxChan) (s : State) :
    (onH2f a b s).sq = s.sq := rfl
@[simp] theorem onH2f_ce (a : Fin 16) (b : TxChan → TxChan) (s : State) :
    (onH2f a b s).ce = s.ce := rfl
@[simp] theorem onH2f_time (a : Fin 16) (b : TxChan → TxChan) (s : State) :
    (onH2f a b s).time = s.time := rfl
@[simp] theorem onH2f_out (a : Fin 16) (b : TxChan → TxChan) (s : State) :
    (onH2f a b s).out = s.out := rfl
@[simp] theorem onH2f_fresh (a : Fin 16) (b : TxChan → TxChan) (s : State) :
    (onH2f a b s).fresh = s.fresh := rfl
@[simp] theorem onH2f_pending (a : Fin 16) (b : TxChan → TxChan) (s : State) :
    (onH2f a b s).pending = s.pending := rfl
@[simp] theorem onH2d_mbx (a : SiteIx) (b : Fin 8) (c : TxChan → TxChan) (s : State) :
    (onH2d a b c s).mbx = { s.mbx with h2d := upd s.mbx.h2d a fun v => upd v b c } := rfl
@[simp] theorem onH2d_dev (a : SiteIx) (b : Fin 8) (c : TxChan → TxChan) (s : State) :
    (onH2d a b c s).dev = s.dev := rfl
@[simp] theorem onH2d_host (a : SiteIx) (b : Fin 8) (c : TxChan → TxChan) (s : State) :
    (onH2d a b c s).host = s.host := rfl
@[simp] theorem onH2d_dbl (a : SiteIx) (b : Fin 8) (c : TxChan → TxChan) (s : State) :
    (onH2d a b c s).dbl = s.dbl := rfl
@[simp] theorem onH2d_lck (a : SiteIx) (b : Fin 8) (c : TxChan → TxChan) (s : State) :
    (onH2d a b c s).lck = s.lck := rfl
@[simp] theorem onH2d_err (a : SiteIx) (b : Fin 8) (c : TxChan → TxChan) (s : State) :
    (onH2d a b c s).err = s.err := rfl
@[simp] theorem onH2d_mgt (a : SiteIx) (b : Fin 8) (c : TxChan → TxChan) (s : State) :
    (onH2d a b c s).mgt = s.mgt := rfl
@[simp] theorem onH2d_sec (a : SiteIx) (b : Fin 8) (c : TxChan → TxChan) (s : State) :
    (onH2d a b c s).sec = s.sec := rfl
@[simp] theorem onH2d_pwr (a : SiteIx) (b : Fin 8) (c : TxChan → TxChan) (s : State) :
    (onH2d a b c s).pwr = s.pwr := rfl
@[simp] theorem onH2d_thm (a : SiteIx) (b : Fin 8) (c : TxChan → TxChan) (s : State) :
    (onH2d a b c s).thm = s.thm := rfl
@[simp] theorem onH2d_hbm (a : SiteIx) (b : Fin 8) (c : TxChan → TxChan) (s : State) :
    (onH2d a b c s).hbm = s.hbm := rfl
@[simp] theorem onH2d_comb (a : SiteIx) (b : Fin 8) (c : TxChan → TxChan) (s : State) :
    (onH2d a b c s).comb = s.comb := rfl
@[simp] theorem onH2d_site (a : SiteIx) (b : Fin 8) (c : TxChan → TxChan) (s : State) :
    (onH2d a b c s).site = s.site := rfl
@[simp] theorem onH2d_wide (a : SiteIx) (b : Fin 8) (c : TxChan → TxChan) (s : State) :
    (onH2d a b c s).wide = s.wide := rfl
@[simp] theorem onH2d_reach (a : SiteIx) (b : Fin 8) (c : TxChan → TxChan) (s : State) :
    (onH2d a b c s).reach = s.reach := rfl
@[simp] theorem onH2d_siteReg (a : SiteIx) (b : Fin 8) (c : TxChan → TxChan) (s : State) :
    (onH2d a b c s).siteReg = s.siteReg := rfl
@[simp] theorem onH2d_beam (a : SiteIx) (b : Fin 8) (c : TxChan → TxChan) (s : State) :
    (onH2d a b c s).beam = s.beam := rfl
@[simp] theorem onH2d_port (a : SiteIx) (b : Fin 8) (c : TxChan → TxChan) (s : State) :
    (onH2d a b c s).port = s.port := rfl
@[simp] theorem onH2d_pln (a : SiteIx) (b : Fin 8) (c : TxChan → TxChan) (s : State) :
    (onH2d a b c s).pln = s.pln := rfl
@[simp] theorem onH2d_ring (a : SiteIx) (b : Fin 8) (c : TxChan → TxChan) (s : State) :
    (onH2d a b c s).ring = s.ring := rfl
@[simp] theorem onH2d_img (a : SiteIx) (b : Fin 8) (c : TxChan → TxChan) (s : State) :
    (onH2d a b c s).img = s.img := rfl
@[simp] theorem onH2d_ctl (a : SiteIx) (b : Fin 8) (c : TxChan → TxChan) (s : State) :
    (onH2d a b c s).ctl = s.ctl := rfl
@[simp] theorem onH2d_sq (a : SiteIx) (b : Fin 8) (c : TxChan → TxChan) (s : State) :
    (onH2d a b c s).sq = s.sq := rfl
@[simp] theorem onH2d_ce (a : SiteIx) (b : Fin 8) (c : TxChan → TxChan) (s : State) :
    (onH2d a b c s).ce = s.ce := rfl
@[simp] theorem onH2d_time (a : SiteIx) (b : Fin 8) (c : TxChan → TxChan) (s : State) :
    (onH2d a b c s).time = s.time := rfl
@[simp] theorem onH2d_out (a : SiteIx) (b : Fin 8) (c : TxChan → TxChan) (s : State) :
    (onH2d a b c s).out = s.out := rfl
@[simp] theorem onH2d_fresh (a : SiteIx) (b : Fin 8) (c : TxChan → TxChan) (s : State) :
    (onH2d a b c s).fresh = s.fresh := rfl
@[simp] theorem onH2d_pending (a : SiteIx) (b : Fin 8) (c : TxChan → TxChan) (s : State) :
    (onH2d a b c s).pending = s.pending := rfl
@[simp] theorem onF2h_mbx (a : Fin 16) (b : RxChan → RxChan) (s : State) :
    (onF2h a b s).mbx = { s.mbx with f2h := upd s.mbx.f2h a b } := rfl
@[simp] theorem onF2h_dev (a : Fin 16) (b : RxChan → RxChan) (s : State) :
    (onF2h a b s).dev = s.dev := rfl
@[simp] theorem onF2h_host (a : Fin 16) (b : RxChan → RxChan) (s : State) :
    (onF2h a b s).host = s.host := rfl
@[simp] theorem onF2h_dbl (a : Fin 16) (b : RxChan → RxChan) (s : State) :
    (onF2h a b s).dbl = s.dbl := rfl
@[simp] theorem onF2h_lck (a : Fin 16) (b : RxChan → RxChan) (s : State) :
    (onF2h a b s).lck = s.lck := rfl
@[simp] theorem onF2h_err (a : Fin 16) (b : RxChan → RxChan) (s : State) :
    (onF2h a b s).err = s.err := rfl
@[simp] theorem onF2h_mgt (a : Fin 16) (b : RxChan → RxChan) (s : State) :
    (onF2h a b s).mgt = s.mgt := rfl
@[simp] theorem onF2h_sec (a : Fin 16) (b : RxChan → RxChan) (s : State) :
    (onF2h a b s).sec = s.sec := rfl
@[simp] theorem onF2h_pwr (a : Fin 16) (b : RxChan → RxChan) (s : State) :
    (onF2h a b s).pwr = s.pwr := rfl
@[simp] theorem onF2h_thm (a : Fin 16) (b : RxChan → RxChan) (s : State) :
    (onF2h a b s).thm = s.thm := rfl
@[simp] theorem onF2h_hbm (a : Fin 16) (b : RxChan → RxChan) (s : State) :
    (onF2h a b s).hbm = s.hbm := rfl
@[simp] theorem onF2h_comb (a : Fin 16) (b : RxChan → RxChan) (s : State) :
    (onF2h a b s).comb = s.comb := rfl
@[simp] theorem onF2h_site (a : Fin 16) (b : RxChan → RxChan) (s : State) :
    (onF2h a b s).site = s.site := rfl
@[simp] theorem onF2h_wide (a : Fin 16) (b : RxChan → RxChan) (s : State) :
    (onF2h a b s).wide = s.wide := rfl
@[simp] theorem onF2h_reach (a : Fin 16) (b : RxChan → RxChan) (s : State) :
    (onF2h a b s).reach = s.reach := rfl
@[simp] theorem onF2h_siteReg (a : Fin 16) (b : RxChan → RxChan) (s : State) :
    (onF2h a b s).siteReg = s.siteReg := rfl
@[simp] theorem onF2h_beam (a : Fin 16) (b : RxChan → RxChan) (s : State) :
    (onF2h a b s).beam = s.beam := rfl
@[simp] theorem onF2h_port (a : Fin 16) (b : RxChan → RxChan) (s : State) :
    (onF2h a b s).port = s.port := rfl
@[simp] theorem onF2h_pln (a : Fin 16) (b : RxChan → RxChan) (s : State) :
    (onF2h a b s).pln = s.pln := rfl
@[simp] theorem onF2h_ring (a : Fin 16) (b : RxChan → RxChan) (s : State) :
    (onF2h a b s).ring = s.ring := rfl
@[simp] theorem onF2h_img (a : Fin 16) (b : RxChan → RxChan) (s : State) :
    (onF2h a b s).img = s.img := rfl
@[simp] theorem onF2h_ctl (a : Fin 16) (b : RxChan → RxChan) (s : State) :
    (onF2h a b s).ctl = s.ctl := rfl
@[simp] theorem onF2h_sq (a : Fin 16) (b : RxChan → RxChan) (s : State) :
    (onF2h a b s).sq = s.sq := rfl
@[simp] theorem onF2h_ce (a : Fin 16) (b : RxChan → RxChan) (s : State) :
    (onF2h a b s).ce = s.ce := rfl
@[simp] theorem onF2h_time (a : Fin 16) (b : RxChan → RxChan) (s : State) :
    (onF2h a b s).time = s.time := rfl
@[simp] theorem onF2h_out (a : Fin 16) (b : RxChan → RxChan) (s : State) :
    (onF2h a b s).out = s.out := rfl
@[simp] theorem onF2h_fresh (a : Fin 16) (b : RxChan → RxChan) (s : State) :
    (onF2h a b s).fresh = s.fresh := rfl
@[simp] theorem onF2h_pending (a : Fin 16) (b : RxChan → RxChan) (s : State) :
    (onF2h a b s).pending = s.pending := rfl
@[simp] theorem onD2h_mbx (a : SiteIx) (b : Fin 8) (c : RxChan → RxChan) (s : State) :
    (onD2h a b c s).mbx = { s.mbx with d2h := upd s.mbx.d2h a fun v => upd v b c } := rfl
@[simp] theorem onD2h_dev (a : SiteIx) (b : Fin 8) (c : RxChan → RxChan) (s : State) :
    (onD2h a b c s).dev = s.dev := rfl
@[simp] theorem onD2h_host (a : SiteIx) (b : Fin 8) (c : RxChan → RxChan) (s : State) :
    (onD2h a b c s).host = s.host := rfl
@[simp] theorem onD2h_dbl (a : SiteIx) (b : Fin 8) (c : RxChan → RxChan) (s : State) :
    (onD2h a b c s).dbl = s.dbl := rfl
@[simp] theorem onD2h_lck (a : SiteIx) (b : Fin 8) (c : RxChan → RxChan) (s : State) :
    (onD2h a b c s).lck = s.lck := rfl
@[simp] theorem onD2h_err (a : SiteIx) (b : Fin 8) (c : RxChan → RxChan) (s : State) :
    (onD2h a b c s).err = s.err := rfl
@[simp] theorem onD2h_mgt (a : SiteIx) (b : Fin 8) (c : RxChan → RxChan) (s : State) :
    (onD2h a b c s).mgt = s.mgt := rfl
@[simp] theorem onD2h_sec (a : SiteIx) (b : Fin 8) (c : RxChan → RxChan) (s : State) :
    (onD2h a b c s).sec = s.sec := rfl
@[simp] theorem onD2h_pwr (a : SiteIx) (b : Fin 8) (c : RxChan → RxChan) (s : State) :
    (onD2h a b c s).pwr = s.pwr := rfl
@[simp] theorem onD2h_thm (a : SiteIx) (b : Fin 8) (c : RxChan → RxChan) (s : State) :
    (onD2h a b c s).thm = s.thm := rfl
@[simp] theorem onD2h_hbm (a : SiteIx) (b : Fin 8) (c : RxChan → RxChan) (s : State) :
    (onD2h a b c s).hbm = s.hbm := rfl
@[simp] theorem onD2h_comb (a : SiteIx) (b : Fin 8) (c : RxChan → RxChan) (s : State) :
    (onD2h a b c s).comb = s.comb := rfl
@[simp] theorem onD2h_site (a : SiteIx) (b : Fin 8) (c : RxChan → RxChan) (s : State) :
    (onD2h a b c s).site = s.site := rfl
@[simp] theorem onD2h_wide (a : SiteIx) (b : Fin 8) (c : RxChan → RxChan) (s : State) :
    (onD2h a b c s).wide = s.wide := rfl
@[simp] theorem onD2h_reach (a : SiteIx) (b : Fin 8) (c : RxChan → RxChan) (s : State) :
    (onD2h a b c s).reach = s.reach := rfl
@[simp] theorem onD2h_siteReg (a : SiteIx) (b : Fin 8) (c : RxChan → RxChan) (s : State) :
    (onD2h a b c s).siteReg = s.siteReg := rfl
@[simp] theorem onD2h_beam (a : SiteIx) (b : Fin 8) (c : RxChan → RxChan) (s : State) :
    (onD2h a b c s).beam = s.beam := rfl
@[simp] theorem onD2h_port (a : SiteIx) (b : Fin 8) (c : RxChan → RxChan) (s : State) :
    (onD2h a b c s).port = s.port := rfl
@[simp] theorem onD2h_pln (a : SiteIx) (b : Fin 8) (c : RxChan → RxChan) (s : State) :
    (onD2h a b c s).pln = s.pln := rfl
@[simp] theorem onD2h_ring (a : SiteIx) (b : Fin 8) (c : RxChan → RxChan) (s : State) :
    (onD2h a b c s).ring = s.ring := rfl
@[simp] theorem onD2h_img (a : SiteIx) (b : Fin 8) (c : RxChan → RxChan) (s : State) :
    (onD2h a b c s).img = s.img := rfl
@[simp] theorem onD2h_ctl (a : SiteIx) (b : Fin 8) (c : RxChan → RxChan) (s : State) :
    (onD2h a b c s).ctl = s.ctl := rfl
@[simp] theorem onD2h_sq (a : SiteIx) (b : Fin 8) (c : RxChan → RxChan) (s : State) :
    (onD2h a b c s).sq = s.sq := rfl
@[simp] theorem onD2h_ce (a : SiteIx) (b : Fin 8) (c : RxChan → RxChan) (s : State) :
    (onD2h a b c s).ce = s.ce := rfl
@[simp] theorem onD2h_time (a : SiteIx) (b : Fin 8) (c : RxChan → RxChan) (s : State) :
    (onD2h a b c s).time = s.time := rfl
@[simp] theorem onD2h_out (a : SiteIx) (b : Fin 8) (c : RxChan → RxChan) (s : State) :
    (onD2h a b c s).out = s.out := rfl
@[simp] theorem onD2h_fresh (a : SiteIx) (b : Fin 8) (c : RxChan → RxChan) (s : State) :
    (onD2h a b c s).fresh = s.fresh := rfl
@[simp] theorem onD2h_pending (a : SiteIx) (b : Fin 8) (c : RxChan → RxChan) (s : State) :
    (onD2h a b c s).pending = s.pending := rfl
@[simp] theorem onTx_dev (a : MbxTx) (b : TxChan → TxChan) (s : State) :
    (onTx a b s).dev = s.dev := by unfold onTx; split <;> rfl
@[simp] theorem onTx_host (a : MbxTx) (b : TxChan → TxChan) (s : State) :
    (onTx a b s).host = s.host := by unfold onTx; split <;> rfl
@[simp] theorem onTx_dbl (a : MbxTx) (b : TxChan → TxChan) (s : State) :
    (onTx a b s).dbl = s.dbl := by unfold onTx; split <;> rfl
@[simp] theorem onTx_lck (a : MbxTx) (b : TxChan → TxChan) (s : State) :
    (onTx a b s).lck = s.lck := by unfold onTx; split <;> rfl
@[simp] theorem onTx_err (a : MbxTx) (b : TxChan → TxChan) (s : State) :
    (onTx a b s).err = s.err := by unfold onTx; split <;> rfl
@[simp] theorem onTx_mgt (a : MbxTx) (b : TxChan → TxChan) (s : State) :
    (onTx a b s).mgt = s.mgt := by unfold onTx; split <;> rfl
@[simp] theorem onTx_sec (a : MbxTx) (b : TxChan → TxChan) (s : State) :
    (onTx a b s).sec = s.sec := by unfold onTx; split <;> rfl
@[simp] theorem onTx_pwr (a : MbxTx) (b : TxChan → TxChan) (s : State) :
    (onTx a b s).pwr = s.pwr := by unfold onTx; split <;> rfl
@[simp] theorem onTx_thm (a : MbxTx) (b : TxChan → TxChan) (s : State) :
    (onTx a b s).thm = s.thm := by unfold onTx; split <;> rfl
@[simp] theorem onTx_hbm (a : MbxTx) (b : TxChan → TxChan) (s : State) :
    (onTx a b s).hbm = s.hbm := by unfold onTx; split <;> rfl
@[simp] theorem onTx_comb (a : MbxTx) (b : TxChan → TxChan) (s : State) :
    (onTx a b s).comb = s.comb := by unfold onTx; split <;> rfl
@[simp] theorem onTx_site (a : MbxTx) (b : TxChan → TxChan) (s : State) :
    (onTx a b s).site = s.site := by unfold onTx; split <;> rfl
@[simp] theorem onTx_wide (a : MbxTx) (b : TxChan → TxChan) (s : State) :
    (onTx a b s).wide = s.wide := by unfold onTx; split <;> rfl
@[simp] theorem onTx_reach (a : MbxTx) (b : TxChan → TxChan) (s : State) :
    (onTx a b s).reach = s.reach := by unfold onTx; split <;> rfl
@[simp] theorem onTx_siteReg (a : MbxTx) (b : TxChan → TxChan) (s : State) :
    (onTx a b s).siteReg = s.siteReg := by unfold onTx; split <;> rfl
@[simp] theorem onTx_beam (a : MbxTx) (b : TxChan → TxChan) (s : State) :
    (onTx a b s).beam = s.beam := by unfold onTx; split <;> rfl
@[simp] theorem onTx_port (a : MbxTx) (b : TxChan → TxChan) (s : State) :
    (onTx a b s).port = s.port := by unfold onTx; split <;> rfl
@[simp] theorem onTx_pln (a : MbxTx) (b : TxChan → TxChan) (s : State) :
    (onTx a b s).pln = s.pln := by unfold onTx; split <;> rfl
@[simp] theorem onTx_ring (a : MbxTx) (b : TxChan → TxChan) (s : State) :
    (onTx a b s).ring = s.ring := by unfold onTx; split <;> rfl
@[simp] theorem onTx_img (a : MbxTx) (b : TxChan → TxChan) (s : State) :
    (onTx a b s).img = s.img := by unfold onTx; split <;> rfl
@[simp] theorem onTx_ctl (a : MbxTx) (b : TxChan → TxChan) (s : State) :
    (onTx a b s).ctl = s.ctl := by unfold onTx; split <;> rfl
@[simp] theorem onTx_sq (a : MbxTx) (b : TxChan → TxChan) (s : State) :
    (onTx a b s).sq = s.sq := by unfold onTx; split <;> rfl
@[simp] theorem onTx_ce (a : MbxTx) (b : TxChan → TxChan) (s : State) :
    (onTx a b s).ce = s.ce := by unfold onTx; split <;> rfl
@[simp] theorem onTx_time (a : MbxTx) (b : TxChan → TxChan) (s : State) :
    (onTx a b s).time = s.time := by unfold onTx; split <;> rfl
@[simp] theorem onTx_out (a : MbxTx) (b : TxChan → TxChan) (s : State) :
    (onTx a b s).out = s.out := by unfold onTx; split <;> rfl
@[simp] theorem onTx_fresh (a : MbxTx) (b : TxChan → TxChan) (s : State) :
    (onTx a b s).fresh = s.fresh := by unfold onTx; split <;> rfl
@[simp] theorem onTx_pending (a : MbxTx) (b : TxChan → TxChan) (s : State) :
    (onTx a b s).pending = s.pending := by unfold onTx; split <;> rfl
@[simp] theorem onStack_hbm (a : Stack) (b : HbmStack → HbmStack) (s : State) :
    (onStack a b s).hbm = { s.hbm with stack := upd s.hbm.stack a b } := rfl
@[simp] theorem onStack_dev (a : Stack) (b : HbmStack → HbmStack) (s : State) :
    (onStack a b s).dev = s.dev := rfl
@[simp] theorem onStack_host (a : Stack) (b : HbmStack → HbmStack) (s : State) :
    (onStack a b s).host = s.host := rfl
@[simp] theorem onStack_mbx (a : Stack) (b : HbmStack → HbmStack) (s : State) :
    (onStack a b s).mbx = s.mbx := rfl
@[simp] theorem onStack_dbl (a : Stack) (b : HbmStack → HbmStack) (s : State) :
    (onStack a b s).dbl = s.dbl := rfl
@[simp] theorem onStack_lck (a : Stack) (b : HbmStack → HbmStack) (s : State) :
    (onStack a b s).lck = s.lck := rfl
@[simp] theorem onStack_err (a : Stack) (b : HbmStack → HbmStack) (s : State) :
    (onStack a b s).err = s.err := rfl
@[simp] theorem onStack_mgt (a : Stack) (b : HbmStack → HbmStack) (s : State) :
    (onStack a b s).mgt = s.mgt := rfl
@[simp] theorem onStack_sec (a : Stack) (b : HbmStack → HbmStack) (s : State) :
    (onStack a b s).sec = s.sec := rfl
@[simp] theorem onStack_pwr (a : Stack) (b : HbmStack → HbmStack) (s : State) :
    (onStack a b s).pwr = s.pwr := rfl
@[simp] theorem onStack_thm (a : Stack) (b : HbmStack → HbmStack) (s : State) :
    (onStack a b s).thm = s.thm := rfl
@[simp] theorem onStack_comb (a : Stack) (b : HbmStack → HbmStack) (s : State) :
    (onStack a b s).comb = s.comb := rfl
@[simp] theorem onStack_site (a : Stack) (b : HbmStack → HbmStack) (s : State) :
    (onStack a b s).site = s.site := rfl
@[simp] theorem onStack_wide (a : Stack) (b : HbmStack → HbmStack) (s : State) :
    (onStack a b s).wide = s.wide := rfl
@[simp] theorem onStack_reach (a : Stack) (b : HbmStack → HbmStack) (s : State) :
    (onStack a b s).reach = s.reach := rfl
@[simp] theorem onStack_siteReg (a : Stack) (b : HbmStack → HbmStack) (s : State) :
    (onStack a b s).siteReg = s.siteReg := rfl
@[simp] theorem onStack_beam (a : Stack) (b : HbmStack → HbmStack) (s : State) :
    (onStack a b s).beam = s.beam := rfl
@[simp] theorem onStack_port (a : Stack) (b : HbmStack → HbmStack) (s : State) :
    (onStack a b s).port = s.port := rfl
@[simp] theorem onStack_pln (a : Stack) (b : HbmStack → HbmStack) (s : State) :
    (onStack a b s).pln = s.pln := rfl
@[simp] theorem onStack_ring (a : Stack) (b : HbmStack → HbmStack) (s : State) :
    (onStack a b s).ring = s.ring := rfl
@[simp] theorem onStack_img (a : Stack) (b : HbmStack → HbmStack) (s : State) :
    (onStack a b s).img = s.img := rfl
@[simp] theorem onStack_ctl (a : Stack) (b : HbmStack → HbmStack) (s : State) :
    (onStack a b s).ctl = s.ctl := rfl
@[simp] theorem onStack_sq (a : Stack) (b : HbmStack → HbmStack) (s : State) :
    (onStack a b s).sq = s.sq := rfl
@[simp] theorem onStack_ce (a : Stack) (b : HbmStack → HbmStack) (s : State) :
    (onStack a b s).ce = s.ce := rfl
@[simp] theorem onStack_time (a : Stack) (b : HbmStack → HbmStack) (s : State) :
    (onStack a b s).time = s.time := rfl
@[simp] theorem onStack_out (a : Stack) (b : HbmStack → HbmStack) (s : State) :
    (onStack a b s).out = s.out := rfl
@[simp] theorem onStack_fresh (a : Stack) (b : HbmStack → HbmStack) (s : State) :
    (onStack a b s).fresh = s.fresh := rfl
@[simp] theorem onStack_pending (a : Stack) (b : HbmStack → HbmStack) (s : State) :
    (onStack a b s).pending = s.pending := rfl
@[simp] theorem onRing_dev (a : ℕ) (b : RingSt → RingSt) (s : State) :
    (onRing a b s).dev = s.dev := rfl
@[simp] theorem onRing_host (a : ℕ) (b : RingSt → RingSt) (s : State) :
    (onRing a b s).host = s.host := rfl
@[simp] theorem onRing_mbx (a : ℕ) (b : RingSt → RingSt) (s : State) :
    (onRing a b s).mbx = s.mbx := rfl
@[simp] theorem onRing_dbl (a : ℕ) (b : RingSt → RingSt) (s : State) :
    (onRing a b s).dbl = s.dbl := rfl
@[simp] theorem onRing_lck (a : ℕ) (b : RingSt → RingSt) (s : State) :
    (onRing a b s).lck = s.lck := rfl
@[simp] theorem onRing_err (a : ℕ) (b : RingSt → RingSt) (s : State) :
    (onRing a b s).err = s.err := rfl
@[simp] theorem onRing_mgt (a : ℕ) (b : RingSt → RingSt) (s : State) :
    (onRing a b s).mgt = s.mgt := rfl
@[simp] theorem onRing_sec (a : ℕ) (b : RingSt → RingSt) (s : State) :
    (onRing a b s).sec = s.sec := rfl
@[simp] theorem onRing_pwr (a : ℕ) (b : RingSt → RingSt) (s : State) :
    (onRing a b s).pwr = s.pwr := rfl
@[simp] theorem onRing_thm (a : ℕ) (b : RingSt → RingSt) (s : State) :
    (onRing a b s).thm = s.thm := rfl
@[simp] theorem onRing_hbm (a : ℕ) (b : RingSt → RingSt) (s : State) :
    (onRing a b s).hbm = s.hbm := rfl
@[simp] theorem onRing_comb (a : ℕ) (b : RingSt → RingSt) (s : State) :
    (onRing a b s).comb = s.comb := rfl
@[simp] theorem onRing_site (a : ℕ) (b : RingSt → RingSt) (s : State) :
    (onRing a b s).site = s.site := rfl
@[simp] theorem onRing_wide (a : ℕ) (b : RingSt → RingSt) (s : State) :
    (onRing a b s).wide = s.wide := rfl
@[simp] theorem onRing_reach (a : ℕ) (b : RingSt → RingSt) (s : State) :
    (onRing a b s).reach = s.reach := rfl
@[simp] theorem onRing_siteReg (a : ℕ) (b : RingSt → RingSt) (s : State) :
    (onRing a b s).siteReg = s.siteReg := rfl
@[simp] theorem onRing_beam (a : ℕ) (b : RingSt → RingSt) (s : State) :
    (onRing a b s).beam = s.beam := rfl
@[simp] theorem onRing_port (a : ℕ) (b : RingSt → RingSt) (s : State) :
    (onRing a b s).port = s.port := rfl
@[simp] theorem onRing_pln (a : ℕ) (b : RingSt → RingSt) (s : State) :
    (onRing a b s).pln = s.pln := rfl
@[simp] theorem onRing_img (a : ℕ) (b : RingSt → RingSt) (s : State) :
    (onRing a b s).img = s.img := rfl
@[simp] theorem onRing_ctl (a : ℕ) (b : RingSt → RingSt) (s : State) :
    (onRing a b s).ctl = s.ctl := rfl
@[simp] theorem onRing_sq (a : ℕ) (b : RingSt → RingSt) (s : State) :
    (onRing a b s).sq = s.sq := rfl
@[simp] theorem onRing_ce (a : ℕ) (b : RingSt → RingSt) (s : State) :
    (onRing a b s).ce = s.ce := rfl
@[simp] theorem onRing_time (a : ℕ) (b : RingSt → RingSt) (s : State) :
    (onRing a b s).time = s.time := rfl
@[simp] theorem onRing_out (a : ℕ) (b : RingSt → RingSt) (s : State) :
    (onRing a b s).out = s.out := rfl
@[simp] theorem onRing_fresh (a : ℕ) (b : RingSt → RingSt) (s : State) :
    (onRing a b s).fresh = s.fresh := rfl
@[simp] theorem onRing_pending (a : ℕ) (b : RingSt → RingSt) (s : State) :
    (onRing a b s).pending = s.pending := rfl
@[simp] theorem onSb_dev (a : SiteIx) (b : Sideband → Sideband) (s : State) :
    (onSb a b s).dev = s.dev := rfl
@[simp] theorem onSb_host (a : SiteIx) (b : Sideband → Sideband) (s : State) :
    (onSb a b s).host = s.host := rfl
@[simp] theorem onSb_mbx (a : SiteIx) (b : Sideband → Sideband) (s : State) :
    (onSb a b s).mbx = s.mbx := rfl
@[simp] theorem onSb_dbl (a : SiteIx) (b : Sideband → Sideband) (s : State) :
    (onSb a b s).dbl = s.dbl := rfl
@[simp] theorem onSb_lck (a : SiteIx) (b : Sideband → Sideband) (s : State) :
    (onSb a b s).lck = s.lck := rfl
@[simp] theorem onSb_err (a : SiteIx) (b : Sideband → Sideband) (s : State) :
    (onSb a b s).err = s.err := rfl
@[simp] theorem onSb_mgt (a : SiteIx) (b : Sideband → Sideband) (s : State) :
    (onSb a b s).mgt = s.mgt := rfl
@[simp] theorem onSb_sec (a : SiteIx) (b : Sideband → Sideband) (s : State) :
    (onSb a b s).sec = s.sec := rfl
@[simp] theorem onSb_pwr (a : SiteIx) (b : Sideband → Sideband) (s : State) :
    (onSb a b s).pwr = s.pwr := rfl
@[simp] theorem onSb_thm (a : SiteIx) (b : Sideband → Sideband) (s : State) :
    (onSb a b s).thm = s.thm := rfl
@[simp] theorem onSb_hbm (a : SiteIx) (b : Sideband → Sideband) (s : State) :
    (onSb a b s).hbm = s.hbm := rfl
@[simp] theorem onSb_comb (a : SiteIx) (b : Sideband → Sideband) (s : State) :
    (onSb a b s).comb = s.comb := rfl
@[simp] theorem onSb_wide (a : SiteIx) (b : Sideband → Sideband) (s : State) :
    (onSb a b s).wide = s.wide := rfl
@[simp] theorem onSb_reach (a : SiteIx) (b : Sideband → Sideband) (s : State) :
    (onSb a b s).reach = s.reach := rfl
@[simp] theorem onSb_siteReg (a : SiteIx) (b : Sideband → Sideband) (s : State) :
    (onSb a b s).siteReg = s.siteReg := rfl
@[simp] theorem onSb_beam (a : SiteIx) (b : Sideband → Sideband) (s : State) :
    (onSb a b s).beam = s.beam := rfl
@[simp] theorem onSb_port (a : SiteIx) (b : Sideband → Sideband) (s : State) :
    (onSb a b s).port = s.port := rfl
@[simp] theorem onSb_pln (a : SiteIx) (b : Sideband → Sideband) (s : State) :
    (onSb a b s).pln = s.pln := rfl
@[simp] theorem onSb_ring (a : SiteIx) (b : Sideband → Sideband) (s : State) :
    (onSb a b s).ring = s.ring := rfl
@[simp] theorem onSb_img (a : SiteIx) (b : Sideband → Sideband) (s : State) :
    (onSb a b s).img = s.img := rfl
@[simp] theorem onSb_ctl (a : SiteIx) (b : Sideband → Sideband) (s : State) :
    (onSb a b s).ctl = s.ctl := rfl
@[simp] theorem onSb_sq (a : SiteIx) (b : Sideband → Sideband) (s : State) :
    (onSb a b s).sq = s.sq := rfl
@[simp] theorem onSb_ce (a : SiteIx) (b : Sideband → Sideband) (s : State) :
    (onSb a b s).ce = s.ce := rfl
@[simp] theorem onSb_time (a : SiteIx) (b : Sideband → Sideband) (s : State) :
    (onSb a b s).time = s.time := rfl
@[simp] theorem onSb_out (a : SiteIx) (b : Sideband → Sideband) (s : State) :
    (onSb a b s).out = s.out := rfl
@[simp] theorem onSb_fresh (a : SiteIx) (b : Sideband → Sideband) (s : State) :
    (onSb a b s).fresh = s.fresh := rfl
@[simp] theorem onSb_pending (a : SiteIx) (b : Sideband → Sideband) (s : State) :
    (onSb a b s).pending = s.pending := rfl
@[simp] theorem onCal_dev (a : Port) (b : Line) (c : Dir) (d : CalSt → CalSt) (s : State) :
    (onCal a b c d s).dev = s.dev := rfl
@[simp] theorem onCal_host (a : Port) (b : Line) (c : Dir) (d : CalSt → CalSt) (s : State) :
    (onCal a b c d s).host = s.host := rfl
@[simp] theorem onCal_mbx (a : Port) (b : Line) (c : Dir) (d : CalSt → CalSt) (s : State) :
    (onCal a b c d s).mbx = s.mbx := rfl
@[simp] theorem onCal_dbl (a : Port) (b : Line) (c : Dir) (d : CalSt → CalSt) (s : State) :
    (onCal a b c d s).dbl = s.dbl := rfl
@[simp] theorem onCal_lck (a : Port) (b : Line) (c : Dir) (d : CalSt → CalSt) (s : State) :
    (onCal a b c d s).lck = s.lck := rfl
@[simp] theorem onCal_err (a : Port) (b : Line) (c : Dir) (d : CalSt → CalSt) (s : State) :
    (onCal a b c d s).err = s.err := rfl
@[simp] theorem onCal_mgt (a : Port) (b : Line) (c : Dir) (d : CalSt → CalSt) (s : State) :
    (onCal a b c d s).mgt = s.mgt := rfl
@[simp] theorem onCal_sec (a : Port) (b : Line) (c : Dir) (d : CalSt → CalSt) (s : State) :
    (onCal a b c d s).sec = s.sec := rfl
@[simp] theorem onCal_pwr (a : Port) (b : Line) (c : Dir) (d : CalSt → CalSt) (s : State) :
    (onCal a b c d s).pwr = s.pwr := rfl
@[simp] theorem onCal_thm (a : Port) (b : Line) (c : Dir) (d : CalSt → CalSt) (s : State) :
    (onCal a b c d s).thm = s.thm := rfl
@[simp] theorem onCal_hbm (a : Port) (b : Line) (c : Dir) (d : CalSt → CalSt) (s : State) :
    (onCal a b c d s).hbm = s.hbm := rfl
@[simp] theorem onCal_comb (a : Port) (b : Line) (c : Dir) (d : CalSt → CalSt) (s : State) :
    (onCal a b c d s).comb = s.comb := rfl
@[simp] theorem onCal_site (a : Port) (b : Line) (c : Dir) (d : CalSt → CalSt) (s : State) :
    (onCal a b c d s).site = s.site := rfl
@[simp] theorem onCal_wide (a : Port) (b : Line) (c : Dir) (d : CalSt → CalSt) (s : State) :
    (onCal a b c d s).wide = s.wide := rfl
@[simp] theorem onCal_reach (a : Port) (b : Line) (c : Dir) (d : CalSt → CalSt) (s : State) :
    (onCal a b c d s).reach = s.reach := rfl
@[simp] theorem onCal_siteReg (a : Port) (b : Line) (c : Dir) (d : CalSt → CalSt) (s : State) :
    (onCal a b c d s).siteReg = s.siteReg := rfl
@[simp] theorem onCal_beam (a : Port) (b : Line) (c : Dir) (d : CalSt → CalSt) (s : State) :
    (onCal a b c d s).beam = s.beam := rfl
@[simp] theorem onCal_pln (a : Port) (b : Line) (c : Dir) (d : CalSt → CalSt) (s : State) :
    (onCal a b c d s).pln = s.pln := rfl
@[simp] theorem onCal_ring (a : Port) (b : Line) (c : Dir) (d : CalSt → CalSt) (s : State) :
    (onCal a b c d s).ring = s.ring := rfl
@[simp] theorem onCal_img (a : Port) (b : Line) (c : Dir) (d : CalSt → CalSt) (s : State) :
    (onCal a b c d s).img = s.img := rfl
@[simp] theorem onCal_ctl (a : Port) (b : Line) (c : Dir) (d : CalSt → CalSt) (s : State) :
    (onCal a b c d s).ctl = s.ctl := rfl
@[simp] theorem onCal_sq (a : Port) (b : Line) (c : Dir) (d : CalSt → CalSt) (s : State) :
    (onCal a b c d s).sq = s.sq := rfl
@[simp] theorem onCal_ce (a : Port) (b : Line) (c : Dir) (d : CalSt → CalSt) (s : State) :
    (onCal a b c d s).ce = s.ce := rfl
@[simp] theorem onCal_time (a : Port) (b : Line) (c : Dir) (d : CalSt → CalSt) (s : State) :
    (onCal a b c d s).time = s.time := rfl
@[simp] theorem onCal_out (a : Port) (b : Line) (c : Dir) (d : CalSt → CalSt) (s : State) :
    (onCal a b c d s).out = s.out := rfl
@[simp] theorem onCal_fresh (a : Port) (b : Line) (c : Dir) (d : CalSt → CalSt) (s : State) :
    (onCal a b c d s).fresh = s.fresh := rfl
@[simp] theorem onCal_pending (a : Port) (b : Line) (c : Dir) (d : CalSt → CalSt) (s : State) :
    (onCal a b c d s).pending = s.pending := rfl
@[simp] theorem onPwr_pwr (a : Pwr → Pwr) (s : State) :
    (onPwr a s).pwr = a s.pwr := rfl
@[simp] theorem onPwr_dev (a : Pwr → Pwr) (s : State) :
    (onPwr a s).dev = s.dev := rfl
@[simp] theorem onPwr_host (a : Pwr → Pwr) (s : State) :
    (onPwr a s).host = s.host := rfl
@[simp] theorem onPwr_mbx (a : Pwr → Pwr) (s : State) :
    (onPwr a s).mbx = s.mbx := rfl
@[simp] theorem onPwr_dbl (a : Pwr → Pwr) (s : State) :
    (onPwr a s).dbl = s.dbl := rfl
@[simp] theorem onPwr_lck (a : Pwr → Pwr) (s : State) :
    (onPwr a s).lck = s.lck := rfl
@[simp] theorem onPwr_err (a : Pwr → Pwr) (s : State) :
    (onPwr a s).err = s.err := rfl
@[simp] theorem onPwr_mgt (a : Pwr → Pwr) (s : State) :
    (onPwr a s).mgt = s.mgt := rfl
@[simp] theorem onPwr_sec (a : Pwr → Pwr) (s : State) :
    (onPwr a s).sec = s.sec := rfl
@[simp] theorem onPwr_thm (a : Pwr → Pwr) (s : State) :
    (onPwr a s).thm = s.thm := rfl
@[simp] theorem onPwr_hbm (a : Pwr → Pwr) (s : State) :
    (onPwr a s).hbm = s.hbm := rfl
@[simp] theorem onPwr_comb (a : Pwr → Pwr) (s : State) :
    (onPwr a s).comb = s.comb := rfl
@[simp] theorem onPwr_site (a : Pwr → Pwr) (s : State) :
    (onPwr a s).site = s.site := rfl
@[simp] theorem onPwr_wide (a : Pwr → Pwr) (s : State) :
    (onPwr a s).wide = s.wide := rfl
@[simp] theorem onPwr_reach (a : Pwr → Pwr) (s : State) :
    (onPwr a s).reach = s.reach := rfl
@[simp] theorem onPwr_siteReg (a : Pwr → Pwr) (s : State) :
    (onPwr a s).siteReg = s.siteReg := rfl
@[simp] theorem onPwr_beam (a : Pwr → Pwr) (s : State) :
    (onPwr a s).beam = s.beam := rfl
@[simp] theorem onPwr_port (a : Pwr → Pwr) (s : State) :
    (onPwr a s).port = s.port := rfl
@[simp] theorem onPwr_pln (a : Pwr → Pwr) (s : State) :
    (onPwr a s).pln = s.pln := rfl
@[simp] theorem onPwr_ring (a : Pwr → Pwr) (s : State) :
    (onPwr a s).ring = s.ring := rfl
@[simp] theorem onPwr_img (a : Pwr → Pwr) (s : State) :
    (onPwr a s).img = s.img := rfl
@[simp] theorem onPwr_ctl (a : Pwr → Pwr) (s : State) :
    (onPwr a s).ctl = s.ctl := rfl
@[simp] theorem onPwr_sq (a : Pwr → Pwr) (s : State) :
    (onPwr a s).sq = s.sq := rfl
@[simp] theorem onPwr_ce (a : Pwr → Pwr) (s : State) :
    (onPwr a s).ce = s.ce := rfl
@[simp] theorem onPwr_time (a : Pwr → Pwr) (s : State) :
    (onPwr a s).time = s.time := rfl
@[simp] theorem onPwr_out (a : Pwr → Pwr) (s : State) :
    (onPwr a s).out = s.out := rfl
@[simp] theorem onPwr_fresh (a : Pwr → Pwr) (s : State) :
    (onPwr a s).fresh = s.fresh := rfl
@[simp] theorem onPwr_pending (a : Pwr → Pwr) (s : State) :
    (onPwr a s).pending = s.pending := rfl
@[simp] theorem onGroup_comb (a : CombGroup) (b : CGroup → CGroup) (s : State) :
    (onGroup a b s).comb = { s.comb with group := upd s.comb.group a b } := rfl
@[simp] theorem onGroup_dev (a : CombGroup) (b : CGroup → CGroup) (s : State) :
    (onGroup a b s).dev = s.dev := rfl
@[simp] theorem onGroup_host (a : CombGroup) (b : CGroup → CGroup) (s : State) :
    (onGroup a b s).host = s.host := rfl
@[simp] theorem onGroup_mbx (a : CombGroup) (b : CGroup → CGroup) (s : State) :
    (onGroup a b s).mbx = s.mbx := rfl
@[simp] theorem onGroup_dbl (a : CombGroup) (b : CGroup → CGroup) (s : State) :
    (onGroup a b s).dbl = s.dbl := rfl
@[simp] theorem onGroup_lck (a : CombGroup) (b : CGroup → CGroup) (s : State) :
    (onGroup a b s).lck = s.lck := rfl
@[simp] theorem onGroup_err (a : CombGroup) (b : CGroup → CGroup) (s : State) :
    (onGroup a b s).err = s.err := rfl
@[simp] theorem onGroup_mgt (a : CombGroup) (b : CGroup → CGroup) (s : State) :
    (onGroup a b s).mgt = s.mgt := rfl
@[simp] theorem onGroup_sec (a : CombGroup) (b : CGroup → CGroup) (s : State) :
    (onGroup a b s).sec = s.sec := rfl
@[simp] theorem onGroup_pwr (a : CombGroup) (b : CGroup → CGroup) (s : State) :
    (onGroup a b s).pwr = s.pwr := rfl
@[simp] theorem onGroup_thm (a : CombGroup) (b : CGroup → CGroup) (s : State) :
    (onGroup a b s).thm = s.thm := rfl
@[simp] theorem onGroup_hbm (a : CombGroup) (b : CGroup → CGroup) (s : State) :
    (onGroup a b s).hbm = s.hbm := rfl
@[simp] theorem onGroup_site (a : CombGroup) (b : CGroup → CGroup) (s : State) :
    (onGroup a b s).site = s.site := rfl
@[simp] theorem onGroup_wide (a : CombGroup) (b : CGroup → CGroup) (s : State) :
    (onGroup a b s).wide = s.wide := rfl
@[simp] theorem onGroup_reach (a : CombGroup) (b : CGroup → CGroup) (s : State) :
    (onGroup a b s).reach = s.reach := rfl
@[simp] theorem onGroup_siteReg (a : CombGroup) (b : CGroup → CGroup) (s : State) :
    (onGroup a b s).siteReg = s.siteReg := rfl
@[simp] theorem onGroup_beam (a : CombGroup) (b : CGroup → CGroup) (s : State) :
    (onGroup a b s).beam = s.beam := rfl
@[simp] theorem onGroup_port (a : CombGroup) (b : CGroup → CGroup) (s : State) :
    (onGroup a b s).port = s.port := rfl
@[simp] theorem onGroup_pln (a : CombGroup) (b : CGroup → CGroup) (s : State) :
    (onGroup a b s).pln = s.pln := rfl
@[simp] theorem onGroup_ring (a : CombGroup) (b : CGroup → CGroup) (s : State) :
    (onGroup a b s).ring = s.ring := rfl
@[simp] theorem onGroup_img (a : CombGroup) (b : CGroup → CGroup) (s : State) :
    (onGroup a b s).img = s.img := rfl
@[simp] theorem onGroup_ctl (a : CombGroup) (b : CGroup → CGroup) (s : State) :
    (onGroup a b s).ctl = s.ctl := rfl
@[simp] theorem onGroup_sq (a : CombGroup) (b : CGroup → CGroup) (s : State) :
    (onGroup a b s).sq = s.sq := rfl
@[simp] theorem onGroup_ce (a : CombGroup) (b : CGroup → CGroup) (s : State) :
    (onGroup a b s).ce = s.ce := rfl
@[simp] theorem onGroup_time (a : CombGroup) (b : CGroup → CGroup) (s : State) :
    (onGroup a b s).time = s.time := rfl
@[simp] theorem onGroup_out (a : CombGroup) (b : CGroup → CGroup) (s : State) :
    (onGroup a b s).out = s.out := rfl
@[simp] theorem onGroup_fresh (a : CombGroup) (b : CGroup → CGroup) (s : State) :
    (onGroup a b s).fresh = s.fresh := rfl
@[simp] theorem onGroup_pending (a : CombGroup) (b : CGroup → CGroup) (s : State) :
    (onGroup a b s).pending = s.pending := rfl
@[simp] theorem onDie_dev (a : CombGroup) (b : CombDie) (c : Die → Die) (s : State) :
    (onDie a b c s).dev = s.dev := rfl
@[simp] theorem onDie_host (a : CombGroup) (b : CombDie) (c : Die → Die) (s : State) :
    (onDie a b c s).host = s.host := rfl
@[simp] theorem onDie_mbx (a : CombGroup) (b : CombDie) (c : Die → Die) (s : State) :
    (onDie a b c s).mbx = s.mbx := rfl
@[simp] theorem onDie_dbl (a : CombGroup) (b : CombDie) (c : Die → Die) (s : State) :
    (onDie a b c s).dbl = s.dbl := rfl
@[simp] theorem onDie_lck (a : CombGroup) (b : CombDie) (c : Die → Die) (s : State) :
    (onDie a b c s).lck = s.lck := rfl
@[simp] theorem onDie_err (a : CombGroup) (b : CombDie) (c : Die → Die) (s : State) :
    (onDie a b c s).err = s.err := rfl
@[simp] theorem onDie_mgt (a : CombGroup) (b : CombDie) (c : Die → Die) (s : State) :
    (onDie a b c s).mgt = s.mgt := rfl
@[simp] theorem onDie_sec (a : CombGroup) (b : CombDie) (c : Die → Die) (s : State) :
    (onDie a b c s).sec = s.sec := rfl
@[simp] theorem onDie_pwr (a : CombGroup) (b : CombDie) (c : Die → Die) (s : State) :
    (onDie a b c s).pwr = s.pwr := rfl
@[simp] theorem onDie_thm (a : CombGroup) (b : CombDie) (c : Die → Die) (s : State) :
    (onDie a b c s).thm = s.thm := rfl
@[simp] theorem onDie_hbm (a : CombGroup) (b : CombDie) (c : Die → Die) (s : State) :
    (onDie a b c s).hbm = s.hbm := rfl
@[simp] theorem onDie_site (a : CombGroup) (b : CombDie) (c : Die → Die) (s : State) :
    (onDie a b c s).site = s.site := rfl
@[simp] theorem onDie_wide (a : CombGroup) (b : CombDie) (c : Die → Die) (s : State) :
    (onDie a b c s).wide = s.wide := rfl
@[simp] theorem onDie_reach (a : CombGroup) (b : CombDie) (c : Die → Die) (s : State) :
    (onDie a b c s).reach = s.reach := rfl
@[simp] theorem onDie_siteReg (a : CombGroup) (b : CombDie) (c : Die → Die) (s : State) :
    (onDie a b c s).siteReg = s.siteReg := rfl
@[simp] theorem onDie_beam (a : CombGroup) (b : CombDie) (c : Die → Die) (s : State) :
    (onDie a b c s).beam = s.beam := rfl
@[simp] theorem onDie_port (a : CombGroup) (b : CombDie) (c : Die → Die) (s : State) :
    (onDie a b c s).port = s.port := rfl
@[simp] theorem onDie_pln (a : CombGroup) (b : CombDie) (c : Die → Die) (s : State) :
    (onDie a b c s).pln = s.pln := rfl
@[simp] theorem onDie_ring (a : CombGroup) (b : CombDie) (c : Die → Die) (s : State) :
    (onDie a b c s).ring = s.ring := rfl
@[simp] theorem onDie_img (a : CombGroup) (b : CombDie) (c : Die → Die) (s : State) :
    (onDie a b c s).img = s.img := rfl
@[simp] theorem onDie_ctl (a : CombGroup) (b : CombDie) (c : Die → Die) (s : State) :
    (onDie a b c s).ctl = s.ctl := rfl
@[simp] theorem onDie_sq (a : CombGroup) (b : CombDie) (c : Die → Die) (s : State) :
    (onDie a b c s).sq = s.sq := rfl
@[simp] theorem onDie_ce (a : CombGroup) (b : CombDie) (c : Die → Die) (s : State) :
    (onDie a b c s).ce = s.ce := rfl
@[simp] theorem onDie_time (a : CombGroup) (b : CombDie) (c : Die → Die) (s : State) :
    (onDie a b c s).time = s.time := rfl
@[simp] theorem onDie_out (a : CombGroup) (b : CombDie) (c : Die → Die) (s : State) :
    (onDie a b c s).out = s.out := rfl
@[simp] theorem onDie_fresh (a : CombGroup) (b : CombDie) (c : Die → Die) (s : State) :
    (onDie a b c s).fresh = s.fresh := rfl
@[simp] theorem onDie_pending (a : CombGroup) (b : CombDie) (c : Die → Die) (s : State) :
    (onDie a b c s).pending = s.pending := rfl
@[simp] theorem onMgt_mgt (a : Mgt → Mgt) (s : State) :
    (onMgt a s).mgt = a s.mgt := rfl
@[simp] theorem onMgt_dev (a : Mgt → Mgt) (s : State) :
    (onMgt a s).dev = s.dev := rfl
@[simp] theorem onMgt_host (a : Mgt → Mgt) (s : State) :
    (onMgt a s).host = s.host := rfl
@[simp] theorem onMgt_mbx (a : Mgt → Mgt) (s : State) :
    (onMgt a s).mbx = s.mbx := rfl
@[simp] theorem onMgt_dbl (a : Mgt → Mgt) (s : State) :
    (onMgt a s).dbl = s.dbl := rfl
@[simp] theorem onMgt_lck (a : Mgt → Mgt) (s : State) :
    (onMgt a s).lck = s.lck := rfl
@[simp] theorem onMgt_err (a : Mgt → Mgt) (s : State) :
    (onMgt a s).err = s.err := rfl
@[simp] theorem onMgt_sec (a : Mgt → Mgt) (s : State) :
    (onMgt a s).sec = s.sec := rfl
@[simp] theorem onMgt_pwr (a : Mgt → Mgt) (s : State) :
    (onMgt a s).pwr = s.pwr := rfl
@[simp] theorem onMgt_thm (a : Mgt → Mgt) (s : State) :
    (onMgt a s).thm = s.thm := rfl
@[simp] theorem onMgt_hbm (a : Mgt → Mgt) (s : State) :
    (onMgt a s).hbm = s.hbm := rfl
@[simp] theorem onMgt_comb (a : Mgt → Mgt) (s : State) :
    (onMgt a s).comb = s.comb := rfl
@[simp] theorem onMgt_site (a : Mgt → Mgt) (s : State) :
    (onMgt a s).site = s.site := rfl
@[simp] theorem onMgt_wide (a : Mgt → Mgt) (s : State) :
    (onMgt a s).wide = s.wide := rfl
@[simp] theorem onMgt_reach (a : Mgt → Mgt) (s : State) :
    (onMgt a s).reach = s.reach := rfl
@[simp] theorem onMgt_siteReg (a : Mgt → Mgt) (s : State) :
    (onMgt a s).siteReg = s.siteReg := rfl
@[simp] theorem onMgt_beam (a : Mgt → Mgt) (s : State) :
    (onMgt a s).beam = s.beam := rfl
@[simp] theorem onMgt_port (a : Mgt → Mgt) (s : State) :
    (onMgt a s).port = s.port := rfl
@[simp] theorem onMgt_pln (a : Mgt → Mgt) (s : State) :
    (onMgt a s).pln = s.pln := rfl
@[simp] theorem onMgt_ring (a : Mgt → Mgt) (s : State) :
    (onMgt a s).ring = s.ring := rfl
@[simp] theorem onMgt_img (a : Mgt → Mgt) (s : State) :
    (onMgt a s).img = s.img := rfl
@[simp] theorem onMgt_ctl (a : Mgt → Mgt) (s : State) :
    (onMgt a s).ctl = s.ctl := rfl
@[simp] theorem onMgt_sq (a : Mgt → Mgt) (s : State) :
    (onMgt a s).sq = s.sq := rfl
@[simp] theorem onMgt_ce (a : Mgt → Mgt) (s : State) :
    (onMgt a s).ce = s.ce := rfl
@[simp] theorem onMgt_time (a : Mgt → Mgt) (s : State) :
    (onMgt a s).time = s.time := rfl
@[simp] theorem onMgt_out (a : Mgt → Mgt) (s : State) :
    (onMgt a s).out = s.out := rfl
@[simp] theorem onMgt_fresh (a : Mgt → Mgt) (s : State) :
    (onMgt a s).fresh = s.fresh := rfl
@[simp] theorem onMgt_pending (a : Mgt → Mgt) (s : State) :
    (onMgt a s).pending = s.pending := rfl
@[simp] theorem onBoots_dev (a : Vector BootSlot 2 → Vector BootSlot 2) (s : State) :
    (onBoots a s).dev = s.dev := rfl
@[simp] theorem onBoots_host (a : Vector BootSlot 2 → Vector BootSlot 2) (s : State) :
    (onBoots a s).host = s.host := rfl
@[simp] theorem onBoots_mbx (a : Vector BootSlot 2 → Vector BootSlot 2) (s : State) :
    (onBoots a s).mbx = s.mbx := rfl
@[simp] theorem onBoots_dbl (a : Vector BootSlot 2 → Vector BootSlot 2) (s : State) :
    (onBoots a s).dbl = s.dbl := rfl
@[simp] theorem onBoots_lck (a : Vector BootSlot 2 → Vector BootSlot 2) (s : State) :
    (onBoots a s).lck = s.lck := rfl
@[simp] theorem onBoots_err (a : Vector BootSlot 2 → Vector BootSlot 2) (s : State) :
    (onBoots a s).err = s.err := rfl
@[simp] theorem onBoots_sec (a : Vector BootSlot 2 → Vector BootSlot 2) (s : State) :
    (onBoots a s).sec = s.sec := rfl
@[simp] theorem onBoots_pwr (a : Vector BootSlot 2 → Vector BootSlot 2) (s : State) :
    (onBoots a s).pwr = s.pwr := rfl
@[simp] theorem onBoots_thm (a : Vector BootSlot 2 → Vector BootSlot 2) (s : State) :
    (onBoots a s).thm = s.thm := rfl
@[simp] theorem onBoots_hbm (a : Vector BootSlot 2 → Vector BootSlot 2) (s : State) :
    (onBoots a s).hbm = s.hbm := rfl
@[simp] theorem onBoots_comb (a : Vector BootSlot 2 → Vector BootSlot 2) (s : State) :
    (onBoots a s).comb = s.comb := rfl
@[simp] theorem onBoots_site (a : Vector BootSlot 2 → Vector BootSlot 2) (s : State) :
    (onBoots a s).site = s.site := rfl
@[simp] theorem onBoots_wide (a : Vector BootSlot 2 → Vector BootSlot 2) (s : State) :
    (onBoots a s).wide = s.wide := rfl
@[simp] theorem onBoots_reach (a : Vector BootSlot 2 → Vector BootSlot 2) (s : State) :
    (onBoots a s).reach = s.reach := rfl
@[simp] theorem onBoots_siteReg (a : Vector BootSlot 2 → Vector BootSlot 2) (s : State) :
    (onBoots a s).siteReg = s.siteReg := rfl
@[simp] theorem onBoots_beam (a : Vector BootSlot 2 → Vector BootSlot 2) (s : State) :
    (onBoots a s).beam = s.beam := rfl
@[simp] theorem onBoots_port (a : Vector BootSlot 2 → Vector BootSlot 2) (s : State) :
    (onBoots a s).port = s.port := rfl
@[simp] theorem onBoots_pln (a : Vector BootSlot 2 → Vector BootSlot 2) (s : State) :
    (onBoots a s).pln = s.pln := rfl
@[simp] theorem onBoots_ring (a : Vector BootSlot 2 → Vector BootSlot 2) (s : State) :
    (onBoots a s).ring = s.ring := rfl
@[simp] theorem onBoots_img (a : Vector BootSlot 2 → Vector BootSlot 2) (s : State) :
    (onBoots a s).img = s.img := rfl
@[simp] theorem onBoots_ctl (a : Vector BootSlot 2 → Vector BootSlot 2) (s : State) :
    (onBoots a s).ctl = s.ctl := rfl
@[simp] theorem onBoots_sq (a : Vector BootSlot 2 → Vector BootSlot 2) (s : State) :
    (onBoots a s).sq = s.sq := rfl
@[simp] theorem onBoots_ce (a : Vector BootSlot 2 → Vector BootSlot 2) (s : State) :
    (onBoots a s).ce = s.ce := rfl
@[simp] theorem onBoots_time (a : Vector BootSlot 2 → Vector BootSlot 2) (s : State) :
    (onBoots a s).time = s.time := rfl
@[simp] theorem onBoots_out (a : Vector BootSlot 2 → Vector BootSlot 2) (s : State) :
    (onBoots a s).out = s.out := rfl
@[simp] theorem onBoots_fresh (a : Vector BootSlot 2 → Vector BootSlot 2) (s : State) :
    (onBoots a s).fresh = s.fresh := rfl
@[simp] theorem onBoots_pending (a : Vector BootSlot 2 → Vector BootSlot 2) (s : State) :
    (onBoots a s).pending = s.pending := rfl
@[simp] theorem onBoot_dev (a : Fin 2) (b : BootSlot → BootSlot) (s : State) :
    (onBoot a b s).dev = s.dev := rfl
@[simp] theorem onBoot_host (a : Fin 2) (b : BootSlot → BootSlot) (s : State) :
    (onBoot a b s).host = s.host := rfl
@[simp] theorem onBoot_mbx (a : Fin 2) (b : BootSlot → BootSlot) (s : State) :
    (onBoot a b s).mbx = s.mbx := rfl
@[simp] theorem onBoot_dbl (a : Fin 2) (b : BootSlot → BootSlot) (s : State) :
    (onBoot a b s).dbl = s.dbl := rfl
@[simp] theorem onBoot_lck (a : Fin 2) (b : BootSlot → BootSlot) (s : State) :
    (onBoot a b s).lck = s.lck := rfl
@[simp] theorem onBoot_err (a : Fin 2) (b : BootSlot → BootSlot) (s : State) :
    (onBoot a b s).err = s.err := rfl
@[simp] theorem onBoot_sec (a : Fin 2) (b : BootSlot → BootSlot) (s : State) :
    (onBoot a b s).sec = s.sec := rfl
@[simp] theorem onBoot_pwr (a : Fin 2) (b : BootSlot → BootSlot) (s : State) :
    (onBoot a b s).pwr = s.pwr := rfl
@[simp] theorem onBoot_thm (a : Fin 2) (b : BootSlot → BootSlot) (s : State) :
    (onBoot a b s).thm = s.thm := rfl
@[simp] theorem onBoot_hbm (a : Fin 2) (b : BootSlot → BootSlot) (s : State) :
    (onBoot a b s).hbm = s.hbm := rfl
@[simp] theorem onBoot_comb (a : Fin 2) (b : BootSlot → BootSlot) (s : State) :
    (onBoot a b s).comb = s.comb := rfl
@[simp] theorem onBoot_site (a : Fin 2) (b : BootSlot → BootSlot) (s : State) :
    (onBoot a b s).site = s.site := rfl
@[simp] theorem onBoot_wide (a : Fin 2) (b : BootSlot → BootSlot) (s : State) :
    (onBoot a b s).wide = s.wide := rfl
@[simp] theorem onBoot_reach (a : Fin 2) (b : BootSlot → BootSlot) (s : State) :
    (onBoot a b s).reach = s.reach := rfl
@[simp] theorem onBoot_siteReg (a : Fin 2) (b : BootSlot → BootSlot) (s : State) :
    (onBoot a b s).siteReg = s.siteReg := rfl
@[simp] theorem onBoot_beam (a : Fin 2) (b : BootSlot → BootSlot) (s : State) :
    (onBoot a b s).beam = s.beam := rfl
@[simp] theorem onBoot_port (a : Fin 2) (b : BootSlot → BootSlot) (s : State) :
    (onBoot a b s).port = s.port := rfl
@[simp] theorem onBoot_pln (a : Fin 2) (b : BootSlot → BootSlot) (s : State) :
    (onBoot a b s).pln = s.pln := rfl
@[simp] theorem onBoot_ring (a : Fin 2) (b : BootSlot → BootSlot) (s : State) :
    (onBoot a b s).ring = s.ring := rfl
@[simp] theorem onBoot_img (a : Fin 2) (b : BootSlot → BootSlot) (s : State) :
    (onBoot a b s).img = s.img := rfl
@[simp] theorem onBoot_ctl (a : Fin 2) (b : BootSlot → BootSlot) (s : State) :
    (onBoot a b s).ctl = s.ctl := rfl
@[simp] theorem onBoot_sq (a : Fin 2) (b : BootSlot → BootSlot) (s : State) :
    (onBoot a b s).sq = s.sq := rfl
@[simp] theorem onBoot_ce (a : Fin 2) (b : BootSlot → BootSlot) (s : State) :
    (onBoot a b s).ce = s.ce := rfl
@[simp] theorem onBoot_time (a : Fin 2) (b : BootSlot → BootSlot) (s : State) :
    (onBoot a b s).time = s.time := rfl
@[simp] theorem onBoot_out (a : Fin 2) (b : BootSlot → BootSlot) (s : State) :
    (onBoot a b s).out = s.out := rfl
@[simp] theorem onBoot_fresh (a : Fin 2) (b : BootSlot → BootSlot) (s : State) :
    (onBoot a b s).fresh = s.fresh := rfl
@[simp] theorem onBoot_pending (a : Fin 2) (b : BootSlot → BootSlot) (s : State) :
    (onBoot a b s).pending = s.pending := rfl
@[simp] theorem onUpd_dev (a : FwUpdate → FwUpdate) (s : State) :
    (onUpd a s).dev = s.dev := rfl
@[simp] theorem onUpd_host (a : FwUpdate → FwUpdate) (s : State) :
    (onUpd a s).host = s.host := rfl
@[simp] theorem onUpd_mbx (a : FwUpdate → FwUpdate) (s : State) :
    (onUpd a s).mbx = s.mbx := rfl
@[simp] theorem onUpd_dbl (a : FwUpdate → FwUpdate) (s : State) :
    (onUpd a s).dbl = s.dbl := rfl
@[simp] theorem onUpd_lck (a : FwUpdate → FwUpdate) (s : State) :
    (onUpd a s).lck = s.lck := rfl
@[simp] theorem onUpd_err (a : FwUpdate → FwUpdate) (s : State) :
    (onUpd a s).err = s.err := rfl
@[simp] theorem onUpd_sec (a : FwUpdate → FwUpdate) (s : State) :
    (onUpd a s).sec = s.sec := rfl
@[simp] theorem onUpd_pwr (a : FwUpdate → FwUpdate) (s : State) :
    (onUpd a s).pwr = s.pwr := rfl
@[simp] theorem onUpd_thm (a : FwUpdate → FwUpdate) (s : State) :
    (onUpd a s).thm = s.thm := rfl
@[simp] theorem onUpd_hbm (a : FwUpdate → FwUpdate) (s : State) :
    (onUpd a s).hbm = s.hbm := rfl
@[simp] theorem onUpd_comb (a : FwUpdate → FwUpdate) (s : State) :
    (onUpd a s).comb = s.comb := rfl
@[simp] theorem onUpd_site (a : FwUpdate → FwUpdate) (s : State) :
    (onUpd a s).site = s.site := rfl
@[simp] theorem onUpd_wide (a : FwUpdate → FwUpdate) (s : State) :
    (onUpd a s).wide = s.wide := rfl
@[simp] theorem onUpd_reach (a : FwUpdate → FwUpdate) (s : State) :
    (onUpd a s).reach = s.reach := rfl
@[simp] theorem onUpd_siteReg (a : FwUpdate → FwUpdate) (s : State) :
    (onUpd a s).siteReg = s.siteReg := rfl
@[simp] theorem onUpd_beam (a : FwUpdate → FwUpdate) (s : State) :
    (onUpd a s).beam = s.beam := rfl
@[simp] theorem onUpd_port (a : FwUpdate → FwUpdate) (s : State) :
    (onUpd a s).port = s.port := rfl
@[simp] theorem onUpd_pln (a : FwUpdate → FwUpdate) (s : State) :
    (onUpd a s).pln = s.pln := rfl
@[simp] theorem onUpd_ring (a : FwUpdate → FwUpdate) (s : State) :
    (onUpd a s).ring = s.ring := rfl
@[simp] theorem onUpd_img (a : FwUpdate → FwUpdate) (s : State) :
    (onUpd a s).img = s.img := rfl
@[simp] theorem onUpd_ctl (a : FwUpdate → FwUpdate) (s : State) :
    (onUpd a s).ctl = s.ctl := rfl
@[simp] theorem onUpd_sq (a : FwUpdate → FwUpdate) (s : State) :
    (onUpd a s).sq = s.sq := rfl
@[simp] theorem onUpd_ce (a : FwUpdate → FwUpdate) (s : State) :
    (onUpd a s).ce = s.ce := rfl
@[simp] theorem onUpd_time (a : FwUpdate → FwUpdate) (s : State) :
    (onUpd a s).time = s.time := rfl
@[simp] theorem onUpd_out (a : FwUpdate → FwUpdate) (s : State) :
    (onUpd a s).out = s.out := rfl
@[simp] theorem onUpd_fresh (a : FwUpdate → FwUpdate) (s : State) :
    (onUpd a s).fresh = s.fresh := rfl
@[simp] theorem onUpd_pending (a : FwUpdate → FwUpdate) (s : State) :
    (onUpd a s).pending = s.pending := rfl
@[simp] theorem onUnit_sq (a : Fin 2) (b : SqUnitSt → SqUnitSt) (s : State) :
    (onUnit a b s).sq = { s.sq with unit := upd s.sq.unit a b } := rfl
@[simp] theorem onUnit_dev (a : Fin 2) (b : SqUnitSt → SqUnitSt) (s : State) :
    (onUnit a b s).dev = s.dev := rfl
@[simp] theorem onUnit_host (a : Fin 2) (b : SqUnitSt → SqUnitSt) (s : State) :
    (onUnit a b s).host = s.host := rfl
@[simp] theorem onUnit_mbx (a : Fin 2) (b : SqUnitSt → SqUnitSt) (s : State) :
    (onUnit a b s).mbx = s.mbx := rfl
@[simp] theorem onUnit_dbl (a : Fin 2) (b : SqUnitSt → SqUnitSt) (s : State) :
    (onUnit a b s).dbl = s.dbl := rfl
@[simp] theorem onUnit_lck (a : Fin 2) (b : SqUnitSt → SqUnitSt) (s : State) :
    (onUnit a b s).lck = s.lck := rfl
@[simp] theorem onUnit_err (a : Fin 2) (b : SqUnitSt → SqUnitSt) (s : State) :
    (onUnit a b s).err = s.err := rfl
@[simp] theorem onUnit_mgt (a : Fin 2) (b : SqUnitSt → SqUnitSt) (s : State) :
    (onUnit a b s).mgt = s.mgt := rfl
@[simp] theorem onUnit_sec (a : Fin 2) (b : SqUnitSt → SqUnitSt) (s : State) :
    (onUnit a b s).sec = s.sec := rfl
@[simp] theorem onUnit_pwr (a : Fin 2) (b : SqUnitSt → SqUnitSt) (s : State) :
    (onUnit a b s).pwr = s.pwr := rfl
@[simp] theorem onUnit_thm (a : Fin 2) (b : SqUnitSt → SqUnitSt) (s : State) :
    (onUnit a b s).thm = s.thm := rfl
@[simp] theorem onUnit_hbm (a : Fin 2) (b : SqUnitSt → SqUnitSt) (s : State) :
    (onUnit a b s).hbm = s.hbm := rfl
@[simp] theorem onUnit_comb (a : Fin 2) (b : SqUnitSt → SqUnitSt) (s : State) :
    (onUnit a b s).comb = s.comb := rfl
@[simp] theorem onUnit_site (a : Fin 2) (b : SqUnitSt → SqUnitSt) (s : State) :
    (onUnit a b s).site = s.site := rfl
@[simp] theorem onUnit_wide (a : Fin 2) (b : SqUnitSt → SqUnitSt) (s : State) :
    (onUnit a b s).wide = s.wide := rfl
@[simp] theorem onUnit_reach (a : Fin 2) (b : SqUnitSt → SqUnitSt) (s : State) :
    (onUnit a b s).reach = s.reach := rfl
@[simp] theorem onUnit_siteReg (a : Fin 2) (b : SqUnitSt → SqUnitSt) (s : State) :
    (onUnit a b s).siteReg = s.siteReg := rfl
@[simp] theorem onUnit_beam (a : Fin 2) (b : SqUnitSt → SqUnitSt) (s : State) :
    (onUnit a b s).beam = s.beam := rfl
@[simp] theorem onUnit_port (a : Fin 2) (b : SqUnitSt → SqUnitSt) (s : State) :
    (onUnit a b s).port = s.port := rfl
@[simp] theorem onUnit_pln (a : Fin 2) (b : SqUnitSt → SqUnitSt) (s : State) :
    (onUnit a b s).pln = s.pln := rfl
@[simp] theorem onUnit_ring (a : Fin 2) (b : SqUnitSt → SqUnitSt) (s : State) :
    (onUnit a b s).ring = s.ring := rfl
@[simp] theorem onUnit_img (a : Fin 2) (b : SqUnitSt → SqUnitSt) (s : State) :
    (onUnit a b s).img = s.img := rfl
@[simp] theorem onUnit_ctl (a : Fin 2) (b : SqUnitSt → SqUnitSt) (s : State) :
    (onUnit a b s).ctl = s.ctl := rfl
@[simp] theorem onUnit_ce (a : Fin 2) (b : SqUnitSt → SqUnitSt) (s : State) :
    (onUnit a b s).ce = s.ce := rfl
@[simp] theorem onUnit_time (a : Fin 2) (b : SqUnitSt → SqUnitSt) (s : State) :
    (onUnit a b s).time = s.time := rfl
@[simp] theorem onUnit_out (a : Fin 2) (b : SqUnitSt → SqUnitSt) (s : State) :
    (onUnit a b s).out = s.out := rfl
@[simp] theorem onUnit_fresh (a : Fin 2) (b : SqUnitSt → SqUnitSt) (s : State) :
    (onUnit a b s).fresh = s.fresh := rfl
@[simp] theorem onUnit_pending (a : Fin 2) (b : SqUnitSt → SqUnitSt) (s : State) :
    (onUnit a b s).pending = s.pending := rfl
@[simp] theorem onOp_dev (a : ℕ) (b : OpSt → OpSt) (s : State) :
    (onOp a b s).dev = s.dev := rfl
@[simp] theorem onOp_host (a : ℕ) (b : OpSt → OpSt) (s : State) :
    (onOp a b s).host = s.host := rfl
@[simp] theorem onOp_mbx (a : ℕ) (b : OpSt → OpSt) (s : State) :
    (onOp a b s).mbx = s.mbx := rfl
@[simp] theorem onOp_dbl (a : ℕ) (b : OpSt → OpSt) (s : State) :
    (onOp a b s).dbl = s.dbl := rfl
@[simp] theorem onOp_lck (a : ℕ) (b : OpSt → OpSt) (s : State) :
    (onOp a b s).lck = s.lck := rfl
@[simp] theorem onOp_err (a : ℕ) (b : OpSt → OpSt) (s : State) :
    (onOp a b s).err = s.err := rfl
@[simp] theorem onOp_mgt (a : ℕ) (b : OpSt → OpSt) (s : State) :
    (onOp a b s).mgt = s.mgt := rfl
@[simp] theorem onOp_sec (a : ℕ) (b : OpSt → OpSt) (s : State) :
    (onOp a b s).sec = s.sec := rfl
@[simp] theorem onOp_pwr (a : ℕ) (b : OpSt → OpSt) (s : State) :
    (onOp a b s).pwr = s.pwr := rfl
@[simp] theorem onOp_thm (a : ℕ) (b : OpSt → OpSt) (s : State) :
    (onOp a b s).thm = s.thm := rfl
@[simp] theorem onOp_hbm (a : ℕ) (b : OpSt → OpSt) (s : State) :
    (onOp a b s).hbm = s.hbm := rfl
@[simp] theorem onOp_comb (a : ℕ) (b : OpSt → OpSt) (s : State) :
    (onOp a b s).comb = s.comb := rfl
@[simp] theorem onOp_site (a : ℕ) (b : OpSt → OpSt) (s : State) :
    (onOp a b s).site = s.site := rfl
@[simp] theorem onOp_wide (a : ℕ) (b : OpSt → OpSt) (s : State) :
    (onOp a b s).wide = s.wide := rfl
@[simp] theorem onOp_reach (a : ℕ) (b : OpSt → OpSt) (s : State) :
    (onOp a b s).reach = s.reach := rfl
@[simp] theorem onOp_siteReg (a : ℕ) (b : OpSt → OpSt) (s : State) :
    (onOp a b s).siteReg = s.siteReg := rfl
@[simp] theorem onOp_beam (a : ℕ) (b : OpSt → OpSt) (s : State) :
    (onOp a b s).beam = s.beam := rfl
@[simp] theorem onOp_port (a : ℕ) (b : OpSt → OpSt) (s : State) :
    (onOp a b s).port = s.port := rfl
@[simp] theorem onOp_pln (a : ℕ) (b : OpSt → OpSt) (s : State) :
    (onOp a b s).pln = s.pln := rfl
@[simp] theorem onOp_ring (a : ℕ) (b : OpSt → OpSt) (s : State) :
    (onOp a b s).ring = s.ring := rfl
@[simp] theorem onOp_img (a : ℕ) (b : OpSt → OpSt) (s : State) :
    (onOp a b s).img = s.img := rfl
@[simp] theorem onOp_sq (a : ℕ) (b : OpSt → OpSt) (s : State) :
    (onOp a b s).sq = s.sq := rfl
@[simp] theorem onOp_ce (a : ℕ) (b : OpSt → OpSt) (s : State) :
    (onOp a b s).ce = s.ce := rfl
@[simp] theorem onOp_time (a : ℕ) (b : OpSt → OpSt) (s : State) :
    (onOp a b s).time = s.time := rfl
@[simp] theorem onOp_out (a : ℕ) (b : OpSt → OpSt) (s : State) :
    (onOp a b s).out = s.out := rfl
@[simp] theorem onOp_fresh (a : ℕ) (b : OpSt → OpSt) (s : State) :
    (onOp a b s).fresh = s.fresh := rfl
@[simp] theorem onOp_pending (a : ℕ) (b : OpSt → OpSt) (s : State) :
    (onOp a b s).pending = s.pending := rfl

end Sys2Proof.Machine
end

