-- ==== Sys2Proof/Laws/Ops.lean ====
section
/-!
SUPPORT. What each shared operation of Machine/Ops.lean leaves unchanged.
-/

set_option linter.unusedVariables false

namespace Sys2Proof.Machine

/-- A fold whose steps keep a field keeps it. -/
@[simp] theorem foldl_dev {α : Type} (g : State → α → State) (l : List α) (s : State) (h : ∀ t x, (g t x).dev = t.dev) :
    (l.foldl g s).dev = s.dev := by
  induction l generalizing s with
  | nil => rfl
  | cons x r ih => simp [List.foldl_cons, ih, h]

/-- A field of a conditional state. -/
@[simp] theorem ite_dev (c : Prop) [Decidable c] (a b : State) : (if c then a else b).dev = if c then a.dev else b.dev := by
  split <;> rfl

/-- A fold whose steps keep a field keeps it. -/
@[simp] theorem foldl_host {α : Type} (g : State → α → State) (l : List α) (s : State) (h : ∀ t x, (g t x).host = t.host) :
    (l.foldl g s).host = s.host := by
  induction l generalizing s with
  | nil => rfl
  | cons x r ih => simp [List.foldl_cons, ih, h]

/-- A field of a conditional state. -/
@[simp] theorem ite_host (c : Prop) [Decidable c] (a b : State) : (if c then a else b).host = if c then a.host else b.host := by
  split <;> rfl

/-- A fold whose steps keep a field keeps it. -/
@[simp] theorem foldl_mbx {α : Type} (g : State → α → State) (l : List α) (s : State) (h : ∀ t x, (g t x).mbx = t.mbx) :
    (l.foldl g s).mbx = s.mbx := by
  induction l generalizing s with
  | nil => rfl
  | cons x r ih => simp [List.foldl_cons, ih, h]

/-- A field of a conditional state. -/
@[simp] theorem ite_mbx (c : Prop) [Decidable c] (a b : State) : (if c then a else b).mbx = if c then a.mbx else b.mbx := by
  split <;> rfl

/-- A fold whose steps keep a field keeps it. -/
@[simp] theorem foldl_dbl {α : Type} (g : State → α → State) (l : List α) (s : State) (h : ∀ t x, (g t x).dbl = t.dbl) :
    (l.foldl g s).dbl = s.dbl := by
  induction l generalizing s with
  | nil => rfl
  | cons x r ih => simp [List.foldl_cons, ih, h]

/-- A field of a conditional state. -/
@[simp] theorem ite_dbl (c : Prop) [Decidable c] (a b : State) : (if c then a else b).dbl = if c then a.dbl else b.dbl := by
  split <;> rfl

/-- A fold whose steps keep a field keeps it. -/
@[simp] theorem foldl_lck {α : Type} (g : State → α → State) (l : List α) (s : State) (h : ∀ t x, (g t x).lck = t.lck) :
    (l.foldl g s).lck = s.lck := by
  induction l generalizing s with
  | nil => rfl
  | cons x r ih => simp [List.foldl_cons, ih, h]

/-- A field of a conditional state. -/
@[simp] theorem ite_lck (c : Prop) [Decidable c] (a b : State) : (if c then a else b).lck = if c then a.lck else b.lck := by
  split <;> rfl

/-- A fold whose steps keep a field keeps it. -/
@[simp] theorem foldl_err {α : Type} (g : State → α → State) (l : List α) (s : State) (h : ∀ t x, (g t x).err = t.err) :
    (l.foldl g s).err = s.err := by
  induction l generalizing s with
  | nil => rfl
  | cons x r ih => simp [List.foldl_cons, ih, h]

/-- A field of a conditional state. -/
@[simp] theorem ite_err (c : Prop) [Decidable c] (a b : State) : (if c then a else b).err = if c then a.err else b.err := by
  split <;> rfl

/-- A fold whose steps keep a field keeps it. -/
@[simp] theorem foldl_mgt {α : Type} (g : State → α → State) (l : List α) (s : State) (h : ∀ t x, (g t x).mgt = t.mgt) :
    (l.foldl g s).mgt = s.mgt := by
  induction l generalizing s with
  | nil => rfl
  | cons x r ih => simp [List.foldl_cons, ih, h]

/-- A field of a conditional state. -/
@[simp] theorem ite_mgt (c : Prop) [Decidable c] (a b : State) : (if c then a else b).mgt = if c then a.mgt else b.mgt := by
  split <;> rfl

/-- A fold whose steps keep a field keeps it. -/
@[simp] theorem foldl_sec {α : Type} (g : State → α → State) (l : List α) (s : State) (h : ∀ t x, (g t x).sec = t.sec) :
    (l.foldl g s).sec = s.sec := by
  induction l generalizing s with
  | nil => rfl
  | cons x r ih => simp [List.foldl_cons, ih, h]

/-- A field of a conditional state. -/
@[simp] theorem ite_sec (c : Prop) [Decidable c] (a b : State) : (if c then a else b).sec = if c then a.sec else b.sec := by
  split <;> rfl

/-- A fold whose steps keep a field keeps it. -/
@[simp] theorem foldl_pwr {α : Type} (g : State → α → State) (l : List α) (s : State) (h : ∀ t x, (g t x).pwr = t.pwr) :
    (l.foldl g s).pwr = s.pwr := by
  induction l generalizing s with
  | nil => rfl
  | cons x r ih => simp [List.foldl_cons, ih, h]

/-- A field of a conditional state. -/
@[simp] theorem ite_pwr (c : Prop) [Decidable c] (a b : State) : (if c then a else b).pwr = if c then a.pwr else b.pwr := by
  split <;> rfl

/-- A fold whose steps keep a field keeps it. -/
@[simp] theorem foldl_thm {α : Type} (g : State → α → State) (l : List α) (s : State) (h : ∀ t x, (g t x).thm = t.thm) :
    (l.foldl g s).thm = s.thm := by
  induction l generalizing s with
  | nil => rfl
  | cons x r ih => simp [List.foldl_cons, ih, h]

/-- A field of a conditional state. -/
@[simp] theorem ite_thm (c : Prop) [Decidable c] (a b : State) : (if c then a else b).thm = if c then a.thm else b.thm := by
  split <;> rfl

/-- A fold whose steps keep a field keeps it. -/
@[simp] theorem foldl_hbm {α : Type} (g : State → α → State) (l : List α) (s : State) (h : ∀ t x, (g t x).hbm = t.hbm) :
    (l.foldl g s).hbm = s.hbm := by
  induction l generalizing s with
  | nil => rfl
  | cons x r ih => simp [List.foldl_cons, ih, h]

/-- A field of a conditional state. -/
@[simp] theorem ite_hbm (c : Prop) [Decidable c] (a b : State) : (if c then a else b).hbm = if c then a.hbm else b.hbm := by
  split <;> rfl

/-- A fold whose steps keep a field keeps it. -/
@[simp] theorem foldl_comb {α : Type} (g : State → α → State) (l : List α) (s : State) (h : ∀ t x, (g t x).comb = t.comb) :
    (l.foldl g s).comb = s.comb := by
  induction l generalizing s with
  | nil => rfl
  | cons x r ih => simp [List.foldl_cons, ih, h]

/-- A field of a conditional state. -/
@[simp] theorem ite_comb (c : Prop) [Decidable c] (a b : State) : (if c then a else b).comb = if c then a.comb else b.comb := by
  split <;> rfl

/-- A fold whose steps keep a field keeps it. -/
@[simp] theorem foldl_site {α : Type} (g : State → α → State) (l : List α) (s : State) (h : ∀ t x, (g t x).site = t.site) :
    (l.foldl g s).site = s.site := by
  induction l generalizing s with
  | nil => rfl
  | cons x r ih => simp [List.foldl_cons, ih, h]

/-- A field of a conditional state. -/
@[simp] theorem ite_site (c : Prop) [Decidable c] (a b : State) : (if c then a else b).site = if c then a.site else b.site := by
  split <;> rfl

/-- A fold whose steps keep a field keeps it. -/
@[simp] theorem foldl_wide {α : Type} (g : State → α → State) (l : List α) (s : State) (h : ∀ t x, (g t x).wide = t.wide) :
    (l.foldl g s).wide = s.wide := by
  induction l generalizing s with
  | nil => rfl
  | cons x r ih => simp [List.foldl_cons, ih, h]

/-- A field of a conditional state. -/
@[simp] theorem ite_wide (c : Prop) [Decidable c] (a b : State) : (if c then a else b).wide = if c then a.wide else b.wide := by
  split <;> rfl

/-- A fold whose steps keep a field keeps it. -/
@[simp] theorem foldl_reach {α : Type} (g : State → α → State) (l : List α) (s : State) (h : ∀ t x, (g t x).reach = t.reach) :
    (l.foldl g s).reach = s.reach := by
  induction l generalizing s with
  | nil => rfl
  | cons x r ih => simp [List.foldl_cons, ih, h]

/-- A field of a conditional state. -/
@[simp] theorem ite_reach (c : Prop) [Decidable c] (a b : State) : (if c then a else b).reach = if c then a.reach else b.reach := by
  split <;> rfl

/-- A fold whose steps keep a field keeps it. -/
@[simp] theorem foldl_siteReg {α : Type} (g : State → α → State) (l : List α) (s : State) (h : ∀ t x, (g t x).siteReg = t.siteReg) :
    (l.foldl g s).siteReg = s.siteReg := by
  induction l generalizing s with
  | nil => rfl
  | cons x r ih => simp [List.foldl_cons, ih, h]

/-- A field of a conditional state. -/
@[simp] theorem ite_siteReg (c : Prop) [Decidable c] (a b : State) : (if c then a else b).siteReg = if c then a.siteReg else b.siteReg := by
  split <;> rfl

/-- A fold whose steps keep a field keeps it. -/
@[simp] theorem foldl_beam {α : Type} (g : State → α → State) (l : List α) (s : State) (h : ∀ t x, (g t x).beam = t.beam) :
    (l.foldl g s).beam = s.beam := by
  induction l generalizing s with
  | nil => rfl
  | cons x r ih => simp [List.foldl_cons, ih, h]

/-- A field of a conditional state. -/
@[simp] theorem ite_beam (c : Prop) [Decidable c] (a b : State) : (if c then a else b).beam = if c then a.beam else b.beam := by
  split <;> rfl

/-- A fold whose steps keep a field keeps it. -/
@[simp] theorem foldl_port {α : Type} (g : State → α → State) (l : List α) (s : State) (h : ∀ t x, (g t x).port = t.port) :
    (l.foldl g s).port = s.port := by
  induction l generalizing s with
  | nil => rfl
  | cons x r ih => simp [List.foldl_cons, ih, h]

/-- A field of a conditional state. -/
@[simp] theorem ite_port (c : Prop) [Decidable c] (a b : State) : (if c then a else b).port = if c then a.port else b.port := by
  split <;> rfl

/-- A fold whose steps keep a field keeps it. -/
@[simp] theorem foldl_pln {α : Type} (g : State → α → State) (l : List α) (s : State) (h : ∀ t x, (g t x).pln = t.pln) :
    (l.foldl g s).pln = s.pln := by
  induction l generalizing s with
  | nil => rfl
  | cons x r ih => simp [List.foldl_cons, ih, h]

/-- A field of a conditional state. -/
@[simp] theorem ite_pln (c : Prop) [Decidable c] (a b : State) : (if c then a else b).pln = if c then a.pln else b.pln := by
  split <;> rfl

/-- A fold whose steps keep a field keeps it. -/
@[simp] theorem foldl_ring {α : Type} (g : State → α → State) (l : List α) (s : State) (h : ∀ t x, (g t x).ring = t.ring) :
    (l.foldl g s).ring = s.ring := by
  induction l generalizing s with
  | nil => rfl
  | cons x r ih => simp [List.foldl_cons, ih, h]

/-- A field of a conditional state. -/
@[simp] theorem ite_ring (c : Prop) [Decidable c] (a b : State) : (if c then a else b).ring = if c then a.ring else b.ring := by
  split <;> rfl

/-- A fold whose steps keep a field keeps it. -/
@[simp] theorem foldl_img {α : Type} (g : State → α → State) (l : List α) (s : State) (h : ∀ t x, (g t x).img = t.img) :
    (l.foldl g s).img = s.img := by
  induction l generalizing s with
  | nil => rfl
  | cons x r ih => simp [List.foldl_cons, ih, h]

/-- A field of a conditional state. -/
@[simp] theorem ite_img (c : Prop) [Decidable c] (a b : State) : (if c then a else b).img = if c then a.img else b.img := by
  split <;> rfl

/-- A fold whose steps keep a field keeps it. -/
@[simp] theorem foldl_ctl {α : Type} (g : State → α → State) (l : List α) (s : State) (h : ∀ t x, (g t x).ctl = t.ctl) :
    (l.foldl g s).ctl = s.ctl := by
  induction l generalizing s with
  | nil => rfl
  | cons x r ih => simp [List.foldl_cons, ih, h]

/-- A field of a conditional state. -/
@[simp] theorem ite_ctl (c : Prop) [Decidable c] (a b : State) : (if c then a else b).ctl = if c then a.ctl else b.ctl := by
  split <;> rfl

/-- A fold whose steps keep a field keeps it. -/
@[simp] theorem foldl_sq {α : Type} (g : State → α → State) (l : List α) (s : State) (h : ∀ t x, (g t x).sq = t.sq) :
    (l.foldl g s).sq = s.sq := by
  induction l generalizing s with
  | nil => rfl
  | cons x r ih => simp [List.foldl_cons, ih, h]

/-- A field of a conditional state. -/
@[simp] theorem ite_sq (c : Prop) [Decidable c] (a b : State) : (if c then a else b).sq = if c then a.sq else b.sq := by
  split <;> rfl

/-- A fold whose steps keep a field keeps it. -/
@[simp] theorem foldl_ce {α : Type} (g : State → α → State) (l : List α) (s : State) (h : ∀ t x, (g t x).ce = t.ce) :
    (l.foldl g s).ce = s.ce := by
  induction l generalizing s with
  | nil => rfl
  | cons x r ih => simp [List.foldl_cons, ih, h]

/-- A field of a conditional state. -/
@[simp] theorem ite_ce (c : Prop) [Decidable c] (a b : State) : (if c then a else b).ce = if c then a.ce else b.ce := by
  split <;> rfl

/-- A fold whose steps keep a field keeps it. -/
@[simp] theorem foldl_time {α : Type} (g : State → α → State) (l : List α) (s : State) (h : ∀ t x, (g t x).time = t.time) :
    (l.foldl g s).time = s.time := by
  induction l generalizing s with
  | nil => rfl
  | cons x r ih => simp [List.foldl_cons, ih, h]

/-- A field of a conditional state. -/
@[simp] theorem ite_time (c : Prop) [Decidable c] (a b : State) : (if c then a else b).time = if c then a.time else b.time := by
  split <;> rfl

/-- A fold whose steps keep a field keeps it. -/
@[simp] theorem foldl_out {α : Type} (g : State → α → State) (l : List α) (s : State) (h : ∀ t x, (g t x).out = t.out) :
    (l.foldl g s).out = s.out := by
  induction l generalizing s with
  | nil => rfl
  | cons x r ih => simp [List.foldl_cons, ih, h]

/-- A field of a conditional state. -/
@[simp] theorem ite_out (c : Prop) [Decidable c] (a b : State) : (if c then a else b).out = if c then a.out else b.out := by
  split <;> rfl

/-- A fold whose steps keep a field keeps it. -/
@[simp] theorem foldl_fresh {α : Type} (g : State → α → State) (l : List α) (s : State) (h : ∀ t x, (g t x).fresh = t.fresh) :
    (l.foldl g s).fresh = s.fresh := by
  induction l generalizing s with
  | nil => rfl
  | cons x r ih => simp [List.foldl_cons, ih, h]

/-- A field of a conditional state. -/
@[simp] theorem ite_fresh (c : Prop) [Decidable c] (a b : State) : (if c then a else b).fresh = if c then a.fresh else b.fresh := by
  split <;> rfl

/-- A fold whose steps keep a field keeps it. -/
@[simp] theorem foldl_pending {α : Type} (g : State → α → State) (l : List α) (s : State) (h : ∀ t x, (g t x).pending = t.pending) :
    (l.foldl g s).pending = s.pending := by
  induction l generalizing s with
  | nil => rfl
  | cons x r ih => simp [List.foldl_cons, ih, h]

/-- A field of a conditional state. -/
@[simp] theorem ite_pending (c : Prop) [Decidable c] (a b : State) : (if c then a else b).pending = if c then a.pending else b.pending := by
  split <;> rfl

@[simp] theorem bothStores_dev (a : SqUnitSt → SqUnitSt) (s : State) :
    (bothStores a s).dev = s.dev := by simp [bothStores]
@[simp] theorem bothStores_host (a : SqUnitSt → SqUnitSt) (s : State) :
    (bothStores a s).host = s.host := by simp [bothStores]
@[simp] theorem bothStores_mbx (a : SqUnitSt → SqUnitSt) (s : State) :
    (bothStores a s).mbx = s.mbx := by simp [bothStores]
@[simp] theorem bothStores_dbl (a : SqUnitSt → SqUnitSt) (s : State) :
    (bothStores a s).dbl = s.dbl := by simp [bothStores]
@[simp] theorem bothStores_lck (a : SqUnitSt → SqUnitSt) (s : State) :
    (bothStores a s).lck = s.lck := by simp [bothStores]
@[simp] theorem bothStores_err (a : SqUnitSt → SqUnitSt) (s : State) :
    (bothStores a s).err = s.err := by simp [bothStores]
@[simp] theorem bothStores_mgt (a : SqUnitSt → SqUnitSt) (s : State) :
    (bothStores a s).mgt = s.mgt := by simp [bothStores]
@[simp] theorem bothStores_sec (a : SqUnitSt → SqUnitSt) (s : State) :
    (bothStores a s).sec = s.sec := by simp [bothStores]
@[simp] theorem bothStores_pwr (a : SqUnitSt → SqUnitSt) (s : State) :
    (bothStores a s).pwr = s.pwr := by simp [bothStores]
@[simp] theorem bothStores_thm (a : SqUnitSt → SqUnitSt) (s : State) :
    (bothStores a s).thm = s.thm := by simp [bothStores]
@[simp] theorem bothStores_hbm (a : SqUnitSt → SqUnitSt) (s : State) :
    (bothStores a s).hbm = s.hbm := by simp [bothStores]
@[simp] theorem bothStores_comb (a : SqUnitSt → SqUnitSt) (s : State) :
    (bothStores a s).comb = s.comb := by simp [bothStores]
@[simp] theorem bothStores_site (a : SqUnitSt → SqUnitSt) (s : State) :
    (bothStores a s).site = s.site := by simp [bothStores]
@[simp] theorem bothStores_wide (a : SqUnitSt → SqUnitSt) (s : State) :
    (bothStores a s).wide = s.wide := by simp [bothStores]
@[simp] theorem bothStores_reach (a : SqUnitSt → SqUnitSt) (s : State) :
    (bothStores a s).reach = s.reach := by simp [bothStores]
@[simp] theorem bothStores_siteReg (a : SqUnitSt → SqUnitSt) (s : State) :
    (bothStores a s).siteReg = s.siteReg := by simp [bothStores]
@[simp] theorem bothStores_beam (a : SqUnitSt → SqUnitSt) (s : State) :
    (bothStores a s).beam = s.beam := by simp [bothStores]
@[simp] theorem bothStores_port (a : SqUnitSt → SqUnitSt) (s : State) :
    (bothStores a s).port = s.port := by simp [bothStores]
@[simp] theorem bothStores_pln (a : SqUnitSt → SqUnitSt) (s : State) :
    (bothStores a s).pln = s.pln := by simp [bothStores]
@[simp] theorem bothStores_ring (a : SqUnitSt → SqUnitSt) (s : State) :
    (bothStores a s).ring = s.ring := by simp [bothStores]
@[simp] theorem bothStores_img (a : SqUnitSt → SqUnitSt) (s : State) :
    (bothStores a s).img = s.img := by simp [bothStores]
@[simp] theorem bothStores_ctl (a : SqUnitSt → SqUnitSt) (s : State) :
    (bothStores a s).ctl = s.ctl := by simp [bothStores]
@[simp] theorem bothStores_ce (a : SqUnitSt → SqUnitSt) (s : State) :
    (bothStores a s).ce = s.ce := by simp [bothStores]
@[simp] theorem bothStores_time (a : SqUnitSt → SqUnitSt) (s : State) :
    (bothStores a s).time = s.time := by simp [bothStores]
@[simp] theorem bothStores_out (a : SqUnitSt → SqUnitSt) (s : State) :
    (bothStores a s).out = s.out := by simp [bothStores]
@[simp] theorem bothStores_fresh (a : SqUnitSt → SqUnitSt) (s : State) :
    (bothStores a s).fresh = s.fresh := by simp [bothStores]
@[simp] theorem bothStores_pending (a : SqUnitSt → SqUnitSt) (s : State) :
    (bothStores a s).pending = s.pending := by simp [bothStores]
@[simp] theorem logEvent_dev (a : ℕ) (b : ℕ) (c : ℕ) (d : ℕ) (s : State) :
    (logEvent a b c d s).dev = s.dev := by unfold logEvent; dsimp only; split <;> rfl
@[simp] theorem logEvent_host (a : ℕ) (b : ℕ) (c : ℕ) (d : ℕ) (s : State) :
    (logEvent a b c d s).host = s.host := by unfold logEvent; dsimp only; split <;> rfl
@[simp] theorem logEvent_mbx (a : ℕ) (b : ℕ) (c : ℕ) (d : ℕ) (s : State) :
    (logEvent a b c d s).mbx = s.mbx := by unfold logEvent; dsimp only; split <;> rfl
@[simp] theorem logEvent_dbl (a : ℕ) (b : ℕ) (c : ℕ) (d : ℕ) (s : State) :
    (logEvent a b c d s).dbl = s.dbl := by unfold logEvent; dsimp only; split <;> rfl
@[simp] theorem logEvent_lck (a : ℕ) (b : ℕ) (c : ℕ) (d : ℕ) (s : State) :
    (logEvent a b c d s).lck = s.lck := by unfold logEvent; dsimp only; split <;> rfl
@[simp] theorem logEvent_mgt (a : ℕ) (b : ℕ) (c : ℕ) (d : ℕ) (s : State) :
    (logEvent a b c d s).mgt = s.mgt := by unfold logEvent; dsimp only; split <;> rfl
@[simp] theorem logEvent_sec (a : ℕ) (b : ℕ) (c : ℕ) (d : ℕ) (s : State) :
    (logEvent a b c d s).sec = s.sec := by unfold logEvent; dsimp only; split <;> rfl
@[simp] theorem logEvent_pwr (a : ℕ) (b : ℕ) (c : ℕ) (d : ℕ) (s : State) :
    (logEvent a b c d s).pwr = s.pwr := by unfold logEvent; dsimp only; split <;> rfl
@[simp] theorem logEvent_thm (a : ℕ) (b : ℕ) (c : ℕ) (d : ℕ) (s : State) :
    (logEvent a b c d s).thm = s.thm := by unfold logEvent; dsimp only; split <;> rfl
@[simp] theorem logEvent_hbm (a : ℕ) (b : ℕ) (c : ℕ) (d : ℕ) (s : State) :
    (logEvent a b c d s).hbm = s.hbm := by unfold logEvent; dsimp only; split <;> rfl
@[simp] theorem logEvent_comb (a : ℕ) (b : ℕ) (c : ℕ) (d : ℕ) (s : State) :
    (logEvent a b c d s).comb = s.comb := by unfold logEvent; dsimp only; split <;> rfl
@[simp] theorem logEvent_site (a : ℕ) (b : ℕ) (c : ℕ) (d : ℕ) (s : State) :
    (logEvent a b c d s).site = s.site := by unfold logEvent; dsimp only; split <;> rfl
@[simp] theorem logEvent_wide (a : ℕ) (b : ℕ) (c : ℕ) (d : ℕ) (s : State) :
    (logEvent a b c d s).wide = s.wide := by unfold logEvent; dsimp only; split <;> rfl
@[simp] theorem logEvent_reach (a : ℕ) (b : ℕ) (c : ℕ) (d : ℕ) (s : State) :
    (logEvent a b c d s).reach = s.reach := by unfold logEvent; dsimp only; split <;> rfl
@[simp] theorem logEvent_siteReg (a : ℕ) (b : ℕ) (c : ℕ) (d : ℕ) (s : State) :
    (logEvent a b c d s).siteReg = s.siteReg := by unfold logEvent; dsimp only; split <;> rfl
@[simp] theorem logEvent_beam (a : ℕ) (b : ℕ) (c : ℕ) (d : ℕ) (s : State) :
    (logEvent a b c d s).beam = s.beam := by unfold logEvent; dsimp only; split <;> rfl
@[simp] theorem logEvent_port (a : ℕ) (b : ℕ) (c : ℕ) (d : ℕ) (s : State) :
    (logEvent a b c d s).port = s.port := by unfold logEvent; dsimp only; split <;> rfl
@[simp] theorem logEvent_pln (a : ℕ) (b : ℕ) (c : ℕ) (d : ℕ) (s : State) :
    (logEvent a b c d s).pln = s.pln := by unfold logEvent; dsimp only; split <;> rfl
@[simp] theorem logEvent_ring (a : ℕ) (b : ℕ) (c : ℕ) (d : ℕ) (s : State) :
    (logEvent a b c d s).ring = s.ring := by unfold logEvent; dsimp only; split <;> rfl
@[simp] theorem logEvent_img (a : ℕ) (b : ℕ) (c : ℕ) (d : ℕ) (s : State) :
    (logEvent a b c d s).img = s.img := by unfold logEvent; dsimp only; split <;> rfl
@[simp] theorem logEvent_ctl (a : ℕ) (b : ℕ) (c : ℕ) (d : ℕ) (s : State) :
    (logEvent a b c d s).ctl = s.ctl := by unfold logEvent; dsimp only; split <;> rfl
@[simp] theorem logEvent_sq (a : ℕ) (b : ℕ) (c : ℕ) (d : ℕ) (s : State) :
    (logEvent a b c d s).sq = s.sq := by unfold logEvent; dsimp only; split <;> rfl
@[simp] theorem logEvent_ce (a : ℕ) (b : ℕ) (c : ℕ) (d : ℕ) (s : State) :
    (logEvent a b c d s).ce = s.ce := by unfold logEvent; dsimp only; split <;> rfl
@[simp] theorem logEvent_time (a : ℕ) (b : ℕ) (c : ℕ) (d : ℕ) (s : State) :
    (logEvent a b c d s).time = s.time := by unfold logEvent; dsimp only; split <;> rfl
@[simp] theorem logEvent_out (a : ℕ) (b : ℕ) (c : ℕ) (d : ℕ) (s : State) :
    (logEvent a b c d s).out = s.out := by unfold logEvent; dsimp only; split <;> rfl
@[simp] theorem logEvent_pending (a : ℕ) (b : ℕ) (c : ℕ) (d : ℕ) (s : State) :
    (logEvent a b c d s).pending = s.pending := by unfold logEvent; dsimp only; split <;> rfl
@[simp] theorem setEv_host (a : ℕ) (b : ℕ) (c : ℕ) (s : State) :
    (setEv a b c s).host = s.host := by simp [setEv]
@[simp] theorem setEv_mbx (a : ℕ) (b : ℕ) (c : ℕ) (s : State) :
    (setEv a b c s).mbx = s.mbx := by simp [setEv]
@[simp] theorem setEv_lck (a : ℕ) (b : ℕ) (c : ℕ) (s : State) :
    (setEv a b c s).lck = s.lck := by simp [setEv]
@[simp] theorem setEv_comb (a : ℕ) (b : ℕ) (c : ℕ) (s : State) :
    (setEv a b c s).comb = s.comb := by simp [setEv]
@[simp] theorem setEv_wide (a : ℕ) (b : ℕ) (c : ℕ) (s : State) :
    (setEv a b c s).wide = s.wide := by simp [setEv]
@[simp] theorem setEv_reach (a : ℕ) (b : ℕ) (c : ℕ) (s : State) :
    (setEv a b c s).reach = s.reach := by simp [setEv]
@[simp] theorem setEv_siteReg (a : ℕ) (b : ℕ) (c : ℕ) (s : State) :
    (setEv a b c s).siteReg = s.siteReg := by simp [setEv]
@[simp] theorem setEv_beam (a : ℕ) (b : ℕ) (c : ℕ) (s : State) :
    (setEv a b c s).beam = s.beam := by simp [setEv]
@[simp] theorem setEv_ring (a : ℕ) (b : ℕ) (c : ℕ) (s : State) :
    (setEv a b c s).ring = s.ring := by simp [setEv]
@[simp] theorem setEv_img (a : ℕ) (b : ℕ) (c : ℕ) (s : State) :
    (setEv a b c s).img = s.img := by simp [setEv]
@[simp] theorem setEv_ctl (a : ℕ) (b : ℕ) (c : ℕ) (s : State) :
    (setEv a b c s).ctl = s.ctl := by simp [setEv]
@[simp] theorem setEv_time (a : ℕ) (b : ℕ) (c : ℕ) (s : State) :
    (setEv a b c s).time = s.time := by simp [setEv]
@[simp] theorem setEv_fresh (a : ℕ) (b : ℕ) (c : ℕ) (s : State) :
    (setEv a b c s).fresh = s.fresh := by simp [setEv]
@[simp] theorem setEv_pending (a : ℕ) (b : ℕ) (c : ℕ) (s : State) :
    (setEv a b c s).pending = s.pending := by simp [setEv]
@[simp] theorem eventBit_host (a : ℕ) (b : ℕ) (c : ℕ) (d : ℕ) (s : State) :
    (eventBit a b c d s).host = s.host := by simp [eventBit]
@[simp] theorem eventBit_mbx (a : ℕ) (b : ℕ) (c : ℕ) (d : ℕ) (s : State) :
    (eventBit a b c d s).mbx = s.mbx := by simp [eventBit]
@[simp] theorem eventBit_lck (a : ℕ) (b : ℕ) (c : ℕ) (d : ℕ) (s : State) :
    (eventBit a b c d s).lck = s.lck := by simp [eventBit]
@[simp] theorem eventBit_comb (a : ℕ) (b : ℕ) (c : ℕ) (d : ℕ) (s : State) :
    (eventBit a b c d s).comb = s.comb := by simp [eventBit]
@[simp] theorem eventBit_wide (a : ℕ) (b : ℕ) (c : ℕ) (d : ℕ) (s : State) :
    (eventBit a b c d s).wide = s.wide := by simp [eventBit]
@[simp] theorem eventBit_reach (a : ℕ) (b : ℕ) (c : ℕ) (d : ℕ) (s : State) :
    (eventBit a b c d s).reach = s.reach := by simp [eventBit]
@[simp] theorem eventBit_siteReg (a : ℕ) (b : ℕ) (c : ℕ) (d : ℕ) (s : State) :
    (eventBit a b c d s).siteReg = s.siteReg := by simp [eventBit]
@[simp] theorem eventBit_beam (a : ℕ) (b : ℕ) (c : ℕ) (d : ℕ) (s : State) :
    (eventBit a b c d s).beam = s.beam := by simp [eventBit]
@[simp] theorem eventBit_ring (a : ℕ) (b : ℕ) (c : ℕ) (d : ℕ) (s : State) :
    (eventBit a b c d s).ring = s.ring := by simp [eventBit]
@[simp] theorem eventBit_img (a : ℕ) (b : ℕ) (c : ℕ) (d : ℕ) (s : State) :
    (eventBit a b c d s).img = s.img := by simp [eventBit]
@[simp] theorem eventBit_ctl (a : ℕ) (b : ℕ) (c : ℕ) (d : ℕ) (s : State) :
    (eventBit a b c d s).ctl = s.ctl := by simp [eventBit]
@[simp] theorem eventBit_time (a : ℕ) (b : ℕ) (c : ℕ) (d : ℕ) (s : State) :
    (eventBit a b c d s).time = s.time := by simp [eventBit]
@[simp] theorem eventBit_pending (a : ℕ) (b : ℕ) (c : ℕ) (d : ℕ) (s : State) :
    (eventBit a b c d s).pending = s.pending := by simp [eventBit]
@[simp] theorem flag_host (a : ℕ) (b : ℕ) (c : ℕ) (s : State) :
    (flag a b c s).host = s.host := by simp [flag]
@[simp] theorem flag_mbx (a : ℕ) (b : ℕ) (c : ℕ) (s : State) :
    (flag a b c s).mbx = s.mbx := by simp [flag]
@[simp] theorem flag_lck (a : ℕ) (b : ℕ) (c : ℕ) (s : State) :
    (flag a b c s).lck = s.lck := by simp [flag]
@[simp] theorem flag_comb (a : ℕ) (b : ℕ) (c : ℕ) (s : State) :
    (flag a b c s).comb = s.comb := by simp [flag]
@[simp] theorem flag_wide (a : ℕ) (b : ℕ) (c : ℕ) (s : State) :
    (flag a b c s).wide = s.wide := by simp [flag]
@[simp] theorem flag_reach (a : ℕ) (b : ℕ) (c : ℕ) (s : State) :
    (flag a b c s).reach = s.reach := by simp [flag]
@[simp] theorem flag_siteReg (a : ℕ) (b : ℕ) (c : ℕ) (s : State) :
    (flag a b c s).siteReg = s.siteReg := by simp [flag]
@[simp] theorem flag_beam (a : ℕ) (b : ℕ) (c : ℕ) (s : State) :
    (flag a b c s).beam = s.beam := by simp [flag]
@[simp] theorem flag_ring (a : ℕ) (b : ℕ) (c : ℕ) (s : State) :
    (flag a b c s).ring = s.ring := by simp [flag]
@[simp] theorem flag_img (a : ℕ) (b : ℕ) (c : ℕ) (s : State) :
    (flag a b c s).img = s.img := by simp [flag]
@[simp] theorem flag_ctl (a : ℕ) (b : ℕ) (c : ℕ) (s : State) :
    (flag a b c s).ctl = s.ctl := by simp [flag]
@[simp] theorem flag_time (a : ℕ) (b : ℕ) (c : ℕ) (s : State) :
    (flag a b c s).time = s.time := by simp [flag]
@[simp] theorem flag_pending (a : ℕ) (b : ℕ) (c : ℕ) (s : State) :
    (flag a b c s).pending = s.pending := by simp [flag]
@[simp] theorem sbSend_dev (a : SiteIx) (b : Byte) (c : List Byte) (s : State) :
    (sbSend a b c s).dev = s.dev := by simp [sbSend]
@[simp] theorem sbSend_host (a : SiteIx) (b : Byte) (c : List Byte) (s : State) :
    (sbSend a b c s).host = s.host := by simp [sbSend]
@[simp] theorem sbSend_mbx (a : SiteIx) (b : Byte) (c : List Byte) (s : State) :
    (sbSend a b c s).mbx = s.mbx := by simp [sbSend]
@[simp] theorem sbSend_dbl (a : SiteIx) (b : Byte) (c : List Byte) (s : State) :
    (sbSend a b c s).dbl = s.dbl := by simp [sbSend]
@[simp] theorem sbSend_lck (a : SiteIx) (b : Byte) (c : List Byte) (s : State) :
    (sbSend a b c s).lck = s.lck := by simp [sbSend]
@[simp] theorem sbSend_err (a : SiteIx) (b : Byte) (c : List Byte) (s : State) :
    (sbSend a b c s).err = s.err := by simp [sbSend]
@[simp] theorem sbSend_mgt (a : SiteIx) (b : Byte) (c : List Byte) (s : State) :
    (sbSend a b c s).mgt = s.mgt := by simp [sbSend]
@[simp] theorem sbSend_sec (a : SiteIx) (b : Byte) (c : List Byte) (s : State) :
    (sbSend a b c s).sec = s.sec := by simp [sbSend]
@[simp] theorem sbSend_pwr (a : SiteIx) (b : Byte) (c : List Byte) (s : State) :
    (sbSend a b c s).pwr = s.pwr := by simp [sbSend]
@[simp] theorem sbSend_thm (a : SiteIx) (b : Byte) (c : List Byte) (s : State) :
    (sbSend a b c s).thm = s.thm := by simp [sbSend]
@[simp] theorem sbSend_hbm (a : SiteIx) (b : Byte) (c : List Byte) (s : State) :
    (sbSend a b c s).hbm = s.hbm := by simp [sbSend]
@[simp] theorem sbSend_comb (a : SiteIx) (b : Byte) (c : List Byte) (s : State) :
    (sbSend a b c s).comb = s.comb := by simp [sbSend]
@[simp] theorem sbSend_wide (a : SiteIx) (b : Byte) (c : List Byte) (s : State) :
    (sbSend a b c s).wide = s.wide := by simp [sbSend]
@[simp] theorem sbSend_reach (a : SiteIx) (b : Byte) (c : List Byte) (s : State) :
    (sbSend a b c s).reach = s.reach := by simp [sbSend]
@[simp] theorem sbSend_siteReg (a : SiteIx) (b : Byte) (c : List Byte) (s : State) :
    (sbSend a b c s).siteReg = s.siteReg := by simp [sbSend]
@[simp] theorem sbSend_beam (a : SiteIx) (b : Byte) (c : List Byte) (s : State) :
    (sbSend a b c s).beam = s.beam := by simp [sbSend]
@[simp] theorem sbSend_port (a : SiteIx) (b : Byte) (c : List Byte) (s : State) :
    (sbSend a b c s).port = s.port := by simp [sbSend]
@[simp] theorem sbSend_pln (a : SiteIx) (b : Byte) (c : List Byte) (s : State) :
    (sbSend a b c s).pln = s.pln := by simp [sbSend]
@[simp] theorem sbSend_ring (a : SiteIx) (b : Byte) (c : List Byte) (s : State) :
    (sbSend a b c s).ring = s.ring := by simp [sbSend]
@[simp] theorem sbSend_img (a : SiteIx) (b : Byte) (c : List Byte) (s : State) :
    (sbSend a b c s).img = s.img := by simp [sbSend]
@[simp] theorem sbSend_ctl (a : SiteIx) (b : Byte) (c : List Byte) (s : State) :
    (sbSend a b c s).ctl = s.ctl := by simp [sbSend]
@[simp] theorem sbSend_sq (a : SiteIx) (b : Byte) (c : List Byte) (s : State) :
    (sbSend a b c s).sq = s.sq := by simp [sbSend]
@[simp] theorem sbSend_ce (a : SiteIx) (b : Byte) (c : List Byte) (s : State) :
    (sbSend a b c s).ce = s.ce := by simp [sbSend]
@[simp] theorem sbSend_time (a : SiteIx) (b : Byte) (c : List Byte) (s : State) :
    (sbSend a b c s).time = s.time := by simp [sbSend]
@[simp] theorem sbSend_out (a : SiteIx) (b : Byte) (c : List Byte) (s : State) :
    (sbSend a b c s).out = s.out := by simp [sbSend]
@[simp] theorem sbSend_fresh (a : SiteIx) (b : Byte) (c : List Byte) (s : State) :
    (sbSend a b c s).fresh = s.fresh := by simp [sbSend]
@[simp] theorem sbSend_pending (a : SiteIx) (b : Byte) (c : List Byte) (s : State) :
    (sbSend a b c s).pending = s.pending := by simp [sbSend]
@[simp] theorem sendToken_dev (a : SiteIx) (b : DWord) (s : State) :
    (sendToken a b s).dev = s.dev := by simp [sendToken]
@[simp] theorem sendToken_host (a : SiteIx) (b : DWord) (s : State) :
    (sendToken a b s).host = s.host := by simp [sendToken]
@[simp] theorem sendToken_mbx (a : SiteIx) (b : DWord) (s : State) :
    (sendToken a b s).mbx = s.mbx := by simp [sendToken]
@[simp] theorem sendToken_dbl (a : SiteIx) (b : DWord) (s : State) :
    (sendToken a b s).dbl = s.dbl := by simp [sendToken]
@[simp] theorem sendToken_lck (a : SiteIx) (b : DWord) (s : State) :
    (sendToken a b s).lck = s.lck := by simp [sendToken]
@[simp] theorem sendToken_err (a : SiteIx) (b : DWord) (s : State) :
    (sendToken a b s).err = s.err := by simp [sendToken]
@[simp] theorem sendToken_mgt (a : SiteIx) (b : DWord) (s : State) :
    (sendToken a b s).mgt = s.mgt := by simp [sendToken]
@[simp] theorem sendToken_sec (a : SiteIx) (b : DWord) (s : State) :
    (sendToken a b s).sec = s.sec := by simp [sendToken]
@[simp] theorem sendToken_pwr (a : SiteIx) (b : DWord) (s : State) :
    (sendToken a b s).pwr = s.pwr := by simp [sendToken]
@[simp] theorem sendToken_thm (a : SiteIx) (b : DWord) (s : State) :
    (sendToken a b s).thm = s.thm := by simp [sendToken]
@[simp] theorem sendToken_hbm (a : SiteIx) (b : DWord) (s : State) :
    (sendToken a b s).hbm = s.hbm := by simp [sendToken]
@[simp] theorem sendToken_comb (a : SiteIx) (b : DWord) (s : State) :
    (sendToken a b s).comb = s.comb := by simp [sendToken]
@[simp] theorem sendToken_wide (a : SiteIx) (b : DWord) (s : State) :
    (sendToken a b s).wide = s.wide := by simp [sendToken]
@[simp] theorem sendToken_reach (a : SiteIx) (b : DWord) (s : State) :
    (sendToken a b s).reach = s.reach := by simp [sendToken]
@[simp] theorem sendToken_siteReg (a : SiteIx) (b : DWord) (s : State) :
    (sendToken a b s).siteReg = s.siteReg := by simp [sendToken]
@[simp] theorem sendToken_beam (a : SiteIx) (b : DWord) (s : State) :
    (sendToken a b s).beam = s.beam := by simp [sendToken]
@[simp] theorem sendToken_port (a : SiteIx) (b : DWord) (s : State) :
    (sendToken a b s).port = s.port := by simp [sendToken]
@[simp] theorem sendToken_pln (a : SiteIx) (b : DWord) (s : State) :
    (sendToken a b s).pln = s.pln := by simp [sendToken]
@[simp] theorem sendToken_ring (a : SiteIx) (b : DWord) (s : State) :
    (sendToken a b s).ring = s.ring := by simp [sendToken]
@[simp] theorem sendToken_img (a : SiteIx) (b : DWord) (s : State) :
    (sendToken a b s).img = s.img := by simp [sendToken]
@[simp] theorem sendToken_ctl (a : SiteIx) (b : DWord) (s : State) :
    (sendToken a b s).ctl = s.ctl := by simp [sendToken]
@[simp] theorem sendToken_sq (a : SiteIx) (b : DWord) (s : State) :
    (sendToken a b s).sq = s.sq := by simp [sendToken]
@[simp] theorem sendToken_ce (a : SiteIx) (b : DWord) (s : State) :
    (sendToken a b s).ce = s.ce := by simp [sendToken]
@[simp] theorem sendToken_time (a : SiteIx) (b : DWord) (s : State) :
    (sendToken a b s).time = s.time := by simp [sendToken]
@[simp] theorem sendToken_out (a : SiteIx) (b : DWord) (s : State) :
    (sendToken a b s).out = s.out := by simp [sendToken]
@[simp] theorem sendToken_fresh (a : SiteIx) (b : DWord) (s : State) :
    (sendToken a b s).fresh = s.fresh := by simp [sendToken]
@[simp] theorem sendToken_pending (a : SiteIx) (b : DWord) (s : State) :
    (sendToken a b s).pending = s.pending := by simp [sendToken]
@[simp] theorem noticeAll_dev (a : ℕ) (s : State) :
    (noticeAll a s).dev = s.dev := by simp [noticeAll]
@[simp] theorem noticeAll_host (a : ℕ) (s : State) :
    (noticeAll a s).host = s.host := by simp [noticeAll]
@[simp] theorem noticeAll_mbx (a : ℕ) (s : State) :
    (noticeAll a s).mbx = s.mbx := by simp [noticeAll]
@[simp] theorem noticeAll_dbl (a : ℕ) (s : State) :
    (noticeAll a s).dbl = s.dbl := by simp [noticeAll]
@[simp] theorem noticeAll_lck (a : ℕ) (s : State) :
    (noticeAll a s).lck = s.lck := by simp [noticeAll]
@[simp] theorem noticeAll_err (a : ℕ) (s : State) :
    (noticeAll a s).err = s.err := by simp [noticeAll]
@[simp] theorem noticeAll_mgt (a : ℕ) (s : State) :
    (noticeAll a s).mgt = s.mgt := by simp [noticeAll]
@[simp] theorem noticeAll_sec (a : ℕ) (s : State) :
    (noticeAll a s).sec = s.sec := by simp [noticeAll]
@[simp] theorem noticeAll_pwr (a : ℕ) (s : State) :
    (noticeAll a s).pwr = s.pwr := by simp [noticeAll]
@[simp] theorem noticeAll_thm (a : ℕ) (s : State) :
    (noticeAll a s).thm = s.thm := by simp [noticeAll]
@[simp] theorem noticeAll_hbm (a : ℕ) (s : State) :
    (noticeAll a s).hbm = s.hbm := by simp [noticeAll]
@[simp] theorem noticeAll_comb (a : ℕ) (s : State) :
    (noticeAll a s).comb = s.comb := by simp [noticeAll]
@[simp] theorem noticeAll_wide (a : ℕ) (s : State) :
    (noticeAll a s).wide = s.wide := by simp [noticeAll]
@[simp] theorem noticeAll_reach (a : ℕ) (s : State) :
    (noticeAll a s).reach = s.reach := by simp [noticeAll]
@[simp] theorem noticeAll_siteReg (a : ℕ) (s : State) :
    (noticeAll a s).siteReg = s.siteReg := by simp [noticeAll]
@[simp] theorem noticeAll_beam (a : ℕ) (s : State) :
    (noticeAll a s).beam = s.beam := by simp [noticeAll]
@[simp] theorem noticeAll_port (a : ℕ) (s : State) :
    (noticeAll a s).port = s.port := by simp [noticeAll]
@[simp] theorem noticeAll_pln (a : ℕ) (s : State) :
    (noticeAll a s).pln = s.pln := by simp [noticeAll]
@[simp] theorem noticeAll_ring (a : ℕ) (s : State) :
    (noticeAll a s).ring = s.ring := by simp [noticeAll]
@[simp] theorem noticeAll_img (a : ℕ) (s : State) :
    (noticeAll a s).img = s.img := by simp [noticeAll]
@[simp] theorem noticeAll_ctl (a : ℕ) (s : State) :
    (noticeAll a s).ctl = s.ctl := by simp [noticeAll]
@[simp] theorem noticeAll_sq (a : ℕ) (s : State) :
    (noticeAll a s).sq = s.sq := by simp [noticeAll]
@[simp] theorem noticeAll_ce (a : ℕ) (s : State) :
    (noticeAll a s).ce = s.ce := by simp [noticeAll]
@[simp] theorem noticeAll_time (a : ℕ) (s : State) :
    (noticeAll a s).time = s.time := by simp [noticeAll]
@[simp] theorem noticeAll_out (a : ℕ) (s : State) :
    (noticeAll a s).out = s.out := by simp [noticeAll]
@[simp] theorem noticeAll_fresh (a : ℕ) (s : State) :
    (noticeAll a s).fresh = s.fresh := by simp [noticeAll]
@[simp] theorem noticeAll_pending (a : ℕ) (s : State) :
    (noticeAll a s).pending = s.pending := by simp [noticeAll]
@[simp] theorem fwSend_dev (a : Fin 16) (b : Msg) (s : State) :
    (fwSend a b s).dev = s.dev := by simp [fwSend]
@[simp] theorem fwSend_host (a : Fin 16) (b : Msg) (s : State) :
    (fwSend a b s).host = s.host := by simp [fwSend]
@[simp] theorem fwSend_dbl (a : Fin 16) (b : Msg) (s : State) :
    (fwSend a b s).dbl = s.dbl := by simp [fwSend]
@[simp] theorem fwSend_lck (a : Fin 16) (b : Msg) (s : State) :
    (fwSend a b s).lck = s.lck := by simp [fwSend]
@[simp] theorem fwSend_mgt (a : Fin 16) (b : Msg) (s : State) :
    (fwSend a b s).mgt = s.mgt := by simp [fwSend]
@[simp] theorem fwSend_sec (a : Fin 16) (b : Msg) (s : State) :
    (fwSend a b s).sec = s.sec := by simp [fwSend]
@[simp] theorem fwSend_pwr (a : Fin 16) (b : Msg) (s : State) :
    (fwSend a b s).pwr = s.pwr := by simp [fwSend]
@[simp] theorem fwSend_thm (a : Fin 16) (b : Msg) (s : State) :
    (fwSend a b s).thm = s.thm := by simp [fwSend]
@[simp] theorem fwSend_hbm (a : Fin 16) (b : Msg) (s : State) :
    (fwSend a b s).hbm = s.hbm := by simp [fwSend]
@[simp] theorem fwSend_comb (a : Fin 16) (b : Msg) (s : State) :
    (fwSend a b s).comb = s.comb := by simp [fwSend]
@[simp] theorem fwSend_site (a : Fin 16) (b : Msg) (s : State) :
    (fwSend a b s).site = s.site := by simp [fwSend]
@[simp] theorem fwSend_wide (a : Fin 16) (b : Msg) (s : State) :
    (fwSend a b s).wide = s.wide := by simp [fwSend]
@[simp] theorem fwSend_reach (a : Fin 16) (b : Msg) (s : State) :
    (fwSend a b s).reach = s.reach := by simp [fwSend]
@[simp] theorem fwSend_siteReg (a : Fin 16) (b : Msg) (s : State) :
    (fwSend a b s).siteReg = s.siteReg := by simp [fwSend]
@[simp] theorem fwSend_beam (a : Fin 16) (b : Msg) (s : State) :
    (fwSend a b s).beam = s.beam := by simp [fwSend]
@[simp] theorem fwSend_port (a : Fin 16) (b : Msg) (s : State) :
    (fwSend a b s).port = s.port := by simp [fwSend]
@[simp] theorem fwSend_pln (a : Fin 16) (b : Msg) (s : State) :
    (fwSend a b s).pln = s.pln := by simp [fwSend]
@[simp] theorem fwSend_ring (a : Fin 16) (b : Msg) (s : State) :
    (fwSend a b s).ring = s.ring := by simp [fwSend]
@[simp] theorem fwSend_img (a : Fin 16) (b : Msg) (s : State) :
    (fwSend a b s).img = s.img := by simp [fwSend]
@[simp] theorem fwSend_ctl (a : Fin 16) (b : Msg) (s : State) :
    (fwSend a b s).ctl = s.ctl := by simp [fwSend]
@[simp] theorem fwSend_sq (a : Fin 16) (b : Msg) (s : State) :
    (fwSend a b s).sq = s.sq := by simp [fwSend]
@[simp] theorem fwSend_ce (a : Fin 16) (b : Msg) (s : State) :
    (fwSend a b s).ce = s.ce := by simp [fwSend]
@[simp] theorem fwSend_time (a : Fin 16) (b : Msg) (s : State) :
    (fwSend a b s).time = s.time := by simp [fwSend]
@[simp] theorem fwSend_pending (a : Fin 16) (b : Msg) (s : State) :
    (fwSend a b s).pending = s.pending := by simp [fwSend]
@[simp] theorem imgReply_dev (a : ℕ) (b : BitVec 16) (c : ℕ) (d : List Word) (s : State) :
    (imgReply a b c d s).dev = s.dev := by simp [imgReply]
@[simp] theorem imgReply_host (a : ℕ) (b : BitVec 16) (c : ℕ) (d : List Word) (s : State) :
    (imgReply a b c d s).host = s.host := by simp [imgReply]
@[simp] theorem imgReply_dbl (a : ℕ) (b : BitVec 16) (c : ℕ) (d : List Word) (s : State) :
    (imgReply a b c d s).dbl = s.dbl := by simp [imgReply]
@[simp] theorem imgReply_lck (a : ℕ) (b : BitVec 16) (c : ℕ) (d : List Word) (s : State) :
    (imgReply a b c d s).lck = s.lck := by simp [imgReply]
@[simp] theorem imgReply_mgt (a : ℕ) (b : BitVec 16) (c : ℕ) (d : List Word) (s : State) :
    (imgReply a b c d s).mgt = s.mgt := by simp [imgReply]
@[simp] theorem imgReply_sec (a : ℕ) (b : BitVec 16) (c : ℕ) (d : List Word) (s : State) :
    (imgReply a b c d s).sec = s.sec := by simp [imgReply]
@[simp] theorem imgReply_pwr (a : ℕ) (b : BitVec 16) (c : ℕ) (d : List Word) (s : State) :
    (imgReply a b c d s).pwr = s.pwr := by simp [imgReply]
@[simp] theorem imgReply_thm (a : ℕ) (b : BitVec 16) (c : ℕ) (d : List Word) (s : State) :
    (imgReply a b c d s).thm = s.thm := by simp [imgReply]
@[simp] theorem imgReply_hbm (a : ℕ) (b : BitVec 16) (c : ℕ) (d : List Word) (s : State) :
    (imgReply a b c d s).hbm = s.hbm := by simp [imgReply]
@[simp] theorem imgReply_comb (a : ℕ) (b : BitVec 16) (c : ℕ) (d : List Word) (s : State) :
    (imgReply a b c d s).comb = s.comb := by simp [imgReply]
@[simp] theorem imgReply_site (a : ℕ) (b : BitVec 16) (c : ℕ) (d : List Word) (s : State) :
    (imgReply a b c d s).site = s.site := by simp [imgReply]
@[simp] theorem imgReply_wide (a : ℕ) (b : BitVec 16) (c : ℕ) (d : List Word) (s : State) :
    (imgReply a b c d s).wide = s.wide := by simp [imgReply]
@[simp] theorem imgReply_reach (a : ℕ) (b : BitVec 16) (c : ℕ) (d : List Word) (s : State) :
    (imgReply a b c d s).reach = s.reach := by simp [imgReply]
@[simp] theorem imgReply_siteReg (a : ℕ) (b : BitVec 16) (c : ℕ) (d : List Word) (s : State) :
    (imgReply a b c d s).siteReg = s.siteReg := by simp [imgReply]
@[simp] theorem imgReply_beam (a : ℕ) (b : BitVec 16) (c : ℕ) (d : List Word) (s : State) :
    (imgReply a b c d s).beam = s.beam := by simp [imgReply]
@[simp] theorem imgReply_port (a : ℕ) (b : BitVec 16) (c : ℕ) (d : List Word) (s : State) :
    (imgReply a b c d s).port = s.port := by simp [imgReply]
@[simp] theorem imgReply_pln (a : ℕ) (b : BitVec 16) (c : ℕ) (d : List Word) (s : State) :
    (imgReply a b c d s).pln = s.pln := by simp [imgReply]
@[simp] theorem imgReply_ring (a : ℕ) (b : BitVec 16) (c : ℕ) (d : List Word) (s : State) :
    (imgReply a b c d s).ring = s.ring := by simp [imgReply]
@[simp] theorem imgReply_img (a : ℕ) (b : BitVec 16) (c : ℕ) (d : List Word) (s : State) :
    (imgReply a b c d s).img = s.img := by simp [imgReply]
@[simp] theorem imgReply_ctl (a : ℕ) (b : BitVec 16) (c : ℕ) (d : List Word) (s : State) :
    (imgReply a b c d s).ctl = s.ctl := by simp [imgReply]
@[simp] theorem imgReply_sq (a : ℕ) (b : BitVec 16) (c : ℕ) (d : List Word) (s : State) :
    (imgReply a b c d s).sq = s.sq := by simp [imgReply]
@[simp] theorem imgReply_ce (a : ℕ) (b : BitVec 16) (c : ℕ) (d : List Word) (s : State) :
    (imgReply a b c d s).ce = s.ce := by simp [imgReply]
@[simp] theorem imgReply_time (a : ℕ) (b : BitVec 16) (c : ℕ) (d : List Word) (s : State) :
    (imgReply a b c d s).time = s.time := by simp [imgReply]
@[simp] theorem imgReply_pending (a : ℕ) (b : BitVec 16) (c : ℕ) (d : List Word) (s : State) :
    (imgReply a b c d s).pending = s.pending := by simp [imgReply]
@[simp] theorem i3cRespond_dev (a : Vector Word 16) (s : State) :
    (i3cRespond a s).dev = s.dev := by simp [i3cRespond]
@[simp] theorem i3cRespond_host (a : Vector Word 16) (s : State) :
    (i3cRespond a s).host = s.host := by simp [i3cRespond]
@[simp] theorem i3cRespond_mbx (a : Vector Word 16) (s : State) :
    (i3cRespond a s).mbx = s.mbx := by simp [i3cRespond]
@[simp] theorem i3cRespond_dbl (a : Vector Word 16) (s : State) :
    (i3cRespond a s).dbl = s.dbl := by simp [i3cRespond]
@[simp] theorem i3cRespond_lck (a : Vector Word 16) (s : State) :
    (i3cRespond a s).lck = s.lck := by simp [i3cRespond]
@[simp] theorem i3cRespond_err (a : Vector Word 16) (s : State) :
    (i3cRespond a s).err = s.err := by simp [i3cRespond]
@[simp] theorem i3cRespond_sec (a : Vector Word 16) (s : State) :
    (i3cRespond a s).sec = s.sec := by simp [i3cRespond]
@[simp] theorem i3cRespond_pwr (a : Vector Word 16) (s : State) :
    (i3cRespond a s).pwr = s.pwr := by simp [i3cRespond]
@[simp] theorem i3cRespond_thm (a : Vector Word 16) (s : State) :
    (i3cRespond a s).thm = s.thm := by simp [i3cRespond]
@[simp] theorem i3cRespond_hbm (a : Vector Word 16) (s : State) :
    (i3cRespond a s).hbm = s.hbm := by simp [i3cRespond]
@[simp] theorem i3cRespond_comb (a : Vector Word 16) (s : State) :
    (i3cRespond a s).comb = s.comb := by simp [i3cRespond]
@[simp] theorem i3cRespond_site (a : Vector Word 16) (s : State) :
    (i3cRespond a s).site = s.site := by simp [i3cRespond]
@[simp] theorem i3cRespond_wide (a : Vector Word 16) (s : State) :
    (i3cRespond a s).wide = s.wide := by simp [i3cRespond]
@[simp] theorem i3cRespond_reach (a : Vector Word 16) (s : State) :
    (i3cRespond a s).reach = s.reach := by simp [i3cRespond]
@[simp] theorem i3cRespond_siteReg (a : Vector Word 16) (s : State) :
    (i3cRespond a s).siteReg = s.siteReg := by simp [i3cRespond]
@[simp] theorem i3cRespond_beam (a : Vector Word 16) (s : State) :
    (i3cRespond a s).beam = s.beam := by simp [i3cRespond]
@[simp] theorem i3cRespond_port (a : Vector Word 16) (s : State) :
    (i3cRespond a s).port = s.port := by simp [i3cRespond]
@[simp] theorem i3cRespond_pln (a : Vector Word 16) (s : State) :
    (i3cRespond a s).pln = s.pln := by simp [i3cRespond]
@[simp] theorem i3cRespond_ring (a : Vector Word 16) (s : State) :
    (i3cRespond a s).ring = s.ring := by simp [i3cRespond]
@[simp] theorem i3cRespond_img (a : Vector Word 16) (s : State) :
    (i3cRespond a s).img = s.img := by simp [i3cRespond]
@[simp] theorem i3cRespond_ctl (a : Vector Word 16) (s : State) :
    (i3cRespond a s).ctl = s.ctl := by simp [i3cRespond]
@[simp] theorem i3cRespond_sq (a : Vector Word 16) (s : State) :
    (i3cRespond a s).sq = s.sq := by simp [i3cRespond]
@[simp] theorem i3cRespond_ce (a : Vector Word 16) (s : State) :
    (i3cRespond a s).ce = s.ce := by simp [i3cRespond]
@[simp] theorem i3cRespond_time (a : Vector Word 16) (s : State) :
    (i3cRespond a s).time = s.time := by simp [i3cRespond]
@[simp] theorem i3cRespond_fresh (a : Vector Word 16) (s : State) :
    (i3cRespond a s).fresh = s.fresh := by simp [i3cRespond]
@[simp] theorem i3cRespond_pending (a : Vector Word 16) (s : State) :
    (i3cRespond a s).pending = s.pending := by simp [i3cRespond]
@[simp] theorem mgtReply_dev (a : MgtPath) (b : ℕ) (c : BitVec 16) (d : ℕ) (e : List Word) (s : State) :
    (mgtReply a b c d e s).dev = s.dev := by
  unfold mgtReply
  (repeat' split) <;> simp
@[simp] theorem mgtReply_host (a : MgtPath) (b : ℕ) (c : BitVec 16) (d : ℕ) (e : List Word) (s : State) :
    (mgtReply a b c d e s).host = s.host := by
  unfold mgtReply
  (repeat' split) <;> simp
@[simp] theorem mgtReply_dbl (a : MgtPath) (b : ℕ) (c : BitVec 16) (d : ℕ) (e : List Word) (s : State) :
    (mgtReply a b c d e s).dbl = s.dbl := by
  unfold mgtReply
  (repeat' split) <;> simp
@[simp] theorem mgtReply_lck (a : MgtPath) (b : ℕ) (c : BitVec 16) (d : ℕ) (e : List Word) (s : State) :
    (mgtReply a b c d e s).lck = s.lck := by
  unfold mgtReply
  (repeat' split) <;> simp
@[simp] theorem mgtReply_sec (a : MgtPath) (b : ℕ) (c : BitVec 16) (d : ℕ) (e : List Word) (s : State) :
    (mgtReply a b c d e s).sec = s.sec := by
  unfold mgtReply
  (repeat' split) <;> simp
@[simp] theorem mgtReply_pwr (a : MgtPath) (b : ℕ) (c : BitVec 16) (d : ℕ) (e : List Word) (s : State) :
    (mgtReply a b c d e s).pwr = s.pwr := by
  unfold mgtReply
  (repeat' split) <;> simp
@[simp] theorem mgtReply_thm (a : MgtPath) (b : ℕ) (c : BitVec 16) (d : ℕ) (e : List Word) (s : State) :
    (mgtReply a b c d e s).thm = s.thm := by
  unfold mgtReply
  (repeat' split) <;> simp
@[simp] theorem mgtReply_hbm (a : MgtPath) (b : ℕ) (c : BitVec 16) (d : ℕ) (e : List Word) (s : State) :
    (mgtReply a b c d e s).hbm = s.hbm := by
  unfold mgtReply
  (repeat' split) <;> simp
@[simp] theorem mgtReply_comb (a : MgtPath) (b : ℕ) (c : BitVec 16) (d : ℕ) (e : List Word) (s : State) :
    (mgtReply a b c d e s).comb = s.comb := by
  unfold mgtReply
  (repeat' split) <;> simp
@[simp] theorem mgtReply_site (a : MgtPath) (b : ℕ) (c : BitVec 16) (d : ℕ) (e : List Word) (s : State) :
    (mgtReply a b c d e s).site = s.site := by
  unfold mgtReply
  (repeat' split) <;> simp
@[simp] theorem mgtReply_wide (a : MgtPath) (b : ℕ) (c : BitVec 16) (d : ℕ) (e : List Word) (s : State) :
    (mgtReply a b c d e s).wide = s.wide := by
  unfold mgtReply
  (repeat' split) <;> simp
@[simp] theorem mgtReply_reach (a : MgtPath) (b : ℕ) (c : BitVec 16) (d : ℕ) (e : List Word) (s : State) :
    (mgtReply a b c d e s).reach = s.reach := by
  unfold mgtReply
  (repeat' split) <;> simp
@[simp] theorem mgtReply_siteReg (a : MgtPath) (b : ℕ) (c : BitVec 16) (d : ℕ) (e : List Word) (s : State) :
    (mgtReply a b c d e s).siteReg = s.siteReg := by
  unfold mgtReply
  (repeat' split) <;> simp
@[simp] theorem mgtReply_beam (a : MgtPath) (b : ℕ) (c : BitVec 16) (d : ℕ) (e : List Word) (s : State) :
    (mgtReply a b c d e s).beam = s.beam := by
  unfold mgtReply
  (repeat' split) <;> simp
@[simp] theorem mgtReply_port (a : MgtPath) (b : ℕ) (c : BitVec 16) (d : ℕ) (e : List Word) (s : State) :
    (mgtReply a b c d e s).port = s.port := by
  unfold mgtReply
  (repeat' split) <;> simp
@[simp] theorem mgtReply_pln (a : MgtPath) (b : ℕ) (c : BitVec 16) (d : ℕ) (e : List Word) (s : State) :
    (mgtReply a b c d e s).pln = s.pln := by
  unfold mgtReply
  (repeat' split) <;> simp
@[simp] theorem mgtReply_ring (a : MgtPath) (b : ℕ) (c : BitVec 16) (d : ℕ) (e : List Word) (s : State) :
    (mgtReply a b c d e s).ring = s.ring := by
  unfold mgtReply
  (repeat' split) <;> simp
@[simp] theorem mgtReply_img (a : MgtPath) (b : ℕ) (c : BitVec 16) (d : ℕ) (e : List Word) (s : State) :
    (mgtReply a b c d e s).img = s.img := by
  unfold mgtReply
  (repeat' split) <;> simp
@[simp] theorem mgtReply_ctl (a : MgtPath) (b : ℕ) (c : BitVec 16) (d : ℕ) (e : List Word) (s : State) :
    (mgtReply a b c d e s).ctl = s.ctl := by
  unfold mgtReply
  (repeat' split) <;> simp
@[simp] theorem mgtReply_sq (a : MgtPath) (b : ℕ) (c : BitVec 16) (d : ℕ) (e : List Word) (s : State) :
    (mgtReply a b c d e s).sq = s.sq := by
  unfold mgtReply
  (repeat' split) <;> simp
@[simp] theorem mgtReply_ce (a : MgtPath) (b : ℕ) (c : BitVec 16) (d : ℕ) (e : List Word) (s : State) :
    (mgtReply a b c d e s).ce = s.ce := by
  unfold mgtReply
  (repeat' split) <;> simp
@[simp] theorem mgtReply_time (a : MgtPath) (b : ℕ) (c : BitVec 16) (d : ℕ) (e : List Word) (s : State) :
    (mgtReply a b c d e s).time = s.time := by
  unfold mgtReply
  (repeat' split) <;> simp
@[simp] theorem mgtReply_pending (a : MgtPath) (b : ℕ) (c : BitVec 16) (d : ℕ) (e : List Word) (s : State) :
    (mgtReply a b c d e s).pending = s.pending := by
  unfold mgtReply
  (repeat' split) <;> simp
@[simp] theorem abortEpoch_dev (s : State) :
    (abortEpoch s).dev = s.dev := by simp [abortEpoch]
@[simp] theorem abortEpoch_host (s : State) :
    (abortEpoch s).host = s.host := by simp [abortEpoch]
@[simp] theorem abortEpoch_mbx (s : State) :
    (abortEpoch s).mbx = s.mbx := by simp [abortEpoch]
@[simp] theorem abortEpoch_dbl (s : State) :
    (abortEpoch s).dbl = s.dbl := by simp [abortEpoch]
@[simp] theorem abortEpoch_lck (s : State) :
    (abortEpoch s).lck = s.lck := by simp [abortEpoch]
@[simp] theorem abortEpoch_err (s : State) :
    (abortEpoch s).err = s.err := by simp [abortEpoch]
@[simp] theorem abortEpoch_mgt (s : State) :
    (abortEpoch s).mgt = s.mgt := by simp [abortEpoch]
@[simp] theorem abortEpoch_sec (s : State) :
    (abortEpoch s).sec = s.sec := by simp [abortEpoch]
@[simp] theorem abortEpoch_pwr (s : State) :
    (abortEpoch s).pwr = s.pwr := by simp [abortEpoch]
@[simp] theorem abortEpoch_thm (s : State) :
    (abortEpoch s).thm = s.thm := by simp [abortEpoch]
@[simp] theorem abortEpoch_hbm (s : State) :
    (abortEpoch s).hbm = s.hbm := by simp [abortEpoch]
@[simp] theorem abortEpoch_comb (s : State) :
    (abortEpoch s).comb = s.comb := by simp [abortEpoch]
@[simp] theorem abortEpoch_wide (s : State) :
    (abortEpoch s).wide = s.wide := by simp [abortEpoch]
@[simp] theorem abortEpoch_reach (s : State) :
    (abortEpoch s).reach = s.reach := by simp [abortEpoch]
@[simp] theorem abortEpoch_siteReg (s : State) :
    (abortEpoch s).siteReg = s.siteReg := by simp [abortEpoch]
@[simp] theorem abortEpoch_port (s : State) :
    (abortEpoch s).port = s.port := by simp [abortEpoch]
@[simp] theorem abortEpoch_pln (s : State) :
    (abortEpoch s).pln = s.pln := by simp [abortEpoch]
@[simp] theorem abortEpoch_ring (s : State) :
    (abortEpoch s).ring = s.ring := by simp [abortEpoch]
@[simp] theorem abortEpoch_img (s : State) :
    (abortEpoch s).img = s.img := by simp [abortEpoch]
@[simp] theorem abortEpoch_time (s : State) :
    (abortEpoch s).time = s.time := by simp [abortEpoch]
@[simp] theorem abortEpoch_out (s : State) :
    (abortEpoch s).out = s.out := by simp [abortEpoch]
@[simp] theorem abortEpoch_fresh (s : State) :
    (abortEpoch s).fresh = s.fresh := by simp [abortEpoch]
@[simp] theorem abortEpoch_pending (s : State) :
    (abortEpoch s).pending = s.pending := by simp [abortEpoch]
@[simp] theorem abortFenced_dev (s : State) :
    (abortFenced s).dev = s.dev := by
  unfold abortFenced
  (repeat' split) <;> simp
@[simp] theorem abortFenced_host (s : State) :
    (abortFenced s).host = s.host := by
  unfold abortFenced
  (repeat' split) <;> simp
@[simp] theorem abortFenced_mbx (s : State) :
    (abortFenced s).mbx = s.mbx := by
  unfold abortFenced
  (repeat' split) <;> simp
@[simp] theorem abortFenced_dbl (s : State) :
    (abortFenced s).dbl = s.dbl := by
  unfold abortFenced
  (repeat' split) <;> simp
@[simp] theorem abortFenced_lck (s : State) :
    (abortFenced s).lck = s.lck := by
  unfold abortFenced
  (repeat' split) <;> simp
@[simp] theorem abortFenced_err (s : State) :
    (abortFenced s).err = s.err := by
  unfold abortFenced
  (repeat' split) <;> simp
@[simp] theorem abortFenced_mgt (s : State) :
    (abortFenced s).mgt = s.mgt := by
  unfold abortFenced
  (repeat' split) <;> simp
@[simp] theorem abortFenced_sec (s : State) :
    (abortFenced s).sec = s.sec := by
  unfold abortFenced
  (repeat' split) <;> simp
@[simp] theorem abortFenced_pwr (s : State) :
    (abortFenced s).pwr = s.pwr := by
  unfold abortFenced
  (repeat' split) <;> simp
@[simp] theorem abortFenced_thm (s : State) :
    (abortFenced s).thm = s.thm := by
  unfold abortFenced
  (repeat' split) <;> simp
@[simp] theorem abortFenced_hbm (s : State) :
    (abortFenced s).hbm = s.hbm := by
  unfold abortFenced
  (repeat' split) <;> simp
@[simp] theorem abortFenced_comb (s : State) :
    (abortFenced s).comb = s.comb := by
  unfold abortFenced
  (repeat' split) <;> simp
@[simp] theorem abortFenced_wide (s : State) :
    (abortFenced s).wide = s.wide := by
  unfold abortFenced
  (repeat' split) <;> simp
@[simp] theorem abortFenced_reach (s : State) :
    (abortFenced s).reach = s.reach := by
  unfold abortFenced
  (repeat' split) <;> simp
@[simp] theorem abortFenced_siteReg (s : State) :
    (abortFenced s).siteReg = s.siteReg := by
  unfold abortFenced
  (repeat' split) <;> simp
@[simp] theorem abortFenced_port (s : State) :
    (abortFenced s).port = s.port := by
  unfold abortFenced
  (repeat' split) <;> simp
@[simp] theorem abortFenced_pln (s : State) :
    (abortFenced s).pln = s.pln := by
  unfold abortFenced
  (repeat' split) <;> simp
@[simp] theorem abortFenced_ring (s : State) :
    (abortFenced s).ring = s.ring := by
  unfold abortFenced
  (repeat' split) <;> simp
@[simp] theorem abortFenced_img (s : State) :
    (abortFenced s).img = s.img := by
  unfold abortFenced
  (repeat' split) <;> simp
@[simp] theorem abortFenced_time (s : State) :
    (abortFenced s).time = s.time := by
  unfold abortFenced
  (repeat' split) <;> simp
@[simp] theorem abortFenced_out (s : State) :
    (abortFenced s).out = s.out := by
  unfold abortFenced
  (repeat' split) <;> simp
@[simp] theorem abortFenced_fresh (s : State) :
    (abortFenced s).fresh = s.fresh := by
  unfold abortFenced
  (repeat' split) <;> simp
@[simp] theorem abortFenced_pending (s : State) :
    (abortFenced s).pending = s.pending := by
  unfold abortFenced
  (repeat' split) <;> simp
@[simp] theorem abortIf_dev (a : Bool) (s : State) :
    (abortIf a s).dev = s.dev := by simp [abortIf]
@[simp] theorem abortIf_host (a : Bool) (s : State) :
    (abortIf a s).host = s.host := by simp [abortIf]
@[simp] theorem abortIf_mbx (a : Bool) (s : State) :
    (abortIf a s).mbx = s.mbx := by simp [abortIf]
@[simp] theorem abortIf_dbl (a : Bool) (s : State) :
    (abortIf a s).dbl = s.dbl := by simp [abortIf]
@[simp] theorem abortIf_lck (a : Bool) (s : State) :
    (abortIf a s).lck = s.lck := by simp [abortIf]
@[simp] theorem abortIf_err (a : Bool) (s : State) :
    (abortIf a s).err = s.err := by simp [abortIf]
@[simp] theorem abortIf_mgt (a : Bool) (s : State) :
    (abortIf a s).mgt = s.mgt := by simp [abortIf]
@[simp] theorem abortIf_sec (a : Bool) (s : State) :
    (abortIf a s).sec = s.sec := by simp [abortIf]
@[simp] theorem abortIf_pwr (a : Bool) (s : State) :
    (abortIf a s).pwr = s.pwr := by simp [abortIf]
@[simp] theorem abortIf_thm (a : Bool) (s : State) :
    (abortIf a s).thm = s.thm := by simp [abortIf]
@[simp] theorem abortIf_hbm (a : Bool) (s : State) :
    (abortIf a s).hbm = s.hbm := by simp [abortIf]
@[simp] theorem abortIf_comb (a : Bool) (s : State) :
    (abortIf a s).comb = s.comb := by simp [abortIf]
@[simp] theorem abortIf_wide (a : Bool) (s : State) :
    (abortIf a s).wide = s.wide := by simp [abortIf]
@[simp] theorem abortIf_reach (a : Bool) (s : State) :
    (abortIf a s).reach = s.reach := by simp [abortIf]
@[simp] theorem abortIf_siteReg (a : Bool) (s : State) :
    (abortIf a s).siteReg = s.siteReg := by simp [abortIf]
@[simp] theorem abortIf_port (a : Bool) (s : State) :
    (abortIf a s).port = s.port := by simp [abortIf]
@[simp] theorem abortIf_pln (a : Bool) (s : State) :
    (abortIf a s).pln = s.pln := by simp [abortIf]
@[simp] theorem abortIf_ring (a : Bool) (s : State) :
    (abortIf a s).ring = s.ring := by simp [abortIf]
@[simp] theorem abortIf_img (a : Bool) (s : State) :
    (abortIf a s).img = s.img := by simp [abortIf]
@[simp] theorem abortIf_time (a : Bool) (s : State) :
    (abortIf a s).time = s.time := by simp [abortIf]
@[simp] theorem abortIf_out (a : Bool) (s : State) :
    (abortIf a s).out = s.out := by simp [abortIf]
@[simp] theorem abortIf_fresh (a : Bool) (s : State) :
    (abortIf a s).fresh = s.fresh := by simp [abortIf]
@[simp] theorem abortIf_pending (a : Bool) (s : State) :
    (abortIf a s).pending = s.pending := by simp [abortIf]
@[simp] theorem clearSiteChannels_dev (a : SiteIx) (s : State) :
    (clearSiteChannels a s).dev = s.dev := by simp [clearSiteChannels]
@[simp] theorem clearSiteChannels_host (a : SiteIx) (s : State) :
    (clearSiteChannels a s).host = s.host := by simp [clearSiteChannels]
@[simp] theorem clearSiteChannels_dbl (a : SiteIx) (s : State) :
    (clearSiteChannels a s).dbl = s.dbl := by simp [clearSiteChannels]
@[simp] theorem clearSiteChannels_mgt (a : SiteIx) (s : State) :
    (clearSiteChannels a s).mgt = s.mgt := by simp [clearSiteChannels]
@[simp] theorem clearSiteChannels_sec (a : SiteIx) (s : State) :
    (clearSiteChannels a s).sec = s.sec := by simp [clearSiteChannels]
@[simp] theorem clearSiteChannels_pwr (a : SiteIx) (s : State) :
    (clearSiteChannels a s).pwr = s.pwr := by simp [clearSiteChannels]
@[simp] theorem clearSiteChannels_thm (a : SiteIx) (s : State) :
    (clearSiteChannels a s).thm = s.thm := by simp [clearSiteChannels]
@[simp] theorem clearSiteChannels_hbm (a : SiteIx) (s : State) :
    (clearSiteChannels a s).hbm = s.hbm := by simp [clearSiteChannels]
@[simp] theorem clearSiteChannels_comb (a : SiteIx) (s : State) :
    (clearSiteChannels a s).comb = s.comb := by simp [clearSiteChannels]
@[simp] theorem clearSiteChannels_site (a : SiteIx) (s : State) :
    (clearSiteChannels a s).site = s.site := by simp [clearSiteChannels]
@[simp] theorem clearSiteChannels_wide (a : SiteIx) (s : State) :
    (clearSiteChannels a s).wide = s.wide := by simp [clearSiteChannels]
@[simp] theorem clearSiteChannels_reach (a : SiteIx) (s : State) :
    (clearSiteChannels a s).reach = s.reach := by simp [clearSiteChannels]
@[simp] theorem clearSiteChannels_siteReg (a : SiteIx) (s : State) :
    (clearSiteChannels a s).siteReg = s.siteReg := by simp [clearSiteChannels]
@[simp] theorem clearSiteChannels_beam (a : SiteIx) (s : State) :
    (clearSiteChannels a s).beam = s.beam := by simp [clearSiteChannels]
@[simp] theorem clearSiteChannels_port (a : SiteIx) (s : State) :
    (clearSiteChannels a s).port = s.port := by simp [clearSiteChannels]
@[simp] theorem clearSiteChannels_pln (a : SiteIx) (s : State) :
    (clearSiteChannels a s).pln = s.pln := by simp [clearSiteChannels]
@[simp] theorem clearSiteChannels_ring (a : SiteIx) (s : State) :
    (clearSiteChannels a s).ring = s.ring := by simp [clearSiteChannels]
@[simp] theorem clearSiteChannels_img (a : SiteIx) (s : State) :
    (clearSiteChannels a s).img = s.img := by simp [clearSiteChannels]
@[simp] theorem clearSiteChannels_ctl (a : SiteIx) (s : State) :
    (clearSiteChannels a s).ctl = s.ctl := by simp [clearSiteChannels]
@[simp] theorem clearSiteChannels_sq (a : SiteIx) (s : State) :
    (clearSiteChannels a s).sq = s.sq := by simp [clearSiteChannels]
@[simp] theorem clearSiteChannels_ce (a : SiteIx) (s : State) :
    (clearSiteChannels a s).ce = s.ce := by simp [clearSiteChannels]
@[simp] theorem clearSiteChannels_time (a : SiteIx) (s : State) :
    (clearSiteChannels a s).time = s.time := by simp [clearSiteChannels]
@[simp] theorem clearSiteChannels_pending (a : SiteIx) (s : State) :
    (clearSiteChannels a s).pending = s.pending := by simp [clearSiteChannels]
@[simp] theorem containSite_host (a : SiteIx) (b : ℕ) (c : ℕ) (s : State) :
    (containSite a b c s).host = s.host := by simp [containSite]
@[simp] theorem containSite_comb (a : SiteIx) (b : ℕ) (c : ℕ) (s : State) :
    (containSite a b c s).comb = s.comb := by simp [containSite]
@[simp] theorem containSite_wide (a : SiteIx) (b : ℕ) (c : ℕ) (s : State) :
    (containSite a b c s).wide = s.wide := by simp [containSite]
@[simp] theorem containSite_reach (a : SiteIx) (b : ℕ) (c : ℕ) (s : State) :
    (containSite a b c s).reach = s.reach := by simp [containSite]
@[simp] theorem containSite_siteReg (a : SiteIx) (b : ℕ) (c : ℕ) (s : State) :
    (containSite a b c s).siteReg = s.siteReg := by simp [containSite]
@[simp] theorem containSite_ring (a : SiteIx) (b : ℕ) (c : ℕ) (s : State) :
    (containSite a b c s).ring = s.ring := by simp [containSite]
@[simp] theorem containSite_img (a : SiteIx) (b : ℕ) (c : ℕ) (s : State) :
    (containSite a b c s).img = s.img := by simp [containSite]
@[simp] theorem containSite_time (a : SiteIx) (b : ℕ) (c : ℕ) (s : State) :
    (containSite a b c s).time = s.time := by simp [containSite]
@[simp] theorem containSite_pending (a : SiteIx) (b : ℕ) (c : ℕ) (s : State) :
    (containSite a b c s).pending = s.pending := by simp [containSite]
@[simp] theorem containStreams_dev (a : SiteIx) (b : ℕ) (c : ℕ) (s : State) :
    (containStreams a b c s).dev = s.dev := by simp [containStreams]
@[simp] theorem containStreams_host (a : SiteIx) (b : ℕ) (c : ℕ) (s : State) :
    (containStreams a b c s).host = s.host := by simp [containStreams]
@[simp] theorem containStreams_mbx (a : SiteIx) (b : ℕ) (c : ℕ) (s : State) :
    (containStreams a b c s).mbx = s.mbx := by simp [containStreams]
@[simp] theorem containStreams_dbl (a : SiteIx) (b : ℕ) (c : ℕ) (s : State) :
    (containStreams a b c s).dbl = s.dbl := by simp [containStreams]
@[simp] theorem containStreams_lck (a : SiteIx) (b : ℕ) (c : ℕ) (s : State) :
    (containStreams a b c s).lck = s.lck := by simp [containStreams]
@[simp] theorem containStreams_mgt (a : SiteIx) (b : ℕ) (c : ℕ) (s : State) :
    (containStreams a b c s).mgt = s.mgt := by simp [containStreams]
@[simp] theorem containStreams_sec (a : SiteIx) (b : ℕ) (c : ℕ) (s : State) :
    (containStreams a b c s).sec = s.sec := by simp [containStreams]
@[simp] theorem containStreams_pwr (a : SiteIx) (b : ℕ) (c : ℕ) (s : State) :
    (containStreams a b c s).pwr = s.pwr := by simp [containStreams]
@[simp] theorem containStreams_thm (a : SiteIx) (b : ℕ) (c : ℕ) (s : State) :
    (containStreams a b c s).thm = s.thm := by simp [containStreams]
@[simp] theorem containStreams_hbm (a : SiteIx) (b : ℕ) (c : ℕ) (s : State) :
    (containStreams a b c s).hbm = s.hbm := by simp [containStreams]
@[simp] theorem containStreams_comb (a : SiteIx) (b : ℕ) (c : ℕ) (s : State) :
    (containStreams a b c s).comb = s.comb := by simp [containStreams]
@[simp] theorem containStreams_wide (a : SiteIx) (b : ℕ) (c : ℕ) (s : State) :
    (containStreams a b c s).wide = s.wide := by simp [containStreams]
@[simp] theorem containStreams_reach (a : SiteIx) (b : ℕ) (c : ℕ) (s : State) :
    (containStreams a b c s).reach = s.reach := by simp [containStreams]
@[simp] theorem containStreams_siteReg (a : SiteIx) (b : ℕ) (c : ℕ) (s : State) :
    (containStreams a b c s).siteReg = s.siteReg := by simp [containStreams]
@[simp] theorem containStreams_port (a : SiteIx) (b : ℕ) (c : ℕ) (s : State) :
    (containStreams a b c s).port = s.port := by simp [containStreams]
@[simp] theorem containStreams_pln (a : SiteIx) (b : ℕ) (c : ℕ) (s : State) :
    (containStreams a b c s).pln = s.pln := by simp [containStreams]
@[simp] theorem containStreams_ring (a : SiteIx) (b : ℕ) (c : ℕ) (s : State) :
    (containStreams a b c s).ring = s.ring := by simp [containStreams]
@[simp] theorem containStreams_img (a : SiteIx) (b : ℕ) (c : ℕ) (s : State) :
    (containStreams a b c s).img = s.img := by simp [containStreams]
@[simp] theorem containStreams_time (a : SiteIx) (b : ℕ) (c : ℕ) (s : State) :
    (containStreams a b c s).time = s.time := by simp [containStreams]
@[simp] theorem containStreams_out (a : SiteIx) (b : ℕ) (c : ℕ) (s : State) :
    (containStreams a b c s).out = s.out := by simp [containStreams]
@[simp] theorem containStreams_pending (a : SiteIx) (b : ℕ) (c : ℕ) (s : State) :
    (containStreams a b c s).pending = s.pending := by simp [containStreams]
@[simp] theorem breakBeam_host (a : Beam) (s : State) :
    (breakBeam a s).host = s.host := by simp [breakBeam]
@[simp] theorem breakBeam_mbx (a : Beam) (s : State) :
    (breakBeam a s).mbx = s.mbx := by simp [breakBeam]
@[simp] theorem breakBeam_lck (a : Beam) (s : State) :
    (breakBeam a s).lck = s.lck := by simp [breakBeam]
@[simp] theorem breakBeam_comb (a : Beam) (s : State) :
    (breakBeam a s).comb = s.comb := by simp [breakBeam]
@[simp] theorem breakBeam_wide (a : Beam) (s : State) :
    (breakBeam a s).wide = s.wide := by simp [breakBeam]
@[simp] theorem breakBeam_reach (a : Beam) (s : State) :
    (breakBeam a s).reach = s.reach := by simp [breakBeam]
@[simp] theorem breakBeam_siteReg (a : Beam) (s : State) :
    (breakBeam a s).siteReg = s.siteReg := by simp [breakBeam]
@[simp] theorem breakBeam_ring (a : Beam) (s : State) :
    (breakBeam a s).ring = s.ring := by simp [breakBeam]
@[simp] theorem breakBeam_img (a : Beam) (s : State) :
    (breakBeam a s).img = s.img := by simp [breakBeam]
@[simp] theorem breakBeam_time (a : Beam) (s : State) :
    (breakBeam a s).time = s.time := by simp [breakBeam]
@[simp] theorem breakBeam_pending (a : Beam) (s : State) :
    (breakBeam a s).pending = s.pending := by simp [breakBeam]
@[simp] theorem endSubs_dev (a : Port) (s : State) :
    (endSubs a s).dev = s.dev := by simp [endSubs]
@[simp] theorem endSubs_host (a : Port) (s : State) :
    (endSubs a s).host = s.host := by simp [endSubs]
@[simp] theorem endSubs_mbx (a : Port) (s : State) :
    (endSubs a s).mbx = s.mbx := by simp [endSubs]
@[simp] theorem endSubs_dbl (a : Port) (s : State) :
    (endSubs a s).dbl = s.dbl := by simp [endSubs]
@[simp] theorem endSubs_lck (a : Port) (s : State) :
    (endSubs a s).lck = s.lck := by simp [endSubs]
@[simp] theorem endSubs_mgt (a : Port) (s : State) :
    (endSubs a s).mgt = s.mgt := by simp [endSubs]
@[simp] theorem endSubs_sec (a : Port) (s : State) :
    (endSubs a s).sec = s.sec := by simp [endSubs]
@[simp] theorem endSubs_pwr (a : Port) (s : State) :
    (endSubs a s).pwr = s.pwr := by simp [endSubs]
@[simp] theorem endSubs_thm (a : Port) (s : State) :
    (endSubs a s).thm = s.thm := by simp [endSubs]
@[simp] theorem endSubs_hbm (a : Port) (s : State) :
    (endSubs a s).hbm = s.hbm := by simp [endSubs]
@[simp] theorem endSubs_comb (a : Port) (s : State) :
    (endSubs a s).comb = s.comb := by simp [endSubs]
@[simp] theorem endSubs_site (a : Port) (s : State) :
    (endSubs a s).site = s.site := by simp [endSubs]
@[simp] theorem endSubs_wide (a : Port) (s : State) :
    (endSubs a s).wide = s.wide := by simp [endSubs]
@[simp] theorem endSubs_reach (a : Port) (s : State) :
    (endSubs a s).reach = s.reach := by simp [endSubs]
@[simp] theorem endSubs_siteReg (a : Port) (s : State) :
    (endSubs a s).siteReg = s.siteReg := by simp [endSubs]
@[simp] theorem endSubs_beam (a : Port) (s : State) :
    (endSubs a s).beam = s.beam := by simp [endSubs]
@[simp] theorem endSubs_port (a : Port) (s : State) :
    (endSubs a s).port = s.port := by simp [endSubs]
@[simp] theorem endSubs_pln (a : Port) (s : State) :
    (endSubs a s).pln = s.pln := by simp [endSubs]
@[simp] theorem endSubs_ring (a : Port) (s : State) :
    (endSubs a s).ring = s.ring := by simp [endSubs]
@[simp] theorem endSubs_img (a : Port) (s : State) :
    (endSubs a s).img = s.img := by simp [endSubs]
@[simp] theorem endSubs_ctl (a : Port) (s : State) :
    (endSubs a s).ctl = s.ctl := by simp [endSubs]
@[simp] theorem endSubs_sq (a : Port) (s : State) :
    (endSubs a s).sq = s.sq := by simp [endSubs]
@[simp] theorem endSubs_ce (a : Port) (s : State) :
    (endSubs a s).ce = s.ce := by simp [endSubs]
@[simp] theorem endSubs_time (a : Port) (s : State) :
    (endSubs a s).time = s.time := by simp [endSubs]
@[simp] theorem endSubs_out (a : Port) (s : State) :
    (endSubs a s).out = s.out := by simp [endSubs]
@[simp] theorem endSubs_pending (a : Port) (s : State) :
    (endSubs a s).pending = s.pending := by simp [endSubs]
@[simp] theorem echoUncorr_dev (s : State) :
    (echoUncorr s).dev = s.dev := by simp [echoUncorr]
@[simp] theorem echoUncorr_host (s : State) :
    (echoUncorr s).host = s.host := by simp [echoUncorr]
@[simp] theorem echoUncorr_mbx (s : State) :
    (echoUncorr s).mbx = s.mbx := by simp [echoUncorr]
@[simp] theorem echoUncorr_dbl (s : State) :
    (echoUncorr s).dbl = s.dbl := by simp [echoUncorr]
@[simp] theorem echoUncorr_lck (s : State) :
    (echoUncorr s).lck = s.lck := by simp [echoUncorr]
@[simp] theorem echoUncorr_err (s : State) :
    (echoUncorr s).err = s.err := by simp [echoUncorr]
@[simp] theorem echoUncorr_mgt (s : State) :
    (echoUncorr s).mgt = s.mgt := by simp [echoUncorr]
@[simp] theorem echoUncorr_sec (s : State) :
    (echoUncorr s).sec = s.sec := by simp [echoUncorr]
@[simp] theorem echoUncorr_pwr (s : State) :
    (echoUncorr s).pwr = s.pwr := by simp [echoUncorr]
@[simp] theorem echoUncorr_thm (s : State) :
    (echoUncorr s).thm = s.thm := by simp [echoUncorr]
@[simp] theorem echoUncorr_hbm (s : State) :
    (echoUncorr s).hbm = s.hbm := by simp [echoUncorr]
@[simp] theorem echoUncorr_comb (s : State) :
    (echoUncorr s).comb = s.comb := by simp [echoUncorr]
@[simp] theorem echoUncorr_site (s : State) :
    (echoUncorr s).site = s.site := by simp [echoUncorr]
@[simp] theorem echoUncorr_wide (s : State) :
    (echoUncorr s).wide = s.wide := by simp [echoUncorr]
@[simp] theorem echoUncorr_reach (s : State) :
    (echoUncorr s).reach = s.reach := by simp [echoUncorr]
@[simp] theorem echoUncorr_siteReg (s : State) :
    (echoUncorr s).siteReg = s.siteReg := by simp [echoUncorr]
@[simp] theorem echoUncorr_beam (s : State) :
    (echoUncorr s).beam = s.beam := by simp [echoUncorr]
@[simp] theorem echoUncorr_pln (s : State) :
    (echoUncorr s).pln = s.pln := by simp [echoUncorr]
@[simp] theorem echoUncorr_ring (s : State) :
    (echoUncorr s).ring = s.ring := by simp [echoUncorr]
@[simp] theorem echoUncorr_img (s : State) :
    (echoUncorr s).img = s.img := by simp [echoUncorr]
@[simp] theorem echoUncorr_ctl (s : State) :
    (echoUncorr s).ctl = s.ctl := by simp [echoUncorr]
@[simp] theorem echoUncorr_sq (s : State) :
    (echoUncorr s).sq = s.sq := by simp [echoUncorr]
@[simp] theorem echoUncorr_ce (s : State) :
    (echoUncorr s).ce = s.ce := by simp [echoUncorr]
@[simp] theorem echoUncorr_time (s : State) :
    (echoUncorr s).time = s.time := by simp [echoUncorr]
@[simp] theorem echoUncorr_out (s : State) :
    (echoUncorr s).out = s.out := by simp [echoUncorr]
@[simp] theorem echoUncorr_pending (s : State) :
    (echoUncorr s).pending = s.pending := by simp [echoUncorr]
@[simp] theorem endEcho_host (s : State) :
    (endEcho s).host = s.host := by simp [endEcho]
@[simp] theorem endEcho_mbx (s : State) :
    (endEcho s).mbx = s.mbx := by simp [endEcho]
@[simp] theorem endEcho_lck (s : State) :
    (endEcho s).lck = s.lck := by simp [endEcho]
@[simp] theorem endEcho_comb (s : State) :
    (endEcho s).comb = s.comb := by simp [endEcho]
@[simp] theorem endEcho_wide (s : State) :
    (endEcho s).wide = s.wide := by simp [endEcho]
@[simp] theorem endEcho_reach (s : State) :
    (endEcho s).reach = s.reach := by simp [endEcho]
@[simp] theorem endEcho_siteReg (s : State) :
    (endEcho s).siteReg = s.siteReg := by simp [endEcho]
@[simp] theorem endEcho_beam (s : State) :
    (endEcho s).beam = s.beam := by simp [endEcho]
@[simp] theorem endEcho_ring (s : State) :
    (endEcho s).ring = s.ring := by simp [endEcho]
@[simp] theorem endEcho_img (s : State) :
    (endEcho s).img = s.img := by simp [endEcho]
@[simp] theorem endEcho_ctl (s : State) :
    (endEcho s).ctl = s.ctl := by simp [endEcho]
@[simp] theorem endEcho_time (s : State) :
    (endEcho s).time = s.time := by simp [endEcho]
@[simp] theorem endEcho_pending (s : State) :
    (endEcho s).pending = s.pending := by simp [endEcho]
@[simp] theorem endEchoPort_host (a : Port) (s : State) :
    (endEchoPort a s).host = s.host := by simp [endEchoPort]
@[simp] theorem endEchoPort_mbx (a : Port) (s : State) :
    (endEchoPort a s).mbx = s.mbx := by simp [endEchoPort]
@[simp] theorem endEchoPort_lck (a : Port) (s : State) :
    (endEchoPort a s).lck = s.lck := by simp [endEchoPort]
@[simp] theorem endEchoPort_comb (a : Port) (s : State) :
    (endEchoPort a s).comb = s.comb := by simp [endEchoPort]
@[simp] theorem endEchoPort_wide (a : Port) (s : State) :
    (endEchoPort a s).wide = s.wide := by simp [endEchoPort]
@[simp] theorem endEchoPort_reach (a : Port) (s : State) :
    (endEchoPort a s).reach = s.reach := by simp [endEchoPort]
@[simp] theorem endEchoPort_siteReg (a : Port) (s : State) :
    (endEchoPort a s).siteReg = s.siteReg := by simp [endEchoPort]
@[simp] theorem endEchoPort_beam (a : Port) (s : State) :
    (endEchoPort a s).beam = s.beam := by simp [endEchoPort]
@[simp] theorem endEchoPort_ring (a : Port) (s : State) :
    (endEchoPort a s).ring = s.ring := by simp [endEchoPort]
@[simp] theorem endEchoPort_img (a : Port) (s : State) :
    (endEchoPort a s).img = s.img := by simp [endEchoPort]
@[simp] theorem endEchoPort_ctl (a : Port) (s : State) :
    (endEchoPort a s).ctl = s.ctl := by simp [endEchoPort]
@[simp] theorem endEchoPort_time (a : Port) (s : State) :
    (endEchoPort a s).time = s.time := by simp [endEchoPort]
@[simp] theorem endEchoPort_pending (a : Port) (s : State) :
    (endEchoPort a s).pending = s.pending := by simp [endEchoPort]
@[simp] theorem endEchoSite_host (a : SiteIx) (s : State) :
    (endEchoSite a s).host = s.host := by simp [endEchoSite]
@[simp] theorem endEchoSite_mbx (a : SiteIx) (s : State) :
    (endEchoSite a s).mbx = s.mbx := by simp [endEchoSite]
@[simp] theorem endEchoSite_lck (a : SiteIx) (s : State) :
    (endEchoSite a s).lck = s.lck := by simp [endEchoSite]
@[simp] theorem endEchoSite_comb (a : SiteIx) (s : State) :
    (endEchoSite a s).comb = s.comb := by simp [endEchoSite]
@[simp] theorem endEchoSite_wide (a : SiteIx) (s : State) :
    (endEchoSite a s).wide = s.wide := by simp [endEchoSite]
@[simp] theorem endEchoSite_reach (a : SiteIx) (s : State) :
    (endEchoSite a s).reach = s.reach := by simp [endEchoSite]
@[simp] theorem endEchoSite_siteReg (a : SiteIx) (s : State) :
    (endEchoSite a s).siteReg = s.siteReg := by simp [endEchoSite]
@[simp] theorem endEchoSite_beam (a : SiteIx) (s : State) :
    (endEchoSite a s).beam = s.beam := by simp [endEchoSite]
@[simp] theorem endEchoSite_ring (a : SiteIx) (s : State) :
    (endEchoSite a s).ring = s.ring := by simp [endEchoSite]
@[simp] theorem endEchoSite_img (a : SiteIx) (s : State) :
    (endEchoSite a s).img = s.img := by simp [endEchoSite]
@[simp] theorem endEchoSite_ctl (a : SiteIx) (s : State) :
    (endEchoSite a s).ctl = s.ctl := by simp [endEchoSite]
@[simp] theorem endEchoSite_time (a : SiteIx) (s : State) :
    (endEchoSite a s).time = s.time := by simp [endEchoSite]
@[simp] theorem endEchoSite_pending (a : SiteIx) (s : State) :
    (endEchoSite a s).pending = s.pending := by simp [endEchoSite]
@[simp] theorem endEchoFibre_host (a : Port) (s : State) :
    (endEchoFibre a s).host = s.host := by simp [endEchoFibre]
@[simp] theorem endEchoFibre_mbx (a : Port) (s : State) :
    (endEchoFibre a s).mbx = s.mbx := by simp [endEchoFibre]
@[simp] theorem endEchoFibre_lck (a : Port) (s : State) :
    (endEchoFibre a s).lck = s.lck := by simp [endEchoFibre]
@[simp] theorem endEchoFibre_comb (a : Port) (s : State) :
    (endEchoFibre a s).comb = s.comb := by simp [endEchoFibre]
@[simp] theorem endEchoFibre_wide (a : Port) (s : State) :
    (endEchoFibre a s).wide = s.wide := by simp [endEchoFibre]
@[simp] theorem endEchoFibre_reach (a : Port) (s : State) :
    (endEchoFibre a s).reach = s.reach := by simp [endEchoFibre]
@[simp] theorem endEchoFibre_siteReg (a : Port) (s : State) :
    (endEchoFibre a s).siteReg = s.siteReg := by simp [endEchoFibre]
@[simp] theorem endEchoFibre_beam (a : Port) (s : State) :
    (endEchoFibre a s).beam = s.beam := by simp [endEchoFibre]
@[simp] theorem endEchoFibre_ring (a : Port) (s : State) :
    (endEchoFibre a s).ring = s.ring := by simp [endEchoFibre]
@[simp] theorem endEchoFibre_img (a : Port) (s : State) :
    (endEchoFibre a s).img = s.img := by simp [endEchoFibre]
@[simp] theorem endEchoFibre_ctl (a : Port) (s : State) :
    (endEchoFibre a s).ctl = s.ctl := by simp [endEchoFibre]
@[simp] theorem endEchoFibre_time (a : Port) (s : State) :
    (endEchoFibre a s).time = s.time := by simp [endEchoFibre]
@[simp] theorem endEchoFibre_pending (a : Port) (s : State) :
    (endEchoFibre a s).pending = s.pending := by simp [endEchoFibre]
@[simp] theorem portDark_host (a : Port) (b : ℕ) (s : State) :
    (portDark a b s).host = s.host := by simp [portDark]
@[simp] theorem portDark_mbx (a : Port) (b : ℕ) (s : State) :
    (portDark a b s).mbx = s.mbx := by simp [portDark]
@[simp] theorem portDark_lck (a : Port) (b : ℕ) (s : State) :
    (portDark a b s).lck = s.lck := by simp [portDark]
@[simp] theorem portDark_comb (a : Port) (b : ℕ) (s : State) :
    (portDark a b s).comb = s.comb := by simp [portDark]
@[simp] theorem portDark_wide (a : Port) (b : ℕ) (s : State) :
    (portDark a b s).wide = s.wide := by simp [portDark]
@[simp] theorem portDark_reach (a : Port) (b : ℕ) (s : State) :
    (portDark a b s).reach = s.reach := by simp [portDark]
@[simp] theorem portDark_siteReg (a : Port) (b : ℕ) (s : State) :
    (portDark a b s).siteReg = s.siteReg := by simp [portDark]
@[simp] theorem portDark_beam (a : Port) (b : ℕ) (s : State) :
    (portDark a b s).beam = s.beam := by simp [portDark]
@[simp] theorem portDark_ring (a : Port) (b : ℕ) (s : State) :
    (portDark a b s).ring = s.ring := by simp [portDark]
@[simp] theorem portDark_img (a : Port) (b : ℕ) (s : State) :
    (portDark a b s).img = s.img := by simp [portDark]
@[simp] theorem portDark_ctl (a : Port) (b : ℕ) (s : State) :
    (portDark a b s).ctl = s.ctl := by simp [portDark]
@[simp] theorem portDark_time (a : Port) (b : ℕ) (s : State) :
    (portDark a b s).time = s.time := by simp [portDark]
@[simp] theorem portDark_pending (a : Port) (b : ℕ) (s : State) :
    (portDark a b s).pending = s.pending := by simp [portDark]
@[simp] theorem portDarkBreak_host (a : Port) (b : ℕ) (s : State) :
    (portDarkBreak a b s).host = s.host := by simp [portDarkBreak]
@[simp] theorem portDarkBreak_mbx (a : Port) (b : ℕ) (s : State) :
    (portDarkBreak a b s).mbx = s.mbx := by simp [portDarkBreak]
@[simp] theorem portDarkBreak_lck (a : Port) (b : ℕ) (s : State) :
    (portDarkBreak a b s).lck = s.lck := by simp [portDarkBreak]
@[simp] theorem portDarkBreak_comb (a : Port) (b : ℕ) (s : State) :
    (portDarkBreak a b s).comb = s.comb := by simp [portDarkBreak]
@[simp] theorem portDarkBreak_wide (a : Port) (b : ℕ) (s : State) :
    (portDarkBreak a b s).wide = s.wide := by simp [portDarkBreak]
@[simp] theorem portDarkBreak_reach (a : Port) (b : ℕ) (s : State) :
    (portDarkBreak a b s).reach = s.reach := by simp [portDarkBreak]
@[simp] theorem portDarkBreak_siteReg (a : Port) (b : ℕ) (s : State) :
    (portDarkBreak a b s).siteReg = s.siteReg := by simp [portDarkBreak]
@[simp] theorem portDarkBreak_ring (a : Port) (b : ℕ) (s : State) :
    (portDarkBreak a b s).ring = s.ring := by simp [portDarkBreak]
@[simp] theorem portDarkBreak_img (a : Port) (b : ℕ) (s : State) :
    (portDarkBreak a b s).img = s.img := by simp [portDarkBreak]
@[simp] theorem portDarkBreak_time (a : Port) (b : ℕ) (s : State) :
    (portDarkBreak a b s).time = s.time := by simp [portDarkBreak]
@[simp] theorem portDarkBreak_pending (a : Port) (b : ℕ) (s : State) :
    (portDarkBreak a b s).pending = s.pending := by simp [portDarkBreak]
@[simp] theorem setDev_host (a : DevState) (s : State) :
    (setDev a s).host = s.host := by simp [setDev]
@[simp] theorem setDev_mbx (a : DevState) (s : State) :
    (setDev a s).mbx = s.mbx := by simp [setDev]
@[simp] theorem setDev_lck (a : DevState) (s : State) :
    (setDev a s).lck = s.lck := by simp [setDev]
@[simp] theorem setDev_comb (a : DevState) (s : State) :
    (setDev a s).comb = s.comb := by simp [setDev]
@[simp] theorem setDev_wide (a : DevState) (s : State) :
    (setDev a s).wide = s.wide := by simp [setDev]
@[simp] theorem setDev_reach (a : DevState) (s : State) :
    (setDev a s).reach = s.reach := by simp [setDev]
@[simp] theorem setDev_siteReg (a : DevState) (s : State) :
    (setDev a s).siteReg = s.siteReg := by simp [setDev]
@[simp] theorem setDev_beam (a : DevState) (s : State) :
    (setDev a s).beam = s.beam := by simp [setDev]
@[simp] theorem setDev_ring (a : DevState) (s : State) :
    (setDev a s).ring = s.ring := by simp [setDev]
@[simp] theorem setDev_img (a : DevState) (s : State) :
    (setDev a s).img = s.img := by simp [setDev]
@[simp] theorem setDev_ctl (a : DevState) (s : State) :
    (setDev a s).ctl = s.ctl := by simp [setDev]
@[simp] theorem setDev_time (a : DevState) (s : State) :
    (setDev a s).time = s.time := by simp [setDev]
@[simp] theorem setDev_pending (a : DevState) (s : State) :
    (setDev a s).pending = s.pending := by simp [setDev]
@[simp] theorem portsDark_host (s : State) :
    (portsDark s).host = s.host := by simp [portsDark]
@[simp] theorem portsDark_mbx (s : State) :
    (portsDark s).mbx = s.mbx := by simp [portsDark]
@[simp] theorem portsDark_lck (s : State) :
    (portsDark s).lck = s.lck := by simp [portsDark]
@[simp] theorem portsDark_comb (s : State) :
    (portsDark s).comb = s.comb := by simp [portsDark]
@[simp] theorem portsDark_wide (s : State) :
    (portsDark s).wide = s.wide := by simp [portsDark]
@[simp] theorem portsDark_reach (s : State) :
    (portsDark s).reach = s.reach := by simp [portsDark]
@[simp] theorem portsDark_siteReg (s : State) :
    (portsDark s).siteReg = s.siteReg := by simp [portsDark]
@[simp] theorem portsDark_ring (s : State) :
    (portsDark s).ring = s.ring := by simp [portsDark]
@[simp] theorem portsDark_img (s : State) :
    (portsDark s).img = s.img := by simp [portsDark]
@[simp] theorem portsDark_time (s : State) :
    (portsDark s).time = s.time := by simp [portsDark]
@[simp] theorem portsDark_pending (s : State) :
    (portsDark s).pending = s.pending := by simp [portsDark]
@[simp] theorem umbraEnter_host (s : State) :
    (umbraEnter s).host = s.host := by simp [umbraEnter]
@[simp] theorem umbraEnter_mbx (s : State) :
    (umbraEnter s).mbx = s.mbx := by simp [umbraEnter]
@[simp] theorem umbraEnter_lck (s : State) :
    (umbraEnter s).lck = s.lck := by simp [umbraEnter]
@[simp] theorem umbraEnter_wide (s : State) :
    (umbraEnter s).wide = s.wide := by simp [umbraEnter]
@[simp] theorem umbraEnter_reach (s : State) :
    (umbraEnter s).reach = s.reach := by simp [umbraEnter]
@[simp] theorem umbraEnter_siteReg (s : State) :
    (umbraEnter s).siteReg = s.siteReg := by simp [umbraEnter]
@[simp] theorem umbraEnter_ring (s : State) :
    (umbraEnter s).ring = s.ring := by simp [umbraEnter]
@[simp] theorem umbraEnter_img (s : State) :
    (umbraEnter s).img = s.img := by simp [umbraEnter]
@[simp] theorem umbraEnter_time (s : State) :
    (umbraEnter s).time = s.time := by simp [umbraEnter]
@[simp] theorem umbraEnter_pending (s : State) :
    (umbraEnter s).pending = s.pending := by simp [umbraEnter]
@[simp] theorem lastTokens_dev (a : SiteIx) (s : State) :
    (lastTokens a s).dev = s.dev := by simp [lastTokens]
@[simp] theorem lastTokens_host (a : SiteIx) (s : State) :
    (lastTokens a s).host = s.host := by simp [lastTokens]
@[simp] theorem lastTokens_mbx (a : SiteIx) (s : State) :
    (lastTokens a s).mbx = s.mbx := by simp [lastTokens]
@[simp] theorem lastTokens_dbl (a : SiteIx) (s : State) :
    (lastTokens a s).dbl = s.dbl := by simp [lastTokens]
@[simp] theorem lastTokens_lck (a : SiteIx) (s : State) :
    (lastTokens a s).lck = s.lck := by simp [lastTokens]
@[simp] theorem lastTokens_err (a : SiteIx) (s : State) :
    (lastTokens a s).err = s.err := by simp [lastTokens]
@[simp] theorem lastTokens_mgt (a : SiteIx) (s : State) :
    (lastTokens a s).mgt = s.mgt := by simp [lastTokens]
@[simp] theorem lastTokens_sec (a : SiteIx) (s : State) :
    (lastTokens a s).sec = s.sec := by simp [lastTokens]
@[simp] theorem lastTokens_pwr (a : SiteIx) (s : State) :
    (lastTokens a s).pwr = s.pwr := by simp [lastTokens]
@[simp] theorem lastTokens_thm (a : SiteIx) (s : State) :
    (lastTokens a s).thm = s.thm := by simp [lastTokens]
@[simp] theorem lastTokens_hbm (a : SiteIx) (s : State) :
    (lastTokens a s).hbm = s.hbm := by simp [lastTokens]
@[simp] theorem lastTokens_comb (a : SiteIx) (s : State) :
    (lastTokens a s).comb = s.comb := by simp [lastTokens]
@[simp] theorem lastTokens_site (a : SiteIx) (s : State) :
    (lastTokens a s).site = s.site := by simp [lastTokens]
@[simp] theorem lastTokens_wide (a : SiteIx) (s : State) :
    (lastTokens a s).wide = s.wide := by simp [lastTokens]
@[simp] theorem lastTokens_reach (a : SiteIx) (s : State) :
    (lastTokens a s).reach = s.reach := by simp [lastTokens]
@[simp] theorem lastTokens_siteReg (a : SiteIx) (s : State) :
    (lastTokens a s).siteReg = s.siteReg := by simp [lastTokens]
@[simp] theorem lastTokens_beam (a : SiteIx) (s : State) :
    (lastTokens a s).beam = s.beam := by simp [lastTokens]
@[simp] theorem lastTokens_port (a : SiteIx) (s : State) :
    (lastTokens a s).port = s.port := by simp [lastTokens]
@[simp] theorem lastTokens_pln (a : SiteIx) (s : State) :
    (lastTokens a s).pln = s.pln := by simp [lastTokens]
@[simp] theorem lastTokens_ring (a : SiteIx) (s : State) :
    (lastTokens a s).ring = s.ring := by simp [lastTokens]
@[simp] theorem lastTokens_img (a : SiteIx) (s : State) :
    (lastTokens a s).img = s.img := by simp [lastTokens]
@[simp] theorem lastTokens_ctl (a : SiteIx) (s : State) :
    (lastTokens a s).ctl = s.ctl := by simp [lastTokens]
@[simp] theorem lastTokens_sq (a : SiteIx) (s : State) :
    (lastTokens a s).sq = s.sq := by simp [lastTokens]
@[simp] theorem lastTokens_ce (a : SiteIx) (s : State) :
    (lastTokens a s).ce = s.ce := by simp [lastTokens]
@[simp] theorem lastTokens_time (a : SiteIx) (s : State) :
    (lastTokens a s).time = s.time := by simp [lastTokens]
@[simp] theorem lastTokens_fresh (a : SiteIx) (s : State) :
    (lastTokens a s).fresh = s.fresh := by simp [lastTokens]
@[simp] theorem lastTokens_pending (a : SiteIx) (s : State) :
    (lastTokens a s).pending = s.pending := by simp [lastTokens]
@[simp] theorem sitesOff_dev (s : State) :
    (sitesOff s).dev = s.dev := by simp [sitesOff]
@[simp] theorem sitesOff_host (s : State) :
    (sitesOff s).host = s.host := by simp [sitesOff]
@[simp] theorem sitesOff_dbl (s : State) :
    (sitesOff s).dbl = s.dbl := by simp [sitesOff]
@[simp] theorem sitesOff_mgt (s : State) :
    (sitesOff s).mgt = s.mgt := by simp [sitesOff]
@[simp] theorem sitesOff_sec (s : State) :
    (sitesOff s).sec = s.sec := by simp [sitesOff]
@[simp] theorem sitesOff_pwr (s : State) :
    (sitesOff s).pwr = s.pwr := by simp [sitesOff]
@[simp] theorem sitesOff_thm (s : State) :
    (sitesOff s).thm = s.thm := by simp [sitesOff]
@[simp] theorem sitesOff_hbm (s : State) :
    (sitesOff s).hbm = s.hbm := by simp [sitesOff]
@[simp] theorem sitesOff_comb (s : State) :
    (sitesOff s).comb = s.comb := by simp [sitesOff]
@[simp] theorem sitesOff_wide (s : State) :
    (sitesOff s).wide = s.wide := by simp [sitesOff]
@[simp] theorem sitesOff_reach (s : State) :
    (sitesOff s).reach = s.reach := by simp [sitesOff]
@[simp] theorem sitesOff_siteReg (s : State) :
    (sitesOff s).siteReg = s.siteReg := by simp [sitesOff]
@[simp] theorem sitesOff_beam (s : State) :
    (sitesOff s).beam = s.beam := by simp [sitesOff]
@[simp] theorem sitesOff_port (s : State) :
    (sitesOff s).port = s.port := by simp [sitesOff]
@[simp] theorem sitesOff_pln (s : State) :
    (sitesOff s).pln = s.pln := by simp [sitesOff]
@[simp] theorem sitesOff_ring (s : State) :
    (sitesOff s).ring = s.ring := by simp [sitesOff]
@[simp] theorem sitesOff_img (s : State) :
    (sitesOff s).img = s.img := by simp [sitesOff]
@[simp] theorem sitesOff_ctl (s : State) :
    (sitesOff s).ctl = s.ctl := by simp [sitesOff]
@[simp] theorem sitesOff_sq (s : State) :
    (sitesOff s).sq = s.sq := by simp [sitesOff]
@[simp] theorem sitesOff_ce (s : State) :
    (sitesOff s).ce = s.ce := by simp [sitesOff]
@[simp] theorem sitesOff_time (s : State) :
    (sitesOff s).time = s.time := by simp [sitesOff]
@[simp] theorem sitesOff_pending (s : State) :
    (sitesOff s).pending = s.pending := by simp [sitesOff]
@[simp] theorem goDark_host (s : State) :
    (goDark s).host = s.host := by simp [goDark]
@[simp] theorem goDark_wide (s : State) :
    (goDark s).wide = s.wide := by simp [goDark]
@[simp] theorem goDark_reach (s : State) :
    (goDark s).reach = s.reach := by simp [goDark]
@[simp] theorem goDark_siteReg (s : State) :
    (goDark s).siteReg = s.siteReg := by simp [goDark]
@[simp] theorem goDark_ring (s : State) :
    (goDark s).ring = s.ring := by simp [goDark]
@[simp] theorem goDark_img (s : State) :
    (goDark s).img = s.img := by simp [goDark]
@[simp] theorem goDark_time (s : State) :
    (goDark s).time = s.time := by simp [goDark]
@[simp] theorem goDark_pending (s : State) :
    (goDark s).pending = s.pending := by simp [goDark]
@[simp] theorem fatalEvent_host (a : ℕ) (b : ℕ) (c : ℕ) (s : State) :
    (fatalEvent a b c s).host = s.host := by simp [fatalEvent]
@[simp] theorem fatalEvent_wide (a : ℕ) (b : ℕ) (c : ℕ) (s : State) :
    (fatalEvent a b c s).wide = s.wide := by simp [fatalEvent]
@[simp] theorem fatalEvent_reach (a : ℕ) (b : ℕ) (c : ℕ) (s : State) :
    (fatalEvent a b c s).reach = s.reach := by simp [fatalEvent]
@[simp] theorem fatalEvent_siteReg (a : ℕ) (b : ℕ) (c : ℕ) (s : State) :
    (fatalEvent a b c s).siteReg = s.siteReg := by simp [fatalEvent]
@[simp] theorem fatalEvent_ring (a : ℕ) (b : ℕ) (c : ℕ) (s : State) :
    (fatalEvent a b c s).ring = s.ring := by simp [fatalEvent]
@[simp] theorem fatalEvent_img (a : ℕ) (b : ℕ) (c : ℕ) (s : State) :
    (fatalEvent a b c s).img = s.img := by simp [fatalEvent]
@[simp] theorem fatalEvent_time (a : ℕ) (b : ℕ) (c : ℕ) (s : State) :
    (fatalEvent a b c s).time = s.time := by simp [fatalEvent]
@[simp] theorem fatalEvent_pending (a : ℕ) (b : ℕ) (c : ℕ) (s : State) :
    (fatalEvent a b c s).pending = s.pending := by simp [fatalEvent]
@[simp] theorem irqSettle_dev (s : State) :
    (irqSettle s).dev = s.dev := by simp [irqSettle]
@[simp] theorem irqSettle_mbx (s : State) :
    (irqSettle s).mbx = s.mbx := by simp [irqSettle]
@[simp] theorem irqSettle_dbl (s : State) :
    (irqSettle s).dbl = s.dbl := by simp [irqSettle]
@[simp] theorem irqSettle_lck (s : State) :
    (irqSettle s).lck = s.lck := by simp [irqSettle]
@[simp] theorem irqSettle_err (s : State) :
    (irqSettle s).err = s.err := by simp [irqSettle]
@[simp] theorem irqSettle_mgt (s : State) :
    (irqSettle s).mgt = s.mgt := by simp [irqSettle]
@[simp] theorem irqSettle_sec (s : State) :
    (irqSettle s).sec = s.sec := by simp [irqSettle]
@[simp] theorem irqSettle_pwr (s : State) :
    (irqSettle s).pwr = s.pwr := by simp [irqSettle]
@[simp] theorem irqSettle_thm (s : State) :
    (irqSettle s).thm = s.thm := by simp [irqSettle]
@[simp] theorem irqSettle_hbm (s : State) :
    (irqSettle s).hbm = s.hbm := by simp [irqSettle]
@[simp] theorem irqSettle_comb (s : State) :
    (irqSettle s).comb = s.comb := by simp [irqSettle]
@[simp] theorem irqSettle_site (s : State) :
    (irqSettle s).site = s.site := by simp [irqSettle]
@[simp] theorem irqSettle_wide (s : State) :
    (irqSettle s).wide = s.wide := by simp [irqSettle]
@[simp] theorem irqSettle_reach (s : State) :
    (irqSettle s).reach = s.reach := by simp [irqSettle]
@[simp] theorem irqSettle_siteReg (s : State) :
    (irqSettle s).siteReg = s.siteReg := by simp [irqSettle]
@[simp] theorem irqSettle_beam (s : State) :
    (irqSettle s).beam = s.beam := by simp [irqSettle]
@[simp] theorem irqSettle_port (s : State) :
    (irqSettle s).port = s.port := by simp [irqSettle]
@[simp] theorem irqSettle_pln (s : State) :
    (irqSettle s).pln = s.pln := by simp [irqSettle]
@[simp] theorem irqSettle_ring (s : State) :
    (irqSettle s).ring = s.ring := by simp [irqSettle]
@[simp] theorem irqSettle_img (s : State) :
    (irqSettle s).img = s.img := by simp [irqSettle]
@[simp] theorem irqSettle_ctl (s : State) :
    (irqSettle s).ctl = s.ctl := by simp [irqSettle]
@[simp] theorem irqSettle_sq (s : State) :
    (irqSettle s).sq = s.sq := by simp [irqSettle]
@[simp] theorem irqSettle_ce (s : State) :
    (irqSettle s).ce = s.ce := by simp [irqSettle]
@[simp] theorem irqSettle_time (s : State) :
    (irqSettle s).time = s.time := by simp [irqSettle]
@[simp] theorem irqSettle_fresh (s : State) :
    (irqSettle s).fresh = s.fresh := by simp [irqSettle]
@[simp] theorem irqSettle_pending (s : State) :
    (irqSettle s).pending = s.pending := by simp [irqSettle]
@[simp] theorem irqResend_dev (a : ℕ) (s : State) :
    (irqResend a s).dev = s.dev := by simp [irqResend]
@[simp] theorem irqResend_mbx (a : ℕ) (s : State) :
    (irqResend a s).mbx = s.mbx := by simp [irqResend]
@[simp] theorem irqResend_dbl (a : ℕ) (s : State) :
    (irqResend a s).dbl = s.dbl := by simp [irqResend]
@[simp] theorem irqResend_lck (a : ℕ) (s : State) :
    (irqResend a s).lck = s.lck := by simp [irqResend]
@[simp] theorem irqResend_err (a : ℕ) (s : State) :
    (irqResend a s).err = s.err := by simp [irqResend]
@[simp] theorem irqResend_mgt (a : ℕ) (s : State) :
    (irqResend a s).mgt = s.mgt := by simp [irqResend]
@[simp] theorem irqResend_sec (a : ℕ) (s : State) :
    (irqResend a s).sec = s.sec := by simp [irqResend]
@[simp] theorem irqResend_pwr (a : ℕ) (s : State) :
    (irqResend a s).pwr = s.pwr := by simp [irqResend]
@[simp] theorem irqResend_thm (a : ℕ) (s : State) :
    (irqResend a s).thm = s.thm := by simp [irqResend]
@[simp] theorem irqResend_hbm (a : ℕ) (s : State) :
    (irqResend a s).hbm = s.hbm := by simp [irqResend]
@[simp] theorem irqResend_comb (a : ℕ) (s : State) :
    (irqResend a s).comb = s.comb := by simp [irqResend]
@[simp] theorem irqResend_site (a : ℕ) (s : State) :
    (irqResend a s).site = s.site := by simp [irqResend]
@[simp] theorem irqResend_wide (a : ℕ) (s : State) :
    (irqResend a s).wide = s.wide := by simp [irqResend]
@[simp] theorem irqResend_reach (a : ℕ) (s : State) :
    (irqResend a s).reach = s.reach := by simp [irqResend]
@[simp] theorem irqResend_siteReg (a : ℕ) (s : State) :
    (irqResend a s).siteReg = s.siteReg := by simp [irqResend]
@[simp] theorem irqResend_beam (a : ℕ) (s : State) :
    (irqResend a s).beam = s.beam := by simp [irqResend]
@[simp] theorem irqResend_port (a : ℕ) (s : State) :
    (irqResend a s).port = s.port := by simp [irqResend]
@[simp] theorem irqResend_pln (a : ℕ) (s : State) :
    (irqResend a s).pln = s.pln := by simp [irqResend]
@[simp] theorem irqResend_ring (a : ℕ) (s : State) :
    (irqResend a s).ring = s.ring := by simp [irqResend]
@[simp] theorem irqResend_img (a : ℕ) (s : State) :
    (irqResend a s).img = s.img := by simp [irqResend]
@[simp] theorem irqResend_ctl (a : ℕ) (s : State) :
    (irqResend a s).ctl = s.ctl := by simp [irqResend]
@[simp] theorem irqResend_sq (a : ℕ) (s : State) :
    (irqResend a s).sq = s.sq := by simp [irqResend]
@[simp] theorem irqResend_ce (a : ℕ) (s : State) :
    (irqResend a s).ce = s.ce := by simp [irqResend]
@[simp] theorem irqResend_time (a : ℕ) (s : State) :
    (irqResend a s).time = s.time := by simp [irqResend]
@[simp] theorem irqResend_out (a : ℕ) (s : State) :
    (irqResend a s).out = s.out := by simp [irqResend]
@[simp] theorem irqResend_fresh (a : ℕ) (s : State) :
    (irqResend a s).fresh = s.fresh := by simp [irqResend]
@[simp] theorem irqResend_pending (a : ℕ) (s : State) :
    (irqResend a s).pending = s.pending := by simp [irqResend]
@[simp] theorem freeWork_dev (s : State) :
    (freeWork s).dev = s.dev := by simp [freeWork]
@[simp] theorem freeWork_host (s : State) :
    (freeWork s).host = s.host := by simp [freeWork]
@[simp] theorem freeWork_mbx (s : State) :
    (freeWork s).mbx = s.mbx := by simp [freeWork]
@[simp] theorem freeWork_dbl (s : State) :
    (freeWork s).dbl = s.dbl := by simp [freeWork]
@[simp] theorem freeWork_lck (s : State) :
    (freeWork s).lck = s.lck := by simp [freeWork]
@[simp] theorem freeWork_err (s : State) :
    (freeWork s).err = s.err := by simp [freeWork]
@[simp] theorem freeWork_mgt (s : State) :
    (freeWork s).mgt = s.mgt := by simp [freeWork]
@[simp] theorem freeWork_sec (s : State) :
    (freeWork s).sec = s.sec := by simp [freeWork]
@[simp] theorem freeWork_pwr (s : State) :
    (freeWork s).pwr = s.pwr := by simp [freeWork]
@[simp] theorem freeWork_thm (s : State) :
    (freeWork s).thm = s.thm := by simp [freeWork]
@[simp] theorem freeWork_comb (s : State) :
    (freeWork s).comb = s.comb := by simp [freeWork]
@[simp] theorem freeWork_wide (s : State) :
    (freeWork s).wide = s.wide := by simp [freeWork]
@[simp] theorem freeWork_reach (s : State) :
    (freeWork s).reach = s.reach := by simp [freeWork]
@[simp] theorem freeWork_siteReg (s : State) :
    (freeWork s).siteReg = s.siteReg := by simp [freeWork]
@[simp] theorem freeWork_ring (s : State) :
    (freeWork s).ring = s.ring := by simp [freeWork]
@[simp] theorem freeWork_time (s : State) :
    (freeWork s).time = s.time := by simp [freeWork]
@[simp] theorem freeWork_pending (s : State) :
    (freeWork s).pending = s.pending := by simp [freeWork]
@[simp] theorem spend_dev (a : ℕ) (s : State) :
    (spend a s).dev = s.dev := by simp [spend]
@[simp] theorem spend_host (a : ℕ) (s : State) :
    (spend a s).host = s.host := by simp [spend]
@[simp] theorem spend_mbx (a : ℕ) (s : State) :
    (spend a s).mbx = s.mbx := by simp [spend]
@[simp] theorem spend_dbl (a : ℕ) (s : State) :
    (spend a s).dbl = s.dbl := by simp [spend]
@[simp] theorem spend_lck (a : ℕ) (s : State) :
    (spend a s).lck = s.lck := by simp [spend]
@[simp] theorem spend_err (a : ℕ) (s : State) :
    (spend a s).err = s.err := by simp [spend]
@[simp] theorem spend_mgt (a : ℕ) (s : State) :
    (spend a s).mgt = s.mgt := by simp [spend]
@[simp] theorem spend_sec (a : ℕ) (s : State) :
    (spend a s).sec = s.sec := by simp [spend]
@[simp] theorem spend_pwr (a : ℕ) (s : State) :
    (spend a s).pwr = s.pwr := by simp [spend]
@[simp] theorem spend_thm (a : ℕ) (s : State) :
    (spend a s).thm = s.thm := by simp [spend]
@[simp] theorem spend_hbm (a : ℕ) (s : State) :
    (spend a s).hbm = s.hbm := by simp [spend]
@[simp] theorem spend_comb (a : ℕ) (s : State) :
    (spend a s).comb = s.comb := by simp [spend]
@[simp] theorem spend_site (a : ℕ) (s : State) :
    (spend a s).site = s.site := by simp [spend]
@[simp] theorem spend_wide (a : ℕ) (s : State) :
    (spend a s).wide = s.wide := by simp [spend]
@[simp] theorem spend_reach (a : ℕ) (s : State) :
    (spend a s).reach = s.reach := by simp [spend]
@[simp] theorem spend_siteReg (a : ℕ) (s : State) :
    (spend a s).siteReg = s.siteReg := by simp [spend]
@[simp] theorem spend_beam (a : ℕ) (s : State) :
    (spend a s).beam = s.beam := by simp [spend]
@[simp] theorem spend_port (a : ℕ) (s : State) :
    (spend a s).port = s.port := by simp [spend]
@[simp] theorem spend_pln (a : ℕ) (s : State) :
    (spend a s).pln = s.pln := by simp [spend]
@[simp] theorem spend_ring (a : ℕ) (s : State) :
    (spend a s).ring = s.ring := by simp [spend]
@[simp] theorem spend_img (a : ℕ) (s : State) :
    (spend a s).img = s.img := by simp [spend]
@[simp] theorem spend_ctl (a : ℕ) (s : State) :
    (spend a s).ctl = s.ctl := by simp [spend]
@[simp] theorem spend_sq (a : ℕ) (s : State) :
    (spend a s).sq = s.sq := by simp [spend]
@[simp] theorem spend_ce (a : ℕ) (s : State) :
    (spend a s).ce = s.ce := by simp [spend]
@[simp] theorem spend_time (a : ℕ) (s : State) :
    (spend a s).time = s.time := by simp [spend]
@[simp] theorem spend_out (a : ℕ) (s : State) :
    (spend a s).out = s.out := by simp [spend]
@[simp] theorem spend_pending (a : ℕ) (s : State) :
    (spend a s).pending = s.pending := by simp [spend]
@[simp] theorem idle_dev (s : State) :
    (idle s).dev = s.dev := by simp [idle]
@[simp] theorem idle_host (s : State) :
    (idle s).host = s.host := by simp [idle]
@[simp] theorem idle_mbx (s : State) :
    (idle s).mbx = s.mbx := by simp [idle]
@[simp] theorem idle_dbl (s : State) :
    (idle s).dbl = s.dbl := by simp [idle]
@[simp] theorem idle_lck (s : State) :
    (idle s).lck = s.lck := by simp [idle]
@[simp] theorem idle_err (s : State) :
    (idle s).err = s.err := by simp [idle]
@[simp] theorem idle_mgt (s : State) :
    (idle s).mgt = s.mgt := by simp [idle]
@[simp] theorem idle_sec (s : State) :
    (idle s).sec = s.sec := by simp [idle]
@[simp] theorem idle_pwr (s : State) :
    (idle s).pwr = s.pwr := by simp [idle]
@[simp] theorem idle_thm (s : State) :
    (idle s).thm = s.thm := by simp [idle]
@[simp] theorem idle_hbm (s : State) :
    (idle s).hbm = s.hbm := by simp [idle]
@[simp] theorem idle_comb (s : State) :
    (idle s).comb = s.comb := by simp [idle]
@[simp] theorem idle_site (s : State) :
    (idle s).site = s.site := by simp [idle]
@[simp] theorem idle_wide (s : State) :
    (idle s).wide = s.wide := by simp [idle]
@[simp] theorem idle_reach (s : State) :
    (idle s).reach = s.reach := by simp [idle]
@[simp] theorem idle_siteReg (s : State) :
    (idle s).siteReg = s.siteReg := by simp [idle]
@[simp] theorem idle_beam (s : State) :
    (idle s).beam = s.beam := by simp [idle]
@[simp] theorem idle_port (s : State) :
    (idle s).port = s.port := by simp [idle]
@[simp] theorem idle_pln (s : State) :
    (idle s).pln = s.pln := by simp [idle]
@[simp] theorem idle_ring (s : State) :
    (idle s).ring = s.ring := by simp [idle]
@[simp] theorem idle_img (s : State) :
    (idle s).img = s.img := by simp [idle]
@[simp] theorem idle_ctl (s : State) :
    (idle s).ctl = s.ctl := by simp [idle]
@[simp] theorem idle_sq (s : State) :
    (idle s).sq = s.sq := by simp [idle]
@[simp] theorem idle_ce (s : State) :
    (idle s).ce = s.ce := by simp [idle]
@[simp] theorem idle_out (s : State) :
    (idle s).out = s.out := by simp [idle]
@[simp] theorem idle_fresh (s : State) :
    (idle s).fresh = s.fresh := by simp [idle]
@[simp] theorem idle_pending (s : State) :
    (idle s).pending = s.pending := by simp [idle]

end Sys2Proof.Machine
end

