-- ==== Sys2Proof/WellFormed.lean ====
section
/-!
DEFINITION. When a command is well formed: its raw operands have the length that the spec lays out, and a window access stays inside its window.
-/

namespace Sys2Proof

/-- A raw operand has exactly `n` bytes. -/
def hasBytes (n : Nat) (l : List Byte) : Bool := l.length == n

/-- A CTRL-style window access of at least one byte ends inside a window of `top` bytes. -/
def inWindow (top off len : Nat) : Bool := decide (0 < len) && decide (off + len ≤ top)

/-- Whether a command's operands have the shape the spec gives them. -/
def Instr.wf : Instr → Bool
  -- a flit is 256 bytes (R235)
  | .dataFlit _ raw _ _ | .idleFlit _ raw | .nak _ raw | .switchIdle _ raw | .init _ raw | .retrainRequest _ raw
  | .retrainGo _ raw | .retrainReady _ raw | .substitutionRequest _ raw | .substitutionGo _ raw
  | .substitutionApplied _ raw => hasBytes 256 raw
  -- a TRAIN flit is 256 bytes (R258), a line marker 80 bytes (R231), a lane marker 40 bytes (R377)
  | .train _ raw => hasBytes 256 raw
  | .lineMarker _ _ raw => hasBytes 80 raw
  | .laneMarker _ _ raw _ => hasBytes 40 raw
  -- a sideband slot is 21 bytes (R358)
  | .retry _ raw | .level _ raw | .laneMap _ raw | .repair _ raw | .parity _ raw | .creditInit _ raw
  | .credit _ raw | .sbToken _ raw | .sbHint _ raw | .mbxData _ raw | .mbxGo _ raw | .mbxResp _ raw
  | .doorbell _ raw | .lock _ raw | .sbReservedMessage _ raw => hasBytes 21 raw
  -- a module frame is 68 lane words, two such in a degraded direction (R339), a sideband frame 18 (R334), a codeword 544 symbols (R374)
  | .moduleFrame _ m lanes => if m = 32 then lanes.length == 18 else lanes.length == 68 || lanes.length == 136
  | .reachCodeword _ _ sy => sy.length == 544
  -- windows (R460)
  | .bar2Write off data _ => inWindow (2 ^ 26) off.toNat data.length
  | .bar4Read off len _ _ => inWindow (2 ^ 36) off.toNat len
  | .bar4Write off data => inWindow (2 ^ 36) off.toNat data.length
  -- every value of the remaining operands is one the rules give a meaning
  | .powerOn | .supplyFault _ _ | .resetAssert _ _ | .resetRelease _ | .fwReady | .fwWatchdog
  | .lockstepDisagreement | .penumbraEntry | .combGroupStart _ | .combLockTimeout _ _ | .stackTrainingDone _ _
  | .litEntryStart | .litEntryComplete | .imgQuery | .imgBegin | .imgChunk | .chunkMoved _ | .imgVerify
  | .verifyComplete _ | .imgCommitFull | .imgCommitRestart | .imgAbort | .devPenumbra | .devPenumbraTimeout
  | .undefinedCommand _ | .replacementApply | .replacementCopyDone _ | .nop | .phase _ _ | .wait _ _ _ _ _
  | .switch _ _ _ _ | .issue _ _ | .token _ _ _ | .notify _ _ | .select _ _ _ _ | .prefetch _ _ _ | .hint _ _ _
  | .commit _ | .setlc _ _ | .branch _ _ _ _ | .call _ _ | .ret | .halt | .fetchComplete _ _ | .tokenArrival _
  | .operationDone _ _ _ | .mirrorRecord _ | .mirrorAck | .mirrorAckTimeout | .phaseWatchdogExpiry | .heartbeatSend _
  | .heartbeatTimeout _ | .sequencerFailureSignal _ _ | .fenceAcknowledged | .selfTestComplete _ _ | .resyncTimer
  | .resyncCopyDone | .sqResumeGo _ | .sqResumeRelease _ | .sqCmdForceFailover _ | .sqCmdResyncStandby _
  | .sqCmdTakeBackNow _ | .sqCmdKeepStandbyOut _ | .sqCmdReadmit _ | .gate _ | .dispatch _ | .combine _
  | .allreduce _ | .reducescatter _ | .allgather _ | .alltoallv _ | .broadcast _ | .stream _ | .dispatchRecord _ _
  | .tentativeDispatch _ _ | .combineReturn _ _ | .commitMarker _ _ | .cancelMarker _ _
  | .collectiveSegment _ _ _ _ _ | .ceCtrlWrite _ | .switchArrival _ | .switchAnchor _ | .switchRingsSet _
  | .lineRelock _ _ | .switchComplete _ | .switchTimeout _ | .initResend _ | .initTimeout _
  | .retransmitTimerExpiry _ | .creditTimeout _ | .replayEntryGrant _ | .retrainRequestResend _
  | .retrainDeskewDone _ | .retrainTimeout _ | .lineMarkerSend | .lineAlignmentLost _ _ | .portTrainingStep _ _
  | .portTrainingTimeout _ | .l00LockLost _ | .prtCmdRetrain _ | .prtCmdHold _ | .prtCmdRelease _
  | .ringLoopVisit _ _ _ | .ringZoneSample _ _ | .samplerTrim _ _ _ | .hintLearn _ _ _ | .calibrationStart _ _ _
  | .calibrationComplete _ _ _ _ | .calibrationOverdue _ _ _ | .glintCalibrationDone _ _ _
  | .substitutionRepeat _ _ _ | .substitutionMarker _ _ _ | .lineRequalify _ _ _ | .requalifyEnd _ _ _ _
  | .gridLoop _ _ _ _ | .biasLoop _ _ _ _ | .combThermalReduction _ _ _ | .agingLogWrite _ | .combDieFailure _ _ _
  | .spareGainRamp _ | .spareCombLocked _ | .openFibre _ | .probeStart _ | .probeLightReceived _ _ | .qclkLoss
  | .rxPowerWarning _ _ _ | .laneMapApply _ _ | .repairStart _ _ | .repairTestEnd _ _ _ | .creditReturnTimer _
  | .sbResendTimeout _ | .sidebandFailed _ | .siteResetRelease _ | .wpTrainingStep _ _ | .wpTrainingTimeout _
  | .clockLossDetected _ | .wpCmdRetrain _ | .wpCmdHold _ | .wpCmdRelease _ | .wpCmdRepairModule _
  | .tpMarkerSend _ | .trainingFrame _ _ _ _ | .fomMeasurement _ _ _ | .tpTrainingStep _ _ | .tpTrainingTimeout _
  | .retestStart _ | .retestComplete _ _ | .tpCmdRetrain _ | .tpCmdHold _ | .tpCmdRelease _ | .tpCmdRetestQuad _
  | .tpCmdEnterTest _ | .tpCmdLeaveTest _ | .tpPatCtrlWrite _ | .tpInjectSingleBit _ | .tpInjectSymbols _
  | .tpInjectMarker _ | .tpInjectSbCrc _ | .tpInjectStop _ | .tpInjectRepeat _ | .hbmApertureWrite _
  | .hbmScrubWrite _ | .scrubStep _ | .hbmStackPoll _ _ _ | .powerSample _ _ | .capPeriodStart | .railSettled _
  | .vralertAssert _ | .vralertHoldEnd | .droopDetect _ | .droopClear _ | .droopClear1us | .thermalSample _ _
  | .thermalCeilingStep _ | .junctionTrip | .clusterAgingCheck _ | .pwrCtrlWrite _ | .pwrCapHostWrite _
  | .mgtCapMgmtWrite _ | .thmWarnWrite _ | .sensorSnapshot _ | .mgtQuery _ | .fwBegin _ | .fwEraseDone _ | .fwChunk _
  | .fwChunkProgrammed _ | .fwVerify _ | .fwActivate _ | .fwConfirm _ | .attest _ | .attestSigned | .combSwap _
  | .combSwapDone | .fatalRead _ | .fatalClear _ | .fatalPersisted _ | .i3cAddressAssign _ _ | .i3cPrivateWrite _ _
  | .i3cPrivateRead _ | .i3cMbxGo | .i3cRspClear | .mbxSend _ _ _ | .mbxTake _ _ | .mailboxTimeout _ | .dblFwRing _ _
  | .dblSiteRing _ _ | .lckAcquire _ _ | .lckRelease _ _ | .lowWordRead _ _ _ | .registerWrite _ _ _ _ | .msixUnmask _
  | .pcieFunctionReset _ | .pcieLinkChange _ _ | .poisonedTlp | .errCtrlRelease _ | .errEchoLine _
  | .errEchoFibre _ | .errEchoModule _ | .errEchoStop _ _ _ _ | .echoNonceReturn | .echoNotLooped
  | .fullCommitComplete _ | .fwVerifyComplete _ | .fwActivateComplete _ | .fwConfirmComplete _ | .fatalClearComplete _
  | .flitBoundary _ _ | .moduleFrameSend _ _ | .sidebandFrameSend _ | .reachCodewordSend _ _ | .probeEnd _
  | .vralertRelease | .switchStall _ | .powerOff | .stackChannelLoss _ | .functionPowerStateWrite _ _ => true

end Sys2Proof
end

