-- ==== Sys2Proof/Tests/Slice0.lean ====
section
/-!
SUPPORT. The model's own tests: terms that the well-formedness check refuses, values known from outside the model, and for every
statement of Certificates/Slice0/Obligations.lean one theorem that shows, for each of its clauses, a state and operands that meet all
its hypotheses together.
-/

set_option linter.unusedVariables false
-- one theorem at a time: side by side their kernel evaluations need more memory than the check gives
set_option Elab.async false

namespace Sys2Proof.Tests

open Sys2Proof.Machine

/-! ### What the well-formedness check refuses -/

/-- A flit of three bytes. -/
theorem test_wf_flit : (Instr.idleFlit 0 [0, 0, 0]).wf = false := by decide
/-- A TRAIN flit without a byte. -/
theorem test_wf_train : (Instr.train 0 []).wf = false := by decide
/-- A line marker of 79 bytes. -/
theorem test_wf_line_marker : (Instr.lineMarker 0 0 (List.replicate 79 0)).wf = false := by decide +kernel
/-- A lane marker of 15 bytes. -/
theorem test_wf_lane_marker : (Instr.laneMarker 0 0 (List.replicate 15 0) 0).wf = false := by decide +kernel
/-- A sideband slot of 20 bytes. -/
theorem test_wf_slot : (Instr.credit 0 (List.replicate 20 0)).wf = false := by decide +kernel
/-- A module frame of 67 lanes. -/
theorem test_wf_module_frame : (Instr.moduleFrame 0 0 (List.replicate 67 0)).wf = false := by decide +kernel
/-- A codeword of 543 symbols. -/
theorem test_wf_codeword : (Instr.reachCodeword 0 0 (List.replicate 543 0)).wf = false := by decide +kernel
/-- A BAR2 write of no byte, and one past the window. -/
theorem test_wf_bar2 : (Instr.bar2Write 0 []).wf = false ∧ (Instr.bar2Write 0x3FFFFFF [1, 2]).wf = false := by decide +kernel
/-- A BAR4 read past the window. -/
theorem test_wf_bar4_read : (Instr.bar4Read 0xFFFFFFFFF 2 .none).wf = false := by decide +kernel
/-- A BAR4 write of no byte. -/
theorem test_wf_bar4_write : (Instr.bar4Write 0 []).wf = false := by decide +kernel
/-- Terms that the check takes. -/
theorem test_wf_taken : (Instr.credit 0 (List.replicate 21 0)).wf = true ∧ (Instr.bar4Read 0 4 .none).wf = true ∧ Instr.powerOn.wf = true := by decide +kernel

/-! ### Values known from outside the model -/

/-- The check value of CRC-32 of IEEE 802.3 over the digits 1 to 9. -/
theorem test_crc32 : crc32 [0x31, 0x32, 0x33, 0x34, 0x35, 0x36, 0x37, 0x38, 0x39] = 0xCBF43926 := by decide +kernel
/-- The check value of CRC-16 with polynomial 0x1021 and initial 0xFFFF over the digits 1 to 9. -/
theorem test_crc16 : crc16 [0x31, 0x32, 0x33, 0x34, 0x35, 0x36, 0x37, 0x38, 0x39] = 0x29B1 := by decide +kernel
/-- α^10 = α^3 + 1 in GF(2^10). -/
theorem test_field : gfAlpha 10 = 9 ∧ gfMul (gfAlpha 7) (gfAlpha 3) = 9 := by decide +kernel
/-- The largest E4M3 value is 448, the largest E2M1 value 6, the largest E5M2 value 57,344. -/
theorem test_formats : e4m3.decode 0x7E = .num false 14 5 ∧ e2m1.decode 7 = .num false 3 1 ∧ e5m2.decode 0x7B = .num false 7 13 := ⟨rfl, rfl, rfl⟩

/-! ### States of the witnesses -/

/-- A running device, right after its reset. -/
def up : State := { State.reset with dev := { State.reset.dev with sysRst := false, perst := false } }
/-- A message with these words. -/
def msgW (l : List Nat) : Msg := { words := vmk 16 fun i => w32 (nth l i.val 0) }
/-- A running device in Penumbra with its firmware running. -/
def pen : State := { up with dev := { up.dev with state := .penumbra }, mgt := { up.mgt with fwState := 2 } }
/-- An image command waits in H2F channel 00. -/
def asks (m : Msg) (s : State) : State := onH2f 0 (fun h => { h with go := true, msg := m }) s
/-- A management command waits in the I3C mailbox. -/
def asksI3c (m : Msg) (s : State) : State := { s with mgt := { s.mgt with fwState := 2, i3cGo := true, i3cMbx := m.words } }
/-- A running device in Penumbra with a committed image. -/
def imaged (i : Image) : State := { pen with img := { pen.img with image := some i } }
/-- The image of a schedule program. -/
def progImg (ws : List DWord) : Image := { program := ws }
/-- An active sequencer at index 0 of a program, in a phase state. -/
def runsProg (ph : BitVec 4) (ws : List DWord) : State :=
  let s := { imaged (progImg ws) with dev := { pen.dev with state := .lit } }
  { s with ctl := { s.ctl with phase := ph }, sq := { s.sq with unit := upd s.sq.unit 0 fun u => { u with program := ws } } }
/-- An image to commit. -/
def pendImg : Image := { digests := [1, 2, 3, 5, 9, 11, 12].map fun t => (t, 0, 0) }
/-- An image with a restart point. -/
def restImg : Image := { pendImg with restarts := [{ id := 7, hold := true, index := 0 }] }
/-- A flit of a type with this payload, from place 0 and beam 0. -/
def flitT (t : BitVec 4) (body : List Byte) : Flit :=
  { typ := t, cls := 2, head := false, tok := false, sw := 0, attempt := 0, seq := 0, ack := 0, place := 0, beam := 0, csel := 0, ccount := 0,
    body := (body ++ List.replicate 240 0).take 240 }
/-- A slot of a message type with this body. -/
def slotT (t : Byte) (body : List Byte) : Slot := { typ := t, seq := 0, body := (body ++ List.replicate 16 0).take 16, ack := 0 }
/-- Beam 0 is up; its state is changed further. -/
def litBeam (f : BeamSt → BeamSt) (s : State) : State := onBeam 0 (fun q => f { q with state := 3, tx := .run, rx := .run }) s
/-- A site is Active with its sideband up. -/
def actSite (x : SiteIx) (s : State) : State := onSite x (fun q => { q with state := 3, sb := { q.sb with up := true } }) s
/-- A whole flit of payload that begins a record. -/
def recFlit (b : List Byte) : OutFlit := { cls := 0, head := true, token := none, attempt := 0, payload := b }
/-- A running phase with one issued operation. -/
def issued (i : Image) (o : OpSt) : State :=
  let s := imaged i
  { s with dev := { s.dev with state := .lit }, ctl := { s.ctl with phase := 4, ops := [o] } }

/-- What a calibration found, all of it zero. -/
def calM (marker : Bool) : CalMeasure :=
  { peak := 0, dacOma := Vector.replicate 5 0, sliceOffset := Vector.replicate 3 0, bankSwing := Vector.replicate 6 0, rhoM := 0, width := 0, marker := marker }
/-- Port 0 is Up and beam 0 takes its line L01. -/
def upLine : State :=
  onPort 0 (fun q => { q with state := 3 }) (litBeam (fun q => { q with txMask := 2, rxMask := 2 }) (imaged { beams := [{ valid := true }] }))
/-- The plan in force at port 0 lights beam 0 on its line L01. -/
def lit0 (s : State) : State :=
  onPort 0 (fun q => { q with block := some (0, { port := 0, pass := 0, beams := [{ beam := 0, tx := 2, rx := 2 }] }) }) s
/-- A flit that is sent to a beam of one line arrives. -/
theorem flitArrives_bytes (b : Beam) (f : Flit) (typ : BitVec 4) (s : State) (h : f.body.length = 240)
    (hr : running s = true ∧ beamLit (s.beam[b]) = true ∧ lineCount (s.beam[b]).rxMask ≤ 1 ∧ touchesWrong s b = false ∧
      f.place = (beamRec s b).peerPlace ∧ f.beam = (beamRec s b).peerBeam ∧ f.typ = typ) : flitArrives b (flitBytes f) typ f s := by
  have hw : rebuilt s b (flitBytes f) = flitBytes f := by unfold rebuilt; exact if_pos (Or.inl hr.2.2.1)
  exact ⟨hr.1, hr.2.1, by rw [hw]; exact Laws.flitOf_flitBytes f h, hr.2.2.2⟩
/-- The words of a flit rebuild into it on a beam of one line. -/
theorem flitOf_rebuilt (b : Beam) (f : Flit) (s : State) (h : f.body.length = 240) (hw : lineCount (s.beam[b]).rxMask ≤ 1) :
    flitOf (rebuilt s b (flitBytes f)) = some f := by
  have hr : rebuilt s b (flitBytes f) = flitBytes f := by unfold rebuilt; exact if_pos (Or.inl hw)
  rw [hr]; exact Laws.flitOf_flitBytes f h
/-- A flit that comes whole on each line arrives. -/
theorem wholeArrives_bytes (b : Beam) (f : Flit) (typ : BitVec 4) (s : State) (h : f.body.length = 240)
    (hr : running s = true ∧ beamLit (s.beam[b]) = true ∧ (s.beam[b]).rxMask &&& ~~~ wrongLines s b ≠ 0 ∧
      f.place = (beamRec s b).peerPlace ∧ f.beam = (beamRec s b).peerBeam ∧ f.typ = typ) : wholeArrives b (flitBytes f) typ f s :=
  ⟨hr.1, hr.2.1, Laws.flitOf_flitBytes f h, hr.2.2⟩


/-! ### Each clause of each statement has a state that meets its hypotheses -/

/-- Witnesses of MailboxMessagesMove. -/
theorem witness_mailbox_messages_move :
    (∃ (c : MbxTx) (tag : BitVec 16) (s : State), running s = true ∧ s.host.d3hot = false ∧ hostBound s (txReceiver c) (txNumber c) tag = true ∧
      txDown s c = false ∧ (txChan s c).go = false) ∧
    (∃ (c : Fin 16) (s : State), running s = true ∧ s.host.d3hot = false ∧ (s.mbx.f2h[c]).go = true ∧ s.mbx.f2hQueue[c] = []) ∧
    (∃ (c : Fin 16) (m : Msg) (r : List Msg) (s : State), running s = true ∧ s.host.d3hot = false ∧ (s.mbx.f2h[c]).go = true ∧ s.mbx.f2hQueue[c] = m
      :: r) ∧
    (∃ (x : SiteIx) (c : Fin 8) (s : State), running s = true ∧ s.host.d3hot = false ∧ ((s.mbx.d2h[x])[c]).go = true) ∧
    (∃ (x : SiteIx) (c : Fin 8) (s : State), running s = true ∧ s.mgt.fwState = 2 ∧ ((s.mbx.d2h[x])[c]).go = true) ∧
    (∃ (c : Fin 16) (s : State), running s = true ∧ s.mgt.fwState = 2 ∧ 2 ≤ c.val ∧ (s.mbx.h2f[c]).go = true) ∧
    (∃ (c : Fin 16) (tag : BitVec 16) (ws : Vector Word 16) (s : State), running s = true ∧ s.mgt.fwState = 2 ∧ fwBound s 1 c.val tag = true ∧
      (s.mbx.f2h[c]).go = false) ∧
    (∃ (x : SiteIx) (c : Fin 8) (tag : BitVec 16) (ws : Vector Word 16) (s : State), running s = true ∧ s.mgt.fwState = 2 ∧ fwBound s (2 + x.val)
      c.val tag = true ∧ siteUp s x = true ∧ ((s.mbx.h2d[x])[c]).go = false) ∧
    (∃ (c : MbxTx) (s : State), running s = true ∧ (txChan s c).go = true ∧ (txChan s c).timer.isSome = true) ∧
    (∃ (x : SiteIx) (c : Fin 8) (s : State), running s = true ∧ ((s.mbx.d2h[x])[c]).go = true ∧ ((s.mbx.d2h[x])[c]).timer.isSome = true) :=
  ⟨⟨.h2f 0, 0, up, by decide +kernel⟩,
   ⟨0, onF2h 0 (fun r => { r with go := true }) up, by decide +kernel⟩,
   ⟨0, {}, [], { onF2h 0 (fun r => { r with go := true }) up with mbx := { (onF2h 0 (fun r => { r with go := true }) up).mbx with f2hQueue := vmk 16 fun _ => [{}] } }, by decide +kernel⟩,
   ⟨0, 0, onD2h 0 0 (fun r => { r with go := true }) up, by decide +kernel⟩,
   ⟨0, 0, onD2h 0 0 (fun r => { r with go := true }) ({ up with mgt := { up.mgt with fwState := 2 } }), by decide +kernel⟩,
   ⟨2, onH2f 2 (fun r => { r with go := true }) ({ up with mgt := { up.mgt with fwState := 2 } }), by decide +kernel⟩,
   ⟨2, 7, vmk 16 fun _ => 0, { imaged { binds := [{ sender := 0, receiver := 1, channel := 2, tag := 7 }] } with mgt := { pen.mgt with fwState := 2 } }, by decide +kernel⟩,
   ⟨0, 1, 7, vmk 16 fun _ => 0, actSite 0 ({ imaged { binds := [{ sender := 0, receiver := 2, channel := 1, tag := 7 }] } with mgt := { pen.mgt with fwState := 2 } }), by decide +kernel⟩,
   ⟨.h2f 0, onH2f 0 (fun r => { r with go := true, timer := some (0, 10000) }) up, by decide +kernel⟩,
   ⟨0, 0, onD2h 0 0 (fun r => { r with go := true, timer := some (0, 10000) }) up, by decide +kernel⟩⟩

/-- Witnesses of MailboxSendRefusedKeepsMessage. -/
theorem witness_mailbox_send_refused_keeps_message :
    ∃ s s1 t t1 t2 : State, running s = true ∧ s.host.d3hot = false ∧ exec (.mbxSend (.h2f 2) 0) s = .next t ∧ hostBound s 0 2 0 = false ∧     exec
      (.mbxSend (.h2d 0 0) 0) s = .next t1 ∧ txDown s (.h2d 0 0) = true ∧ running s1 = true ∧ s1.host.d3hot = false ∧     exec (.mbxSend (.h2f 0) 0)
      s1 = .next t2 ∧ hostBound s1 0 0 0 = true ∧ txDown s1 (.h2f 0) = false ∧ (txChan s1 (.h2f 0)).go = true :=
  ⟨up, onH2f 0 (fun h => { h with go := true }) up, _, _, _, by decide +kernel, by decide +kernel, rfl, by decide +kernel, rfl, by decide +kernel, by decide +kernel, by decide +kernel, rfl, by decide +kernel, by decide +kernel, by decide +kernel⟩

/-- Witnesses of DoorbellRings. -/
theorem witness_doorbell_rings :
    (∃ (v : Word) (s : State), running s = true ∧ s.host.d3hot = false) ∧
    (∃ (v : Word) (s : State), running s = true ∧ s.mgt.fwState = 2) ∧
    (∃ (v : Word) (s : State), running s = true ∧ s.mgt.fwState = 2) ∧
    (∃ (v : Word) (s : State), running s = true ∧ s.mgt.fwState = 2) ∧
    (∃ (x : SiteIx) (v : Word) (s : State), running s = true ∧ s.host.d3hot = false ∧ v ≠ 0 ∧ siteUp s x = true ∧ (s.site[x]).sb.up = true) ∧
    (∃ (x : SiteIx) (v : Word) (s : State), running s = true ∧ s.host.d3hot = false ∧ v ≠ 0 ∧ siteUp s x = false) :=
  ⟨⟨0, up, by decide +kernel⟩,
   ⟨1, { up with mgt := { up.mgt with fwState := 2 } }, by decide +kernel⟩,
   ⟨1, { up with mgt := { up.mgt with fwState := 2 } }, by decide +kernel⟩,
   ⟨1, { up with mgt := { up.mgt with fwState := 2 } }, by decide +kernel⟩,
   ⟨0, 1, onSite 0 (fun q => { q with state := 3, sb := { q.sb with up := true } }) up, by decide +kernel⟩,
   ⟨0, 1, up, by decide +kernel⟩⟩

/-- Witnesses of LocksHaveOneOwner. -/
theorem witness_locks_have_one_owner :
    (∃ (m : Master) (n : Fin 32) (s : State), running s = true ∧ masterOn m s = true) ∧
    (∃ (m : Master) (n : Fin 32) (s : State), running s = true ∧ masterOn m s = true) ∧
    (∃ (m : Master) (s : State), running s = true ∧ regPath m s = true ∧ aget s.host.latch (m, 0x30084) = none) :=
  ⟨⟨.mgmt, 0, up, by decide +kernel⟩,
   ⟨.mgmt, 0, up, by decide +kernel⟩,
   ⟨.mgmt, up, by decide +kernel⟩⟩

/-- Witnesses of PcieFunctionSettings. -/
theorem witness_pcie_function_settings :
    (∃ (on : Bool) (s : State), running s = true) ∧
    (∃ (on : Bool) (s : State), running s = true) ∧
    (∃ (v : Fin 64) (on : Bool) (s : State), running s = true ∧ s.host.d3hot = false) ∧
    (∃ (sp : BitVec 4) (w : BitVec 6) (s : State), running s = true ∧ ¬(s.host.speed = sp ∧ s.host.width = w)) ∧
    (∃ (d3 : Bool) (s : State), running s = true) ∧
    (∃ (d3 : Bool) (cfg : List CfgAccess) (s : State), running s = true) ∧
    (∃ (d3 : Bool) (r : CfgReg) (s : State), running s = true) ∧
    (∃ (d3 : Bool) (v : Word) (s : State), running s = true ∧ fld v 7 5 ≤ 2 ∧ fld v 14 12 ≤ 5) ∧
    (∃ (d3 : Bool) (v : Word) (s : State), running s = true) ∧
    (∃ (s : State), running s = true) ∧
    (∃ (k : FnReset) (s : State), running s = true) :=
  ⟨⟨true, up, by decide +kernel⟩,
   ⟨true, up, by decide +kernel⟩,
   ⟨0, true, up, by decide +kernel⟩,
   ⟨1, 0, up, by decide +kernel⟩,
   ⟨true, up, by decide +kernel⟩,
   ⟨true, [], up, by decide +kernel⟩,
   ⟨false, .deviceControl, up, by decide +kernel⟩,
   ⟨true, 0, up, by decide +kernel⟩,
   ⟨true, 0, up, by decide +kernel⟩,
   ⟨up, by decide +kernel⟩,
   ⟨.flr, up, by decide +kernel⟩⟩

/-- Witnesses of RegisterAccesses. -/
theorem witness_register_accesses :
    (∃ (m : Master) (v : Word) (s : State), running s = true ∧ regPath m s = true) ∧
    (∃ (m : Master) (v : BitVec 3) (s : State), running s = true ∧ regPath m s = true) ∧
    (∃ (m : Master) (v : BitVec 3) (s : State), running s = true ∧ regPath m s = true) ∧
    (∃ (m : Master) (s : State), running s = true ∧ regPath m s = true ∧ aget s.host.latch (m, 0x50014) = none) ∧
    (∃ (m : Master) (w : Word) (s : State), running s = true ∧ regPath m s = true ∧ aget s.host.latch (m, 0x50018) = some w) ∧
    (∃ (m : Master) (off : Nat) (s : State), running s = true ∧ regPath m s = true ∧ accessOk off .b32 = true ∧ isLock off = false) ∧
    (∃ (m : Master) (off : Nat) (v : Word) (s : State), running s = true ∧ regPath m s = true ∧ accessOk off .b32 = true ∧ writeBad s off v = false) ∧
    (∃ (m : Master) (off : Nat) (z : AccessSize) (v : Word) (s : State), running s = true ∧ regPath m s = true ∧ (accessOk off z = false ∨ writeBad s
      off v = true)) ∧
    (∃ (m : Master) (off : Nat) (v : Word) (z : AccessSize) (s : State), running s = true ∧ regPath m s = false) ∧
    (∃ (m : Master) (off : Nat) (z : AccessSize) (s : State), running s = true ∧ regPath m s = true ∧ accessOk off z = false) :=
  ⟨⟨.mgmt, 0, up, by decide +kernel⟩,
   ⟨.mgmt, 0, up, by decide +kernel⟩,
   ⟨.mgmt, 0, up, by decide +kernel⟩,
   ⟨.mgmt, up, by decide +kernel⟩,
   ⟨.mgmt, 0, { up with host := { up.host with latch := [((.mgmt, 0x50018), 0)] } }, by decide +kernel⟩,
   ⟨.mgmt, 0x20, up, by decide +kernel⟩,
   ⟨.mgmt, 0x20, 0, up, by decide +kernel⟩,
   ⟨.mgmt, 1, .b32, 0, up, by decide +kernel⟩,
   ⟨.pcie, 0, 0, .b32, { up with host := { up.host with d3hot := true } }, by decide +kernel⟩,
   ⟨.mgmt, 0x50014, .b8, up, by decide +kernel⟩⟩

/-- Witnesses of CaptureAndEcho. -/
theorem witness_capture_and_echo :
    (∃ (s : State), running s = true ∧ s.host.d3hot = false) ∧
    (∃ (v : Word) (s : State), running s = true ∧ s.host.d3hot = false ∧ fld v 31 16 = (s.port[echoPort v]).epoch.toNat ∧ (s.port[echoPort v]).state =
      0 ∧ (s.port[echoPort v]).hold = true ∧ 1 ≤ fld v 5 0 ∧ fld v 5 0 ≤ 34 ∧ s.err.echo.result ≠ 1) ∧
    (∃ (v : Word) (s : State), running s = true ∧ s.host.d3hot = false ∧ fld v 31 16 = (s.port[echoPort v]).epoch.toNat ∧ s.dev.state = .penumbra ∧
      portUp (s.port[echoPort v]) = true ∧ (s.port[echoPort v]).peerPort.toNat = (echoPort v).val ∧ s.err.echo.result ≠ 1) ∧
    (∃ (v : Word) (s : State), running s = true ∧ s.host.d3hot = false ∧ fld v 31 16 = (s.site[echoSite v]).epoch.toNat ∧ (s.site[echoSite v]).state =
      1 ∧ (s.site[echoSite v]).hold = true ∧ fld v 13 8 < 32 ∧ s.err.echo.result ≠ 1) ∧
    (∃ (v : Word) (n : Nat) (e : Nat) (w : BitVec 7) (s : State), running s = true ∧ s.host.d3hot = false ∧ s.err.echo.result = 1 ∧ fld v 31 16 =
      (echoEpoch s).toNat ∧ s.err.echo.patternOn = true) ∧
    (∃ (s : State), running s = true ∧ echoAwaits s = true) ∧
    (∃ (s : State), running s = true ∧ echoAwaits s = true) :=
  ⟨⟨up, by decide +kernel⟩,
   ⟨0x01, onPort 0 (fun q => { q with hold := true }) up, by decide +kernel⟩,
   ⟨0, onPort 0 (fun q => { q with state := 3, peerPort := 0 }) pen, by decide +kernel⟩,
   ⟨0, onSite 0 (fun q => { q with state := 1, hold := true }) up, by decide +kernel⟩,
   ⟨0, 0, 0, 0, { up with err := { up.err with echo := { up.err.echo with result := 1, patternOn := true, mode := 1 } } }, by decide +kernel⟩,
   ⟨{ up with err := { up.err with echo := { up.err.echo with result := 1, mode := 2 } } }, by decide +kernel⟩,
   ⟨{ up with err := { up.err with echo := { up.err.echo with result := 1, mode := 2 } } }, by decide +kernel⟩⟩

/-- Witnesses of SuppliesAndResetInputs. -/
theorem witness_supplies_and_reset_inputs :
    (∃ (s : State), s.dev.powered = false) ∧
    (∃ (s : State), s.dev.powered = true) ∧
    (∃ (p : ResetPin) (us : Nat) (s : State), s.dev.powered = true ∧ 10 ≤ us) ∧
    (∃ (p : ResetPin) (us : Nat) (s : State), us < 10) ∧
    (∃ (p : ResetPin) (s : State), running s = false ∧ s.dev.state = .umbra ∧ running { s with dev := setPin p false s.dev } = true) ∧
    (∃ (p : ResetPin) (s : State), running { s with dev := setPin p false s.dev } = false) ∧
    (∃ (las : Nat) (aux : Nat) (s : State), running s = true ∧ aux < 690 ∧ 1620 ≤ las) :=
  ⟨⟨{ up with dev := { up.dev with powered := false } }, by decide +kernel⟩,
   ⟨up, by decide +kernel⟩,
   ⟨.sysRst, 10, up, by decide +kernel⟩,
   ⟨.sysRst, 9, up, by decide +kernel⟩,
   ⟨.sysRst, { up with dev := { up.dev with sysRst := true } }, by decide +kernel⟩,
   ⟨.sysRst, State.reset, by decide +kernel⟩,
   ⟨1620, 689, up, by decide +kernel⟩⟩

/-- Witnesses of BringUpEvents. -/
theorem witness_bring_up_events :
    (∃ (s : State), running s = true ∧ s.mgt.fwState = 1 ∧ s.img.lostArm = none) ∧
    (∃ (s : State), running s = true ∧ s.mgt.fwState = 1) ∧
    (∃ (s : State), running s = true ∧ s.mgt.lastDisagree = none) ∧
    (∃ (u : Nat) (s : State), running s = true ∧ s.mgt.lastDisagree = some u ∧ s.time ≤ u + 1000000) ∧
    (∃ (s : State), running s = true ∧ s.dev.state = .umbra ∧ s.dev.fatal = false ∧ s.dev.tripped = false ∧ s.mgt.fwState = 2) ∧
    (∃ (g : CombGroup) (s : State), running s = true ∧ s.dev.state ≠ .umbra ∧ (s.comb.group[g]).started = none ∧ groupTurn g s = true ∧ (∀ d : Fin 5,
      ((s.comb.group[g]).die[d]).state = .off)) ∧
    (∃ (g : CombGroup) (s : State), running s = true ∧ (s.comb.group[g]).started = none ∧ groupTurn g s = false) ∧
    (∃ (g : CombGroup) (d : Fin 4) (s : State), running s = true ∧ (s.comb.group[g]).started.isSome = true ∧ ((s.comb.group[g]).die[fin! 5
      d.val]).state = .warming ∧ diePos (s.comb.group[g]) (fin! 5 d.val) = some d) ∧
    (∃ (h : Stack) (r : HbmRate) (s : State), running s = true ∧ (s.hbm.stack[h]).state = 1) ∧
    (∃ (h : Stack) (s : State), running s = true ∧ (s.hbm.stack[h]).state = 1) ∧
    (∃ (h : Stack) (s : State), running s = true ∧ (s.hbm.stack[h]).state = 2) :=
  ⟨⟨{ up with mgt := { up.mgt with fwState := 1 } }, by decide +kernel⟩,
   ⟨{ up with mgt := { up.mgt with fwState := 1 } }, by decide +kernel⟩,
   ⟨up, by decide +kernel⟩,
   ⟨0, { up with time := 1000000, mgt := { up.mgt with lastDisagree := some 0 } }, by decide +kernel⟩,
   ⟨{ up with mgt := { up.mgt with fwState := 2 } }, by decide +kernel⟩,
   ⟨0, pen, by decide +kernel⟩,
   ⟨1, up, by decide +kernel⟩,
   ⟨0, 0, onDie 0 0 (fun y => { y with state := .warming }) (onGroup 0 (fun q => { q with started := some 0 }) pen), by decide +kernel⟩,
   ⟨0, .r64, onStack 0 (fun q => { q with state := 1 }) up, by decide +kernel⟩,
   ⟨0, onStack 0 (fun q => { q with state := 1 }) up, by decide +kernel⟩,
   ⟨0, onStack 0 (fun q => { q with state := 2 }) up, by decide +kernel⟩⟩

/-- Witnesses of LitAndPenumbra. -/
theorem witness_lit_and_penumbra :
    (∃ (s : State), running s = true ∧ litReady s = true) ∧
    (∃ (s : State), running s = true ∧ s.dev.litEntry = true ∧ s.dev.state = .penumbra ∧ litTrained s = true ∧ s.img.committing = false ∧
      s.img.penumbra = []) ∧
    (∃ (m : Msg) (s : State), running s = true ∧ s.mgt.fwState = 2 ∧ imgWaiting s = some m ∧ mcode m = 0x0107 ∧ mword m 1 < 2 ∧ s.dev.state = .umbra) ∧
    (∃ (m : Msg) (s : State), running s = true ∧ s.mgt.fwState = 2 ∧ imgWaiting s = some m ∧ mcode m = 0x0107 ∧ mword m 1 < 2 ∧ s.dev.state =
      .penumbra ∧ s.dev.litEntry = false ∧ s.img.state ≠ .armed ∧ (s.mbx.f2h[(0 : Fin 16)]).go = false) ∧
    (∃ (s : State), running s = true ∧ s.dev.state = .lit ∧ s.sq.fence = none ∧ s.img.copying = false ∧ s.ctl.phase = 4 ∧ (∃ e, e ∈ s.img.penumbra)) :=
  ⟨⟨(fun (s : State) => { s with img := { s.img with startDue := true } }) (onStack 1 (fun q => { q with state := 2 }) (onStack 0 (fun q => { q with state := 2 }) ({ imaged { ports := Vector.replicate 64 { place := 0xFFFFFFFF } } with comb := { group := Vector.replicate 4 { locked := true } } }))), by decide +kernel⟩,
   ⟨{ pen with dev := { pen.dev with litEntry := true } }, by decide +kernel⟩,
   ⟨msgW [0x0107], asks (msgW [0x0107]) { pen with dev := { pen.dev with state := .umbra } }, by decide +kernel⟩,
   ⟨msgW [0x0107, 1], asks (msgW [0x0107, 1]) pen, by decide +kernel⟩,
   ⟨{ pen with dev := { pen.dev with state := .lit }, ctl := { pen.ctl with phase := 4 }, img := { pen.img with penumbra := [(0, 0)] } }, by refine ⟨by decide +kernel, by decide +kernel, by decide +kernel, by decide +kernel, by decide +kernel, (0, 0), by decide +kernel⟩⟩⟩

/-- Witnesses of ImageLoadingCommands. -/
theorem witness_image_loading_commands :
    (∃ (m : Msg) (s : State), imgAsked 0x0101 m s) ∧
    (∃ (m : Msg) (s : State), imgAsked 0x0102 m s ∧ loadInUse s = false ∧ s.img.state = .idle ∧ beginStatus s (mword2 m 1) = 0) ∧
    (∃ (m : Msg) (s : State), imgAsked 0x0103 m s ∧ s.img.state = .loading ∧ mword m 4 < 2 ∧ nth s.img.half.toList (mword m 4) none = none ∧ 0 < mword
      m 3 ∧ mword m 3 ≤ 2 ^ 25 ∧ mword2 m 1 + mword m 3 ≤ s.img.size) ∧
    (∃ (h : Half) (c : Chunk) (s : State), running s = true ∧ s.img.half[halfIx h] = some c ∧ c.dead = false ∧ c.torn = false ∧ (s.mbx.f2h[(0 : Fin
      16)]).go = false) ∧
    (∃ (m : Msg) (s : State), imgAsked 0x0104 m s ∧ s.img.state = .loading) ∧
    (∃ (words : List (Nat × WordError)) (s : State) (u : State), running s = true ∧ s.img.state = .verifying ∧ (s.mbx.f2h[(0 : Fin 16)]).go = false ∧
      u = loadReads (verifyRanges s) words s) ∧
    (∃ (m : Msg) (s : State), imgAsked 0x0106 m s ∧ loadInUse s = false ∧ s.img.state = .verified) ∧
    (∃ (off : BitVec 26) (data : List Byte) (n : Nat) (s : State), hostOn s ∧ s.host.bar2.wf = true ∧ off.toNat + data.length ≤ 2 ^ 26) ∧
    (∃ (m : Msg) (s : State), running s = true ∧ imgOn s = true ∧ imgWaiting s = some m ∧ imgUndefined m = true ∧ (s.mbx.f2h[(0 : Fin 16)]).go =
      false) :=
  ⟨⟨msgW [0x0101], asks (msgW [0x0101]) (pen), by simp only [imgAsked]; decide +kernel⟩,
   ⟨msgW [0x0102, 0, 1], asks (msgW [0x0102, 0, 1]) (onStack 1 (fun q => { q with state := 2 }) pen), by simp only [imgAsked]; decide +kernel⟩,
   ⟨msgW [0x0103, 0, 0, 0x2000000, 1], asks (msgW [0x0103, 0, 0, 0x2000000, 1]) ({ pen with img := { pen.img with state := .loading, size := 0x2000000 } }), by simp only [imgAsked]; decide +kernel⟩,
   ⟨.a, { off := 0, len := 1, tag := 0 }, { pen with img := { pen.img with half := vmk 2 fun _ => some { off := 0, len := 1, tag := 0 } } }, by decide +kernel⟩,
   ⟨msgW [0x0104], asks (msgW [0x0104]) ({ pen with img := { pen.img with state := .loading } }), by simp only [imgAsked]; decide +kernel⟩,
   ⟨[], { pen with img := { pen.img with state := .verifying } }, _, by decide +kernel, by decide +kernel, by decide +kernel, rfl⟩,
   ⟨msgW [0x0106], asks (msgW [0x0106]) ({ pen with img := { pen.img with state := .verified } }), by simp only [imgAsked]; decide +kernel⟩,
   ⟨0x3FFFFFF, [1], 0, up, by simp only [hostOn]; decide +kernel⟩,
   ⟨msgW [0x0105, 2], asks (msgW [0x0105, 2]) (pen), by decide +kernel⟩⟩

/-- Witnesses of CommitsChangeTheImage. -/
theorem witness_commits_change_the_image :
    (∃ (m : Msg) (s : State), imgAsked 0x0105 m s ∧ mword m 1 = 0 ∧ fullStatus s = 0) ∧
    (∃ (words : List (Nat × WordError)) (i : Image) (s : State) (u : State), running s = true ∧ s.img.pending = some i ∧ s.img.committing = true ∧ u =
      loadReads [(0, s.img.size)] words s ∧ poisonIn u loadBase s.img.size = none ∧ (s.mbx.f2h[(0 : Fin 16)]).go = false ∧ imageConsistent (imageRead
      words i u) = true) ∧
    (∃ (words : List (Nat × WordError)) (i : Image) (s : State) (u : State), running s = true ∧ s.img.pending = some i ∧ s.img.committing = true ∧ u =
      loadReads [(0, s.img.size)] words s ∧ poisonIn u loadBase s.img.size = none ∧ (s.mbx.f2h[(0 : Fin 16)]).go = false ∧ imageConsistent (imageRead
      words i u) = false) ∧
    (∃ (words : List (Nat × WordError)) (i : Image) (s : State) (u : State), running s = true ∧ s.img.pending = some i ∧ s.img.committing = true ∧ u =
      loadReads [(0, s.img.size)] words s ∧ (poisonIn u loadBase s.img.size).isSome = true ∧ (s.mbx.f2h[(0 : Fin 16)]).go = false) ∧
    (∃ (m : Msg) (s : State), imgAsked 0x0105 m s ∧ mword m 1 = 1 ∧ restartStatus s (BitVec.ofNat 16 (mword m 2)) = 0) ∧
    (∃ (s : State), running s = true ∧ applyReady s = true) ∧
    (∃ (words : List (Nat × WordError)) (c : Image) (p : Image) (a : ArmRec) (s : State) (u : State), running s = true ∧ s.img.copying = true ∧
      s.img.image = some c ∧ s.img.pending = some p ∧ s.ctl.arm = some a ∧ u = loadReads (copiedRanges c p a.part) words s ∧ rangesPoison u
      (copiedRanges c p a.part) = none ∧ (s.mbx.f2h[(0 : Fin 16)]).go = false ∧ s.img.penumbra = [] ∧ imageConsistent (imageRead words p u) = true) ∧
    (∃ (words : List (Nat × WordError)) (c : Image) (p : Image) (a : ArmRec) (s : State) (u : State), running s = true ∧ s.img.copying = true ∧
      s.img.image = some c ∧ s.img.pending = some p ∧ s.ctl.arm = some a ∧ u = loadReads (copiedRanges c p a.part) words s ∧ (rangesPoison u
      (copiedRanges c p a.part)).isSome = true ∧ (s.mbx.f2h[(0 : Fin 16)]).go = false ∧ s.img.penumbra = []) :=
  ⟨⟨msgW [0x0105], asks (msgW [0x0105]) (onStack 1 (fun q => { q with state := 2 }) ({ pen with img := { pen.img with state := .verified, pending := some pendImg } })), by simp only [imgAsked]; decide +kernel⟩,
   ⟨[], pendImg, { pen with img := { pen.img with pending := some pendImg, committing := true, size := 64 } }, _, by decide +kernel, by decide +kernel, by decide +kernel, rfl, by decide +kernel, by decide +kernel, by decide +kernel⟩,
   ⟨[], { pendImg with sound := false }, { pen with img := { pen.img with pending := some { pendImg with sound := false }, committing := true, size := 64 } }, _, by decide +kernel, by decide +kernel, by decide +kernel, rfl, by decide +kernel, by decide +kernel, by decide +kernel⟩,
   ⟨[(loadBase / 16, .more true)], pendImg, { pen with img := { pen.img with pending := some pendImg, committing := true, size := 64 } }, _, by decide +kernel, by decide +kernel, by decide +kernel, rfl, by decide +kernel, by decide +kernel⟩,
   ⟨msgW [0x0105, 1, 7], asks (msgW [0x0105, 1, 7]) ({ pen with img := { pen.img with state := .verified, pending := some restImg, image := some restImg } }), by simp only [imgAsked]; decide +kernel⟩,
   ⟨{ pen with img := { pen.img with state := .armed }, ctl := { pen.ctl with phase := 6, heldAt := some 7, arm := some { id := 7, tag := 0 } } }, by decide +kernel⟩,
   ⟨[], {}, pendImg, { id := 7, tag := 0 }, { pen with img := { pen.img with copying := true, image := some {}, pending := some pendImg }, ctl := { pen.ctl with arm := some { id := 7, tag := 0 } } }, _, by decide +kernel, by decide +kernel, by decide +kernel, by decide +kernel, by decide +kernel, rfl, by decide +kernel, by decide +kernel, by decide +kernel, by decide +kernel⟩,
   ⟨[(loadBase / 16, .more true)], {}, { pendImg with spans := [(5, 0, 0, 32)] }, { id := 7, tag := 0 }, { pen with img := { pen.img with copying := true, image := some {}, pending := some { pendImg with spans := [(5, 0, 0, 32)] } }, ctl := { pen.ctl with arm := some { id := 7, tag := 0 } } }, _, by decide +kernel, by decide +kernel, by decide +kernel, by decide +kernel, by decide +kernel, rfl, by decide +kernel, by decide +kernel, by decide +kernel⟩⟩

/-- Witnesses of FirmwareUpdateRuns. -/
theorem witness_firmware_update_runs :
    (∃ (p : MgtPath) (m : Msg) (s : State), mgtAsked p 0x0202 m s ∧ s.mgt.update = none ∧ s.img.state = .idle ∧ mword2 m 1 ≤ 2 ^ 24 ∧
      s.mgt.flashFitted = true) ∧
    (∃ (u : FwUpdate) (s : State), running s = true ∧ s.mgt.update = some u ∧ u.phase = .erasing ∧ (s.mbx.f2h[(1 : Fin 16)]).go = false ∧
      s.mgt.i3cRspGo = false) ∧
    (∃ (p : MgtPath) (m : Msg) (u : FwUpdate) (s : State), mgtAsked p 0x0203 m s ∧ s.mgt.update = some u ∧ u.path = p ∧ u.phase = .ready ∧ mword m 4 ≤
      2 ∧ 0 < mword m 3 ∧ mword m 3 ≤ fwChunkMax p (mword m 4) ∧ mword2 m 1 + mword m 3 ≤ u.size) ∧
    (∃ (u : FwUpdate) (off : Nat) (len : Nat) (s : State), running s = true ∧ s.mgt.update = some u ∧ u.phase = .programming off len 2 ∧ u.torn =
      false ∧ (s.mbx.f2h[(1 : Fin 16)]).go = false ∧ s.mgt.i3cRspGo = false) ∧
    (∃ (p : MgtPath) (m : Msg) (u : FwUpdate) (s : State), mgtAsked p 0x0204 m s ∧ s.mgt.update = some u ∧ u.path = p ∧ u.phase = .ready) ∧
    (∃ (u : FwUpdate) (s : State), running s = true ∧ s.mgt.update = some u ∧ u.phase = .verifying ∧ (s.mbx.f2h[(1 : Fin 16)]).go = false ∧
      s.mgt.i3cRspGo = false) ∧
    (∃ (u : FwUpdate) (s : State), running s = true ∧ s.mgt.update = some u ∧ u.phase = .verifying ∧ (s.mbx.f2h[(1 : Fin 16)]).go = false ∧
      s.mgt.i3cRspGo = false) ∧
    (∃ (p : MgtPath) (m : Msg) (u : FwUpdate) (s : State), mgtAsked p 0x0205 m s ∧ s.mgt.update = some u ∧ u.path = p ∧ u.phase = .verified) ∧
    (∃ (u : FwUpdate) (s : State), running s = true ∧ s.mgt.update = some u ∧ u.phase = .activating ∧ (s.mbx.f2h[(1 : Fin 16)]).go = false ∧
      s.mgt.i3cRspGo = false) ∧
    (∃ (p : MgtPath) (m : Msg) (s : State), mgtAsked p 0x0206 m s ∧ (s.mgt.slots[s.mgt.running]).state = .pending ∧ s.mgt.runs = []) ∧
    (∃ (p : MgtPath) (tag : BitVec 16) (s : State), running s = true ∧ s.mgt.runs = [.confirm p tag] ∧ (s.mbx.f2h[(1 : Fin 16)]).go = false ∧
      s.mgt.i3cRspGo = false) :=
  ⟨⟨.i3c, msgW [0x0202, 0x1000000], asksI3c (msgW [0x0202, 0x1000000]) (pen), by simp only [mgtAsked]; decide +kernel⟩,
   ⟨{ path := .i3c, size := 64, tag := 0, phase := .erasing }, { pen with mgt := { pen.mgt with update := some { path := .i3c, size := 64, tag := 0, phase := .erasing } } }, by decide +kernel⟩,
   ⟨.i3c, msgW [0x0203, 0, 0, 64, 2], { path := .i3c, size := 64, tag := 0, phase := .ready }, asksI3c (msgW [0x0203, 0, 0, 64, 2]) ({ pen with mgt := { pen.mgt with update := some { path := .i3c, size := 64, tag := 0, phase := .ready } } }), by simp only [mgtAsked]; decide +kernel⟩,
   ⟨{ path := .i3c, size := 64, tag := 0, phase := .programming 0 64 2 }, 0, 64, { pen with mgt := { pen.mgt with update := some { path := .i3c, size := 64, tag := 0, phase := .programming 0 64 2 } } }, by decide +kernel⟩,
   ⟨.i3c, msgW [0x0204], { path := .i3c, size := 64, tag := 0, phase := .ready }, asksI3c (msgW [0x0204]) ({ pen with mgt := { pen.mgt with update := some { path := .i3c, size := 64, tag := 0, phase := .ready } } }), by simp only [mgtAsked]; decide +kernel⟩,
   ⟨{ path := .i3c, size := 64, tag := 0, phase := .verifying }, { pen with mgt := { pen.mgt with update := some { path := .i3c, size := 64, tag := 0, phase := .verifying } } }, by decide +kernel⟩,
   ⟨{ path := .i3c, size := 64, tag := 0, phase := .verifying }, { pen with mgt := { pen.mgt with update := some { path := .i3c, size := 64, tag := 0, phase := .verifying } } }, by decide +kernel⟩,
   ⟨.i3c, msgW [0x0205], { path := .i3c, size := 64, tag := 0, phase := .verified }, asksI3c (msgW [0x0205]) ({ pen with mgt := { pen.mgt with update := some { path := .i3c, size := 64, tag := 0, phase := .verified } } }), by simp only [mgtAsked]; decide +kernel⟩,
   ⟨{ path := .i3c, size := 64, tag := 0, phase := .activating }, { pen with mgt := { pen.mgt with update := some { path := .i3c, size := 64, tag := 0, phase := .activating } } }, by decide +kernel⟩,
   ⟨.i3c, msgW [0x0206], asksI3c (msgW [0x0206]) (onBoot 0 (fun b => { b with state := .pending }) pen), by simp only [mgtAsked]; decide +kernel⟩,
   ⟨.i3c, 0, { pen with mgt := { pen.mgt with runs := [.confirm .i3c 0] } }, by decide +kernel⟩⟩

/-- Witnesses of ManagementCommandsRun. -/
theorem witness_management_commands_run :
    (∃ (p : MgtPath) (m : Msg) (s : State), mgtAsked p 0x0201 m s) ∧
    (∃ (p : MgtPath) (m : Msg) (s : State), mgtAsked p 0x0207 m s ∧ s.mgt.runs = []) ∧
    (∃ (p : MgtPath) (tag : BitVec 16) (body : List Byte) (s : State), running s = true ∧ s.mgt.runs = [.attest p tag body] ∧ (s.mbx.f2h[(1 : Fin
      16)]).go = false ∧ s.mgt.i3cRspGo = false) ∧
    (∃ (p : MgtPath) (m : Msg) (g : CombGroup) (k : Fin 4) (s : State), mgtAsked p 0x0208 m s ∧ mword m 2 = 16 * g.val + k.val ∧ mword m 3 =
      (s.port[fin! 64 (16 * g.val + 4 * k.val)]).epoch.toNat ∧ swapStatus s g k = 0 ∧ s.mgt.runs = []) ∧
    (∃ (g : CombGroup) (k : Fin 4) (s : State), running s = true ∧ swapNow s = some (g, k)) ∧
    (∃ (p : MgtPath) (m : Msg) (r : FatalRec) (s : State), mgtAsked p 0x0209 m s ∧ mword m 2 ≤ 127 ∧ s.mgt.fatals[mword m 2]? = some r) ∧
    (∃ (p : MgtPath) (m : Msg) (s : State), mgtAsked p 0x020A m s) ∧
    (∃ (p : MgtPath) (tag : BitVec 16) (s : State), running s = true ∧ s.mgt.runs = [.fatalClear p tag] ∧ (s.mbx.f2h[(1 : Fin 16)]).go = false ∧
      s.mgt.i3cRspGo = false) ∧
    (∃ (r : FatalRec) (rest : List FatalRec) (s : State), running s = true ∧ s.mgt.fatalPending = r :: rest ∧ s.mgt.fwState = 2 ∧ s.mgt.flashFitted =
      true) ∧
    (∃ (p : MgtPath) (m : Msg) (s : State), mgtAsked p (mcode m) m s ∧ mgtUndefined m = true) :=
  ⟨⟨.i3c, msgW [0x0201], asksI3c (msgW [0x0201]) (pen), by simp only [mgtAsked]; decide +kernel⟩,
   ⟨.i3c, msgW [0x0207], asksI3c (msgW [0x0207]) (pen), by simp only [mgtAsked]; decide +kernel⟩,
   ⟨.i3c, 0, [], { pen with mgt := { pen.mgt with runs := [.attest .i3c 0 []] } }, by decide +kernel⟩,
   ⟨.i3c, msgW [0x0208], 0, 0, asksI3c (msgW [0x0208]) (onDie 0 4 (fun y => { y with state := .standby }) (onDie 0 0 (fun y => { y with state := .active }) pen)), by simp only [mgtAsked]; decide +kernel⟩,
   ⟨0, 2, onGroup 0 (fun q => { q with task := some (.planned 2) }) up, by decide +kernel⟩,
   ⟨.i3c, msgW [0x0209], { time := 0, log := [], snap := ([], (0, 0), (0, 0)), seed := 0 }, asksI3c (msgW [0x0209]) ({ pen with mgt := { pen.mgt with fatals := [{ time := 0, log := [], snap := ([], (0, 0), (0, 0)), seed := 0 }] } }), by simp only [mgtAsked]; decide +kernel⟩,
   ⟨.i3c, msgW [0x020A], asksI3c (msgW [0x020A]) (pen), by simp only [mgtAsked]; decide +kernel⟩,
   ⟨.i3c, 0, { pen with mgt := { pen.mgt with runs := [.fatalClear .i3c 0] } }, by decide +kernel⟩,
   ⟨{ time := 0, log := [], snap := ([], (0, 0), (0, 0)), seed := 0 }, [], { pen with mgt := { pen.mgt with fatalPending := [{ time := 0, log := [], snap := ([], (0, 0), (0, 0)), seed := 0 }] } }, by decide +kernel⟩,
   ⟨.i3c, msgW [0x0208, 0, 0x40], asksI3c (msgW [0x0208, 0, 0x40]) (pen), by simp only [mgtAsked]; decide +kernel⟩⟩

/-- Witnesses of I3cTargetServes. -/
theorem witness_i3c_target_serves :
    (∃ (a : BitVec 7) (via : Option (BitVec 7)) (s : State), running s = true ∧ (via = none ∨ via = some 0x5A)) ∧
    (∃ (a : BitVec 7) (v : BitVec 7) (s : State), running s = true ∧ v ≠ 0x5A) ∧
    (∃ (v : Word) (k : Fin 16) (s : State), running s = true ∧ s.mgt.i3cAddr.isSome = true) ∧
    (∃ (v : Word) (s : State), running s = true ∧ s.mgt.i3cAddr.isSome = true ∧ s.mgt.i3cGo = false) ∧
    (∃ (v : Word) (s : State), running s = true ∧ s.mgt.i3cAddr.isSome = true) ∧
    (∃ (v : Word) (s : State), running s = true ∧ s.mgt.i3cAddr.isSome = true) ∧
    (∃ (s : State), running s = true ∧ s.mgt.i3cAddr.isSome = true ∧ s.mgt.i3cOff = 0x00020 ∧ aget s.mgt.i3cLatch 0x20 = none) ∧
    (∃ (off : Word) (ws : List Word) (s : State), running s = true ∧ s.mgt.i3cAddr.isSome = true ∧ i3cBad s off.toNat ws = false) ∧
    (∃ (n : Nat) (s : State), running s = true ∧ s.mgt.i3cAddr.isSome = true) ∧
    (∃ (s : State), running s = true ∧ s.mgt.i3cAddr.isSome = true ∧ s.mgt.i3cGo = false) ∧
    (∃ (s : State), running s = true ∧ s.mgt.i3cAddr.isSome = true ∧ s.mgt.i3cRspGo = true ∧ s.mgt.i3cHeld = []) ∧
    (∃ (w : Vector Word 16) (r : List (Vector Word 16)) (s : State), running s = true ∧ s.mgt.i3cAddr.isSome = true ∧ s.mgt.i3cRspGo = true ∧
      s.mgt.i3cHeld = w :: r) ∧
    (∃ (w : BitVec 10) (s : State), running s = true ∧ s.mgt.i3cAddr.isSome = true ∧ 300 ≤ w.toNat ∧ w.toNat ≤ 850) :=
  ⟨⟨0x33, some 0x5A, up, by decide +kernel⟩,
   ⟨0, 0, up, by decide +kernel⟩,
   ⟨1, 3, { up with mgt := { up.mgt with i3cAddr := some 0x5A } }, by decide +kernel⟩,
   ⟨0, { up with mgt := { up.mgt with i3cAddr := some 0x5A } }, by decide +kernel⟩,
   ⟨0, { up with mgt := { up.mgt with i3cAddr := some 0x5A } }, by decide +kernel⟩,
   ⟨0, { up with mgt := { up.mgt with i3cAddr := some 0x5A } }, by decide +kernel⟩,
   ⟨{ up with mgt := { up.mgt with i3cAddr := some 0x5A, i3cOff := 0x20 } }, by decide +kernel⟩,
   ⟨0x00020, [7, 8], { up with mgt := { up.mgt with i3cAddr := some 0x5A } }, by decide +kernel⟩,
   ⟨2, { up with mgt := { up.mgt with i3cAddr := some 0x5A } }, by decide +kernel⟩,
   ⟨{ up with mgt := { up.mgt with i3cAddr := some 0x5A } }, by decide +kernel⟩,
   ⟨{ up with mgt := { up.mgt with i3cAddr := some 0x5A, i3cRspGo := true } }, by decide +kernel⟩,
   ⟨Vector.replicate 16 0, [], { up with mgt := { up.mgt with i3cAddr := some 0x5A, i3cRspGo := true, i3cHeld := [Vector.replicate 16 0] } }, by decide +kernel⟩,
   ⟨850, { up with mgt := { up.mgt with i3cAddr := some 0x5A } }, by decide +kernel⟩⟩

/-- Witnesses of Bar4ReachesTheReservoir. -/
theorem witness_bar4_reaches_the_reservoir :
    (∃ (off : BitVec 36) (data : List Byte) (s : State), hostOn s ∧ s.hbm.mem.wf = true ∧ bar4Shaped (bar4Addr s off) data.length = true ∧
      bar4HostError s (bar4Addr s off) data.length = false ∧ bar4Refused s (bar4Addr s off) = false) ∧
    (∃ (off : BitVec 36) (n : Nat) (s : State), hostOn s ∧ bar4Shaped (bar4Addr s off) n = true ∧ bar4HostError s (bar4Addr s off) n = false ∧
      bar4Refused s (bar4Addr s off) = false ∧ poisonIn s (bar4Addr s off) n = none ∧ bar4Addr s off / 16 ∉ s.hbm.poison) ∧
    (∃ (off : BitVec 36) (n : Nat) (e : WordError) (words : List (Nat × WordError)) (s : State) (u : State), hostOn s ∧ bar4Shaped (bar4Addr s off) n
      = true ∧ bar4HostError s (bar4Addr s off) n = false ∧ bar4Refused s (bar4Addr s off) = false ∧ u = readRange srcBar4 (bar4Addr s off) n
      ((bar4Addr s off / 16, e) :: words) s ∧ poisonIn u (bar4Addr s off) n = none) ∧
    (∃ (off : BitVec 36) (n : Nat) (e : WordError) (words : List (Nat × WordError)) (s : State) (u : State), hostOn s ∧ bar4Shaped (bar4Addr s off) n
      = true ∧ bar4HostError s (bar4Addr s off) n = false ∧ bar4Refused s (bar4Addr s off) = false ∧ u = readRange srcBar4 (bar4Addr s off) n
      ((bar4Addr s off / 16, e) :: words) s ∧ (poisonIn u (bar4Addr s off) n).isSome = true) ∧
    (∃ (off : BitVec 36) (n : Nat) (e : WordError) (words : List (Nat × WordError)) (s : State), hostOn s ∧ bar4Shaped (bar4Addr s off) n = true ∧
      bar4HostError s (bar4Addr s off) n = false ∧ bar4Refused s (bar4Addr s off) = true) ∧
    (∃ (off : BitVec 36) (data : List Byte) (s : State), hostOn s ∧ bar4Shaped (bar4Addr s off) data.length = true ∧ bar4HostError s (bar4Addr s off)
      data.length = false ∧ bar4Refused s (bar4Addr s off) = true) ∧
    (∃ (off : BitVec 36) (data : List Byte) (s : State), hostOn s ∧ bar4Shaped (bar4Addr s off) data.length = true ∧ bar4HostError s (bar4Addr s off)
      data.length = true) :=
  ⟨⟨0xFFE, [1, 2], onStack 0 (fun q => { q with state := 2 }) up, by simp only [hostOn]; decide +kernel⟩,
   ⟨0, 4096, onStack 0 (fun q => { q with state := 2 }) up, by simp only [hostOn]; decide +kernel⟩,
   ⟨0, 16, .oneNibble, [], onStack 0 (fun q => { q with state := 2 }) (imaged { regions := [{ id := 1, use := 0, init := 0, stack := 0, base := 0, length := 256 }] }), _, by simp only [hostOn]; decide +kernel, by decide +kernel, by decide +kernel, by decide +kernel, rfl, by decide +kernel⟩,
   ⟨0, 16, .more true, [], onStack 0 (fun q => { q with state := 2 }) (imaged { regions := [{ id := 1, use := 0, init := 0, stack := 0, base := 0, length := 256 }] }), _, by simp only [hostOn]; decide +kernel, by decide +kernel, by decide +kernel, by decide +kernel, rfl, by decide +kernel⟩,
   ⟨0, 1, .none, [], up, by simp only [hostOn]; decide +kernel⟩,
   ⟨0, [1], up, by simp only [hostOn]; decide +kernel⟩,
   ⟨0, [1], imaged { regions := [{ id := 1, use := 3, init := 0, stack := 0, base := 0, length := 16 }] }, by simp only [hostOn]; decide +kernel⟩⟩

/-- Witnesses of ReservoirControl. -/
theorem witness_reservoir_control :
    (∃ (b : BitVec 7) (s : State), hostOn s ∧ b.toNat ≤ 64) ∧
    (∃ (b : BitVec 7) (s : State), hostOn s ∧ 64 < b.toNat) ∧
    (∃ (on : Bool) (h : BitVec 8) (s : State), hostOn s ∧ 1 ≤ h.toNat ∧ h.toNat ≤ 168) ∧
    (∃ (s : State), running s = true ∧ s.hbm.scrubOn = true ∧ (s.hbm.stack[stackOf (16 * s.hbm.scrubPos)]).state = 2 ∧ s.hbm.scrubPos ∉ s.hbm.poison ∧
      s.hbm.scrubPos + 1 < 2 ^ 33) ∧
    (∃ (s : State), running s = true ∧ s.hbm.scrubOn = true ∧ (s.hbm.stack[stackOf (16 * s.hbm.scrubPos)]).state = 2) ∧
    (∃ (h : Stack) (t8 : Int) (n : Nat) (s : State), running s = true) :=
  ⟨⟨64, up, by simp only [hostOn]; decide +kernel⟩,
   ⟨65, up, by simp only [hostOn]; decide +kernel⟩,
   ⟨true, 168, up, by simp only [hostOn]; decide +kernel⟩,
   ⟨{ onStack 0 (fun q => { q with state := 2 }) up with hbm := { (onStack 0 (fun q => { q with state := 2 }) up).hbm with scrubOn := true } }, by decide +kernel⟩,
   ⟨{ onStack 0 (fun q => { q with state := 2 }) up with hbm := { (onStack 0 (fun q => { q with state := 2 }) up).hbm with scrubOn := true } }, by decide +kernel⟩,
   ⟨0, 0, 0, up, by decide +kernel⟩⟩

/-- Witnesses of PowerAlertAndDroop. -/
theorem witness_power_alert_and_droop :
    (∃ (rails : List RailSample) (tiles : List Nat) (s : State), running s = true) ∧
    (∃ (s : State), running s = true) ∧
    (∃ (mv : Nat) (w : Nat) (s : State), running s = true ∧ s.pwr.raise = some w ∧ opWanted s = w ∧ railMv s.pwr w ≤ mv + 5 ∧ mv ≤ railMv s.pwr w + 5
      ∧ s.pwr.droopQuiet = true ∧ s.pwr.droop = 0) ∧
    (∃ (b : BitVec 3) (off : Bool) (s : State), hostOn s) ∧
    (∃ (b : BitVec 3) (e : BitVec 16) (s : State), hostOn s ∧ e ≠ s.pwr.epoch) ∧
    (∃ (w : BitVec 10) (s : State), hostOn s ∧ 300 ≤ w.toNat ∧ w.toNat ≤ 850) ∧
    (∃ (ns : Nat) (s : State), running s = true ∧ 20 ≤ ns ∧ s.pwr.alertPin = false) ∧
    (∃ (ns : Nat) (s : State), running s = true ∧ ns < 20) ∧
    (∃ (s : State), running s = true ∧ s.pwr.alertPin = true) ∧
    (∃ (s : State), running s = true) ∧
    (∃ (b : Fin 19) (s : State), running s = true) ∧
    (∃ (b : Fin 19) (s : State), running s = true) ∧
    (∃ (s : State), running s = true ∧ s.pwr.droop = 0) :=
  ⟨⟨[], [], up, by decide +kernel⟩,
   ⟨up, by decide +kernel⟩,
   ⟨railMv up.pwr 0, 0, { up with pwr := { up.pwr with raise := some 0, droopQuiet := true } }, by refine ⟨by decide +kernel, by decide +kernel, by decide +kernel, Nat.le_add_right _ _, Nat.le_add_right _ _, by decide +kernel, by decide +kernel⟩⟩,
   ⟨0, true, up, by simp only [hostOn]; decide +kernel⟩,
   ⟨0, 1, up, by simp only [hostOn]; decide +kernel⟩,
   ⟨300, up, by simp only [hostOn]; decide +kernel⟩,
   ⟨20, up, by decide +kernel⟩,
   ⟨19, up, by decide +kernel⟩,
   ⟨{ up with pwr := { up.pwr with alertPin := true } }, by decide +kernel⟩,
   ⟨up, by decide +kernel⟩,
   ⟨0, up, by decide +kernel⟩,
   ⟨0, up, by decide +kernel⟩,
   ⟨up, by decide +kernel⟩⟩

/-- Witnesses of ThermalControlCommands. -/
theorem witness_thermal_control_commands :
    (∃ (temps : List (Option Int)) (s : State), running s = true ∧ 103 * 8 ≤ hottest (vmk 64 fun i => nth temps i.val none) ∧ hottest (vmk 64 fun i =>
      nth temps i.val none) < 110 * 8) ∧
    (∃ (temps : List (Option Int)) (failed : List Nat) (k : Nat) (s : State), running s = true ∧ hottest (vmk 64 fun i => nth temps i.val none) < 110
      * 8 ∧ 64 ≤ k ∧ k < 150) ∧
    (∃ (temps : List (Option Int)) (failed : List Nat) (s : State), running s = true ∧ s.dev.tripped = false ∧ 110 * 8 ≤ hottest (vmk 64 fun i => nth
      temps i.val none)) ∧
    (∃ (s : State), running s = true ∧ 98 * 8 ≤ hottest s.thm.junction ∧ 0 < s.pwr.junctionCeiling) ∧
    (∃ (s : State), running s = true ∧ (zones s).all (fun z => decide (z ≤ 81 * 20)) = true ∧ s.pwr.zoneCeiling < 7) ∧
    (∃ (s : State), running s = true ∧ s.dev.tripped = false) ∧
    (∃ (c : Fin 16) (l : List Nat) (w : Nat) (s : State), running s = true ∧ w = min s.pwr.limits[c] (loggedLimits s)[c] ∧ nth l c.val 1000 < 30 ∧ (∀
      k : Fin 16, k ≠ c → 30 ≤ nth l k.val 1000)) ∧
    (∃ (l : List Nat) (s : State), running s = true) ∧
    (∃ (v : BitVec 8) (s : State), hostOn s ∧ 60 ≤ v.toNat ∧ v.toNat ≤ 97) ∧
    (∃ (stores : CodeResult) (s : State), running s = true) :=
  ⟨⟨[some 824], up, by decide +kernel⟩,
   ⟨[some 400], [70], 70, up, by decide +kernel⟩,
   ⟨[some 880], [], up, by decide +kernel⟩,
   ⟨{ up with thm := { up.thm with junction := vmk 64 fun _ => some 784 } }, by decide +kernel⟩,
   ⟨{ up with pwr := { up.pwr with zoneCeiling := 6 } }, by decide +kernel⟩,
   ⟨up, by decide +kernel⟩,
   ⟨0, [10], min (up.pwr.limits[(0 : Fin 16)]) (loggedLimits up)[(0 : Fin 16)], up, by decide +kernel, rfl, by decide +kernel, by decide +kernel⟩,
   ⟨[10, 1000], { up with pwr := { up.pwr with limits := vmk 16 fun _ => 122 } }, by decide +kernel⟩,
   ⟨97, up, by simp only [hostOn]; decide +kernel⟩,
   ⟨.clean, up, by decide +kernel⟩⟩

/-- Witnesses of CombDieLoops. -/
theorem witness_comb_die_loops :
    (∃ (g : CombGroup) (d : CombDie) (off : Int) (t8 : Int) (s : State), running s = true ∧ ((s.comb.group[g]).die[d]).state = .warming ∧ d.val < 4 ∧
      0 < ((s.comb.group[g]).die[d]).current ∧ off.natAbs ≤ 1000) ∧
    (∃ (g : CombGroup) (d : CombDie) (off : Int) (t8 : Int) (s : State), running s = true ∧ 1000 < off.natAbs) ∧
    (∃ (g : CombGroup) (d : CombDie) (est : List (Port × Line × Int)) (t8 : Int) (s : State), running s = true ∧ ((s.comb.group[g]).die[d]).state =
      .active ∧ ((s.comb.group[g]).die[d]).current ≤ 1600000) ∧
    (∃ (g : CombGroup) (d : CombDie) (t8 : Int) (s : State), running s = true ∧ ((s.comb.group[g]).die[d]).current ≠ 0 ∧ 560 ≤ dieTemp s g d t8) ∧
    (∃ (s : State), running s = true ∧ s.mgt.flashFitted = true ∧ s.mgt.aging.length + (activeDies s).length ≤ Config.agingRoom.val + 1) ∧
    (∃ (ok : Bool) (g : CombGroup) (d : CombDie) (s : State), running s = true ∧ (g, d) ∈ activeDies s) :=
  ⟨⟨0, 0, 1000, 0, onDie 0 0 (fun y => { y with state := .warming, current := 1 }) pen, by decide +kernel⟩,
   ⟨0, 0, -1001, 0, up, by decide +kernel⟩,
   ⟨0, 0, [], 0, onDie 0 0 (fun y => { y with state := .active, current := 1600000 }) pen, by decide +kernel⟩,
   ⟨0, 0, 560, onDie 0 0 (fun y => { y with state := .active, current := 1600000 }) pen, by decide +kernel⟩,
   ⟨up, by decide +kernel⟩,
   ⟨true, 0, 0, onDie 0 0 (fun y => { y with state := .active }) (onGroup 0 (fun q => { q with started := some 0 }) pen), by decide +kernel⟩⟩

/-- Witnesses of CombFailureAndEyeSafety. -/
theorem witness_comb_failure_and_eye_safety :
    (∃ (g : CombGroup) (d : CombDie) (k : Fin 4) (b : Bool) (s : State), running s = true ∧ ((s.comb.group[g]).die[d]).state = .active ∧ diePos
      (s.comb.group[g]) d = some k ∧ spareFree (s.comb.group[g]) k = true ∧ d ≠ 4 ∧ (b = true ∨ dieSpent ((s.comb.group[g]).die[d]) = true)) ∧
    (∃ (g : CombGroup) (d : CombDie) (s : State), running s = true ∧ dieSpent ((s.comb.group[g]).die[d]) = false) ∧
    (∃ (g : CombGroup) (k : Fin 4) (s : State), running s = true ∧ (s.comb.group[g]).task = some (.replace k)) ∧
    (∃ (g : CombGroup) (k : Fin 4) (s : State), running s = true ∧ (s.comb.group[g]).task = some (.replace k) ∧ ((s.comb.group[g]).die[(4 : Fin
      5)]).state = .warming) ∧
    (∃ (p : Port) (s : State), running s = true ∧ (s.port[p]).state ≠ 0) ∧
    (∃ (p : Port) (s : State), running s = true ∧ mayProbe s p = true ∧ (s.port[p]).probing = false) ∧
    (∃ (p : Port) (us : Nat) (s : State), running s = true ∧ mayProbe s p = true ∧ (s.port[p]).probing = true ∧ 1000 ≤ us ∧ (s.port[p]).probeLight =
      false ∧ (s.port[p]).probes = 1) ∧
    (∃ (p : Port) (us : Nat) (s : State), running s = true ∧ mayProbe s p = true ∧ (s.port[p]).probing = true ∧ 1000 ≤ us ∧ (s.port[p]).probeLight =
      false ∧ (s.port[p]).probes = 0) ∧
    (∃ (p : Port) (s : State), running s = true ∧ (s.port[p]).state = 0 ∧ (s.port[p]).probing = true) ∧
    (∃ (s : State), running s = true) ∧
    (∃ (p : Port) (n : Line) (c : Int) (s : State), running s = true ∧ portUp (s.port[p]) = true ∧ (passMask s p).getLsbD n.val = false) :=
  ⟨⟨0, 0, 0, true, onDie 0 4 (fun y => { y with state := .standby }) (onDie 0 0 (fun y => { y with state := .active }) pen), by decide +kernel⟩,
   ⟨0, 0, up, by decide +kernel⟩,
   ⟨0, 0, onGroup 0 (fun q => { q with task := some (.replace 0) }) pen, by decide +kernel⟩,
   ⟨0, 0, onDie 0 4 (fun y => { y with state := .warming }) (onGroup 0 (fun q => { q with task := some (.replace 0) }) pen), by decide +kernel⟩,
   ⟨0, onPort 0 (fun q => { q with state := 3 }) pen, by decide +kernel⟩,
   ⟨0, onDie 0 0 (fun y => { y with state := .active, current := 1, gridHeld := true }) (onGroup 0 (fun q => { q with locked := true }) pen), by decide +kernel⟩,
   ⟨0, 1000, onPort 0 (fun q => { q with probing := true, probes := 1 }) (onDie 0 0 (fun y => { y with state := .active, current := 1, gridHeld := true }) (onGroup 0 (fun q => { q with locked := true }) pen)), by decide +kernel⟩,
   ⟨0, 1000, onPort 0 (fun q => { q with probing := true }) (onDie 0 0 (fun y => { y with state := .active, current := 1, gridHeld := true }) (onGroup 0 (fun q => { q with locked := true }) pen)), by decide +kernel⟩,
   ⟨0, onPort 0 (fun q => { q with probing := true }) pen, by decide +kernel⟩,
   ⟨up, by decide +kernel⟩,
   ⟨0, 1, 0, onPort 0 (fun q => { q with state := 3 }) pen, by decide +kernel⟩⟩

/-- Witnesses of SequencerControlFlow. -/
theorem witness_sequencer_control_flow :
    (∃ (s : State), atWord .anywhere (instrWord 0x00 []) s ∧ s.ctl.phase = 1) ∧
    (∃ (c : Fin 8) (v : Word) (s : State), atWord .between (instrWord 0x0B [(c.val, 48), (v.toNat, 0)]) s) ∧
    (∃ (n : Fin 16) (imm : Byte) (g : BitVec 16) (s : State), atWord .between (instrWord 0x0C [(0, 52), (n.val, 48), (imm.toNat, 40), (g.toNat, 0)]) s
      ∧ betweenAt s g.toNat = true) ∧
    (∃ (c : Fin 8) (n : Fin 16) (imm : Byte) (g : BitVec 16) (s : State), c.val = n.val ∧ atWord .between (instrWord 0x0C [(1, 52), (n.val, 48),
      (imm.toNat, 40), (g.toNat, 0)]) s ∧ betweenAt s g.toNat = true) ∧
    (∃ (n : Fin 16) (imm : Byte) (g : BitVec 16) (s : State), atWord .between (instrWord 0x0C [(2, 52), (n.val, 48), (imm.toNat, 40), (g.toNat, 0)]) s
      ∧ betweenAt s g.toNat = true) ∧
    (∃ (w : Fin 32) (id : BitVec 16) (s : State), atWord .between (instrWord 0x0D [(w.val, 48), (id.toNat, 32)]) s ∧ (segOf s id).isSome = true ∧
      (actUnit s).stack.length < 4 ∧ ((actUnit s).window[w]).map (·.id) = some id) ∧
    (∃ (w : Fin 32) (id : BitVec 16) (s : State), atWord .between (instrWord 0x0D [(w.val, 48), (id.toNat, 32)]) s ∧ (segOf s id).isSome = true ∧
      (actUnit s).stack.length < 4 ∧ ((actUnit s).window[w]).map (·.id) ≠ some id) ∧
    (∃ (i : BitVec 16) (r : List (BitVec 16)) (s : State), atWord .between (instrWord 0x0E []) s ∧ (actUnit s).stack = i :: r) ∧
    (∃ (s : State), atWord .between (instrWord 0x0F []) s ∧ s.img.penumbra = []) ∧
    (∃ (n : Fin 16) (k : BitVec 12) (h : Word) (f : FamilyRec) (i : Image) (l : Loc) (words : List (Nat × WordError)) (s : State) (u : State), atWord
      .between (instrWord 0x07 [(n.val, 52), (k.toNat, 40), (h.toNat, 0)]) s ∧ s.img.image = some i ∧ i.families[k.toNat]? = some f ∧ selectBad n k h
      s = none ∧ bufLoc s h.toNat 0 (intBytes f.histFmt * f.e) = some l ∧ u = locReads l (intBytes f.histFmt * f.e) words s ∧ locPoison u l (intBytes
      f.histFmt * f.e) = none) :=
  ⟨⟨runsProg 1 [instrWord 0x00 []], by simp only [atWord]; decide +kernel⟩,
   ⟨0, 0, runsProg 1 [instrWord 0x0B [(0, 48), (0, 0)]], by simp only [atWord]; decide +kernel⟩,
   ⟨0, 0, 0, runsProg 1 [instrWord 0x0C [(0, 52), (0, 48), (0, 40), (0, 0)]], by simp only [atWord]; decide +kernel⟩,
   ⟨0, 0, 0, 0, runsProg 1 [instrWord 0x0C [(1, 52), (0, 48), (0, 40), (0, 0)]], by simp only [atWord]; decide +kernel⟩,
   ⟨0, 0, 0, runsProg 1 [instrWord 0x0C [(2, 52), (0, 48), (0, 40), (0, 0)]], by simp only [atWord]; decide +kernel⟩,
   ⟨0, 0, (fun (s : State) => { s with img := { s.img with image := some { program := [instrWord 0x0D [(0, 48), (0, 32)]], segs := [{ id := 0, addr := 0, len := 8 }] }  }, sq := { s.sq with unit := upd s.sq.unit 0 fun u => { u with window := vmk 32 fun k => if k = 0 then some { id := 0, words := [] } else none } } }) (runsProg 1 [instrWord 0x0D [(0, 48), (0, 32)]]), by simp only [atWord]; decide +kernel⟩,
   ⟨0, 0, (fun (s : State) => { s with img := { s.img with image := some { program := [instrWord 0x0D [(0, 48), (0, 32)]], segs := [{ id := 0, addr := 0, len := 8 }] }  } }) (runsProg 1 [instrWord 0x0D [(0, 48), (0, 32)]]), by simp only [atWord]; decide +kernel⟩,
   ⟨0, [], onUnit 0 (fun q => { q with stack := [0] }) (runsProg 1 [instrWord 0x0E []]), by simp only [atWord]; decide +kernel⟩,
   ⟨runsProg 1 [instrWord 0x0F []], by simp only [atWord]; decide +kernel⟩,
   ⟨0, 0, 0, { firstRule := 0, ruleCount := 0, default_ := 0, histFmt := 0xD, variants := 1, e := 1 }, { program := [instrWord 0x07 [(0, 52), (0, 40), (0, 0)]], families := [{ firstRule := 0, ruleCount := 0, default_ := 0, histFmt := 0xD, variants := 1, e := 1 }] }, .staging 0, [], (fun (s : State) => { s with img := { s.img with image := some { program := [instrWord 0x07 [(0, 52), (0, 40), (0, 0)]], families := [{ firstRule := 0, ruleCount := 0, default_ := 0, histFmt := 0xD, variants := 1, e := 1 }] } }, ce := { s.ce with written := [(2 ^ 40, 64)] } }) (runsProg 1 [instrWord 0x07 [(0, 52), (0, 40), (0, 0)]]), _, by simp only [atWord]; decide +kernel, by decide +kernel, by decide +kernel, by decide +kernel, by decide +kernel, rfl, by decide +kernel⟩⟩

/-- Witnesses of PhaseOpensAndWaits. -/
theorem witness_phase_opens_and_waits :
    (∃ (b : Bool) (id : Word) (s : State), atWord .between (instrWord 0x01 [(b2n b, 48), (id.toNat, 0)]) s ∧ s.img.penumbra = []) ∧
    (∃ (kind : BitVec 4) (x : Bool) (slot : BitVec 12) (count : Byte) (site : BitVec 3) (s : State), atWord .waits (instrWord 0x02 [(kind.toNat, 52),
      (b2n x, 48), (slot.toNat, 36), (count.toNat, 28), (site.toNat, 25)]) s ∧ waitBad kind x count site s = none ∧ s.ctl.switch_ = none ∧
      s.img.penumbra = []) ∧
    (∃ (i : Nat) (va : Bool) (ex : Bool) (n : Fin 16) (id : BitVec 16) (s : State), running s = true ∧ phaseReady s = true ∧ phaseSwitch s = some i ∧
      schedWord s i = some (instrWord 0x03 [(b2n va + 2 * b2n ex, 48), (n.val, 44), (id.toNat, 16)]) ∧ switchBad s (instrWord 0x03 [(b2n va + 2 * b2n
      ex, 48), (n.val, 44), (id.toNat, 16)]) none = none ∧ storePlan s (switchPlan s (instrWord 0x03 [(b2n va + 2 * b2n ex, 48), (n.val, 44),
      (id.toNat, 16)])) = none ∧ switchNoop s (switchPlan s (instrWord 0x03 [(b2n va + 2 * b2n ex, 48), (n.val, 44), (id.toNat, 16)])) = true) ∧
    (∃ (i : Nat) (va : Bool) (ex : Bool) (n : Fin 16) (id : BitVec 16) (s : State), running s = true ∧ phaseReady s = true ∧ phaseSwitch s = some i ∧
      schedWord s i = some (instrWord 0x03 [(b2n va + 2 * b2n ex, 48), (n.val, 44), (id.toNat, 16)]) ∧ switchBad s (instrWord 0x03 [(b2n va + 2 * b2n
      ex, 48), (n.val, 44), (id.toNat, 16)]) none = none ∧ storePlan s (switchPlan s (instrWord 0x03 [(b2n va + 2 * b2n ex, 48), (n.val, 44),
      (id.toNat, 16)])) = none ∧ switchNoop s (switchPlan s (instrWord 0x03 [(b2n va + 2 * b2n ex, 48), (n.val, 44), (id.toNat, 16)])) = false ∧
      (pagedPlan s (switchPlan s (instrWord 0x03 [(b2n va + 2 * b2n ex, 48), (n.val, 44), (id.toNat, 16)]))).isSome = true) ∧
    (∃ (i : Nat) (va : Bool) (ex : Bool) (n : Fin 16) (id : BitVec 16) (r : PlanRec) (s : State), running s = true ∧ phaseReady s = true ∧ phaseSwitch
      s = some i ∧ schedWord s i = some (instrWord 0x03 [(b2n va + 2 * b2n ex, 48), (n.val, 44), (id.toNat, 16)]) ∧ switchBad s (instrWord 0x03 [(b2n
      va + 2 * b2n ex, 48), (n.val, 44), (id.toNat, 16)]) (some r) = none ∧ storePlan s (switchPlan s (instrWord 0x03 [(b2n va + 2 * b2n ex, 48),
      (n.val, 44), (id.toNat, 16)])) = some r) ∧
    (∃ (k : FetchItem) (words : List (Nat × WordError)) (s : State), running s = true ∧ k ∈ s.ctl.fetches ∧ fetchPoison k s = none ∧ (∀ w, w ∈ words →
      w.2 = .none ∨ w.2 = .oneNibble) ∧ s.ctl.phase ≠ 3) ∧
    (∃ (k : FetchItem) (s : State), running s = true ∧ k ∈ s.ctl.fetches ∧ (fetchPoison k s).isSome = true ∧ s.img.image.isSome = true ∧ abortable
      s.ctl.phase = true ∧ s.img.penumbra = []) ∧
    (∃ (g : Bool) (id : BitVec 16) (slot : Byte) (s : State), atWord .anywhere (instrWord 0x08 [(b2n g, 48), (id.toNat, 32), (slot.toNat, 24)]) s ∧
      prefetchBad g id slot s = none ∧ s.ctl.phase = 1) :=
  ⟨⟨true, 0, runsProg 1 [instrWord 0x01 [(1, 48), (0, 0)]], by simp only [atWord]; decide +kernel⟩,
   ⟨2, false, 0, 1, 7, runsProg 2 [instrWord 0x02 [(2, 52), (0, 48), (0, 36), (1, 28), (7, 25)]], by simp only [atWord]; decide +kernel⟩,
   ⟨0, false, false, 0, 0xFFFF, runsProg 2 [instrWord 0x03 [(0, 48), (0, 44), (65535, 16)]], by decide +kernel⟩,
   ⟨0, false, false, 0, 5, (fun (s : State) => { s with img := { s.img with image := some { program := [instrWord 0x03 [(0, 48), (0, 44), (5, 16)]], regions := [{ id := 0, use := 2, stack := 0, base := 0, length := 4096, init := 0 }] } }, hbm := { s.hbm with mem := [(0, 1), (8, 5), (12, 64)] } }) (runsProg 2 [instrWord 0x03 [(0, 48), (0, 44), (5, 16)]]), by decide +kernel⟩,
   ⟨0, false, false, 0, 5, { planId := 5, dim := false, blocks := [] }, (fun (s : State) => { s with pln := { s.pln with slots := upd s.pln.slots 0 fun _ => { state := 1, planId := 5 } }, sq := { s.sq with unit := upd s.sq.unit 0 fun u => { u with plans := upd u.plans 0 fun _ => some { planId := 5, dim := false, blocks := [] } } } }) (runsProg 2 [instrWord 0x03 [(0, 48), (0, 44), (5, 16)]]), by decide +kernel⟩,
   ⟨.segment 0 0, [], (fun (s : State) => { s with ctl := { s.ctl with fetches := [.segment 0 0] } }) (runsProg 1 []), by decide +kernel⟩,
   ⟨.segment 7 0, (fun (s : State) => { s with hbm := { s.hbm with poison := [64] }, ctl := { s.ctl with phase := 4, fetches := [.segment 7 0] } }) (imaged { segs := [{ id := 7, len := 16, addr := 1024 }] }), by decide +kernel⟩,
   ⟨true, 0, 0, (fun (s : State) => { s with img := { s.img with image := some { program := [instrWord 0x08 [(1, 48), (0, 32), (0, 24)]], segs := [{ id := 0, addr := 0, len := 8 }] } } }) (runsProg 1 [instrWord 0x08 [(1, 48), (0, 32), (0, 24)]]), by simp only [atWord]; decide +kernel⟩⟩

/-- Witnesses of PhaseBodyAndCommit. -/
theorem witness_phase_body_and_commit :
    (∃ (n : Byte) (g : BitVec 16) (ws : List DWord) (s : State), atWord .body (instrWord 0x04 [(n.toNat, 48), (g.toNat, 32)]) s ∧ 0 < n.toNat ∧
      n.toNat ≤ 64 ∧ issueWords s n.toNat = some ws ∧ descrFits n.toNat g.toNat ws = true ∧ descrSound (ws.map (·.toNat)) = true) ∧
    (∃ (k : BitVec 4) (b : Beam) (slot : BitVec 12) (s : State), atWord .body (instrWord 0x05 [(k.toNat, 52), (b.val, 44), (slot.toNat, 32)]) s ∧ (k =
      2 ∨ k = 3) ∧ beamUsed s b = true ∧ beamInPlan s b = true) ∧
    (∃ (x : SiteIx) (slot : BitVec 12) (s : State), atWord .body (instrWord 0x06 [(x.val, 52), (slot.toNat, 40)]) s) ∧
    (∃ (op : Fin 8) (l : Byte) (h : Byte) (s : State), atWord .anywhere (instrWord 0x09 [(op.val, 48), (l.toNat, 40), (h.toNat, 32)]) s ∧ h ≠ 0) ∧
    (∃ (w : DWord) (s : State), running s = true ∧ (wbits w 63 60 = 2 ∨ wbits w 63 60 = 3) ∧ w32 (wbits w 31 0) = s.ctl.epoch ∧ s.img.penumbra = []) ∧
    (∃ (k : Nat) (codes : List CeCode) (words : List HbmRead) (s : State), running s = true ∧ s.ctl.phase = 4 ∧ opFinished s k = true ∧ s.ctl.commit_
      = none ∧ (∀ c, c ∈ codes → c.uncorrectable = false) ∧ (∀ r, r ∈ words → r.word ∉ s.hbm.poison ∧ (r.err = .none ∨ r.err = .oneNibble))) ∧
    (∃ (k : Nat) (c : CeCode) (s : State), running s = true ∧ s.ctl.phase = 4 ∧ opFinished s k = true ∧ s.img.image.isSome = true ∧ c.uncorrectable =
      true ∧ c.missed = false ∧ s.img.penumbra = []) ∧
    (∃ (e : Bool) (s : State), atWord .body (instrWord 0x0A [(b2n e, 48)]) s ∧ s.ctl.commit_ = none ∧ opsDone s = false) ∧
    (∃ (e : Bool) (s : State), atWord .body (instrWord 0x0A [(b2n e, 48)]) s ∧ s.ctl.commit_ = none ∧ opsDone s = true ∧ inSync s = true) ∧
    (∃ (e : Bool) (s : State), atWord .body (instrWord 0x0A [(b2n e, 48)]) s ∧ s.ctl.commit_ = none ∧ opsDone s = true ∧ inSync s = false ∧
      s.img.penumbra = []) :=
  ⟨⟨3, 0x4000, [0x3400000300000000, 0, 0], runsProg 4 [instrWord 0x04 [(3, 48), (0x4000, 32)], 0x3400000300000000, 0, 0], by simp only [atWord]; decide +kernel⟩,
   ⟨2, 0, 0, (fun (s : State) => { s with img := { s.img with image := some { program := [instrWord 0x05 [(2, 52), (0, 44), (0, 32)]], beams := [{ valid := true }] } } }) (lit0 (runsProg 4 [instrWord 0x05 [(2, 52), (0, 44), (0, 32)]])), by simp only [atWord]; decide +kernel⟩,
   ⟨0, 0, runsProg 4 [instrWord 0x06 [(0, 52), (0, 40)]], by simp only [atWord]; decide +kernel⟩,
   ⟨0, 0, 1, runsProg 4 [instrWord 0x09 [(0, 48), (0, 40), (1, 32)]], by simp only [atWord]; decide +kernel⟩,
   ⟨0x2000000000000000, up, by decide +kernel⟩,
   ⟨0, [], [], (fun (s : State) => { s with ctl := { s.ctl with ops := [{ target := 0x4000, words := [], started := true, final := true }] } }) (runsProg 4 []), by decide +kernel⟩,
   ⟨0, { mem := .staging, unit := 0, address := 0, uncorrectable := true }, issued {} { target := 0x4000, words := [0x1000000000000001, 0, 0x10000, 1], started := true, final := true }, by decide +kernel⟩,
   ⟨true, (fun (s : State) => { s with ctl := { s.ctl with ops := [{ target := 0x4000, words := [] }] } }) (runsProg 4 [instrWord 0x0A [(1, 48)]]), by simp only [atWord]; decide +kernel⟩,
   ⟨true, runsProg 4 [instrWord 0x0A [(1, 48)]], by simp only [atWord]; decide +kernel⟩,
   ⟨true, onUnit 1 (fun q => { q with state := .stale }) (runsProg 4 [instrWord 0x0A [(1, 48)]]), by simp only [atWord]; decide +kernel⟩⟩

/-- Witnesses of MirrorLinkAndWatchdog. -/
theorem witness_mirror_link_and_watchdog :
    (∃ (r : MirrorRec) (a : Bool) (v : Vector CodeResult 8) (s : State), running s = true ∧ s.sq.sent = some (r, a) ∧ mirrorOn s = true ∧ s.sq.ackDue
      = false ∧ CodeResult.uncorrectable ∉ v.toList) ∧
    (∃ (s : State), running s = true ∧ s.sq.ackDue = true ∧ s.ctl.phase ≠ 5) ∧
    (∃ (s : State), running s = true ∧ s.sq.ackDue = true ∧ s.ctl.phase = 5 ∧ inSync s = true ∧ s.img.penumbra = []) ∧
    (∃ (s : State), running s = true ∧ s.sq.ackDue = true ∧ s.ctl.phase ≠ 5 ∧ (s.sq.unit[standby s]).state = .resyncing ∧ s.sq.sealed = true) ∧
    (∃ (r : MirrorRec) (s : State), running s = true ∧ s.sq.sent = some (r, false) ∧ mirrorOn s = true) ∧
    (∃ (r : MirrorRec) (s : State), running s = true ∧ s.sq.sent = some (r, true) ∧ mirrorOn s = true ∧ s.ctl.phase ≠ 5) ∧
    (∃ (s : State), running s = true ∧ s.ctl.watchdog = true ∧ (s.ctl.phase = 2 → watchdogPaused s = false) ∧ abortable s.ctl.phase = true ∧
      s.img.image.isSome = true ∧ s.sq.fence = none ∧ s.img.penumbra = []) ∧
    (∃ (f : Fence) (s : State), running s = true ∧ s.ctl.watchdog = true ∧ s.ctl.phase = 8 ∧ s.sq.fence = some f) ∧
    (∃ (u : SqUnit) (s : State), running s = true ∧ watched s (unitIx u) = true) :=
  ⟨⟨{}, true, Vector.replicate 8 .clean, (fun (s : State) => { s with sq := { s.sq with sent := some ({}, true) } }) (runsProg 1 []), by decide +kernel⟩,
   ⟨(fun (s : State) => { s with sq := { s.sq with ackDue := true } }) (runsProg 1 []), by decide +kernel⟩,
   ⟨(fun (s : State) => { s with sq := { s.sq with ackDue := true } }) (runsProg 5 []), by decide +kernel⟩,
   ⟨{ up with sq := { up.sq with ackDue := true, sealed := true, unit := upd up.sq.unit 1 fun u => { u with state := .resyncing } } }, by decide +kernel⟩,
   ⟨{}, (fun (s : State) => { s with sq := { s.sq with sent := some ({}, false) } }) (runsProg 1 []), by decide +kernel⟩,
   ⟨{}, (fun (s : State) => { s with sq := { s.sq with sent := some ({}, true) } }) (runsProg 1 []), by decide +kernel⟩,
   ⟨(fun (s : State) => { s with ctl := { s.ctl with watchdog := true } }) (runsProg 2 []), by decide +kernel⟩,
   ⟨{ failed := 0, from_ := 4 }, { up with ctl := { up.ctl with watchdog := true, phase := 8 }, sq := { up.sq with fence := some { failed := 0, from_ := 4 } } }, by decide +kernel⟩,
   ⟨.a, (fun (s : State) => { s with time := 1 }) (runsProg 1 []), by decide +kernel⟩⟩

/-- Witnesses of SequencerFailOver. -/
theorem witness_sequencer_fail_over :
    (∃ (u : SqUnit) (s : State), running s = true ∧ (s.sq.unit[unitIx u]).state = .active ∧ s.sq.active = unitIx u ∧ inSync s = true ∧ phaseQuiet
      s.ctl.phase = false ∧ s.sq.beatAt[unitIx u] < s.time) ∧
    (∃ (u : SqUnit) (s : State), running s = true ∧ (s.sq.unit[unitIx u]).state = .active ∧ s.sq.active = unitIx u ∧ inSync s = true ∧ phaseQuiet
      s.ctl.phase = false) ∧
    (∃ (u : SqUnit) (s : State), running s = true) ∧
    (∃ (u : SqUnit) (s : State), running s = true ∧ abortable s.ctl.phase = true ∧ s.img.image.isSome = true ∧ s.img.penumbra = []) ∧
    (∃ (f : Fence) (s : State), running s = true ∧ s.sq.fence = some f ∧ s.ctl.phase = 8 ∧ f.failed = s.sq.active ∧ (s.sq.unit[otherUnit
      f.failed]).state = .inSync ∧ s.img.penumbra = [] ∧ f.abortAfter = false) ∧
    (∃ (f : Fence) (s : State), running s = true ∧ s.sq.fence = some f ∧ s.ctl.phase = 8 ∧ f.failed = s.sq.active ∧ (s.sq.unit[otherUnit
      f.failed]).state = .inSync ∧ s.img.penumbra = [] ∧ f.abortAfter = true ∧ s.img.image.isSome = true) ∧
    (∃ (u : SqUnit) (s : State), running s = true ∧ (s.sq.unit[unitIx u]).state = .selfTest) ∧
    (∃ (u : SqUnit) (s : State), running s = true ∧ (s.sq.unit[unitIx u]).state = .selfTest) ∧
    (∃ (s : State), running s = true ∧ anyActive s = true ∧ (s.sq.unit[standby s]).state = .stale) ∧
    (∃ (s : State), running s = true ∧ anyActive s = true ∧ (s.sq.unit[standby s]).state = .resyncing) :=
  ⟨⟨.a, (fun (s : State) => { s with time := 1 }) (runsProg 1 []), by decide +kernel⟩,
   ⟨.a, runsProg 1 [], by decide +kernel⟩,
   ⟨.a, up, by decide +kernel⟩,
   ⟨.a, (fun (s : State) => { s with ctl := { s.ctl with phase := 4 } }) (imaged {}), by decide +kernel⟩,
   ⟨{ failed := 0, from_ := 1 }, (fun (s : State) => { s with sq := { s.sq with fence := some { failed := 0, from_ := 1 } } }) (runsProg 8 []), by decide +kernel⟩,
   ⟨{ failed := 0, from_ := 4, abortAfter := true }, (fun (s : State) => { s with ctl := { s.ctl with phase := 8 }, sq := { s.sq with fence := some { failed := 0, from_ := 4, abortAfter := true } } }) (imaged {}), by decide +kernel⟩,
   ⟨.b, onUnit 1 (fun q => { q with state := .selfTest }) (runsProg 1 []), by decide +kernel⟩,
   ⟨.b, onUnit 1 (fun q => { q with state := .selfTest }) (runsProg 1 []), by decide +kernel⟩,
   ⟨onUnit 1 (fun q => { q with state := .stale }) (runsProg 1 []), by decide +kernel⟩,
   ⟨onUnit 1 (fun q => { q with state := .resyncing }) (runsProg 1 []), by decide +kernel⟩⟩

/-- Witnesses of SequencerResumeAndCommands. -/
theorem witness_sequencer_resume_and_commands :
    (∃ (v : Word) (r : RestartRec) (s : State), hostOn s ∧ rsvBad s 0x9002C v = false ∧ bit v 31 = true ∧ bit v 30 = false ∧ goRefused s (BitVec.ofNat
      16 (fld v 15 0)) = false ∧ restartById s (BitVec.ofNat 16 (fld v 15 0)) = some r ∧ s.ctl.arm = none) ∧
    (∃ (v : Word) (s : State), hostOn s ∧ rsvBad s 0x9002C v = false ∧ bit v 31 = true ∧ bit v 30 = false ∧ goRefused s (BitVec.ofNat 16 (fld v 15 0))
      = true) ∧
    (∃ (v : Word) (s : State), hostOn s ∧ rsvBad s 0x9002C v = false ∧ bit v 31 = false ∧ bit v 30 = true ∧ s.ctl.phase = 6 ∧ s.img.copying = false ∧
      applyReady s = false ∧ partHeld s = false ∧ s.sq.fence = none ∧ s.img.penumbra = []) ∧
    (∃ (s : State), hostOn s ∧ (actUnit s).state = .active ∧ inSync s = true ∧ phaseQuiet s.ctl.phase = false) ∧
    (∃ (s : State), hostOn s ∧ anyActive s = true ∧ (s.sq.unit[standby s]).state = .stale) ∧
    (∃ (s : State), hostOn s ∧ inSync s = true ∧ standby s = s.sq.primary ∧ s.ctl.phase ≠ 8) ∧
    (∃ (s : State), hostOn s ∧ s.sq.fence = none ∧ s.ctl.phase ≠ 5 ∧ canKeepOut (s.sq.unit[standby s]).state = true) ∧
    (∃ (f : Fence) (s : State), hostOn s ∧ s.sq.fence = some f ∧ f.failed = s.sq.active ∧ inSync s = true ∧ s.img.penumbra = []) ∧
    (∃ (s : State), hostOn s ∧ (s.sq.unit[standby s]).state = .keptOut) ∧
    (∃ (e : BitVec 16) (s : State), hostOn s ∧ e ≠ s.sq.epoch) :=
  ⟨⟨0x80000007, { id := 7, hold := true, index := 0 }, (fun (s : State) => { s with img := { s.img with image := some restImg } }) (runsProg 7 []), by simp only [hostOn]; decide +kernel⟩,
   ⟨0x80000007, runsProg 7 [], by simp only [hostOn]; decide +kernel⟩,
   ⟨0x40000000, runsProg 6 [], by simp only [hostOn]; decide +kernel⟩,
   ⟨runsProg 1 [], by simp only [hostOn]; decide +kernel⟩,
   ⟨onUnit 1 (fun q => { q with state := .stale }) (runsProg 1 []), by simp only [hostOn]; decide +kernel⟩,
   ⟨(fun (s : State) => { s with sq := { s.sq with primary := 1 } }) (runsProg 1 []), by simp only [hostOn]; decide +kernel⟩,
   ⟨runsProg 1 [], by simp only [hostOn]; decide +kernel⟩,
   ⟨{ failed := 0, from_ := 4 }, { up with sq := { up.sq with fence := some { failed := 0, from_ := 4 } } }, by simp only [hostOn]; decide +kernel⟩,
   ⟨onUnit 1 (fun q => { q with state := .keptOut }) (runsProg 1 []), by simp only [hostOn]; decide +kernel⟩,
   ⟨1, up, by simp only [hostOn]; decide +kernel⟩⟩

/-- Witnesses of GateRoutesTokens. -/
theorem witness_gate_routes_tokens :
    (∃ (k : Nat) (o : OpSt) (p : List GateRec) (g : GateRec) (ins : List (List Byte)) (s : State), opIssued k 0x10 o s ∧ gateProg s o = some p ∧
      gateBad s o = none ∧ gateOp p 3 = some g ∧ gateOp p 5 = none ∧ gateOp p 6 = none ∧ inputsReady (gateInputs o p) ins s ∧ inMemory (opBits o 1 31
      0)) ∧
    (∃ (k : Nat) (o : OpSt) (p : List GateRec) (g : GateRec) (b : List Byte) (s : State), opIssued k 0x10 o s ∧ gateProg s o = some p ∧ gateBad s o =
      none ∧ gateOp p 1 = none ∧ gateOp p 3 = none ∧ gateOp p 5 = none ∧ gateOp p 6 = some g ∧ inputsReady (gateInputs o p) [b] s) :=
  ⟨⟨0, { target := 0x4000, words := [0x1000000000000001, 0, 0x10000, 1] }, [{ op := 3, fmt := 0, flags := 0, a := 1, b := 0, c := 0 }], { op := 3, fmt := 0, flags := 0, a := 1, b := 0, c := 0 }, [], issued { gate := [0x100000003, 7] } { target := 0x4000, words := [0x1000000000000001, 0, 0x10000, 1] }, by simp only [opIssued, inMemory, inputsReady, streamsLit]; decide +kernel⟩,
   ⟨0, { target := 0x4000, words := [0x1000000000000001, 0, 0x10000, 1] }, [{ op := 6, fmt := 0xD, flags := 0, a := 0, b := 0, c := 0 }], { op := 6, fmt := 0xD, flags := 0, a := 0, b := 0, c := 0 }, [0, 0, 0, 0], issued { gate := [0xD06, 7] } { target := 0x4000, words := [0x1000000000000001, 0, 0x10000, 1] }, by simp only [opIssued, inputsReady, streamsLit, inMemory]; decide +kernel⟩⟩

/-- Witnesses of DispatchAndCombineRun. -/
theorem witness_dispatch_and_combine_run :
    (∃ (k : Nat) (o : OpSt) (s : State), opIssued k 0x20 o s ∧ dispatchBad s o = none ∧ dispMode o = 1 ∧ aheadOn s = false) ∧
    (∃ (k : Nat) (o : OpSt) (tok : List Byte) (rr : List Byte) (l : List (Nat × Nat × PlaceRec)) (s : State), opIssued k 0x20 o s ∧ dispatchBad s o =
      none ∧ dispMode o = 1 ∧ aheadOn s = true ∧ inputsReady (dispInputs o) [tok, rr] s ∧ predictedCopies s o (choices (opCount o) (opBits o 2 31 27)
      rr) (List.range (opCount o)) = .ok l ∧ (∀ e ∈ tentatives s o tok l [], beamInPlan s e.beam = true)) ∧
    (∃ (k : Nat) (o : OpSt) (tok : List Byte) (rr : List Byte) (h : Nat) (fresh : List Copy) (final : List Copy) (stay : List Copy) (s : State),
      opIssued k 0x20 o s ∧ dispatchBad s o = none ∧ dispMode o ≠ 1 ∧ h = opBits o 3 63 32 ∧ inputsReady (dispInputs o) [tok, rr] s ∧ formCopies s o
      tok (choices (opCount o) (opBits o 2 31 27) rr) [] = .ok fresh ∧ final = (overflowSplit s o).1 ++ fresh.filter (!·.parked) ∧ stay =
      (overflowSplit s o).2 ++ fresh.filter (·.parked) ∧ (h = noHandle → ∀ c ∈ fresh, c.parked = false) ∧ (h ≠ noHandle → (opFlag o 2 = true →
      overflowPoison s h = none) ∧ overflowUse { s with ce := { s.ce with parkedAt := aput s.ce.parkedAt h stay } } h ≤ overflowSize s h) ∧ (∀ c ∈
      final, c.here = false → beamInPlan s c.beam = true) ∧ (∀ e ∈ startedAhead o s, beamInPlan s e.beam = true) ∧ inMemory (opBits o 1 31 0) ∧
      inMemory (opBits o 3 31 0) ∧ inMemory (opBits o 4 63 32)) ∧
    (∃ (k : Nat) (o : OpSt) (ins : List (List Byte)) (s : State), opIssued k 0x21 o s ∧ combineBad s o = none ∧ inputsReady (combInputs s o) ins s ∧
      ((∃ c ∈ combCopies s o, c.old = true) → overflowPoison s (opBits o 4 63 32) = none) ∧ (∀ e ∈ combList s o, ∀ b, e.beam = some b → beamInPlan s b
      = true) ∧ o.final = false ∧ (∃ c ∈ combCopies s o, c.parked = false ∧ ∀ e ∈ returnsIn k o (nth ins 1 []) s, e.1 ≠ c)) ∧
    (∃ (k : Nat) (o : OpSt) (ins : List (List Byte)) (ts : List TokenSum) (h : Nat) (s : State), opIssued k 0x21 o s ∧ combineBad s o = none ∧
      inputsReady (combInputs s o) ins s ∧ ((∃ c ∈ combCopies s o, c.old = true) → overflowPoison s (opBits o 4 63 32) = none) ∧ (∀ e ∈ combList s o,
      ∀ b, e.beam = some b → beamInPlan s b = true) ∧ h = opBits o 4 63 32 ∧ (∀ c ∈ combCopies s o, c.parked = false → ∃ e ∈ returnsIn k o (nth ins 1
      []) s, e.1 = c) ∧ ts = tokenSums s o (nth ins 0 []) (returnsIn k o (nth ins 1 []) s) ∧ ((∃ x ∈ ts, x.later = true) → h ≠ noHandle ∧ overflowUse
      { s with ce := { s.ce with sums := sumsAfter s o ts } } h ≤ overflowSize s h) ∧ inMemory (opBits o 3 63 32) ∧ inMemory (opBits o 3 31 0)) :=
  ⟨⟨0, { target := 0x4000, words := [0x2000010000000001, 0, 0x9010020, 0, 0] }, issued {} { target := 0x4000, words := [0x2000010000000001, 0, 0x9010020, 0, 0] }, by simp only [opIssued, streamsLit]; decide +kernel⟩,
   ⟨0, { target := 0x4000, words := [0x2000010000000001, 0, 0x109010020, 0, 0] }, List.replicate 128 0, List.replicate 8 0, [(0, 0, { place := 0, beam := 0, slot := 0, quota := 1, here := false })], (fun (s : State) => { s with ctl := { s.ctl with runAhead := true } }) (lit0 (issued { predictor := [0xFFFFFFFFFFFF0000], placement := [0x101000000000000] } { target := 0x4000, words := [0x2000010000000001, 0, 0x109010020, 0, 0] })), by simp only [opIssued, inputsReady, streamsLit, inMemory]; decide +kernel⟩,
   ⟨0, { target := 0x4000, words := [0x2000000000000001, 0, 0x108000020, 0xffffffff00000010, 0x2000000000] }, List.replicate 128 0, List.replicate 8 0, 0xFFFFFFFF, [{ serial := 1, token := 0, rank := 0, entry := 0, here := true, place := 0, beam := 0, slot := 0, quota := 1, n := 0, weight := 0, parked := false, old := false, data := List.replicate 128 0 }], [{ serial := 1, token := 0, rank := 0, entry := 0, here := true, place := 0, beam := 0, slot := 0, quota := 1, n := 0, weight := 0, parked := false, old := false, data := List.replicate 128 0 }], [], issued { placement := [0x301000000000000] } { target := 0x4000, words := [0x2000000000000001, 0, 0x108000020, 0xffffffff00000010, 0x2000000000] }, by simp only [opIssued, inMemory, inputsReady, streamsLit]; decide +kernel⟩,
   ⟨0, { target := 0x4000, words := [0x2100000000000001, 0, 0, 0, 0x20] }, [List.replicate 8 0], (fun (s : State) => { s with ce := { s.ce with disp := [(0, [{ serial := 1, token := 0, rank := 0, entry := 0, here := false, place := 0, beam := 0, slot := 0, quota := 1, n := 0, weight := 0, parked := false, old := false }])], lists := [(0, [])] } }) (issued {} { target := 0x4000, words := [0x2100000000000001, 0, 0, 0, 0x20] }), by simp only [opIssued, streamsLit]; decide +kernel, by decide +kernel, by simp only [inputsReady, inMemory]; decide +kernel, by decide +kernel, by decide +kernel, by decide +kernel, ⟨{ serial := 1, token := 0, rank := 0, entry := 0, here := false, place := 0, beam := 0, slot := 0, quota := 1, n := 0, weight := 0, parked := false, old := false }, by decide +kernel⟩⟩,
   ⟨0, { target := 0x4000, words := [0x2100000000000001, 0, 0, 0, 0x20] }, [List.replicate 8 0], _, 0, (fun (s : State) => { s with ctl := { s.ctl with admitted := [{ op := 0, beam := 0, head := List.replicate 16 0, data := [], form := .contribution }] } }) ((fun (s : State) => { s with ce := { s.ce with disp := [(0, [{ serial := 1, token := 0, rank := 0, entry := 0, here := false, place := 0, beam := 0, slot := 0, quota := 1, n := 0, weight := 0, parked := false, old := false }])], lists := [(0, [])] } }) (issued {} { target := 0x4000, words := [0x2100000000000001, 0, 0, 0, 0x20] })), by simp only [opIssued, streamsLit]; decide +kernel, by decide +kernel, by simp only [inputsReady, inMemory]; decide +kernel, by decide +kernel, by decide +kernel, by decide +kernel, by decide +kernel, rfl, by decide +kernel, by simp only [inMemory]; decide +kernel, by simp only [inMemory]; decide +kernel⟩⟩

/-- Witnesses of RecordsAreAdmitted. -/
theorem witness_records_are_admitted :
    (∃ (b : Beam) (k : Nat) (o : OpSt) (att : BitVec 4) (r : List Byte) (s : State), opThere k o s ∧ takesDispatch o = true ∧ recordWaits b 0 0x01 (16
      + dispRow o) att r s ∧ otherOps s b k .contribution att r = false) ∧
    (∃ (b : Beam) (k : Nat) (o : OpSt) (att : BitVec 4) (r : List Byte) (s : State), opThere k o s ∧ takesDispatch o = true ∧ recordWaits b 0 0x01 (16
      + dispRow o) att r s ∧ otherOps s b k .contribution att r = true) ∧
    (∃ (b : Beam) (k : Nat) (o : OpSt) (att : BitVec 4) (r : List Byte) (s : State), opThere k o s ∧ opCode o = 0x21 ∧ o.started = false ∧ recordWaits
      b 1 0x03 (16 + combRow o) att r s ∧ otherOps s b k .contribution att r = false) ∧
    (∃ (b : Beam) (k : Nat) (n : Nat) (total : Nat) (f : SegForm) (o : OpSt) (att : BitVec 4) (r : List Byte) (s : State), opThere k o s ∧
      takesSegments o = true ∧ o.started = false ∧ recordWaits b (segClass s b f o) 0x20 (16 + n) att r s ∧ otherOps s b k f att r = false) ∧
    (∃ (b : Beam) (k : Nat) (a : Nat × Nat × Nat) (x : Nat) (att : BitVec 4) (r : List Byte) (s : State), running s = true ∧ areaNow s k = some a ∧
      recordWaits b 0 0x02 (16 + a.2.2) att r s ∧ hdEntry r < a.2.1 ∧ bufLoc s a.1 ((b.val * a.2.1 + hdEntry r) * stride64 a.2.2) a.2.2 = some
      (.staging x) ∧ s.img.penumbra = [] ∧ streamsLit s) ∧
    (∃ (b : Beam) (k : Nat) (o : OpSt) (att : BitVec 4) (r : List Byte) (w : WindowEntry) (s : State), opThere k o s ∧ takesDispatch o = true ∧
      recordWaits b 0 0x10 16 att r s ∧ otherOps s b k .contribution att r = false ∧ windowAt s b (hdEntry r) = some w ∧ w.resolved = none) ∧
    (∃ (b : Beam) (k : Nat) (o : OpSt) (att : BitVec 4) (r : List Byte) (w : WindowEntry) (s : State), opThere k o s ∧ takesDispatch o = true ∧
      recordWaits b 0 0x11 16 att r s ∧ otherOps s b k .contribution att r = false ∧ windowAt s b (hdEntry r) = some w ∧ w.resolved = none) :=
  ⟨⟨0, 0, { target := 0x4000, words := [0x2000000000000001, 0, 0x20] }, 0, 0x01 :: List.replicate 143 0, (fun (s : State) => { s with beam := upd s.beam 0 fun q => { q with inbound := [recFlit (0x01 :: List.replicate 143 0)] } }) (issued {} { target := 0x4000, words := [0x2000000000000001, 0, 0x20] }), by simp only [opThere, streamsLit]; decide +kernel, by decide +kernel, ⟨0, 1, recFlit (0x01 :: List.replicate 143 0), by decide +kernel⟩, by decide +kernel⟩,
   ⟨0, 0, { target := 0x4000, words := [0x2000000000000001, 0, 0x20] }, 0, 0x01 :: List.replicate 143 0, (fun (s : State) => { s with beam := upd s.beam 0 fun q => { q with seen := [{ attempt := 1, op := 0, serial := 1, form := .contribution, bytes := [0x01] ++ List.replicate 15 0 ++ List.replicate 128 1 }], inbound := [recFlit (0x01 :: List.replicate 143 0)] } }) (issued {} { target := 0x4000, words := [0x2000000000000001, 0, 0x20] }), by simp only [opThere, streamsLit]; decide +kernel, by decide +kernel, ⟨0, 1, recFlit (0x01 :: List.replicate 143 0), by decide +kernel⟩, by decide +kernel⟩,
   ⟨0, 0, { target := 0x4000, words := [0x2100000000000001, 0, 0, 0, 0x20] }, 0, 0x03 :: List.replicate 143 0, (fun (s : State) => { s with beam := upd s.beam 0 fun q => { q with inbound := [{ recFlit (0x03 :: List.replicate 143 0) with cls := 1 }] } }) (issued {} { target := 0x4000, words := [0x2100000000000001, 0, 0, 0, 0x20] }), by simp only [opThere, streamsLit]; decide +kernel, by decide +kernel, by decide +kernel, ⟨0, 1, { recFlit (0x03 :: List.replicate 143 0) with cls := 1 }, by decide +kernel⟩, by decide +kernel⟩,
   ⟨0, 0, 1, 0, .contribution, { target := 0x4000, words := [0x3400000000000001, 0, 0] }, 0, 0x20 :: List.replicate 16 0, (fun (s : State) => { s with beam := upd s.beam 0 fun q => { q with inbound := [recFlit (0x20 :: List.replicate 16 0)] } }) (issued {} { target := 0x4000, words := [0x3400000000000001, 0, 0] }), by simp only [opThere, streamsLit]; decide +kernel, by decide +kernel, by decide +kernel, ⟨0, 1, recFlit (0x20 :: List.replicate 16 0), by decide +kernel⟩, by decide +kernel⟩,
   ⟨0, 0, (0, 1, 128), 0, 0, 0x02 :: List.replicate 143 0, (fun (s : State) => { s with beam := upd s.beam 0 fun q => { q with inbound := [recFlit (0x02 :: List.replicate 143 0)] }, ce := { s.ce with area := some (0, 1, 128) } }) (issued {} { target := 0x4000, words := [0x3400000000000001, 0, 0] }), by decide +kernel, by decide +kernel, ⟨0, 1, recFlit (0x02 :: List.replicate 143 0), by decide +kernel⟩, by decide +kernel, by decide +kernel, by decide +kernel, by simp only [streamsLit]; decide +kernel⟩,
   ⟨0, 0, { target := 0x4000, words := [0x2000000000000001, 0, 0x20] }, 0, 0x10 :: List.replicate 15 0, { beam := 0, entry := 0, attempt := 0, token := 0, source := 0, addr := 0, data := [], resolved := none }, (fun (s : State) => { s with beam := upd s.beam 0 fun q => { q with inbound := [recFlit (0x10 :: List.replicate 15 0)] }, ce := { s.ce with window := [{ beam := 0, entry := 0, attempt := 0, token := 0, source := 0, addr := 0, data := [], resolved := none }] } }) (issued {} { target := 0x4000, words := [0x2000000000000001, 0, 0x20] }), by simp only [opThere, streamsLit]; decide +kernel, by decide +kernel, ⟨0, 1, recFlit (0x10 :: List.replicate 15 0), by decide +kernel⟩, by decide +kernel, by decide +kernel, by decide +kernel⟩,
   ⟨0, 0, { target := 0x4000, words := [0x2000000000000001, 0, 0x20] }, 0, 0x11 :: List.replicate 15 0, { beam := 0, entry := 0, attempt := 0, token := 0, source := 0, addr := 0, data := [], resolved := none }, (fun (s : State) => { s with beam := upd s.beam 0 fun q => { q with inbound := [recFlit (0x11 :: List.replicate 15 0)] }, ce := { s.ce with window := [{ beam := 0, entry := 0, attempt := 0, token := 0, source := 0, addr := 0, data := [], resolved := none }] } }) (issued {} { target := 0x4000, words := [0x2000000000000001, 0, 0x20] }), by simp only [opThere, streamsLit]; decide +kernel, by decide +kernel, ⟨0, 1, recFlit (0x11 :: List.replicate 15 0), by decide +kernel⟩, by decide +kernel, by decide +kernel, by decide +kernel⟩⟩

/-- Witnesses of CollectivesStart. -/
theorem witness_collectives_start :
    (∃ (k : Nat) (o : OpSt) (b : List Byte) (s : State), opIssued k 0x34 o s ∧ broadcastBad s o = none ∧ opFlag o 1 = true ∧ routeLit o s ∧
      inputsReady [(collSrc o, rowBytes (collIn o) (opCount o))] [b] s ∧ inMemory (collDst o)) ∧
    (∃ (k : Nat) (o : OpSt) (e : Route) (l : List (List Byte)) (s : State), opIssued k 0x34 o s ∧ broadcastBad s o = none ∧ opFlag o 1 = false ∧
      routeLit o s ∧ upEntry s o = some e ∧ inMemory (collDst o) ∧ gathered (.fmt (collIn o) 0 []) (shadowed o) (opCount o) (segsIn s k e.beam (if
      e.role = 1 then .result else .contribution) none) = .ok (some l)) ∧
    (∃ (k : Nat) (o : OpSt) (b : List Byte) (s : State), opIssued k 0x35 o s ∧ streamBad s o = none ∧ routeOf s o = [] ∧ inputsReady [(collSrc o,
      opCount o)] [b] s ∧ inMemory (collDst o)) ∧
    (∃ (k : Nat) (o : OpSt) (e : Route) (b : List Byte) (s : State), opIssued k 0x35 o s ∧ streamBad s o = none ∧ routeOf s o = [e] ∧ e.role = 2 ∧
      routeLit o s ∧ inputsReady [(collSrc o, opCount o)] [b] s ∧ o.sent = [] ∧ beamSent s e.beam = false) ∧
    (∃ (k : Nat) (o : OpSt) (e : Route) (a : Admit) (s : State), opIssued k 0x35 o s ∧ streamBad s o = none ∧ routeOf s o = [e] ∧ e.role = 3 ∧
      pieceFrom s k e.beam 0 = some a ∧ a.data.length = opCount o ∧ inMemory (collDst o)) ∧
    (∃ (k : Nat) (o : OpSt) (b : List Byte) (g : List Nat) (kc : List (List LongForm)) (xc : List (List LongForm)) (s : State), opIssued k 0x30 o s ∧
      allreduceBad s o = none ∧ routeLit o s ∧ inputsReady [(collSrc o, rowBytes (collIn o) (opCount o))] [b] s ∧ inMemory (collDst o) ∧ codesKnown k
      o b g s ∧ roleOf s o 1 = [] ∧ allEls s k (elsFrom s k (redMode o) (collIn o) g 0 (opCount o) (shadowed o) none) ((roleOf s o 0).map (·.beam)) =
      .ok (some kc) ∧ allEls s k (elsFrom s k (redMode o) (collIn o) g 0 (opCount o) (shadowed o) none) ((roleOf s o 0 ++ roleOf s o 4).map (·.beam))
      = .ok (some xc)) ∧
    (∃ (k : Nat) (o : OpSt) (e : Route) (b : List Byte) (l : List (List Byte)) (s : State), opIssued k 0x30 o s ∧ allreduceBad s o = none ∧ redMode o
      ≠ .exact ∧ routeLit o s ∧ inputsReady [(collSrc o, rowBytes (collIn o) (opCount o))] [b] s ∧ inMemory (collDst o) ∧ routeOf s o = [e] ∧ e.role =
      1 ∧ gathered (.fmt (collOut o) 0 []) (shadowed o) (opCount o) (segsIn s k e.beam .result none) = .ok (some l)) ∧
    (∃ (k : Nat) (o : OpSt) (b : List Byte) (g : List Nat) (l : List (List LongForm)) (s : State), opIssued k 0x31 o s ∧ reducescatterBad s o = none ∧
      routeLit o s ∧ inputsReady [(collSrc o, rowBytes (collIn o) (opCount o))] [b] s ∧ inMemory (collDst o) ∧ scatterKnown k o b g s ∧ allEls s k
      (elsFrom s k (redMode o) (collIn o) (chunkCodes (chunkRange o (ownChunk (routeOf s o))) g) (chunkRange o (ownChunk (routeOf s o))).1 (chunkRange
      o (ownChunk (routeOf s o))).2 (shadowed o) (some (ownChunk (routeOf s o)))) ((roleOf s o 4).map (·.beam)) = .ok (some l)) ∧
    (∃ (k : Nat) (o : OpSt) (e : Route) (b : List Byte) (s : State), opIssued k 0x31 o s ∧ reducescatterBad s o = none ∧ redMode o ≠ .exact ∧ routeLit
      o s ∧ routeOf s o = [e] ∧ e.role = 4 ∧ s.ctl.admitted = [] ∧ o.final = false ∧ inputsReady [(collSrc o, rowBytes (collIn o) (opCount o))] [b] s) ∧
    (∃ (k : Nat) (o : OpSt) (b : List Byte) (got : List (Nat × List (List Byte))) (s : State), opIssued k 0x32 o s ∧ allgatherBad s o = none ∧
      routeLit o s ∧ inputsReady [(collSrc o, rowBytes (collIn o) (opCount o))] [b] s ∧ inMemory (collDst o) ∧ ((routeOf s o).filter fun e => e.role
      == 3 || e.role == 4).map (chunkFrom s k o) = got.map (fun g => .ok (some g))) ∧
    (∃ (k : Nat) (o : OpSt) (e : Route) (b : List Byte) (s : State), opIssued k 0x32 o s ∧ allgatherBad s o = none ∧ routeLit o s ∧ routeOf s o = [e]
      ∧ e.role = 4 ∧ s.ctl.admitted = [] ∧ o.final = false ∧ inputsReady [(collSrc o, rowBytes (collIn o) (opCount o))] [b] s) ∧
    (∃ (k : Nat) (o : OpSt) (ins : List (List Byte)) (ps : List (Nat × List Byte)) (dst : List Byte) (s : State), opIssued k 0x33 o s ∧ alltoallvBad s
      o = none ∧ routeLit o s ∧ inputsReady (alltoallvInputs s o) ins s ∧ (sendCounts (nth ins 0 []) (routeCount o)).all (fun n => !lenBad (collIn o)
      n) = true ∧ ((rxEntries (routeOf s o) []).map fun e => match e with | none => some (0, []) | some (b, j) => (pieceFrom s k b j).map fun a =>
      (segElems (collIn o) a.data.length, a.data)) = ps.map some ∧ (∀ p ∈ ps, rowBytes (collIn o) p.1 = p.2.length) ∧ inMemory (opBits o 3 31 0) ∧
      inMemory (collDst o) ∧ dst = joinVec (collIn o) (ps.flatMap fun p => cutVec (collIn o) p.1 p.2) ∧ bufFits s (collDst o) dst.length = true) ∧
    (∃ (v : Word) (s : State), hostOn s ∧ rsvBad s 0xA0000 v = false ∧ BitVec.ofNat 16 (fld v 31 16) = s.ce.epoch) :=
  ⟨⟨0, { target := 0x4000, words := [0x34bb020000000001, 0x100000000, 0x100000000, 0] }, [0], lit0 (issued { routes := [0x200], beams := [{ valid := true }] } { target := 0x4000, words := [0x34bb020000000001, 0x100000000, 0x100000000, 0] }), by simp only [opIssued, routeLit, inMemory, inputsReady, streamsLit]; decide +kernel⟩,
   ⟨0, { target := 0x4000, words := [0x34bb000000000001, 0x100000000, 0x100000000, 0] }, { beam := 0, role := 3, chunk := 0 }, [[5]], (fun (s : State) => { s with ctl := { s.ctl with admitted := [{ op := 0, beam := 0, head := List.replicate 16 0, data := [5], form := .contribution, total := 1 }] } }) (lit0 (issued { routes := [0x300], beams := [{ valid := true }] } { target := 0x4000, words := [0x34bb000000000001, 0x100000000, 0x100000000, 0] })), by simp only [opIssued, routeLit, inMemory, streamsLit]; decide +kernel⟩,
   ⟨0, { target := 0x4000, words := [0x3500000000000001, 0x100000000, 0] }, [0], issued {} { target := 0x4000, words := [0x3500000000000001, 0x100000000, 0] }, by simp only [opIssued, inMemory, inputsReady, streamsLit]; decide +kernel⟩,
   ⟨0, { target := 0x4000, words := [0x3500000000000001, 0x100000000, 0x100000000] }, { beam := 0, role := 2, chunk := 0 }, [0], lit0 (issued { routes := [0x200], beams := [{ valid := true }] } { target := 0x4000, words := [0x3500000000000001, 0x100000000, 0x100000000] }), by simp only [opIssued, routeLit, inputsReady, streamsLit, inMemory]; decide +kernel⟩,
   ⟨0, { target := 0x4000, words := [0x3500000000000001, 0x100000000, 0x100000000] }, { beam := 0, role := 3, chunk := 0 }, { op := 0, beam := 0, head := List.replicate 16 0, data := [5], form := .contribution, total := 1 }, (fun (s : State) => { s with ctl := { s.ctl with admitted := [{ op := 0, beam := 0, head := List.replicate 16 0, data := [5], form := .contribution, total := 1 }] } }) (lit0 (issued { routes := [0x300], beams := [{ valid := true }] } { target := 0x4000, words := [0x3500000000000001, 0x100000000, 0x100000000] })), by simp only [opIssued, inMemory, streamsLit]; decide +kernel⟩,
   ⟨0, { target := 0x4000, words := [0x30bb000000000001, 0x100000000, 0x100000000, 0] }, [0], noCodes 1, [contribEls .ints (.int 1) [1] 0 1 [5]], [contribEls .ints (.int 1) [1] 0 1 [5]], (fun (s : State) => { s with ctl := { s.ctl with admitted := [{ op := 0, beam := 0, head := List.replicate 16 0, data := [5], form := .contribution, total := 1 }] } }) (lit0 (issued { routes := [0x0], beams := [{ valid := true }] } { target := 0x4000, words := [0x30bb000000000001, 0x100000000, 0x100000000, 0] })), by simp only [opIssued, streamsLit]; decide +kernel, by decide +kernel, by simp only [routeLit]; decide +kernel, by simp only [inputsReady, inMemory]; decide +kernel, by simp only [inMemory]; decide +kernel, by unfold codesKnown; exact Or.inl (by decide +kernel), by decide +kernel, by decide +kernel, by decide +kernel⟩,
   ⟨0, { target := 0x4000, words := [0x30bb000000000001, 0x100000000, 0x100000000, 0] }, { beam := 0, role := 1, chunk := 0 }, [0], [[5]], (fun (s : State) => { s with ctl := { s.ctl with admitted := [{ op := 0, beam := 0, head := List.replicate 16 0, data := [5], form := .result, total := 1 }] } }) (lit0 (issued { routes := [0x100], beams := [{ valid := true }] } { target := 0x4000, words := [0x30bb000000000001, 0x100000000, 0x100000000, 0] })), by simp only [opIssued, routeLit, inMemory, inputsReady, streamsLit]; decide +kernel⟩,
   ⟨0, { target := 0x4000, words := [0x31bb000000000002, 0x100000000, 0x100000001, 0] }, [0, 0], [1], [contribEls .ints (.int 1) [1] 0 1 [5]], (fun (s : State) => { s with ctl := { s.ctl with admitted := [{ op := 0, beam := 0, head := List.replicate 16 0, data := [5], form := .contribution, total := 1 }] } }) (lit0 (issued { routes := [0x10400], beams := [{ valid := true }] } { target := 0x4000, words := [0x31bb000000000002, 0x100000000, 0x100000001, 0] })), by simp only [opIssued, streamsLit]; decide +kernel, by decide +kernel, by simp only [routeLit]; decide +kernel, by simp only [inputsReady, inMemory]; decide +kernel, by simp only [inMemory]; decide +kernel, by unfold scatterKnown; exact Or.inl (by decide +kernel), by decide +kernel⟩,
   ⟨0, { target := 0x4000, words := [0x31bb000000000002, 0x100000000, 0x100000001, 0] }, { beam := 0, role := 4, chunk := 1 }, [0, 0], lit0 (issued { routes := [0x10400], beams := [{ valid := true }] } { target := 0x4000, words := [0x31bb000000000002, 0x100000000, 0x100000001, 0] }), by simp only [opIssued, routeLit, inputsReady, streamsLit, inMemory]; decide +kernel⟩,
   ⟨0, { target := 0x4000, words := [0x32bb000000000001, 0x100000000, 0x100000001, 0] }, [0], [(1, [[5]])], (fun (s : State) => { s with ctl := { s.ctl with admitted := [{ op := 0, beam := 0, head := [0, 0, 1, 0] ++ List.replicate 12 0, data := [5], form := .contribution, total := 1 }] } }) (lit0 (issued { routes := [0x10400], beams := [{ valid := true }] } { target := 0x4000, words := [0x32bb000000000001, 0x100000000, 0x100000001, 0] })), by simp only [opIssued, routeLit, inMemory, inputsReady, streamsLit]; decide +kernel⟩,
   ⟨0, { target := 0x4000, words := [0x32bb000000000001, 0x100000000, 0x100000001, 0] }, { beam := 0, role := 4, chunk := 1 }, [0], lit0 (issued { routes := [0x10400], beams := [{ valid := true }] } { target := 0x4000, words := [0x32bb000000000001, 0x100000000, 0x100000001, 0] }), by simp only [opIssued, routeLit, inputsReady, streamsLit, inMemory]; decide +kernel⟩,
   ⟨0, { target := 0x4000, words := [0x33bb000000000000, 0x100000000, 0x100000000, 0] }, [[1, 0, 0, 0], [0]], [(1, [5])], [5], (fun (s : State) => { s with ce := { s.ce with staging := [(0, 1)] } }) ((fun (s : State) => { s with ctl := { s.ctl with admitted := [{ op := 0, beam := 0, head := List.replicate 16 0, data := [5], form := .contribution, total := 1 }] } }) (lit0 (issued { routes := [0x400], beams := [{ valid := true }] } { target := 0x4000, words := [0x33bb000000000000, 0x100000000, 0x100000000, 0] }))), by simp only [opIssued, routeLit, inMemory, inputsReady, streamsLit]; decide +kernel⟩,
   ⟨0, up, by simp only [hostOn]; decide +kernel⟩⟩

/-- Witnesses of LinkReceivesFlits. -/
theorem witness_link_receives_flits :
    (∃ (b : Beam) (raw : List Byte) (words : List LineWord) (code : CodeResult) (f : Flit) (s : State), flitArrives b (codeBytes code s.fresh raw) 1 f
      s ∧ (s.beam[b]).rx ≠ .uninit ∧ swOlder (s.beam[b]).peerSw f.sw = false ∧ f.tok = false ∧ f.seq = (s.beam[b]).next ∧ (s.beam[b]).held = [] ∧
      (s.beam[b]).inbound = [] ∧ (s.beam[b]).waitNew = false ∧ (∀ e ∈ (s.beam[b]).seen, e.serial = s.ctl.serial + 1)) ∧
    (∃ (b : Beam) (raw : List Byte) (words : List LineWord) (code : CodeResult) (f : Flit) (s : State), flitArrives b (codeBytes code s.fresh raw) 1 f
      s ∧ (s.beam[b]).rx ≠ .uninit ∧ swOlder (s.beam[b]).peerSw f.sw = false ∧ f.seq ≠ (s.beam[b]).next ∧ (f.seq - (s.beam[b]).next).toNat < 1024 ∧ (∀
      e ∈ (s.beam[b]).held, e.1 ≠ f.seq) ∧ reorderUse s (portOf s b) < 1024 ∧ (s.beam[b]).inbound = [] ∧ (s.beam[b]).waitNew = false) ∧
    (∃ (b : Beam) (raw : List Byte) (words : List LineWord) (code : CodeResult) (s : State), running s = true ∧ beamLit (s.beam[b]) = true ∧ flitOf
      (rebuilt s b (codeBytes code s.fresh raw)) = none ∧ (s.beam[b]).inbound = []) ∧
    (∃ (b : Beam) (raw : List Byte) (f : Flit) (s : State), running s = true ∧ beamLit (s.beam[b]) = true ∧ flitOf (rebuilt s b raw) = some f ∧
      touchesWrong s b = false ∧ (f.place ≠ (beamRec s b).peerPlace ∨ f.beam ≠ (beamRec s b).peerBeam) ∧ s.pln.foreign ≠ BitVec.allOnes 32) ∧
    (∃ (b : Beam) (raw : List Byte) (f : Flit) (s : State), flitArrives b raw 0 f s ∧ (s.beam[b]).waitNew = false) ∧
    (∃ (b : Beam) (raw : List Byte) (f : Flit) (s : State), flitArrives b raw 3 f s ∧ (s.beam[b]).waitNew = false) ∧
    (∃ (b : Beam) (raw : List Byte) (f : Flit) (n : BitVec 16) (s : State), flitArrives b raw 2 f s ∧ (s.beam[b]).waitNew = false ∧ leNat (f.body.take
      2) = 1 ∧ BitVec.ofNat 16 (leNat ((f.body.drop 2).take 2)) = n ∧ (s.beam[b]).resend = [] ∧ ackCovers (s.beam[b]) f.ack = 0 ∧ (∃ o, (n, o) ∈
      (s.beam[b]).unacked)) ∧
    (∃ (b : Beam) (raw : List Byte) (f : Flit) (s : State), flitArrives b raw 6 f s ∧ (s.beam[b]).tx = .init ∧ (byteAt f.body 8).getLsbD 0 = true ∧
      (s.beam[b]).waitNew = false) :=
  ⟨⟨0, flitBytes ((flitT 1 [])), [], .clean, (flitT 1 []), litBeam (fun q => q) (pen), flitArrives_bytes _ _ _ _ (by decide +kernel) (by decide +kernel), by decide +kernel, by decide +kernel, by decide +kernel, by decide +kernel, by decide +kernel, by decide +kernel, by decide +kernel, by decide +kernel⟩,
   ⟨0, flitBytes ({ flitT 1 [] with seq := 1 }), [], .clean, { flitT 1 [] with seq := 1 }, litBeam (fun q => q) (pen), flitArrives_bytes _ _ _ _ (by decide +kernel) (by decide +kernel), by decide +kernel, by decide +kernel, by decide +kernel, by decide +kernel, by decide +kernel, by decide +kernel, by decide +kernel, by decide +kernel⟩,
   ⟨0, [], [], .clean, litBeam (fun q => q) pen, by decide +kernel⟩,
   ⟨0, flitBytes ({ flitT 1 [] with place := 1 }), { flitT 1 [] with place := 1 }, litBeam (fun q => q) (pen), by decide +kernel, by decide +kernel, flitOf_rebuilt _ _ _ (by decide +kernel) (by decide +kernel), by decide +kernel, by decide +kernel, by decide +kernel⟩,
   ⟨0, flitBytes ((flitT 0 [])), (flitT 0 []), litBeam (fun q => q) (pen), flitArrives_bytes _ _ _ _ (by decide +kernel) (by decide +kernel), by decide +kernel⟩,
   ⟨0, flitBytes ((flitT 3 [])), (flitT 3 []), litBeam (fun q => q) (pen), flitArrives_bytes _ _ _ _ (by decide +kernel) (by decide +kernel), by decide +kernel⟩,
   ⟨0, flitBytes ({ flitT 2 [1, 0, 5, 0] with ack := 5 }), { flitT 2 [1, 0, 5, 0] with ack := 5 }, 5, litBeam (fun q => { q with unacked := [(5, (recFlit [1]))] }) (pen), flitArrives_bytes _ _ _ _ (by decide +kernel) (by decide +kernel), by decide +kernel, by decide +kernel, by decide +kernel, by decide +kernel, by decide +kernel, ⟨(recFlit [1]), by decide +kernel⟩⟩,
   ⟨0, flitBytes ((flitT 6 [0, 0, 0, 0, 0, 0, 0, 0, 1])), (flitT 6 [0, 0, 0, 0, 0, 0, 0, 0, 1]), litBeam (fun q => { q with tx := .init }) (pen), flitArrives_bytes _ _ _ _ (by decide +kernel) (by decide +kernel), by decide +kernel, by decide +kernel, by decide +kernel⟩⟩

/-- Witnesses of LinkSendsFlits. -/
theorem witness_link_sends_flits :
    (∃ (b : Beam) (c : CtlFlit) (r : List CtlFlit) (code : CodeResult) (s : State), running s = true ∧ tentNext s b = none ∧ beamLit (s.beam[b]) =
      true ∧ sendLines s b ≠ 0 ∧ (s.beam[b]).ctl = c :: r) ∧
    (∃ (b : Beam) (o : OutFlit) (r : List OutFlit) (code : CodeResult) (s : State), running s = true ∧ tentNext s b = none ∧ beamLit (s.beam[b]) =
      true ∧ sendLines s b ≠ 0 ∧ (s.beam[b]).ctl = [] ∧ (s.beam[b]).resend = [] ∧ (s.beam[b]).tx = .run ∧ (s.beam[b]).queue = o :: r ∧ behindSwitch s
      b o = false ∧ affordable (s.beam[b]) o = true ∧ replayShort s b = false) ∧
    (∃ (b : Beam) (o : OutFlit) (r : List OutFlit) (code : CodeResult) (s : State), running s = true ∧ tentNext s b = none ∧ beamLit (s.beam[b]) =
      true ∧ sendLines s b ≠ 0 ∧ (s.beam[b]).ctl = [] ∧ (s.beam[b]).resend = [] ∧ (s.beam[b]).tx = .run ∧ (s.beam[b]).queue = o :: r ∧ behindSwitch s
      b o = false ∧ affordable (s.beam[b]) o = false) ∧
    (∃ (b : Beam) (o : OutFlit) (r : List OutFlit) (code : CodeResult) (s : State), running s = true ∧ tentNext s b = none ∧ beamLit (s.beam[b]) =
      true ∧ sendLines s b ≠ 0 ∧ (s.beam[b]).ctl = [] ∧ (s.beam[b]).resend = [] ∧ (s.beam[b]).tx = .run ∧ (s.beam[b]).queue = o :: r ∧ behindSwitch s
      b o = false ∧ affordable (s.beam[b]) o = true ∧ replayShort s b = true) ∧
    (∃ (b : Beam) (o : OutFlit) (r : List OutFlit) (code : CodeResult) (s : State), running s = true ∧ tentNext s b = none ∧ beamLit (s.beam[b]) =
      true ∧ sendLines s b ≠ 0 ∧ (s.beam[b]).ctl = [] ∧ (s.beam[b]).resend = [] ∧ (s.beam[b]).tx = .run ∧ (s.beam[b]).queue = o :: r ∧ behindSwitch s
      b o = true) ∧
    (∃ (b : Beam) (s : State), running s = true ∧ (s.beam[b]).tx = .init) ∧
    (∃ (b : Beam) (s : State), running s = true ∧ (s.beam[b]).tx = .init ∧ (s.beam[b]).initSeen = false ∧ (s.beam[b]).state ≠ 6 ∧ s.img.penumbra = []) ∧
    (∃ (b : Beam) (n : BitVec 16) (o : OutFlit) (r : List (BitVec 16 × OutFlit)) (s : State), running s = true ∧ (s.beam[b]).unacked = (n, o) :: r ∧
      timersRun (s.beam[b]) = true ∧ (s.beam[b]).expiries + 1 < 8) ∧
    (∃ (b : Beam) (s : State), running s = true ∧ timersRun (s.beam[b]) = true ∧ (s.beam[b]).tx = .creditWait ∧ (s.beam[b]).state ≠ 6 ∧ s.img.penumbra
      = []) ∧
    (∃ (p : Port) (b : Beam) (s : State), running s = true ∧ replayUse s p < 1024 ∧ (beamsOf s p).filter (fun b => (s.beam[b]).tx == .replayWait) =
      [b]) :=
  ⟨⟨0, { typ := 0, payload := [] }, [], .clean, (fun (s : State) => onPort 0 (fun q => { q with state := 3 }) s) (litBeam (fun q => { q with txMask := 2, ctl := [{ typ := 0, payload := [] }] }) pen), by decide +kernel⟩,
   ⟨0, (recFlit [1]), [], .clean, (fun (s : State) => onPort 0 (fun q => { q with state := 3 }) s) (litBeam (fun q => { q with txMask := 2, queue := [(recFlit [1])], advertised := Vector.replicate 4 1 }) pen), by decide +kernel⟩,
   ⟨0, (recFlit [1]), [], .clean, (fun (s : State) => onPort 0 (fun q => { q with state := 3 }) s) (litBeam (fun q => { q with txMask := 2, queue := [(recFlit [1])] }) pen), by decide +kernel⟩,
   ⟨0, (recFlit [1]), [], .clean, (fun (s : State) => onPort 0 (fun q => { q with state := 3 }) s) (litBeam (fun q => { q with txMask := 2, queue := [(recFlit [1])], advertised := Vector.replicate 4 1 }) (onBeam 1 (fun q => { q with tx := .replayWait }) (imaged { beams := [{ valid := true }, { valid := true }] }))), by decide +kernel⟩,
   ⟨0, { recFlit [1] with behind := 1 }, [], .clean, (fun (s : State) => onPort 0 (fun q => { q with state := 3 }) s) (litBeam (fun q => { q with txMask := 2, queue := [{ recFlit [1] with behind := 1 }] }) (onPort 0 (fun q => { q with state := 3, switchQ := [{ stage := .coming, serial := 1, planId := 5, block := { port := 0, pass := 0, beams := [] }, beams := [0] }] }) (pen))), by decide +kernel⟩,
   ⟨0, litBeam (fun q => { q with tx := .init }) pen, by decide +kernel⟩,
   ⟨0, litBeam (fun q => { q with tx := .init }) pen, by decide +kernel⟩,
   ⟨0, 0, (recFlit [1]), [], litBeam (fun q => { q with unacked := [(0, (recFlit [1]))], expiries := 6 }) pen, by decide +kernel⟩,
   ⟨0, litBeam (fun q => { q with tx := .creditWait }) pen, by decide +kernel⟩,
   ⟨0, 0, litBeam (fun q => { q with tx := .replayWait }) (imaged { beams := [{ valid := true }] }), by decide +kernel⟩⟩

/-- Witnesses of BeamRetrains. -/
theorem witness_beam_retrains :
    (∃ (b : Beam) (raw : List Byte) (f : Flit) (s : State), wholeArrives b raw 5 f s ∧ (s.beam[b]).waitNew = false ∧ byteAt f.body 0 = 0 ∧
      (s.beam[b]).tx ≠ .init ∧ leads s b (byteAt f.body 15).toNat = true ∧ (s.beam[b]).retrain = none ∧ mergeMask (ownMasks (learnPeer b (maskAt
      f.body 7) s) b (maskAt f.body 7, maskAt f.body 2)).1 (maskAt f.body 7) ≠ 0 ∧ mergeMask (ownMasks (learnPeer b (maskAt f.body 7) s) b (maskAt
      f.body 7, maskAt f.body 2)).2 (maskAt f.body 2) ≠ 0) ∧
    (∃ (b : Beam) (r : Retrain) (s : State), running s = true ∧ (s.beam[b]).retrain = some r ∧ r.requesting = true) ∧
    (∃ (b : Beam) (raw : List Byte) (f : Flit) (s : State), flitArrives b raw 5 f s ∧ (s.beam[b]).waitNew = false ∧ byteAt f.body 0 = 1 ∧
      (s.beam[b]).tx = .run ∧ (s.beam[b]).retrain = none ∧ maskAt f.body 7 ≠ 0 ∧ maskAt f.body 2 ≠ 0) ∧
    (∃ (b : Beam) (r : Retrain) (s : State), running s = true ∧ (s.beam[b]).retrain = some r ∧ r.going = true ∧ r.aligned = false ∧ r.peerReady =
      false) ∧
    (∃ (b : Beam) (raw : List Byte) (f : Flit) (r : Retrain) (s : State), flitArrives b raw 5 f s ∧ byteAt f.body 0 = 2 ∧ (s.beam[b]).retrain = some r
      ∧ r.going = true ∧ r.aligned = true ∧ (s.beam[b]).again = none ∧ (s.beam[b]).waitNew = false ∧ (∀ e ∈ (s.port[portOf s b]).switchQ, e.stage ≠
      .held)) ∧
    (∃ (b : Beam) (r : Retrain) (s : State), running s = true ∧ (s.beam[b]).retrain = some r ∧ r.going = true ∧ (s.beam[b]).state ≠ 6 ∧ s.img.penumbra
      = []) :=
  ⟨⟨0, flitBytes ((flitT 5 [0, 0, 2, 0, 0, 0, 0, 2, 0, 0, 0, 0, 0, 0, 0, 1])), (flitT 5 [0, 0, 2, 0, 0, 0, 0, 2, 0, 0, 0, 0, 0, 0, 0, 1]), litBeam (fun q => { q with txMask := 2, rxMask := 2 }) ((fun (s : State) => { s with port := upd s.port 0 fun q => { q with state := 3, lineOk := 2, partnerOk := 2, block := some (5, { port := 0, pass := 0, beams := [{ beam := 0, tx := 2, rx := 2 }] }) } }) (imaged { place := 0, beams := [{ valid := true }] })), wholeArrives_bytes _ _ _ _ (by decide +kernel) (by decide +kernel), by decide +kernel, by decide +kernel, by decide +kernel, by decide +kernel, by decide +kernel, by decide +kernel, by decide +kernel⟩,
   ⟨0, { number := 0, wantTx := 2, wantRx := 2, requesting := true }, litBeam (fun q => { q with retrain := some { number := 0, wantTx := 2, wantRx := 2, requesting := true } }) pen, by decide +kernel⟩,
   ⟨0, flitBytes ((flitT 5 [1, 0, 2, 0, 0, 0, 0, 2, 0, 0, 0, 0, 0, 0, 0, 1])), (flitT 5 [1, 0, 2, 0, 0, 0, 0, 2, 0, 0, 0, 0, 0, 0, 0, 1]), litBeam (fun q => q) (pen), flitArrives_bytes _ _ _ _ (by decide +kernel) (by decide +kernel), by decide +kernel, by decide +kernel, by decide +kernel, by decide +kernel, by decide +kernel, by decide +kernel⟩,
   ⟨0, { number := 0, wantTx := 2, wantRx := 2, requesting := true, going := true }, litBeam (fun q => { q with retrain := some { number := 0, wantTx := 2, wantRx := 2, requesting := true, going := true } }) pen, by decide +kernel⟩,
   ⟨0, flitBytes ((flitT 5 [2, 0, 2, 0, 0, 0, 0, 2, 0, 0, 0, 0, 0, 0, 0, 1])), (flitT 5 [2, 0, 2, 0, 0, 0, 0, 2, 0, 0, 0, 0, 0, 0, 0, 1]), { number := 0, wantTx := 2, wantRx := 2, requesting := true, going := true, aligned := true }, litBeam (fun q => { q with retrain := some { number := 0, wantTx := 2, wantRx := 2, requesting := true, going := true, aligned := true } }) (pen), flitArrives_bytes _ _ _ _ (by decide +kernel) (by decide +kernel), by decide +kernel, by decide +kernel, by decide +kernel, by decide +kernel, by decide +kernel, by decide +kernel, by decide +kernel⟩,
   ⟨0, { number := 0, wantTx := 2, wantRx := 2, requesting := true, going := true }, litBeam (fun q => { q with retrain := some { number := 0, wantTx := 2, wantRx := 2, requesting := true, going := true } }) pen, by decide +kernel⟩⟩

/-- Witnesses of PlanSwitchRuns. -/
theorem witness_plan_switch_runs :
    (∃ (p : Port) (e : PortSwitch) (s : State), running s = true ∧ (s.port[p]).switchQ.find? (fun d => d.stage == .coming) = some e ∧ switchBlocked s
      e = false ∧ (∀ d ∈ (s.port[p]).switchQ, d.stage ≠ .held)) ∧
    (∃ (p : Port) (e : PortSwitch) (s : State), running s = true ∧ (s.port[p]).switchQ.find? (fun d => d.stage == .coming) = some e ∧ switchBlocked s
      e = true) ∧
    (∃ (p : Port) (e : PortSwitch) (s : State), running s = true ∧ (s.port[p]).switchQ.find? (fun d => d.stage == .arrived) = some e ∧ (∀ d ∈
      (s.port[p]).switchQ, d.stage ≠ .held) ∧ s.pln.shown < e.serial ∧ s.img.penumbra = []) ∧
    (∃ (p : Port) (e : PortSwitch) (s : State), running s = true ∧ (s.port[p]).switchQ.find? (fun d => d.stage == .anchored) = some e) ∧
    (∃ (p : Port) (n : Line) (s : State), running s = true) ∧
    (∃ (p : Port) (e : PortSwitch) (s : State), running s = true ∧ (s.port[p]).switchQ.find? (fun d => d.stage == .ringsSet) = some e) ∧
    (∃ (b : Beam) (s : State), running s = true ∧ (s.beam[b]).waitNew = true ∧ (s.beam[b]).newSeen = true) ∧
    (∃ (b : Beam) (s : State), running s = true ∧ (s.beam[b]).waitNew = true ∧ (s.beam[b]).newSeen = false ∧ switchDone s b = true ∧ (s.beam[b]).state
      ≠ 6 ∧ s.img.penumbra = []) ∧
    (∃ (b : Beam) (s : State), running s = true ∧ (s.beam[b]).waitNew = true) :=
  ⟨⟨0, { stage := .coming, serial := 1, planId := 5, block := { port := 0, pass := 0, beams := [] }, beams := [0] }, onPort 0 (fun q => { q with state := 3, switchQ := [{ stage := .coming, serial := 1, planId := 5, block := { port := 0, pass := 0, beams := [] }, beams := [0] }] }) (pen), by decide +kernel⟩,
   ⟨0, { stage := .coming, serial := 1, planId := 5, block := { port := 0, pass := 0, beams := [] }, beams := [0] }, litBeam (fun q => { q with retrain := some { number := 1, wantTx := 2, wantRx := 2, requesting := true } }) (onPort 0 (fun q => { q with state := 3, switchQ := [{ stage := .coming, serial := 1, planId := 5, block := { port := 0, pass := 0, beams := [] }, beams := [0] }] }) (pen)), by decide +kernel⟩,
   ⟨0, { stage := .arrived, serial := 1, planId := 5, block := { port := 0, pass := 0, beams := [] }, beams := [0] }, onPort 0 (fun q => { q with state := 3, switchQ := [{ stage := .arrived, serial := 1, planId := 5, block := { port := 0, pass := 0, beams := [] }, beams := [0] }] }) (pen), by decide +kernel⟩,
   ⟨0, { stage := .anchored, serial := 1, planId := 5, block := { port := 0, pass := 0, beams := [] }, beams := [0] }, onPort 0 (fun q => { q with state := 3, switchQ := [{ stage := .anchored, serial := 1, planId := 5, block := { port := 0, pass := 0, beams := [] }, beams := [0] }] }) (pen), by decide +kernel⟩,
   ⟨0, 1, up, by decide +kernel⟩,
   ⟨0, { stage := .ringsSet, serial := 1, planId := 5, block := { port := 0, pass := 0, beams := [] }, beams := [0] }, onPort 0 (fun q => { q with state := 3, switchQ := [{ stage := .ringsSet, serial := 1, planId := 5, block := { port := 0, pass := 0, beams := [] }, beams := [0] }] }) (pen), by decide +kernel⟩,
   ⟨0, onBeam 0 (fun q => { q with waitNew := true, newSeen := true }) up, by decide +kernel⟩,
   ⟨0, litBeam (fun q => { q with waitNew := true }) pen, by decide +kernel⟩,
   ⟨0, litBeam (fun q => { q with waitNew := true }) pen, by decide +kernel⟩⟩

/-- Witnesses of PortTrainingAndCommands. -/
theorem witness_port_training_and_commands :
    (∃ (p : Port) (r : PortStep) (s : State), running s = true ∧ (s.port[p]).state = 2 ∧ (s.port[p]).step = 1) ∧
    (∃ (p : Port) (r : PortStep) (s : State), running s = true ∧ (s.port[p]).state = 2 ∧ (s.port[p]).step = 2) ∧
    (∃ (p : Port) (r : PortStep) (s : State), running s = true ∧ (s.port[p]).state = 2 ∧ (s.port[p]).step = 3) ∧
    (∃ (p : Port) (r : PortStep) (s : State), running s = true ∧ (s.port[p]).state = 2 ∧ (s.port[p]).step = 4) ∧
    (∃ (p : Port) (r : PortStep) (s : State), running s = true ∧ (s.port[p]).state = 2 ∧ (s.port[p]).step = 5 ∧ s.img.penumbra = []) ∧
    (∃ (p : Port) (raw : List Byte) (f : Flit) (s : State), running s = true ∧ (s.port[p]).state = 2 ∧ (s.port[p]).step ≠ 3 ∧ flitOf raw = some f ∧
      f.typ = 4) ∧
    (∃ (p : Port) (raw : List Byte) (f : Flit) (l : Nat) (s : State), running s = true ∧ (s.port[p]).state = 2 ∧ (s.port[p]).step = 3 ∧ flitOf raw =
      some f ∧ f.typ = 4 ∧ identity s p (byteAt f.body 18).toNat (leNat ((f.body.drop 4).take 4)) (BitVec.ofNat 64 (leNat ((f.body.drop 8).take 8))) ≠
      2 ∧ settleLevel (leNat (f.body.take 2)) (leNat ((f.body.drop 2).take 2)) = some l) ∧
    (∃ (p : Port) (raw : List Byte) (f : Flit) (s : State), running s = true ∧ (s.port[p]).state = 2 ∧ (s.port[p]).step = 3 ∧ flitOf raw = some f ∧
      f.typ = 4 ∧ identity s p (byteAt f.body 18).toNat (leNat ((f.body.drop 4).take 4)) (BitVec.ofNat 64 (leNat ((f.body.drop 8).take 8))) = 2 ∧
      s.img.penumbra = []) ∧
    (∃ (p : Port) (s : State), running s = true ∧ (s.port[p]).state = 2 ∧ s.img.penumbra = []) ∧
    (∃ (p : Port) (s : State), running s = true ∧ portUp (s.port[p]) = true) ∧
    (∃ (p : Port) (v : Word) (s : State), hostOn s ∧ rsvBad s 0xD0010 v = false ∧ fin! 64 (fld v 13 8) = p ∧ fld v 31 16 = (s.port[p]).epoch.toNat ∧
      portUp (s.port[p]) = true) ∧
    (∃ (p : Port) (v : Word) (s : State), hostOn s ∧ rsvBad s 0xD0010 v = false ∧ fin! 64 (fld v 13 8) = p ∧ fld v 31 16 = (s.port[p]).epoch.toNat ∧
      (s.port[p]).hold = false ∧ s.img.penumbra = []) ∧
    (∃ (p : Port) (v : Word) (s : State), hostOn s ∧ rsvBad s 0xD0010 v = false ∧ fin! 64 (fld v 13 8) = p ∧ fld v 31 16 = (s.port[p]).epoch.toNat ∧
      (s.port[p]).hold = true) ∧
    (∃ (p : Port) (v : Word) (s : State), hostOn s ∧ rsvBad s 0xD0010 v = false ∧ fin! 64 (fld v 13 8) = p ∧ fld v 31 16 ≠ (s.port[p]).epoch.toNat) :=
  ⟨⟨0, { locked := 0, counts := [] }, onPort 0 (fun q => { q with state := 2, step := 1 }) pen, by decide +kernel⟩,
   ⟨0, { locked := 0, counts := [] }, onPort 0 (fun q => { q with state := 2, step := 2 }) pen, by decide +kernel⟩,
   ⟨0, { locked := 0, counts := [] }, onPort 0 (fun q => { q with state := 2, step := 3 }) pen, by decide +kernel⟩,
   ⟨0, { locked := 0, counts := [] }, onPort 0 (fun q => { q with state := 2, step := 4 }) pen, by decide +kernel⟩,
   ⟨0, { locked := 0, counts := [] }, onPort 0 (fun q => { q with state := 2, step := 5 }) pen, by decide +kernel⟩,
   ⟨0, flitBytes (flitT 4 []), flitT 4 [], onPort 0 (fun q => { q with state := 2, step := 1 }) pen, by decide +kernel, by decide +kernel, by decide +kernel, Laws.flitOf_flitBytes _ (by decide +kernel), by decide +kernel⟩,
   ⟨0, flitBytes (flitT 4 [0, 2, 0, 1]), (flitT 4 [0, 2, 0, 1]), 0x200, onPort 0 (fun q => { q with state := 2, step := 3 }) pen, by decide +kernel, by decide +kernel, by decide +kernel, Laws.flitOf_flitBytes _ (by decide +kernel), by decide +kernel, by decide +kernel, by decide +kernel⟩,
   ⟨0, flitBytes (flitT 4 [0, 2, 0, 1, 1, 0, 0, 0, 1, 0, 0, 0, 0, 0, 0, 0, 0, 0, 1]), (flitT 4 [0, 2, 0, 1, 1, 0, 0, 0, 1, 0, 0, 0, 0, 0, 0, 0, 0, 0, 1]), onPort 0 (fun q => { q with state := 2, step := 3 }) (imaged {}), by decide +kernel, by decide +kernel, by decide +kernel, Laws.flitOf_flitBytes _ (by decide +kernel), by decide +kernel, by decide +kernel, by decide +kernel⟩,
   ⟨0, onPort 0 (fun q => { q with state := 2, step := 1 }) pen, by decide +kernel⟩,
   ⟨0, onPort 0 (fun q => { q with state := 3 }) pen, by decide +kernel⟩,
   ⟨0, 0, onPort 0 (fun q => { q with state := 3 }) pen, by simp only [hostOn]; decide +kernel⟩,
   ⟨0, 0, up, by simp only [hostOn]; decide +kernel⟩,
   ⟨0, 0, onPort 0 (fun q => { q with hold := true }) pen, by simp only [hostOn]; decide +kernel⟩,
   ⟨0, 0x10000, up, by simp only [hostOn]; decide +kernel⟩⟩

/-- Witnesses of LineMarkersAndAlignment. -/
theorem witness_line_markers_and_alignment :
    (∃ (p : Port) (n : Line) (raw : List Byte) (s : State), running s = true ∧ n.val ≠ 0 ∧ receiverOn s p n = true ∧ raw.take 8 = linePattern ∧
      (byteAt raw 8).toNat = n.val ∧ ((s.port[p]).line[n]).wrong = false) ∧
    (∃ (p : Port) (n : Line) (raw : List Byte) (s : State), running s = true ∧ n.val ≠ 0 ∧ receiverOn s p n = true ∧ raw.take 8 = linePattern ∧
      (byteAt raw 8).toNat ≠ n.val) ∧
    (∃ (p : Port) (n : Line) (raw : List Byte) (s : State), running s = true ∧ (n.val = 0 ∨ receiverOn s p n = false)) ∧
    (∃ (s : State), running s = true) ∧
    (∃ (p : Port) (n : Line) (s : State), running s = true ∧ receiverOn s p n = true) ∧
    (∃ (p : Port) (n : Line) (s : State), running s = true ∧ receiverOn s p n = false) ∧
    (∃ (p : Port) (n : Line) (s : State), running s = true ∧ portUp (s.port[p]) = true ∧ ((s.port[p]).line[n]).out.getLsbD 0 = true) ∧
    (∃ (p : Port) (n : Line) (c : Nat) (s : State), running s = true ∧ ((s.port[p]).line[n]).requal = true ∧ 33 ≤ n.val ∧ c ≤ 64) ∧
    (∃ (p : Port) (n : Line) (c : Nat) (s : State), running s = true ∧ ((s.port[p]).line[n]).requal = true ∧ n.val < 33 ∧ c ≤ 64 ∧
      ((s.port[p]).sub[subIx true (spareOf n)]).filter (fun u => u.line == n) = none) ∧
    (∃ (p : Port) (n : Line) (c : Nat) (u : Subst) (s : State), running s = true ∧ ((s.port[p]).line[n]).requal = true ∧ n.val < 33 ∧ c ≤ 64 ∧
      (s.port[p]).sub[subIx true (spareOf n)] = some u ∧ u.line = n ∧ u.phase = .standing) ∧
    (∃ (p : Port) (n : Line) (c : Nat) (s : State), running s = true ∧ ((s.port[p]).line[n]).requal = true ∧ 64 < c) :=
  ⟨⟨0, 1, linePattern ++ [1], upLine, by decide +kernel⟩,
   ⟨0, 1, linePattern ++ [2], upLine, by decide +kernel⟩,
   ⟨0, 1, [], up, by decide +kernel⟩,
   ⟨up, by decide +kernel⟩,
   ⟨0, 1, upLine, by decide +kernel⟩,
   ⟨0, 1, up, by decide +kernel⟩,
   ⟨0, 1, onLine 0 1 (fun l => { l with out := 1 }) (onPort 0 (fun q => { q with state := 3 }) pen), by decide +kernel⟩,
   ⟨0, 33, 64, onLine 0 33 (fun l => { l with requal := true }) (onPort 0 (fun q => { q with state := 3 }) pen), by decide +kernel⟩,
   ⟨0, 1, 0, onLine 0 1 (fun l => { l with requal := true }) upLine, by decide +kernel⟩,
   ⟨0, 1, 0, { beam := 0, line := 1, reason := 2, request := 0, phase := .standing }, onLine 0 1 (fun l => { l with requal := true }) (putSub 0 2 (some { beam := 0, line := 1, reason := 2, request := 0, phase := .standing }) upLine), by decide +kernel⟩,
   ⟨0, 1, 65, onLine 0 1 (fun l => { l with requal := true }) (onPort 0 (fun q => { q with state := 3 }) pen), by decide +kernel⟩⟩

/-- Witnesses of RingLoopsAndCalibrations. -/
theorem witness_ring_loops_and_calibrations :
    (∃ (r : Ring) (power : Nat) (c : CodeResult) (s : State), running s = true ∧ c ≠ .uncorrectable ∧ ringParked s r.val = false ∧ monitorDark power =
      false) ∧
    (∃ (r : Ring) (power : Nat) (c : CodeResult) (s : State), running s = true ∧ c ≠ .uncorrectable ∧ monitorDark power = true ∧ 9 ≤ (ringSt s
      r.val).darkVisits) ∧
    (∃ (r : Ring) (power : Nat) (s : State), running s = true ∧ portUp (s.port[ringPort r.val]) = true) ∧
    (∃ (p : Port) (x : Int) (s : State), running s = true ∧ sensorOk s (64 + p.val) = false) ∧
    (∃ (p : Port) (x : Int) (s : State), running s = true ∧ sensorOk s (64 + p.val) = true) ∧
    (∃ (p : Port) (n : Line) (k : Nat) (s : State), running s = true ∧ n.val ≠ 0 ∧ portUp (s.port[p]) = true ∧ receiverOn s p n = true ∧
      ((s.port[p]).line[n]).out.getLsbD 0 = false) ∧
    (∃ (p : Port) (n : Line) (k : Nat) (s : State), running s = true ∧ (n.val = 0 ∨ portUp (s.port[p]) = false ∨ receiverOn s p n = false ∨
      ((s.port[p]).line[n]).out.getLsbD 0 = true)) ∧
    (∃ (p : Port) (x : SiteIx) (k : Int) (s : State), running s = true ∧ 0 ≤ ((s.ring.hint[p])[x]).gain ∧ ((s.ring.hint[p])[x]).gain ≤ 50) ∧
    (∃ (p : Port) (x : SiteIx) (k : Int) (h : ThermalHint) (s : State), running s = true ∧ s.ring.hints.reverse.find? (fun h => decide (h.site = x) &&
      decide (h.came + 8000 ≤ s.time) && !h.learnt.getLsbD p.val) = some h) ∧
    (∃ (p : Port) (n : Line) (d : Dir) (k : Nat) (s : State), running s = true ∧ (calOf ((s.port[p]).line[n]) d).dueSince = some k ∧ (calOf
      ((s.port[p]).line[n]) d).running = false ∧ zoneSteady (s.port[p]) = true ∧ calWay s p n d = .inPlace) ∧
    (∃ (p : Port) (n : Line) (d : Dir) (k : Nat) (s : State), running s = true ∧ (calOf ((s.port[p]).line[n]) d).dueSince = some k ∧ (calOf
      ((s.port[p]).line[n]) d).running = false ∧ (calOf ((s.port[p]).line[n]) d).overdue = false ∧ k + 10000000 ≤ s.time) ∧
    (∃ (p : Port) (n : Line) (m : CalMeasure) (s : State), running s = true ∧ (calOf ((s.port[p]).line[n]) .tx).running = true ∧ lineQuiet s p n false
      = true ∧ m.marker = true) ∧
    (∃ (p : Port) (n : Line) (m : CalMeasure) (s : State), running s = true ∧ (calOf ((s.port[p]).line[n]) .rx).running = true ∧ lineQuiet s p n true
      = true) ∧
    (∃ (p : Port) (n : Line) (d : Dir) (m : CalMeasure) (s : State), running s = true ∧ (calOf ((s.port[p]).line[n]) d).running = true ∧ (lineQuiet s
      p n (d == Dir.rx) = false ∨ (d = .tx ∧ m.marker = false))) ∧
    (∃ (p : Port) (w : GlintFound) (s : State), running s = true ∧ (s.port[p]).state = 1) ∧
    (∃ (p : Port) (w : GlintFound) (s : State), running s = true ∧ (s.port[p]).state = 1) :=
  ⟨⟨35, 30000, .clean, up, by decide +kernel⟩,
   ⟨0, 1, .clean, onRing 0 (fun q => { q with darkVisits := 9 }) up, by decide +kernel⟩,
   ⟨0, 0, onPort 0 (fun q => { q with state := 3 }) up, by decide +kernel⟩,
   ⟨0, 0, { up with thm := { up.thm with failed := [64] } }, by decide +kernel⟩,
   ⟨0, 0, up, by decide +kernel⟩,
   ⟨0, 1, 0, upLine, by decide +kernel⟩,
   ⟨0, 1, 0, up, by decide +kernel⟩,
   ⟨0, 0, 0, up, by decide +kernel⟩,
   ⟨0, 0, 0, { site := 0, dP := 100, from_ := 0 }, { up with time := 8000, ring := { up.ring with hints := [{ site := 0, dP := 100, from_ := 0 }] } }, by decide +kernel⟩,
   ⟨0, 0, .tx, 0, onPort 0 (fun q => { q with zoneHist := List.replicate 101 0 }) (onCal 0 0 .tx (fun c => { c with dueSince := some 0 }) up), by decide +kernel, by decide +kernel, by decide +kernel, by decide +kernel, rfl⟩,
   ⟨0, 1, .tx, 0, (fun (s : State) => { s with time := 10000000 }) (onPort 0 (fun q => { q with zoneHist := List.replicate 101 0 }) (onCal 0 1 .tx (fun c => { c with dueSince := some 0 }) up)), by decide +kernel⟩,
   ⟨0, 1, calM true, onCal 0 1 .tx (fun c => { c with running := true }) up, by decide +kernel⟩,
   ⟨0, 1, calM true, onCal 0 1 .rx (fun c => { c with running := true }) up, by decide +kernel⟩,
   ⟨0, 1, .tx, calM false, onCal 0 1 .tx (fun c => { c with running := true }) up, by decide +kernel⟩,
   ⟨0, { sweep := { comb := (0, 0), peaks := [], nb := [] }, cal := [] }, onPort 0 (fun q => { q with state := 1 }) up, by decide +kernel⟩,
   ⟨0, { sweep := { comb := (0, 0), peaks := [], nb := [] }, cal := [] }, onPort 0 (fun q => { q with state := 1 }) up, by decide +kernel⟩⟩

/-- Witnesses of SubstitutionHandshake. -/
theorem witness_substitution_handshake :
    (∃ (b : Beam) (raw : List Byte) (f : Flit) (n : Line) (s : State), flitArrives b raw 5 f s ∧ subLine f.body = some n ∧ byteAt f.body 0 = 3 ∧
      byteAt f.body 4 = 0 ∧ (s.port[portOf s b]).sub[subIx false (spareOf n)] = none ∧ spareOk s (portOf s b) (subIx false (spareOf n)) b = true) ∧
    (∃ (b : Beam) (raw : List Byte) (f : Flit) (n : Line) (s : State), flitArrives b raw 5 f s ∧ subLine f.body = some n ∧ byteAt f.body 0 = 4 ∧
      byteAt f.body 4 = 0 ∧ (s.port[portOf s b]).sub[subIx true (spareOf n)] = none) ∧
    (∃ (b : Beam) (raw : List Byte) (f : Flit) (n : Line) (u : Subst) (s : State), flitArrives b raw 5 f s ∧ subLine f.body = some n ∧ byteAt f.body 0
      = 4 ∧ byteAt f.body 4 = 0 ∧ (s.port[portOf s b]).sub[subIx true (spareOf n)] = some u ∧ u.line ≠ n ∧ u.phase = .requested) ∧
    (∃ (p : Port) (upper : Bool) (u : Subst) (s : State), running s = true ∧ (s.port[p]).sub[subIx true (b2n upper)] = some u ∧ u.goSeen = true ∧
      u.phase = .going ∧ noHigherNeed p (subIx true (b2n upper)) u s ∧ (u.reason = 0 ∨ (s.port[p]).lineOk.getLsbD u.line.val = false ∨
      ((s.port[p]).line[u.line]).wrong = true)) ∧
    (∃ (p : Port) (upper : Bool) (u : Subst) (s : State), running s = true ∧ (s.port[p]).sub[subIx true (b2n upper)] = some u ∧ u.goSeen = true ∧
      u.phase = .going ∧ u.reason ≠ 0 ∧ (s.port[p]).lineOk.getLsbD u.line.val = true ∧ ((s.port[p]).line[u.line]).wrong = false) ∧
    (∃ (p : Port) (upper : Bool) (u : Subst) (v : Subst) (s : State), running s = true ∧ (s.port[p]).sub[subIx true (b2n upper)] = some u ∧ u.goSeen =
      true ∧ u.phase = .going ∧ u.reason = 0 ∧ u.own = true ∧ v ∈ (s.port[p]).needs ∧ subIx v.rx (spareOf v.line) = subIx true (b2n upper) ∧ v.reason
      ≠ 0) ∧
    (∃ (b : Beam) (raw : List Byte) (f : Flit) (n : Line) (u : Subst) (s : State), flitArrives b raw 5 f s ∧ subLine f.body = some n ∧ byteAt f.body 0
      = 5 ∧ byteAt f.body 4 = 0 ∧ (s.port[portOf s b]).sub[subIx false (spareOf n)] = some u ∧ u.line = n ∧ u.phase = .going ∧ noHigherNeed (portOf s
      b) (subIx false (spareOf n)) u s) ∧
    (∃ (p : Port) (upper : Bool) (u : Subst) (s : State), running s = true ∧ (s.port[p]).sub[subIx false (b2n upper)] = some u ∧ u.phase = .going) :=
  ⟨⟨0, flitBytes ((flitT 5 [3, 0, 1])), (flitT 5 [3, 0, 1]), 1, litBeam (fun q => q) (onPort 0 (fun q => { q with state := 3, partnerOk := 0xFFFFFFFFF, lineOk := 0xFFFFFFFFF }) (pen)), flitArrives_bytes _ _ _ _ (by decide +kernel) (by decide +kernel), by decide +kernel, by decide +kernel, by decide +kernel, by decide +kernel, by decide +kernel⟩,
   ⟨0, flitBytes ((flitT 5 [4, 0, 1])), (flitT 5 [4, 0, 1]), 1, litBeam (fun q => q) (onPort 0 (fun q => { q with state := 3, partnerOk := 0xFFFFFFFFF, lineOk := 0xFFFFFFFFF }) (pen)), flitArrives_bytes _ _ _ _ (by decide +kernel) (by decide +kernel), by decide +kernel, by decide +kernel, by decide +kernel, by decide +kernel⟩,
   ⟨0, flitBytes ((flitT 5 [4, 0, 1])), (flitT 5 [4, 0, 1]), 1, { beam := 0, line := 3, reason := 2, request := 0, phase := .requested }, putSub 0 2 (some { beam := 0, line := 3, reason := 2, request := 0, phase := .requested }) (litBeam (fun q => q) (onPort 0 (fun q => { q with state := 3, partnerOk := 0xFFFFFFFFF, lineOk := 0xFFFFFFFFF }) (pen))), flitArrives_bytes _ _ _ _ (by decide +kernel) (by decide +kernel), by decide +kernel, by decide +kernel, by decide +kernel, by decide +kernel, by decide +kernel, by decide +kernel⟩,
   ⟨0, false, { beam := 0, line := 1, reason := 2, request := 0, phase := .going, goSeen := true }, putSub 0 2 (some { beam := 0, line := 1, reason := 2, request := 0, phase := .going, goSeen := true }) (pen), by simp only [noHigherNeed]; decide +kernel⟩,
   ⟨0, false, { beam := 0, line := 1, reason := 1, request := 0, phase := .going, goSeen := true }, putSub 0 2 (some { beam := 0, line := 1, reason := 1, request := 0, phase := .going, goSeen := true }) (onPort 0 (fun q => { q with lineOk := 2 }) pen), by decide +kernel⟩,
   ⟨0, false, { beam := 0, line := 1, reason := 0, request := 0, phase := .going, goSeen := true, own := true }, { beam := 0, line := 2, rx := true, reason := 1, request := 0, phase := .requested }, onPort 0 (fun q => { q with needs := [{ beam := 0, line := 2, rx := true, reason := 1, request := 0, phase := .requested }] }) (putSub 0 2 (some { beam := 0, line := 1, reason := 0, request := 0, phase := .going, goSeen := true, own := true }) (pen)), by decide +kernel⟩,
   ⟨0, flitBytes ((flitT 5 [5, 0, 1])), (flitT 5 [5, 0, 1]), 1, { beam := 0, line := 1, reason := 2, request := 0, phase := .going }, litBeam (fun q => q) (putSub 0 0 (some { beam := 0, line := 1, reason := 2, request := 0, phase := .going }) (pen)), flitArrives_bytes _ _ _ _ (by decide +kernel) (by decide +kernel), by decide +kernel, by decide +kernel, by decide +kernel, by decide +kernel, by decide +kernel, by decide +kernel, by simp only [noHigherNeed]; decide +kernel⟩,
   ⟨0, false, { beam := 0, line := 1, reason := 2, request := 0, phase := .going }, putSub 0 0 (some { beam := 0, line := 1, reason := 2, request := 0, phase := .going }) (pen), by decide +kernel⟩⟩

/-- Witnesses of SidebandLinkRecovers. -/
theorem witness_sideband_link_recovers :
    (∃ (x : SiteIx) (raw : List Byte) (m : Slot) (s : State), slotArrives x raw m s ∧ m.typ = 0x01 ∧ ackCount (s.site[x]).sb m.ack = 0 ∧ ackCount
      (s.site[x]).sb (byteAt m.body 0) = 0 ∧ (s.site[x]).sb.unacked ≠ []) ∧
    (∃ (x : SiteIx) (raw : List Byte) (m : Slot) (s : State), slotArrives x raw m s ∧ m.typ = 0x00) ∧
    (∃ (x : SiteIx) (raw : List Byte) (m : Slot) (s : State), running s = true ∧ slotOf raw = some m ∧ m.typ = 0x1C ∧ (s.site[x]).sb.up = true ∧ m.seq
      ≠ (s.site[x]).sb.rxSeq) ∧
    (∃ (x : SiteIx) (s : State), running s = true ∧ (s.site[x]).sb.up = true ∧ (s.site[x]).sb.unacked ≠ [] ∧ (s.site[x]).sb.resend ≤
      (s.site[x]).sb.unacked.length) ∧
    (∃ (x : SiteIx) (s : State), running s = true ∧ siteUp s x = true ∧ (s.site[x]).sb.unacked ≠ [] ∧ s.img.penumbra = []) ∧
    (∃ (x : SiteIx) (raw : List Byte) (m : Slot) (s : State), slotArrives x raw m s ∧ sbReserved x m.typ = true) :=
  ⟨⟨0, slotBytes (slotT 1 []), slotT 1 [], onSite 0 (fun q => { q with sb := { q.sb with unacked := [(0, { typ := 0x10, body := [] })] } }) (actSite 0 (pen)), by simp only [slotArrives]; decide +kernel⟩,
   ⟨0, slotBytes (slotT 0 []), slotT 0 [], onSite 0 (fun q => q) (actSite 0 (pen)), by simp only [slotArrives]; decide +kernel⟩,
   ⟨0, slotBytes ({ slotT 0x1C [] with seq := 5 }), { slotT 0x1C [] with seq := 5 }, onSite 0 (fun q => q) (actSite 0 (pen)), by decide +kernel⟩,
   ⟨0, onSite 0 (fun q => { q with sb := { q.sb with unacked := [(0, { typ := 0x10, body := [] })] } }) (actSite 0 pen), by decide +kernel⟩,
   ⟨0, onSite 0 (fun q => { q with sb := { q.sb with unacked := [(0, { typ := 0x10, body := [] })] } }) (actSite 0 pen), by decide +kernel⟩,
   ⟨0, slotBytes (slotT 5 []), slotT 5 [], onSite 0 (fun q => q) (actSite 0 (pen)), by simp only [slotArrives]; decide +kernel⟩⟩

/-- Witnesses of LevelsAndCredits. -/
theorem witness_levels_and_credits :
    (∃ (x : SiteIx) (raw : List Byte) (m : Slot) (l : Nat) (s : State), slotArrives x raw m s ∧ m.typ = 0x10 ∧ (s.site[x]).state = 2 ∧ settle (bnat
      m.body 0 2) (bnat m.body 2 2) = some l ∧ (siteRec s x).adapterMin.toNat ≤ l) ∧
    (∃ (x : SiteIx) (raw : List Byte) (m : Slot) (s : State), slotArrives x raw m s ∧ m.typ = 0x10 ∧ (s.site[x]).state = 2 ∧ settle (bnat m.body 0 2)
      (bnat m.body 2 2) = none) ∧
    (∃ (x : SiteIx) (raw : List Byte) (m : Slot) (e : TxStream) (s : State), slotArrives x raw m s ∧ m.typ = 0x15 ∧ (s.site[x]).state = 2 ∧ aget
      (s.site[x]).tx (bnat m.body 0 2) = some e) ∧
    (∃ (x : SiteIx) (raw : List Byte) (m : Slot) (e : TxStream) (s : State), slotArrives x raw m s ∧ m.typ = 0x16 ∧ bnat m.body 0 2 ≠ 0xFFFF ∧ bnat
      m.body 4 2 = 0xFFFF ∧ bnat m.body 8 2 = 0xFFFF ∧ bnat m.body 12 2 = 0xFFFF ∧ aget (s.site[x]).tx (bnat m.body 0 2) = some e) ∧
    (∃ (x : SiteIx) (s : State), running s = true) :=
  ⟨⟨0, slotBytes (slotT 0x10 [0, 2, 0, 2]), slotT 0x10 [0, 2, 0, 2], 0x200, onSite 0 (fun q => { q with state := 2, step := 4 }) (actSite 0 (pen)), by simp only [slotArrives]; decide +kernel⟩,
   ⟨0, slotBytes (slotT 0x10 [0, 1, 0, 1]), slotT 0x10 [0, 1, 0, 1], onSite 0 (fun q => { q with state := 2, step := 4 }) (actSite 0 (pen)), by simp only [slotArrives]; decide +kernel⟩,
   ⟨0, slotBytes (slotT 0x15 []), slotT 0x15 [], {}, onSite 0 (fun q => { q with state := 2, step := 4, tx := [(0, {})] }) (actSite 0 (pen)), by simp only [slotArrives]; decide +kernel⟩,
   ⟨0, slotBytes (slotT 0x16 [0, 0, 1, 0, 255, 255, 0, 0, 255, 255, 0, 0, 255, 255]), slotT 0x16 [0, 0, 1, 0, 255, 255, 0, 0, 255, 255, 0, 0, 255, 255], {}, onSite 0 (fun q => { q with tx := [(0, {})] }) (actSite 0 (pen)), by simp only [slotArrives]; decide +kernel⟩,
   ⟨0, up, by decide +kernel⟩⟩

/-- Witnesses of SidebandMessagesAct. -/
theorem witness_sideband_messages_act :
    (∃ (x : SiteIx) (raw : List Byte) (m : Slot) (w : DWord) (s : State), slotArrives x raw m s ∧ m.typ = 0x17 ∧ BitVec.ofNat 64 (bnat m.body 0 8) = w
      ∧ (wbits w 63 60 = 2 ∨ wbits w 63 60 = 3) ∧ w32 (wbits w 31 0) = s.ctl.epoch ∧ s.img.penumbra = []) ∧
    (∃ (x : SiteIx) (raw : List Byte) (m : Slot) (s : State), slotArrives x raw m s ∧ m.typ = 0x18 ∧ (calibRec s).haloFf / 2 % 2 = 1 ∧ (siteRec s
      x).hints = true) ∧
    (∃ (x : SiteIx) (raw : List Byte) (m : Slot) (c : Fin 8) (s : State), slotArrives x raw m s ∧ m.typ = 0x19 ∧ chanOf m.body = some c ∧ (byteAt
      m.body 1).toNat ≤ 4) ∧
    (∃ (x : SiteIx) (raw : List Byte) (m : Slot) (c : Fin 8) (s : State), slotArrives x raw m s ∧ m.typ = 0x1A ∧ chanOf m.body = some c ∧ siteGone s x
      = false ∧ dieBound s x c = true ∧ ((s.mbx.d2h[x])[c]).go = false) ∧
    (∃ (x : SiteIx) (raw : List Byte) (m : Slot) (c : Fin 8) (s : State), running s = true ∧ siteGone s x = true ∧ slotOf raw = some m ∧ m.typ = 0x1A
      ∧ chanOf m.body = some c) ∧
    (∃ (x : SiteIx) (raw : List Byte) (m : Slot) (c : Fin 8) (h : TxChan) (s : State), slotArrives x raw m s ∧ m.typ = 0x1B ∧ chanOf m.body = some c ∧
      oldResp (byteAt m.body 1).toNat ((s.mbx.h2d[x])[c]) = some h) ∧
    (∃ (x : SiteIx) (raw : List Byte) (m : Slot) (c : Fin 8) (s : State), slotArrives x raw m s ∧ m.typ = 0x1B ∧ chanOf m.body = some c ∧ oldResp
      (byteAt m.body 1).toNat ((s.mbx.h2d[x])[c]) = none ∧ ((s.mbx.h2d[x])[c]).go = true ∧ ((s.mbx.h2d[x])[c]).msg.sender = 1) ∧
    (∃ (x : SiteIx) (raw : List Byte) (m : Slot) (c : Fin 8) (e : Msg) (l : List Msg) (s : State), slotArrives x raw m s ∧ m.typ = 0x1B ∧ chanOf
      m.body = some c ∧ byteAt m.body 1 = 2 ∧ oldResp 2 ((s.mbx.h2d[x])[c]) = none ∧ ((s.mbx.h2d[x])[c]).go = true ∧ ((s.mbx.h2d[x])[c]).msg.sender =
      0 ∧ (s.mbx.h2dQueue[x])[c] = e :: l ∧ siteUp s x = true) ∧
    (∃ (x : SiteIx) (raw : List Byte) (m : Slot) (s : State), slotArrives x raw m s ∧ m.typ = 0x1C ∧ byteAt m.body 4 = 1) ∧
    (∃ (x : SiteIx) (raw : List Byte) (m : Slot) (v : Word) (s : State), slotArrives x raw m s ∧ m.typ = 0x1C ∧ byteAt m.body 4 = 0 ∧ w32 (bnat m.body
      0 4) = v) ∧
    (∃ (x : SiteIx) (raw : List Byte) (m : Slot) (s : State), slotArrives x raw m s ∧ m.typ = 0x1D ∧ byteAt m.body 1 = 0 ∧ (byteAt m.body 0).toNat <
      32) ∧
    (∃ (x : SiteIx) (raw : List Byte) (m : Slot) (s : State), slotArrives x raw m s ∧ m.typ = 0x1D ∧ byteAt m.body 1 = 1 ∧ (byteAt m.body 0).toNat <
      32) :=
  ⟨⟨0, slotBytes (slotT 0x17 [0, 0, 0, 0, 0, 0, 0, 0x20]), slotT 0x17 [0, 0, 0, 0, 0, 0, 0, 0x20], 0x2000000000000000, onSite 0 (fun q => q) (actSite 0 (pen)), by simp only [slotArrives]; decide +kernel⟩,
   ⟨0, slotBytes (slotT 0x18 []), slotT 0x18 [], onSite 0 (fun q => q) (actSite 0 (imaged { sites := upd (Vector.replicate 6 {}) 0 fun _ => { use := true, laneMask := 0xFFFFFFFF, hints := true } })), by simp only [slotArrives]; decide +kernel⟩,
   ⟨0, slotBytes (slotT 0x19 []), slotT 0x19 [], 0, onSite 0 (fun q => q) (actSite 0 (pen)), by simp only [slotArrives]; decide +kernel⟩,
   ⟨0, slotBytes (slotT 0x1A []), slotT 0x1A [], 0, onSite 0 (fun q => q) (actSite 0 (imaged { sites := upd (Vector.replicate 6 {}) 0 fun _ => { use := true, laneMask := 0xFFFFFFFF, hints := true }, binds := [{ sender := 2, receiver := 0, channel := 0, tag := 0 }] })), by simp only [slotArrives]; decide +kernel⟩,
   ⟨0, slotBytes (slotT 0x1A []), slotT 0x1A [], 0, onSite 0 (fun q => { q with state := 1 }) up, by decide +kernel⟩,
   ⟨0, slotBytes (slotT 0x1B [0, 1]), slotT 0x1B [0, 1], 0, { (((onH2d 0 0 (fun h => { h with go := true, oldDue := 1 }) pen).mbx.h2d[(0 : SiteIx)])[(0 : Fin 8)]) with oldDue := 0 }, onSite 0 (fun q => q) (actSite 0 (onH2d 0 0 (fun h => { h with go := true, oldDue := 1 }) pen)), by simp only [slotArrives]; decide +kernel⟩,
   ⟨0, slotBytes (slotT 0x1B [0, 1]), slotT 0x1B [0, 1], 0, onSite 0 (fun q => q) (actSite 0 (onH2d 0 0 (fun h => { h with go := true, msg := { sender := 1 } }) pen)), by simp only [slotArrives]; decide +kernel⟩,
   ⟨0, slotBytes (slotT 0x1B [0, 2]), slotT 0x1B [0, 2], 0, {}, [], (fun (s : State) => { s with mbx := { s.mbx with h2dQueue := vmk 6 fun _ => vmk 8 fun _ => [{}] } }) (actSite 0 (onH2d 0 0 (fun h => { h with go := true }) pen)), by simp only [slotArrives]; decide +kernel⟩,
   ⟨0, slotBytes (slotT 0x1C [1, 0, 0, 0, 1]), slotT 0x1C [1, 0, 0, 0, 1], onSite 0 (fun q => q) (actSite 0 (pen)), by simp only [slotArrives]; decide +kernel⟩,
   ⟨0, slotBytes (slotT 0x1C [1, 0, 0, 0, 0]), slotT 0x1C [1, 0, 0, 0, 0], 1, actSite 0 pen, by simp only [slotArrives]; decide +kernel⟩,
   ⟨0, slotBytes (slotT 0x1D []), slotT 0x1D [], onSite 0 (fun q => q) (actSite 0 (pen)), by simp only [slotArrives]; decide +kernel⟩,
   ⟨0, slotBytes (slotT 29 [0, 1]), slotT 29 [0, 1], onSite 0 (fun q => q) (actSite 0 (pen)), by simp only [slotArrives]; decide +kernel⟩⟩

/-- Witnesses of SitesTrain. -/
theorem witness_sites_train :
    (∃ (x : SiteIx) (s : State), running s = true ∧ (s.site[x]).state = 1 ∧ (s.site[x]).hold = false ∧ (siteRec s x).use = true) ∧
    (∃ (w : WideIx) (r : WideStep) (s : State), running s = true ∧ (s.site[w.site]).state = 2 ∧ (s.site[w.site]).step = 1) ∧
    (∃ (w : WideIx) (r : WideStep) (s : State), running s = true ∧ (s.site[w.site]).state = 2 ∧ (s.site[w.site]).step = 3 ∧ trainFailed w (trainMaps w
      r s) = none) ∧
    (∃ (w : WideIx) (r : WideStep) (k : Nat) (s : State), running s = true ∧ (s.site[w.site]).state = 2 ∧ (s.site[w.site]).step = 3 ∧ trainFailed w
      (trainMaps w r s) = some k) ∧
    (∃ (w : WideIx) (r : WideStep) (s : State), running s = true ∧ (s.site[w.site]).state = 2 ∧ (s.site[w.site]).step = 5) ∧
    (∃ (w : WideIx) (s : State), running s = true ∧ (s.site[w.site]).state = 2) ∧
    (∃ (q : ReachIx) (r : ReachStep) (s : State), running s = true ∧ (s.site[q.site]).state = 2 ∧ (s.site[q.site]).step = 1) ∧
    (∃ (q : ReachIx) (r : ReachStep) (s : State), running s = true ∧ (s.site[q.site]).state = 2 ∧ (s.site[q.site]).step = 2) ∧
    (∃ (q : ReachIx) (r : ReachStep) (g : BitVec 8) (s : State), running s = true ∧ (s.site[q.site]).state = 2 ∧ (s.site[q.site]).step = 3 ∧ g =
      BitVec.ofNat 8 (boolsNat ((fins 8).map fun k => (quadMask s q).getLsbD k.val && quadPasses r k)) &&& r.partnerGood ∧ s.img.penumbra = []) ∧
    (∃ (q : ReachIx) (r : ReachStep) (s : State), running s = true ∧ (s.site[q.site]).state = 2 ∧ (s.site[q.site]).step = 5) ∧
    (∃ (q : ReachIx) (s : State), running s = true ∧ (s.site[q.site]).state = 2) :=
  ⟨⟨0, onSite 0 (fun q => { q with state := 1 }) (imaged { sites := upd (Vector.replicate 6 {}) 0 fun _ => { use := true, laneMask := 0xFFFFFFFF, hints := true } }), by decide +kernel⟩,
   ⟨0, { goodRx := List.replicate 33 (BitVec.allOnes 68), goodTx := List.replicate 33 (BitVec.allOnes 68) }, onSite 0 (fun q => { q with state := 2, step := 1 }) (imaged { sites := upd (Vector.replicate 6 {}) 0 fun _ => { use := true, laneMask := 0xFFFFFFFF, hints := true } }), by decide +kernel⟩,
   ⟨0, { goodRx := List.replicate 33 (BitVec.allOnes 68), goodTx := List.replicate 33 (BitVec.allOnes 68) }, onSite 0 (fun q => { q with state := 2, step := 3 }) (imaged { sites := upd (Vector.replicate 6 {}) 0 fun _ => { use := true, laneMask := 0xFFFFFFFF, hints := true } }), by decide +kernel⟩,
   ⟨0, { goodRx := [], goodTx := [] }, 7, onSite 0 (fun q => { q with state := 2, step := 3 }) (imaged { sites := upd (Vector.replicate 6 {}) 0 fun _ => { use := true, laneMask := 0xFFFFFFFF, hints := true } }), by decide +kernel⟩,
   ⟨0, { goodRx := List.replicate 33 (BitVec.allOnes 68), goodTx := List.replicate 33 (BitVec.allOnes 68) }, onSite 0 (fun q => { q with state := 2, step := 5 }) (imaged { sites := upd (Vector.replicate 6 {}) 0 fun _ => { use := true, laneMask := 0xFFFFFFFF, hints := true } }), by decide +kernel⟩,
   ⟨0, onSite 0 (fun q => { q with state := 2, step := 1 }) (imaged { sites := upd (Vector.replicate 6 {}) 0 fun _ => { use := true, laneMask := 0xFFFFFFFF, hints := true } }), by decide +kernel⟩,
   ⟨0, { lanes := [], partnerGood := 0xFF }, onSite 4 (fun q => { q with state := 2, step := 1 }) (imaged { sites := upd (Vector.replicate 6 {}) 4 fun _ => { use := true, laneMask := 0xFFFFFFFF, hints := true } }), by decide +kernel⟩,
   ⟨0, { lanes := [], partnerGood := 0 }, onSite 4 (fun q => { q with state := 2, step := 2 }) pen, by decide +kernel⟩,
   ⟨0, { lanes := [], partnerGood := 0 }, 0, onSite 4 (fun q => { q with state := 2, step := 3 }) pen, by decide +kernel⟩,
   ⟨0, { lanes := [], partnerGood := 0xFF }, onSite 4 (fun q => { q with state := 2, step := 5 }) (imaged { sites := upd (Vector.replicate 6 {}) 4 fun _ => { use := true, laneMask := 0xFFFFFFFF, hints := true } }), by decide +kernel⟩,
   ⟨0, onSite 4 (fun q => { q with state := 2, step := 1 }) (imaged { sites := upd (Vector.replicate 6 {}) 4 fun _ => { use := true, laneMask := 0xFFFFFFFF, hints := true } }), by decide +kernel⟩⟩

/-- Witnesses of WidePortFrames. -/
theorem witness_wide_port_frames :
    (∃ (w : WideIx) (m : Fin 32) (ls : List DWord) (s : State), running s = true ∧ modOn s w (mix m) = true ∧ modTests s w (mix m) = false ∧
      classifyFrame (((s.wide[w]).mods[mix m]).rx.good) ls = some (2, [])) ∧
    (∃ (w : WideIx) (m : Fin 32) (ls : List DWord) (s : State), running s = true ∧ modOn s w (mix m) = true ∧ modTests s w (mix m) = false ∧
      classifyFrame (((s.wide[w]).mods[mix m]).rx.good) ls = none ∧ s.img.penumbra = []) ∧
    (∃ (w : WideIx) (m : Fin 32) (ls : List DWord) (k : Nat) (r : RxStream) (b : List Byte) (s : State), running s = true ∧ modOn s w (mix m) = true ∧
      modTests s w (mix m) = false ∧ classifyFrame (((s.wide[w]).mods[mix m]).rx.good) ls = some (1, []) ∧ frameBytes (((s.wide[w]).mods[mix
      m]).rx.good) ls = b ∧ slotStream (boundStreams s w m.val false) ((s.wide[w]).mods[mix m]).rxFrame.toNat = some k ∧ aget (s.site[w.site]).rx k =
      some r ∧ r.opened = none ∧ noCredit (s.site[w.site]) k = false ∧ bnat b 0 2 = k ∧ 0 < bnat b 4 4 ∧ bnat b 4 4 ≤ 2 ^ 28 ∧ (b.drop 16).length <
      bnat b 4 4 ∧ s.ctl.named.contains (w.site.val, k, bnat b 2 2) = false) ∧
    (∃ (w : WideIx) (m : Fin 33) (ls : List DWord) (s : State), running s = true ∧ modOn s w m = true ∧ modTests s w m = true) ∧
    (∃ (w : WideIx) (m : Fin 33) (ls : List DWord) (s : State), running s = true ∧ wtListens s w m = true) ∧
    (∃ (w : WideIx) (ls : List DWord) (s : State), running s = true ∧ frameOn s w 32 = true ∧ modTests s w 32 = false) ∧
    (∃ (w : WideIx) (m : Fin 32) (s : State), running s = true ∧ modOn s w (mix m) = true ∧ modTests s w (mix m) = true) ∧
    (∃ (w : WideIx) (m : Fin 32) (s : State), running s = true ∧ modOn s w (mix m) = true ∧ modTests s w (mix m) = false ∧ boundStreams s w m.val true
      = []) ∧
    (∃ (w : WideIx) (m : Fin 32) (k : Nat) (e : TxStream) (e1 : TxStream) (ty : FrameTyp) (b : List Byte) (s : State), running s = true ∧ modOn s w
      (mix m) = true ∧ ((s.wide[w]).mods[mix m]).phase = .idle ∧ slotStream (boundStreams s w m.val true) ((s.wide[w]).mods[mix m]).txFrame.toNat =
      some k ∧ aget (s.site[w.site]).tx k = some e ∧ txNext 488 504 e = some (ty, b, e1)) ∧
    (∃ (w : WideIx) (x : SiteIx) (s : State), running s = true ∧ wideOf x = some w ∧ (s.site[x]).sb.up = true ∧ ((s.wide[w]).mods[(32 : Fin
      33)]).phase = .idle ∧ wtTime s w 32 = false) :=
  ⟨⟨0, 0, List.replicate 68 0x8000000000000000, onMod 0 0 (fun y => { y with rx := { good := 0xFFFFFFFFFFFFFFFFF }, tx := { good := 0xFFFFFFFFFFFFFFFFF } }) (actSite 0 (imaged { sites := upd (Vector.replicate 6 {}) 0 fun _ => { use := true, laneMask := 0xFFFFFFFF, hints := true } })), by decide +kernel⟩,
   ⟨0, 0, List.replicate 16 0x8000000000000000 ++ List.replicate 52 0, onMod 0 0 (fun y => { y with rx := { good := 0xFFFFFFFFFFFFFFFFF }, tx := { good := 0xFFFFFFFFFFFFFFFFF } }) (actSite 0 (imaged { sites := upd (Vector.replicate 6 {}) 0 fun _ => { use := true, laneMask := 0xFFFFFFFF, hints := true } })), by decide +kernel⟩,
   ⟨0, 0, List.replicate 32 0x8000000000000000 ++ List.replicate 10 0 ++ [0x8000000000000001] ++ List.replicate 25 0, 0, { advertised := 2 }, [0, 0, 0, 0, 0, 4] ++ List.replicate 498 0, onSite 0 (fun q => { q with rx := [(0, { advertised := 2 })] }) (onMod 0 0 (fun y => { y with rx := { good := 0xFFFFFFFFFFFFFFFFF }, tx := { good := 0xFFFFFFFFFFFFFFFFF } }) (actSite 0 (imaged { sites := upd (Vector.replicate 6 {}) 0 fun _ => { use := true, laneMask := 0xFFFFFFFF, hints := true }, conns := [{ src := 0, dst := 0, stream := 0, both := true, cls := 0 }] }))), by decide +kernel⟩,
   ⟨0, 0, [], onMod 0 0 (fun y => { y with rx := { good := 0xFFFFFFFFFFFFFFFFF }, tx := { good := 0xFFFFFFFFFFFFFFFFF }, phase := .testing }) (actSite 0 (imaged { sites := upd (Vector.replicate 6 {}) 0 fun _ => { use := true, laneMask := 0xFFFFFFFF, hints := true } })), by decide +kernel⟩,
   ⟨0, 0, [], onSite 0 (fun q => { q with state := 2, step := 2 }) (imaged { sites := upd (Vector.replicate 6 {}) 0 fun _ => { use := true, laneMask := 0xFFFFFFFF, hints := true } }), by decide +kernel⟩,
   ⟨0, [], actSite 0 (imaged { sites := upd (Vector.replicate 6 {}) 0 fun _ => { use := true, laneMask := 0xFFFFFFFF, hints := true } }), by decide +kernel⟩,
   ⟨0, 0, onMod 0 0 (fun y => { y with rx := { good := 0xFFFFFFFFFFFFFFFFF }, tx := { good := 0xFFFFFFFFFFFFFFFFF }, phase := .testing }) (actSite 0 (imaged { sites := upd (Vector.replicate 6 {}) 0 fun _ => { use := true, laneMask := 0xFFFFFFFF, hints := true } })), by decide +kernel⟩,
   ⟨0, 0, onMod 0 0 (fun y => { y with rx := { good := 0xFFFFFFFFFFFFFFFFF }, tx := { good := 0xFFFFFFFFFFFFFFFFF } }) (actSite 0 (imaged { sites := upd (Vector.replicate 6 {}) 0 fun _ => { use := true, laneMask := 0xFFFFFFFF, hints := true } })), by decide +kernel⟩,
   ⟨0, 0, 0, { limit := 4, queue := [{ stream := 0, offset := 0, length := 1, data := [7], frames := 1 }] }, ((txNext 488 504 { limit := 4, queue := [{ stream := 0, offset := 0, length := 1, data := [7], frames := 1 }] }).get (by decide +kernel)).2.2, ((txNext 488 504 { limit := 4, queue := [{ stream := 0, offset := 0, length := 1, data := [7], frames := 1 }] }).get (by decide +kernel)).1, ((txNext 488 504 { limit := 4, queue := [{ stream := 0, offset := 0, length := 1, data := [7], frames := 1 }] }).get (by decide +kernel)).2.1, onSite 0 (fun q => { q with tx := [(0, { limit := 4, queue := [{ stream := 0, offset := 0, length := 1, data := [7], frames := 1 }] })] }) (onMod 0 0 (fun y => { y with rx := { good := 0xFFFFFFFFFFFFFFFFF }, tx := { good := 0xFFFFFFFFFFFFFFFFF } }) (actSite 0 (imaged { sites := upd (Vector.replicate 6 {}) 0 fun _ => { use := true, laneMask := 0xFFFFFFFF, hints := true }, conns := [{ src := 0, dst := 0, stream := 0, both := true, cls := 0 }] }))), by decide +kernel⟩,
   ⟨0, 0, actSite 0 (imaged { sites := upd (Vector.replicate 6 {}) 0 fun _ => { use := true, laneMask := 0xFFFFFFFF, hints := true } }), by decide +kernel⟩⟩

/-- Witnesses of WidePortRepairs. -/
theorem witness_wide_port_repairs :
    (∃ (w : WideIx) (m : Fin 33) (s : State), running s = true ∧ siteUp s w.site = true ∧ modUsed s w m.val = true ∧ ((s.wide[w]).mods[m]).due = true
      ∧ ((s.wide[w]).mods[m]).phase = .idle ∧ (s.site[w.site]).sb.up = true ∧ mayRepair s ((s.wide[w]).mods[m]).atCommit ((s.wide[w]).mods[m]).dueAt =
      true) ∧
    (∃ (x : SiteIx) (w : WideIx) (m : Fin 33) (raw : List Byte) (y : Slot) (s : State), slotArrives x raw y s ∧ y.typ = 0x12 ∧ wideOf x = some w ∧
      modOf (byteAt y.body 0) = some m ∧ byteAt y.body 1 ≠ 0 ∧ ((s.wide[w]).mods[m]).phase = .requested) ∧
    (∃ (x : SiteIx) (w : WideIx) (m : Fin 33) (raw : List Byte) (y : Slot) (s : State), slotArrives x raw y s ∧ y.typ = 0x12 ∧ wideOf x = some w ∧
      modOf (byteAt y.body 0) = some m ∧ byteAt y.body 1 = 0) ∧
    (∃ (w : WideIx) (m : Fin 33) (g : BitVec 68) (s : State), running s = true ∧ ((s.wide[w]).mods[m]).phase = .testing) ∧
    (∃ (x : SiteIx) (w : WideIx) (m : Fin 33) (raw : List Byte) (y : Slot) (s : State), slotArrives x raw y s ∧ y.typ = 0x11 ∧ wideOf x = some w ∧
      modOf (byteAt y.body 0) = some m) ∧
    (∃ (x : SiteIx) (w : WideIx) (m : Fin 33) (f : Word) (g : BitVec 68) (s : State), running s = true ∧ wideOf x = some w ∧
      ((s.wide[w]).mods[m]).rx.nextMap = some (f, g) ∧ s.img.penumbra = []) ∧
    (∃ (x : SiteIx) (w : WideIx) (m : Fin 33) (raw : List Byte) (y : Slot) (s : State), slotArrives x raw y s ∧ y.typ = 0x13 ∧ wideOf x = some w ∧
      modOf (byteAt y.body 0) = some m ∧ m.val ≠ 32 ∧ modTests s w m = false ∧ byteAt y.body 1 = 2) ∧
    (∃ (x : SiteIx) (w : WideIx) (m : Fin 33) (raw : List Byte) (y : Slot) (s : State), slotArrives x raw y s ∧ y.typ = 0x13 ∧ wideOf x = some w ∧
      modOf (byteAt y.body 0) = some m ∧ modTests s w m = true) ∧
    (∃ (x : SiteIx) (s : State), running s = true ∧ siteUp s x = true ∧ s.img.penumbra = []) ∧
    (∃ (p : Port) (n : Line) (s : State), running s = true ∧ receiverOn s p n = true) :=
  ⟨⟨0, 0, onMod 0 0 (fun y => { y with due := true }) (actSite 0 (imaged { sites := upd (Vector.replicate 6 {}) 0 fun _ => { use := true, laneMask := 0xFFFFFFFF, hints := true } })), by decide +kernel⟩,
   ⟨0, 0, 0, slotBytes (slotT 0x12 [0, 1]), slotT 0x12 [0, 1], onSite 0 (fun q => q) (actSite 0 (onMod 0 0 (fun y => { y with phase := .requested }) (pen))), by simp only [slotArrives]; decide +kernel⟩,
   ⟨0, 0, 0, slotBytes (slotT 0x12 [0, 0]), slotT 0x12 [0, 0], actSite 0 pen, by simp only [slotArrives]; decide +kernel⟩,
   ⟨0, 0, 0, onMod 0 0 (fun y => { y with phase := .testing }) (up), by decide +kernel⟩,
   ⟨0, 0, 0, slotBytes (slotT 0x11 []), slotT 0x11 [], onSite 0 (fun q => q) (actSite 0 (pen)), by simp only [slotArrives]; decide +kernel⟩,
   ⟨0, 0, 0, 0, 0, onMod 0 0 (fun y => { y with rx := { good := 0, nextMap := some (0, 0) } }) (up), by decide +kernel⟩,
   ⟨0, 0, 0, slotBytes (slotT 0x13 [0, 2]), slotT 0x13 [0, 2], onSite 0 (fun q => q) (actSite 0 (pen)), by simp only [slotArrives]; decide +kernel⟩,
   ⟨0, 0, 0, slotBytes (slotT 0x13 [0, 0]), slotT 0x13 [0, 0], actSite 0 (onMod 0 0 (fun y => { y with phase := .testing }) pen), by simp only [slotArrives]; decide +kernel⟩,
   ⟨0, actSite 0 (imaged { sites := upd (Vector.replicate 6 {}) 0 fun _ => { use := true, laneMask := 0xFFFFFFFF, hints := true } }), by decide +kernel⟩,
   ⟨0, 1, upLine, by decide +kernel⟩⟩

/-- Witnesses of WidePortCommands. -/
theorem witness_wide_port_commands :
    (∃ (w : WideIx) (v : Word) (s : State), hostOn s ∧ rsvBad s 0xE0000 v = false ∧ fin! 4 (fld v 9 8) = w ∧ fld v 31 16 =
      (s.site[w.site]).epoch.toNat ∧ (s.site[w.site]).state = 6) ∧
    (∃ (w : WideIx) (v : Word) (s : State), hostOn s ∧ rsvBad s 0xE0000 v = false ∧ fin! 4 (fld v 9 8) = w ∧ fld v 31 16 =
      (s.site[w.site]).epoch.toNat ∧ (s.site[w.site]).state ≠ 6) ∧
    (∃ (w : WideIx) (v : Word) (s : State), hostOn s ∧ rsvBad s 0xE0000 v = false ∧ fin! 4 (fld v 9 8) = w ∧ fld v 31 16 =
      (s.site[w.site]).epoch.toNat ∧ 1 ≤ (s.site[w.site]).state.toNat ∧ (s.site[w.site]).state.toNat ≤ 6 ∧ (s.site[w.site]).state ≠ 5) ∧
    (∃ (w : WideIx) (v : Word) (s : State), hostOn s ∧ rsvBad s 0xE0000 v = false ∧ fin! 4 (fld v 9 8) = w ∧ fld v 31 16 =
      (s.site[w.site]).epoch.toNat ∧ (s.site[w.site]).hold = true) ∧
    (∃ (w : WideIx) (v : Word) (s : State), hostOn s ∧ rsvBad s 0xE0000 v = false ∧ fin! 4 (fld v 9 8) = w ∧ fld v 31 16 =
      (s.site[w.site]).epoch.toNat ∧ siteUp s w.site = true ∧ modUsed s w (fin! 33 (fld v 15 11)).val = true) ∧
    (∃ (w : WideIx) (v : Word) (s : State), hostOn s ∧ rsvBad s 0xE0000 v = false ∧ fin! 4 (fld v 9 8) = w ∧ fld v 31 16 ≠
      (s.site[w.site]).epoch.toNat) :=
  ⟨⟨0, 0, onSite 0 (fun q => { q with state := 6 }) up, by simp only [hostOn]; decide +kernel⟩,
   ⟨0, 0, up, by simp only [hostOn]; decide +kernel⟩,
   ⟨0, 0, onSite 0 (fun q => { q with state := 1 }) up, by simp only [hostOn]; decide +kernel⟩,
   ⟨0, 0, onSite 0 (fun q => { q with hold := true }) up, by simp only [hostOn]; decide +kernel⟩,
   ⟨0, 0, actSite 0 (imaged { sites := upd (Vector.replicate 6 {}) 0 fun _ => { use := true, laneMask := 0xFFFFFFFF, hints := true } }), by simp only [hostOn]; decide +kernel⟩,
   ⟨0, 0x10000, up, by simp only [hostOn]; decide +kernel⟩⟩

/-- Witnesses of ReachCodewords. -/
theorem witness_reach_codewords :
    (∃ (r : ReachIx) (q : Fin 8) (w : List Sym) (v : List Sym) (k : Nat) (b : List Byte) (s : State), running s = true ∧ siteUp s r.site = true ∧
      quadHears s r q = true ∧ atSideband s r q = false ∧ wordErrors s r q true = [] ∧ rsDecode 30 (wordSeen s r q w) = some (v, []) ∧ reachFields v =
      (0, k, b)) ∧
    (∃ (r : ReachIx) (q : Fin 8) (w : List Sym) (v : List Sym) (k : Nat) (b : List Byte) (e : RxStream) (s : State), running s = true ∧ siteUp s
      r.site = true ∧ quadHears s r q = true ∧ atSideband s r q = false ∧ wordErrors s r q true = [] ∧ rsDecode 30 (wordSeen s r q w) = some (v, []) ∧
      reachFields v = (1, k, b) ∧ aget (s.site[r.site]).rx k = some e ∧ e.opened = none ∧ noCredit (s.site[r.site]) k = false ∧ bnat b 0 2 = k ∧ 0 <
      bnat b 4 4 ∧ bnat b 4 4 ≤ 2 ^ 28 ∧ (b.drop 16).length < bnat b 4 4 ∧ s.ctl.named.contains (r.site.val, k, bnat b 2 2) = false) ∧
    (∃ (r : ReachIx) (q : Fin 8) (w : List Sym) (s : State), running s = true ∧ siteUp s r.site = true ∧ quadHears s r q = true ∧ atSideband s r q =
      false ∧ wordErrors s r q true = [] ∧ rsDecode 30 (wordSeen s r q w) = none ∧ s.img.penumbra = []) ∧
    (∃ (r : ReachIx) (q : Fin 8) (s : State), running s = true ∧ siteUp s r.site = true ∧ (quadMask s r).getLsbD q.val = true ∧ quadServes s r q =
      true ∧ (s.reach[r]).txIndex[q].toNat % 32 ≠ 4 * q.val ∧ nextStream (s.site[r.site]) = none ∧ wordErrors s r q false = []) ∧
    (∃ (r : ReachIx) (q : Fin 8) (k : Nat) (ty : FrameTyp) (b : List Byte) (e : TxStream) (s : State), running s = true ∧ siteUp s r.site = true ∧
      (quadMask s r).getLsbD q.val = true ∧ quadServes s r q = true ∧ (s.reach[r]).txIndex[q].toNat % 32 ≠ 4 * q.val ∧ nextStream (s.site[r.site]) =
      some (k, ty, b, e) ∧ wordErrors s r q false = []) :=
  ⟨⟨0, 0, [], [], 0, [], (fun (s : State) => onReach 0 (fun r => { r with ownNow := (0xFF, 0xFF), partnerNow := (0xFF, 0xFF), rxIndex := Vector.replicate 8 1, txIndex := Vector.replicate 8 1 }) s) (actSite 4 (imaged { sites := upd (Vector.replicate 6 {}) 4 fun _ => { use := true, laneMask := 0xFFFFFFFF, hints := true } })), by decide +kernel⟩,
   ⟨0, 0, [1, 0, 0, 0, 0, 512, 0, 0, 0, 280, 62, 431, 155, 737, 26, 370, 639, 507, 841, 922, 692, 548, 308, 50, 835, 149, 235, 1020, 651, 817, 924, 413, 1009, 637, 210, 214, 803, 941, 295], [1, 0, 0, 0, 0, 512, 0, 0, 0, 280, 62, 431, 155, 737, 26, 370, 639, 507, 841, 922, 692, 548, 308, 50, 835, 149, 235, 1020, 651, 817, 924, 413, 1009, 637, 210, 214, 803, 941, 295], 0, [0, 0, 0, 0, 128, 0, 0, 0, 0, 70, 62, 188, 182, 73, 184, 26, 200, 245, 231, 126, 73, 107, 78, 43, 137, 52, 201, 48, 116, 37, 235, 240, 191, 104, 204, 156, 119, 22, 127, 159, 210, 88, 51, 114, 235, 39], { advertised := 2 }, onSite 4 (fun q => { q with rx := [(0, { advertised := 2 })] }) ((fun (s : State) => onReach 0 (fun r => { r with ownNow := (0xFF, 0xFF), partnerNow := (0xFF, 0xFF), rxIndex := Vector.replicate 8 1, txIndex := Vector.replicate 8 1 }) s) (actSite 4 (imaged { sites := upd (Vector.replicate 6 {}) 4 fun _ => { use := true, laneMask := 0xFFFFFFFF, hints := true } }))), by decide +kernel⟩,
   ⟨0, 0, [464, 941, 564, 614, 563, 961, 2, 437, 370, 927, 812, 11, 883, 301, 387, 375, 740, 394, 451, 282, 211, 141, 1011, 815, 885, 197, 656, 513, 287, 1].reverse, (fun (s : State) => onReach 0 (fun r => { r with ownNow := (0xFF, 0xFF), partnerNow := (0xFF, 0xFF), rxIndex := Vector.replicate 8 1, txIndex := Vector.replicate 8 1 }) s) (actSite 4 (imaged { sites := upd (Vector.replicate 6 {}) 4 fun _ => { use := true, laneMask := 0xFFFFFFFF, hints := true } })), by decide +kernel⟩,
   ⟨0, 0, (fun (s : State) => onReach 0 (fun r => { r with ownNow := (0xFF, 0xFF), partnerNow := (0xFF, 0xFF), rxIndex := Vector.replicate 8 1, txIndex := Vector.replicate 8 1 }) s) (actSite 4 (imaged { sites := upd (Vector.replicate 6 {}) 4 fun _ => { use := true, laneMask := 0xFFFFFFFF, hints := true } })), by decide +kernel⟩,
   ⟨0, 0, 0, ((nextStream ({ tx := [(0, { limit := 4, queue := [{ stream := 0, offset := 0, length := 1, data := [7], frames := 1 }] })] } : Site)).get (by decide +kernel)).2.1, ((nextStream ({ tx := [(0, { limit := 4, queue := [{ stream := 0, offset := 0, length := 1, data := [7], frames := 1 }] })] } : Site)).get (by decide +kernel)).2.2.1, ((nextStream ({ tx := [(0, { limit := 4, queue := [{ stream := 0, offset := 0, length := 1, data := [7], frames := 1 }] })] } : Site)).get (by decide +kernel)).2.2.2, onSite 4 (fun q => { q with tx := [(0, { limit := 4, queue := [{ stream := 0, offset := 0, length := 1, data := [7], frames := 1 }] })] }) ((fun (s : State) => onReach 0 (fun r => { r with ownNow := (0xFF, 0xFF), partnerNow := (0xFF, 0xFF), rxIndex := Vector.replicate 8 1, txIndex := Vector.replicate 8 1 }) s) (actSite 4 (imaged { sites := upd (Vector.replicate 6 {}) 4 fun _ => { use := true, laneMask := 0xFFFFFFFF, hints := true } }))), by decide +kernel⟩⟩

/-- Witnesses of ReachLanes. -/
theorem witness_reach_lanes :
    (∃ (r : ReachIx) (l : Fin 32) (raw : List Byte) (bip : Byte) (s : State), running s = true ∧ ((s.site[r.site]).state = 2 ∨ siteUp s r.site = true)
      ∧ armedFor s r 3 true = false ∧ raw.take 8 = tpPattern ∧ byteAt raw 14 = bip) ∧
    (∃ (r : ReachIx) (l : Fin 32) (raw : List Byte) (bip : Byte) (s : State), running s = true ∧ siteUp s r.site = true ∧ armedFor s r 3 true = false
      ∧ raw.take 8 = tpPattern ∧ byteAt raw 14 ≠ bip) ∧
    (∃ (r : ReachIx) (s : State), running s = true ∧ siteUp s r.site = true) ∧
    (∃ (r : ReachIx) (l : Fin 32) (c : Word) (v : Word) (s : State), running s = true ∧ inTraining s r l = true) ∧
    (∃ (r : ReachIx) (l : Fin 32) (f : Byte) (s : State), running s = true) :=
  ⟨⟨0, 0, tpPattern ++ List.replicate 7 0, 0, actSite 4 (imaged { sites := upd (Vector.replicate 6 {}) 4 fun _ => { use := true, laneMask := 0xFFFFFFFF, hints := true } }), by decide +kernel⟩,
   ⟨0, 0, tpPattern ++ List.replicate 7 0, 1, actSite 4 (imaged { sites := upd (Vector.replicate 6 {}) 4 fun _ => { use := true, laneMask := 0xFFFFFFFF, hints := true } }), by decide +kernel⟩,
   ⟨0, actSite 4 (imaged { sites := upd (Vector.replicate 6 {}) 4 fun _ => { use := true, laneMask := 0xFFFFFFFF, hints := true } }), by decide +kernel⟩,
   ⟨0, 0, 0, 0, onSite 4 (fun q => { q with state := 2, step := 1 }) (imaged { sites := upd (Vector.replicate 6 {}) 4 fun _ => { use := true, laneMask := 0xFFFFFFFF, hints := true } }), by decide +kernel⟩,
   ⟨0, 0, 0, up, by decide +kernel⟩⟩

/-- Witnesses of ReachRetests. -/
theorem witness_reach_retests :
    (∃ (r : ReachIx) (q : Fin 8) (l : List (Fin 8)) (s : State), running s = true ∧ siteUp s r.site = true ∧ (s.reach[r]).retest = none ∧ retestable s
      r = q :: l) ∧
    (∃ (r : ReachIx) (x : SiteIx) (q : Fin 8) (raw : List Byte) (y : Slot) (s : State), slotArrives x raw y s ∧ y.typ = 0x12 ∧ reachOf x = some r ∧
      repairQuad (byteAt y.body 0) = some q ∧ byteAt y.body 1 = 1 ∧ (s.reach[r]).retest = some q ∧ (s.reach[r]).partnerReady = false) ∧
    (∃ (r : ReachIx) (x : SiteIx) (raw : List Byte) (y : Slot) (s : State), slotArrives x raw y s ∧ y.typ = 0x11 ∧ reachOf x = some r ∧ byteAt y.body
      0 = 0x40) ∧
    (∃ (r : ReachIx) (x : SiteIx) (g : BitVec 8) (v : BitVec 8) (f : Word) (s : State), running s = true ∧ reachOf x = some r ∧ siteUp s r.site = true
      ∧ (s.reach[r]).ownMap = some (g, v, f) ∧ s.img.penumbra = []) ∧
    (∃ (r : ReachIx) (x : SiteIx) (q : Fin 8) (g : BitVec 8) (v : BitVec 8) (f : Word) (s : State), running s = true ∧ reachOf x = some r ∧ siteUp s
      r.site = true ∧ (s.reach[r]).ownMap = some (g, v, f) ∧ (s.reach[r]).partnerMap = none ∧ (s.reach[r]).retest = some q ∧ g.getLsbD q.val = false ∧
      s.img.penumbra = []) ∧
    (∃ (r : ReachIx) (q : Fin 8) (w : List Sym) (s : State), running s = true ∧ qualifies s r q = true ∧ wordErrors s r q true = []) ∧
    (∃ (r : ReachIx) (ok : Bool) (s : State), running s = true ∧ retestRipe s.time (s.reach[r]) = false) ∧
    (∃ (r : ReachIx) (q : Fin 8) (s : State), running s = true ∧ siteUp s r.site = true ∧ (s.reach[r]).retest = some q ∧
      (s.reach[r]).inService.getLsbD q.val = false ∧ (s.reach[r]).ownMap = none ∧ retestRipe s.time (s.reach[r]) = true ∧ retestPasses (s.reach[r]) q
      = true) ∧
    (∃ (r : ReachIx) (q : Fin 8) (ok : Bool) (s : State), running s = true ∧ siteUp s r.site = true ∧ (s.reach[r]).retest = some q ∧
      (s.reach[r]).inService.getLsbD q.val = false ∧ (s.reach[r]).ownMap = none ∧ retestRipe s.time (s.reach[r]) = true ∧ (ok = false ∨ retestPasses
      (s.reach[r]) q = false)) :=
  ⟨⟨0, 0, [], (fun (s : State) => onReach 0 (fun r => { r with due := 1, ownNow := (1, 1), partnerNow := (1, 1) }) s) (actSite 4 (imaged { sites := upd (Vector.replicate 6 {}) 4 fun _ => { use := true, laneMask := 0xFFFFFFFF, hints := true } })), by decide +kernel⟩,
   ⟨0, 4, 0, slotBytes (slotT 0x12 [0x40, 1]), slotT 0x12 [0x40, 1], onSite 4 (fun q => q) (actSite 4 ((fun (s : State) => onReach 0 (fun r => { r with retest := some 0 }) s) (pen))), by simp only [slotArrives]; decide +kernel⟩,
   ⟨0, 4, slotBytes (slotT 0x11 [0x40]), slotT 0x11 [0x40], onSite 4 (fun q => q) (actSite 4 (pen)), by simp only [slotArrives]; decide +kernel⟩,
   ⟨0, 4, 0, 0, 0, (fun (s : State) => onReach 0 (fun r => { r with ownMap := some (0, 0, 0) }) s) (actSite 4 (imaged { sites := upd (Vector.replicate 6 {}) 4 fun _ => { use := true, laneMask := 0xFFFFFFFF, hints := true } })), by decide +kernel⟩,
   ⟨0, 4, 0, 0, 0, 0, (fun (s : State) => onReach 0 (fun r => { r with ownMap := some (0, 0, 0), partnerMap := none, retest := some 0 }) s) (actSite 4 (imaged { sites := upd (Vector.replicate 6 {}) 4 fun _ => { use := true, laneMask := 0xFFFFFFFF, hints := true } })), by decide +kernel⟩,
   ⟨0, 0, [], (fun (s : State) => onReach 0 (fun r => { r with retest := some 0, qualAt := some 0 }) s) (actSite 4 (imaged { sites := upd (Vector.replicate 6 {}) 4 fun _ => { use := true, laneMask := 0xFFFFFFFF, hints := true } })), by decide +kernel⟩,
   ⟨0, true, up, by decide +kernel⟩,
   ⟨0, 0, (fun (s : State) => { s with time := 1000 }) ((fun (s : State) => onReach 0 (fun r => { r with retest := some 0, qualAt := some 0, lanes := vmk 32 fun _ => { locked := true, done := true, partnerDone := true, fom := 255 } }) s) (actSite 4 (imaged { sites := upd (Vector.replicate 6 {}) 4 fun _ => { use := true, laneMask := 0xFFFFFFFF, hints := true } }))), by decide +kernel⟩,
   ⟨0, 0, false, (fun (s : State) => { s with time := 5000 }) ((fun (s : State) => onReach 0 (fun r => { r with retest := some 0 }) s) (actSite 4 (imaged { sites := upd (Vector.replicate 6 {}) 4 fun _ => { use := true, laneMask := 0xFFFFFFFF, hints := true } }))), by decide +kernel⟩⟩

/-- Witnesses of ReachCommandsAndInjection. -/
theorem witness_reach_commands_and_injection :
    (∃ (r : ReachIx) (v : Word) (s : State), hostOn s ∧ rsvBad s 0xF0000 v = false ∧ fin! 2 (fld v 8 8) = r ∧ fld v 31 16 =
      (s.site[r.site]).epoch.toNat) ∧
    (∃ (v : Word) (s : State), hostOn s ∧ rsvBad s 0xF0020 v = false) ∧
    (∃ (r : ReachIx) (q : Fin 8) (p : Nat) (s : State), running s = true ∧ (s.site[r.site]).state = 7 ∧ patternOf s r = p ∧ 1 ≤ p ∧ p ≤ 5 ∧
      s.siteReg.echo = false ∧ wordErrors s r q false = []) ∧
    (∃ (r : ReachIx) (v : Word) (s : State), hostOn s ∧ rsvBad s 0xF0028 v = false ∧ fin! 2 (fld v 17 17) = r ∧ siteUp s r.site = true ∧ bit v 18 =
      false) ∧
    (∃ (r : ReachIx) (v : Word) (s : State), hostOn s ∧ rsvBad s 0xF0028 v = false ∧ fin! 2 (fld v 17 17) = r) ∧
    (∃ (r : ReachIx) (s : State), running s = true ∧ siteUp s r.site = true ∧ (s.reach[r]).inject.again = true) :=
  ⟨⟨0, 0, up, by simp only [hostOn]; decide +kernel⟩,
   ⟨0, up, by simp only [hostOn]; decide +kernel⟩,
   ⟨0, 0, 1, { onSite 4 (fun q => { q with state := 7 }) up with siteReg := { up.siteReg with pattern := 1, patSite := 0 } }, by decide +kernel⟩,
   ⟨0, 0, actSite 4 (imaged { sites := upd (Vector.replicate 6 {}) 4 fun _ => { use := true, laneMask := 0xFFFFFFFF, hints := true } }), by simp only [hostOn]; decide +kernel⟩,
   ⟨0, 0, up, by simp only [hostOn]; decide +kernel⟩,
   ⟨0, (fun (s : State) => onReach 0 (fun r => { r with inject := { r.inject with again := true } }) s) (actSite 4 (imaged { sites := upd (Vector.replicate 6 {}) 4 fun _ => { use := true, laneMask := 0xFFFFFFFF, hints := true } })), by decide +kernel⟩⟩

/-- Witnesses of StepRunsTheFrontCommand. -/
theorem witness_step_runs_the_front_command :
    (∃ (c : Instr) (r : List Instr) (s : State), s.pending = c :: r) ∧
    (∃ (s : State), s.pending = [] ∧ running s = true) ∧
    (∃ (s : State), s.pending = [] ∧ running s = false) :=
  ⟨⟨.powerOff, [], { up with pending := [.powerOff] }, by decide +kernel⟩,
   ⟨up, by decide +kernel⟩,
   ⟨State.reset, by decide +kernel⟩⟩

/-- Witnesses of MemoryStaysCanonical. -/
theorem witness_memory_stays_canonical :
    ∃ (s : State) (t : State), memoryCanonical s ∧ step s = .next t :=
  ⟨up, { up with time := 1 }, by unfold memoryCanonical; decide +kernel, rfl⟩

/-- Witnesses of UmbraStaysDark. -/
theorem witness_umbra_stays_dark :
    (∃ (s : State) (t : State), umbraDark s ∧ step s = .next t) ∧
    (∃ (c : Instr) (s : State) (t : State), exec c s = .next t ∧ c.resets = false ∧ s.dev.fatal = true) ∧
    (∃ (c : Instr) (s : State) (t : State), exec c s = .next t ∧ s.dev.fatal = false ∧ t.dev.fatal = true) :=
  ⟨⟨up, { up with time := 1 }, by unfold umbraDark; decide +kernel, rfl⟩,
   ⟨.qclkLoss, { up with dev := { up.dev with fatal := true } }, _, rfl, by decide +kernel, by decide +kernel⟩,
   ⟨.qclkLoss, up, _, rfl, by decide +kernel, by decide +kernel⟩⟩

/-- Witnesses of OpenVectorsAreSent. -/
theorem witness_open_vectors_are_sent :
    (∃ (s : State) (t : State), openVectorsSent s ∧ step s = .next t) ∧
    (∃ (c : Instr) (s : State) (t : State) (v : Fin 64), exec c s = .next t ∧ c.resets = false ∧ (∀ k, c ≠ .pcieFunctionReset k) ∧ s.host.was.getLsbD
      v.val = false ∧ (irqConds t).getLsbD v.val = true ∧ irqOpen t.host v = true) :=
  ⟨⟨up, { up with time := 1 }, by unfold openVectorsSent; decide +kernel, rfl⟩,
   ⟨.qclkLoss, { up with dev := { up.dev with mask := 0 }, host := { up.host with msixEnable := true, msixFmask := false, vec := up.host.vec.map fun e => { e with masked := false } } }, _, 0, rfl, by decide +kernel, fun _ h => Instr.noConfusion h, by decide +kernel, by decide +kernel, by decide +kernel⟩⟩

/-- Witnesses of EnergyCountsEverySample. -/
theorem witness_energy_counts_every_sample :
    (∃ (rails : List RailSample) (tiles : List Nat) (s : State), running s = true) ∧
    (∃ (c : Instr) (s : State) (t : State), exec c s = .next t ∧ c.resets = false ∧ (∀ r l, c ≠ .powerSample r l)) ∧
    (∃ (p : ResetPin) (us : Nat) (s : State), s.dev.powered = true ∧ 10 ≤ us) ∧
    (∃ (s : State), s.dev.powered = true) :=
  ⟨⟨[], [], up, by decide +kernel⟩,
   ⟨.qclkLoss, up, _, rfl, by decide +kernel, fun _ _ h => Instr.noConfusion h⟩,
   ⟨.sysRst, 10, up, by decide +kernel⟩,
   ⟨up, by decide +kernel⟩⟩

/-- Witnesses of PartsChangeOnlyByTheirCommands. -/
theorem witness_parts_change_only_by_their_commands :
    (∃ (c : Instr) (s : State) (t : State), exec c s = .next t ∧ c.resets = false) ∧
    (∃ (c : Instr) (s : State) (t : State), exec c s = .next t) :=
  ⟨⟨.qclkLoss, up, _, rfl, by decide +kernel⟩,
   ⟨.qclkLoss, up, _, rfl⟩⟩

/-- Witnesses of BytesChangeOnlyByStores. -/
theorem witness_bytes_change_only_by_stores :
    ∃ (c : Instr) (s : State) (t : State), exec c s = .next t ∧ c.resets = false :=
  ⟨.qclkLoss, up, _, rfl, by decide +kernel⟩

/-- Witnesses of FormatsEncodeInfinityAndNan. -/
theorem witness_formats_encode_infinity_and_nan :
    (∃ f ∈ [fp32, bf16, fp16, e5m2], ∃ (sg ex m : Nat), sg < 2 ∧ ex < 2 ^ f.eb ∧ m < 2 ^ f.mb) ∧
    (∃ (sg : Nat) (ex : Nat) (m : Nat), sg < 2 ∧ ex < 16 ∧ m < 8) :=
  ⟨⟨e5m2, by decide, 1, 31, 3, by decide⟩,
   ⟨0, 0, 0, by decide +kernel⟩⟩

/-- Witnesses of EncodingsReadBack. -/
theorem witness_encodings_read_back :
    (∃ f ∈ [fp32, bf16, fp16, e4m3, e5m2, e3m2, e2m3, e2m1], ∃ (c : Nat) (n : Bool) (m : Nat) (e : Int), c < 2 ^ (f.body + 1) ∧ f.decode c = .num n m
      e) ∧
    (∃ (f : Flit) (raw : List Byte), f.body.length = 240) ∧
    (∃ (x : Slot) (raw : List Byte), x.body.length = 16) ∧
    (∃ (k : Nat) (st : Nat) (b : List Byte), k < 4 ∧ st < 512 ∧ b.length = 640) ∧
    (∃ (good : BitVec 68) (t : FrameTyp) (b : List Byte), 32 ≤ popc68 good ∧ b.length = 504) :=
  ⟨⟨e4m3, by decide, 254, _, _, _, by decide, rfl⟩,
   ⟨flitT 1 [], [], by decide +kernel⟩,
   ⟨slotT 1 [], [], by decide +kernel⟩,
   ⟨3, 511, List.replicate 640 0, by decide +kernel⟩,
   ⟨0xFFFFFFFF, 2, List.replicate 504 0, by decide +kernel⟩⟩

end Sys2Proof.Tests
end

section
/-!
PROOFS. The value of a floating-point code by its sign, exponent and mantissa fields (chapter 6, R167, R168).
-/

namespace Sys2Proof.Machine

/-- The field above `k` low bits. -/
theorem field_above_low_bits (a : Nat) {k r : Nat} (hr : r < 2 ^ k) : (a * 2 ^ k + r) / 2 ^ k = a := by
  rw [Nat.mul_comm, Nat.mul_add_div (Nat.two_pow_pos k), Nat.div_eq_of_lt hr, Nat.add_zero]

/-- Exponent and mantissa together fill the bits below the sign. -/
theorem FFmt.magnitude_lt (f : FFmt) {ex m : Nat} (hex : ex < 2 ^ f.eb) (hm : m < 2 ^ f.mb) : ex * 2 ^ f.mb + m < 2 ^ f.body :=
  calc ex * 2 ^ f.mb + m < (ex + 1) * 2 ^ f.mb := by rw [Nat.succ_mul]; omega
    _ ≤ 2 ^ f.eb * 2 ^ f.mb := Nat.mul_le_mul_right _ hex
    _ = 2 ^ f.body := (Nat.pow_add 2 f.eb f.mb).symm

/-- The value of a code whose fields are `sg`, `ex` and `m`, in every format (R167, R168). -/
theorem FFmt.decode_fields (f : FFmt) {sg ex m : Nat} (hsg : sg < 2) (hex : ex < 2 ^ f.eb) (hm : m < 2 ^ f.mb) :
    f.decode (sg * 2 ^ f.body + ex * 2 ^ f.mb + m) =
      (if f.ieee ∧ ex = 2 ^ f.eb - 1 then (if m = 0 then .inf (sg == 1) else .nan)
       else if f.ieee = false ∧ f.nan = some (ex * 2 ^ f.mb + m) then .nan
       else if ex = 0 then .num (sg == 1) m (1 - (f.bias : Int) - f.mb)
       else .num (sg == 1) (2 ^ f.mb + m) ((ex : Int) - f.bias - f.mb)) := by
  have hx := f.magnitude_lt hex hm
  have sign : (sg * 2 ^ f.body + (ex * 2 ^ f.mb + m)) / 2 ^ f.body % 2 = sg := by
    rw [field_above_low_bits sg hx, Nat.mod_eq_of_lt hsg]
  have magnitude : (sg * 2 ^ f.body + (ex * 2 ^ f.mb + m)) % 2 ^ f.body = ex * 2 ^ f.mb + m := Nat.mul_add_mod_of_lt hx
  have exponent : (ex * 2 ^ f.mb + m) / 2 ^ f.mb = ex := field_above_low_bits ex hm
  have mantissa : (ex * 2 ^ f.mb + m) % 2 ^ f.mb = m := Nat.mul_add_mod_of_lt hm
  simp only [FFmt.decode, Nat.add_assoc, sign, magnitude, exponent, mantissa]

/-- An IEEE 754 format keeps the exponent of all ones for infinity and NaN, and every other code is a number (R168). -/
theorem FFmt.decode_fields_of_ieee (f : FFmt) (hf : f.ieee = true) {sg ex m : Nat} (hsg : sg < 2) (hex : ex < 2 ^ f.eb) (hm : m < 2 ^ f.mb) :
    f.decode (sg * 2 ^ f.body + ex * 2 ^ f.mb + m) =
      (if ex = 2 ^ f.eb - 1 then (if m = 0 then .inf (sg == 1) else .nan)
       else if ex = 0 then .num (sg == 1) m (1 - (f.bias : Int) - f.mb)
       else .num (sg == 1) (2 ^ f.mb + m) ((ex : Int) - f.bias - f.mb)) := by
  simp [f.decode_fields hsg hex hm, hf]

/-- The one magnitude that E4M3 spends on NaN has both fields all ones, and no code is an infinity (R168). -/
theorem e4m3_decode_fields {sg ex m : Nat} (hsg : sg < 2) (hex : ex < 16) (hm : m < 8) :
    e4m3.decode (sg * 128 + ex * 8 + m) =
      (if ex = 15 ∧ m = 7 then .nan else if ex = 0 then .num (sg == 1) m (-9) else .num (sg == 1) (8 + m) ((ex : Int) - 10)) := by
  have fields := e4m3.decode_fields hsg hex hm
  have nanCode : 127 = ex * 8 + m ↔ ex = 15 ∧ m = 7 := by omega
  have exponent : (ex : Int) - 7 - 3 = ex - 10 := by omega
  simpa [e4m3, FFmt.body, nanCode, exponent] using fields

/-- A format with neither the IEEE 754 exponent nor a NaN code gives every code, of any width, a number (R168). -/
theorem FFmt.decode_eq_num_of_no_nan (f : FFmt) (hieee : f.ieee = false) (hnan : f.nan = none) (c : Nat) : ∃ n m e, f.decode c = .num n m e := by
  simp only [FFmt.decode, hieee, hnan, Bool.false_eq_true, false_and, reduceCtorEq, and_false, if_false]
  split
  case isTrue => exact ⟨_, _, _, rfl⟩
  case isFalse => exact ⟨_, _, _, rfl⟩

/-- Settles O59: the fields of a code are read back, and each format's two markers (IEEE 754 exponent, NaN code) then decide the case. -/
theorem formatsEncodeInfinityAndNan : Obligations.FormatsEncodeInfinityAndNan := by
  refine ⟨fun f hf sg ex m hsg hex hm => ?ieee, fun sg ex m => e4m3_decode_fields, fun f hf c => ?noNan⟩
  case ieee =>
    have marked : ∀ g ∈ [fp32, bf16, fp16, e5m2], g.ieee = true := by decide
    exact f.decode_fields_of_ieee (marked f hf) hsg hex hm
  case noNan =>
    have unmarked : ∀ g ∈ [e3m2, e2m3, e2m1], g.ieee = false ∧ g.nan = none := by decide
    obtain ⟨hieee, hnan⟩ := unmarked f hf
    exact f.decode_eq_num_of_no_nan hieee hnan c

end Sys2Proof.Machine
end

section
/-!
PROOFS. What every operation of the machine leaves of PWR_ENERGY (R413): one line for each operation, by the file of the model that it stands in.
-/

namespace Sys2Proof.Machine

/-- The energy of a conditional controller. -/
@[simp] theorem ite_energy (c : Prop) [Decidable c] (a b : Pwr) : (if c then a else b).energy = if c then a.energy else b.energy := by
  split <;> rfl

/-- An effect leaves PWR_ENERGY as it was. -/
def KeepsEnergy (f : State → State) : Prop := ∀ s, (f s).pwr.energy = s.pwr.energy

@[simp] theorem keepsEnergy_iff (f : State → State) : KeepsEnergy f ↔ ∀ s, (f s).pwr.energy = s.pwr.energy := Iff.rfl

/-- A fold whose steps keep the energy keeps it. -/
@[simp] theorem foldl_energy {α : Type} (g : State → α → State) (l : List α) (s : State) (h : ∀ x, KeepsEnergy (g · x)) :
    (l.foldl g s).pwr.energy = s.pwr.energy := by
  induction l generalizing s with
  | nil => rfl
  | cons x r ih => exact (ih _).trans (h x s)

/-- The energy is `e` after an effect that meets no host error. -/
def Res.EnergyIs (e : Nat) (r : Res) : Prop :=
  match r with
  | .ok t => t.pwr.energy = e
  | .error _ => True

@[simp] theorem Res.energyIs_ok (e : Nat) (t : State) : Res.EnergyIs e (.ok t) ↔ t.pwr.energy = e := Iff.rfl

@[simp] theorem Res.energyIs_error (e n : Nat) : Res.EnergyIs e (.error n) := trivial

@[simp] theorem Res.energyIs_ite (e : Nat) (c : Prop) [Decidable c] (a b : Res) :
    Res.EnergyIs e (if c then a else b) ↔ if c then Res.EnergyIs e a else Res.EnergyIs e b := by
  split <;> rfl

/-- The energy is `e` in the state that a command answers. -/
def EnergyIs (e : Nat) (o : Host.Outcome State Fault Refusal) : Prop :=
  match o with
  | .next t => t.pwr.energy = e
  | _ => True

@[simp] theorem energyIs_ite (e : Nat) (c : Prop) [Decidable c] (a b : Host.Outcome State Fault Refusal) :
    EnergyIs e (if c then a else b) ↔ if c then EnergyIs e a else EnergyIs e b := by
  split <;> rfl

@[simp] theorem done_energy (e : Nat) (s : State) : EnergyIs e (done s) ↔ s.pwr.energy = e := by
  simp [EnergyIs, done]

@[simp] theorem hostError_energy (e n : Nat) (s : State) : EnergyIs e (hostError n s) ↔ s.pwr.energy = e := by
  simp [hostError]

@[simp] theorem live_energy (f : State → State) (s : State) :
    (live f s).pwr.energy = if running s then (f s).pwr.energy else s.pwr.energy := by
  simp [live]

@[simp] theorem run_energy (e : Nat) (f : State → State) (s : State) : EnergyIs e (run f s) ↔ (live f s).pwr.energy = e := by
  simp [run, -live_energy]

theorem run_energyIs (f : State → State) (s : State) (hf : KeepsEnergy f) : EnergyIs s.pwr.energy (run f s) := by
  simp_all

/-- A command of a running device answers the state after its effect, as far as the energy goes. -/
theorem run_answers (f : State → State) (s : State) (hs : running s = true) : ∃ t, run f s = .next t ∧ t.pwr.energy = (f s).pwr.energy :=
  ⟨_, rfl, by simp [hs]⟩

theorem EnergyIs.of_next {e : Nat} {o : Host.Outcome State Fault Refusal} {t : State} (h : EnergyIs e o) (ht : o = .next t) : t.pwr.energy = e := by
  subst ht
  exact h

section
variable (s : State) (n m k j : ℕ) (p : Port) (v : Word) (b : Beam) (raw body : List Byte) (x : SiteIx) (c c₂ : Bool) (t : ReachIx) (l : Line)
  (w : WideIx) (q : Fin 8) (i : BitVec 16) (h : Fin 32) (d : Fin 4) (a : MgtPath) (r r₂ : BitVec 4) (g : CombGroup) (e : Msg) (u : Fin 2) (y : Byte)
  (z z₂ : ℤ) (o : Subst) (dir : Dir) (op : OpSt)

/-! ### Machine/Ops.lean -/

@[simp] theorem setEv_energy : (setEv n m k s).pwr.energy = s.pwr.energy := by simp [setEv]
@[simp] theorem eventBit_energy : (eventBit n m k j s).pwr.energy = s.pwr.energy := by simp [eventBit]
@[simp] theorem flag_energy : (flag n m k s).pwr.energy = s.pwr.energy := by simp [flag]
@[simp] theorem containSite_energy : (containSite x n m s).pwr.energy = s.pwr.energy := by simp [containSite]
@[simp] theorem breakBeam_energy : (breakBeam b s).pwr.energy = s.pwr.energy := by simp [breakBeam]
@[simp] theorem endEcho_energy : (endEcho s).pwr.energy = s.pwr.energy := by simp [endEcho]
@[simp] theorem endEchoPort_energy : (endEchoPort p s).pwr.energy = s.pwr.energy := by simp [endEchoPort]
@[simp] theorem endEchoSite_energy : (endEchoSite x s).pwr.energy = s.pwr.energy := by simp [endEchoSite]
@[simp] theorem endEchoFibre_energy : (endEchoFibre p s).pwr.energy = s.pwr.energy := by simp [endEchoFibre]
@[simp] theorem portDark_energy : (portDark p n s).pwr.energy = s.pwr.energy := by simp [portDark]
@[simp] theorem portDarkBreak_energy : (portDarkBreak p n s).pwr.energy = s.pwr.energy := by simp [portDarkBreak]
@[simp] theorem setDev_energy (d : DevState) : (setDev d s).pwr.energy = s.pwr.energy := by simp [setDev]
@[simp] theorem portsDark_energy : (portsDark s).pwr.energy = s.pwr.energy := by simp [portsDark]
@[simp] theorem umbraEnter_energy : (umbraEnter s).pwr.energy = s.pwr.energy := by simp [umbraEnter]
@[simp] theorem goDark_energy : (goDark s).pwr.energy = s.pwr.energy := by simp [goDark]
@[simp] theorem fatalEvent_energy : (fatalEvent n m k s).pwr.energy = s.pwr.energy := by simp [fatalEvent]

/-! ### Machine/Host.lean -/

@[simp] theorem bar_energy (f : State → State) : (bar f s).pwr.energy = if s.host.d3hot then s.pwr.energy else (f s).pwr.energy := by
  simp [bar]
@[simp] theorem runBar_energy (f : State → State) (hf : KeepsEnergy f) : EnergyIs s.pwr.energy (runBar f s) := by simp_all [runBar]
@[simp] theorem badAccess_energy (f : State → State) (hf : KeepsEnergy f) : EnergyIs s.pwr.energy (badAccess n f s) := by
  simp_all [badAccess]
@[simp] theorem regRow_energy (f : State → State) (hf : KeepsEnergy f) : EnergyIs s.pwr.energy (regRow n v f s) := by simp_all [regRow]
@[simp] theorem sendToDie_energy : (sendToDie x q e s).pwr.energy = s.pwr.energy := by simp [sendToDie]
@[simp] theorem sendResp_energy : (sendResp x n m s).pwr.energy = s.pwr.energy := by simp [sendResp]
@[simp] theorem txStatus_energy (c : MbxTx) : (txStatus c n s).pwr.energy = s.pwr.energy := by simp [txStatus]
@[simp] theorem sendRejected_energy (c : MbxTx) : (sendRejected c s).pwr.energy = s.pwr.energy := by simp [sendRejected]
@[simp] theorem txPlace_energy (c : MbxTx) : (txPlace c e s).pwr.energy = s.pwr.energy := by unfold txPlace; split <;> simp
@[simp] theorem mbxSendTo_energy (c : MbxTx) : (mbxSendTo c i s).pwr.energy = s.pwr.energy := by simp [mbxSendTo]
@[simp] theorem fwDieSend_energy : (fwDieSend x q e s).pwr.energy = s.pwr.energy := by simp [fwDieSend]
@[simp] theorem fwMessage_energy (c : MbxTx) (ws : Vector Word 16) : (fwMessage c i ws s).pwr.energy = s.pwr.energy := by
  simp only [fwMessage]; (repeat' split) <;> simp
@[simp] theorem execMbxSend_energy (c : MbxTx) (fw : Option (Vector Word 16)) : EnergyIs s.pwr.energy (execMbxSend c i s fw) := by
  unfold execMbxSend; split <;> simp
@[simp] theorem nextReply_energy (c : Fin 16) : (nextReply c s).pwr.energy = s.pwr.energy := by unfold nextReply; split <;> simp
@[simp] theorem d2hTake_energy : (d2hTake x q s).pwr.energy = s.pwr.energy := by simp [d2hTake]
@[simp] theorem mbxTakeFrom_energy (c : MbxRx) : (mbxTakeFrom c s).pwr.energy = s.pwr.energy := by unfold mbxTakeFrom; split <;> simp
@[simp] theorem mbxTaken_energy (c : MbxTx) : (mbxTaken c s).pwr.energy = s.pwr.energy := by simp [mbxTaken]
@[simp] theorem fwTake_energy (c : MbxRx) : (fwTake c s).pwr.energy = s.pwr.energy := by simp only [fwTake]; (repeat' split) <;> simp
@[simp] theorem d2hAborted_energy : (d2hAborted c x q s).pwr.energy = s.pwr.energy := by simp [d2hAborted]
@[simp] theorem diesAborted_energy : (diesAborted c s).pwr.energy = s.pwr.energy := by simp [diesAborted]
@[simp] theorem mbxExpire_energy (c : MbxTimer) : (mbxExpire c s).pwr.energy = s.pwr.energy := by unfold mbxExpire; split <;> simp
@[simp] theorem ringFw_energy : (ringFw v s).pwr.energy = s.pwr.energy := by simp [ringFw]
@[simp] theorem fwDoorbells_energy (act : DblAct) : (fwDoorbells act v s).pwr.energy = s.pwr.energy := by
  simp only [fwDoorbells]; (repeat' split) <;> simp
@[simp] theorem ringSite_energy : (ringSite x v s).pwr.energy = s.pwr.energy := by simp [ringSite]
@[simp] theorem acquire_energy : (acquire r h s).2.pwr.energy = s.pwr.energy := by unfold acquire; split <;> simp
@[simp] theorem release_energy : (release r h s).pwr.energy = s.pwr.energy := by simp [release]
@[simp] theorem lckRead_energy (m : Master) : (lckRead m h s).pwr.energy = s.pwr.energy := by unfold lckRead; split <;> simp
@[simp] theorem execMsixUnmask_energy (ww : MsixWrite) : EnergyIs s.pwr.energy (execMsixUnmask ww s) := by
  simp only [execMsixUnmask, run_energy, live_energy]
  (repeat' split) <;> rfl
@[simp] theorem cfgDo_energy (a : CfgAccess) : (cfgDo s a).pwr.energy = s.pwr.energy := by unfold cfgDo; split <;> simp
@[simp] theorem errStale_energy : (errStale s).pwr.energy = s.pwr.energy := by simp [errStale]
@[simp] theorem errRelease_energy : (errRelease v s).pwr.energy = s.pwr.energy := by simp [errRelease]
@[simp] theorem echoRefuse_energy : (echoRefuse s).pwr.energy = s.pwr.energy := by simp [echoRefuse]
@[simp] theorem echoStart_energy (mode : BitVec 2) : (echoStart mode v c s).pwr.energy = s.pwr.energy := by simp [echoStart]
@[simp] theorem echoTry_energy (mode : BitVec 2) : (echoTry mode v i c s).pwr.energy = s.pwr.energy := by simp [echoTry]
@[simp] theorem echoLine_energy : (echoLine v s).pwr.energy = s.pwr.energy := by simp [echoLine]
@[simp] theorem echoFibre_energy : (echoFibre v s).pwr.energy = s.pwr.energy := by simp [echoFibre]
@[simp] theorem echoModule_energy : (echoModule v s).pwr.energy = s.pwr.energy := by simp [echoModule]
@[simp] theorem echoStop_energy (worst : BitVec 7) : (echoStop v n m worst s).pwr.energy = s.pwr.energy := by simp [echoStop]

/-! ### Machine/Reservoir.lean -/

@[simp] theorem hbmCount_energy (h : Stack) : (hbmCount h q n s).pwr.energy = s.pwr.energy := by simp [hbmCount]
@[simp] theorem uncorrWord_energy : (uncorrWord n m s).pwr.energy = s.pwr.energy := by simp [uncorrWord]
@[simp] theorem correctWord_energy : (correctWord c n s).pwr.energy = s.pwr.energy := by simp [correctWord]
@[simp] theorem missedWord_energy : (missedWord c n s).pwr.energy = s.pwr.energy := by simp [missedWord]
@[simp] theorem decodeWord_energy (e : WordError) : (decodeWord n m e s).2.pwr.energy = s.pwr.energy := by
  simp only [decodeWord]; (repeat' split) <;> simp
@[simp] theorem hbmWrite_energy : (hbmWrite n raw s).pwr.energy = s.pwr.energy := by simp [hbmWrite]
@[simp] theorem wordContained_energy (h : Stack) : (wordContained h s).pwr.energy = s.pwr.energy := by simp [wordContained]
@[simp] theorem uncorrContained_energy : (uncorrContained n m s).pwr.energy = s.pwr.energy := by simp [uncorrContained]
@[simp] theorem demandRead_energy (r : ℕ × WordError) : (demandRead n s r).pwr.energy = s.pwr.energy := by simp [demandRead]
@[simp] theorem readRange_energy (words : List (ℕ × WordError)) : (readRange n m k words s).pwr.energy = s.pwr.energy := by simp [readRange]
@[simp] theorem bar4Refuse_energy : (bar4Refuse n s).pwr.energy = s.pwr.energy := by simp [bar4Refuse]
@[simp] theorem bar4ReadAt_energy (words : List (ℕ × WordError)) : (bar4ReadAt n m words s).pwr.energy = s.pwr.energy := by
  simp [bar4ReadAt]
@[simp] theorem bar4WriteAt_energy : (bar4WriteAt n raw s).pwr.energy = s.pwr.energy := by simp [bar4WriteAt]
@[simp] theorem apertureSet_energy : (apertureSet v s).pwr.energy = s.pwr.energy := by simp [apertureSet]
@[simp] theorem scrubSet_energy : (scrubSet v s).pwr.energy = s.pwr.energy := by simp [scrubSet]
@[simp] theorem scrubNext_energy : (scrubNext s).pwr.energy = s.pwr.energy := by simp [scrubNext]
@[simp] theorem scrubRead_energy (e : WordError) : (scrubRead e s).pwr.energy = s.pwr.energy := by simp [scrubRead]
@[simp] theorem setStack_energy (h : Stack) (rate : BitVec 2) : (setStack h r rate s).pwr.energy = s.pwr.energy := by simp [setStack]
@[simp] theorem stackFail_energy (h : Stack) : (stackFail h s).pwr.energy = s.pwr.energy := by simp [stackFail]

/-! ### Machine/Sideband.lean -/

@[simp] theorem setSite_energy : (setSite x r s).pwr.energy = s.pwr.energy := by simp [setSite]
@[simp] theorem wideForget_energy : (wideForget x s).pwr.energy = s.pwr.energy := by unfold wideForget; split <;> simp
@[simp] theorem reachForget_energy : (reachForget x s).pwr.energy = s.pwr.energy := by unfold reachForget; split <;> simp
@[simp] theorem siteReset_energy : (siteReset x s).pwr.energy = s.pwr.energy := by simp [siteReset]
@[simp] theorem siteDisable_energy : (siteDisable x n s).pwr.energy = s.pwr.energy := by simp [siteDisable]
@[simp] theorem siteActive_energy : (siteActive x s).pwr.energy = s.pwr.energy := by unfold siteActive; split <;> simp
@[simp] theorem siteRelease_energy : (siteRelease x s).pwr.energy = s.pwr.energy := by simp [siteRelease]
@[simp] theorem sbResendFrom_energy : (sbResendFrom x n s).pwr.energy = s.pwr.energy := by simp [sbResendFrom]
@[simp] theorem sbSlot_energy (is : Byte → Bool) (f : Slot → State → State) (hf : ∀ m, KeepsEnergy (f m)) :
    (sbSlot x raw is f s).pwr.energy = s.pwr.energy := by
  unfold sbSlot; split <;> simp_all
@[simp] theorem sbRow_energy (f : List Byte → State → State) (hf : ∀ l, KeepsEnergy (f l)) : EnergyIs s.pwr.energy (sbRow x raw y f s) := by
  simp_all [sbRow]
@[simp] theorem retryMsg_energy : (retryMsg x raw s).pwr.energy = s.pwr.energy := by simp [retryMsg]
@[simp] theorem levelMsg_energy : (levelMsg x raw s).pwr.energy = s.pwr.energy := by simp only [levelMsg]; (repeat' split) <;> simp
@[simp] theorem creditInitMsg_energy : (creditInitMsg x raw s).pwr.energy = s.pwr.energy := by simp [creditInitMsg]
@[simp] theorem creditMsg_energy : (creditMsg x raw s).pwr.energy = s.pwr.energy := by simp [creditMsg]
@[simp] theorem sendCredits_energy (p : RxStream → Bool) : (sendCredits x p s).pwr.energy = s.pwr.energy := by simp [sendCredits]
@[simp] theorem freeFrames_energy : (freeFrames x n m s).pwr.energy = s.pwr.energy := by simp [freeFrames]
@[simp] theorem mbxDataMsg_energy : (mbxDataMsg x raw s).pwr.energy = s.pwr.energy := by unfold mbxDataMsg; split <;> simp
@[simp] theorem mbxGoMsg_energy : (mbxGoMsg x raw s).pwr.energy = s.pwr.energy := by unfold mbxGoMsg; split <;> simp
@[simp] theorem goGone_energy : (goGone x raw s).pwr.energy = s.pwr.energy := by simp only [goGone]; (repeat' split) <;> simp
@[simp] theorem nextDie_energy : (nextDie x q s).pwr.energy = s.pwr.energy := by unfold nextDie; split <;> simp
@[simp] theorem dieGone_energy : (dieGone x q n s).pwr.energy = s.pwr.energy := by simp [dieGone]
@[simp] theorem mbxRespMsg_energy : (mbxRespMsg x raw s).pwr.energy = s.pwr.energy := by simp only [mbxRespMsg]; (repeat' split) <;> simp
@[simp] theorem doorbellMsg_energy : (doorbellMsg raw s).pwr.energy = s.pwr.energy := by simp [doorbellMsg]
@[simp] theorem lockMsg_energy : (lockMsg x raw s).pwr.energy = s.pwr.energy := by unfold lockMsg; split <;> simp
@[simp] theorem reservedMsg_energy : (reservedMsg x s).pwr.energy = s.pwr.energy := by simp [reservedMsg]

/-! ### Machine/Wide.lean -/

@[simp] theorem suspectRx_energy (m : Fin 33) (ls : List ℕ) : (suspectRx w m ls s).pwr.energy = s.pwr.energy := by simp [suspectRx]
@[simp] theorem suspectTx_energy (m : Fin 33) (ls : List ℕ) : (suspectTx w m ls s).pwr.energy = s.pwr.energy := by simp [suspectTx]
@[simp] theorem modCount_energy (m : Fin 33) : (modCount w m q n s).pwr.energy = s.pwr.energy := by simp [modCount]
@[simp] theorem parityContained_energy : (parityContained w s).pwr.energy = s.pwr.energy := by simp [parityContained]
@[simp] theorem parityIdle_energy : (parityIdle w s).pwr.energy = s.pwr.energy := by simp [parityIdle]
@[simp] theorem protocolError_energy : (protocolError x s).pwr.energy = s.pwr.energy := by simp [protocolError]
@[simp] theorem completeRx_energy : (completeRx x n s).pwr.energy = s.pwr.energy := by simp only [completeRx]; (repeat' split) <;> simp
@[simp] theorem storeFrame_energy (t : Transfer) : (storeFrame x n t s).pwr.energy = s.pwr.energy := by simp [storeFrame]
@[simp] theorem headRx_energy : (headRx x n raw s).pwr.energy = s.pwr.energy := by unfold headRx; split <;> simp
@[simp] theorem dataRx_energy : (dataRx x n raw s).pwr.energy = s.pwr.energy := by simp only [dataRx]; (repeat' split) <;> simp
@[simp] theorem cleanFrame_energy (t : FrameTyp) (good : BitVec 68) (lanes : List DWord) :
    (cleanFrame w h t good lanes s).pwr.energy = s.pwr.energy := by
  simp only [cleanFrame]; (repeat' split) <;> simp
@[simp] theorem classRx_energy (lanes : List DWord) : (classRx w h lanes s).pwr.energy = s.pwr.energy := by
  unfold classRx; dsimp only; split <;> simp
@[simp] theorem sidebandParity_energy (lanes : List DWord) : (sidebandParity w lanes s).pwr.energy = s.pwr.energy := by
  simp [sidebandParity]
@[simp] theorem wtFrame_energy (m : Fin 33) (lanes : List DWord) : (wtFrame w m lanes s).pwr.energy = s.pwr.energy := by simp [wtFrame]
@[simp] theorem frameRx_energy (m : Fin 33) (lanes : List DWord) : (frameRx w m lanes s).pwr.energy = s.pwr.energy := by
  simp only [frameRx]; (repeat' split) <;> simp
@[simp] theorem sendWtA_energy (m : Fin 33) : (sendWtA w m s).pwr.energy = s.pwr.energy := by simp [sendWtA]
@[simp] theorem frameTx_energy : (frameTx w h s).pwr.energy = s.pwr.energy := by simp only [frameTx]; (repeat' split) <;> simp
@[simp] theorem repairStart_energy (m : Fin 33) : (repairStart w m s).pwr.energy = s.pwr.energy := by simp [repairStart]
@[simp] theorem repairMsgW_energy : (repairMsgW w raw s).pwr.energy = s.pwr.energy := by unfold repairMsgW; split <;> simp
@[simp] theorem repairTested_energy (m : Fin 33) (noError : BitVec 68) : (repairTested w m noError s).pwr.energy = s.pwr.energy := by
  simp [repairTested]
@[simp] theorem laneMapMsgW_energy : (laneMapMsgW w raw s).pwr.energy = s.pwr.energy := by unfold laneMapMsgW; split <;> simp
@[simp] theorem judgeModule_energy (m : Fin 33) (before : Module) : (judgeModule w m before s).pwr.energy = s.pwr.energy := by
  simp [judgeModule]
@[simp] theorem mapsApplyW_energy : (mapsApplyW w v s).pwr.energy = s.pwr.energy := by simp [mapsApplyW]
@[simp] theorem parityMsgW_energy : (parityMsgW w raw s).pwr.energy = s.pwr.energy := by unfold parityMsgW; split <;> simp
@[simp] theorem trainMaps_energy (r : WideStep) : (trainMaps w r s).pwr.energy = s.pwr.energy := by simp [trainMaps]
@[simp] theorem exchange_energy : (exchange w s).pwr.energy = s.pwr.energy := by simp [exchange]
@[simp] theorem reportDegraded_energy : (reportDegraded w s).pwr.energy = s.pwr.energy := by simp [reportDegraded]
@[simp] theorem sendOnAll_energy (f : Fin 33 → List DWord) : (sendOnAll w f s).pwr.energy = s.pwr.energy := by simp [sendOnAll]
@[simp] theorem sendReports_energy : (sendReports w s).pwr.energy = s.pwr.energy := by simp [sendReports]
@[simp] theorem alignStart_energy : (alignStart w s).pwr.energy = s.pwr.energy := by simp [alignStart]
@[simp] theorem testStart_energy : (testStart w s).pwr.energy = s.pwr.energy := by simp [testStart]
@[simp] theorem wpStep_energy (r : WideStep) : (wpStep w r s).pwr.energy = s.pwr.energy := by simp only [wpStep]; (repeat' split) <;> simp
@[simp] theorem siteHold_energy : (siteHold x s).pwr.energy = s.pwr.energy := by simp [siteHold]
@[simp] theorem siteUnhold_energy : (siteUnhold x s).pwr.energy = s.pwr.energy := by simp [siteUnhold]
theorem wpCmdEffect_energy (mm : Fin 33) {s₂ : State} (hs : wpCmdEffect n w mm s = some s₂) : s₂.pwr.energy = s.pwr.energy := by
  unfold wpCmdEffect at hs
  dsimp only at hs
  split_ifs at hs <;> simp [← Option.some.inj hs]
@[simp] theorem wpCmd_energy : (wpCmd n v s).pwr.energy = s.pwr.energy := by
  unfold wpCmd
  dsimp only
  split
  · simp
  · split
    next h => simpa using wpCmdEffect_energy _ _ _ _ h
    · rfl

/-! ### Machine/Reach.lean -/

@[simp] theorem tpLaneCount_energy : (tpLaneCount t h d n s).pwr.energy = s.pwr.energy := by simp [tpLaneCount]
@[simp] theorem siteCount_energy (k : Fin 16) : (siteCount x k n s).pwr.energy = s.pwr.energy := by simp [siteCount]
@[simp] theorem suspectQuiet_energy : (suspectQuiet t h s).pwr.energy = s.pwr.energy := by simp [suspectQuiet]
@[simp] theorem suspectLane_energy : (suspectLane t h s).pwr.energy = s.pwr.energy := by simp [suspectLane]
@[simp] theorem fomWindow_energy : (fomWindow t h y s).pwr.energy = s.pwr.energy := by unfold fomWindow; dsimp only; split <;> simp
@[simp] theorem laneCorrected_energy : (laneCorrected t h n s).pwr.energy = s.pwr.energy := by simp [laneCorrected]
@[simp] theorem placed_energy : (placed t s).pwr.energy = s.pwr.energy := by simp [placed]
@[simp] theorem markerMissed_energy : (markerMissed t h s).pwr.energy = s.pwr.energy := by simp [markerMissed]
@[simp] theorem markerGood_energy : (markerGood t h raw y s).pwr.energy = s.pwr.energy := by simp [markerGood]
@[simp] theorem markerRx_energy : (markerRx t h raw y s).pwr.energy = s.pwr.energy := by simp [markerRx]
@[simp] theorem emitMarker_energy : (emitMarker t h raw s).pwr.energy = s.pwr.energy := by simp [emitMarker]
@[simp] theorem sendMarker_energy : (sendMarker t s h).pwr.energy = s.pwr.energy := by simp [sendMarker]
@[simp] theorem tpMarkers_energy : (tpMarkers t s).pwr.energy = s.pwr.energy := by simp [tpMarkers]
@[simp] theorem sendTrainFrame_energy : (sendTrainFrame t h n s).pwr.energy = s.pwr.energy := by simp [sendTrainFrame]
@[simp] theorem nextTrainFrame_energy : (nextTrainFrame t h s).pwr.energy = s.pwr.energy := by simp [nextTrainFrame]
@[simp] theorem trainFrame_energy (status : Word) : (trainFrame t h v status s).pwr.energy = s.pwr.energy := by simp [trainFrame]
@[simp] theorem sendQuadMap_energy (good : BitVec 8) (serve : BitVec 8) : (sendQuadMap t good serve s).pwr.energy = s.pwr.energy := by
  simp [sendQuadMap]
@[simp] theorem laneMapMsgR_energy : (laneMapMsgR t raw s).pwr.energy = s.pwr.energy := by simp [laneMapMsgR]
@[simp] theorem laneMapMsg_energy : (laneMapMsg x raw s).pwr.energy = s.pwr.energy := by unfold laneMapMsg; split <;> simp
@[simp] theorem judgeQuads_energy : (judgeQuads t n s).pwr.energy = s.pwr.energy := by simp [judgeQuads]
@[simp] theorem quadOut_energy : (quadOut t q s).pwr.energy = s.pwr.energy := by simp [quadOut]
@[simp] theorem mapsApplyR_energy : (mapsApplyR t v s).pwr.energy = s.pwr.energy := by simp only [mapsApplyR]; (repeat' split) <;> simp
@[simp] theorem mapsApply_energy : (mapsApply x v s).pwr.energy = s.pwr.energy := by unfold mapsApply; split <;> simp
@[simp] theorem retestStart_energy : (retestStart t s).pwr.energy = s.pwr.energy := by unfold retestStart; split <;> simp
@[simp] theorem repairMsgR_energy : (repairMsgR t raw s).pwr.energy = s.pwr.energy := by unfold repairMsgR; split <;> simp
@[simp] theorem repairMsg_energy : (repairMsg x raw s).pwr.energy = s.pwr.energy := by unfold repairMsg; split <;> simp
@[simp] theorem parityMsg_energy : (parityMsg x raw s).pwr.energy = s.pwr.energy := by unfold parityMsg; split <;> simp
@[simp] theorem retestEnd_energy : (retestEnd t c s).pwr.energy = s.pwr.energy := by unfold retestEnd; dsimp only; split <;> simp
@[simp] theorem exchangeR_energy : (exchangeR t s).pwr.energy = s.pwr.energy := by simp [exchangeR]
@[simp] theorem qualify_energy (r : ReachStep) : (qualify t r s).pwr.energy = s.pwr.energy := by simp [qualify]
@[simp] theorem reachStart_energy : (reachStart t s).pwr.energy = s.pwr.energy := by simp [reachStart]
@[simp] theorem tpStep_energy (r : ReachStep) : (tpStep t r s).pwr.energy = s.pwr.energy := by simp [tpStep]
@[simp] theorem spendErrors_energy (es : List (ℕ × Sym)) : (spendErrors t q es s).pwr.energy = s.pwr.energy := by simp [spendErrors]
@[simp] theorem slotErrors_energy : (slotErrors t q c s raw).2.pwr.energy = s.pwr.energy := by unfold slotErrors; split <;> simp
@[simp] theorem armInject_energy (j : Inject) : (armInject t j s).pwr.energy = s.pwr.energy := by simp [armInject]
@[simp] theorem injectWrite_energy : (injectWrite n v s).pwr.energy = s.pwr.energy := by simp [injectWrite]
@[simp] theorem injectStop_energy : (injectStop v s).pwr.energy = s.pwr.energy := by simp [injectStop]
@[simp] theorem checkersNow_energy : (checkersNow s).pwr.energy = s.pwr.energy := by simp [checkersNow]
@[simp] theorem checkLane_energy (bits : List Bool) : (checkLane t h bits s).pwr.energy = s.pwr.energy := by simp [checkLane]
@[simp] theorem patternRx_energy (w : List Sym) : (patternRx t q w s).pwr.energy = s.pwr.energy := by simp [patternRx]
@[simp] theorem patternTx_energy : (patternTx t q s).pwr.energy = s.pwr.energy := by simp [patternTx]
@[simp] theorem sendWord_energy (w : List Sym) : (sendWord t q w s).pwr.energy = s.pwr.energy := by simp [sendWord]
@[simp] theorem advTx_energy : (advTx t q s).pwr.energy = s.pwr.energy := by simp [advTx]
@[simp] theorem creditWait_energy : (creditWait t q s).pwr.energy = s.pwr.energy := by simp [creditWait]
@[simp] theorem trainTx_energy : (trainTx t q s).pwr.energy = s.pwr.energy := by simp [trainTx]
@[simp] theorem codewordTx_energy : (codewordTx t q s).pwr.energy = s.pwr.energy := by simp only [codewordTx]; (repeat' split) <;> simp
@[simp] theorem sidebandTx_energy : (sidebandTx x s).pwr.energy = s.pwr.energy := by unfold sidebandTx; split <;> simp
@[simp] theorem patWrite_energy : (patWrite v s).pwr.energy = s.pwr.energy := by simp [patWrite]
theorem tpCmdEffect_energy {s₂ : State} (hs : tpCmdEffect n t q s = some s₂) : s₂.pwr.energy = s.pwr.energy := by
  unfold tpCmdEffect at hs
  dsimp only at hs
  split_ifs at hs <;> simp [← Option.some.inj hs]
@[simp] theorem tpCmd_energy : (tpCmd n v s).pwr.energy = s.pwr.energy := by
  unfold tpCmd
  dsimp only
  split
  · simp
  · split
    next h => simpa using tpCmdEffect_energy _ _ _ _ h
    · rfl
@[simp] theorem uncorrectableRx_energy : (uncorrectableRx t q c s).pwr.energy = s.pwr.energy := by simp [uncorrectableRx]
@[simp] theorem correctedRx_energy (ps : List ℕ) : (correctedRx t q ps s).pwr.energy = s.pwr.energy := by simp [correctedRx]
@[simp] theorem kindRx_energy : (kindRx t n m raw s).pwr.energy = s.pwr.energy := by simp [kindRx]

/-! ### Machine/Image.lean -/

@[simp] theorem applyDue_energy : (applyDue s).pwr.energy = s.pwr.energy := by simp [applyDue]
@[simp] theorem onImg_energy (f : Msg → State → State) (hf : ∀ m, KeepsEnergy (f m)) : (onImg n f s).pwr.energy = s.pwr.energy := by
  unfold onImg; split <;> simp_all
@[simp] theorem abortRunning_energy : (abortRunning s).pwr.energy = s.pwr.energy := by unfold abortRunning; split <;> simp
@[simp] theorem imgBeginCmd_energy : (imgBeginCmd e s).pwr.energy = s.pwr.energy := by simp [imgBeginCmd]
@[simp] theorem imgChunkCmd_energy : (imgChunkCmd e s).pwr.energy = s.pwr.energy := by simp [imgChunkCmd]
@[simp] theorem execImgChunk_energy : EnergyIs s.pwr.energy (execImgChunk s) :=
  run_energyIs _ _ fun u => by split <;> simp
@[simp] theorem chunkDone_energy : (chunkDone u s).pwr.energy = s.pwr.energy := by unfold chunkDone; split <;> simp
@[simp] theorem imgVerifyCmd_energy : (imgVerifyCmd e s).pwr.energy = s.pwr.energy := by simp [imgVerifyCmd]
@[simp] theorem refusedImage_energy : (refusedImage n s).pwr.energy = s.pwr.energy := by simp [refusedImage]
@[simp] theorem loadReads_energy (ranges : List (ℕ × ℕ)) (words : List (ℕ × WordError)) : (loadReads ranges words s).pwr.energy = s.pwr.energy := by
  simp [loadReads]
@[simp] theorem verifyDone_energy (words : List (ℕ × WordError)) : (verifyDone words s).pwr.energy = s.pwr.energy := by simp [verifyDone]
@[simp] theorem imgAbortCore_energy : (imgAbortCore s).pwr.energy = s.pwr.energy := by simp [imgAbortCore]
@[simp] theorem imgAbortCmd_energy : (imgAbortCmd e s).pwr.energy = s.pwr.energy := by simp [imgAbortCmd]
@[simp] theorem commitFullCmd_energy : (commitFullCmd e s).pwr.energy = s.pwr.energy := by simp [commitFullCmd]
@[simp] theorem commitRestartCmd_energy : (commitRestartCmd e s).pwr.energy = s.pwr.energy := by simp [commitRestartCmd]
@[simp] theorem copyResdata_energy (ii : Image) (ll : List ResSec) : (copyResdata ii ll s).pwr.energy = s.pwr.energy :=
  foldl_energy _ _ _ fun _ _ => by dsimp only; split <;> simp
@[simp] theorem mirrorNow_energy : (mirrorNow s).pwr.energy = s.pwr.energy := by simp [mirrorNow]
@[simp] theorem holdEndsFenced_energy (f : Fence) : (holdEndsFenced n f s).pwr.energy = s.pwr.energy := by simp [holdEndsFenced]
@[simp] theorem holdEnds_energy : (holdEnds s).pwr.energy = s.pwr.energy := by unfold holdEnds; split <;> simp
@[simp] theorem applyImage_energy (c' : Image) (p : Image) : (applyImage c' p c s).pwr.energy = s.pwr.energy := by simp [applyImage]
@[simp] theorem copyDone_energy (words : List (ℕ × WordError)) : (copyDone words s).pwr.energy = s.pwr.energy := by
  simp only [copyDone]; (repeat' split) <;> simp
@[simp] theorem bar2Store_energy : (bar2Store n raw s).pwr.energy = s.pwr.energy := by simp [bar2Store]
@[simp] theorem bar2Load_energy : (bar2Load n m s).pwr.energy = s.pwr.energy := by simp [bar2Load]

/-! ### Machine/Link.lean -/

@[simp] theorem beamOpen_energy : (beamOpen b s).pwr.energy = s.pwr.energy := by simp [beamOpen]
@[simp] theorem beamCount_energy (k : Fin 16) : (beamCount b k n s).pwr.energy = s.pwr.energy := by simp [beamCount]
@[simp] theorem pushCtl_energy : (pushCtl b r raw s).pwr.energy = s.pwr.energy := by simp [pushCtl]
@[simp] theorem beamFirst_energy : (beamFirst b s).pwr.energy = s.pwr.energy := by simp [beamFirst]
@[simp] theorem initResend_energy : (initResend b s).pwr.energy = s.pwr.energy := by simp [initResend]
@[simp] theorem initDone_energy : (initDone b s).pwr.energy = s.pwr.energy := by simp [initDone]
@[simp] theorem initMsg_energy : (initMsg b raw s).pwr.energy = s.pwr.energy := by simp [initMsg]
@[simp] theorem resume_energy : (resume b s).pwr.energy = s.pwr.energy := by simp [resume]
@[simp] theorem tryResume_energy : (tryResume b s).pwr.energy = s.pwr.energy := by simp [tryResume]
@[simp] theorem headerRx_energy (f : Flit) : (headerRx b f s).pwr.energy = s.pwr.energy := by simp [headerRx]
@[simp] theorem flitFailed_energy : (flitFailed b s).pwr.energy = s.pwr.energy := by simp [flitFailed]
@[simp] theorem foreignFlit_energy : (foreignFlit s).pwr.energy = s.pwr.energy := by simp [foreignFlit]
@[simp] theorem trimsApply_energy : (trimsApply b s).pwr.energy = s.pwr.energy := by simp [trimsApply]
@[simp] theorem flitCame_energy : (flitCame b raw s).pwr.energy = s.pwr.energy := by simp [flitCame]
@[simp] theorem flitTaken_energy (o : Option Flit) (f : Flit → State → State) (hf : ∀ m, KeepsEnergy (f m)) :
    (flitTaken b o r f s).pwr.energy = s.pwr.energy := by
  unfold flitTaken; split <;> simp_all
@[simp] theorem flitRx_energy (f : Flit → State → State) (hf : ∀ m, KeepsEnergy (f m)) : (flitRx b raw r f s).pwr.energy = s.pwr.energy := by
  simp_all [flitRx]
@[simp] theorem wholeRx_energy (f : Flit → State → State) (hf : ∀ m, KeepsEnergy (f m)) : (wholeRx b raw r f s).pwr.energy = s.pwr.energy := by
  simp_all [wholeRx]
@[simp] theorem ctlRx_energy (f : List Byte → State → State) (hf : ∀ m, KeepsEnergy (f m)) : (ctlRx b raw r f s).pwr.energy = s.pwr.energy := by
  simp_all [ctlRx]
@[simp] theorem nakMsg_energy : (nakMsg b raw s).pwr.energy = s.pwr.energy := by simp [nakMsg]
@[simp] theorem sendNaks_energy (ns : List (BitVec 16)) : (sendNaks b ns s).pwr.energy = s.pwr.energy := by simp [sendNaks]
@[simp] theorem aheadRx_energy (f : Flit) : (aheadRx b f s).pwr.energy = s.pwr.energy := by simp [aheadRx]
@[simp] theorem dataRxFlit_energy (f : Flit) : (dataRxFlit b f s).pwr.energy = s.pwr.energy := by simp [dataRxFlit]
@[simp] theorem lineWordRx_energy (w : LineWord) : (lineWordRx p w s).2.pwr.energy = s.pwr.energy := by simp [lineWordRx]
@[simp] theorem lineWordsRx_energy (ws : List LineWord) : (lineWordsRx p ws s).2.pwr.energy = s.pwr.energy := by
  unfold lineWordsRx
  suffices ∀ a : List FecReport × State,
      (ws.foldl (fun a w => let r := lineWordRx p w a.2; (a.1 ++ [r.1], r.2)) a).2.pwr.energy = a.2.pwr.energy from this _
  induction ws with
  | nil => simp
  | cons w r ih => simp [ih]
@[simp] theorem fecRx_energy (rs : List FecReport) : (fecRx p rs s).pwr.energy = s.pwr.energy := by simp [fecRx]
@[simp] theorem codeLogged_energy (code : CodeResult) : (codeLogged p code s).pwr.energy = s.pwr.energy := by simp [codeLogged]
@[simp] theorem dataFlitRx_energy (words : List LineWord) (code : CodeResult) : (dataFlitRx b raw words code s).pwr.energy = s.pwr.energy := by
  simp [dataFlitRx]
@[simp] theorem lineSend_energy : (lineSend p l n s).pwr.energy = s.pwr.energy := by
  induction n generalizing s with
  | zero => rfl
  | succ k ih => simp [lineSend, ih]
@[simp] theorem bytesOut_energy : (bytesOut p l raw s).pwr.energy = s.pwr.energy := by simp [bytesOut]
@[simp] theorem stripeOut_energy : (stripeOut b raw s).pwr.energy = s.pwr.energy := by simp [stripeOut]
@[simp] theorem wholeOut_energy : (wholeOut b raw s).pwr.energy = s.pwr.energy := by simp [wholeOut]
@[simp] theorem sendFlit_energy (cls : BitVec 2) (put : Beam → List Byte → State → State) (via : List Byte → List Byte)
    (hp : ∀ b l, KeepsEnergy (put b l)) :
    (sendFlit b r cls c c₂ r₂ i raw s put via).pwr.energy = s.pwr.energy := by
  simp_all [sendFlit]
@[simp] theorem sendCtl_energy (c : CtlFlit) : (sendCtl b c s).pwr.energy = s.pwr.energy := by unfold sendCtl; split <;> simp
@[simp] theorem sendData_energy (o : OutFlit) (code : CodeResult) : (sendData b i o s code).pwr.energy = s.pwr.energy := by simp [sendData]
@[simp] theorem sendIdle_energy : (sendIdle b s).pwr.energy = s.pwr.energy := by simp [sendIdle]
@[simp] theorem countWait_energy : (countWait b s).pwr.energy = s.pwr.energy := by simp [countWait]
@[simp] theorem countFull_energy : (countFull b s).pwr.energy = s.pwr.energy := by simp [countFull]
@[simp] theorem sendNew_energy (o : OutFlit) (rest : List OutFlit) (code : CodeResult) : (sendNew b o rest s code).pwr.energy = s.pwr.energy := by
  simp [sendNew]
@[simp] theorem tentStart_energy : (tentStart b s).pwr.energy = s.pwr.energy := by unfold tentStart; split <;> simp
@[simp] theorem grantBack_energy : (grantBack b s).pwr.energy = s.pwr.energy := by simp [grantBack]
@[simp] theorem flitNext_energy (code : CodeResult) : (flitNext b s code).pwr.energy = s.pwr.energy := by
  simp only [flitNext]; (repeat' split) <;> simp
@[simp] theorem flitTx_energy (code : CodeResult) : (flitTx b s code).pwr.energy = s.pwr.energy := by simp [flitTx]
@[simp] theorem replayGrant_energy : (replayGrant p s).pwr.energy = s.pwr.energy := by simp only [replayGrant]; (repeat' split) <;> simp
@[simp] theorem learnPeer_energy (peerRx : LineSet) : (learnPeer b peerRx s).pwr.energy = s.pwr.energy := by
  unfold learnPeer; split <;> simp
@[simp] theorem joinLines_energy (old : LineSet) (new : LineSet) : (joinLines b old new s).pwr.energy = s.pwr.energy := by simp [joinLines]
@[simp] theorem leaveLines_energy (m : LineSet) : (leaveLines p m s).pwr.energy = s.pwr.energy := by simp [leaveLines]
@[simp] theorem freeSubs_energy (m : LineSet × LineSet) : (freeSubs b m s).pwr.energy = s.pwr.energy := by simp [freeSubs]
@[simp] theorem goApply_energy (number : BitVec 8) (m : LineSet × LineSet) : (goApply b number m s).pwr.energy = s.pwr.energy := by
  simp [goApply]
@[simp] theorem putRequest_energy (m : LineSet × LineSet) : (putRequest b m s).pwr.energy = s.pwr.energy := by
  unfold putRequest; split <;> simp
@[simp] theorem askRetrain_energy : (askRetrain b s).pwr.energy = s.pwr.energy := by simp [askRetrain]
@[simp] theorem requestMsg_energy : (requestMsg b raw s).pwr.energy = s.pwr.energy := by simp [requestMsg]
@[simp] theorem requestResend_energy : (requestResend b s).pwr.energy = s.pwr.energy := by unfold requestResend; split <;> simp
@[simp] theorem goMsg_energy : (goMsg b raw s).pwr.energy = s.pwr.energy := by simp [goMsg]
@[simp] theorem retrainEnds_energy : (retrainEnds b s).pwr.energy = s.pwr.energy := by unfold retrainEnds; split <;> simp
@[simp] theorem deskewDone_energy : (deskewDone b s).pwr.energy = s.pwr.energy := by unfold deskewDone; split <;> simp
@[simp] theorem readyMsg_energy : (readyMsg b raw s).pwr.energy = s.pwr.energy := by simp only [readyMsg]; (repeat' split) <;> simp
@[simp] theorem retrainExpires_energy : (retrainExpires b s).pwr.energy = s.pwr.energy := by simp [retrainExpires]
@[simp] theorem retransmit_energy : (retransmit b s).pwr.energy = s.pwr.energy := by unfold retransmit; dsimp only; split <;> simp
@[simp] theorem queueFlits_energy (l : List OutFlit) : (queueFlits b l s).pwr.energy = s.pwr.energy := by simp [queueFlits]

/-! ### Machine/Halo.lean -/

@[simp] theorem reloadRows_energy : (reloadRows p s).pwr.energy = s.pwr.energy := by simp [reloadRows]
@[simp] theorem moveRow_energy : (moveRow n z s).pwr.energy = s.pwr.energy := by simp [moveRow]
@[simp] theorem relockRing_energy : (relockRing n s).pwr.energy = s.pwr.energy := by simp [relockRing]

/-! ### Machine/Ports.lean -/

@[simp] theorem widthCheck_energy : (widthCheck p s).pwr.energy = s.pwr.energy := by simp [widthCheck]
@[simp] theorem setOut_energy : (setOut p l n c s).pwr.energy = s.pwr.energy := by simp [setOut]
@[simp] theorem putSub_energy (u : Option Subst) : (putSub p d u s).pwr.energy = s.pwr.energy := by simp [putSub]
@[simp] theorem subSend_energy : (subSend p n o c s).pwr.energy = s.pwr.energy := by simp [subSend]
@[simp] theorem withMarker_energy : (withMarker o s).2.pwr.energy = s.pwr.energy := by simp [withMarker]
@[simp] theorem stopCal_energy : (stopCal p l c s).pwr.energy = s.pwr.energy := by simp [stopCal]
@[simp] theorem takeSpare_energy : (takeSpare p d o s).pwr.energy = s.pwr.energy := by simp [takeSpare]
@[simp] theorem ownerGo_energy : (ownerGo p d o c s).pwr.energy = s.pwr.energy := by unfold ownerGo; split <;> simp
@[simp] theorem startReturn_energy : (startReturn p d o s).pwr.energy = s.pwr.energy := by simp [startReturn]
@[simp] theorem startSub_energy : (startSub p d o s).pwr.energy = s.pwr.energy := by simp [startSub]
@[simp] theorem serveNeeds_energy : (serveNeeds p d s).pwr.energy = s.pwr.energy := by unfold serveNeeds; split <;> simp
@[simp] theorem joinNeeds_energy : (joinNeeds p o s).pwr.energy = s.pwr.energy := by simp [joinNeeds]
@[simp] theorem abandonCal_energy : (abandonCal p d s).pwr.energy = s.pwr.energy := by unfold abandonCal; split <;> simp
@[simp] theorem subRelocks_energy : (subRelocks p d o s).pwr.energy = s.pwr.energy := by simp [subRelocks]
@[simp] theorem subServes_energy : (subServes p d o s).pwr.energy = s.pwr.energy := by simp [subServes]
@[simp] theorem raiseSub_energy (u : Subst) : (raiseSub p d o u s).pwr.energy = s.pwr.energy := by simp [raiseSub]
theorem needSpare_energy {s₂ : State} (hs : needSpare p c o s = some s₂) : s₂.pwr.energy = s.pwr.energy := by
  unfold needSpare at hs
  dsimp only at hs
  split at hs
  · cases hs
  · split at hs
    · simp [← Option.some.inj hs]
    · split_ifs at hs <;> simp [← Option.some.inj hs]
@[simp] theorem subEnd_energy : (subEnd p d c s).pwr.energy = s.pwr.energy := by unfold subEnd; split <;> simp
@[simp] theorem subCalibrates_energy : (subCalibrates p d o s).pwr.energy = s.pwr.energy := by simp [subCalibrates]
@[simp] theorem subRecovered_energy : (subRecovered p d o s).pwr.energy = s.pwr.energy := by unfold subRecovered; split <;> simp
@[simp] theorem subStands_energy : (subStands p d o s).pwr.energy = s.pwr.energy := by simp [subStands]
@[simp] theorem subReturned_energy : (subReturned p d o s).pwr.energy = s.pwr.energy := by simp [subReturned]
@[simp] theorem lineRemoved_energy : (lineRemoved p l s).pwr.energy = s.pwr.energy := by unfold lineRemoved; split <;> simp
@[simp] theorem lineNeeds_energy (reason : BitVec 8) : (lineNeeds p l reason c s).pwr.energy = s.pwr.energy := by
  unfold lineNeeds
  dsimp only
  split
  · simp
  · split
    next h => rw [widthCheck_energy, needSpare_energy _ _ _ _ h]; simp
    · simp
@[simp] theorem spareLost_energy : (spareLost p l s).pwr.energy = s.pwr.energy := by simp [spareLost]
@[simp] theorem lineLost_energy : (lineLost p l s).pwr.energy = s.pwr.energy := by simp [lineLost]
@[simp] theorem lineBack_energy : (lineBack p l s).pwr.energy = s.pwr.energy := by simp only [lineBack]; (repeat' split) <;> simp
@[simp] theorem ringMoves_energy : (ringMoves p l n s).pwr.energy = s.pwr.energy := by simp [ringMoves]
@[simp] theorem markerCame_energy (place : BitVec 24) : (markerCame p l v place s).pwr.energy = s.pwr.energy := by simp [markerCame]
@[simp] theorem wrongLine_energy : (wrongLine p l n s).pwr.energy = s.pwr.energy := by simp [wrongLine]
@[simp] theorem rightLine_energy : (rightLine p l i s).pwr.energy = s.pwr.energy := by simp [rightLine]
@[simp] theorem lineMarkerRx_energy : (lineMarkerRx p l raw s).pwr.energy = s.pwr.energy := by simp [lineMarkerRx]
@[simp] theorem ringsPlace_energy : (ringsPlace p s).pwr.energy = s.pwr.energy := by simp [ringsPlace]
@[simp] theorem markerTx_energy : (markerTx p l s).pwr.energy = s.pwr.energy := by simp [markerTx]
@[simp] theorem idleTx_energy : (idleTx p l s).pwr.energy = s.pwr.energy := by simp [idleTx]
@[simp] theorem clockTx_energy : (clockTx p s).pwr.energy = s.pwr.energy := by simp [clockTx]
@[simp] theorem markersTx_energy : (markersTx s).pwr.energy = s.pwr.energy := by simp [markersTx]
@[simp] theorem takeOverAsked_energy : (takeOverAsked p d b l raw s).pwr.energy = s.pwr.energy := by
  simp only [takeOverAsked]; (repeat' split) <;> simp
@[simp] theorem returnAsked_energy : (returnAsked p d l s).pwr.energy = s.pwr.energy := by unfold returnAsked; split <;> simp
@[simp] theorem subRequestMsg_energy : (subRequestMsg b raw s).pwr.energy = s.pwr.energy := by unfold subRequestMsg; split <;> simp
@[simp] theorem goTakeOver_energy : (goTakeOver p d b l raw s).pwr.energy = s.pwr.energy := by unfold goTakeOver; split <;> simp
@[simp] theorem goReturn_energy : (goReturn p d b l raw s).pwr.energy = s.pwr.energy := by unfold goReturn; split <;> simp
@[simp] theorem subGoMsg_energy : (subGoMsg b raw s).pwr.energy = s.pwr.energy := by unfold subGoMsg; split <;> simp
@[simp] theorem subMarker_energy : (subMarker p c v s).pwr.energy = s.pwr.energy := by unfold subMarker; dsimp only; split <;> simp
@[simp] theorem subAppliedMsg_energy : (subAppliedMsg b raw s).pwr.energy = s.pwr.energy := by
  simp only [subAppliedMsg]; (repeat' split) <;> simp
@[simp] theorem subRepeat_energy : (subRepeat p dir c s).pwr.energy = s.pwr.energy := by unfold subRepeat; dsimp only; split <;> simp
@[simp] theorem requalify_energy : (requalify p l dir s).pwr.energy = s.pwr.energy := by simp [requalify]
@[simp] theorem requalified_energy : (requalified p l n c s).pwr.energy = s.pwr.energy := by simp [requalified]
@[simp] theorem trainStep_energy : (trainStep p r s).pwr.energy = s.pwr.energy := by simp [trainStep]
@[simp] theorem pausePort_energy : (pausePort p s).pwr.energy = s.pwr.energy := by simp [pausePort]
@[simp] theorem trainPort_energy : (trainPort p r s).pwr.energy = s.pwr.energy := by simp [trainPort]
@[simp] theorem retrainPort_energy : (retrainPort p r s).pwr.energy = s.pwr.energy := by simp [retrainPort]
@[simp] theorem trainFails_energy : (trainFails p n m s).pwr.energy = s.pwr.energy := by simp [trainFails]
@[simp] theorem judgePartner_energy : (judgePartner p n m k s).pwr.energy = s.pwr.energy := by
  simp only [judgePartner]; (repeat' split) <;> simp
@[simp] theorem assignSpare_energy : (assignSpare p d s).pwr.energy = s.pwr.energy := by unfold assignSpare; dsimp only; split <;> simp
@[simp] theorem masksExchanged_energy : (masksExchanged p s).pwr.energy = s.pwr.energy := by simp [masksExchanged]
@[simp] theorem trainMsg_energy : (trainMsg p raw s).pwr.energy = s.pwr.energy := by simp [trainMsg]
@[simp] theorem trainRx_energy : (trainRx p raw s).pwr.energy = s.pwr.energy := by unfold trainRx; split <;> simp
@[simp] theorem lightBeam_energy : (lightBeam b s).pwr.energy = s.pwr.energy := by simp [lightBeam]
@[simp] theorem lightPort_energy : (lightPort p s).pwr.energy = s.pwr.energy := by simp [lightPort]
@[simp] theorem portOpens_energy : (portOpens p s).pwr.energy = s.pwr.energy := by simp [portOpens]
@[simp] theorem portQualifies_energy (counts : List (ℕ × Bool)) : (portQualifies p counts s).pwr.energy = s.pwr.energy := by
  simp [portQualifies]
@[simp] theorem portStep_energy (r : PortStep) : (portStep p r s).pwr.energy = s.pwr.energy := by simp [portStep]
theorem prtCmdEffect_energy {s₂ : State} (hs : prtCmdEffect n p s = some s₂) : s₂.pwr.energy = s.pwr.energy := by
  unfold prtCmdEffect at hs
  dsimp only at hs
  split_ifs at hs <;> simp [← Option.some.inj hs]
@[simp] theorem prtCmd_energy : (prtCmd n v s).pwr.energy = s.pwr.energy := by
  unfold prtCmd
  dsimp only
  split
  · simp
  · split
    next h => simpa using prtCmdEffect_energy _ _ _ h
    · rfl

/-! ### Machine/Plans.lean -/

@[simp] theorem setShed_energy : (setShed p s).pwr.energy = s.pwr.energy := by simp [setShed]
@[simp] theorem putDim_energy (d : LineSet) : (putDim p d s).pwr.energy = s.pwr.energy := by simp [putDim]
@[simp] theorem portDim_energy : (portDim p s).pwr.energy = s.pwr.energy := by simp [portDim]
@[simp] theorem pairDim_energy : (pairDim p s).pwr.energy = s.pwr.energy := by simp [pairDim]
@[simp] theorem dimApply_energy : (dimApply s).pwr.energy = s.pwr.energy := by simp [dimApply]
@[simp] theorem switchStart_energy (r : PlanRec) : (switchStart r s).pwr.energy = s.pwr.energy := by simp [switchStart]
@[simp] theorem switchPauses_energy (e : PortSwitch) : (switchPauses p e s).pwr.energy = s.pwr.energy := by simp [switchPauses]
@[simp] theorem switchArrive_energy : (switchArrive p s).pwr.energy = s.pwr.energy := by unfold switchArrive; split <;> simp
@[simp] theorem heldSwitch_energy : (heldSwitch p s).pwr.energy = s.pwr.energy := by unfold heldSwitch; split <;> simp
@[simp] theorem noteLocked_energy : (noteLocked b s).pwr.energy = s.pwr.energy := by simp [noteLocked]
@[simp] theorem renewRequest_energy : (renewRequest b s).pwr.energy = s.pwr.energy := by simp [renewRequest]
@[simp] theorem switchLines_energy : (switchLines b s).pwr.energy = s.pwr.energy := by simp [switchLines]
@[simp] theorem switchBeam_energy (new : PlanBlock) : (switchBeam p new b s).pwr.energy = s.pwr.energy := by
  unfold switchBeam; split <;> simp
@[simp] theorem dropSubs_energy (new : PlanBlock) : (dropSubs p new s).pwr.energy = s.pwr.energy := by
  unfold dropSubs
  dsimp only
  rw [foldl_energy]
  · simp
  · intro i u
    dsimp only
    split <;> simp
@[simp] theorem showPlan_energy : (showPlan n i s).pwr.energy = s.pwr.energy := by simp [showPlan]
@[simp] theorem switchAnchor_energy : (switchAnchor p s).pwr.energy = s.pwr.energy := by unfold switchAnchor; dsimp only; split <;> simp
@[simp] theorem execSwitchRingsSet_energy : EnergyIs s.pwr.energy (execSwitchRingsSet p s) :=
  run_energyIs _ _ fun u => by split <;> simp
@[simp] theorem switchComplete_energy : (switchComplete p s).pwr.energy = s.pwr.energy := by unfold switchComplete; split <;> simp
@[simp] theorem planInstall_energy (r : PlanRec) : (planInstall r s).pwr.energy = s.pwr.energy := by simp [planInstall]
@[simp] theorem planWithdraw_energy : (planWithdraw s).pwr.energy = s.pwr.energy := by simp [planWithdraw]

/-! ### Machine/Rings.lean -/

@[simp] theorem setpointCheck_energy : (setpointCheck n s).pwr.energy = s.pwr.energy := by simp [setpointCheck]
@[simp] theorem ringVisit_energy : (ringVisit n m s).pwr.energy = s.pwr.energy := by simp [ringVisit]
@[simp] theorem rowCode_energy (c : CodeResult) : (rowCode p c s).pwr.energy = s.pwr.energy := by unfold rowCode; split <;> simp
@[simp] theorem rowMissed_energy (c : CodeResult) : (rowMissed n c s).pwr.energy = s.pwr.energy := by unfold rowMissed; split <;> simp
@[simp] theorem tileSample_energy (counts : List ℕ) : (tileSample counts s).pwr.energy = s.pwr.energy := by simp [tileSample]
@[simp] theorem hintMsg_energy : (hintMsg x raw s).pwr.energy = s.pwr.energy := by simp [hintMsg]
@[simp] theorem hintLearn_energy : (hintLearn p x z s).pwr.energy = s.pwr.energy := by unfold hintLearn; dsimp only; split <;> simp
@[simp] theorem markDue_energy : (markDue p s).pwr.energy = s.pwr.energy := by simp [markDue]
@[simp] theorem zoneEvent_energy (was : Option ℤ) : (zoneEvent p was z s n).pwr.energy = s.pwr.energy := by simp [zoneEvent]
@[simp] theorem zoneSample_energy : (zoneSample p z s).pwr.energy = s.pwr.energy := by simp [zoneSample]
@[simp] theorem calStart_energy : (calStart p l dir s).pwr.energy = s.pwr.energy := by
  unfold calStart
  dsimp only
  split
  · rfl
  · split <;> try rfl
    cases h : needSpare p (dir == Dir.rx) _ s with
    | none => rfl
    | some u => exact needSpare_energy _ _ _ _ h
@[simp] theorem calOverdue_energy : (calOverdue p l dir s).pwr.energy = s.pwr.energy := by unfold calOverdue; dsimp only; split <;> simp
@[simp] theorem ringFix_energy (m : CalMeasure) : (ringFix n m s).pwr.energy = s.pwr.energy := by simp [ringFix]
@[simp] theorem ringsCalibrated_energy : (ringsCalibrated p l dir s).pwr.energy = s.pwr.energy := by simp [ringsCalibrated]
@[simp] theorem calApply_energy (m : CalMeasure) : (calApply p l dir m s).pwr.energy = s.pwr.energy := by simp [calApply]
@[simp] theorem calReturns_energy : (calReturns p l c s).pwr.energy = s.pwr.energy := by unfold calReturns; dsimp only; split <;> simp
@[simp] theorem calDone_energy (m : CalMeasure) : (calDone p l dir m s).pwr.energy = s.pwr.energy := by simp [calDone]
@[simp] theorem samplerTrim_energy : (samplerTrim p l n s).pwr.energy = s.pwr.energy := by simp [samplerTrim]
@[simp] theorem takePeaks_energy (peaks : List ℤ) : (takePeaks n peaks s).pwr.energy = s.pwr.energy := by
  induction peaks generalizing s with
  | nil => rfl
  | cons x r ih => simp [takePeaks, ih]
@[simp] theorem sweepRing_energy (w : GlintSweep) : (sweepRing p w n s).pwr.energy = s.pwr.energy := by simp [sweepRing]
@[simp] theorem coldSweep_energy (w : GlintSweep) : (coldSweep p w s).pwr.energy = s.pwr.energy := by simp [coldSweep]
@[simp] theorem glintCal_energy (ll : List (CalMeasure × CalMeasure)) : (glintCal p ll s).pwr.energy = s.pwr.energy :=
  foldl_energy _ _ _ fun _ _ => by dsimp only; split <;> simp
@[simp] theorem glintDone_energy (f : GlintFound) : (glintDone p c f s).pwr.energy = s.pwr.energy := by simp [glintDone]

/-! ### Machine/Power.lean -/

@[simp] theorem startEnds_energy : (startEnds s).pwr.energy = s.pwr.energy := by simp [startEnds]
@[simp] theorem reasonStep_energy (now : BitVec 11) (c : Fin 11) : (reasonStep now s c).pwr.energy = s.pwr.energy := by simp [reasonStep]
@[simp] theorem raiseTo_energy (o : Pwr) : (raiseTo n o).energy = o.energy := by simp [raiseTo]
@[simp] theorem opMove_energy : (opMove s).pwr.energy = s.pwr.energy := by simp [opMove]
@[simp] theorem railWrite_energy (was : Pwr) : (railWrite was s).pwr.energy = s.pwr.energy := by simp [railWrite]
@[simp] theorem restamp_energy : (restamp n s).pwr.energy = s.pwr.energy := by simp [restamp]
@[simp] theorem pwrSettle_energy (f : State → State) : (pwrSettle f s).pwr.energy = (f s).pwr.energy := by simp [pwrSettle]
@[simp] theorem raiseGo_energy : (raiseGo s).pwr.energy = s.pwr.energy := by unfold raiseGo; split <;> simp
@[simp] theorem execRailSettled_energy : EnergyIs s.pwr.energy (execRailSettled n s) :=
  run_energyIs _ _ fun u => by
    rw [pwrSettle_energy]
    split <;> simp
@[simp] theorem shedStep_energy : (shedStep s n).pwr.energy = s.pwr.energy := by simp [shedStep]
@[simp] theorem restoreStep_energy : (restoreStep s n).pwr.energy = s.pwr.energy := by simp [restoreStep]
@[simp] theorem capWatch_energy : (capWatch c c₂ s).pwr.energy = s.pwr.energy := by simp [capWatch]
@[simp] theorem capStep_energy : (capStep n s).pwr.energy = s.pwr.energy := by simp only [capStep]; (repeat' split) <;> simp
@[simp] theorem policyTakes_energy : (policyTakes s).pwr.energy = s.pwr.energy := by simp [policyTakes]
@[simp] theorem tilesRescale_energy : (tilesRescale s).pwr.energy = s.pwr.energy := by simp [tilesRescale]
@[simp] theorem thmCond_energy : (thmCond n c s).pwr.energy = s.pwr.energy := by simp [thmCond]
@[simp] theorem tripFatal_energy : (tripFatal s).pwr.energy = s.pwr.energy := by simp [tripFatal]
@[simp] theorem takeSensors_energy (temps8 : List (Option ℤ)) (failed : List ℕ) : (takeSensors temps8 failed s).pwr.energy = s.pwr.energy := by
  simp [takeSensors]
@[simp] theorem heatForce_energy : (heatForce z s).pwr.energy = s.pwr.energy := by simp [heatForce]
@[simp] theorem sensorForce_energy : (sensorForce s).pwr.energy = s.pwr.energy := by simp [sensorForce]
@[simp] theorem execThermalCeilingStep_energy (w : CeilingStep) : EnergyIs s.pwr.energy (execThermalCeilingStep w s) := by
  unfold execThermalCeilingStep; split <;> simp
@[simp] theorem agingCluster_energy (c : Fin 16) : (agingCluster s c).pwr.energy = s.pwr.energy := by simp [agingCluster]
@[simp] theorem pwrCtrl_energy : (pwrCtrl v s).pwr.energy = s.pwr.energy := by simp [pwrCtrl]
@[simp] theorem thmWarn_energy : (thmWarn v s).pwr.energy = s.pwr.energy := by simp [thmWarn]
@[simp] theorem mgtCode_energy (c : CodeResult) : (mgtCode c s).pwr.energy = s.pwr.energy := by unfold mgtCode; split <;> simp
@[simp] theorem snapshot_energy : (snapshot s).pwr.energy = s.pwr.energy := by simp [snapshot]

/-! ### Machine/Comb.lean -/

@[simp] theorem groupCheck_energy : (groupCheck g s).pwr.energy = s.pwr.energy := by simp [groupCheck]
@[simp] theorem gridLoop_energy (d : CombDie) : (gridLoop g d z z₂ s).pwr.energy = s.pwr.energy := by simp [gridLoop]
@[simp] theorem crossCheck_energy (est : List (Port × Line × ℤ)) : (crossCheck est s p).pwr.energy = s.pwr.energy := by
  simp only [crossCheck]; (repeat' split) <;> simp
@[simp] theorem dieReport_energy (d : CombDie) (launches : List ℤ) : (dieReport g d launches s).pwr.energy = s.pwr.energy := by
  simp [dieReport]
@[simp] theorem biasLoop_energy (d : CombDie) (est : List (Port × Line × ℤ)) : (biasLoop g d est z s).pwr.energy = s.pwr.energy := by
  simp only [biasLoop]; (repeat' split) <;> simp
@[simp] theorem thermalReduction_energy (d : CombDie) : (thermalReduction g d z s).pwr.energy = s.pwr.energy := by simp [thermalReduction]
@[simp] theorem flashFailed_energy : (flashFailed s).pwr.energy = s.pwr.energy := by simp [flashFailed]
@[simp] theorem agingRecord_energy (e : CombGroup × CombDie) : (agingRecord s e).pwr.energy = s.pwr.energy := by simp [agingRecord]
@[simp] theorem agingWrite_energy : (agingWrite c s).pwr.energy = s.pwr.energy := by simp [agingWrite]
@[simp] theorem darkFor_energy : (darkFor n s p).pwr.energy = s.pwr.energy := by simp [darkFor]
@[simp] theorem openFibre_energy : (openFibre p s).pwr.energy = s.pwr.energy := by simp [openFibre]
@[simp] theorem posExhausted_energy : (posExhausted g d s).pwr.energy = s.pwr.energy := by simp [posExhausted]
@[simp] theorem dieFails_energy (d : CombDie) : (dieFails g d s).pwr.energy = s.pwr.energy := by unfold dieFails; dsimp only; split <;> simp
@[simp] theorem spareRamp_energy : (spareRamp g s).pwr.energy = s.pwr.energy := by unfold spareRamp; split <;> simp
@[simp] theorem spareLocked_energy : (spareLocked g s).pwr.energy = s.pwr.energy := by unfold spareLocked; dsimp only; split <;> simp
@[simp] theorem swapStart_energy : (swapStart g d s).pwr.energy = s.pwr.energy := by simp [swapStart]
@[simp] theorem swapPort_energy : (swapPort s p).pwr.energy = s.pwr.energy := by simp [swapPort]
@[simp] theorem swapFinish_energy : (swapFinish g d s).pwr.energy = s.pwr.energy := by simp [swapFinish]
@[simp] theorem probeBegin_energy : (probeBegin p s).pwr.energy = s.pwr.energy := by simp [probeBegin]
@[simp] theorem glintEnter_energy : (glintEnter p s).pwr.energy = s.pwr.energy := by simp [glintEnter]
@[simp] theorem probeLight_energy : (probeLight p n s).pwr.energy = s.pwr.energy := by simp [probeLight]
@[simp] theorem probeFinish_energy : (probeFinish p s).pwr.energy = s.pwr.energy := by simp [probeFinish]
@[simp] theorem rxPower_energy : (rxPower p l z s).pwr.energy = s.pwr.energy := by simp [rxPower]
@[simp] theorem clockLost_energy (c : ClockLoss) : (clockLost c s).pwr.energy = s.pwr.energy := by unfold clockLost; split <;> simp

/-! ### Machine/Mgmt.lean -/

@[simp] theorem pkgFailBit_energy : (pkgFailBit n s).pwr.energy = s.pwr.energy := by simp [pkgFailBit]
@[simp] theorem bootRead_energy : (bootRead s).pwr.energy = s.pwr.energy := by simp [bootRead]
@[simp] theorem fwTo_energy : (fwTo r s).pwr.energy = s.pwr.energy := by simp [fwTo]
@[simp] theorem slotFails_energy : (slotFails u s).pwr.energy = s.pwr.energy := by simp [slotFails]
@[simp] theorem retirePending_energy : (retirePending s u).pwr.energy = s.pwr.energy := by simp [retirePending]
@[simp] theorem slotRuns_energy : (slotRuns u s).pwr.energy = s.pwr.energy := by simp [slotRuns]
@[simp] theorem slotTry_energy : (slotTry u s).2.pwr.energy = s.pwr.energy := by simp only [slotTry]; (repeat' split) <;> simp
@[simp] theorem recover_energy : (recover s).pwr.energy = s.pwr.energy := by simp [recover]
@[simp] theorem romBoot_energy : (romBoot s).pwr.energy = s.pwr.energy := by simp only [romBoot]; (repeat' split) <;> simp
@[simp] theorem h2fAborted_energy (c : Fin 16) : (h2fAborted s c).pwr.energy = s.pwr.energy := by simp [h2fAborted]
@[simp] theorem i3cAborted_energy : (i3cAborted v s).pwr.energy = s.pwr.energy := by simp [i3cAborted]
@[simp] theorem runAborted_energy (c : Fin 16) : (runAborted a c n i s).pwr.energy = s.pwr.energy := by unfold runAborted; split <;> simp
@[simp] theorem imgLost_energy : (imgLost s).pwr.energy = s.pwr.energy := by simp [imgLost]
@[simp] theorem burn_energy : (burn n s).pwr.energy = s.pwr.energy := by simp [burn]
@[simp] theorem confirmCut_energy : (confirmCut s).pwr.energy = s.pwr.energy := by simp [confirmCut]
@[simp] theorem mgmtReset_energy : (mgmtReset s).pwr.energy = s.pwr.energy := by simp [mgmtReset]
@[simp] theorem fwReady_energy : (fwReady s).pwr.energy = s.pwr.energy := by simp only [fwReady]; (repeat' split) <;> simp
@[simp] theorem lockstep_energy : (lockstep s).pwr.energy = s.pwr.energy := by simp [lockstep]
@[simp] theorem mgtTake_energy : (mgtTake a s).pwr.energy = s.pwr.energy := by unfold mgtTake; split <;> simp
@[simp] theorem onCmd_energy (f : Msg → State → State) (hf : ∀ m, KeepsEnergy (f m)) : (onCmd a n f s).pwr.energy = s.pwr.energy := by
  unfold onCmd; split <;> simp_all
@[simp] theorem mgtQueryCmd_energy : (mgtQueryCmd a e s).pwr.energy = s.pwr.energy := by simp [mgtQueryCmd]
@[simp] theorem updRefused_energy : (updRefused n s).pwr.energy = s.pwr.energy := by simp [updRefused]
@[simp] theorem updError_energy : (updError a n i m s).pwr.energy = s.pwr.energy := by simp [updError]
@[simp] theorem fwBeginCmd_energy : (fwBeginCmd a e s).pwr.energy = s.pwr.energy := by simp [fwBeginCmd]
@[simp] theorem eraseDone_energy : (eraseDone c s).pwr.energy = s.pwr.energy := by unfold eraseDone; split <;> simp
@[simp] theorem fwChunkCmd_energy : (fwChunkCmd a e s).pwr.energy = s.pwr.energy := by simp only [fwChunkCmd]; (repeat' split) <;> simp
@[simp] theorem chunkProgrammed_energy : (chunkProgrammed c s).pwr.energy = s.pwr.energy := by
  simp only [chunkProgrammed]; (repeat' split) <;> simp
@[simp] theorem fwVerifyCmd_energy : (fwVerifyCmd a e s).pwr.energy = s.pwr.energy := by unfold fwVerifyCmd; split <;> simp
@[simp] theorem fwVerified_energy : (fwVerified c s).pwr.energy = s.pwr.energy := by unfold fwVerified; split <;> simp
@[simp] theorem fwActivateCmd_energy : (fwActivateCmd a e s).pwr.energy = s.pwr.energy := by unfold fwActivateCmd; split <;> simp
@[simp] theorem activatedBoot_energy : (activatedBoot u s).pwr.energy = s.pwr.energy := by simp [activatedBoot]
@[simp] theorem fwActivated_energy : (fwActivated c s).pwr.energy = s.pwr.energy := by unfold fwActivated; split <;> simp
@[simp] theorem endRun_energy (r : MgtRun) : (endRun r s).pwr.energy = s.pwr.energy := by simp [endRun]
@[simp] theorem fwConfirmCmd_energy : (fwConfirmCmd a e s).pwr.energy = s.pwr.energy := by simp [fwConfirmCmd]
@[simp] theorem confirmedBoot_energy : (confirmedBoot u s).pwr.energy = s.pwr.energy := by simp [confirmedBoot]
@[simp] theorem fwConfirmed_energy : (fwConfirmed c s).pwr.energy = s.pwr.energy := by unfold fwConfirmed; split <;> simp
@[simp] theorem attestCmd_energy : (attestCmd a e s).pwr.energy = s.pwr.energy := by simp [attestCmd]
@[simp] theorem attestDone_energy : (attestDone s).pwr.energy = s.pwr.energy := by unfold attestDone; split <;> simp
@[simp] theorem combSwapCmd_energy : (combSwapCmd a e s).pwr.energy = s.pwr.energy := by simp [combSwapCmd]
@[simp] theorem combSwapDone_energy : (combSwapDone s).pwr.energy = s.pwr.energy := by simp only [combSwapDone]; (repeat' split) <;> simp
@[simp] theorem fatalReadCmd_energy : (fatalReadCmd a e s).pwr.energy = s.pwr.energy := by
  simp only [fatalReadCmd]; (repeat' split) <;> simp
@[simp] theorem fatalClearCmd_energy : (fatalClearCmd a e s).pwr.energy = s.pwr.energy := by simp [fatalClearCmd]
@[simp] theorem fatalCleared_energy : (fatalCleared c s).pwr.energy = s.pwr.energy := by unfold fatalCleared; split <;> simp
@[simp] theorem fatalStored_energy : (fatalStored c s).pwr.energy = s.pwr.energy := by unfold fatalStored; split <;> simp
@[simp] theorem undefCmd_energy (ch : FwChannel) : (undefCmd ch s).pwr.energy = s.pwr.energy := by
  simp only [undefCmd]; (repeat' split) <;> simp
@[simp] theorem capMgmtSet_energy : (capMgmtSet v s).pwr.energy = s.pwr.energy := by simp [capMgmtSet]
@[simp] theorem i3cGoSet_energy : (i3cGoSet s).pwr.energy = s.pwr.energy := by simp [i3cGoSet]
@[simp] theorem i3cRspClear_energy : (i3cRspClear s).pwr.energy = s.pwr.energy := by simp only [i3cRspClear]; (repeat' split) <;> simp
@[simp] theorem i3cOn_energy (f : State → State) (hf : (f s).pwr.energy = s.pwr.energy) : (i3cOn f s).pwr.energy = s.pwr.energy := by
  simp_all [i3cOn]
@[simp] theorem i3cWord_energy : (i3cWord n v s).pwr.energy = s.pwr.energy := by
  unfold i3cWord
  split
  · exact flag_energy _ _ _ _
  split
  · exact capMgmtSet_energy _ _
  split
  · rw [onUpd_pwr, onMgt_pwr]
  split
  · split
    · exact flag_energy _ _ _ _
    · rw [onMgt_pwr]
  split
  · split
    · exact i3cGoSet_energy _
    · rfl
  · split
    · exact i3cRspClear_energy _
    · rfl
@[simp] theorem i3cWrite_energy (ws : List Word) : (i3cWrite n ws s).pwr.energy = s.pwr.energy := by
  induction ws generalizing s n with
  | nil => simp [i3cWrite]
  | cons v r ih => simp [i3cWrite, ih]
@[simp] theorem i3cReadWords_energy (ws : List Word) : (i3cReadWords n ws s).2.pwr.energy = s.pwr.energy := by
  induction n generalizing s ws with
  | zero => rfl
  | succ k ih => simp [i3cReadWords, ih]

/-! ### Machine/Reset.lean -/

@[simp] theorem bootCut_energy (s₂ : State) : (bootCut s s₂).pwr.energy = s₂.pwr.energy := by unfold bootCut; dsimp only; split <;> simp
@[simp] theorem resetRelease_energy (p : ResetPin) : (resetRelease p s).pwr.energy = s.pwr.energy := by simp [resetRelease]
@[simp] theorem hostInboxCleared_energy : (hostInboxCleared s).pwr.energy = s.pwr.energy := by simp [hostInboxCleared]
@[simp] theorem hostSideCleared_energy : (hostSideCleared s).pwr.energy = s.pwr.energy := by simp [hostSideCleared]
@[simp] theorem pcieUpdateClosed_energy : (pcieUpdateClosed s).pwr.energy = s.pwr.energy := by unfold pcieUpdateClosed; split <;> simp
@[simp] theorem functionReset_energy : (functionReset s).pwr.energy = s.pwr.energy := by simp [functionReset]
@[simp] theorem penumbraReplies_energy : (penumbraReplies s).pwr.energy = s.pwr.energy := by simp [penumbraReplies]
@[simp] theorem penumbraEntry_energy : (penumbraEntry s).pwr.energy = s.pwr.energy := by simp [penumbraEntry]
@[simp] theorem combGroupStart_energy : (combGroupStart g s).pwr.energy = s.pwr.energy := by simp [combGroupStart]
@[simp] theorem combLockTimeout_energy : (combLockTimeout g d s).pwr.energy = s.pwr.energy := by simp [combLockTimeout]
@[simp] theorem stackTrained_energy (h : Stack) (r : Option HbmRate) : (stackTrained h r s).pwr.energy = s.pwr.energy := by
  simp only [stackTrained]; (repeat' split) <;> simp
@[simp] theorem zeroRegion_energy (r : RegionRec) : (zeroRegion s r).pwr.energy = s.pwr.energy := by simp [zeroRegion]
@[simp] theorem regionsInit_energy (i : Image) : (regionsInit i s).pwr.energy = s.pwr.energy := by simp [regionsInit]
@[simp] theorem sqCommit_energy : (sqCommit s).pwr.energy = s.pwr.energy := by simp [sqCommit]
@[simp] theorem siteCommit_energy : (siteCommit s x).pwr.energy = s.pwr.energy := by simp [siteCommit]
@[simp] theorem laneCountersClear_energy : (laneCountersClear s).pwr.energy = s.pwr.energy := by simp [laneCountersClear]
@[simp] theorem trainAgain_energy : (trainAgain p s).pwr.energy = s.pwr.energy := by simp [trainAgain]
@[simp] theorem portCommit_energy : (portCommit s p).pwr.energy = s.pwr.energy := by simp [portCommit]
@[simp] theorem swapsDue_energy : (swapsDue s).pwr.energy = s.pwr.energy := by simp [swapsDue]
@[simp] theorem rowsRepaired_energy : (rowsRepaired s).pwr.energy = s.pwr.energy := by simp [rowsRepaired]
@[simp] theorem commitApply_energy (i : Image) : (commitApply i s).pwr.energy = s.pwr.energy := by simp [commitApply]
@[simp] theorem fullCommitDone_energy (words : List (ℕ × WordError)) : (fullCommitDone words s).pwr.energy = s.pwr.energy := by
  unfold fullCommitDone; split <;> simp
@[simp] theorem litStart_energy : (litStart s).pwr.energy = s.pwr.energy := by simp only [litStart]; (repeat' split) <;> simp
@[simp] theorem programStarts_energy : (programStarts s).pwr.energy = s.pwr.energy := by simp [programStarts]
@[simp] theorem withdrawArm_energy : (withdrawArm s).pwr.energy = s.pwr.energy := by simp [withdrawArm]
@[simp] theorem penumbraStop_energy : (penumbraStop s).pwr.energy = s.pwr.energy := by simp [penumbraStop]
@[simp] theorem penumbraEffect_energy : (penumbraEffect s).pwr.energy = s.pwr.energy := by
  unfold penumbraEffect
  extract_lets s1 s2 s3 s4
  have h1 : s1.pwr.energy = s.pwr.energy := by simp [s1]
  have h2 : s2.pwr.energy = s1.pwr.energy := by simp [s2]
  have h3 : s3.pwr.energy = s2.pwr.energy := by simp [s3]
  have h4 : s4.pwr.energy = s3.pwr.energy := by simp [s4]
  rw [penumbraReplies_energy, pwrSettle_energy, h4, h3, h2, h1]
@[simp] theorem penumbraCheck_energy : (penumbraCheck s).pwr.energy = s.pwr.energy := by simp [penumbraCheck]
@[simp] theorem stopAfter_energy (s₂ : State) : (stopAfter s s₂).pwr.energy = s₂.pwr.energy := by simp [stopAfter]
@[simp] theorem stopping_energy (f : State → State) : (stopping f s).pwr.energy = (f s).pwr.energy := by simp [stopping]
@[simp] theorem penumbraCmd_energy : (penumbraCmd e s).pwr.energy = s.pwr.energy := by unfold penumbraCmd; split <;> simp
@[simp] theorem execDevPenumbra_energy : EnergyIs s.pwr.energy (execDevPenumbra s) :=
  run_energyIs _ _ fun u => by split <;> simp
@[simp] theorem penumbraTimeout_energy : (penumbraTimeout s).pwr.energy = s.pwr.energy := by simp [penumbraTimeout]
@[simp] theorem litComplete_energy : (litComplete s).pwr.energy = s.pwr.energy := by simp [litComplete]

/-! ### Machine/Buffers.lean -/

@[simp] theorem countRead_energy (l : Loc) : (countRead l n s).pwr.energy = s.pwr.energy := by unfold countRead; split <;> simp
@[simp] theorem noteWritten_energy (l : Loc) : (noteWritten l n s).pwr.energy = s.pwr.energy := by simp [noteWritten]
@[simp] theorem locWrite_energy (l : Loc) : (locWrite l raw s).pwr.energy = s.pwr.energy := by unfold locWrite; split <;> simp
@[simp] theorem freeNamed_energy : (freeNamed x n m s).pwr.energy = s.pwr.energy := by simp only [freeNamed]; (repeat' split) <;> simp
@[simp] theorem nameTransfer_energy : (nameTransfer x n m s).pwr.energy = s.pwr.energy := by simp [nameTransfer]
@[simp] theorem takeNamed_energy : (takeNamed s).pwr.energy = s.pwr.energy := by simp [takeNamed]
@[simp] theorem dropUnnamed_energy : (dropUnnamed s).pwr.energy = s.pwr.energy := by simp [dropUnnamed]
@[simp] theorem queueTransfer_energy : (queueTransfer x n m raw s).pwr.energy = s.pwr.energy := by simp [queueTransfer]
@[simp] theorem sendPieces_energy (ps : List (ℕ × List Byte)) : (sendPieces n ps s).pwr.energy = s.pwr.energy := by
  unfold sendPieces; split <;> simp
@[simp] theorem applyOutputs_energy : (applyOutputs s).pwr.energy = s.pwr.energy := by
  unfold applyOutputs
  rw [foldl_energy _ _ _ (by simp)]
  exact foldl_energy _ _ _ fun _ _ => by dsimp only; split <;> simp

/-! ### Machine/Receive.lean -/

@[simp] theorem dropStale_energy : (dropStale b n s).pwr.energy = s.pwr.energy := by
  induction n generalizing s with
  | zero => rfl
  | succ k ih => unfold dropStale; split <;> simp [ih]
@[simp] theorem finishDispatch_energy : (finishDispatch n op s).pwr.energy = s.pwr.energy := by simp [finishDispatch]
@[simp] theorem closeWindows_energy : (closeWindows s).pwr.energy = s.pwr.energy := by simp [closeWindows]
@[simp] theorem finishDispatches_energy : (finishDispatches s).pwr.energy = s.pwr.energy := by simp [finishDispatches]

/-! ### Machine/Seq.lean -/

@[simp] theorem pcTo_energy : (pcTo n s).pwr.energy = s.pwr.energy := by simp [pcTo]
@[simp] theorem pcNext_energy : (pcNext s).pwr.energy = s.pwr.energy := by simp [pcNext]
@[simp] theorem instrRow_energy (col : Col) (word : DWord) (bad : State → Option ℕ) (f : State → State) (hf : KeepsEnergy f) :
    EnergyIs s.pwr.energy (instrRow col word bad f s) := by
  unfold instrRow; split <;> simp_all; split <;> simp_all
@[simp] theorem phaseRun_energy : (phaseRun s).pwr.energy = s.pwr.energy := by simp [phaseRun]
@[simp] theorem phaseCheck_energy : (phaseCheck s).pwr.energy = s.pwr.energy := by simp [phaseCheck]
@[simp] theorem afterWait_energy : (afterWait s).pwr.energy = s.pwr.energy := by simp [afterWait]
@[simp] theorem phaseOpens_energy : (phaseOpens c v s).pwr.energy = s.pwr.energy := by simp [phaseOpens]
@[simp] theorem waitAdds_energy (w : WaitCond) : (waitAdds w s).pwr.energy = s.pwr.energy := by simp [waitAdds]
@[simp] theorem fetchAsk_energy (i : FetchItem) : (fetchAsk i s).pwr.energy = s.pwr.energy := by
  simp only [fetchAsk]; (repeat' split) <;> simp
@[simp] theorem fetchFill_energy (i : FetchItem) : (fetchFill i s).pwr.energy = s.pwr.energy := by unfold fetchFill; split <;> simp
@[simp] theorem fetchReads_energy (i : FetchItem) (words : List (ℕ × WordError)) : (fetchReads i words s).pwr.energy = s.pwr.energy := by
  unfold fetchReads; dsimp only; split <;> simp
@[simp] theorem fetchEmpty_energy (i : FetchItem) : (fetchEmpty i s).pwr.energy = s.pwr.energy := by unfold fetchEmpty; split <;> simp
@[simp] theorem switchRun_energy (r : Option PlanRec) : (switchRun n r s).pwr.energy = s.pwr.energy := by unfold switchRun; split <;> simp
@[simp] theorem switchResolve_energy (w : DWord) : EnergyIs s.pwr.energy (switchResolve n w s) := by
  unfold switchResolve; dsimp only; split <;> simp
@[simp] theorem execSwitch_energy (vreg : Fin 16) : EnergyIs s.pwr.energy (execSwitch c c₂ vreg i s) := by
  simp only [execSwitch]; (repeat' split) <;> simp
@[simp] theorem fetchResume_energy (i : FetchItem) : (fetchResume i s).pwr.energy = s.pwr.energy := by unfold fetchResume; split <;> simp
@[simp] theorem execFetchComplete_energy (i : FetchItem) (words : List (ℕ × WordError)) : EnergyIs s.pwr.energy (execFetchComplete i s words) := by
  simp only [execFetchComplete]; (repeat' split) <;> simp
@[simp] theorem prefetch_energy : (prefetch c i y s).pwr.energy = s.pwr.energy := by simp [prefetch]
@[simp] theorem issue_energy : (issue y i s).pwr.energy = s.pwr.energy := by simp [issue]
@[simp] theorem tokenAsk_energy (slot : BitVec 12) : (tokenAsk r b slot s).pwr.energy = s.pwr.energy := by simp [tokenAsk]
@[simp] theorem locReads_energy (l : Loc) (words : List (ℕ × WordError)) : (locReads l n words s).pwr.energy = s.pwr.energy := by
  unfold locReads; split <;> simp
@[simp] theorem select_energy (vreg : Fin 16) (family : BitVec 12) (words : List (ℕ × WordError)) :
    (select vreg family v words s).pwr.energy = s.pwr.energy := by
  simp only [select]; (repeat' split) <;> simp
@[simp] theorem hint_energy (hold : Byte) : (hint q y hold s).pwr.energy = s.pwr.energy := by simp [hint]
@[simp] theorem branch_energy (n : Fin 16) : (branch r n y i s).pwr.energy = s.pwr.energy := by simp [branch]
@[simp] theorem call_energy : (call h i s).pwr.energy = s.pwr.energy := by simp [call]
@[simp] theorem returns_energy : (returns s).pwr.energy = s.pwr.energy := by unfold returns; split <;> simp
@[simp] theorem halts_energy : (halts s).pwr.energy = s.pwr.energy := by simp [halts]
@[simp] theorem tokenCount_energy (gen : BitVec 8) : (tokenCount n gen v s).pwr.energy = s.pwr.energy := by simp [tokenCount]
@[simp] theorem tokenRx_energy (w : DWord) : (tokenRx w s).pwr.energy = s.pwr.energy := by simp [tokenRx]
@[simp] theorem drainTokens_energy : (drainTokens b n s).pwr.energy = s.pwr.energy := by
  induction n generalizing s with
  | zero => rfl
  | succ k ih => unfold drainTokens; (repeat' split) <;> simp [ih]
@[simp] theorem drainBeam_energy : (drainBeam b s).pwr.energy = s.pwr.energy := by simp [drainBeam]
@[simp] theorem drainBeams_energy : (drainBeams s).pwr.energy = s.pwr.energy := by simp [drainBeams]
@[simp] theorem sendTokens_energy : (sendTokens s).pwr.energy = s.pwr.energy := by simp [sendTokens]
@[simp] theorem ceCommit_energy : (ceCommit s).pwr.energy = s.pwr.energy := by simp [ceCommit]
@[simp] theorem overflowStore_energy : (overflowStore s n).pwr.energy = s.pwr.energy := by unfold overflowStore; dsimp only; split <;> simp
@[simp] theorem overflowStores_energy (p : CePend) (old : List Deferred) : (overflowStores p old s).pwr.energy = s.pwr.energy := by
  simp [overflowStores]
@[simp] theorem overflowRead_energy : (overflowRead n s).pwr.energy = s.pwr.energy := by unfold overflowRead; split <;> simp
@[simp] theorem parkHighCheck_energy : (parkHighCheck s).pwr.energy = s.pwr.energy := by simp [parkHighCheck]
@[simp] theorem epochNext_energy : (epochNext s).pwr.energy = s.pwr.energy := by simp [epochNext]
@[simp] theorem sendNotifies_energy (l : List (ℕ × ℕ)) : (sendNotifies l s).pwr.energy = s.pwr.energy := by simp [sendNotifies]
@[simp] theorem iterEnds_energy : (iterEnds s).pwr.energy = s.pwr.energy := by simp [iterEnds]
@[simp] theorem hintsEnd_energy : (hintsEnd s).pwr.energy = s.pwr.energy := by simp [hintsEnd]
@[simp] theorem repairsAtCommit_energy : (repairsAtCommit s).pwr.energy = s.pwr.energy := by simp [repairsAtCommit]
@[simp] theorem commitEffects_energy : (commitEffects s).pwr.energy = s.pwr.energy := by simp [commitEffects]
@[simp] theorem setUnit_energy (st : UnitState) : (setUnit u st s).pwr.energy = s.pwr.energy := by simp [setUnit]
@[simp] theorem standbyCommit_energy (r : MirrorRec) : (standbyCommit r s).pwr.energy = s.pwr.energy := by
  unfold standbyCommit; dsimp only; split <;> simp
@[simp] theorem swapUnits_energy : (swapUnits s).pwr.energy = s.pwr.energy := by simp [swapUnits]
@[simp] theorem enterHeld_energy : (enterHeld i s).pwr.energy = s.pwr.energy := by simp [enterHeld]
@[simp] theorem commitWrite_energy : (commitWrite s).pwr.energy = s.pwr.energy := by unfold commitWrite; dsimp only; split <;> simp
@[simp] theorem trySeal_energy : (trySeal s).pwr.energy = s.pwr.energy := by simp [trySeal]
@[simp] theorem writeV15_energy : (writeV15 s).pwr.energy = s.pwr.energy := by simp [writeV15]
@[simp] theorem commits_energy : (commits c s).pwr.energy = s.pwr.energy := by simp [commits]
@[simp] theorem ceMissed_energy : (ceMissed s).pwr.energy = s.pwr.energy := by simp [ceMissed]
@[simp] theorem ceError_energy (c : CeCode) : (ceError s c).pwr.energy = s.pwr.energy := by simp [ceError]
@[simp] theorem opReports_energy : (opReports n s).pwr.energy = s.pwr.energy := by simp [opReports]
@[simp] theorem opRead_energy (r : HbmRead) : (opRead s r).pwr.energy = s.pwr.energy := by simp [opRead]
@[simp] theorem opEnds_energy (codes : List CeCode) (words : List HbmRead) : (opEnds n codes words s).pwr.energy = s.pwr.energy := by
  unfold opEnds; split <;> simp

/-! ### Machine/Failover.lean -/

@[simp] theorem mirrorRx_energy (beats : Vector CodeResult 8) : (mirrorRx beats s).pwr.energy = s.pwr.energy := by
  unfold mirrorRx
  dsimp only
  split <;> simp [-Vector.foldl_toList]
@[simp] theorem resyncEnds_energy : (resyncEnds s).pwr.energy = s.pwr.energy := by simp [resyncEnds]
@[simp] theorem mirrorAcked_energy : (mirrorAcked s).pwr.energy = s.pwr.energy := by simp [mirrorAcked]
@[simp] theorem sealAlone_energy : (sealAlone s).pwr.energy = s.pwr.energy := by simp [sealAlone]
@[simp] theorem mirrorFails_energy : (mirrorFails s).pwr.energy = s.pwr.energy := by simp [mirrorFails]
@[simp] theorem mirrorTimeout_energy : (mirrorTimeout s).pwr.energy = s.pwr.energy := by unfold mirrorTimeout; split <;> simp
@[simp] theorem watchdogExpires_energy : (watchdogExpires s).pwr.energy = s.pwr.energy := by
  simp only [watchdogExpires]; (repeat' split) <;> simp
@[simp] theorem heartbeat_energy : (heartbeat u s).pwr.energy = s.pwr.energy := by simp [heartbeat]
@[simp] theorem failUnit_energy : (failUnit u n c s).pwr.energy = s.pwr.energy := by simp [failUnit]
@[simp] theorem failedUnit_energy : (failedUnit u s).pwr.energy = s.pwr.energy := by simp [failedUnit]
@[simp] theorem takeOver_energy : (takeOver u s).pwr.energy = s.pwr.energy := by simp [takeOver]
@[simp] theorem failQuiet_energy : (failQuiet u n c s).pwr.energy = s.pwr.energy := by simp [failQuiet]
@[simp] theorem fenceDrops_energy : (fenceDrops s).pwr.energy = s.pwr.energy := by simp [fenceDrops]
@[simp] theorem failFence_energy : (failFence u n c s).pwr.energy = s.pwr.energy := by simp [failFence]
@[simp] theorem failEnds_energy : (failEnds s).pwr.energy = s.pwr.energy := by simp [failEnds]
@[simp] theorem failStandby_energy : (failStandby u n s).pwr.energy = s.pwr.energy := by simp [failStandby]
@[simp] theorem declareFailed_energy : (declareFailed u n c s).pwr.energy = s.pwr.energy := by simp [declareFailed]
@[simp] theorem sqReports_energy (why : SqFault) : (sqReports u why s).pwr.energy = s.pwr.energy := by unfold sqReports; split <;> simp
@[simp] theorem lateAbort_energy : (lateAbort c s).pwr.energy = s.pwr.energy := by simp [lateAbort]
@[simp] theorem fenceDone_energy : (fenceDone s).pwr.energy = s.pwr.energy := by unfold fenceDone; split <;> simp
@[simp] theorem selfTested_energy : (selfTested u c s).pwr.energy = s.pwr.energy := by simp [selfTested]
@[simp] theorem resyncStart_energy : (resyncStart s).pwr.energy = s.pwr.energy := by simp [resyncStart]
@[simp] theorem resyncCopied_energy : (resyncCopied s).pwr.energy = s.pwr.energy := by simp [resyncCopied]
@[simp] theorem sqResult_energy : (sqResult n m s).pwr.energy = s.pwr.energy := by simp [sqResult]
@[simp] theorem overflowClear_energy : (overflowClear s).pwr.energy = s.pwr.energy := by simp [overflowClear]
@[simp] theorem resumeArm_energy : (resumeArm i s).pwr.energy = s.pwr.energy := by simp [resumeArm]
@[simp] theorem resumeAt_energy (r : RestartRec) : (resumeAt r s).pwr.energy = s.pwr.energy := by simp [resumeAt]
@[simp] theorem resumeWrite_energy : (resumeWrite v s).pwr.energy = s.pwr.energy := by simp only [resumeWrite]; (repeat' split) <;> simp
@[simp] theorem keepOut_energy : (keepOut u s).pwr.energy = s.pwr.energy := by unfold keepOut; split <;> simp
theorem sqEffect_energy {s₂ : State} (hs : sqEffect n s = some s₂) : s₂.pwr.energy = s.pwr.energy := by
  unfold sqEffect at hs
  split_ifs at hs <;> simp only [Option.map_eq_some_iff, Option.some.injEq] at hs <;> aesop
@[simp] theorem sqCmd_energy : (sqCmd n i s).pwr.energy = s.pwr.energy := by
  unfold sqCmd
  split
  · simp
  · split
    next h => simpa using sqEffect_energy _ _ h
    · simp

/-! ### Machine/Records.lean -/

@[simp] theorem resOut_energy (o : Res) (ho : Res.EnergyIs s.pwr.energy o) : EnergyIs s.pwr.energy (resOut s o) := by
  unfold resOut; split <;> simp_all
@[simp] theorem opRow_energy (bad : OpCheck) (f : ℕ → OpSt → State → Res) (hf : ∀ k o u, Res.EnergyIs u.pwr.energy (f k o u)) :
    EnergyIs s.pwr.energy (opRow n m bad f s) := by
  unfold opRow; (repeat' split) <;> simp_all
@[simp] theorem opStarts_energy : (opStarts n s).pwr.energy = s.pwr.energy := by simp [opStarts]
@[simp] theorem opFinal_energy : (opFinal n s).pwr.energy = s.pwr.energy := by simp [opFinal]
@[simp] theorem nameInputs_energy (ll : List (ℕ × ℕ)) : (nameInputs ll s).pwr.energy = s.pwr.energy :=
  foldl_energy _ _ _ fun _ _ => by dsimp only; split <;> simp
@[simp] theorem countInputs_energy (ll : List (ℕ × ℕ)) : (countInputs ll s).pwr.energy = s.pwr.energy :=
  foldl_energy _ _ _ fun _ _ => by dsimp only; split <;> simp
@[simp] theorem withInputs_energy (li : List (ℕ × ℕ)) (f : List (List Byte) → State → Res) (hf : ∀ ins u, Res.EnergyIs u.pwr.energy
    (f ins u)) {e₀ : ℕ} (he : s.pwr.energy = e₀) :
    Res.EnergyIs e₀ (withInputs li f s) := by
  subst he
  unfold withInputs
  dsimp only
  split
  · simp
  · split
    case h_4 => simpa using hf _ (nameInputs li s)
    all_goals simp
@[simp] theorem stage_energy : (stage n m raw s).pwr.energy = s.pwr.energy := by unfold stage; split <;> simp
@[simp] theorem sendRecord_energy (cls : BitVec 2) : (sendRecord n b cls raw s).pwr.energy = s.pwr.energy := by simp [sendRecord]
@[simp] theorem takeRecord_energy (mine : BitVec 4 → List Byte → Bool) (f : BitVec 4 → List Byte → State → Res)
    (hf : ∀ k l u, Res.EnergyIs u.pwr.energy (f k l u)) :
    Res.EnergyIs s.pwr.energy (takeRecord b u n m mine f s) := by
  unfold takeRecord
  dsimp only
  split
  · simp
  next fl _ =>
  split
  · simp
  split
  · simp
  next x y _ =>
  split
  · simp
  · have taken := hf fl.attempt y (onBeam b (handOn u ((recordAt m ((atHand s.beam[b] u).length + 1) (atHand s.beam[b] u) 0).1 + x) 0) s)
    split
    next heq => rw [heq] at taken; simpa using taken
    · simp
@[simp] theorem recordRow_energy (form : SegForm) (fits : OpSt → Bool) (cls : OpSt → Fin 2) (len : OpSt → ℕ)
    (f : OpSt → BitVec 4 → List Byte → State → Res) (hf : ∀ o k l u, Res.EnergyIs u.pwr.energy (f o k l u)) :
    EnergyIs s.pwr.energy (recordRow b n m form fits cls len f s) := by
  unfold recordRow; (repeat' split) <;> simp_all
@[simp] theorem noteSeen_energy (form : SegForm) : (noteSeen n b r form c raw s).pwr.energy = s.pwr.energy := by simp [noteSeen]
@[simp] theorem admitRec_energy (form : SegForm) : (admitRec n b r form raw body m s c).pwr.energy = s.pwr.energy := by simp [admitRec]

/-! ### Machine/Gate.lean -/

@[simp] theorem gateRoutes_energy (p : List GateRec) (ins : List (List Byte)) : (gateRoutes op p ins s).pwr.energy = s.pwr.energy := by
  simp only [gateRoutes]; (repeat' split) <;> simp
@[simp] theorem gateBias_energy (p : List GateRec) (ins : List (List Byte)) : (gateBias op p ins s).pwr.energy = s.pwr.energy := by
  unfold gateBias; split <;> simp
@[simp] theorem gateRun_energy {e₀ : ℕ} (he : s.pwr.energy = e₀) : Res.EnergyIs e₀ (gateRun n op s) := by simp [gateRun, he]

/-! ### Machine/Moe.lean -/

@[simp] theorem stageLocal_energy (final : List Copy) : (stageLocal op final s).pwr.energy = s.pwr.energy := by simp [stageLocal]
@[simp] theorem sendDispatch_energy (q : List Tentative) (final : List Copy) : (sendDispatch n q final s).pwr.energy = s.pwr.energy := by
  simp [sendDispatch]
@[simp] theorem dispatchCopies_energy (sent : List Copy) (stay : List Copy) (fresh : List Copy) {e₀ : ℕ} (he : s.pwr.energy = e₀) :
    Res.EnergyIs e₀ (dispatchCopies n op raw sent stay fresh s) := by
  simp [dispatchCopies, he]
@[simp] theorem dispatchPlain_energy : Res.EnergyIs s.pwr.energy (dispatchPlain n op s) := by
  refine withInputs_energy _ _ _ (fun ins u => ?_) rfl
  dsimp only
  split
  · simp
  · split <;> simp
@[simp] theorem dispatchAhead_energy : Res.EnergyIs s.pwr.energy (dispatchAhead n op s) := by
  unfold dispatchAhead
  dsimp only
  split
  · simp
  · refine withInputs_energy _ _ _ (fun ins u => ?_) rfl
    split <;> simp
@[simp] theorem windowEnter_energy (a : ℕ × ℕ × ℕ) {e₀ : ℕ} (he : s.pwr.energy = e₀) : Res.EnergyIs e₀ (windowEnter b a r raw s) := by
  simp only [windowEnter]; (repeat' split) <;> simp [he]
@[simp] theorem execTentativeDispatch_energy : EnergyIs s.pwr.energy (execTentativeDispatch b n s) := by
  unfold execTentativeDispatch
  split
  · simp
  · split
    · simp
    · exact resOut_energy _ _ (takeRecord_energy _ _ _ _ _ _ _ fun r l u => windowEnter_energy _ _ _ _ _ rfl)
@[simp] theorem resolve_energy (w : WindowEntry) : (resolve w c s).pwr.energy = s.pwr.energy := by simp [resolve]
@[simp] theorem marker_energy : (marker n b c r raw s).pwr.energy = s.pwr.energy := by unfold marker; split <;> simp
@[simp] theorem sendReturns_energy : (sendReturns n op raw s).pwr.energy = s.pwr.energy :=
  foldl_energy _ _ _ fun _ _ => by dsimp only; split <;> simp
@[simp] theorem combFinish_energy {e₀ : ℕ} (he : s.pwr.energy = e₀) : Res.EnergyIs e₀ (combFinish n op raw body s) := by
  simp [combFinish, he]
@[simp] theorem combAdvance_energy {e₀ : ℕ} (he : s.pwr.energy = e₀) : Res.EnergyIs e₀ (combAdvance n op s) := by
  refine withInputs_energy _ _ _ (fun ins u => ?_) he
  split <;> simp
@[simp] theorem execCombine_energy : EnergyIs s.pwr.energy (execCombine n s) := by
  refine opRow_energy _ _ _ _ _ fun k o t => withInputs_energy _ _ _ (fun ins u => ?_) rfl
  exact combAdvance_energy _ _ _ (by simp)

/-! ### Machine/Wire.lean -/

@[simp] theorem sendSegs_energy (cls : BitVec 2) (l : List (ℕ × List Byte)) : (sendSegs n m b cls k l s).pwr.energy = s.pwr.energy := by
  simp [sendSegs]

/-! ### Machine/Coll.lean -/

@[simp] theorem sendEach_energy (cls : BitVec 2) (l : List Route) (segs : List (ℕ × List Byte)) :
    (sendEach n m cls l segs s).pwr.energy = s.pwr.energy := by
  simp [sendEach]
theorem exponentStep_energy (own : List ℕ) {f : State × Option (List ℕ)} (hf : exponentStep n op own s = .ok f) : f.1.pwr.energy = s.pwr.energy := by
  unfold exponentStep at hf
  dsimp only at hf
  (repeat' split at hf) <;> cases hf <;> simp
@[simp] theorem reduceDone_energy : (reduceDone n op raw s).pwr.energy = s.pwr.energy := by simp [reduceDone]
@[simp] theorem valueStep_energy (codes : List ℕ) {e₀ : ℕ} (he : s.pwr.energy = e₀) : Res.EnergyIs e₀ (valueStep n op raw codes s) := by
  simp only [valueStep]; (repeat' split) <;> simp [he]
@[simp] theorem allreduceBody_energy (ins : List (List Byte)) {e₀ : ℕ} (he : s.pwr.energy = e₀) : Res.EnergyIs e₀ (allreduceBody n op ins s) := by
  unfold allreduceBody
  dsimp only
  split
  · split
    · simp
    next h => simpa [he] using exponentStep_energy _ _ _ _ h
    next h => exact valueStep_energy _ _ _ _ _ ((exponentStep_energy _ _ _ _ h).trans he)
  · simp [he]
@[simp] theorem scatterCodes_energy (own : List ℕ) : (scatterCodes n op own s).pwr.energy = s.pwr.energy := by simp [scatterCodes]
@[simp] theorem scatterSends_energy (codes : List ℕ) : (scatterSends n op raw codes s).pwr.energy = s.pwr.energy := by simp [scatterSends]
@[simp] theorem reducescatterBody_energy (ins : List (List Byte)) {e₀ : ℕ} (he : s.pwr.energy = e₀) :
    Res.EnergyIs e₀ (reducescatterBody n op ins s) := by
  simp only [reducescatterBody]; (repeat' split) <;> simp [he]
@[simp] theorem stageChunk_energy (f : Elem) (l : List (List Byte)) : (stageChunk f n m k l s).pwr.energy = s.pwr.energy := by
  simp [stageChunk]
@[simp] theorem allgatherBody_energy (ins : List (List Byte)) {e₀ : ℕ} (he : s.pwr.energy = e₀) : Res.EnergyIs e₀ (allgatherBody n op ins s) := by
  unfold allgatherBody
  extract_lets f rt own rx mine s1 got hv s2
  have h1 : s1.pwr.energy = e₀ := by simp [s1, he]
  have h2 : s2.pwr.energy = e₀ := (foldl_energy _ _ _ fun _ _ => by dsimp only; split <;> simp).trans h1
  split
  · simp
  · split <;> simp [h2]
@[simp] theorem sendPiecesOf_energy (ls : List (Route × ℕ)) : (sendPiecesOf n op m raw ls k j s).pwr.energy = s.pwr.energy := by
  induction ls generalizing s k j with
  | nil => rfl
  | cons e r ih => simp [sendPiecesOf, ih]
@[simp] theorem alltoallvBody_energy (ins : List (List Byte)) {e₀ : ℕ} (he : s.pwr.energy = e₀) : Res.EnergyIs e₀ (alltoallvBody n op ins s) := by
  simp [alltoallvBody, he]
@[simp] theorem broadcastOn_energy : (broadcastOn n op raw s).pwr.energy = s.pwr.energy := by simp [broadcastOn]
@[simp] theorem broadcastBody_energy (ins : List (List Byte)) {e₀ : ℕ} (he : s.pwr.energy = e₀) : Res.EnergyIs e₀ (broadcastBody n op ins s) := by
  simp only [broadcastBody]; (repeat' split) <;> simp [he]
@[simp] theorem streamBody_energy (ins : List (List Byte)) {e₀ : ℕ} (he : s.pwr.energy = e₀) : Res.EnergyIs e₀ (streamBody n op ins s) := by
  simp only [streamBody]; (repeat' split) <;> simp [he]
@[simp] theorem collBody_energy (ins : List (List Byte)) {e₀ : ℕ} (he : s.pwr.energy = e₀) : Res.EnergyIs e₀ (collBody n op ins s) := by
  simp [collBody, he]
@[simp] theorem collStart_energy {e₀ : ℕ} (he : s.pwr.energy = e₀) : Res.EnergyIs e₀ (collStart n op s) := by simp [collStart, he]
@[simp] theorem execCollectiveSegment_energy (form : SegForm) : EnergyIs s.pwr.energy (execCollectiveSegment b n form m s k) := by
  refine recordRow_energy _ _ _ _ _ _ _ _ _ fun o r l u => ?_
  dsimp only
  split
  · exact withInputs_energy _ _ _ (fun ins u => collBody_energy _ _ _ _ rfl) (by simp)
  · simp
@[simp] theorem ceCtrl_energy : (ceCtrl v s).pwr.energy = s.pwr.energy := by simp [ceCtrl]

/-! ### Machine/Deliver.lean -/

@[simp] theorem dataFlitMeaning_energy (words : List LineWord) (code : CodeResult) :
    (dataFlitMeaning b raw words code s).pwr.energy = s.pwr.energy := by
  simp [dataFlitMeaning]
@[simp] theorem tokenMsg_energy : (tokenMsg raw s).pwr.energy = s.pwr.energy := by simp [tokenMsg]
@[simp] theorem slotMsg_energy (m : Slot) : (slotMsg x m s).pwr.energy = s.pwr.energy := by simp [slotMsg]
@[simp] theorem sidebandRx_energy : (sidebandRx t raw s).pwr.energy = s.pwr.energy := by simp [sidebandRx]
@[simp] theorem decodedRx_energy (c' : ℕ × ℕ × List Byte) : (decodedRx t q c c' s).pwr.energy = s.pwr.energy := by simp [decodedRx]
@[simp] theorem wordCounted_energy : (wordCounted t q s).pwr.energy = s.pwr.energy := by simp [wordCounted]
@[simp] theorem qualRx_energy (d : Option (List Sym × List ℕ)) : (qualRx t q d s).pwr.energy = s.pwr.energy := by
  unfold qualRx; split <;> simp
@[simp] theorem codewordRx_energy (w : List Sym) : (codewordRx t q w s).pwr.energy = s.pwr.energy := by
  simp only [codewordRx]; (repeat' split) <;> simp

/-! ### Machine/Write.lean -/

@[simp] theorem w1cVec_energy (f : State → State) : (w1cVec n v f s).pwr.energy = (f s).pwr.energy := by simp [w1cVec]
@[simp] theorem writeGlb_energy : (writeGlb n v s).pwr.energy = s.pwr.energy := by simp [writeGlb]
@[simp] theorem txCtrlWrite_energy (c : MbxTx) : (txCtrlWrite c v s).pwr.energy = s.pwr.energy := by simp [txCtrlWrite]
@[simp] theorem txWord_energy (c : MbxTx) : (txWord c n v s).pwr.energy = s.pwr.energy := by simp [txWord]
@[simp] theorem rxWord_energy (c : MbxRx) : (rxWord c n v s).pwr.energy = s.pwr.energy := by simp [rxWord]
@[simp] theorem writeMbx_energy : (writeMbx n v s).pwr.energy = s.pwr.energy := by simp [writeMbx]
@[simp] theorem writeDbl_energy : (writeDbl n v s).pwr.energy = s.pwr.energy := by simp [writeDbl]
@[simp] theorem writeLck_energy (m : Master) : (writeLck m n v s).pwr.energy = s.pwr.energy := by simp [writeLck]
@[simp] theorem echoWrite_energy : (echoWrite v s).pwr.energy = s.pwr.energy := by simp [echoWrite]
@[simp] theorem writeErr_energy : (writeErr n v s).pwr.energy = s.pwr.energy := by simp [writeErr]
@[simp] theorem writePwr_energy : (writePwr n v s).pwr.energy = s.pwr.energy := by simp [writePwr]
@[simp] theorem writeThm_energy : (writeThm n v s).pwr.energy = s.pwr.energy := by simp [writeThm]
@[simp] theorem writeMgt_energy : (writeMgt n v s).pwr.energy = s.pwr.energy := by simp [writeMgt]
@[simp] theorem writeSec_energy : (writeSec n v s).pwr.energy = s.pwr.energy := by simp [writeSec]
@[simp] theorem writeSq_energy : (writeSq n v s).pwr.energy = s.pwr.energy := by simp [writeSq]
@[simp] theorem writeCe_energy : (writeCe n v s).pwr.energy = s.pwr.energy := by simp [writeCe]
@[simp] theorem writePln_energy : (writePln n v s).pwr.energy = s.pwr.energy := by simp [writePln]
@[simp] theorem writeBeam_energy : (writeBeam n v s).pwr.energy = s.pwr.energy := by simp [writeBeam]
@[simp] theorem writePrt_energy : (writePrt n v s).pwr.energy = s.pwr.energy := by simp [writePrt]
@[simp] theorem writeSite_energy : (writeSite n x m v s).pwr.energy = s.pwr.energy := by simp [writeSite]
@[simp] theorem writeWp_energy : (writeWp n v s).pwr.energy = s.pwr.energy := by simp [writeWp]
@[simp] theorem injectByKind_energy : (injectByKind v s).pwr.energy = s.pwr.energy := by simp [injectByKind]
@[simp] theorem writeTp_energy : (writeTp n v s).pwr.energy = s.pwr.energy := by simp [writeTp]
@[simp] theorem writeHbm_energy : (writeHbm n v s).pwr.energy = s.pwr.energy := by simp [writeHbm]
@[simp] theorem writeMsix_energy : (writeMsix n v s).pwr.energy = s.pwr.energy := by simp [writeMsix]
@[simp] theorem writeReg_energy (m : Master) : (writeReg m n v s).pwr.energy = s.pwr.energy := by simp [writeReg]
@[simp] theorem readWord_energy (m : Master) : (readWord m n s).pwr.energy = s.pwr.energy := by simp [readWord]

end

end Sys2Proof.Machine
end

section
/-!
PROOFS. PWR_ENERGY counts every sample, and nothing but a reset of the whole device changes it otherwise (chapter 14, R413).
-/

namespace Sys2Proof.Machine

/-- No command but POWER_SAMPLE and those that reset the whole device changes the energy (R413). -/
theorem exec_energy (c : Instr) (s : State) (hc : c.resets = false) (hp : ∀ r l, c ≠ .powerSample r l) : EnergyIs s.pwr.energy (exec c s) := by
  cases c with
  | powerOn | powerOff | resetAssert | supplyFault => cases hc
  | powerSample r l => exact absurd rfl (hp r l)
  | resetRelease | penumbraEntry | combGroupStart | combLockTimeout | stackTrainingDone | litEntryStart | litEntryComplete | devPenumbraTimeout |
    pcieFunctionReset | fullCommitComplete =>
    unfold exec
    simp [execResetRelease, execPenumbraEntry, execCombGroupStart, execCombLockTimeout, execStackTrainingDone, execLitEntryStart,
      execLitEntryComplete, execDevPenumbraTimeout, execPcieFunctionReset, execFullCommitComplete]
  | fwReady | fwWatchdog | lockstepDisagreement | undefinedCommand | mgtCapMgmtWrite | mgtQuery | fwBegin | fwEraseDone | fwChunk |
    fwChunkProgrammed | fwVerify | fwActivate | fwConfirm | attest | attestSigned | combSwap | combSwapDone | fatalRead | fatalClear |
    fatalPersisted | i3cAddressAssign | i3cPrivateWrite | i3cPrivateRead | i3cMbxGo | i3cRspClear | fwVerifyComplete | fwActivateComplete |
    fwConfirmComplete | fatalClearComplete =>
    unfold exec
    simp [execFwReady, execFwWatchdog, execLockstepDisagreement, execUndefinedCommand, execMgtCapMgmtWrite, execMgtQuery, execFwBegin,
      execFwEraseDone, execFwChunk, execFwChunkProgrammed, execFwVerify, execFwActivate, execFwConfirm, execAttest, execAttestSigned, execCombSwap,
      execCombSwapDone, execFatalRead, execFatalClear, execFatalPersisted, execI3cAddressAssign, execI3cPrivateWrite, execI3cPrivateRead,
      execI3cMbxGo, execI3cRspClear, execFwVerifyComplete, execFwActivateComplete, execFwConfirmComplete, execFatalClearComplete]
  | imgQuery | imgBegin | chunkMoved | imgVerify | verifyComplete | imgCommitFull | imgCommitRestart | imgAbort | replacementApply | bar2Write =>
    unfold exec
    simp [execImgQuery, execImgBegin, execChunkMoved, execImgVerify, execVerifyComplete, execImgCommitFull, execImgCommitRestart, execImgAbort,
      execReplacementApply, execBar2Write]
  | replacementCopyDone | switchAnchor | switchTimeout | initTimeout | creditTimeout | retrainRequest | retrainGo | retrainTimeout | train |
    portTrainingStep | portTrainingTimeout | prtCmdRetrain | prtCmdHold | prtCmdRelease | combDieFailure | openFibre | moduleFrame | laneMapApply |
    parity | sidebandFailed | clockLossDetected | tpTrainingStep | stackChannelLoss =>
    unfold exec
    simp [execReplacementCopyDone, execSwitchAnchor, execSwitchTimeout, execInitTimeout, execCreditTimeout, execRetrainRequest, execRetrainGo,
      execRetrainTimeout, execTrain, execPortTrainingStep, execPortTrainingTimeout, execPrtCmdRetrain, execPrtCmdHold, execPrtCmdRelease,
      execCombDieFailure, execOpenFibre, execModuleFrame, execLaneMapApply, execParity, execSidebandFailed, execClockLossDetected,
      execTpTrainingStep, execStackChannelLoss]
  | nop | phase | wait | issue | token | notify | select | prefetch | hint | commit | setlc | branch | call | ret | halt | tokenArrival |
    operationDone =>
    unfold exec
    simp [execNop, execPhase, execWait, execIssue, execToken, execNotify, execSelect, execPrefetch, execHint, execCommit, execSetlc, execBranch,
      execCall, execRet, execHalt, execTokenArrival, execOperationDone]
  | mirrorRecord | mirrorAck | mirrorAckTimeout | phaseWatchdogExpiry | heartbeatSend | heartbeatTimeout | sequencerFailureSignal |
    fenceAcknowledged | selfTestComplete | resyncTimer | resyncCopyDone | sqResumeGo | sqResumeRelease | sqCmdForceFailover | sqCmdResyncStandby |
    sqCmdTakeBackNow | sqCmdKeepStandbyOut | sqCmdReadmit =>
    unfold exec
    simp [execMirrorRecord, execMirrorAck, execMirrorAckTimeout, execPhaseWatchdogExpiry, execHeartbeatSend, execHeartbeatTimeout,
      execSequencerFailureSignal, execFenceAcknowledged, execSelfTestComplete, execResyncTimer, execResyncCopyDone, execSqResumeGo,
      execSqResumeRelease, execSqCmdForceFailover, execSqCmdResyncStandby, execSqCmdTakeBackNow, execSqCmdKeepStandbyOut, execSqCmdReadmit]
  | gate =>
    unfold exec
    simp [execGate]
  | dispatch | dispatchRecord | combineReturn | commitMarker | cancelMarker =>
    unfold exec
    simp [execDispatch, execDispatchRecord, execCombineReturn, execCommitMarker, execCancelMarker]
  | allreduce | reducescatter | allgather | alltoallv | broadcast | stream | ceCtrlWrite =>
    unfold exec
    simp [execAllreduce, execReducescatter, execAllgather, execAlltoallv, execBroadcast, execStream, execCeCtrlWrite]
  | switchArrival | lineRelock | switchComplete | retrainDeskewDone | retrainReady | switchStall =>
    unfold exec
    simp [execSwitchArrival, execLineRelock, execSwitchComplete, execRetrainDeskewDone, execRetrainReady, execSwitchStall]
  | dataFlit | sbToken | reachCodeword =>
    unfold exec
    simp [execDataFlit, execSbToken, execReachCodeword]
  | idleFlit | nak | switchIdle | init | initResend | retransmitTimerExpiry | replayEntryGrant | retrainRequestResend | flitBoundary =>
    unfold exec
    simp [execIdleFlit, execNak, execSwitchIdle, execInit, execInitResend, execRetransmitTimerExpiry, execReplayEntryGrant,
      execRetrainRequestResend, execFlitBoundary]
  | lineMarker | lineMarkerSend | lineAlignmentLost | l00LockLost | substitutionRequest | substitutionGo | substitutionApplied | substitutionRepeat
    | substitutionMarker | lineRequalify | requalifyEnd =>
    unfold exec
    simp [execLineMarker, execLineMarkerSend, execLineAlignmentLost, execL00LockLost, execSubstitutionRequest, execSubstitutionGo,
      execSubstitutionApplied, execSubstitutionRepeat, execSubstitutionMarker, execLineRequalify, execRequalifyEnd]
  | ringLoopVisit | ringZoneSample | samplerTrim | hintLearn | calibrationStart | calibrationComplete | calibrationOverdue | glintCalibrationDone |
    sbHint =>
    unfold exec
    simp [execRingLoopVisit, execRingZoneSample, execSamplerTrim, execHintLearn, execCalibrationStart, execCalibrationComplete,
      execCalibrationOverdue, execGlintCalibrationDone, execSbHint]
  | gridLoop | biasLoop | combThermalReduction | agingLogWrite | spareGainRamp | spareCombLocked | probeStart | probeLightReceived | qclkLoss |
    rxPowerWarning | probeEnd =>
    unfold exec
    simp [execGridLoop, execBiasLoop, execCombThermalReduction, execAgingLogWrite, execSpareGainRamp, execSpareCombLocked, execProbeStart,
      execProbeLightReceived, execQclkLoss, execRxPowerWarning, execProbeEnd]
  | retry | level | creditInit | credit | creditReturnTimer | mbxData | mbxGo | mbxResp | doorbell | lock | sbReservedMessage | sbResendTimeout |
    siteResetRelease =>
    unfold exec
    simp [execRetry, execLevel, execCreditInit, execCredit, execCreditReturnTimer, execMbxData, execMbxGo, execMbxResp, execDoorbell, execLock,
      execSbReservedMessage, execSbResendTimeout, execSiteResetRelease]
  | laneMap | repair | laneMarker | tpMarkerSend | trainingFrame | fomMeasurement | tpTrainingTimeout | retestStart | retestComplete | tpCmdRetrain
    | tpCmdHold | tpCmdRelease | tpCmdRetestQuad | tpCmdEnterTest | tpCmdLeaveTest | tpPatCtrlWrite | tpInjectSingleBit | tpInjectSymbols |
    tpInjectMarker | tpInjectSbCrc | tpInjectStop | tpInjectRepeat | sidebandFrameSend | reachCodewordSend =>
    unfold exec
    simp [execLaneMap, execRepair, execLaneMarker, execTpMarkerSend, execTrainingFrame, execFomMeasurement, execTpTrainingTimeout, execRetestStart,
      execRetestComplete, execTpCmdRetrain, execTpCmdHold, execTpCmdRelease, execTpCmdRetestQuad, execTpCmdEnterTest, execTpCmdLeaveTest,
      execTpPatCtrlWrite, execTpInjectSingleBit, execTpInjectSymbols, execTpInjectMarker, execTpInjectSbCrc, execTpInjectStop, execTpInjectRepeat,
      execSidebandFrameSend, execReachCodewordSend]
  | repairStart | repairTestEnd | wpTrainingStep | wpTrainingTimeout | wpCmdRetrain | wpCmdHold | wpCmdRelease | wpCmdRepairModule | moduleFrameSend
    =>
    unfold exec
    simp [execRepairStart, execRepairTestEnd, execWpTrainingStep, execWpTrainingTimeout, execWpCmdRetrain, execWpCmdHold, execWpCmdRelease,
      execWpCmdRepairModule, execModuleFrameSend]
  | bar4Read | bar4Write | hbmApertureWrite | hbmScrubWrite | scrubStep =>
    unfold exec
    simp [execBar4Read, execBar4Write, execHbmApertureWrite, execHbmScrubWrite, execScrubStep]
  | hbmStackPoll | capPeriodStart | vralertAssert | vralertHoldEnd | droopDetect | droopClear | droopClear1us | thermalSample | junctionTrip |
    clusterAgingCheck | pwrCtrlWrite | pwrCapHostWrite | thmWarnWrite | sensorSnapshot | vralertRelease =>
    unfold exec
    simp [execHbmStackPoll, execCapPeriodStart, execVralertAssert, execVralertHoldEnd, execDroopDetect, execDroopClear, execDroopClear1us,
      execThermalSample, execJunctionTrip, execClusterAgingCheck, execPwrCtrlWrite, execPwrCapHostWrite, execThmWarnWrite, execSensorSnapshot,
      execVralertRelease]
  | mbxTake | mailboxTimeout | dblFwRing | dblSiteRing | lckAcquire | lckRelease | pcieLinkChange | poisonedTlp | errCtrlRelease | errEchoLine |
    errEchoFibre | errEchoModule | errEchoStop | echoNonceReturn | echoNotLooped | functionPowerStateWrite =>
    unfold exec
    simp [execMbxTake, execMailboxTimeout, execDblFwRing, execDblSiteRing, execLckAcquire, execLckRelease, execPcieLinkChange, execPoisonedTlp,
      execErrCtrlRelease, execErrEchoLine, execErrEchoFibre, execErrEchoModule, execErrEchoStop, execEchoNonceReturn, execEchoNotLooped,
      execFunctionPowerStateWrite]
  | lowWordRead | registerWrite =>
    unfold exec
    simp [execLowWordRead, execRegisterWrite]
  | imgChunk | devPenumbra | switch | fetchComplete | combine | tentativeDispatch | collectiveSegment | switchRingsSet | railSettled |
    thermalCeilingStep | mbxSend | msixUnmask =>
    unfold exec
    simp

/-- What POWER_SAMPLE does before the controller settles: P and its energy are taken, and the cap controller runs once (R412, R413, R422). -/
def sampleEffect (rails : List RailSample) (tiles : List Nat) (s : State) : State :=
  let p := inputPower rails
  capStep p (tileSample tiles (onPwr (fun q => { q with samples := (p :: q.samples).take 100, energy := q.energy + 10 * p }) s))

theorem exec_powerSample (rails : List RailSample) (tiles : List Nat) (s : State) :
    exec (.powerSample rails tiles) s = run (pwrSettle (sampleEffect rails tiles)) s := rfl

theorem sampleEffect_energy (rails : List RailSample) (tiles : List Nat) (s : State) :
    (sampleEffect rails tiles s).pwr.energy = s.pwr.energy + 10 * inputPower rails := by
  rw [sampleEffect, capStep_energy, tileSample_energy, onPwr_pwr]

/-- A sample of a running device adds P × 10 µs (R413). -/
theorem powerSample_adds_energy (rails : List RailSample) (tiles : List Nat) (s : State) (hs : running s = true) :
    ∃ t, exec (.powerSample rails tiles) s = .next t ∧ t.pwr.energy = s.pwr.energy + 10 * inputPower rails := by
  simpa [exec_powerSample, sampleEffect_energy] using run_answers (pwrSettle (sampleEffect rails tiles)) s hs

@[simp] theorem resetBase_energy (s : State) : (resetBase s).pwr.energy = 0 := rfl

@[simp] theorem deviceReset_energy (s : State) : (deviceReset s).pwr.energy = 0 := rfl

/-- An assertion of a reset input clears the energy (R413, R483). -/
theorem resetAssert_clears_energy (p : ResetPin) (us : Nat) (s : State) (hp : s.dev.powered = true) (hus : 10 ≤ us) :
    ∃ t, exec (.resetAssert p us) s = .next t ∧ t.pwr.energy = 0 :=
  ⟨_, rfl, by simp [resetAssert, Nat.not_lt.mpr hus, hp]⟩

/-- A power-off clears the energy (R413, R482). -/
theorem powerOff_clears_energy (s : State) (hp : s.dev.powered = true) : ∃ t, exec .powerOff s = .next t ∧ t.pwr.energy = 0 :=
  ⟨_, rfl, by simp [powerOff, hp]⟩

/-- Settles O56: each command keeps the energy by the line of its effect, but for the sample, which adds to it, and the resets. -/
theorem energyCountsEverySample : Obligations.EnergyCountsEverySample :=
  ⟨rfl, powerSample_adds_energy, fun c s _ ht hc hp => (exec_energy c s hc hp).of_next ht, resetAssert_clears_energy, powerOff_clears_energy,
    fun _ => ⟨rfl, rfl⟩⟩

end Sys2Proof.Machine
end

section
/-!
PROOFS. The words that LCK_n and LCK_HELD return, and what an acquire and a release do to the owners (chapter 16, R474, Table 16.16).
-/

namespace Sys2Proof.Machine

/-! ### The answer of a running device -/

/-- A running device answers the state after the effect, its interrupts settled. -/
theorem run_of_running (f : State → State) (s : State) (hs : running s = true) : run f s = .next (irqSettle (f s)) := by
  simp only [run, live, hs, if_true, done]

/-- Settling the interrupts takes back nothing that was sent. -/
theorem mem_out_irqSettle {e : Emission} {s : State} (h : e ∈ s.out) : e ∈ (irqSettle s).out := List.mem_append_right _ h

/-! ### Register words -/

/-- Bit `i` of a packed list of bits is entry `i`, and 0 past the end. -/
theorem boolsNat_testBit (l : List Bool) (i : Nat) : (boolsNat l).testBit i = l[i]?.getD false := by
  induction l generalizing i with
  | nil => simp [boolsNat]
  | cons b r ih =>
    have head : boolsNat (b :: r) = Nat.bit b (boolsNat r) := by
      cases b with
      | false => exact Nat.zero_add _
      | true => exact Nat.add_comm _ _
    rw [head]
    cases i with
    | zero => exact Nat.testBit_bit_zero b _
    | succ i => exact (Nat.testBit_bit_succ i b _).trans (ih i)

/-- A register that is one field has no bit to fill. -/
theorem fillReserved_whole (v n : Nat) : fillReserved (whole v) n = w32 v := by
  rw [fillReserved, whole, BitVec.and_allOnes, BitVec.not_allOnes, BitVec.and_zero, BitVec.or_zero]

/-- Table 16.16: got is bit 31 of LCK_n and the owner code bits 3:0. -/
theorem lckWord_value (got : Bool) (o : BitVec 4) : (lckWord got o).1 = (if got then 0x80000000#32 else 0#32) ||| o.setWidth 32 := by
  have code : w32 (o.toNat % 2 ^ 4 * 2 ^ 0) = o.setWidth 32 := by
    rw [Nat.mod_eq_of_lt o.isLt, pow_zero, Nat.mul_one]
    exact BitVec.ofNat_toNat 32 o
  have gotBit : w32 (b2n got % 2 ^ 1 * 2 ^ 31) = if got then 0x80000000#32 else 0#32 := by
    cases got with
    | false => rfl
    | true => rfl
  simp only [lckWord, mkReg, List.foldl_cons, List.foldl_nil, code, gotBit, BitVec.ofNat_eq_ofNat, BitVec.zero_or]

/-- Table 16.16: bits 30:4 of LCK_n are reserved. -/
theorem lckWord_mask (got : Bool) (o : BitVec 4) : (lckWord got o).2 = 0x8000000F#32 := by
  simp only [lckWord, mkReg, List.foldl_cons, List.foldl_nil]
  decide

/-- Whatever fills the reserved bits, bit 31 of LCK_n says whether the lock was got. -/
theorem fillReserved_lckWord_got (got : Bool) (o : BitVec 4) (n : Nat) : (fillReserved (lckWord got o) n).getLsbD 31 = got := by
  rw [fillReserved, lckWord_value, lckWord_mask]
  cases got with
  | false => simp
  | true => simp

/-- Whatever fills the reserved bits, bits 3:0 of LCK_n are the owner code. -/
theorem fillReserved_lckWord_owner (got : Bool) (o : BitVec 4) (n : Nat) : (fillReserved (lckWord got o) n).setWidth 4 = o := by
  have code : o &&& 15#4 = o := BitVec.and_allOnes
  rw [fillReserved, lckWord_value, lckWord_mask]
  cases got with
  | false => simpa [BitVec.setWidth_or, BitVec.setWidth_and] using code
  | true => simpa [BitVec.setWidth_or, BitVec.setWidth_and] using code

/-! ### Acquire and release -/

/-- An attempt succeeds exactly on a free lock (R474). -/
theorem acquire_got (o : BitVec 4) (n : Fin 32) (s : State) : (acquire o n s).1 = decide (s.lck.owner[n] = 0) := by
  unfold acquire
  split
  · next free => exact (decide_eq_true free).symm
  · next held => exact (decide_eq_false held).symm

/-- An attempt makes a free lock the master's and leaves a held one with its owner (R474). -/
theorem acquire_owner (o : BitVec 4) (n : Fin 32) (s : State) :
    (acquire o n s).2.lck.owner[n] = if s.lck.owner[n] = 0 then o else s.lck.owner[n] := by
  unfold acquire
  split
  · exact upd_self ..
  · rfl

/-- An attempt leaves every other lock (R474). -/
theorem acquire_owner_ne (o : BitVec 4) {n k : Fin 32} (hk : k ≠ n) (s : State) : (acquire o n s).2.lck.owner[k] = s.lck.owner[k] := by
  unfold acquire
  split
  · exact upd_ne _ _ _ _ hk.symm
  · rfl

/-- An attempt leaves the sites. -/
theorem acquire_site (o : BitVec 4) (n : Fin 32) (s : State) : (acquire o n s).2.site = s.site := by
  unfold acquire
  split
  · rfl
  · rfl

/-- The answer to a read of LCK_n changes no owner: they are as the attempt leaves them. -/
theorem lckRead_lck (m : Master) (n : Fin 32) (s : State) : (lckRead m n s).lck = (acquire (ownerCode m) n s).2.lck := by
  cases m with
  | mgmt => rfl
  | pcie => rfl
  | site x => exact sbSend_lck ..

/-- A release frees the lock of its owner and no other master's (R474). -/
theorem release_owner (o : BitVec 4) (n : Fin 32) (s : State) :
    (release o n s).lck.owner[n] = if s.lck.owner[n] = o then 0 else s.lck.owner[n] := by
  unfold release
  split
  · exact upd_self ..
  · rfl

/-- A release leaves every other lock (R474). -/
theorem release_owner_ne (o : BitVec 4) {n k : Fin 32} (hk : k ≠ n) (s : State) : (release o n s).lck.owner[k] = s.lck.owner[k] := by
  unfold release
  split
  · exact upd_ne _ _ _ _ hk.symm
  · rfl

end Sys2Proof.Machine
end

section
/-!
PROOFS. A lock has one owner: what the commands LCK_ACQUIRE and LCK_RELEASE and the read of LCK_HELD answer (chapter 16, R474).
-/

namespace Sys2Proof.Machine

/-! ### The answer to an attempt -/

/-- A message sent on a sideband that is up joins the end of its queue (R358). -/
theorem sbSend_queue (x : SiteIx) (typ : Byte) (body : List Byte) (s : State) (up : (s.site[x]).sb.up = true) :
    ((sbSend x typ body s).site[x]).sb.queue = (s.site[x]).sb.queue ++ [{ typ := typ, body := body }] := by
  rw [sbSend, onSite_site, upd_self, if_pos up]

/-- A site's attempt is answered by LOCK_RESP: the lock, whether it was got, and its owner after the attempt (R365, R474). -/
theorem lckRead_site (x : SiteIx) (n : Fin 32) (s : State) :
    lckRead (.site x) n s = sbSend x 0x1E (sbBody [BitVec.ofNat 8 n.val, if s.lck.owner[n] = 0 then 1 else 0,
      ((lckRead (.site x) n s).lck.owner[n]).setWidth 8]) (acquire (ownerCode (.site x)) n s).2 := by
  have gotByte : (if s.lck.owner[n] = 0 then 1 else 0) = BitVec.ofNat 8 (b2n (acquire (ownerCode (.site x)) n s).1) := by
    simp only [acquire_got, b2n, apply_ite (BitVec.ofNat 8), decide_eq_true_eq, BitVec.ofNat_eq_ofNat]
  rw [lckRead_lck, gotByte]
  rfl

/-- LOCK_RESP joins the site's queue when its sideband is up (R358, R474). -/
theorem lckRead_site_queue (x : SiteIx) (n : Fin 32) (s : State) (up : (s.site[x]).sb.up = true) :
    ((lckRead (.site x) n s).site[x]).sb.queue = (s.site[x]).sb.queue ++
      [{ typ := 0x1E, body := sbBody [BitVec.ofNat 8 n.val, if s.lck.owner[n] = 0 then 1 else 0,
        ((lckRead (.site x) n s).lck.owner[n]).setWidth 8] }] := by
  have sites := acquire_site (ownerCode (.site x)) n s
  conv_lhs => rw [lckRead_site, sbSend_queue _ _ _ _ (by rw [sites]; exact up), sites]

/-- The word that an attempt over a register path returns says whether the lock was got, and its owner after the attempt (R474). -/
theorem lckRead_word (m : Master) (n : Fin 32) (s : State) (path : ∀ x, m ≠ .site x) :
    ∃ w, Emission.regRead m (0x30000 + 4 * n.val) w ∈ (lckRead m n s).out ∧ w.getLsbD 31 = decide (s.lck.owner[n] = 0) ∧
      w.setWidth 4 = (lckRead m n s).lck.owner[n] := by
  refine ⟨fillReserved (lckWord (acquire (ownerCode m) n s).1 (acquire (ownerCode m) n s).2.lck.owner[n]) s.fresh, ?sent, ?got, ?owner⟩
  case sent =>
    cases m with
    | mgmt => exact List.mem_cons_self
    | pcie => exact List.mem_cons_self
    | site x => exact absurd rfl (path x)
  case got => rw [fillReserved_lckWord_got, acquire_got]
  case owner => rw [fillReserved_lckWord_owner, lckRead_lck]

/-! ### The commands -/

/-- LCK_ACQUIRE of a master whose path answers. -/
theorem exec_lckAcquire (m : Master) (n : Fin 32) (s : State) (hs : running s = true) (on : masterOn m s = true) :
    exec (.lckAcquire m n) s = .next (irqSettle (lckRead m n s)) := by
  refine (run_of_running _ s hs).trans ?_
  rw [if_pos on]

/-- A lock's number fills the field of LCK_RELEASE and sets no reserved bit. -/
theorem lckRelease_number (n : Fin 32) : fin! 32 (fld (w32 n.val) 4 0) = n ∧ w32 n.val &&& ~~~(0x1F : Word) = 0 := by
  revert n; decide

/-- LCK_RELEASE of a lock's number by a master whose path answers. -/
theorem exec_lckRelease (m : Master) (n : Fin 32) (s : State) (hs : running s = true) (on : masterOn m s = true) :
    exec (.lckRelease m (w32 n.val)) s = .next (irqSettle (release (ownerCode m) n s)) := by
  obtain ⟨number, reserved⟩ := lckRelease_number n
  have mask : (readReg s 0x30080).2 = 0x1F := rfl
  have good : rsvBad s 0x30080 (w32 n.val) = false := by rw [rsvBad, mask, reserved]; rfl
  have noError : execLckRelease m (w32 n.val) s = run (fun s => if masterOn m s then release (ownerCode m) n s else s) s := by
    simp only [execLckRelease, good, Bool.and_false, Bool.false_eq_true, if_false, number]
  refine noError.trans ((run_of_running _ s hs).trans ?_)
  rw [if_pos on]

/-- LCK_HELD holds a bit for each lock that has an owner (Table 16.16). -/
theorem readReg_lckHeld (s : State) : readReg s 0x30084 = whole (boolsNat (s.lck.owner.toList.map fun c => c != 0)) := rfl

/-- Bit `k` of LCK_HELD. -/
theorem lckHeld_bit (s : State) (n : Nat) (k : Fin 32) :
    (fillReserved (readReg s 0x30084) n).getLsbD k.val = decide (s.lck.owner[k] ≠ 0) := by
  rw [readReg_lckHeld, fillReserved_whole, w32, BitVec.getLsbD_ofNat, boolsNat_testBit]
  simp [bne, beq_eq_decide]

/-- A read of a register that is no LCK_n, with no latched word for the master, returns the register's word and leaves the locks (R13, R474). -/
theorem readWord_unlatched (m : Master) (off : Nat) (s : State) (noLock : isLock off = false) (unlatched : aget s.host.latch (m, off) = none) :
    (readWord m off s).lck = s.lck ∧ Emission.regRead m off (fillReserved (readReg s off) s.fresh) ∈ (readWord m off s).out := by
  simp [readWord, noLock, latchRead, unlatched, emit]

/-- A 32-bit aligned LOW_WORD_READ over a register path. -/
theorem exec_lowWordRead (m : Master) (off : Nat) (s : State) (hs : running s = true) (path : regPath m s = true)
    (aligned : accessOk off .b32 = true) : exec (.lowWordRead m off .b32) s = .next (irqSettle (readWord m off s)) := by
  have answered : execLowWordRead m off s = run (readWord m off) s := by simp [execLowWordRead, hs, path, aligned]
  exact answered.trans (run_of_running _ s hs)

/-- Settles O4: each command answers its effect on the owners, and the word or message it sends is built from the owners after it. -/
theorem locksHaveOneOwner : Obligations.LocksHaveOneOwner := by
  refine ⟨fun m n s hs on => ⟨_, exec_lckAcquire m n s hs on, ?taken, fun k hk => ?othersKept, ?answer⟩,
    fun m n s hs on => ⟨_, exec_lckRelease m n s hs on, ?freed, fun k hk => ?othersHeld⟩,
    fun m s hs path unlatched => ⟨_, exec_lowWordRead m 0x30084 s hs path rfl, ?same, ?held⟩⟩
  case taken => rw [irqSettle_lck, lckRead_lck, acquire_owner]
  case othersKept => rw [irqSettle_lck, lckRead_lck, acquire_owner_ne _ hk]
  case answer =>
    rw [irqSettle_lck]
    have word := lckRead_word m n s
    cases m with
    | site x =>
      rw [irqSettle_site]
      exact lckRead_site_queue x n s
    | mgmt =>
      obtain ⟨w, sent, fields⟩ := word nofun
      exact ⟨w, mem_out_irqSettle sent, fields⟩
    | pcie =>
      obtain ⟨w, sent, fields⟩ := word nofun
      exact ⟨w, mem_out_irqSettle sent, fields⟩
  case freed => rw [irqSettle_lck, release_owner]
  case othersHeld => rw [irqSettle_lck, release_owner_ne _ hk]
  case same =>
    obtain ⟨same, -⟩ := readWord_unlatched m 0x30084 s rfl unlatched
    rw [irqSettle_lck, same]
  case held =>
    obtain ⟨-, sent⟩ := readWord_unlatched m 0x30084 s rfl unlatched
    exact ⟨_, mem_out_irqSettle sent, lckHeld_bit s s.fresh⟩

end Sys2Proof.Machine
end

section
/-!
PROOFS. A step takes the front of the queue (log entry 23), and what the state after reset holds (chapter 17).
-/

-- In sequence: each worker of the elaborator takes its stack from the memory that a check may use.
set_option Elab.async false

namespace Sys2Proof.Machine

/-- Settles O51: `step` splits on the queue alone, and its empty case is one microsecond of idling. -/
theorem stepRunsTheFrontCommand : Obligations.StepRunsTheFrontCommand := by
  refine ⟨fun c r s front => ?front, fun s empty on => ⟨_, ?counts, rfl⟩, fun s empty off => ?stands, fun s n w => ⟨rfl, rfl⟩⟩
  case front => simp [step, front]
  case counts => simp [step, empty, idle, on]
  case stands => simp [step, empty, idle, off]

/-! ### Right after reset -/

@[simp] theorem reset_port (p : Port) : State.reset.port[p.val] = {} := Vector.getElem_replicate p.isLt

@[simp] theorem reset_site (x : SiteIx) : State.reset.site[x.val] = {} := Vector.getElem_replicate x.isLt

@[simp] theorem reset_beam (b : Beam) : State.reset.beam[b.val] = {} := Vector.getElem_replicate b.isLt

theorem reset_owner (n : Fin 32) : State.reset.lck.owner[n] = 0 := Vector.getElem_replicate n.isLt

/-- Every channel towards a receiver is empty and shows no outcome. -/
theorem reset_txChan (c : MbxTx) : (txChan State.reset c).go = false ∧ (txChan State.reset c).status = 0 := by
  cases c with
  | h2f n => decide +revert
  | h2d x n => decide +revert

theorem reset_f2h (c : Fin 16) : (State.reset.mbx.f2h[c]).go = false := by decide +revert

theorem reset_d2h (x : SiteIx) (c : Fin 8) : ((State.reset.mbx.d2h[x])[c]).go = false := by decide +revert

theorem memoryCanonical_reset : memoryCanonical State.reset := ⟨rfl, rfl, rfl, rfl, rfl, rfl⟩

/-- No die of a group without a start carries a current, and no port is on its way out of Dark. -/
theorem umbraDark_reset : umbraDark State.reset := by
  refine ⟨fun _ => ⟨rfl, fun g => ?group, fun p => ?port⟩, fun _ => rfl, fun _ => rfl⟩
  case group => decide +revert
  case port => simp

/-- MSI-X is disabled. -/
theorem openVectorsSent_reset : openVectorsSent State.reset := fun _ isOpen => Bool.noConfusion isOpen

/-- Settles O52: the parts of the reset state one by one. -/
theorem resetLeavesTheDeviceInUmbra : Obligations.ResetLeavesTheDeviceInUmbra :=
  ⟨rfl, rfl, rfl, rfl, rfl, rfl, rfl, rfl, fun p => by simp, fun x => by simp, fun b => by simp, reset_owner,
    rfl, rfl, rfl, reset_txChan, reset_f2h, reset_d2h, rfl, rfl, rfl, rfl, rfl, rfl, rfl, rfl, rfl, memoryCanonical_reset, umbraDark_reset,
    openVectorsSent_reset⟩

end Sys2Proof.Machine
end

section
/-!
PROOFS. Bit strings and bytes read back: little-endian numbers, chunks of bits, and the words, codewords and frames built from them (chapters 6, 8,
11 and 12).
-/

-- In sequence: each worker of the elaborator takes its stack from the memory that a check may use.
set_option Elab.async false

namespace Sys2Proof.Machine

/-! ### Little-endian numbers -/

theorem leNat_lt (l : List Byte) : leNat l < 256 ^ l.length := by
  induction l with
  | nil => simp [leNat]
  | cons b r ih =>
    have byte := b.isLt
    simp only [leNat, List.length_cons, pow_succ]
    omega

/-- The bytes of the number that bytes spell are those bytes. -/
theorem leBytes_leNat (l : List Byte) : leBytes l.length (leNat l) = l := by
  induction l with
  | nil => rfl
  | cons b r ih =>
    have byte : b.toNat < 256 := b.isLt
    have low : BitVec.ofNat 8 (b.toNat + 256 * leNat r) = b := by
      apply BitVec.eq_of_toNat_eq
      rw [BitVec.toNat_ofNat]
      omega
    have high : (b.toNat + 256 * leNat r) / 256 = leNat r := by omega
    simp only [leNat, List.length_cons, leBytes, low, high, ih]

/-! ### Bits of numbers -/

@[simp] theorem natBits_length (n x : Nat) : (natBits n x).length = n := by simp [natBits]

/-- The low bits of a number spell it. -/
theorem boolsNat_natBits {n x : Nat} (h : x < 2 ^ n) : boolsNat (natBits n x) = x := by
  refine Nat.eq_of_testBit_eq fun i => ?_
  rw [boolsNat_testBit, natBits]
  by_cases hi : i < n
  · simp [hi]
  · have above : x.testBit i = false := Nat.testBit_lt_two_pow (h.trans_le (Nat.pow_le_pow_right two_pos (by omega)))
    simp [hi, above]

theorem boolsNat_lt (l : List Bool) : boolsNat l < 2 ^ l.length := by
  induction l with
  | nil => simp [boolsNat]
  | cons b r ih =>
    have head : b2n b ≤ 1 := by cases b <;> decide
    have unfolded : boolsNat (b :: r) = b2n b + 2 * boolsNat r := rfl
    rw [unfolded, List.length_cons, pow_succ]
    omega

/-- The bits of the number that bits spell are those bits. -/
theorem natBits_boolsNat (l : List Bool) : natBits l.length (boolsNat l) = l := by
  refine List.ext_getElem (natBits_length _ _) fun i hi hl => ?_
  simp [natBits, boolsNat_testBit, hl]

/-- A word of `l.length` bits holds the bits `l`. -/
theorem natBits_ofNat_boolsNat {n : Nat} {l : List Bool} (h : l.length = n) : natBits n (BitVec.ofNat n (boolsNat l)).toNat = l := by
  subst h
  rw [BitVec.toNat_ofNat, Nat.mod_eq_of_lt (boolsNat_lt l), natBits_boolsNat]

theorem natBits_toNat {n : Nat} (v : BitVec n) : natBits n v.toNat = (List.range n).map fun i => v.getLsbD i := rfl

/-! ### Chunks -/

theorem chunksOf_length {α : Type} (k n : Nat) (l : List α) : (chunksOf k n l).length = n := by
  induction n generalizing l with
  | zero => rfl
  | succ n ih => rw [chunksOf, List.length_cons, ih]

/-- Pieces of `k` entries, each read back by `f`, are the list again. -/
theorem flatMap_chunksOf {α β : Type} (k n : Nat) (l : List α) (g : List α → β) (f : β → List α) (back : ∀ c, c.length = k → f (g c) = c)
    (h : l.length = n * k) : ((chunksOf k n l).map g).flatMap f = l := by
  induction n generalizing l with
  | zero =>
    rw [Nat.zero_mul] at h
    simp [chunksOf, List.eq_nil_of_length_eq_zero h]
  | succ n ih =>
    rw [Nat.succ_mul] at h
    have piece : (l.take k).length = k := by rw [List.length_take]; omega
    have rest : (l.drop k).length = n * k := by rw [List.length_drop]; omega
    rw [chunksOf, List.map_cons, List.flatMap_cons, back _ piece, ih _ rest, List.take_append_drop]

/-- A list made of pieces of `k` entries falls into those pieces. -/
theorem map_chunksOf_flatMap {α β : Type} (k : Nat) (l : List β) (f : β → List α) (g : List α → β) (size : ∀ b, (f b).length = k)
    (back : ∀ b, g (f b) = b) : (chunksOf k l.length (l.flatMap f)).map g = l := by
  induction l with
  | nil => rfl
  | cons b r ih =>
    rw [List.length_cons, chunksOf, List.flatMap_cons, List.take_left' (size b), List.drop_left' (size b), List.map_cons, back b, ih]

/-! ### Bits of bytes -/

theorem byteBits (b : Byte) : byteOf ((List.range 8).map fun i => b.getLsbD i) = b := by
  rw [← natBits_toNat, byteOf, boolsNat_natBits b.isLt, BitVec.ofNat_toNat, BitVec.setWidth_eq]

@[simp] theorem bitsOf_length (l : List Byte) : (bitsOf l).length = 8 * l.length := by
  simp [bitsOf, List.length_flatMap, Nat.mul_comm]

theorem bytesOf_bitsOf (l : List Byte) : bytesOf (bitsOf l) = l := by
  have count : (bitsOf l).length / 8 = l.length := by rw [bitsOf_length]; omega
  rw [bytesOf, count]
  exact map_chunksOf_flatMap 8 l _ byteOf (fun b => by simp) byteBits

/-- A list shorter than its frame is padded; one that fills it is not. -/
theorem take_append_replicate {α : Type} {n : Nat} {l : List α} (h : l.length = n) (a : α) : (l ++ List.replicate n a).take n = l :=
  List.take_left' h

/-! ### Numbers of a format (R173) -/

/-- A number of exponent field `ex` and mantissa field `m` rounds to the magnitude code of its fields (R167, R173). -/
theorem FFmt.round_normal (f : FFmt) {ex m : Nat} (hex : 0 < ex) (hm : m < 2 ^ f.mb) :
    f.round (2 ^ f.mb + m) ((ex : Int) - f.bias - f.mb) = ex * 2 ^ f.mb + m := by
  have positive : 0 < 2 ^ f.mb := Nat.two_pow_pos _
  have log : (2 ^ f.mb + m).log2 = f.mb := by
    rw [Nat.log2_eq_iff (by omega)]
    exact ⟨by omega, by rw [pow_succ]; omega⟩
  have exponent : max ((ex : Int) - f.bias - f.mb + f.mb) (1 - f.bias) = ex - f.bias := by omega
  have shift : (ex : Int) - f.bias - f.mb - (ex - f.bias - f.mb) = 0 := by omega
  have field : ((ex : Int) - f.bias + f.bias - 1).toNat = ex - 1 := by omega
  obtain ⟨k, rfl⟩ : ∃ k, ex = k + 1 := ⟨ex - 1, by omega⟩
  simp only [FFmt.round, log, exponent, shift, field, roundShift, le_refl, if_true, Int.toNat_zero, pow_zero, Nat.mul_one, Nat.add_sub_cancel,
    Nat.succ_mul]
  rw [if_neg (by omega)]
  omega

/-- A number of exponent field 0 rounds to its mantissa field (R167, R173). -/
theorem FFmt.round_subnormal (f : FFmt) {m : Nat} (hm : m < 2 ^ f.mb) : f.round m (1 - (f.bias : Int) - f.mb) = m := by
  by_cases zero : m = 0
  · simp [FFmt.round, zero]
  have log : m.log2 < f.mb := (Nat.log2_lt zero).mpr hm
  have exponent : max (1 - (f.bias : Int) - f.mb + (m.log2 : Int)) (1 - f.bias) = 1 - f.bias := by omega
  simp [FFmt.round, zero, exponent, roundShift]

/-- What a code holds beside its sign: what it decodes to when it is a number, by its fields (R167, R168). -/
theorem FFmt.round_of_decode (f : FFmt) {c : Nat} {n : Bool} {m : Nat} {e : Int} (h : f.decode c = .num n m e) :
    f.round m e = c % 2 ^ f.body ∧ n = (c / 2 ^ f.body % 2 == 1) := by
  have split : c % 2 ^ f.body / 2 ^ f.mb * 2 ^ f.mb + c % 2 ^ f.body % 2 ^ f.mb = c % 2 ^ f.body := Nat.div_add_mod' ..
  have mantissa : c % 2 ^ f.body % 2 ^ f.mb < 2 ^ f.mb := Nat.mod_lt _ (Nat.two_pow_pos _)
  unfold FFmt.decode at h
  dsimp only at h
  split_ifs at h with special zeroMantissa isNan zeroExponent
  · obtain ⟨rfl, rfl, rfl⟩ := FV.num.inj h
    refine ⟨?_, rfl⟩
    rw [f.round_subnormal mantissa]
    rw [zeroExponent] at split
    omega
  · obtain ⟨rfl, rfl, rfl⟩ := FV.num.inj h
    exact ⟨(f.round_normal (Nat.pos_of_ne_zero zeroExponent) mantissa).trans split, rfl⟩

/-- A format whose largest finite magnitude bounds every number code. -/
def FFmt.Bounded (f : FFmt) : Prop := ∀ (c : Nat) (n : Bool) (m : Nat) (e : Int), f.decode c = .num n m e → c % 2 ^ f.body ≤ f.top

/-- In a bounded format a number converts into its own code (R173). -/
theorem FFmt.encode_decode (f : FFmt) (hf : f.Bounded) {c : Nat} {n : Bool} {m : Nat} {e : Int} (hc : c < 2 ^ (f.body + 1))
    (h : f.decode c = .num n m e) : f.encode (f.decode c) = c := by
  obtain ⟨magnitude, sign⟩ := f.round_of_decode h
  have signBit : f.sign n = c / 2 ^ f.body * 2 ^ f.body := by
    have small : c / 2 ^ f.body < 2 := Nat.div_lt_of_lt_mul (by rw [← pow_succ]; exact hc)
    rw [sign, FFmt.sign]
    obtain zero | one := Nat.le_one_iff_eq_zero_or_eq_one.mp (Nat.le_of_lt_succ small)
    · simp [zero]
    · simp [one]
  rw [h, FFmt.encode, magnitude, if_pos (hf c n m e h), signBit]
  exact Nat.div_add_mod' ..

/-- In a format with the IEEE 754 exponent, a number lies below the infinity code. -/
theorem FFmt.bounded_of_ieee (f : FFmt) (hf : f.ieee = true) (top : (2 ^ f.eb - 1) * 2 ^ f.mb ≤ f.top + 1) : f.Bounded := by
  intro c n m e h
  have body : c % 2 ^ f.body < 2 ^ f.eb * 2 ^ f.mb := by
    rw [← Nat.pow_add]
    exact Nat.mod_lt _ (Nat.two_pow_pos _)
  have field : c % 2 ^ f.body / 2 ^ f.mb < 2 ^ f.eb := Nat.div_lt_of_lt_mul (by rwa [Nat.mul_comm])
  have finite : c % 2 ^ f.body / 2 ^ f.mb ≠ 2 ^ f.eb - 1 := by
    intro isTop
    simp only [FFmt.decode, hf, isTop, true_and, if_true] at h
    split at h <;> exact FV.noConfusion h
  have below : c % 2 ^ f.body < (2 ^ f.eb - 1) * 2 ^ f.mb := (Nat.div_lt_iff_lt_mul (Nat.two_pow_pos _)).mp (by omega)
  omega

/-- In a format without it, a number is any code but NaN's. -/
theorem FFmt.bounded_of_finite (f : FFmt) (hf : f.ieee = false) (top : ∀ x < 2 ^ f.body, f.nan ≠ some x → x ≤ f.top) : f.Bounded := by
  intro c n m e h
  refine top _ (Nat.mod_lt _ (Nat.two_pow_pos _)) fun isNan => ?_
  simp [FFmt.decode, hf, isNan] at h

/-! ### Flits and slots -/

/-- Bytes that spell a number are the bytes of that number. -/
theorem eq_leBytes_of_leNat {n x : Nat} {l : List Byte} (length : l.length = n) (h : leNat l = x) : l = leBytes n x := by
  rw [← h, ← length, leBytes_leNat]

/-- The two fields of a flit's first byte that are not flags, and its two flags, are all of it (Table 8.3). -/
theorem flit_byte0 (b : Byte) : BitVec.ofNat 8 ((BitVec.ofNat 4 b.toNat).toNat + 16 * (BitVec.ofNat 2 (b.toNat / 16)).toNat +
    64 * b2n (b.toNat / 64 % 2 == 1) + 128 * b2n (b.toNat / 128 % 2 == 1)) = b := by
  have byte : b.toNat < 256 := b.isLt
  have flag (n : Nat) : b2n (n % 2 == 1) = n % 2 := by
    obtain h | h := Nat.mod_two_eq_zero_or_one n <;> simp [h, b2n]
  apply BitVec.eq_of_toNat_eq
  simp only [flag, BitVec.toNat_ofNat, Nat.reducePow]
  omega

/-- The two fields of a flit's second byte are all of it (Table 8.3). -/
theorem flit_byte1 (b : Byte) : BitVec.ofNat 8 ((BitVec.ofNat 4 b.toNat).toNat + 16 * (BitVec.ofNat 4 (b.toNat / 16)).toNat) = b := by
  have byte : b.toNat < 256 := b.isLt
  apply BitVec.eq_of_toNat_eq
  simp only [BitVec.toNat_ofNat, Nat.reducePow]
  omega

/-- The credit selector and count of a flit are all of their two bytes (Table 8.3). -/
theorem flit_credits {l : List Byte} (length : l.length = 2) :
    leBytes 2 ((fin! 4 (leNat l)).val + 4 * (BitVec.ofNat 14 (leNat l / 4)).toNat) = l := by
  have small : leNat l < 65536 := (leNat_lt l).trans_eq (by rw [length]; rfl)
  have whole : (fin! 4 (leNat l)).val + 4 * (BitVec.ofNat 14 (leNat l / 4)).toNat = leNat l := by
    simp only [fin!, Fin.ofNat, BitVec.toNat_ofNat, Nat.reducePow]
    omega
  rw [whole, ← length, leBytes_leNat]

/-- The number of a few bytes as a field of that width is those bytes. -/
theorem leBytes_ofNat_leNat {w n : Nat} {l : List Byte} (length : l.length = n) (width : 256 ^ n = 2 ^ w) :
    leBytes n (BitVec.ofNat w (leNat l)).toNat = l := by
  subst length
  rw [BitVec.toNat_ofNat, Nat.mod_eq_of_lt (width ▸ leNat_lt l), leBytes_leNat]

/-- One byte of a list. -/
theorem take_one_drop {l : List Byte} {k : Nat} (h : k < l.length) : (l.drop k).take 1 = [byteAt l k] := by
  rw [List.take_one_drop_eq_of_lt_length h, byteAt, nth, List.getElem?_eq_getElem h, Option.getD_some, List.get_eq_getElem]

/-- A stretch inside a list has its full length. -/
theorem length_take_drop {α : Type} {l : List α} {k n : Nat} (h : k + n ≤ l.length) : ((l.drop k).take n).length = n := by
  rw [List.length_take, List.length_drop]
  omega

/-- A checked string is its head followed by its CRC. -/
theorem eq_append_crc {k n x : Nat} {raw : List Byte} (length : raw.length = k + n) (crc : leNat ((raw.drop k).take n) = x) :
    raw = raw.take k ++ leBytes n x := by
  have tail : (raw.drop k).length = n := by rw [List.length_drop]; omega
  rw [List.take_of_length_le (by omega)] at crc
  rw [← eq_leBytes_of_leNat tail crc, List.take_append_drop]

/-- The bytes of a flit are its fields one after the other (Table 8.3). -/
theorem flit_stretches {raw : List Byte} (length : raw.length = 256) : raw.take 252 =
    [byteAt raw 0, byteAt raw 1] ++ (raw.drop 2).take 2 ++ (raw.drop 4).take 2 ++ (raw.drop 6).take 3 ++ [byteAt raw 9] ++ (raw.drop 10).take 2 ++
      (raw.drop 12).take 240 := by
  rw [show 252 = 0 + 1 + 1 + 2 + 2 + 3 + 1 + 2 + 240 from rfl]
  iterate 8 rw [List.take_add]
  simp only [Nat.reduceAdd]
  rw [take_one_drop (k := 0) (by omega), take_one_drop (k := 1) (by omega), take_one_drop (k := 9) (by omega)]
  rfl

/-- A flit that bytes spell is built into those bytes again (R235). -/
theorem eq_flitBytes_of_flitOf {f : Flit} {raw : List Byte} (h : flitOf raw = some f) : raw = flitBytes f := by
  unfold flitOf at h
  split at h
  case isFalse => cases h
  case isTrue clean =>
    obtain ⟨length, crc⟩ := clean
    have stretch (k n : Nat) (inside : k + n ≤ 256) : ((raw.drop k).take n).length = n := length_take_drop (by omega)
    have head : flitHead f = raw.take 252 := by
      rw [flit_stretches length, ← Option.some.inj h]
      simp only [flitHead, flit_byte0, flit_byte1, flit_credits (stretch 10 2 (by omega)), leBytes_ofNat_leNat (w := 16) (stretch 2 2 (by omega)) rfl,
        leBytes_ofNat_leNat (w := 16) (stretch 4 2 (by omega)) rfl, leBytes_ofNat_leNat (w := 24) (stretch 6 3 (by omega)) rfl,
        take_append_replicate (stretch 12 240 (by omega))]
    rw [flitBytes, head]
    exact eq_append_crc length crc

/-- Exactly the bytes that a flit is built into spell it (R235). -/
theorem flitOf_eq_some_iff {f : Flit} {raw : List Byte} (h : f.body.length = 240) : flitOf raw = some f ↔ raw = flitBytes f :=
  ⟨eq_flitBytes_of_flitOf, fun built => built ▸ Laws.flitOf_flitBytes f h⟩

/-- The bytes of a slot are its fields one after the other (Table 11.8). -/
theorem slot_stretches {raw : List Byte} (length : raw.length = 21) :
    raw.take 19 = byteAt raw 0 :: byteAt raw 1 :: ((raw.drop 2).take 16 ++ [byteAt raw 18]) := by
  rw [show 19 = 0 + 1 + 1 + 16 + 1 from rfl]
  iterate 4 rw [List.take_add]
  simp only [Nat.reduceAdd]
  rw [take_one_drop (k := 0) (by omega), take_one_drop (k := 1) (by omega), take_one_drop (k := 18) (by omega)]
  rfl

/-- A slot that bytes spell is built into those bytes again (R359). -/
theorem eq_slotBytes_of_slotOf {x : Slot} {raw : List Byte} (h : slotOf raw = some x) : raw = slotBytes x := by
  unfold slotOf at h
  split at h
  case isFalse => cases h
  case isTrue clean =>
    obtain ⟨length, crc⟩ := clean
    have head : slotHead x = raw.take 19 := by
      rw [slot_stretches length, ← Option.some.inj h]
      simp only [slotHead, take_append_replicate (length_take_drop (show 2 + 16 ≤ raw.length by omega))]
    rw [slotBytes, head]
    exact eq_append_crc length crc

theorem slotHead_length (x : Slot) : (slotHead x).length = 19 := by simp [slotHead]

/-- A slot is read back from its bytes (R359). -/
theorem slotOf_slotBytes {x : Slot} (h : x.body.length = 16) : slotOf (slotBytes x) = some x := by
  have length : (slotBytes x).length = 21 := by rw [slotBytes, List.length_append, slotHead_length, Laws.leBytes_length]
  have head : (slotBytes x).take 19 = slotHead x := List.take_left' (slotHead_length x)
  have crc : leNat (((slotBytes x).drop 19).take 2) = (crc16 ((slotBytes x).take 19)).toNat := by
    rw [head, slotBytes, List.drop_left' (slotHead_length x), List.take_of_length_le (Laws.leBytes_length _ _).le,
      Laws.leNat_leBytes 2 _ (crc16 _).isLt]
  have fields := head.symm.trans (slot_stretches length)
  rw [slotHead, take_append_replicate h] at fields
  obtain ⟨typ, seq, rest⟩ : x.typ = byteAt (slotBytes x) 0 ∧ x.seq = byteAt (slotBytes x) 1 ∧
      x.body ++ [x.ack] = ((slotBytes x).drop 2).take 16 ++ [byteAt (slotBytes x) 18] := by simpa using fields
  obtain ⟨body, ack⟩ := List.append_inj' rest rfl
  rw [slotOf, if_pos ⟨length, crc⟩, ← typ, ← seq, ← body, ← List.head_eq_of_cons_eq ack]

/-- Exactly the bytes that a slot is built into spell it (R359). -/
theorem slotOf_eq_some_iff {x : Slot} {raw : List Byte} (h : x.body.length = 16) : slotOf raw = some x ↔ raw = slotBytes x :=
  ⟨eq_slotBytes_of_slotOf, fun built => built ▸ slotOf_slotBytes h⟩

/-! ### Codewords of a quad (R374, R375) -/

/-- A product with a linear polynomial has one coefficient more. -/
theorem polyMul_linear_length (a b : Sym) {q : List Sym} (h : 0 < q.length) : (polyMul [a, b] q).length = q.length + 1 := by
  simp only [polyMul, List.length_map, List.length_range, List.length_cons, List.length_nil]
  omega

theorem rsGen_length (k : Nat) : (rsGen k).length = k + 1 := by
  induction k with
  | zero => rfl
  | succ k ih => rw [rsGen, polyMul_linear_length _ _ (by omega), ih]

/-- The register of the division keeps its length. -/
theorem foldl_rsShift_length (g d r : List Sym) : (d.foldl (rsShift g) r).length = r.length := by
  induction d generalizing r with
  | nil => rfl
  | cons x d ih => rw [List.foldl_cons, ih, rsShift, List.length_map, List.length_range]

theorem rsEncode_length (k : Nat) (d : List Sym) : (rsEncode k d).length = d.length + k := by
  rw [rsEncode, List.length_append, foldl_rsShift_length, List.length_replicate]

/-- A codeword begins with its data. -/
theorem take_rsEncode {n : Nat} {d : List Sym} (k : Nat) (h : d.length = n) : (rsEncode k d).take n = d := List.take_left' h

/-- The data bits of a codeword of 514 symbols are the bits it was built from. -/
theorem reachBits_rsEncode {bs : List Bool} (h : bs.length = 5140) :
    reachBits (rsEncode 30 ((chunksOf 10 514 bs).map fun c => BitVec.ofNat 10 (boolsNat c))) = bs := by
  rw [reachBits, take_rsEncode 30 (by rw [List.length_map, chunksOf_length])]
  exact flatMap_chunksOf 10 514 bs _ _ (fun c => natBits_ofNat_boolsNat) h

/-- The bits of a codeword's kind, stream, reserved field and payload are as many as its data symbols hold (R375). -/
theorem reachSymbols_length (k st : Nat) (b : List Byte) : (reachSymbols k st b).length = 544 := by
  rw [reachSymbols, rsEncode_length, List.length_map, chunksOf_length]

/-- A codeword gives back its kind, stream and payload (R375). -/
theorem reachFields_reachSymbols {k st : Nat} {b : List Byte} (hk : k < 4) (hst : st < 512) (hb : b.length = 640) :
    reachFields (reachSymbols k st b) = (k, st, b) := by
  have data : reachBits (reachSymbols k st b) = natBits 2 k ++ natBits 9 st ++ natBits 9 0 ++ bitsOf b := by
    rw [reachSymbols, take_append_replicate hb]
    exact reachBits_rsEncode (by simp [hb])
  have kind : (natBits 2 k ++ natBits 9 st ++ natBits 9 0 ++ bitsOf b).take 2 = natBits 2 k := by
    rw [List.append_assoc, List.append_assoc, List.take_left' (natBits_length 2 k)]
  have stream : ((natBits 2 k ++ natBits 9 st ++ natBits 9 0 ++ bitsOf b).drop 2).take 9 = natBits 9 st := by
    rw [List.append_assoc, List.append_assoc, List.drop_left' (natBits_length 2 k), List.take_left' (natBits_length 9 st)]
  have payload : (natBits 2 k ++ natBits 9 st ++ natBits 9 0 ++ bitsOf b).drop 20 = bitsOf b := List.drop_left' (by simp)
  simp only [reachFields, data, kind, stream, payload]
  rw [boolsNat_natBits hk, boolsNat_natBits hst, bytesOf_bitsOf]

/-! ### Module frames (R335 to R340) -/

theorem nth_eq_getElem {α : Type} {l : List α} {i : Nat} (h : i < l.length) (d : α) : nth l i d = l[i] := by
  rw [nth, List.getElem?_eq_getElem h, Option.getD_some]

theorem nth_map_range {α : Type} {n i : Nat} (g : Nat → α) (h : i < n) (d : α) : nth ((List.range n).map g) i d = g i := by
  rw [nth_eq_getElem (by simpa using h), List.getElem_map, List.getElem_range]

/-- Entry `i` of piece `f` of a list of pieces of `m` entries. -/
theorem nth_flatMap_range {α : Type} (g : Nat → List α) {m k f i : Nat} (size : ∀ j, (g j).length = m) (hf : f < k) (hi : i < m) (d : α) :
    nth ((List.range k).flatMap g) (m * f + i) d = nth (g f) i d := by
  induction k with
  | zero => omega
  | succ k ih =>
    have length : ((List.range k).flatMap g).length = m * k := by simp [List.length_flatMap, size, Nat.mul_comm]
    rw [List.range_succ, List.flatMap_append, nth]
    by_cases last : f = k
    · subst last
      rw [List.getElem?_append_right (by omega), length, Nat.add_sub_cancel_left, List.flatMap_singleton, nth]
    · have before : m * f + m ≤ m * k := by rw [← Nat.mul_succ]; exact Nat.mul_le_mul_left m (by omega)
      rw [List.getElem?_append_left (by omega), ← nth, ih (by omega)]

/-- A lane's word has as many bits as it has UI, so each data bit stands in its UI. -/
theorem laneWord_getLsbD {ds : List Bool} (h : ds.length = 63) (odd : Bool) {u : Nat} (hu : u < 63) :
    (laneWord ds odd).getLsbD u = nth ds u false := by
  rw [laneWord, BitVec.getLsbD_ofNat, boolsNat_testBit, List.getElem?_append_left (by omega), nth, decide_eq_true (by omega), Bool.true_and]

theorem range_filter_getLsbD_laneWord {ds : List Bool} (h : ds.length = 63) (odd : Bool) :
    (List.range 64).map (laneWord ds odd).getLsbD = ds ++ [((ds.filter id).length % 2 == 1) != odd] := by
  refine List.ext_getElem (by simp [h]) fun u hu hd => ?_
  have inside : u < 64 := by simpa using hu
  rw [List.getElem_map, List.getElem_range, laneWord, BitVec.getLsbD_ofNat, boolsNat_testBit, List.getElem?_eq_getElem hd, decide_eq_true inside,
    Bool.true_and, Option.getD_some]

/-- The parity UI gives a lane's word the parity that its frame's type asks for (R337). -/
theorem oddLane_laneWord {ds : List Bool} (h : ds.length = 63) (odd : Bool) : oddLane (laneWord ds odd) = odd := by
  have ones : ((List.range 64).filter fun i => (laneWord ds odd).getLsbD i).length =
      (ds.filter id).length + ([((ds.filter id).length % 2 == 1) != odd].filter id).length := by
    rw [← List.length_append, ← List.filter_append, ← range_filter_getLsbD_laneWord h, List.filter_map, List.length_map]
    rfl
  rw [oddLane, ones]
  obtain even | single := Nat.mod_two_eq_zero_or_one (ds.filter id).length
  · cases odd <;> simp [even, Nat.add_mod]
  · cases odd <;> simp [single, Nat.add_mod]

section
variable {good : BitVec 68}

theorem laneOrder_nodup : (laneOrder good).Nodup := List.Nodup.filter _ List.nodup_range

theorem mem_laneOrder_lt {p : Nat} (h : p ∈ laneOrder good) : p < 68 := List.mem_range.mp (List.mem_of_mem_filter h)

theorem activeLanes_sublist : (activeLanes good).Sublist (laneOrder good) := by
  unfold activeLanes
  split
  · exact List.take_sublist _ _
  · exact List.take_sublist _ _

/-- A direction that can carry frames has 64 active lanes and one lane-frame, or 32 and two (R339, R340). -/
theorem activeLanes_spans (h : 32 ≤ popc68 good) :
    ((activeLanes good).length = 64 ∧ spans good = 1) ∨ ((activeLanes good).length = 32 ∧ spans good = 2) := by
  have count : (laneOrder good).length = popc68 good := rfl
  unfold activeLanes spans
  by_cases full : 64 ≤ popc68 good
  · exact .inl (by simp [full, count])
  · exact .inr (by simp [full, count, h])

/-- The number of an active lane among them is its logical lane (R340). -/
theorem activeLanes_findIdx? {i : Nat} (h : i < (activeLanes good).length) :
    (activeLanes good).findIdx? (· == (activeLanes good)[i]) = some i := by
  have nodup := laneOrder_nodup.sublist (activeLanes_sublist (good := good))
  rw [List.findIdx?_eq_some_iff_getElem]
  refine ⟨h, by simp, fun j hj => ?_⟩
  simpa using fun same => absurd ((nodup.getElem_inj_iff).mp same) hj.ne

/-- The words of a lane-frame as its active lanes carry them: bit n × UI + i on logical lane i (R335, R337). -/
def framePart (n : Nat) (bs : List Bool) (odd : Nat → Bool) (f : Nat) : List DWord :=
  (List.range n).map fun i => laneWord ((List.range 63).map fun u => nth bs (n * (63 * f + u) + i) false) (odd i)

theorem framePart_length (n : Nat) (bs : List Bool) (odd : Nat → Bool) (f : Nat) : (framePart n bs odd f).length = n := by simp [framePart]

/-- The bits that a frame of 504 bytes spreads over its lanes. -/
theorem frameLanes_of_length (t : FrameTyp) {b : List Byte} (hb : b.length = 504) :
    frameLanes good t b = (List.range (spans good)).flatMap
      (spread 68 (activeLanes good) (bitsOf b) (senseOdd (activeLanes good).length t)) := by
  simp [frameLanes, hb]

/-- The active lanes of a frame that was built carry its lane-frames (R335, R340). -/
theorem laneWords_frameLanes (t : FrameTyp) {b : List Byte} (hb : b.length = 504) {f : Nat} (hf : f < spans good) :
    laneWords (activeLanes good) (frameLanes good t b) f =
      framePart (activeLanes good).length (bitsOf b) (senseOdd (activeLanes good).length t) f := by
  refine List.ext_getElem (by simp [laneWords, framePart]) fun i hi hc => ?_
  have active : i < (activeLanes good).length := by simpa [laneWords] using hi
  have lane : (activeLanes good)[i] < 68 := mem_laneOrder_lt (activeLanes_sublist.subset (List.getElem_mem active))
  have word : nth (frameLanes good t b) (68 * f + (activeLanes good)[i]) 0 =
      laneWord ((List.range 63).map fun u => nth (bitsOf b) ((activeLanes good).length * (63 * f + u) + i) false)
        (senseOdd (activeLanes good).length t i) := by
    rw [frameLanes_of_length t hb, nth_flatMap_range _ (fun _ => by simp [spread]) hf lane, spread, nth_map_range _ lane, activeLanes_findIdx? active]
  simpa only [laneWords, List.getElem_map, framePart, List.getElem_range] using word

/-- The parities of a lane-frame that was built are the pattern of its type, which no other type's comes near (R337, R338). -/
theorem classify_framePart {n : Nat} (hn : n = 64 ∨ n = 32) (bs : List Bool) (t : FrameTyp) (f : Nat) :
    classify n ((framePart n bs (senseOdd n t) f).map oddLane) = some (t, []) := by
  have parities : (framePart n bs (senseOdd n t) f).map oddLane = (List.range n).map (senseOdd n t) := by
    simp [framePart, Function.comp_def, oddLane_laneWord]
  have patterns : ∀ t : FrameTyp, classify 64 ((List.range 64).map (senseOdd 64 t)) = some (t, []) ∧
      classify 32 ((List.range 32).map (senseOdd 32 t)) = some (t, []) := by decide +kernel
  rw [parities]
  obtain rfl | rfl := hn
  · exact (patterns t).1
  · exact (patterns t).2

/-- A frame that was built is of its type, without an error (R338, R339). -/
theorem classifyFrame_frameLanes (h : 32 ≤ popc68 good) (t : FrameTyp) {b : List Byte} (hb : b.length = 504) :
    classifyFrame good (frameLanes good t b) = some (t, []) := by
  obtain ⟨lanes, one⟩ | ⟨lanes, two⟩ := activeLanes_spans h
  · have first := laneWords_frameLanes (good := good) t hb (f := 0) (by omega)
    simp [classifyFrame, one, first, lanes, classify_framePart]
  · have first := laneWords_frameLanes (good := good) t hb (f := 0) (by omega)
    have second := laneWords_frameLanes (good := good) t hb (f := 1) (by omega)
    simp [classifyFrame, two, first, second, lanes, classify_framePart]

/-- Bit `k` of a frame, read from logical lane k mod n at data position ⌊k ÷ n⌋ (R335, R339). -/
theorem framePart_bit {n sp k : Nat} (bs : List Bool) (odd : Nat → Bool) (hn : 0 < n) (hk : k < n * (63 * sp)) :
    (nth ((List.range sp).flatMap (framePart n bs odd)) (n * (k / n / 63) + k % n) 0).getLsbD (k / n % 63) = nth bs k false := by
  have position : k / n < 63 * sp := Nat.div_lt_of_lt_mul hk
  have lane : k % n < n := Nat.mod_lt _ hn
  have ui : k / n % 63 < 63 := Nat.mod_lt _ (by norm_num)
  rw [nth_flatMap_range _ (framePart_length n bs odd) (by omega) lane, framePart, nth_map_range _ lane, laneWord_getLsbD (by simp) _ ui,
    nth_map_range _ ui, Nat.div_add_mod, Nat.div_add_mod]

/-- A frame that was built gives back its bytes (R335, R339). -/
theorem frameBytes_frameLanes (h : 32 ≤ popc68 good) (t : FrameTyp) {b : List Byte} (hb : b.length = 504) :
    frameBytes good (frameLanes good t b) = b := by
  have words : laneWords (activeLanes good) (frameLanes good t b) 0 ++
      (if spans good = 1 then [] else laneWords (activeLanes good) (frameLanes good t b) 1) =
      (List.range (spans good)).flatMap (framePart (activeLanes good).length (bitsOf b) (senseOdd (activeLanes good).length t)) := by
    obtain ⟨-, one⟩ | ⟨-, two⟩ := activeLanes_spans h
    · simp [one, laneWords_frameLanes (good := good) t hb (f := 0) (by omega)]
    · simp [two, laneWords_frameLanes (good := good) t hb (f := 0) (by omega), laneWords_frameLanes (good := good) t hb (f := 1) (by omega), List.range_succ]
  have room : (activeLanes good).length * (63 * spans good) = 4032 ∧ 0 < (activeLanes good).length := by
    obtain ⟨lanes, one⟩ | ⟨lanes, two⟩ := activeLanes_spans h
    · simp [lanes, one]
    · simp [lanes, two]
  obtain ⟨room, some_⟩ := room
  have length : (bitsOf b).length = 4032 := by rw [bitsOf_length, hb]
  have data : (List.range 4032).map (fun k => nth (bitsOf b) k false) = bitsOf b := by
    refine List.ext_getElem (by rw [List.length_map, List.length_range, length]) fun k hk hd => ?_
    rw [List.getElem_map, List.getElem_range, nth_eq_getElem hd]
  have bits : frameBytes good (frameLanes good t b) = bytesOf ((List.range 4032).map fun k => nth (bitsOf b) k false) := by
    refine congrArg bytesOf (List.map_congr_left fun k hk => ?_)
    rw [words]
    exact framePart_bit _ _ some_ (by rw [room]; exact List.mem_range.mp hk)
  rw [bits, data, bytesOf_bitsOf]

end

/-- Settles O60: every format's numbers lie below its infinity and NaN codes; a checked string is its head and its CRC; data symbols and lane words are
pieces of one bit string. -/
theorem encodingsReadBack : Obligations.EncodingsReadBack := by
  refine ⟨fun f hf c n m e hc h => f.encode_decode ?bounded hc h, fun f raw h => flitOf_eq_some_iff h, fun x raw h => slotOf_eq_some_iff h,
    fun k st b hk hst hb => ⟨reachSymbols_length k st b, reachFields_reachSymbols hk hst hb⟩,
    fun good t b h hb => ⟨frameBytes_frameLanes h t hb, classifyFrame_frameLanes h t hb⟩⟩
  case bounded =>
    simp only [List.mem_cons, List.not_mem_nil, or_false] at hf
    obtain rfl | rfl | rfl | rfl | rfl | rfl | rfl | rfl := hf
    · exact fp32.bounded_of_ieee rfl (by decide)
    · exact bf16.bounded_of_ieee rfl (by decide)
    · exact fp16.bounded_of_ieee rfl (by decide)
    · exact e4m3.bounded_of_finite rfl (by decide)
    · exact e5m2.bounded_of_ieee rfl (by decide)
    · exact e3m2.bounded_of_finite rfl (by decide)
    · exact e2m3.bounded_of_finite rfl (by decide)
    · exact e2m1.bounded_of_finite rfl (by decide)

end Sys2Proof.Machine
end

section
/-!
PROOFS. The parts of the state that the frames over all commands and the invariants speak of, and what an update of a field leaves of them.
-/

-- In sequence: each worker of the elaborator takes its stack from the memory that a check may use.
set_option Elab.async false

namespace Sys2Proof.Machine

/-- The parts of the state that the frames over all commands and the invariants speak of. -/
inductive Part where
  | ring | comb | siteReg | image | slots | vec | aer | hostDbl | fwDbl | iter | snap | time | queue
  | fuses | flash | aging | fatals | reservoir | staging | window | report | stage | was
  | device | litEntry | fatal | supply | light | gloom
  deriving DecidableEq

/-- What a part holds. -/
def Part.Value : Part → Type
  | .ring => Rings
  | .comb => Comb
  | .siteReg => SiteRegs
  | .image => Option Image
  | .slots => Vector PlanSlot 129
  | .vec => Vector MsixVec 64
  | .aer => List AerEvent
  | .hostDbl | .fwDbl | .iter => Word
  | .snap => List (Bool × Int)
  | .time => Nat
  | .queue => List Instr
  | .fuses => Nat × Bool
  | .flash | .reservoir | .staging | .window | .report | .stage => Mem
  | .aging => List AgingRec
  | .fatals => List FatalRec
  | .was => BitVec 64 × BitVec 64
  | .device => DevState
  | .litEntry | .fatal => Bool
  | .supply => Bool × Bool × Bool
  | .light => Vector (Bool × Bool) 64
  | .gloom => Option (Comb × Bool × Vector (Bool × Bool) 64)

/-- What may emit light: the combs, the Lit entry, and of every port whether it is Dark and whether it probes. -/
def emitters (s : State) : Comb × Bool × Vector (Bool × Bool) 64 :=
  (s.comb, s.dev.litEntry, s.port.map fun q => (decide (q.state = 0), q.probing))

/-- The part in a state; of the ports it is whether they are Dark and whether they probe, and of Umbra what may emit light. -/
def Part.get (s : State) : (p : Part) → p.Value
  | .ring => s.ring
  | .comb => s.comb
  | .siteReg => s.siteReg
  | .image => s.img.image
  | .slots => s.pln.slots
  | .vec => s.host.vec
  | .aer => s.host.aer
  | .hostDbl => s.dbl.host
  | .fwDbl => s.dbl.fw
  | .iter => s.ctl.iter
  | .snap => s.thm.snap
  | .time => s.time
  | .queue => s.pending
  | .fuses => (s.sec.counter, s.sec.slot0Revoked)
  | .flash => s.mgt.flash
  | .aging => s.mgt.aging
  | .fatals => s.mgt.fatals
  | .reservoir => s.hbm.mem
  | .staging => s.ce.staging
  | .window => s.host.bar2
  | .report => s.mgt.report
  | .stage => s.mgt.stage
  | .was => (s.host.was, s.host.pend)
  | .device => s.dev.state
  | .litEntry => s.dev.litEntry
  | .fatal => s.dev.fatal
  | .supply => (s.dev.powered, s.dev.sysRst, s.dev.perst)
  | .light => s.port.map fun q => (decide (q.state = 0), q.probing)
  | .gloom => if s.dev.state = .umbra then some (emitters s) else none

/-- The parts that a host error leaves free (R6, R61). -/
abbrev Part.work : List Part := [.image, .slots, .iter, .reservoir, .staging]

/-- The parts that going to Umbra changes (R327). -/
abbrev Part.dark : List Part := [.device, .litEntry, .comb, .light, .gloom]

/-- What a choice of parts sees of a state. -/
def look (P : Part → Bool) (s : State) : (p : Part) → P p = true → p.Value := fun p _ => p.get s

section
variable {P : Part → Bool}

theorem look_eq_iff {s t : State} : look P t = look P s ↔ ∀ p, P p = true → p.get t = p.get s :=
  ⟨fun h p hp => congrFun (congrFun h p) hp, fun h => funext fun p => funext fun hp => h p hp⟩

/-- A state looks as another one does when each part that is seen of it does. -/
@[simp] theorem look_mk {s : State} {dev : Dev} {host : HostIf} {mbx : Mbx} {dbl : Dbl} {lck : Lck} {err : Err} {mgt : Mgt} {sec : Sec} {pwr : Pwr} {thm : Thm}
    {hbm : Hbm} {comb : Comb} {site : Vector Site 6} {wide : Vector WideSite 4} {reach : Vector ReachSite 2} {siteReg : SiteRegs}
    {beam : Vector BeamSt 256} {port : Vector PortSt 64} {pln : Pln} {ring : Rings} {img : Load} {ctl : Ctl} {sq : Sq} {ce : Ce} {time : Nat}
    {out : List Emission} {fresh : Nat}
    (hring : P .ring = true → ring = s.ring := by simp) (hcomb : P .comb = true → comb = s.comb := by simp) (hsiteReg : P .siteReg = true → siteReg = s.siteReg := by simp)
    (himage : P .image = true → img.image = s.img.image := by simp) (hslots : P .slots = true → pln.slots = s.pln.slots := by simp)
    (hvec : P .vec = true → host.vec = s.host.vec := by simp) (haer : P .aer = true → host.aer = s.host.aer := by simp) (hhostDbl : P .hostDbl = true → dbl.host = s.dbl.host := by simp)
    (hfwDbl : P .fwDbl = true → dbl.fw = s.dbl.fw := by simp) (hiter : P .iter = true → ctl.iter = s.ctl.iter := by simp) (hsnap : P .snap = true → thm.snap = s.thm.snap := by simp)
    (htime : P .time = true → time = s.time := by simp)
    (hfuses : P .fuses = true → sec.counter = s.sec.counter ∧ sec.slot0Revoked = s.sec.slot0Revoked := by simp)
    (hflash : P .flash = true → mgt.flash = s.mgt.flash := by simp) (haging : P .aging = true → mgt.aging = s.mgt.aging := by simp)
    (hfatals : P .fatals = true → mgt.fatals = s.mgt.fatals := by simp) (hreservoir : P .reservoir = true → hbm.mem = s.hbm.mem := by simp)
    (hstaging : P .staging = true → ce.staging = s.ce.staging := by simp) (hwindow : P .window = true → host.bar2 = s.host.bar2 := by simp)
    (hreport : P .report = true → mgt.report = s.mgt.report := by simp) (hstage : P .stage = true → mgt.stage = s.mgt.stage := by simp)
    (hwas : P .was = true → host.was = s.host.was ∧ host.pend = s.host.pend := by simp)
    (hdevice : P .device = true → dev.state = s.dev.state := by simp) (hlit : P .litEntry = true → dev.litEntry = s.dev.litEntry := by simp)
    (hfatal : P .fatal = true → dev.fatal = s.dev.fatal := by simp)
    (hsupply : P .supply = true → dev.powered = s.dev.powered ∧ dev.sysRst = s.dev.sysRst ∧ dev.perst = s.dev.perst := by simp)
    (hlight : P .light = true → port.map (fun q => (decide (q.state = 0), q.probing)) = s.port.map fun q => (decide (q.state = 0), q.probing) := by simp)
    (hgloom : P .gloom = true → dev.state = s.dev.state ∧ comb = s.comb ∧ dev.litEntry = s.dev.litEntry ∧
      port.map (fun q => (decide (q.state = 0), q.probing)) = s.port.map (fun q => (decide (q.state = 0), q.probing)) := by simp) :
    look P ⟨dev, host, mbx, dbl, lck, err, mgt, sec, pwr, thm, hbm, comb, site, wide, reach, siteReg, beam, port, pln, ring, img, ctl, sq, ce, time, out,
      fresh, s.pending⟩ = look P s := by
  refine look_eq_iff.mpr fun p hp => ?_
  cases p with
  | ring => exact hring hp
  | comb => exact hcomb hp
  | siteReg => exact hsiteReg hp
  | image => exact himage hp
  | slots => exact hslots hp
  | vec => exact hvec hp
  | aer => exact haer hp
  | hostDbl => exact hhostDbl hp
  | fwDbl => exact hfwDbl hp
  | iter => exact hiter hp
  | snap => exact hsnap hp
  | time => exact htime hp
  | queue => exact rfl
  | fuses => exact Prod.ext (hfuses hp).1 (hfuses hp).2
  | flash => exact hflash hp
  | aging => exact haging hp
  | fatals => exact hfatals hp
  | reservoir => exact hreservoir hp
  | staging => exact hstaging hp
  | window => exact hwindow hp
  | report => exact hreport hp
  | stage => exact hstage hp
  | was => exact Prod.ext (hwas hp).1 (hwas hp).2
  | device => exact hdevice hp
  | litEntry => exact hlit hp
  | fatal => exact hfatal hp
  | supply => exact Prod.ext (hsupply hp).1 (Prod.ext (hsupply hp).2.1 (hsupply hp).2.2)
  | light => exact hlight hp
  | gloom =>
    obtain ⟨hdev, hcombs, hentry, hports⟩ := hgloom hp
    simp only [Part.get, emitters, hdev, hcombs, hentry, hports]

@[simp] theorem look_ite (c : Prop) [Decidable c] (a b : State) : look P (if c then a else b) = if c then look P a else look P b := apply_ite _ _ _ _

/-- An effect keeps what is seen. -/
def Keeps (P : Part → Bool) (f : State → State) : Prop := ∀ s, look P (f s) = look P s

@[simp] theorem keeps_iff (f : State → State) : Keeps P f ↔ ∀ s, look P (f s) = look P s := Iff.rfl

/-- A fold whose steps keep what is seen keeps it. -/
@[simp] theorem look_foldl {α : Type} (g : State → α → State) (l : List α) (s : State) (h : ∀ x, Keeps P (g · x)) :
    look P (l.foldl g s) = look P s := by
  induction l generalizing s with
  | nil => rfl
  | cons x r ih => exact (ih _).trans (h x s)

/-- What is seen after an effect that meets no host error is what was seen of `s`. -/
def Res.Shows (P : Part → Bool) (s : State) (r : Res) : Prop :=
  match r with
  | .ok t => look P t = look P s
  | .error _ => True

@[simp] theorem Res.shows_ok (s t : State) : Res.Shows P s (.ok t) ↔ look P t = look P s := Iff.rfl

@[simp] theorem Res.shows_error (s : State) (n : Nat) : Res.Shows P s (.error n) := trivial

@[simp] theorem Res.shows_ite (s : State) (c : Prop) [Decidable c] (a b : Res) :
    Res.Shows P s (if c then a else b) ↔ if c then Res.Shows P s a else Res.Shows P s b := by
  split <;> rfl

theorem Res.Shows.of_look {s t : State} {r : Res} (h : Res.Shows P s r) (e : look P s = look P t) : Res.Shows P t r := by
  cases r with
  | ok => exact Eq.trans h e
  | error => trivial

/-- A command answers the state after an effect that keeps what is seen, its interrupts settled. -/
def Shows (P : Part → Bool) (s : State) (o : Host.Outcome State Fault Refusal) : Prop := ∃ t, o = done t ∧ look P t = look P s

@[simp] theorem shows_done (s t : State) (h : look P t = look P s) : Shows P s (done t) := ⟨t, rfl, h⟩

@[simp] theorem shows_ite (s : State) (c : Prop) [Decidable c] (a b : Host.Outcome State Fault Refusal) :
    Shows P s (if c then a else b) ↔ if c then Shows P s a else Shows P s b := by
  split <;> rfl

@[simp] theorem live_look (f : State → State) (s : State) : look P (live f s) = if running s then look P (f s) else look P s := by
  simp [live]

@[simp] theorem shows_run (f : State → State) (s : State) (h : look P (f s) = look P s) : Shows P s (run f s) := ⟨_, rfl, by simp [h]⟩

theorem shows_run_of_keeps (f : State → State) (s : State) (hf : Keeps P f) : Shows P s (run f s) := shows_run f s (hf s)

section
variable (s : State) (n m k j : ℕ) (p : Port) (v : Word) (b : Beam) (raw body : List Byte) (x : SiteIx) (c c₂ : Bool) (t : ReachIx) (l : Line)
  (w : WideIx) (q : Fin 8) (i : BitVec 16) (h : Fin 32) (d : Fin 4) (a : MgtPath) (r r₂ : BitVec 4) (g : CombGroup) (e : Msg) (u : Fin 2) (y : Byte)
  (z z₂ : ℤ) (o : Subst) (dir : Dir) (op : OpSt)

/-! ### Updates of one entry -/

@[simp] theorem emit_look (e : Emission) : look P (emit e s) = look P s := by simp [emit]
@[simp] theorem onPort_look (f : PortSt → PortSt) 
    (hf : P .light = true ∨ P .gloom = true → ((f s.port[p.val]).state = 0 ↔ s.port[p.val].state = 0) ∧ (f s.port[p.val]).probing = s.port[p.val].probing) :
    look P (onPort p f s) = look P s := by
  have light (hp : P .light = true ∨ P .gloom = true) : (upd s.port p f).map (fun q => (decide (q.state = 0), q.probing)) = s.port.map fun q => (decide (q.state = 0), q.probing) := by
    refine Vector.ext fun i hi => ?_
    rw [Vector.getElem_map, Vector.getElem_map]
    by_cases same : p.val = i
    · subst same
      simp only [upd_val_self, (hf hp).1, (hf hp).2]
    · rw [upd, Vector.getElem_set_ne _ _ same]
  exact look_mk (hlight := fun hp => light (.inl hp)) (hgloom := fun hp => ⟨rfl, rfl, rfl, light (.inr hp)⟩)
@[simp] theorem onLine_look (f : LineSt → LineSt) : look P (onLine p l f s) = look P s := by simp [onLine]
@[simp] theorem onBeam_look (f : BeamSt → BeamSt) : look P (onBeam b f s) = look P s := by simp [onBeam]
@[simp] theorem onSite_look (f : Site → Site) : look P (onSite x f s) = look P s := by simp [onSite]
@[simp] theorem onSb_look (f : Sideband → Sideband) : look P (onSb x f s) = look P s := by simp [onSb]
@[simp] theorem onMod_look (m : Fin 33) (f : Module → Module) : look P (onMod w m f s) = look P s := by simp [onMod]
@[simp] theorem onReach_look (f : ReachSite → ReachSite) : look P (onReach t f s) = look P s := by simp [onReach]
@[simp] theorem onLane_look (f : ReachLane → ReachLane) : look P (onLane t h f s) = look P s := by simp [onLane]
@[simp] theorem onUnit_look (f : SqUnitSt → SqUnitSt) : look P (onUnit u f s) = look P s := by simp [onUnit]
@[simp] theorem bothStores_look (f : SqUnitSt → SqUnitSt) : look P (bothStores f s) = look P s := by simp [bothStores]
@[simp] theorem onOp_look (f : OpSt → OpSt) : look P (onOp n f s) = look P s := by simp [onOp]
@[simp] theorem onPwr_look (f : Pwr → Pwr) : look P (onPwr f s) = look P s := by simp [onPwr]
@[simp] theorem onH2f_look (c : Fin 16) (f : TxChan → TxChan) : look P (onH2f c f s) = look P s := by simp [onH2f]
@[simp] theorem onH2d_look (f : TxChan → TxChan) : look P (onH2d x q f s) = look P s := by simp [onH2d]
@[simp] theorem onF2h_look (c : Fin 16) (f : RxChan → RxChan) : look P (onF2h c f s) = look P s := by simp [onF2h]
@[simp] theorem onD2h_look (f : RxChan → RxChan) : look P (onD2h x q f s) = look P s := by simp [onD2h]
@[simp] theorem onTx_look (c : MbxTx) (f : TxChan → TxChan) : look P (onTx c f s) = look P s := by cases c <;> simp [onTx]
@[simp] theorem onStack_look (k : Stack) (f : HbmStack → HbmStack) : look P (onStack k f s) = look P s := by simp [onStack]
@[simp] theorem onMgt_look (f : Mgt → Mgt) (hflash : P .flash = true → (f s.mgt).flash = s.mgt.flash)
    (haging : P .aging = true → (f s.mgt).aging = s.mgt.aging) (hfatals : P .fatals = true → (f s.mgt).fatals = s.mgt.fatals)
    (hreport : P .report = true → (f s.mgt).report = s.mgt.report) (hstage : P .stage = true → (f s.mgt).stage = s.mgt.stage) :
    look P (onMgt f s) = look P s := by
  exact look_mk (hflash := hflash) (haging := haging) (hfatals := hfatals) (hreport := hreport) (hstage := hstage)
@[simp] theorem onUpd_look (f : FwUpdate → FwUpdate) : look P (onUpd f s) = look P s := by simp [onUpd]
@[simp] theorem onBoots_look (f : Vector BootSlot 2 → Vector BootSlot 2) : look P (onBoots f s) = look P s := by simp [onBoots]
@[simp] theorem onBoot_look (f : BootSlot → BootSlot) : look P (onBoot u f s) = look P s := by simp [onBoot]

@[simp] theorem onRing_look (f : RingSt → RingSt) (hring : P .ring = false) : look P (onRing n f s) = look P s := by simp [onRing, hring]
@[simp] theorem onGroup_look (f : CGroup → CGroup) (hcomb : P .comb = false) (hgloom : P .gloom = false) :
    look P (onGroup g f s) = look P s := by simp [onGroup, hcomb, hgloom]
@[simp] theorem onDie_look (d : CombDie) (f : Die → Die) (hcomb : P .comb = false) (hgloom : P .gloom = false) :
    look P (onDie g d f s) = look P s := by simp [onDie, hcomb, hgloom]
@[simp] theorem onCal_look (f : CalSt → CalSt) : look P (onCal p l dir f s) = look P s := by simp [onCal]

/-! ### Machine/Ops.lean -/

@[simp] theorem logEvent_look : look P (logEvent n m k j s) = look P s := by
  unfold logEvent; dsimp only; split <;> simp
@[simp] theorem setEv_look : look P (setEv n m k s) = look P s := by simp [setEv]
@[simp] theorem eventBit_look : look P (eventBit n m k j s) = look P s := by simp [eventBit]
@[simp] theorem flag_look : look P (flag n m k s) = look P s := by simp [flag]
@[simp] theorem sbSend_look (y : Byte) : look P (sbSend x y raw s) = look P s := by simp [sbSend]
@[simp] theorem sendToken_look (w : DWord) : look P (sendToken x w s) = look P s := by simp [sendToken]
@[simp] theorem noticeAll_look : look P (noticeAll n s) = look P s := by simp [noticeAll]
@[simp] theorem fwSend_look (c : Fin 16) : look P (fwSend c e s) = look P s := by simp [fwSend]
@[simp] theorem imgReply_look (more : List Word) : look P (imgReply n i m more s) = look P s := by simp [imgReply]
@[simp] theorem i3cRespond_look (ws : Vector Word 16) : look P (i3cRespond ws s) = look P s := by simp [i3cRespond]
@[simp] theorem mgtReply_look (more : List Word) : look P (mgtReply a n i m more s) = look P s := by cases a <;> simp [mgtReply]
@[simp] theorem abortEpoch_look : look P (abortEpoch s) = look P s := by simp [abortEpoch, dropPhase]
@[simp] theorem abortFenced_look : look P (abortFenced s) = look P s := by unfold abortFenced; dsimp only; split <;> simp [↓look_mk, ↓look_ite]
@[simp] theorem abortIf_look : look P (abortIf c s) = look P s := by simp [abortIf]
@[simp] theorem clearSiteChannels_look : look P (clearSiteChannels x s) = look P s := by simp [clearSiteChannels]
@[simp] theorem containStreams_look : look P (containStreams x n m s) = look P s := by simp [containStreams]
@[simp] theorem endSubs_look : look P (endSubs p s) = look P s := by simp [endSubs]
@[simp] theorem echoUncorr_look : look P (echoUncorr s) = look P s := by
  refine look_foldl _ _ _ fun n t => ?_
  exact (look_mk (s := onLine _ _ _ t)).trans (onLine_look ..)
@[simp] theorem lastTokens_look : look P (lastTokens x s) = look P s := by simp [lastTokens]
@[simp] theorem sitesOff_look : look P (sitesOff s) = look P s := by simp [sitesOff]
@[simp] theorem irqResend_look (hwas : P .was = false) : look P (irqResend n s) = look P s := by simp [irqResend, hwas]
@[simp] theorem spend_look : look P (spend n s) = look P s := by simp [spend]


/-- Host errors leave the ports Dark or not, and probing or not. -/
@[simp] theorem freeWork_look (hwork : ∀ p ∈ Part.work, P p = false) : look P (freeWork s) = look P s := by
  unfold freeWork
  have ports (w : Work) : (vmk 64 fun p => { s.port[p] with block := w.blocks[p], switchQ := w.switches[p] }).map
      (fun q => (decide (q.state = 0), q.probing)) = s.port.map fun q => (decide (q.state = 0), q.probing) :=
    Vector.ext fun i hi => by simp [vmk]
  dsimp only
  split
  · exact look_mk (hstaging := by simp [hwork])
  · exact look_mk (himage := by simp [hwork]) (hslots := by simp [hwork]) (hiter := by simp [hwork]) (hreservoir := by simp [hwork])
      (hstaging := by simp [hwork]) (hlight := fun _ => ports _) (hgloom := fun _ => ⟨rfl, rfl, rfl, ports _⟩)

@[simp] theorem hostError_look (u : State) (hwork : ∀ p ∈ Part.work, P p = false) (hu : look P u = look P s) :
    Shows P s (hostError n u) :=
  ⟨_, rfl, (freeWork_look u hwork).trans hu⟩

end
end
end Sys2Proof.Machine
end

section
/-!
PROOFS. What every operation of the machine leaves of the parts: one line for each operation, by the file of the model that it stands in.
-/

-- In sequence: each worker of the elaborator takes its stack from the memory that a check may use.
set_option Elab.async false

namespace Sys2Proof.Machine

section
variable {P : Part → Bool}

section
variable (s : State) (n m k j : ℕ) (p : Port) (v : Word) (b : Beam) (raw body : List Byte) (x : SiteIx) (c c₂ : Bool) (t : ReachIx) (l : Line)
  (w : WideIx) (q : Fin 8) (i : BitVec 16) (h : Fin 32) (d : Fin 4) (a : MgtPath) (r r₂ : BitVec 4) (g : CombGroup) (e : Msg) (u : Fin 2) (y : Byte)
  (z z₂ : ℤ) (o : Subst) (dir : Dir) (op : OpSt)
@[simp] theorem containSite_look : look P (containSite x n m s) = look P s := by simp [containSite]
@[simp] theorem breakBeam_look : look P (breakBeam b s) = look P s := by simp [breakBeam]
@[simp] theorem endEcho_look : look P (endEcho s) = look P s := by simp [endEcho]
@[simp] theorem endEchoPort_look : look P (endEchoPort p s) = look P s := by simp [endEchoPort]
@[simp] theorem endEchoSite_look : look P (endEchoSite x s) = look P s := by simp [endEchoSite]
@[simp] theorem endEchoFibre_look : look P (endEchoFibre p s) = look P s := by simp [endEchoFibre]
@[simp] theorem portDark_look (hlight : P .light = false) (hgloom : P .gloom = false) : look P (portDark p n s) = look P s := by
  simp [hlight, hgloom, portDark]
@[simp] theorem portDarkBreak_look (hlight : P .light = false) (hgloom : P .gloom = false) : look P (portDarkBreak p n s) = look P s := by
  simp [hlight, hgloom, portDarkBreak]
@[simp] theorem setDev_look (d : DevState) (hdevice : P .device = false) (hgloom : P .gloom = false) : look P (setDev d s) = look P s := by
  simp [hdevice, hgloom, setDev]
@[simp] theorem portsDark_look (hlight : P .light = false) (hgloom : P .gloom = false) : look P (portsDark s) = look P s := by
  simp [hlight, hgloom, portsDark]
@[simp] theorem umbraEnter_look (hdark : ∀ p ∈ Part.dark, P p = false) : look P (umbraEnter s) = look P s := by
  refine (endEcho_look _).trans ((emit_look _ _).trans ((setDev_look _ _ (by simp [hdark]) (by simp [hdark])).trans ?_))
  exact (look_mk (s := portsDark s) (hcomb := by simp [hdark]) (hlit := by simp [hdark]) (hlight := by simp [hdark]) (hgloom := by
    simp [hdark])).trans
    (portsDark_look _ (by simp [hdark]) (by simp [hdark]))
@[simp] theorem goDark_look (hdark : ∀ p ∈ Part.dark, P p = false) : look P (goDark s) = look P s := by
  simp only [goDark]; (repeat' split) <;> simp [hdark]
@[simp] theorem fatalEvent_look (hdark : ∀ p ∈ Part.dark, P p = false) (hfatal : P .fatal = false) : look P (fatalEvent n m k s) = look P s :=
  (goDark_look _ hdark).trans ((look_mk (s := setEv 1 0 2 (logEvent 4 n m k s)) (hfatal := by simp [hfatal])).trans (by simp))

/-! ### Machine/Host.lean -/

@[simp] theorem bar_look (f : State → State) : look P (bar f s) = if s.host.d3hot then look P s else look P (f s) := by
  simp [bar]
@[simp] theorem runBar_look (f : State → State) (hf : Keeps P f) : Shows P s (runBar f s) := by simp_all [runBar]
@[simp] theorem badAccess_look (f : State → State) (hf : Keeps P f) (hwork : ∀ p ∈ Part.work, P p = false) : Shows P s (badAccess n f s) := by
  simp_all [badAccess]
@[simp] theorem regRow_look (f : State → State) (hf : Keeps P f) (hwork : ∀ p ∈ Part.work, P p = false) : Shows P s (regRow n v f s) := by
  simp_all [regRow]
@[simp] theorem sendToDie_look : look P (sendToDie x q e s) = look P s := by simp [sendToDie]
@[simp] theorem sendResp_look : look P (sendResp x n m s) = look P s := by simp [sendResp]
@[simp] theorem txStatus_look (c : MbxTx) : look P (txStatus c n s) = look P s := by simp [txStatus]
@[simp] theorem txStatus_host (c : MbxTx) : (txStatus c n s).host = s.host := by cases c <;> rfl
@[simp] theorem sendRejected_look (c : MbxTx) (haer : P .aer = false) : look P (sendRejected c s) = look P s :=
  (logEvent_look ..).trans ((look_mk (s := txStatus c stRejected s) (haer := by simp [haer])).trans (by simp))
@[simp] theorem txPlace_look (c : MbxTx) : look P (txPlace c e s) = look P s := by unfold txPlace; split <;> simp
@[simp] theorem mbxSendTo_look (c : MbxTx) (haer : P .aer = false) : look P (mbxSendTo c i s) = look P s := by simp [haer, mbxSendTo]
@[simp] theorem fwDieSend_look : look P (fwDieSend x q e s) = look P s := by simp [fwDieSend]
@[simp] theorem fwMessage_look (c : MbxTx) (ws : Vector Word 16) : look P (fwMessage c i ws s) = look P s := by
  simp only [fwMessage]; (repeat' split) <;> simp
@[simp] theorem execMbxSend_look (c : MbxTx) (fw : Option (Vector Word 16)) (haer : P .aer = false) : Shows P s (execMbxSend c i s fw) := by
  unfold execMbxSend; split <;> simp [haer]
@[simp] theorem nextReply_look (c : Fin 16) : look P (nextReply c s) = look P s := by unfold nextReply; split <;> simp
@[simp] theorem d2hTake_look : look P (d2hTake x q s) = look P s := by simp [d2hTake]
@[simp] theorem mbxTakeFrom_look (c : MbxRx) : look P (mbxTakeFrom c s) = look P s := by unfold mbxTakeFrom; split <;> simp
@[simp] theorem mbxTaken_look (c : MbxTx) : look P (mbxTaken c s) = look P s := by simp [mbxTaken]
@[simp] theorem fwTake_look (c : MbxRx) : look P (fwTake c s) = look P s := by simp only [fwTake]; (repeat' split) <;> simp
@[simp] theorem d2hAborted_look : look P (d2hAborted c x q s) = look P s := by simp [d2hAborted]
@[simp] theorem diesAborted_look : look P (diesAborted c s) = look P s := by simp [diesAborted]
@[simp] theorem mbxExpire_look (c : MbxTimer) : look P (mbxExpire c s) = look P s := by unfold mbxExpire; split <;> simp
@[simp] theorem ringFw_look (hfwDbl : P .fwDbl = false) : look P (ringFw v s) = look P s := by simp [hfwDbl, ringFw]
@[simp] theorem fwDoorbells_look (act : DblAct) (hfwDbl : P .fwDbl = false) (hhostDbl : P .hostDbl = false) :
    look P (fwDoorbells act v s) = look P s := by
  simp only [fwDoorbells]; (repeat' split) <;> simp [hfwDbl, hhostDbl]
@[simp] theorem ringSite_look : look P (ringSite x v s) = look P s := by simp [ringSite]
@[simp] theorem acquire_look : look P (acquire r h s).2 = look P s := by unfold acquire; split <;> simp
@[simp] theorem release_look : look P (release r h s) = look P s := by simp [release]
@[simp] theorem lckRead_look (m : Master) : look P (lckRead m h s) = look P s := by unfold lckRead; split <;> simp
@[simp] theorem msixChange_keeps (o : MsixWrite) (i : HostIf) : (msixChange o i).aer = i.aer ∧ (msixChange o i).bar2 = i.bar2 ∧
    (msixChange o i).was = i.was ∧ (msixChange o i).pend = i.pend := by
  cases o <;> simp [msixChange]
@[simp] theorem execMsixUnmask_look (o : MsixWrite) (hvec : P .vec = false) : Shows P s (execMsixUnmask o s) := by
  refine shows_run _ _ ?_
  split <;> simp [hvec]
@[simp] theorem cfgWrite_keeps (r : CfgReg) (i : HostIf) : (cfgWrite r v i).vec = i.vec ∧ (cfgWrite r v i).aer = i.aer ∧
    (cfgWrite r v i).bar2 = i.bar2 ∧ (cfgWrite r v i).was = i.was ∧ (cfgWrite r v i).pend = i.pend := by
  unfold cfgWrite
  split
  case h_8 => split_ifs <;> simp
  all_goals simp
@[simp] theorem cfgDo_look (r : CfgAccess) : look P (cfgDo s r) = look P s := by
  cases r <;> simp [cfgDo]
@[simp] theorem errStale_look : look P (errStale s) = look P s := by simp [errStale]
@[simp] theorem errRelease_look : look P (errRelease v s) = look P s := by simp [errRelease]
@[simp] theorem echoRefuse_look : look P (echoRefuse s) = look P s := by simp [echoRefuse]
@[simp] theorem echoStart_look (mode : BitVec 2) : look P (echoStart mode v c s) = look P s := by simp [echoStart]
@[simp] theorem echoTry_look (mode : BitVec 2) : look P (echoTry mode v i c s) = look P s := by simp [echoTry]
@[simp] theorem echoLine_look : look P (echoLine v s) = look P s := by simp [echoLine]
@[simp] theorem echoFibre_look : look P (echoFibre v s) = look P s := by simp [echoFibre]
@[simp] theorem echoModule_look : look P (echoModule v s) = look P s := by simp [echoModule]
@[simp] theorem echoStop_look (worst : BitVec 7) : look P (echoStop v n m worst s) = look P s := by simp [echoStop]

/-! ### Machine/Reservoir.lean -/

@[simp] theorem hbmCount_look (h : Stack) : look P (hbmCount h q n s) = look P s := by simp [hbmCount]
@[simp] theorem uncorrWord_look (hreservoir : P .reservoir = false) : look P (uncorrWord n m s) = look P s := by simp [hreservoir, uncorrWord]
@[simp] theorem correctWord_look (hreservoir : P .reservoir = false) : look P (correctWord c n s) = look P s := by
  unfold correctWord
  dsimp only
  split
  · exact (eventBit_look ..).trans ((look_mk (s := eventBit ..)).trans (by simp [hreservoir]))
  · simp [hreservoir]
@[simp] theorem missedWord_look (hreservoir : P .reservoir = false) : look P (missedWord c n s) = look P s := by simp [hreservoir, missedWord]
@[simp] theorem decodeWord_look (e : WordError) (hreservoir : P .reservoir = false) : look P (decodeWord n m e s).2 = look P s := by
  simp only [decodeWord]; (repeat' split) <;> simp [hreservoir]
@[simp] theorem hbmWrite_look (hreservoir : P .reservoir = false) : look P (hbmWrite n raw s) = look P s := by simp [hreservoir, hbmWrite]
@[simp] theorem wordContained_look (h : Stack) : look P (wordContained h s) = look P s := by simp [wordContained]
@[simp] theorem uncorrContained_look (hreservoir : P .reservoir = false) : look P (uncorrContained n m s) = look P s := by
  simp [hreservoir, uncorrContained]
@[simp] theorem demandRead_look (r : ℕ × WordError) (hreservoir : P .reservoir = false) : look P (demandRead n s r) = look P s := by
  simp [hreservoir, demandRead]
@[simp] theorem readRange_look (words : List (ℕ × WordError)) (hreservoir : P .reservoir = false) :
    look P (readRange n m k words s) = look P s := by simp [hreservoir, readRange]
@[simp] theorem bar4Refuse_look : look P (bar4Refuse n s) = look P s := by simp [bar4Refuse]
@[simp] theorem bar4ReadAt_look (words : List (ℕ × WordError)) (haer : P .aer = false) (hreservoir : P .reservoir = false) :
    look P (bar4ReadAt n m words s) = look P s := by
  simp [haer, hreservoir, bar4ReadAt]
@[simp] theorem bar4WriteAt_look (hreservoir : P .reservoir = false) : look P (bar4WriteAt n raw s) = look P s := by simp [hreservoir, bar4WriteAt]
@[simp] theorem apertureSet_look : look P (apertureSet v s) = look P s := by simp [apertureSet]
@[simp] theorem scrubSet_look : look P (scrubSet v s) = look P s := by simp [scrubSet]
@[simp] theorem scrubNext_look : look P (scrubNext s) = look P s := by simp [scrubNext]
@[simp] theorem scrubRead_look (e : WordError) (hreservoir : P .reservoir = false) : look P (scrubRead e s) = look P s := by
  simp [hreservoir, scrubRead]
@[simp] theorem setStack_look (h : Stack) (rate : BitVec 2) : look P (setStack h r rate s) = look P s := by simp [setStack]
@[simp] theorem stackFail_look (h : Stack) : look P (stackFail h s) = look P s := by simp [stackFail]

/-! ### Machine/Sideband.lean -/

@[simp] theorem setSite_look : look P (setSite x r s) = look P s := by simp [setSite]
@[simp] theorem wideForget_look : look P (wideForget x s) = look P s := by unfold wideForget; split <;> simp
@[simp] theorem reachForget_look : look P (reachForget x s) = look P s := by unfold reachForget; split <;> simp
@[simp] theorem siteReset_look : look P (siteReset x s) = look P s := by simp [siteReset]
@[simp] theorem siteDisable_look : look P (siteDisable x n s) = look P s := by simp [siteDisable]
@[simp] theorem siteActive_look : look P (siteActive x s) = look P s := by unfold siteActive; split <;> simp
@[simp] theorem siteRelease_look : look P (siteRelease x s) = look P s := by simp [siteRelease]
@[simp] theorem sbResendFrom_look : look P (sbResendFrom x n s) = look P s := by simp [sbResendFrom]
@[simp] theorem sbSlot_look (is : Byte → Bool) (f : Slot → State → State) (hf : ∀ m, Keeps P (f m)) :
    look P (sbSlot x raw is f s) = look P s := by
  unfold sbSlot; split <;> simp_all
@[simp] theorem sbRow_look (f : List Byte → State → State) (hf : ∀ l, Keeps P (f l)) : Shows P s (sbRow x raw y f s) := by
  simp_all [sbRow]
@[simp] theorem retryMsg_look : look P (retryMsg x raw s) = look P s := by simp [retryMsg]
@[simp] theorem levelMsg_look : look P (levelMsg x raw s) = look P s := by simp only [levelMsg]; (repeat' split) <;> simp
@[simp] theorem creditInitMsg_look : look P (creditInitMsg x raw s) = look P s := by simp [creditInitMsg]
@[simp] theorem creditMsg_look : look P (creditMsg x raw s) = look P s := by simp [creditMsg]
@[simp] theorem sendCredits_look (p : RxStream → Bool) : look P (sendCredits x p s) = look P s := by simp [sendCredits]
@[simp] theorem freeFrames_look : look P (freeFrames x n m s) = look P s := by simp [freeFrames]
@[simp] theorem mbxDataMsg_look : look P (mbxDataMsg x raw s) = look P s := by unfold mbxDataMsg; split <;> simp
@[simp] theorem mbxGoMsg_look : look P (mbxGoMsg x raw s) = look P s := by unfold mbxGoMsg; split <;> simp
@[simp] theorem goGone_look : look P (goGone x raw s) = look P s := by simp only [goGone]; (repeat' split) <;> simp
@[simp] theorem nextDie_look : look P (nextDie x q s) = look P s := by unfold nextDie; split <;> simp
@[simp] theorem dieGone_look : look P (dieGone x q n s) = look P s := by simp [dieGone]
@[simp] theorem mbxRespMsg_look (haer : P .aer = false) : look P (mbxRespMsg x raw s) = look P s := by
  simp only [mbxRespMsg]; (repeat' split) <;> simp [haer]
@[simp] theorem doorbellMsg_look (hfwDbl : P .fwDbl = false) (hhostDbl : P .hostDbl = false) : look P (doorbellMsg raw s) = look P s := by
  simp [hfwDbl, hhostDbl, doorbellMsg]
@[simp] theorem lockMsg_look : look P (lockMsg x raw s) = look P s := by unfold lockMsg; split <;> simp
@[simp] theorem reservedMsg_look : look P (reservedMsg x s) = look P s := by simp [reservedMsg]

/-! ### Machine/Wide.lean -/

@[simp] theorem suspectRx_look (m : Fin 33) (ls : List ℕ) : look P (suspectRx w m ls s) = look P s := by simp [suspectRx]
@[simp] theorem suspectTx_look (m : Fin 33) (ls : List ℕ) : look P (suspectTx w m ls s) = look P s := by simp [suspectTx]
@[simp] theorem modCount_look (m : Fin 33) : look P (modCount w m q n s) = look P s := by simp [modCount]
@[simp] theorem parityContained_look : look P (parityContained w s) = look P s := by simp [parityContained]
@[simp] theorem parityIdle_look : look P (parityIdle w s) = look P s := by simp [parityIdle]
@[simp] theorem protocolError_look : look P (protocolError x s) = look P s := by simp [protocolError]
@[simp] theorem completeRx_look : look P (completeRx x n s) = look P s := by simp only [completeRx]; (repeat' split) <;> simp
@[simp] theorem storeFrame_look (t : Transfer) : look P (storeFrame x n t s) = look P s := by simp [storeFrame]
@[simp] theorem headRx_look : look P (headRx x n raw s) = look P s := by unfold headRx; split <;> simp
@[simp] theorem dataRx_look : look P (dataRx x n raw s) = look P s := by simp only [dataRx]; (repeat' split) <;> simp
@[simp] theorem cleanFrame_look (t : FrameTyp) (good : BitVec 68) (lanes : List DWord) :
    look P (cleanFrame w h t good lanes s) = look P s := by
  simp only [cleanFrame]; (repeat' split) <;> simp
@[simp] theorem classRx_look (lanes : List DWord) : look P (classRx w h lanes s) = look P s := by
  unfold classRx; dsimp only; split <;> simp
@[simp] theorem sidebandParity_look (lanes : List DWord) : look P (sidebandParity w lanes s) = look P s := by
  simp [sidebandParity]
@[simp] theorem wtFrame_look (m : Fin 33) (lanes : List DWord) : look P (wtFrame w m lanes s) = look P s := by simp [wtFrame]
@[simp] theorem frameRx_look (m : Fin 33) (lanes : List DWord) : look P (frameRx w m lanes s) = look P s := by
  simp only [frameRx]; (repeat' split) <;> simp
@[simp] theorem sendWtA_look (m : Fin 33) : look P (sendWtA w m s) = look P s := by simp [sendWtA]
@[simp] theorem frameTx_look : look P (frameTx w h s) = look P s := by simp only [frameTx]; (repeat' split) <;> simp
@[simp] theorem repairStart_look (m : Fin 33) : look P (repairStart w m s) = look P s := by simp [repairStart]
@[simp] theorem repairMsgW_look : look P (repairMsgW w raw s) = look P s := by unfold repairMsgW; split <;> simp
@[simp] theorem repairTested_look (m : Fin 33) (noError : BitVec 68) : look P (repairTested w m noError s) = look P s := by
  simp [repairTested]
@[simp] theorem laneMapMsgW_look : look P (laneMapMsgW w raw s) = look P s := by unfold laneMapMsgW; split <;> simp
@[simp] theorem judgeModule_look (m : Fin 33) (before : Module) : look P (judgeModule w m before s) = look P s := by
  simp [judgeModule]
@[simp] theorem mapsApplyW_look : look P (mapsApplyW w v s) = look P s := by simp [mapsApplyW]
@[simp] theorem parityMsgW_look : look P (parityMsgW w raw s) = look P s := by unfold parityMsgW; split <;> simp
@[simp] theorem trainMaps_look (r : WideStep) : look P (trainMaps w r s) = look P s := by simp [trainMaps]
@[simp] theorem exchange_look : look P (exchange w s) = look P s := by simp [exchange]
@[simp] theorem reportDegraded_look : look P (reportDegraded w s) = look P s := by simp [reportDegraded]
@[simp] theorem sendOnAll_look (f : Fin 33 → List DWord) : look P (sendOnAll w f s) = look P s := by simp [sendOnAll]
@[simp] theorem sendReports_look : look P (sendReports w s) = look P s := by simp [sendReports]
@[simp] theorem alignStart_look : look P (alignStart w s) = look P s := by simp [alignStart]
@[simp] theorem testStart_look : look P (testStart w s) = look P s := by simp [testStart]
@[simp] theorem wpStep_look (r : WideStep) : look P (wpStep w r s) = look P s := by simp only [wpStep]; (repeat' split) <;> simp
@[simp] theorem siteHold_look : look P (siteHold x s) = look P s := by simp [siteHold]
@[simp] theorem siteUnhold_look : look P (siteUnhold x s) = look P s := by simp [siteUnhold]
theorem wpCmdEffect_look (mm : Fin 33) {s₂ : State} (hs : wpCmdEffect n w mm s = some s₂) : look P s₂ = look P s := by
  unfold wpCmdEffect at hs
  dsimp only at hs
  split_ifs at hs <;> simp [← Option.some.inj hs]
@[simp] theorem wpCmd_look (hsiteReg : P .siteReg = false) : look P (wpCmd n v s) = look P s := by
  unfold wpCmd
  dsimp only
  split
  · simp [hsiteReg]
  · split
    next h => exact (look_mk (s := onSite ..) (hsiteReg := by simp [hsiteReg])).trans ((onSite_look ..).trans (wpCmdEffect_look _ _ _ _ h))
    · simp [hsiteReg]

/-! ### Machine/Reach.lean -/

@[simp] theorem tpLaneCount_look : look P (tpLaneCount t h d n s) = look P s := by simp [tpLaneCount]
@[simp] theorem siteCount_look (k : Fin 16) : look P (siteCount x k n s) = look P s := by simp [siteCount]
@[simp] theorem suspectQuiet_look : look P (suspectQuiet t h s) = look P s := by simp [suspectQuiet]
@[simp] theorem suspectLane_look : look P (suspectLane t h s) = look P s := by simp [suspectLane]
@[simp] theorem fomWindow_look : look P (fomWindow t h y s) = look P s := by unfold fomWindow; dsimp only; split <;> simp
@[simp] theorem laneCorrected_look : look P (laneCorrected t h n s) = look P s := by simp [laneCorrected]
@[simp] theorem placed_look : look P (placed t s) = look P s := by simp [placed]
@[simp] theorem markerMissed_look : look P (markerMissed t h s) = look P s := by simp [markerMissed]
@[simp] theorem markerGood_look : look P (markerGood t h raw y s) = look P s := by simp [markerGood]
@[simp] theorem markerRx_look : look P (markerRx t h raw y s) = look P s := by simp [markerRx]
@[simp] theorem emitMarker_look : look P (emitMarker t h raw s) = look P s := by simp [emitMarker]
@[simp] theorem sendMarker_look : look P (sendMarker t s h) = look P s := by simp [sendMarker]
@[simp] theorem tpMarkers_look : look P (tpMarkers t s) = look P s := by simp [tpMarkers]
@[simp] theorem sendTrainFrame_look : look P (sendTrainFrame t h n s) = look P s := by simp [sendTrainFrame]
@[simp] theorem nextTrainFrame_look : look P (nextTrainFrame t h s) = look P s := by simp [nextTrainFrame]
@[simp] theorem trainFrame_look (status : Word) : look P (trainFrame t h v status s) = look P s := by simp [trainFrame]
@[simp] theorem sendQuadMap_look (good : BitVec 8) (serve : BitVec 8) : look P (sendQuadMap t good serve s) = look P s := by
  simp [sendQuadMap]
@[simp] theorem laneMapMsgR_look : look P (laneMapMsgR t raw s) = look P s := by simp [laneMapMsgR]
@[simp] theorem laneMapMsg_look : look P (laneMapMsg x raw s) = look P s := by unfold laneMapMsg; split <;> simp
@[simp] theorem judgeQuads_look : look P (judgeQuads t n s) = look P s := by simp [judgeQuads]
@[simp] theorem quadOut_look : look P (quadOut t q s) = look P s := by simp [quadOut]
@[simp] theorem mapsApplyR_look : look P (mapsApplyR t v s) = look P s := by simp only [mapsApplyR]; (repeat' split) <;> simp
@[simp] theorem mapsApply_look : look P (mapsApply x v s) = look P s := by unfold mapsApply; split <;> simp
@[simp] theorem retestStart_look : look P (retestStart t s) = look P s := by unfold retestStart; split <;> simp
@[simp] theorem repairMsgR_look : look P (repairMsgR t raw s) = look P s := by unfold repairMsgR; split <;> simp
@[simp] theorem repairMsg_look : look P (repairMsg x raw s) = look P s := by unfold repairMsg; split <;> simp
@[simp] theorem parityMsg_look : look P (parityMsg x raw s) = look P s := by unfold parityMsg; split <;> simp
@[simp] theorem retestEnd_look : look P (retestEnd t c s) = look P s := by unfold retestEnd; dsimp only; split <;> simp
@[simp] theorem exchangeR_look : look P (exchangeR t s) = look P s := by simp [exchangeR]
@[simp] theorem qualify_look (r : ReachStep) : look P (qualify t r s) = look P s := by simp [qualify]
@[simp] theorem reachStart_look : look P (reachStart t s) = look P s := by simp [reachStart]
@[simp] theorem tpStep_look (r : ReachStep) : look P (tpStep t r s) = look P s := by simp [tpStep]
@[simp] theorem spendErrors_look (es : List (ℕ × Sym)) : look P (spendErrors t q es s) = look P s := by simp [spendErrors]
@[simp] theorem slotErrors_look : look P (slotErrors t q c s raw).2 = look P s := by unfold slotErrors; split <;> simp
@[simp] theorem armInject_look (j : Inject) : look P (armInject t j s) = look P s := by simp [armInject]
@[simp] theorem injectWrite_look : look P (injectWrite n v s) = look P s := by simp [injectWrite]
@[simp] theorem injectStop_look : look P (injectStop v s) = look P s := by simp [injectStop]
@[simp] theorem checkersNow_look (hsiteReg : P .siteReg = false) : look P (checkersNow s) = look P s := by simp [hsiteReg, checkersNow]
@[simp] theorem checkLane_look (bits : List Bool) (hsiteReg : P .siteReg = false) : look P (checkLane t h bits s) = look P s := by
  simp [hsiteReg, checkLane]
@[simp] theorem patternRx_look (w : List Sym) (hsiteReg : P .siteReg = false) : look P (patternRx t q w s) = look P s := by simp [hsiteReg, patternRx]
@[simp] theorem patternTx_look (hsiteReg : P .siteReg = false) : look P (patternTx t q s) = look P s := by simp [hsiteReg, patternTx]
@[simp] theorem sendWord_look (w : List Sym) : look P (sendWord t q w s) = look P s := by simp [sendWord]
@[simp] theorem advTx_look : look P (advTx t q s) = look P s := by simp [advTx]
@[simp] theorem creditWait_look : look P (creditWait t q s) = look P s := by simp [creditWait]
@[simp] theorem trainTx_look : look P (trainTx t q s) = look P s := by simp [trainTx]
@[simp] theorem codewordTx_look (hsiteReg : P .siteReg = false) : look P (codewordTx t q s) = look P s := by
  simp only [codewordTx]; (repeat' split) <;> simp [hsiteReg]
@[simp] theorem sidebandTx_look : look P (sidebandTx x s) = look P s := by unfold sidebandTx; split <;> simp
@[simp] theorem patWrite_look (hsiteReg : P .siteReg = false) : look P (patWrite v s) = look P s := by simp [hsiteReg, patWrite]
theorem tpCmdEffect_look {s₂ : State} (hs : tpCmdEffect n t q s = some s₂) (hsiteReg : P .siteReg = false) : look P s₂ = look P s := by
  unfold tpCmdEffect at hs
  dsimp only at hs
  split_ifs at hs <;> simp [hsiteReg, ← Option.some.inj hs]
@[simp] theorem tpCmd_look (hsiteReg : P .siteReg = false) : look P (tpCmd n v s) = look P s := by
  unfold tpCmd
  dsimp only
  split
  · simp [hsiteReg]
  · split
    next h => exact (look_mk (s := onSite ..) (hsiteReg := by simp [hsiteReg])).trans ((onSite_look ..).trans (tpCmdEffect_look _ _ _ _ h hsiteReg))
    · simp [hsiteReg]
@[simp] theorem uncorrectableRx_look : look P (uncorrectableRx t q c s) = look P s := by simp [uncorrectableRx]
@[simp] theorem correctedRx_look (ps : List ℕ) : look P (correctedRx t q ps s) = look P s := by simp [correctedRx]
@[simp] theorem kindRx_look : look P (kindRx t n m raw s) = look P s := by simp [kindRx]

/-! ### Machine/Image.lean -/

@[simp] theorem applyDue_look : look P (applyDue s) = look P s := by simp [applyDue]
@[simp] theorem onImg_look (f : Msg → State → State) (hf : ∀ m, Keeps P (f m)) : look P (onImg n f s) = look P s := by
  unfold onImg; split <;> simp_all
@[simp] theorem clearArm_iter (c : Ctl) : (clearArm c).iter = c.iter := by unfold clearArm; split <;> rfl
@[simp] theorem abortRunning_look : look P (abortRunning s) = look P s := by
  unfold abortRunning
  split
  · exact imgReply_look ..
  · exact (imgReply_look ..).trans (look_mk (s := s))
  · rfl
@[simp] theorem killChunks_image (o : Load) : (killChunks o).image = o.image := rfl
@[simp] theorem discard_image (o : Load) : (discard o).image = o.image := rfl
@[simp] theorem imgBeginCmd_look : look P (imgBeginCmd e s) = look P s := by
  unfold imgBeginCmd
  dsimp only
  split
  · exact imgReply_look ..
  · exact (imgReply_look ..).trans ((look_mk (s := abortRunning s)).trans (abortRunning_look s))
@[simp] theorem imgChunkCmd_look : look P (imgChunkCmd e s) = look P s := by simp [imgChunkCmd]
@[simp] theorem execImgChunk_look : Shows P s (execImgChunk s) :=
  shows_run_of_keeps _ _ fun u => by split <;> simp
@[simp] theorem chunkDone_look (hreservoir : P .reservoir = false) : look P (chunkDone u s) = look P s := by
  unfold chunkDone; split <;> simp [hreservoir]
@[simp] theorem imgVerifyCmd_look : look P (imgVerifyCmd e s) = look P s := by simp [imgVerifyCmd]
@[simp] theorem refusedImage_look : look P (refusedImage n s) = look P s := by simp [refusedImage]
@[simp] theorem loadReads_look (ranges : List (ℕ × ℕ)) (words : List (ℕ × WordError)) (hreservoir : P .reservoir = false) :
    look P (loadReads ranges words s) = look P s := by
  simp [hreservoir, loadReads]
@[simp] theorem verifyDone_look (words : List (ℕ × WordError)) (hreservoir : P .reservoir = false) : look P (verifyDone words s) = look P s := by
  unfold verifyDone
  dsimp only
  split
  · rfl
  refine (imgReply_look ..).trans ?_
  split
  · exact (look_mk (s := loadReads ..)).trans (loadReads_look _ _ _ hreservoir)
  · exact (refusedImage_look ..).trans ((look_mk (s := loadReads ..)).trans (loadReads_look _ _ _ hreservoir))
@[simp] theorem imgAbortCore_look : look P (imgAbortCore s) = look P s := by
  unfold imgAbortCore
  split
  · rfl
  · exact (look_mk (s := abortRunning s)).trans (abortRunning_look s)
@[simp] theorem imgAbortCmd_look : look P (imgAbortCmd e s) = look P s := by simp [imgAbortCmd]
@[simp] theorem commitFullCmd_look : look P (commitFullCmd e s) = look P s := by simp [commitFullCmd]
@[simp] theorem commitRestartCmd_look : look P (commitRestartCmd e s) = look P s := by simp [commitRestartCmd]
@[simp] theorem copyResdata_look (ii : Image) (ll : List ResSec) (hreservoir : P .reservoir = false) :
    look P (copyResdata ii ll s) = look P s :=
  look_foldl _ _ _ fun _ _ => by dsimp only; split <;> simp [hreservoir]
@[simp] theorem mirrorNow_look : look P (mirrorNow s) = look P s := by simp [mirrorNow]
@[simp] theorem holdEndsFenced_look (f : Fence) : look P (holdEndsFenced n f s) = look P s := by simp [holdEndsFenced]
@[simp] theorem holdEnds_look : look P (holdEnds s) = look P s := by unfold holdEnds; split <;> simp
@[simp] theorem applyImage_look (c' : Image) (p : Image) (himage : P .image = false) (hreservoir : P .reservoir = false) :
    look P (applyImage c' p c s) = look P s := by
  simp only [applyImage]; (repeat' split) <;> simp [himage, hreservoir, ↓look_mk]
@[simp] theorem copyDone_look (words : List (ℕ × WordError)) (hwork : ∀ p ∈ Part.work, P p = false) : look P (copyDone words s) = look P s := by
  simp only [copyDone]; (repeat' split) <;> simp [hwork]
@[simp] theorem bar2Store_look (hwindow : P .window = false) : look P (bar2Store n raw s) = look P s := by simp [hwindow, bar2Store]
@[simp] theorem bar2Load_look : look P (bar2Load n m s) = look P s := by simp [bar2Load]

/-! ### Machine/Link.lean -/

@[simp] theorem beamOpen_look : look P (beamOpen b s) = look P s := by simp [beamOpen]
@[simp] theorem beamCount_look (k : Fin 16) : look P (beamCount b k n s) = look P s := by simp [beamCount]
@[simp] theorem pushCtl_look : look P (pushCtl b r raw s) = look P s := by simp [pushCtl]
@[simp] theorem beamFirst_look : look P (beamFirst b s) = look P s := by simp [beamFirst]
@[simp] theorem initResend_look : look P (initResend b s) = look P s := by simp [initResend]
@[simp] theorem initDone_look : look P (initDone b s) = look P s := by simp [initDone]
@[simp] theorem initMsg_look : look P (initMsg b raw s) = look P s := by simp [initMsg]
@[simp] theorem resume_look : look P (resume b s) = look P s := by simp [resume]
@[simp] theorem tryResume_look : look P (tryResume b s) = look P s := by simp [tryResume]
@[simp] theorem headerRx_look (f : Flit) : look P (headerRx b f s) = look P s := by simp [headerRx]
@[simp] theorem flitFailed_look : look P (flitFailed b s) = look P s := by simp [flitFailed]
@[simp] theorem foreignFlit_look : look P (foreignFlit s) = look P s := by simp [foreignFlit]
@[simp] theorem trimsApply_look : look P (trimsApply b s) = look P s := by simp [trimsApply]
@[simp] theorem flitCame_look : look P (flitCame b raw s) = look P s := by simp [flitCame]
@[simp] theorem flitTaken_look (o : Option Flit) (f : Flit → State → State) (hf : ∀ m, Keeps P (f m)) :
    look P (flitTaken b o r f s) = look P s := by
  unfold flitTaken; split <;> simp_all
@[simp] theorem flitRx_look (f : Flit → State → State) (hf : ∀ m, Keeps P (f m)) : look P (flitRx b raw r f s) = look P s := by
  simp_all [flitRx]
@[simp] theorem wholeRx_look (f : Flit → State → State) (hf : ∀ m, Keeps P (f m)) : look P (wholeRx b raw r f s) = look P s := by
  simp_all [wholeRx]
@[simp] theorem ctlRx_look (f : List Byte → State → State) (hf : ∀ m, Keeps P (f m)) : look P (ctlRx b raw r f s) = look P s := by
  simp_all [ctlRx]
@[simp] theorem nakMsg_look : look P (nakMsg b raw s) = look P s := by simp [nakMsg]
@[simp] theorem sendNaks_look (ns : List (BitVec 16)) : look P (sendNaks b ns s) = look P s := by simp [sendNaks]
@[simp] theorem aheadRx_look (f : Flit) : look P (aheadRx b f s) = look P s := by simp [aheadRx]
@[simp] theorem dataRxFlit_look (f : Flit) : look P (dataRxFlit b f s) = look P s := by simp [dataRxFlit]
@[simp] theorem lineWordRx_look (w : LineWord) : look P (lineWordRx p w s).2 = look P s := by simp [lineWordRx]
@[simp] theorem lineWordsRx_look (ws : List LineWord) : look P (lineWordsRx p ws s).2 = look P s := by
  unfold lineWordsRx
  suffices ∀ a : List FecReport × State,
      look P (ws.foldl (fun a w => let r := lineWordRx p w a.2; (a.1 ++ [r.1], r.2)) a).2 = look P a.2 from this _
  induction ws with
  | nil => simp
  | cons w r ih => simp [ih]
@[simp] theorem fecRx_look (rs : List FecReport) : look P (fecRx p rs s) = look P s := by simp [fecRx]
@[simp] theorem codeLogged_look (code : CodeResult) : look P (codeLogged p code s) = look P s := by simp [codeLogged]
@[simp] theorem dataFlitRx_look (words : List LineWord) (code : CodeResult) : look P (dataFlitRx b raw words code s) = look P s := by
  simp [dataFlitRx]
@[simp] theorem lineSend_look : look P (lineSend p l n s) = look P s := by
  induction n generalizing s with
  | zero => rfl
  | succ k ih => simp [lineSend, ih]
@[simp] theorem bytesOut_look : look P (bytesOut p l raw s) = look P s := by simp [bytesOut]
@[simp] theorem stripeOut_look : look P (stripeOut b raw s) = look P s := by simp [stripeOut]
@[simp] theorem wholeOut_look : look P (wholeOut b raw s) = look P s := by simp [wholeOut]
@[simp] theorem sendFlit_look (cls : BitVec 2) (put : Beam → List Byte → State → State) (via : List Byte → List Byte)
    (hp : ∀ b l, Keeps P (put b l)) :
    look P (sendFlit b r cls c c₂ r₂ i raw s put via) = look P s := by
  simp_all [sendFlit]
@[simp] theorem sendCtl_look (c : CtlFlit) : look P (sendCtl b c s) = look P s := by unfold sendCtl; split <;> simp
@[simp] theorem sendData_look (o : OutFlit) (code : CodeResult) : look P (sendData b i o s code) = look P s := by simp [sendData]
@[simp] theorem sendIdle_look : look P (sendIdle b s) = look P s := by simp [sendIdle]
@[simp] theorem countWait_look : look P (countWait b s) = look P s := by simp [countWait]
@[simp] theorem countFull_look : look P (countFull b s) = look P s := by simp [countFull]
@[simp] theorem sendNew_look (o : OutFlit) (rest : List OutFlit) (code : CodeResult) : look P (sendNew b o rest s code) = look P s := by
  simp [sendNew]
@[simp] theorem tentStart_look : look P (tentStart b s) = look P s := by unfold tentStart; split <;> simp
@[simp] theorem grantBack_look : look P (grantBack b s) = look P s := by simp [grantBack]
@[simp] theorem flitNext_look (code : CodeResult) : look P (flitNext b s code) = look P s := by
  simp only [flitNext]; (repeat' split) <;> simp
@[simp] theorem flitTx_look (code : CodeResult) : look P (flitTx b s code) = look P s := by simp [flitTx]
@[simp] theorem replayGrant_look : look P (replayGrant p s) = look P s := by simp only [replayGrant]; (repeat' split) <;> simp
@[simp] theorem learnPeer_look (peerRx : LineSet) : look P (learnPeer b peerRx s) = look P s := by
  unfold learnPeer; split <;> simp
@[simp] theorem joinLines_look (old : LineSet) (new : LineSet) : look P (joinLines b old new s) = look P s := by
  refine look_foldl _ _ _ fun n t => ?_
  dsimp only
  split
  · exact onLine_look ..
  · exact (flag_look ..).trans ((look_mk (s := onLine ..)).trans (onLine_look ..))
@[simp] theorem leaveLines_look (m : LineSet) : look P (leaveLines p m s) = look P s := by simp [leaveLines]
@[simp] theorem freeSubs_look (m : LineSet × LineSet) : look P (freeSubs b m s) = look P s := by simp [freeSubs]
@[simp] theorem goApply_look (number : BitVec 8) (m : LineSet × LineSet) : look P (goApply b number m s) = look P s := by
  simp [goApply]
@[simp] theorem putRequest_look (m : LineSet × LineSet) : look P (putRequest b m s) = look P s := by
  unfold putRequest; split <;> simp
@[simp] theorem askRetrain_look : look P (askRetrain b s) = look P s := by simp [askRetrain]
@[simp] theorem requestMsg_look : look P (requestMsg b raw s) = look P s := by simp [requestMsg]
@[simp] theorem requestResend_look : look P (requestResend b s) = look P s := by unfold requestResend; split <;> simp
@[simp] theorem goMsg_look : look P (goMsg b raw s) = look P s := by simp [goMsg]
@[simp] theorem retrainEnds_look : look P (retrainEnds b s) = look P s := by unfold retrainEnds; split <;> simp
@[simp] theorem deskewDone_look : look P (deskewDone b s) = look P s := by unfold deskewDone; split <;> simp
@[simp] theorem readyMsg_look : look P (readyMsg b raw s) = look P s := by simp only [readyMsg]; (repeat' split) <;> simp
@[simp] theorem retrainExpires_look : look P (retrainExpires b s) = look P s := by simp [retrainExpires]
@[simp] theorem retransmit_look : look P (retransmit b s) = look P s := by unfold retransmit; dsimp only; split <;> simp
@[simp] theorem queueFlits_look (l : List OutFlit) : look P (queueFlits b l s) = look P s := by simp [queueFlits]

/-! ### Machine/Halo.lean -/

@[simp] theorem reloadRows_look (hring : P .ring = false) : look P (reloadRows p s) = look P s := by simp [hring, reloadRows]
@[simp] theorem moveRow_look (hring : P .ring = false) : look P (moveRow n z s) = look P s := by simp [hring, moveRow]
@[simp] theorem relockRing_look (hring : P .ring = false) : look P (relockRing n s) = look P s := by simp [hring, relockRing]

/-! ### Machine/Ports.lean -/

@[simp] theorem widthCheck_look : look P (widthCheck p s) = look P s := by
  unfold widthCheck
  dsimp only
  split
  next h => exact (flag_look ..).trans (onPort_look _ _ _ fun _ => ⟨by simp [show (s.port[p.val]).state = 3 from h.1], rfl⟩)
  · split
    next h => exact (flag_look ..).trans (onPort_look _ _ _ fun _ => ⟨by simp [show (s.port[p.val]).state = 4 from h.1], rfl⟩)
    · rfl
@[simp] theorem setOut_look : look P (setOut p l n c s) = look P s := by simp [setOut]
@[simp] theorem putSub_look (u : Option Subst) : look P (putSub p d u s) = look P s := by simp [putSub]
@[simp] theorem subSend_look : look P (subSend p n o c s) = look P s := by simp [subSend]
@[simp] theorem withMarker_look : look P (withMarker o s).2 = look P s := by simp [withMarker]
@[simp] theorem stopCal_look : look P (stopCal p l c s) = look P s := by simp [stopCal]
@[simp] theorem takeSpare_look : look P (takeSpare p d o s) = look P s := by simp [takeSpare]
@[simp] theorem ownerGo_look : look P (ownerGo p d o c s) = look P s := by unfold ownerGo; split <;> simp
@[simp] theorem startReturn_look : look P (startReturn p d o s) = look P s := by simp [startReturn]
@[simp] theorem startSub_look : look P (startSub p d o s) = look P s := by simp [startSub]
@[simp] theorem serveNeeds_look : look P (serveNeeds p d s) = look P s := by unfold serveNeeds; split <;> simp
@[simp] theorem joinNeeds_look : look P (joinNeeds p o s) = look P s := by simp [joinNeeds]
@[simp] theorem abandonCal_look : look P (abandonCal p d s) = look P s := by unfold abandonCal; split <;> simp
@[simp] theorem subRelocks_look (hring : P .ring = false) : look P (subRelocks p d o s) = look P s := by simp [hring, subRelocks]
@[simp] theorem subServes_look (hring : P .ring = false) : look P (subServes p d o s) = look P s := by simp [hring, subServes]
@[simp] theorem raiseSub_look (u : Subst) (hring : P .ring = false) : look P (raiseSub p d o u s) = look P s := by simp [hring, raiseSub]
theorem needSpare_look {s₂ : State} (hs : needSpare p c o s = some s₂) (hring : P .ring = false) : look P s₂ = look P s := by
  unfold needSpare at hs
  dsimp only at hs
  split at hs
  · cases hs
  · split at hs
    · simp [← Option.some.inj hs]
    · split_ifs at hs <;> simp [hring, ← Option.some.inj hs]
@[simp] theorem subEnd_look : look P (subEnd p d c s) = look P s := by unfold subEnd; split <;> simp
@[simp] theorem subCalibrates_look : look P (subCalibrates p d o s) = look P s := by simp [subCalibrates]
@[simp] theorem subRecovered_look : look P (subRecovered p d o s) = look P s := by unfold subRecovered; split <;> simp
@[simp] theorem subStands_look (hring : P .ring = false) : look P (subStands p d o s) = look P s := by simp [hring, subStands]
@[simp] theorem subReturned_look : look P (subReturned p d o s) = look P s := by simp [subReturned]
@[simp] theorem lineRemoved_look : look P (lineRemoved p l s) = look P s := by unfold lineRemoved; split <;> simp
@[simp] theorem lineNeeds_look (reason : BitVec 8) (hring : P .ring = false) : look P (lineNeeds p l reason c s) = look P s := by
  unfold lineNeeds
  dsimp only
  split
  · simp
  · split
    next h => rw [widthCheck_look, needSpare_look _ _ _ _ h hring]; simp
    · simp
@[simp] theorem spareLost_look : look P (spareLost p l s) = look P s := by simp [spareLost]
@[simp] theorem lineLost_look (hring : P .ring = false) : look P (lineLost p l s) = look P s := by simp [hring, lineLost]
@[simp] theorem lineBack_look : look P (lineBack p l s) = look P s := by simp only [lineBack]; (repeat' split) <;> simp
@[simp] theorem ringMoves_look (hring : P .ring = false) : look P (ringMoves p l n s) = look P s := by simp [hring, ringMoves]
@[simp] theorem markerCame_look (place : BitVec 24) : look P (markerCame p l v place s) = look P s := by simp [markerCame]
@[simp] theorem wrongLine_look (hring : P .ring = false) : look P (wrongLine p l n s) = look P s := by simp [hring, wrongLine]
@[simp] theorem rightLine_look : look P (rightLine p l i s) = look P s := by simp [rightLine]
@[simp] theorem lineMarkerRx_look (hring : P .ring = false) : look P (lineMarkerRx p l raw s) = look P s := by simp [hring, lineMarkerRx]
@[simp] theorem ringsPlace_look (hring : P .ring = false) : look P (ringsPlace p s) = look P s := by simp [hring, ringsPlace]
@[simp] theorem markerTx_look : look P (markerTx p l s) = look P s := by simp [markerTx]
@[simp] theorem idleTx_look : look P (idleTx p l s) = look P s := by simp [idleTx]
@[simp] theorem clockTx_look : look P (clockTx p s) = look P s := by simp [clockTx]
@[simp] theorem markersTx_look : look P (markersTx s) = look P s := by simp [markersTx]
@[simp] theorem takeOverAsked_look (hring : P .ring = false) : look P (takeOverAsked p d b l raw s) = look P s := by
  simp only [takeOverAsked]; (repeat' split) <;> simp [hring]
@[simp] theorem returnAsked_look : look P (returnAsked p d l s) = look P s := by unfold returnAsked; split <;> simp
@[simp] theorem subRequestMsg_look (hring : P .ring = false) : look P (subRequestMsg b raw s) = look P s := by
  unfold subRequestMsg; split <;> simp [hring]
@[simp] theorem goTakeOver_look : look P (goTakeOver p d b l raw s) = look P s := by unfold goTakeOver; split <;> simp
@[simp] theorem goReturn_look : look P (goReturn p d b l raw s) = look P s := by unfold goReturn; split <;> simp
@[simp] theorem subGoMsg_look : look P (subGoMsg b raw s) = look P s := by unfold subGoMsg; split <;> simp
@[simp] theorem subMarker_look (hring : P .ring = false) : look P (subMarker p c v s) = look P s := by
  unfold subMarker; dsimp only; split <;> simp [hring]
@[simp] theorem subAppliedMsg_look (hring : P .ring = false) : look P (subAppliedMsg b raw s) = look P s := by
  simp only [subAppliedMsg]; (repeat' split) <;> simp [hring]
@[simp] theorem subRepeat_look : look P (subRepeat p dir c s) = look P s := by unfold subRepeat; dsimp only; split <;> simp
@[simp] theorem requalify_look : look P (requalify p l dir s) = look P s := by simp [requalify]
@[simp] theorem requalified_look : look P (requalified p l n c s) = look P s := by simp [requalified]
@[simp] theorem trainStep_look : look P (trainStep p r s) = look P s := by simp [trainStep]
@[simp] theorem pausePort_look : look P (pausePort p s) = look P s := by simp [pausePort]
@[simp] theorem trainPort_look (hlight : P .light = false) (hgloom : P .gloom = false) : look P (trainPort p r s) = look P s := by
  simp [hlight, hgloom, trainPort]
@[simp] theorem retrainPort_look (hlight : P .light = false) (hgloom : P .gloom = false) : look P (retrainPort p r s) = look P s := by
  simp [hlight, hgloom, retrainPort]
@[simp] theorem trainFails_look (hlight : P .light = false) (hgloom : P .gloom = false) : look P (trainFails p n m s) = look P s := by
  simp [hlight, hgloom, trainFails]
@[simp] theorem judgePartner_look (hlight : P .light = false) (hgloom : P .gloom = false) : look P (judgePartner p n m k s) = look P s := by
  simp only [judgePartner]; (repeat' split) <;> simp [hlight, hgloom]
@[simp] theorem assignSpare_look (hring : P .ring = false) : look P (assignSpare p d s) = look P s := by
  unfold assignSpare; dsimp only; split <;> simp [hring]
@[simp] theorem onPort_qualified_look : look P (onPort p qualified s) = look P s := onPort_look _ _ _ fun _ => ⟨by rw [qualified], by rw [qualified]⟩
@[simp] theorem masksExchanged_look (hring : P .ring = false) : look P (masksExchanged p s) = look P s := by simp [hring, masksExchanged]
@[simp] theorem trainMsg_look (hlight : P .light = false) (hring : P .ring = false) (hgloom : P .gloom = false) :
    look P (trainMsg p raw s) = look P s := by
  simp [hlight, hgloom, hring, trainMsg]
@[simp] theorem trainRx_look (hlight : P .light = false) (hring : P .ring = false) (hgloom : P .gloom = false) :
    look P (trainRx p raw s) = look P s := by
  unfold trainRx; split <;> simp [hlight, hgloom, hring]
@[simp] theorem lightBeam_look : look P (lightBeam b s) = look P s := by simp [lightBeam]
@[simp] theorem lightPort_look : look P (lightPort p s) = look P s := by simp [lightPort]
@[simp] theorem portOpens_look (hlight : P .light = false) (hgloom : P .gloom = false) : look P (portOpens p s) = look P s := by
  simp [hlight, hgloom, portOpens]
@[simp] theorem portQualifies_look (counts : List (ℕ × Bool)) (hring : P .ring = false) : look P (portQualifies p counts s) = look P s := by
  simp [hring, portQualifies]
@[simp] theorem portStep_look (r : PortStep) (hlight : P .light = false) (hring : P .ring = false) (hgloom : P .gloom = false) :
    look P (portStep p r s) = look P s := by
  simp [hlight, hgloom, hring, portStep]
theorem prtCmdEffect_look {s₂ : State} (hs : prtCmdEffect n p s = some s₂) (hlight : P .light = false) (hgloom : P .gloom = false) :
    look P s₂ = look P s := by
  unfold prtCmdEffect at hs
  dsimp only at hs
  split_ifs at hs <;> simp [hlight, hgloom, ← Option.some.inj hs]
@[simp] theorem prtCmd_look (hlight : P .light = false) (hgloom : P .gloom = false) : look P (prtCmd n v s) = look P s := by
  unfold prtCmd
  dsimp only
  split
  · simp [hlight, hgloom]
  · split
    next h => exact (look_mk (s := onPort ..)).trans ((onPort_look _ _ _ (by simp [hlight, hgloom])).trans (prtCmdEffect_look _ _ _ h hlight hgloom))
    · simp [hlight, hgloom]

/-! ### Machine/Plans.lean -/

@[simp] theorem setShed_look : look P (setShed p s) = look P s := by simp [setShed]
@[simp] theorem putDim_look (d : LineSet) : look P (putDim p d s) = look P s := by simp [putDim]
@[simp] theorem portDim_look : look P (portDim p s) = look P s := by simp [portDim]
@[simp] theorem pairDim_look : look P (pairDim p s) = look P s := by simp [pairDim]
@[simp] theorem dimApply_look : look P (dimApply s) = look P s := by simp [dimApply]
/-- What is seen of the ports stays when each keeps its state and whether it probes. -/
theorem light_vmk (f : PortSt → Port → PortSt) (h : ∀ q p, (f q p).state = q.state ∧ (f q p).probing = q.probing) :
    (vmk 64 fun p => f s.port[p.val] p).map (fun q => (decide (q.state = 0), q.probing)) = s.port.map fun q => (decide (q.state = 0), q.probing) :=
  Vector.ext fun i hi => by simp [vmk, h]
@[simp] theorem switchStart_look (r : PlanRec) : look P (switchStart r s) = look P s := by
  unfold switchStart
  split
  · rfl
  · have light := light_vmk s (fun q p => { q with switchQ := q.switchQ ++ [portSwitch s r p] }) fun _ _ => ⟨rfl, rfl⟩
    exact look_mk (hlight := fun _ => light) (hgloom := fun _ => ⟨rfl, rfl, rfl, light⟩)
@[simp] theorem onPort_setStage_look (e : SwitchStage) : look P (onPort p (setStage n e) s) = look P s := onPort_look _ _ _ fun _ => ⟨Iff.rfl, rfl⟩
@[simp] theorem switchPauses_look (e : PortSwitch) : look P (switchPauses p e s) = look P s := by simp [switchPauses]
@[simp] theorem switchArrive_look : look P (switchArrive p s) = look P s := by unfold switchArrive; split <;> simp
@[simp] theorem heldSwitch_look : look P (heldSwitch p s) = look P s := by unfold heldSwitch; split <;> simp
@[simp] theorem noteLocked_look : look P (noteLocked b s) = look P s := by simp [noteLocked]
@[simp] theorem renewRequest_look : look P (renewRequest b s) = look P s := by simp [renewRequest]
@[simp] theorem switchLines_look : look P (switchLines b s) = look P s := by simp [switchLines]
@[simp] theorem switchBeam_look (new : PlanBlock) : look P (switchBeam p new b s) = look P s := by
  unfold switchBeam; split <;> simp
@[simp] theorem dropSubs_look (new : PlanBlock) : look P (dropSubs p new s) = look P s := by
  unfold dropSubs
  dsimp only
  rw [look_foldl]
  · simp
  · intro i u
    dsimp only
    split <;> simp
@[simp] theorem showPlan_look : look P (showPlan n i s) = look P s := by simp [showPlan]
@[simp] theorem switchAnchor_look : look P (switchAnchor p s) = look P s := by
  unfold switchAnchor
  dsimp only
  split
  · simp
  next e _ =>
  have turned : look P (onPort p (fun q => { anchored e.serial (blockTx e.block &&& ~~~ blockTx (blockNow (heldSwitch p s) p)) q with
      block := some (e.planId, e.block), dimmed := dimmedLines (heldSwitch p s) p e.block }) (showPlan e.serial e.planId (heldSwitch p s))) =
      look P (showPlan e.serial e.planId (heldSwitch p s)) := onPort_look _ _ _ fun _ => ⟨Iff.rfl, rfl⟩
  simp [turned]
@[simp] theorem execSwitchRingsSet_look (hring : P .ring = false) : Shows P s (execSwitchRingsSet p s) :=
  shows_run_of_keeps _ _ fun u => by split <;> simp [hring]
@[simp] theorem switchComplete_look : look P (switchComplete p s) = look P s := by unfold switchComplete; split <;> simp
@[simp] theorem planInstall_look (r : PlanRec) : look P (planInstall r s) = look P s := by
  refine (look_foldl _ _ _ fun p t => by simp).trans ?_
  have light := light_vmk s (fun q p => { q with block := some (r.planId, blockIn r p), switchQ := [] }) fun _ _ => ⟨rfl, rfl⟩
  exact look_mk (hlight := fun _ => light) (hgloom := fun _ => ⟨rfl, rfl, rfl, light⟩)
@[simp] theorem planWithdraw_look : look P (planWithdraw s) = look P s := by simp [planWithdraw]

/-! ### Machine/Rings.lean -/

@[simp] theorem setpointCheck_look (hring : P .ring = false) : look P (setpointCheck n s) = look P s := by simp [hring, setpointCheck]
@[simp] theorem ringVisit_look (hring : P .ring = false) : look P (ringVisit n m s) = look P s := by simp [hring, ringVisit]
@[simp] theorem rowCode_look (c : CodeResult) (hlight : P .light = false) (hring : P .ring = false) (hgloom : P .gloom = false) :
    look P (rowCode p c s) = look P s := by
  unfold rowCode; split <;> simp [hlight, hgloom, hring]
@[simp] theorem rowMissed_look (c : CodeResult) (hring : P .ring = false) : look P (rowMissed n c s) = look P s := by
  unfold rowMissed; split <;> simp [hring]
@[simp] theorem tileSample_look (counts : List ℕ) (hring : P .ring = false) : look P (tileSample counts s) = look P s := by simp [hring, tileSample]
@[simp] theorem hintMsg_look (hring : P .ring = false) : look P (hintMsg x raw s) = look P s := by simp [hring, hintMsg]
@[simp] theorem hintLearn_look (hring : P .ring = false) : look P (hintLearn p x z s) = look P s := by
  unfold hintLearn; dsimp only; split <;> simp [hring]
@[simp] theorem markDue_look : look P (markDue p s) = look P s := by simp [markDue]
@[simp] theorem zoneEvent_look (was : Option ℤ) : look P (zoneEvent p was z s n) = look P s := by simp [zoneEvent]
@[simp] theorem zoneSample_look : look P (zoneSample p z s) = look P s := by simp [zoneSample]
@[simp] theorem calStart_look (hring : P .ring = false) : look P (calStart p l dir s) = look P s := by
  unfold calStart
  dsimp only
  split
  · rfl
  · split
    · exact onCal_look ..
    · rfl
    · cases h : needSpare p (dir == Dir.rx) _ s with
      | none => rfl
      | some u => exact needSpare_look _ _ _ _ h hring
@[simp] theorem calOverdue_look : look P (calOverdue p l dir s) = look P s := by unfold calOverdue; dsimp only; split <;> simp
@[simp] theorem ringFix_look (m : CalMeasure) (hring : P .ring = false) : look P (ringFix n m s) = look P s := by simp [hring, ringFix]
@[simp] theorem ringsCalibrated_look (hring : P .ring = false) : look P (ringsCalibrated p l dir s) = look P s := by simp [hring, ringsCalibrated]
@[simp] theorem calApply_look (m : CalMeasure) (hring : P .ring = false) : look P (calApply p l dir m s) = look P s := by simp [hring, calApply]
@[simp] theorem calReturns_look : look P (calReturns p l c s) = look P s := by unfold calReturns; dsimp only; split <;> simp
@[simp] theorem calDone_look (m : CalMeasure) (hring : P .ring = false) : look P (calDone p l dir m s) = look P s := by simp [hring, calDone]
@[simp] theorem samplerTrim_look : look P (samplerTrim p l n s) = look P s := by simp [samplerTrim]
@[simp] theorem takePeaks_look (peaks : List ℤ) (hring : P .ring = false) : look P (takePeaks n peaks s) = look P s := by
  induction peaks generalizing s with
  | nil => rfl
  | cons x r ih => simp [hring, takePeaks, ih]
@[simp] theorem sweepRing_look (w : GlintSweep) (hring : P .ring = false) : look P (sweepRing p w n s) = look P s := by
  simp only [sweepRing]; (repeat' split) <;> simp [hring, ↓look_mk]
@[simp] theorem coldSweep_look (w : GlintSweep) (hring : P .ring = false) : look P (coldSweep p w s) = look P s := by simp [hring, coldSweep]
@[simp] theorem glintCal_look (ll : List (CalMeasure × CalMeasure)) (hring : P .ring = false) : look P (glintCal p ll s) = look P s :=
  look_foldl _ _ _ fun _ _ => by dsimp only; split <;> simp [hring]
@[simp] theorem glintDone_look (f : GlintFound) (hlight : P .light = false) (hring : P .ring = false) (hgloom : P .gloom = false) :
    look P (glintDone p c f s) = look P s := by simp [hlight, hgloom, hring, glintDone]

/-! ### Machine/Power.lean -/

@[simp] theorem startEnds_look : look P (startEnds s) = look P s := by simp [startEnds]
@[simp] theorem reasonStep_look (now : BitVec 11) (c : Fin 11) : look P (reasonStep now s c) = look P s := by simp [reasonStep]
@[simp] theorem raiseTo_look (o : Pwr) : (raiseTo n o).energy = o.energy := by simp [raiseTo]
@[simp] theorem opMove_look : look P (opMove s) = look P s := by simp [opMove]
@[simp] theorem railWrite_look (was : Pwr) : look P (railWrite was s) = look P s := by simp [railWrite]
@[simp] theorem restamp_look : look P (restamp n s) = look P s := by simp [restamp]
@[simp] theorem pwrSettle_look (f : State → State) : look P (pwrSettle f s) = look P (f s) := by simp [pwrSettle]
@[simp] theorem raiseGo_look : look P (raiseGo s) = look P s := by unfold raiseGo; split <;> simp
@[simp] theorem execRailSettled_look : Shows P s (execRailSettled n s) :=
  shows_run_of_keeps _ _ fun u => by
    rw [pwrSettle_look]
    split <;> simp
@[simp] theorem shedStep_look : look P (shedStep s n) = look P s := by simp [shedStep]
@[simp] theorem restoreStep_look : look P (restoreStep s n) = look P s := by simp [restoreStep]
@[simp] theorem capWatch_look : look P (capWatch c c₂ s) = look P s := by simp [capWatch]
@[simp] theorem capStep_look : look P (capStep n s) = look P s := by simp only [capStep]; (repeat' split) <;> simp
@[simp] theorem policyTakes_look : look P (policyTakes s) = look P s := by simp [policyTakes]
@[simp] theorem tilesRescale_look : look P (tilesRescale s) = look P s := by simp [tilesRescale]
@[simp] theorem thmCond_look : look P (thmCond n c s) = look P s := by simp [thmCond]
@[simp] theorem tripFatal_look (hdark : ∀ p ∈ Part.dark, P p = false) (hfatal : P .fatal = false) : look P (tripFatal s) = look P s := by
  simp only [tripFatal]; (repeat' split) <;> simp [hdark, hfatal, ↓look_mk]
@[simp] theorem takeSensors_look (temps8 : List (Option ℤ)) (failed : List ℕ) : look P (takeSensors temps8 failed s) = look P s := by
  simp [takeSensors]
@[simp] theorem heatForce_look : look P (heatForce z s) = look P s := by simp [heatForce]
@[simp] theorem sensorForce_look : look P (sensorForce s) = look P s := by simp [sensorForce]
@[simp] theorem execThermalCeilingStep_look (w : CeilingStep) : Shows P s (execThermalCeilingStep w s) := by
  unfold execThermalCeilingStep; split <;> simp
@[simp] theorem agingCluster_look (c : Fin 16) (haging : P .aging = false) : look P (agingCluster s c) = look P s := by simp [haging, agingCluster]
@[simp] theorem pwrCtrl_look : look P (pwrCtrl v s) = look P s := by simp [pwrCtrl]
@[simp] theorem thmWarn_look : look P (thmWarn v s) = look P s := by simp [thmWarn]
@[simp] theorem mgtCode_look (c : CodeResult) (hdark : ∀ p ∈ Part.dark, P p = false) (hfatal : P .fatal = false) :
    look P (mgtCode c s) = look P s := by
  simp only [mgtCode]; (repeat' split) <;> simp [hdark, hfatal, ↓look_mk]
@[simp] theorem snapshot_look (hsnap : P .snap = false) : look P (snapshot s) = look P s := by simp [hsnap, snapshot]

/-! ### Machine/Comb.lean -/

@[simp] theorem groupCheck_look (hcomb : P .comb = false) (hgloom : P .gloom = false) : look P (groupCheck g s) = look P s := by
  simp [hcomb, hgloom, groupCheck]
@[simp] theorem gridLoop_look (d : CombDie) (hcomb : P .comb = false) (hgloom : P .gloom = false) : look P (gridLoop g d z z₂ s) = look P s := by
  simp [hcomb, hgloom, gridLoop]
@[simp] theorem crossCheck_look (est : List (Port × Line × ℤ)) (hcomb : P .comb = false) (hgloom : P .gloom = false) :
    look P (crossCheck est s p) = look P s := by
  simp only [crossCheck]; (repeat' split) <;> simp [hcomb, hgloom]
@[simp] theorem dieReport_look (d : CombDie) (launches : List ℤ) (hcomb : P .comb = false) (hgloom : P .gloom = false) :
    look P (dieReport g d launches s) = look P s := by
  simp [hcomb, hgloom, dieReport]
@[simp] theorem biasLoop_look (d : CombDie) (est : List (Port × Line × ℤ)) (hcomb : P .comb = false) (hgloom : P .gloom = false) :
    look P (biasLoop g d est z s) = look P s := by
  simp only [biasLoop]; (repeat' split) <;> simp [hcomb, hgloom]
@[simp] theorem thermalReduction_look (d : CombDie) (hcomb : P .comb = false) (hgloom : P .gloom = false) :
    look P (thermalReduction g d z s) = look P s := by
  simp [hcomb, hgloom, thermalReduction]
@[simp] theorem flashFailed_look : look P (flashFailed s) = look P s := by simp [flashFailed]
@[simp] theorem agingRecord_look (e : CombGroup × CombDie) (haging : P .aging = false) (hcomb : P .comb = false) (hgloom : P .gloom = false) :
    look P (agingRecord s e) = look P s := by simp [haging, hcomb, hgloom, agingRecord]
@[simp] theorem agingWrite_look (haging : P .aging = false) (hcomb : P .comb = false) (hgloom : P .gloom = false) :
    look P (agingWrite c s) = look P s := by
  simp [haging, hcomb, hgloom, agingWrite]
@[simp] theorem darkFor_look (hlight : P .light = false) (hgloom : P .gloom = false) : look P (darkFor n s p) = look P s := by
  simp only [darkFor]; (repeat' split) <;> simp [hlight, hgloom]
@[simp] theorem openFibre_look (hlight : P .light = false) (hgloom : P .gloom = false) : look P (openFibre p s) = look P s := by
  simp [hlight, hgloom, openFibre]
@[simp] theorem posExhausted_look (hcomb : P .comb = false) (hgloom : P .gloom = false) : look P (posExhausted g d s) = look P s := by
  simp [hcomb, hgloom, posExhausted]
@[simp] theorem dieFails_look (d : CombDie) (hcomb : P .comb = false) (hlight : P .light = false) (hgloom : P .gloom = false) :
    look P (dieFails g d s) = look P s := by
  unfold dieFails; dsimp only; split <;> simp [hcomb, hlight, hgloom]
@[simp] theorem spareRamp_look (hcomb : P .comb = false) (hgloom : P .gloom = false) : look P (spareRamp g s) = look P s := by
  unfold spareRamp; split <;> simp [hcomb, hgloom]
@[simp] theorem spareLocked_look (hcomb : P .comb = false) (hgloom : P .gloom = false) : look P (spareLocked g s) = look P s := by
  unfold spareLocked; dsimp only; split <;> simp [hcomb, hgloom]
@[simp] theorem swapStart_look (hcomb : P .comb = false) (hgloom : P .gloom = false) : look P (swapStart g d s) = look P s := by
  simp [hcomb, hgloom, swapStart]
@[simp] theorem swapPort_look (hlight : P .light = false) (hgloom : P .gloom = false) : look P (swapPort s p) = look P s := by
  simp [hlight, hgloom, swapPort]
@[simp] theorem swapFinish_look (hcomb : P .comb = false) (hlight : P .light = false) (hgloom : P .gloom = false) :
    look P (swapFinish g d s) = look P s := by
  simp [hcomb, hlight, hgloom, swapFinish]
@[simp] theorem probeBegin_look (hlight : P .light = false) (hring : P .ring = false) (hgloom : P .gloom = false) :
    look P (probeBegin p s) = look P s := by
  simp [hlight, hgloom, hring, probeBegin]
@[simp] theorem glintEnter_look (hlight : P .light = false) (hgloom : P .gloom = false) : look P (glintEnter p s) = look P s := by
  simp [hlight, hgloom, glintEnter]
@[simp] theorem probeLight_look (hlight : P .light = false) (hring : P .ring = false) (hgloom : P .gloom = false) :
    look P (probeLight p n s) = look P s := by
  simp [hlight, hgloom, hring, probeLight]
@[simp] theorem probeFinish_look (hlight : P .light = false) (hring : P .ring = false) (hgloom : P .gloom = false) :
    look P (probeFinish p s) = look P s := by
  simp [hlight, hgloom, hring, probeFinish]
@[simp] theorem rxPower_look : look P (rxPower p l z s) = look P s := by simp [rxPower]
@[simp] theorem clockLost_look (c : ClockLoss) (hring : P .ring = false) : look P (clockLost c s) = look P s := by
  unfold clockLost; split <;> simp [hring]

/-! ### Machine/Mgmt.lean -/

@[simp] theorem pkgFailBit_look : look P (pkgFailBit n s) = look P s := by simp [pkgFailBit]
@[simp] theorem bootRead_look : look P (bootRead s) = look P s :=
  onMgt_look _ _ (by split <;> simp) (by split <;> simp) (by split <;> simp) (by split <;> simp) (by split <;> simp)
@[simp] theorem fwTo_look : look P (fwTo r s) = look P s := by simp [fwTo]
@[simp] theorem slotFails_look : look P (slotFails u s) = look P s := by simp [slotFails]
@[simp] theorem retirePending_look : look P (retirePending s u) = look P s := by simp [retirePending]
@[simp] theorem slotRuns_look : look P (slotRuns u s) = look P s := by simp [slotRuns]
@[simp] theorem slotTry_look : look P (slotTry u s).2 = look P s := by simp only [slotTry]; (repeat' split) <;> simp
@[simp] theorem recover_look (hdark : ∀ p ∈ Part.dark, P p = false) : look P (recover s) = look P s := by simp [hdark, recover]
@[simp] theorem romBoot_look (hdark : ∀ p ∈ Part.dark, P p = false) : look P (romBoot s) = look P s := by
  simp only [romBoot]; (repeat' split) <;> simp [hdark]
@[simp] theorem h2fAborted_look (c : Fin 16) : look P (h2fAborted s c) = look P s := by simp [h2fAborted]
@[simp] theorem i3cAborted_look : look P (i3cAborted v s) = look P s := by simp [i3cAborted]
@[simp] theorem runAborted_look (c : Fin 16) : look P (runAborted a c n i s) = look P s := by unfold runAborted; split <;> simp
@[simp] theorem imgLost_look : look P (imgLost s) = look P s := look_mk (s := s)
@[simp] theorem burn_look (hfuses : P .fuses = false) : look P (burn n s) = look P s := by simp [hfuses, burn]
@[simp] theorem confirmCut_look (hfuses : P .fuses = false) : look P (confirmCut s) = look P s := by simp [hfuses, confirmCut]
@[simp] theorem mgmtReset_look (hdark : ∀ p ∈ Part.dark, P p = false) (hfuses : P .fuses = false) : look P (mgmtReset s) = look P s := by
  simp only [mgmtReset]; (repeat' split) <;> simp [hdark, hfuses, ↓look_mk]
@[simp] theorem fwTo_sec : (fwTo r s).sec = s.sec := by unfold fwTo; split <;> rfl
@[simp] theorem fwReady_look : look P (fwReady s) = look P s := by
  have loaded : look P (flag blkMGT 0 0 { fwTo fwRunning s with sec := { s.sec with attReady := Config.secretOk } }) = look P s :=
    (flag_look ..).trans ((look_mk (s := fwTo fwRunning s)).trans (by simp))
  unfold fwReady
  dsimp only
  split
  · rfl
  split
  · exact (imgReply_look ..).trans ((look_mk (s := flag ..)).trans loaded)
  · exact loaded
@[simp] theorem lockstep_look (hdark : ∀ p ∈ Part.dark, P p = false) (hfatal : P .fatal = false) (hfuses : P .fuses = false) :
    look P (lockstep s) = look P s := by
  simp only [lockstep]; (repeat' split) <;> simp [hdark, hfatal, hfuses]
@[simp] theorem mgtTake_look : look P (mgtTake a s) = look P s := by unfold mgtTake; split <;> simp
@[simp] theorem onCmd_look (f : Msg → State → State) (hf : ∀ m, Keeps P (f m)) : look P (onCmd a n f s) = look P s := by
  unfold onCmd; split <;> simp_all
@[simp] theorem mgtQueryCmd_look : look P (mgtQueryCmd a e s) = look P s := by simp [mgtQueryCmd]
@[simp] theorem updRefused_look : look P (updRefused n s) = look P s := by simp [updRefused]
@[simp] theorem updError_look : look P (updError a n i m s) = look P s := by simp [updError]
@[simp] theorem fwBeginCmd_look : look P (fwBeginCmd a e s) = look P s := by simp [fwBeginCmd]
@[simp] theorem eraseDone_look (hflash : P .flash = false) : look P (eraseDone c s) = look P s := by unfold eraseDone; split <;> simp [hflash]
@[simp] theorem fwChunkCmd_look : look P (fwChunkCmd a e s) = look P s := by simp only [fwChunkCmd]; (repeat' split) <;> simp
@[simp] theorem chunkProgrammed_look (hflash : P .flash = false) : look P (chunkProgrammed c s) = look P s := by
  simp only [chunkProgrammed]; (repeat' split) <;> simp [hflash]
@[simp] theorem fwVerifyCmd_look : look P (fwVerifyCmd a e s) = look P s := by unfold fwVerifyCmd; split <;> simp
@[simp] theorem fwVerified_look : look P (fwVerified c s) = look P s := by unfold fwVerified; split <;> simp
@[simp] theorem fwActivateCmd_look : look P (fwActivateCmd a e s) = look P s := by unfold fwActivateCmd; split <;> simp
@[simp] theorem activatedBoot_look : look P (activatedBoot u s) = look P s := by simp [activatedBoot]
@[simp] theorem fwActivated_look : look P (fwActivated c s) = look P s := by unfold fwActivated; split <;> simp
@[simp] theorem endRun_look (r : MgtRun) : look P (endRun r s) = look P s := by simp [endRun]
@[simp] theorem fwConfirmCmd_look : look P (fwConfirmCmd a e s) = look P s := by simp [fwConfirmCmd]
@[simp] theorem confirmedBoot_look : look P (confirmedBoot u s) = look P s := by simp [confirmedBoot]
@[simp] theorem fwConfirmed_look (hfuses : P .fuses = false) : look P (fwConfirmed c s) = look P s := by unfold fwConfirmed; split <;> simp [hfuses]
@[simp] theorem attestCmd_look : look P (attestCmd a e s) = look P s := by simp [attestCmd]
@[simp] theorem attestDone_look (hreport : P .report = false) : look P (attestDone s) = look P s := by unfold attestDone; split <;> simp [hreport]
@[simp] theorem combSwapCmd_look (hcomb : P .comb = false) (hgloom : P .gloom = false) : look P (combSwapCmd a e s) = look P s := by
  simp [hcomb, hgloom, combSwapCmd]
@[simp] theorem combSwapDone_look (hcomb : P .comb = false) (hlight : P .light = false) (hgloom : P .gloom = false) :
    look P (combSwapDone s) = look P s := by
  simp only [combSwapDone]; (repeat' split) <;> simp [hcomb, hlight, hgloom]
@[simp] theorem fatalReadCmd_look (hreport : P .report = false) : look P (fatalReadCmd a e s) = look P s := by
  simp only [fatalReadCmd]; (repeat' split) <;> simp [hreport]
@[simp] theorem fatalClearCmd_look : look P (fatalClearCmd a e s) = look P s := by simp [fatalClearCmd]
@[simp] theorem fatalCleared_look (hfatals : P .fatals = false) : look P (fatalCleared c s) = look P s := by
  unfold fatalCleared; split <;> simp [hfatals]
@[simp] theorem fatalStored_look (hfatals : P .fatals = false) : look P (fatalStored c s) = look P s := by
  unfold fatalStored; split <;> simp [hfatals]
@[simp] theorem undefCmd_look (ch : FwChannel) : look P (undefCmd ch s) = look P s := by
  simp only [undefCmd]; (repeat' split) <;> simp
@[simp] theorem capMgmtSet_look : look P (capMgmtSet v s) = look P s := by simp [capMgmtSet]
@[simp] theorem i3cGoSet_look : look P (i3cGoSet s) = look P s := by simp [i3cGoSet]
@[simp] theorem i3cRspClear_look : look P (i3cRspClear s) = look P s := by simp only [i3cRspClear]; (repeat' split) <;> simp
@[simp] theorem i3cOn_look (f : State → State) (hf : look P (f s) = look P s) : look P (i3cOn f s) = look P s := by
  simp_all [i3cOn]
@[simp] theorem i3cWord_look (hstage : P .stage = false) : look P (i3cWord n v s) = look P s := by
  unfold i3cWord
  split_ifs <;> simp [hstage]
@[simp] theorem i3cWrite_look (ws : List Word) (hstage : P .stage = false) : look P (i3cWrite n ws s) = look P s := by
  induction ws generalizing s n with
  | nil => simp [hstage, i3cWrite]
  | cons v r ih => simp [hstage, i3cWrite, ih]
@[simp] theorem i3cReadWords_look (ws : List Word) : look P (i3cReadWords n ws s).2 = look P s := by
  induction n generalizing s ws with
  | zero => rfl
  | succ k ih => simp [i3cReadWords, ih]

/-! ### Machine/Reset.lean -/

@[simp] theorem bootCut_look (s₂ : State) : look P (bootCut s s₂) = look P s₂ := by unfold bootCut; dsimp only; split <;> simp
@[simp] theorem resetRelease_look (r : ResetPin) (hdark : ∀ p ∈ Part.dark, P p = false) (hsupply : P .supply = false) :
    look P (resetRelease r s) = look P s := by
  have released : look P { s with dev := setPin r false s.dev } = look P s := by
    cases r <;> exact look_mk (s := s) (hsupply := by simp [hsupply]) (hdevice := fun _ => rfl) (hlit := fun _ => rfl) (hfatal := fun _ => rfl)
      (hgloom := by simp [hdark])
  unfold resetRelease
  dsimp only
  split
  · exact (romBoot_look _ hdark).trans released
  · exact released
@[simp] theorem hostInboxCleared_look : look P (hostInboxCleared s) = look P s := by simp [hostInboxCleared]
@[simp] theorem hostSideCleared_look (hhostDbl : P .hostDbl = false) : look P (hostSideCleared s) = look P s := by simp [hhostDbl, hostSideCleared]
@[simp] theorem pcieUpdateClosed_look : look P (pcieUpdateClosed s) = look P s := by unfold pcieUpdateClosed; split <;> simp
@[simp] theorem functionReset_look (haer : P .aer = false) (hhostDbl : P .hostDbl = false) (hvec : P .vec = false) (hwas : P .was = false) :
    look P (functionReset s) = look P s := by simp [haer, hhostDbl, hvec, hwas, functionReset]
@[simp] theorem penumbraReplies_look : look P (penumbraReplies s) = look P s := by simp [penumbraReplies]
@[simp] theorem penumbraEntry_look (hdevice : P .device = false) (hgloom : P .gloom = false) : look P (penumbraEntry s) = look P s := by
  simp [hdevice, hgloom, penumbraEntry]
@[simp] theorem combGroupStart_look (hcomb : P .comb = false) (hgloom : P .gloom = false) : look P (combGroupStart g s) = look P s := by
  simp [hcomb, hgloom, combGroupStart]
@[simp] theorem combLockTimeout_look (hcomb : P .comb = false) (hlight : P .light = false) (hgloom : P .gloom = false) :
    look P (combLockTimeout g d s) = look P s := by
  simp [hcomb, hlight, hgloom, combLockTimeout]
@[simp] theorem stackTrained_look (h : Stack) (r : Option HbmRate) : look P (stackTrained h r s) = look P s := by
  simp only [stackTrained]; (repeat' split) <;> simp
@[simp] theorem zeroRegion_look (r : RegionRec) (hreservoir : P .reservoir = false) : look P (zeroRegion s r) = look P s := by
  simp [hreservoir, zeroRegion]
@[simp] theorem regionsInit_look (i : Image) (hreservoir : P .reservoir = false) : look P (regionsInit i s) = look P s := by
  simp [hreservoir, regionsInit]
@[simp] theorem sqCommit_look : look P (sqCommit s) = look P s := by simp [sqCommit]
@[simp] theorem siteCommit_look : look P (siteCommit s x) = look P s := by simp [siteCommit]
@[simp] theorem laneCountersClear_look (hsiteReg : P .siteReg = false) : look P (laneCountersClear s) = look P s := by
  simp [hsiteReg, laneCountersClear]
@[simp] theorem trainAgain_look (hlight : P .light = false) (hgloom : P .gloom = false) : look P (trainAgain p s) = look P s := by
  simp [hlight, hgloom, trainAgain]
@[simp] theorem portCommit_look (hlight : P .light = false) (hgloom : P .gloom = false) : look P (portCommit s p) = look P s := by
  simp [hlight, hgloom, portCommit]
@[simp] theorem swapsDue_look (hcomb : P .comb = false) (hgloom : P .gloom = false) : look P (swapsDue s) = look P s :=
  look_foldl _ _ _ fun g t => look_foldl _ _ _ fun d u => by
    dsimp only
    split
    · exact swapStart_look _ _ _ hcomb hgloom
    · rfl
@[simp] theorem rowsRepaired_look : look P (rowsRepaired s) = look P s := by simp [rowsRepaired]
@[simp] theorem commitApply_look (i : Image) (hcomb : P .comb = false) (himage : P .image = false) (hiter : P .iter = false)
    (hlight : P .light = false) (hlitEntry : P .litEntry = false) (hreservoir : P .reservoir = false) (hsiteReg : P .siteReg = false)
        (hslots : P .slots = false) (hgloom : P .gloom = false) :
    look P (commitApply i s) = look P s := by simp [hcomb, himage, hiter, hlight, hgloom, hlitEntry, hreservoir, hsiteReg, hslots, commitApply]
@[simp] theorem fullCommitDone_look (words : List (ℕ × WordError)) (hwork : ∀ p ∈ Part.work, P p = false) (hcomb : P .comb = false)
    (hlight : P .light = false) (hlitEntry : P .litEntry = false) (hsiteReg : P .siteReg = false) (hgloom : P .gloom = false) :
    look P (fullCommitDone words s) = look P s := by
  simp only [fullCommitDone]; (repeat' split) <;> simp [hwork, hcomb, hlight, hgloom, hlitEntry, hsiteReg, ↓look_mk]
@[simp] theorem litStart_look (hdevice : P .device = false) (hlight : P .light = false) (hlitEntry : P .litEntry = false)
    (hgloom : P .gloom = false) :
    look P (litStart s) = look P s := by simp only [litStart]; (repeat' split) <;> simp [hdevice, hlight, hgloom, hlitEntry]
@[simp] theorem programStarts_look : look P (programStarts s) = look P s := by simp [programStarts]
@[simp] theorem withdrawArm_look : look P (withdrawArm s) = look P s := by
  unfold withdrawArm
  split
  · exact (imgReply_look ..).trans (look_mk (s := s))
  · rfl
@[simp] theorem dropPhase_iter (c : Ctl) : (dropPhase c).iter = c.iter := rfl
@[simp] theorem penumbraStop_look : look P (penumbraStop s) = look P s := by
  unfold penumbraStop
  dsimp only
  split
  · exact (noticeAll_look ..).trans (look_mk (s := s))
  · exact look_mk (s := s)
/-- Outside Umbra nothing that may emit light is seen of a state as such. -/
theorem look_of_awake (hs : s.dev.state ≠ .umbra) (s₂ : State) (hs₂ : s₂.dev.state ≠ .umbra)
    (h : look (fun q => P q && decide (q ≠ .gloom)) s₂ = look (fun q => P q && decide (q ≠ .gloom)) s) : look P s₂ = look P s := by
  refine look_eq_iff.mpr fun q hq => ?_
  by_cases hg : q = .gloom
  · subst hg
    exact (if_neg hs₂).trans (if_neg hs).symm
  · exact look_eq_iff.mp h q (by simp [hq, hg])
theorem setDev_state (d : DevState) : (setDev d s).dev.state = d := by
  unfold setDev
  split
  next h => exact h
  next => exact look_eq_iff.mp (flag_look (P := fun q => decide (q = .device)) ..) .device rfl
theorem penumbraEffect_device : (penumbraEffect s).dev.state = .penumbra := by
  let D : Part → Bool := fun q => decide (q = .device)
  have kept {s₂ s₃ : State} (h : look D s₂ = look D s₃) : s₂.dev.state = s₃.dev.state := look_eq_iff.mp h .device rfl
  unfold penumbraEffect
  extract_lets s1 s2 s3 s4
  have h2 : s2.dev.state = .penumbra := by simp only [s2, setDev_state]
  have h3 : s3.dev.state = s2.dev.state := by
    have hlight : D .light = false := rfl
    have hgloom : D .gloom = false := rfl
    have shown : look D s3 = look D s2 := by simp [hlight, hgloom, s3]
    exact kept shown
  have h4 : s4.dev.state = s3.dev.state := by
    have shown : look D s4 = look D s3 := by simp [s4]
    exact kept shown
  have h5 : (pwrSettle (fun s => s) s4).dev.state = s4.dev.state := kept (pwrSettle_look ..)
  have h6 : (penumbraReplies (pwrSettle (fun s => s) s4)).dev.state = (pwrSettle (fun s => s) s4).dev.state := kept (penumbraReplies_look ..)
  rw [h6, h5, h4, h3, h2]
theorem penumbraEffect_look (hs : s.dev.state ≠ .umbra) (hdevice : P .device = false) (hlight : P .light = false) :
    look P (penumbraEffect s) = look P s := by
  refine look_of_awake s hs _ (by rw [penumbraEffect_device]; decide) ?_
  unfold penumbraEffect
  extract_lets s1 s2 s3 s4
  rw [penumbraReplies_look, pwrSettle_look]
  have h1 : look (fun q => P q && decide (q ≠ .gloom)) s1 = look (fun q => P q && decide (q ≠ .gloom)) s := by simp [s1]
  have h2 : look (fun q => P q && decide (q ≠ .gloom)) s2 = look (fun q => P q && decide (q ≠ .gloom)) s1 := by simp [hdevice, s2]
  have h3 : look (fun q => P q && decide (q ≠ .gloom)) s3 = look (fun q => P q && decide (q ≠ .gloom)) s2 := by simp [hlight, s3]
  have h4 : look (fun q => P q && decide (q ≠ .gloom)) s4 = look (fun q => P q && decide (q ≠ .gloom)) s3 := by simp [s4]
  rw [h4, h3, h2, h1]
theorem lit_of_penumbraDue (h : penumbraDue s = true) : s.dev.state = .lit := by
  simp only [penumbraDue, Bool.and_eq_true, beq_iff_eq] at h
  exact h.1.1.1.1.1
@[simp] theorem penumbraCheck_look (hdevice : P .device = false) (hlight : P .light = false) : look P (penumbraCheck s) = look P s := by
  unfold penumbraCheck
  split
  next due => exact penumbraEffect_look s (by rw [lit_of_penumbraDue s due]; decide) hdevice hlight
  next => rfl
@[simp] theorem stopAfter_look (s₂ : State) (hdevice : P .device = false) (hlight : P .light = false) : look P (stopAfter s s₂) = look P s₂ := by
  simp [hdevice, hlight, stopAfter]
@[simp] theorem stopping_look (f : State → State) (hdevice : P .device = false) (hlight : P .light = false) :
    look P (stopping f s) = look P (f s) := by simp [hdevice, hlight, stopping]
@[simp] theorem penumbraCmd_look (hdevice : P .device = false) (hlight : P .light = false) : look P (penumbraCmd e s) = look P s := by
  unfold penumbraCmd; split <;> simp [hdevice, hlight]
@[simp] theorem execDevPenumbra_look (hdevice : P .device = false) (hlight : P .light = false) : Shows P s (execDevPenumbra s) :=
  shows_run_of_keeps _ _ fun u => by split <;> simp [hdevice, hlight]
@[simp] theorem penumbraTimeout_look (hdevice : P .device = false) (hlight : P .light = false) : look P (penumbraTimeout s) = look P s := by
  simp [hdevice, hlight, penumbraTimeout]
@[simp] theorem litComplete_look (hdevice : P .device = false) (hlight : P .light = false) (hlitEntry : P .litEntry = false)
    (hgloom : P .gloom = false) :
    look P (litComplete s) = look P s := by
  unfold litComplete
  dsimp only
  split
  · rfl
  rw [penumbraCheck_look _ hdevice hlight, programStarts_look, pwrSettle_look, setDev_look _ _ hdevice hgloom]
  exact (look_mk (s := if s.err.echo.mode = 2 then endEcho s else s) (hlit := by simp [hlitEntry]) (hgloom := by simp [hgloom])).trans (by simp)

/-! ### Machine/Buffers.lean -/

@[simp] theorem countRead_look (l : Loc) : look P (countRead l n s) = look P s := by unfold countRead; split <;> simp
@[simp] theorem noteWritten_look (l : Loc) : look P (noteWritten l n s) = look P s := by simp [noteWritten]
@[simp] theorem locWrite_look (l : Loc) (hreservoir : P .reservoir = false) (hstaging : P .staging = false) :
    look P (locWrite l raw s) = look P s := by unfold locWrite; split <;> simp [hreservoir, hstaging]
@[simp] theorem freeNamed_look : look P (freeNamed x n m s) = look P s := by simp only [freeNamed]; (repeat' split) <;> simp
@[simp] theorem nameTransfer_look : look P (nameTransfer x n m s) = look P s := by simp [nameTransfer]
@[simp] theorem takeNamed_look : look P (takeNamed s) = look P s := by simp [takeNamed]
@[simp] theorem dropUnnamed_look : look P (dropUnnamed s) = look P s := by simp [dropUnnamed]
@[simp] theorem queueTransfer_look : look P (queueTransfer x n m raw s) = look P s := by simp [queueTransfer]
@[simp] theorem sendPieces_look (ps : List (ℕ × List Byte)) : look P (sendPieces n ps s) = look P s := by
  unfold sendPieces; split <;> simp
@[simp] theorem applyOutputs_look (hreservoir : P .reservoir = false) (hstaging : P .staging = false) : look P (applyOutputs s) = look P s := by
  unfold applyOutputs
  rw [look_foldl _ _ _ (by simp)]
  exact look_foldl _ _ _ fun _ _ => by dsimp only; split <;> simp [hreservoir, hstaging]

/-! ### Machine/Receive.lean -/

@[simp] theorem dropStale_look : look P (dropStale b n s) = look P s := by
  induction n generalizing s with
  | zero => rfl
  | succ k ih => unfold dropStale; split <;> simp [ih]
@[simp] theorem finishDispatch_look : look P (finishDispatch n op s) = look P s := by simp [finishDispatch]
@[simp] theorem closeWindows_look : look P (closeWindows s) = look P s := by simp [closeWindows]
@[simp] theorem finishDispatches_look : look P (finishDispatches s) = look P s := by simp [finishDispatches]

/-! ### Machine/Seq.lean -/

@[simp] theorem pcTo_look : look P (pcTo n s) = look P s := by simp [pcTo]
@[simp] theorem pcNext_look : look P (pcNext s) = look P s := by simp [pcNext]
@[simp] theorem instrRow_look (col : Col) (word : DWord) (bad : State → Option ℕ) (f : State → State) (hf : Keeps P f)
    (hwork : ∀ p ∈ Part.work, P p = false) :
    Shows P s (instrRow col word bad f s) := by
  unfold instrRow; split <;> simp_all; split <;> simp_all
@[simp] theorem phaseRun_look : look P (phaseRun s) = look P s := by simp [phaseRun]
@[simp] theorem phaseCheck_look : look P (phaseCheck s) = look P s := by simp [phaseCheck]
@[simp] theorem afterWait_look (hdevice : P .device = false) (hlight : P .light = false) : look P (afterWait s) = look P s := by
  simp [hdevice, hlight, afterWait]
@[simp] theorem phaseOpens_look (hdevice : P .device = false) (hlight : P .light = false) : look P (phaseOpens c v s) = look P s := by
  rw [phaseOpens, afterWait_look _ hdevice hlight, pcNext_look]
  exact look_mk (s := s)
@[simp] theorem waitAdds_look (w : WaitCond) (hdevice : P .device = false) (hlight : P .light = false) : look P (waitAdds w s) = look P s := by
  simp [hdevice, hlight, waitAdds]
@[simp] theorem fetchAsk_look (i : FetchItem) (hslots : P .slots = false) : look P (fetchAsk i s) = look P s := by
  simp only [fetchAsk]; (repeat' split) <;> simp [hslots]
@[simp] theorem fetchFill_look (i : FetchItem) (hslots : P .slots = false) : look P (fetchFill i s) = look P s := by
  unfold fetchFill; split <;> simp [hslots]
@[simp] theorem fetchReads_look (i : FetchItem) (words : List (ℕ × WordError)) (hreservoir : P .reservoir = false) :
    look P (fetchReads i words s) = look P s := by
  unfold fetchReads; dsimp only; split <;> simp [hreservoir]
@[simp] theorem fetchEmpty_look (i : FetchItem) (hslots : P .slots = false) : look P (fetchEmpty i s) = look P s := by
  unfold fetchEmpty; split <;> simp [hslots]
@[simp] theorem switchRun_look (r : Option PlanRec) : look P (switchRun n r s) = look P s := by unfold switchRun; split <;> simp
@[simp] theorem switchResolve_look (w : DWord) (hwork : ∀ p ∈ Part.work, P p = false) : Shows P s (switchResolve n w s) := by
  unfold switchResolve
  dsimp only
  split
  · simp [hwork]
  split
  · simp
  split
  · simp [hwork]
  · exact ⟨_, rfl, (look_mk (s := fetchAsk ..)).trans (by simp [hwork])⟩
@[simp] theorem execSwitch_look (vreg : Fin 16) (hwork : ∀ p ∈ Part.work, P p = false) : Shows P s (execSwitch c c₂ vreg i s) := by
  simp only [execSwitch]; (repeat' split) <;> simp [hwork]
@[simp] theorem fetchResume_look (i : FetchItem) (hdevice : P .device = false) (hlight : P .light = false) :
    look P (fetchResume i s) = look P s := by unfold fetchResume; split <;> simp [hdevice, hlight]
@[simp] theorem execFetchComplete_look (it : FetchItem) (words : List (ℕ × WordError)) (hwork : ∀ p ∈ Part.work, P p = false)
    (hdevice : P .device = false)
    (hlight : P .light = false) : Shows P s (execFetchComplete it s words) := by
  have read : look P (fetchReads it words { s with ctl := { s.ctl with fetches := s.ctl.fetches.filter fun j => j != it } }) = look P s :=
    (fetchReads_look _ _ _ (by simp [hwork])).trans look_mk
  have filled := (fetchFill_look _ it (by simp [hwork])).trans read
  unfold execFetchComplete
  dsimp only
  split
  · exact shows_done _ _ rfl
  split
  · exact shows_done _ _ (by simp [hwork, hdevice, hlight])
  split
  · split
    · exact hostError_look _ _ _ hwork filled
    · exact shows_done _ _ (by simp [hwork, hdevice, hlight])
  · exact shows_done _ _ filled
@[simp] theorem prefetch_look (hslots : P .slots = false) : look P (prefetch c i y s) = look P s := by simp [hslots, prefetch]
@[simp] theorem issue_look : look P (issue y i s) = look P s := by simp [issue]
@[simp] theorem tokenAsk_look (slot : BitVec 12) : look P (tokenAsk r b slot s) = look P s := by simp [tokenAsk]
@[simp] theorem locReads_look (l : Loc) (words : List (ℕ × WordError)) (hreservoir : P .reservoir = false) :
    look P (locReads l n words s) = look P s := by
  unfold locReads; split <;> simp [hreservoir]
@[simp] theorem select_look (vreg : Fin 16) (family : BitVec 12) (words : List (ℕ × WordError)) (hreservoir : P .reservoir = false) :
    look P (select vreg family v words s) = look P s := by
  simp only [select]; (repeat' split) <;> simp [hreservoir]
@[simp] theorem hint_look (hold : Byte) : look P (hint q y hold s) = look P s := by simp [hint]
@[simp] theorem branch_look (n : Fin 16) : look P (branch r n y i s) = look P s := by simp [branch]
@[simp] theorem call_look (hslots : P .slots = false) : look P (call h i s) = look P s := by simp [hslots, call]
@[simp] theorem returns_look : look P (returns s) = look P s := by unfold returns; split <;> simp
@[simp] theorem halts_look (hdevice : P .device = false) (hlight : P .light = false) : look P (halts s) = look P s := by
  rw [halts, penumbraCheck_look _ hdevice hlight, flag_look]
  exact look_mk (s := s)
@[simp] theorem tokenCount_look (gen : BitVec 8) : look P (tokenCount n gen v s) = look P s := by simp [tokenCount]
@[simp] theorem tokenRx_look (w : DWord) (hdevice : P .device = false) (hlight : P .light = false) : look P (tokenRx w s) = look P s := by
  simp [hdevice, hlight, tokenRx]
@[simp] theorem drainTokens_look (hdevice : P .device = false) (hlight : P .light = false) : look P (drainTokens b n s) = look P s := by
  induction n generalizing s with
  | zero => rfl
  | succ k ih => unfold drainTokens; (repeat' split) <;> simp [hdevice, hlight, ih]
@[simp] theorem drainBeam_look (hdevice : P .device = false) (hlight : P .light = false) : look P (drainBeam b s) = look P s := by
  simp [hdevice, hlight, drainBeam]
@[simp] theorem drainBeams_look (hdevice : P .device = false) (hlight : P .light = false) : look P (drainBeams s) = look P s := by
  simp [hdevice, hlight, drainBeams]
@[simp] theorem sendTokens_look : look P (sendTokens s) = look P s := by simp [sendTokens]
@[simp] theorem ceCommit_look : look P (ceCommit s) = look P s := by simp [ceCommit]
@[simp] theorem overflowStore_look (hreservoir : P .reservoir = false) (hstaging : P .staging = false) :
    look P (overflowStore s n) = look P s := by unfold overflowStore; dsimp only; split <;> simp [hreservoir, hstaging]
@[simp] theorem overflowStores_look (p : CePend) (old : List Deferred) (hreservoir : P .reservoir = false) (hstaging : P .staging = false) :
    look P (overflowStores p old s) = look P s := by
  simp [hreservoir, hstaging, overflowStores]
@[simp] theorem overflowRead_look : look P (overflowRead n s) = look P s := by unfold overflowRead; split <;> simp
@[simp] theorem parkHighCheck_look : look P (parkHighCheck s) = look P s := by simp [parkHighCheck]
@[simp] theorem epochNext_look : look P (epochNext s) = look P s := by simp [epochNext]
@[simp] theorem sendNotifies_look (l : List (ℕ × ℕ)) : look P (sendNotifies l s) = look P s := by simp [sendNotifies]
@[simp] theorem iterEnds_look (hiter : P .iter = false) : look P (iterEnds s) = look P s := by simp [hiter, iterEnds]
@[simp] theorem hintsEnd_look : look P (hintsEnd s) = look P s := by simp [hintsEnd]
@[simp] theorem repairsAtCommit_look : look P (repairsAtCommit s) = look P s := by simp [repairsAtCommit]
@[simp] theorem commitEffects_look (hiter : P .iter = false) (hreservoir : P .reservoir = false) (hstaging : P .staging = false) :
    look P (commitEffects s) = look P s := by simp [hiter, hreservoir, hstaging, commitEffects]
@[simp] theorem setUnit_look (st : UnitState) : look P (setUnit u st s) = look P s := by simp [setUnit]
@[simp] theorem standbyCommit_look (r : MirrorRec) : look P (standbyCommit r s) = look P s := by
  unfold standbyCommit; dsimp only; split <;> simp
@[simp] theorem swapUnits_look : look P (swapUnits s) = look P s := by simp [swapUnits]
@[simp] theorem enterHeld_look : look P (enterHeld i s) = look P s := by simp [enterHeld]
@[simp] theorem commitWrite_look (hdevice : P .device = false) (hiter : P .iter = false) (hlight : P .light = false)
    (hreservoir : P .reservoir = false) (hstaging : P .staging = false) :
    look P (commitWrite s) = look P s := by unfold commitWrite; dsimp only; split <;> simp [hdevice, hiter, hlight, hreservoir, hstaging]
@[simp] theorem trySeal_look (hdevice : P .device = false) (hiter : P .iter = false) (hlight : P .light = false)
    (hreservoir : P .reservoir = false) (hstaging : P .staging = false) :
    look P (trySeal s) = look P s := by simp [hdevice, hiter, hlight, hreservoir, hstaging, trySeal]
@[simp] theorem writeV15_look : look P (writeV15 s) = look P s := by simp [writeV15]
@[simp] theorem commits_look (hdevice : P .device = false) (hiter : P .iter = false) (hlight : P .light = false)
    (hreservoir : P .reservoir = false) (hstaging : P .staging = false) :
    look P (commits c s) = look P s := by simp [hdevice, hiter, hlight, hreservoir, hstaging, commits]
@[simp] theorem ceMissed_look (hstaging : P .staging = false) : look P (ceMissed s) = look P s := by simp [hstaging, ceMissed]
@[simp] theorem ceError_look (c : CeCode) (hstaging : P .staging = false) : look P (ceError s c) = look P s := by
  simp only [ceError]; (repeat' split) <;> simp [hstaging, ↓look_mk]
@[simp] theorem opReports_look (hdevice : P .device = false) (hiter : P .iter = false) (hlight : P .light = false)
    (hreservoir : P .reservoir = false) (hstaging : P .staging = false) :
    look P (opReports n s) = look P s := by simp [hdevice, hiter, hlight, hreservoir, hstaging, opReports]
@[simp] theorem opRead_look (r : HbmRead) (hreservoir : P .reservoir = false) : look P (opRead s r) = look P s := by simp [hreservoir, opRead]
@[simp] theorem opEnds_look (codes : List CeCode) (words : List HbmRead) (hdevice : P .device = false) (hiter : P .iter = false)
    (hlight : P .light = false) (hreservoir : P .reservoir = false) (hstaging : P .staging = false) :
    look P (opEnds n codes words s) = look P s := by
  unfold opEnds; split <;> simp [hdevice, hiter, hlight, hreservoir, hstaging]

/-! ### Machine/Failover.lean -/

@[simp] theorem mirrorRx_look (beats : Vector CodeResult 8) : look P (mirrorRx beats s) = look P s := by
  unfold mirrorRx
  dsimp only
  split <;> simp [-Vector.foldl_toList]
@[simp] theorem resyncEnds_look : look P (resyncEnds s) = look P s := by simp [resyncEnds]
@[simp] theorem mirrorAcked_look (hdevice : P .device = false) (hiter : P .iter = false) (hlight : P .light = false)
    (hreservoir : P .reservoir = false) (hstaging : P .staging = false) :
    look P (mirrorAcked s) = look P s := by simp [hdevice, hiter, hlight, hreservoir, hstaging, mirrorAcked]
@[simp] theorem sealAlone_look (hdevice : P .device = false) (hiter : P .iter = false) (hlight : P .light = false)
    (hreservoir : P .reservoir = false) (hstaging : P .staging = false) :
    look P (sealAlone s) = look P s := by simp [hdevice, hiter, hlight, hreservoir, hstaging, sealAlone]
@[simp] theorem mirrorFails_look (hdevice : P .device = false) (hiter : P .iter = false) (hlight : P .light = false)
    (hreservoir : P .reservoir = false) (hstaging : P .staging = false) :
    look P (mirrorFails s) = look P s := by simp [hdevice, hiter, hlight, hreservoir, hstaging, mirrorFails]
@[simp] theorem mirrorTimeout_look (hdevice : P .device = false) (hiter : P .iter = false) (hlight : P .light = false)
    (hreservoir : P .reservoir = false) (hstaging : P .staging = false) :
    look P (mirrorTimeout s) = look P s := by unfold mirrorTimeout; split <;> simp [hdevice, hiter, hlight, hreservoir, hstaging]
@[simp] theorem watchdogExpires_look : look P (watchdogExpires s) = look P s := by
  simp only [watchdogExpires]; (repeat' split) <;> simp [↓look_mk]
@[simp] theorem heartbeat_look : look P (heartbeat u s) = look P s := by simp [heartbeat]
@[simp] theorem failUnit_look : look P (failUnit u n c s) = look P s := by simp [failUnit]
@[simp] theorem failedUnit_look : look P (failedUnit u s) = look P s := by simp [failedUnit]
@[simp] theorem takeOver_look : look P (takeOver u s) = look P s := by simp [takeOver]
@[simp] theorem failQuiet_look : look P (failQuiet u n c s) = look P s := by simp [failQuiet]
@[simp] theorem fenceDrops_look : look P (fenceDrops s) = look P s := by simp [fenceDrops]
@[simp] theorem failFence_look : look P (failFence u n c s) = look P s := by simp [failFence]
@[simp] theorem failEnds_look : look P (failEnds s) = look P s := by
  rw [failEnds, logEvent_look, noticeAll_look]
  exact look_mk (s := s)
@[simp] theorem failStandby_look (hdevice : P .device = false) (hiter : P .iter = false) (hlight : P .light = false)
    (hreservoir : P .reservoir = false) (hstaging : P .staging = false) :
    look P (failStandby u n s) = look P s := by simp [hdevice, hiter, hlight, hreservoir, hstaging, failStandby]
@[simp] theorem declareFailed_look (hdevice : P .device = false) (hiter : P .iter = false) (hlight : P .light = false)
    (hreservoir : P .reservoir = false) (hstaging : P .staging = false) :
    look P (declareFailed u n c s) = look P s := by simp [hdevice, hiter, hlight, hreservoir, hstaging, declareFailed]
@[simp] theorem sqReports_look (why : SqFault) (hdevice : P .device = false) (hiter : P .iter = false) (hlight : P .light = false)
    (hreservoir : P .reservoir = false) (hstaging : P .staging = false) :
    look P (sqReports u why s) = look P s := by unfold sqReports; split <;> simp [hdevice, hiter, hlight, hreservoir, hstaging]
@[simp] theorem lateAbort_look : look P (lateAbort c s) = look P s := by simp [lateAbort]
@[simp] theorem fenceDone_look (hdevice : P .device = false) (hlight : P .light = false) : look P (fenceDone s) = look P s := by
  unfold fenceDone; split <;> simp [hdevice, hlight]
@[simp] theorem selfTested_look : look P (selfTested u c s) = look P s := by simp [selfTested]
@[simp] theorem resyncStart_look : look P (resyncStart s) = look P s := by simp [resyncStart]
@[simp] theorem resyncCopied_look : look P (resyncCopied s) = look P s := by simp [resyncCopied]
@[simp] theorem sqResult_look : look P (sqResult n m s) = look P s := by simp [sqResult]
@[simp] theorem overflowClear_look (hstaging : P .staging = false) : look P (overflowClear s) = look P s := by simp [hstaging, overflowClear]
@[simp] theorem resumeArm_look : look P (resumeArm i s) = look P s := by
  unfold resumeArm
  dsimp only
  split
  · exact (look_mk (s := withdrawArm s)).trans (withdrawArm_look s)
  · rfl
@[simp] theorem banksResume_iter (w : Word) (c : Ctl) : (banksResume w c).iter = c.iter := rfl
@[simp] theorem resumeAt_look (r : RestartRec) (hstaging : P .staging = false) : look P (resumeAt r s) = look P s := by
  have cleared : look P (resumeArm r.id (overflowClear { s with beam := s.beam.map fun q => { q with seen := [] } })) = look P s := by
    simp [hstaging]
  have begun (c : Ctl) (hc : c.iter = (resumeArm r.id (overflowClear { s with beam := s.beam.map fun q => { q with seen := [] } })).ctl.iter) :
      look P { resumeArm r.id (overflowClear { s with beam := s.beam.map fun q => { q with seen := [] } }) with ctl := c } = look P s :=
    (look_mk (s := resumeArm ..) (hiter := fun _ => hc)).trans cleared
  unfold resumeAt
  dsimp only
  split
  · simp [begun]
  · simp [begun]
@[simp] theorem resumeWrite_look (hdevice : P .device = false) (hlight : P .light = false) (hstaging : P .staging = false) :
    look P (resumeWrite v s) = look P s := by simp only [resumeWrite]; (repeat' split) <;> simp [hdevice, hlight, hstaging]
@[simp] theorem keepOut_look (hdevice : P .device = false) (hiter : P .iter = false) (hlight : P .light = false)
    (hreservoir : P .reservoir = false) (hstaging : P .staging = false) :
    look P (keepOut u s) = look P s := by unfold keepOut; split <;> simp [hdevice, hiter, hlight, hreservoir, hstaging]
theorem sqEffect_look {s₂ : State} (hs : sqEffect n s = some s₂) (hdevice : P .device = false) (hiter : P .iter = false)
    (hlight : P .light = false) (hreservoir : P .reservoir = false) (hstaging : P .staging = false) :
    look P s₂ = look P s := by
  unfold sqEffect at hs
  split_ifs at hs <;> simp only [Option.map_eq_some_iff, Option.some.injEq] at hs <;> aesop
@[simp] theorem sqCmd_look (hdevice : P .device = false) (hiter : P .iter = false) (hlight : P .light = false) (hreservoir : P .reservoir = false)
    (hstaging : P .staging = false) : look P (sqCmd n i s) = look P s := by
  unfold sqCmd
  split
  · simp
  · split
    next h => exact (sqResult_look ..).trans (sqEffect_look _ _ h hdevice hiter hlight hreservoir hstaging)
    · simp

/-! ### Machine/Records.lean -/

@[simp] theorem resOut_look (o : Res) (ho : Res.Shows P s o) (hwork : ∀ p ∈ Part.work, P p = false) (hdevice : P .device = false)
    (hlight : P .light = false) :
    Shows P s (resOut s o) := by
  unfold resOut; split <;> simp_all
@[simp] theorem opRow_look (bad : OpCheck) (f : ℕ → OpSt → State → Res) (hf : ∀ k o u, Res.Shows P u (f k o u))
    (hwork : ∀ p ∈ Part.work, P p = false) (hdevice : P .device = false) (hlight : P .light = false) :
    Shows P s (opRow n m bad f s) := by
  unfold opRow; (repeat' split) <;> simp_all
@[simp] theorem opStarts_look : look P (opStarts n s) = look P s := by simp [opStarts]
@[simp] theorem opFinal_look : look P (opFinal n s) = look P s := by simp [opFinal]
@[simp] theorem nameInputs_look (ll : List (ℕ × ℕ)) : look P (nameInputs ll s) = look P s :=
  look_foldl _ _ _ fun _ _ => by dsimp only; split <;> simp
@[simp] theorem countInputs_look (ll : List (ℕ × ℕ)) : look P (countInputs ll s) = look P s :=
  look_foldl _ _ _ fun _ _ => by dsimp only; split <;> simp
@[simp] theorem withInputs_look (li : List (ℕ × ℕ)) (f : List (List Byte) → State → Res) (hf : ∀ ins u, Res.Shows P u (f ins u))
    {s₀ : State} (he : look P s = look P s₀) (hreservoir : P .reservoir = false) : Res.Shows P s₀ (withInputs li f s) := by
  unfold withInputs
  dsimp only
  split
  · simp
  · split
    case h_4 => exact (hf _ (nameInputs li s)).of_look (by simp [he])
    all_goals simp [hreservoir, he]
@[simp] theorem stage_look : look P (stage n m raw s) = look P s := by unfold stage; split <;> simp
@[simp] theorem sendRecord_look (cls : BitVec 2) : look P (sendRecord n b cls raw s) = look P s := by simp [sendRecord]
@[simp] theorem takeRecord_look (mine : BitVec 4 → List Byte → Bool) (f : BitVec 4 → List Byte → State → Res)
    (hf : ∀ k l u, Res.Shows P u (f k l u)) (hdevice : P .device = false) (hlight : P .light = false) :
    Res.Shows P s (takeRecord b u n m mine f s) := by
  unfold takeRecord
  dsimp only
  split
  · simp
  next fl _ =>
  split
  · simp
  split
  · simp
  next x y _ =>
  split
  · simp
  · have taken := hf fl.attempt y (onBeam b (handOn u ((recordAt m ((atHand s.beam[b] u).length + 1) (atHand s.beam[b] u) 0).1 + x) 0) s)
    split
    next heq => rw [heq] at taken; simpa [hdevice, hlight] using taken
    · simp
@[simp] theorem recordRow_look (form : SegForm) (fits : OpSt → Bool) (cls : OpSt → Fin 2) (len : OpSt → ℕ)
    (f : OpSt → BitVec 4 → List Byte → State → Res) (hf : ∀ o k l u, Res.Shows P u (f o k l u)) (hwork : ∀ p ∈ Part.work, P p = false)
        (hdevice : P .device = false) (hlight : P .light = false) :
    Shows P s (recordRow b n m form fits cls len f s) := by
  unfold recordRow; (repeat' split) <;> simp_all
@[simp] theorem noteSeen_look (form : SegForm) : look P (noteSeen n b r form c raw s) = look P s := by simp [noteSeen]
@[simp] theorem admitRec_look (form : SegForm) : look P (admitRec n b r form raw body m s c) = look P s := by simp [admitRec]

/-! ### Machine/Gate.lean -/

@[simp] theorem gateRoutes_look (p : List GateRec) (ins : List (List Byte)) : look P (gateRoutes op p ins s) = look P s := by
  simp only [gateRoutes]; (repeat' split) <;> simp
@[simp] theorem gateBias_look (p : List GateRec) (ins : List (List Byte)) : look P (gateBias op p ins s) = look P s := by
  unfold gateBias; split <;> simp
@[simp] theorem gateRun_look {s₀ : State} (he : look P s = look P s₀) (hreservoir : P .reservoir = false) : Res.Shows P s₀ (gateRun n op s) := by
  unfold gateRun
  exact withInputs_look _ _ _ (fun _ _ => by simp) he hreservoir

/-! ### Machine/Moe.lean -/

@[simp] theorem stageLocal_look (final : List Copy) : look P (stageLocal op final s) = look P s := by simp [stageLocal]
@[simp] theorem sendDispatch_look (q : List Tentative) (final : List Copy) : look P (sendDispatch n q final s) = look P s := by
  simp [sendDispatch]
@[simp] theorem dispatchCopies_look (sent : List Copy) (stay : List Copy) (fresh : List Copy) {s₀ : State} (he : look P s = look P s₀) :
    Res.Shows P s₀ (dispatchCopies n op raw sent stay fresh s) := by
  simp [dispatchCopies, he]
@[simp] theorem dispatchPlain_look (hreservoir : P .reservoir = false) : Res.Shows P s (dispatchPlain n op s) := by
  refine withInputs_look _ _ _ (fun ins u => ?_) rfl hreservoir
  dsimp only
  split
  · simp [hreservoir]
  · split <;> simp
@[simp] theorem dispatchAhead_look (hreservoir : P .reservoir = false) : Res.Shows P s (dispatchAhead n op s) := by
  unfold dispatchAhead
  dsimp only
  split
  · simp
  · refine withInputs_look _ _ _ (fun ins u => ?_) rfl hreservoir
    split <;> simp
@[simp] theorem windowEnter_look (a : ℕ × ℕ × ℕ) {s₀ : State} (he : look P s = look P s₀) (hstaging : P .staging = false) :
    Res.Shows P s₀ (windowEnter b a r raw s) := by
  simp only [windowEnter]; (repeat' split) <;> simp [he, hstaging]
@[simp] theorem execTentativeDispatch_look (hwork : ∀ p ∈ Part.work, P p = false) (hdevice : P .device = false) (hlight : P .light = false) :
    Shows P s (execTentativeDispatch b n s) := by
  unfold execTentativeDispatch
  split
  · simp
  · split
    · simp
    · exact resOut_look _ _ (takeRecord_look _ _ _ _ _ _ _ (fun r l u => windowEnter_look _ _ _ _ _ rfl (by simp [hwork])) hdevice hlight)
        hwork hdevice hlight
@[simp] theorem resolve_look (w : WindowEntry) : look P (resolve w c s) = look P s := by simp [resolve]
@[simp] theorem marker_look : look P (marker n b c r raw s) = look P s := by unfold marker; split <;> simp
@[simp] theorem sendReturns_look : look P (sendReturns n op raw s) = look P s :=
  look_foldl _ _ _ fun _ _ => by dsimp only; split <;> simp
@[simp] theorem combFinish_look {s₀ : State} (he : look P s = look P s₀) : Res.Shows P s₀ (combFinish n op raw body s) := by
  simp [combFinish, he]
@[simp] theorem combAdvance_look {s₀ : State} (he : look P s = look P s₀) (hreservoir : P .reservoir = false) :
    Res.Shows P s₀ (combAdvance n op s) := by
  refine withInputs_look _ _ _ (fun ins u => ?_) he hreservoir
  split <;> simp [hreservoir]
@[simp] theorem execCombine_look (hwork : ∀ p ∈ Part.work, P p = false) (hdevice : P .device = false) (hlight : P .light = false) :
    Shows P s (execCombine n s) := by
  refine opRow_look _ _ _ _ _ (fun k o t => withInputs_look _ _ _ (fun ins u => ?_) rfl (by simp [hwork])) hwork hdevice hlight
  exact combAdvance_look _ _ _ (by simp) (by simp [hwork])

/-! ### Machine/Wire.lean -/

@[simp] theorem sendSegs_look (cls : BitVec 2) (l : List (ℕ × List Byte)) : look P (sendSegs n m b cls k l s) = look P s := by
  simp [sendSegs]

/-! ### Machine/Coll.lean -/

@[simp] theorem sendEach_look (cls : BitVec 2) (l : List Route) (segs : List (ℕ × List Byte)) :
    look P (sendEach n m cls l segs s) = look P s := by
  simp [sendEach]
theorem exponentStep_look (own : List ℕ) {f : State × Option (List ℕ)} (hf : exponentStep n op own s = .ok f) : look P f.1 = look P s := by
  unfold exponentStep at hf
  dsimp only at hf
  (repeat' split at hf) <;> cases hf <;> simp
@[simp] theorem reduceDone_look : look P (reduceDone n op raw s) = look P s := by simp [reduceDone]
@[simp] theorem valueStep_look (codes : List ℕ) {s₀ : State} (he : look P s = look P s₀) : Res.Shows P s₀ (valueStep n op raw codes s) := by
  simp only [valueStep]; (repeat' split) <;> simp [he]
@[simp] theorem allreduceBody_look (ins : List (List Byte)) {s₀ : State} (he : look P s = look P s₀) : Res.Shows P s₀ (allreduceBody n op ins s) := by
  unfold allreduceBody
  dsimp only
  split
  · split
    · simp
    next h => exact (exponentStep_look _ _ _ _ h).trans he
    next h => exact valueStep_look _ _ _ _ _ ((exponentStep_look _ _ _ _ h).trans he)
  · simp [he]
@[simp] theorem scatterCodes_look (own : List ℕ) : look P (scatterCodes n op own s) = look P s := by simp [scatterCodes]
@[simp] theorem scatterSends_look (codes : List ℕ) : look P (scatterSends n op raw codes s) = look P s := by simp [scatterSends]
@[simp] theorem reducescatterBody_look (ins : List (List Byte)) {s₀ : State} (he : look P s = look P s₀) :
    Res.Shows P s₀ (reducescatterBody n op ins s) := by
  simp only [reducescatterBody]; (repeat' split) <;> simp [he]
@[simp] theorem stageChunk_look (f : Elem) (l : List (List Byte)) : look P (stageChunk f n m k l s) = look P s := by
  simp [stageChunk]
@[simp] theorem allgatherBody_look (ins : List (List Byte)) {s₀ : State} (he : look P s = look P s₀) : Res.Shows P s₀ (allgatherBody n op ins s) := by
  unfold allgatherBody
  extract_lets f rt own rx mine s1 got hv s2
  have h1 : look P s1 = look P s₀ := by simp [s1, he]
  have h2 : look P s2 = look P s₀ := (look_foldl _ _ _ fun _ _ => by dsimp only; split <;> simp).trans h1
  split
  · simp
  · split <;> simp [h2]
@[simp] theorem sendPiecesOf_look (ls : List (Route × ℕ)) : look P (sendPiecesOf n op m raw ls k j s) = look P s := by
  induction ls generalizing s k j with
  | nil => rfl
  | cons e r ih => simp [sendPiecesOf, ih]
@[simp] theorem alltoallvBody_look (ins : List (List Byte)) {s₀ : State} (he : look P s = look P s₀) : Res.Shows P s₀ (alltoallvBody n op ins s) := by
  simp [alltoallvBody, he]
@[simp] theorem broadcastOn_look : look P (broadcastOn n op raw s) = look P s := by simp [broadcastOn]
@[simp] theorem broadcastBody_look (ins : List (List Byte)) {s₀ : State} (he : look P s = look P s₀) : Res.Shows P s₀ (broadcastBody n op ins s) := by
  simp only [broadcastBody]; (repeat' split) <;> simp [he]
@[simp] theorem streamBody_look (ins : List (List Byte)) {s₀ : State} (he : look P s = look P s₀) : Res.Shows P s₀ (streamBody n op ins s) := by
  simp only [streamBody]; (repeat' split) <;> simp [he]
@[simp] theorem collBody_look (ins : List (List Byte)) {s₀ : State} (he : look P s = look P s₀) : Res.Shows P s₀ (collBody n op ins s) := by
  simp [collBody, he]
@[simp] theorem collStart_look {s₀ : State} (he : look P s = look P s₀) (hreservoir : P .reservoir = false) :
    Res.Shows P s₀ (collStart n op s) :=
  withInputs_look _ _ _ (fun _ _ => by simp) he hreservoir
@[simp] theorem execCollectiveSegment_look (form : SegForm) (hwork : ∀ p ∈ Part.work, P p = false) (hdevice : P .device = false)
    (hlight : P .light = false) : Shows P s (execCollectiveSegment b n form m s k) := by
  refine recordRow_look _ _ _ _ _ _ _ _ _ (fun o r l u => ?_) hwork hdevice hlight
  dsimp only
  split
  · exact withInputs_look _ _ _ (fun ins u => collBody_look _ _ _ _ rfl) (by simp) (by simp [hwork])
  · simp
@[simp] theorem ceCtrl_look : look P (ceCtrl v s) = look P s := by simp [ceCtrl]

/-! ### Machine/Deliver.lean -/

@[simp] theorem dataFlitMeaning_look (words : List LineWord) (code : CodeResult) (hdevice : P .device = false) (hlight : P .light = false) :
    look P (dataFlitMeaning b raw words code s) = look P s := by
  simp [hdevice, hlight, dataFlitMeaning]
@[simp] theorem tokenMsg_look (hdevice : P .device = false) (hlight : P .light = false) : look P (tokenMsg raw s) = look P s := by
  simp [hdevice, hlight, tokenMsg]
@[simp] theorem slotMsg_look (m : Slot) (haer : P .aer = false) (hdevice : P .device = false) (hfwDbl : P .fwDbl = false)
    (hhostDbl : P .hostDbl = false) (hlight : P .light = false) (hring : P .ring = false) :
    look P (slotMsg x m s) = look P s := by simp [haer, hdevice, hfwDbl, hhostDbl, hlight, hring, slotMsg]
@[simp] theorem sidebandRx_look (haer : P .aer = false) (hdevice : P .device = false) (hfwDbl : P .fwDbl = false) (hhostDbl : P .hostDbl = false)
    (hlight : P .light = false) (hring : P .ring = false) : look P (sidebandRx t raw s) = look P s :=
  look_foldl _ _ _ fun _ _ => sbSlot_look _ _ _ _ _ fun _ _ => slotMsg_look _ _ _ haer hdevice hfwDbl hhostDbl hlight hring
@[simp] theorem decodedRx_look (c' : ℕ × ℕ × List Byte) (haer : P .aer = false) (hdevice : P .device = false) (hfwDbl : P .fwDbl = false)
    (hhostDbl : P .hostDbl = false) (hlight : P .light = false) (hring : P .ring = false) :
    look P (decodedRx t q c c' s) = look P s := by simp [haer, hdevice, hfwDbl, hhostDbl, hlight, hring, decodedRx]
@[simp] theorem wordCounted_look : look P (wordCounted t q s) = look P s := by simp [wordCounted]
@[simp] theorem qualRx_look (d : Option (List Sym × List ℕ)) : look P (qualRx t q d s) = look P s := by
  unfold qualRx; split <;> simp
@[simp] theorem codewordRx_look (w : List Sym) (haer : P .aer = false) (hdevice : P .device = false) (hfwDbl : P .fwDbl = false)
    (hhostDbl : P .hostDbl = false) (hlight : P .light = false) (hring : P .ring = false) (hsiteReg : P .siteReg = false) :
    look P (codewordRx t q w s) = look P s := by
  simp only [codewordRx]; (repeat' split) <;> simp [haer, hdevice, hfwDbl, hhostDbl, hlight, hring, hsiteReg]

/-! ### Machine/Write.lean -/

@[simp] theorem w1cVec_look (f : State → State) (hwas : P .was = false) : look P (w1cVec n v f s) = look P (f s) := by simp [hwas, w1cVec]
@[simp] theorem writeGlb_look (hwas : P .was = false) : look P (writeGlb n v s) = look P s := by simp [hwas, writeGlb]
@[simp] theorem txCtrlWrite_look (c : MbxTx) (haer : P .aer = false) (hwas : P .was = false) : look P (txCtrlWrite c v s) = look P s := by
  simp [haer, hwas, txCtrlWrite]
@[simp] theorem txWord_look (c : MbxTx) (haer : P .aer = false) (hwas : P .was = false) : look P (txWord c n v s) = look P s := by
  simp [haer, hwas, txWord]
@[simp] theorem rxWord_look (c : MbxRx) (hwas : P .was = false) : look P (rxWord c n v s) = look P s := by simp [hwas, rxWord]
@[simp] theorem writeMbx_look (haer : P .aer = false) (hwas : P .was = false) : look P (writeMbx n v s) = look P s := by simp [haer, hwas, writeMbx]
@[simp] theorem writeDbl_look (hfwDbl : P .fwDbl = false) (hhostDbl : P .hostDbl = false) (hwas : P .was = false) :
    look P (writeDbl n v s) = look P s := by simp [hfwDbl, hhostDbl, hwas, writeDbl]
@[simp] theorem writeLck_look (m : Master) : look P (writeLck m n v s) = look P s := by simp [writeLck]
@[simp] theorem echoWrite_look : look P (echoWrite v s) = look P s := by simp [echoWrite]
@[simp] theorem writeErr_look (hwas : P .was = false) : look P (writeErr n v s) = look P s := by simp [hwas, writeErr]
@[simp] theorem writePwr_look (hwas : P .was = false) : look P (writePwr n v s) = look P s := by simp [hwas, writePwr]
@[simp] theorem writeThm_look (hwas : P .was = false) : look P (writeThm n v s) = look P s := by simp [hwas, writeThm]
@[simp] theorem writeMgt_look (hwas : P .was = false) : look P (writeMgt n v s) = look P s := by simp [hwas, writeMgt]
@[simp] theorem writeSec_look (hwas : P .was = false) : look P (writeSec n v s) = look P s := by simp [hwas, writeSec]
@[simp] theorem writeSq_look (hdevice : P .device = false) (hiter : P .iter = false) (hlight : P .light = false)
    (hreservoir : P .reservoir = false) (hstaging : P .staging = false) (hwas : P .was = false) :
    look P (writeSq n v s) = look P s := by simp [hdevice, hiter, hlight, hreservoir, hstaging, hwas, writeSq]
@[simp] theorem writeCe_look (hwas : P .was = false) : look P (writeCe n v s) = look P s := by simp [hwas, writeCe]
@[simp] theorem writePln_look (hwas : P .was = false) : look P (writePln n v s) = look P s := by simp [hwas, writePln]
@[simp] theorem writeBeam_look (hwas : P .was = false) : look P (writeBeam n v s) = look P s := by simp [hwas, writeBeam]
@[simp] theorem writePrt_look (hlight : P .light = false) (hwas : P .was = false) (hgloom : P .gloom = false) :
    look P (writePrt n v s) = look P s := by
  simp [hlight, hgloom, hwas, writePrt]
@[simp] theorem writeSite_look (hwas : P .was = false) : look P (writeSite n x m v s) = look P s := by simp [hwas, writeSite]
@[simp] theorem writeWp_look (hsiteReg : P .siteReg = false) (hwas : P .was = false) : look P (writeWp n v s) = look P s := by
  simp [hsiteReg, hwas, writeWp]
@[simp] theorem injectByKind_look : look P (injectByKind v s) = look P s := by simp [injectByKind]
@[simp] theorem writeTp_look (hsiteReg : P .siteReg = false) (hwas : P .was = false) : look P (writeTp n v s) = look P s := by
  simp [hsiteReg, hwas, writeTp]
@[simp] theorem writeHbm_look (hwas : P .was = false) : look P (writeHbm n v s) = look P s := by simp [hwas, writeHbm]
@[simp] theorem writeMsix_look (hvec : P .vec = false) : look P (writeMsix n v s) = look P s := by simp [hvec, writeMsix]
@[simp] theorem writeReg_look (m : Master) (haer : P .aer = false) (hdevice : P .device = false) (hfwDbl : P .fwDbl = false)
    (hhostDbl : P .hostDbl = false) (hiter : P .iter = false) (hlight : P .light = false) (hreservoir : P .reservoir = false)
        (hsiteReg : P .siteReg = false) (hstaging : P .staging = false) (hvec : P .vec = false) (hwas : P .was = false) (hgloom : P .gloom = false) :
    look P (writeReg m n v s) = look P s := by
      simp [haer, hdevice, hfwDbl, hhostDbl, hiter, hlight, hgloom, hreservoir, hsiteReg, hstaging, hvec, hwas, writeReg]
@[simp] theorem readWord_look (m : Master) : look P (readWord m n s) = look P s := by simp [readWord]

end
end

end Sys2Proof.Machine
end

section
/-!
PROOFS. The parts that each command may change, and that it changes no others.
-/

-- In sequence: each worker of the elaborator takes its stack from the memory that a check may use.
set_option Elab.async false

namespace Sys2Proof
open Machine

/-- Commands that may reset the management processor, which can cut a programming of fuses short (R435, R440). -/
def Instr.cutsConfirm (c : Instr) : Bool :=
  match c with
  | .fwWatchdog | .lockstepDisagreement => true
  | _ => false

/-- Commands that may change the report of the firmware (R448, R450). -/
def Instr.changesReport (c : Instr) : Bool :=
  match c with
  | .attestSigned | .fatalRead .. => true
  | _ => false

/-- Commands that may change the staging area of the I3C target (R452). -/
def Instr.changesStage (c : Instr) : Bool :=
  match c with
  | .i3cPrivateWrite .. => true
  | _ => false

/-- Commands that may take note of the conditions of the MSI-X vectors themselves (R476). -/
def Instr.changesWas (c : Instr) : Bool :=
  match c with
  | .mbxTake .. | .pcieFunctionReset .. | .registerWrite .. => true
  | _ => false

/-- Commands that may move the device between its states (chapter 17). -/
def Instr.changesDevice (c : Instr) : Bool :=
  match c with
  | .allgather .. | .allreduce .. | .alltoallv .. | .broadcast .. | .cancelMarker .. | .clockLossDetected .. | .collectiveSegment .. |
    .combDieFailure .. | .combine .. | .combineReturn .. | .commit .. | .commitMarker .. | .creditTimeout .. | .dataFlit .. | .devPenumbra |
    .devPenumbraTimeout | .dispatch .. | .dispatchRecord .. | .fenceAcknowledged | .fetchComplete .. | .fwWatchdog | .gate .. | .halt |
    .heartbeatTimeout .. | .initTimeout .. | .junctionTrip | .laneMapApply .. | .litEntryComplete | .litEntryStart | .lockstepDisagreement |
    .mirrorAck | .mirrorAckTimeout | .moduleFrame .. | .openFibre .. | .operationDone .. | .parity .. | .penumbraEntry | .phase .. |
    .phaseWatchdogExpiry | .portTrainingStep .. | .portTrainingTimeout .. | .prtCmdHold .. | .prtCmdRelease .. | .prtCmdRetrain .. |
    .qclkLoss | .reachCodeword .. | .reducescatter .. | .registerWrite .. | .replacementCopyDone .. | .resetRelease .. | .retrainGo .. |
    .retrainRequest .. | .retrainTimeout .. | .sbToken .. | .select .. | .sensorSnapshot .. | .sequencerFailureSignal .. | .sidebandFailed
    .. | .sqCmdForceFailover .. | .sqCmdKeepStandbyOut .. | .sqCmdReadmit .. | .sqCmdResyncStandby .. | .sqCmdTakeBackNow .. | .sqResumeGo
    .. | .sqResumeRelease .. | .stackChannelLoss .. | .stream .. | .switchAnchor .. | .switchTimeout .. | .tentativeDispatch .. |
    .thermalSample .. | .tokenArrival .. | .tpTrainingStep .. | .train .. | .wait .. => true
  | _ => false

/-- Commands that may begin or end Lit entry (R491). -/
def Instr.changesLitEntry (c : Instr) : Bool :=
  match c with
  | .fullCommitComplete .. | .fwWatchdog | .junctionTrip | .litEntryComplete | .litEntryStart | .lockstepDisagreement | .qclkLoss |
    .resetRelease .. | .sensorSnapshot .. | .thermalSample .. => true
  | _ => false

/-- Commands that may report a Fatal event (R499). -/
def Instr.changesFatal (c : Instr) : Bool :=
  match c with
  | .junctionTrip | .lockstepDisagreement | .qclkLoss | .sensorSnapshot .. | .thermalSample .. => true
  | _ => false

/-- Commands that may change a supply or a reset input (R482, R483). -/
def Instr.changesSupply (c : Instr) : Bool :=
  match c with
  | .resetRelease .. => true
  | _ => false

/-- Commands that may make a port Dark or light it, or begin or end its probes. -/
def Instr.changesLight (c : Instr) : Bool :=
  match c with
  | .allgather .. | .allreduce .. | .alltoallv .. | .broadcast .. | .cancelMarker .. | .clockLossDetected .. | .collectiveSegment .. |
    .combDieFailure .. | .combLockTimeout .. | .combSwapDone | .combine .. | .combineReturn .. | .commit .. | .commitMarker .. |
    .creditTimeout .. | .dataFlit .. | .devPenumbra | .devPenumbraTimeout | .dispatch .. | .dispatchRecord .. | .fenceAcknowledged |
    .fetchComplete .. | .fullCommitComplete .. | .fwWatchdog | .gate .. | .glintCalibrationDone .. | .halt | .heartbeatTimeout .. |
    .initTimeout .. | .junctionTrip | .l00LockLost .. | .laneMapApply .. | .litEntryComplete | .litEntryStart | .lockstepDisagreement |
    .mirrorAck | .mirrorAckTimeout | .moduleFrame .. | .openFibre .. | .operationDone .. | .parity .. | .phase .. | .phaseWatchdogExpiry |
    .portTrainingStep .. | .portTrainingTimeout .. | .probeEnd .. | .probeLightReceived .. | .probeStart .. | .prtCmdHold .. |
    .prtCmdRelease .. | .prtCmdRetrain .. | .qclkLoss | .reachCodeword .. | .reducescatter .. | .registerWrite .. | .replacementCopyDone ..
    | .resetRelease .. | .retrainGo .. | .retrainRequest .. | .retrainTimeout .. | .ringLoopVisit .. | .sbToken .. | .select .. |
    .sensorSnapshot .. | .sequencerFailureSignal .. | .sidebandFailed .. | .sqCmdForceFailover .. | .sqCmdKeepStandbyOut .. | .sqCmdReadmit
    .. | .sqCmdResyncStandby .. | .sqCmdTakeBackNow .. | .sqResumeGo .. | .sqResumeRelease .. | .stackChannelLoss .. | .stream .. |
    .switchAnchor .. | .switchTimeout .. | .tentativeDispatch .. | .thermalSample .. | .tokenArrival .. | .tpTrainingStep .. | .train .. |
    .wait .. => true
  | _ => false

/-- Commands that may change what emits light in Umbra, or bring the device into or out of Umbra other than to Penumbra. -/
def Instr.changesGloom (c : Instr) : Bool :=
  match c with
  | .agingLogWrite .. | .biasLoop .. | .combDieFailure .. | .combGroupStart .. | .combLockTimeout .. | .combSwap .. | .combSwapDone |
    .combThermalReduction .. | .fullCommitComplete .. | .fwWatchdog | .glintCalibrationDone .. | .gridLoop .. | .junctionTrip | .l00LockLost
    .. | .litEntryComplete | .litEntryStart | .lockstepDisagreement | .openFibre .. | .penumbraEntry | .portTrainingStep .. |
    .portTrainingTimeout .. | .probeEnd .. | .probeLightReceived .. | .probeStart .. | .prtCmdHold .. | .prtCmdRelease .. | .prtCmdRetrain
    .. | .qclkLoss | .registerWrite .. | .resetRelease .. | .ringLoopVisit .. | .sensorSnapshot .. | .spareCombLocked .. | .spareGainRamp ..
    | .thermalSample .. | .train .. => true
  | _ => false

/-- The parts that a command may change, by the groups of commands named for them. -/
def Instr.touches (c : Instr) : Part → Bool
  | .ring => c.changesRings
  | .comb => c.changesCombs
  | .siteReg => c.changesSiteCommands
  | .image => c.changesImage
  | .slots => c.changesStore
  | .vec => c.changesVectors
  | .aer => c.changesAer
  | .hostDbl => c.changesHostDoorbell
  | .fwDbl => c.changesFwDoorbell
  | .iter => c.changesIteration
  | .snap => c.changesSnapshot
  | .time | .queue => false
  | .supply => c.changesSupply
  | .fuses => c.changesFuses || c.cutsConfirm
  | .flash => c.changesFlash
  | .aging => c.changesAging
  | .fatals => c.changesFatals
  | .reservoir => c.changesReservoir
  | .staging => c.changesStaging
  | .window => c.changesStagingWindow
  | .report => c.changesReport
  | .stage => c.changesStage
  | .was => c.changesWas
  | .device => c.changesDevice
  | .litEntry => c.changesLitEntry
  | .fatal => c.changesFatal
  | .light => c.changesLight
  | .gloom => c.changesGloom

end Sys2Proof

namespace Sys2Proof.Machine

section
variable {P : Part → Bool}

/-- A host error leaves the work of the device free (R6, R61). -/
theorem work_touched {c : Instr} (hc : c.mayErr = true) : ∀ p ∈ Part.work, c.touches p = true := by
  have image : c.changesImage = true := by unfold Instr.changesImage; split <;> simp only [hc]
  have reservoir : c.changesReservoir = true := by unfold Instr.changesReservoir; split <;> simp only [hc]
  have staging : c.changesStaging = true := by unfold Instr.changesStaging; split <;> simp only [hc]
  have iter : c.changesIteration = true := by unfold Instr.changesIteration; split <;> simp only [hc]
  simp [Instr.touches, Instr.changesStore, image, reservoir, staging, iter, hc]

theorem work_free {c : Instr} (h : ∀ p, c.touches p = true → P p = false) (hc : c.mayErr = true) :
    P .image = false ∧ P .slots = false ∧ P .iter = false ∧ P .reservoir = false ∧ P .staging = false := by
  simpa using fun p hp => h p (work_touched hc p hp)

@[simp] theorem execFatalRead_look (a : MgtPath) (s : State) (hreport : P .report = false) : Shows P s (execFatalRead a s) :=
  shows_run _ _ (by simp [hreport])

@[simp] theorem execCombSwap_look (a : MgtPath) (s : State) (hcomb : P .comb = false) (hgloom : P .gloom = false) : Shows P s (execCombSwap a s) :=
  shows_run _ _ (by simp [hcomb, hgloom])

@[simp] theorem execI3cPrivateWrite_look (o : Word) (words : List Word) (s : State) (hstage : P .stage = false)
    (hwork : ∀ p ∈ Part.work, P p = false) : Shows P s (execI3cPrivateWrite o words s) := by
  have kept : Keeps P (i3cOn (i3cWrite o.toNat words)) := fun t => by simp [hstage]
  unfold execI3cPrivateWrite
  split
  · exact badAccess_look _ _ _ kept hwork
  · exact shows_run_of_keeps _ _ kept

@[simp] theorem execClusterAgingCheck_look (slack : List ℕ) (s : State) (haging : P .aging = false) : Shows P s (execClusterAgingCheck slack s) := by
  refine shows_run _ _ ((pwrSettle_look ..).trans ?_)
  have checked : look P ((fins 16).foldl (fun t c => if nth slack c.val 1000 < 30 then agingCluster t c else t) s) = look P s :=
    look_foldl _ _ _ fun c t => by simp [haging]
  dsimp only
  split
  · exact (flag_look ..).trans checked
  · exact checked

@[simp] theorem execSubstitutionRequest_look (b : Beam) (raw : List Byte) (s : State) (hring : P .ring = false) :
    Shows P s (execSubstitutionRequest b raw s) :=
  shows_run _ _ (by simp [hring])

@[simp] theorem execSubstitutionApplied_look (b : Beam) (raw : List Byte) (s : State) (hring : P .ring = false) :
    Shows P s (execSubstitutionApplied b raw s) :=
  shows_run _ _ (by simp [hring])

/-- What is seen after a command is what was seen before it, when no part that it may change is seen. -/
theorem exec_look (c : Instr) (s : State) (hc : c.resets = false) (h : ∀ p, c.touches p = true → P p = false) : Shows P s (exec c s) := by
  cases c with
  | powerOn | powerOff | resetAssert | supplyFault => cases hc
  | resetRelease =>
    unfold exec
    have hdark := And.intro (h .device rfl) (And.intro (h .litEntry rfl) (And.intro (h .comb rfl) (And.intro (h .light rfl) (h .gloom rfl))))
    have hsupply : P .supply = false := h .supply rfl
    simp [execResetRelease, hdark, hsupply]
  | penumbraEntry =>
    unfold exec
    have hdevice : P .device = false := h .device rfl
    have hgloom : P .gloom = false := h .gloom rfl
    simp [execPenumbraEntry, hdevice, hgloom]
  | combGroupStart =>
    unfold exec
    have hcomb : P .comb = false := h .comb rfl
    have hgloom : P .gloom = false := h .gloom rfl
    simp [execCombGroupStart, hcomb, hgloom]
  | combLockTimeout =>
    unfold exec
    have hcomb : P .comb = false := h .comb rfl
    have hlight : P .light = false := h .light rfl
    have hgloom : P .gloom = false := h .gloom rfl
    simp [execCombLockTimeout, hcomb, hlight, hgloom]
  | stackTrainingDone =>
    unfold exec
    simp [execStackTrainingDone]
  | litEntryStart | litEntryComplete =>
    unfold exec
    have hdevice : P .device = false := h .device rfl
    have hlight : P .light = false := h .light rfl
    have hlitEntry : P .litEntry = false := h .litEntry rfl
    have hgloom : P .gloom = false := h .gloom rfl
    simp [execLitEntryStart, execLitEntryComplete, hdevice, hlight, hgloom, hlitEntry]
  | devPenumbraTimeout =>
    unfold exec
    have hdevice : P .device = false := h .device rfl
    have hlight : P .light = false := h .light rfl
    simp [execDevPenumbraTimeout, hdevice, hlight]
  | pcieFunctionReset =>
    unfold exec
    have haer : P .aer = false := h .aer rfl
    have hhostDbl : P .hostDbl = false := h .hostDbl rfl
    have hvec : P .vec = false := h .vec rfl
    have hwas : P .was = false := h .was rfl
    simp [execPcieFunctionReset, haer, hhostDbl, hvec, hwas]
  | fullCommitComplete =>
    unfold exec
    have hwork := work_free h rfl
    have hcomb : P .comb = false := h .comb rfl
    have hlight : P .light = false := h .light rfl
    have hlitEntry : P .litEntry = false := h .litEntry rfl
    have hsiteReg : P .siteReg = false := h .siteReg rfl
    have hgloom : P .gloom = false := h .gloom rfl
    simp [execFullCommitComplete, hwork, hcomb, hlight, hgloom, hlitEntry, hsiteReg]
  | fwReady | undefinedCommand | mgtQuery | fwBegin | fwChunk | fwVerify | fwActivate | fwConfirm | attest | fatalClear | i3cAddressAssign |
    i3cPrivateRead | i3cMbxGo | i3cRspClear | fwVerifyComplete | fwActivateComplete =>
    unfold exec
    simp [execFwReady, execUndefinedCommand, execMgtQuery, execFwBegin, execFwChunk, execFwVerify, execFwActivate, execFwConfirm,
      execAttest, execFatalClear, execI3cAddressAssign, execI3cPrivateRead, execI3cMbxGo, execI3cRspClear, execFwVerifyComplete,
      execFwActivateComplete]
  | fwWatchdog =>
    unfold exec
    have hdark := And.intro (h .device rfl) (And.intro (h .litEntry rfl) (And.intro (h .comb rfl) (And.intro (h .light rfl) (h .gloom rfl))))
    have hfuses : P .fuses = false := h .fuses rfl
    simp [execFwWatchdog, hdark, hfuses]
  | lockstepDisagreement =>
    unfold exec
    have hdark := And.intro (h .device rfl) (And.intro (h .litEntry rfl) (And.intro (h .comb rfl) (And.intro (h .light rfl) (h .gloom rfl))))
    have hfatal : P .fatal = false := h .fatal rfl
    have hfuses : P .fuses = false := h .fuses rfl
    simp [execLockstepDisagreement, hdark, hfatal, hfuses]
  | mgtCapMgmtWrite =>
    unfold exec
    have hwork := work_free h rfl
    simp [execMgtCapMgmtWrite, hwork]
  | fwEraseDone | fwChunkProgrammed =>
    unfold exec
    have hflash : P .flash = false := h .flash rfl
    simp [execFwEraseDone, execFwChunkProgrammed, hflash]
  | attestSigned | fatalRead =>
    unfold exec
    have hreport : P .report = false := h .report rfl
    simp [execAttestSigned, hreport]
  | combSwap =>
    unfold exec
    have hcomb : P .comb = false := h .comb rfl
    have hgloom : P .gloom = false := h .gloom rfl
    simp [hgloom, hcomb]
  | combSwapDone =>
    unfold exec
    have hcomb : P .comb = false := h .comb rfl
    have hlight : P .light = false := h .light rfl
    have hgloom : P .gloom = false := h .gloom rfl
    simp [execCombSwapDone, hcomb, hlight, hgloom]
  | fatalPersisted | fatalClearComplete =>
    unfold exec
    have hfatals : P .fatals = false := h .fatals rfl
    simp [execFatalPersisted, execFatalClearComplete, hfatals]
  | i3cPrivateWrite =>
    unfold exec
    have hwork := work_free h rfl
    have hstage : P .stage = false := h .stage rfl
    simp [hwork, hstage]
  | fwConfirmComplete =>
    unfold exec
    have hfuses : P .fuses = false := h .fuses rfl
    simp [execFwConfirmComplete, hfuses]
  | imgQuery | imgBegin | imgVerify | imgCommitFull | imgCommitRestart | imgAbort | replacementApply =>
    unfold exec
    simp [execImgQuery, execImgBegin, execImgVerify, execImgCommitFull, execImgCommitRestart, execImgAbort, execReplacementApply]
  | chunkMoved | verifyComplete =>
    unfold exec
    have hreservoir : P .reservoir = false := h .reservoir rfl
    simp [execChunkMoved, execVerifyComplete, hreservoir]
  | bar2Write =>
    unfold exec
    have hwindow : P .window = false := h .window rfl
    simp [execBar2Write, hwindow]
  | replacementCopyDone | moduleFrame =>
    unfold exec
    have hwork := work_free h rfl
    have hdevice : P .device = false := h .device rfl
    have hlight : P .light = false := h .light rfl
    simp [execReplacementCopyDone, execModuleFrame, hwork, hdevice, hlight]
  | prtCmdRetrain | prtCmdHold | prtCmdRelease =>
    unfold exec
    have hwork := work_free h rfl
    have hdevice : P .device = false := h .device rfl
    have hlight : P .light = false := h .light rfl
    have hgloom : P .gloom = false := h .gloom rfl
    simp [execPrtCmdRetrain, execPrtCmdHold, execPrtCmdRelease, hwork, hdevice, hlight, hgloom]
  | switchAnchor | switchTimeout | initTimeout | creditTimeout | retrainRequest | retrainGo | retrainTimeout | laneMapApply | parity |
    sidebandFailed | tpTrainingStep | stackChannelLoss =>
    unfold exec
    have hdevice : P .device = false := h .device rfl
    have hlight : P .light = false := h .light rfl
    simp [execSwitchAnchor, execSwitchTimeout, execInitTimeout, execCreditTimeout, execRetrainRequest, execRetrainGo, execRetrainTimeout,
      execLaneMapApply, execParity, execSidebandFailed, execTpTrainingStep, execStackChannelLoss,
      hdevice, hlight]
  | portTrainingTimeout | openFibre =>
    unfold exec
    have hdevice : P .device = false := h .device rfl
    have hlight : P .light = false := h .light rfl
    have hgloom : P .gloom = false := h .gloom rfl
    simp [execPortTrainingTimeout, execOpenFibre, hdevice, hlight, hgloom]
  | clockLossDetected =>
    unfold exec
    have hdevice : P .device = false := h .device rfl
    have hlight : P .light = false := h .light rfl
    have hring : P .ring = false := h .ring rfl
    simp [execClockLossDetected, hdevice, hlight, hring]
  | train | portTrainingStep =>
    unfold exec
    have hdevice : P .device = false := h .device rfl
    have hlight : P .light = false := h .light rfl
    have hring : P .ring = false := h .ring rfl
    have hgloom : P .gloom = false := h .gloom rfl
    simp [execTrain, execPortTrainingStep, hdevice, hlight, hgloom, hring]
  | combDieFailure =>
    unfold exec
    have hcomb : P .comb = false := h .comb rfl
    have hdevice : P .device = false := h .device rfl
    have hlight : P .light = false := h .light rfl
    have hgloom : P .gloom = false := h .gloom rfl
    simp [execCombDieFailure, hcomb, hdevice, hlight, hgloom]
  | nop | issue | token | notify | prefetch | hint | setlc | branch | call | ret =>
    unfold exec
    have hwork := work_free h rfl
    simp [execNop, execIssue, execToken, execNotify, execPrefetch, execHint, execSetlc, execBranch, execCall, execRet, hwork]
  | phase | wait | select | commit | halt =>
    unfold exec
    have hwork := work_free h rfl
    have hdevice : P .device = false := h .device rfl
    have hlight : P .light = false := h .light rfl
    simp [execPhase, execWait, execSelect, execCommit, execHalt, hwork, hdevice, hlight]
  | tokenArrival =>
    unfold exec
    have hdevice : P .device = false := h .device rfl
    have hlight : P .light = false := h .light rfl
    simp [execTokenArrival, hdevice, hlight]
  | operationDone =>
    unfold exec
    have hdevice : P .device = false := h .device rfl
    have hiter : P .iter = false := h .iter rfl
    have hlight : P .light = false := h .light rfl
    have hreservoir : P .reservoir = false := h .reservoir rfl
    have hstaging : P .staging = false := h .staging rfl
    simp [execOperationDone, hdevice, hiter, hlight, hreservoir, hstaging]
  | mirrorRecord | heartbeatSend | selfTestComplete | resyncTimer | resyncCopyDone =>
    unfold exec
    simp [execMirrorRecord, execHeartbeatSend, execSelfTestComplete, execResyncTimer, execResyncCopyDone]
  | mirrorAck | mirrorAckTimeout | heartbeatTimeout | sequencerFailureSignal | sqCmdForceFailover | sqCmdResyncStandby | sqCmdTakeBackNow |
    sqCmdKeepStandbyOut | sqCmdReadmit =>
    unfold exec
    have hdevice : P .device = false := h .device rfl
    have hiter : P .iter = false := h .iter rfl
    have hlight : P .light = false := h .light rfl
    have hreservoir : P .reservoir = false := h .reservoir rfl
    have hstaging : P .staging = false := h .staging rfl
    simp [execMirrorAck, execMirrorAckTimeout, execHeartbeatTimeout, execSequencerFailureSignal, execSqCmdForceFailover,
      execSqCmdResyncStandby, execSqCmdTakeBackNow, execSqCmdKeepStandbyOut, execSqCmdReadmit, hdevice, hiter, hlight, hreservoir, hstaging]
  | phaseWatchdogExpiry | fenceAcknowledged =>
    unfold exec
    have hdevice : P .device = false := h .device rfl
    have hlight : P .light = false := h .light rfl
    simp [execPhaseWatchdogExpiry, execFenceAcknowledged, hdevice, hlight]
  | sqResumeGo | sqResumeRelease =>
    unfold exec
    have hwork := work_free h rfl
    have hdevice : P .device = false := h .device rfl
    have hlight : P .light = false := h .light rfl
    simp [execSqResumeGo, execSqResumeRelease, hwork, hdevice, hlight]
  | gate =>
    unfold exec
    have hwork := work_free h rfl
    have hdevice : P .device = false := h .device rfl
    have hlight : P .light = false := h .light rfl
    simp [execGate, hwork, hdevice, hlight]
  | dispatch | dispatchRecord | combineReturn | commitMarker | cancelMarker =>
    unfold exec
    have hwork := work_free h rfl
    have hdevice : P .device = false := h .device rfl
    have hlight : P .light = false := h .light rfl
    simp [execDispatch, execDispatchRecord, execCombineReturn, execCommitMarker, execCancelMarker, hwork, hdevice, hlight]
  | allreduce | reducescatter | allgather | alltoallv | broadcast | stream =>
    unfold exec
    have hwork := work_free h rfl
    have hdevice : P .device = false := h .device rfl
    have hlight : P .light = false := h .light rfl
    simp [execAllreduce, execReducescatter, execAllgather, execAlltoallv, execBroadcast, execStream, hwork, hdevice, hlight]
  | ceCtrlWrite =>
    unfold exec
    have hwork := work_free h rfl
    simp [execCeCtrlWrite, hwork]
  | switchArrival | lineRelock | switchComplete | retrainDeskewDone | retrainReady | switchStall =>
    unfold exec
    simp [execSwitchArrival, execLineRelock, execSwitchComplete, execRetrainDeskewDone, execRetrainReady, execSwitchStall]
  | dataFlit | sbToken =>
    unfold exec
    have hdevice : P .device = false := h .device rfl
    have hlight : P .light = false := h .light rfl
    simp [execDataFlit, execSbToken, hdevice, hlight]
  | reachCodeword =>
    unfold exec
    have hwork := work_free h rfl
    have haer : P .aer = false := h .aer rfl
    have hdevice : P .device = false := h .device rfl
    have hfwDbl : P .fwDbl = false := h .fwDbl rfl
    have hhostDbl : P .hostDbl = false := h .hostDbl rfl
    have hlight : P .light = false := h .light rfl
    have hring : P .ring = false := h .ring rfl
    have hsiteReg : P .siteReg = false := h .siteReg rfl
    simp [execReachCodeword, hwork, haer, hdevice, hfwDbl, hhostDbl, hlight, hring, hsiteReg]
  | idleFlit | nak | switchIdle | init | initResend | retransmitTimerExpiry | replayEntryGrant | retrainRequestResend | flitBoundary =>
    unfold exec
    simp [execIdleFlit, execNak, execSwitchIdle, execInit, execInitResend, execRetransmitTimerExpiry, execReplayEntryGrant,
      execRetrainRequestResend, execFlitBoundary]
  | lineMarker | lineAlignmentLost | substitutionRequest | substitutionApplied | substitutionMarker =>
    unfold exec
    have hring : P .ring = false := h .ring rfl
    simp [execLineMarker, execLineAlignmentLost, execSubstitutionMarker, hring]
  | lineMarkerSend | substitutionGo | substitutionRepeat | lineRequalify | requalifyEnd =>
    unfold exec
    simp [execLineMarkerSend, execSubstitutionGo, execSubstitutionRepeat, execLineRequalify, execRequalifyEnd]
  | l00LockLost =>
    unfold exec
    have hlight : P .light = false := h .light rfl
    have hgloom : P .gloom = false := h .gloom rfl
    simp [execL00LockLost, hlight, hgloom]
  | ringLoopVisit | glintCalibrationDone =>
    unfold exec
    have hlight : P .light = false := h .light rfl
    have hring : P .ring = false := h .ring rfl
    have hgloom : P .gloom = false := h .gloom rfl
    simp [execRingLoopVisit, execGlintCalibrationDone, hlight, hgloom, hring]
  | ringZoneSample | samplerTrim | calibrationOverdue =>
    unfold exec
    simp [execRingZoneSample, execSamplerTrim, execCalibrationOverdue]
  | hintLearn | calibrationStart | calibrationComplete | sbHint =>
    unfold exec
    have hring : P .ring = false := h .ring rfl
    simp [execHintLearn, execCalibrationStart, execCalibrationComplete, execSbHint, hring]
  | gridLoop | biasLoop | combThermalReduction | spareGainRamp | spareCombLocked =>
    unfold exec
    have hcomb : P .comb = false := h .comb rfl
    have hgloom : P .gloom = false := h .gloom rfl
    simp [execGridLoop, execBiasLoop, execCombThermalReduction, execSpareGainRamp, execSpareCombLocked, hcomb, hgloom]
  | agingLogWrite =>
    unfold exec
    have haging : P .aging = false := h .aging rfl
    have hcomb : P .comb = false := h .comb rfl
    have hgloom : P .gloom = false := h .gloom rfl
    simp [execAgingLogWrite, haging, hcomb, hgloom]
  | probeStart | probeLightReceived | probeEnd =>
    unfold exec
    have hlight : P .light = false := h .light rfl
    have hring : P .ring = false := h .ring rfl
    have hgloom : P .gloom = false := h .gloom rfl
    simp [execProbeStart, execProbeLightReceived, execProbeEnd, hlight, hgloom, hring]
  | qclkLoss =>
    unfold exec
    have hdark := And.intro (h .device rfl) (And.intro (h .litEntry rfl) (And.intro (h .comb rfl) (And.intro (h .light rfl) (h .gloom rfl))))
    have hfatal : P .fatal = false := h .fatal rfl
    simp [execQclkLoss, hdark, hfatal]
  | rxPowerWarning =>
    unfold exec
    simp [execRxPowerWarning]
  | retry | level | creditInit | credit | creditReturnTimer | mbxData | mbxGo | lock | sbReservedMessage | sbResendTimeout |
    siteResetRelease =>
    unfold exec
    simp [execRetry, execLevel, execCreditInit, execCredit, execCreditReturnTimer, execMbxData, execMbxGo, execLock, execSbReservedMessage,
      execSbResendTimeout, execSiteResetRelease]
  | mbxResp =>
    unfold exec
    have haer : P .aer = false := h .aer rfl
    simp [execMbxResp, haer]
  | doorbell =>
    unfold exec
    have hfwDbl : P .fwDbl = false := h .fwDbl rfl
    have hhostDbl : P .hostDbl = false := h .hostDbl rfl
    simp [execDoorbell, hfwDbl, hhostDbl]
  | laneMap | repair | laneMarker | tpMarkerSend | trainingFrame | fomMeasurement | tpTrainingTimeout | retestStart | retestComplete |
    tpInjectRepeat | sidebandFrameSend =>
    unfold exec
    simp [execLaneMap, execRepair, execLaneMarker, execTpMarkerSend, execTrainingFrame, execFomMeasurement, execTpTrainingTimeout,
      execRetestStart, execRetestComplete, execTpInjectRepeat, execSidebandFrameSend]
  | tpCmdRetrain | tpCmdHold | tpCmdRelease | tpCmdRetestQuad | tpCmdEnterTest | tpCmdLeaveTest | tpPatCtrlWrite =>
    unfold exec
    have hwork := work_free h rfl
    have hsiteReg : P .siteReg = false := h .siteReg rfl
    simp [execTpCmdRetrain, execTpCmdHold, execTpCmdRelease, execTpCmdRetestQuad, execTpCmdEnterTest, execTpCmdLeaveTest,
      execTpPatCtrlWrite, hwork, hsiteReg]
  | tpInjectSingleBit | tpInjectSymbols | tpInjectMarker | tpInjectSbCrc | tpInjectStop =>
    unfold exec
    have hwork := work_free h rfl
    simp [execTpInjectSingleBit, execTpInjectSymbols, execTpInjectMarker, execTpInjectSbCrc, execTpInjectStop, hwork]
  | reachCodewordSend =>
    unfold exec
    have hsiteReg : P .siteReg = false := h .siteReg rfl
    simp [execReachCodewordSend, hsiteReg]
  | repairStart | repairTestEnd | wpTrainingStep | wpTrainingTimeout | moduleFrameSend =>
    unfold exec
    simp [execRepairStart, execRepairTestEnd, execWpTrainingStep, execWpTrainingTimeout, execModuleFrameSend]
  | wpCmdRetrain | wpCmdHold | wpCmdRelease | wpCmdRepairModule =>
    unfold exec
    have hwork := work_free h rfl
    have hsiteReg : P .siteReg = false := h .siteReg rfl
    simp [execWpCmdRetrain, execWpCmdHold, execWpCmdRelease, execWpCmdRepairModule, hwork, hsiteReg]
  | bar4Read =>
    unfold exec
    have hwork := work_free h rfl
    have haer : P .aer = false := h .aer rfl
    simp [execBar4Read, hwork, haer]
  | bar4Write | hbmApertureWrite | hbmScrubWrite =>
    unfold exec
    have hwork := work_free h rfl
    simp [execBar4Write, execHbmApertureWrite, execHbmScrubWrite, hwork]
  | scrubStep =>
    unfold exec
    have hreservoir : P .reservoir = false := h .reservoir rfl
    simp [execScrubStep, hreservoir]
  | hbmStackPoll | capPeriodStart | vralertAssert | vralertHoldEnd | droopDetect | droopClear | droopClear1us | vralertRelease =>
    unfold exec
    simp [execHbmStackPoll, execCapPeriodStart, execVralertAssert, execVralertHoldEnd, execDroopDetect, execDroopClear, execDroopClear1us,
      execVralertRelease]
  | thermalSample | junctionTrip =>
    unfold exec
    have hdark := And.intro (h .device rfl) (And.intro (h .litEntry rfl) (And.intro (h .comb rfl) (And.intro (h .light rfl) (h .gloom rfl))))
    have hfatal : P .fatal = false := h .fatal rfl
    simp [execThermalSample, execJunctionTrip, hdark, hfatal]
  | clusterAgingCheck =>
    unfold exec
    have haging : P .aging = false := h .aging rfl
    simp [haging]
  | pwrCtrlWrite | pwrCapHostWrite | thmWarnWrite =>
    unfold exec
    have hwork := work_free h rfl
    simp [execPwrCtrlWrite, execPwrCapHostWrite, execThmWarnWrite, hwork]
  | sensorSnapshot =>
    unfold exec
    have hdark := And.intro (h .device rfl) (And.intro (h .litEntry rfl) (And.intro (h .comb rfl) (And.intro (h .light rfl) (h .gloom rfl))))
    have hfatal : P .fatal = false := h .fatal rfl
    have hsnap : P .snap = false := h .snap rfl
    simp [execSensorSnapshot, hdark, hfatal, hsnap]
  | mbxTake =>
    unfold exec
    have hwas : P .was = false := h .was rfl
    simp [execMbxTake, hwas]
  | mailboxTimeout | dblSiteRing | lckAcquire | pcieLinkChange | errEchoLine | errEchoFibre | errEchoModule | errEchoStop | echoNonceReturn
    | echoNotLooped | functionPowerStateWrite =>
    unfold exec
    simp [execMailboxTimeout, execDblSiteRing, execLckAcquire, execPcieLinkChange, execErrEchoLine, execErrEchoFibre, execErrEchoModule,
      execErrEchoStop, execEchoNonceReturn, execEchoNotLooped, execFunctionPowerStateWrite]
  | dblFwRing =>
    unfold exec
    have hfwDbl : P .fwDbl = false := h .fwDbl rfl
    have hhostDbl : P .hostDbl = false := h .hostDbl rfl
    simp [execDblFwRing, hfwDbl, hhostDbl]
  | lckRelease | errCtrlRelease =>
    unfold exec
    have hwork := work_free h rfl
    simp [execLckRelease, execErrCtrlRelease, hwork]
  | poisonedTlp =>
    unfold exec
    have haer : P .aer = false := h .aer rfl
    simp [execPoisonedTlp, haer]
  | lowWordRead =>
    unfold exec
    have hwork := work_free h rfl
    simp [execLowWordRead, hwork]
  | registerWrite =>
    unfold exec
    have hwork := work_free h rfl
    have haer : P .aer = false := h .aer rfl
    have hdevice : P .device = false := h .device rfl
    have hfwDbl : P .fwDbl = false := h .fwDbl rfl
    have hhostDbl : P .hostDbl = false := h .hostDbl rfl
    have hlight : P .light = false := h .light rfl
    have hsiteReg : P .siteReg = false := h .siteReg rfl
    have hvec : P .vec = false := h .vec rfl
    have hwas : P .was = false := h .was rfl
    have hgloom : P .gloom = false := h .gloom rfl
    simp [execRegisterWrite, hwork, haer, hdevice, hfwDbl, hhostDbl, hlight, hgloom, hsiteReg, hvec, hwas]
  | imgChunk | railSettled | thermalCeilingStep =>
    unfold exec
    simp
  | devPenumbra =>
    unfold exec
    have hdevice : P .device = false := h .device rfl
    have hlight : P .light = false := h .light rfl
    simp [hdevice, hlight]
  | switch =>
    unfold exec
    have hwork := work_free h rfl
    simp [hwork]
  | fetchComplete | combine | tentativeDispatch | collectiveSegment =>
    unfold exec
    have hwork := work_free h rfl
    have hdevice : P .device = false := h .device rfl
    have hlight : P .light = false := h .light rfl
    simp [hwork, hdevice, hlight]
  | switchRingsSet =>
    unfold exec
    have hring : P .ring = false := h .ring rfl
    simp [hring]
  | mbxSend =>
    unfold exec
    have haer : P .aer = false := h .aer rfl
    simp [haer]
  | msixUnmask =>
    unfold exec
    have hvec : P .vec = false := h .vec rfl
    simp [hvec]
  | powerSample =>
    unfold exec
    have hring : P .ring = false := h .ring rfl
    simp [execPowerSample, hring]
end

end Sys2Proof.Machine
end

section
/-!
PROOFS. The frames over all commands: parts of the state and bytes of memory change only by the commands named for them.
-/

-- In sequence: each worker of the elaborator takes its stack from the memory that a check may use.
set_option Elab.async false

namespace Sys2Proof.Machine

/-- The choice of one part. -/
def only (p : Part) : Part → Bool := fun q => decide (q = p)

@[simp] theorem only_of_ne {p q : Part} (h : q ≠ p) : only p q = false := decide_eq_false h

theorem look_only {p : Part} {s t : State} : look (only p) t = look (only p) s ↔ p.get t = p.get s := by
  rw [look_eq_iff]
  refine ⟨fun h => h p (decide_eq_true rfl), fun h q hq => ?_⟩
  obtain rfl : q = p := of_decide_eq_true hq
  exact h

section
variable {P : Part → Bool} {p : Part} {c : Instr} {s t : State}

@[simp] theorem irqSettle_look (s : State) (hwas : P .was = false) : look P (irqSettle s) = look P s := by
  unfold irqSettle
  exact look_mk (hwas := by simp [hwas])

/-- What is seen after a command that answers, the notes on interrupt conditions aside. -/
theorem Shows.look_eq {o : Host.Outcome State Fault Refusal} (h : Shows P s o) (ht : o = .next t) (hwas : P .was = false) :
    look P t = look P s := by
  obtain ⟨u, rfl, hu⟩ := h
  injection ht with ht
  rw [← ht, irqSettle_look u hwas, hu]

/-- A part that a command may not change is as it was before it. -/
theorem exec_get (ht : exec c s = .next t) (hc : c.resets = false) (hp : c.touches p = false) (hwas : p ≠ .was) : p.get t = p.get s := by
  refine look_only.mp ((exec_look c s hc fun q hq => ?_).look_eq ht (only_of_ne hwas.symm))
  have other : q ≠ p := fun e => by rw [e, hp] at hq; cases hq
  exact decide_eq_false other

end

/-! ### Fuses (R445) -/

/-- What the fuses hold, as a part: the counter and the revoke fuse of root slot 0. -/
def fuses (s : State) : ℕ × Bool := Part.get s .fuses

/-- Fuses are only ever programmed: the counter does not fall, the revoke fuse stays. -/
def FusesGrow (a b : ℕ × Bool) : Prop := a.1 ≤ b.1 ∧ (a.2 = true → b.2 = true)

/-- Fuses only grow, and only while a FW_CONFIRM is being carried out. -/
def FusesHold (s t : State) : Prop := FusesGrow (fuses s) (fuses t) ∧ (confirming s = false → fuses t = fuses s)

section
variable {s t : State}

theorem fuses_of_look (h : look (only .fuses) t = look (only .fuses) s) : fuses t = fuses s := look_only.mp h

theorem FusesGrow.refl (a : ℕ × Bool) : FusesGrow a a := ⟨le_rfl, id⟩

theorem FusesGrow.then_look {a : ℕ × Bool} (h : FusesGrow a (fuses s)) (same : look (only .fuses) t = look (only .fuses) s) :
    FusesGrow a (fuses t) := by
  rwa [fuses_of_look same]

theorem FusesHold.of_eq (h : fuses t = fuses s) : FusesHold s t := ⟨by rw [h]; exact .refl _, fun _ => h⟩

theorem burn_fuses_grow (n : ℕ) (s : State) : FusesGrow (fuses s) (fuses (burn n s)) := by
  have burnt : fuses (burn n s) = ((fusesAfter n s).counter, (fusesAfter n s).slot0Revoked) := by
    refine fuses_of_look (s := { s with sec := fusesAfter n s }) ?_
    unfold burn
    dsimp only
    split <;> split
    · exact (flag_look ..).trans (flag_look ..)
    · exact flag_look ..
    · exact flag_look ..
    · rfl
  rw [burnt]
  exact ⟨le_max_left _ _, fun h => by simp [fusesAfter, show s.sec.slot0Revoked = true from h]⟩

theorem confirmCut_fuses (s : State) : FusesHold s (confirmCut s) := by
  unfold confirmCut
  split
  next h => exact ⟨burn_fuses_grow _ { s with fresh := s.fresh + 1 }, fun no => absurd h (by simp [no])⟩
  · exact .of_eq rfl

theorem confirming_of_runs (h : t.mgt.runs = s.mgt.runs) : confirming t = confirming s := by rw [confirming, h, confirming]

theorem runs_ite {q : Prop} [Decidable q] {a b : State} {l : List MgtRun} (ha : a.mgt.runs = l) (hb : b.mgt.runs = l) :
    (if q then a else b).mgt.runs = l := by
  split <;> assumption

theorem setEv_runs (blk inst bit : ℕ) (s : State) : (setEv blk inst bit s).mgt.runs = s.mgt.runs := by
  unfold setEv
  repeat' apply runs_ite
  all_goals rfl

theorem flag_runs (blk inst bit : ℕ) (s : State) : (flag blk inst bit s).mgt.runs = s.mgt.runs := by
  rw [flag, eventBit, logEvent_mgt, setEv_runs]

theorem fwTo_runs (v : BitVec 4) (s : State) : (fwTo v s).mgt.runs = s.mgt.runs := by
  unfold fwTo
  split <;> simp

/-- Where the fuses hold from a state with the same fuses and the same runs, they hold. -/
theorem FusesHold.from {u : State} (h : FusesHold u t) (runs : u.mgt.runs = s.mgt.runs) (same : fuses u = fuses s) : FusesHold s t := by
  simpa [FusesHold, same, confirming_of_runs runs] using h

theorem FusesHold.then {u : State} (h : FusesHold s t) (same : fuses u = fuses t) : FusesHold s u := by
  simpa [FusesHold, same] using h

/-- A management reset shows what its cutting of a FW_CONFIRM shows. -/
theorem mgmtReset_look_cut {P : Part → Bool} (s : State) (hdark : ∀ p ∈ Part.dark, P p = false) :
    look P (mgmtReset s) = look P (confirmCut (flag blkMGT 0 1 (fwTo 4 s))) := by
  simp only [mgmtReset]
  (repeat' split) <;> simp [hdark, ↓look_mk]

theorem mgmtReset_fuses (s : State) : FusesHold s (mgmtReset s) := by
  refine FusesHold.then (t := confirmCut (flag blkMGT 0 1 (fwTo 4 s))) (((confirmCut_fuses _).from ?_ ?_)) ?_
  · rw [flag_runs, fwTo_runs]
  · exact fuses_of_look (by simp)
  · exact fuses_of_look (mgmtReset_look_cut s (by simp))

theorem lockstep_fuses (s : State) : FusesHold s (lockstep s) := by
  unfold lockstep
  extract_lets second s₁
  have runs : s₁.mgt.runs = s.mgt.runs := by simp [s₁, setEv_runs]
  have reset : FusesHold s (mgmtReset s₁) := (mgmtReset_fuses s₁).from runs (fuses_of_look (by simp [s₁]))
  split
  · exact reset.then (fuses_of_look (by simp))
  · exact reset.then (fuses_of_look (by simp))

theorem fwConfirmed_fuses (ok : Bool) (s : State) : FusesGrow (fuses s) (fuses (fwConfirmed ok s)) := by
  unfold fwConfirmed
  split
  · exact .refl _
  next r _ =>
  have ended : fuses (endRun r s) = fuses s := fuses_of_look (by simp)
  dsimp only
  split
  · have burnt := burn_fuses_grow (fuseSteps s) (endRun r s)
    rw [ended] at burnt
    exact burnt.then_look (by simp)
  · have burnt := burn_fuses_grow ((Config.freeValue 8 s.fresh).toNat % max 1 (fuseSteps s)) { endRun r s with fresh := s.fresh + 1 }
    rw [show fuses { endRun r s with fresh := s.fresh + 1 } = fuses s from ended] at burnt
    exact burnt.then_look ((mgtReply_look ..).trans (logEvent_look ..))

end

/-! ### Resets of the whole device -/

/-- What no reset changes: the queue, the flash, the aging log and the persisted fatal records (Table 17.1). -/
def lasting : Part → Bool
  | .queue | .flash | .aging | .fatals => true
  | _ => false

theorem look_lasting_eq {s t : State} (queue : t.pending = s.pending) (flash : t.mgt.flash = s.mgt.flash) (aging : t.mgt.aging = s.mgt.aging)
    (fatals : t.mgt.fatals = s.mgt.fatals) : look lasting t = look lasting s := by
  refine look_eq_iff.mpr fun p hp => ?_
  cases p with
  | queue => exact queue
  | flash => exact flash
  | aging => exact aging
  | fatals => exact fatals
  | _ => cases hp

/-- What a reset of the whole device keeps: what lasts, and the fuses but for a FW_CONFIRM that it cuts short. -/
def Outlasts (s t : State) : Prop := look lasting t = look lasting s ∧ FusesHold s t

section
variable {s t u : State}

theorem Outlasts.then (h : Outlasts s t) (last : look lasting u = look lasting t) (same : fuses u = fuses t) : Outlasts s u :=
  ⟨last.trans h.1, h.2.then same⟩

theorem Outlasts.of_eq (last : look lasting t = look lasting s) (same : fuses t = fuses s) : Outlasts s t := ⟨last, .of_eq same⟩

theorem Outlasts.from (h : Outlasts u t) (last : look lasting u = look lasting s) (runs : u.mgt.runs = s.mgt.runs) (same : fuses u = fuses s) :
    Outlasts s t :=
  ⟨h.1.trans last, h.2.from runs same⟩

theorem resetBase_outlasts (s : State) : Outlasts s (resetBase s) := by
  have cut : look lasting (confirmCut s) = look lasting s := confirmCut_look s rfl
  have kept : look lasting (resetBase s) = look lasting (confirmCut s) := look_lasting_eq rfl rfl rfl rfl
  exact ⟨kept.trans cut, (confirmCut_fuses s).then rfl⟩

theorem deviceReset_outlasts (s : State) : Outlasts s (deviceReset s) :=
  (resetBase_outlasts s).then (look_lasting_eq rfl rfl rfl rfl) rfl

theorem powerOn_outlasts (s : State) : Outlasts s (powerOn s) := by
  unfold powerOn
  split
  · exact .of_eq rfl rfl
  · exact (resetBase_outlasts s).then (look_lasting_eq rfl rfl rfl rfl) rfl

theorem powerOff_outlasts (s : State) : Outlasts s (powerOff s) := by
  unfold powerOff
  split
  · exact .of_eq rfl rfl
  · have cut : Outlasts s (bootCut s (resetBase s)) := (resetBase_outlasts s).then (bootCut_look ..) (fuses_of_look (bootCut_look ..))
    exact cut.then (look_lasting_eq rfl rfl rfl rfl) rfl

theorem resetAssert_outlasts (p : ResetPin) (us : ℕ) (s : State) : Outlasts s (resetAssert p us s) := by
  unfold resetAssert
  dsimp only
  split
  · exact .of_eq rfl rfl
  split
  · exact (deviceReset_outlasts _).from (look_lasting_eq rfl rfl rfl rfl) rfl rfl
  · exact .of_eq (look_lasting_eq rfl rfl rfl rfl) rfl

theorem runs_foldl {α : Type} (g : State → α → State) (l : List α) (s : State) (h : ∀ t x, (g t x).mgt.runs = t.mgt.runs) :
    (l.foldl g s).mgt.runs = s.mgt.runs := by
  induction l generalizing s with
  | nil => rfl
  | cons x r ih => exact (ih _).trans (h s x)

theorem endEcho_runs (s : State) : (endEcho s).mgt.runs = s.mgt.runs := by
  unfold endEcho
  split
  · rw [flag_runs, echoUncorr_mgt]
  · rfl

theorem breakBeam_runs (b : Beam) (s : State) : (breakBeam b s).mgt.runs = s.mgt.runs := by
  unfold breakBeam
  split
  · rfl
  · dsimp only
    rw [abortIf_mgt, eventBit, logEvent_mgt, setEv_runs, setEv_runs, onBeam_mgt]

theorem darkFor_runs (n : ℕ) (s : State) (p : Port) : (darkFor n s p).mgt.runs = s.mgt.runs := by
  have echo : (endEchoFibre p (endSubs p s)).mgt.runs = s.mgt.runs := by
    unfold endEchoFibre
    split
    · rw [endEcho_runs, endSubs_mgt]
    · rw [endSubs_mgt]
  unfold darkFor
  dsimp only
  split
  · rw [onPort_mgt]
  · rw [runs_foldl _ _ _ fun t b => breakBeam_runs b t]
    split
    · rw [setEv_runs, onPort_mgt, echo]
    · rw [onPort_mgt, echo]

theorem groupCheck_mgt (g : CombGroup) (s : State) : (groupCheck g s).mgt = s.mgt := by simp [groupCheck]

theorem posExhausted_mgt (g : CombGroup) (k : Fin 4) (s : State) : (posExhausted g k s).mgt = s.mgt := by
  unfold posExhausted
  rw [foldl_mgt _ _ _ fun _ _ => onPort_mgt .., onGroup_mgt]

theorem dieFails_runs (g : CombGroup) (d : CombDie) (s : State) : (dieFails g d s).mgt.runs = s.mgt.runs := by
  unfold dieFails
  dsimp only
  split
  · rfl
  split
  · rfl
  split
  · rw [logEvent_mgt, onGroup_mgt, runs_foldl _ _ _ (darkFor_runs 4), onDie_mgt]
  · rw [groupCheck_mgt, logEvent_mgt, posExhausted_mgt, runs_foldl _ _ _ (darkFor_runs 4), onDie_mgt]

theorem allDiesFail_runs (s : State) : (allDiesFail s).mgt.runs = s.mgt.runs := by
  unfold allDiesFail
  exact runs_foldl _ _ _ fun t g => runs_foldl _ _ t fun u d => dieFails_runs g d u

theorem allDiesFail_look {P : Part → Bool} (s : State) (hcomb : P .comb = false) (hlight : P .light = false) (hgloom : P .gloom = false) :
    look P (allDiesFail s) = look P s := by
  unfold allDiesFail
  exact look_foldl _ _ _ fun g t => look_foldl _ _ t fun d u => dieFails_look u g d hcomb hlight hgloom

/-- Between the states, what lasts, the fuses and the runs of management commands are as they were. -/
def RunsOn (s t : State) : Prop := t.mgt.runs = s.mgt.runs ∧ look lasting t = look lasting s ∧ fuses t = fuses s

theorem RunsOn.trans (h : RunsOn s t) (h' : RunsOn t u) : RunsOn s u :=
  ⟨h'.1.trans h.1, h'.2.1.trans h.2.1, h'.2.2.trans h.2.2⟩

theorem allDiesFail_runsOn (s : State) : RunsOn s (allDiesFail s) :=
  ⟨allDiesFail_runs s, allDiesFail_look s rfl rfl rfl, fuses_of_look (allDiesFail_look s rfl rfl rfl)⟩

theorem freeWork_runsOn (s : State) : RunsOn s (freeWork s) :=
  ⟨by rw [freeWork_mgt], freeWork_look s (by decide), fuses_of_look (freeWork_look s (by decide))⟩

theorem spend_runsOn (n : ℕ) (s : State) : RunsOn s (spend n s) :=
  ⟨by rw [spend_mgt], spend_look s n, fuses_of_look (spend_look s n)⟩

theorem supplyFault_outlasts (las aux : ℕ) (s : State) : Outlasts s (supplyFault las aux s) := by
  unfold supplyFault
  extract_lets s₁ s₂
  have off : RunsOn s s₁ := by
    unfold s₁
    split
    · exact ⟨rfl, look_lasting_eq rfl rfl rfl rfl, rfl⟩
    · exact ⟨rfl, rfl, rfl⟩
  have failed : RunsOn s (if las < 1620 then allDiesFail s₁ else s₁) := by
    split
    · exact off.trans (allDiesFail_runsOn s₁)
    · exact off
  obtain ⟨runs, last, same⟩ := (failed.trans (freeWork_runsOn _)).trans (spend_runsOn 1 s₂)
  split
  · exact (powerOff_outlasts _).from last runs same
  · exact .of_eq last same

theorem irqSettle_outlasts (h : Outlasts s t) : Outlasts s (irqSettle t) := h.then (irqSettle_look t rfl) rfl

theorem exec_outlasts (c : Instr) (hc : c.resets = true) (ht : exec c s = .next t) : Outlasts s t := by
  cases c with
  | powerOn => injection ht with ht; exact ht ▸ irqSettle_outlasts (powerOn_outlasts s)
  | powerOff => injection ht with ht; exact ht ▸ irqSettle_outlasts (powerOff_outlasts s)
  | resetAssert p us => injection ht with ht; exact ht ▸ irqSettle_outlasts (resetAssert_outlasts p us s)
  | supplyFault las aux =>
    injection ht with ht
    rw [← ht]
    refine irqSettle_outlasts ?_
    unfold live
    split
    · exact supplyFault_outlasts las aux s
    · exact .of_eq rfl rfl
  | _ => cases hc

/-- The commands that program fuses, and the two that may cut a FW_CONFIRM short. -/
theorem exec_fuses (c : Instr) (hc : c.resets = false) (ht : exec c s = .next t) :
    FusesGrow (fuses s) (fuses t) ∧ (c.changesFuses = false → confirming s = false → fuses t = fuses s) := by
  by_cases touched : c.touches .fuses = true
  · cases c with
    | fwConfirmComplete ok =>
      injection ht with ht
      refine ⟨?_, fun h => nomatch h⟩
      rw [← ht]
      unfold live
      split
      · exact fwConfirmed_fuses ok s
      · exact .refl _
    | fwWatchdog =>
      injection ht with ht
      have held : FusesHold s t := by
        rw [← ht]
        unfold live
        split
        · dsimp only
          split
          · exact (mgmtReset_fuses s).then (fuses_of_look ((irqSettle_look _ rfl).trans (logEvent_look ..)))
          · exact .of_eq rfl
        · exact .of_eq rfl
      exact ⟨held.1, fun _ => held.2⟩
    | lockstepDisagreement =>
      injection ht with ht
      have held : FusesHold s t := by
        rw [← ht]
        unfold live
        split
        · exact (lockstep_fuses s).then rfl
        · exact .of_eq rfl
      exact ⟨held.1, fun _ => held.2⟩
    | _ => cases touched
  · have same : fuses t = fuses s := exec_get (p := .fuses) ht hc (by simpa using touched) (by simp)
    exact ⟨by rw [same]; exact .refl _, fun _ _ => same⟩

end

/-! ### The obligations -/

/-- Settles O57: a command that is not named for a part changes nothing of it; resets and FW_CONFIRM are followed through what they keep. -/
theorem partsChangeOnlyByTheirCommands : Obligations.PartsChangeOnlyByTheirCommands := by
  unfold Obligations.PartsChangeOnlyByTheirCommands
  refine ⟨fun c s t ht hc => ?_, fun c s t ht => ?_⟩
  · exact ⟨fun h => exec_get (p := .ring) ht hc h (by simp), fun h => exec_get (p := .comb) ht hc h (by simp),
      fun h => exec_get (p := .siteReg) ht hc h (by simp), fun h => exec_get (p := .image) ht hc h (by simp),
      fun h => exec_get (p := .slots) ht hc h (by simp), fun h => exec_get (p := .vec) ht hc h (by simp),
      fun h => exec_get (p := .aer) ht hc h (by simp), fun h => exec_get (p := .hostDbl) ht hc h (by simp),
      fun h => exec_get (p := .fwDbl) ht hc h (by simp), fun h => exec_get (p := .iter) ht hc h (by simp),
      fun h => exec_get (p := .snap) ht hc h (by simp), exec_get (p := .time) ht hc rfl (by simp)⟩
  · by_cases hc : c.resets = true
    · obtain ⟨last, ⟨counter, revoked⟩, held⟩ := exec_outlasts c hc ht
      have kept (p : Part) (hp : lasting p = true) : p.get t = p.get s := look_eq_iff.mp last p hp
      exact ⟨kept .queue rfl, counter, revoked, fun _ h => Prod.mk.inj (held h), fun _ => kept .flash rfl, fun _ => kept .aging rfl,
        fun _ => kept .fatals rfl⟩
    · replace hc : c.resets = false := by simpa using hc
      obtain ⟨⟨counter, revoked⟩, held⟩ := exec_fuses c hc ht
      exact ⟨exec_get (p := .queue) ht hc rfl (by simp), counter, revoked, fun h k => Prod.mk.inj (held h k),
        fun h => exec_get (p := .flash) ht hc h (by simp), fun h => exec_get (p := .aging) ht hc h (by simp),
        fun h => exec_get (p := .fatals) ht hc h (by simp)⟩

/-- Settles O58: the bytes of a memory that a command may not store to are those of the same memory. -/
theorem bytesChangeOnlyByStores : Obligations.BytesChangeOnlyByStores := by
  unfold Obligations.BytesChangeOnlyByStores
  intro c s t ht hc
  refine ⟨fun h a => ?_, fun h a => ?_, fun h a => ?_⟩
  · rw [show t.hbm.mem = s.hbm.mem from exec_get (p := .reservoir) ht hc h (by simp)]
  · rw [show t.ce.staging = s.ce.staging from exec_get (p := .staging) ht hc h (by simp)]
  · rw [show t.host.bar2 = s.host.bar2 from exec_get (p := .window) ht hc h (by simp)]

end Sys2Proof.Machine
end

section
/-!
PROOFS. Every command keeps the memories in their canonical form.
-/

-- In sequence: each worker of the elaborator takes its stack from the memory that a check may use.
set_option Elab.async false

namespace Sys2Proof.Machine

/-- The parts that are memories. -/
abbrev Part.memories : List Part := [.reservoir, .staging, .window, .flash, .report, .stage]

/-- The choice of the memories. -/
def mems (p : Part) : Bool := decide (p ∈ Part.memories)

@[simp] theorem mems_rest : mems .ring = false ∧ mems .comb = false ∧ mems .siteReg = false ∧ mems .image = false ∧ mems .slots = false ∧ mems .vec = false ∧ mems .aer = false ∧
    mems .hostDbl = false ∧ mems .fwDbl = false ∧ mems .iter = false ∧ mems .snap = false ∧ mems .time = false ∧ mems .queue = false ∧ mems .fuses = false ∧
    mems .aging = false ∧ mems .fatals = false ∧ mems .was = false ∧ mems .device = false ∧ mems .litEntry = false ∧ mems .fatal = false ∧ mems .supply = false ∧ mems .light = false ∧ mems .gloom = false := by
  decide

/-- What is seen of the memories is in canonical form. -/
def MemsWf (v : (p : Part) → mems p = true → p.Value) : Prop :=
  Mem.wf (v .reservoir rfl) = true ∧ Mem.wf (v .staging rfl) = true ∧ Mem.wf (v .window rfl) = true ∧ Mem.wf (v .flash rfl) = true ∧
    Mem.wf (v .report rfl) = true ∧ Mem.wf (v .stage rfl) = true

/-- Every memory of the state is in canonical form. -/
abbrev Canon (s : State) : Prop := MemsWf (look mems s)

theorem canon_iff (s : State) : Canon s ↔ memoryCanonical s := Iff.rfl

/-- After an effect that meets no host error the memories are in canonical form. -/
def CanonR (r : Res) : Prop :=
  match r with
  | .ok t => Canon t
  | .error _ => True

/-- A command answers a state whose memories are in canonical form. -/
def CanonOut (o : Host.Outcome State Fault Refusal) : Prop := ∃ t, o = done t ∧ Canon t

@[simp] theorem memsWf_ite (q : Prop) [Decidable q] (v w : (p : Part) → mems p = true → p.Value) :
    MemsWf (if q then v else w) ↔ if q then MemsWf v else MemsWf w := by
  split <;> rfl

@[simp] theorem canonR_ok (t : State) : CanonR (.ok t) ↔ Canon t := Iff.rfl

@[simp] theorem canonR_error (n : ℕ) : CanonR (.error n) := trivial

@[simp] theorem canonR_ite (q : Prop) [Decidable q] (a b : Res) : CanonR (if q then a else b) ↔ if q then CanonR a else CanonR b := by
  split <;> rfl

@[simp] theorem canonOut_ite (q : Prop) [Decidable q] (a b : Host.Outcome State Fault Refusal) :
    CanonOut (if q then a else b) ↔ if q then CanonOut a else CanonOut b := by
  split <;> rfl

@[simp] theorem canonOut_done {t : State} (h : Canon t) : CanonOut (done t) := ⟨t, rfl, h⟩

theorem canon_live {s : State} (f : State → State) (hf : Canon (f s)) (hs : Canon s) : Canon (live f s) := by
  unfold live
  split
  · exact hf
  · exact hs

@[simp] theorem canonOut_run {s : State} (f : State → State) (hf : Canon (f s)) (hs : Canon s) : CanonOut (run f s) := ⟨_, rfl, canon_live f hf hs⟩

@[simp] theorem canonOut_runBar {s : State} (f : State → State) (hf : Canon (f s)) (hs : Canon s) : CanonOut (runBar f s) := by
  refine canonOut_run _ ?_ hs
  unfold bar
  split
  · exact hs
  · exact hf

theorem canon_foldl {α : Type} (g : State → α → State) (l : List α) (s : State) (h : ∀ t x, Canon t → Canon (g t x)) (hs : Canon s) :
    Canon (l.foldl g s) := by
  induction l generalizing s with
  | nil => exact hs
  | cons x r ih => exact ih _ (h s x hs)

theorem canon_of_look {s t : State} (h : look mems t = look mems s) (hs : Canon s) : Canon t := by rwa [Canon, h]

theorem canonR_of_shows {s : State} {r : Res} (h : Res.Shows mems s r) (hs : Canon s) : CanonR r := by
  cases r with
  | ok t => exact canon_of_look h hs
  | error => trivial

theorem canonOut_of_shows {s : State} {o : Host.Outcome State Fault Refusal} (h : Shows mems s o) (hs : Canon s) : CanonOut o := by
  obtain ⟨t, rfl, ht⟩ := h
  exact ⟨t, rfl, canon_of_look ht hs⟩

theorem wf_writeCells (m : Mem) (l : List Host.Cell) (h : m.wf = true) : (m.writeCells l).wf = true := by
  unfold Mem.writeCells
  induction l generalizing m with
  | nil => exact h
  | cons c r ih => exact ih _ (Mem.wf_write _ _ _ h)

section
variable {s t : State}

/-- A state whose memories other than the Reservoir are those of another, its Reservoir in canonical form. -/
theorem Canon.reservoir (hs : Canon s) (m : Mem) (hm : m.wf = true) (h : t.hbm.mem = m) (staging : t.ce.staging = s.ce.staging)
    (window : t.host.bar2 = s.host.bar2) (mgt : t.mgt = s.mgt) : Canon t := by
  obtain ⟨-, h₂, h₃, h₄, h₅, h₆⟩ := hs
  refine ⟨?_, ?_, ?_, ?_, ?_, ?_⟩
  · exact (congrArg Mem.wf h).trans hm
  · exact (congrArg Mem.wf staging).trans h₂
  · exact (congrArg Mem.wf window).trans h₃
  · exact (congrArg (fun g => g.flash.wf) mgt).trans h₄
  · exact (congrArg (fun g => g.report.wf) mgt).trans h₅
  · exact (congrArg (fun g => g.stage.wf) mgt).trans h₆

/-- A state whose memories other than staging SRAM are those of another, its staging SRAM in canonical form. -/
theorem Canon.staging (hs : Canon s) (m : Mem) (hm : m.wf = true) (h : t.ce.staging = m) (reservoir : t.hbm.mem = s.hbm.mem)
    (window : t.host.bar2 = s.host.bar2) (mgt : t.mgt = s.mgt) : Canon t := by
  obtain ⟨h₁, -, h₃, h₄, h₅, h₆⟩ := hs
  refine ⟨?_, ?_, ?_, ?_, ?_, ?_⟩
  · exact (congrArg Mem.wf reservoir).trans h₁
  · exact (congrArg Mem.wf h).trans hm
  · exact (congrArg Mem.wf window).trans h₃
  · exact (congrArg (fun g => g.flash.wf) mgt).trans h₄
  · exact (congrArg (fun g => g.report.wf) mgt).trans h₅
  · exact (congrArg (fun g => g.stage.wf) mgt).trans h₆

/-- An update of the management state that keeps its memories in canonical form. -/
theorem Canon.onMgt (hs : Canon s) (f : Mgt → Mgt) (flash : (f s.mgt).flash.wf = true) (report : (f s.mgt).report.wf = true)
    (stage : (f s.mgt).stage.wf = true) : Canon (onMgt f s) := by
  obtain ⟨h₁, h₂, h₃, -, -, -⟩ := hs
  exact ⟨h₁, h₂, h₃, flash, report, stage⟩

theorem Canon.reservoir_wf (hs : Canon s) : s.hbm.mem.wf = true := hs.1

theorem Canon.staging_wf (hs : Canon s) : s.ce.staging.wf = true := hs.2.1

theorem Canon.window_wf (hs : Canon s) : s.host.bar2.wf = true := hs.2.2.1

theorem Canon.flash_wf (hs : Canon s) : s.mgt.flash.wf = true := hs.2.2.2.1

theorem Canon.report_wf (hs : Canon s) : s.mgt.report.wf = true := hs.2.2.2.2.1

theorem Canon.stage_wf (hs : Canon s) : s.mgt.stage.wf = true := hs.2.2.2.2.2

end

section
variable (s : State) (n m k : ℕ) (v : Word) (b : Beam) (raw : List Byte) (c c₂ : Bool) (i : BitVec 16) (a : MgtPath) (e : Msg) (u : Fin 2) (op : OpSt)

@[simp] theorem freeWork_canon (hs : Canon s) : Canon (freeWork s) := by
  unfold freeWork
  dsimp only
  split
  · exact hs.staging _ (wf_writeCells _ _ hs.staging_wf) rfl rfl rfl rfl
  · obtain ⟨h₁, h₂, h₃, h₄, h₅, h₆⟩ := hs
    exact ⟨wf_writeCells _ _ h₁, wf_writeCells _ _ h₂, h₃, h₄, h₅, h₆⟩

@[simp] theorem hostError_canon {t : State} (ht : Canon t) : CanonOut (hostError n t) := ⟨_, rfl, freeWork_canon t ht⟩

@[simp] theorem badAccess_canon (f : State → State) (hf : ∀ t, Canon t → Canon (f t)) (hs : Canon s) : CanonOut (badAccess n f s) := by
  unfold badAccess
  split
  · exact hostError_canon _ (hf _ (by simpa [Canon] using hs))
  · exact hostError_canon _ (by simpa [Canon] using hs)

@[simp] theorem regRow_canon (f : State → State) (hf : ∀ t, Canon t → Canon (f t)) (hs : Canon s) : CanonOut (regRow n v f s) := by
  unfold regRow
  split
  · exact badAccess_canon _ _ _ hf hs
  · refine canonOut_run _ ?_ hs
    unfold bar
    split
    · exact hs
    · exact hf s hs

@[simp] theorem uncorrWord_canon (hs : Canon s) : Canon (uncorrWord n m s) := by
  exact canon_of_look ((setEv_look ..).trans ((onStack_look ..).trans look_mk)) hs

@[simp] theorem correctWord_canon (hs : Canon s) : Canon (correctWord c n s) := by
  unfold correctWord
  dsimp only
  split
  · exact canon_of_look ((eventBit_look ..).trans ((look_mk (s := eventBit ..)).trans (by simp))) hs
  · exact canon_of_look ((eventBit_look ..).trans ((onStack_look ..).trans look_mk)) hs

@[simp] theorem missedWord_canon (hs : Canon s) : Canon (missedWord c n s) := by
  unfold missedWord
  dsimp only
  have written : Canon { s with
      fresh := s.fresh + 2
      hbm := { s.hbm with mem := s.hbm.mem.writeN (16 * n) (leBytes 16 (Config.freeValue 128 s.fresh).toNat) } } :=
    hs.reservoir _ (Mem.wf_writeN _ _ _ hs.reservoir_wf) rfl rfl rfl rfl
  split
  · exact correctWord_canon _ _ _ written
  · exact written

@[simp] theorem decodeWord_canon (e : WordError) (hs : Canon s) : Canon (decodeWord n m e s).2 := by
  simp only [decodeWord]; (repeat' split) <;> simp [Canon, hs]

@[simp] theorem hbmWrite_canon (hs : Canon s) : Canon (hbmWrite n raw s) := by
  unfold hbmWrite
  refine canon_of_look (s := { s with hbm := hbmPut n raw s.hbm }) (onStack_look ..) ?_
  exact hs.reservoir _ (Mem.wf_writeN raw _ _ hs.reservoir_wf) rfl rfl rfl rfl

@[simp] theorem uncorrContained_canon (hs : Canon s) : Canon (uncorrContained n m s) := by
  simp [uncorrContained, Canon, hs]

@[simp] theorem demandRead_canon (r : ℕ × WordError) (hs : Canon s) : Canon (demandRead n s r) := by
  simp only [demandRead]; (repeat' split) <;> simp [Canon, hs]

@[simp] theorem readRange_canon (words : List (ℕ × WordError)) (hs : Canon s) : Canon (readRange n m k words s) := by
  refine canon_foldl _ _ _ (fun t e ht => ?_) (canon_foldl _ _ _ (fun t w ht => uncorrWord_canon _ _ _ ht) (canon_of_look (hbmCount_look ..) hs))
  split
  · exact ht
  · exact decodeWord_canon _ _ _ _ ht

@[simp] theorem bar4ReadAt_canon (words : List (ℕ × WordError)) (hs : Canon s) : Canon (bar4ReadAt n m words s) := by
  simp only [bar4ReadAt]; (repeat' split) <;> simp [Canon, ↓look_mk, hs]

@[simp] theorem bar4WriteAt_canon (hs : Canon s) : Canon (bar4WriteAt n raw s) := by
  unfold bar4WriteAt
  simp [Canon, hs]

@[simp] theorem scrubRead_canon (e : WordError) (hs : Canon s) : Canon (scrubRead e s) := by
  simp only [scrubRead]; (repeat' split) <;> simp [Canon, hs]

@[simp] theorem chunkDone_canon (hs : Canon s) : Canon (chunkDone u s) := by
  simp only [chunkDone]; (repeat' split) <;> simp [Canon, ↓look_mk, hs]

@[simp] theorem loadReads_canon (ranges : List (ℕ × ℕ)) (words : List (ℕ × WordError)) (hs : Canon s) : Canon (loadReads ranges words s) := by
  have read : Canon (ranges.foldl (fun t r => readRange srcFirmware (loadBase + r.1) r.2 words t) s) :=
    canon_foldl _ _ _ (fun t r ht => readRange_canon _ _ _ _ _ ht) hs
  unfold loadReads
  dsimp only
  split
  · exact canon_of_look (logEvent_look ..) read
  · exact read

@[simp] theorem verifyDone_canon (words : List (ℕ × WordError)) (hs : Canon s) : Canon (verifyDone words s) := by
  have read := loadReads_canon s (verifyRanges s) words hs
  unfold verifyDone
  dsimp only
  split
  · exact hs
  refine canon_of_look (imgReply_look ..) ?_
  split
  · exact canon_of_look (look_mk (s := loadReads ..)) read
  · exact canon_of_look ((refusedImage_look ..).trans (look_mk (s := loadReads ..))) read

@[simp] theorem copyResdata_canon (ii : Image) (ll : List ResSec) (hs : Canon s) : Canon (copyResdata ii ll s) := by
  refine canon_foldl _ _ _ (fun t d ht => ?_) hs
  split
  · exact hbmWrite_canon _ _ _ ht
  · exact ht

@[simp] theorem applyImage_canon (c' : Image) (p : Image) (hs : Canon s) : Canon (applyImage c' p c s) := by
  simp only [applyImage]; (repeat' split) <;> simp [Canon, ↓look_mk, hs]

@[simp] theorem copyDone_canon (words : List (ℕ × WordError)) (hs : Canon s) : Canon (copyDone words s) := by
  unfold copyDone
  split
  · exact hs
  split
  next c p₀ a _ _ _ =>
    have read := loadReads_canon s (copiedRanges c p₀ a.part) words hs
    dsimp only
    split
    · exact canon_of_look ((imgReply_look ..).trans ((refusedImage_look ..).trans (look_mk (s := loadReads ..)))) read
    · have applied (p : Image) : Canon (imgReply cImgCommit a.tag stOK [] (applyImage c p a.part (loadReads (copiedRanges c p₀ a.part) words s))) :=
        canon_of_look (imgReply_look ..) (applyImage_canon _ _ _ _ read)
      have held {t : State} (ht : Canon t) : Canon (if t.ctl.heldAt.isNone || heldByFlag c t then t else holdEnds t) :=
        canon_of_look (by simp) ht
      split
      · exact held (applied _)
      · exact freeWork_canon _ (held (applied _))
  · exact hs

@[simp] theorem bar2Store_canon (hs : Canon s) : Canon (bar2Store n raw s) := by
  obtain ⟨h₁, h₂, h₃, h₄, h₅, h₆⟩ := hs
  exact ⟨h₁, h₂, Mem.wf_writeN _ _ _ h₃, h₄, h₅, h₆⟩

@[simp] theorem eraseDone_canon (hs : Canon s) : Canon (eraseDone c s) := by
  have erased (m : ℕ) (l : ℕ) : Canon (onMgt (fun g => { g with flash := g.flash.clear m l }) s) :=
    hs.onMgt _ (Mem.wf_clear _ _ _ hs.flash_wf) hs.report_wf hs.stage_wf
  simp only [eraseDone]; (repeat' split) <;> simp [Canon, hs, erased]

@[simp] theorem chunkProgrammed_canon (hs : Canon s) : Canon (chunkProgrammed c s) := by
  have programmed (m : ℕ) (l : List Byte) : Canon (onMgt (fun g => { g with flash := g.flash.writeN m l }) s) :=
    hs.onMgt _ (Mem.wf_writeN _ _ _ hs.flash_wf) hs.report_wf hs.stage_wf
  unfold chunkProgrammed
  split
  · split
    · split
      · exact canon_of_look ((mgtReply_look ..).trans ((onUpd_look ..).trans (look_mk (s := onMgt ..)))) (programmed _ _)
      · exact canon_of_look (by simp) hs
    · exact hs
  · exact hs

@[simp] theorem attestDone_canon (hs : Canon s) : Canon (attestDone s) := by
  unfold attestDone
  split
  next p tag body _ =>
    refine canon_of_look ((mgtReply_look ..).trans (flag_look ..)) ?_
    have ended : Canon (endRun (.attest p tag body) s) := canon_of_look (endRun_look ..) hs
    exact ended.onMgt _ ended.flash_wf (Mem.wf_writeN _ _ _ ended.report_wf) ended.stage_wf
  · exact hs

@[simp] theorem fatalReadCmd_canon (hs : Canon s) : Canon (fatalReadCmd a e s) := by
  have written (l : List Byte) : Canon (onMgt (fun g => { g with report := g.report.writeN 0 l }) s) :=
    hs.onMgt _ hs.flash_wf (Mem.wf_writeN _ _ _ hs.report_wf) hs.stage_wf
  simp only [fatalReadCmd]; (repeat' split) <;> simp [Canon, hs, written]

@[simp] theorem i3cWord_canon (hs : Canon s) : Canon (i3cWord n v s) := by
  have staged (m : ℕ) (l : List Byte) : Canon (onMgt (fun g => { g with stage := g.stage.writeN m l }) s) :=
    hs.onMgt _ hs.flash_wf hs.report_wf (Mem.wf_writeN _ _ _ hs.stage_wf)
  simp only [i3cWord]; (repeat' split) <;> simp [Canon, hs, staged]

@[simp] theorem i3cWrite_canon (ws : List Word) (hs : Canon s) : Canon (i3cWrite n ws s) := by
  induction ws generalizing s n with
  | nil => exact canon_of_look (by simp [i3cWrite]) hs
  | cons v r ih => exact ih _ _ (i3cWord_canon _ _ _ hs)

@[simp] theorem zeroRegion_canon (r : RegionRec) (hs : Canon s) : Canon (zeroRegion s r) := by
  unfold zeroRegion
  split
  · exact hs
  · exact hs.reservoir _ (Mem.wf_clear _ _ _ hs.reservoir_wf) rfl rfl rfl rfl

@[simp] theorem regionsInit_canon (i : Image) (hs : Canon s) : Canon (regionsInit i s) := by
  exact copyResdata_canon _ _ _ (canon_foldl _ _ _ (fun t r ht => zeroRegion_canon _ _ ht) hs)

@[simp] theorem commitApply_canon (i : Image) (hs : Canon s) : Canon (commitApply i s) := by
  have begun (u : State) (hu : look mems u = look mems s) : Canon (regionsInit i u) := regionsInit_canon _ _ (canon_of_look hu hs)
  unfold commitApply
  dsimp only
  rw [Canon, pwrSettle_look, swapsDue_look _ rfl rfl, look_foldl _ _ _ (by simp), look_foldl _ _ _ (by simp), laneCountersClear_look _ rfl]
  refine canon_of_look ((look_mk (s := sqCommit ..)).trans ((sqCommit_look ..).trans ((bothStores_look ..).trans (rowsRepaired_look ..)))) (begun _ ?_)
  exact (endEcho_look ..).trans look_mk

@[simp] theorem fullCommitDone_canon (words : List (ℕ × WordError)) (hs : Canon s) : Canon (fullCommitDone words s) := by
  unfold fullCommitDone
  split
  · exact hs
  dsimp only
  have read := loadReads_canon s [(0, s.img.size)] words hs
  split
  · exact hs
  split
  · exact canon_of_look ((imgReply_look ..).trans ((refusedImage_look ..).trans (look_mk (s := loadReads ..)))) read
  · have answered (i : Image) : Canon (imgReply cImgCommit (loadReads [(0, s.img.size)] words s).img.tag stOK []
        (commitApply i (loadReads [(0, s.img.size)] words s))) := canon_of_look (imgReply_look ..) (commitApply_canon _ _ read)
    split
    · exact answered _
    · exact freeWork_canon _ (answered _)

@[simp] theorem locWrite_canon (l : Loc) (hs : Canon s) : Canon (locWrite l raw s) := by
  unfold locWrite
  split
  next a =>
    have written : Canon { s with ce := { s.ce with staging := s.ce.staging.writeN a raw } } :=
      hs.staging _ (Mem.wf_writeN raw _ _ hs.staging_wf) rfl rfl rfl rfl
    exact canon_of_look (noteWritten_look ..) written
  · exact canon_of_look (noteWritten_look ..) (hbmWrite_canon _ _ _ hs)
  · exact hs

@[simp] theorem applyOutputs_canon (hs : Canon s) : Canon (applyOutputs s) := by
  unfold applyOutputs
  refine canon_of_look (look_foldl _ _ _ (by simp)) (canon_foldl _ _ _ (fun t x ht => ?_) hs)
  split
  · exact locWrite_canon _ _ _ ht
  · exact ht

@[simp] theorem instrRow_canon (col : Col) (word : DWord) (bad : State → Option ℕ) (f : State → State) (hf : ∀ t, Canon t → Canon (f t))
    (hs : Canon s) : CanonOut (instrRow col word bad f s) := by
  unfold instrRow
  split
  · exact canonOut_done hs
  split
  · split
    · exact hostError_canon _ hs
    · exact canonOut_done (hf s hs)
  split
  · exact hostError_canon _ hs
  · exact canonOut_done hs

@[simp] theorem fetchReads_canon (i : FetchItem) (words : List (ℕ × WordError)) (hs : Canon s) : Canon (fetchReads i words s) := by
  have dirs : Canon ((fetchDirs i s).foldl (fun t r => readRange srcFetch r.1 r.2 words t) s) :=
    canon_foldl _ _ _ (fun t r ht => readRange_canon _ _ _ _ _ ht) hs
  unfold fetchReads
  dsimp only
  split
  · exact readRange_canon _ _ _ _ _ dirs
  · exact dirs

@[simp] theorem switchResolve_canon (w : DWord) (hs : Canon s) : CanonOut (switchResolve n w s) := by
  unfold switchResolve
  dsimp only
  split
  · exact hostError_canon _ hs
  split
  · exact canonOut_done (canon_of_look (by simp) hs)
  split
  · exact hostError_canon _ hs
  · exact canonOut_done (canon_of_look ((look_mk (s := fetchAsk ..)).trans (fetchAsk_look _ _ rfl)) hs)

@[simp] theorem execSwitch_canon (vreg : Fin 16) (hs : Canon s) : CanonOut (execSwitch c c₂ vreg i s) := by
  simp only [execSwitch]; (repeat' split) <;> simp [Canon, hs]

@[simp] theorem execFetchComplete_canon (it : FetchItem) (words : List (ℕ × WordError)) (hs : Canon s) :
    CanonOut (execFetchComplete it s words) := by
  have read : Canon (fetchReads it words { s with ctl := { s.ctl with fetches := s.ctl.fetches.filter fun j => j != it } }) :=
    fetchReads_canon _ _ _ (canon_of_look look_mk hs)
  have filled := canon_of_look (fetchFill_look _ it rfl) read
  unfold execFetchComplete
  dsimp only
  split
  · exact canonOut_done hs
  split
  · exact canonOut_done (canon_of_look (by simp) read)
  split
  · split
    · exact hostError_canon _ filled
    · exact canonOut_done (canon_of_look (by simp) filled)
  · exact canonOut_done filled

@[simp] theorem locReads_canon (l : Loc) (words : List (ℕ × WordError)) (hs : Canon s) : Canon (locReads l n words s) := by
  simp only [locReads]; (repeat' split) <;> simp [Canon, hs]

@[simp] theorem select_canon (vreg : Fin 16) (family : BitVec 12) (words : List (ℕ × WordError)) (hs : Canon s) :
    Canon (select vreg family v words s) := by
  simp only [select]; (repeat' split) <;> simp [Canon, ↓look_mk, hs]

@[simp] theorem overflowStore_canon (hs : Canon s) : Canon (overflowStore s n) := by
  simp only [overflowStore]; (repeat' split) <;> simp [Canon, ↓look_mk, hs]

@[simp] theorem overflowStores_canon (p : CePend) (old : List Deferred) (hs : Canon s) : Canon (overflowStores p old s) := by
  exact canon_foldl _ _ _ (fun t h ht => overflowStore_canon _ _ ht) hs

@[simp] theorem commitEffects_canon (hs : Canon s) : Canon (commitEffects s) := by
  simp only [commitEffects]; (repeat' split) <;> simp [Canon, ↓look_mk, hs]

@[simp] theorem commitWrite_canon (hs : Canon s) : Canon (commitWrite s) := by
  simp only [commitWrite]; (repeat' split) <;> simp [Canon, ↓look_mk, hs]

@[simp] theorem trySeal_canon (hs : Canon s) : Canon (trySeal s) := by
  simp only [trySeal]; (repeat' split) <;> simp [Canon, ↓look_mk, hs]

@[simp] theorem commits_canon (hs : Canon s) : Canon (commits c s) := by
  simp [commits, Canon, ↓look_mk, hs]

@[simp] theorem ceMissed_canon (hs : Canon s) : Canon (ceMissed s) := by
  exact hs.staging _ (wf_writeCells _ _ hs.staging_wf) rfl rfl rfl rfl

@[simp] theorem ceError_canon (c : CeCode) (hs : Canon s) : Canon (ceError s c) := by
  simp only [ceError]; (repeat' split) <;> simp [Canon, ↓look_mk, hs]

@[simp] theorem opReports_canon (hs : Canon s) : Canon (opReports n s) := by
  simp only [opReports]; (repeat' split) <;> simp [Canon, ↓look_mk, hs]

@[simp] theorem opRead_canon (r : HbmRead) (hs : Canon s) : Canon (opRead s r) := by
  simp only [opRead]; (repeat' split) <;> simp [Canon, hs]

@[simp] theorem opEnds_canon (codes : List CeCode) (words : List HbmRead) (hs : Canon s) : Canon (opEnds n codes words s) := by
  unfold opEnds
  split
  · split
    · have checked := canon_foldl _ codes s (fun t e ht => ceError_canon t e ht) hs
      exact opReports_canon _ _ (canon_foldl _ words _ (fun t r ht => opRead_canon t r ht) checked)
    · exact hs
  · exact hs

@[simp] theorem mirrorAcked_canon (hs : Canon s) : Canon (mirrorAcked s) := by
  simp only [mirrorAcked]; (repeat' split) <;> simp [Canon, ↓look_mk, hs]

@[simp] theorem sealAlone_canon (hs : Canon s) : Canon (sealAlone s) := by
  simp only [sealAlone]; (repeat' split) <;> simp [Canon, ↓look_mk, hs]

@[simp] theorem mirrorFails_canon (hs : Canon s) : Canon (mirrorFails s) := by
  simp [mirrorFails, Canon, ↓look_mk, hs]

@[simp] theorem mirrorTimeout_canon (hs : Canon s) : Canon (mirrorTimeout s) := by
  simp only [mirrorTimeout]; (repeat' split) <;> simp [Canon, ↓look_mk, hs]

@[simp] theorem failStandby_canon (hs : Canon s) : Canon (failStandby u n s) := by
  simp only [failStandby]; (repeat' split) <;> simp [Canon, hs]

@[simp] theorem declareFailed_canon (hs : Canon s) : Canon (declareFailed u n c s) := by
  simp only [declareFailed]; (repeat' split) <;> simp [Canon, hs]

@[simp] theorem sqReports_canon (why : SqFault) (hs : Canon s) : Canon (sqReports u why s) := by
  simp only [sqReports]; (repeat' split) <;> simp [Canon, ↓look_mk, hs]

@[simp] theorem overflowClear_canon (hs : Canon s) : Canon (overflowClear s) := by
  simp [overflowClear, Canon, ↓look_mk, hs]

@[simp] theorem resumeAt_canon (r : RestartRec) (hs : Canon s) : Canon (resumeAt r s) := by
  simp only [resumeAt]; (repeat' split) <;> simp [Canon, ↓look_mk, hs]

@[simp] theorem resumeWrite_canon (hs : Canon s) : Canon (resumeWrite v s) := by
  simp only [resumeWrite]; (repeat' split) <;> simp [Canon, ↓look_mk, hs]

@[simp] theorem keepOut_canon (hs : Canon s) : Canon (keepOut u s) := by
  simp only [keepOut]; (repeat' split) <;> simp [Canon, hs]

theorem sqEffect_canon {s₂ : State} (hs : sqEffect n s = some s₂) (hc : Canon s) : Canon s₂ := by
  unfold sqEffect at hs
  split_ifs at hs <;> simp only [Option.map_eq_some_iff, Option.some.injEq] at hs
  · exact hs ▸ declareFailed_canon _ _ _ _ hc
  · obtain ⟨u, -, rfl⟩ := hs
    exact canon_of_look (setUnit_look ..) hc
  · exact hs ▸ canon_of_look look_mk hc
  · obtain ⟨u, -, rfl⟩ := hs
    exact keepOut_canon _ _ hc
  · obtain ⟨u, -, rfl⟩ := hs
    exact canon_of_look (setUnit_look ..) hc

@[simp] theorem sqCmd_canon (hs : Canon s) : Canon (sqCmd n i s) := by
  unfold sqCmd
  split
  · exact canon_of_look (by simp) hs
  split
  next h => exact canon_of_look (sqResult_look ..) (sqEffect_canon _ _ h hs)
  · exact canon_of_look (sqResult_look ..) hs

@[simp] theorem resOut_canon (o : Res) (ho : CanonR o) (hs : Canon s) : CanonOut (resOut s o) := by
  unfold resOut
  split
  · split
    · exact hostError_canon _ hs
    · exact canonOut_done (canon_of_look (stopAfter_look _ _ rfl rfl) ho)
  · exact hostError_canon _ hs

@[simp] theorem opRow_canon (bad : OpCheck) (f : ℕ → OpSt → State → Res) (hf : ∀ k o u, Canon u → CanonR (f k o u)) (hs : Canon s) :
    CanonOut (opRow n m bad f s) := by
  unfold opRow
  split
  · exact canonOut_done hs
  split
  · exact canonOut_done hs
  split
  · exact canonOut_done hs
  split
  · exact hostError_canon _ hs
  · exact resOut_canon _ _ (hf _ _ _ hs) hs

@[simp] theorem withInputs_canon (li : List (ℕ × ℕ)) (f : List (List Byte) → State → Res) (hf : ∀ ins u, Canon u → CanonR (f ins u))
    (hs : Canon s) : CanonR (withInputs li f s) := by
  have named := canon_of_look (nameInputs_look s li) hs
  unfold withInputs
  dsimp only
  split
  · trivial
  split
  · exact canon_of_look (containStreams_look ..) named
  · exact uncorrContained_canon _ _ _ named
  · exact named
  · exact hf _ _ named

/-- The operation of a record that is taken keeps the memories canonical, and so does taking it. -/
theorem takeRecord_canon (mine : BitVec 4 → List Byte → Bool) (f : BitVec 4 → List Byte → State → Res) (hf : ∀ k l t, Canon t → CanonR (f k l t))
    (hs : Canon s) : CanonR (takeRecord b u n m mine f s) := by
  unfold takeRecord
  dsimp only
  split
  · exact hs
  split
  · exact hs
  split
  · exact canon_of_look (onBeam_look ..) hs
  next x y _ =>
  split
  · exact hs
  · split
    next h =>
      have taken := h ▸ hf _ y _ (canon_of_look (onBeam_look ..) hs)
      exact canon_of_look (drainBeam_look _ _ rfl rfl) taken
    · trivial
@[simp] theorem recordRow_canon (form : SegForm) (fits : OpSt → Bool) (cls : OpSt → Fin 2) (len : OpSt → ℕ)
    (f : OpSt → BitVec 4 → List Byte → State → Res) (hf : ∀ o k l t, Canon t → CanonR (f o k l t)) (hs : Canon s) :
    CanonOut (recordRow b n m form fits cls len f s) := by
  unfold recordRow
  split
  · exact canonOut_done hs
  split
  · exact canonOut_done hs
  split
  · exact canonOut_done hs
  · exact resOut_canon _ _ (takeRecord_canon _ _ _ _ _ _ _ (hf _) hs) hs

@[simp] theorem gateRun_canon (hs : Canon s) : CanonR (gateRun n op s) := by
  unfold gateRun
  exact withInputs_canon _ _ _ (fun ins t ht => canon_of_look (by simp) ht) hs

@[simp] theorem dispatchPlain_canon (hs : Canon s) : CanonR (dispatchPlain n op s) := by
  refine withInputs_canon _ _ _ (fun ins t ht => ?_) hs
  have counted (h : ℕ) : Canon (if h ≠ noHandle ∧ opFlag op 2 = true then overflowRead h (countInputs (dispInputs op) t) else countInputs (dispInputs op) t) :=
    canon_of_look (by simp) ht
  dsimp only
  split
  · exact uncorrContained_canon _ _ _ (counted _)
  split
  · trivial
  · exact canonR_of_shows (dispatchCopies_look _ _ _ _ _ _ _ rfl) (counted _)

@[simp] theorem dispatchAhead_canon (hs : Canon s) : CanonR (dispatchAhead n op s) := by
  unfold dispatchAhead
  dsimp only
  split
  · exact canon_of_look ((opFinal_look ..).trans look_mk) hs
  · refine withInputs_canon _ _ _ (fun ins t ht => ?_) hs
    split
    · trivial
    · exact canon_of_look (by simp) ht

theorem windowEnter_canon (r : BitVec 4) (x : ℕ × ℕ × ℕ) (hs : Canon s) : CanonR (windowEnter b x r raw s) := by
  unfold windowEnter
  dsimp only
  split
  · split
    · trivial
    · exact hs.staging _ (Mem.wf_writeN _ _ _ hs.staging_wf) rfl rfl rfl rfl
  · trivial
@[simp] theorem execTentativeDispatch_canon (hs : Canon s) : CanonOut (execTentativeDispatch b n s) := by
  unfold execTentativeDispatch
  split
  · exact canonOut_done hs
  split
  · exact canonOut_done hs
  · exact resOut_canon _ _ (takeRecord_canon _ _ _ _ _ _ _ (fun r l t ht => windowEnter_canon _ _ _ _ _ ht) hs) hs

@[simp] theorem combAdvance_canon (hs : Canon s) : CanonR (combAdvance n op s) := by
  refine withInputs_canon _ _ _ (fun ins t ht => ?_) hs
  split
  · exact uncorrContained_canon _ _ _ ht
  · exact canonR_of_shows (combFinish_look _ _ _ _ _ rfl) ht

@[simp] theorem execCombine_canon (hs : Canon s) : CanonOut (execCombine n s) := by
  refine opRow_canon _ _ _ _ _ (fun k o t ht => withInputs_canon _ _ _ (fun ins u hu => ?_) ht) hs
  exact combAdvance_canon _ _ _ (canon_of_look (by simp) hu)

@[simp] theorem collStart_canon (hs : Canon s) : CanonR (collStart n op s) := by
  refine withInputs_canon _ _ _ (fun ins t ht => ?_) hs
  exact canonR_of_shows (collBody_look _ _ _ _ (by simp)) ht

@[simp] theorem execCollectiveSegment_canon (form : SegForm) (hs : Canon s) : CanonOut (execCollectiveSegment b n form m s k) := by
  refine recordRow_canon _ _ _ _ _ _ _ _ _ (fun o r l t ht => ?_) hs
  dsimp only
  have admitted : Canon (admitRec n b r form l (l.drop 16) k t (looseSum o form)) := canon_of_look (by simp) ht
  split
  · exact withInputs_canon _ _ _ (fun ins u hu => canonR_of_shows (collBody_look _ _ _ _ rfl) hu) admitted
  · exact admitted

@[simp] theorem writeSq_canon (hs : Canon s) : Canon (writeSq n v s) := by
  simp only [writeSq]; (repeat' split) <;> simp [Canon, ↓look_mk, hs]

@[simp] theorem writeReg_canon (m : Master) (hs : Canon s) : Canon (writeReg m n v s) := by
  simp [writeReg, Canon, hs]

end

/-- Commands that may change a byte of some memory. -/
def stores (c : Instr) : Bool := Part.memories.any c.touches

theorem fatalRead_canon (a : MgtPath) (s : State) (hs : Canon s) : CanonOut (execFatalRead a s) := by
  refine canonOut_run _ ?_ hs
  unfold onCmd
  split
  · split
    · exact fatalReadCmd_canon _ _ _ (canon_of_look (mgtTake_look ..) hs)
    · exact hs
  · exact hs

theorem i3cPrivateWrite_canon (o : Word) (words : List Word) (s : State) (hs : Canon s) : CanonOut (execI3cPrivateWrite o words s) := by
  have written (t : State) (ht : Canon t) : Canon (i3cOn (i3cWrite o.toNat words) t) := by
    unfold i3cOn
    split
    · exact i3cWrite_canon _ _ _ ht
    · exact ht
  unfold execI3cPrivateWrite
  split
  · exact badAccess_canon _ _ _ written hs
  · exact canonOut_run _ (written s hs) hs

theorem exec_canon_of_stores (c : Instr) (s : State) (hc : c.resets = false) (hm : stores c = true) (hs : Canon s) : CanonOut (exec c s) := by
  cases c with
  | fullCommitComplete =>
    unfold exec
    simp +contextual [execFullCommitComplete, Canon, hs]
  | mgtCapMgmtWrite | fwEraseDone | fwChunkProgrammed | attestSigned | fatalRead | i3cPrivateWrite =>
    unfold exec
    simp +contextual [execMgtCapMgmtWrite, execFwEraseDone, execFwChunkProgrammed, execAttestSigned, fatalRead_canon, i3cPrivateWrite_canon,
      Canon, hs]
  | chunkMoved | verifyComplete | bar2Write =>
    unfold exec
    simp +contextual [execChunkMoved, execVerifyComplete, execBar2Write, Canon, hs]
  | replacementCopyDone | prtCmdRetrain | prtCmdHold | prtCmdRelease | moduleFrame =>
    unfold exec
    simp +contextual [execReplacementCopyDone, execPrtCmdRetrain, execPrtCmdHold, execPrtCmdRelease, execModuleFrame, Canon, hs]
  | nop | phase | wait | issue | token | notify | select | prefetch | hint | commit | setlc | branch | call | ret | halt | operationDone =>
    unfold exec
    simp +contextual [execNop, execPhase, execWait, execIssue, execToken, execNotify, execSelect, execPrefetch, execHint, execCommit,
      execSetlc, execBranch, execCall, execRet, execHalt, execOperationDone, Canon, hs]
  | mirrorAck | mirrorAckTimeout | heartbeatTimeout | sequencerFailureSignal | sqResumeGo | sqResumeRelease | sqCmdForceFailover |
    sqCmdResyncStandby | sqCmdTakeBackNow | sqCmdKeepStandbyOut | sqCmdReadmit =>
    unfold exec
    simp +contextual [execMirrorAck, execMirrorAckTimeout, execHeartbeatTimeout, execSequencerFailureSignal, execSqResumeGo,
      execSqResumeRelease, execSqCmdForceFailover, execSqCmdResyncStandby, execSqCmdTakeBackNow, execSqCmdKeepStandbyOut, execSqCmdReadmit,
      Canon, hs]
  | gate =>
    unfold exec
    simp +contextual [execGate, Canon, hs]
  | dispatch | dispatchRecord | combineReturn | commitMarker | cancelMarker =>
    unfold exec
    simp +contextual [execDispatch, execDispatchRecord, execCombineReturn, execCommitMarker, execCancelMarker, Canon, hs]
  | allreduce | reducescatter | allgather | alltoallv | broadcast | stream | ceCtrlWrite =>
    unfold exec
    simp +contextual [execAllreduce, execReducescatter, execAllgather, execAlltoallv, execBroadcast, execStream, execCeCtrlWrite, Canon, hs]
  | reachCodeword =>
    unfold exec
    simp +contextual [execReachCodeword, Canon, hs]
  | tpCmdRetrain | tpCmdHold | tpCmdRelease | tpCmdRetestQuad | tpCmdEnterTest | tpCmdLeaveTest | tpPatCtrlWrite | tpInjectSingleBit |
    tpInjectSymbols | tpInjectMarker | tpInjectSbCrc | tpInjectStop =>
    unfold exec
    simp +contextual [execTpCmdRetrain, execTpCmdHold, execTpCmdRelease, execTpCmdRetestQuad, execTpCmdEnterTest, execTpCmdLeaveTest,
      execTpPatCtrlWrite, execTpInjectSingleBit, execTpInjectSymbols, execTpInjectMarker, execTpInjectSbCrc, execTpInjectStop, Canon, hs]
  | wpCmdRetrain | wpCmdHold | wpCmdRelease | wpCmdRepairModule =>
    unfold exec
    simp +contextual [execWpCmdRetrain, execWpCmdHold, execWpCmdRelease, execWpCmdRepairModule, Canon, hs]
  | bar4Read | bar4Write | hbmApertureWrite | hbmScrubWrite | scrubStep =>
    unfold exec
    simp +contextual [execBar4Read, execBar4Write, execHbmApertureWrite, execHbmScrubWrite, execScrubStep, Canon, hs]
  | pwrCtrlWrite | pwrCapHostWrite | thmWarnWrite =>
    unfold exec
    simp +contextual [execPwrCtrlWrite, execPwrCapHostWrite, execThmWarnWrite, Canon, hs]
  | lckRelease | errCtrlRelease =>
    unfold exec
    simp +contextual [execLckRelease, execErrCtrlRelease, Canon, hs]
  | lowWordRead | registerWrite =>
    unfold exec
    simp +contextual [execLowWordRead, execRegisterWrite, Canon, hs]
  | switch | fetchComplete | combine | tentativeDispatch | collectiveSegment =>
    unfold exec
    simp +contextual [Canon, hs]
  | powerOn | powerOff | resetAssert | supplyFault => cases hc
  | _ => cases hm

/-- Every command but a reset of the whole device keeps the memories in canonical form. -/
theorem exec_canon (c : Instr) (s : State) (hc : c.resets = false) (hs : Canon s) : CanonOut (exec c s) := by
  by_cases hm : stores c = true
  · exact exec_canon_of_stores c s hc hm hs
  · refine canonOut_of_shows (exec_look c s hc fun p hp => ?_) hs
    have untouched : ∀ q ∈ Part.memories, c.touches q = false := by simpa [stores] using hm
    exact decide_eq_false fun hmem => by rw [untouched p hmem] at hp; cases hp

section
variable {s t : State}

/-- A state whose memories are empty or those of another. -/
theorem canon_reset (hs : Canon s) (reservoir : t.hbm.mem = []) (staging : t.ce.staging = []) (window : t.host.bar2 = [])
    (flash : t.mgt.flash = s.mgt.flash) (report : t.mgt.report = []) (stage : t.mgt.stage = []) : Canon t := by
  refine (canon_iff t).mpr ?_
  rw [memoryCanonical, reservoir, staging, window, flash, report, stage]
  exact ⟨rfl, rfl, rfl, hs.flash_wf, rfl, rfl⟩

theorem resetBase_canon (hs : Canon s) : Canon (resetBase s) :=
  canon_reset hs rfl rfl rfl (show (confirmCut s).mgt.flash = s.mgt.flash from look_eq_iff.mp (confirmCut_look (P := only .flash) s rfl) .flash rfl) rfl rfl

theorem powerOff_canon (hs : Canon s) : Canon (powerOff s) := by
  unfold powerOff
  split
  · exact hs
  · have cut : Canon (bootCut s (resetBase s)) := canon_of_look (bootCut_look ..) (resetBase_canon hs)
    exact canon_of_look ((emit_look ..).trans look_mk) cut

theorem supplyFault_canon (las aux : ℕ) (hs : Canon s) : Canon (supplyFault las aux s) := by
  have off : look mems (emit .dark { s with comb := combOff s.comb }) = look mems s := (emit_look ..).trans look_mk
  unfold supplyFault
  extract_lets s₁ s₂
  have dimmed : look mems s₁ = look mems s := by
    unfold s₁
    split
    · exact off
    · rfl
  have failed : look mems (if las < 1620 then allDiesFail s₁ else s₁) = look mems s := by
    split
    · exact (allDiesFail_look _ rfl rfl rfl).trans dimmed
    · exact dimmed
  have low : Canon s₂ := freeWork_canon _ (canon_of_look failed hs)
  have spent : Canon (spend 1 s₂) := canon_of_look (spend_look ..) low
  split
  · exact powerOff_canon spent
  · exact spent

/-- A command answers states with their memories in canonical form, also when it resets the device. -/
theorem exec_canon_all (c : Instr) (s : State) (hs : Canon s) : CanonOut (exec c s) := by
  by_cases hc : c.resets = false
  · exact exec_canon c s hc hs
  · cases c with
    | powerOn =>
      refine canonOut_done ?_
      unfold powerOn
      split
      · exact hs
      · exact canon_of_look look_mk (resetBase_canon hs)
    | powerOff => exact canonOut_done (powerOff_canon hs)
    | resetAssert p us =>
      refine canonOut_done ?_
      have asserted : Canon { s with dev := setPin p true s.dev } := hs
      unfold resetAssert
      dsimp only
      split
      · exact hs
      split
      · exact resetBase_canon asserted
      · exact asserted
    | supplyFault las aux => exact canonOut_run _ (supplyFault_canon las aux hs) hs
    | _ => exact absurd rfl hc

end

/-- A step idles or runs the front of the queue. -/
theorem step_cases {s t : State} (h : step s = .next t) :
    t = idle s ∨ ∃ c r, s.pending = c :: r ∧ exec c { s with pending := r } = .next t := by
  unfold step at h
  split at h
  · injection h with h
    exact .inl h.symm
  next c r front => exact .inr ⟨c, r, front, h⟩

theorem look_idle {P : Part → Bool} {s : State} (htime : P .time = false) : look P (idle s) = look P s := by
  unfold idle
  split
  · exact look_mk (s := s) (htime := by simp [htime])
  · rfl

/-- Settles O53: a command that stores keeps the canonical form through `Mem.wf_writeN` and `Mem.wf_clear`, every other shows the same memories. -/
theorem memoryStaysCanonical : Obligations.MemoryStaysCanonical := by
  unfold Obligations.MemoryStaysCanonical
  intro s t hs ht
  obtain rfl | ⟨c, r, -, ht⟩ := step_cases ht
  · exact canon_of_look (look_idle (by simp)) hs
  · obtain ⟨u, hu, kept⟩ := exec_canon_all c { s with pending := r } hs
    rw [hu] at ht
    injection ht with ht
    rw [← ht]
    exact canon_of_look (irqSettle_look u rfl) kept

end Sys2Proof.Machine
end

section
/-!
PROOFS. The messages of MSI-X vectors: what can be sent is sent when a command ends (R476).
-/

-- In sequence: each worker of the elaborator takes its stack from the memory that a check may use.
set_option Elab.async false

namespace Sys2Proof.Machine

/-! ### The end of a command -/

theorem getLsbD_setBit {n : ℕ} (e : BitVec n) (i j : ℕ) : (setBit e i).getLsbD j = (e.getLsbD j || (decide (j < n) && decide (i = j))) := by
  rw [setBit, BitVec.getLsbD_or, BitVec.getLsbD_ofNat, Nat.testBit_two_pow]

theorem getLsbD_clrBit {n : ℕ} (e : BitVec n) (i j : ℕ) (hj : j < n) : (clrBit e i).getLsbD j = (e.getLsbD j && !decide (i = j)) := by
  rw [clrBit, BitVec.getLsbD_and, BitVec.getLsbD_not, BitVec.getLsbD_ofNat, Nat.testBit_two_pow]
  simp [hj]

/-- The bits that are cleared one by one are clear afterwards, the others are as before. -/
theorem getLsbD_foldl_clrBit (l : List (Fin 64)) (e : BitVec 64) (j : Fin 64) :
    (l.foldl (fun p v => clrBit p v.val) e).getLsbD j.val = (e.getLsbD j.val && !decide (j ∈ l)) := by
  induction l generalizing e with
  | nil => simp
  | cons v r ih =>
    rw [List.foldl_cons, ih, getLsbD_clrBit _ _ _ j.isLt]
    by_cases same : j = v
    · simp [same]
    · simp [same, Fin.val_inj, eq_comm]

theorem mem_fins {n : ℕ} (v : Fin n) : v ∈ fins n := List.mem_finRange v

/-- The pending bits at the end of a command, before messages are sent: those held whose conditions stand, and the new ones. -/
def owed (s : State) : BitVec 64 := (s.host.pend &&& irqConds s) ||| (irqConds s &&& ~~~ s.host.was)

/-- The vectors whose messages are sent at the end of a command. -/
def sends (s : State) : List (Fin 64) := (fins 64).filter fun v => (owed s).getLsbD v.val && irqOpen s.host v

theorem mem_sends (s : State) (v : Fin 64) : v ∈ sends s ↔ (owed s).getLsbD v.val = true ∧ irqOpen s.host v = true := by
  rw [sends, List.mem_filter, Bool.and_eq_true]
  exact and_iff_right (mem_fins v)

theorem irqSettle_pend (s : State) : (irqSettle s).host.pend = (sends s).foldl (fun p v => clrBit p v.val) (owed s) := rfl

theorem irqOpen_settle (s : State) (v : Fin 64) : irqOpen (irqSettle s).host v = irqOpen s.host v := rfl

theorem openVectorsSent_settle (s : State) : openVectorsSent (irqSettle s) := by
  intro v hv
  rw [irqOpen_settle] at hv
  rw [irqSettle_pend, getLsbD_foldl_clrBit]
  by_cases pend : (owed s).getLsbD v.val = true
  · rw [decide_eq_true ((mem_sends s v).mpr ⟨pend, hv⟩), Bool.not_true, Bool.and_false]
  · rw [Bool.eq_false_of_not_eq_true pend, Bool.false_and]

theorem message_sent_settle (s : State) (v : Fin 64) (hv : irqOpen s.host v = true) (pend : (owed s).getLsbD v.val = true) :
    Emission.msix v.val (s.host.vec[v]).addr (s.host.vec[v]).data ∈ (irqSettle s).out := by
  exact List.mem_append_left _ (List.mem_reverse.mpr (List.mem_map.mpr ⟨v, (mem_sends s v).mpr ⟨pend, hv⟩, rfl⟩))

/-- Every command but a reset ends with its interrupts settled. -/
theorem exec_settles (c : Instr) (s : State) : ∃ u, exec c s = done u := by
  by_cases hc : c.resets = false
  · obtain ⟨u, hu, -⟩ := exec_look (P := fun _ => false) c s hc fun _ _ => rfl
    exact ⟨u, hu⟩
  · cases c with
    | powerOn | powerOff | resetAssert | supplyFault => exact ⟨_, rfl⟩
    | _ => exact absurd rfl hc

/-! ### A condition that was not noted before a command -/

/-- A vector's condition is not noted as met, or its message is owed. -/
def UnsentIn (v : Fin 64) (w : (p : Part) → only .was p = true → p.Value) : Prop :=
  (w .was rfl).1.getLsbD v.val = false ∨ (w .was rfl).2.getLsbD v.val = true

abbrev Unsent (v : Fin 64) (s : State) : Prop := UnsentIn v (look (only .was) s)

@[simp] theorem unsentIn_ite (v : Fin 64) (q : Prop) [Decidable q] (a b : (p : Part) → only .was p = true → p.Value) :
    UnsentIn v (if q then a else b) ↔ if q then UnsentIn v a else UnsentIn v b := by
  split <;> rfl

section
variable {x : Fin 64} {s : State}

theorem unsent_of_look {t : State} (h : look (only .was) t = look (only .was) s) (hs : Unsent x s) : Unsent x t := by rwa [Unsent, h]

@[simp] theorem irqResend_unsent (n : ℕ) (hs : Unsent x s) : Unsent x (irqResend n s) := by
  unfold irqResend
  split
  · show (setBit s.host.was n).getLsbD x.val = false ∨ (setBit s.host.pend n).getLsbD x.val = true
    obtain was | pend := hs
    · by_cases same : n = x.val
      · exact .inr ((getLsbD_setBit ..).trans (by simp [same]))
      · refine .inl ((getLsbD_setBit ..).trans ?_)
        rw [show s.host.was.getLsbD x.val = false from was, decide_eq_false same, Bool.and_false, Bool.or_false]
    · refine .inr ((getLsbD_setBit ..).trans ?_)
      rw [show s.host.pend.getLsbD x.val = true from pend, Bool.true_or]
  · exact hs

variable (n m : ℕ) (v : Word)

@[simp] theorem w1cVec_unsent (f : State → State) (hf : Unsent x (f s)) : Unsent x (w1cVec n v f s) := by
  unfold w1cVec
  split
  · exact hf
  · exact irqResend_unsent n hf

@[simp] theorem writeGlb_unsent (hs : Unsent x s) : Unsent x (writeGlb n v s) := by simp [Unsent, writeGlb, hs]

@[simp] theorem txCtrlWrite_unsent (c : MbxTx) (hs : Unsent x s) : Unsent x (txCtrlWrite c v s) := by
  unfold txCtrlWrite
  dsimp only
  have sent : Unsent x (if bit v 1 then mbxSendTo c (BitVec.ofNat 16 (fld v 31 16)) (onTx c (fun h => { h with
      tag := BitVec.ofNat 16 (fld v 31 16), status := h.status &&& ~~~(BitVec.ofNat 6 (fld v 7 2)) }) s) else onTx c (fun h => { h with
      tag := BitVec.ofNat 16 (fld v 31 16), status := h.status &&& ~~~(BitVec.ofNat 6 (fld v 7 2)) }) s) := unsent_of_look (by simp) hs
  split
  · exact sent
  · exact irqResend_unsent 3 sent

@[simp] theorem txWord_unsent (c : MbxTx) (hs : Unsent x s) : Unsent x (txWord c n v s) := by simp [Unsent, txWord, hs]

@[simp] theorem rxWord_unsent (c : MbxRx) (hs : Unsent x s) : Unsent x (rxWord c n v s) := by simp [Unsent, rxWord, hs]

@[simp] theorem writeMbx_unsent (hs : Unsent x s) : Unsent x (writeMbx n v s) := by simp [Unsent, writeMbx, hs]

@[simp] theorem writeDbl_unsent (hs : Unsent x s) : Unsent x (writeDbl n v s) := by simp [Unsent, writeDbl, hs]

@[simp] theorem writeErr_unsent (hs : Unsent x s) : Unsent x (writeErr n v s) := by simp [Unsent, writeErr, hs]

@[simp] theorem writePwr_unsent (hs : Unsent x s) : Unsent x (writePwr n v s) := by simp [Unsent, writePwr, hs]

@[simp] theorem writeThm_unsent (hs : Unsent x s) : Unsent x (writeThm n v s) := by simp [Unsent, writeThm, hs]

@[simp] theorem writeMgt_unsent (hs : Unsent x s) : Unsent x (writeMgt n v s) := by simp [Unsent, writeMgt, hs]

@[simp] theorem writeSec_unsent (hs : Unsent x s) : Unsent x (writeSec n v s) := by simp [Unsent, writeSec, hs]

@[simp] theorem writeSq_unsent (hs : Unsent x s) : Unsent x (writeSq n v s) := by simp [Unsent, writeSq, hs]

@[simp] theorem writeCe_unsent (hs : Unsent x s) : Unsent x (writeCe n v s) := by simp [Unsent, writeCe, hs]

@[simp] theorem writePln_unsent (hs : Unsent x s) : Unsent x (writePln n v s) := by simp [Unsent, writePln, hs]

@[simp] theorem writeBeam_unsent (hs : Unsent x s) : Unsent x (writeBeam n v s) := by simp [Unsent, writeBeam, hs]

@[simp] theorem writePrt_unsent (hs : Unsent x s) : Unsent x (writePrt n v s) := by simp [Unsent, writePrt, hs]

@[simp] theorem writeSite_unsent (y : SiteIx) (hs : Unsent x s) : Unsent x (writeSite n y m v s) := by simp [Unsent, writeSite, hs]

@[simp] theorem writeWp_unsent (hs : Unsent x s) : Unsent x (writeWp n v s) := by simp [Unsent, writeWp, hs]

@[simp] theorem writeTp_unsent (hs : Unsent x s) : Unsent x (writeTp n v s) := by simp [Unsent, writeTp, hs]

@[simp] theorem writeHbm_unsent (hs : Unsent x s) : Unsent x (writeHbm n v s) := by simp [Unsent, writeHbm, hs]

@[simp] theorem writeReg_unsent (a : Master) (hs : Unsent x s) : Unsent x (writeReg a n v s) := by simp [Unsent, writeReg, hs]

theorem stopping_unsent (f : State → State) (hf : Unsent x (f s)) : Unsent x (stopping f s) := unsent_of_look (stopping_look _ _ rfl rfl) hf

/-- A command answers a state in which the vector's message is not sent yet. -/
def UnsentOut (x : Fin 64) (o : Host.Outcome State Fault Refusal) : Prop := ∃ t, o = done t ∧ Unsent x t

theorem unsentOut_run (f : State → State) (hf : Unsent x (f s)) (hs : Unsent x s) : UnsentOut x (run f s) := by
  refine ⟨_, rfl, ?_⟩
  unfold live
  split
  · exact hf
  · exact hs

theorem registerWrite_unsent (a : Master) (size : AccessSize) (hs : Unsent x s) : UnsentOut x (execRegisterWrite a n v s size) := by
  have stopped (k : ℕ) (t : State) (ht : Unsent x t) : Unsent x (stopping (writeReg a k v) t) := stopping_unsent _ (writeReg_unsent k v a ht)
  have bad (k r : ℕ) : UnsentOut x (badAccess r (stopping (writeReg a k v)) s) := by
    refine ⟨_, rfl, unsent_of_look (freeWork_look _ (by simp)) ?_⟩
    have spent : Unsent x (spend 1 s) := unsent_of_look (spend_look ..) hs
    split
    · exact stopped k _ spent
    · exact spent
  unfold execRegisterWrite
  split
  · split
    · exact bad _ _
    · split
      · exact bad _ _
      · exact unsentOut_run _ (stopped _ _ hs) hs
  · exact ⟨_, rfl, hs⟩

theorem mbxTake_unsent (c : MbxRx) (fw : Bool) (hs : Unsent x s) : UnsentOut x (execMbxTake c s fw) := by
  unfold execMbxTake
  split
  · exact unsentOut_run _ (unsent_of_look (by simp) hs) hs
  · refine unsentOut_run _ ?_ hs
    unfold bar
    split
    · exact hs
    · exact irqResend_unsent 2 (unsent_of_look (by simp) hs)

/-- A command other than a reset takes no note of a condition before it ends, unless it owes the message. -/
theorem exec_unsent (c : Instr) (hc : c.resets = false) (hf : ∀ k, c ≠ .pcieFunctionReset k) (hs : Unsent x s) : UnsentOut x (exec c s) := by
  by_cases touched : c.touches .was = true
  · cases c with
    | mbxTake c fw => exact mbxTake_unsent _ _ hs
    | registerWrite a n v size => exact registerWrite_unsent _ _ _ _ hs
    | pcieFunctionReset k => exact absurd rfl (hf k)
    | _ => cases touched
  · obtain ⟨u, hu, kept⟩ := exec_look (P := only .was) c s hc fun p hp => decide_eq_false fun same => touched (same ▸ hp)
    exact ⟨u, hu, unsent_of_look kept hs⟩

end

/-- Settles O55: the end of a command clears the pending bit of every open vector and sends its message; until then a new condition is not noted. -/
theorem openVectorsAreSent : Obligations.OpenVectorsAreSent := by
  unfold Obligations.OpenVectorsAreSent
  refine ⟨fun s t hs ht => ?_, fun c s t v ht hc hf fresh now isOpen => ?_⟩
  · obtain rfl | ⟨c, r, -, ht⟩ := step_cases ht
    · intro v hv
      unfold idle at hv ⊢
      split at hv
      next on => rw [if_pos on]; exact hs v hv
      next off => rw [if_neg off]; exact hs v hv
    · obtain ⟨u, hu⟩ := exec_settles c { s with pending := r }
      rw [hu] at ht
      injection ht with ht
      exact ht ▸ openVectorsSent_settle u
  · obtain ⟨u, hu, unsent⟩ := exec_unsent (x := v) (s := s) c hc hf (.inl fresh)
    rw [hu] at ht
    injection ht with ht
    subst ht
    have met : (irqConds u).getLsbD v.val = true := now
    refine message_sent_settle u v isOpen ?_
    rw [owed, BitVec.getLsbD_or, BitVec.getLsbD_and, BitVec.getLsbD_and, BitVec.getLsbD_not, met]
    obtain was | pend := unsent
    · rw [show u.host.was.getLsbD v.val = false from was]
      simp
    · rw [show u.host.pend.getLsbD v.val = true from pend]
      simp

end Sys2Proof.Machine
end

section
/-!
PROOFS. Umbra is dark: what emits no light goes on emitting none, and the events that lead to Umbra darken everything (R327, R485, R499).
-/

-- In sequence: each worker of the elaborator takes its stack from the memory that a check may use.
set_option Elab.async false

namespace Sys2Proof.Machine

/-! ### What emits no light -/

/-- A die without current that nothing brings up. -/
def Die.Unlit (y : Die) : Prop := y.current = 0 ∧ (y.state = .off ∨ y.state = .failed ∨ y.state = .swappedOut)

/-- A comb group that has not started, all its dies unlit. -/
def CGroup.Unlit (q : CGroup) : Prop := q.task = none ∧ q.started = none ∧ ∀ d : CombDie, (q.die[d]).Unlit

/-- A port that is Dark and does not probe. -/
def PortSt.Unlit (q : PortSt) : Prop := q.state = 0 ∧ q.probing = false

/-- Nothing emits light or is on its way to it. -/
def Unlit (s : State) : Prop :=
  s.dev.litEntry = false ∧ (∀ g : CombGroup, (s.comb.group[g]).Unlit) ∧ ∀ p : Port, (s.port[p]).Unlit

theorem umbraDark_iff (s : State) : umbraDark s ↔
    (s.dev.state = .umbra → Unlit s) ∧ (s.dev.fatal = true → s.dev.state = .umbra) ∧ (running s = false → s.dev.state = .umbra) := Iff.rfl

/-- The parts that `Unlit` speaks of. -/
def emits (p : Part) : Bool := decide (p ∈ [Part.comb, .litEntry, .light])

/-- The parts that say whether the device is in Umbra, or has to be. -/
def stands (p : Part) : Bool := decide (p ∈ [Part.device, .fatal, .supply])

/-- The parts that `umbraDark` speaks of. -/
def dims (p : Part) : Bool := decide (p ∈ [Part.gloom, .fatal, .supply])

section
variable {s t : State}

theorem running_of_supply (h : Part.get t .supply = Part.get s .supply) : running t = running s := by
  obtain ⟨hpower, hpins⟩ := Prod.mk.inj h
  obtain ⟨hsys, hperst⟩ := Prod.mk.inj hpins
  rw [running, running, hpower, hsys, hperst]

theorem portUnlit_iff_of_light {p : Port} (h : Part.get t .light = Part.get s .light) : (t.port[p]).Unlit ↔ (s.port[p]).Unlit := by
  have same := congrArg (fun v : Vector (Bool × Bool) 64 => v[p.val]) h
  simp only [Part.get, Vector.getElem_map, Prod.mk.injEq, decide_eq_decide] at same
  exact and_congr same.1 (by rw [show t.port[p].probing = s.port[p].probing from same.2])

theorem unlit_of_get (hs : Unlit s) (hcomb : t.comb = s.comb) (hentry : t.dev.litEntry = s.dev.litEntry)
    (hlight : Part.get t .light = Part.get s .light) : Unlit t := by
  obtain ⟨entry, groups, ports⟩ := hs
  exact ⟨hentry.trans entry, by rwa [hcomb], fun p => (portUnlit_iff_of_light hlight).mpr (ports p)⟩

theorem unlit_of_look (h : look emits t = look emits s) (hs : Unlit s) : Unlit t :=
  unlit_of_get hs (look_eq_iff.mp h .comb rfl) (look_eq_iff.mp h .litEntry rfl) (look_eq_iff.mp h .light rfl)

/-- What is seen of Umbra tells whether it is dark. -/
theorem umbraDark_of_look (h : look dims t = look dims s) (hs : umbraDark s) : umbraDark t := by
  obtain ⟨dark, fatal, halted⟩ := hs
  have gloom : Part.get t .gloom = Part.get s .gloom := look_eq_iff.mp h .gloom rfl
  have hfatal : t.dev.fatal = s.dev.fatal := look_eq_iff.mp h .fatal rfl
  have hrun : running t = running s := running_of_supply (look_eq_iff.mp h .supply rfl)
  change (if t.dev.state = .umbra then some (emitters t) else none) = if s.dev.state = .umbra then some (emitters s) else none at gloom
  by_cases hu : s.dev.state = .umbra
  · rw [if_pos hu] at gloom
    have hut : t.dev.state = .umbra := by
      by_contra hne
      rw [if_neg hne] at gloom
      cases gloom
    rw [if_pos hut, Option.some.injEq] at gloom
    obtain ⟨hcomb, hrest⟩ := Prod.mk.inj gloom
    obtain ⟨hentry, hlight⟩ := Prod.mk.inj hrest
    exact ⟨fun _ => unlit_of_get (dark hu) hcomb hentry hlight, fun _ => hut, fun _ => hut⟩
  · have hut : t.dev.state ≠ .umbra := by
      intro hut
      rw [if_neg hu, if_pos hut] at gloom
      cases gloom
    exact ⟨fun e => absurd e hut, fun e => absurd (fatal (hfatal ▸ e)) hu, fun e => absurd (halted (hrun ▸ e)) hu⟩

/-- An effect that does not move the device between its states keeps Umbra dark when it lights nothing there. -/
theorem umbraDark_of_stands (h : look stands t = look stands s) (hs : umbraDark s) (hd : s.dev.state = .umbra → Unlit s → Unlit t) :
    umbraDark t := by
  obtain ⟨dark, fatal, halted⟩ := hs
  have hstate : t.dev.state = s.dev.state := look_eq_iff.mp h .device rfl
  have hfatal : t.dev.fatal = s.dev.fatal := look_eq_iff.mp h .fatal rfl
  have hrun : running t = running s := running_of_supply (look_eq_iff.mp h .supply rfl)
  refine ⟨fun e => ?_, fun e => ?_, fun e => ?_⟩
  · rw [hstate] at e
    exact hd e (dark e)
  · rw [hstate]
    exact fatal (hfatal ▸ e)
  · rw [hstate]
    exact halted (hrun ▸ e)

theorem umbraDark_of_unlit (hu : t.dev.state = .umbra) (ht : Unlit t) : umbraDark t := ⟨fun _ => ht, fun _ => hu, fun _ => hu⟩

theorem umbraDark_of_awake (ha : t.dev.state ≠ .umbra) (hf : t.dev.fatal = false) (hr : running t = true) : umbraDark t :=
  ⟨fun e => absurd e ha, fun e => (Bool.false_ne_true (hf.symm.trans e)).elim,
    fun e => (Bool.false_ne_true (e.symm.trans hr)).elim⟩

end

/-! ### Updates of one entry -/

section
variable {s : State}

theorem onPort_unlit {p : Port} {f : PortSt → PortSt} (hs : Unlit s) (hf : (f s.port[p.val]).Unlit) : Unlit (onPort p f s) := by
  obtain ⟨entry, groups, ports⟩ := hs
  refine ⟨entry, groups, fun r => ?_⟩
  by_cases same : p.val = r.val
  · obtain rfl : p = r := Fin.ext same
    have new : (onPort p f s).port[p.val] = f s.port[p.val] := upd_val_self ..
    exact new ▸ hf
  · have old : (onPort p f s).port[r.val] = s.port[r.val] := Vector.getElem_set_ne p.isLt r.isLt same
    exact old ▸ ports r

theorem onGroup_unlit {g : CombGroup} {f : CGroup → CGroup} (hs : Unlit s) (hf : (f s.comb.group[g.val]).Unlit) : Unlit (onGroup g f s) := by
  obtain ⟨entry, groups, ports⟩ := hs
  refine ⟨entry, fun r => ?_, ports⟩
  by_cases same : g.val = r.val
  · obtain rfl : g = r := Fin.ext same
    have new : (onGroup g f s).comb.group[g.val] = f s.comb.group[g.val] := upd_val_self ..
    exact new ▸ hf
  · have old : (onGroup g f s).comb.group[r.val] = s.comb.group[r.val] := Vector.getElem_set_ne g.isLt r.isLt same
    exact old ▸ groups r

theorem onDie_unlit {g : CombGroup} {d : CombDie} {f : Die → Die} (hs : Unlit s) (hf : (f (s.comb.group[g]).die[d.val]).Unlit) :
    Unlit (onDie g d f s) := by
  obtain ⟨idle, still, dies⟩ := hs.2.1 g
  refine onGroup_unlit hs ⟨idle, still, fun r => ?_⟩
  by_cases same : d.val = r.val
  · obtain rfl : d = r := Fin.ext same
    have new : (upd (s.comb.group[g]).die d f)[d.val] = f (s.comb.group[g]).die[d.val] := upd_val_self ..
    exact new ▸ hf
  · have old : (upd (s.comb.group[g]).die d f)[r.val] = (s.comb.group[g]).die[r.val] := Vector.getElem_set_ne _ _ same
    exact old ▸ dies r

theorem foldl_unlit {α : Type} (f : State → α → State) (l : List α) (h : ∀ t x, Unlit t → Unlit (f t x)) (hs : Unlit s) : Unlit (l.foldl f s) := by
  induction l generalizing s with
  | nil => exact hs
  | cons x r ih => exact ih (h s x hs)

/-! ### Nothing that is unlit meets the guard of what would light it -/

theorem Unlit.portState (hs : Unlit s) (p : Port) : s.port[p.val].state = 0 := (hs.2.2 p).1

theorem Unlit.notProbing (hs : Unlit s) (p : Port) : s.port[p.val].probing = false := (hs.2.2 p).2

theorem Unlit.portDown (hs : Unlit s) (p : Port) : portUp s.port[p.val] = false := by
  simp [portUp, hs.portState p]

theorem Unlit.noTask (hs : Unlit s) (g : CombGroup) : (s.comb.group[g.val]).task = none := (hs.2.1 g).1

theorem Unlit.notStarted (hs : Unlit s) (g : CombGroup) : (s.comb.group[g.val]).started = none := (hs.2.1 g).2.1

theorem Unlit.dieUnlit (hs : Unlit s) (g : CombGroup) (d : CombDie) : (s.comb.group[g.val].die[d.val]).Unlit := (hs.2.1 g).2.2 d

theorem Unlit.noCurrent (hs : Unlit s) (g : CombGroup) (d : CombDie) : s.comb.group[g.val].die[d.val].current = 0 := (hs.dieUnlit g d).1

theorem Die.Unlit.ne {y : Die} (hy : y.Unlit) : y.state ≠ .active ∧ y.state ≠ .warming ∧ y.state ≠ .standby := by
  obtain ⟨-, h | h | h⟩ := hy <;> rw [h] <;> decide

theorem Unlit.mayNotProbe (hu : s.dev.state = .umbra) (p : Port) : mayProbe s p = false := by simp [mayProbe, hu]

/-! ### Ports -/

variable (p : Port) (g : CombGroup) (d : CombDie)

theorem retrainPort_of_unlit (r : BitVec 4) (hs : Unlit s) : retrainPort p r s = s := if_pos (hs.portDown p)

theorem trainAgain_of_unlit (hs : Unlit s) : trainAgain p s = s := by simp [trainAgain, hs.portDown p, hs.portState p]

theorem swapPort_of_unlit (hs : Unlit s) : swapPort s p = s := by simp [swapPort, hs.portDown p, hs.portState p]

theorem trainRx_of_unlit (raw : List Byte) (hs : Unlit s) : trainRx p raw s = s := by
  unfold trainRx
  split
  · rfl
  simp [hs.portDown p, hs.portState p]

theorem portStep_of_unlit (r : PortStep) (hs : Unlit s) : portStep p r s = s := by simp [portStep, hs.portState p]

theorem glintDone_of_unlit (ok : Bool) (f : GlintFound) (hs : Unlit s) : glintDone p ok f s = s := by simp [glintDone, hs.portState p]

theorem openFibre_of_unlit (hs : Unlit s) : openFibre p s = s := if_pos (hs.portState p)

theorem probeFinish_of_unlit (hs : Unlit s) : probeFinish p s = s := by simp [probeFinish, hs.notProbing p]

theorem probeBegin_of_umbra (hu : s.dev.state = .umbra) : probeBegin p s = s := by simp [probeBegin, Unlit.mayNotProbe hu p]

theorem probeLight_of_umbra (n : ℕ) (hu : s.dev.state = .umbra) : probeLight p n s = s := if_pos (Unlit.mayNotProbe hu p)

theorem darkFor_unlit (n : ℕ) (hs : Unlit s) : Unlit (darkFor n s p) := by
  unfold darkFor
  dsimp only
  rw [if_pos (show s.port[p].state = 0 from hs.portState p)]
  exact onPort_unlit hs ⟨hs.portState p, rfl⟩

theorem rowCode_unlit (c : CodeResult) (hs : Unlit s) : Unlit (rowCode p c s) := by
  cases c with
  | clean | missed => exact hs
  | corrected => exact unlit_of_look (logEvent_look ..) hs
  | uncorrectable =>
    have read : Unlit (logEvent clsRecoverable blkPRT 0x0104 p.val (reloadRows p s)) := unlit_of_look ((logEvent_look ..).trans (reloadRows_look s p rfl)) hs
    exact (congrArg Unlit (retrainPort_of_unlit p 1 read)).mpr read

theorem portDark_unlit (n : ℕ) (hs : Unlit s) : Unlit (portDark p n s) := by
  have ended : Unlit (endEchoFibre p (endSubs p s)) := unlit_of_look (by simp) hs
  have closed : Unlit (onPort p (portDarkSt n) (endEchoFibre p (endSubs p s))) := onPort_unlit ended ⟨rfl, rfl⟩
  unfold portDark
  dsimp only
  split
  · exact unlit_of_look (flag_look ..) closed
  · exact closed

theorem prtCmdEffect_unlit {n : ℕ} {t : State} (h : prtCmdEffect n p s = some t) (hs : Unlit s) : Unlit t := by
  have quiet : Unlit (onPort p (fun q => { q with probing := false, probes := 0 }) s) := onPort_unlit hs ⟨hs.portState p, rfl⟩
  simp only [prtCmdEffect, Fin.getElem_fin, hs.portDown p, hs.portState p, if_true, Bool.false_eq_true, if_false] at h
  split_ifs at h with retrain hold held release held
  · obtain rfl := Option.some.inj h
    refine onPort_unlit quiet ?_
    exact ⟨quiet.portState p, quiet.notProbing p⟩
  · obtain rfl := Option.some.inj h
    refine unlit_of_look (endEchoPort_look ..) (onPort_unlit hs ?_)
    exact hs.2.2 p

theorem prtCmd_unlit (n : ℕ) (v : Word) (hs : Unlit s) : Unlit (prtCmd n v s) := by
  unfold prtCmd
  dsimp only
  split
  · exact unlit_of_look ((flag_look ..).trans look_mk) hs
  split
  next t h =>
    have obeyed : Unlit t := prtCmdEffect_unlit _ h hs
    exact onPort_unlit obeyed (obeyed.2.2 _)
  next => exact unlit_of_look look_mk hs

theorem portCommit_unlit (hs : Unlit s) : Unlit (portCommit s p) := by
  unfold portCommit
  extract_lets s₁
  have cleared : Unlit s₁ := onPort_unlit hs (hs.2.2 p)
  split
  · rw [if_pos (show s.port[p].state = 0 from hs.portState p)]
    exact onPort_unlit cleared ⟨cleared.portState p, rfl⟩
  · exact (trainAgain_of_unlit p cleared).symm ▸ cleared

/-! ### Combs -/

theorem groupCheck_of_unlit (hs : Unlit s) : groupCheck g s = s := by simp [groupCheck, hs.notStarted g]

theorem gridLoop_unlit (z z₂ : ℤ) (hs : Unlit s) : Unlit (gridLoop g d z z₂ s) := by
  obtain ⟨none, off⟩ := hs.dieUnlit g d
  unfold gridLoop
  extract_lets lit held home s₁
  have unlit : lit = false := by simp [lit, hs.noCurrent g d]
  have moved : Unlit s₁ := onDie_unlit hs (by
    refine ⟨?_, ?_⟩ <;> simp only [held, unlit, Bool.false_and, Bool.false_eq_true, if_false]
    · exact none
    · exact off)
  have spent : Unlit (spend 3 s₁) := unlit_of_look (spend_look ..) moved
  exact (groupCheck_of_unlit g spent).symm ▸ spent

theorem biasLoop_of_unlit (est : List (Port × Line × ℤ)) (z : ℤ) (hs : Unlit s) : biasLoop g d est z s = s := by
  unfold biasLoop
  dsimp only
  split
  · rfl
  · rw [if_pos (show (s.comb.group[g].die[d]).state ≠ .active from (hs.dieUnlit g d).ne.1)]

theorem thermalReduction_unlit (z : ℤ) (hs : Unlit s) : Unlit (thermalReduction g d z s) := by
  unfold thermalReduction
  dsimp only
  rw [if_pos (show (s.comb.group[g].die[d]).current = 0 from hs.noCurrent g d)]
  exact onDie_unlit hs (hs.dieUnlit g d)

theorem agingRecord_unlit (e : CombGroup × CombDie) (hs : Unlit s) : Unlit (agingRecord s e) := onDie_unlit hs (hs.dieUnlit e.1 e.2)

theorem agingWrite_unlit (c : Bool) (hs : Unlit s) : Unlit (agingWrite c s) := by
  unfold agingWrite
  split
  · exact foldl_unlit _ _ (fun _ e ht => agingRecord_unlit e ht) hs
  · exact unlit_of_look ((logEvent_look ..).trans (flashFailed_look ..))
      (foldl_unlit _ _ (fun _ e ht => onDie_unlit ht (ht.dieUnlit e.1 e.2)) hs)

theorem dieFails_of_unlit (hs : Unlit s) : dieFails g d s = s := by
  obtain ⟨notActive, notWarming, -⟩ := (hs.dieUnlit g d).ne
  unfold dieFails
  dsimp only
  split
  · rfl
  · rw [if_pos ⟨notActive, notWarming⟩]

theorem allDiesFail_unlit (hs : Unlit s) : Unlit (allDiesFail s) :=
  foldl_unlit _ _ (fun _ g ht => foldl_unlit _ _ (fun _ d hu => (dieFails_of_unlit g d hu).symm ▸ hu) ht) hs

theorem combLockTimeout_of_unlit (d : Fin 4) (hs : Unlit s) : combLockTimeout g d s = s := by simp [combLockTimeout, hs.notStarted g]

theorem spareRamp_of_unlit (hs : Unlit s) : spareRamp g s = s := by simp [spareRamp, hs.noTask g]

theorem spareLocked_of_unlit (hs : Unlit s) : spareLocked g s = s := by
  simp [spareLocked, hs.noTask g]

theorem combGroupStart_of_umbra (hu : s.dev.state = .umbra) : combGroupStart g s = s := if_pos (.inl hu)

theorem swapStatus_ne_ok (k : Fin 4) (hs : Unlit s) : swapStatus s g k ≠ stOK := by
  have notStandby : s.comb.group[g.val].die[4].state ≠ .standby := (hs.dieUnlit g 4).ne.2.2
  simp [swapStatus, hs.noTask g, notStandby, stOK, stUnavailable]

theorem combSwapCmd_unlit (a : MgtPath) (e : Msg) (hs : Unlit s) : Unlit (combSwapCmd a e s) := by
  unfold combSwapCmd
  dsimp only
  split
  · exact unlit_of_look (mgtReply_look ..) hs
  split
  · exact unlit_of_look (mgtReply_look ..) hs
  rw [if_pos (swapStatus_ne_ok _ _ hs)]
  exact unlit_of_look (mgtReply_look ..) hs

theorem combSwapDone_of_unlit (hs : Unlit s) : combSwapDone s = s := by
  have none : swapNow s = none := List.findSome?_eq_none_iff.mpr fun g _ => by simp [hs.noTask g]
  rw [combSwapDone, none]

theorem swapsDue_unlit (hs : Unlit s) : Unlit (swapsDue s) := by
  unfold swapsDue
  refine foldl_unlit _ _ (fun _ g ht => foldl_unlit _ _ (fun u k hu => ?_) ht) hs
  have notActive (d : CombDie) : ((u.comb.group[g]).die[d]).state ≠ .active := (hu.dieUnlit g d).ne.1
  simp only [beq_eq_false_iff_ne.mpr (notActive _), Bool.false_and, Bool.false_eq_true, if_false]
  exact hu

end

/-! ### A full commit -/

section
variable {s : State}

@[simp] theorem emits_rest : emits .image = false ∧ emits .iter = false := by decide

theorem commitApply_unlit (i : Image) (hs : Unlit s) : Unlit (commitApply i s) := by
  have begun (u : State) (hu : Unlit u) : Unlit (laneCountersClear { sqCommit (bothStores (loadStores i) (rowsRepaired (regionsInit i u))) with
      ctl := ctlCommit (sqCommit (bothStores (loadStores i) (rowsRepaired (regionsInit i u)))) }) := by
    refine unlit_of_look ((laneCountersClear_look _ rfl).trans ((look_mk (s := sqCommit ..)).trans ?_)) hu
    exact (sqCommit_look _).trans ((bothStores_look ..).trans ((rowsRepaired_look _).trans (regionsInit_look _ i rfl)))
  unfold commitApply
  refine unlit_of_look (pwrSettle_look ..) (swapsDue_unlit (foldl_unlit _ _ (fun t p ht => portCommit_unlit p ht) ?_))
  refine unlit_of_look (look_foldl _ _ _ fun x t => siteCommit_look t x) (begun _ ?_)
  exact unlit_of_look (endEcho_look ..) (unlit_of_get hs rfl hs.1.symm rfl)

theorem fullCommitDone_unlit (words : List (ℕ × WordError)) (hs : Unlit s) : Unlit (fullCommitDone words s) := by
  unfold fullCommitDone
  split
  · exact hs
  extract_lets r i load ctl s₁
  have read : Unlit r := unlit_of_look (loadReads_look _ _ _ rfl) hs
  have applied : Unlit s₁ := unlit_of_look (imgReply_look ..) (commitApply_unlit i read)
  split
  · exact hs
  split
  · exact unlit_of_look ((imgReply_look ..).trans ((refusedImage_look ..).trans look_mk)) read
  split
  · exact applied
  · exact unlit_of_look (freeWork_look _ (by decide)) applied

end

/-! ### The events that darken the device -/

section
variable {s : State}

@[simp] theorem dims_rest : dims .ring = false ∧ dims .comb = false ∧ dims .siteReg = false ∧ dims .image = false ∧ dims .slots = false ∧
    dims .vec = false ∧ dims .aer = false ∧ dims .hostDbl = false ∧ dims .fwDbl = false ∧ dims .iter = false ∧ dims .snap = false ∧
    dims .time = false ∧ dims .queue = false ∧ dims .fuses = false ∧ dims .flash = false ∧ dims .aging = false ∧ dims .fatals = false ∧
    dims .reservoir = false ∧ dims .staging = false ∧ dims .window = false ∧ dims .report = false ∧ dims .stage = false ∧ dims .was = false ∧
    dims .device = false ∧ dims .litEntry = false ∧ dims .light = false := by
  decide

@[simp] theorem stands_rest : stands .comb = false ∧ stands .light = false ∧ stands .gloom = false ∧ stands .litEntry = false := by decide

theorem dieUnlit_off (y : Die) : Die.Unlit { y with
    current := 0, gridHeld := false, reducing := false
    state := if y.state = .failed ∨ y.state = .swappedOut then y.state else .off } := by
  refine ⟨rfl, ?_⟩
  dsimp only
  split
  next h => exact .inr h
  next => exact .inl rfl

theorem combOff_unlit (c : Comb) (g : CombGroup) : ((combOff c).group[g]).Unlit := by
  refine (congrArg CGroup.Unlit (Vector.getElem_map _ g.isLt)).mpr ⟨rfl, rfl, fun d => ?_⟩
  exact (congrArg Die.Unlit (Vector.getElem_map _ d.isLt)).mpr (dieUnlit_off _)

theorem umbraEnter_dark (s : State) : umbraDark (umbraEnter s) := by
  refine umbraDark_of_look ((endEcho_look _).trans (emit_look ..))
    (umbraDark_of_unlit (setDev_state ..) (unlit_of_look (setDev_look _ _ rfl rfl) ⟨rfl, combOff_unlit _, fun p => ?_⟩))
  refine (congrArg PortSt.Unlit (Vector.getElem_map _ p.isLt)).mpr ?_
  split
  · exact ⟨rfl, rfl⟩
  · exact ⟨rfl, rfl⟩

theorem goDark_dark (s : State) : umbraDark (goDark s) := umbraEnter_dark _

theorem fatalEvent_dark (n m k : ℕ) (s : State) : umbraDark (fatalEvent n m k s) := goDark_dark _

theorem tripFatal_dark (hs : umbraDark s) : umbraDark (tripFatal s) := by
  unfold tripFatal
  split
  · exact hs
  · exact fatalEvent_dark ..

theorem mgtCode_dark (c : CodeResult) (hs : umbraDark s) : umbraDark (mgtCode c s) := by
  cases c with
  | clean => exact hs
  | corrected => exact umbraDark_of_look (logEvent_look ..) hs
  | uncorrectable =>
    unfold mgtCode
    dsimp only
    split
    · exact fatalEvent_dark ..
    · exact hs
  | missed corrects =>
    have logged : umbraDark (if corrects then logEvent clsCorrected blkMGT 0x0103 0 s else s) := by
      split
      · exact umbraDark_of_look (logEvent_look ..) hs
      · exact hs
    exact umbraDark_of_look look_mk logged

theorem recover_dark (hs : umbraDark s) : umbraDark (recover s) := by
  unfold recover
  dsimp only
  split
  · exact umbraDark_of_look (by simp) hs
  · exact goDark_dark _

theorem romBoot_dark (hs : umbraDark s) : umbraDark (romBoot s) := by
  unfold romBoot
  extract_lets s₀ s₁
  have read : umbraDark s₀ := umbraDark_of_look (by simp [s₀]) hs
  have retired : umbraDark s₁ := umbraDark_of_look (by simp [s₁]) read
  split
  · exact recover_dark read
  split
  · exact recover_dark retired
  extract_lets s₂ r r₂
  have counted : umbraDark s₂ := umbraDark_of_look (by simp [s₂]) retired
  have tried : umbraDark r.2 := umbraDark_of_look (slotTry_look ..) counted
  have tried₂ : umbraDark r₂.2 := umbraDark_of_look (slotTry_look ..) tried
  split
  · exact tried
  split
  · exact tried₂
  · exact recover_dark tried₂

theorem mgmtReset_dark (hs : umbraDark s) : umbraDark (mgmtReset s) := by
  unfold mgmtReset
  extract_lets s₁ s₂ s₃ s₄ s₅ s₆
  have h₁ : look dims s₁ = look dims s := by simp [s₁]
  have h₂ : look dims s₂ = look dims s₁ := by simp [s₂]
  have h₃ : look dims s₃ = look dims s₂ := by simp [s₃]
  have h₄ : look dims s₄ = look dims s₃ := by simp [s₄]
  have h₅ : look dims s₅ = look dims s₄ := by simp [s₅]
  have h₆ : look dims s₆ = look dims s₅ := by simp [s₆]
  refine romBoot_dark (umbraDark_of_look ?_ hs)
  rw [look_mk (s := s₆), h₆, h₅, h₄, h₃, h₂, h₁]

theorem lockstep_dark (hs : umbraDark s) : umbraDark (lockstep s) := by
  unfold lockstep
  extract_lets second s₁
  have counted : umbraDark s₁ := umbraDark_of_look ((setEv_look ..).trans (by simp)) hs
  split
  · exact fatalEvent_dark ..
  · exact umbraDark_of_look (logEvent_look ..) (mgmtReset_dark counted)

/-! ### Resets and supplies -/

/-- A state in Umbra with the combs, the ports and the Lit entry of a reset is dark. -/
theorem umbraDark_of_reset {t : State} (hstate : t.dev.state = .umbra) (hcomb : t.comb = State.reset.comb) (hport : t.port = State.reset.port)
    (hentry : t.dev.litEntry = false) : umbraDark t := by
  obtain ⟨dark, -, -⟩ := umbraDark_reset
  have unlit : Unlit State.reset := dark rfl
  exact umbraDark_of_unlit hstate (unlit_of_get unlit hcomb (hentry.trans unlit.1.symm) (by simp only [Part.get, hport]; rfl))

theorem resetBase_dark (s : State) : umbraDark (resetBase s) := umbraDark_of_reset rfl rfl rfl rfl

theorem powerOff_dark (hs : umbraDark s) : umbraDark (powerOff s) := by
  unfold powerOff
  split
  · exact hs
  extract_lets r
  have kept := look_eq_iff.mp (bootCut_look s (resetBase s) (P := fun p => emits p || decide (p = .device)))
  obtain ⟨dark, -, -⟩ := resetBase_dark s
  refine umbraDark_of_look (emit_look ..) (umbraDark_of_unlit ?_ (unlit_of_get (dark rfl) ?_ ?_ ?_))
  · exact kept .device rfl
  · exact kept .comb rfl
  · exact kept .litEntry rfl
  · exact kept .light rfl

theorem supplyFault_dark (las aux : ℕ) (hs : umbraDark s) : umbraDark (supplyFault las aux s) := by
  unfold supplyFault
  extract_lets s₁ s₂
  have dimmed : umbraDark s₁ := by
    unfold s₁
    split
    · refine umbraDark_of_look (emit_look ..) (umbraDark_of_stands look_mk hs fun _ hu => ?_)
      obtain ⟨entry, -, ports⟩ := hu
      exact ⟨entry, combOff_unlit _, ports⟩
    · exact hs
  have failed : umbraDark (if las < 1620 then allDiesFail s₁ else s₁) := by
    split
    · exact umbraDark_of_stands (allDiesFail_look s₁ rfl rfl rfl) dimmed fun _ hu => allDiesFail_unlit hu
    · exact dimmed
  have low : umbraDark s₂ := umbraDark_of_look (freeWork_look _ (by decide)) failed
  have spent : umbraDark (spend 1 s₂) := umbraDark_of_look (spend_look ..) low
  split
  · exact powerOff_dark spent
  · exact spent

theorem powerOn_dark (hs : umbraDark s) : umbraDark (powerOn s) := by
  unfold powerOn
  split
  · exact hs
  · exact umbraDark_of_reset rfl rfl rfl rfl

theorem resetAssert_dark (p : ResetPin) (us : ℕ) (hs : umbraDark s) : umbraDark (resetAssert p us s) := by
  unfold resetAssert
  dsimp only
  split
  · exact hs
  split
  · exact umbraDark_of_reset rfl rfl rfl rfl
  next off =>
    have halted : running s = false := by simp [running, off]
    obtain ⟨dark, -, umbra⟩ := hs
    have state : (setPin p true s.dev).state = s.dev.state := by cases p <;> rfl
    have entry : (setPin p true s.dev).litEntry = s.dev.litEntry := by cases p <;> rfl
    exact umbraDark_of_unlit (state.trans (umbra halted)) (unlit_of_get (dark (umbra halted)) rfl entry rfl)

theorem resetRelease_dark (p : ResetPin) (hs : umbraDark s) : umbraDark (resetRelease p s) := by
  have state : (setPin p false s.dev).state = s.dev.state := by cases p <;> rfl
  have entry : (setPin p false s.dev).litEntry = s.dev.litEntry := by cases p <;> rfl
  have fatal : (setPin p false s.dev).fatal = s.dev.fatal := by cases p <;> rfl
  have goesOn : running s = true → running { s with dev := setPin p false s.dev } = true := by
    cases p <;> simp +contextual [running, setPin]
  have released : umbraDark { s with dev := setPin p false s.dev } := by
    obtain ⟨dark, isFatal, halted⟩ := hs
    refine ⟨fun e => ?_, fun e => ?_, fun e => ?_⟩
    · exact unlit_of_get (dark (state.symm.trans e)) rfl entry rfl
    · exact state.trans (isFatal (fatal.symm.trans e))
    · refine state.trans (halted (Bool.eq_false_iff.mpr fun on => ?_))
      exact Bool.false_ne_true (e.symm.trans (goesOn on))
  unfold resetRelease
  dsimp only
  split
  · exact romBoot_dark released
  · exact released

/-! ### Penumbra and Lit -/

theorem penumbraEntry_dark (on : running s = true) (hs : umbraDark s) : umbraDark (penumbraEntry s) := by
  unfold penumbraEntry
  split
  · exact hs
  next may =>
    extract_lets s₁
    have kept {P : Part → Bool} : look P (penumbraReplies (setStack 1 1 0 (setStack 0 1 0 s₁))) = look P (setDev .penumbra s) :=
      (penumbraReplies_look ..).trans (by simp [s₁])
    generalize penumbraReplies (setStack 1 1 0 (setStack 0 1 0 s₁)) = t at kept
    have moved : t.dev.state = .penumbra := (look_only.mp (kept (P := only .device))).trans (setDev_state ..)
    have fatal : t.dev.fatal = s.dev.fatal := look_only.mp ((kept (P := only .fatal)).trans (setDev_look _ _ rfl rfl))
    have supply : Part.get t .supply = Part.get s .supply := look_only.mp (kept.trans (setDev_look _ _ rfl rfl))
    refine umbraDark_of_awake (by rw [moved]; decide) ?_ ((running_of_supply supply).trans on)
    exact fatal.trans (Bool.eq_false_iff.mpr fun is => may (.inr (.inl is)))

theorem litStart_dark (hs : umbraDark s) : umbraDark (litStart s) := by
  refine umbraDark_of_stands ?_ hs fun hu dark => ?_
  · unfold litStart
    split
    · rfl
    · dsimp only
      split <;> simp
  · have notReady : litReady s = false := by simp [litReady, hu]
    rw [litStart, if_pos notReady]
    exact dark

theorem litComplete_dark (hs : umbraDark s) : umbraDark (litComplete s) := by
  obtain ⟨dark, isFatal, halted⟩ := hs
  unfold litComplete
  split
  · exact ⟨dark, isFatal, halted⟩
  next entered =>
    have awake : s.dev.state ≠ .umbra := fun hu => entered (.inl (dark hu).1)
    have notFatal : s.dev.fatal = false := Bool.eq_false_iff.mpr fun is => awake (isFatal is)
    have on : running s = true := by
      by_contra off
      exact awake (halted (Bool.eq_false_iff.mpr off))
    extract_lets s₀ dev img s₁
    have echo {P : Part → Bool} : look P s₀ = look P s := by simp [s₀]
    have entry {P : Part → Bool} (hlit : P .litEntry = false) (hgloom : P .gloom = false) :
        look P { s₀ with dev := { s₀.dev with litEntry := false }, img := { s₀.img with startDue := false } } = look P s₀ :=
      look_mk (hlit := by simp [hlit]) (hgloom := by simp [hgloom])
    have kept {P : Part → Bool} (hlit : P .litEntry = false) (hgloom : P .gloom = false) (hdevice : P .device = false) : look P s₁ = look P s :=
      (setDev_look _ _ hdevice hgloom).trans ((entry hlit hgloom).trans echo)
    have state : s₁.dev.state = .lit := setDev_state ..
    have fatal : s₁.dev.fatal = s.dev.fatal := look_only.mp (kept (P := only .fatal) rfl rfl rfl)
    have supply : Part.get s₁ .supply = Part.get s .supply := look_only.mp (kept (P := only .supply) rfl rfl rfl)
    have lit : umbraDark s₁ :=
      umbraDark_of_awake (by rw [state]; decide) (fatal.trans notFatal) ((running_of_supply supply).trans on)
    exact umbraDark_of_look ((penumbraCheck_look _ rfl rfl).trans ((programStarts_look _).trans (pwrSettle_look ..))) lit

end

/-! ### Commands -/

/-- A command answers a state whose Umbra is dark. -/
def DarkOut (o : Host.Outcome State Fault Refusal) : Prop := ∃ t, o = done t ∧ umbraDark t

section
variable {s : State}

theorem darkOut_run {f : State → State} (hs : umbraDark s) (h : running s = true → umbraDark (f s)) : DarkOut (run f s) := by
  refine ⟨_, rfl, ?_⟩
  unfold live
  split
  next on => exact h on
  next => exact hs

/-- An effect that leaves the state of the device as it is, and lights nothing in Umbra. -/
theorem darkOut_of_unlit {f : State → State} (hs : umbraDark s) (kept : look stands (f s) = look stands s)
    (unlit : s.dev.state = .umbra → Unlit s → Unlit (f s)) : DarkOut (run f s) :=
  darkOut_run hs fun _ => umbraDark_of_stands kept hs unlit

theorem stopping_dark {f : State → State} (h : umbraDark (f s)) : umbraDark (stopping f s) := umbraDark_of_look (stopping_look _ _ rfl rfl) h

/-- Such an effect, after which the work stops where it has to. -/
theorem darkOut_stopping {f : State → State} (hs : umbraDark s) (kept : look stands (f s) = look stands s)
    (unlit : s.dev.state = .umbra → Unlit s → Unlit (f s)) : DarkOut (run (stopping f) s) :=
  darkOut_run hs fun _ => stopping_dark (umbraDark_of_stands kept hs unlit)

theorem darkOut_badAccess (n : ℕ) {f : State → State} (hf : ∀ t, umbraDark t → umbraDark (f t)) (hs : umbraDark s) : DarkOut (badAccess n f s) := by
  have spent : umbraDark (spend 1 s) := umbraDark_of_look (spend_look ..) hs
  refine ⟨_, rfl, umbraDark_of_look (freeWork_look _ (by decide)) ?_⟩
  split
  · exact hf _ spent
  · exact spent

theorem darkOut_regRow (n : ℕ) (v : Word) {f : State → State} (hf : ∀ t, umbraDark t → umbraDark (f t)) (hs : umbraDark s) :
    DarkOut (regRow n v f s) := by
  unfold regRow
  split
  · exact darkOut_badAccess 20 hf hs
  · refine darkOut_run hs fun _ => ?_
    unfold bar
    split
    · exact hs
    · exact hf s hs

theorem prtCmd_dark (n : ℕ) (v : Word) (hs : umbraDark s) : umbraDark (prtCmd n v s) :=
  umbraDark_of_stands (prtCmd_look _ _ _ rfl rfl) hs fun _ hu => prtCmd_unlit n v hu

theorem writePrt_dark (n : ℕ) (v : Word) (hs : umbraDark s) : umbraDark (writePrt n v s) := by
  unfold writePrt
  split
  · exact prtCmd_dark _ v hs
  · exact umbraDark_of_look (by (repeat' split) <;> simp) hs

theorem writeReg_dark (m : Master) (n : ℕ) (v : Word) (hs : umbraDark s) : umbraDark (writeReg m n v s) := by
  by_cases port : n / 65536 = 0x0D
  · have row : writeReg m n v s = writePrt (n % 65536) v s := by simp [writeReg, port]
    exact row ▸ writePrt_dark _ v hs
  · exact umbraDark_of_look (by simp [writeReg, port]) hs

theorem registerWrite_dark (m : Master) (n : ℕ) (v : Word) (size : AccessSize) (hs : umbraDark s) : DarkOut (execRegisterWrite m n v s size) := by
  unfold execRegisterWrite
  split
  · split
    · exact darkOut_badAccess 12 (fun t ht => stopping_dark (writeReg_dark m _ v ht)) hs
    split
    · exact darkOut_badAccess 20 (fun t ht => stopping_dark (writeReg_dark m _ v ht)) hs
    · exact darkOut_run hs fun _ => stopping_dark (writeReg_dark m _ v hs)
  · exact ⟨s, rfl, hs⟩

theorem thermalSample_dark (temps8 : List (Option ℤ)) (failed : List ℕ) (hs : umbraDark s) : DarkOut (execThermalSample temps8 s failed) := by
  refine darkOut_run hs fun _ => umbraDark_of_look (pwrSettle_look ..) ?_
  have sampled (n : ℤ) : umbraDark (sensorForce (heatForce n (takeSensors temps8 failed s))) := umbraDark_of_look (by simp) hs
  extract_lets s₁ t8 s₂ s₃
  have heated : umbraDark s₃ := umbraDark_of_look (by simp [s₃, s₂, s₁]) hs
  split
  · exact tripFatal_dark heated
  · exact heated

theorem unlit_of_eq {t : State} (h : t = s) (hs : Unlit s) : Unlit t := h ▸ hs

theorem combSwap_dark (a : MgtPath) (hs : umbraDark s) : DarkOut (execCombSwap a s) := by
  refine darkOut_of_unlit hs (onCmd_look _ _ _ _ fun m u => combSwapCmd_look _ _ _ rfl rfl) fun _ hu => ?_
  unfold onCmd
  split
  · split
    · exact combSwapCmd_unlit _ _ (unlit_of_look (mgtTake_look ..) hu)
    · exact hu
  · exact hu

theorem ringVisit_dark (r : Ring) (power : ℕ) (row : CodeResult) (hs : umbraDark s) : DarkOut (execRingLoopVisit r power row s) := by
  have visited {P : Part → Bool} (hring : P .ring = false) (t : State) : look P (ringVisit r.val power (rowMissed r.val row t)) = look P t := by
    simp [hring]
  refine darkOut_of_unlit hs ((visited rfl _).trans (rowCode_look _ _ _ rfl rfl rfl)) fun _ hu => ?_
  exact unlit_of_look (visited rfl _) (rowCode_unlit (ringPort r.val) row hu)

/-- A command that may change what emits light in Umbra keeps Umbra dark. -/
theorem exec_dark_of_gloom (c : Instr) (hg : c.changesGloom = true) (hs : umbraDark s) : DarkOut (exec c s) := by
  cases c with
  | agingLogWrite => exact darkOut_of_unlit hs (agingWrite_look _ _ rfl rfl rfl) fun _ hu => agingWrite_unlit _ hu
  | biasLoop => exact darkOut_of_unlit hs (biasLoop_look _ _ _ _ _ rfl rfl) fun _ hu => unlit_of_eq (biasLoop_of_unlit _ _ _ _ hu) hu
  | combThermalReduction => exact darkOut_of_unlit hs (thermalReduction_look _ _ _ _ rfl rfl) fun _ hu => thermalReduction_unlit _ _ _ hu
  | gridLoop => exact darkOut_of_unlit hs (gridLoop_look _ _ _ _ _ rfl rfl) fun _ hu => gridLoop_unlit _ _ _ _ hu
  | spareGainRamp => exact darkOut_of_unlit hs (spareRamp_look _ _ rfl rfl) fun _ hu => unlit_of_eq (spareRamp_of_unlit _ hu) hu
  | spareCombLocked => exact darkOut_of_unlit hs (spareLocked_look _ _ rfl rfl) fun _ hu => unlit_of_eq (spareLocked_of_unlit _ hu) hu
  | combSwap => exact combSwap_dark _ hs
  | combSwapDone => exact darkOut_of_unlit hs (combSwapDone_look _ rfl rfl rfl) fun _ hu => unlit_of_eq (combSwapDone_of_unlit hu) hu
  | combLockTimeout => exact darkOut_of_unlit hs (combLockTimeout_look _ _ _ rfl rfl rfl) fun _ hu => unlit_of_eq (combLockTimeout_of_unlit _ _ hu) hu
  | combGroupStart => exact darkOut_of_unlit hs (combGroupStart_look _ _ rfl rfl) fun umbra hu => unlit_of_eq (combGroupStart_of_umbra _ umbra) hu
  | probeStart => exact darkOut_of_unlit hs (probeBegin_look _ _ rfl rfl rfl) fun umbra hu => unlit_of_eq (probeBegin_of_umbra _ umbra) hu
  | probeLightReceived => exact darkOut_of_unlit hs (probeLight_look _ _ _ rfl rfl rfl) fun umbra hu => unlit_of_eq (probeLight_of_umbra _ _ umbra) hu
  | probeEnd => exact darkOut_of_unlit hs (probeFinish_look _ _ rfl rfl rfl) fun _ hu => unlit_of_eq (probeFinish_of_unlit _ hu) hu
  | l00LockLost => exact darkOut_of_unlit hs (retrainPort_look _ _ _ rfl rfl) fun _ hu => unlit_of_eq (retrainPort_of_unlit _ _ hu) hu
  | ringLoopVisit => exact ringVisit_dark _ _ _ hs
  | glintCalibrationDone => exact darkOut_of_unlit hs (glintDone_look _ _ _ _ rfl rfl rfl) fun _ hu => unlit_of_eq (glintDone_of_unlit _ _ _ hu) hu
  | fullCommitComplete => exact darkOut_of_unlit hs (fullCommitDone_look _ _ (by decide) rfl rfl rfl rfl rfl) fun _ hu => fullCommitDone_unlit _ hu
  | combDieFailure g d =>
    refine darkOut_stopping hs ?_ fun _ hu => ?_
    · split
      · exact dieFails_look _ _ _ rfl rfl rfl
      · rfl
    · split
      · exact unlit_of_eq (dieFails_of_unlit g d hu) hu
      · exact hu
  | openFibre => exact darkOut_stopping hs (openFibre_look _ _ rfl rfl) fun _ hu => unlit_of_eq (openFibre_of_unlit _ hu) hu
  | train => exact darkOut_stopping hs (trainRx_look _ _ _ rfl rfl rfl) fun _ hu => unlit_of_eq (trainRx_of_unlit _ _ hu) hu
  | portTrainingStep => exact darkOut_stopping hs (portStep_look _ _ _ rfl rfl rfl) fun _ hu => unlit_of_eq (portStep_of_unlit _ _ hu) hu
  | portTrainingTimeout p =>
    refine darkOut_stopping hs ?_ fun _ hu => unlit_of_eq (if_neg ?_) hu
    · split
      · exact trainFails_look _ _ _ _ rfl rfl
      · rfl
    · exact fun training => absurd (training.symm.trans (hu.portState p)) (by decide)
  | prtCmdHold | prtCmdRelease | prtCmdRetrain => exact darkOut_regRow _ _ (fun t ht => stopping_dark (prtCmd_dark _ _ ht)) hs
  | registerWrite => exact registerWrite_dark _ _ _ _ hs
  | fwWatchdog =>
    refine darkOut_run hs fun _ => ?_
    split
    · exact umbraDark_of_look (logEvent_look ..) (mgmtReset_dark hs)
    · exact hs
  | lockstepDisagreement => exact darkOut_run hs fun _ => lockstep_dark hs
  | junctionTrip => exact darkOut_run hs fun _ => umbraDark_of_look (pwrSettle_look ..) (tripFatal_dark hs)
  | thermalSample => exact thermalSample_dark _ _ hs
  | qclkLoss => exact darkOut_run hs fun _ => fatalEvent_dark ..
  | sensorSnapshot => exact darkOut_run hs fun _ => mgtCode_dark _ (umbraDark_of_look (snapshot_look _ rfl) hs)
  | resetRelease p => exact ⟨_, rfl, resetRelease_dark p hs⟩
  | penumbraEntry => exact darkOut_run hs fun on => penumbraEntry_dark on hs
  | litEntryStart => exact darkOut_run hs fun _ => litStart_dark hs
  | litEntryComplete => exact darkOut_run hs fun _ => litComplete_dark hs
  | _ => cases hg

theorem gloom_of_fatal {c : Instr} (h : c.changesFatal = true) : c.changesGloom = true := by
  cases c with
  | junctionTrip | lockstepDisagreement | qclkLoss | sensorSnapshot | thermalSample => rfl
  | _ => cases h

theorem gloom_of_supply {c : Instr} (h : c.changesSupply = true) : c.changesGloom = true := by
  cases c with
  | resetRelease => rfl
  | _ => cases h

/-- Every command keeps Umbra dark. -/
theorem exec_dark (c : Instr) (hs : umbraDark s) : DarkOut (exec c s) := by
  by_cases hg : c.changesGloom = true
  · exact exec_dark_of_gloom c hg hs
  by_cases hc : c.resets = false
  · have kept : Shows dims s (exec c s) := exec_look c s hc fun p hp => ?_
    · obtain ⟨t, ht, same⟩ := kept
      exact ⟨t, ht, umbraDark_of_look same hs⟩
    · refine decide_eq_false fun hmem => ?_
      simp only [List.mem_cons, List.not_mem_nil, or_false] at hmem
      obtain rfl | rfl | rfl := hmem
      · exact hg hp
      · exact hg (gloom_of_fatal hp)
      · exact hg (gloom_of_supply hp)
  · cases c with
    | powerOn => exact ⟨_, rfl, powerOn_dark hs⟩
    | powerOff => exact ⟨_, rfl, powerOff_dark hs⟩
    | resetAssert p us => exact ⟨_, rfl, resetAssert_dark p us hs⟩
    | supplyFault las aux => exact darkOut_run hs fun _ => supplyFault_dark las aux hs
    | _ => exact absurd rfl hc

/-! ### Fatal events -/

/-- A Fatal event has been recorded since the last reset. -/
def isFatal (s : State) : Bool := s.dev.fatal

theorem isFatal_of_look {t : State} (h : look (only .fatal) t = look (only .fatal) s) : isFatal t = isFatal s := look_only.mp h

theorem fatalEvent_isFatal (n m k : ℕ) (s : State) : isFatal (fatalEvent n m k s) = true := isFatal_of_look (goDark_look _ (by decide))

theorem tripFatal_isFatal (hf : isFatal s = true) : isFatal (tripFatal s) = true := by
  unfold tripFatal
  split
  · exact hf
  · exact fatalEvent_isFatal ..

theorem lockstep_isFatal (hf : isFatal s = true) : isFatal (lockstep s) = true := by
  unfold lockstep
  extract_lets second s₁
  split
  · exact fatalEvent_isFatal ..
  · have counted : look (only .fatal) s₁ = look (only .fatal) s := (setEv_look ..).trans (by simp)
    exact (isFatal_of_look ((logEvent_look ..).trans ((mgmtReset_look _ (by decide) rfl).trans counted))).trans hf

/-- A code error of the management SRAM that is not uncorrectable is not Fatal. -/
theorem mgtCode_kept {c : CodeResult} (hc : c ≠ .uncorrectable) (s : State) : isFatal (mgtCode c s) = isFatal s := by
  cases c with
  | clean => rfl
  | corrected => exact isFatal_of_look (logEvent_look ..)
  | uncorrectable => exact absurd rfl hc
  | missed corrects =>
    have logged : look (only .fatal) (if corrects then logEvent clsCorrected blkMGT 0x0103 0 s else s) = look (only .fatal) s := by
      split
      · exact logEvent_look ..
      · rfl
    exact isFatal_of_look (Eq.trans look_mk logged)

theorem mgtCode_isFatal (c : CodeResult) (hf : isFatal s = true) : isFatal (mgtCode c s) = true := by
  by_cases hc : c = .uncorrectable
  · subst hc
    unfold mgtCode
    dsimp only
    split
    · exact fatalEvent_isFatal ..
    · exact hf
  · exact (mgtCode_kept hc s).trans hf

theorem live_isFatal {f : State → State} (hf : isFatal s = true) (h : isFatal (f s) = true) : isFatal (live f s) = true := by
  unfold live
  split
  · exact h
  · exact hf

/-- What a command answers is Fatal when the state before its interrupts settle is. -/
theorem isFatal_of_done {t u : State} (h : done u = .next t) : isFatal t = isFatal u := by
  injection h with h
  exact h ▸ isFatal_of_look (irqSettle_look u rfl)

theorem thermalSample_isFatal (temps8 : List (Option ℤ)) (failed : List ℕ) {t : State} (ht : execThermalSample temps8 s failed = .next t)
    (hf : isFatal s = true) : isFatal t = true := by
  refine (isFatal_of_done ht).trans (live_isFatal hf ((isFatal_of_look (pwrSettle_look ..)).trans ?_))
  extract_lets s₁ t8 s₂ s₃
  have heated : isFatal s₃ = true := (isFatal_of_look (by simp [s₃, s₂, s₁])).trans hf
  split
  · exact tripFatal_isFatal heated
  · exact heated

/-- A reset of the whole device alone ends a Fatal event. -/
theorem exec_isFatal (c : Instr) {t : State} (ht : exec c s = .next t) (hc : c.resets = false) (hf : isFatal s = true) : isFatal t = true := by
  by_cases hp : c.touches .fatal = false
  · exact (exec_get (p := .fatal) ht hc hp (by decide)).trans hf
  · cases c with
    | junctionTrip =>
      exact (isFatal_of_done ht).trans (live_isFatal hf ((isFatal_of_look (pwrSettle_look ..)).trans (tripFatal_isFatal hf)))
    | lockstepDisagreement => exact (isFatal_of_done ht).trans (live_isFatal hf (lockstep_isFatal hf))
    | qclkLoss => exact (isFatal_of_done ht).trans (live_isFatal hf (fatalEvent_isFatal ..))
    | sensorSnapshot c =>
      have taken : isFatal (snapshot s) = true := (isFatal_of_look (snapshot_look _ rfl)).trans hf
      exact (isFatal_of_done ht).trans (live_isFatal hf (mgtCode_isFatal _ taken))
    | thermalSample => exact thermalSample_isFatal _ _ ht hf
    | _ => exact absurd rfl hp

theorem powerOff_notFatal (hf : isFatal s = false) : isFatal (powerOff s) = false := by
  unfold powerOff
  split
  · exact hf
  · exact (isFatal_of_look (emit_look ..)).trans (isFatal_of_look (bootCut_look s (resetBase s)))

theorem supplyFault_notFatal (las aux : ℕ) (hf : isFatal s = false) : isFatal (supplyFault las aux s) = false := by
  unfold supplyFault
  extract_lets s₁ s₂
  have dimmed : isFatal s₁ = false := by
    unfold s₁
    split
    · exact (isFatal_of_look (emit_look ..)).trans hf
    · exact hf
  have failed : isFatal (if las < 1620 then allDiesFail s₁ else s₁) = false := by
    split
    · exact (isFatal_of_look (allDiesFail_look s₁ rfl rfl rfl)).trans dimmed
    · exact dimmed
  have low : isFatal s₂ = false := (isFatal_of_look (freeWork_look _ (by decide))).trans failed
  have spent : isFatal (spend 1 s₂) = false := low
  split
  · exact powerOff_notFatal spent
  · exact spent

/-- No reset is a Fatal event. -/
theorem reset_notFatal (c : Instr) {t : State} (ht : exec c s = .next t) (hc : c.resets = true) (hf : isFatal s = false) : isFatal t = false := by
  cases c with
  | powerOn =>
    refine (isFatal_of_done ht).trans ?_
    unfold powerOn
    split
    · exact hf
    · rfl
  | powerOff => exact (isFatal_of_done ht).trans (powerOff_notFatal hf)
  | resetAssert p us =>
    have asserted : (setPin p true s.dev).fatal = s.dev.fatal := by cases p <;> rfl
    refine (isFatal_of_done ht).trans ?_
    unfold resetAssert
    dsimp only
    split
    · exact hf
    split
    · rfl
    · exact asserted.trans hf
  | supplyFault las aux =>
    refine (isFatal_of_done ht).trans ?_
    unfold live
    split
    · exact supplyFault_notFatal las aux hf
    · exact hf
  | _ => cases hc

/-- The events that are Fatal. -/
theorem fatal_command (c : Instr) {t : State} (ht : exec c s = .next t) (hf : isFatal s = false) (hft : isFatal t = true) :
    c = .qclkLoss ∨ c = .junctionTrip ∨ c = .lockstepDisagreement ∨ c = .sensorSnapshot .uncorrectable ∨ ∃ l f, c = .thermalSample l f := by
  have kept (h : isFatal t = isFatal s) : False := Bool.false_ne_true (hf.symm.trans (h.symm.trans hft))
  by_cases hc : c.resets = true
  · exact (Bool.false_ne_true ((reset_notFatal c ht hc hf).symm.trans hft)).elim
  have hc : c.resets = false := Bool.eq_false_iff.mpr hc
  by_cases hp : c.touches .fatal = false
  · exact (kept (exec_get (p := .fatal) ht hc hp (by decide))).elim
  cases c with
  | qclkLoss => exact .inl rfl
  | junctionTrip => exact .inr (.inl rfl)
  | lockstepDisagreement => exact .inr (.inr (.inl rfl))
  | thermalSample l f => exact .inr (.inr (.inr (.inr ⟨l, f, rfl⟩)))
  | sensorSnapshot r =>
    by_cases hr : r = .uncorrectable
    · exact .inr (.inr (.inr (.inl (by rw [hr]))))
    · refine (kept ((isFatal_of_done ht).trans ?_)).elim
      unfold live
      split
      · exact (mgtCode_kept hr _).trans (isFatal_of_look (snapshot_look s rfl))
      · rfl
  | _ => exact absurd rfl hp

/-- Settles O54: in Umbra a command lights nothing, since what would light something asks for light or for a state beyond Umbra, and what brings the
device to Umbra darkens all of it. -/
theorem umbraStaysDark : Obligations.UmbraStaysDark := by
  refine ⟨fun s t hs ht => ?dark, fun c s t ht hc hf => exec_isFatal c ht hc hf, fun c s t ht hf hft => fatal_command c ht hf hft⟩
  case dark =>
    obtain rfl | ⟨c, r, -, ht⟩ := step_cases ht
    · exact umbraDark_of_look (look_idle (by simp)) hs
    · obtain ⟨u, hu, dark⟩ := exec_dark (s := { s with pending := r }) c hs
      rw [hu] at ht
      injection ht with ht
      exact ht ▸ umbraDark_of_look (irqSettle_look u rfl) dark

end

end Sys2Proof.Machine
end

section
/-!
PROOFS. What a command of a running device answers, and the events that its effect records; doorbells and the PCI Express side (chapter 16).
-/

-- In sequence: each worker of the elaborator takes its stack from the memory that a check may use.
set_option Elab.async false

namespace Sys2Proof.Machine

/-! ### The answer of a running device -/

/-- A command over the BARs is carried out while the function is not in D3hot. -/
theorem runBar_of_running (f : State → State) (s : State) (hs : running s = true) (hb : s.host.d3hot = false) :
    runBar f s = .next (irqSettle (f s)) := by
  rw [runBar, run_of_running _ s hs, bar, if_neg (by simp [hb])]

section
variable (s : State)

/-! Settling the interrupts touches the pending bits alone. -/

@[simp] theorem irqSettle_d3hot : (irqSettle s).host.d3hot = s.host.d3hot := rfl
@[simp] theorem irqSettle_msixEnable : (irqSettle s).host.msixEnable = s.host.msixEnable := rfl
@[simp] theorem irqSettle_msixFmask : (irqSettle s).host.msixFmask = s.host.msixFmask := rfl
@[simp] theorem irqSettle_vec : (irqSettle s).host.vec = s.host.vec := rfl
@[simp] theorem irqSettle_speed : (irqSettle s).host.speed = s.host.speed := rfl
@[simp] theorem irqSettle_width : (irqSettle s).host.width = s.host.width := rfl
@[simp] theorem irqSettle_cfg : (irqSettle s).host.cfg = s.host.cfg := rfl
@[simp] theorem irqSettle_aer : (irqSettle s).host.aer = s.host.aer := rfl
@[simp] theorem irqSettle_bar2 : (irqSettle s).host.bar2 = s.host.bar2 := rfl
@[simp] theorem irqSettle_latch : (irqSettle s).host.latch = s.host.latch := rfl

/-! ### Events -/

@[simp] theorem flag_dbl_event (n m : ℕ) : (flag blkDBL n m s).dbl.event = setBit s.dbl.event m := by
  simp [flag, eventBit, setEv, blkDBL]

@[simp] theorem flag_dev_event (n m : ℕ) : (flag blkGLB n m s).dev.event = setBit s.dev.event m := by
  simp [flag, eventBit, setEv, blkGLB]

/-- A record of an event that is not Corrected is new: nothing merges it (R508). -/
theorem logEvent_head {cls : ℕ} (hc : cls ≠ 1) (blk code inst : ℕ) : ∃ r, (logEvent cls blk code inst s).err.log.head? = some r ∧
    r.cls = BitVec.ofNat 8 cls ∧ r.block = BitVec.ofNat 8 blk ∧ r.code = BitVec.ofNat 16 code ∧ r.inst = BitVec.ofNat 16 inst ∧ r.time = s.time := by
  simp only [logEvent, if_neg hc]
  exact ⟨_, rfl, rfl, rfl, rfl, rfl, rfl⟩

end

/-! ### Doorbells (R473) -/

theorem ringFw_dbl (v : Word) (s : State) : (ringFw v s).dbl = { s.dbl with fw := s.dbl.fw ||| v } := by
  unfold ringFw
  dsimp only
  split
  · rfl
  · rfl

theorem ringSite_up {x : SiteIx} {v : Word} {s : State} (hv : v ≠ 0) (up : siteUp s x = true) :
    ringSite x v s = sbSend x 0x1C (sbBody (leBytes 4 v.toNat)) s := by
  rw [ringSite, if_neg hv, if_pos up]

theorem ringSite_down {x : SiteIx} {v : Word} {s : State} (hv : v ≠ 0) (down : siteUp s x = false) :
    ringSite x v s = flag blkDBL x.val x.val s := by
  rw [ringSite, if_neg hv, down, if_neg Bool.false_ne_true]

@[simp] theorem flag_dbl_site (n m : ℕ) (s : State) : (flag blkDBL n m s).site = s.site := by simp [flag, eventBit, setEv, blkDBL]

/-- Settles O3: what each act leaves in the doorbell registers, and what a ring of a site leaves in its queue or its event bit. -/
theorem doorbellRings : Obligations.DoorbellRings := by
  refine ⟨fun v s hs hb => ⟨_, runBar_of_running _ s hs hb, ?ring⟩, fun v s hs fw => ⟨_, run_of_running _ s hs, ?clear⟩,
    fun v s hs fw => ⟨_, run_of_running _ s hs, ?mask⟩, fun v s hs fw => ⟨_, run_of_running _ s hs, ?host⟩,
    fun x v s hs hb hv up sb => ⟨_, runBar_of_running _ s hs hb, ?cross⟩, fun x v s hs hb hv down => ⟨_, runBar_of_running _ s hs hb, ?drop⟩⟩
  case ring => simp [ringFw_dbl]
  case clear | mask | host => simp [fwDoorbells, fw, fwRunning]
  case cross =>
    rw [ringSite_up hv up]
    exact ⟨by simp, sbSend_queue x _ _ s sb⟩
  case drop => simp [ringSite_down hv down]


/-! ### The configuration space -/

theorem classCode_of_fill (n : ℕ) : (fillReserved (mkReg [(31, 8, 0x120000)]) n).toNat / 256 = 0x120000 := by
  have upper (x : Word) : (0x12000000#32 &&& 0xFFFFFF00#32 ||| x &&& ~~~0xFFFFFF00#32) >>> 8 = 0x120000#32 := by
    rw [BitVec.ushiftRight_or_distrib, BitVec.ushiftRight_and_distrib (x := x)]
    simp
  have shifted := congrArg BitVec.toNat (upper (Config.freeValue 32 n))
  rwa [BitVec.toNat_ushiftRight, Nat.shiftRight_eq_div_pow] at shifted

theorem headerType_of_fill (n : ℕ) : (fillReserved (mkReg [(23, 16, 0)]) n).toNat / 65536 % 256 = 0 := by
  have field (x : Word) : (0#32 &&& 0x00FF0000#32 ||| x &&& ~~~0x00FF0000#32).extractLsb' 16 8 = 0#8 := by
    refine BitVec.eq_of_getLsbD_eq fun i hi => ?_
    have masked : ∀ i : Fin 8, (0xFF00FFFF#32).getLsbD (16 + i.val) = false := by decide
    have none := masked ⟨i, hi⟩
    simp only at none
    simp [none]
  have shown := congrArg BitVec.toNat (field (Config.freeValue 32 n))
  rwa [BitVec.extractLsb'_toNat, Nat.shiftRight_eq_div_pow] at shown

/-- A read of the configuration space is answered by a word that shows the register's value. -/
theorem cfgDo_read (r : CfgReg) (s : State) : Emission.cfgRead r (fillReserved (cfgValue s r) s.fresh) ∈ (cfgDo s (.read r)).out :=
  List.mem_cons_self

/-- Configuration requests reach the function's settings alone. -/
theorem cfgDo_kept (s : State) (a : CfgAccess) : (cfgDo s a).mbx = s.mbx ∧ (cfgDo s a).hbm = s.hbm ∧ (cfgDo s a).host.bar2 = s.host.bar2 ∧
    s.out ⊆ (cfgDo s a).out := by
  cases a with
  | read r => exact ⟨rfl, rfl, rfl, List.subset_cons_self ..⟩
  | write r v =>
    refine ⟨rfl, rfl, ?_, List.Subset.refl _⟩
    cases r with
    | identifiers | classCode | headerType | command | bar | deviceControl | msixControl => rfl
    | powerControl =>
      simp only [cfgDo, cfgWrite]
      split
      · rfl
      split
      · rfl
      · rfl

theorem cfgAccesses_kept (l : List CfgAccess) (s : State) : (l.foldl cfgDo s).mbx = s.mbx ∧ (l.foldl cfgDo s).hbm = s.hbm ∧
    (l.foldl cfgDo s).host.bar2 = s.host.bar2 ∧ s.out ⊆ (l.foldl cfgDo s).out := by
  induction l generalizing s with
  | nil => exact ⟨rfl, rfl, rfl, List.Subset.refl _⟩
  | cons a r ih =>
    obtain ⟨mbx, hbm, bar2, out⟩ := ih (cfgDo s a)
    obtain ⟨mbx₁, hbm₁, bar2₁, out₁⟩ := cfgDo_kept s a
    exact ⟨mbx.trans mbx₁, hbm.trans hbm₁, bar2.trans bar2₁, List.Subset.trans out₁ out⟩

/-- Every read among the configuration requests is answered. -/
theorem cfgAccesses_read {l : List CfgAccess} {r : CfgReg} (h : .read r ∈ l) (s : State) : ∃ w, Emission.cfgRead r w ∈ (l.foldl cfgDo s).out := by
  induction l generalizing s with
  | nil => cases h
  | cons a l ih =>
    cases h with
    | head =>
      obtain ⟨-, -, -, later⟩ := cfgAccesses_kept l (cfgDo s (.read r))
      exact ⟨_, later (cfgDo_read r s)⟩
    | tail _ h => exact ih h (cfgDo s a)

/-! ### A function reset (R462) -/

/-- The firmware-to-host channel holds a message, or is empty with nothing left in it. -/
def Emptied (s : State) (c : Fin 16) : Prop := (s.mbx.f2h[c.val]).go = false → (s.mbx.f2h[c.val]).msg = {}

theorem emptied_onF2h {s : State} (c k : Fin 16) {f : RxChan → RxChan} (hs : k ≠ c → Emptied s k)
    (hf : (f s.mbx.f2h[c.val]).go = false → (f s.mbx.f2h[c.val]).msg = {}) : Emptied (onF2h c f s) k := by
  by_cases same : k = c
  · subst same
    have new : (onF2h k f s).mbx.f2h[k.val] = f s.mbx.f2h[k.val] := upd_val_self ..
    rwa [Emptied, new]
  · have old : (onF2h c f s).mbx.f2h[k.val] = s.mbx.f2h[k.val] := Vector.getElem_set_ne c.isLt k.isLt fun e => same (Fin.ext e.symm)
    rw [Emptied, old]
    exact hs same

theorem emptied_of_f2h {s t : State} {k : Fin 16} (h : t.mbx.f2h = s.mbx.f2h) (hs : Emptied s k) : Emptied t k := by
  unfold Emptied
  rwa [h]

theorem fwSend_emptied {s : State} (c k : Fin 16) (m : Msg) (hs : Emptied s k) : Emptied (fwSend c m s) k := by
  unfold fwSend
  split
  · exact emptied_onF2h c k (fun _ => hs) nofun
  split
  · exact hs
  · exact emptied_of_f2h (by simp) hs

theorem nextReply_emptied {s : State} (c k : Fin 16) (hs : Emptied s k) : Emptied (nextReply c s) k := by
  unfold nextReply
  split
  · exact hs
  · exact fwSend_emptied c k _ hs

@[simp] theorem d2hAborted_f2h (fw : Bool) (x : SiteIx) (c : Fin 8) (s : State) : (d2hAborted fw x c s).mbx.f2h = s.mbx.f2h := by
  unfold d2hAborted
  split
  · simp [sendResp, onD2h]
  · rfl

/-- What every step of a fold keeps, the fold keeps. -/
theorem foldl_kept {α β : Type} (get : State → β) (g : State → α → State) (l : List α) (s : State) (h : ∀ t x, get (g t x) = get t) :
    get (l.foldl g s) = get s := by
  induction l generalizing s with
  | nil => rfl
  | cons x r ih => exact (ih _).trans (h s x)

@[simp] theorem diesAborted_f2h (fw : Bool) (s : State) : (diesAborted fw s).mbx.f2h = s.mbx.f2h := by
  unfold diesAborted
  exact foldl_kept (·.mbx.f2h) _ _ _ fun t x => foldl_kept (·.mbx.f2h) _ _ _ fun u c => d2hAborted_f2h fw x c u

theorem diesAborted_emptied {s : State} (fw : Bool) {k : Fin 16} (hs : Emptied s k) : Emptied (diesAborted fw s) k :=
  emptied_of_f2h (diesAborted_f2h fw s) hs

/-- The reset of a channel that the firmware sends on. -/
def inboxClear (t : State) (c : Fin 16) : State :=
  if (t.mbx.f2h[c]).go then
    nextReply c (logEvent clsReported blkMBX 0x0102 (rxInst (.f2h c)) (onF2h c (fun r => { r with go := false, timer := none, msg := {} }) t))
  else onF2h c (fun r => { r with msg := {} }) t

theorem inboxClear_emptied {t : State} (c k : Fin 16) (hk : k ≠ c → Emptied t k) : Emptied (inboxClear t c) k := by
  unfold inboxClear
  split
  · have taken : Emptied (onF2h c (fun r => { r with go := false, timer := none, msg := {} }) t) k := emptied_onF2h c k hk fun _ => rfl
    exact nextReply_emptied c k (emptied_of_f2h (by simp) taken)
  · exact emptied_onF2h c k hk fun _ => rfl

/-- A channel is empty once it has had its turn. -/
theorem inboxClears_emptied (l : List (Fin 16)) {t : State} {k : Fin 16} (h : Emptied t k ∨ k ∈ l) : Emptied (l.foldl inboxClear t) k := by
  induction l generalizing t with
  | nil => exact h.resolve_right List.not_mem_nil
  | cons c r ih =>
    refine ih ?_
    by_cases same : k = c
    · exact .inl (inboxClear_emptied c k fun other => absurd same other)
    · obtain done | now | later := h.imp_right List.mem_cons.mp
      · exact .inl (inboxClear_emptied c k fun _ => done)
      · exact absurd now same
      · exact .inr later

theorem emptied_d2h {s : State} {k : Fin 16} (hs : Emptied s k) (d : Vector (Vector RxChan 8) 6) :
    Emptied { s with mbx := { s.mbx with d2h := d } } k := hs

theorem hostInboxCleared_emptied (s : State) (k : Fin 16) : Emptied (hostInboxCleared s) k := by
  unfold hostInboxCleared
  extract_lets s₁ s₂ clear
  have turns : Emptied ((fins 16).foldl inboxClear s) k := inboxClears_emptied (fins 16) (.inr (mem_fins k))
  unfold inboxClear at turns
  have cleared : Emptied s₁ k := turns
  have ended : Emptied s₂ k := diesAborted_emptied false cleared
  exact emptied_d2h ended _

@[simp] theorem fwSend_h2f (c : Fin 16) (m : Msg) (s : State) : (fwSend c m s).mbx.h2f = s.mbx.h2f ∧ (fwSend c m s).mbx.rxMask = s.mbx.rxMask ∧
    (fwSend c m s).mbx.txMask = s.mbx.txMask := by
  unfold fwSend
  split
  · exact ⟨rfl, rfl, rfl⟩
  split
  · exact ⟨rfl, rfl, rfl⟩
  · simp

section
variable (s : State)

theorem imgReply_emptied {s : State} (n m : ℕ) (i : BitVec 16) (ws : List Word) (k : Fin 16) (hs : Emptied s k) : Emptied (imgReply n i m ws s) k :=
  fwSend_emptied 0 k _ hs

@[simp] theorem imgReply_h2f (n m : ℕ) (i : BitVec 16) (ws : List Word) : (imgReply n i m ws s).mbx.h2f = s.mbx.h2f ∧
    (imgReply n i m ws s).mbx.rxMask = s.mbx.rxMask ∧ (imgReply n i m ws s).mbx.txMask = s.mbx.txMask := fwSend_h2f 0 _ s

theorem abortRunning_emptied {s : State} (k : Fin 16) (hs : Emptied s k) : Emptied (abortRunning s) k := by
  unfold abortRunning
  split
  · exact imgReply_emptied _ _ _ _ k hs
  · exact imgReply_emptied _ _ _ _ k hs
  · exact hs

theorem imgAbortCore_emptied {s : State} (k : Fin 16) (hs : Emptied s k) : Emptied (imgAbortCore s) k := by
  unfold imgAbortCore
  split
  · exact hs
  · exact abortRunning_emptied k hs

@[simp] theorem abortRunning_kept : (abortRunning s).mbx.h2f = s.mbx.h2f ∧ (abortRunning s).mbx.rxMask = s.mbx.rxMask ∧
    (abortRunning s).mbx.txMask = s.mbx.txMask ∧ (abortRunning s).dbl = s.dbl ∧ (abortRunning s).lck = s.lck ∧ (abortRunning s).hbm = s.hbm ∧
    (abortRunning s).sec = s.sec := by
  unfold abortRunning
  split
  · simp
  · simp
  · simp

@[simp] theorem imgAbortCore_kept : (imgAbortCore s).mbx.h2f = s.mbx.h2f ∧ (imgAbortCore s).mbx.rxMask = s.mbx.rxMask ∧
    (imgAbortCore s).mbx.txMask = s.mbx.txMask ∧ (imgAbortCore s).dbl = s.dbl ∧ (imgAbortCore s).lck = s.lck ∧ (imgAbortCore s).hbm = s.hbm ∧
    (imgAbortCore s).sec = s.sec := by
  unfold imgAbortCore
  split
  · simp
  · simp

@[simp] theorem applyDue_kept : (applyDue s).mbx = s.mbx ∧ (applyDue s).dbl = s.dbl ∧ (applyDue s).lck = s.lck ∧ (applyDue s).hbm = s.hbm ∧
    (applyDue s).sec = s.sec := by
  unfold applyDue
  split
  · simp
  · simp

@[simp] theorem pcieUpdateClosed_kept : (pcieUpdateClosed s).mbx = s.mbx ∧ (pcieUpdateClosed s).dbl = s.dbl ∧ (pcieUpdateClosed s).lck = s.lck ∧
    (pcieUpdateClosed s).hbm = s.hbm ∧ (pcieUpdateClosed s).sec = s.sec := by
  unfold pcieUpdateClosed
  split
  · split
    · simp
    · simp
  · simp

/-- The Reservoir and what security holds are as before. -/
def KeepsStores (s t : State) : Prop := t.hbm = s.hbm ∧ t.sec = s.sec

theorem KeepsStores.trans {s t u : State} (h : KeepsStores s t) (h' : KeepsStores t u) : KeepsStores s u := ⟨h'.1.trans h.1, h'.2.trans h.2⟩

theorem KeepsStores.mbx {s t : State} (h : KeepsStores s t) (m : Mbx) : KeepsStores s { t with mbx := m } := h

theorem KeepsStores.hostSide {s t : State} (h : KeepsStores s t) : KeepsStores s (hostSideCleared t) := h

theorem inboxClear_kept (c : Fin 16) : KeepsStores s (inboxClear s c) := by
  unfold inboxClear nextReply onF2h KeepsStores
  split
  · split
    · simp
    · simp
  · exact ⟨rfl, rfl⟩

theorem diesAborted_kept (fw : Bool) : KeepsStores s (diesAborted fw s) := by
  simp [diesAborted, d2hAborted, sendResp, onD2h, KeepsStores]

theorem hostInboxCleared_kept : KeepsStores s (hostInboxCleared s) := by
  have turns : KeepsStores s ((fins 16).foldl inboxClear s) :=
    ⟨foldl_hbm inboxClear (fins 16) s fun t c => (inboxClear_kept t c).1, foldl_sec inboxClear (fins 16) s fun t c => (inboxClear_kept t c).2⟩
  unfold inboxClear at turns
  unfold hostInboxCleared
  extract_lets s₁ s₂ clear
  have ended : KeepsStores s s₂ := turns.trans (diesAborted_kept s₁ false)
  exact ended.mbx _

/-- The receiving sides of the host are emptied, and nothing later in the reset fills them but a reply of the firmware. -/
theorem functionReset_inbox (k : Fin 16) : Emptied (functionReset s) k := by
  have cleared : Emptied (hostSideCleared (hostInboxCleared s)) k := emptied_of_f2h (by simp only [hostSideCleared]) (hostInboxCleared_emptied s k)
  unfold functionReset
  generalize hostSideCleared (hostInboxCleared s) = t at cleared
  have applied : Emptied (applyDue t) k := emptied_of_f2h (by simp) cleared
  have aborted : Emptied (imgAbortCore (applyDue t)) k := imgAbortCore_emptied k applied
  exact emptied_of_f2h (by simp) aborted

theorem hostSideCleared_owner (n : Fin 32) : (hostSideCleared s).lck.owner[n] ≠ 2 := by
  rw [hostSideCleared, Fin.getElem_fin, Vector.getElem_map]
  split
  · decide
  · assumption

/-- What the reset clears on the host's side. -/
theorem functionReset_cleared : (functionReset s).mbx.h2f = Vector.replicate 16 {} ∧ (functionReset s).mbx.rxMask = 0 ∧
    (functionReset s).mbx.txMask = 0 ∧ (functionReset s).dbl.host = 0 ∧ (functionReset s).dbl.hostMask = 0 ∧
    (∀ n : Fin 32, (functionReset s).lck.owner[n] ≠ 2) ∧ (functionReset s).hbm.mem = s.hbm.mem ∧ (functionReset s).sec.counter = s.sec.counter := by
  have stores : KeepsStores s (hostSideCleared (hostInboxCleared s)) := (hostInboxCleared_kept s).hostSide
  have free := hostSideCleared_owner (hostInboxCleared s)
  have side : (hostSideCleared (hostInboxCleared s)).mbx.h2f = Vector.replicate 16 {} ∧ (hostSideCleared (hostInboxCleared s)).mbx.rxMask = 0 ∧
      (hostSideCleared (hostInboxCleared s)).mbx.txMask = 0 ∧ (hostSideCleared (hostInboxCleared s)).dbl.host = 0 ∧
      (hostSideCleared (hostInboxCleared s)).dbl.hostMask = 0 := by
    simp only [hostSideCleared, and_self]
  unfold functionReset
  generalize hostSideCleared (hostInboxCleared s) = t at stores free side
  obtain ⟨hbm, sec⟩ := stores
  obtain ⟨h2f, rx, tx, host, hostMask⟩ := side
  have owners (n : Fin 32) : t.lck.owner[n.val] ≠ 2 := free n
  simpa [h2f, rx, tx, host, hostMask, hbm, sec] using owners

theorem functionReset_settings : (functionReset s).host.msixEnable = false ∧ (functionReset s).host.d3hot = false ∧
    (functionReset s).host.cfg = {} ∧ (functionReset s).host.vec = Vector.replicate 64 {} ∧ (functionReset s).dev.scratch = 0 ∧
    (functionReset s).hbm.base = 0 := ⟨rfl, rfl, rfl, rfl, rfl, rfl⟩

end

/-- Settles O5: each command changes the settings it names; a function reset, through what each of its steps leaves. -/
theorem pcieFunctionSettings : Obligations.PcieFunctionSettings := by
  refine ⟨fun on s hs => ⟨_, run_of_running _ s hs, ?enable⟩, fun on s hs => ⟨_, run_of_running _ s hs, ?fmask⟩,
    fun v on s hs hb => ⟨_, run_of_running _ s hs, ?vmask⟩, fun sp w s hs new => ⟨_, run_of_running _ s hs, ?link⟩,
    fun d3 s hs => ⟨_, run_of_running _ s hs, rfl, rfl⟩, fun d3 cfg s hs => ⟨_, run_of_running _ s hs, ?requests⟩,
    fun d3 r s hs => ⟨_, _, run_of_running _ s hs, mem_out_irqSettle (cfgDo_read r _), ?code, ?type⟩,
    fun d3 v s hs hp hq => ⟨_, run_of_running _ s hs, ?payload⟩, fun d3 v s hs => ⟨_, run_of_running _ s hs, ?power⟩,
    fun s hs => ⟨_, run_of_running _ s hs, ?poisoned⟩, fun k s hs => ⟨_, run_of_running _ s hs, ?reset⟩⟩
  case enable | fmask => simp [msixChange]
  case vmask =>
    refine ⟨?_, fun k hk => ?_⟩
    · simp [msixChange, hb]
    · simp only [hb, msixChange, irqSettle_vec]
      exact upd_ne _ _ _ _ hk.symm
  case link => simp [new]
  case requests =>
    obtain ⟨mbx, hbm, bar2, -⟩ := cfgAccesses_kept cfg { s with host := { s.host with d3hot := d3 } }
    refine ⟨by rw [irqSettle_mbx, mbx], by rw [irqSettle_hbm, hbm], by rw [irqSettle_bar2, bar2], fun r hr => ?_⟩
    obtain ⟨w, sent⟩ := cfgAccesses_read hr { s with host := { s.host with d3hot := d3 } }
    exact ⟨w, mem_out_irqSettle sent⟩
  case code =>
    rintro rfl
    exact classCode_of_fill _
  case type =>
    rintro rfl
    exact headerType_of_fill _
  case payload =>
    simp only [List.foldl_cons, List.foldl_nil, cfgDo, cfgWrite, hp, hq, if_true, irqSettle_cfg, irqSettle_d3hot]
    exact ⟨by rw [BitVec.toNat_ofNat]; omega, by rw [BitVec.toNat_ofNat]; omega, trivial⟩
  case power =>
    refine ⟨fun sleeps => ?_, fun wakes => ?_⟩
    · simp [cfgDo, cfgWrite, sleeps]
    · simp [cfgDo, cfgWrite, wakes]
  case poisoned =>
    obtain ⟨r, head, -, block, code, -, time⟩ := logEvent_head { s with host := { s.host with aer := .poisonedTlp :: s.host.aer } }
      (cls := 0) (by decide) blkERR 0x0100 0
    exact ⟨by simp, ⟨r, head, block, code, time⟩, by simp, by simp⟩
  case reset =>
    obtain ⟨h2f, rx, tx, host, hostMask, owner, mem, counter⟩ := functionReset_cleared s
    obtain ⟨enable, d3hot, cfg, vec, scratch, base⟩ := functionReset_settings s
    have inbox := functionReset_inbox s
    generalize functionReset s = t at *
    exact ⟨enable, d3hot, cfg, vec, scratch, base, host, hostMask, h2f, rx, tx, inbox, owner, mem, counter⟩
end Sys2Proof.Machine
end

section
/-!
PROOFS. Mailbox channels: messages sent, refused, taken and timed out (chapter 16, R464 to R470).
-/

-- In sequence: each worker of the elaborator takes its stack from the memory that a check may use.
set_option Elab.async false

namespace Sys2Proof.Machine

section
variable (s : State)

/-! ### A channel towards a receiver -/

theorem txChan_of_mbx {s t : State} (h : t.mbx = s.mbx) (c : MbxTx) : txChan t c = txChan s c := by
  cases c with
  | h2f n => exact congrArg (fun m : Mbx => m.h2f[n.val]) h
  | h2d x n => exact congrArg (fun m : Mbx => (m.h2d[x.val])[n.val]) h

@[simp] theorem txChan_onTx (c : MbxTx) (f : TxChan → TxChan) : txChan (onTx c f s) c = f (txChan s c) := by
  cases c with
  | h2f n => exact upd_val_self ..
  | h2d x n =>
    have row : (upd s.mbx.h2d x fun v => upd v n f)[x.val] = upd s.mbx.h2d[x.val] n f := upd_val_self ..
    exact (congrArg (fun v : Vector TxChan 8 => v[n.val]) row).trans (upd_val_self ..)

@[simp] theorem txChan_txStatus (c : MbxTx) (n : ℕ) :
    txChan (txStatus c n s) c = { txChan s c with status := setBit (txChan s c).status n } := txChan_onTx ..

@[simp] theorem sendToDie_mbx (x : SiteIx) (n : Fin 8) (m : Msg) : (sendToDie x n m s).mbx = s.mbx := by simp [sendToDie]

@[simp] theorem txChan_txPlace (c : MbxTx) (m : Msg) : txChan (txPlace c m s) c =
    { txChan s c with go := true, acked := false, msg := m, timer := some (s.time, (calibRec s).mailboxUs) } := by
  cases c with
  | h2f n => exact txChan_onTx s (.h2f n) _
  | h2d x n => exact (txChan_of_mbx (sendToDie_mbx ..) _).trans (txChan_onTx s (.h2d x n) _)

@[simp] theorem txChan_sendRejected (c : MbxTx) :
    txChan (sendRejected c s) c = { txChan s c with status := setBit (txChan s c).status stRejected } :=
  (txChan_of_mbx (logEvent_mbx ..) c).trans (txChan_txStatus s c stRejected)

@[simp] theorem txChan_irqSettle (c : MbxTx) : txChan (irqSettle s) c = txChan s c := txChan_of_mbx rfl c

/-! ### The cases of a host send -/

section
variable {s : State} {c : MbxTx} {tag : BitVec 16}

/-- The channel with the tag that the host's write to CTRL names. -/
abbrev tagged (c : MbxTx) (tag : BitVec 16) (s : State) : State := onTx c (fun h => { h with tag := tag }) s

theorem hostBound_tagged : hostBound (tagged c tag s) = hostBound s := by
  funext r n i
  simp [hostBound]

theorem txDown_tagged : txDown (tagged c tag s) c = txDown s c := by
  cases c with
  | h2f => rfl
  | h2d x n => rfl

/-- The channel under its new tag, all else of it as it was. -/
theorem txChan_tagged : txChan (tagged c tag s) c = { txChan s c with tag := tag } := txChan_onTx ..

theorem mbxSendTo_unbound (h : hostBound s (txReceiver c) (txNumber c) tag = false) : mbxSendTo c tag s = txStatus c stUnbound (tagged c tag s) := by
  rw [← hostBound_tagged (c := c) (tag := tag)] at h
  exact if_pos h

theorem mbxSendTo_down (h : hostBound s (txReceiver c) (txNumber c) tag = true) (down : txDown s c = true) :
    mbxSendTo c tag s = txStatus c stAborted (tagged c tag s) := by
  rw [← hostBound_tagged (c := c) (tag := tag)] at h
  rw [← txDown_tagged (tag := tag)] at down
  exact (if_neg (ne_false_of_eq_true h)).trans (if_pos down)

theorem mbxSendTo_full (h : hostBound s (txReceiver c) (txNumber c) tag = true) (up : txDown s c = false) (go : (txChan s c).go = true) :
    mbxSendTo c tag s = sendRejected c (tagged c tag s) := by
  have held : (txChan (tagged c tag s) c).go = true := txChan_tagged ▸ go
  rw [← hostBound_tagged (c := c) (tag := tag)] at h
  rw [← txDown_tagged (tag := tag)] at up
  exact (if_neg (ne_false_of_eq_true h)).trans ((if_neg (ne_true_of_eq_false up)).trans (if_pos held))

theorem mbxSendTo_empty (h : hostBound s (txReceiver c) (txNumber c) tag = true) (up : txDown s c = false) (go : (txChan s c).go = false) :
    mbxSendTo c tag s = txPlace c { words := (txChan s c).staging, tag := tag, sender := 1 } (txStatus c stAccepted (tagged c tag s)) := by
  have empty : (txChan (tagged c tag s) c).go = false := txChan_tagged ▸ go
  have words : (txChan (tagged c tag s) c).staging = (txChan s c).staging := txChan_tagged ▸ rfl
  rw [← hostBound_tagged (c := c) (tag := tag)] at h
  rw [← txDown_tagged (tag := tag)] at up
  rw [← words]
  exact (if_neg (ne_false_of_eq_true h)).trans ((if_neg (ne_true_of_eq_false up)).trans (if_neg (ne_true_of_eq_false empty)))

end

/-! ### Takes -/

theorem fwSend_free {c : Fin 16} (h : (s.mbx.f2h[c.val]).go = false) (m : Msg) :
    (fwSend c m s).mbx = { s.mbx with f2h := upd s.mbx.f2h c fun r => { r with msg := m, go := true, timer := some (s.time, (calibRec s).mailboxUs) } } := by
  unfold fwSend
  rw [if_pos (show (s.mbx.f2h[c]).go = false from h)]

end

/-! Rows of channels, of which one changes in one place. -/

theorem cell_upd {α : Type} {m n : ℕ} (v : Vector (Vector α n) m) (x : Fin m) (c : Fin n) (f : α → α) :
    ((upd v x fun r => upd r c f)[x.val])[c.val] = f (v[x.val])[c.val] := by simp

/-- Settles O2: the cases of a host send, read off the channel after it. -/
theorem mailboxSendRefusedKeepsMessage : Obligations.MailboxSendRefusedKeepsMessage := by
  intro c tag s t hs hb ht
  have answer : exec (.mbxSend c tag) s = .next (irqSettle (mbxSendTo c tag s)) := runBar_of_running _ s hs hb
  obtain rfl : irqSettle (mbxSendTo c tag s) = t := by
    rw [answer] at ht
    injection ht
  refine ⟨fun unbound => ?_, fun bound down => ?_, fun bound up full => ?_⟩
  · rw [mbxSendTo_unbound unbound]
    simp
  · rw [mbxSendTo_down bound down]
    simp
  · rw [mbxSendTo_full bound up full]
    have logged : (sendRejected c (tagged c tag s)).host.aer = .completerAbort (txCtrlAddr s c) s.fresh :: s.host.aer := by
      simp [sendRejected, txCtrlAddr]
    simp [full, logged]

theorem fwDieSend_free {x : SiteIx} {c : Fin 8} {s : State} (up : siteUp s x = true) (go : (s.mbx.h2d[x.val])[c.val].go = false) (m : Msg) :
    fwDieSend x c m s = txPlace (.h2d x c) m s := by
  simp [fwDieSend, up, go]

/-- Settles O1: each message moves by the rule of its channel's command; nothing else of the mailboxes changes with it. -/
theorem mailboxMessagesMove : Obligations.MailboxMessagesMove := by
  unfold Obligations.MailboxMessagesMove
  simp only [Fin.getElem_fin]
  refine ⟨fun c tag s hs hb bound up go => ⟨_, runBar_of_running _ s hs hb, ?send⟩, fun c s hs hb go queue => ⟨_, runBar_of_running _ s hs hb, ?take⟩,
    fun c m r s hs hb go queue => ⟨_, runBar_of_running _ s hs hb, ?takeNext⟩, fun x c s hs hb go => ⟨_, runBar_of_running _ s hs hb, ?takeDie⟩,
    fun x c s hs fw go => ⟨_, run_of_running _ s hs, ?fwTakeDie⟩, fun c s hs fw hc go => ⟨_, run_of_running _ s hs, ?fwTake⟩,
    fun c tag ws s hs fw bound go => ⟨_, run_of_running _ s hs, ?fwSend⟩, fun x c tag ws s hs fw bound up go => ⟨_, run_of_running _ s hs, ?fwSendDie⟩,
    fun c s hs go timer => ⟨_, run_of_running _ s hs, ?expire⟩, fun x c s hs go timer => ⟨_, run_of_running _ s hs, ?expireDie⟩⟩
  case send =>
    rw [mbxSendTo_empty bound up go]
    simp [calibRec, txStatus]
  case take => simp [mbxTakeFrom, go, nextReply, queue]
  case takeNext => simp [mbxTakeFrom, go, nextReply, queue, fwSend_free]
  case takeDie =>
    cases bound : dieToFw s x c with
    | false => simp [mbxTakeFrom, bound, d2hTake, go, sendResp]
    | true => simp [mbxTakeFrom, bound, go]
  case fwTakeDie =>
    cases bound : dieToFw s x c with
    | false => simp [fwTake, fw, fwRunning, bound, go]
    | true => simp [fwTake, fw, fwRunning, bound, d2hTake, go, sendResp]
  case fwTake => simp [fwTake, fw, fwRunning, hc, go, mbxTaken, onTx]
  case fwSend => simp [fwMessage, fw, fwRunning, bound, fwSend_free _ go]
  case fwSendDie =>
    have placed := txChan_txPlace s (.h2d x c)
    simp only [txChan, Fin.getElem_fin] at placed
    simp [fwMessage, fw, fwRunning, bound, fwDieSend_free up go, placed]
  case expire => simp [mbxExpire, go, timer, txChan_of_mbx (logEvent_mbx ..)]
  case expireDie => simp [mbxExpire, go, timer, sendResp, onD2h]

end Sys2Proof.Machine
end

section
/-!
PROOFS. The first capture and Echo (chapter 18, R509 to R514).
-/

-- In sequence: each worker of the elaborator takes its stack from the memory that a check may use.
set_option Elab.async false

namespace Sys2Proof.Machine

section
variable (s : State)

/-! ### What a log record leaves of the error block -/

@[simp] theorem logEvent_echo (cls blk code inst : ℕ) : (logEvent cls blk code inst s).err.echo = s.err.echo := by
  unfold logEvent
  dsimp only
  split
  · rfl
  · rfl

/-- The capture and its epoch move at a record of class Contained or above alone. -/
theorem logEvent_capture {cls : ℕ} (hc : cls < 3) (blk code inst : ℕ) : (logEvent cls blk code inst s).err.epoch = s.err.epoch ∧
    (logEvent cls blk code inst s).err.first = s.err.first := by
  unfold logEvent
  dsimp only
  split
  · exact ⟨if_neg (by omega), rfl⟩
  · exact ⟨if_neg (by omega), if_neg fun h => absurd h.1 (by omega)⟩

@[simp] theorem logEvent_reported_event (blk code inst : ℕ) : (logEvent 0 blk code inst s).err.event = s.err.event := rfl

@[simp] theorem flag_err_echo (n m : ℕ) : (flag blkERR n m s).err.echo = s.err.echo := by simp [flag, eventBit, setEv, blkERR]

@[simp] theorem flag_err_epoch (n m : ℕ) : (flag blkERR n m s).err.epoch = s.err.epoch := by
  rw [flag, eventBit, (logEvent_capture _ (by decide) ..).1]
  rfl

@[simp] theorem flag_err_event (n m : ℕ) : (flag blkERR n m s).err.event = setBit s.err.event m := by simp [flag, eventBit, setEv, blkERR]

/-! ### Starting an Echo -/

section
variable {s : State} {mode : BitVec 2} {v : Word} {epoch : BitVec 16} {may : Bool}

/-- An Echo of the current epoch starts where it may, when none runs. -/
theorem echoTry_starts (hv : fld v 31 16 = epoch.toNat) (hm : may = true) (idle : s.err.echo.result ≠ 1) :
    (echoTry mode v epoch may s).err = (echoStart mode v (mode != 2) s).err ∧ (echoTry mode v epoch may s).port = s.port := by
  unfold echoTry
  rw [if_neg (not_not.mpr hv), if_pos (by rw [hm, Bool.true_and]; exact bne_iff_ne.mpr idle)]
  dsimp only
  split
  · exact ⟨rfl, rfl⟩
  · exact ⟨rfl, rfl⟩

end

end

/-- The word of ERR_CTRL that releases the capture of an epoch names the epoch and sets bit 0, and no reserved bit (Table 18.2). -/
theorem release_word (e : BitVec 16) : fld (w32 (e.toNat * 65536 + 1)) 31 16 = e.toNat ∧ bit (w32 (e.toNat * 65536 + 1)) 0 = true ∧
    w32 (e.toNat * 65536 + 1) &&& ~~~0xFFFF0001#32 = 0 := by
  have small : e.toNat < 2 ^ 16 := e.isLt
  have word (i : ℕ) : (w32 (e.toNat * 65536 + 1)).getLsbD i = (decide (i < 32) && if i < 16 then Nat.testBit 1 i else e.toNat.testBit (i - 16)) := by
    rw [w32, BitVec.getLsbD_ofNat, show e.toNat * 65536 + 1 = 2 ^ 16 * e.toNat + 1 by omega, Nat.testBit_two_pow_mul_add _ (by decide)]
  refine ⟨?_, ?_, BitVec.eq_of_getLsbD_eq fun i hi => ?_⟩
  · simp only [fld, bits, w32, BitVec.toNat_ofNat]
    omega
  · rw [bit, word]
    rfl
  · have mask : ∀ i : Fin 32, (0xFFFF0001#32).getLsbD i.val = true ∨ i.val < 16 ∧ Nat.testBit 1 i.val = false := by decide
    rw [BitVec.getLsbD_and, BitVec.getLsbD_not, word]
    obtain clear | ⟨low, zero⟩ := mask ⟨i, hi⟩
    · simp only at clear
      simp [clear]
    · simp only at low zero
      simp [low, zero]

/-- ERR_CTRL with the current epoch releases the capture. -/
theorem errRelease_current (s : State) :
    errRelease (w32 (s.err.epoch.toNat * 65536 + 1)) s = { s with err := { s.err with first := none, epoch := s.err.epoch + 1 } } := by
  obtain ⟨epoch, release, -⟩ := release_word s.err.epoch
  rw [errRelease, if_neg (not_not.mpr epoch), if_pos release]

/-- A write of a word without a reserved bit is carried out. -/
theorem regRow_of_running {off : ℕ} {v : Word} {s : State} (f : State → State) (hs : running s = true) (hb : s.host.d3hot = false)
    (good : rsvBad s off v = false) : regRow off v f s = .next (irqSettle (f s)) := by
  rw [regRow, good, Bool.and_false, if_neg Bool.false_ne_true, runBar_of_running f s hs hb]

/-- Settles O7: a release and the starts of an Echo by the epochs they name, an Echo's end by its checker. -/
theorem captureAndEcho : Obligations.CaptureAndEcho := by
  unfold Obligations.CaptureAndEcho
  simp only [Fin.getElem_fin, BitVec.ofNat_eq_ofNat]
  refine ⟨fun s hs hb => ⟨_, regRow_of_running _ hs hb ?good, ?release⟩, fun v s hs hb epoch dark hold low high idle => ⟨_, runBar_of_running _ s hs hb, ?line⟩,
    fun v s hs hb epoch dev up peer idle => ⟨_, runBar_of_running _ s hs hb, ?fibre⟩,
    fun v s hs hb epoch off hold low idle => ⟨_, runBar_of_running _ s hs hb, ?module⟩,
    fun v n e w s hs hb runs epoch pattern => ⟨_, runBar_of_running _ s hs hb, ?stop⟩, fun s hs awaits => ⟨_, run_of_running _ s hs, ?nonce⟩,
    fun s hs awaits => ⟨_, run_of_running _ s hs, ?notLooped⟩⟩
  case good =>
    have mask : (readReg s 0x40004).2 = 0xFFFF0001#32 := rfl
    obtain ⟨-, -, none⟩ := release_word s.err.epoch
    rw [rsvBad, mask, none]
    rfl
  case release =>
    rw [errRelease_current]
    exact ⟨rfl, rfl⟩
  case line =>
    have started : (echoLine v s).err = (echoStart 1 v true s).err ∧ (echoLine v s).port = s.port :=
      echoTry_starts epoch (by simp [dark, hold, low, high]) idle
    simp [started, echoStart]
  case fibre =>
    have started : (echoFibre v s).err = (echoStart 2 v false s).err ∧ (echoFibre v s).port = s.port :=
      echoTry_starts epoch (by simp [dev, up, peer]) idle
    simp [started, echoStart]
  case module =>
    have started : (echoModule v s).err = (echoStart 3 v true s).err ∧ (echoModule v s).port = s.port :=
      echoTry_starts epoch (by simp [off, hold, low]) idle
    simp [started, echoStart]
  case stop => simp [echoStop, runs, epoch, pattern]
  case nonce => simp [awaits]
  case notLooped => simp [awaits, ← BitVec.getLsbD_eq_getElem, getLsbD_setBit]

end Sys2Proof.Machine
end

section
/-!
PROOFS. Supplies and reset inputs (chapter 17, R482 to R485): what a reset of the whole device leaves and what survives it.
-/

-- In sequence: each worker of the elaborator takes its stack from the memory that a check may use.
set_option Elab.async false

namespace Sys2Proof.Machine

section
variable (s : State) {b : ℕ} (c i n : ℕ)

/-! ### What an event leaves: the fields of every other block -/

@[simp] theorem setEv_dev (h : b ≠ 1) : (setEv b i n s).dev = s.dev := by simp [setEv, h]
@[simp] theorem eventBit_dev (h : b ≠ 1) : (eventBit c b i n s).dev = s.dev := by simp [eventBit, h]
@[simp] theorem flag_dev (h : b ≠ 1) : (flag b i n s).dev = s.dev := by simp [flag, h]
@[simp] theorem setEv_dbl (h : b ≠ 3) : (setEv b i n s).dbl = s.dbl := by simp [setEv, h]
@[simp] theorem eventBit_dbl (h : b ≠ 3) : (eventBit c b i n s).dbl = s.dbl := by simp [eventBit, h]
@[simp] theorem flag_dbl (h : b ≠ 3) : (flag b i n s).dbl = s.dbl := by simp [flag, h]
@[simp] theorem setEv_pwr (h : b ≠ 5) : (setEv b i n s).pwr = s.pwr := by simp [setEv, h]
@[simp] theorem eventBit_pwr (h : b ≠ 5) : (eventBit c b i n s).pwr = s.pwr := by simp [eventBit, h]
@[simp] theorem flag_pwr (h : b ≠ 5) : (flag b i n s).pwr = s.pwr := by simp [flag, h]
@[simp] theorem setEv_thm (h : b ≠ 6) : (setEv b i n s).thm = s.thm := by simp [setEv, h]
@[simp] theorem eventBit_thm (h : b ≠ 6) : (eventBit c b i n s).thm = s.thm := by simp [eventBit, h]
@[simp] theorem flag_thm (h : b ≠ 6) : (flag b i n s).thm = s.thm := by simp [flag, h]
@[simp] theorem setEv_port (h : b ≠ 8) : (setEv b i n s).port = s.port := by simp [setEv, h]
@[simp] theorem eventBit_port (h : b ≠ 8) : (eventBit c b i n s).port = s.port := by simp [eventBit, h]
@[simp] theorem flag_port (h : b ≠ 8) : (flag b i n s).port = s.port := by simp [flag, h]
@[simp] theorem setEv_pln (h0 : b ≠ 9) (h1 : b ≠ 10) : (setEv b i n s).pln = s.pln := by simp [setEv, h0, h1]
@[simp] theorem eventBit_pln (h0 : b ≠ 9) (h1 : b ≠ 10) : (eventBit c b i n s).pln = s.pln := by simp [eventBit, h0, h1]
@[simp] theorem flag_pln (h0 : b ≠ 9) (h1 : b ≠ 10) : (flag b i n s).pln = s.pln := by simp [flag, h0, h1]
@[simp] theorem setEv_sq (h : b ≠ 11) : (setEv b i n s).sq = s.sq := by simp [setEv, h]
@[simp] theorem eventBit_sq (h : b ≠ 11) : (eventBit c b i n s).sq = s.sq := by simp [eventBit, h]
@[simp] theorem flag_sq (h : b ≠ 11) : (flag b i n s).sq = s.sq := by simp [flag, h]
@[simp] theorem setEv_ce (h : b ≠ 12) : (setEv b i n s).ce = s.ce := by simp [setEv, h]
@[simp] theorem eventBit_ce (h : b ≠ 12) : (eventBit c b i n s).ce = s.ce := by simp [eventBit, h]
@[simp] theorem flag_ce (h : b ≠ 12) : (flag b i n s).ce = s.ce := by simp [flag, h]
@[simp] theorem setEv_site (h0 : b ≠ 13) (h1 : b ≠ 14) : (setEv b i n s).site = s.site := by simp [setEv, h0, h1]
@[simp] theorem eventBit_site (h0 : b ≠ 13) (h1 : b ≠ 14) : (eventBit c b i n s).site = s.site := by simp [eventBit, h0, h1]
@[simp] theorem flag_site (h0 : b ≠ 13) (h1 : b ≠ 14) : (flag b i n s).site = s.site := by simp [flag, h0, h1]
@[simp] theorem setEv_hbm (h : b ≠ 15) : (setEv b i n s).hbm = s.hbm := by simp [setEv, h]
@[simp] theorem eventBit_hbm (h : b ≠ 15) : (eventBit c b i n s).hbm = s.hbm := by simp [eventBit, h]
@[simp] theorem flag_hbm (h : b ≠ 15) : (flag b i n s).hbm = s.hbm := by simp [flag, h]
@[simp] theorem setEv_mgt (h : b ≠ 16) : (setEv b i n s).mgt = s.mgt := by simp [setEv, h]
@[simp] theorem eventBit_mgt (h : b ≠ 16) : (eventBit c b i n s).mgt = s.mgt := by simp [eventBit, h]
@[simp] theorem flag_mgt (h : b ≠ 16) : (flag b i n s).mgt = s.mgt := by simp [flag, h]
@[simp] theorem setEv_sec (h : b ≠ 17) : (setEv b i n s).sec = s.sec := by simp [setEv, h]
@[simp] theorem eventBit_sec (h : b ≠ 17) : (eventBit c b i n s).sec = s.sec := by simp [eventBit, h]
@[simp] theorem flag_sec (h : b ≠ 17) : (flag b i n s).sec = s.sec := by simp [flag, h]
@[simp] theorem setEv_out (h : b ≠ 6) : (setEv b i n s).out = s.out := by simp [setEv, h]
@[simp] theorem eventBit_out (h : b ≠ 6) : (eventBit c b i n s).out = s.out := by simp [eventBit, h]
@[simp] theorem flag_out (h : b ≠ 6) : (flag b i n s).out = s.out := by simp [flag, h]

@[simp] theorem setEv_err (h : b ≠ 7) : (setEv b i n s).err = s.err := by simp [setEv, h]

end

section
variable (s : State)

/-! ### What stays of the management block -/

/-! The ports and Echo leave the management block. -/

@[simp] theorem endEcho_mgt : (endEcho s).mgt = s.mgt := by simp [endEcho]
@[simp] theorem endEchoFibre_mgt (p : Port) : (endEchoFibre p s).mgt = s.mgt := by simp [endEchoFibre]
@[simp] theorem portDark_mgt (p : Port) (n : ℕ) : (portDark p n s).mgt = s.mgt := by simp [portDark]
@[simp] theorem breakBeam_mgt (b : Beam) : (breakBeam b s).mgt = s.mgt := by simp [breakBeam]
@[simp] theorem portDarkBreak_mgt (p : Port) (n : ℕ) : (portDarkBreak p n s).mgt = s.mgt := by simp [portDarkBreak]
@[simp] theorem portsDark_mgt : (portsDark s).mgt = s.mgt := by simp [portsDark]
@[simp] theorem setDev_mgt (d : DevState) : (setDev d s).mgt = s.mgt := by simp [setDev]
@[simp] theorem umbraEnter_mgt : (umbraEnter s).mgt = s.mgt := by simp [umbraEnter]
@[simp] theorem goDark_mgt : (goDark s).mgt = s.mgt := by simp [goDark]

end

section
variable {s t : State}

/-! ### What a reset of the whole device leaves -/

theorem fusesKept_of_outlasts (h : Outlasts s t) : fusesKept s t := by
  obtain ⟨-, ⟨counter, revoked⟩, same⟩ := h
  exact ⟨counter, revoked, fun idle => Prod.mk.inj (same idle)⟩

theorem flash_of_outlasts (h : Outlasts s t) : t.mgt.flash = s.mgt.flash := look_eq_iff.mp h.1 .flash rfl

theorem aging_of_outlasts (h : Outlasts s t) : t.mgt.aging = s.mgt.aging := look_eq_iff.mp h.1 .aging rfl

theorem fatals_of_outlasts (h : Outlasts s t) : t.mgt.fatals = s.mgt.fatals := look_eq_iff.mp h.1 .fatals rfl

/-- No die of the combs has a gain current. -/
def DiesOff (c : Comb) : Prop := ∀ (g : Fin 4) (d : Fin 5), ((c.group[g.val]).die[d.val]).current = 0

theorem reset_diesOff : DiesOff State.reset.comb := by
  unfold DiesOff
  decide

theorem combOff_diesOff (c : Comb) : DiesOff (combOff c) := by
  intro g d
  simp [combOff]

/-- A reset input held for 10 µs or more resets the device, which stays halted. -/
theorem deviceReset_goes (s : State) : (deviceReset s).dev.state = .umbra ∧ (deviceReset s).comb = State.reset.comb ∧
    (deviceReset s).port = State.reset.port ∧ (deviceReset s).lck = State.reset.lck ∧ running (deviceReset s) = running s := by
  have pins : look (only .supply) (confirmCut s) = look (only .supply) s := by
    unfold confirmCut
    split
    · rw [burn_look _ _ rfl, look_mk]
    · rfl
  have supply := look_only.mp pins
  exact ⟨rfl, rfl, rfl, rfl, running_of_supply (t := deviceReset s) supply⟩

theorem setPin_halts (p : ResetPin) (s : State) : running { s with dev := setPin p true s.dev } = false := by
  cases p with
  | sysRst => simp [running, setPin]
  | perst => simp [running, setPin]

theorem reset_portState (p : Fin 64) : (State.reset.port[p.val]).state = 0 := by simp [State.reset]

/-- A loss of the supplies darkens the device and is shown outside. -/
theorem powerOff_goes (s : State) (on : s.dev.powered = true) : (powerOff s).comb = State.reset.comb ∧ (powerOff s).dev.state = .umbra ∧
    (powerOff s).dev.powered = false ∧ (powerOff s).hbm.mem = [] ∧ .dark ∈ (powerOff s).out := by
  have kept := look_eq_iff.mp (bootCut_look s (resetBase s) (P := fun p => decide (p = .comb ∨ p = .device ∨ p = .reservoir)))
  rw [powerOff, if_neg (by simp [on])]
  exact ⟨kept .comb rfl, kept .device rfl, rfl, kept .reservoir rfl, List.mem_cons_self⟩

end

/-- What stands in the outputs before the program's work is freed stands there after it. -/
theorem freeWork_out {e : Emission} {s : State} (h : e ∈ s.out) : e ∈ (freeWork s).out := by
  unfold freeWork
  dsimp only
  split
  · exact h
  · exact List.mem_append_right _ h

/-- A fault of the auxiliary supply alone turns off the combs, and so does the power-off that may follow. -/
theorem supplyFault_aux {las aux : ℕ} {s : State} (low : aux < 690) (high : 1620 ≤ las) (on : s.dev.powered = true) :
    DiesOff (supplyFault las aux s).comb ∧ .dark ∈ (supplyFault las aux s).out := by
  have warm : ¬las < 1620 := by omega
  unfold supplyFault
  extract_lets s₁ s₂
  have comb : s₂.comb = combOff s.comb := by simp [s₁, s₂, low, warm]
  have dark : .dark ∈ s₂.out := freeWork_out (by simp [s₁, low, warm, emit])
  have powered : s₂.dev.powered = true := by simp [s₁, s₂, low, warm, on]
  split
  · obtain ⟨reset, -, -, -, shown⟩ := powerOff_goes (spend 1 s₂) powered
    exact ⟨reset ▸ reset_diesOff, shown⟩
  · have off : DiesOff s₂.comb := comb ▸ combOff_diesOff s.comb
    exact ⟨off, dark⟩

section
variable (s : State)

/-! ### The boot (R440) -/

theorem fwTo_fwState (v : BitVec 4) : (fwTo v s).mgt.fwState = v := by
  unfold fwTo
  split
  next same => exact same
  · rfl

theorem fwTo_booted (v : BitVec 4) : (fwTo v s).mgt.booted = s.mgt.booted := by
  unfold fwTo
  split
  · rfl
  · rfl

theorem device_of_look {s t : State} (h : look (only .device) t = look (only .device) s) : t.dev.state = s.dev.state := look_only.mp h

/-- The boot has run: the firmware loads, or is in recovery. -/
def Booted (t : State) : Prop := t.mgt.booted = true ∧ (t.mgt.fwState = 1 ∨ t.mgt.fwState = 3)

theorem Booted.of_mgt {s t : State} (hs : Booted s) (h : t.mgt = s.mgt) : Booted t := by
  unfold Booted
  rwa [h]

theorem slotRuns_booted (k : Fin 2) : Booted (slotRuns k s) := by
  unfold slotRuns
  exact ⟨by rw [fwTo_booted]; rfl, .inl (fwTo_fwState ..)⟩

theorem slotTry_booted (k : Fin 2) (h : (slotTry k s).1 = true) : Booted (slotTry k s).2 := by
  unfold slotTry at h ⊢
  dsimp only at h ⊢
  split at h
  · cases h
  next filled =>
  split at h
  next good =>
    rw [if_neg filled, if_pos good]
    exact slotRuns_booted s k
  · cases h

theorem recover_booted : Booted (recover s) := by
  have starts : Booted (logEvent clsReported blkMGT 0x0105 0 (fwTo 3 (onMgt (fun m => { m with booted := true }) s))) :=
    ⟨by rw [logEvent_mgt, fwTo_booted]; rfl, .inr (by rw [logEvent_mgt, fwTo_fwState])⟩
  unfold recover
  dsimp only
  split
  · exact starts
  · exact starts.of_mgt (goDark_mgt _)

theorem recover_umbra (h : s.dev.state = .umbra) : (recover s).dev.state = .umbra := by
  unfold recover
  extract_lets s₁
  have state : s₁.dev.state = .umbra := (device_of_look (by simp [s₁])).trans h
  rwa [if_pos state]

/-- The boot leaves a device in Umbra there. -/
theorem romBoot_umbra (h : s.dev.state = .umbra) : (romBoot s).dev.state = .umbra := by
  unfold romBoot
  extract_lets s₀ s₁
  have read : s₀.dev.state = .umbra := (device_of_look (by simp [s₀])).trans h
  have retired : s₁.dev.state = .umbra := (device_of_look (by simp [s₁])).trans read
  split
  · exact recover_umbra s₀ read
  split
  · exact recover_umbra s₁ retired
  extract_lets s₂ r r₂
  have tried : r.2.dev.state = .umbra := (device_of_look (by simp [r, s₂])).trans retired
  have tried₂ : r₂.2.dev.state = .umbra := (device_of_look (by simp [r₂])).trans tried
  split
  · exact tried
  split
  · exact tried₂
  · exact recover_umbra r₂.2 tried₂

theorem romBoot_booted : Booted (romBoot s) := by
  unfold romBoot
  extract_lets s₀ s₁
  split
  · exact recover_booted s₀
  split
  · exact recover_booted s₁
  extract_lets s₂ r r₂
  split
  next runs => exact slotTry_booted _ _ runs
  split
  next runs => exact slotTry_booted _ _ runs
  · exact recover_booted r₂.2

end

/-- Settles O8: what each supply and each reset input leaves; the fuses and the flash last. -/
theorem suppliesAndResetInputs : Obligations.SuppliesAndResetInputs := by
  unfold Obligations.SuppliesAndResetInputs
  simp only [Fin.getElem_fin, BitVec.ofNat_eq_ofNat]
  refine ⟨fun s off => ⟨_, rfl, ?on⟩, fun s on => ⟨_, rfl, ?off⟩, fun p us s on long => ⟨_, rfl, ?assert⟩, fun p us s short => ?glitch,
    fun p s halted umbra runs => ⟨_, rfl, ?boot⟩, fun p s still => ⟨_, rfl, ?held⟩,
    fun las aux s hs low high => ⟨_, run_of_running _ s hs, ?supply⟩⟩
  case on =>
    have lasts := irqSettle_outlasts (powerOn_outlasts s)
    refine ⟨?_, ?_, ?_, ?_, ?_, flash_of_outlasts lasts, fusesKept_of_outlasts lasts⟩ <;> simp [powerOn, off, resetBase, State.reset]
  case off =>
    have lasts := irqSettle_outlasts (powerOff_outlasts s)
    obtain ⟨comb, umbra, powered, mem, -⟩ := powerOff_goes s on
    have dark : DiesOff (powerOff s).comb := comb ▸ reset_diesOff
    exact ⟨powered, umbra, dark, mem, flash_of_outlasts lasts, fusesKept_of_outlasts lasts⟩
  case assert =>
    have lasts := irqSettle_outlasts (resetAssert_outlasts p us s)
    have asserted : resetAssert p us s = deviceReset { s with dev := setPin p true s.dev } := by
      have powered : (setPin p true s.dev).powered = true := by cases p <;> exact on
      rw [resetAssert, if_neg (by omega)]
      exact if_pos on
    have halted := setPin_halts p s
    have log : { s with dev := setPin p true s.dev }.err.log = s.err.log := rfl
    have waits : { s with dev := setPin p true s.dev }.mgt.fatalPending = s.mgt.fatalPending := rfl
    generalize { s with dev := setPin p true s.dev } = r at asserted halted log waits
    rw [asserted] at lasts ⊢
    obtain ⟨umbra, comb, port, lck, still⟩ := deviceReset_goes r
    have dark : DiesOff (deviceReset r).comb := comb ▸ reset_diesOff
    exact ⟨still.trans halted, umbra, rfl, rfl, rfl, rfl, rfl, fun n => by rw [irqSettle_lck, lck]; exact reset_owner n, rfl,
      fun p => by rw [irqSettle_port, port]; exact reset_portState p, dark, log, flash_of_outlasts lasts,
      aging_of_outlasts lasts, fatals_of_outlasts lasts, waits, fusesKept_of_outlasts lasts⟩
  case glitch =>
    show done (resetAssert p us s) = _
    rw [resetAssert, if_pos short, done]
  case boot =>
    have boots : resetRelease p s = romBoot { s with dev := setPin p false s.dev } := by
      rw [resetRelease]
      exact if_pos (by rw [runs, halted]; rfl)
    have umbra : (setPin p false s.dev).state = .umbra := by cases p <;> exact umbra
    rw [boots]
    obtain ⟨booted, state⟩ := romBoot_booted { s with dev := setPin p false s.dev }
    have kept := look_eq_iff.mp (romBoot_look { s with dev := setPin p false s.dev } (P := fun q => decide (q = .supply ∨ q = .flash)) (by decide))
    exact ⟨(running_of_supply (kept .supply rfl)).trans runs, booted, state, romBoot_umbra _ umbra, kept .flash rfl⟩
  case held =>
    have waits : resetRelease p s = { s with dev := setPin p false s.dev } := by
      rw [resetRelease]
      exact if_neg (by rw [still]; simp)
    have state : (setPin p false s.dev).state = s.dev.state := by cases p <;> rfl
    rw [waits]
    exact ⟨still, rfl, state⟩
  case supply =>
    obtain ⟨off, dark⟩ := supplyFault_aux (s := s) low high (by simp_all [running])
    exact ⟨off, mem_out_irqSettle dark⟩

end Sys2Proof.Machine
end

section
/-!
PROOFS. The events between reset and Penumbra (R399, R435, R440, R487, R489), and what the return to Penumbra leaves.
-/

-- In sequence: each worker of the elaborator takes its stack from the memory that a check may use.
set_option Elab.async false

namespace Sys2Proof.Machine

section
variable (s : State)

/-! ### What a boot keeps -/

/-- What the events of the management side set and a boot leaves: the event bits, the last disagreement and the open update. -/
structure MgtSeen where
  event : BitVec 7
  last : Option ℕ
  update : Option FwUpdate

/-- That part of the management block. -/
def mgtSeen (t : State) : MgtSeen := ⟨t.mgt.event, t.mgt.lastDisagree, t.mgt.update⟩

theorem mgtSeen_of_mgt {s t : State} (h : t.mgt = s.mgt) : mgtSeen t = mgtSeen s := by rw [mgtSeen, h, mgtSeen]

@[simp] theorem onMgt_seen {f : Mgt → Mgt} (event : ∀ m, (f m).event = m.event := by intro; rfl)
    (last : ∀ m, (f m).lastDisagree = m.lastDisagree := by intro; rfl) (update : ∀ m, (f m).update = m.update := by intro; rfl) :
    mgtSeen (onMgt f s) = mgtSeen s := by
  rw [mgtSeen, onMgt, event, last, update, mgtSeen]

@[simp] theorem ite_seen (c : Prop) [Decidable c] (a b : State) : mgtSeen (if c then a else b) = if c then mgtSeen a else mgtSeen b := by
  split <;> rfl

@[simp] theorem foldl_seen {α : Type} (g : State → α → State) (l : List α) (h : ∀ t x, mgtSeen (g t x) = mgtSeen t) :
    mgtSeen (l.foldl g s) = mgtSeen s := foldl_kept mgtSeen g l s h

@[simp] theorem logEvent_seen (c b n i : ℕ) : mgtSeen (logEvent c b n i s) = mgtSeen s := mgtSeen_of_mgt (logEvent_mgt ..)
@[simp] theorem fwTo_seen (v : BitVec 4) : mgtSeen (fwTo v s) = mgtSeen s := by simp [fwTo]
@[simp] theorem bootRead_seen : mgtSeen (bootRead s) = mgtSeen s :=
  onMgt_seen s (fun m => by split <;> rfl) (fun m => by split <;> rfl) fun m => by split <;> rfl
@[simp] theorem onBoot_seen (k : Fin 2) (f : BootSlot → BootSlot) : mgtSeen (onBoot k f s) = mgtSeen s := onMgt_seen s
@[simp] theorem slotFails_seen (k : Fin 2) : mgtSeen (slotFails k s) = mgtSeen s := by simp [slotFails]
@[simp] theorem retirePending_seen (k : Fin 2) : mgtSeen (retirePending s k) = mgtSeen s := by simp [retirePending]
@[simp] theorem slotRuns_seen (k : Fin 2) : mgtSeen (slotRuns k s) = mgtSeen s := by simp [slotRuns]
@[simp] theorem pkgFailBit_seen (n : ℕ) : mgtSeen (pkgFailBit n s) = mgtSeen s := mgtSeen_of_mgt (by simp [pkgFailBit, blkSEC])
@[simp] theorem slotTry_seen (k : Fin 2) : mgtSeen (slotTry k s).2 = mgtSeen s := by simp only [slotTry]; (repeat' split) <;> simp
@[simp] theorem recover_seen : mgtSeen (recover s) = mgtSeen s := by
  rw [recover]
  split
  · simp
  · exact (mgtSeen_of_mgt (goDark_mgt _)).trans (by simp)
@[simp] theorem romBoot_seen : mgtSeen (romBoot s) = mgtSeen s := by simp only [romBoot]; (repeat' split) <;> simp

@[simp] theorem fwTo_img (v : BitVec 4) : (fwTo v s).img = s.img := by simp [fwTo]
@[simp] theorem bootRead_img : (bootRead s).img = s.img := rfl
@[simp] theorem slotFails_img (k : Fin 2) : (slotFails k s).img = s.img := by simp [slotFails]
@[simp] theorem retirePending_img (k : Fin 2) : (retirePending s k).img = s.img := by simp [retirePending]
@[simp] theorem slotTry_img (k : Fin 2) : (slotTry k s).2.img = s.img := by simp only [slotTry, pkgFailBit, slotRuns]; (repeat' split) <;> simp
@[simp] theorem recover_img : (recover s).img = s.img := by simp [recover]
@[simp] theorem romBoot_img : (romBoot s).img = s.img := by simp only [romBoot]; (repeat' split) <;> simp

@[simp] theorem fwTo_lck (v : BitVec 4) : (fwTo v s).lck = s.lck := by simp [fwTo]
@[simp] theorem bootRead_lck : (bootRead s).lck = s.lck := rfl
@[simp] theorem slotFails_lck (k : Fin 2) : (slotFails k s).lck = s.lck := by simp [slotFails]
@[simp] theorem retirePending_lck (k : Fin 2) : (retirePending s k).lck = s.lck := by simp [retirePending]
@[simp] theorem slotTry_lck (k : Fin 2) : (slotTry k s).2.lck = s.lck := by simp only [slotTry, pkgFailBit, slotRuns]; (repeat' split) <;> simp

end

/-- The firmware holds no lock. -/
def FwUnlocked (t : State) : Prop := ∀ n : Fin 32, t.lck.owner[n.val] ≠ 1

section
variable {s t : State}

theorem fwUnlocked_of_lck (h : t.lck = s.lck) (hs : FwUnlocked s) : FwUnlocked t := by
  unfold FwUnlocked
  rwa [h]

/-- Giving locks back leaves the firmware without one. -/
theorem fwUnlocked_of_map {f : BitVec 4 → BitVec 4} (h : t.lck.owner = s.lck.owner.map f) (hf : ∀ o, f o = 1 → o = 1) (hs : FwUnlocked s) :
    FwUnlocked t := by
  intro n
  rw [h, Vector.getElem_map]
  exact fun e => hs n (hf _ e)

theorem clearSiteChannels_fwUnlocked (x : SiteIx) (hs : FwUnlocked s) : FwUnlocked (clearSiteChannels x s) := by
  refine fwUnlocked_of_map (f := fun o => if o = BitVec.ofNat 4 (3 + x.val) then 0 else o) (s := s) ?_ ?_ hs
  · simp [clearSiteChannels]
  · intro o
    split
    · exact nofun
    · exact id

theorem foldl_fwUnlocked {α : Type} (g : State → α → State) (l : List α) (h : ∀ t x, FwUnlocked t → FwUnlocked (g t x)) (hs : FwUnlocked s) :
    FwUnlocked (l.foldl g s) := by
  induction l generalizing s with
  | nil => exact hs
  | cons x r ih => exact ih (h s x hs)

theorem sitesOff_fwUnlocked (hs : FwUnlocked s) : FwUnlocked (sitesOff s) := by
  refine foldl_fwUnlocked _ _ (fun t x ht => ?_) hs
  refine fwUnlocked_of_lck (s := if _ then _ else _) (onSite_lck ..) ?_
  split
  · exact clearSiteChannels_fwUnlocked x ht
  · exact ht

theorem goDark_fwUnlocked (hs : FwUnlocked s) : FwUnlocked (goDark s) := by
  unfold goDark
  refine fwUnlocked_of_lck (umbraEnter_lck _) (sitesOff_fwUnlocked (fwUnlocked_of_lck ?_ hs))
  simp

theorem recover_fwUnlocked (hs : FwUnlocked s) : FwUnlocked (recover s) := by
  unfold recover
  extract_lets s₁
  have kept : FwUnlocked s₁ := fwUnlocked_of_lck (by simp [s₁]) hs
  split
  · exact kept
  · exact goDark_fwUnlocked kept

theorem romBoot_fwUnlocked (hs : FwUnlocked s) : FwUnlocked (romBoot s) := by
  unfold romBoot
  extract_lets s₀ s₁
  have read : FwUnlocked s₀ := fwUnlocked_of_lck (by simp [s₀]) hs
  have retired : FwUnlocked s₁ := fwUnlocked_of_lck (by simp [s₁]) read
  split
  · exact recover_fwUnlocked read
  split
  · exact recover_fwUnlocked retired
  extract_lets s₂ r r₂
  have tried : FwUnlocked r.2 := fwUnlocked_of_lck (by simp [r, s₂]) retired
  have tried₂ : FwUnlocked r₂.2 := fwUnlocked_of_lck (by simp [r₂]) tried
  split
  · exact tried
  split
  · exact tried₂
  · exact recover_fwUnlocked tried₂

end

section
variable (s : State)

/-! ### A reset of the management processor (R435) -/

@[simp] theorem i3cRespond_seen (ws : Vector Word 16) : mgtSeen (i3cRespond ws s) = mgtSeen s := by
  unfold i3cRespond
  split <;> rfl
@[simp] theorem h2fAborted_seen (c : Fin 16) : mgtSeen (h2fAborted s c) = mgtSeen s := mgtSeen_of_mgt (by simp [h2fAborted])
@[simp] theorem d2hAborted_seen (fw : Bool) (x : SiteIx) (c : Fin 8) : mgtSeen (d2hAborted fw x c s) = mgtSeen s :=
  mgtSeen_of_mgt (by simp [d2hAborted, sendResp])
@[simp] theorem diesAborted_seen (fw : Bool) : mgtSeen (diesAborted fw s) = mgtSeen s := by simp [diesAborted]
@[simp] theorem runAborted_seen (p : MgtPath) (c : Fin 16) (n : ℕ) (g : BitVec 16) : mgtSeen (runAborted p c n g s) = mgtSeen s := by
  cases p with
  | pcie => exact mgtSeen_of_mgt (by simp [runAborted])
  | i3c => simp [runAborted, i3cAborted]
@[simp] theorem burn_seen (n : ℕ) : mgtSeen (burn n s) = mgtSeen s := mgtSeen_of_mgt (by simp [burn, blkSEC])
@[simp] theorem confirmCut_seen : mgtSeen (confirmCut s) = mgtSeen s := by
  unfold confirmCut
  split
  · exact burn_seen ..
  · rfl

@[simp] theorem diesAborted_img (fw : Bool) : (diesAborted fw s).img = s.img := by simp [diesAborted, d2hAborted, sendResp]
@[simp] theorem runAborted_img (p : MgtPath) (c : Fin 16) (n : ℕ) (g : BitVec 16) : (runAborted p c n g s).img = s.img := by
  cases p with
  | pcie => simp [runAborted]
  | i3c => simp [runAborted, i3cAborted]

/-- A management reset sets its event bit and drops the open update. -/
theorem mgmtReset_seen : mgtSeen (mgmtReset s) = ⟨setBit s.mgt.event 1, s.mgt.lastDisagree, none⟩ := by
  unfold mgmtReset
  extract_lets s₁ s₂ s₃ s₄ s₅ s₆
  have marked : mgtSeen (flag blkMGT 0 1 (fwTo 4 s)) = { mgtSeen (fwTo 4 s) with event := setBit (mgtSeen (fwTo 4 s)).event 1 } := by
    simp [flag, eventBit, setEv, blkMGT, mgtSeen]
  have h₁ : mgtSeen s₁ = { mgtSeen s with event := setBit s.mgt.event 1 } := by
    rw [fwTo_seen] at marked
    exact (confirmCut_seen _).trans marked
  have h₂ : mgtSeen s₂ = mgtSeen s₁ := by simp [s₂]
  have h₃ : mgtSeen s₃ = mgtSeen s₂ := by simp [s₃, i3cAborted]
  have h₄ : mgtSeen s₄ = mgtSeen s₃ := by simp [s₄]
  have h₅ : mgtSeen s₅ = mgtSeen s₄ := by simp [s₅]
  have h₆ : mgtSeen s₆ = { mgtSeen s₅ with update := none } := rfl
  rw [h₅, h₄, h₃, h₂, h₁] at h₆
  clear_value s₆
  exact (romBoot_seen _).trans h₆

/-- A management reset discards the pending image and keeps the committed one. -/
theorem mgmtReset_img : (mgmtReset s).img.pending = none ∧ (mgmtReset s).img.image = s.img.image := by
  unfold mgmtReset
  extract_lets s₁ s₂ s₃ s₄ s₅ s₆
  have cut : s₁.img = s.img := by simp [s₁, confirmCut, burn]
  have gone : s₅.img = s.img := by simp [s₅, s₄, s₃, s₂, cut, runAborted_img, h2fAborted, i3cAborted]
  clear_value s₅
  have lost : s₆.img.pending = none ∧ s₆.img.image = s₅.img.image := ⟨rfl, rfl⟩
  rw [gone] at lost
  clear_value s₆
  rwa [romBoot_img]

theorem mgmtReset_fwUnlocked : FwUnlocked (mgmtReset s) := by
  unfold mgmtReset
  extract_lets s₁ s₂ s₃ s₄ s₅ s₆
  refine romBoot_fwUnlocked fun n => ?_
  simp only [Vector.getElem_map]
  split
  · exact nofun
  next other => exact other

theorem mgmtReset_booted : Booted (mgmtReset s) := by
  unfold mgmtReset
  extract_lets s₁ s₂ s₃ s₄ s₅ s₆
  exact romBoot_booted _

end

/-- What the return to Penumbra leaves: the parts of the device that neither its ports nor its sites nor the program's run hold. -/
structure Aside where
  host : HostIf
  dbl : Dbl
  mgt : Mgt
  sec : Sec
  thm : Thm
  hbm : Hbm
  comb : Comb
  siteReg : SiteRegs
  ring : Rings
  time : ℕ

/-- Those parts of a state. -/
def aside (t : State) : Aside := ⟨t.host, t.dbl, t.mgt, t.sec, t.thm, t.hbm, t.comb, t.siteReg, t.ring, t.time⟩

@[simp] theorem aside_mk {s : State} {dev : Dev} {mbx : Mbx} {lck : Lck} {err : Err} {pwr : Pwr} {site : Vector Site 6} {wide : Vector WideSite 4}
    {reach : Vector ReachSite 2} {beam : Vector BeamSt 256} {port : Vector PortSt 64} {pln : Pln} {img : Load} {ctl : Ctl} {sq : Sq} {ce : Ce}
    {out : List Emission} {fresh : ℕ} {pending : List Instr} :
    aside ⟨dev, s.host, mbx, s.dbl, lck, err, s.mgt, s.sec, pwr, s.thm, s.hbm, s.comb, site, wide,
      reach, s.siteReg, beam, port, pln, s.ring, img, ctl,
      sq, ce, s.time, out, fresh, pending⟩ = aside s := rfl

theorem aside_congr {s t : State} (host : t.host = s.host := by simp) (dbl : t.dbl = s.dbl := by simp) (mgt : t.mgt = s.mgt := by simp)
    (sec : t.sec = s.sec := by simp) (thm : t.thm = s.thm := by simp) (hbm : t.hbm = s.hbm := by simp) (comb : t.comb = s.comb := by simp)
    (siteReg : t.siteReg = s.siteReg := by simp) (ring : t.ring = s.ring := by simp) (time : t.time = s.time := by simp) : aside t = aside s := by
  rw [aside, host, dbl, mgt, sec, thm, hbm, comb, siteReg, ring, time, aside]

@[simp] theorem ite_aside (c : Prop) [Decidable c] (a b : State) : aside (if c then a else b) = if c then aside a else aside b := by
  split <;> rfl

@[simp] theorem foldl_aside {α : Type} (g : State → α → State) (l : List α) (s : State) (h : ∀ t x, aside (g t x) = aside t) :
    aside (l.foldl g s) = aside s := foldl_kept aside g l s h

section
variable (s : State) (n : ℕ) (b : Beam) (p : Port) (r : BitVec 4) (x : SiteIx)

@[simp] theorem onPort_aside (f : PortSt → PortSt) : aside (onPort p f s) = aside s := aside_congr
@[simp] theorem onSite_aside (f : Site → Site) : aside (onSite x f s) = aside s := aside_congr
@[simp] theorem onBeam_aside (f : BeamSt → BeamSt) : aside (onBeam b f s) = aside s := aside_congr
@[simp] theorem logEvent_aside (c k i : ℕ) : aside (logEvent c k i n s) = aside s := aside_congr
@[simp] theorem sbSend_aside (m : BitVec 8) (l : List Byte) : aside (sbSend x m l s) = aside s := aside_congr
@[simp] theorem onPwr_aside (f : Pwr → Pwr) : aside (onPwr f s) = aside s := aside_congr
@[simp] theorem emit_aside (e : Emission) : aside (emit e s) = aside s := aside_congr
@[simp] theorem noticeAll_aside : aside (noticeAll n s) = aside s := aside_congr
@[simp] theorem fwSend_aside (c : Fin 16) (m : Msg) : aside (fwSend c m s) = aside s := aside_congr
@[simp] theorem onReach_aside (k : ReachIx) (f : ReachSite → ReachSite) : aside (onReach k f s) = aside s := aside_congr
@[simp] theorem imgReply_aside (c : ℕ) (g : BitVec 16) (k : ℕ) (ws : List Word) : aside (imgReply c g k ws s) = aside s := aside_congr
@[simp] theorem lastTokens_aside : aside (lastTokens x s) = aside s := aside_congr
@[simp] theorem clearSiteChannels_aside : aside (clearSiteChannels x s) = aside s := aside_congr
@[simp] theorem endSubs_aside : aside (endSubs p s) = aside s := aside_congr
@[simp] theorem setEv_aside (k i : ℕ) (h₃ : n ≠ 3) (h₆ : n ≠ 6) (h₁₅ : n ≠ 15) (h₁₆ : n ≠ 16) (h₁₇ : n ≠ 17) : aside (setEv n k i s) = aside s :=
  aside_congr (dbl := setEv_dbl s k i h₃) (thm := setEv_thm s k i h₆) (hbm := setEv_hbm s k i h₁₅) (mgt := setEv_mgt s k i h₁₆)
    (sec := setEv_sec s k i h₁₇)
@[simp] theorem flag_aside (k i : ℕ) (h₃ : n ≠ 3) (h₆ : n ≠ 6) (h₁₅ : n ≠ 15) (h₁₆ : n ≠ 16) (h₁₇ : n ≠ 17) : aside (flag n k i s) = aside s := by
  rw [flag, eventBit, logEvent_aside, setEv_aside s n k i h₃ h₆ h₁₅ h₁₆ h₁₇]
@[simp] theorem echoUncorr_aside : aside (echoUncorr s) = aside s := aside_congr
@[simp] theorem endEcho_aside : aside (endEcho s) = aside s := by simp [endEcho]
@[simp] theorem endEchoFibre_aside : aside (endEchoFibre p s) = aside s := by simp [endEchoFibre]
@[simp] theorem pausePort_aside : aside (pausePort p s) = aside s := by simp [pausePort]
@[simp] theorem trainStep_aside : aside (trainStep p r s) = aside s := by simp [trainStep]
@[simp] theorem noteLocked_aside : aside (noteLocked b s) = aside s := by simp [noteLocked]
@[simp] theorem planWithdraw_aside : aside (planWithdraw s) = aside s := by simp [planWithdraw]
@[simp] theorem withdrawArm_aside : aside (withdrawArm s) = aside s := by simp [withdrawArm]
@[simp] theorem penumbraStop_aside : aside (penumbraStop s) = aside s := by simp [penumbraStop]
@[simp] theorem trainPort_aside : aside (trainPort p r s) = aside s := by simp [trainPort]
@[simp] theorem retrainPort_aside : aside (retrainPort p r s) = aside s := by simp [retrainPort]
@[simp] theorem trainAgain_aside : aside (trainAgain p s) = aside s := by simp [trainAgain]
@[simp] theorem setSite_aside : aside (setSite x r s) = aside s := by simp [setSite]
@[simp] theorem wideForget_aside : aside (wideForget x s) = aside s := by unfold wideForget; split <;> simp
@[simp] theorem reachForget_aside : aside (reachForget x s) = aside s := by unfold reachForget; split <;> simp
@[simp] theorem siteReset_aside : aside (siteReset x s) = aside s := by simp [siteReset]
@[simp] theorem setDev_aside (d : DevState) : aside (setDev d s) = aside s := by simp [setDev]
@[simp] theorem startEnds_aside : aside (startEnds s) = aside s := by simp [startEnds]
@[simp] theorem opMove_aside : aside (opMove s) = aside s := by simp [opMove]
@[simp] theorem railWrite_aside (was : Pwr) : aside (railWrite was s) = aside s := by simp [railWrite]
@[simp] theorem restamp_aside : aside (restamp n s) = aside s := by simp [restamp]
@[simp] theorem reasonStep_aside (now : BitVec 11) (c : Fin 11) : aside (reasonStep now s c) = aside s := by simp [reasonStep, blkPWR]
@[simp] theorem pwrSettle_aside (f : State → State) : aside (pwrSettle f s) = aside (f s) := by simp [pwrSettle]
@[simp] theorem penumbraReplies_aside : aside (penumbraReplies s) = aside s := by simp [penumbraReplies]
@[simp] theorem penumbraEffect_aside : aside (penumbraEffect s) = aside s := by
  unfold penumbraEffect
  extract_lets s1 s2 s3 s4
  have h1 : aside s1 = aside s := by simp [s1]
  have h2 : aside s2 = aside s1 := by simp [s2]
  have h3 : aside s3 = aside s2 := by simp [s3]
  have h4 : aside s4 = aside s3 := by simp [s4]
  rw [penumbraReplies_aside, pwrSettle_aside, h4, h3, h2, h1]
@[simp] theorem penumbraCheck_aside : aside (penumbraCheck s) = aside s := by simp [penumbraCheck]

@[simp] theorem stopAfter_aside (t : State) : aside (stopAfter s t) = aside t := by simp [stopAfter]

end

theorem upd_val_of_ne {α : Type} {n : ℕ} (v : Vector α n) {i j : Fin n} (f : α → α) (h : j ≠ i) : (upd v i f)[j.val] = v[j.val] :=
  upd_ne v i j f h.symm

theorem endEcho_umbra {s : State} (h : s.dev.state = .umbra) : (endEcho (emit .dark s)).dev.state = .umbra :=
  (device_of_look ((endEcho_look _).trans (emit_look ..))).trans h

theorem umbraEnter_umbra (s : State) : (umbraEnter s).dev.state = .umbra := by
  unfold umbraEnter
  extract_lets t d pln t₁
  have state : t₁.dev.state = .umbra := by simp only [t₁, setDev_state]
  exact endEcho_umbra state

/-- Going dark ends in Umbra. -/
theorem goDark_umbra (s : State) : (goDark s).dev.state = .umbra := by
  unfold goDark
  extract_lets quiet t
  exact umbraEnter_umbra _

theorem fatalEvent_umbra (n m k : ℕ) (s : State) : (fatalEvent n m k s).dev.state = .umbra := by
  unfold fatalEvent
  extract_lets t r
  exact goDark_umbra _

section
variable (s : State)

/-- A lockstep disagreement as it is first noted. -/
def disagreed : State :=
  setEv blkMGT 0 2 (onMgt (fun m => { m with lastDisagree := some s.time, lockstep := if m.lockstep = 15 then 15 else m.lockstep + 1 }) s)

theorem lockstep_first (h : s.mgt.lastDisagree = none) : lockstep s = logEvent clsRecoverable blkMGT 3 0 (mgmtReset (disagreed s)) := by
  unfold lockstep
  simp only [h, Bool.false_eq_true, if_false]
  rfl

theorem lockstep_second {u : ℕ} (h : s.mgt.lastDisagree = some u) (soon : s.time ≤ u + 1000000) :
    lockstep s = fatalEvent blkMGT 0x0101 0 (mgmtReset (disagreed s)) := by
  unfold lockstep
  simp only [h, decide_eq_true soon, if_true]
  rfl

end

section
variable (s : State)

/-! ### Entering Penumbra -/

theorem setDev_dev {d : DevState} (h : s.dev.state ≠ d) :
    (setDev d s).dev = { s.dev with state := d, epoch := s.dev.epoch + 1, event := setBit s.dev.event 1 } := by
  simp [setDev, h, flag, eventBit, setEv]

@[simp] theorem startEnds_dev : (startEnds s).dev = s.dev := by simp [startEnds]
@[simp] theorem opMove_dev : (opMove s).dev = s.dev := by simp [opMove]
@[simp] theorem railWrite_dev (w : Pwr) : (railWrite w s).dev = s.dev := by simp [railWrite]
@[simp] theorem restamp_dev (n : ℕ) : (restamp n s).dev = s.dev := rfl
@[simp] theorem reasonStep_dev (now : BitVec 11) (c : Fin 11) : (reasonStep now s c).dev = s.dev := by simp [reasonStep, blkPWR]
@[simp] theorem pwrSettle_dev (f : State → State) : (pwrSettle f s).dev = (f s).dev := by simp [pwrSettle]

@[simp] theorem setStack_dev (h : Stack) (n : BitVec 4) (r : BitVec 2) : (setStack h n r s).dev = s.dev := by simp [setStack]
@[simp] theorem penumbraReplies_dev : (penumbraReplies s).dev = s.dev := by simp [penumbraReplies]
@[simp] theorem penumbraReplies_hbm : (penumbraReplies s).hbm = s.hbm := congrArg Aside.hbm (penumbraReplies_aside s)
@[simp] theorem stopAfter_hbm (t : State) : (stopAfter s t).hbm = t.hbm := congrArg Aside.hbm (stopAfter_aside s t)
theorem penumbraReplies_penumbra : (penumbraReplies s).img.penumbra = [] := by simp [penumbraReplies]

/-- Setting a stack's state sets no other stack's. -/
theorem setStack_state (h k : Stack) (n : BitVec 4) (r : BitVec 2) :
    ((setStack h n r s).hbm.stack[k.val]).state = if k = h then n else (s.hbm.stack[k.val]).state := by
  have row : (upd s.hbm.stack h fun q => { q with state := n, rate := r })[k.val].state = if k = h then n else (s.hbm.stack[k.val]).state := by
    split
    next same => rw [same, upd_val_self]
    next other => rw [upd_val_of_ne _ _ other]
  unfold setStack
  split
  · exact row
  · exact row

end

section
variable (s : State) {g : CombGroup}

/-! ### Comb groups -/

theorem vmk_at {α : Type} {n : ℕ} (f : Fin n → α) {i : ℕ} (h : i < n) : (vmk n f)[i] = f ⟨i, h⟩ := vmk_val f ⟨i, h⟩

@[simp] theorem darkFor_comb (n : ℕ) (p : Port) : (darkFor n s p).comb = s.comb := by
  unfold darkFor
  dsimp only
  split
  · simp
  · split <;> simp

/-- The die of a position's own place. -/
theorem ownDie_val (d : Fin 4) : (fin! 5 d.val).val = d.val := Nat.mod_eq_of_lt (by omega)

theorem fedBy_of_diePos {q : CGroup} {d : Fin 4} (h : diePos q (fin! 5 d.val) = some d) : fedBy q d = fin! 5 d.val := by
  have own : q.spareAt ≠ some d := by
    intro spare
    simp [diePos, ownDie_val, spare] at h
  exact (if_neg own).trans (Fin.ext (ownDie_val d).symm)

section
variable {s} {d : CombDie} {y : Die}

/-- Without a swapped-out die, D4 stands by. -/
theorem dieStart_spare (none : swappedPos s g = none) (off : y.state = .off) : (dieStart s g 4 y).state = .standby := by
  simp [dieStart, none, off]

theorem dieStart_out {k : Fin 4} (out : swappedPos s g = some k) (off : y.state = .off) (own : d.val = k.val) :
    (dieStart s g d y).state = .swappedOut := by
  simp [dieStart, out, off, own]

/-- Every other die warms at its logged gain current. -/
theorem dieStart_warms (off : y.state = .off) (here : ∀ k, swappedPos s g = some k → k.val ≠ d.val) (spare : d.val = 4 → swappedPos s g ≠ none) :
    (dieStart s g d y).state = .warming ∧ (dieStart s g d y).current = loggedGain s g d := by
  unfold dieStart
  dsimp only
  rw [if_neg (not_not.mpr off), if_neg, if_neg]
  · exact ⟨rfl, rfl⟩
  · exact fun h => spare h.1 h.2
  · cases out : swappedPos s g with
    | none => simp
    | some k => simpa using here k out

end

theorem posExhausted_comb (k : Fin 4) : (posExhausted g k s).comb = (onGroup g (fun q => { q with exhausted := true }) s).comb := by
  unfold posExhausted
  rw [foldl_comb _ _ _ fun _ _ => onPort_comb ..]

@[simp] theorem groupCheck_die (k : CombGroup) : ((groupCheck g s).comb.group[k.val]).die = (s.comb.group[k.val]).die := by
  unfold groupCheck
  dsimp only
  split
  · by_cases same : k = g
    · subst same
      simp [onGroup]
    · simp [onGroup, upd_val_of_ne _ _ same]
  · rfl

/-- A die that fails emits nothing more. -/
theorem dieFails_failed {d : CombDie} {k : Fin 4} (pos : diePos (s.comb.group[g.val]) d = some k)
    (lit : ((s.comb.group[g.val]).die[d.val]).state = .active ∨ ((s.comb.group[g.val]).die[d.val]).state = .warming) :
    (((dieFails g d s).comb.group[g.val]).die[d.val]).state = .failed ∧ (((dieFails g d s).comb.group[g.val]).die[d.val]).current = 0 := by
  have fails : ¬(((s.comb.group[g]).die[d]).state ≠ .active ∧ ((s.comb.group[g]).die[d]).state ≠ .warming) := by simpa [or_iff_not_imp_left] using lit
  unfold dieFails
  simp only [Fin.getElem_fin, pos] at fails ⊢
  simp only [if_neg fails]
  split
  · simp [onDie]
  · simp [posExhausted_comb, onDie]

end

/-- Settles O9: what each event between reset and Penumbra leaves in the blocks that show it. -/
theorem bringUpEvents : Obligations.BringUpEvents := by
  unfold Obligations.BringUpEvents
  simp only [Fin.getElem_fin, BitVec.ofNat_eq_ofNat]
  refine ⟨fun s hs loading arm => ⟨_, run_of_running _ s hs, ?ready⟩, fun s hs loading => ⟨_, run_of_running _ s hs, ?watchdog⟩,
    fun s hs first => ⟨_, run_of_running _ s hs, ?disagree⟩, fun u s hs before soon => ⟨_, run_of_running _ s hs, ?again⟩,
    fun s hs umbra fatal tripped fw => ⟨_, run_of_running _ s hs, ?penumbra⟩,
    fun g s hs lit off turn dies => ⟨_, run_of_running _ s hs, ?group⟩, fun g s hs off turn => ⟨_, run_of_running _ s hs, ?early⟩,
    fun g d s hs started warming pos => ⟨_, run_of_running _ s hs, ?timeout⟩, fun h r s hs training => ⟨_, run_of_running _ s hs, ?trained⟩,
    fun h s hs training => ⟨_, run_of_running _ s hs, ?failed⟩, fun h s hs ready => ⟨_, run_of_running _ s hs, ?lost⟩⟩
  case ready => simp [fwReady, loading, fwLoading, fwRunning, fwTo, arm, flag, eventBit, setEv, blkMGT, getLsbD_setBit]
  case watchdog =>
    simp only [if_pos (show s.mgt.fwState = fwLoading from loading)]
    have seen := mgmtReset_seen s
    obtain ⟨-, state⟩ := mgmtReset_booted s
    obtain ⟨pending, image⟩ := mgmtReset_img s
    have free := mgmtReset_fwUnlocked s
    have lasts := logEvent_mgt clsRecoverable blkMGT 0x0100 0 (mgmtReset s)
    obtain ⟨event, -, update⟩ := MgtSeen.mk.inj seen
    simp only [irqSettle_mgt, irqSettle_img, irqSettle_lck, logEvent_mgt, logEvent_img, logEvent_lck]
    exact ⟨by simp [event, getLsbD_setBit], state, update, pending, image, free⟩
  case disagree =>
    rw [lockstep_first s first]
    obtain ⟨event, last, -⟩ := MgtSeen.mk.inj (mgmtReset_seen (disagreed s))
    obtain ⟨-, state⟩ := mgmtReset_booted (disagreed s)
    have fatal : isFatal (mgmtReset (disagreed s)) = isFatal s :=
      isFatal_of_look ((mgmtReset_look _ (by decide) rfl).trans ((setEv_look ..).trans (by simp)))
    have noted : (disagreed s).mgt.event = setBit s.mgt.event 2 ∧ (disagreed s).mgt.lastDisagree = some s.time := by simp [disagreed, setEv, blkMGT]
    generalize mgmtReset (disagreed s) = t at *
    simp only [irqSettle_mgt, irqSettle_dev, logEvent_mgt, logEvent_dev]
    exact ⟨last.trans noted.2, by simp [event, noted, getLsbD_setBit], state, fatal⟩
  case again =>
    rw [lockstep_second s before soon]
    generalize mgmtReset (disagreed s) = t
    have fatal := fatalEvent_isFatal blkMGT 0x0101 0 t
    have umbra := fatalEvent_umbra blkMGT 0x0101 0 t
    generalize fatalEvent blkMGT 0x0101 0 t = t at *
    exact ⟨fatal, umbra⟩
  case penumbra => simp [penumbraEntry, umbra, fatal, tripped, fw, fwRunning, setDev_dev,
      setStack_state, penumbraReplies_penumbra, Fin.forall_fin_two]
  case group =>
    have others (k : Fin 4) (h : k ≠ g) (f : CGroup → CGroup) : (upd s.comb.group g f)[k.val] = s.comb.group[k.val] := upd_val_of_ne _ f h
    have started : (combGroupStart g s).comb.group[g.val] = { s.comb.group[g.val] with
        started := some s.time, spareAt := (s.comb.group[g.val]).spareAt <|> swappedPos s g
        die := vmk 5 fun d => dieStart s g d (s.comb.group[g.val]).die[d.val] } := by
      simp [combGroupStart, lit, off, turn]
    simp only [irqSettle_comb, started, vmk_at]
    refine ⟨trivial, fun none => ⟨dieStart_spare none (dies 4), fun d own => dieStart_warms (dies d) ?_ ?_⟩,
      fun k out => ⟨dieStart_out out (dies _) (ownDie_val k), dieStart_warms (dies 4) ?_ ?_⟩,
      fun k other => ?_⟩
    · simp [none]
    · simp [own.ne]
    · simp [out, k.isLt.ne]
    · simp [out]
    · simp [combGroupStart, lit, off, turn, others k other]
  case early => simp [combGroupStart, turn]
  case timeout =>
    have fed := fedBy_of_diePos pos
    simp [combLockTimeout, fed, started, warming, dieFails_failed s pos (.inr warming)]
  case trained => simp [stackTrained, training, setStack, onStack, stReady]
  case failed => simp [stackTrained, training, stackFail, setStack, onStack, stFailed, eventBit, blkHBM, setEv, getLsbD_setBit]
  case lost => simp [stopping, ready, stReady, stackFail, setStack, onStack, stFailed, eventBit, blkHBM, setEv, getLsbD_setBit]

end Sys2Proof.Machine
end

section
/-!
PROOFS. Lit entry, its end and the return to Penumbra (R491, R493, R494).
-/

-- In sequence: each worker of the elaborator takes its stack from the memory that a check may use.
set_option Elab.async false

namespace Sys2Proof.Machine

/-- The first place of a vector is the place 0. -/
@[simp] theorem upd_zero {α : Type} {n : ℕ} [NeZero n] (v : Vector α n) (f : α → α) (h : 0 < n) : (upd v 0 f)[0]'h = f (v[0]'h) :=
  upd_val_self v 0 f

section
variable (s : State)

/-! ### What training and the start of a plan leave of the ports -/

/-- The state and the training step of a port. -/
def trainSeen (p : Port) (t : State) : BitVec 4 × BitVec 4 := ((t.port[p.val]).state, (t.port[p.val]).step)

theorem trainSeen_of_port {s t : State} (h : t.port = s.port) (p : Port) : trainSeen p t = trainSeen p s := by rw [trainSeen, h, trainSeen]

theorem onPort_trainSeen (q : Port) (f : PortSt → PortSt) (p : Port) (hf : p = q → (f (s.port[q.val])).state = (s.port[q.val]).state ∧
    (f (s.port[q.val])).step = (s.port[q.val]).step) : trainSeen p (onPort q f s) = trainSeen p s := by
  by_cases same : p = q
  · subst same
    obtain ⟨state, step⟩ := hf rfl
    simp [trainSeen, onPort, state, step]
  · simp [trainSeen, onPort, upd_val_of_ne _ _ same]

variable (p q : Port)

/-! Beams and plans leave the ports' states. -/

@[simp] theorem pushCtl_port (b : Beam) (n : BitVec 4) (w : List Byte) : (pushCtl b n w s).port = s.port := by simp [pushCtl]
@[simp] theorem beamOpen_port (b : Beam) : (beamOpen b s).port = s.port := by simp [beamOpen]
@[simp] theorem resume_port (b : Beam) : (resume b s).port = s.port := by simp [resume]
@[simp] theorem putRequest_port (b : Beam) (m : LineSet × LineSet) : (putRequest b m s).port = s.port := by
  unfold putRequest; split <;> simp
@[simp] theorem beamFirst_port (b : Beam) : (beamFirst b s).port = s.port := by simp [beamFirst]
@[simp] theorem tryResume_port (b : Beam) : (tryResume b s).port = s.port := by simp [tryResume]
@[simp] theorem askRetrain_port (b : Beam) : (askRetrain b s).port = s.port := by simp [askRetrain]

@[simp] theorem onLine_trainSeen (l : Line) (f : LineSt → LineSt) : trainSeen p (onLine q l f s) = trainSeen p s :=
  onPort_trainSeen s q _ p fun _ => ⟨rfl, rfl⟩

@[simp] theorem foldl_trainSeen {α : Type} (g : State → α → State) (l : List α) (h : ∀ t x, trainSeen p (g t x) = trainSeen p t) :
    trainSeen p (l.foldl g s) = trainSeen p s := foldl_kept (trainSeen p) g l s h

@[simp] theorem ite_trainSeen (c : Prop) [Decidable c] (a b : State) : trainSeen p (if c then a else b) =
    if c then trainSeen p a else trainSeen p b := by
  split <;> rfl

@[simp] theorem trainSeen_mk {dev : Dev} {host : HostIf} {mbx : Mbx} {dbl : Dbl} {lck : Lck} {err : Err} {mgt : Mgt} {sec : Sec} {pwr : Pwr} {thm :
    Thm}
    {hbm : Hbm} {comb : Comb} {site : Vector Site 6} {wide : Vector WideSite 4} {reach : Vector ReachSite 2} {siteReg : SiteRegs}
    {beam : Vector BeamSt 256} {pln : Pln} {ring : Rings} {img : Load} {ctl : Ctl} {sq : Sq} {ce : Ce} {time : ℕ} {out : List Emission}
    {fresh : ℕ} {pending : List Instr} :
    trainSeen p ⟨dev, host, mbx, dbl, lck, err, mgt, sec, pwr, thm, hbm, comb, site, wide, reach, siteReg, beam, s.port, pln, ring, img, ctl, sq, ce,
      time, out, fresh, pending⟩ = trainSeen p s := rfl

@[simp] theorem flag_trainSeen (b i n : ℕ) (h : b ≠ 8) : trainSeen p (flag b i n s) = trainSeen p s := trainSeen_of_port (flag_port s i n h) p
@[simp] theorem echoUncorr_trainSeen : trainSeen p (echoUncorr s) = trainSeen p s := by
  unfold echoUncorr
  exact foldl_trainSeen s p _ _ fun t n => onLine_trainSeen t p _ _ _
@[simp] theorem endEcho_trainSeen : trainSeen p (endEcho s) = trainSeen p s := by simp [endEcho]
@[simp] theorem endEchoFibre_trainSeen : trainSeen p (endEchoFibre q s) = trainSeen p s := by simp [endEchoFibre]
@[simp] theorem endSubs_trainSeen : trainSeen p (endSubs q s) = trainSeen p s := trainSeen_of_port (endSubs_port ..) p
@[simp] theorem pausePort_trainSeen : trainSeen p (pausePort q s) = trainSeen p s :=
  trainSeen_of_port (foldl_port _ _ _ fun _ _ => onBeam_port ..) p
@[simp] theorem logEvent_trainSeen (c k n i : ℕ) : trainSeen p (logEvent c k n i s) = trainSeen p s := trainSeen_of_port (logEvent_port ..) p
@[simp] theorem breakBeam_trainSeen (b : Beam) : trainSeen p (breakBeam b s) = trainSeen p s := by
  have marked (i n : ℕ) (t : State) : trainSeen p (setEv 8 i n t) = trainSeen p t := onPort_trainSeen t _ _ p fun _ => ⟨rfl, rfl⟩
  unfold breakBeam
  split
  · rfl
  · dsimp only
    rw [trainSeen_of_port (abortIf_port ..), eventBit, logEvent_trainSeen, trainSeen_of_port (setEv_port _ _ _ (by decide)), marked,
      trainSeen_of_port (onBeam_port ..)]
@[simp] theorem lightBeam_trainSeen (b : Beam) : trainSeen p (lightBeam b s) = trainSeen p s := by
  have kept {t : State} (h : t.port = s.port) : trainSeen p t = trainSeen p s := trainSeen_of_port h p
  have masked (f : BeamSt → BeamSt) : trainSeen p (onBeam b f s) = trainSeen p s := kept (onBeam_port ..)
  unfold lightBeam
  simp [kept, masked]
@[simp] theorem lightPort_trainSeen : trainSeen p (lightPort q s) = trainSeen p s := by
  unfold lightPort
  split
  · rfl
  split
  · exact trainSeen_of_port (foldl_port _ _ _ fun _ _ => onBeam_port ..) p
  · exact foldl_trainSeen s p _ _ fun t b => lightBeam_trainSeen t p b
@[simp] theorem setShed_trainSeen : trainSeen p (setShed q s) = trainSeen p s :=
  trainSeen_of_port (foldl_port _ _ _ fun _ _ => onBeam_port ..) p

/-- A port that retrains from a step is in training there; no other port is touched. -/
theorem trainPort_trainSeen (k : BitVec 4) : trainSeen p (trainPort q k s) = if p = q then (2, k) else trainSeen p s := by
  have quiet : trainSeen p (pausePort q (endEchoFibre q (endSubs q s))) = trainSeen p s := by simp
  unfold trainPort
  generalize pausePort q (endEchoFibre q (endSubs q s)) = t at quiet
  split
  next same =>
    subst same
    simp [trainStep, trainSeen, emit, onPort]
  next other =>
    exact (onPort_trainSeen _ q _ p fun same => absurd same other).trans ((onPort_trainSeen _ q _ p fun same => absurd same other).trans quiet)

theorem retrainPort_trainSeen (k : BitVec 4) :
    trainSeen p (retrainPort q k s) = if p = q ∧ portUp s.port[q.val] = true then (2, k) else trainSeen p s := by
  unfold retrainPort
  simp only [Fin.getElem_fin]
  split
  next down => rw [if_neg fun h => by rw [h.2] at down; cases down]
  next up =>
    rw [logEvent_trainSeen, trainPort_trainSeen, onPort_trainSeen s q _ p fun _ => ⟨rfl, rfl⟩]
    simp [eq_true_of_ne_false up]

theorem planInstall_trainSeen (r : PlanRec) : trainSeen p (planInstall r s) = trainSeen p s := by
  unfold planInstall
  refine (foldl_trainSeen _ p _ _ fun t q => ?_).trans ?_
  · rw [lightPort_trainSeen, setShed_trainSeen, onPort_trainSeen t q _ p fun _ => ⟨rfl, rfl⟩]
  · simp [trainSeen]

end

section
variable (s : State) (n : ℕ) (b : Beam) (p : Port) (r : BitVec 4) (x : SiteIx) (raw : List Byte) (k : PlanRec)

/-! ### What ports, plans and sites leave of the device block, the controller and the plan registers -/

@[simp] theorem pausePort_dev : (pausePort p s).dev = s.dev := foldl_dev _ _ _ fun _ _ => onBeam_dev ..
@[simp] theorem endEcho_dev : (endEcho s).dev = s.dev := by simp [endEcho]
@[simp] theorem endEchoFibre_dev : (endEchoFibre p s).dev = s.dev := by simp [endEchoFibre]
@[simp] theorem trainStep_dev : (trainStep p r s).dev = s.dev := by simp [trainStep]
@[simp] theorem trainPort_dev : (trainPort p r s).dev = s.dev := by simp [trainPort]
@[simp] theorem retrainPort_dev : (retrainPort p r s).dev = s.dev := by simp [retrainPort]
@[simp] theorem trainAgain_dev : (trainAgain p s).dev = s.dev := by simp [trainAgain]
@[simp] theorem breakBeam_dev : (breakBeam b s).dev = s.dev := by simp [breakBeam]
@[simp] theorem pushCtl_dev : (pushCtl b r raw s).dev = s.dev := by simp [pushCtl]
@[simp] theorem beamOpen_dev : (beamOpen b s).dev = s.dev := by simp [beamOpen]
@[simp] theorem resume_dev : (resume b s).dev = s.dev := by simp [resume]
@[simp] theorem putRequest_dev (m : LineSet × LineSet) : (putRequest b m s).dev = s.dev := by
  unfold putRequest; split <;> simp
@[simp] theorem beamFirst_dev : (beamFirst b s).dev = s.dev := by simp [beamFirst]
@[simp] theorem tryResume_dev : (tryResume b s).dev = s.dev := by simp [tryResume]
@[simp] theorem askRetrain_dev : (askRetrain b s).dev = s.dev := by simp [askRetrain]
@[simp] theorem lightBeam_dev : (lightBeam b s).dev = s.dev := by simp [lightBeam]
@[simp] theorem lightPort_dev : (lightPort p s).dev = s.dev := by
  unfold lightPort
  split
  · rfl
  split
  · exact foldl_dev _ _ _ fun _ _ => onBeam_dev ..
  · exact foldl_dev _ _ _ fun t b => lightBeam_dev t b
@[simp] theorem setShed_dev : (setShed p s).dev = s.dev := foldl_dev _ _ _ fun _ _ => onBeam_dev ..
@[simp] theorem planInstall_dev (r : PlanRec) : (planInstall r s).dev = s.dev := by simp [planInstall]
@[simp] theorem noteLocked_dev : (noteLocked b s).dev = s.dev := by simp [noteLocked]
@[simp] theorem planWithdraw_dev : (planWithdraw s).dev = s.dev := by simp [planWithdraw]
@[simp] theorem setSite_dev : (setSite x r s).dev = s.dev := by simp [setSite]
@[simp] theorem wideForget_dev : (wideForget x s).dev = s.dev := by unfold wideForget; split <;> simp
@[simp] theorem reachForget_dev : (reachForget x s).dev = s.dev := by unfold reachForget; split <;> simp
@[simp] theorem siteReset_dev : (siteReset x s).dev = s.dev := by simp [siteReset]
@[simp] theorem withdrawArm_dev : (withdrawArm s).dev = s.dev := by simp [withdrawArm]
@[simp] theorem penumbraStop_dev : (penumbraStop s).dev = s.dev := by simp [penumbraStop]

@[simp] theorem pausePort_ctl : (pausePort p s).ctl = s.ctl := foldl_ctl _ _ _ fun _ _ => onBeam_ctl ..
@[simp] theorem trainStep_ctl : (trainStep p r s).ctl = s.ctl := by simp [trainStep]
@[simp] theorem trainPort_ctl : (trainPort p r s).ctl = s.ctl := by simp [trainPort]
@[simp] theorem retrainPort_ctl : (retrainPort p r s).ctl = s.ctl := by simp [retrainPort]
@[simp] theorem trainAgain_ctl : (trainAgain p s).ctl = s.ctl := by simp [trainAgain]
@[simp] theorem setSite_ctl : (setSite x r s).ctl = s.ctl := by simp [setSite]
@[simp] theorem wideForget_ctl : (wideForget x s).ctl = s.ctl := by unfold wideForget; split <;> simp
@[simp] theorem reachForget_ctl : (reachForget x s).ctl = s.ctl := by unfold reachForget; split <;> simp
@[simp] theorem siteReset_ctl : (siteReset x s).ctl = s.ctl := by simp [siteReset]
@[simp] theorem startEnds_ctl : (startEnds s).ctl = s.ctl := by simp [startEnds]
@[simp] theorem opMove_ctl : (opMove s).ctl = s.ctl := by simp [opMove]
@[simp] theorem railWrite_ctl (was : Pwr) : (railWrite was s).ctl = s.ctl := by simp [railWrite]
@[simp] theorem restamp_ctl : (restamp n s).ctl = s.ctl := by simp [restamp]
@[simp] theorem reasonStep_ctl (now : BitVec 11) (c : Fin 11) : (reasonStep now s c).ctl = s.ctl := by simp [reasonStep, blkPWR]
@[simp] theorem pwrSettle_ctl (f : State → State) : (pwrSettle f s).ctl = (f s).ctl := by simp [pwrSettle]
@[simp] theorem penumbraReplies_ctl : (penumbraReplies s).ctl = s.ctl := by simp [penumbraReplies]
@[simp] theorem noteLocked_ctl : (noteLocked b s).ctl = s.ctl := by simp [noteLocked]
@[simp] theorem planWithdraw_ctl : (planWithdraw s).ctl = s.ctl := by simp [planWithdraw]

@[simp] theorem pausePort_pln : (pausePort p s).pln = s.pln := foldl_pln _ _ _ fun _ _ => onBeam_pln ..
@[simp] theorem endEcho_pln : (endEcho s).pln = s.pln := by simp [endEcho]
@[simp] theorem endEchoFibre_pln : (endEchoFibre p s).pln = s.pln := by simp [endEchoFibre]
@[simp] theorem trainStep_pln : (trainStep p r s).pln = s.pln := by simp [trainStep]
@[simp] theorem trainPort_pln : (trainPort p r s).pln = s.pln := by simp [trainPort]
@[simp] theorem retrainPort_pln : (retrainPort p r s).pln = s.pln := by simp [retrainPort]
@[simp] theorem trainAgain_pln : (trainAgain p s).pln = s.pln := by simp [trainAgain]
@[simp] theorem setSite_pln : (setSite x r s).pln = s.pln := by simp [setSite]
@[simp] theorem wideForget_pln : (wideForget x s).pln = s.pln := by unfold wideForget; split <;> simp
@[simp] theorem reachForget_pln : (reachForget x s).pln = s.pln := by unfold reachForget; split <;> simp
@[simp] theorem siteReset_pln : (siteReset x s).pln = s.pln := by simp [siteReset]
@[simp] theorem startEnds_pln : (startEnds s).pln = s.pln := by simp [startEnds]
@[simp] theorem opMove_pln : (opMove s).pln = s.pln := by simp [opMove]
@[simp] theorem railWrite_pln (was : Pwr) : (railWrite was s).pln = s.pln := by simp [railWrite]
@[simp] theorem restamp_pln : (restamp n s).pln = s.pln := by simp [restamp]
@[simp] theorem reasonStep_pln (now : BitVec 11) (c : Fin 11) : (reasonStep now s c).pln = s.pln := by simp [reasonStep, blkPWR]
@[simp] theorem pwrSettle_pln (f : State → State) : (pwrSettle f s).pln = (f s).pln := by simp [pwrSettle]
@[simp] theorem penumbraReplies_pln : (penumbraReplies s).pln = s.pln := by simp [penumbraReplies]

@[simp] theorem setSite_port : (setSite x r s).port = s.port := by simp [setSite]
@[simp] theorem wideForget_port : (wideForget x s).port = s.port := by unfold wideForget; split <;> simp
@[simp] theorem reachForget_port : (reachForget x s).port = s.port := by unfold reachForget; split <;> simp
@[simp] theorem siteReset_port : (siteReset x s).port = s.port := by simp [siteReset]
@[simp] theorem pausePort_site : (pausePort p s).site = s.site := foldl_site _ _ _ fun _ _ => onBeam_site ..
@[simp] theorem endEcho_site : (endEcho s).site = s.site := by simp [endEcho]
@[simp] theorem endEchoFibre_site : (endEchoFibre p s).site = s.site := by simp [endEchoFibre]
@[simp] theorem trainStep_site : (trainStep p r s).site = s.site := by simp [trainStep]
@[simp] theorem trainPort_site : (trainPort p r s).site = s.site := by simp [trainPort]
@[simp] theorem retrainPort_site : (retrainPort p r s).site = s.site := by simp [retrainPort]
@[simp] theorem pushCtl_site : (pushCtl b r raw s).site = s.site := by simp [pushCtl]
@[simp] theorem beamOpen_site : (beamOpen b s).site = s.site := by simp [beamOpen]
@[simp] theorem resume_site : (resume b s).site = s.site := by simp [resume]
@[simp] theorem putRequest_site (m : LineSet × LineSet) : (putRequest b m s).site = s.site := by
  unfold putRequest; split <;> simp
@[simp] theorem beamFirst_site : (beamFirst b s).site = s.site := by simp [beamFirst]
@[simp] theorem tryResume_site : (tryResume b s).site = s.site := by simp [tryResume]
@[simp] theorem askRetrain_site : (askRetrain b s).site = s.site := by simp [askRetrain]
@[simp] theorem wideForget_site : (wideForget x s).site = s.site := by unfold wideForget; split <;> simp
@[simp] theorem reachForget_site : (reachForget x s).site = s.site := by unfold reachForget; split <;> simp

end

/-- Each place of a fold over all places has its one turn, and keeps what it gives. -/
theorem foldl_turns {n : ℕ} {β : Type} (see : Fin n → State → β) (g : State → Fin n → State) (turn : Fin n → β → β)
    (hg : ∀ t i j, see i (g t j) = if i = j then turn i (see i t) else see i t) (s : State) (i : Fin n) :
    see i ((fins n).foldl g s) = turn i (see i s) := by
  have turns (l : List (Fin n)) (hl : l.Nodup) (s : State) : see i (l.foldl g s) = if i ∈ l then turn i (see i s) else see i s := by
    induction l generalizing s with
    | nil => simp
    | cons j r ih =>
      obtain ⟨fresh, nodup⟩ := List.nodup_cons.mp hl
      rw [List.foldl_cons, ih nodup, hg]
      by_cases same : i = j
      · subst same
        simp [fresh]
      · simp [same]
  exact (turns _ (List.nodup_finRange n) s).trans (if_pos (mem_fins i))

section
variable (s : State)

@[simp] theorem applyDue_dev : (applyDue s).dev = s.dev := by simp [applyDue]
@[simp] theorem applyDue_penumbra : (applyDue s).img.penumbra = s.img.penumbra := by
  unfold applyDue
  split <;> rfl
@[simp] theorem applyDue_ctl : (applyDue s).ctl = s.ctl := by simp [applyDue]

theorem applyDue_of_not_armed (h : s.img.state ≠ .armed) : applyDue s = s := if_neg (by simp [applyReady, h])

theorem withdrawArm_of_not_armed (h : s.img.state ≠ .armed) : withdrawArm s = s := if_neg h

end

section
variable (s : State)

/-! ### The states of the sites -/

/-- The state of a site. -/
def siteState (x : SiteIx) (t : State) : BitVec 4 := (t.site[x.val]).state

theorem siteState_of_site {s t : State} (h : t.site = s.site) (x : SiteIx) : siteState x t = siteState x s := by rw [siteState, h, siteState]

theorem onSite_siteState (y : SiteIx) (f : Site → Site) (x : SiteIx) (hf : x = y → (f (s.site[y.val])).state = (s.site[y.val]).state) :
    siteState x (onSite y f s) = siteState x s := by
  by_cases same : x = y
  · subst same
    simp [siteState, onSite, hf rfl]
  · simp [siteState, onSite, upd_val_of_ne _ _ same]

variable (x : SiteIx)

@[simp] theorem foldl_siteState {α : Type} (g : State → α → State) (l : List α) (h : ∀ t y, siteState x (g t y) = siteState x t) :
    siteState x (l.foldl g s) = siteState x s := foldl_kept (siteState x) g l s h

@[simp] theorem ite_siteState (c : Prop) [Decidable c] (a b : State) : siteState x (if c then a else b) =
    if c then siteState x a else siteState x b := by
  split <;> rfl

@[simp] theorem sendToken_siteState (y : SiteIx) (w : DWord) : siteState x (sendToken y w s) = siteState x s :=
  onSite_siteState s y _ x fun _ => by split <;> rfl

@[simp] theorem noticeAll_siteState (n : ℕ) : siteState x (noticeAll n s) = siteState x s :=
  foldl_siteState s x _ _ fun t y => by split <;> simp

@[simp] theorem abortEpoch_siteState : siteState x (abortEpoch s) = siteState x s := (noticeAll_siteState _ x 6).trans rfl

@[simp] theorem abortIf_siteState (c : Bool) : siteState x (abortIf c s) = siteState x s := by
  unfold abortIf abortFenced
  split
  · split
    · simp
    · split
      · split
        · exact abortEpoch_siteState s x
        · rfl
      · rfl
  · rfl

@[simp] theorem breakBeam_siteState (b : Beam) : siteState x (breakBeam b s) = siteState x s := by
  unfold breakBeam
  split
  · rfl
  · dsimp only
    rw [abortIf_siteState]
    exact siteState_of_site (by simp) x

@[simp] theorem lightBeam_siteState (b : Beam) : siteState x (lightBeam b s) = siteState x s := by
  have kept {t : State} (h : t.site = s.site) : siteState x t = siteState x s := siteState_of_site h x
  have masked (f : BeamSt → BeamSt) : siteState x (onBeam b f s) = siteState x s := kept (onBeam_site ..)
  unfold lightBeam
  simp [kept, masked]
@[simp] theorem setShed_site (p : Port) : (setShed p s).site = s.site := foldl_site _ _ _ fun _ _ => onBeam_site ..

@[simp] theorem lightPort_siteState (p : Port) : siteState x (lightPort p s) = siteState x s := by
  unfold lightPort
  split
  · rfl
  split
  · exact siteState_of_site (foldl_site _ _ _ fun _ _ => onBeam_site ..) x
  · exact foldl_siteState s x _ _ fun t b => lightBeam_siteState t x b

/-- A reset site is in Reset; no other site is touched. -/
theorem siteReset_siteState (y : SiteIx) : siteState x (siteReset y s) = if x = y then 1 else siteState x s := by
  have others {t : State} (h : t.site = s.site) : siteState x t = siteState x s := siteState_of_site h x
  unfold siteReset
  rw [siteState_of_site (reachForget_site ..), siteState_of_site (wideForget_site ..)]
  split
  next same =>
    subst same
    simp [setSite, siteState, onSite, siteIdle, siReset]
  next other =>
    rw [onSite_siteState _ y _ x fun same => absurd same other, setSite]
    refine (onSite_siteState _ y _ x fun same => absurd same other).trans (others ?_)
    split <;> simp

@[simp] theorem planInstall_siteState (r : PlanRec) : siteState x (planInstall r s) = siteState x s := by
  unfold planInstall
  refine (foldl_siteState _ x _ _ fun t p => ?_).trans ?_
  · rw [lightPort_siteState, siteState_of_site (setShed_site ..), siteState_of_site (onPort_site ..)]
  · simp [siteState]

end

section
variable (s : State)

/-! ### The return to Penumbra (R494) -/

@[simp] theorem railWrite_pwr (w : Pwr) : (railWrite w s).pwr = s.pwr := by simp [railWrite]
@[simp] theorem penumbraReplies_pwr : (penumbraReplies s).pwr = s.pwr := by simp [penumbraReplies]

theorem reasonStep_op (now : BitVec 11) (c : Fin 11) : (reasonStep now s c).pwr.op = s.pwr.op := by
  unfold reasonStep
  dsimp only
  split
  · simp [setEv, blkPWR]
  · split <;> simp

/-- Outside Lit the operating point is OP0. -/
theorem pwrSettle_op {f : State → State} (h : (f s).dev.state ≠ .lit) : (pwrSettle f s).pwr.op = 0 := by
  have still : startEnds (f s) = f s := if_neg fun lit => h lit.1
  have zero : opWanted (f s) = 0 := by simp [opWanted, opLimit, h]
  have moved : (opMove (f s)).pwr.op = 0 := by simp [opMove, zero]
  unfold pwrSettle
  refine (foldl_kept (·.pwr.op) _ _ _ fun t c => reasonStep_op t _ c).trans ?_
  simp [still, moved, restamp, railWrite_pwr]

/-- What the program's stop and the end of the plan set. -/
theorem penumbraStop_ctl : (penumbraStop s).ctl = { dropPhase s.ctl with
    phase := if s.ctl.phase = 0 then 0 else 9, arm := none, newEntry := false, applied := false } := by
  unfold penumbraStop
  dsimp only
  split
  · simp
  · rfl

theorem withdrawArm_phase : (withdrawArm s).ctl.phase = s.ctl.phase := by
  unfold withdrawArm
  split
  · simp only [imgReply_ctl, clearArm]
    split <;> rfl
  · rfl

theorem planWithdraw_inForce : (planWithdraw s).pln.inForce = 0xFFFF := by
  unfold planWithdraw
  dsimp only

/-- The program stops, and the tokens on the way to the sites are the last. -/
def programEnds : State := (fins 6).foldl (fun t x => lastTokens x t) (penumbraStop (withdrawArm s))

/-- The plan is withdrawn as the device enters Penumbra. -/
def planEnds : State := setDev .penumbra (planWithdraw s)

/-- The ports that are up or train begin again. -/
def portsAgain : State := (fins 64).foldl (fun t p => trainAgain p t) s

/-- The sites in use begin again. -/
def sitesAgain : State := (fins 6).foldl (fun t x =>
  let c := (t.site[x]).state
  if (siteRec t x).use && (c == siReset || c == siTraining || c == siActive || c == siRepair) then siteReset x t else t) s

theorem penumbraEffect_eq : penumbraEffect s =
    penumbraReplies (pwrSettle (fun s => s) (sitesAgain (portsAgain (planEnds (programEnds s))))) := rfl

theorem programEnds_phase : (programEnds s).ctl.phase = if s.ctl.phase = 0 then 0 else 9 := by
  rw [programEnds, foldl_ctl _ _ _ fun t x => lastTokens_ctl .., penumbraStop_ctl, withdrawArm_phase]

theorem planEnds_ctl : (planEnds s).ctl = s.ctl := by rw [planEnds, setDev_ctl, planWithdraw_ctl]

theorem planEnds_inForce : (planEnds s).pln.inForce = 0xFFFF := by
  have kept (t : State) : (setDev .penumbra t).pln = t.pln := by simp [setDev]
  rw [planEnds, kept, planWithdraw_inForce]

theorem planEnds_state : (planEnds s).dev.state = .penumbra := by simp only [planEnds, setDev_state]

theorem portsAgain_kept : (portsAgain s).ctl = s.ctl ∧ (portsAgain s).pln = s.pln ∧ (portsAgain s).dev = s.dev :=
  ⟨foldl_ctl _ _ _ fun t p => trainAgain_ctl .., foldl_pln _ _ _ fun t p => trainAgain_pln .., foldl_dev _ _ _ fun t p => trainAgain_dev ..⟩

theorem sitesAgain_kept : (sitesAgain s).ctl = s.ctl ∧ (sitesAgain s).pln = s.pln ∧ (sitesAgain s).dev = s.dev := by simp [sitesAgain]

theorem pwrSettle_kept : (pwrSettle (fun s => s) s).ctl = s.ctl ∧ (pwrSettle (fun s => s) s).pln = s.pln := ⟨pwrSettle_ctl .., pwrSettle_pln ..⟩

theorem pwrSettle_dark (h : s.dev.state ≠ .lit) : (pwrSettle (fun s => s) s).pwr.op = 0 := pwrSettle_op s h

/-- A return to Penumbra stops the program, withdraws the plan, answers those who wait and ends in OP0. -/
theorem penumbraEffect_stops : ((penumbraEffect s).ctl.phase = if s.ctl.phase = 0 then 0 else 9) ∧ (penumbraEffect s).img.penumbra = [] ∧
    (penumbraEffect s).pln.inForce = 0xFFFF ∧ (penumbraEffect s).pwr.op = 0 := by
  obtain ⟨ctl, pln, dev⟩ := portsAgain_kept (planEnds (programEnds s))
  obtain ⟨ctl', pln', dev'⟩ := sitesAgain_kept (portsAgain (planEnds (programEnds s)))
  obtain ⟨settled, settled'⟩ := pwrSettle_kept (sitesAgain (portsAgain (planEnds (programEnds s))))
  have dark : (sitesAgain (portsAgain (planEnds (programEnds s)))).dev.state ≠ .lit := by
    rw [dev', dev, planEnds_state]
    decide
  rw [penumbraEffect_eq]
  refine ⟨?_, penumbraReplies_penumbra _, ?_, ?_⟩
  · rw [penumbraReplies_ctl, settled, ctl', ctl, planEnds_ctl, programEnds_phase]
  · rw [penumbraReplies_pln, settled', pln', pln, planEnds_inForce]
  · rw [penumbraReplies_pwr, pwrSettle_dark _ dark]

end

/-- Every held DEV_PENUMBRA acts as parameter 1. -/
def atOnce (s : State) : State := { s with img := { s.img with penumbra := s.img.penumbra.map fun e => (e.1, 1) } }

theorem penumbraTimeout_lit (s : State) (h : s.dev.state = .lit) : penumbraTimeout s = penumbraCheck (atOnce s) := by
  unfold penumbraTimeout
  rw [if_pos h, atOnce]

/-- In Lit, with the program in a phase and nothing in the way, a held DEV_PENUMBRA that acts at once is due. -/
theorem penumbraDue_atOnce {s : State} (state : s.dev.state = .lit) (fence : s.sq.fence = none) (copying : s.img.copying = false)
    (phase : s.ctl.phase = 4) {e : BitVec 16 × ℕ} (asked : e ∈ s.img.penumbra) : penumbraDue (atOnce s) = true := by
  have some : s.img.penumbra ≠ [] := List.ne_nil_of_mem asked
  have now : penumbraAtOnce (atOnce s) = true := by
    simp only [penumbraAtOnce, atOnce, List.any_map, Bool.or_eq_true]
    exact .inl (List.any_eq_true.mpr ⟨e, asked, rfl⟩)
  rw [penumbraDue, now]
  simp [atOnce, state, some, fence, copying, phase]

theorem penumbraCheck_stops {s : State} (due : penumbraDue s = true) (phase : s.ctl.phase = 4) :
    (irqSettle (penumbraCheck s)).dev.state = .penumbra ∧ (irqSettle (penumbraCheck s)).ctl.phase = 9 ∧
      (irqSettle (penumbraCheck s)).img.penumbra = [] ∧ (irqSettle (penumbraCheck s)).pln.inForce = 0xFFFF ∧ (irqSettle (penumbraCheck s)).pwr.op =
        0 := by
  obtain ⟨stopped, replied, force, op⟩ := penumbraEffect_stops s
  have device := penumbraEffect_device s
  rw [phase] at stopped
  rw [penumbraCheck, if_pos due, irqSettle_dev, irqSettle_ctl, irqSettle_img, irqSettle_pln, irqSettle_pwr]
  exact ⟨device, stopped, replied, force, op⟩

/-! ### Lit entry (R491) -/

theorem retrains_trainSeen (s : State) (p : Port) : trainSeen p ((fins 64).foldl (fun t p => retrainPort p 2 t) s) =
    if portUp s.port[p.val] then (2, 2) else trainSeen p s := by
  have turns := foldl_turns trainSeen (fun t p => retrainPort p 2 t) (fun _ v => if v.1 == 3 || v.1 == 4 then (2, 2) else v) ?turn s p
  case turn =>
    intro t p q
    rw [retrainPort_trainSeen]
    by_cases same : p = q
    · subst same
      simp [portUp, trainSeen]
    · simp [same]
  exact turns

/-- The active sites begin again. -/
def activeAgain (s : State) : State := (fins 6).foldl (fun t x => if (t.site[x]).state = siActive then siteReset x t else t) s

theorem activeAgain_kept (s : State) : (activeAgain s).dev = s.dev ∧ (activeAgain s).port = s.port :=
  ⟨foldl_dev _ _ _ fun t x => by split <;> simp, foldl_port _ _ _ fun t x => by split <;> simp⟩

theorem activeAgain_siteState (s : State) (x : SiteIx) : siteState x (activeAgain s) = if siteState x s = siActive then 1 else siteState x s := by
  refine foldl_turns siteState _ (fun _ v => if v = siActive then 1 else v) (fun t x y => ?_) s x
  by_cases same : x = y
  · subst same
    by_cases up : (t.site[x.val]).state = siActive
    · have seen : siteState x t = siActive := up
      simp [siteReset_siteState, up, seen]
    · simp [up, siteState]
  · by_cases up : (t.site[y.val]).state = siActive
    · simp [siteReset_siteState, up, same]
    · simp [up, same]

/-- The plan of Lit is installed where its entry is there. -/
def planBegins (s : State) : State :=
  match planIn s 0 with
  | some r => planInstall r s
  | none => s

theorem planBegins_kept (s : State) : (planBegins s).dev = s.dev ∧ (∀ p, trainSeen p (planBegins s) = trainSeen p s) ∧
    ∀ x, siteState x (planBegins s) = siteState x s := by
  unfold planBegins
  split
  · exact ⟨planInstall_dev .., fun p => planInstall_trainSeen .., fun x => planInstall_siteState ..⟩
  · exact ⟨rfl, fun p => rfl, fun x => rfl⟩

theorem litStart_eq {s : State} (ready : litReady s = true) : litStart s = activeAgain ((fins 64).foldl (fun t p => retrainPort p 2 t)
    (planBegins { s with dev := { s.dev with litEntry := true } })) := by
  unfold litStart
  rw [if_neg (by simp [ready])]
  rfl

/-- Lit entry retrains the ports that are up from step 2, and the active sites begin again. -/
theorem litStart_begins {s : State} (ready : litReady s = true) :
    (irqSettle (litStart s)).dev.litEntry = true ∧ (irqSettle (litStart s)).dev.state = .penumbra ∧
    (∀ p : Port, portUp s.port[p.val] = true → ((irqSettle (litStart s)).port[p.val]).state = 2 ∧ ((irqSettle (litStart s)).port[p.val]).step = 2) ∧
    ∀ x : SiteIx, (s.site[x.val]).state = 3 → ((irqSettle (litStart s)).site[x.val]).state = 1 := by
  have penumbra : s.dev.state = .penumbra := by simp_all [litReady]
  obtain ⟨dev, ports, sites⟩ := planBegins_kept { s with dev := { s.dev with litEntry := true } }
  rw [litStart_eq ready]
  generalize planBegins { s with dev := { s.dev with litEntry := true } } = t at *
  have retrained (p : Port) := retrains_trainSeen t p
  have dev' : ((fins 64).foldl (fun t p => retrainPort p 2 t) t).dev = t.dev := foldl_dev _ _ _ fun t p => retrainPort_dev ..
  have sites' (x : SiteIx) : siteState x ((fins 64).foldl (fun t p => retrainPort p 2 t) t) = siteState x t :=
    foldl_siteState _ x _ _ fun t p => siteState_of_site (retrainPort_site ..) x
  generalize (fins 64).foldl (fun t p => retrainPort p 2 t) t = u at *
  obtain ⟨dev'', port''⟩ := activeAgain_kept u
  have again := activeAgain_siteState u
  simp only [irqSettle_dev, irqSettle_port, irqSettle_site, dev'', dev', dev, port'', penumbra, true_and]
  refine ⟨fun p up => ?_, fun x active => ?_⟩
  · have up' : portUp t.port[p.val] = true := by
      have state := congrArg Prod.fst (ports p)
      simp only [trainSeen] at state
      rwa [portUp, state]
    have shown := retrained p
    rw [up', if_pos rfl] at shown
    exact Prod.mk.inj shown
  · have shown := again x
    have old : siteState x t = siActive := (sites x).trans active
    rw [sites', old, if_pos rfl] at shown
    exact shown

/-- The end of the training of Lit entry, before the power settles. -/
def litShown (s : State) : State :=
  let s₀ := if s.err.echo.mode = 2 then endEcho s else s
  setDev .lit { s₀ with dev := { s₀.dev with litEntry := false }, img := { s₀.img with startDue := false } }

theorem litShown_shows {s : State} (state : s.dev.state = .penumbra) : (litShown s).dev.state = .lit ∧ (litShown s).dev.litEntry = false ∧
    (litShown s).dev.epoch = s.dev.epoch + 1 ∧ (litShown s).img.penumbra = s.img.penumbra := by
  unfold litShown
  extract_lets s₀ d l
  have kept : s₀.dev = s.dev ∧ s₀.img = s.img := by
    unfold s₀
    split
    · exact ⟨endEcho_dev _, endEcho_img _⟩
    · exact ⟨rfl, rfl⟩
  obtain ⟨dev, img⟩ := kept
  clear_value s₀
  rw [setDev_dev _ (by simp only [d, dev, state]; decide), setDev_img]
  simp only [d, dev, l, img, and_self]

theorem pwrSettle_settles (s : State) : (pwrSettle (fun s => s) s).dev = s.dev ∧ (pwrSettle (fun s => s) s).img = s.img := by
  refine ⟨pwrSettle_dev .., (foldl_img _ _ _ fun t c => ?_).trans ?_⟩
  · simp [reasonStep]
  · simp [restamp, railWrite, opMove, startEnds]

theorem programStarts_kept (s : State) : (programStarts s).dev = s.dev ∧ (programStarts s).img = s.img := by
  unfold programStarts mirrorNow
  simp

theorem litComplete_ends {s : State} (entry : s.dev.litEntry = true) (state : s.dev.state = .penumbra) (trained : litTrained s = true)
    (whole : s.img.committing = false) (none : s.img.penumbra = []) : (irqSettle (litComplete s)).dev.state = .lit ∧
    (irqSettle (litComplete s)).dev.litEntry = false ∧ (irqSettle (litComplete s)).dev.epoch = s.dev.epoch + 1 := by
  have shown : litComplete s = penumbraCheck (programStarts (pwrSettle (fun s => s) (litShown s))) := by
    unfold litComplete
    rw [if_neg (by simp [entry, trained, whole])]
    rfl
  obtain ⟨lit, ended, epoch, waiting⟩ := litShown_shows state
  obtain ⟨dev, img⟩ := pwrSettle_settles (litShown s)
  obtain ⟨dev', img'⟩ := programStarts_kept (pwrSettle (fun s => s) (litShown s))
  have stays : penumbraDue (programStarts (pwrSettle (fun s => s) (litShown s))) = false := by
    have empty : (programStarts (pwrSettle (fun s => s) (litShown s))).img.penumbra = [] := by rw [img', img, waiting, none]
    simp [penumbraDue, empty]
  rw [shown, penumbraCheck, if_neg (by rw [stays]; exact Bool.false_ne_true), irqSettle_dev, dev', dev]
  exact ⟨lit, ended, epoch⟩

/-- Settles O10: the device's state, its ports and sites after each step between Penumbra and Lit. -/
theorem litAndPenumbra : Obligations.LitAndPenumbra := by
  unfold Obligations.LitAndPenumbra
  simp only [Fin.getElem_fin, BitVec.ofNat_eq_ofNat, Fin.val_zero]
  refine ⟨fun s hs ready => ⟨_, run_of_running _ s hs, ?start⟩, fun s hs entry state trained whole none => ⟨_, run_of_running _ s hs, ?complete⟩,
    fun m s hs fw waiting code word state => ⟨_, run_of_running _ s hs, ?held⟩,
    fun m s hs fw waiting code word state entry arm free => ⟨_, run_of_running _ s hs, ?answered⟩,
    fun s hs state fence copying phase held => ⟨_, run_of_running _ s hs, ?timeout⟩⟩
  case start => exact litStart_begins ready
  case complete => exact litComplete_ends entry state trained whole none
  case held =>
    simp [waiting, fw, fwRunning, code, cDevPenumbra, penumbraCmd, mbxTaken, onTx, Nat.not_le.mpr word, state]
  case answered =>
    have idle (f : TxChan → TxChan) : withdrawArm (onH2f 0 f s) = onH2f 0 f s := withdrawArm_of_not_armed _ arm
    simp [waiting, fw, fwRunning, code, cDevPenumbra, penumbraCmd, mbxTaken, onTx, Nat.not_le.mpr word, state, entry, idle,
      applyDue_of_not_armed s arm, imgReply, fwSend_free, free,
      stOK]
  case timeout =>
    rw [penumbraTimeout_lit s state]
    obtain ⟨e, asked⟩ := held
    have due := penumbraDue_atOnce state fence copying phase asked
    have ph : (atOnce s).ctl.phase = 4 := by simp only [atOnce, phase, BitVec.ofNat_eq_ofNat]
    exact penumbraCheck_stops due ph

end Sys2Proof.Machine
end

section
/-!
PROOFS. The commands that load an image (chapter 3, R88 to R90), and what reads of the Reservoir leave.
-/

-- In sequence: each worker of the elaborator takes its stack from the memory that a check may use.
set_option Elab.async false

namespace Sys2Proof.Machine

theorem mbxTaken_go {s : State} (c : Fin 16) : ((mbxTaken (.h2f c) s).mbx.h2f[c.val]).go = false := by simp [mbxTaken, onTx, onH2f]

/-- The state in which a command on channel 00 is carried out when nothing is armed. -/
def taken (s : State) : State := mbxTaken (.h2f 0) s

section
variable (s : State)

@[simp] theorem taken_dev : (taken s).dev = s.dev := rfl
@[simp] theorem taken_host : (taken s).host = s.host := rfl
@[simp] theorem taken_mgt : (taken s).mgt = s.mgt := rfl
@[simp] theorem taken_hbm : (taken s).hbm = s.hbm := rfl
@[simp] theorem taken_img : (taken s).img = s.img := rfl
@[simp] theorem taken_ctl : (taken s).ctl = s.ctl := rfl
@[simp] theorem taken_f2h : (taken s).mbx.f2h = s.mbx.f2h := rfl
@[simp] theorem queryWords_taken : queryWords (taken s) = queryWords s := rfl
@[simp] theorem taken_go : ((taken s).mbx.h2f[0]).go = false := mbxTaken_go 0

end

section
variable {s : State} {m : Msg} {code : ℕ}

/-! ### Commands on channel 00 -/

theorem onImg_of_asked (f : Msg → State → State) (h : imgAsked code m s) : onImg code f s = f m (taken (applyDue s)) := by
  obtain ⟨-, on, waiting, asked, -⟩ := h
  simp [onImg, waiting, on, asked, taken]

@[simp] theorem applyDue_mbx (s : State) : (applyDue s).mbx = s.mbx := by simp [applyDue]
@[simp] theorem applyDue_hbm (s : State) : (applyDue s).hbm = s.hbm := by simp [applyDue]

/-- An answer on an empty channel 00 is there. -/
theorem imgReply_answered (free : (s.mbx.f2h[0]).go = false) (tag : BitVec 16) (status : ℕ) (more : List Word) :
    imgAnswered code tag status more (imgReply code tag status more s) := by
  simp [imgAnswered, imgReply, fwSend_free, free]

@[simp] theorem imgAnswered_irqSettle {tag : BitVec 16} {status : ℕ} {more : List Word} : imgAnswered code tag status more
    (irqSettle s) ↔ imgAnswered code tag status more s := Iff.rfl

theorem imgReply_taken (tag : BitVec 16) (status : ℕ) (more : List Word) : (imgReply code tag status more s).mbx.h2f = s.mbx.h2f :=
    (imgReply_h2f s ..).1

end

theorem onImg_of_loading {s : State} {m : Msg} {code : ℕ} (f : Msg → State → State) (h : imgAsked code m s) (still : s.img.state ≠ .armed) :
    onImg code f s = f m (taken s) := by
  rw [onImg_of_asked f h, applyDue_of_not_armed s still]

theorem free_of_asked {s : State} {m : Msg} {code : ℕ} (h : imgAsked code m s) : (s.mbx.f2h[0]).go = false := by
  obtain ⟨-, -, -, -, free⟩ := h
  exact free

theorem waits_of_asked {s : State} {m : Msg} {code : ℕ} (h : imgAsked code m s) : imgWaiting s = some m := by
  obtain ⟨-, -, waiting, -, -⟩ := h
  exact waiting

theorem nth_updN {α : Type} {n i : ℕ} (v : Vector α n) (h : i < n) (f : α → α) (d : α) : nth (updN v i f).toList i d = f v[i] := by
  simp [nth, updN, h]

/-- What reads of the Reservoir leave: all but the Reservoir, the log, the weak rows in flash and the choices that are spent. -/
structure Beside where
  dev : Dev
  host : HostIf
  mbx : Mbx
  dbl : Dbl
  lck : Lck
  sec : Sec
  pwr : Pwr
  thm : Thm
  comb : Comb
  site : Vector Site 6
  wide : Vector WideSite 4
  reach : Vector ReachSite 2
  siteReg : SiteRegs
  beam : Vector BeamSt 256
  port : Vector PortSt 64
  pln : Pln
  ring : Rings
  img : Load
  ctl : Ctl
  sq : Sq
  ce : Ce
  time : ℕ
  out : List Emission

/-- Those parts of a state. -/
def beside (t : State) : Beside :=
  ⟨t.dev, t.host, t.mbx, t.dbl, t.lck, t.sec, t.pwr, t.thm, t.comb, t.site, t.wide, t.reach, t.siteReg, t.beam, t.port, t.pln, t.ring, t.img,
    t.ctl, t.sq, t.ce, t.time, t.out⟩

section
variable (s : State) (n m k : ℕ) (c : Bool) (q : Fin 8)

@[simp] theorem beside_mk {err : Err} {mgt : Mgt} {hbm : Hbm} {fresh : ℕ} : beside { s with err := err, mgt := mgt, hbm := hbm, fresh := fresh } =
    beside s := rfl

@[simp] theorem ite_beside (c : Prop) [Decidable c] (a b : State) : beside (if c then a else b) = if c then beside a else beside b := by
  split <;> rfl

@[simp] theorem foldl_beside {α : Type} (g : State → α → State) (l : List α) (s : State) (h : ∀ t x, beside (g t x) = beside t) :
    beside (l.foldl g s) = beside s := foldl_kept beside g l s h

@[simp] theorem logEvent_beside (i : ℕ) : beside (logEvent n m k i s) = beside s := by
  unfold logEvent
  dsimp only
  split <;> rfl
@[simp] theorem setEvHbm_beside : beside (setEv 15 n m s) = beside s := rfl
@[simp] theorem eventBitHbm_beside : beside (eventBit k 15 n m s) = beside s := by simp [eventBit]
@[simp] theorem onStack_beside (h : Stack) (f : HbmStack → HbmStack) : beside (onStack h f s) = beside s := rfl
@[simp] theorem hbmCount_beside (h : Stack) : beside (hbmCount h q n s) = beside s := by simp [hbmCount]
@[simp] theorem correctWord_beside : beside (correctWord c n s) = beside s := by simp [correctWord, blkHBM]
@[simp] theorem missedWord_beside : beside (missedWord c n s) = beside s := by simp [missedWord]
@[simp] theorem uncorrWord_beside : beside (uncorrWord n m s) = beside s := by simp [uncorrWord, blkHBM]
@[simp] theorem decodeWord_beside (e : WordError) : beside (decodeWord n m e s).2 = beside s := by
  simp only [decodeWord]; (repeat' split) <;> simp
@[simp] theorem readRange_beside (words : List (ℕ × WordError)) : beside (readRange n m k words s) = beside s := by simp [readRange]
@[simp] theorem loadReads_beside (ranges : List (ℕ × ℕ)) (words : List (ℕ × WordError)) : beside (loadReads ranges words s) = beside s := by
  simp [loadReads, blkHBM]
@[simp] theorem hbmWrite_beside (raw : List Byte) : beside (hbmWrite n raw s) = beside s := by simp [hbmWrite]

end

section
variable (s : State)

@[simp] theorem refusedImage_kept (n : ℕ) : (refusedImage n s).mbx = s.mbx ∧ (refusedImage n s).img = s.img := by simp [refusedImage]

end

/-- Settles O11: what each command on channel 00 leaves of the loading, its answer, and the bytes that a chunk or the window stores. -/
theorem imageLoadingCommands : Obligations.ImageLoadingCommands := by
  unfold Obligations.ImageLoadingCommands
  simp only [Fin.getElem_fin, BitVec.ofNat_eq_ofNat, Fin.val_zero]
  refine ⟨fun m s asked => ⟨_, run_of_running _ s asked.1, ?query⟩, fun m s asked unused idle status => ⟨_, run_of_running _ s asked.1, ?begin⟩,
    fun m s asked loading place empty some most inside => ⟨_, run_of_running _ s asked.1, ?chunk⟩,
    fun h c s hs chunk dead torn free => ⟨_, run_of_running _ s hs, ?moved⟩, fun m s asked loading => ⟨_, run_of_running _ s asked.1, ?verify⟩,
    fun words s u hs verifying free reads => ⟨_, run_of_running _ s hs, ?verified⟩,
    fun m s asked unused verified => ⟨_, run_of_running _ s asked.1, ?abort⟩,
    fun off data n s hon wf inside => ⟨_, runBar_of_running _ s hon.1 hon.2, ?window⟩,
    fun m s hs on waiting undef free => ⟨_, run_of_running _ s hs, ?undefined⟩⟩
  case query =>
    have free := free_of_asked asked
    rw [onImg_of_asked (code := cImgQuery) _ asked]
    simp [cImgQuery, stOK, imgAnswered, imgReply, fwSend_free, free]
  case begin =>
    have free := free_of_asked asked
    have still : s.img.state ≠ .armed := by rw [idle]; decide
    rw [applyDue_of_not_armed s still, if_neg (by simp [unused]), onImg_of_loading (code := cImgBegin) _ asked still]
    have status' : beginStatus (taken s) (mword2 m 1) = stOK := status
    have quiet : abortRunning (taken s) = taken s := by simp [abortRunning, idle]
    simp [imgBeginCmd, status', quiet, cImgBegin, stOK, imgAnswered, imgReply, fwSend_free, free, discard, killChunks]
  case chunk =>
    have still : s.img.state ≠ .armed := by rw [loading]; decide
    have place' : ¬1 < mword m 4 := by omega
    simp only [waits_of_asked asked, show halfFree s (mword m 4) = true by simp [halfFree, empty], true_or, if_true]
    rw [onImg_of_loading (code := cImgChunk) _ asked still]
    have sized : ¬(mword m 3 = 0 ∨ chunkMax < mword m 3 ∨ s.img.size < mword2 m 1 + mword m 3) := by
      unfold chunkMax
      omega
    simp [imgChunkCmd, loading, place', sized, nth_updN _ place]
  case moved =>
    have data := s.host.bar2.readN ((halfIx h).val * 2 ^ 25) c.len
    have done' : chunkDone (halfIx h) s = imgReply cImgChunk c.tag stOK []
      (hbmWrite (loadBase + c.off) (s.host.bar2.readN ((halfIx h).val * 2 ^ 25) c.len)
        { s with img := { s.img with half := upd s.img.half (halfIx h) fun _ => none, written := (c.off, c.len) :: s.img.written }, fresh :=
          s.fresh + 1 }) := by
      unfold chunkDone
      rw [show s.img.half[halfIx h] = some c from chunk]
      simp only [dead, torn, Bool.false_eq_true, if_false]
    rw [done']
    simp [hbmWrite, hbmCount, hbmPut, cImgChunk, stOK, imgAnswered, imgReply, fwSend_free, free]
  case verify =>
    have still : s.img.state ≠ .armed := by rw [loading]; decide
    rw [onImg_of_loading (code := cImgVerify) _ asked still]
    simp [imgVerifyCmd, loading]
  case verified =>
    have kept : beside u = beside s := reads ▸ loadReads_beside ..
    have mbx : u.mbx = s.mbx := congrArg Beside.mbx kept
    have img : u.img = s.img := congrArg Beside.img kept
    have finished : verifyDone words s = imgReply cImgVerify u.img.tag (verifyStatus u) [] (if verifyStatus u = stOK then
        { u with img := { killChunks u.img with
            state := .verified, pending := some { parseImage (loadBytes u) with sound := imageSound (loadBytes u) } } }
        else refusedImage (verifyStatus u) { u with img := discard u.img }) := by
      rw [verifyDone, if_neg (not_not.mpr verifying), reads]
    rw [finished]
    by_cases ok : verifyStatus u = 0
    · simp [ok, stOK, cImgVerify, imgAnswered, imgReply, fwSend_free, mbx, img, free, killChunks]
    · simp [ok, stOK, cImgVerify, imgAnswered, imgReply, fwSend_free, mbx, img, free, discard, killChunks]
  case abort =>
    have free := free_of_asked asked
    have still : s.img.state ≠ .armed := by rw [verified]; decide
    rw [onImg_of_loading (code := cImgAbort) _ asked still]
    have unused' : loadInUse (taken s) = false := unused
    simp [imgAbortCmd, verified, imgAbortCore, abortRunning, unused', cImgAbort, stOK, imgAnswered, imgReply, fwSend_free, free, discard, killChunks]
  case window =>
    have whole : data.take (2 ^ 26 - off.toNat) = data := List.take_of_length_le (by omega)
    rw [whole]
    have stored : (bar2Store off.toNat data s).host.bar2 = s.host.bar2.writeN off.toNat data := rfl
    have kept : (bar2Store off.toNat data s).hbm = s.hbm := rfl
    generalize bar2Store off.toNat data s = t at stored kept
    have shown : (bar2Load off.toNat n t).host = t.host ∧ (bar2Load off.toNat n t).hbm = t.hbm := by
      unfold bar2Load
      split
      · exact ⟨rfl, rfl⟩
      · exact ⟨rfl, rfl⟩
    rw [irqSettle_bar2, irqSettle_hbm, shown.1, shown.2, stored, kept]
    refine ⟨fun some fits => mem_out_irqSettle ?_, fun i hi => ?_, fun a out => Mem.read_writeN_out data _ _ a wf out, rfl⟩
    · rw [bar2Load, if_neg (by omega), stored, Nat.min_eq_left (by omega)]
      exact List.mem_cons_self
    · rw [Mem.read_writeN_in data _ _ i wf hi, nth, List.getElem?_eq_getElem hi, Option.getD_some]
  case undefined =>
    simp [undefCmd, waiting, on, undef, stUnknown, mbxTaken, onTx, imgAnswered, imgReply, fwSend_free, free]

end Sys2Proof.Machine
end

section
/-!
PROOFS. The copies a commit makes, and a comb swap that becomes due at a full commit (refutes O12).
-/

-- In sequence: each worker of the elaborator takes its stack from the memory that a check may use.
set_option Elab.async false

namespace Sys2Proof.Machine

section
variable {s : State}

/-! ### A full commit begins the comb swaps that are due (R315) -/

@[simp] theorem zeroRegion_comb (r : RegionRec) (s : State) : (zeroRegion s r).comb = s.comb := by simp [zeroRegion]
@[simp] theorem copyResdata_beside (i : Image) (l : List ResSec) (s : State) : beside (copyResdata i l s) = beside s :=
  foldl_beside _ l s fun t d => by split <;> simp
@[simp] theorem regionsInit_comb (i : Image) (s : State) : (regionsInit i s).comb = s.comb :=
  (congrArg Beside.comb (copyResdata_beside ..)).trans (foldl_comb _ _ _ fun t r => zeroRegion_comb r t)
@[simp] theorem siteReset_comb (x : SiteIx) (s : State) : (siteReset x s).comb = s.comb := congrArg Aside.comb (siteReset_aside s x)
@[simp] theorem trainAgain_comb (p : Port) (s : State) : (trainAgain p s).comb = s.comb := congrArg Aside.comb (trainAgain_aside s p)
@[simp] theorem siteCommit_comb (x : SiteIx) (s : State) : (siteCommit s x).comb = s.comb := by
  have idle (x : SiteIx) (n : BitVec 4) (t : State) : (reachForget x (wideForget x (setSite x n t))).comb = t.comb :=
    congrArg Aside.comb (by simp : aside (reachForget x (wideForget x (setSite x n t))) = aside t)
  simp [siteCommit, idle]
@[simp] theorem portCommit_comb (p : Port) (s : State) : (portCommit s p).comb = s.comb := by simp [portCommit]

/-- The spare of comb group 0 takes a die's place. -/
def Swapping (t : State) : Prop := ((t.comb.group[0]).task).isSome = true

theorem swapping_of_comb {t : State} (h : t.comb = s.comb) (hs : Swapping s) : Swapping t := by
  unfold Swapping
  rwa [h]

theorem swapStart_swapping (g : CombGroup) (k : Fin 4) (hs : g = 0 ∨ Swapping s) : Swapping (swapStart g k s) := by
  by_cases same : g = 0
  · subst same
    simp [Swapping, swapStart, onDie, onGroup]
  · have other : 0 ≠ g := fun e => same e.symm
    have kept (v : Vector CGroup 4) (f : CGroup → CGroup) : (upd v g f)[(0 : Fin 4).val] = v[(0 : Fin 4).val] := upd_val_of_ne v f other
    simp only [Fin.val_zero] at kept
    simpa [Swapping, swapStart, onDie, onGroup, kept] using hs.resolve_left same

theorem foldl_swapping {α : Type} (f : State → α → State) (l : List α) (h : ∀ t x, Swapping t → Swapping (f t x)) (hs : Swapping s) :
    Swapping (l.foldl f s) := by
  induction l generalizing s with
  | nil => exact hs
  | cons x r ih => exact ih (h s x hs)

/-- A due die of group 0 begins its swap. -/
theorem swapsDue_swapping (lit : ((s.comb.group[0]).die[0]).state = .active) (worn : 1600000 ≤ ((s.comb.group[0]).die[0]).current)
    (idle : (s.comb.group[0]).task = none) (whole : (s.comb.group[0]).spareAt = none) (spare : ((s.comb.group[0]).die[4]).state = .standby) :
    Swapping (swapsDue s) := by
  have all : fins 4 = 0 :: [1, 2, 3] := rfl
  unfold swapsDue
  extract_lets due
  have later (t : State) (g k : Fin 4) (ht : Swapping t) : Swapping (if due (t.comb.group[g]) k then swapStart g k t else t) := by
    split
    · exact swapStart_swapping g k (.inr ht)
    · exact ht
  have first : due (s.comb.group[0]) 0 = true := by simp [due, fin!, lit, worn, idle, whole, spare]
  rw [all, List.foldl_cons]
  refine foldl_swapping _ _ (fun t g ht => foldl_swapping _ _ (fun u k => later u g k) ht) ?_
  rw [List.foldl_cons]
  refine foldl_swapping _ _ (fun u k => later u 0 k) ?_
  split
  · exact swapStart_swapping 0 0 (.inl rfl)
  next idle => exact absurd first idle

theorem pwrSettle_stays (s : State) : (pwrSettle (fun s => s) s).comb = s.comb := congrArg Aside.comb (pwrSettle_aside s _)

theorem commitApply_swapping (i : Image) (lit : ((s.comb.group[0]).die[0]).state = .active) (worn : 1600000 ≤ ((s.comb.group[0]).die[0]).current)
    (idle : (s.comb.group[0]).task = none) (whole : (s.comb.group[0]).spareAt = none) (spare : ((s.comb.group[0]).die[4]).state = .standby) :
    Swapping (commitApply i s) := by
  unfold commitApply
  extract_lets dev pwr pln img ce s₁ s₂ s₃ s₄
  have begun : s₁.comb = s.comb := endEcho_comb _
  have loaded : s₂.comb = s₁.comb := by simp [s₂, sqCommit, rowsRepaired]
  have cleared : s₃.comb = s₂.comb := rfl
  have comb : s₄.comb = s.comb := by
    rw [← begun, ← loaded, ← cleared]
    exact (foldl_comb _ _ _ fun t p => portCommit_comb p t).trans (foldl_comb _ _ _ fun t x => siteCommit_comb x t)
  clear_value s₄
  refine swapping_of_comb (pwrSettle_stays _) (swapsDue_swapping ?_ ?_ ?_ ?_ ?_)
  all_goals simpa only [comb]

/-- The end of a full commit of an inconsistent image leaves the program's work free. -/
theorem fullCommitDone_inconsistent {words : List (ℕ × WordError)} {p : Image} {u : State} (pending : s.img.pending = some p)
    (committing : s.img.committing = true) (reads : u = loadReads [(0, s.img.size)] words s) (clean : poisonIn u loadBase u.img.size = none)
    (broken : imageConsistent (imageRead words p u) = false) :
    fullCommitDone words s = freeWork (imgReply cImgCommit u.img.tag stOK [] (commitApply (imageRead words p u) u)) := by
  unfold fullCommitDone
  simp only [pending, ← reads, committing, clean, broken]
  rfl

/-- A device whose full commit of an inconsistent image ends while a comb swap is due. -/
def swapAtCommit : State := { State.reset with
  dev := { State.reset.dev with sysRst := false, perst := false }
  img := { State.reset.img with pending := some { sound := false }, committing := true }
  comb := { State.reset.comb with group := upd State.reset.comb.group 0 fun q => { q with
    die := upd (upd q.die 0 fun y => { y with state := .active, current := 1600000 }) 4 fun y => { y with state := .standby } } } }

theorem swapAtCommit_due : ((swapAtCommit.comb.group[0]).die[0]).state = .active ∧ 1600000 ≤ ((swapAtCommit.comb.group[0]).die[0]).current ∧
    (swapAtCommit.comb.group[0]).task = none ∧ (swapAtCommit.comb.group[0]).spareAt = none ∧
    ((swapAtCommit.comb.group[0]).die[4]).state = .standby ∧ ¬Swapping swapAtCommit := by
  unfold Swapping
  decide +kernel

theorem loadReads_comb (ranges : List (ℕ × ℕ)) (words : List (ℕ × WordError)) (s : State) : (loadReads ranges words s).comb = s.comb :=
  congrArg Beside.comb (loadReads_beside s ranges words)

theorem loadReads_img (ranges : List (ℕ × ℕ)) (words : List (ℕ × WordError)) (s : State) : (loadReads ranges words s).img = s.img :=
  congrArg Beside.img (loadReads_beside s ranges words)

end

/-- Refutes O12: the full commit of an inconsistent image begins a comb swap that is due, so the combs are not as before. -/
theorem not_commitsChangeTheImage : ¬ Obligations.CommitsChangeTheImage := by
  unfold Obligations.CommitsChangeTheImage
  intro h
  obtain ⟨-, -, inconsistent, -⟩ := h
  have clean : poisonIn (loadReads [(0, 0)] [] swapAtCommit) loadBase 0 = none := by decide +kernel
  have on : running swapAtCommit = true := by decide +kernel
  have broken : imageConsistent { sound := false } = false := by decide +kernel
  obtain ⟨t, ht, -, -, -, -, -, -, comb⟩ := inconsistent [] { sound := false } swapAtCommit _ on rfl rfl rfl clean rfl broken
  obtain ⟨u, reads⟩ : ∃ u, u = loadReads [(0, swapAtCommit.img.size)] [] swapAtCommit := ⟨_, rfl⟩
  have size : u.img.size = 0 := by rw [reads, loadReads_img]; rfl
  have empty : poisonIn u loadBase u.img.size = none := by rw [size, reads]; exact clean
  have same : u.comb = swapAtCommit.comb := by rw [reads, loadReads_comb]
  have answer : exec (.fullCommitComplete []) swapAtCommit = .next (irqSettle (fullCommitDone [] swapAtCommit)) := run_of_running _ _ on
  rw [answer, fullCommitDone_inconsistent rfl rfl reads empty broken] at ht
  clear answer clean empty size reads
  injection ht with ht
  obtain ⟨lit, worn, idle, whole, spare, waits⟩ := swapAtCommit_due
  have swaps : Swapping (commitApply (imageRead [] { sound := false } u) u) :=
    commitApply_swapping _ (same ▸ lit) (same ▸ worn) (same ▸ idle) (same ▸ whole) (same ▸ spare)
  exact waits (swapping_of_comb comb.symm (swapping_of_comb (by rw [← ht]; simp) swaps))

end Sys2Proof.Machine
end

section
/-!
PROOFS. Management commands on either path, and a firmware update (R444 to R446).
-/

-- In sequence: each worker of the elaborator takes its stack from the memory that a check may use.
set_option Elab.async false

namespace Sys2Proof.Machine

theorem upd_one {α : Type} {n : ℕ} (v : Vector α (n + 2)) (f : α → α) : (upd v 1 f)[1] = f v[1] := by simp [upd]

section
variable (s : State)

/-! ### Commands of the management unit on either path (R444) -/

/-- A reply moves nothing of the management unit but the I3C mailbox's side of responses. -/
theorem mgtReply_kept {β : Type} (f : Mgt → β) (h : ∀ m ws go held, f { m with i3cRsp := ws, i3cRspGo := go, i3cHeld := held } = f m)
    (p : MgtPath) (code : ℕ) (tag : BitVec 16) (status : ℕ) (more : List Word) : f (mgtReply p code tag status more s).mgt = f s.mgt := by
  cases p with
  | pcie => simp [mgtReply]
  | i3c =>
    simp only [mgtReply, i3cRespond]
    split
    · exact h ..
    · exact h ..

section
variable (p : MgtPath) (code : ℕ) (tag : BitVec 16) (status : ℕ) (more : List Word)

@[simp] theorem mgtReply_update : (mgtReply p code tag status more s).mgt.update = s.mgt.update := mgtReply_kept s (·.update) (fun _ _ _ _ => rfl) ..
@[simp] theorem mgtReply_flash : (mgtReply p code tag status more s).mgt.flash = s.mgt.flash := mgtReply_kept s (·.flash) (fun _ _ _ _ => rfl) ..
@[simp] theorem mgtReply_slots : (mgtReply p code tag status more s).mgt.slots = s.mgt.slots := mgtReply_kept s (·.slots) (fun _ _ _ _ => rfl) ..
@[simp] theorem mgtReply_runs : (mgtReply p code tag status more s).mgt.runs = s.mgt.runs := mgtReply_kept s (·.runs) (fun _ _ _ _ => rfl) ..
@[simp] theorem mgtReply_event : (mgtReply p code tag status more s).mgt.event = s.mgt.event := mgtReply_kept s (·.event) (fun _ _ _ _ => rfl) ..
@[simp] theorem mgtReply_bootAt : (mgtReply p code tag status more s).mgt.bootAt = s.mgt.bootAt := mgtReply_kept s (·.bootAt) (fun _ _ _ _ => rfl) ..
@[simp] theorem mgtReply_bootCount : (mgtReply p code tag status more s).mgt.bootCount = s.mgt.bootCount :=
  mgtReply_kept s (·.bootCount) (fun _ _ _ _ => rfl) ..
@[simp] theorem mgtReply_bootOther : (mgtReply p code tag status more s).mgt.bootOther = s.mgt.bootOther :=
  mgtReply_kept s (·.bootOther) (fun _ _ _ _ => rfl) ..
@[simp] theorem mgtReply_report : (mgtReply p code tag status more s).mgt.report = s.mgt.report := mgtReply_kept s (·.report) (fun _ _ _ _ => rfl) ..
@[simp] theorem mgtReply_fatals : (mgtReply p code tag status more s).mgt.fatals = s.mgt.fatals := mgtReply_kept s (·.fatals) (fun _ _ _ _ => rfl) ..
@[simp] theorem mgtReply_swappedOut : (mgtReply p code tag status more s).mgt.swappedOut = s.mgt.swappedOut :=
  mgtReply_kept s (·.swappedOut) (fun _ _ _ _ => rfl) ..

/-- A reply on a path with room for it is there. -/
theorem mgtReply_answered {s : State} (free : (s.mbx.f2h[1]).go = false) (ready : s.mgt.i3cRspGo = false) :
    mgtAnswered p code tag status more (irqSettle (mgtReply p code tag status more s)) := by
  cases p with
  | pcie => simp [mgtAnswered, mgtReply, fwSend_free, free, upd_one]
  | i3c => simp [mgtAnswered, mgtReply, i3cRespond, ready]

end

/-- Taking a command moves nothing of the management unit but the mark of its I3C mailbox. -/
theorem mgtTake_kept {β : Type} (f : Mgt → β) (h : ∀ m, f { m with i3cGo := false } = f m) (p : MgtPath) : f (mgtTake p s).mgt = f s.mgt := by
  cases p with
  | pcie => rfl
  | i3c => exact h s.mgt

section
variable (p : MgtPath)

@[simp] theorem mgtTake_update : (mgtTake p s).mgt.update = s.mgt.update := mgtTake_kept s (·.update) (fun _ => rfl) p
@[simp] theorem mgtTake_flash : (mgtTake p s).mgt.flash = s.mgt.flash := mgtTake_kept s (·.flash) (fun _ => rfl) p
@[simp] theorem mgtTake_slots : (mgtTake p s).mgt.slots = s.mgt.slots := mgtTake_kept s (·.slots) (fun _ => rfl) p
@[simp] theorem mgtTake_running : (mgtTake p s).mgt.running = s.mgt.running := mgtTake_kept s (·.running) (fun _ => rfl) p
@[simp] theorem mgtTake_runs : (mgtTake p s).mgt.runs = s.mgt.runs := mgtTake_kept s (·.runs) (fun _ => rfl) p
@[simp] theorem mgtTake_fitted : (mgtTake p s).mgt.flashFitted = s.mgt.flashFitted := mgtTake_kept s (·.flashFitted) (fun _ => rfl) p
@[simp] theorem mgtTake_i3cRspGo : (mgtTake p s).mgt.i3cRspGo = s.mgt.i3cRspGo := mgtTake_kept s (·.i3cRspGo) (fun _ => rfl) p
@[simp] theorem mgtTake_report : (mgtTake p s).mgt.report = s.mgt.report := mgtTake_kept s (·.report) (fun _ => rfl) p
@[simp] theorem mgtTake_serial : (mgtTake p s).mgt.reportSerial = s.mgt.reportSerial := mgtTake_kept s (·.reportSerial) (fun _ => rfl) p
@[simp] theorem mgtTake_fatals : (mgtTake p s).mgt.fatals = s.mgt.fatals := mgtTake_kept s (·.fatals) (fun _ => rfl) p
@[simp] theorem mgtTake_f2h : (mgtTake p s).mbx.f2h = s.mbx.f2h := by cases p <;> rfl
@[simp] theorem mgtTake_img : (mgtTake p s).img = s.img := by cases p <;> rfl
@[simp] theorem mgtTake_sec : (mgtTake p s).sec = s.sec := by cases p <;> rfl
@[simp] theorem mgtTake_hbm : (mgtTake p s).hbm = s.hbm := by cases p <;> rfl
@[simp] theorem mgtTake_comb : (mgtTake p s).comb = s.comb := by cases p <;> rfl
@[simp] theorem mgtTake_port : (mgtTake p s).port = s.port := by cases p <;> rfl
@[simp] theorem spareSlot_mgtTake : spareSlot (mgtTake p s) = spareSlot s := by simp [spareSlot]
@[simp] theorem mgtQuery_mgtTake (m : Msg) : mgtQueryCmd p m (mgtTake p s) = mgtReply p cMgtQuery (mtag m) stOK
    [s.mgt.version, w32 (s.mgt.fwSvn + s.sec.counter * 2 ^ 8 + s.mgt.running.val * 2 ^ 16 + s.mgt.rootSlot.val * 2 ^ 17), (mkReg (bootWord s)).1]
    (mgtTake p s) := by
  cases p <;> rfl
@[simp] theorem attestBody_mgtTake (nonce : List Byte) : attestBody (mgtTake p s) nonce = attestBody s nonce := by cases p <;> rfl
@[simp] theorem swapStatus_mgtTake (g : CombGroup) (k : Fin 4) : swapStatus (mgtTake p s) g k = swapStatus s g k := by cases p <;> rfl
@[simp] theorem loggedGain_mgtTake (g : CombGroup) (k : CombDie) : loggedGain (mgtTake p s) g k = loggedGain s g k := by cases p <;> rfl

end

/-- A flag of the management unit sets its bit and nothing else of the unit. -/
@[simp] theorem flagMgt_mgt (i k : ℕ) : (flag 16 i k s).mgt = { s.mgt with event := setBit s.mgt.event k } := by simp [flag, eventBit, setEv]
@[simp] theorem flagSec_sec (i k : ℕ) : (flag 17 i k s).sec = { s.sec with event := setBit s.sec.event k } := by simp [flag, eventBit, setEv]

@[simp] theorem setBit_getElem {n : ℕ} (v : BitVec n) (k : ℕ) (h : k < n) : (setBit v k)[k] = true := by
  rw [← BitVec.getLsbD_eq_getElem, getLsbD_setBit]
  simp [h]

theorem otherUnit_ne (u : Fin 2) : otherUnit u ≠ u := by
  revert u
  decide

end

section
variable {s : State} {p : MgtPath} {code : ℕ} {m : Msg}

theorem running_of_mgtAsked (h : mgtAsked p code m s) : running s = true := by
  obtain ⟨hs, -⟩ := h
  exact hs

theorem free_of_mgtAsked (h : mgtAsked p code m s) : (s.mbx.f2h[1]).go = false := by
  obtain ⟨-, -, -, -, free, -⟩ := h
  exact free

theorem ready_of_mgtAsked (h : mgtAsked p code m s) : s.mgt.i3cRspGo = false := by
  obtain ⟨-, -, -, -, -, ready⟩ := h
  exact ready

theorem onCmd_of_asked (f : Msg → State → State) (h : mgtAsked p code m s) : onCmd p code f s = f m (mgtTake p s) := by
  obtain ⟨-, fw, waiting, asked, -⟩ := h
  simp [onCmd, waiting, asked, mgtServed, fw, fwRunning]

theorem mgtReply_taken_answered (h : mgtAsked p code m s) (tag : BitVec 16) (status : ℕ) (more : List Word) :
    mgtAnswered p code tag status more (irqSettle (mgtReply p code tag status more (mgtTake p s))) :=
  mgtReply_answered p code tag status more ((congrArg (fun v : Vector RxChan 16 => v[1].go) (mgtTake_f2h s p)).trans (free_of_mgtAsked h))
    ((mgtTake_i3cRspGo s p).trans (ready_of_mgtAsked h))

theorem updBusy_of_none (h : s.mgt.update = none) : updBusy s p = false := by simp [updBusy, updOn, h]

theorem updBusy_of_phase {u : FwUpdate} (h : s.mgt.update = some u) (idle : updCode u.phase = none) : updBusy s p = false := by
  simp only [updBusy, updOn, h, Option.filter_some]
  split
  · simp [idle]
  · rfl

theorem updOn_of_path {u : FwUpdate} (h : s.mgt.update = some u) (own : u.path = p) : updOn s p = some u := by simp [updOn, h, own]

theorem eraseDone_of_erasing {u : FwUpdate} (h : s.mgt.update = some u) (phase : u.phase = .erasing) : eraseDone true s =
    mgtReply u.path cFwBegin u.tag stOK [] (onUpd (fun u => { u with phase := .ready })
      (onMgt (fun m => { m with flash := m.flash.clear (slotBase (spareSlot s)) (sectors u.size) }) s)) := by
  simp [eraseDone, h, phase]

theorem chunkProgrammed_of_programming {u : FwUpdate} {off len src : ℕ} (h : s.mgt.update = some u) (phase : u.phase = .programming off len src) :
    chunkProgrammed true s = mgtReply u.path cFwChunk u.tag stOK [] (onUpd (fun u => { u with phase := .ready })
      { onMgt (fun m => { m with flash := m.flash.writeN (slotBase (spareSlot s) + off) (chunkBytes s u len src) }) s with
        fresh := s.fresh + 1 }) := by
  simp [chunkProgrammed, h, phase]

theorem fwVerified_of_status {u : FwUpdate} {ok : Bool} (h : s.mgt.update = some u) (phase : u.phase = .verifying)
    (good : (if ok then slotStatus s u else stFlash) = stOK) :
    fwVerified ok s = mgtReply u.path cFwVerify u.tag stOK [] (onUpd (fun u => { u with phase := .verified }) s) := by
  simp [fwVerified, h, phase, good]

theorem fwVerified_refused {u : FwUpdate} {ok : Bool} {status : ℕ} (h : s.mgt.update = some u) (phase : u.phase = .verifying)
    (found : (if ok then slotStatus s u else stFlash) = status) (bad : status ≠ stOK) :
    fwVerified ok s = updError u.path cFwVerify u.tag status (updRefused status s) := by
  simp only [fwVerified, h, phase, ne_eq, not_true_eq_false, if_false, found, if_neg bad]

theorem fwActivated_of_activating {u : FwUpdate} (h : s.mgt.update = some u) (phase : u.phase = .activating) : fwActivated true s =
    mgtReply u.path cFwActivate u.tag stOK [] (flag blkMGT 0 6 (activatedBoot (spareSlot s) (onMgt (fun m => { m with update := none }) s))) := by
  simp [fwActivated, h, phase]

theorem fwConfirmed_of_confirm {tag : BitVec 16} (h : s.mgt.runs = [.confirm p tag]) : fwConfirmed true s =
    mgtReply p cFwConfirm tag stOK [] (flag blkMGT 0 6 (confirmedBoot s.mgt.running (burn (fuseSteps s) (endRun (.confirm p tag) s)))) := by
  simp [fwConfirmed, h, runOf, cFwConfirm]

/-- The end of an activation: the reply waits on what the new boot record leaves. -/
theorem activatedBoot_answered (free : (s.mbx.f2h[1]).go = false) (ready : s.mgt.i3cRspGo = false) (k : Fin 2) (f : Mgt → Mgt)
    (kept : (f s.mgt).i3cRspGo = s.mgt.i3cRspGo) {tag : BitVec 16} {status : ℕ} {more : List Word} :
    mgtAnswered p code tag status more (irqSettle (mgtReply p code tag status more (flag blkMGT 0 6 (activatedBoot k (onMgt f s))))) :=
  mgtReply_answered _ _ _ _ _ (by simpa [activatedBoot, onBoot, onBoots, onMgt] using free)
    (by simpa [activatedBoot, onBoot, onBoots, onMgt, blkMGT, kept] using ready)

theorem confirmedBoot_answered (free : (s.mbx.f2h[1]).go = false) (ready : s.mgt.i3cRspGo = false) (k : Fin 2) {tag : BitVec 16} {status : ℕ}
    {more : List Word} :
    mgtAnswered p code tag status more (irqSettle (mgtReply p code tag status more (flag blkMGT 0 6 (confirmedBoot k s)))) :=
  mgtReply_answered _ _ _ _ _ (by simpa [confirmedBoot, onBoots, onMgt] using free)
    (by simpa [confirmedBoot, onBoots, onMgt, blkMGT] using ready)

theorem burn_mgt (n : ℕ) (s : State) : (burn n s).mgt = s.mgt := by simp [burn, blkSEC]
theorem burn_runs (n : ℕ) (s : State) : (burn n s).mgt.runs = s.mgt.runs := by rw [burn_mgt]
theorem burn_rspGo (n : ℕ) (s : State) : (burn n s).mgt.i3cRspGo = s.mgt.i3cRspGo := by rw [burn_mgt]
@[simp] theorem burn_mbx (n : ℕ) (s : State) : (burn n s).mbx = s.mbx := by simp [burn]

theorem burn_all (s : State) : (burn (fuseSteps s) s).sec.counter = max s.sec.counter s.mgt.fwSvn := by
  have most : max s.sec.counter (min s.mgt.fwSvn (s.sec.counter + fuseSteps s)) = max s.sec.counter s.mgt.fwSvn := by
    unfold fuseSteps
    omega
  simp only [burn, fusesAfter, blkSEC, most]
  (repeat' split) <;> simp

theorem updError_answered (free : (s.mbx.f2h[1]).go = false) (ready : s.mgt.i3cRspGo = false) {tag : BitVec 16} {status : ℕ} :
    mgtAnswered p code tag status [] (irqSettle (updError p code tag status s)) := mgtReply_answered _ _ _ _ _ free ready

@[simp] theorem updRefused_mbx (status : ℕ) (s : State) : (updRefused status s).mbx = s.mbx := by simp [updRefused, flashFailed, pkgFailBit]
@[simp] theorem updRefused_rspGo (status : ℕ) (s : State) : (updRefused status s).mgt.i3cRspGo = s.mgt.i3cRspGo := by
  simp only [updRefused, flashFailed, pkgFailBit]
  (repeat' split) <;> simp [setEv, blkMGT, blkSEC]

/-- The verification ends with the status of the slot. -/
theorem fwVerified_ends {u : FwUpdate} (update : s.mgt.update = some u) (verifying : u.phase = .verifying) (free : (s.mbx.f2h[1]).go = false)
    (ready : s.mgt.i3cRspGo = false) : mgtAnswered u.path 0x0204 u.tag (slotStatus s u) [] (irqSettle (fwVerified true s)) ∧
      (irqSettle (fwVerified true s)).mgt.update = if slotStatus s u = 0 then some { u with phase := .verified } else none := by
  obtain ⟨status, is⟩ : ∃ status, slotStatus s u = status := ⟨_, rfl⟩
  have found : (if true then slotStatus s u else stFlash) = status := (if_pos rfl).trans is
  rw [is]
  by_cases ok : status = 0
  · rw [fwVerified_of_status update verifying (found.trans ok), ok]
    exact ⟨mgtReply_answered _ _ _ _ _ free ready, by simp [onUpd, onMgt, update]⟩
  · rw [fwVerified_refused update verifying found ok]
    exact ⟨updError_answered (by simpa using free) (by simpa using ready), by simp [updError, onMgt, ok]⟩

/-- A failing read-back ends the update with FLASH. -/
theorem fwVerified_fails {u : FwUpdate} (update : s.mgt.update = some u) (verifying : u.phase = .verifying) (free : (s.mbx.f2h[1]).go = false)
    (ready : s.mgt.i3cRspGo = false) : mgtAnswered u.path 0x0204 u.tag 14 [] (irqSettle (fwVerified false s)) ∧
      (irqSettle (fwVerified false s)).mgt.update = none ∧ (irqSettle (fwVerified false s)).mgt.event.getLsbD 3 = true ∧
      (irqSettle (fwVerified false s)).mgt.flash = s.mgt.flash := by
  rw [fwVerified_refused update verifying (ok := false) (if_neg Bool.false_ne_true) (by decide)]
  exact ⟨updError_answered (by simpa using free) (by simpa using ready), by simp [updError, onMgt, updRefused, flashFailed, setEv, blkMGT, stFlash]⟩

/-- A begun update erases the spare slot, whose record is empty, and leaves the running slot's. -/
theorem fwBegin_erases (unused : s.mgt.update = none) (idle : s.img.state = .idle) (fits : mword2 m 1 ≤ 2 ^ 24) (fitted : s.mgt.flashFitted = true) :
    (irqSettle (fwBeginCmd p m (mgtTake p s))).mgt.update = some { path := p, size := mword2 m 1, tag := mtag m, phase := .erasing } ∧
      flashBusy (irqSettle (fwBeginCmd p m (mgtTake p s))).mgt = true ∧
      ((irqSettle (fwBeginCmd p m (mgtTake p s))).mgt.slots[(spareSlot s).val]).state = .empty ∧
      (irqSettle (fwBeginCmd p m (mgtTake p s))).mgt.slots[s.mgt.running.val] = s.mgt.slots[s.mgt.running.val] := by
  have room : ¬slotSize < mword2 m 1 := by
    unfold slotSize
    omega
  have stays : s.mgt.running ≠ otherUnit s.mgt.running := (otherUnit_ne _).symm
  simp [fwBeginCmd, unused, idle, room, fitted, onBoot, onBoots, onMgt, flashBusy, spareSlot, upd_val_of_ne _ _ stays]

/-- An activated update waits in the spare slot for its first boot. -/
theorem fwActivated_ends {u : FwUpdate} (update : s.mgt.update = some u) (activating : u.phase = .activating) (free : (s.mbx.f2h[1]).go = false)
    (ready : s.mgt.i3cRspGo = false) : mgtAnswered u.path 0x0205 u.tag 0 [] (irqSettle (fwActivated true s)) ∧
      (irqSettle (fwActivated true s)).mgt.update = none ∧ ((irqSettle (fwActivated true s)).mgt.slots[(spareSlot s).val]).state = .pending ∧
      ((irqSettle (fwActivated true s)).mgt.slots[(spareSlot s).val]).attempts = 0 ∧
      (irqSettle (fwActivated true s)).mgt.event.getLsbD 6 = true ∧ (irqSettle (fwActivated true s)).mgt.bootAt = otherUnit s.mgt.bootAt ∧
      (irqSettle (fwActivated true s)).mgt.bootCount = s.mgt.bootCount + 1 ∧
      (irqSettle (fwActivated true s)).mgt.bootOther = { slots := s.mgt.slots, count := s.mgt.bootCount, ok := true } ∧
      (irqSettle (fwActivated true s)).mgt.slots[s.mgt.running.val] = s.mgt.slots[s.mgt.running.val] := by
  rw [fwActivated_of_activating update activating]
  have stays : s.mgt.running ≠ otherUnit s.mgt.running := (otherUnit_ne _).symm
  refine ⟨activatedBoot_answered free ready _ _ rfl, ?_⟩
  simp [activatedBoot, onBoot, onBoots, onMgt, blkMGT, spareSlot, upd_val_of_ne _ _ stays]

/-- A confirmed firmware has its counter in the fuses and its slot confirmed. -/
theorem fwConfirmed_ends {tag : BitVec 16} (runs : s.mgt.runs = [.confirm p tag]) (free : (s.mbx.f2h[1]).go = false)
    (ready : s.mgt.i3cRspGo = false) : mgtAnswered p 0x0206 tag 0 [] (irqSettle (fwConfirmed true s)) ∧
      ((irqSettle (fwConfirmed true s)).mgt.slots[s.mgt.running.val]).state = .confirmed ∧
      (irqSettle (fwConfirmed true s)).sec.counter = max s.sec.counter s.mgt.fwSvn ∧ (irqSettle (fwConfirmed true s)).mgt.runs = [] ∧
      (irqSettle (fwConfirmed true s)).mgt.event.getLsbD 6 = true := by
  rw [fwConfirmed_of_confirm runs]
  have burnt : (burn (fuseSteps s) (endRun (.confirm p tag) s)).sec.counter = max s.sec.counter s.mgt.fwSvn := burn_all (endRun (.confirm p tag) s)
  have left : (burn (fuseSteps s) (endRun (.confirm p tag) s)).mgt.runs = [] := by
    simp only [burn_runs, endRun, onMgt, runs, List.erase_cons_head]
  have same : (burn (fuseSteps s) (endRun (.confirm p tag) s)).mbx = s.mbx := by simp [endRun]
  have still : (burn (fuseSteps s) (endRun (.confirm p tag) s)).mgt.i3cRspGo = s.mgt.i3cRspGo := by
    simp only [burn_rspGo, endRun, onMgt]
  generalize burn (fuseSteps s) (endRun (.confirm p tag) s) = u at *
  refine ⟨confirmedBoot_answered (by rwa [same]) (by rwa [still]) _, ?_⟩
  have stays : s.mgt.running ≠ otherUnit s.mgt.running := (otherUnit_ne _).symm
  simp [confirmedBoot, onBoots, onMgt, blkMGT, upd_val_of_ne _ _ stays, burnt, left]

end

/-- Settles O13: which state of the update each command needs, what it leaves of the slots, and the reply on the path that asked. -/
theorem firmwareUpdateRuns : Obligations.FirmwareUpdateRuns := by
  unfold Obligations.FirmwareUpdateRuns
  simp only [Fin.getElem_fin, Fin.val_one]
  refine ⟨fun p m s asked unused idle fits fitted => ⟨_, run_of_running _ s (running_of_mgtAsked asked), ?begin⟩,
    fun u s hs update erasing free ready => ⟨_, run_of_running _ s hs, ?erased⟩,
    fun p m u s asked update own idle place some most inside => ⟨_, run_of_running _ s (running_of_mgtAsked asked), ?chunk⟩,
    fun u off len s hs update programming whole free ready => ⟨_, run_of_running _ s hs, ?programmed⟩,
    fun p m u s asked update own idle => ⟨_, run_of_running _ s (running_of_mgtAsked asked), ?verify⟩,
    fun u s hs update verifying free ready => ⟨_, run_of_running _ s hs, ?verified⟩,
    fun u s hs update verifying free ready => ⟨_, run_of_running _ s hs, ?readFails⟩,
    fun p m u s asked update own idle => ⟨_, run_of_running _ s (running_of_mgtAsked asked), ?activate⟩,
    fun u s hs update activating free ready => ⟨_, run_of_running _ s hs, ?activated⟩,
    fun p m s asked pending unused => ⟨_, run_of_running _ s (running_of_mgtAsked asked), ?confirm⟩,
    fun p tag s hs runs free ready => ⟨_, run_of_running _ s hs, ?confirmed⟩⟩
  case begin =>
    rw [updBusy_of_none unused, if_neg Bool.false_ne_true, onCmd_of_asked (code := cFwBegin) _ asked]
    exact fwBegin_erases unused idle fits fitted
  case erased =>
    rw [eraseDone_of_erasing update erasing]
    refine ⟨mgtReply_answered _ _ _ _ _ free ready, ?_, ?_⟩
    · simp [onUpd, onMgt, update]
    · simp [onUpd, onMgt]
  case chunk =>
    rw [updBusy_of_phase update (by rw [idle]; rfl), if_neg Bool.false_ne_true, onCmd_of_asked (code := cFwChunk) _ asked]
    have place' : ¬2 < mword m 4 := by omega
    have sized : ¬(mword m 3 = 0 ∨ fwChunkMax p (mword m 4) < mword m 3 ∨ u.size < mword2 m 1 + mword m 3) := by omega
    simp [fwChunkCmd, updOn_of_path (s := mgtTake p s) ((mgtTake_update s p).trans update) own, place', sized, onUpd, onMgt, update, flashBusy]
  case programmed =>
    rw [chunkProgrammed_of_programming update programming]
    refine ⟨mgtReply_answered _ _ _ _ _ free ready, ?_, ?_⟩
    · simp [onUpd, onMgt, update]
    · simp [onUpd, onMgt, chunkBytes, whole]
  case verify =>
    rw [updBusy_of_phase update (by rw [idle]; rfl), if_neg Bool.false_ne_true, onCmd_of_asked (code := cFwVerify) _ asked]
    simp [fwVerifyCmd, updOn_of_path (s := mgtTake p s) ((mgtTake_update s p).trans update) own, onUpd, onMgt, update]
  case verified => exact fwVerified_ends update verifying free ready
  case readFails => exact fwVerified_fails update verifying free ready
  case activate =>
    rw [updBusy_of_phase update (by rw [idle]; rfl), if_neg Bool.false_ne_true, onCmd_of_asked (code := cFwActivate) _ asked]
    simp [fwActivateCmd, updOn_of_path (s := mgtTake p s) ((mgtTake_update s p).trans update) own, idle, onUpd, onMgt, update]
  case activated => exact fwActivated_ends update activating free ready
  case confirm =>
    rw [onCmd_of_asked (code := cFwConfirm) _ asked]
    simp [fwConfirmCmd, pending, unused, onMgt]
  case confirmed => exact fwConfirmed_ends runs free ready

end Sys2Proof.Machine
end

section
/-!
PROOFS. Queries, attestation, comb swaps and fatal records (R444, R448, R450, R315).
-/

-- In sequence: each worker of the elaborator takes its stack from the memory that a check may use.
set_option Elab.async false

namespace Sys2Proof.Machine

section

/-- The end of a planned swap, before the reply to the command that asked for it: what it leaves of the group and of flash. -/
structure Swapped (g : CombGroup) (k : Fin 4) (t : State) : Prop where
  task : (t.comb.group[g.val]).task = none
  spareAt : (t.comb.group[g.val]).spareAt = some k
  spare : ((t.comb.group[g.val]).die[4]).state = .active
  old : ((t.comb.group[g.val]).die[k.val]).state = .swappedOut
  off : ((t.comb.group[g.val]).die[k.val]).current = 0
  kept : t.mgt.swappedOut.getLsbD (4 * g.val + k.val) = true

theorem Swapped.of_parts {g : CombGroup} {k : Fin 4} {t u : State} (h : Swapped g k t) (comb : u.comb = t.comb)
    (kept : u.mgt.swappedOut = t.mgt.swappedOut) : Swapped g k u := by
  obtain ⟨task, spareAt, spare, old, off, marked⟩ := h
  exact ⟨by rwa [comb], by rwa [comb], by rwa [comb], by rwa [comb], by rwa [comb], by rwa [kept]⟩

theorem swapPort_aside (s : State) (p : Port) : aside (swapPort s p) = aside s := by simp [swapPort]

theorem upd_spare (v : Vector Die 5) (f : Die → Die) : (upd v 4 f)[4] = f v[4] := upd_val_self v 4 f

/-- Both switches of a planned swap have moved. -/
def swapMoved (g : CombGroup) (k : Fin 4) (s : State) : State :=
  onGroup g (fun q => { q with task := none, spareAt := some k })
    (onDie g 4 (fun y => { y with state := .active, gridHeld := true })
      (onDie g ⟨k.val, by omega⟩ (fun y => { y with state := .swappedOut, current := 0, gridHeld := false, reducing := false })
        { s with mgt := { s.mgt with swappedOut := s.mgt.swappedOut ||| BitVec.ofNat 16 (2 ^ (4 * g.val + k.val)) } }))

theorem swapFinish_eq (g : CombGroup) (k : Fin 4) (s : State) :
    swapFinish g k s = logEvent clsRecoverable blkPRT 0x0112 (combInst g k.val) ((posPorts g k).foldl swapPort (swapMoved g k s)) := rfl

theorem swapMoved_swapped (g : CombGroup) (k : Fin 4) (s : State) : Swapped g k (swapMoved g k s) := by
  have spare : (⟨k.val, by omega⟩ : Fin 5) ≠ 4 := by
    intro same
    have := congrArg Fin.val same
    simp at this
    omega
  have marked : (s.mgt.swappedOut ||| BitVec.ofNat 16 (2 ^ (4 * g.val + k.val))).getLsbD (4 * g.val + k.val) = true :=
    (getLsbD_setBit s.mgt.swappedOut _ _).trans (by simp; omega)
  have other := fun f => upd_val_of_ne (upd (s.comb.group[g.val]).die ⟨k.val, by omega⟩ f)
    (fun y => { y with state := .active, gridHeld := true }) spare
  refine ⟨?_, ?_, ?_, ?_, ?_, marked⟩
  · simp [swapMoved, onGroup, onDie]
  · simp [swapMoved, onGroup, onDie]
  · simp [swapMoved, onGroup, onDie, upd_spare]
  · simp only [swapMoved, onGroup, onDie, upd_val_self]
    rw [other, upd_val_self]
  · simp only [swapMoved, onGroup, onDie, upd_val_self]
    rw [other, upd_val_self]

theorem swapFinish_swapped (g : CombGroup) (k : Fin 4) (s : State) : Swapped g k (swapFinish g k s) := by
  have moved : aside (swapFinish g k s) = aside (swapMoved g k s) := by
    rw [swapFinish_eq, logEvent_aside, foldl_kept aside _ _ _ fun t p => swapPort_aside t p]
  have swapped := swapMoved_swapped g k s
  generalize swapFinish g k s = t, swapMoved g k s = u at *
  exact swapped.of_parts (congrArg Aside.comb moved) (congrArg (·.mgt.swappedOut) moved)

/-- A reply to the command that asked for a swap leaves what the swap left. -/
theorem combSwapDone_swapped {g : CombGroup} {k : Fin 4} {s : State} (now : swapNow s = some (g, k)) : Swapped g k (combSwapDone s) := by
  simp only [combSwapDone, now]
  have swapped := swapFinish_swapped g k s
  generalize swapFinish g k s = t at swapped
  split
  · exact swapped.of_parts (by simp [endRun]) (by simp [endRun, onMgt])
  · exact swapped

end

theorem combSwapCmd_of_standby {p : MgtPath} {m : Msg} {g : CombGroup} {k : Fin 4} {s : State} (place : mword m 2 = 16 * g.val + k.val)
    (epoch : mword m 3 = (s.port[(fin! 64 (16 * g.val + 4 * k.val)).val]).epoch.toNat) (status : swapStatus s g k = 0) :
    combSwapCmd p m s = swapStart g k (onMgt (fun q => { q with runs := q.runs ++ [.combSwap p (mtag m) g.val k.val] }) s) := by
  have group : bits (mword m 2) 7 4 = g.val := by
    rw [bits, place]
    omega
  have position : bits (mword m 2) 3 0 = k.val := by
    rw [bits, place]
    omega
  have inside : ¬(3 < g.val ∨ 3 < k.val) := by omega
  have own (i : Fin 4) : fin! 4 i.val = i := Fin.ofNat_val_eq_self i
  simp only [combSwapCmd, group, position, inside, own, status, stOK, if_false, ne_eq, not_true_eq_false]
  exact if_neg (not_not.mpr epoch)

/-- Settles O14: what each command leaves of the unit, of a comb group or of the records, and its reply. -/
theorem managementCommandsRun : Obligations.ManagementCommandsRun := by
  unfold Obligations.ManagementCommandsRun
  simp only [Fin.getElem_fin, BitVec.ofNat_eq_ofNat, Fin.val_one]
  refine ⟨fun p m s asked => ⟨_, run_of_running _ s (running_of_mgtAsked asked), ?query⟩,
    fun p m s asked unused => ⟨_, run_of_running _ s (running_of_mgtAsked asked), ?attest⟩,
    fun p tag body s hs runs free ready => ⟨_, run_of_running _ s hs, ?signed⟩,
    fun p m g k s asked place epoch status unused => ⟨_, run_of_running _ s (running_of_mgtAsked asked), ?swap⟩,
    fun g k s hs now => ⟨_, run_of_running _ s hs, ?swapDone⟩,
    fun p m r s asked place record => ⟨_, run_of_running _ s (running_of_mgtAsked asked), ?read⟩,
    fun p m s asked => ⟨_, run_of_running _ s (running_of_mgtAsked asked), ?clear⟩,
    fun p tag s hs runs free ready => ⟨_, run_of_running _ s hs, ?cleared⟩,
    fun r rest s hs pending fw fitted => ⟨_, run_of_running _ s hs, ?stored⟩,
    fun p m s asked undef => ⟨_, run_of_running _ s (running_of_mgtAsked asked), ?undefined⟩⟩
  case query =>
    rw [onCmd_of_asked (code := cMgtQuery) _ asked, mgtQuery_mgtTake]
    exact mgtReply_taken_answered asked ..
  case attest =>
    rw [onCmd_of_asked (code := cAttest) _ asked]
    simp [attestCmd, unused, onMgt]
  case signed =>
    simp [attestDone, runs, runOf, cAttest, endRun, onMgt, blkSEC]
  case swap =>
    rw [onCmd_of_asked (code := cCombSwap) _ asked]
    rw [combSwapCmd_of_standby (s := mgtTake p s) place (by simpa using epoch) (by simpa using status)]
    have gain : loggedGain (onMgt (fun q => { q with runs := q.runs ++ [.combSwap p (mtag m) g.val k.val] }) (mgtTake p s)) g ⟨k.val, by omega⟩ =
        loggedGain s g ⟨k.val, by omega⟩ := loggedGain_mgtTake s p g _
    have own : (⟨k.val, by omega⟩ : Fin 5) = fin! 5 k.val := Fin.ext (ownDie_val k).symm
    rw [swapStart, gain, own]
    simp [onDie, onGroup, onMgt, unused, upd_spare]
  case swapDone =>
    obtain ⟨task, spareAt, spare, old, off, kept⟩ := (combSwapDone_swapped now).of_parts (u := irqSettle (combSwapDone s)) (by simp) (by simp)
    simp only [ownDie_val]
    exact ⟨task, spareAt, spare, old, off, kept⟩
  case read =>
    rw [onCmd_of_asked (code := cFatalRead) _ asked]
    have place' : ¬127 < mword m 2 := by omega
    have found : fatalReadCmd p m (mgtTake p s) = mgtReply p cFatalRead (mtag m) stOK [w32 (fatalLen r)]
        (onMgt (fun g => { g with report := g.report.writeN 0 (fatalBytes r) }) (mgtTake p s)) := by
      simp [fatalReadCmd, place', record]
    rw [found]
    refine ⟨mgtReply_answered _ _ _ _ _ ?_ ?_, ?_, ?_⟩
    · simpa [onMgt] using free_of_mgtAsked asked
    · simpa [onMgt] using ready_of_mgtAsked asked
    · simp [onMgt]
    · simp [onMgt]
  case clear =>
    rw [onCmd_of_asked (code := cFatalClear) _ asked]
    simp [fatalClearCmd, onMgt, flashBusy]
  case cleared =>
    have ended : fatalCleared true s = mgtReply p cFatalClear tag stOK []
      (onMgt (fun m => { m with fatals := [] }) (endRun (.fatalClear p tag) s)) := by
      simp [fatalCleared, runs, runOf, cFatalClear]
    rw [ended]
    refine ⟨mgtReply_answered _ _ _ _ _ free ready, ?_, ?_⟩
    · simp [onMgt]
    · simp [onMgt, endRun, runs]
  case stored =>
    simp [fatalStored, pending, fw, fwRunning, fitted, onMgt, blkMGT]
  case undefined =>
    have answer : undefCmd (.mgt p) s = mgtReply p (mcode m) (mtag m) stUnknown [] (mgtTake p s) := by
      obtain ⟨-, fw, waiting, -⟩ := asked
      simp [undefCmd, waiting, fw, fwRunning, undef]
    rw [answer]
    refine ⟨mgtReply_taken_answered asked .., ?_, ?_⟩
    · simp
    · simp

end Sys2Proof.Machine
end

section
/-!
PROOFS. The I3C target (R451 to R453).
-/

-- In sequence: each worker of the elaborator takes its stack from the memory that a check may use.
set_option Elab.async false

namespace Sys2Proof.Machine

section
variable {s : State}

/-! ### Private writes and reads of the I3C target (R452) -/

theorem i3cPrivateWrite_of_running {off : Word} {ws : List Word} (hs : running s = true) (addr : s.mgt.i3cAddr.isSome = true)
    (good : i3cBad s off.toNat ws = false) : exec (.i3cPrivateWrite off ws) s = .next (irqSettle (i3cWrite off.toNat ws s)) := by
  have carried : exec (.i3cPrivateWrite off ws) s = run (i3cOn (i3cWrite off.toNat ws)) s := by
    refine if_neg ?_
    rw [good]
    simp
  rw [carried, run_of_running _ s hs, i3cOn, if_pos addr]

theorem i3cWrite_one (off : ℕ) (v : Word) (s : State) : i3cWrite off [v] s = onMgt (fun m => { m with i3cOff := w32 (off + 4) })
    (i3cWord off v s) := rfl

theorem i3cBad_one {off : ℕ} (v : Word) (h : i3cMay off = false ∨ (readReg s off).2 = BitVec.allOnes 32) : i3cBad s off [v] = false := by
  obtain h | h := h
  · simp [i3cBad, h]
  · simp [i3cBad, rsvBad, h]

/-- A word outside what the controller may write is dropped with its event bit. -/
theorem i3cWord_dropped {off : ℕ} (h : i3cMay off = false) (v : Word) : i3cWord off v s = flag blkMGT 0 5 s := if_pos h

theorem onMgt_addr {f : Mgt → Mgt} (h : ∀ m, (f m).i3cAddr = m.i3cAddr) (s : State) : (onMgt f s).mgt.i3cAddr = s.mgt.i3cAddr := h s.mgt
theorem dropped_addr (s : State) : (flag blkMGT 0 5 s).mgt.i3cAddr = s.mgt.i3cAddr := by simp [blkMGT]

theorem i3cRspClear_addr (s : State) : (i3cRspClear s).mgt.i3cAddr = s.mgt.i3cAddr := by
  simp only [i3cRspClear]
  (repeat' split) <;> simp [onMgt, i3cRespond]

theorem i3cGoSet_addr (s : State) : (i3cGoSet s).mgt.i3cAddr = s.mgt.i3cAddr := by
  unfold i3cGoSet
  split
  · exact dropped_addr s
  · exact onMgt_addr (fun _ => rfl) s

theorem ite_addr (c : Prop) [Decidable c] {a b s : State} (ha : a.mgt.i3cAddr = s.mgt.i3cAddr) (hb : b.mgt.i3cAddr = s.mgt.i3cAddr) :
    (if c then a else b).mgt.i3cAddr = s.mgt.i3cAddr := by
  split
  · exact ha
  · exact hb

theorem mailbox_addr (m : Mgt) (w : Vector Word 16) : ({ m with i3cMbx := w } : Mgt).i3cAddr = m.i3cAddr := rfl

/-- No word of a write takes the target's address. -/
theorem i3cWord_addr (off : ℕ) (v : Word) (s : State) : (i3cWord off v s).mgt.i3cAddr = s.mgt.i3cAddr := by
  unfold i3cWord
  refine ite_addr _ (dropped_addr s) (ite_addr _ ?_ (ite_addr _ ?_ (ite_addr _ (ite_addr _ (dropped_addr s) ?_)
    (ite_addr _ (ite_addr _ (i3cGoSet_addr s) rfl) (ite_addr _ (i3cRspClear_addr s) rfl)))))
  · rw [capMgmtSet, onMgt]
  · rw [onUpd, onMgt, onMgt]
  · exact mailbox_addr s.mgt _

/-- A write leaves the offset after its last word. -/
theorem i3cWrite_off (ws : List Word) (off : ℕ) (s : State) : (i3cWrite off ws s).mgt.i3cOff = w32 (off + 4 * ws.length) ∧
    (i3cWrite off ws s).mgt.i3cAddr = s.mgt.i3cAddr := by
  induction ws generalizing off s with
  | nil => simp [i3cWrite, onMgt]
  | cons v r ih =>
    obtain ⟨last, addr⟩ := ih (off + 4) (i3cWord off v s)
    refine ⟨last.trans ?_, addr.trans (i3cWord_addr ..)⟩
    rw [List.length_cons]
    congr 1
    omega

/-- A read returns as many words as it asks for and leaves the offset after them. -/
theorem i3cReadWords_off (n : ℕ) (acc : List Word) (s : State) : (i3cReadWords n acc s).1.length = acc.length + n ∧
    (i3cReadWords n acc s).2.mgt.i3cOff = s.mgt.i3cOff + w32 (4 * n) := by
  induction n generalizing acc s with
  | zero => simp [i3cReadWords, w32]
  | succ n ih =>
    unfold i3cReadWords
    dsimp only
    refine ⟨(ih _ _).1.trans ?_, (ih _ _).2.trans ?_⟩
    · rw [List.length_cons]
      omega
    · dsimp only
      rw [BitVec.add_assoc, w32, w32, show 4 * (n + 1) = 4 + 4 * n by omega, BitVec.ofNat_add]
      rfl

/-- A field of ten bits sets no bit above them. -/
theorem tenBits_reserved (w : BitVec 10) : w.setWidth 32 &&& ~~~0x3FF#32 = 0 := by
  refine BitVec.eq_of_getLsbD_eq fun i hi => ?_
  have mask : ∀ i : Fin 32, i.val < 10 → (~~~0x3FF#32).getLsbD i.val = false := by decide
  rw [BitVec.getLsbD_and, BitVec.getLsbD_setWidth]
  by_cases low : i < 10
  · rw [mask ⟨i, hi⟩ low, Bool.and_false]
    exact (BitVec.getLsbD_zero ..).symm
  · rw [BitVec.getLsbD_of_ge w i (by omega), Bool.and_false, Bool.false_and]
    exact (BitVec.getLsbD_zero ..).symm

theorem capMgmt_good (w : BitVec 10) (s : State) : rsvBad s 0x7000C (w.setWidth 32) = false := by
  have mask : (readReg s 0x7000C).2 = 0x3FF#32 := by simp [readReg, readMgt, mkReg]; decide
  rw [rsvBad, mask, tenBits_reserved]
  exact Bool.and_false _

theorem mgtCapMgmtWrite_of_running {v : Word} (hs : running s = true) (addr : s.mgt.i3cAddr.isSome = true) (good : rsvBad s 0x7000C v = false) :
    exec (.mgtCapMgmtWrite v) s = .next (irqSettle (capMgmtSet v s)) := by
  have carried : exec (.mgtCapMgmtWrite v) s = run (i3cOn (capMgmtSet v)) s := by
    refine if_neg ?_
    rw [good]
    simp
  rw [carried, run_of_running _ s hs, i3cOn, if_pos addr]

theorem readReg_scratch (s : State) : readReg s 0x20 = whole s.dev.scratch.toNat := rfl

theorem i3cPrivateRead_of_running (n : ℕ) (hs : running s = true) (addr : s.mgt.i3cAddr.isSome = true) : exec (.i3cPrivateRead n) s =
    .next (irqSettle (emit (.i3cRead (i3cReadWords n [] s).1) (i3cReadWords n [] s).2)) := by
  refine (run_of_running _ s hs).trans ?_
  rw [i3cOn, if_pos addr]

end

theorem resp_off (k : Fin 16) : (w32 (0x70100 + 4 * k.val)).toNat = 0x70100 + 4 * k.val := by
  rw [w32, BitVec.toNat_ofNat]
  omega

/-- The response registers are not written (R453). -/
theorem resp_readOnly : ∀ k : Fin 16, i3cMay (0x70100 + 4 * k.val) = false := by decide

/-- Settles O15: the target's address, what each word of a write changes, the words of a read, and the mailbox and response. -/
theorem i3cTargetServes : Obligations.I3cTargetServes := by
  unfold Obligations.I3cTargetServes
  simp only [Fin.getElem_fin, BitVec.ofNat_eq_ofNat, Fin.val_one]
  refine ⟨fun a via s hs known => ⟨_, run_of_running _ s hs, ?address⟩, fun a v s hs other => ⟨_, run_of_running _ s hs, ?foreign⟩,
    fun v k s hs addr => ⟨_, i3cPrivateWrite_of_running hs addr ?respGood, ?resp⟩,
    fun v s hs addr idle => ⟨_, i3cPrivateWrite_of_running hs addr (i3cBad_one v (.inr rfl)), ?mailbox⟩,
    fun v s hs addr => ⟨_, i3cPrivateWrite_of_running hs addr (i3cBad_one v (.inr rfl)), ?stage⟩,
    fun v s hs addr => ⟨_, i3cPrivateWrite_of_running hs addr (i3cBad_one v (.inl rfl)), ?other⟩,
    fun s hs addr off live => ⟨_, i3cPrivateRead_of_running 1 hs addr, ?read⟩,
    fun off ws s hs addr good => ⟨_, i3cPrivateWrite_of_running hs addr good, ?offset⟩,
    fun n s hs addr => ⟨_, i3cPrivateRead_of_running n hs addr, ?words⟩, fun s hs addr idle => ⟨_, run_of_running _ s hs, ?go⟩,
    fun s hs addr resp held => ⟨_, run_of_running _ s hs, ?clear⟩, fun w r s hs addr resp held => ⟨_, run_of_running _ s hs, ?next⟩,
    fun w s hs addr low high => ⟨_, mgtCapMgmtWrite_of_running hs addr (capMgmt_good w s), ?cap⟩⟩
  case address => simp [i3cStatic, known, onMgt]
  case foreign => simp [i3cStatic, other]
  case respGood =>
    refine i3cBad_one v (.inl ?_)
    rw [resp_off]
    exact resp_readOnly k
  case resp =>
    rw [i3cWrite_one, resp_off, i3cWord_dropped (resp_readOnly k)]
    simp [onMgt, blkMGT]
  case mailbox =>
    rw [i3cWrite_one]
    have word : i3cWord (0x70084#32).toNat v s = onMgt (fun m => { m with i3cMbx := updN m.i3cMbx 1 fun _ => v }) s := by
      simp [i3cWord, i3cMay, idle]
    rw [word]
    refine ⟨?_, rfl, fun k other => ?_⟩
    · simp [onMgt, updN]
    · simp [onMgt, updN, Vector.getElem_set_ne, Ne.symm other]
  case stage =>
    rw [i3cWrite_one]
    have word : i3cWord (0x79010#32).toNat v s = onUpd stageTorn
      (onMgt (fun m => { m with stage := m.stage.writeN 0x10 (leBytes 4 v.toNat) }) s) := by
      simp [i3cWord, i3cMay]
    rw [word]
    simp [onUpd, onMgt]
  case other =>
    rw [i3cWrite_one, i3cWord_dropped rfl]
    simp [onMgt, blkMGT]
  case read =>
    have word : i3cReadWords 1 [] s = ([s.dev.scratch], { s with
        fresh := s.fresh + 2, mgt := { s.mgt with i3cLatch := s.mgt.i3cLatch, i3cOff := 0x24 } }) := by
      have seen : i3cSees 0x20 = true := rfl
      simp [i3cReadWords, off, seen, latchRead, live, readReg_scratch, fillReserved_whole, latchedBy, w32]
    rw [word]
    exact ⟨mem_out_irqSettle (List.mem_cons_self ..), by simp, by simp⟩
  case offset =>
    rw [irqSettle_mgt]
    exact i3cWrite_off ws off.toNat s
  case words =>
    obtain ⟨length, off⟩ := i3cReadWords_off n [] s
    generalize i3cReadWords n [] s = r at length off
    exact ⟨⟨r.1, mem_out_irqSettle (List.mem_cons_self ..), by simpa using length⟩, by simpa using off⟩
  case go => simp [i3cOn, addr, i3cGoSet, idle, onMgt, mgtWaiting]
  case clear => simp [i3cOn, addr, i3cRspClear, resp, held, onMgt]
  case next => simp [i3cOn, addr, i3cRspClear, resp, held, onMgt, i3cRespond]
  case cap =>
    have field : fld (w.setWidth 32) 9 0 = w.toNat := by
      rw [fld, bits, BitVec.toNat_setWidth]
      omega
    simp [capMgmtSet, onMgt, capField, field, low, high]

end Sys2Proof.Machine
end

section
/-!
PROOFS. The registers, the scrubber and the polls of the Reservoir (R404, R407, R399).
-/

-- In sequence: each worker of the elaborator takes its stack from the memory that a check may use.
set_option Elab.async false

namespace Sys2Proof.Machine

section
variable (s : State)

/-! ### The registers and the scrubber of the Reservoir (R404, R407) -/

theorem upd_last (v : Vector DWord 8) (f : DWord → DWord) : (upd v 7 f)[7] = f v[7] := upd_val_self v 7 f

theorem apertureMask (base : ℕ) : (mkReg [(6, 0, base)]).2 = 0x7F#32 := by simp [mkReg, w32]
theorem scrubMask (enable period passes : ℕ) : (mkReg [(31, 31, enable), (23, 16, period), (15, 0, passes)]).2 = 0x80FFFFFF#32 := by
  have mask : 0 ||| w32 ((2 ^ (31 + 1 - 31) - 1) * 2 ^ 31) ||| w32 ((2 ^ (23 + 1 - 16) - 1) * 2 ^ 16) ||| w32 ((2 ^ (15 + 1 - 0) - 1) * 2 ^ 0) =
    0x80FFFFFF#32 := by decide
  exact mask
theorem readReg_aperture : (readReg s 0x100004).2 = 0x7F#32 := apertureMask s.hbm.base.toNat
theorem readReg_scrub : (readReg s 0x100008).2 = 0x80FFFFFF#32 := scrubMask (b2n s.hbm.scrubOn) s.hbm.period.toNat s.hbm.passes.toNat
@[simp] theorem pwrSettle_hbm (f : State → State) : (pwrSettle f s).hbm = (f s).hbm := congrArg Aside.hbm (pwrSettle_aside s f)

theorem aperture_good (b : BitVec 7) : rsvBad s 0x100004 (b.setWidth 32) = false := by
  have clear : b.setWidth 32 &&& ~~~0x7F#32 = 0 := by
    revert b
    decide
  rw [rsvBad, readReg_aperture, clear]
  exact Bool.and_false _

theorem aperture_field (b : BitVec 7) : fld (b.setWidth 32) 6 0 = b.toNat := by
  rw [fld, bits, BitVec.toNat_setWidth]
  omega

theorem scrub_good (on : Bool) (h : BitVec 8) : rsvBad s 0x100008 (w32 (b2n on * 2 ^ 31 + h.toNat * 2 ^ 16)) = false := by
  have clear : w32 (b2n on * 2 ^ 31 + h.toNat * 2 ^ 16) &&& ~~~0x80FFFFFF#32 = 0 := by
    revert on h
    decide
  rw [rsvBad, readReg_scrub, clear]
  exact Bool.and_false _

theorem scrub_fields (on : Bool) (h : BitVec 8) : bit (w32 (b2n on * 2 ^ 31 + h.toNat * 2 ^ 16)) 31 = on ∧
    fld (w32 (b2n on * 2 ^ 31 + h.toNat * 2 ^ 16)) 23 16 = h.toNat := by
  have small := h.isLt
  refine ⟨?_, ?_⟩
  · revert on h
    decide
  · cases on <;> simp [fld, bits, w32, b2n] <;> omega

/-- A scrub step goes on to the next word, and leaves the rest of the Reservoir. -/
theorem scrubNext_kept : (scrubNext s).hbm.mem = s.hbm.mem ∧ (scrubNext s).hbm.poison = s.hbm.poison ∧ (scrubNext s).hbm.event = s.hbm.event ∧
    (scrubNext s).hbm.errAddr = s.hbm.errAddr ∧ (scrubNext s).hbm.errSource = s.hbm.errSource := by
  unfold scrubNext
  split <;> exact ⟨rfl, rfl, rfl, rfl, rfl⟩

/-- An uncorrectable word is poisoned, and the registers name it and its source (R407). -/
theorem uncorrWord_marks (source word : ℕ) : word ∈ (uncorrWord source word s).hbm.poison ∧ (uncorrWord source word s).hbm.mem = s.hbm.mem ∧
    (uncorrWord source word s).hbm.event.getLsbD 2 = true ∧ (uncorrWord source word s).hbm.errAddr = BitVec.ofNat 37 (16 * word) ∧
    (uncorrWord source word s).hbm.errSource = BitVec.ofNat 4 source := by
  have listed : word ∈ if word ∈ s.hbm.poison then s.hbm.poison else word :: s.hbm.poison := by
    split
    · assumption
    · exact List.mem_cons_self
  simp [uncorrWord, blkHBM, setEv, hbmCount, onStack, listed]

theorem flagThm_hbm (i k : ℕ) : (flag blkTHM i k s).hbm = s.hbm := by simp [blkTHM]

end

/-- Settles O17: the fields of the two registers, a scrub step without and with an error, and a stack's poll. -/
theorem reservoirControl : Obligations.ReservoirControl := by
  unfold Obligations.ReservoirControl
  simp only [Fin.getElem_fin]
  refine ⟨fun b s hon most => ⟨_, regRow_of_running _ hon.1 hon.2 (aperture_good s b), ?base⟩,
    fun b s hon beyond => ⟨_, regRow_of_running _ hon.1 hon.2 (aperture_good s b), ?beyond⟩,
    fun on h s hon low high => ⟨_, regRow_of_running _ hon.1 hon.2 (scrub_good s on h), ?scrub⟩,
    fun s hs on ready clean inside => ⟨_, run_of_running _ s hs, ?clean⟩, fun s hs on ready => ⟨_, run_of_running _ s hs, ?poisoned⟩,
    fun h t8 n s hs => ⟨_, run_of_running _ s hs, ?poll⟩⟩
  case base => simp [apertureSet, aperture_field, most]
  case beyond => simp [apertureSet, aperture_field, Nat.not_le.mpr beyond]
  case scrub =>
    obtain ⟨enable, period⟩ := scrub_fields on h
    generalize w32 (b2n on * 2 ^ 31 + h.toNat * 2 ^ 16) = v at enable period
    simp [scrubSet, enable, period, low, high]
  case clean =>
    have step : scrubRead .none s = scrubNext (hbmCount (stackOf (16 * s.hbm.scrubPos)) 3 16 s) := by
      simp [scrubRead, on, ready, stReady, decodeWord, clean]
    rw [step, scrubNext, if_pos (by exact inside)]
    simp [hbmCount, onStack]
  case poisoned =>
    have step : scrubRead .twoNibbles s = scrubNext (logEvent clsReported blkHBM 3 (stackOf (16 * s.hbm.scrubPos)).val
        (hbmCount (stackOf (16 * s.hbm.scrubPos)) 3 16 (uncorrWord srcScrub s.hbm.scrubPos s))) := by
      simp [scrubRead, on, ready, stReady, decodeWord]
    rw [step]
    obtain ⟨mem, poison, event, errAddr, errSource⟩ := scrubNext_kept (logEvent clsReported blkHBM 3 (stackOf (16 * s.hbm.scrubPos)).val
        (hbmCount (stackOf (16 * s.hbm.scrubPos)) 3 16 (uncorrWord srcScrub s.hbm.scrubPos s)))
    rw [irqSettle_hbm, mem, poison, event, errAddr, errSource, logEvent_hbm]
    obtain ⟨poison', mem', event', errAddr', errSource'⟩ := uncorrWord_marks s srcScrub s.hbm.scrubPos
    exact ⟨poison', mem', event', errAddr', errSource'⟩
  case poll =>
    rw [irqSettle_hbm, pwrSettle_hbm]
    dsimp only
    rw [ite_hbm, flagThm_hbm, ite_self, onPwr_hbm, foldl_hbm _ _ _ fun t _ => logEvent_hbm ..]
    simp [hbmCount, onStack, upd_last]

end Sys2Proof.Machine
end

section
/-!
PROOFS. The operating point, the cap, the regulator alert and the droop (chapter 14).
-/

-- In sequence: each worker of the elaborator takes its stack from the memory that a check may use.
set_option Elab.async false

namespace Sys2Proof.Machine

theorem hbm_of_aside {s t : State} (h : aside t = aside s) : t.hbm = s.hbm := congrArg Aside.hbm h
theorem comb_of_aside {s t : State} (h : aside t = aside s) : t.comb = s.comb := congrArg Aside.comb h
theorem mgt_of_aside {s t : State} (h : aside t = aside s) : t.mgt = s.mgt := congrArg Aside.mgt h

section
variable (s : State)

/-! ### What settling the operating point leaves (R412 to R418) -/

theorem reasonStep_leaves {β : Type} (g : Pwr → β) (h : ∀ p e r l d, g { p with event := e, reasons := r, reasonLast := l, reasonDur := d } = g p)
    (now : BitVec 11) (c : Fin 11) : g (reasonStep now s c).pwr = g s.pwr := by
  unfold reasonStep
  dsimp only
  split
  · simp only [logEvent_pwr, setEv, blkPWR]
    exact h s.pwr _ _ _ _
  · split
    · exact h s.pwr _ _ _ _
    · rfl

theorem startEnds_leaves {β : Type} (g : Pwr → β) (h : ∀ p o, g { p with start := o } = g p) : g (startEnds s).pwr = g s.pwr := by
  unfold startEnds
  split
  · exact h ..
  · rfl

theorem raiseTo_leaves {β : Type} (g : Pwr → β) (h : ∀ p o c, g { p with raise := o, railOk := c } = g p) (w : ℕ) (p : Pwr) :
    g (raiseTo w p) = g p := by
  unfold raiseTo
  (repeat' split)
  · rfl
  · exact h ..
  · rfl

theorem opMove_leaves {β : Type} (g : Pwr → β) (h : ∀ p n o c, g { p with op := n, raise := o, railOk := c } = g p) : g (opMove s).pwr = g s.pwr := by
  simp only [opMove, onPwr]
  split
  · exact h ..
  · exact raiseTo_leaves g (fun p o c => h p p.op o c) _ _

/-- After the operating point moved, only the epoch, the event bits and the reasons follow. -/
theorem pwrSettle_after {β : Type} (g : Pwr → β) (h : ∀ p n e r l d,
    g { p with epoch := n, event := e, reasons := r, reasonLast := l, reasonDur := d } = g p)
    (f : State → State) : g (pwrSettle f s).pwr = g (opMove (startEnds (f s))).pwr := by
  unfold pwrSettle
  refine (foldl_kept (fun t => g t.pwr) _ _ _ fun t c => reasonStep_leaves t g (fun p e r l d => h p p.epoch e r l d) _ c).trans ?_
  simp only [restamp, onPwr, railWrite_pwr]
  exact h _ _ _ _ _ _

/-- A field that settling does not name is what the command left. -/
theorem pwrSettle_leaves {β : Type} (g : Pwr → β) (h : ∀ p o a c st n e r l d, g { p with
      op := o, raise := a, railOk := c, start := st, epoch := n, event := e, reasons := r, reasonLast := l, reasonDur := d } = g p)
    (f : State → State) : g (pwrSettle f s).pwr = g (f s).pwr :=
  (pwrSettle_after s g (fun p n e r l d => h p p.op p.raise p.railOk p.start n e r l d) f).trans
    ((opMove_leaves _ g fun p o a c => h p o a c p.start p.epoch p.event p.reasons p.reasonLast p.reasonDur).trans
      (startEnds_leaves _ g fun p st => h p p.op p.raise p.railOk st p.epoch p.event p.reasons p.reasonLast p.reasonDur))

section
variable (f : State → State)

@[simp] theorem pwrSettle_samples : (pwrSettle f s).pwr.samples = (f s).pwr.samples := pwrSettle_leaves s (·.samples)
    (fun _ _ _ _ _ _ _ _ _ _ => rfl) f
@[simp] theorem pwrSettle_policy : (pwrSettle f s).pwr.policy = (f s).pwr.policy := pwrSettle_leaves s (·.policy) (fun _ _ _ _ _ _ _ _ _ _ => rfl) f
@[simp] theorem pwrSettle_capEff : (pwrSettle f s).pwr.capEff = (f s).pwr.capEff := pwrSettle_leaves s (·.capEff) (fun _ _ _ _ _ _ _ _ _ _ => rfl) f
@[simp] theorem pwrSettle_capHost : (pwrSettle f s).pwr.capHost = (f s).pwr.capHost := pwrSettle_leaves s (·.capHost)
    (fun _ _ _ _ _ _ _ _ _ _ => rfl) f
@[simp] theorem pwrSettle_alertPin : (pwrSettle f s).pwr.alertPin = (f s).pwr.alertPin :=
  pwrSettle_leaves s (·.alertPin) (fun _ _ _ _ _ _ _ _ _ _ => rfl) f
@[simp] theorem pwrSettle_alertHold : (pwrSettle f s).pwr.alertHold = (f s).pwr.alertHold :=
  pwrSettle_leaves s (·.alertHold) (fun _ _ _ _ _ _ _ _ _ _ => rfl) f
@[simp] theorem pwrSettle_droop : (pwrSettle f s).pwr.droop = (f s).pwr.droop := pwrSettle_leaves s (·.droop) (fun _ _ _ _ _ _ _ _ _ _ => rfl) f
@[simp] theorem pwrSettle_droopQuiet : (pwrSettle f s).pwr.droopQuiet = (f s).pwr.droopQuiet :=
  pwrSettle_leaves s (·.droopQuiet) (fun _ _ _ _ _ _ _ _ _ _ => rfl) f
@[simp] theorem pwrSettle_opCeiling : (pwrSettle f s).pwr.opCeiling = (f s).pwr.opCeiling :=
  pwrSettle_leaves s (·.opCeiling) (fun _ _ _ _ _ _ _ _ _ _ => rfl) f
@[simp] theorem pwrSettle_hintsOff : (pwrSettle f s).pwr.hintsOff = (f s).pwr.hintsOff :=
  pwrSettle_leaves s (·.hintsOff) (fun _ _ _ _ _ _ _ _ _ _ => rfl) f
theorem pwrSettle_opAfter : (pwrSettle f s).pwr.op = (opMove (startEnds (f s))).pwr.op := pwrSettle_after s (·.op) (fun _ _ _ _ _ _ => rfl) f
theorem pwrSettle_raiseAfter : (pwrSettle f s).pwr.raise = (opMove (startEnds (f s))).pwr.raise :=
  pwrSettle_after s (·.raise) (fun _ _ _ _ _ _ => rfl) f

end

/-- The state in which the reasons are looked at. -/
def stamped (f : State → State) : State :=
  restamp ((railWrite s.pwr (opMove (startEnds (f s)))).err.logCount - s.err.logCount).toNat
    (onPwr (fun p => { p with epoch := p.epoch + BitVec.ofNat 16 (pwrChanges s.pwr p) }) (railWrite s.pwr (opMove (startEnds (f s)))))

theorem pwrSettle_eq (f : State → State) : pwrSettle f s = (fins 11).foldl (reasonStep (reasonBits (stamped s f))) (stamped s f) := rfl

/-- Settling sets event bits and clears none. -/
theorem reasonStep_event {k : ℕ} (now : BitVec 11) (c : Fin 11) (h : s.pwr.event.getLsbD k = true) : (reasonStep now s c).pwr.event.getLsbD k =
    true := by
  have marked (v : BitVec 6) (set : v.getLsbD k = true) : (setBit v 0).getLsbD k = true := by rw [getLsbD_setBit, set, Bool.true_or]
  unfold reasonStep
  dsimp only
  split
  · simp only [logEvent_pwr, setEv, blkPWR]
    exact marked _ h
  · split
    · exact h
    · exact h

theorem reasonSteps_event {k : ℕ} (now : BitVec 11) (l : List (Fin 11)) (h : s.pwr.event.getLsbD k = true) :
    (l.foldl (reasonStep now) s).pwr.event.getLsbD k = true := by
  induction l generalizing s with
  | nil => exact h
  | cons c r ih => exact ih _ (reasonStep_event s now c h)

theorem stamped_event (f : State → State) : (stamped s f).pwr.event = (f s).pwr.event := by
  have moved : (opMove (startEnds (f s))).pwr.event = (f s).pwr.event :=
    (opMove_leaves _ (·.event) fun _ _ _ _ => rfl).trans (startEnds_leaves _ (·.event) fun _ _ => rfl)
  have rail : (railWrite s.pwr (opMove (startEnds (f s)))).pwr.event = (opMove (startEnds (f s))).pwr.event := by rw [railWrite_pwr]
  unfold stamped
  generalize railWrite s.pwr (opMove (startEnds (f s))) = t at rail
  exact rail.trans moved

theorem pwrSettle_event {k : ℕ} (f : State → State) (h : (f s).pwr.event.getLsbD k = true) : (pwrSettle f s).pwr.event.getLsbD k = true := by
  have marked : (stamped s f).pwr.event.getLsbD k = true := by rw [stamped_event, h]
  exact (congrArg (fun t => t.pwr.event.getLsbD k) (pwrSettle_eq s f)).trans (reasonSteps_event _ _ _ marked)

/-- A forced operating point is OP0, with no increase waiting. -/
theorem opMove_zero (h : opWanted s = 0) : (opMove s).pwr.op = 0 ∧ (opMove s).pwr.raise = none := by simp [opMove, onPwr, h]

theorem opWanted_forced (h : opForced s.pwr = true) : opWanted s = 0 := by simp [opWanted, opLimit, h]

theorem pwrSettle_forced (f : State → State) (h : opForced (f s).pwr = true) : (pwrSettle f s).pwr.op = 0 ∧ (pwrSettle f s).pwr.raise = none := by
  have still : opForced (startEnds (f s)).pwr = true := (startEnds_leaves (f s) opForced fun _ _ => rfl).trans h
  rw [pwrSettle_opAfter, pwrSettle_raiseAfter]
  exact opMove_zero _ (opWanted_forced _ still)

/-! ### The samples and the cap (R425 to R427) -/

@[simp] theorem setShed_pwr (p : Port) : (setShed p s).pwr = s.pwr := foldl_pwr _ _ _ fun _ _ => rfl
@[simp] theorem pushCtl_pwr (b : Beam) (n : BitVec 4) (w : List Byte) : (pushCtl b n w s).pwr = s.pwr := by simp [pushCtl]
@[simp] theorem putRequest_pwr (b : Beam) (m : LineSet × LineSet) : (putRequest b m s).pwr = s.pwr := by unfold putRequest; split <;> simp
@[simp] theorem askRetrain_pwr (b : Beam) : (askRetrain b s).pwr = s.pwr := by simp only [askRetrain]; (repeat' split) <;> simp
@[simp] theorem putDim_pwr (p : Port) (d : LineSet) : (putDim p d s).pwr = s.pwr := by simp [putDim]
@[simp] theorem portDim_pwr (p : Port) : (portDim p s).pwr = s.pwr := by simp [portDim]
@[simp] theorem dimApply_pwr : (dimApply s).pwr = s.pwr := by simp [dimApply, blkPLN]
@[simp] theorem pushCtl_aside (b : Beam) (n : BitVec 4) (w : List Byte) : aside (pushCtl b n w s) = aside s := by simp [pushCtl]
@[simp] theorem setShed_aside (p : Port) : aside (setShed p s) = aside s := by simp [setShed]
@[simp] theorem putRequest_aside (b : Beam) (m : LineSet × LineSet) : aside (putRequest b m s) = aside s := by unfold putRequest; split <;> simp
@[simp] theorem askRetrain_aside (b : Beam) : aside (askRetrain b s) = aside s := by simp only [askRetrain]; (repeat' split) <;> simp
@[simp] theorem putDim_aside (p : Port) (d : LineSet) : aside (putDim p d s) = aside s := by simp [putDim]
@[simp] theorem portDim_aside (p : Port) : aside (portDim p s) = aside s := by simp [portDim]
theorem dimApply_aside : aside (dimApply s) = aside s := by
  unfold dimApply
  rw [foldl_aside _ _ _ fun t p => portDim_aside t p, flag_aside _ _ _ _ (by decide) (by decide) (by decide) (by decide) (by decide)]
  rfl
@[simp] theorem dimApply_hbm : (dimApply s).hbm = s.hbm := hbm_of_aside (dimApply_aside s)
@[simp] theorem shedStep_hbm (n : ℕ) : (shedStep s n).hbm = s.hbm := by simp only [shedStep]; (repeat' split) <;> simp
@[simp] theorem restoreStep_hbm (n : ℕ) : (restoreStep s n).hbm = s.hbm := by simp only [restoreStep]; (repeat' split) <;> simp
@[simp] theorem capWatch_hbm (c c₂ : Bool) : (capWatch c c₂ s).hbm = s.hbm := by simp [capWatch, blkPWR]
theorem tileSample_hbm (counts : List ℕ) : (tileSample counts s).hbm = s.hbm := by rw [tileSample]

theorem capStep_hbm (n : ℕ) : (capStep n s).hbm = s.hbm := by
  unfold capStep
  extract_lets saving pred paced s₀ s₁
  have start : s₀.hbm = s.hbm := rfl
  split
  · split
    · exact (capWatch_hbm ..).trans ((shedStep_hbm ..).trans start)
    · exact (capWatch_hbm ..).trans start
  · have watched : s₁.hbm = s.hbm := (capWatch_hbm ..).trans start
    (repeat' split)
    · exact (restoreStep_hbm ..).trans watched
    · exact watched
    · exact watched

theorem onPwr_samples (f : Pwr → Pwr) (h : ∀ p, (f p).samples = p.samples) : (onPwr f s).pwr.samples = s.pwr.samples := h s.pwr
theorem dimApply_samples : (dimApply s).pwr.samples = s.pwr.samples := congrArg Pwr.samples (dimApply_pwr s)

theorem shedStep_samples (n : ℕ) : (shedStep s n).pwr.samples = s.pwr.samples := by
  unfold shedStep
  (repeat' split)
  · exact onPwr_samples _ _ fun _ => rfl
  · exact onPwr_samples _ _ fun _ => rfl
  · exact (dimApply_samples _).trans (onPwr_samples _ _ fun _ => rfl)

theorem restoreStep_samples (n : ℕ) : (restoreStep s n).pwr.samples = s.pwr.samples := by
  unfold restoreStep
  (repeat' split)
  · exact onPwr_samples _ _ fun _ => rfl
  · exact onPwr_samples _ _ fun _ => rfl
  · exact (dimApply_samples _).trans (onPwr_samples _ _ fun _ => rfl)

@[simp] theorem flagPwr_pwr (k : ℕ) : (flag blkPWR 0 k s).pwr = { s.pwr with event := setBit s.pwr.event k } := by
  simp only [flag, eventBit, logEvent_pwr, setEv, blkPWR]
  rfl

theorem flagPwr_samples (k : ℕ) : (flag blkPWR 0 k s).pwr.samples = s.pwr.samples := by
  rw [flagPwr_pwr]

theorem capWatch_samples (c c₂ : Bool) : (capWatch c c₂ s).pwr.samples = s.pwr.samples := by
  unfold capWatch
  extract_lets o u s₁
  have start : s₁.pwr.samples = s.pwr.samples := onPwr_samples _ _ fun _ => rfl
  (repeat' split)
  · exact (flagPwr_samples _ 1).trans ((onPwr_samples _ _ fun _ => rfl).trans start)
  · exact (onPwr_samples _ _ fun _ => rfl).trans start
  · exact start

theorem tileSample_samples (counts : List ℕ) : (tileSample counts s).pwr.samples = s.pwr.samples := by rw [tileSample]

theorem capStep_samples (n : ℕ) : (capStep n s).pwr.samples = s.pwr.samples := by
  unfold capStep
  extract_lets saving pred paced s₀ s₁
  have start : s₀.pwr.samples = s.pwr.samples := rfl
  split
  · split
    · exact (capWatch_samples ..).trans ((onPwr_samples _ _ fun _ => rfl).trans ((shedStep_samples ..).trans start))
    · exact (capWatch_samples ..).trans start
  · have watched : s₁.pwr.samples = s.pwr.samples := (capWatch_samples ..).trans start
    (repeat' split)
    · exact (onPwr_samples _ _ fun _ => rfl).trans ((restoreStep_samples ..).trans watched)
    · exact watched
    · exact watched

/-! ### The fields of PWR_CTRL -/

theorem ctrlMask (ceiling hints : ℕ) : (mkReg [(31, 16, 0), (3, 3, hints), (2, 0, ceiling)]).2 = 0xFFFF000F#32 := by
  have mask : 0 ||| w32 ((2 ^ (31 + 1 - 16) - 1) * 2 ^ 16) ||| w32 ((2 ^ (3 + 1 - 3) - 1) * 2 ^ 3) ||| w32 ((2 ^ (2 + 1 - 0) - 1) * 2 ^ 0) =
    0xFFFF000F#32 := by decide
  exact mask

theorem readReg_ctrl : (readReg s 0x50000).2 = 0xFFFF000F#32 := ctrlMask s.pwr.opCeiling (b2n s.pwr.hintsOff)

theorem capMask (cap : ℕ) : (mkReg [(9, 0, cap)]).2 = 0x3FF#32 := by simp [mkReg, w32]
theorem readReg_capHost : (readReg s 0x50008).2 = 0x3FF#32 := capMask s.pwr.capHost.toNat

theorem capHost_good (w : BitVec 10) : rsvBad s 0x50008 (w.setWidth 32) = false := by
  rw [rsvBad, readReg_capHost, tenBits_reserved]
  exact Bool.and_false _

/-- A word of PWR_CTRL with an epoch, the hints bit and a ceiling: its fields, and no reserved bit. -/
theorem ctrl_fields (e : BitVec 16) (off : Bool) (b : BitVec 3) : fld (w32 (e.toNat * 2 ^ 16 + b2n off * 8 + b.toNat)) 31 16 = e.toNat ∧
    bit (w32 (e.toNat * 2 ^ 16 + b2n off * 8 + b.toNat)) 3 = off ∧ fld (w32 (e.toNat * 2 ^ 16 + b2n off * 8 + b.toNat)) 2 0 = b.toNat := by
  have epoch := e.isLt
  have ceiling := b.isLt
  have hints : b2n off ≤ 1 := by cases off <;> decide
  refine ⟨?_, ?_, ?_⟩
  · rw [fld, bits, w32, BitVec.toNat_ofNat]
    omega
  · have third : bit (w32 (e.toNat * 2 ^ 16 + b2n off * 8 + b.toNat)) 3 = decide ((e.toNat * 2 ^ 16 + b2n off * 8 + b.toNat) / 2 ^ 3 % 2 = 1) := by
      rw [bit, w32, BitVec.getLsbD_ofNat, Nat.testBit_eq_decide_div_mod_eq]
      simp
    rw [third, show (e.toNat * 2 ^ 16 + b2n off * 8 + b.toNat) / 2 ^ 3 % 2 = b2n off by omega]
    cases off <;> rfl
  · rw [fld, bits, w32, BitVec.toNat_ofNat]
    omega

theorem staleWord (e : BitVec 16) (b : BitVec 3) : e.toNat * 2 ^ 16 + b2n false * 8 + b.toNat = e.toNat * 2 ^ 16 + b.toNat := by
  rw [b2n, if_neg Bool.false_ne_true, Nat.zero_mul, Nat.add_zero]

theorem ctrl_good (e : BitVec 16) (off : Bool) (b : BitVec 3) : rsvBad s 0x50000 (w32 (e.toNat * 2 ^ 16 + b2n off * 8 + b.toNat)) = false := by
  have ceiling := b.isLt
  have hints : b2n off ≤ 1 := by cases off <;> decide
  have clear : w32 (e.toNat * 2 ^ 16 + b2n off * 8 + b.toNat) &&& ~~~0xFFFF000F#32 = 0 := by
    refine BitVec.eq_of_getLsbD_eq fun i hi => ?_
    have mask : ∀ i : Fin 32, (0xFFFF000F#32).getLsbD i.val = true ∨ 4 ≤ i.val ∧ i.val < 16 := by decide
    have low : b2n off * 8 + b.toNat < 2 ^ 4 := by omega
    rw [BitVec.getLsbD_and, BitVec.getLsbD_not, w32, BitVec.getLsbD_ofNat,
      show e.toNat * 2 ^ 16 + b2n off * 8 + b.toNat = 2 ^ 16 * e.toNat + (b2n off * 8 + b.toNat) by omega,
      Nat.testBit_two_pow_mul_add _ (Nat.lt_trans low (by decide))]
    obtain set | ⟨above, below⟩ := mask ⟨i, hi⟩
    · simp only at set
      simp [set]
    · simp only at above below
      simp [below, Nat.testBit_lt_two_pow (Nat.lt_of_lt_of_le low (Nat.pow_le_pow_right (by decide) above))]
  rw [rsvBad, readReg_ctrl, clear]
  exact Bool.and_false _

end

section
variable (s : State)

/-- The ceiling of firmware and host bounds the operating point. -/
theorem opMove_below {s : State} {n : ℕ} (h : s.pwr.opCeiling = n) : (opMove s).pwr.op ≤ n := by
  have limit : opWanted s ≤ n := by
    refine (Nat.min_le_left ..).trans ?_
    unfold opLimit
    dsimp only
    split
    · exact Nat.zero_le n
    · omega
  simp only [opMove, onPwr]
  split
  · exact limit
  · have still : (raiseTo (opWanted s) s.pwr).op = s.pwr.op := raiseTo_leaves (·.op) (fun _ _ _ => rfl) _ _
    omega

theorem pwrSettle_below (s : State) (f : State → State) : (pwrSettle f s).pwr.op ≤ (f s).pwr.opCeiling := by
  rw [pwrSettle_opAfter]
  exact opMove_below (startEnds_leaves _ (·.opCeiling) fun _ _ => rfl)

theorem portDim_mgt (p : Port) : (portDim p s).mgt = s.mgt := mgt_of_aside (portDim_aside s p)
theorem dimApply_mgt : (dimApply s).mgt = s.mgt := mgt_of_aside (dimApply_aside s)

@[simp] theorem policyTakes_mgt : (policyTakes s).mgt = s.mgt := by
  simp only [policyTakes]
  split
  · exact dimApply_mgt _
  · split
    · rfl
    · exact foldl_mgt _ _ _ fun t p => portDim_mgt t p

theorem policyTakes_pwr : (policyTakes s).pwr = { s.pwr with
    policy := (s.img.image.map fun i : Image => i.power).getD {}
    dim := min s.pwr.dim ((s.img.image.map fun i : Image => i.power).getD {}).dim.length } := by
  simp only [policyTakes]
  split
  · exact dimApply_pwr _
  · split
    · rfl
    · exact foldl_pwr _ _ _ fun t p => portDim_pwr t p

theorem raiseGo_droop : (raiseGo s).pwr.droop = s.pwr.droop ∧ (raiseGo s).pwr.droopQuiet = s.pwr.droopQuiet := by
  unfold raiseGo
  (repeat' split) <;> exact ⟨rfl, rfl⟩

/-- A settled rail without droop lets the waiting increase proceed. -/
theorem raiseGo_of_settled {w : ℕ} (raise : s.pwr.raise = some w) (quiet : s.pwr.droopQuiet = true) (droop : s.pwr.droop = 0) :
    raiseGo (onPwr (fun p => { p with railOk := true }) s) = onPwr (fun p => { p with op := w, raise := none, railOk := false }) s := by
  simp [raiseGo, onPwr, raise, quiet, droop, droopOver]

theorem agingCeiling_most (l : Vector ℕ 16) : agingCeiling l ≤ 7 := by
  unfold agingCeiling
  dsimp only
  split
  · exact le_rfl
  · exact List.foldlRecOn _ max (motive := (· ≤ 7)) (Nat.zero_le 7) fun b hb o ho =>
      Nat.max_le.mpr ⟨hb, Nat.le_of_lt (List.mem_range.mp (List.mem_of_mem_filter ho))⟩

/-- The end of a start takes no wish away. -/
theorem opWanted_unstarted : opWanted s ≤ opWanted (onPwr (fun p => { p with start := none }) s) := by
  have limit : opLimit (onPwr (fun p => { p with start := none }) s) = opLimit s := rfl
  have most : opLimit s ≤ 7 := by
    unfold opLimit
    dsimp only
    have := agingCeiling_most s.pwr.limits
    split <;> omega
  have none : opWanted (onPwr (fun p => { p with start := none }) s) = min (opLimit (onPwr (fun p => { p with start := none }) s)) 7 := rfl
  rw [none, limit, Nat.min_eq_left most]
  exact Nat.min_le_left ..

/-- An increase that has proceeded stands, and none waits when no start ends. -/
theorem opMove_raised {w : ℕ} (wanted : opWanted s = w) :
    (opMove (startEnds (onPwr (fun p => { p with op := w, raise := none, railOk := false }) s))).pwr.op = w ∧
      (s.pwr.start = none → (opMove (startEnds (onPwr (fun p => { p with op := w, raise := none, railOk := false }) s))).pwr.raise = none) := by
  have same : opWanted (onPwr (fun p => { p with op := w, raise := none, railOk := false }) s) = w := wanted
  have raised : (onPwr (fun p => { p with op := w, raise := none, railOk := false }) s).pwr.op = w := rfl
  have quiet : (onPwr (fun p => { p with op := w, raise := none, railOk := false }) s).pwr.raise = none := rfl
  have start : (onPwr (fun p => { p with op := w, raise := none, railOk := false }) s).pwr.start = s.pwr.start := rfl
  generalize onPwr (fun p => { p with op := w, raise := none, railOk := false }) s = t at same raised quiet start
  rw [← start]
  by_cases stays : startEnds t = t
  · simp [stays, opMove, onPwr, same, raised]
  · have ended : startEnds t = onPwr (fun p => { p with start := none }) t := by
      by_contra other
      exact stays (by unfold startEnds at other ⊢; split at other <;> simp_all)
    have above : w ≤ opWanted (startEnds t) := by
      rw [ended]
      exact same ▸ opWanted_unstarted t
    have stays' : (startEnds t).pwr.op = w := by rw [ended, ← raised]; rfl
    refine ⟨?_, fun unstarted => absurd ?_ stays⟩
    · simp only [opMove, onPwr]
      split
      · dsimp only
        omega
      · rw [raiseTo_leaves (·.op) (fun _ _ _ => rfl), stays']
    · simp [startEnds, unstarted]

end

section
variable (rails : List RailSample) (tiles : List ℕ) (s : State)

theorem sampleEffect_samples : (sampleEffect rails tiles s).pwr.samples = (inputPower rails :: s.pwr.samples).take 100 := by
  rw [sampleEffect, capStep_samples, tileSample_samples, onPwr_pwr]

theorem sampleEffect_hbm : (sampleEffect rails tiles s).hbm = s.hbm := by
  rw [sampleEffect, capStep_hbm, tileSample_hbm, onPwr_hbm]

end

/-- Settles O18: what each command leaves of the power block before the operating point settles, and what settling makes of it. -/
theorem powerAlertAndDroop : Obligations.PowerAlertAndDroop := by
  unfold Obligations.PowerAlertAndDroop
  refine ⟨fun rails tiles s hs => ⟨_, (exec_powerSample rails tiles s).trans (run_of_running _ s hs), ?sample⟩,
    fun s hs => ⟨_, run_of_running _ s hs, ?period⟩,
    fun mv w s hs raise wanted low high quiet droop => ⟨_, run_of_running _ s hs, ?settled⟩,
    fun b off s hon => ⟨_, regRow_of_running _ hon.1 hon.2 ?ctrlGood, ?ctrl⟩,
    fun b e s hon stale => ⟨_, regRow_of_running _ hon.1 hon.2 ?staleGood, ?stale⟩,
    fun w s hon low high => ⟨_, regRow_of_running _ hon.1 hon.2 ?capGood, ?cap⟩,
    fun ns s hs long idle => ⟨_, run_of_running _ s hs, ?alert⟩, fun ns s hs short => ⟨_, run_of_running _ s hs, ?glitch⟩,
    fun s hs on => ⟨_, run_of_running _ s hs, ?release⟩, fun s hs => ⟨_, run_of_running _ s hs, ?holdEnd⟩,
    fun b s hs => ⟨_, run_of_running _ s hs, ?droop⟩, fun b s hs => ⟨_, run_of_running _ s hs, ?clear⟩,
    fun s hs none => ⟨_, run_of_running _ s hs, ?quiet⟩⟩
  case sample =>
    rw [irqSettle_pwr, irqSettle_hbm, pwrSettle_samples, pwrSettle_hbm, pwrSettle_energy, sampleEffect_hbm]
    exact ⟨sampleEffect_samples rails tiles s, sampleEffect_energy rails tiles s, rfl⟩
  case period =>
    have small (n : ℕ) : min n (min s.pwr.capHost.toNat s.mgt.capMgmt.toNat) % 1024 = min n (min s.pwr.capHost.toNat s.mgt.capMgmt.toNat) := by
      have := s.pwr.capHost.isLt
      omega
    simp [tilesRescale, policyTakes_pwr, policyTakes_mgt, powerRec, small]
  case settled =>
    rw [irqSettle_pwr, pwrSettle_opAfter, pwrSettle_raiseAfter]
    simp only [raise, low, high, and_self, if_true]
    rw [raiseGo_of_settled s raise quiet droop]
    exact opMove_raised s wanted
  case ctrlGood => exact ctrl_good s ..
  case ctrl =>
    obtain ⟨epoch, hints, ceiling⟩ := ctrl_fields s.pwr.epoch off b
    generalize w32 (s.pwr.epoch.toNat * 2 ^ 16 + b2n off * 8 + b.toNat) = v at epoch hints ceiling
    have set : pwrCtrl v s = onPwr (fun p => { p with hintsOff := off, opCeiling := b.toNat, epoch := p.epoch + 1 }) s := by
      simp [pwrCtrl, epoch, hints, ceiling]
    have below := pwrSettle_below s (pwrCtrl v)
    rw [irqSettle_pwr, pwrSettle_opCeiling, pwrSettle_hintsOff, set]
    rw [set] at below
    exact ⟨rfl, rfl, below⟩
  case staleGood => exact staleWord e b ▸ ctrl_good s e false b
  case stale =>
    obtain ⟨epoch, -, -⟩ := ctrl_fields e false b
    have other : e.toNat ≠ s.pwr.epoch.toNat := fun same => stale (BitVec.eq_of_toNat_eq same)
    rw [staleWord] at epoch
    generalize w32 (e.toNat * 2 ^ 16 + b.toNat) = v at epoch
    have dropped : pwrCtrl v s = flag blkPWR 0 5 s := by simp [pwrCtrl, epoch, other]
    rw [irqSettle_pwr, pwrSettle_opCeiling, pwrSettle_hintsOff, dropped]
    refine ⟨by simp [flagPwr_pwr], by simp [flagPwr_pwr], pwrSettle_event s _ ?_⟩
    simp [dropped, flagPwr_pwr]
  case capGood => exact capHost_good s w
  case cap =>
    have field : fld (w.setWidth 32) 9 0 = w.toNat := by
      rw [fld, bits, BitVec.toNat_setWidth]
      omega
    simp [capField, field, low, high]
  case alert =>
    have pulse : ¬(ns < 20 ∨ s.pwr.alertPin = true) := by simp [idle, long]
    simp only [irqSettle_pwr, pwrSettle_alertPin]
    obtain ⟨op, raise⟩ := pwrSettle_forced s (fun s => if ns < 20 ∨ s.pwr.alertPin then s
      else flag blkPWR 0 2 (onPwr (fun p => { p with alertPin := true, alertHold := false, raise := none, railOk := false }) s))
      (by simp [pulse, opForced])
    refine ⟨by simp [pulse], op, raise, pwrSettle_event s _ ?_⟩
    simp [pulse]
  case glitch => simp [short]
  case release =>
    obtain ⟨op, -⟩ := pwrSettle_forced s (fun s => if s.pwr.alertPin then onPwr (fun p => { p with alertPin := false, alertHold := true }) s else s)
      (by simp [on, opForced])
    simp only [irqSettle_pwr, pwrSettle_alertPin, pwrSettle_alertHold]
    exact ⟨by simp [on], by simp [on], op⟩
  case holdEnd => simp
  case droop => simp
  case clear => simp
  case quiet => simp [none, raiseGo_droop]

end Sys2Proof.Machine
end

section
/-!
PROOFS. The grid, bias and thermal loops of a comb die and its hourly records (R309 to R312).
-/

-- In sequence: each worker of the elaborator takes its stack from the memory that a check may use.
set_option Elab.async false

namespace Sys2Proof.Machine

/-- A die of the comb groups. -/
def dieAt (g : CombGroup) (d : CombDie) (s : State) : Die := (s.comb.group[g.val]).die[d.val]

section
variable {s t : State} {g : CombGroup} {d : CombDie}

theorem dieAt_of_comb (h : t.comb = s.comb) : dieAt g d t = dieAt g d s := by rw [dieAt, h, dieAt]
theorem dieAt_of_group (h : t.comb.group = s.comb.group) : dieAt g d t = dieAt g d s := by rw [dieAt, h, dieAt]

@[simp] theorem dieAt_onDie (f : Die → Die) : dieAt g d (onDie g d f s) = f (dieAt g d s) := by simp [dieAt, onDie, onGroup]

theorem dieAt_onDie_of_ne {h : CombGroup} {k : CombDie} (other : (g, d) ≠ (h, k)) (f : Die → Die) : dieAt g d (onDie h k f s) = dieAt g d s := by
  by_cases group : g = h
  · subst group
    have die : d ≠ k := fun same => other (by rw [same])
    simp [dieAt, onDie, onGroup, upd_val_of_ne _ _ die]
  · simp [dieAt, onDie, onGroup, upd_val_of_ne _ _ group]

@[simp] theorem dieAt_groupCheck (h : CombGroup) : dieAt g d (groupCheck h s) = dieAt g d s := by rw [dieAt, groupCheck_die, dieAt]
@[simp] theorem dieAt_spend (n : ℕ) : dieAt g d (spend n s) = dieAt g d s := rfl
@[simp] theorem dieAt_logEvent (a b c e : ℕ) : dieAt g d (logEvent a b c e s) = dieAt g d s := dieAt_of_comb (logEvent_comb ..)

/-- What the grid loop makes of its die. -/
theorem dieAt_gridLoop (off t8 : Int) : dieAt g d (gridLoop g d off t8 s) =
    (fun y : Die => { (if decide (0 < (dieAt g d s).current) && (dieAt g d s).state != .standby then gridSet s.fresh off y else y) with
      temp8 := t8, offsetMhz := off
      gridHeld := decide (0 < (dieAt g d s).current) && (dieAt g d s).state != .standby && decide (off.natAbs ≤ 1000)
      state := if decide (0 < (dieAt g d s).current) && (dieAt g d s).state != .standby && decide (off.natAbs ≤ 1000) && y.state == .warming &&
        (decide (d.val < 4) || (s.comb.group[g]).spareAt.isSome) then .active else y.state }) (dieAt g d s) := by
  unfold gridLoop
  dsimp only
  rw [dieAt_groupCheck, dieAt_spend, dieAt_onDie]
  rfl

/-- What a thermal reduction makes of a hot die. -/
theorem dieAt_thermalReduction {t8 : Int} (lit : (dieAt g d s).current ≠ 0) (hot : 560 ≤ t8) : dieAt g d (thermalReduction g d t8 s) =
    { dieAt g d s with temp8 := t8, reducing := true, current := (dieAt g d s).current * 98 / 100 } := by
  unfold thermalReduction
  dsimp only
  rw [if_neg (by exact lit), if_pos (.inl hot)]
  split
  · rw [dieAt_onDie, dieAt_onDie]
  · rw [dieAt_logEvent, dieAt_onDie, dieAt_onDie]

/-! ### The bias loop (R310) -/

@[simp] theorem dieAt_crossCheck (est : List (Port × Line × Int)) (p : Port) : dieAt g d (crossCheck est s p) = dieAt g d s := by
  unfold crossCheck
  (repeat' split)
  · rfl
  · exact (dieAt_logEvent ..).trans rfl
  · rfl
  · rfl

theorem dieAt_crossChecks (est : List (Port × Line × Int)) (l : List Port) (s : State) : dieAt g d (l.foldl (crossCheck est) s) = dieAt g d s :=
  foldl_kept (dieAt g d) _ _ _ fun _ _ => dieAt_crossCheck ..

/-- A report keeps the gain current of every die. -/
theorem current_dieReport {h : CombGroup} {k : CombDie} (launches : List Int) : (dieAt g d (dieReport h k launches s)).current =
    (dieAt g d s).current := by
  have marked (now : BitVec 3) : (dieAt g d (onDie h k (fun y => { y with reported := now }) s)).current = (dieAt g d s).current := by
    by_cases same : (g, d) = (h, k)
    · obtain ⟨rfl, rfl⟩ := Prod.mk.inj same
      rw [dieAt_onDie]
    · rw [dieAt_onDie_of_ne same]
  have logged (c : Prop) [Decidable c] (a b n i : ℕ) (t : State) : dieAt g d (if c then logEvent a b n i t else t) = dieAt g d t := by
    split
    · exact dieAt_logEvent ..
    · rfl
  unfold dieReport
  dsimp only
  rw [logged, logged, logged]
  exact marked _

/-- A step of the bias loop moves the current by at most 0.5 mA, below 1.60 A, and not up when the die is hot. -/
theorem biasStep_bounds (n : ℕ) (launch temp8 : Int) {cur : ℕ} (most : cur ≤ 1600000) : biasStep n launch temp8 cur ≤ cur + 500 ∧
    cur ≤ biasStep n launch temp8 cur + 500 ∧ biasStep n launch temp8 cur ≤ 1600000 ∧ (544 ≤ temp8 → biasStep n launch temp8 cur ≤ cur) := by
  have move : (Config.freeValue 16 n).toNat % 501 ≤ 500 := by omega
  unfold biasStep
  dsimp only
  generalize (Config.freeValue 16 n).toNat % 501 = m at move
  (repeat' split) <;> omega

/-- What a turn of the bias loop makes of the gain currents of a group. -/
structure Biased (g : CombGroup) (d : CombDie) (temp8 : Int) (s t : State) : Prop where
  up : (dieAt g d t).current ≤ (dieAt g d s).current + 500
  down : (dieAt g d s).current ≤ (dieAt g d t).current + 500
  most : (dieAt g d t).current ≤ 1600000
  hot : 544 ≤ temp8 → (dieAt g d t).current ≤ (dieAt g d s).current
  others : ∀ k : Fin 5, k ≠ d → (dieAt g k t).current = (dieAt g k s).current

/-- A turn that leaves every current is within the bounds. -/
theorem biased_of_kept {temp8 : Int} (most : (dieAt g d s).current ≤ 1600000) (h : ∀ k : CombDie, (dieAt g k t).current = (dieAt g k s).current) :
    Biased g d temp8 s t := ⟨by rw [h]; omega, by rw [h]; omega, by rw [h]; omega, fun _ => by rw [h], fun k _ => h k⟩

theorem biasLoop_biased (est : List (Port × Line × Int)) (temp8 : Int) (most : (dieAt g d s).current ≤ 1600000) :
    Biased g d temp8 s (biasLoop g d est temp8 s) := by
  unfold biasLoop
  dsimp only
  split
  · exact biased_of_kept most fun _ => rfl
  · split
    · exact biased_of_kept most fun _ => rfl
    · have checked := fun k => dieAt_crossChecks (g := g) (d := k) est (posPorts g ‹_›) s
      generalize (posPorts g _).foldl (crossCheck est) s = u at checked
      split
      · refine biased_of_kept most fun k => ?_
        by_cases same : k = d
        · rw [same, dieAt_onDie, checked]
        · rw [dieAt_onDie_of_ne (by simpa using same), checked]
      · rename_i m _
        obtain ⟨up, down, bounded, hot⟩ := biasStep_bounds u.fresh m temp8 most
        have own : (dieAt g d (onDie g d (fun y => { y with
            temp8 := temp8, launch := m, current := biasStep u.fresh m temp8 y.current }) u)).current =
            biasStep u.fresh m temp8 (dieAt g d s).current := by rw [dieAt_onDie, checked]
        have others (k : CombDie) (other : k ≠ d) : (dieAt g k (onDie g d (fun y => { y with
            temp8 := temp8, launch := m, current := biasStep u.fresh m temp8 y.current }) u)).current = (dieAt g k s).current := by
          rw [dieAt_onDie_of_ne (by simpa using other), checked]
        generalize onDie g d _ u = v at own others
        refine Biased.mk ?_ ?_ ?_ (fun warm => ?_) fun k other => (current_dieReport _).trans (others k other)
        · rw [current_dieReport]
          exact own ▸ up
        · rw [current_dieReport]
          exact own ▸ down
        · rw [current_dieReport]
          exact own ▸ bounded
        · rw [current_dieReport]
          exact own ▸ hot warm

/-! ### The hourly records (R312) -/

/-- Each die of a list without repeats gets one hour more. -/
theorem hours_foldl {step : State → CombGroup × CombDie → State}
    (turn : ∀ t e, dieAt g d (step t e) = if e = (g, d) then { dieAt g d t with hours := (dieAt g d t).hours + 1 } else dieAt g d t)
    (l : List (CombGroup × CombDie)) (nodup : l.Nodup) (s : State) :
    dieAt g d (l.foldl step s) = if (g, d) ∈ l then { dieAt g d s with hours := (dieAt g d s).hours + 1 } else dieAt g d s := by
  induction l generalizing s with
  | nil => simp
  | cons e r ih =>
    obtain ⟨fresh, nodup⟩ := List.nodup_cons.mp nodup
    rw [List.foldl_cons, ih nodup, turn]
    by_cases same : e = (g, d)
    · subst same
      simp [fresh]
    · simp [same, Ne.symm same]

theorem activeDies_nodup (s : State) : (activeDies s).Nodup := by
  refine List.nodup_flatMap.mpr ⟨fun g _ => ?_, ?_⟩
  · exact ((List.nodup_finRange 5).filter _).map fun a b same => (Prod.mk.inj same).2
  · refine (List.nodup_finRange 4).imp fun {a b} other => ?_
    simp only [Function.onFun, List.disjoint_left, List.mem_map]
    rintro e ⟨i, -, rfl⟩ ⟨j, -, same⟩
    exact other (Prod.mk.inj same).1.symm

theorem hours_onDie (t : State) (e : CombGroup × CombDie) : dieAt g d (onDie e.1 e.2 (fun y => { y with hours := y.hours + 1 }) t) =
    if e = (g, d) then { dieAt g d t with hours := (dieAt g d t).hours + 1 } else dieAt g d t := by
  split
  · next same => rw [same, dieAt_onDie]
  · next other => exact dieAt_onDie_of_ne (Ne.symm other) _

theorem agingRecord_hours (t : State) (e : CombGroup × CombDie) : dieAt g d (agingRecord t e) =
    if e = (g, d) then { dieAt g d t with hours := (dieAt g d t).hours + 1 } else dieAt g d t := hours_onDie t e

theorem agingWrite_hours (ok : Bool) (active : (g, d) ∈ activeDies s) :
    dieAt g d (agingWrite ok s) = { dieAt g d s with hours := (dieAt g d s).hours + 1 } := by
  unfold agingWrite
  split
  · rw [hours_foldl agingRecord_hours _ (activeDies_nodup s), if_pos active]
  · rw [dieAt_logEvent]
    refine Eq.trans ?_ ((hours_foldl hours_onDie _ (activeDies_nodup s) s).trans (if_pos active))
    exact dieAt_of_comb (by simp [flashFailed, blkMGT])

theorem agingRecord_mgt (t : State) (e : CombGroup × CombDie) : (agingRecord t e).mgt.flashFailures = t.mgt.flashFailures ∧
    (agingRecord t e).mgt.aging.length = min (Config.agingRoom.val + 1) (t.mgt.aging.length + 1) := by
  refine ⟨rfl, ?_⟩
  simp [agingRecord, intoAging, onDie, onGroup]

/-- While the log has room, every record stays. -/
theorem agingRecords_mgt (l : List (CombGroup × CombDie)) (s : State) (room : s.mgt.aging.length + l.length ≤ Config.agingRoom.val + 1) :
    (l.foldl agingRecord s).mgt.aging.length = s.mgt.aging.length + l.length ∧ (l.foldl agingRecord s).mgt.flashFailures = s.mgt.flashFailures := by
  induction l generalizing s with
  | nil => exact ⟨rfl, rfl⟩
  | cons e r ih =>
    obtain ⟨failures, length⟩ := agingRecord_mgt s e
    rw [List.length_cons] at room ⊢
    obtain ⟨all, kept⟩ := ih (agingRecord s e) (by omega)
    exact ⟨by rw [List.foldl_cons, all]; omega, kept.trans failures⟩

end

/-- Settles O20: the loops of a die by what they set, and one aging record for each active die. -/
theorem combDieLoops : Obligations.CombDieLoops := by
  unfold Obligations.CombDieLoops
  refine ⟨fun g d off t8 s hs warming home lit near => ⟨_, run_of_running _ s hs, ?held⟩,
    fun g d off t8 s hs far => ⟨_, run_of_running _ s hs, ?lost⟩,
    fun g d est t8 s hs active most => ⟨_, run_of_running _ s hs, ?bias⟩, fun g d t8 s hs lit hot => ⟨_, run_of_running _ s hs, ?reduces⟩,
    fun s hs fitted room => ⟨_, run_of_running _ s hs, ?logged⟩, fun ok g d s hs active => ⟨_, run_of_running _ s hs, ?hours⟩⟩
  case held =>
    have here := dieAt_gridLoop (s := s) (g := g) (d := d) off (dieTemp s g d t8)
    have warming' : (dieAt g d s).state = .warming := warming
    have lit' : 0 < (dieAt g d s).current := lit
    simp only [irqSettle_comb]
    refine ⟨(congrArg Die.gridHeld here).trans ?_, (congrArg Die.state here).trans ?_, (congrArg Die.current here).trans ?_⟩
    · simp [warming', lit', near]
    · simp [warming', lit', near, home]
    · simp [warming', lit', gridSet]
      rfl
  case lost =>
    have here := dieAt_gridLoop (s := s) (g := g) (d := d) off (dieTemp s g d t8)
    have far' : ¬off.natAbs ≤ 1000 := by omega
    simp only [irqSettle_comb]
    refine ⟨(congrArg Die.gridHeld here).trans ?_, (congrArg Die.state here).trans ?_⟩
    · simp [far']
    · simp [far']
      rfl
  case bias =>
    obtain ⟨up, down, most, hot, others⟩ := biasLoop_biased est (dieTemp s g d t8) most
    simp only [irqSettle_comb]
    exact ⟨up, down, most, hot, others⟩
  case reduces =>
    have here := dieAt_thermalReduction (s := s) (g := g) (d := d) lit hot
    simp only [irqSettle_comb]
    exact ⟨congrArg Die.current here, congrArg Die.reducing here⟩
  case logged =>
    obtain ⟨length, failures⟩ := agingRecords_mgt (activeDies s) s room
    rw [irqSettle_mgt, agingWrite, if_pos (by simp [fitted])]
    exact ⟨length, failures⟩
  case hours =>
    have more := agingWrite_hours ok active
    simp only [irqSettle_comb]
    have hours : (dieAt g d (agingWrite ok s)).hours = (dieAt g d s).hours + 1 := by rw [more]
    have current : (dieAt g d (agingWrite ok s)).current = (dieAt g d s).current := by rw [more]
    exact ⟨hours, current⟩

end Sys2Proof.Machine
end

section
/-!
PROOFS. Failures of a comb die, open fibres and probes (R313 to R316, R323 to R328).
-/

-- In sequence: each worker of the elaborator takes its stack from the memory that a check may use.
set_option Elab.async false

namespace Sys2Proof.Machine

section
variable (s : State)

/-! ### What a broken beam leaves of ports and sites -/

/-- A port without its event bits and its lines. -/
def portCore (p : Port) (t : State) : PortSt := { t.port[p.val] with event := 0, line := Vector.replicate 35 {} }

theorem portCore_of_port {s t : State} (h : t.port = s.port) (p : Port) : portCore p t = portCore p s := by rw [portCore, h, portCore]

theorem onPort_portCore (q : Port) (f : PortSt → PortSt) (p : Port)
    (hf : p = q → ({ f s.port[q.val] with event := 0, line := Vector.replicate 35 {} } :
    PortSt) = { s.port[q.val] with event := 0, line := Vector.replicate 35 {} }) : portCore p (onPort q f s) = portCore p s := by
  by_cases same : p = q
  · subst same
    rw [portCore, onPort, upd_val_self, hf rfl, portCore]
  · rw [portCore, onPort, upd_val_of_ne _ _ same, portCore]

/-- A site without the messages that wait on its sideband. -/
def siteCore (x : SiteIx) (t : State) : Site := { t.site[x.val] with sb := { (t.site[x.val]).sb with queue := [] } }

theorem siteCore_of_site {s t : State} (h : t.site = s.site) (x : SiteIx) : siteCore x t = siteCore x s := by rw [siteCore, h, siteCore]

section
variable (p q : Port) (x : SiteIx)

theorem setEvPort_portCore (i n : ℕ) : portCore p (setEv 8 i n s) = portCore p s := onPort_portCore s _ _ p fun _ => rfl
theorem logEvent_portCore (c k n i : ℕ) : portCore p (logEvent c k n i s) = portCore p s := portCore_of_port (logEvent_port ..) p

theorem breakBeam_portCore (b : Beam) : portCore p (breakBeam b s) = portCore p s := by
  unfold breakBeam
  split
  · rfl
  · dsimp only
    rw [portCore_of_port (abortIf_port ..), eventBit, logEvent_portCore, portCore_of_port (setEv_port _ _ _ (by decide)), setEvPort_portCore,
      portCore_of_port (onBeam_port ..)]

theorem breakBeams_portCore (l : List Beam) : portCore p (l.foldl (fun t b => breakBeam b t) s) = portCore p s :=
  foldl_kept (portCore p) _ _ _ fun t b => breakBeam_portCore t p b

theorem echoUncorr_portCore : portCore p (echoUncorr s) = portCore p s :=
  foldl_kept (portCore p) _ _ _ fun t _ => onPort_portCore t _ _ p fun _ => rfl

theorem endEcho_portCore : portCore p (endEcho s) = portCore p s := by
  unfold endEcho
  split
  · dsimp only
    rw [portCore_of_port (flag_port _ _ _ (by decide)), echoUncorr_portCore]
    rfl
  · rfl

theorem endEchoFibre_portCore : portCore p (endEchoFibre q s) = portCore p s := by
  unfold endEchoFibre
  split
  · exact endEcho_portCore s p
  · rfl

theorem sendToken_siteCore (y : SiteIx) (w : DWord) : siteCore x (sendToken y w s) = siteCore x s := by
  by_cases same : x = y
  · subst same
    simp only [siteCore, sendToken, onSite, upd_val_self]
    split <;> rfl
  · simp only [siteCore, sendToken, onSite, upd_val_of_ne _ _ same]

theorem noticeAll_siteCore (n : ℕ) : siteCore x (noticeAll n s) = siteCore x s :=
  foldl_kept (siteCore x) _ _ _ fun t y => by
    split
    · exact sendToken_siteCore t x y _
    · rfl

theorem abortEpoch_siteCore : siteCore x (abortEpoch s) = siteCore x s := (noticeAll_siteCore _ x 6).trans rfl

theorem abortIf_siteCore (c : Bool) : siteCore x (abortIf c s) = siteCore x s := by
  unfold abortIf abortFenced
  (repeat' split)
  · exact abortEpoch_siteCore s x
  · exact abortEpoch_siteCore s x
  · rfl
  · rfl
  · rfl

theorem breakBeam_siteCore (b : Beam) : siteCore x (breakBeam b s) = siteCore x s := by
  unfold breakBeam
  split
  · rfl
  · dsimp only
    rw [abortIf_siteCore]
    exact siteCore_of_site (by simp) x

theorem breakBeams_siteCore (l : List Beam) : siteCore x (l.foldl (fun t b => breakBeam b t) s) = siteCore x s :=
  foldl_kept (siteCore x) _ _ _ fun t b => breakBeam_siteCore t x b

end

/-! ### Broken beams stay broken -/

/-- A beam is broken. -/
def Broken (b : Beam) (t : State) : Prop := (t.beam[b.val]).state = 6

section
variable {s}

theorem Broken.of_beam {b : Beam} {t : State} (h : Broken b s) (same : t.beam = s.beam) : Broken b t := by
  rw [Broken, same]
  exact h

theorem abortEpoch_broken {b : Beam} (h : Broken b s) : Broken b (abortEpoch s) := by
  have kept : (abortEpoch s).beam = s.beam.map (dropUnsent (s.ctl.serial + 1)) := noticeAll_beam ..
  rw [Broken, kept, Vector.getElem_map]
  exact h

theorem abortIf_broken {b : Beam} (c : Bool) (h : Broken b s) : Broken b (abortIf c s) := by
  unfold abortIf abortFenced
  (repeat' split)
  · exact abortEpoch_broken h
  · exact (abortEpoch_broken h).of_beam rfl
  · exact h
  · exact h
  · exact h

theorem breakBeam_keeps {b c : Beam} (h : Broken b s) : Broken b (breakBeam c s) := by
  unfold breakBeam
  split
  · exact h
  · refine abortIf_broken _ (Broken.of_beam (s := onBeam c breakBeamSt s) ?_ (by simp))
    by_cases same : b = c
    · subst same
      simp [Broken, onBeam, breakBeamSt]
    · rw [Broken, onBeam, upd_val_of_ne _ _ same]
      exact h

theorem breakBeam_broken (b : Beam) (s : State) : Broken b (breakBeam b s) := by
  unfold breakBeam
  split
  · assumption
  · refine abortIf_broken _ (Broken.of_beam (s := onBeam b breakBeamSt s) ?_ (by simp))
    simp [Broken, onBeam, breakBeamSt]

theorem breakBeams_keep {b : Beam} (l : List Beam) (h : Broken b s) : Broken b (l.foldl (fun t c => breakBeam c t) s) := by
  induction l generalizing s with
  | nil => exact h
  | cons c r ih => exact ih (breakBeam_keeps h)

theorem breakBeams_broken {b : Beam} {l : List Beam} (h : b ∈ l) (s : State) : Broken b (l.foldl (fun t c => breakBeam c t) s) := by
  induction l generalizing s with
  | nil => cases h
  | cons c r ih =>
    obtain rfl | later := List.mem_cons.mp h
    · exact breakBeams_keep r (breakBeam_broken b s)
    · exact ih later _

end

/-! ### Dark ports -/

/-- What stays to be seen of a port that goes dark does not rest on its lines and event bits. -/
theorem portDarkSt_core (n : ℕ) (q : PortSt) : ({ portDarkSt n q with event := 0, line := Vector.replicate 35 {} } : PortSt) =
    { portDarkSt n { q with event := 0, line := Vector.replicate 35 {} } with event := 0, line := Vector.replicate 35 {} } := rfl

theorem darkFor_core {q : Port} (n : ℕ) (lit : (s.port[q.val]).state ≠ 0) :
    portCore q (darkFor n s q) = { portDarkSt n (portCore q s) with event := 0, line := Vector.replicate 35 {} } := by
  have dark (t : State) : portCore q (onPort q (portDarkSt n) t) =
    { portDarkSt n (portCore q t) with event := 0, line := Vector.replicate 35 {} } := by
    rw [portCore, onPort, upd_val_self]
    exact portDarkSt_core n _
  have quiet : portCore q (endEchoFibre q (endSubs q s)) = portCore q s := by rw [endEchoFibre_portCore, portCore_of_port (endSubs_port ..)]
  unfold darkFor
  dsimp only
  rw [if_neg (by exact lit), breakBeams_portCore]
  split
  · rw [blkPRT, setEvPort_portCore, dark, quiet]
  · rw [dark, quiet]

theorem darkFor_idle {q : Port} (n : ℕ) (dark : (s.port[q.val]).state = 0) : darkFor n s q = onPort q (fun q => { q with
    probing := false, probeLight := false, probes := 0, shutter := .closed }) s := by
  unfold darkFor
  dsimp only
  rw [if_pos (by exact dark)]

theorem darkFor_core_of_ne {p q : Port} (n : ℕ) (other : p ≠ q) : portCore p (darkFor n s q) = portCore p s := by
  unfold darkFor
  dsimp only
  split
  · exact onPort_portCore s q _ p fun same => absurd same other
  · rw [breakBeams_portCore]
    split
    · rw [blkPRT, setEvPort_portCore, onPort_portCore _ q _ p fun same => absurd same other, endEchoFibre_portCore, portCore_of_port
      (endSubs_port ..)]
    · rw [onPort_portCore _ q _ p fun same => absurd same other, endEchoFibre_portCore, portCore_of_port (endSubs_port ..)]

/-- Light fails a port, which is dark then. -/
theorem darkFor_dark (n : ℕ) (q : Port) : ((darkFor n s q).port[q.val]).state = 0 := by
  by_cases dark : (s.port[q.val]).state = 0
  · rw [darkFor_idle s n dark]
    simpa [onPort] using dark
  · exact congrArg PortSt.state (darkFor_core s n dark)

theorem darkFor_keeps {p : Port} (n : ℕ) (q : Port) (dark : (s.port[p.val]).state = 0) : ((darkFor n s q).port[p.val]).state = 0 := by
  by_cases same : p = q
  · subst same
    exact darkFor_dark s n p
  · exact (congrArg PortSt.state (darkFor_core_of_ne s n same)).trans dark

theorem darkFors_keep {p : Port} (n : ℕ) (l : List Port) (dark : (s.port[p.val]).state = 0) : ((l.foldl (darkFor n) s).port[p.val]).state = 0 := by
  induction l generalizing s with
  | nil => exact dark
  | cons q r ih => exact ih _ (darkFor_keeps s n q dark)

theorem darkFors_dark {p : Port} {l : List Port} (n : ℕ) (h : p ∈ l) : ((l.foldl (darkFor n) s).port[p.val]).state = 0 := by
  induction l generalizing s with
  | nil => cases h
  | cons q r ih =>
    obtain rfl | later := List.mem_cons.mp h
    · exact darkFors_keep _ n r (darkFor_dark s n p)
    · exact ih _ later

/-! ### A dark port and a broken beam through a return to Penumbra (R494) -/

/-- What is seen of a dark port. -/
def darkSeen (p : Port) (t : State) : BitVec 4 × BitVec 16 × Shutter × Bool :=
  ((t.port[p.val]).state, (t.port[p.val]).epoch, (t.port[p.val]).shutter, (t.port[p.val]).exchangeTuned)

theorem darkSeen_of_core {p : Port} {s t : State} (h : portCore p t = portCore p s) : darkSeen p t = darkSeen p s := by
  have seen := congrArg (fun q : PortSt => (q.state, q.epoch, q.shutter, q.exchangeTuned)) h
  exact seen

theorem darkSeen_of_port {s t : State} (h : t.port = s.port) (p : Port) : darkSeen p t = darkSeen p s := darkSeen_of_core (portCore_of_port h p)

theorem dark_of_seen {p : Port} {s t : State} (h : darkSeen p t = darkSeen p s) (dark : (s.port[p.val]).state = 0) : (t.port[p.val]).state = 0 :=
  (congrArg Prod.fst h).trans dark

theorem noteLockeds_port (l : List Beam) : (l.foldl (fun t b => if beamLit (t.beam[b]) then noteLocked b t else t) s).port = s.port :=
  foldl_port _ _ _ fun t b => by
    unfold noteLocked
    (repeat' split) <;> simp

theorem planWithdraw_darkSeen (p : Port) : darkSeen p (planWithdraw s) = darkSeen p s := by
  unfold planWithdraw
  have same := noteLockeds_port s (fins 256)
  generalize (fins 256).foldl _ s = t at same
  simp [darkSeen, ← same]

theorem pausePort_port (p : Port) : (pausePort p s).port = s.port := foldl_port _ _ _ fun _ _ => onBeam_port ..

theorem trainPort_core_of_ne {p q : Port} (k : BitVec 4) (other : p ≠ q) : portCore p (trainPort q k s) = portCore p s := by
  unfold trainPort trainStep
  dsimp only
  rw [portCore_of_port (emit_port ..), onPort_portCore _ q _ p fun same => absurd same other, onPort_portCore _ q _ p fun same => absurd same other,
    portCore_of_port (pausePort_port ..), endEchoFibre_portCore, portCore_of_port (endSubs_port ..)]

/-- A dark port does not train again. -/
theorem trainAgain_core {p : Port} (q : Port) (dark : (s.port[p.val]).state = 0) : portCore p (trainAgain q s) = portCore p s := by
  by_cases same : p = q
  · subst same
    have down : portUp s.port[p.val] = false := by simp [portUp, dark]
    have still : trainAgain p s = s := by simp [trainAgain, down, dark]
    rw [still]
  · have again (k : BitVec 4) : portCore p (retrainPort q k s) = portCore p s := by
      unfold retrainPort
      split
      · rfl
      · rw [logEvent_portCore, trainPort_core_of_ne _ _ same, onPort_portCore _ q _ p fun eq => absurd eq same]
    unfold trainAgain
    dsimp only
    split
    · exact again 2
    · split
      · exact trainPort_core_of_ne s _ same
      · rfl

theorem trainAgains_core {p : Port} (l : List Port) (dark : (s.port[p.val]).state = 0) :
    portCore p (l.foldl (fun t q => trainAgain q t) s) = portCore p s := by
  induction l generalizing s with
  | nil => rfl
  | cons q r ih =>
    have step := trainAgain_core s q dark
    exact (ih _ ((congrArg PortSt.state step).trans dark)).trans step

@[simp] theorem withdrawArm_port : (withdrawArm s).port = s.port := by unfold withdrawArm; split <;> simp
@[simp] theorem penumbraStop_port : (penumbraStop s).port = s.port := by unfold penumbraStop; dsimp only; split <;> simp
@[simp] theorem setDev_port (d : DevState) : (setDev d s).port = s.port := by simp [setDev]
@[simp] theorem penumbraReplies_port : (penumbraReplies s).port = s.port := by simp [penumbraReplies]
@[simp] theorem startEnds_port : (startEnds s).port = s.port := by simp [startEnds]
@[simp] theorem opMove_port : (opMove s).port = s.port := by simp [opMove]
@[simp] theorem railWrite_port (was : Pwr) : (railWrite was s).port = s.port := by simp [railWrite]
@[simp] theorem restamp_port (n : ℕ) : (restamp n s).port = s.port := by simp [restamp]
@[simp] theorem reasonStep_port (now : BitVec 11) (c : Fin 11) : (reasonStep now s c).port = s.port := by simp [reasonStep, blkPWR]
@[simp] theorem pwrSettle_port (f : State → State) : (pwrSettle f s).port = (f s).port := by simp [pwrSettle]
@[simp] theorem withdrawArm_beam : (withdrawArm s).beam = s.beam := by unfold withdrawArm; split <;> simp
@[simp] theorem penumbraReplies_beam : (penumbraReplies s).beam = s.beam := by simp [penumbraReplies]
@[simp] theorem wideForget_beam (x : SiteIx) : (wideForget x s).beam = s.beam := by unfold wideForget; split <;> simp
@[simp] theorem reachForget_beam (x : SiteIx) : (reachForget x s).beam = s.beam := by unfold reachForget; split <;> simp
@[simp] theorem setSite_beam (x : SiteIx) (r : BitVec 4) : (setSite x r s).beam = s.beam := by simp [setSite]
@[simp] theorem siteReset_beam (x : SiteIx) : (siteReset x s).beam = s.beam := by simp [siteReset]
@[simp] theorem startEnds_beam : (startEnds s).beam = s.beam := by simp [startEnds]
@[simp] theorem opMove_beam : (opMove s).beam = s.beam := by simp [opMove]
@[simp] theorem railWrite_beam (was : Pwr) : (railWrite was s).beam = s.beam := by simp [railWrite]
@[simp] theorem restamp_beam (n : ℕ) : (restamp n s).beam = s.beam := by simp [restamp]
@[simp] theorem reasonStep_beam (now : BitVec 11) (c : Fin 11) : (reasonStep now s c).beam = s.beam := by simp [reasonStep, blkPWR]
@[simp] theorem pwrSettle_beam (f : State → State) : (pwrSettle f s).beam = (f s).beam := by simp [pwrSettle]

theorem settle_port : (pwrSettle (fun s => s) s).port = s.port := pwrSettle_port s _
theorem settle_beam : (pwrSettle (fun s => s) s).beam = s.beam := pwrSettle_beam s _
theorem programEnds_port : (programEnds s).port = s.port := by simp [programEnds]
theorem sitesAgain_port : (sitesAgain s).port = s.port := by simp [sitesAgain]
theorem sitesAgain_beam : (sitesAgain s).beam = s.beam := by simp [sitesAgain]

theorem penumbraEffect_darkSeen {p : Port} (dark : (s.port[p.val]).state = 0) : darkSeen p (penumbraEffect s) = darkSeen p s := by
  have planned : darkSeen p (planEnds (programEnds s)) = darkSeen p s := by
    have ended := planWithdraw_darkSeen (programEnds s) p
    rw [planEnds, darkSeen_of_port (setDev_port _ _), ended, darkSeen_of_port (programEnds_port s)]
  rw [penumbraEffect_eq]
  have still : ((planEnds (programEnds s)).port[p.val]).state = 0 := dark_of_seen planned dark
  have begun : darkSeen p (portsAgain (planEnds (programEnds s))) = darkSeen p (planEnds (programEnds s)) :=
    darkSeen_of_core (trainAgains_core (planEnds (programEnds s)) (fins 64) still)
  generalize planEnds (programEnds s) = t at planned begun
  rw [darkSeen_of_port (penumbraReplies_port _), darkSeen_of_port (settle_port _), darkSeen_of_port (sitesAgain_port _), begun, planned]

theorem stopAfter_darkSeen {p : Port} {t : State} (dark : (t.port[p.val]).state = 0) : darkSeen p (stopAfter s t) = darkSeen p t := by
  unfold stopAfter penumbraCheck
  (repeat' split)
  · exact penumbraEffect_darkSeen t dark
  · rfl
  · rfl

theorem stopAfter_dark {p : Port} {t : State} (dark : (t.port[p.val]).state = 0) : ((stopAfter s t).port[p.val]).state = 0 :=
  dark_of_seen (stopAfter_darkSeen s dark) dark

theorem onBeam_broken {b : Beam} {s : State} (c : Beam) (f : BeamSt → BeamSt) (kept : ∀ q : BeamSt, q.state = 6 → (f q).state = 6) (h : Broken b s) :
    Broken b (onBeam c f s) := by
  by_cases same : b = c
  · subst same
    rw [Broken, onBeam, upd_val_self]
    exact kept _ h
  · rw [Broken, onBeam, upd_val_of_ne _ _ same]
    exact h

/-- A fold of steps that keep a beam broken keeps it. -/
theorem foldl_broken {α : Type} {b : Beam} (g : State → α → State) (l : List α) {s : State} (kept : ∀ t x, Broken b t → Broken b (g t x))
    (h : Broken b s) : Broken b (l.foldl g s) := by
  induction l generalizing s with
  | nil => exact h
  | cons x r ih => exact ih (kept s x h)

theorem unlit_of_broken {q : BeamSt} (h : q.state = 6) : beamLit q = false := by simp [beamLit, h]

theorem pausePort_broken {b : Beam} (q : Port) (h : Broken b s) : Broken b (pausePort q s) :=
  foldl_broken _ _ (fun t c ht => onBeam_broken c _ (fun q hq => by simp [unlit_of_broken hq, hq]) ht) h

theorem trainPort_broken {b : Beam} (q : Port) (k : BitVec 4) (h : Broken b s) : Broken b (trainPort q k s) := by
  have quiet : Broken b (endEchoFibre q (endSubs q s)) := h.of_beam (by simp)
  exact (pausePort_broken _ q quiet).of_beam (by simp [trainPort, trainStep])

theorem trainAgain_broken {b : Beam} (q : Port) (h : Broken b s) : Broken b (trainAgain q s) := by
  unfold trainAgain
  dsimp only
  split
  · unfold retrainPort
    split
    · exact h
    · exact (trainPort_broken _ q 2 (h.of_beam (onPort_beam ..))).of_beam (logEvent_beam ..)
  · split
    · exact trainPort_broken s q _ h
    · exact h

theorem planWithdraw_broken {b : Beam} (h : Broken b s) : Broken b (planWithdraw s) := by
  unfold planWithdraw
  have noted : Broken b ((fins 256).foldl (fun t b => if beamLit (t.beam[b]) then noteLocked b t else t) s) :=
    foldl_broken _ _ (fun t c ht => by
      unfold noteLocked
      (repeat' split)
      · exact onBeam_broken c _ (fun q hq => hq) ht
      · exact ht
      · exact ht) h
  generalize (fins 256).foldl _ s = t at noted
  have dark : beamLit t.beam[b.val] = false := unlit_of_broken noted
  simp only [Broken, Vector.getElem_map, dark]
  exact noted

theorem penumbraStop_broken {b : Beam} (h : Broken b s) : Broken b (penumbraStop s) := by
  have kept : (penumbraStop s).beam = s.beam.map (dropUnsent (s.ctl.serial + 1)) := by
    unfold penumbraStop
    dsimp only
    split
    · rw [noticeAll_beam]
    · rfl
  rw [Broken, kept, Vector.getElem_map]
  exact h

theorem programEnds_broken {b : Beam} (h : Broken b s) : Broken b (programEnds s) :=
  (penumbraStop_broken (withdrawArm s) (h.of_beam (withdrawArm_beam s))).of_beam (foldl_beam _ _ _ fun t x => lastTokens_beam x t)

theorem portsAgain_broken {b : Beam} (h : Broken b s) : Broken b (portsAgain s) := foldl_broken _ _ (fun t q ht => trainAgain_broken t q ht) h

theorem penumbraEffect_broken {b : Beam} (h : Broken b s) : Broken b (penumbraEffect s) := by
  have planned : Broken b (planEnds (programEnds s)) := (planWithdraw_broken _ (programEnds_broken s h)).of_beam (setDev_beam ..)
  rw [penumbraEffect_eq]
  generalize planEnds (programEnds s) = t at planned
  have begun := portsAgain_broken t planned
  generalize portsAgain t = u at begun
  exact begun.of_beam (by rw [penumbraReplies_beam, settle_beam, sitesAgain_beam])

theorem stopAfter_broken {b : Beam} {t : State} (h : Broken b t) : Broken b (stopAfter s t) := by
  unfold stopAfter penumbraCheck
  (repeat' split)
  · exact penumbraEffect_broken t h
  · exact h
  · exact h

end
section
variable (s : State)

/-! ### What going dark leaves of the sites (R493) -/

theorem portDarkBreak_siteCore (x : SiteIx) (p : Port) (n : ℕ) : siteCore x (portDarkBreak p n s) = siteCore x s := by
  unfold portDarkBreak
  rw [breakBeams_siteCore]
  exact siteCore_of_site (by simp [portDark]) x

theorem portsDark_siteCore (x : SiteIx) : siteCore x (portsDark s) = siteCore x s :=
  foldl_kept (siteCore x) _ _ _ fun t p => by
    split
    · rfl
    · exact portDarkBreak_siteCore t x p _

@[simp] theorem setDev_site (d : DevState) : (setDev d s).site = s.site := by simp [setDev]

theorem umbraEnter_siteCore (x : SiteIx) : siteCore x (umbraEnter s) = siteCore x s := by
  unfold umbraEnter
  dsimp only
  have dark := portsDark_siteCore s x
  generalize portsDark s = u at dark
  rw [siteCore_of_site (endEcho_site _), siteCore_of_site (emit_site _ _), siteCore_of_site (setDev_site _ _)]
  exact dark

theorem sitesOff_rstn (x : SiteIx) : ((sitesOff s).site[x.val]).rstn = true := by
  refine foldl_turns (fun x t => (t.site[x.val]).rstn) _ (fun _ _ => true) (fun t x y => ?_) s x
  by_cases same : x = y
  · subst same
    simp [onSite]
  · rw [if_neg same]
    dsimp only
    split
    · simp [onSite, upd_val_of_ne _ _ same]
    · simp [onSite, upd_val_of_ne _ _ same]

theorem rstn_of_core {x : SiteIx} {s t : State} (h : siteCore x t = siteCore x s) (rstn : (s.site[x.val]).rstn = true) : (t.site[x.val]).rstn =
    true :=
  (congrArg Site.rstn h).trans rstn

theorem goDark_rstn (x : SiteIx) : ((goDark s).site[x.val]).rstn = true := by
  unfold goDark
  extract_lets quiet u
  generalize (fins 6).foldl (fun t x => lastTokens x t) u = v
  exact rstn_of_core (umbraEnter_siteCore (sitesOff v) x) (sitesOff_rstn v x)

/-- A Fatal event holds every site in reset. -/
theorem fatalEvent_rstn (n m k : ℕ) (x : SiteIx) : ((fatalEvent n m k s).site[x.val]).rstn = true := by
  unfold fatalEvent
  exact goDark_rstn _ x

theorem fatalEvent_waits (n m k : ℕ) : (fatalEvent n m k s).mgt.fatalPending ≠ [] := by
  unfold fatalEvent
  simp only [goDark_mgt]
  exact List.append_ne_nil_of_right_ne_nil _ (List.cons_ne_nil _ _)

/-! ### A die that fails with D4 standing by (R313) -/

theorem dieFails_spare {g : CombGroup} {d : CombDie} {k : Fin 4} (active : ((s.comb.group[g.val]).die[d.val]).state = .active)
    (pos : diePos (s.comb.group[g.val]) d = some k) (free : spareFree (s.comb.group[g.val]) k = true) :
    dieFails g d s = logEvent clsContained blkPRT 0x0110 (combInst g d.val) (onGroup g (fun q => { q with task := some (.replace k) })
      ((posPorts g k).foldl (darkFor 4) (onDie g d (fun y => { y with state := .failed, current := 0, gridHeld := false, reducing :=
        false }) s))) := by
  simp [dieFails, pos, active, free]

theorem dieFails_replaces {g : CombGroup} {d : CombDie} {k : Fin 4} (active : ((s.comb.group[g.val]).die[d.val]).state = .active)
    (pos : diePos (s.comb.group[g.val]) d = some k) (free : spareFree (s.comb.group[g.val]) k = true) :
    ((dieFails g d s).comb.group[g.val]).task = some (.replace k) ∧ ∀ p ∈ posPorts g k, ((dieFails g d s).port[p.val]).state = 0 := by
  rw [dieFails_spare s active pos free]
  refine ⟨?_, fun p place => ?_⟩
  · simp [onGroup]
  · rw [logEvent_port, onGroup_port]
    exact darkFors_dark _ 4 place

/-! ### An open fibre -/

theorem darkFor_breaks {p : Port} {b : Beam} (n : ℕ) (dark : (s.port[p.val]).state ≠ 0) (lit : b ∈ litBeams s p) : Broken b (darkFor n s p) := by
  unfold darkFor
  dsimp only
  rw [if_neg (by exact dark)]
  exact breakBeams_broken lit _

theorem dark_of_mayProbe {p : Port} (h : mayProbe s p = true) : (s.port[p.val]).state = 0 := by
  simp only [mayProbe, Fin.getElem_fin, Bool.and_eq_true, beq_iff_eq] at h
  obtain ⟨⟨⟨⟨⟨⟨dark, -⟩, -⟩, -⟩, -⟩, -⟩, -⟩ := h
  exact dark

/-! ### The received power of a line (R323) -/

theorem rxPower_read {p : Port} {n : Line} (c : Int) (up : portUp s.port[p.val] = true) (pass : (passMask s p).getLsbD n.val = false) :
    (rxPower p n c s).port = (onLine p n (fun l => { l with
      rxPower := some c
      lowReported := BitVec.ofNat 2 (boolsNat [receiverOn s p n && decide (c < -850), receiverOn s p n && decide (c < -950)]) }) s).port := by
  have on : ¬(portUp s.port[p.val] = false ∨ (passMask s p).getLsbD n.val = true) := by rw [up, pass]; decide
  unfold rxPower
  dsimp only
  rw [if_neg (by exact on)]
  (repeat' split) <;> simp only [logEvent_port]

theorem lowReported_first (a b : Bool) : (BitVec.ofNat 2 (boolsNat [a, b])).getLsbD 0 = a := by
  revert a b
  decide

/-- What is seen of a port that has gone dark. -/
theorem darkSeen_of_dark {p : Port} {n : ℕ} {t : State}
    (h : portCore p t = { portDarkSt n (portCore p s) with event := 0, line := Vector.replicate 35 {} }) :
    darkSeen p t = (0, (s.port[p.val]).epoch + 1, .closed, true) := by
  have seen := congrArg (fun q : PortSt => (q.state, q.epoch, q.shutter, q.exchangeTuned)) h
  exact seen

theorem groupCheck_place (g : CombGroup) : ((groupCheck g s).comb.group[g.val]).task = (s.comb.group[g.val]).task ∧
    ((groupCheck g s).comb.group[g.val]).spareAt = (s.comb.group[g.val]).spareAt := by
  unfold groupCheck
  dsimp only
  split
  · simp [onGroup]
  · exact ⟨rfl, rfl⟩

@[simp] theorem ringsPlace_port (p : Port) : (ringsPlace p s).port = s.port := foldl_port _ _ _ fun _ _ => onRing_port ..

end

/-- Settles O21: failures and probes by what they leave of the dies, ports and beams,
  also through the return to Penumbra that an abort may let happen. -/
theorem combFailureAndEyeSafety : Obligations.CombFailureAndEyeSafety := by
  unfold Obligations.CombFailureAndEyeSafety
  simp only [Fin.getElem_fin]
  refine ⟨fun g d k b s hs active pos free own fails => ⟨_, run_of_running _ s hs, ?fails⟩, fun g d s hs fresh => ⟨_, run_of_running _ s hs, ?works⟩,
    fun g k s hs task => ⟨_, run_of_running _ s hs, ?ramp⟩, fun g k s hs task warming => ⟨_, run_of_running _ s hs, ?locked⟩,
    fun p s hs lit => ⟨_, run_of_running _ s hs, ?fibre⟩, fun p s hs may idle => ⟨_, run_of_running _ s hs, ?probe⟩,
    fun p us s hs may probing long dark once => ⟨_, run_of_running _ s hs, ?glint⟩,
    fun p us s hs may probing long dark first => ⟨_, run_of_running _ s hs, ?light⟩, fun p s hs dark probing => ⟨_, run_of_running _ s hs, ?probeEnd⟩,
    fun s hs => ⟨_, run_of_running _ s hs, ?qclk⟩, fun p n c s hs up pass => ⟨_, run_of_running _ s hs, ?power⟩⟩
  case fails =>
    have failing : stopping (fun s => if b || dieSpent (s.comb.group[g]).die[d] then dieFails g d s else s) s = stopAfter s (dieFails g d s) := by
      have now : (b || dieSpent ((s.comb.group[g.val]).die[d.val])) = true := by simpa using fails
      simp [stopping, now]
    rw [failing, irqSettle_comb, irqSettle_port, comb_of_aside (stopAfter_aside s (dieFails g d s))]
    obtain ⟨failed, off⟩ := dieFails_failed (s := s) pos (.inl active)
    obtain ⟨task, dark⟩ := dieFails_replaces s active pos free
    exact ⟨failed, off, task, fun p place => stopAfter_dark s (dark p place)⟩
  case works =>
    have still : stopping (fun s => if false || dieSpent (s.comb.group[g]).die[d] then dieFails g d s else s) s = s := by
      simp [stopping, fresh, stopAfter]
    rw [still]
    simp
  case ramp => simp [spareRamp, task, onDie, onGroup, upd_spare]
  case locked =>
    have ended : spareLocked g s = groupCheck g (onGroup g (fun q => { q with task := none, spareAt := some k })
        (onDie g 4 (fun y => { y with state := .active, gridHeld := true }) s)) := by
      have warm : ((s.comb.group[g]).die[4]).state = .warming := warming
      simp only [spareLocked, Fin.getElem_fin, task]
      exact if_neg (not_not.mpr warm)
    have placed : (((onGroup g (fun q => { q with task := none, spareAt := some k })
        (onDie g 4 (fun y => { y with state := .active, gridHeld := true }) s)).comb.group[g.val])).spareAt = some k := by simp [onGroup]
    have free : (((onGroup g (fun q => { q with task := none, spareAt := some k })
        (onDie g 4 (fun y => { y with state := .active, gridHeld := true }) s)).comb.group[g.val])).task = none := by simp [onGroup]
    have lit : (dieAt g 4 (onGroup g (fun q => { q with task := none, spareAt := some k })
        (onDie g 4 (fun y => { y with state := .active, gridHeld := true }) s))) = { dieAt g 4 s with state := .active, gridHeld := true } := by
      simp [dieAt, onGroup, onDie, upd_spare]
    rw [irqSettle_comb, ended]
    generalize onGroup g _ (onDie g 4 _ s) = u at placed free lit
    obtain ⟨task', spareAt⟩ := groupCheck_place u g
    have die := (dieAt_groupCheck (s := u) (g := g) (d := 4) g).trans lit
    exact ⟨spareAt.trans placed, task'.trans free, congrArg Die.state die, congrArg Die.gridHeld die⟩
  case fibre =>
    have opened : stopping (openFibre p) s = stopAfter s (logEvent clsContained blkPRT 0x010E p.val (darkFor 4 s p)) := by
      rw [stopping, openFibre, if_neg (by exact lit)]
    have dark : ((logEvent clsContained blkPRT 0x010E p.val (darkFor 4 s p)).port[p.val]).state = 0 := by
      rw [logEvent_port]
      exact darkFor_dark s 4 p
    have seen := stopAfter_darkSeen s dark
    have core := (logEvent_portCore (darkFor 4 s p) p clsContained blkPRT 0x010E p.val).trans (darkFor_core s 4 lit)
    have broken : ∀ b ∈ litBeams s p, Broken b (stopAfter s (logEvent clsContained blkPRT 0x010E p.val (darkFor 4 s p))) := fun b within =>
      stopAfter_broken s ((darkFor_breaks s 4 lit within).of_beam (logEvent_beam ..))
    rw [opened, irqSettle_port, irqSettle_beam]
    generalize stopAfter s (logEvent clsContained blkPRT 0x010E p.val (darkFor 4 s p)) = t at seen broken
    have seen' : darkSeen p t = (0, (s.port[p.val]).epoch + 1, .closed, true) := seen.trans (darkSeen_of_dark s core)
    obtain ⟨state, epoch, shutter, tuned⟩ := (by simpa [darkSeen] using seen')
    exact ⟨state, shutter, tuned, epoch, broken⟩
  case probe =>
    have dark := dark_of_mayProbe s may
    have begun : probeBegin p s = emit (.probe p) (ringsPlace p (onPort p (fun q => { q with
        probing := true, probeLight := false, shutter := .probe }) s)) := by
      simp [probeBegin, may, idle]
    rw [begun]
    refine ⟨by simp [onPort], by simpa [onPort] using dark, mem_out_irqSettle (List.mem_cons_self ..)⟩
  case glint =>
    have long' : ¬us < 1000 := by omega
    simp [probeLight, may, probing, long', dark, once, glintEnter, onPort]
  case light =>
    have long' : ¬us < 1000 := by omega
    simpa [probeLight, may, probing, long', dark, first, onPort] using dark_of_mayProbe s may
  case probeEnd =>
    have idle : (s.port[p]).state = 0 ∧ (s.port[p]).probing = true := ⟨dark, probing⟩
    rw [probeFinish, if_pos idle, irqSettle_port, ringsPlace_port]
    simp [onPort]
  case qclk =>
    obtain ⟨umbra, -, -⟩ := fatalEvent_dark blkPRT 0x0117 0 s
    have state := fatalEvent_umbra blkPRT 0x0117 0 s
    have fatal : (fatalEvent blkPRT 0x0117 0 s).dev.fatal = true := fatalEvent_isFatal blkPRT 0x0117 0 s
    have rstn := fatalEvent_rstn s blkPRT 0x0117 0
    have waits := fatalEvent_waits s blkPRT 0x0117 0
    rw [irqSettle_dev, irqSettle_comb, irqSettle_port, irqSettle_site, irqSettle_mgt]
    generalize fatalEvent blkPRT 0x0117 0 s = t at umbra state fatal rstn waits
    obtain ⟨-, dies, ports⟩ := umbra state
    refine ⟨state, fatal, fun g d => ?_, fun p => ?_, rstn, waits⟩
    · obtain ⟨-, -, off⟩ := dies g
      exact (off d).1
    · exact (ports p).1
  case power =>
    rw [irqSettle_port, rxPower_read s c up pass]
    refine ⟨?_, ?_, ?_⟩
    · simp [onLine, onPort]
    · simpa [onLine, onPort] using lowReported_first ..
    · simp [onLine, onPort]

end Sys2Proof.Machine
end

section
/-!
PROOFS. The instructions between phases (R106, R108, R110, Table 4.3).
-/

-- In sequence: each worker of the elaborator takes its stack from the memory that a check may use.
set_option Elab.async false

namespace Sys2Proof.Machine

section
variable {c : Col} {w : DWord} {bad : State → Option ℕ} {f : State → State} {s : State}

theorem running_of_atWord (h : atWord c w s) : running s = true := by
  obtain ⟨up, -, -, -⟩ := h
  exact up

theorem between_phase (h : atWord .between w s) : s.ctl.phase = 1 := by
  obtain ⟨-, -, -, fits⟩ := h
  simpa [colFits] using fits

theorem body_phase (h : atWord .body w s) : s.ctl.phase = 4 := by
  obtain ⟨-, -, -, fits⟩ := h
  simpa [colFits] using fits

theorem waits_phase (h : atWord .waits w s) : s.ctl.phase = 2 := by
  obtain ⟨-, -, -, fits⟩ := h
  simpa [colFits] using fits

/-- The instruction at the pc, in a state that takes it, runs. -/
theorem instrRow_of_atWord (h : atWord c w s) (good : bad s = none) : instrRow c w bad f s = .next (irqSettle (f s)) := by
  obtain ⟨up, on, word, fits⟩ := h
  simp [instrRow, done, up, on, word, fits, good]

/-- A stop that no DEV_PENUMBRA waits for changes nothing. -/
theorem penumbraCheck_of_none (h : s.img.penumbra = []) : penumbraCheck s = s := by
  simp [penumbraCheck, penumbraDue, h]

end

section
variable (s : State) (n : ℕ)

@[simp] theorem irqSettle_actUnit : actUnit (irqSettle s) = actUnit s := by simp [actUnit]
@[simp] theorem irqSettle_pcOf : pcOf (irqSettle s) = pcOf s := by simp [pcOf]
@[simp] theorem actUnit_with {dev : Dev} {err : Err} {hbm : Hbm} {port : Vector PortSt 64} {pln : Pln} {ctl : Ctl} {ce : Ce} {fresh : ℕ} : actUnit {
    s with dev := dev, err := err, hbm := hbm, port := port, pln := pln, ctl := ctl, ce := ce, fresh := fresh } = actUnit s := rfl
@[simp] theorem onUnit_active_sq (u : Fin 2) (f : SqUnitSt → SqUnitSt) : (onUnit u f s).sq.active = s.sq.active := rfl
@[simp] theorem onUnit_actUnit (f : SqUnitSt → SqUnitSt) : actUnit (onUnit s.sq.active f s) = f (actUnit s) := by
  simp [actUnit, onUnit, upd]
@[simp] theorem pcTo_ctl : (pcTo n s).ctl = s.ctl := by simp [pcTo]
@[simp] theorem pcNext_ctl : (pcNext s).ctl = s.ctl := by simp [pcNext]

/-- The unit that runs goes to the named slot, past the phase's SWITCH, which has run already. -/
@[simp] theorem pcTo_actUnit : actUnit (pcTo n s) =
    { actUnit s with pc := BitVec.ofNat 16 (if s.ctl.phase = 4 ∧ s.ctl.switch_ = some n then n + 1 else n) } := by
  simp [pcTo]

/-- The unit that runs goes on, past the phase's SWITCH, which has run already. -/
@[simp] theorem pcNext_actUnit : actUnit (pcNext s) =
    { actUnit s with pc := if s.ctl.phase = 4 ∧ s.ctl.switch_ = some (pcOf s + 1) then (actUnit s).pc + 2 else (actUnit s).pc + 1 } := by
  rw [pcNext, pcTo_actUnit]
  split <;> simp [pcOf, BitVec.ofNat_add, BitVec.add_assoc]

end


section
variable (s : State) (i : FetchItem)

theorem fetchAsk_mem : i ∈ (fetchAsk i s).ctl.fetches := by
  unfold fetchAsk
  split
  next asked => simpa using asked
  next => cases i <;> simp [bothStores]

/-- A fetch that is asked for changes nothing else of the sequencer. -/
theorem fetchAsk_ctl : (fetchAsk i s).ctl = { s.ctl with fetches := (fetchAsk i s).ctl.fetches } := by
  unfold fetchAsk
  split
  next => rfl
  next => cases i <;> rfl

theorem fetchAsk_active : (fetchAsk i s).sq.active = s.sq.active := by
  unfold fetchAsk
  split
  next => rfl
  next => cases i <;> rfl

/-- A fetch that is asked for empties a place of the segment window of the unit that runs, at most. -/
theorem fetchAsk_actUnit : actUnit (fetchAsk i s) = { actUnit s with window := (actUnit (fetchAsk i s)).window } := by
  unfold fetchAsk
  split
  next => rfl
  next => cases i <;> simp [actUnit, bothStores]

/-- The callee's part of the window. -/
theorem windowBase_lt (w : Fin 32) : windowBase w.val < 65536 := by
  exact Nat.sub_lt (by decide) (Nat.mul_pos (by decide) (Nat.succ_pos _))

end

theorem callBad_of_room {s : State} {id : BitVec 16} (segment : (segOf s id).isSome = true) (room : (actUnit s).stack.length < 4) :
    callBad id s = none := by
  rw [callBad, if_neg (by simpa [Option.isSome_iff_ne_none] using segment), if_neg (by omega)]

/-- A loop counter of the unit that runs takes a value. -/
def countSet (k : Fin 8) (v : Word) (s : State) : State := onUnit s.sq.active (fun q => { q with lc := upd q.lc k fun _ => v }) s

section
variable {s u : State} {n : Fin 16} {k : BitVec 12} {h : Word} {f : FamilyRec} {i : Image} {l : Loc} {words : List (ℕ × WordError)}

@[simp] theorem locReads_beside (s : State) (l : Loc) (m : ℕ) (words : List (ℕ × WordError)) : beside (locReads l m words s) = beside s := by
  cases l <;> simp [locReads]

/-- What a SELECT leaves of the histogram that it has read: the family and the variant, in `pln` and in its register. -/
def selected (n : Fin 16) (k : BitVec 12) (f : FamilyRec) (i : Image) (u : State) (l : Loc) : State :=
  let v := selectVariant i f (histCounts u l f.histFmt f.e)
  pcNext (onUnit u.sq.active (fun q => { q with v := upd q.v n fun _ => v }) { u with
    pln := { u.pln with selFamily := k, selVariant := v }
    ctl := { u.ctl with families := aput u.ctl.families n.val k.toNat } })

theorem select_of_clean (image : s.img.image = some i) (family : i.families[k.toNat]? = some f)
    (loc : bufLoc s h.toNat 0 (intBytes f.histFmt * f.e) = some l) (reads : u = locReads l (intBytes f.histFmt * f.e) words s)
    (clean : locPoison u l (intBytes f.histFmt * f.e) = none) : select n k h words s = selected n k f i u l := by
  have asked : familyOf s k.toNat = some f := by simp [familyOf, image, family]
  have sq : u.sq = s.sq := congrArg Beside.sq (reads ▸ locReads_beside s l _ words)
  simp only [select, image, asked, loc, ← reads, clean, selected, sq]

theorem selected_ctl : (selected n k f i u l).ctl = { u.ctl with families := aput u.ctl.families n.val k.toNat } := by simp [selected]

theorem selected_pln : (selected n k f i u l).pln =
    { u.pln with selFamily := k, selVariant := selectVariant i f (histCounts u l f.histFmt f.e) } := by simp [selected, pcNext, pcTo]

theorem selected_img : (selected n k f i u l).img = u.img := by simp [selected, pcNext, pcTo]

theorem selected_actUnit (still : u.ctl.phase ≠ 4) : actUnit (selected n k f i u l) = { actUnit u with
    pc := (actUnit u).pc + 1, v := upd (actUnit u).v n fun _ => selectVariant i f (histCounts u l f.histFmt f.e) } := by
  have still' : ¬u.ctl.phase = 4#4 := still
  rw [selected, pcNext_actUnit]
  simp [still', actUnit, onUnit]

end

/-- Settles O22: each instruction runs where its word stands, and leaves the pc, the registers and the phase as its row of the table says. -/
theorem sequencerControlFlow : Obligations.SequencerControlFlow := by
  unfold Obligations.SequencerControlFlow
  simp only [Fin.getElem_fin, BitVec.ofNat_eq_ofNat]
  refine ⟨fun s at_ phase => ⟨_, instrRow_of_atWord (bad := fun _ => none) (f := pcNext) at_ rfl, ?nop⟩,
    fun c v s at_ => ⟨_, instrRow_of_atWord (bad := fun _ => none) (f := fun s => pcNext (countSet c v s)) at_ rfl, ?setlc⟩,
    fun n imm g s at_ between => ⟨_, instrRow_of_atWord at_ (by simp [branchBad, between]), ?always⟩,
    fun c n imm g s same at_ between => ⟨_, instrRow_of_atWord at_ (by simp [branchBad, between, ← same]), ?counted⟩,
    fun n imm g s at_ between => ⟨_, instrRow_of_atWord at_ (by simp [branchBad, between]), ?compared⟩,
    fun w id s at_ segment room held => ⟨_, instrRow_of_atWord at_ ?good, ?call⟩,
    fun w id s at_ segment room held => ⟨_, instrRow_of_atWord at_ ?good', ?fetch⟩,
    fun i r s at_ stack => ⟨_, instrRow_of_atWord (bad := fun s => if (actUnit s).stack = [] then some 106 else none) (f := returns) at_
      (by simp [stack]), ?ret⟩,
    fun s at_ quiet => ⟨_, instrRow_of_atWord (bad := fun _ => none) (f := halts) at_ rfl, ?halt⟩,
    fun n k h f i l words s u at_ image family good loc reads clean => ⟨_, instrRow_of_atWord at_ good, ?select⟩⟩
  case nop => simp [phase]
  all_goals have phase := between_phase at_
  all_goals have still : ¬s.ctl.phase = 4#4 := by simp [phase]
  case setlc =>
    simpa [countSet, still] using fun k other => upd_val_of_ne (actUnit s).lc (fun _ => v) other
  case always => simp [branch, still]
  case counted =>
    have counter : fin! 8 n.val = c := by
      rw [← same]
      exact Fin.ofNat_val_eq_self c
    simp only [branch, counter]
    constructor
    · intro zero
      simp [zero, still]
    · intro more
      simp [more, still, upd]
  case compared =>
    rw [branch, if_neg (by decide), if_neg (by decide)]
    simp only [Fin.getElem_fin]
    split
    next => simp [still]
    next => simp [still]
  case good => exact callBad_of_room segment room
  case good' => exact callBad_of_room segment room
  case call => simp [call, held, pcOf, still, Nat.mod_eq_of_lt (windowBase_lt w)]
  case fetch =>
    have unit := fetchAsk_actUnit s (.segment id w)
    have pc := congrArg SqUnitSt.pc unit
    have stack := congrArg SqUnitSt.stack unit
    simpa [call, held, fetchAsk_mem] using ⟨pc, stack⟩
  case ret => simp [returns, stack, still]
  case halt =>
    rw [halts, penumbraCheck_of_none (by simpa using quiet)]
    simp [flag, eventBit, blkSQ, setEv, dropPhase]
  case select =>
    have kept : beside u = beside s := reads ▸ locReads_beside s l _ words
    have ctl : u.ctl = s.ctl := congrArg Beside.ctl kept
    have img : u.img = s.img := congrArg Beside.img kept
    have sq : u.sq = s.sq := congrArg Beside.sq kept
    have unit : actUnit u = actUnit s := congrArg (fun q : Sq => q.unit[q.active]) sq
    have ends : stopping (select n k h words) s = selected n k f i u l := by
      rw [stopping, select_of_clean image family loc reads clean, stopAfter, if_neg (by simp [selected_ctl, selected_img, ctl, img])]
    have unit' := selected_actUnit (n := n) (k := k) (f := f) (i := i) (l := l) (by rw [ctl]; exact still)
    rw [ends, irqSettle_actUnit, irqSettle_pln, selected_pln, unit', unit]
    simp [upd]

end Sys2Proof.Machine
end

section
/-!
PROOFS. A phase opens and collects its waits (R113, R114, Tables 4.3, 4.6).
-/

-- In sequence: each worker of the elaborator takes its stack from the memory that a check may use.
set_option Elab.async false

namespace Sys2Proof.Machine

section
variable {s : State}

/-- The text of the Reservoir and the words that are marked in it. -/
def contents (t : State) : Mem × List ℕ := (t.hbm.mem, t.hbm.poison)

/-- Errors that a read corrects. -/
def corrects (words : List (ℕ × WordError)) : Prop := ∀ w, w ∈ words → w.2 = .none ∨ w.2 = .oneNibble

theorem foldl_contents {α : Type} (g : State → α → State) (l : List α) (s : State)
    (h : ∀ x ∈ l, ∀ t, contents t = contents s → contents (g t x) = contents t) : contents (l.foldl g s) = contents s :=
  List.foldlRecOn (motive := fun t => contents t = contents s) l g rfl fun t kept x within => (h x within t kept).trans kept

theorem foldl_both {α : Type} (g : State → α → State) (l : List α) (s : State) (h : ∀ x ∈ l, ∀ t, contents (g t x) = contents t) :
    contents (l.foldl g s) = contents s := foldl_contents g l s fun x within t _ => h x within t

@[simp] theorem hbmCount_contents (h : Stack) (q : Fin 8) (n : ℕ) (s : State) : contents (hbmCount h q n s) = contents s := rfl

@[simp] theorem eventBitHbm_contents (k n m : ℕ) (s : State) : contents (eventBit k blkHBM n m s) = contents s := by
  simp [contents, eventBit, setEv, blkHBM]

@[simp] theorem correctWord_contents (c : Bool) (n : ℕ) (s : State) : contents (correctWord c n s) = contents s := by
  unfold correctWord
  extract_lets h row n hbm s1
  have kept : contents s1 = contents s := eventBitHbm_contents ..
  split
  next => exact (eventBitHbm_contents ..).trans kept
  next => exact kept

/-- A word that is marked already is marked again, and no other. -/
theorem uncorrWord_contents {n : ℕ} (m : ℕ) (marked : n ∈ s.hbm.poison) : contents (uncorrWord m n s) = contents s := by
  simp [contents, uncorrWord, setEv, blkHBM, hbmCount, onStack, marked]

theorem decodeWord_contents (m n : ℕ) {e : WordError} (good : e = .none ∨ e = .oneNibble) : contents (decodeWord m n e s).2 = contents s := by
  unfold decodeWord
  split
  next marked => exact uncorrWord_contents m marked
  next => rcases good with rfl | rfl <;> simp

theorem readRange_contents (m a n : ℕ) {words : List (ℕ × WordError)} (good : corrects words) :
    contents (readRange m a n words s) = contents s := by
  have marked : contents ((poisonedIn s a n).foldl (fun t w => uncorrWord m w t) (hbmCount (stackOf a) 3 n s)) = contents s := by
    refine (foldl_contents _ _ _ fun w within t kept => uncorrWord_contents m ?_).trans (hbmCount_contents ..)
    have poison : t.hbm.poison = s.hbm.poison := congrArg Prod.snd kept
    rw [poison]
    exact List.mem_of_mem_filter within
  refine (foldl_both _ _ _ fun e within t => ?_).trans marked
  split
  next => rfl
  next => exact decodeWord_contents m e.1 (good e (List.mem_of_mem_filter within))

theorem fetchReads_contents (i : FetchItem) {words : List (ℕ × WordError)} (good : corrects words) :
    contents (fetchReads i words s) = contents s := by
  have dirs := foldl_both (fun t r => readRange srcFetch r.1 r.2 words t) (fetchDirs i s) s fun r _ t => readRange_contents srcFetch r.1 r.2 good
  unfold fetchReads
  extract_lets s1
  split
  next r _ => exact (readRange_contents srcFetch r.1 r.2 good).trans dirs
  next => exact dirs

@[simp] theorem fetchReads_beside (i : FetchItem) (words : List (ℕ × WordError)) : beside (fetchReads i words s) = beside s := by
  simp only [fetchReads]
  split <;> simp

/-- Whether a fetch meets a marked word depends on the image and the Reservoir alone. -/
theorem fetchPoison_congr {t : State} (i : FetchItem) (img : t.img = s.img) (hbm : contents t = contents s) : fetchPoison i t = fetchPoison i s := by
  have mem : t.hbm.mem = s.hbm.mem := congrArg Prod.fst hbm
  have poison : t.hbm.poison = s.hbm.poison := congrArg Prod.snd hbm
  simp only [fetchPoison, fetchDirs, planDirs, fetchRange, pagedPlan, segOf, poisonIn, img, mem, poison]

end

section
variable {s : State}

/-- A word that cannot be corrected, met by the work of a running program, aborts the epoch (R164). -/
theorem wordContained_aborts {h : Stack} (image : s.img.image.isSome = true) (runs : abortable s.ctl.phase = true) :
    wordContained h s = abortEpoch (logEvent clsContained blkHBM 3 h.val s) := by
  simp [wordContained, abortIf, image, runs]

theorem abortEpoch_ctl : (abortEpoch s).ctl = { dropPhase s.ctl with phase := 7 } := by simp [abortEpoch]

theorem abortEpoch_ce : (abortEpoch s).ce = { s.ce with pend := {}, queue := [], window := [], area := none } := by simp [abortEpoch]

theorem stopAfter_of_none {t : State} (s : State) (h : t.img.penumbra = []) : stopAfter s t = t := by
  rw [stopAfter, penumbraCheck_of_none h, ite_self]

theorem afterWait_of_none (h : s.img.penumbra = []) : afterWait s = phaseCheck s := by
  rw [afterWait, penumbraCheck_of_none]
  unfold phaseCheck phaseRun
  split <;> simp [pcTo, h]

/-- A phase whose waits are met goes on; nothing else changes. -/
theorem phaseCheck_kept (waits : s.ctl.phase = 2) (unswitched : s.ctl.switch_ = none) : ∃ ph, (ph = 2 ∨ (ph = 4 ∧ waitsMet s = true)) ∧
    (phaseCheck s).ctl = { s.ctl with phase := ph } ∧ actUnit (phaseCheck s) = actUnit s := by
  unfold phaseCheck
  split
  next ready =>
    have met : waitsMet s = true := by
      simp only [phaseReady, Bool.and_eq_true] at ready
      obtain ⟨⟨-, met⟩, -⟩ := ready
      exact met
    exact ⟨4, .inr ⟨rfl, met⟩, by simp [phaseRun], by simp [phaseRun, unswitched, pcOf]⟩
  next => exact ⟨2, .inl rfl, by rw [← waits], rfl⟩

/-- The phase's entry, before its waits. -/
def phaseBegins (b : Bool) (id : Word) (s : State) : State := { s with ctl := { dropPhase s.ctl with
  phase := 2, barrier := b, phaseId := id, watchdog := true, admitted := s.ctl.admitted, waitSince := s.time } }

/-- A wait that joins those of the phase. -/
def waitJoins (w : WaitCond) (s : State) : State := { s with ctl := { s.ctl with waits := s.ctl.waits ++ [w] } }

theorem waitsMet_joins (w : WaitCond) (s : State) (met : waitsMet (pcNext (waitJoins w s)) = true) : w.count ≤ slotCount s.ctl w.slot := by
  simp only [waitsMet, pcNext_ctl, waitJoins, List.all_append, Bool.and_eq_true] at met
  obtain ⟨-, met⟩ := met
  exact of_decide_eq_true (Bool.and_eq_true_iff.1 met).1

end

section
variable {s : State} {i : ℕ} {va ex : Bool} {n : Fin 16} {id : BitVec 16} {r : Option PlanRec}

/-- A SWITCH instruction. -/
def switchWord (va ex : Bool) (n : Fin 16) (id : BitVec 16) : DWord :=
  instrWord 0x03 [(b2n va + 2 * b2n ex, 48), (n.val, 44), (id.toNat, 16)]

theorem switch_resolves (hs : running s = true) (ready : phaseReady s = true) (next : phaseSwitch s = some i)
    (word : schedWord s i = some (switchWord va ex n id)) : exec (.switch va ex n id) s = switchResolve i (switchWord va ex n id) s := by
  show execSwitch va ex n id s = _
  rw [switchWord] at word
  simp [execSwitch, switchWord, hs, ready, next, word]

/-- A SWITCH to a plan that the store holds, or to the one in force, runs at once. -/
theorem switchResolve_run {w : DWord} (stored : storePlan s (switchPlan s w) = r) (good : switchBad s w r = none)
    (here : r.isSome = true ∨ switchNoop s (switchPlan s w) = true) : switchResolve i w s = .next (irqSettle (switchRun i r s)) := by
  simp only [switchResolve, stored, good, done]
  rw [if_pos here]

theorem switchResolve_page {w : DWord} (unpaged : storePlan s (switchPlan s w) = none) (good : switchBad s w none = none)
    (other : switchNoop s (switchPlan s w) = false) (paged : (pagedPlan s (switchPlan s w)).isSome = true) :
    switchResolve i w s = .next (irqSettle { fetchAsk (planItem s (switchPlan s w)) s with ctl := {
      (fetchAsk (planItem s (switchPlan s w)) s).ctl with phase := 3, switch_ := some i, fetching := some (planItem s (switchPlan s w)) } }) := by
  have here : ¬((none : Option PlanRec).isSome = true ∨ switchNoop s (switchPlan s w) = true) := by simp [other]
  have found : ¬(s.ctl.fetches.contains (planItem s (switchPlan s w)) = false ∧ (pagedPlan s (switchPlan s w)).isNone = true) := by
    simp [Option.isSome_iff_ne_none.1 paged]
  simp only [switchResolve, unpaged, good, done]
  rw [if_neg here, if_neg found]

theorem switchRun_ctl : (switchRun i r s).ctl = { s.ctl with switch_ := some i, fetching := none, phase := 4 } := by
  cases r with
  | none => simp [switchRun, phaseRun]
  | some r =>
    simp only [switchRun, phaseRun, pcTo_ctl, switchStart]
    split <;> rfl

end

/-- The queue of fetches without one. -/
def unasked (i : FetchItem) (s : State) : State := { s with ctl := { s.ctl with fetches := s.ctl.fetches.filter fun j => j != i } }

section
variable {s : State} {i : FetchItem} {words : List (ℕ × WordError)}

/-- A fetch whose words all read well fills its place. -/
theorem fetchComplete_fills (hs : running s = true) (asked : i ∈ s.ctl.fetches) (clean : fetchPoison i s = none) (good : corrects words)
    (still : s.ctl.phase ≠ 3) : exec (.fetchComplete i words) s = .next (irqSettle (fetchFill i (fetchReads i words (unasked i s)))) := by
  have known : ¬(running s = false ∨ s.ctl.fetches.contains i = false) := by simp [hs, asked]
  have kept : beside (fetchReads i words (unasked i s)) = beside (unasked i s) := fetchReads_beside i words
  have img : (fetchReads i words (unasked i s)).img = s.img := congrArg Beside.img kept
  have phase : (fetchFill i (fetchReads i words (unasked i s))).ctl.phase = s.ctl.phase := by
    have ctl : (fetchReads i words (unasked i s)).ctl = (unasked i s).ctl := congrArg Beside.ctl kept
    have phase : (unasked i s).ctl.phase = s.ctl.phase := rfl
    refine Eq.trans ?_ ((congrArg Ctl.phase ctl).trans phase)
    cases i <;> rfl
  have reads : contents (fetchReads i words (unasked i s)) = contents s := fetchReads_contents i good
  have clean' := (fetchPoison_congr i img reads).trans clean
  rw [unasked] at clean' phase
  show execFetchComplete i s words = _
  simp only [execFetchComplete, if_neg known, clean', phase, still, done, unasked, false_and, if_false]

/-- A fetch that meets a marked word empties its place, and the abort of the epoch follows. -/
theorem fetchComplete_loses (hs : running s = true) (asked : i ∈ s.ctl.fetches) (marked : (fetchPoison i s).isSome = true)
    (image : s.img.image.isSome = true) (runs : abortable s.ctl.phase = true) (quiet : s.img.penumbra = []) :
    ∃ t, exec (.fetchComplete i []) s = .next (irqSettle (abortEpoch t)) ∧ t.ctl = (unasked i s).ctl := by
  have known : ¬(running s = false ∨ s.ctl.fetches.contains i = false) := by simp [hs, asked]
  have kept : beside (fetchReads i [] (unasked i s)) = beside (unasked i s) := fetchReads_beside i []
  have img : (fetchReads i [] (unasked i s)).img = s.img := congrArg Beside.img kept
  have reads : contents (fetchReads i [] (unasked i s)) = contents s := fetchReads_contents i fun w none => absurd none (by simp)
  obtain ⟨w, found⟩ := Option.isSome_iff_exists.1 marked
  have found' := (fetchPoison_congr i img reads).trans found
  have ctl : (fetchEmpty i (fetchReads i [] (unasked i s))).ctl = (unasked i s).ctl := by
    refine Eq.trans ?_ (congrArg Beside.ctl kept)
    cases i <;> rfl
  have img' : (fetchEmpty i (fetchReads i [] (unasked i s))).img = s.img := by
    refine Eq.trans ?_ img
    cases i <;> rfl
  have aborts := wordContained_aborts (h := stackOf (16 * w)) (s := fetchEmpty i (fetchReads i [] (unasked i s))) (by rw [img']; exact image)
    (by rw [ctl]; exact runs)
  refine ⟨logEvent clsContained blkHBM 3 (stackOf (16 * w)).val (fetchEmpty i (fetchReads i [] (unasked i s))), ?_, by rw [logEvent_ctl, ctl]⟩
  rw [unasked] at found' aborts img'
  show execFetchComplete i s [] = _
  simp only [execFetchComplete, if_neg known, found', aborts, done]
  rw [stopAfter_of_none _ (by rw [abortEpoch_img, logEvent_img, img']; exact quiet), unasked]

end

section
variable (s : State) (i : FetchItem)

@[simp] theorem fetchAsk_port : (fetchAsk i s).port = s.port := by
  unfold fetchAsk
  split
  next => rfl
  next => cases i <;> rfl

end

/-- Settles O23: a phase opens, its waits hold it, its SWITCH resolves to a plan of the store, and a fetch fills its place or is lost. -/
theorem phaseOpensAndWaits : Obligations.PhaseOpensAndWaits := by
  unfold Obligations.PhaseOpensAndWaits
  simp only [Fin.getElem_fin, BitVec.ofNat_eq_ofNat]
  refine ⟨fun b id s at_ quiet => ⟨_, instrRow_of_atWord (bad := fun _ => none) at_ rfl, ?phase⟩,
    fun kind x slot count site s at_ good unswitched quiet => ⟨_, instrRow_of_atWord at_ good, ?wait⟩,
    fun i va ex n id s hs ready next word good unpaged same => ?noop,
    fun i va ex n id s hs ready next word good unpaged other paged => ?page,
    fun i va ex n id r s hs ready next word good stored => ?switches,
    fun k words s hs asked clean errors still => ?fetched,
    fun k s hs asked marked image runs quiet => ?lost,
    fun g id slot s at_ good between => ⟨_, instrRow_of_atWord at_ good, ?prefetch⟩⟩
  case phase =>
    have quiet' : (pcNext (phaseBegins b id s)).img.penumbra = [] := by simpa [phaseBegins, pcNext, pcTo] using quiet
    obtain ⟨ph, which, ctl, unit⟩ := phaseCheck_kept (s := pcNext (phaseBegins b id s)) (by simp [phaseBegins]) (by simp [phaseBegins, dropPhase])
    have opens : phaseOpens b id s = phaseCheck (pcNext (phaseBegins b id s)) := afterWait_of_none quiet'
    rw [opens, irqSettle_ctl, irqSettle_actUnit, ctl, unit]
    have which' : ph = 2 ∨ ph = 4 := which.imp_right And.left
    simpa [phaseBegins, dropPhase] using which'
  case wait =>
    have waits := waits_phase at_
    have quiet' : (pcNext (waitJoins ⟨kind, x, slot.toNat, count.toNat, site.toNat⟩ s)).img.penumbra = [] := by
      simpa [waitJoins, pcNext, pcTo] using quiet
    obtain ⟨ph, which, ctl, unit⟩ := phaseCheck_kept (s := pcNext (waitJoins ⟨kind, x, slot.toNat, count.toNat, site.toNat⟩ s))
      (by simpa [waitJoins] using waits) (by simpa [waitJoins] using unswitched)
    have adds : waitAdds ⟨kind, x, slot.toNat, count.toNat, site.toNat⟩ s =
      phaseCheck (pcNext (waitJoins ⟨kind, x, slot.toNat, count.toNat, site.toNat⟩ s)) := afterWait_of_none quiet'
    have stays : slotCount s.ctl slot.toNat < count.toNat → ph = 2 := fun few => by
      rcases which with rfl | ⟨-, met⟩
      · rfl
      · exact absurd (waitsMet_joins _ s met) (by simpa using few)
    rw [adds, irqSettle_ctl, irqSettle_actUnit, ctl, unit]
    simpa [waitJoins, waits, unswitched] using stays
  case noop =>
    refine ⟨_, (switch_resolves hs ready next word).trans (switchResolve_run unpaged good (.inr same)), ?_⟩
    rw [irqSettle_ctl, irqSettle_pln, irqSettle_port, switchRun_ctl]
    simp [switchRun, phaseRun, pcTo]
  case page =>
    refine ⟨_, (switch_resolves hs ready next word).trans (switchResolve_page unpaged good other paged), ?_⟩
    rw [irqSettle_ctl, irqSettle_port]
    simp
  case switches =>
    refine ⟨_, (switch_resolves hs ready next word).trans (switchResolve_run stored good (.inl rfl)), ?_⟩
    rw [irqSettle_ctl, irqSettle_port, switchRun_ctl]
    refine ⟨rfl, rfl, fun p => ?_⟩
    simp only [switchRun, phaseRun, pcTo, onUnit_port, switchStart]
    split
    next same =>
      have same' : r.planId = planAhead s := same
      simp [same']
    next other =>
      have other' : ¬r.planId = planAhead s := other
      simp only [vmk_val, if_neg other', Fin.getElem_fin]
      rfl
  case fetched =>
    refine ⟨_, fetchComplete_fills hs asked clean errors still, ?_⟩
    have kept : beside (fetchReads k words (unasked k s)) = beside (unasked k s) := fetchReads_beside k words
    have reads : contents (fetchReads k words (unasked k s)) = contents s := fetchReads_contents k errors
    have ctl : (fetchReads k words (unasked k s)).ctl = (unasked k s).ctl := congrArg Beside.ctl kept
    have img : (fetchReads k words (unasked k s)).img = s.img := congrArg Beside.img kept
    have mem : (fetchReads k words (unasked k s)).hbm.mem = s.hbm.mem := congrArg Prod.fst reads
    rw [irqSettle_ctl, irqSettle_pln, irqSettle_actUnit]
    generalize fetchReads k words (unasked k s) = u at ctl img mem
    cases k with
    | plan id j => simp [fetchFill, bothStores, ctl, unasked]
    | segment id w => simp [fetchFill, bothStores, actUnit, ctl, unasked, segOf, segInstrs, img, mem]
  case lost =>
    obtain ⟨t, ends, ctl⟩ := fetchComplete_loses hs asked marked image runs quiet
    refine ⟨_, ends, ?_⟩
    rw [irqSettle_ctl, abortEpoch_ctl, ctl]
    simp [dropPhase, unasked]
  case prefetch =>
    have still : ¬s.ctl.phase = 4#4 := by simp [between]
    have ctl := fetchAsk_ctl s (if g then .segment id (fin! 32 slot.toNat) else .plan id (fin! 129 slot.toNat))
    have unit := fetchAsk_actUnit s (if g then .segment id (fin! 32 slot.toNat) else .plan id (fin! 129 slot.toNat))
    have asked := fetchAsk_mem s (if g then .segment id (fin! 32 slot.toNat) else .plan id (fin! 129 slot.toNat))
    rw [prefetch, irqSettle_ctl, irqSettle_actUnit, pcNext_ctl, pcNext_actUnit]
    generalize fetchAsk _ s = u at ctl unit asked
    have phase : u.ctl.phase = 1 := (congrArg Ctl.phase ctl).trans between
    have pc : (actUnit u).pc = (actUnit s).pc := by rw [unit]
    exact ⟨asked, phase, by simp [phase, pc]⟩

end Sys2Proof.Machine
end

section
/-!
PROOFS. The body of a phase and its commit (R101 to R104, R106, R112, R164, Table 4.4).
-/

-- In sequence: each worker of the elaborator takes its stack from the memory that a check may use.
set_option Elab.async false

namespace Sys2Proof.Machine

/-- What counts the phases and the epochs, and the image. -/
def clock (t : State) : Word × Word × Load := (t.ctl.serial, t.ctl.epoch, t.img)

section
variable (s : State) (x : SiteIx) (b : Beam) (u : Fin 2) (n m k : ℕ) (i : BitVec 16) (raw : List Byte)

@[simp] theorem clock_fold : (s.ctl.serial, s.ctl.epoch, s.img) = clock s := rfl

@[simp] theorem ctlWith_clock {c : Ctl} {ce : Ce} {site : Vector Site 6} {wide : Vector WideSite 4} {reach : Vector ReachSite 2} {sq : Sq}
    {hbm : Hbm} {fresh : ℕ} {beam : Vector BeamSt 256} : clock { s with
      ctl := c, ce := ce, site := site, wide := wide, reach := reach, sq := sq, hbm := hbm, fresh := fresh, beam := beam } =
    (c.serial, c.epoch, s.img) := rfl

@[simp] theorem ite_clock (c : Prop) [Decidable c] (a b : State) : clock (if c then a else b) = if c then clock a else clock b := by
  split <;> rfl

@[simp] theorem foldl_clock {α : Type} (g : State → α → State) (l : List α) (s : State) (h : ∀ t x, clock (g t x) = clock t) :
    clock (l.foldl g s) = clock s := foldl_kept clock g l s h

@[simp] theorem onSite_clock (f : Site → Site) : clock (onSite x f s) = clock s := (rfl)
@[simp] theorem onBeam_clock (f : BeamSt → BeamSt) : clock (onBeam b f s) = clock s := (rfl)
@[simp] theorem onUnit_clock (f : SqUnitSt → SqUnitSt) : clock (onUnit u f s) = clock s := (rfl)
@[simp] theorem onPwr_clock (f : Pwr → Pwr) : clock (onPwr f s) = clock s := (rfl)
@[simp] theorem hbmCount_clock (h : Stack) (q : Fin 8) : clock (hbmCount h q n s) = clock s := (rfl)
@[simp] theorem spend_clock : clock (spend n s) = clock s := (rfl)
@[simp] theorem pcTo_clock : clock (pcTo n s) = clock s := by simp [pcTo]
@[simp] theorem flag_clock : clock (flag n m k s) = clock s := by rw [clock, flag_ctl, flag_img, clock]
@[simp] theorem eventBit_clock (j : ℕ) : clock (eventBit j n m k s) = clock s := by rw [clock, eventBit_ctl, eventBit_img, clock]
@[simp] theorem sendToken_clock (w : DWord) : clock (sendToken x w s) = clock s := (rfl)

@[simp] theorem railWrite_img (was : Pwr) : (railWrite was s).img = s.img := by simp [railWrite]
@[simp] theorem startEnds_img : (startEnds s).img = s.img := by simp [startEnds]
@[simp] theorem opMove_img : (opMove s).img = s.img := by simp [opMove]
@[simp] theorem restamp_img : (restamp n s).img = s.img := by simp [restamp]
@[simp] theorem reasonStep_img (now : BitVec 11) (c : Fin 11) : (reasonStep now s c).img = s.img := by simp [reasonStep]
@[simp] theorem pwrSettle_img (f : State → State) : (pwrSettle f s).img = (f s).img := by simp [pwrSettle]
@[simp] theorem sbSend_clock (t : Byte) (body : List Byte) : clock (sbSend x t body s) = clock s := by
  rw [clock, sbSend_ctl, sbSend_img, clock]
@[simp] theorem pwrSettle_clock (f : State → State) : clock (pwrSettle f s) = clock (f s) := by
  rw [clock, pwrSettle_ctl, pwrSettle_img, clock]
@[simp] theorem sendCredits_clock (p : RxStream → Bool) : clock (sendCredits x p s) = clock s := by simp [sendCredits]
@[simp] theorem freeFrames_clock : clock (freeFrames x n m s) = clock s := by simp [freeFrames]
@[simp] theorem hbmWrite_clock : clock (hbmWrite n raw s) = clock s := by simp [hbmWrite]
@[simp] theorem noteWritten_clock (l : Loc) : clock (noteWritten l n s) = clock s := by simp [noteWritten]
@[simp] theorem locWrite_clock (l : Loc) : clock (locWrite l raw s) = clock s := by unfold locWrite; split <;> simp
@[simp] theorem queueTransfer_clock : clock (queueTransfer x n m raw s) = clock s := by simp [queueTransfer]
@[simp] theorem sendPieces_clock (ps : List (ℕ × List Byte)) : clock (sendPieces n ps s) = clock s := by
  unfold sendPieces; split <;> simp
@[simp] theorem applyOutputs_clock : clock (applyOutputs s) = clock s := by
  unfold applyOutputs
  rw [foldl_clock _ _ _ (by simp)]
  exact foldl_clock _ _ _ fun _ _ => by split <;> simp
@[simp] theorem overflowStore_clock : clock (overflowStore s n) = clock s := by unfold overflowStore; dsimp only; split <;> simp
@[simp] theorem overflowStores_clock (p : CePend) (old : List Deferred) : clock (overflowStores p old s) = clock s := by
  simp [overflowStores]
@[simp] theorem parkHighCheck_clock : clock (parkHighCheck s) = clock s := by simp [parkHighCheck]
@[simp] theorem ceCommit_clock : clock (ceCommit s) = clock s := by simp [ceCommit]
@[simp] theorem takeNamed_clock : clock (takeNamed s) = clock s := by simp [takeNamed]
@[simp] theorem dropUnnamed_clock : clock (dropUnnamed s) = clock s := by simp [dropUnnamed]
@[simp] theorem closeWindows_clock : clock (closeWindows s) = clock s := by simp [closeWindows]
@[simp] theorem finishDispatch_clock : clock (finishDispatch n op s) = clock s := by simp [finishDispatch]
@[simp] theorem finishDispatches_clock : clock (finishDispatches s) = clock s := by simp [finishDispatches]
@[simp] theorem hintsEnd_clock : clock (hintsEnd s) = clock s := by simp [hintsEnd]
@[simp] theorem sendNotifies_clock (l : List (ℕ × ℕ)) : clock (sendNotifies l s) = clock s := by simp [sendNotifies]
@[simp] theorem iterEnds_clock : clock (iterEnds s) = clock s := by simp [iterEnds]
@[simp] theorem repairsAtCommit_clock : clock (repairsAtCommit s) = clock s := by simp [repairsAtCommit]
@[simp] theorem queueFlits_clock (l : List OutFlit) : clock (queueFlits b l s) = clock s := by simp [queueFlits]
@[simp] theorem sendTokens_clock : clock (sendTokens s) = clock s := by simp [sendTokens]
@[simp] theorem setUnit_clock (st : UnitState) : clock (setUnit u st s) = clock s := by simp [setUnit]
@[simp] theorem standbyCommit_clock (r : MirrorRec) : clock (standbyCommit r s) = clock s := by
  unfold standbyCommit; dsimp only; split <;> simp
@[simp] theorem mirrorNow_clock : clock (mirrorNow s) = clock s := by simp [mirrorNow]
@[simp] theorem swapUnits_clock : clock (swapUnits s) = clock s := by simp [swapUnits]
@[simp] theorem enterHeld_clock : clock (enterHeld i s) = clock s := by simp [enterHeld]
@[simp] theorem dropStale_clock : clock (dropStale b n s) = clock s := by
  induction n generalizing s with
  | zero => rfl
  | succ k ih => unfold dropStale; split <;> simp [ih]

end

section
variable (s : State)

theorem clock_iff {n m : Word} {i : Load} : clock s = (n, m, i) ↔ s.ctl.serial = n ∧ s.ctl.epoch = m ∧ s.img = i := by
  simp only [clock, Prod.mk.injEq]

theorem epochNext_clock : clock (epochNext s) = (s.ctl.serial, s.ctl.epoch + 1, s.img) := by simp [epochNext]

/-- A commit counts the phase, and the epoch at a barrier (R102). -/
theorem commitEffects_clock :
    clock (commitEffects s) = (s.ctl.serial + 1, if s.ctl.barrier then s.ctl.epoch + 1 else s.ctl.epoch, s.img) := by
  unfold commitEffects
  extract_lets c s0 s1 k s2 s3 s4
  have stored : clock s1 = clock s := by simp [s1, s0]
  have counted : clock s2 = (s.ctl.serial + 1, s.ctl.epoch, s.img) := by
    obtain ⟨-, epoch, img⟩ := (clock_iff s1).1 stored
    have steps : clock s2 = (s.ctl.serial + 1, s1.ctl.epoch, s1.img) := by simp [s2, k, consume, c]
    rw [steps, epoch, img]
  have opened : clock s3 = (s.ctl.serial + 1, if s.ctl.barrier then s.ctl.epoch + 1 else s.ctl.epoch, s.img) := by
    obtain ⟨serial, epoch, img⟩ := (clock_iff s2).1 counted
    simp only [s3]
    split
    next => rw [epochNext_clock, serial, epoch, img]
    next => exact counted
  have ended : clock s4 = clock s3 := by simp [s4]
  rw [repairsAtCommit_clock, hintsEnd_clock, sendNotifies_clock, ended, opened]

/-- The step of the phase, and what counts. -/
def turn (t : State) : BitVec 4 × Word × Word × Load := (t.ctl.phase, clock t)

theorem turn_of {t : State} (phase : t.ctl.phase = s.ctl.phase) (count : clock t = clock s) : turn t = turn s := by
  rw [turn, turn, phase, count]

theorem dropStale_phase (b : Beam) (n : ℕ) : (dropStale b n s).ctl.phase = s.ctl.phase := by
  induction n generalizing s with
  | zero => rfl
  | succ k ih =>
    unfold dropStale
    split
    next => exact (ih _).trans (by simp)
    next => rfl

theorem dropStale_turn (b : Beam) (n : ℕ) : turn (dropStale b n s) = turn s := turn_of s (dropStale_phase s b n) (dropStale_clock ..)

theorem tokenCount_turn (slot : ℕ) (gen : BitVec 8) (epoch : Word) : turn (tokenCount slot gen epoch s) = turn s := by
  simp only [tokenCount]
  (repeat' split) <;> rfl

/-- No DEV_PENUMBRA waits, and no phase collects its waits. -/
def settled (t : State) : Prop := t.img.penumbra = [] ∧ t.ctl.phase ≠ 2

variable {s}

theorem settled_of_turn {t : State} (kept : turn t = turn s) (h : settled s) : settled t := by
  obtain ⟨quiet, phase⟩ := h
  have phase' : t.ctl.phase = s.ctl.phase := congrArg Prod.fst kept
  have img : t.img = s.img := congrArg (fun k => k.2.2.2) kept
  exact ⟨by rw [img]; exact quiet, by rw [phase']; exact phase⟩

theorem afterWait_settled (h : settled s) : afterWait s = s := by
  obtain ⟨quiet, phase⟩ := h
  rw [afterWait_of_none quiet, phaseCheck, if_neg]
  have still : ¬s.ctl.phase = 2#4 := phase
  simp [phaseReady, still]

theorem tokenRx_turn (w : DWord) (h : settled s) : turn (tokenRx w s) = turn s := by
  simp only [tokenRx]
  split
  next => rfl
  next =>
    have counted := tokenCount_turn s (wbits w 59 48) (BitVec.ofNat 8 (wbits w 47 40)) (w32 (wbits w 31 0))
    rw [afterWait_settled (settled_of_turn counted h), counted]

theorem drainTokens_turn (b : Beam) (n : ℕ) (h : settled s) : turn (drainTokens b n s) = turn s := by
  induction n generalizing s with
  | zero => rfl
  | succ k ih =>
    unfold drainTokens
    split
    next f _ _ =>
      split
      next =>
        split
        next w _ =>
          have dropped : turn (onBeam b dropToken s) = turn s := rfl
          have taken := (tokenRx_turn w (settled_of_turn dropped h)).trans dropped
          exact (ih (settled_of_turn taken h)).trans taken
        next => exact ih h
      next => rfl
    next => rfl

theorem drainBeams_turn (h : settled s) : turn (drainBeams s) = turn s := by
  refine List.foldlRecOn (motive := fun t => turn t = turn s) _ _ rfl fun t kept b _ => ?_
  split
  next => exact kept
  next =>
    have stale := (dropStale_turn t b (t.beam[b]).seen.length).trans kept
    exact (drainTokens_turn b _ (settled_of_turn stale h)).trans stale

end

section
variable {s : State}

theorem standbyCommit_phase (r : MirrorRec) : (standbyCommit r s).ctl.phase = s.ctl.phase := by
  simp only [standbyCommit]
  split <;> rfl

theorem swapUnits_ctl : (swapUnits s).ctl = s.ctl := by
  simp only [swapUnits, setUnit, mirrorNow]
  (repeat' split) <;> simp

/-- A commit ends the phase, at its restart point held (R101 to R103). -/
theorem commitWrite_turn (quiet : s.img.penumbra = []) : ∃ ph, (ph = 1 ∨ ph = 6) ∧
    turn (commitWrite s) = (ph, s.ctl.serial + 1, if s.ctl.barrier then s.ctl.epoch + 1 else s.ctl.epoch, s.img) := by
  unfold commitWrite
  extract_lets i barrier swap r s1 k q s2 s3 s4 s5
  have counted : clock s2 = clock s1 := (pcTo_clock ..).trans rfl
  have ended : turn s4 = (1, clock s1) := by
    have sealed_ : turn s3 = (1, clock s1) := by
      rw [turn, standbyCommit_phase, standbyCommit_clock, counted]
      rfl
    simp only [s4]
    split
    next => rw [turn, swapUnits_clock, swapUnits_ctl, ← turn, sealed_]
    next => exact sealed_
  obtain ⟨ph, which, held⟩ : ∃ ph, (ph = 1 ∨ ph = 6) ∧ turn s5 = (ph, clock s1) := by
    have clear : ∃ ph, (ph = 1 ∨ ph = 6) ∧ turn s4 = (ph, clock s1) := ⟨1, .inl rfl, ended⟩
    simp only [s5]
    split
    next p _ =>
      split
      next =>
        have count : clock s4 = clock s1 := congrArg Prod.snd ended
        exact ⟨6, .inr rfl, by rw [turn, enterHeld_clock, count, enterHeld, flag_ctl]⟩
      next => exact clear
    next => exact clear
  have effects := commitEffects_clock s
  obtain ⟨-, -, img⟩ := (clock_iff s5).1 ((congrArg Prod.snd held).trans effects)
  have ready : settled s5 := by
    refine ⟨by rw [img]; exact quiet, ?_⟩
    have phase : s5.ctl.phase = ph := congrArg Prod.fst held
    rw [phase]
    rcases which with rfl | rfl <;> decide
  have drained := drainBeams_turn ready
  obtain ⟨quiet', -⟩ := settled_of_turn drained ready
  exact ⟨ph, which, by rw [penumbraCheck_of_none quiet', drained, held, effects]⟩

end

section
variable {s : State}

/-- Tokens that go out are kept in their records, and change nothing else of the sequencer. -/
theorem sendTokens_kept : (∃ l, (sendTokens s).ctl = { s.ctl with sendRec := l }) ∧ (sendTokens s).sq = s.sq := by
  refine List.foldlRecOn (motive := fun t : State => (∃ l, t.ctl = { s.ctl with sendRec := l }) ∧ t.sq = s.sq) _ _ ⟨⟨_, rfl⟩, rfl⟩
    fun t kept k _ => ?_
  obtain ⟨⟨l, ctl⟩, sq⟩ := kept
  dsimp only
  split
  next => exact ⟨⟨l, ctl⟩, sq⟩
  next => exact ⟨⟨_, by rw [queueFlits, onBeam_ctl, ctl]⟩, sq⟩

theorem phaseCheck_ctl : ∃ ph, (phaseCheck s).ctl = { s.ctl with phase := ph } := by
  unfold phaseCheck
  split
  next => exact ⟨4, by simp [phaseRun]⟩
  next => exact ⟨s.ctl.phase, rfl⟩

theorem issueBad_of_sound {n : Byte} {g : BitVec 16} {ws : List DWord} (some_ : 0 < n.toNat) (few : n.toNat ≤ 64)
    (words : issueWords s n.toNat = some ws) (fits : descrFits n.toNat g.toNat ws = true) (sound : descrSound (ws.map (·.toNat)) = true) :
    issueBad n g s = none := by
  have size : ¬(n = 0 ∨ 64 < n.toNat) := by
    rintro (rfl | more)
    · exact absurd some_ (by decide)
    · omega
  simp only [issueBad, if_neg size, words, fits, sound]
  rfl

end

section
variable {s : State}

/-- A token of the epoch in force joins its slot. -/
theorem tokenRx_counts {w : DWord} (kind : wbits w 63 60 = 2 ∨ wbits w 63 60 = 3) (epoch : w32 (wbits w 31 0) = s.ctl.epoch)
    (quiet : s.img.penumbra = []) : tokenRx w s =
    phaseCheck { s with ctl := { s.ctl with bank := bankAdd (wbits w 59 48) (BitVec.ofNat 8 (wbits w 47 40)) s.ctl.bank } } := by
  have counts : ¬(wbits w 63 60 = 0 ∨ 3 < wbits w 63 60 ∨ wbits w 63 60 = 1 ∧ s.dev.state ≠ .lit) := by omega
  have now : epochDiff s.ctl.epoch s.ctl.epoch = 0 := by simp [epochDiff]
  simp only [tokenRx, if_neg counts, tokenCount, epoch, now]
  exact afterWait_of_none quiet

end

section
variable {s : State}

/-- What an operation that ends well leaves: the sequencer, the beams, the image and the text of the Reservoir. -/
def worked (t : State) : Ctl × Vector BeamSt 256 × Load × Mem × List ℕ := (t.ctl, t.beam, t.img, contents t)

theorem worked_of_beside {t : State} (kept : beside t = beside s) (text : contents t = contents s) : worked t = worked s := by
  have ctl : t.ctl = s.ctl := congrArg Beside.ctl kept
  have beam : t.beam = s.beam := congrArg Beside.beam kept
  have img : t.img = s.img := congrArg Beside.img kept
  rw [worked, ctl, beam, img, text, worked]

theorem worked_iff {t : State} : worked t = worked s ↔ t.ctl = s.ctl ∧ t.beam = s.beam ∧ t.img = s.img ∧ contents t = contents s := by
  simp only [worked, Prod.mk.injEq]

@[simp] theorem eventBitCe_worked (k m n : ℕ) (s : State) : worked (eventBit k blkCE m n s) = worked s := by
  simp [worked, contents, eventBit, setEv, blkCE]

/-- A code error that is corrected leaves the operation as it is (R164). -/
theorem ceError_worked {c : CeCode} (soft : c.uncorrectable = false) : worked (ceError s c) = worked s := by
  have missed : worked (if c.missed then ceMissed s else s) = worked s := by split <;> rfl
  unfold ceError
  split
  next => rfl
  next =>
    simp only [soft, Bool.false_and, Bool.false_eq_true, if_false, eventBitCe_worked]
    exact missed

theorem opRead_worked {r : HbmRead} (clean : r.word ∉ s.hbm.poison) (good : r.err = .none ∨ r.err = .oneNibble) :
    worked (opRead s r) = worked s := by
  rcases good with none | one
  · simp [opRead, demandRead, decodeWord, clean, none]
  · simp only [opRead, demandRead, decodeWord, if_neg clean, one]
    exact worked_of_beside (correctWord_beside ..) (correctWord_contents ..)

theorem codes_worked {codes : List CeCode} (soft : ∀ c, c ∈ codes → c.uncorrectable = false) : worked (codes.foldl ceError s) = worked s :=
  List.foldlRecOn (motive := fun t => worked t = worked s) _ _ rfl fun _ kept c within => (ceError_worked (soft c within)).trans kept

theorem reads_worked {words : List HbmRead} (good : ∀ r, r ∈ words → r.word ∉ s.hbm.poison ∧ (r.err = .none ∨ r.err = .oneNibble)) :
    worked (words.foldl opRead s) = worked s := by
  refine List.foldlRecOn (motive := fun t => worked t = worked s) _ _ rfl fun t kept r within => ?_
  obtain ⟨clean, well⟩ := good r within
  obtain ⟨-, -, -, text⟩ := worked_iff.1 kept
  have poison : t.hbm.poison = s.hbm.poison := congrArg Prod.snd text
  exact (opRead_worked (by rw [poison]; exact clean) well).trans kept

theorem opFinished_congr {t : State} (kept : worked t = worked s) (k : ℕ) : opFinished t k = opFinished s k := by
  obtain ⟨ctl, beam, -, -⟩ := worked_iff.1 kept
  simp only [opFinished, opDrained, ctl, beam]

theorem lupd_at {α : Type} (l : List α) (k : ℕ) (f : α → α) : (lupd l k f)[k]? = l[k]?.map f := by
  induction l generalizing k with
  | nil => rfl
  | cons x r ih =>
    cases k with
    | zero => rfl
    | succ k => simpa [lupd] using ih k

/-- An operation that is finished was started and is not yet reported. -/
theorem finished_op {k : ℕ} (h : opFinished s k = true) : ∃ o, s.ctl.ops[k]? = some o ∧ o.started = true ∧ o.done = false := by
  unfold opFinished at h
  split at h
  next o found =>
    simp only [Bool.and_eq_true, Bool.not_eq_true'] at h
    obtain ⟨⟨⟨started, -⟩, open_⟩, -⟩ := h
    exact ⟨o, found, started, open_⟩
  next => exact absurd h (by simp)

theorem trySeal_of_open (h : s.ctl.commit_ = none ∨ opsDone s = false) : trySeal s = s := by
  rw [trySeal, if_neg]
  rintro ⟨-, asked, finished⟩
  rcases h with h | h
  · simp [h] at asked
  · simp [h] at finished

/-- An operation reports that it is done. -/
def reported (k : ℕ) (t : State) : State := { t with ctl := { t.ctl with ops := lupd t.ctl.ops k fun o => { o with done := true } } }

theorem opReports_of_finished {k : ℕ} (phase : s.ctl.phase = 4) (finished : opFinished s k = true) (uncommitted : s.ctl.commit_ = none) :
    opReports k s = reported k s := by
  rw [opReports, if_pos ⟨phase, finished⟩]
  exact trySeal_of_open (.inl uncommitted)

theorem opEnds_of_finished {k : ℕ} (codes : List CeCode) (words : List HbmRead) (phase : s.ctl.phase = 4) (finished : opFinished s k = true) :
    opEnds k codes words s = opReports k (words.foldl opRead (codes.foldl ceError s)) := by
  obtain ⟨o, found, started, open_⟩ := finished_op finished
  simp only [opEnds, found]
  rw [if_pos ⟨phase, started, open_⟩]

end

/-- A code error that cannot be corrected, before the abort that it brings. -/
def ceSpoilt (c : CeCode) (s : State) : State := eventBit clsContained blkCE 0 3 { s with ce := { s.ce with
  errInfo := (ceKind c.mem, c.unit, c.address), epoch := s.ce.epoch + 1 } }

/-- NOTIFY's record of what the commit tells. -/
def notified (x : SiteIx) (slot : BitVec 12) (s : State) : State :=
  pcNext { s with ctl := { s.ctl with notifies := s.ctl.notifies ++ [(x.val, slot.toNat)] } }

/-- The commit that the phase asks for, before it waits for its operations. -/
def commitBegins (e : Bool) (s : State) : State := writeV15 { s with ctl := { s.ctl with commit_ := some e } }

/-- The phase while its commit is on the way. -/
def sealing (s : State) : State := { sendTokens s with ctl := { (sendTokens s).ctl with phase := 5 } }

/-- COMMIT, met again while it waits for an operation, changes nothing. -/
def commitAsked (e : Bool) (s : State) : State := if s.ctl.commit_.isSome then s else commits e s

section
variable {s : State} {e : Bool}

theorem commitAsked_of_first (h : s.ctl.commit_ = none) : commitAsked e s = trySeal (commitBegins e s) := by
  rw [commitAsked, if_neg (by simp [h])]
  rfl

theorem commitBegins_actUnit (e : Bool) (s : State) : actUnit (commitBegins e s) = { actUnit s with v := upd (actUnit s).v 15 fun _ => v15 s } := by
  rw [commitBegins, writeV15]
  exact (onUnit_actUnit ..).trans rfl

theorem commitBegins_sync (e : Bool) (s : State) : inSync (commitBegins e s) = inSync s := by
  have kept := upd_val_of_ne s.sq.unit (fun q => { q with v := upd q.v 15 fun _ => v15 s }) (otherUnit_ne s.sq.active)
  have state := congrArg SqUnitSt.state kept
  exact congrArg (· == UnitState.inSync) state

theorem upd_last_var (v : Vector Byte 16) (f : Byte → Byte) : (upd v 15 f)[15] = f v[15] := upd_val_self v 15 f

theorem sealing_kept (s : State) : (sealing s).ctl.serial = s.ctl.serial ∧ (sealing s).ctl.epoch = s.ctl.epoch ∧
    (sealing s).ctl.barrier = s.ctl.barrier ∧ (sealing s).img = s.img := by
  obtain ⟨⟨l, ctl⟩, -⟩ := sendTokens_kept (s := s)
  obtain ⟨-, -, img⟩ := (clock_iff (sendTokens s)).1 (sendTokens_clock s)
  simp [sealing, ctl, img]

theorem sealing_sync (s : State) : inSync (sealing s) = inSync s := by
  obtain ⟨-, sq⟩ := sendTokens_kept (s := s)
  simp only [inSync, standby, sealing, sq]

theorem trySeal_of_sync (phase : s.ctl.phase = 4) (asked : s.ctl.commit_ = some e) (finished : opsDone s = true) (sync : inSync s = true) :
    trySeal s = { sealing s with sq := { (sealing s).sq with sent := some (commitRecord (sealing s), false), ackDue := false } } := by
  have synced := (sealing_sync s).trans sync
  rw [sealing] at synced
  rw [trySeal, if_pos ⟨phase, by rw [asked]; rfl, finished⟩]
  exact if_pos (by rw [synced])

theorem trySeal_of_alone (phase : s.ctl.phase = 4) (asked : s.ctl.commit_ = some e) (finished : opsDone s = true) (alone : inSync s = false) :
    trySeal s = commitWrite (sealing s) := by
  have single := (sealing_sync s).trans alone
  rw [sealing] at single
  rw [trySeal, if_pos ⟨phase, by rw [asked]; rfl, finished⟩]
  exact if_neg (by rw [single]; decide)

end

/-- Settles O24: the phase's body records what the commit needs, an operation reports or aborts, and COMMIT waits, seals or counts the phase. -/
theorem phaseBodyAndCommit : Obligations.PhaseBodyAndCommit := by
  unfold Obligations.PhaseBodyAndCommit
  simp only [Fin.getElem_fin, BitVec.ofNat_eq_ofNat]
  refine ⟨fun n g ws s at_ least most words fits sound => ⟨_, instrRow_of_atWord at_ (issueBad_of_sound least most words fits sound), ?issue⟩,
    fun k b slot s at_ kind used lit => ⟨_, instrRow_of_atWord at_ ?good, ?token⟩,
    fun x slot s at_ => ⟨_, instrRow_of_atWord (bad := fun _ => none) (f := notified x slot) at_ rfl, ?notify⟩,
    fun op l h s at_ held => ⟨_, instrRow_of_atWord (bad := badIf (h == 0) 106) at_ ?held, ?hint⟩,
    fun w s hs kind epoch quiet => ⟨_, run_of_running _ s hs, ?arrival⟩,
    fun k codes words s hs phase finished uncommitted coded read => ⟨_, run_of_running _ s hs, ?done⟩,
    fun k err s hs phase finished image uncorrectable found quiet => ⟨_, run_of_running _ s hs, ?spoilt⟩,
    fun e s at_ uncommitted open_ => ⟨_, instrRow_of_atWord (bad := fun _ => none) (f := commitAsked e) at_ rfl, ?asked⟩,
    fun e s at_ uncommitted finished sync => ⟨_, instrRow_of_atWord (bad := fun _ => none) (f := commitAsked e) at_ rfl, ?sealed⟩,
    fun e s at_ uncommitted finished alone quiet => ⟨_, instrRow_of_atWord (bad := fun _ => none) (f := commitAsked e) at_ rfl, ?alone⟩⟩
  case issue =>
    have phase := body_phase at_
    have asked := words
    rw [issue, irqSettle_ctl, irqSettle_actUnit, pcTo_ctl, pcTo_actUnit, words]
    refine ⟨rfl, phase, fun unswitched => ?_⟩
    simp [unswitched, pcOf, BitVec.ofNat_add]
  case good =>
    have kind' : ¬(k ≠ 2 ∧ k ≠ 3) := by
      rcases kind with rfl | rfl <;> simp
    have used' : ¬beamUsed s b = false := by simp [used]
    rw [tokenBad, if_neg kind', if_neg used', if_pos lit]
  case token => simp [tokenAsk, pcNext, pcTo]
  case notify => simp [notified, pcNext, pcTo]
  case held => simpa [badIf] using held
  case hint =>
    rw [hint, irqSettle_pwr, irqSettle_ctl, pcNext_ctl, pwrSettle_ctl]
    refine ⟨?_, rfl⟩
    have hints (f : State → State) : (pcNext (pwrSettle f s)).pwr.hints = (f s).pwr.hints := pwrSettle_leaves s (·.hints)
      (fun _ _ _ _ _ _ _ _ _ _ => rfl) f
    rw [hints]
    simp only [onPwr]
    split
    next known => exact List.contains_iff_mem.1 known
    next => exact List.mem_cons_self ..
  case arrival =>
    obtain ⟨ph, ctl⟩ := phaseCheck_ctl (s := { s with ctl := { s.ctl with
      bank := bankAdd (wbits w 59 48) (BitVec.ofNat 8 (wbits w 47 40)) s.ctl.bank } })
    rw [tokenRx_counts kind epoch quiet, irqSettle_ctl, ctl]
    exact ⟨rfl, rfl⟩
  case done =>
    have coded' := codes_worked (s := s) coded
    have poison : (codes.foldl ceError s).hbm.poison = s.hbm.poison := by
      obtain ⟨-, -, -, text⟩ := worked_iff.1 coded'
      exact congrArg Prod.snd text
    have read' := (reads_worked (words := words) (by rwa [poison])).trans coded'
    obtain ⟨o, found, -, -⟩ := finished_op finished
    have finished' := (opFinished_congr read' k).trans finished
    have ends := opEnds_of_finished codes words phase finished
    rw [stopping, ends]
    generalize words.foldl opRead (codes.foldl ceError s) = u at read' finished'
    obtain ⟨ctl, -, img, text⟩ := worked_iff.1 read'
    have mem : u.hbm.mem = s.hbm.mem := congrArg Prod.fst text
    rw [opReports_of_finished (by rw [ctl]; exact phase) finished' (by rw [ctl]; exact uncommitted), stopAfter, if_neg (by simp [reported, ctl, img])]
    rw [irqSettle_ctl, irqSettle_hbm]
    refine ⟨?_, ?_, ?_, mem⟩
    · simp [reported, ctl, found, lupd_at]
    · simpa [reported, ctl] using phase
    · simp [reported, ctl]
  case spoilt =>
    have ends := opEnds_of_finished [err] [] phase finished
    have aborts : ceError s err = abortEpoch (ceSpoilt err s) := by
      simp [ceError, ceSpoilt, found, uncorrectable, abortIf, image, abortable, phase]
    have still : opReports k (abortEpoch (ceSpoilt err s)) = abortEpoch (ceSpoilt err s) := by
      rw [opReports, if_neg (by simp [abortEpoch_ctl])]
    rw [stopping, ends, List.foldl_nil, List.foldl_cons, List.foldl_nil, aborts, still, stopAfter_of_none _ (by simp [ceSpoilt, quiet])]
    rw [irqSettle_ctl, irqSettle_ce, abortEpoch_ctl, abortEpoch_ce]
    simp [ceSpoilt, eventBit, setEv, blkCE, dropPhase]
  all_goals have phase := body_phase at_
  case asked =>
    rw [commitAsked_of_first uncommitted, trySeal_of_open (s := commitBegins e s) (.inr open_), irqSettle_ctl, irqSettle_actUnit,
      commitBegins_actUnit]
    exact ⟨phase, rfl, rfl, upd_last_var ..⟩
  case sealed =>
    have sealed_ := trySeal_of_sync (s := commitBegins e s) phase rfl finished ((commitBegins_sync e s).trans sync)
    rw [commitAsked_of_first uncommitted, sealed_, irqSettle_ctl, irqSettle_sq]
    exact ⟨rfl, (sealing_kept (commitBegins e s)).1, rfl⟩
  case alone =>
    have writes := trySeal_of_alone (s := commitBegins e s) phase rfl finished ((commitBegins_sync e s).trans alone)
    obtain ⟨serial, epoch, barrier, img⟩ := sealing_kept (commitBegins e s)
    obtain ⟨ph, which, ends⟩ := commitWrite_turn (s := sealing (commitBegins e s)) (by rw [img]; exact quiet)
    rw [commitAsked_of_first uncommitted, writes, irqSettle_ctl]
    generalize commitWrite (sealing (commitBegins e s)) = t at ends
    obtain ⟨phase', count⟩ := Prod.mk.inj ends
    obtain ⟨serial', epoch', -⟩ := (clock_iff t).1 count
    rw [serial', epoch', phase', serial, epoch, barrier]
    exact ⟨rfl, which, rfl⟩

end Sys2Proof.Machine
end

section
/-!
PROOFS. The Mirror link, heartbeats and the phase watchdog (R114, R119, R120, R122).
-/

-- In sequence: each worker of the elaborator takes its stack from the memory that a check may use.
set_option Elab.async false

namespace Sys2Proof.Machine

section
variable (s : State) (u : Fin 2)

/-- A unit takes a state, and its link's marks go when that is another state. -/
theorem setUnit_sq (st : UnitState) : (setUnit u st s).sq.event = s.sq.event ∧ (setUnit u st s).sq.sent = s.sq.sent ∧
    (setUnit u st s).sq.ackDue = s.sq.ackDue ∧ (setUnit u st s).sq.active = s.sq.active ∧
    (setUnit u st s).sq.unit = upd s.sq.unit u fun q => { q with state := st } := by
  simp only [setUnit]
  split <;> exact ⟨rfl, rfl, rfl, rfl, rfl⟩

theorem setUnit_ctl (st : UnitState) : (setUnit u st s).ctl = s.ctl := by
  simp only [setUnit]
  split <;> rfl

theorem flagSq_sq (i n : ℕ) : (flag blkSQ i n s).sq = { s.sq with event := setBit s.sq.event n } := by
  simp [flag, eventBit, setEv, blkSQ]

theorem eventBitSq_sq (k i n : ℕ) : (eventBit k blkSQ i n s).sq = { s.sq with event := setBit s.sq.event n } := by
  simp [eventBit, setEv, blkSQ]

/-- The Mirror link with nothing on its way. -/
def linkIdle (s : State) : State := { s with sq := { s.sq with sent := none, ackDue := false } }

variable {s}

theorem resyncEnds_ctl : (resyncEnds s).ctl = s.ctl := by simp [resyncEnds, setUnit_ctl]

/-- A standby whose copy is acknowledged is in sync, with the record that it had pending. -/
theorem resyncEnds_sq : (resyncEnds s).sq.event = setBit s.sq.event 3 ∧ (resyncEnds s).sq.sent = s.sq.sent ∧
    (resyncEnds s).sq.ackDue = s.sq.ackDue ∧ ((resyncEnds s).sq.unit[standby s]).state = .inSync ∧
    ((resyncEnds s).sq.unit[standby s]).confirmed = (s.sq.unit[standby s]).pending := by
  obtain ⟨event, sent, ackDue, -, unit⟩ := setUnit_sq s (standby s) .inSync
  rw [resyncEnds, flagSq_sq]
  simp [onUnit, event, sent, ackDue, unit]

theorem mirrorAcked_of_open (due : s.sq.ackDue = true) (open_ : s.ctl.phase ≠ 5) : mirrorAcked s =
    if (s.sq.unit[standby s]).state = .resyncing ∧ s.sq.sealed = true then resyncEnds (linkIdle s) else linkIdle s := by
  have due' : ¬s.sq.ackDue = false := by simp [due]
  simp only [mirrorAcked, if_neg due']
  rw [if_neg (fun sealed_ => open_ sealed_.1)]
  rfl

/-- A standby that does not answer is out of the pair. -/
theorem mirrorFails_sq (open_ : s.ctl.phase ≠ 5) : (mirrorFails s).sq.sent = none ∧ ((mirrorFails s).sq.unit[standby s]).state = .stale ∧
    (mirrorFails s).sq.event = setBit s.sq.event 2 ∧ (mirrorFails s).sq.active = s.sq.active ∧ (mirrorFails s).ctl = s.ctl := by
  obtain ⟨event, sent, -, active, unit⟩ := setUnit_sq (onUnit (standby s) (fun q => { q with pending := none, confirmed := none }) (linkIdle s))
    (standby s) .stale
  have ctl := setUnit_ctl (onUnit (standby s) (fun q => { q with pending := none, confirmed := none }) (linkIdle s)) (standby s) .stale
  have fails : mirrorFails s = eventBit clsCorrected blkSQ 0 2 (setUnit (standby s) .stale (onUnit (standby s)
      (fun q => { q with pending := none, confirmed := none }) (linkIdle s))) := by
    refine if_neg fun sealed_ => open_ ?_
    obtain ⟨phase, -⟩ := sealed_
    rwa [eventBit_ctl, setUnit_ctl] at phase
  rw [fails, eventBitSq_sq, eventBit_ctl]
  generalize setUnit (standby s) .stale _ = t at event sent active unit ctl
  exact ⟨sent, by rw [unit, upd_self], by rw [event]; rfl, active, ctl⟩

theorem abortEpoch_sq : (abortEpoch s).sq = { s.sq with event := setBit s.sq.event 10, sent := none } := by simp [abortEpoch]

/-- The watchdog's own marks: its phase, its event, and that it no longer counts. -/
def watchdogMarks (s : State) : State := eventBit clsContained blkSQ 0 5 { s with
  sq := { s.sq with wdog := s.ctl.phaseId }
  ctl := { s.ctl with watchdog := false } }

theorem watchdogExpires_of_armed (armed : s.ctl.watchdog = true) (paused : s.ctl.phase = 2 → watchdogPaused s = false) : watchdogExpires s =
    match (watchdogMarks s).sq.fence with
    | some f => { watchdogMarks s with sq := { (watchdogMarks s).sq with fence := some { f with abortAfter := true } } }
    | none => abortIf true (watchdogMarks s) := by
  have runs : ¬(s.ctl.watchdog = false ∨ s.ctl.phase = 2 ∧ watchdogPaused s = true) := by
    rintro (stopped | ⟨waits, held⟩)
    · simp [armed] at stopped
    · simp [paused waits] at held
  rw [watchdogExpires, if_neg runs]
  rfl

theorem watchdogMarks_sq (s : State) : (watchdogMarks s).sq = { s.sq with wdog := s.ctl.phaseId, event := setBit s.sq.event 5 } := by
  rw [watchdogMarks, eventBitSq_sq]

theorem watchdogMarks_ctl (s : State) : (watchdogMarks s).ctl = { s.ctl with watchdog := false } := by rw [watchdogMarks, eventBit_ctl]

theorem watchdogMarks_img (s : State) : (watchdogMarks s).img = s.img := by rw [watchdogMarks, eventBit_img]

/-- The log of the code errors that a record has met. -/
def beatsLogged (beats : List CodeResult) (s : State) : State :=
  beats.foldl (fun t b => if b = .corrected ∨ b = .missed true then logEvent clsCorrected blkSQ 0x0100 0 t else t) s

theorem beatsLogged_kept (beats : List CodeResult) : ((beatsLogged beats s).sq, (beatsLogged beats s).ctl) = (s.sq, s.ctl) := by
  refine foldl_kept (fun t : State => (t.sq, t.ctl)) _ _ _ fun t b => ?_
  split
  next => rw [logEvent_sq, logEvent_ctl]
  next => rfl

theorem beatsMissed_of_read {beats : Vector CodeResult 8} (read : ∀ c, c ∈ beats.toList → c = .clean ∨ c = .corrected) (n : ℕ) (r : MirrorRec) :
    beatsMissed beats n r = r := by
  refine if_neg fun missed => ?_
  obtain ⟨b, within, met⟩ := List.any_eq_true.1 missed
  rcases read b within with rfl | rfl <;> simp at met

end

/-- Settles O25: records, acknowledgements and timeouts of the Mirror link, the watchdog's expiry and the heartbeat. -/
theorem mirrorLinkAndWatchdog : Obligations.MirrorLinkAndWatchdog := by
  unfold Obligations.MirrorLinkAndWatchdog
  simp only [Fin.getElem_fin, BitVec.ofNat_eq_ofNat]
  refine ⟨fun r a v s hs sent on due intact => ⟨_, run_of_running _ s hs, ?record⟩, fun s hs due open_ => ⟨_, run_of_running _ s hs, ?acked⟩,
    fun s hs due phase sync quiet => ⟨_, run_of_running _ s hs, ?commits⟩, fun s hs due open_ state sealed_ => ⟨_, run_of_running _ s hs, ?resync⟩,
    fun r s hs sent on => ⟨_, run_of_running _ s hs, ?again⟩, fun r s hs sent on open_ => ⟨_, run_of_running _ s hs, ?stale⟩,
    fun s hs armed paused runs image free quiet => ⟨_, run_of_running _ s hs, ?expires⟩,
    fun f s hs armed phase fenced => ⟨_, run_of_running _ s hs, ?fenced⟩, fun u s hs watched_ => ⟨_, run_of_running _ s hs, ?beat⟩⟩
  case record =>
    have due' : ¬(mirrorOn s = false ∨ s.sq.ackDue = true) := by simp [on, due]
    have intact' : ¬v.toList.contains .uncorrectable = true := by simpa using intact
    obtain ⟨sq, ctl⟩ := Prod.mk.inj (beatsLogged_kept (s := s) v.toList)
    have taken : mirrorRx v s = onUnit (standby s) (fun q => { q with pending := some (beatsMissed v s.fresh r) }) { beatsLogged v.toList s with
        fresh := (beatsLogged v.toList s).fresh + 1, sq := { (beatsLogged v.toList s).sq with ackDue := true } } := by
      simp only [mirrorRx, sent, if_neg due', if_neg intact']
      rfl
    rw [taken, irqSettle_sq, irqSettle_ctl]
    refine ⟨by simp [onUnit], rfl, ctl, fun read => ?_⟩
    simp [onUnit, beatsMissed_of_read read]
  case acked =>
    rw [mirrorAcked_of_open due open_, irqSettle_sq, irqSettle_ctl]
    split
    next =>
      obtain ⟨-, sent, ackDue, -, -⟩ := resyncEnds_sq (s := linkIdle s)
      exact ⟨sent, ackDue, resyncEnds_ctl⟩
    next => exact ⟨rfl, rfl, rfl⟩
  case commits =>
    have due' : ¬s.sq.ackDue = false := by simp [due]
    have commits : mirrorAcked s = commitWrite (linkIdle s) := by
      simp only [mirrorAcked, if_neg due']
      exact if_pos ⟨phase, sync⟩
    obtain ⟨ph, which, ends⟩ := commitWrite_turn (s := linkIdle s) quiet
    rw [commits, irqSettle_ctl]
    generalize commitWrite (linkIdle s) = t at ends
    obtain ⟨phase', count⟩ := Prod.mk.inj ends
    obtain ⟨serial, epoch, -⟩ := (clock_iff t).1 count
    rw [serial, epoch, phase']
    exact ⟨rfl, which, rfl⟩
  case resync =>
    rw [mirrorAcked_of_open due open_, if_pos ⟨state, sealed_⟩, irqSettle_sq]
    obtain ⟨event, -, -, state', confirmed⟩ := resyncEnds_sq (s := linkIdle s)
    exact ⟨state', confirmed, event⟩
  case again =>
    have on' : ¬mirrorOn s = false := by simp [on]
    simp [mirrorTimeout, sent, on']
  case stale =>
    have on' : ¬mirrorOn s = false := by simp [on]
    have fails : mirrorTimeout s = mirrorFails s := by simp [mirrorTimeout, sent, on']
    rw [fails, irqSettle_sq, irqSettle_ctl]
    exact mirrorFails_sq open_
  case expires =>
    have free' : (watchdogMarks s).sq.fence = none := by rw [watchdogMarks_sq]; exact free
    have aborts : watchdogExpires s = abortEpoch (watchdogMarks s) := by
      rw [watchdogExpires_of_armed armed paused, free']
      simp [abortIf, watchdogMarks_img, image, watchdogMarks_ctl, runs]
    rw [stopping, aborts, stopAfter_of_none _ (by rw [abortEpoch_img, watchdogMarks_img, quiet]), irqSettle_sq, irqSettle_ctl, abortEpoch_sq,
      abortEpoch_ctl, watchdogMarks_sq, watchdogMarks_ctl]
    exact ⟨rfl, rfl, rfl, rfl⟩
  case fenced =>
    have fenced' : (watchdogMarks s).sq.fence = some f := by rw [watchdogMarks_sq]; exact fenced
    have paused : s.ctl.phase = 2 → watchdogPaused s = false := fun waits => by simp [phase] at waits
    have marks : watchdogExpires s = { watchdogMarks s with sq := { (watchdogMarks s).sq with fence := some { f with abortAfter := true } } } := by
      rw [watchdogExpires_of_armed armed paused, fenced']
    rw [stopping, marks, stopAfter, if_neg (by simp [watchdogMarks_ctl, watchdogMarks_img]), irqSettle_sq, irqSettle_ctl, watchdogMarks_sq,
      watchdogMarks_ctl]
    exact ⟨rfl, phase, rfl, rfl⟩
  case beat => simp [heartbeat, watched_]

end Sys2Proof.Machine
end

section
/-!
PROOFS. SQ_RESUME and SQ_CMD at their epochs (R116, R117, R128, R129).
-/

-- In sequence: each worker of the elaborator takes its stack from the memory that a check may use.
set_option Elab.async false

namespace Sys2Proof.Machine

section
variable (s : State)

theorem mirrorNow_ctl : (mirrorNow s).ctl = s.ctl := by
  simp only [mirrorNow]
  split <;> rfl

/-- The Mirror copy reaches the other unit alone. -/
theorem mirrorNow_actUnit : actUnit (mirrorNow s) = actUnit s := by
  simp only [mirrorNow]
  split
  next => exact upd_val_of_ne s.sq.unit _ (otherUnit_ne s.sq.active).symm
  next => rfl

theorem mirrorNow_img : (mirrorNow s).img = s.img := by
  simp only [mirrorNow]
  split <;> rfl

variable {s}

theorem actUnit_of_sq {t : State} (h : t.sq = s.sq) : actUnit t = actUnit s := congrArg (fun q : Sq => q.unit[q.active]) h

theorem resumeArm_of_unarmed (id : BitVec 16) (h : s.ctl.arm = none) : resumeArm id s = s := by
  simp [resumeArm, h]

/-- The sequencer at the barrier of a restart point, before its registers are cleared. -/
def resumeBanks (s : State) : State := { s with ctl := { banksResume s.sq.resumeEpoch (dropPhase s.ctl) with phase := 1, newEntry := false } }

/-- The registers that a program starts with behind a restart point. -/
def resumeRegisters (r : RestartRec) (q : SqUnitSt) : SqUnitSt :=
  { q with lc := Vector.replicate 8 0, stack := [], v := Vector.replicate 16 0, pc := BitVec.ofNat 16 (r.index + 1) }

/-- The overflow lists and what the beams have met are cleared by a resume. -/
def resumeClear (s : State) : State := overflowClear { s with beam := s.beam.map fun q => { q with seen := [] } }

theorem resumeAt_of_unarmed (r : RestartRec) (h : s.ctl.arm = none) :
    resumeAt r s = noticeAll 5 (mirrorNow (writeV15 (onUnit s.sq.active (resumeRegisters r) (resumeBanks (resumeClear s))))) := by
  have clear : resumeArm r.id (resumeClear s) = resumeClear s := resumeArm_of_unarmed r.id h
  have none : ¬((noticeAll 5 (mirrorNow (writeV15 (onUnit s.sq.active (resumeRegisters r) (resumeBanks (resumeClear s)))))).ctl.arm.map (·.id)) =
      some r.id := by
    rw [noticeAll_ctl, mirrorNow_ctl]
    have arm : (writeV15 (onUnit s.sq.active (resumeRegisters r) (resumeBanks (resumeClear s)))).ctl.arm = none := h
    simp [arm]
  rw [resumeClear] at clear none
  rw [resumeAt, clear]
  exact if_neg none

theorem resumeAt_ctl (r : RestartRec) (h : s.ctl.arm = none) : (resumeAt r s).ctl = (resumeBanks s).ctl := by
  rw [resumeAt_of_unarmed r h, noticeAll_ctl, mirrorNow_ctl]
  rfl

theorem resumeAt_actUnit (r : RestartRec) (h : s.ctl.arm = none) : (actUnit (resumeAt r s)).pc = BitVec.ofNat 16 (r.index + 1) ∧
    (actUnit (resumeAt r s)).stack = [] := by
  have unit : actUnit (resumeAt r s) = actUnit (writeV15 (onUnit s.sq.active (resumeRegisters r) (resumeBanks (resumeClear s)))) := by
    rw [resumeAt_of_unarmed r h]
    exact (actUnit_of_sq (noticeAll_sq ..)).trans (mirrorNow_actUnit _)
  have loaded : actUnit (onUnit s.sq.active (resumeRegisters r) (resumeBanks (resumeClear s))) = resumeRegisters r (actUnit s) :=
    onUnit_actUnit (resumeBanks (resumeClear s)) (resumeRegisters r)
  rw [unit, writeV15, onUnit_actUnit, loaded]
  exact ⟨rfl, rfl⟩

/-- A hold that ends with no takeover under way runs on. -/
theorem holdEnds_kept (h : s.sq.fence = none) : (holdEnds s).ctl = { s.ctl with phase := 1, heldAt := none, newEntry := false, applied := false } ∧
    (holdEnds s).img = s.img := by
  simp only [holdEnds, h, mirrorNow_ctl, mirrorNow_img]
  split <;> exact ⟨rfl, rfl⟩

end

section
variable {s : State} (n : ℕ)

/-- A command that names the epoch in force and is allowed. -/
theorem sqCmd_of_allowed {t : State} (h : sqEffect n s = some t) : sqCmd n s.sq.epoch s = sqResult n 1 t := by
  simp [sqCmd, h]

theorem idle_of_canKeepOut {c : UnitState} (h : canKeepOut c = true) : c ≠ .active := by
  rintro rfl
  exact absurd h (by decide)

theorem cmdUnit_standby {p : UnitState → Bool} (idle : (s.sq.unit[standby s]).state ≠ .active) (fits : p (s.sq.unit[standby s]).state = true) :
    cmdUnit s p = some (standby s) := by
  have found : ((s.sq.unit[standby s]).state != .active && p (s.sq.unit[standby s]).state) = true := by
    simp only [Bool.and_eq_true, bne_iff_ne, ne_eq]
    exact ⟨idle, fits⟩
  exact List.find?_cons_of_pos found

/-- A command that leaves the phase and the copy as they are brings no stop. -/
theorem sqCmd_runs {t : State} (h : sqEffect n s = some t) (phase : t.ctl.phase = s.ctl.phase) (img : t.img = s.img) :
    stopping (sqCmd n s.sq.epoch) s = sqResult n 1 t := by
  rw [stopping, sqCmd_of_allowed n h, stopAfter, if_neg]
  rintro (other | other)
  · exact other phase
  · exact other (congrArg Load.copying img)

/-- Neither does one while a takeover is under way, or while no DEV_PENUMBRA waits. -/
theorem sqCmd_runs_of_held {t : State} (h : sqEffect n s = some t) (held : t.sq.fence.isSome = true ∨ t.img.penumbra = []) :
    stopping (sqCmd n s.sq.epoch) s = sqResult n 1 t := by
  have undue : penumbraDue (sqResult n 1 t) = false := by
    rcases held with fenced | quiet
    · have fenced' : ¬t.sq.fence = none := Option.isSome_iff_ne_none.1 fenced
      simp [penumbraDue, sqResult, fenced']
    · simp [penumbraDue, sqResult, quiet]
  rw [stopping, sqCmd_of_allowed n h, stopAfter, penumbraCheck, undue]
  exact ite_self _

theorem setUnit_img (st : UnitState) (u : Fin 2) : (setUnit u st s).img = s.img := by
  simp only [setUnit]
  split <;> rfl

end

section
variable (s : State)

/-- A unit that has failed goes to its self-test, or out; no other is touched. -/
theorem failedUnit_kept (u : Fin 2) : (∃ f, (failedUnit u s).sq.unit = upd s.sq.unit u f) ∧ (failedUnit u s).ctl = s.ctl ∧
    (failedUnit u s).img = s.img := by
  unfold failedUnit
  split
  next =>
    obtain ⟨-, -, -, -, unit⟩ := setUnit_sq s u .keptOut
    rw [eventBitSq_sq, eventBit_ctl, eventBit_img, setUnit_ctl, setUnit_img]
    exact ⟨⟨_, unit⟩, rfl, rfl⟩
  next =>
    obtain ⟨-, -, -, -, unit⟩ := setUnit_sq s u .selfTest
    rw [setUnit_ctl, setUnit_img]
    exact ⟨⟨_, unit⟩, rfl, rfl⟩

theorem failEnds_kept : (failEnds s).sq.unit = s.sq.unit ∧ (failEnds s).ctl.phase = 10 ∧ (failEnds s).img = s.img := by
  simp [failEnds]

/-- What a failure by command leaves of a unit: its strikes stand (R128). -/
def failsForced (cause : ℕ) (q : SqUnitSt) : SqUnitSt := { q with
  failCount := if q.failCount = BitVec.allOnes 8 then q.failCount else q.failCount + 1
  cause := BitVec.ofNat 4 cause, confirmed := none, pending := none }

theorem failUnit_forced (u : Fin 2) (cause : ℕ) : ((failUnit u cause true s).sq.unit[u]).state = .failed ∧
    ((failUnit u cause true s).sq.unit[u]).strikes = (s.sq.unit[u]).strikes := by
  have fails : failUnit u cause true s = setUnit u .failed (onUnit u (failsForced cause) s) := rfl
  obtain ⟨-, -, -, -, unit⟩ := setUnit_sq (onUnit u (failsForced cause) s) u .failed
  have failed : (setUnit u .failed (onUnit u (failsForced cause) s)).sq.unit[u] = { failsForced cause s.sq.unit[u] with state := .failed } := by
    simp only [unit]
    simp [onUnit]
  rw [fails, failed]
  exact ⟨rfl, rfl⟩

variable {s}

theorem declareFailed_fences (active : (actUnit s).state = .active) (busy : phaseQuiet s.ctl.phase = false) (sync : inSync s = true) (cause : ℕ)
    (forced : Bool) : declareFailed s.sq.active cause forced s = failFence s.sq.active cause forced s := by
  have watched_ : ¬watched s s.sq.active = false := by
    have state : (s.sq.unit[s.sq.active]).state = .active := active
    rw [watched, state]
    decide
  rw [declareFailed, if_neg watched_, if_neg (by exact not_not.2 active), busy, sync]
  rfl

theorem failFence_kept (u : Fin 2) (cause : ℕ) (forced : Bool) : (failFence u cause forced s).ctl.phase = 8 ∧
    (failFence u cause forced s).sq.fence.isSome = true ∧ (failFence u cause forced s).sq.unit = (failUnit u cause forced s).sq.unit :=
      ⟨rfl, rfl, rfl⟩

end

/-- Settles O27: resumes, holds released, and the commands of SQ_CMD, allowed, refused or stale. -/
theorem sequencerResumeAndCommands : Obligations.SequencerResumeAndCommands := by
  unfold Obligations.SequencerResumeAndCommands
  simp only [Fin.getElem_fin, BitVec.ofNat_eq_ofNat]
  refine ⟨fun v r s hon clear go alone ready found unarmed => ⟨_, regRow_of_running _ hon.1 hon.2 clear, ?go⟩,
    fun v s hon clear go alone refused => ⟨_, regRow_of_running _ hon.1 hon.2 clear, ?refused⟩,
    fun v s hon clear alone release held idle unready whole free quiet => ⟨_, regRow_of_running _ hon.1 hon.2 clear, ?release⟩,
    fun s hon active sync busy => ⟨_, runBar_of_running _ s hon.1 hon.2, ?failover⟩,
    fun s hon _ stale => ⟨_, runBar_of_running _ s hon.1 hon.2, ?resync⟩,
    fun s hon sync primary going => ⟨_, runBar_of_running _ s hon.1 hon.2, ?back⟩,
    fun s hon free open_ fits => ⟨_, runBar_of_running _ s hon.1 hon.2, ?out⟩,
    fun f s hon fenced failed sync quiet => ⟨_, runBar_of_running _ s hon.1 hon.2, ?ends⟩,
    fun s hon out => ⟨_, runBar_of_running _ s hon.1 hon.2, ?readmit⟩,
    fun e s hon stale => ⟨_, runBar_of_running _ s hon.1 hon.2, ?stale⟩⟩
  case go =>
    have runs : resumeWrite v s = sqResult 0x10 1 (resumeAt r s) := by simp [resumeWrite, go, alone, ready, found]
    obtain ⟨pc, stack⟩ := resumeAt_actUnit r unarmed
    have ctl := resumeAt_ctl r unarmed
    rw [runs, irqSettle_ctl, irqSettle_sq, irqSettle_actUnit]
    generalize resumeAt r s = t at pc stack ctl
    refine ⟨congrArg Ctl.phase ctl, pc, congrArg Ctl.epoch ctl, stack, ?_, rfl⟩
    exact (congrArg Ctl.serial ctl).trans rfl
  case refused => simp [resumeWrite, go, alone, refused, sqResult]
  case release =>
    obtain ⟨ctl, img⟩ := holdEnds_kept free
    have on : ¬(s.ctl.phase ≠ 6 ∨ s.img.copying = true ∨ applyReady s = true ∨ partHeld s = true) := by
      simp [held, idle, unready, whole]
    have runs : resumeWrite v s = sqResult 0x11 1 (holdEnds s) := by
      simp only [resumeWrite, alone, release, Bool.false_eq_true, false_and, if_false, if_true, if_neg on]
      rw [penumbraCheck_of_none (by rw [img]; exact quiet)]
    rw [runs, irqSettle_ctl, irqSettle_sq]
    simp [sqResult, ctl]
  case failover =>
    have effect : sqEffect 1 s = some (failFence s.sq.active 5 true s) := by
      rw [← declareFailed_fences active busy sync]
      rw [sqEffect, if_pos rfl, if_pos ⟨active, sync⟩]
    obtain ⟨phase, fenced, unit⟩ := failFence_kept (s := s) s.sq.active 5 true
    obtain ⟨state, strikes⟩ := failUnit_forced s s.sq.active 5
    rw [sqCmd_runs_of_held 1 effect (.inl fenced), irqSettle_sq, irqSettle_ctl]
    generalize failFence s.sq.active 5 true s = t at phase unit
    rw [← unit] at state strikes
    exact ⟨phase, state, strikes, rfl⟩
  case resync =>
    have effect : sqEffect 2 s = some (setUnit (standby s) .resyncing s) := by
      have unit := cmdUnit_standby (s := s) (p := (· == .stale)) (by simp [stale]) (by simp [stale])
      simp [sqEffect, unit]
    obtain ⟨-, -, -, -, unit⟩ := setUnit_sq s (standby s) .resyncing
    rw [sqCmd_runs 2 effect (congrArg Ctl.phase (setUnit_ctl ..)) (setUnit_img ..), irqSettle_sq]
    simp [sqResult, unit]
  case back =>
    have effect : sqEffect 3 s = some { s with sq := { s.sq with takebackNow := true } } := by simp [sqEffect, sync, primary]
    rw [sqCmd_runs 3 effect rfl rfl, irqSettle_sq]
    simp [sqResult]
  case out =>
    have unit := cmdUnit_standby (s := s) (p := canKeepOut) (idle_of_canKeepOut fits) fits
    have kept : keepOut (standby s) s = eventBit clsCorrected blkSQ 0 9 (setUnit (standby s) .keptOut s) := by
      simp only [keepOut, free]
      refine if_neg fun sealed_ => open_ ?_
      obtain ⟨phase, -⟩ := sealed_
      rwa [eventBit_ctl, setUnit_ctl] at phase
    have effect : sqEffect 4 s = some (eventBit clsCorrected blkSQ 0 9 (setUnit (standby s) .keptOut s)) := by simp [sqEffect, unit, kept]
    obtain ⟨event, -, -, -, units⟩ := setUnit_sq s (standby s) .keptOut
    rw [sqCmd_runs 4 effect (by rw [eventBit_ctl, setUnit_ctl]) (by rw [eventBit_img, setUnit_img]), irqSettle_sq]
    simp [sqResult, eventBitSq_sq, event, units]
  case ends =>
    have state : (s.sq.unit[standby s]).state = .inSync := by simpa [inSync] using sync
    have unit := cmdUnit_standby (s := s) (p := canKeepOut) (by rw [state]; decide) (by rw [state]; rfl)
    have kept : keepOut (standby s) s = failedUnit f.failed (failEnds (eventBit clsCorrected blkSQ 0 9 (setUnit (standby s) .keptOut s))) := by
      simp only [keepOut, fenced]
      exact if_pos state
    have effect : sqEffect 4 s = some (keepOut (standby s) s) := by simp [sqEffect, unit]
    rw [kept] at effect
    obtain ⟨-, -, -, -, units⟩ := setUnit_sq s (standby s) .keptOut
    obtain ⟨units', phase, img⟩ := failEnds_kept (eventBit clsCorrected blkSQ 0 9 (setUnit (standby s) .keptOut s))
    obtain ⟨⟨g, units''⟩, ctl, img'⟩ := failedUnit_kept (failEnds (eventBit clsCorrected blkSQ 0 9 (setUnit (standby s) .keptOut s))) f.failed
    rw [sqCmd_runs_of_held 4 effect (.inr (by rw [img', img, eventBit_img, setUnit_img]; exact quiet)), irqSettle_sq, irqSettle_ctl]
    rw [units', eventBitSq_sq] at units''
    rw [← ctl] at phase
    generalize failedUnit f.failed _ = t at units'' phase
    have other : standby s ≠ f.failed := by rw [failed]; exact otherUnit_ne _
    refine ⟨?_, phase, rfl⟩
    simp [sqResult, units'', upd_val_of_ne _ _ other, units]
  case readmit =>
    have effect : sqEffect 5 s = some (setUnit (standby s) .selfTest s) := by
      have unit := cmdUnit_standby (s := s) (p := (· == .keptOut)) (by simp [out]) (by simp [out])
      simp [sqEffect, unit]
    obtain ⟨-, -, -, -, unit⟩ := setUnit_sq s (standby s) .selfTest
    rw [sqCmd_runs 5 effect (congrArg Ctl.phase (setUnit_ctl ..)) (setUnit_img ..), irqSettle_sq]
    simp [sqResult, unit]
  case stale =>
    have told : sqCmd 1 e s = flag blkSQ 0 8 (sqResult 1 2 s) := if_pos stale
    rw [stopping, told, stopAfter, if_neg (by simp [sqResult]), irqSettle_sq, irqSettle_ctl, flagSq_sq]
    simp [sqResult]

end Sys2Proof.Machine
end

section
/-!
PROOFS. GATE, and what every operation of the collective engines does with its inputs (R137 to R142, R51).
-/

-- In sequence: each worker of the elaborator takes its stack from the memory that a check may use.
set_option Elab.async false

namespace Sys2Proof.Machine

section
variable {s t : State} {k : ℕ} {o : OpSt}

/-- An operation that was issued and is sound runs. -/
theorem opRow_of_issued {code : ℕ} {bad : OpCheck} (f : ℕ → OpSt → State → Res) (issued : opIssued k code o s) (good : bad s o = none) :
    opRow code k bad f s = resOut s (f k o s) := by
  obtain ⟨up, phase, found, named, fresh, -⟩ := issued
  simp [opRow, up, phase, found, named, fresh, good]

theorem beamInPlan_congr (img : t.img = s.img) (port : t.port = s.port) (b : Beam) : beamInPlan t b = beamInPlan s b := by
  simp only [beamInPlan, masksIn, entryIn, blockAhead, blockNow, beamRec, img, port]

theorem found_of_issued {code : ℕ} (issued : opIssued k code o s) : s.ctl.ops[k]? = some o := by
  obtain ⟨-, -, found, -, -, -⟩ := issued
  exact found

theorem streamsLit_of_issued {code : ℕ} (issued : opIssued k code o s) : streamsLit s := by
  obtain ⟨-, -, -, -, -, lit⟩ := issued
  exact lit

/-- An effect whose new streams all lie on lit beams is no host error (R206). -/
theorem sendsUnlit_of_lit (img : t.img = s.img) (port : t.port = s.port) (streams : ∀ e ∈ t.ctl.streams, beamInPlan s (fin! 256 e.1) = true)
    (queue : ∀ e ∈ t.ce.queue, e ∈ s.ce.queue ∨ beamInPlan s e.beam = true) : sendsUnlit s t = false := by
  refine Bool.or_eq_false_iff.2 ⟨List.any_eq_false.2 fun e within => ?_, List.any_eq_false.2 fun e within => ?_⟩
  · simp [beamInPlan_congr img port, streams e within]
  · rcases queue e within with known | lit
    · simp [known]
    · simp [beamInPlan_congr img port, lit]

/-- An effect that leaves the phase and the image as they are, on lit beams, is the outcome. -/
theorem resOut_of_lit (img : t.img = s.img) (port : t.port = s.port) (phase : t.ctl.phase = s.ctl.phase)
    (streams : ∀ e ∈ t.ctl.streams, beamInPlan s (fin! 256 e.1) = true)
    (queue : ∀ e ∈ t.ce.queue, e ∈ s.ce.queue ∨ beamInPlan s e.beam = true) : resOut s (.ok t) = .next (irqSettle t) := by
  have still : stopAfter s t = t := if_neg (by simp [phase, img])
  simp only [resOut, sendsUnlit_of_lit img port streams queue, still, done, Bool.false_eq_true, if_false]

/-- An operation that was issued, is sound, and sends on lit beams alone, ends as its effect says. -/
theorem opRow_ends {code : ℕ} {bad : OpCheck} (f : ℕ → OpSt → State → Res) (issued : opIssued k code o s) (good : bad s o = none)
    (runs : f k o s = .ok t) (img : t.img = s.img) (port : t.port = s.port) (phase : t.ctl.phase = s.ctl.phase)
    (streams : ∀ e ∈ t.ctl.streams, beamInPlan s (fin! 256 e.1) = true)
    (queue : ∀ e ∈ t.ce.queue, e ∈ s.ce.queue ∨ beamInPlan s e.beam = true) : opRow code k bad f s = .next (irqSettle t) := by
  rw [opRow_of_issued f issued good, runs]
  exact resOut_of_lit img port phase streams queue

theorem bufLoc_of_memory {h off n : ℕ} (mem : inMemory h) {x : SiteIx} {stream o' : ℕ} : bufLoc s h off n ≠ some (.die x stream o') := by
  unfold bufLoc
  extract_lets space c o1 x'
  rw [inMemory] at mem
  split
  · simp
  · split
    · split <;> simp
    · split
      · split
        · dsimp only
          split <;> simp
        · simp
      · simp

theorem stage_of_memory {h off : ℕ} {b : List Byte} (mem : inMemory h) :
    stage h off b s = { s with ctl := { s.ctl with outputs := s.ctl.outputs ++ [(h, off, b)] } } := by
  unfold stage
  split
  next die => exact absurd die (bufLoc_of_memory mem)
  next => rfl

theorem nameInputs_of_memory {l : List (ℕ × ℕ)} (mem : ∀ e ∈ l, inMemory e.1) : nameInputs l s = s := by
  refine List.foldlRecOn (motive := fun t => t = s) _ _ rfl fun t kept e within => ?_
  split
  next die => exact absurd die (bufLoc_of_memory (mem e within))
  next => exact kept

section
variable (ins : List (List Byte))

theorem findSome_ready (g : Input → Option ℕ) (none : ∀ b, g (.ready b) = none) : (ins.map Input.ready).findSome? g = .none := by
  simp [List.findSome?_eq_none_iff, none]

theorem find_ready (g : Input → Bool) (passed : ∀ b, g (.ready b) = false) : (ins.map Input.ready).find? g = none := by
  simp [List.find?_eq_none, passed]

theorem map_ready (g : Input → List Byte) (same : ∀ b, g (.ready b) = b) : (ins.map Input.ready).map g = ins := by
  rw [List.map_map]
  exact (List.map_congr_left fun b _ => same b).trans (List.map_id ins)

end

/-- Inputs that are all there are taken as they are. -/
theorem withInputs_of_ready {l : List (ℕ × ℕ)} {ins : List (List Byte)} (f : List (List Byte) → State → Res) (ready : inputsReady l ins s) :
    withInputs l f s = f ins s := by
  obtain ⟨mem, found⟩ := ready
  unfold withInputs
  extract_lets ins' s1
  have same : ins' = ins.map Input.ready := found
  have named : s1 = s := nameInputs_of_memory mem
  rw [same, named, findSome_ready ins _ fun _ => rfl]
  dsimp only
  rw [find_ready ins _ fun _ => rfl, map_ready ins _ fun _ => rfl]

/-- Counting the bytes that are read touches the counters of the stacks alone. -/
theorem countInputs_kept (l : List (ℕ × ℕ)) (s : State) : ∃ h : Hbm, countInputs l s = { s with hbm := h } ∧ h.mem = s.hbm.mem ∧
    h.poison = s.hbm.poison := by
  refine List.foldlRecOn (motive := fun t => ∃ h : Hbm, t = { s with hbm := h } ∧ h.mem = s.hbm.mem ∧ h.poison = s.hbm.poison) _ _
    ⟨s.hbm, rfl, rfl, rfl⟩ fun t kept e _ => ?_
  obtain ⟨h, rfl, mem, poison⟩ := kept
  split
  next p _ =>
    cases p with
    | hbm a => exact ⟨_, rfl, mem, poison⟩
    | staging a => exact ⟨h, rfl, mem, poison⟩
    | die x stream off => exact ⟨h, rfl, mem, poison⟩
  next => exact ⟨h, rfl, mem, poison⟩

theorem opFinal_ended (found : s.ctl.ops[k]? = some o) : opEnded k (opFinal k s) := by
  simp [opEnded, opFinal, onOp, lupd_at, found]

end

section
variable {s : State} {k : ℕ} {o : OpSt} {p : List GateRec} {g : GateRec} {ins : List (List Byte)}

theorem gateRun_of_ready (prog : gateProg s o = some p) (ready : inputsReady (gateInputs o p) ins s) : gateRun k o s =
    .ok (opFinal k (gateBias o p ins (gateRoutes o p ins (countInputs (gateInputs o p) s)))) := by
  simp only [gateRun, prog, Option.getD_some]
  exact withInputs_of_ready _ ready

/-- The route results that a TOPK chooses from a state's biases. -/
def gateRows (o : OpSt) (p : List GateRec) (g : GateRec) (ins : List (List Byte)) (s : State) : List Byte :=
  (List.zipWith (routeRow g.a s.fresh (gateOp p 4)) ((gateScores o p ins s.fresh).map (activate ((gateOp p 2).elim 0 fun a => a.flags % 4)))
    (gateChoice s o g ((gateScores o p ins s.fresh).map (activate ((gateOp p 2).elim 0 fun a => a.flags % 4))))).flatten

theorem gateRoutes_topk (chosen : gateOp p 3 = some g) (uncounted : gateOp p 5 = none) (mem : inMemory (opBits o 1 31 0)) :
    gateRoutes o p ins s = { s with
      fresh := s.fresh + opCount o * gateE o + 1
      ctl := { s.ctl with outputs := s.ctl.outputs ++ [(opBits o 1 31 0, 0, gateRows o p g ins s)] } } := by
  simp only [gateRoutes, chosen, uncounted]
  exact stage_of_memory mem

end

/-- Settles O28: a GATE whose inputs are there stages its route results, or leaves its biases to the commit. -/
theorem gateRoutesTokens : Obligations.GateRoutesTokens := by
  unfold Obligations.GateRoutesTokens
  refine ⟨fun k o p g ins s issued prog good chosen uncounted fixed ready mem => ?_,
    fun k o p g b s issued prog good unscored unchosen uncounted updated ready => ?_⟩
  · have found := found_of_issued issued
    obtain ⟨h, counted, -, -⟩ := countInputs_kept (gateInputs o p) s
    have runs : gateRun k o s = .ok (opFinal k (gateRoutes o p ins { s with hbm := h })) := by
      rw [gateRun_of_ready prog ready, counted]
      simp only [gateBias, fixed]
    rw [gateRoutes_topk chosen uncounted mem] at runs
    refine ⟨_, opRow_ends gateRun issued good runs rfl rfl rfl (fun e within => streamsLit_of_issued issued e within) fun _ => .inl, ?_, rfl, rfl⟩
    exact opFinal_ended found
  · have found := found_of_issued issued
    obtain ⟨h, counted, -, -⟩ := countInputs_kept (gateInputs o p) s
    have runs : gateRun k o s = .ok (opFinal k (gateBias o p [b] { s with hbm := h })) := by
      rw [gateRun_of_ready prog ready, counted]
      simp only [gateRoutes, unchosen, uncounted]
    simp only [gateBias, updated] at runs
    refine ⟨_, opRow_ends gateRun issued good runs rfl rfl rfl (fun e within => streamsLit_of_issued issued e within) fun _ => .inl, ?_, rfl, rfl, ?_⟩
    · exact opFinal_ended found
    · simp [opFinal, onOp, indexed]

end Sys2Proof.Machine
end

section
/-!
PROOFS. DISPATCH and COMBINE (R144 to R158).
-/

-- In sequence: each worker of the elaborator takes its stack from the memory that a check may use.
set_option Elab.async false

namespace Sys2Proof.Machine

section
variable {s t : State} {o : OpSt} (img : t.img = s.img)
include img

theorem placeRec_congr (i : ℕ) : placeRec t i = placeRec s i := by simp only [placeRec, img]

theorem dispQuota_congr : dispQuota t o = dispQuota s o := by simp only [dispQuota, placeRec_congr img]

theorem ownPlace_congr : ownPlace t = ownPlace s := by simp only [ownPlace, img]

theorem formCopies_congr (serial : t.ctl.serial = s.ctl.serial) (tok : List Byte) (l : List Chosen) (cnt : List (ℕ × ℕ)) :
    formCopies t o tok l cnt = formCopies s o tok l cnt := by
  induction l generalizing cnt with
  | nil => rfl
  | cons x r ih => simp only [formCopies, placeRec_congr img, dispQuota_congr img, ownPlace_congr img, serial, ih]

theorem predictedSet_congr (l acc : List ℕ) : predictedSet t o l acc = predictedSet s o l acc := by
  induction l generalizing acc with
  | nil => rfl
  | cons e l ih => simp only [predictedSet, predictions, img, ih]

theorem predictedCopies_congr (ch : List Chosen) (l : List ℕ) : predictedCopies t o ch l = predictedCopies s o ch l := by
  induction l with
  | nil => rfl
  | cons x r ih => simp only [predictedCopies, predictedSet_congr img, placeRec_congr img, ih]

theorem tentatives_congr (ctl : t.ctl = s.ctl) (tok : List Byte) (l : List (ℕ × ℕ × PlaceRec)) (q : List Tentative) :
    tentatives t o tok l q = tentatives s o tok l q := by
  induction l generalizing q with
  | nil => rfl
  | cons x r ih => simp only [tentatives, attempt4, ctl, ownPlace_congr img, ih]

theorem inputOf_congr (ce : t.ce = s.ce) (site : t.site = s.site) (mem : t.hbm.mem = s.hbm.mem) (poison : t.hbm.poison = s.hbm.poison)
    (h n : ℕ) : inputOf t h n = inputOf s h n := by
  simp only [inputOf, bufLoc, transferAt, inWindow, areaTouched, locPoison, poisonIn, locRead, img, ce, site, mem, poison]

theorem inputsReady_congr (ce : t.ce = s.ce) (site : t.site = s.site) (mem : t.hbm.mem = s.hbm.mem) (poison : t.hbm.poison = s.hbm.poison)
    {l : List (ℕ × ℕ)} {ins : List (List Byte)} (ready : inputsReady l ins s) : inputsReady l ins t := by
  obtain ⟨memory, found⟩ := ready
  exact ⟨memory, by rw [← found]; exact List.map_congr_left fun e _ => inputOf_congr img ce site mem poison e.1 e.2⟩

end

section
variable {s t : State} (k : ℕ)

/-- Whether an operation has started, and has formed its outputs. -/
def opMark (o : OpSt) : Bool × Bool := (o.started, o.final)

/-- Records of an operation have gone to the Port Engines: beams' queues, the open streams and the operation's own list of beams changed, and
every stream lies on a lit beam (R206). -/
def Sent (k : ℕ) (s t : State) : Prop := ∃ beams ops streams,
  t = { s with beam := beams, ctl := { s.ctl with ops := ops, streams := streams } } ∧ (ops[k]?).map opMark = (s.ctl.ops[k]?).map opMark ∧
    (streamsLit s → ∀ e ∈ streams, beamInPlan s (fin! 256 e.1) = true)

theorem sent_refl (s : State) : Sent k s s := ⟨s.beam, s.ctl.ops, s.ctl.streams, rfl, rfl, fun lit => lit⟩

theorem mem_adel {κ α : Type} [DecidableEq κ] {l : List (κ × α)} {x : κ} {e : κ × α} (h : e ∈ adel l x) : e ∈ l := by
  induction l with
  | nil => exact h
  | cons a r ih =>
    obtain ⟨y, v⟩ := a
    rw [adel] at h
    split at h
    next => exact List.mem_cons_of_mem _ (ih h)
    next =>
      rcases List.mem_cons.1 h with rfl | rest
      · exact List.mem_cons_self ..
      · exact List.mem_cons_of_mem _ (ih rest)

theorem sendRecord_sent (kept : Sent k s t) {b : Beam} (lit : beamInPlan s b = true) (cls : BitVec 2) (bytes : List Byte) :
    Sent k s (sendRecord k b cls bytes t) := by
  obtain ⟨beams, ops, streams, rfl, mark, streams'⟩ := kept
  unfold sendRecord
  split
  next => exact ⟨beams, ops, streams, rfl, mark, streams'⟩
  next =>
    refine ⟨_, _, _, rfl, ?_, fun lits e within => ?_⟩
    · rw [lupd_at, Option.map_map]
      exact mark
    · rcases List.mem_cons.1 within with rfl | rest
      · rw [show fin! 256 b.val = b from Fin.ofNat_val_eq_self b]
        exact lit
      · exact streams' lits e (mem_adel rest)

theorem foldl_sent {α : Type} {g : State → α → State} {l : List α} (h : ∀ x ∈ l, ∀ u, Sent k s u → Sent k s (g u x)) (kept : Sent k s t) :
    Sent k s (l.foldl g t) :=
  List.foldlRecOn (motive := fun u => Sent k s u) l g kept fun u sent x within => h x within u sent

theorem foldl_stage {α : Type} {h : ℕ} (mem : inMemory h) (f : α → ℕ) (g : α → List Byte) (l : List α) (s : State) :
    l.foldl (fun t e => stage h (f e) (g e) t) s =
      { s with ctl := { s.ctl with outputs := s.ctl.outputs ++ l.map fun e => (h, f e, g e) } } := by
  induction l generalizing s with
  | nil => simp
  | cons x r ih =>
    rw [List.foldl_cons, stage_of_memory mem, ih]
    simp

end

section
variable {s : State} {k : ℕ} {o : OpSt}

theorem dispatchAhead_closed (off : aheadOn s = false) :
    dispatchAhead k o s = .ok (opFinal k { s with ce := { s.ce with area := some (windowArea o) } }) := by
  rw [dispatchAhead, if_pos off]

theorem dispatchAhead_queues {tok rr : List Byte} {l : List (ℕ × ℕ × PlaceRec)} (on : aheadOn s = true)
    (ready : inputsReady (dispInputs o) [tok, rr] s)
    (copies : predictedCopies s o (choices (opCount o) (opBits o 2 31 27) rr) (List.range (opCount o)) = .ok l) :
    ∃ h : Hbm, dispatchAhead k o s = .ok (opFinal k { s with
      hbm := h, ce := { s.ce with area := some (windowArea o), queue := s.ce.queue ++ tentatives s o tok l [] } }) := by
  obtain ⟨h, counted, -, -⟩ := countInputs_kept (dispInputs o) s
  have copies' : predictedCopies { s with hbm := h } o (choices (opCount o) (opBits o 2 31 27) rr) (List.range (opCount o)) = .ok l :=
    (predictedCopies_congr (s := s) (t := { s with hbm := h }) rfl _ _).trans copies
  have queued : tentatives { s with hbm := h } o tok l [] = tentatives s o tok l [] := tentatives_congr (s := s)
    (t := { s with hbm := h }) rfl rfl tok l []
  refine ⟨h, ?_⟩
  rw [dispatchAhead, if_neg (by simp [on]), withInputs_of_ready _ ready, counted]
  simp only [nth, List.getElem?_cons_succ, List.getElem?_cons_zero, Option.getD_some, copies', queued]

end

section
variable {s t : State} {k : ℕ} {o : OpSt} {q : List Tentative} {final : List Copy}

theorem overflowRead_kept (h : ℕ) (s : State) : ∃ m : Hbm, overflowRead h s = { s with hbm := m } ∧ m.mem = s.hbm.mem ∧
    m.poison = s.hbm.poison := by
  unfold overflowRead
  split
  next => exact ⟨_, rfl, rfl, rfl⟩
  next => exact ⟨s.hbm, rfl, rfl, rfl⟩

/-- Records that are formed from copies are led by one of them. -/
theorem addCopy_led (alone : Bool) (c : Copy) (l : List (List Copy)) (P : Copy → Prop) (new : P c) (old : ∀ g ∈ l, ∃ d, g.head? = some d ∧ P d) :
    ∀ g ∈ addCopy alone c l, ∃ d, g.head? = some d ∧ P d := by
  induction l with
  | nil =>
    intro g within
    rw [addCopy, List.mem_singleton] at within
    exact ⟨c, by rw [within]; rfl, new⟩
  | cons a r ih =>
    intro g within
    obtain ⟨d, head, led⟩ := old a (List.mem_cons_self ..)
    rw [addCopy] at within
    split at within
    next =>
      rcases List.mem_cons.1 within with rfl | rest
      · exact ⟨d, by simp [List.head?_append, head], led⟩
      · exact old g (List.mem_cons_of_mem _ rest)
    next =>
      rcases List.mem_cons.1 within with rfl | rest
      · exact ⟨d, head, led⟩
      · exact ih (fun g within => old g (List.mem_cons_of_mem _ within)) g rest

theorem dispatchGroups_led : ∀ g ∈ dispatchGroups q final, ∃ d, g.head? = some d ∧ d ∈ final ∧ d.here = false := by
  unfold dispatchGroups
  refine List.foldlRecOn (motive := fun l : List (List Copy) => ∀ g ∈ l, ∃ d, g.head? = some d ∧ d ∈ final ∧ d.here = false) _ _
    (fun g within => absurd within (by simp)) fun l led c within => ?_
  obtain ⟨known, away⟩ := List.mem_filter.1 within
  refine addCopy_led _ c l _ ⟨known, ?_⟩ led
  simp only [Bool.and_eq_true, Bool.not_eq_true'] at away
  exact away.1

/-- The markers and the records of a DISPATCH go out on lit beams. -/
theorem sendDispatch_sent (kept : Sent k s t) (copies : ∀ c ∈ final, c.here = false → beamInPlan s c.beam = true)
    (marks : ∀ e ∈ q, beamInPlan s e.beam = true) : Sent k s (sendDispatch k q final t) := by
  unfold sendDispatch
  refine foldl_sent k (fun e within u sent => sendRecord_sent k sent ?_ 0 e.2) kept
  rcases List.mem_append.1 within with mark | record
  · obtain ⟨x, known, rfl⟩ := List.mem_map.1 mark
    exact marks x known
  · obtain ⟨g, known, rfl⟩ := List.mem_map.1 record
    obtain ⟨d, head, member, away⟩ := dispatchGroups_led g known
    simp only [head, Option.map_some, Option.getD_some]
    exact copies d member away

theorem opFinal_of_mark (mark : (t.ctl.ops[k]?).map opMark = (s.ctl.ops[k]?).map opMark) (found : s.ctl.ops[k]? = some o) : opEnded k
    (opFinal k t) := by
  rw [found] at mark
  obtain ⟨o', found', -⟩ := Option.map_eq_some_iff.1 mark
  exact opFinal_ended found'

/-- The parked copies of a DISPATCH, and what its record, its receive list and its overflow region take (R145 to R150). -/
def dispatchPend (o : OpSt) (sent stay fresh : List Copy) (s : State) : CePend :=
  { s.ce.pend with
    parked := if opBits o 3 63 32 = noHandle then s.ce.pend.parked
      else aput s.ce.pend.parked (opBits o 3 63 32) (stay ++ fresh.filter (·.parked))
    fresh := s.ce.pend.fresh + (fresh.filter (·.parked)).length
    disp := aput s.ce.pend.disp (opBits o 3 31 0) ((sent ++ fresh).map fun c => { c with data := [] })
    lists := aput s.ce.pend.lists (opBits o 4 31 0) (localArrivals s o (sent ++ fresh.filter fun c => !c.parked)) }

/-- What a DISPATCH stages in memory: the flags of its route result, the room of its record, and its own rows. -/
def dispatchOutputs (o : OpSt) (rr : List Byte) (sent fresh : List Copy) (s : State) : List (ℕ × ℕ × List Byte) :=
  s.ctl.outputs ++ [(opBits o 1 31 0, 0, routeFlags (startedAhead o s) rr fresh)] ++ [(opBits o 3 31 0, 0,
    leBytes (8 * (opBits o 2 31 27 * opCount o)) (Config.freeValue (8 * (8 * (opBits o 2 31 27 * opCount o))) s.fresh).toNat)] ++
    ((sent ++ fresh.filter fun c => !c.parked).filter (·.here)).map fun c =>
      (opBits o 4 63 32, rxPos (placeCount s) (dispQuota s o) c.slot (ownPlace s).toNat c.n * stride64 (dispRow o), c.data)

theorem dispatchOutputs_route (o : OpSt) (rr : List Byte) (sent fresh : List Copy) (s : State) :
    (opBits o 1 31 0, 0, routeFlags (startedAhead o s) rr fresh) ∈ dispatchOutputs o rr sent fresh s :=
  List.mem_append_left _ (List.mem_append_left _ (List.mem_append_right _ (List.mem_singleton_self _)))

/-- A DISPATCH that has formed its copies and sent nothing yet. -/
def dispatchStaged (o : OpSt) (rr : List Byte) (sent stay fresh : List Copy) (s : State) : State := { s with
  fresh := s.fresh + 1
  ctl := { s.ctl with outputs := dispatchOutputs o rr sent fresh s }
  ce := { s.ce with pend := dispatchPend o sent stay fresh s } }

/-- A DISPATCH of mode 2 drops the tentative records that have not started (R155). -/
def dispatchDone (o : OpSt) (t : State) : State :=
  if dispMode o = 2 then { t with ce := { t.ce with queue := t.ce.queue.filter (·.started) } } else t

theorem dispatchDone_kept (o : OpSt) (t : State) : (dispatchDone o t).img = t.img ∧ (dispatchDone o t).port = t.port ∧ (dispatchDone o t).ctl =
    t.ctl ∧
    (dispatchDone o t).ce.pend = t.ce.pend ∧ (dispatchDone o t).ce.disp = t.ce.disp ∧ ∀ e ∈ (dispatchDone o t).ce.queue, e ∈ t.ce.queue := by
  unfold dispatchDone
  split
  next => exact ⟨rfl, rfl, rfl, rfl, rfl, fun e within => List.mem_of_mem_filter within⟩
  next => exact ⟨rfl, rfl, rfl, rfl, rfl, fun e within => within⟩

theorem dispatchCopies_runs {rr : List Byte} {sent stay fresh : List Copy} (unparked : opBits o 3 63 32 = noHandle → ∀ c ∈ fresh, c.parked = false)
    (room : opBits o 3 63 32 ≠ noHandle → overflowUse { s with ce := { s.ce with
      parkedAt := aput s.ce.parkedAt (opBits o 3 63 32) (stay ++ fresh.filter (·.parked)) } } (opBits o 3 63 32) ≤ overflowSize s (opBits o 3 63 32))
    (mem : inMemory (opBits o 1 31 0)) (mem' : inMemory (opBits o 3 31 0)) (mem'' : inMemory (opBits o 4 63 32)) :
    dispatchCopies k o rr sent stay fresh s = .ok (opFinal k (dispatchDone o
      (sendDispatch k (startedAhead o s) (sent ++ fresh.filter fun c => !c.parked) (dispatchStaged o rr sent stay fresh s)))) := by
  unfold dispatchCopies
  extract_lets h parked final all p rl c s1 c1 n s2 s3 s4 c4
  have fits : ¬(parked ≠ [] ∧ h = noHandle) := by
    rintro ⟨some_, none⟩
    exact some_ (List.filter_eq_nil_iff.2 fun c within => by simp [unparked none c within])
  have holds : ¬(h ≠ noHandle ∧ overflowSize s h < overflowUse { s1 with ce := { s1.ce with parkedAt := aput s.ce.parkedAt h all } } h) := by
    rintro ⟨region, full⟩
    exact absurd (room region) (not_le.2 full)
  rw [if_neg fits, if_neg holds]
  have staged : stageLocal o final s3 = dispatchStaged o rr sent stay fresh s := by
    rw [stageLocal, foldl_stage mem'']
    simp only [s3, s2, stage_of_memory mem, stage_of_memory mem']
    rfl
  rw [← staged]
  rfl

/-- A DISPATCH of mode 0 or 2, up to its copies: only the counters of the stacks have moved (Table 13.11). -/
theorem dispatchPlain_forms {tok rr : List Byte} {fresh : List Copy} (ready : inputsReady (dispInputs o) [tok, rr] s)
    (copies : formCopies s o tok (choices (opCount o) (opBits o 2 31 27) rr) [] = .ok fresh)
    (clean : opBits o 3 63 32 ≠ noHandle → opFlag o 2 = true → overflowPoison s (opBits o 3 63 32) = none) :
    ∃ m : Hbm, dispatchPlain k o s = dispatchCopies k o rr (overflowSplit s o).1 (overflowSplit s o).2 fresh { s with hbm := m } := by
  obtain ⟨m, counted, -, poison⟩ := countInputs_kept (dispInputs o) s
  have reads : ∃ m' : Hbm, (if opBits o 3 63 32 ≠ noHandle ∧ opFlag o 2 = true then overflowRead (opBits o 3 63 32) { s with hbm := m }
      else { s with hbm := m }) = { s with hbm := m' } ∧ m'.poison = s.hbm.poison := by
    split
    next =>
      obtain ⟨m', reads, -, poison'⟩ := overflowRead_kept (opBits o 3 63 32) { s with hbm := m }
      exact ⟨m', reads, poison'.trans poison⟩
    next => exact ⟨m, rfl, poison⟩
  obtain ⟨m', reads, poison'⟩ := reads
  have copies' : formCopies { s with hbm := m' } o tok (choices (opCount o) (opBits o 2 31 27) rr) [] = .ok fresh :=
    (formCopies_congr (s := s) (t := { s with hbm := m' }) rfl rfl tok _ []).trans copies
  have clean' : (if opBits o 3 63 32 ≠ noHandle ∧ opFlag o 2 = true then overflowPoison { s with hbm := m' } (opBits o 3 63 32) else none) =
    none := by
    split
    next region =>
      obtain ⟨region, slot⟩ := region
      have same : overflowPoison { s with hbm := m' } (opBits o 3 63 32) = overflowPoison s (opBits o 3 63 32) := by
        simp only [overflowPoison, poisonIn, poison']
      rw [same]
      exact clean region slot
    next => rfl
  refine ⟨m', ?_⟩
  rw [dispatchPlain, withInputs_of_ready _ ready, counted]
  simp only [nth, List.getElem?_cons_succ, List.getElem?_cons_zero, Option.getD_some, reads, clean', copies']
  rfl

end

/-- COMBINE reads its inputs, returns the expert outputs, and goes on with the returns that are there. -/
def combineRun (k : ℕ) (o : OpSt) (t : State) : Res := withInputs (combInputs t o) (fun ins u =>
  let u1 := countInputs (combInputs t o) u
  let u2 := if (combCopies u1 o).any (·.old) then overflowRead (opBits o 4 63 32) u1 else u1
  combAdvance k o (sendReturns k o (nth ins 1 []) (opStarts k u2))) t

section
variable {s : State} {k : ℕ} {o : OpSt}

theorem mem_indexed {α : Type} {l : List α} {e : ℕ × α} (h : e ∈ indexed l) : e.2 ∈ l := by
  obtain ⟨-, within⟩ := List.of_mem_zip h
  exact within

/-- The expert outputs go back on lit beams. -/
theorem sendReturns_sent {t : State} (kept : Sent k s t) (eo : List Byte) (lists : t.ce = s.ce)
    (lit : ∀ e ∈ combList s o, ∀ b, e.beam = some b → beamInPlan s b = true) : Sent k s (sendReturns k o eo t) := by
  have same : combList t o = combList s o := by simp only [combList, lists]
  unfold sendReturns
  rw [same]
  refine foldl_sent k (fun e within u sent => ?_) kept
  split
  next b back => exact sendRecord_sent k sent (lit e.2 (mem_indexed within) b back) 1 _
  next => exact sent

/-- A COMBINE that has started, with the counters of the stacks, the beams, the operations and the streams that it leaves. -/
def combStarted (m : Hbm) (beams : Vector BeamSt 256) (ops : List OpSt) (streams : List (ℕ × BitVec 2)) (s : State) : State :=
  { s with hbm := m, beam := beams, ctl := { s.ctl with ops := ops, streams := streams } }

theorem combAdvance_of_ready {t : State} {ins : List (List Byte)} (ready : inputsReady (combInputs t o) ins t)
    (sums : (∃ c ∈ combCopies t o, c.old = true) → overflowPoison t (opBits o 4 63 32) = none) :
    combAdvance k o t = combFinish k o (nth ins 0 []) (nth ins 1 []) t := by
  have clean : (if (combCopies t o).any (·.old) then overflowPoison t (opBits o 4 63 32) else none) = none := by
    split
    next older => exact sums (by simpa using older)
    next => rfl
  rw [combAdvance, withInputs_of_ready _ ready]
  simp only [clean]

/-- A COMBINE as it starts: it has counted what it reads and sent what it returns, and goes on with the returns it has. -/
theorem combine_starts {ins : List (List Byte)} (ready : inputsReady (combInputs s o) ins s)
    (sums : (∃ c ∈ combCopies s o, c.old = true) → overflowPoison s (opBits o 4 63 32) = none)
    (lit : ∀ e ∈ combList s o, ∀ b, e.beam = some b → beamInPlan s b = true) (found : s.ctl.ops[k]? = some o) :
    ∃ m beams ops streams, combineRun k o s = combFinish k o (nth ins 0 []) (nth ins 1 []) (combStarted m beams ops streams s) ∧
      (ops[k]?).map opMark = some (true, o.final) ∧ (streamsLit s → ∀ e ∈ streams, beamInPlan s (fin! 256 e.1) = true) := by
  obtain ⟨m, counted, mem, poison⟩ := countInputs_kept (combInputs s o) s
  obtain ⟨m', reads, mem', poison'⟩ : ∃ m' : Hbm, (if (combCopies { s with hbm := m } o).any (·.old) then
      overflowRead (opBits o 4 63 32) { s with hbm := m } else { s with hbm := m }) = { s with hbm := m' } ∧ m'.mem = s.hbm.mem ∧
      m'.poison = s.hbm.poison := by
    split
    next =>
      obtain ⟨m', reads, mem', poison'⟩ := overflowRead_kept (opBits o 4 63 32) { s with hbm := m }
      exact ⟨m', reads, mem'.trans mem, poison'.trans poison⟩
    next => exact ⟨m, rfl, mem, poison⟩
  obtain ⟨beams, ops, streams, told, mark, lit'⟩ := sendReturns_sent (s := opStarts k { s with hbm := m' }) (sent_refl k _) (nth ins 1 []) rfl lit
  have told' : sendReturns k o (nth ins 1 []) (opStarts k { s with hbm := m' }) = combStarted m' beams ops streams s := told
  have mark' : (ops[k]?).map opMark = some (true, o.final) := by
    rw [mark, opStarts, onOp]
    simp [lupd_at, found, opMark]
  refine ⟨m', beams, ops, streams, ?_, mark', lit'⟩
  rw [combineRun, withInputs_of_ready _ ready, counted]
  dsimp only
  rw [reads, told']
  refine combAdvance_of_ready (t := combStarted m' beams ops streams s)
    (inputsReady_congr (s := s) (t := combStarted m' beams ops streams s) rfl rfl rfl mem' poison' ready) fun older => ?_
  have same : overflowPoison (combStarted m' beams ops streams s) (opBits o 4 63 32) = overflowPoison s (opBits o 4 63 32) := by
    simp only [overflowPoison, poisonIn, combStarted, poison']
  rw [same]
  exact sums older

theorem combFinish_of_missing {rr eo : List Byte} (missing : ∃ c ∈ combCopies s o, c.parked = false ∧ ∀ e ∈ returnsIn k o eo s, e.1 ≠ c) :
    combFinish k o rr eo s = .ok s := by
  obtain ⟨c, known, out, away⟩ := missing
  have waits : ((combCopies s o).any fun c => !c.parked && !((returnsIn k o eo s).any fun e => e.1 == c)) = true := by
    refine List.any_eq_true.2 ⟨c, known, ?_⟩
    simpa [out] using away
  exact if_pos waits

/-- A COMBINE with all its returns stages its rows and its completion list (R157, R158). -/
theorem combFinish_of_there {rr eo : List Byte} {ts : List TokenSum} (there : ∀ c ∈ combCopies s o, c.parked = false →
      ∃ e ∈ returnsIn k o eo s, e.1 = c) (tokens : ts = tokenSums s o rr (returnsIn k o eo s))
    (room : (∃ x ∈ ts, x.later = true) → opBits o 4 63 32 ≠ noHandle ∧ overflowUse { s with ce := { s.ce with sums := sumsAfter s o ts } }
      (opBits o 4 63 32) ≤ overflowSize s (opBits o 4 63 32)) (mem : inMemory (opBits o 3 63 32)) (mem' : inMemory (opBits o 3 31 0)) :
    combFinish k o rr eo s = .ok (opFinal k { s with
      ce := { s.ce with pend := { s.ce.pend with sums := some (sumsAfter s o ts) } }
      ctl := { s.ctl with outputs := s.ctl.outputs ++ (completed (opCount o) ts 0).map (fun e => (opBits o 3 63 32,
        e.2 * stride64 (rowBytes (collOut o) (opBits o 4 15 0)), sumRow (opFlag o 0) (collOut o) (opBits o 4 15 0) e.1.sum)) ++
        [(opBits o 3 31 0, 0, completionBytes (completed (opCount o) ts 0))] } }) := by
  unfold combFinish
  extract_lets rs ts' h sums c p s1 c1 g done s2 c2
  have whole : ¬((combCopies s o).any fun c => !c.parked && !(rs.any fun e => e.1 == c)) = true := by
    intro waits
    obtain ⟨c, known, open_⟩ := List.any_eq_true.1 waits
    simp only [Bool.and_eq_true, Bool.not_eq_true', List.any_eq_false] at open_
    obtain ⟨out, away⟩ := open_
    obtain ⟨e, within, same⟩ := there c known out
    exact away e within (by simp [same])
  have same : ts' = ts := tokens.symm
  have holds : ¬(ts'.any (·.later) = true ∧ (h = noHandle ∨ overflowSize s h < overflowUse { s1 with ce := { s1.ce with sums := sums } } h)) := by
    rintro ⟨later, bad⟩
    rw [same] at later
    obtain ⟨region, fits⟩ := room (by simpa using later)
    rcases bad with none | full
    · exact region none
    · refine absurd fits (not_le.2 ?_)
      rw [← same]
      exact full
  rw [if_neg whole, if_neg holds]
  have staged : s2 = { s1 with ctl := { s1.ctl with outputs := s1.ctl.outputs ++ done.map fun e => (opBits o 3 63 32,
      e.2 * stride64 (rowBytes g (opBits o 4 15 0)), sumRow (opFlag o 0) g (opBits o 4 15 0) e.1.sum) } } := foldl_stage mem _ _ done s1
  rw [stage_of_memory mem', staged, ← same]
  rfl

end

/-- A DISPATCH by its mode. -/
def dispatchRun (k : ℕ) (o : OpSt) (t : State) : Res := if dispMode o = 1 then dispatchAhead k o t else dispatchPlain k o t

/-- Settles O29: a DISPATCH opens its window or records its copies, and a COMBINE waits for its returns and stages its rows. -/
theorem dispatchAndCombineRun : Obligations.DispatchAndCombineRun := by
  unfold Obligations.DispatchAndCombineRun
  refine ⟨fun k o s issued good ahead off => ?_, fun k o tok rr l s issued good ahead on ready copies lit => ?_,
    fun k o tok rr h fresh final stay s issued good plain handle ready copies sent stays unparked room lit lits mem mem' mem'' => ?_,
    fun k o ins s issued good ready sums lit open_ missing => ?_,
      fun k o ins ts h s issued good ready sums lit handle there tokens room mem mem' => ?_⟩
  · have found := found_of_issued issued
    have runs := dispatchAhead_closed (k := k) (o := o) off
    exact ⟨_, opRow_ends dispatchRun issued good ((if_pos ahead).trans runs) rfl rfl rfl
      (fun e within => streamsLit_of_issued issued e within) fun _ => .inl,
      opFinal_ended found, rfl, rfl, rfl⟩
  · have found := found_of_issued issued
    obtain ⟨h, runs⟩ := dispatchAhead_queues (k := k) on ready copies
    refine ⟨_, opRow_ends dispatchRun issued good ((if_pos ahead).trans runs) rfl rfl rfl
      (fun e within => streamsLit_of_issued issued e within) fun e within => ?_,
      opFinal_ended found, rfl, rfl, rfl⟩
    rcases List.mem_append.1 within with known | new
    · exact .inl known
    · exact .inr (lit e new)
  · have found := found_of_issued issued
    subst handle sent stays
    obtain ⟨m, forms⟩ := dispatchPlain_forms (k := k) ready copies fun region slot => (room region).1 slot
    have runs := dispatchCopies_runs (k := k) (o := o) (s := { s with hbm := m }) (rr := rr) (sent := (overflowSplit s o).1)
      (stay := (overflowSplit s o).2) (fresh := fresh) unparked (fun region => (room region).2) mem mem' mem''
    obtain ⟨beams, ops, streams, told, mark, lit'⟩ := sendDispatch_sent (q := startedAhead o s) (sent_refl k
      (dispatchStaged o rr (overflowSplit s o).1 (overflowSplit s o).2 fresh { s with hbm := m })) lit lits
    have ended := forms.trans runs
    obtain ⟨img, port, ctl, pend, disp, queue⟩ := dispatchDone_kept o (sendDispatch k (startedAhead o s) ((overflowSplit s o).1 ++
      fresh.filter fun c => !c.parked) (dispatchStaged o rr (overflowSplit s o).1 (overflowSplit s o).2 fresh { s with hbm := m }))
    have same : startedAhead o { s with hbm := m } = startedAhead o s := rfl
    rw [same] at ended
    generalize dispatchDone o _ = u at ended img port ctl pend disp queue
    rw [told] at img port ctl pend disp queue
    refine ⟨_, opRow_ends dispatchRun issued good ((if_neg plain).trans ended) img port ((congrArg Ctl.phase ctl).trans rfl) ?_ ?_, ?_, ?_, ?_, ?_,
      ?_, ?_⟩
    · rw [opFinal, onOp, ctl]
      exact lit' (streamsLit_of_issued issued)
    · exact fun e within => .inl (queue e within)
    · exact opFinal_of_mark (s := s) (by rw [ctl]; exact mark) found
    · rw [irqSettle_ce, opFinal, onOp, pend]
      exact aget_aput ..
    · rw [irqSettle_ce, opFinal, onOp, pend]
      exact aget_aput ..
    · intro region
      rw [irqSettle_ce, opFinal, onOp, pend]
      simp only [dispatchStaged, dispatchPend, if_neg region, aget_aput]
    · rw [irqSettle_ctl, opFinal, onOp, ctl]
      exact dispatchOutputs_route o rr (overflowSplit s o).1 fresh { s with hbm := m }
    · exact disp
  · have found := found_of_issued issued
    obtain ⟨m, beams, ops, streams, runs, mark, lit'⟩ := combine_starts (k := k) ready sums lit found
    have waits := combFinish_of_missing (k := k) (o := o) (s := combStarted m beams ops streams s) (rr := nth ins 0 []) missing
    refine ⟨_, opRow_ends combineRun issued good (runs.trans waits) rfl rfl rfl (lit' (streamsLit_of_issued issued)) fun _ => .inl, ?_, rfl, rfl⟩
    rw [open_] at mark
    exact mark
  · have found := found_of_issued issued
    subst handle
    obtain ⟨m, beams, ops, streams, runs, mark, lit'⟩ := combine_starts (k := k) ready sums lit found
    have ends := combFinish_of_there (k := k) (o := o) (s := combStarted m beams ops streams s) (rr := nth ins 0 []) (eo := nth ins 1 []) there
      tokens room mem mem'
    refine ⟨_, opRow_ends combineRun issued good (runs.trans ends) rfl rfl rfl (lit' (streamsLit_of_issued issued)) fun _ => .inl, ?_, rfl, ?_, ?_⟩
    · obtain ⟨o', found', -⟩ := Option.map_eq_some_iff.1 mark
      exact opFinal_ended (s := combStarted m beams ops streams s) found'
    · exact List.mem_append_right _ (List.mem_singleton_self _)
    · exact fun e within => List.mem_append_left _ (List.mem_append_right _ (List.mem_map_of_mem within))

end Sys2Proof.Machine
end

section
/-!
PROOFS. Records received, and the markers of the windows (R112, R147, R148, R154, R156).
-/

-- In sequence: each worker of the elaborator takes its stack from the memory that a check may use.
set_option Elab.async false

namespace Sys2Proof.Machine

section
variable {s t : State} {k : ℕ} {b : Beam}

/-- What the tokens that stand behind a record leave: all but the beams, the token banks, the phase's step and the pc. -/
def tasks (t : State) : Load × Vector PortSt 64 × Ce × Ctl :=
  (t.img, t.port, t.ce, { t.ctl with bank := [], nextBank := [], nextEpoch := 0, phase := 0 })

theorem tasks_iff : tasks t = tasks s ↔ t.img = s.img ∧ t.port = s.port ∧ t.ce = s.ce ∧
    ({ t.ctl with bank := [], nextBank := [], nextEpoch := 0, phase := 0 } : Ctl) =
      { s.ctl with bank := [], nextBank := [], nextEpoch := 0, phase := 0 } := by
  simp only [tasks, Prod.mk.injEq]

theorem tasks_ctl (kept : tasks t = tasks s) : t.ctl.serial = s.ctl.serial ∧ t.ctl.ops = s.ctl.ops ∧ t.ctl.admitted = s.ctl.admitted ∧
    t.ctl.streams = s.ctl.streams := by
  obtain ⟨-, -, -, ctl⟩ := tasks_iff.1 kept
  injections
  exact ⟨‹_›, ‹_›, ‹_›, ‹_›⟩

theorem tokenCount_tasks (slot : ℕ) (gen : BitVec 8) (epoch : Word) : tasks (tokenCount slot gen epoch s) = tasks s := by
  simp only [tokenCount]
  (repeat' split) <;> rfl

theorem phaseCheck_tasks : tasks (phaseCheck s) = tasks s := by
  unfold phaseCheck
  split <;> rfl

theorem quiet_of_tasks (kept : tasks t = tasks s) (quiet : s.img.penumbra = []) : t.img.penumbra = [] := by
  obtain ⟨img, -, -, -⟩ := tasks_iff.1 kept
  rw [img]
  exact quiet

theorem tokenRx_tasks (w : DWord) (quiet : s.img.penumbra = []) : tasks (tokenRx w s) = tasks s := by
  simp only [tokenRx]
  split
  next => rfl
  next =>
    have counted := tokenCount_tasks (s := s) (wbits w 59 48) (BitVec.ofNat 8 (wbits w 47 40)) (w32 (wbits w 31 0))
    rw [afterWait_of_none (quiet_of_tasks counted quiet), phaseCheck_tasks, counted]

theorem dropStale_tasks (n : ℕ) : tasks (dropStale b n s) = tasks s := by
  induction n generalizing s with
  | zero => rfl
  | succ n ih =>
    unfold dropStale
    split
    next => exact ih.trans rfl
    next => rfl

theorem drainTokens_tasks (n : ℕ) (quiet : s.img.penumbra = []) : tasks (drainTokens b n s) = tasks s := by
  induction n generalizing s with
  | zero => rfl
  | succ n ih =>
    unfold drainTokens
    split
    next =>
      split
      next =>
        split
        next w _ =>
          have taken := (tokenRx_tasks (s := onBeam b dropToken s) w quiet).trans rfl
          exact (ih (quiet_of_tasks taken quiet)).trans taken
        next => exact ih quiet
      next => rfl
    next => rfl

/-- The tokens behind a record, once it is taken, touch no operation. -/
theorem drainBeam_tasks (quiet : s.img.penumbra = []) : tasks (drainBeam b s) = tasks s := by
  have stale := dropStale_tasks (s := s) (b := b) (s.beam[b]).seen.length
  exact (drainTokens_tasks _ (quiet_of_tasks stale quiet)).trans stale

theorem giveHead_seen (o : OutFlit) (q : BeamSt) : (giveHead o q).seen = q.seen := by
  unfold giveHead
  split <;> rfl

theorem giveData_seen (o : OutFlit) (q : BeamSt) : (giveData o q).seen = q.seen := by
  unfold giveData
  split <;> rfl

theorem handOn_seen (c : Fin 2) (j m : ℕ) (q : BeamSt) : (handOn c j m q).seen = q.seen := by
  have data (l : List OutFlit) (q : BeamSt) : (l.foldl (fun a o => giveData o a) q).seen = q.seen :=
    List.foldlRecOn (motive := fun a : BeamSt => a.seen = q.seen) _ _ rfl fun a same o _ => (giveData_seen o a).trans same
  have heads (l : List OutFlit) (q : BeamSt) : (l.foldl (fun a o => giveHead o a) q).seen = q.seen :=
    List.foldlRecOn (motive := fun a : BeamSt => a.seen = q.seen) _ _ rfl fun a same o _ => (giveHead_seen o a).trans same
  exact (heads _ _).trans (data _ _)

end

section
variable {s t u : State} {b : Beam} {c : Fin 2} {typ n : ℕ} {att : BitVec 4} {r : List Byte} {mine : BitVec 4 → List Byte → Bool}

/-- A record that waits is taken by the operation that it is for, and the tokens behind it count. -/
theorem takeRecord_of_mine (f : BitVec 4 → List Byte → State → Res) (waits : recordWaits b c typ n att r s) (yes : mine att r = true) :
    ∃ j, ∀ u, f att r (onBeam b (handOn c j 0) s) = .ok u → takeRecord b c typ n mine f s = .ok (drainBeam b u) := by
  obtain ⟨j, m, h, found, head, type, rfl⟩ := waits
  refine ⟨j + m, fun u ends => ?_⟩
  simp only [takeRecord, found, head, type, yes, ends, ne_eq, not_true_eq_false, if_false, Bool.true_eq_false]

theorem takeRecord_of_other (f : BitVec 4 → List Byte → State → Res) (waits : recordWaits b c typ n att r s) (no : mine att r = false) :
    takeRecord b c typ n mine f s = .ok s := by
  obtain ⟨j, m, h, found, head, type, rfl⟩ := waits
  simp only [takeRecord, found, head, type, no, ne_eq, not_true_eq_false, if_false, if_true]

/-- An effect that leaves the image and the streams, with no DEV_PENUMBRA waiting, is the outcome. -/
theorem resOut_of_tasks (kept : tasks t = tasks u) (img : u.img = s.img) (port : u.port = s.port) (streams : u.ctl.streams = s.ctl.streams)
    (queue : u.ce.queue = s.ce.queue) (lit : streamsLit s) (quiet : s.img.penumbra = []) : resOut s (.ok t) = .next (irqSettle t) := by
  obtain ⟨img', port', ce, ctl⟩ := tasks_iff.1 kept
  have streams' : t.ctl.streams = s.ctl.streams := (congrArg Ctl.streams ctl).trans streams
  have unlit : sendsUnlit s t = false := sendsUnlit_of_lit (img'.trans img) (port'.trans port) (by rw [streams']; exact lit)
    (by rw [ce, queue]; exact fun e => .inl)
  have still : stopAfter s t = t := stopAfter_of_none s (by rw [img', img]; exact quiet)
  simp only [resOut, unlit, still, done, Bool.false_eq_true, if_false]

end

section
variable {s : State} {k : ℕ} {o : OpSt} {b : Beam} {att : BitVec 4} {r : List Byte} {form : SegForm}

theorem broughtBefore_handOn (c : Fin 2) (j : ℕ) : broughtBefore k b att r form (onBeam b (handOn c j 0) s) = broughtBefore k b att r form s := by
  have seen : ((onBeam b (handOn c j 0) s).beam[b]).seen = (s.beam[b]).seen := by
    simp only [onBeam, upd_self, handOn_seen]
  simp only [broughtBefore, seen]
  rfl

/-- The entry of a record among those that the phase's operations have admitted; none for one that is sent again (R112). -/
def admission (k : ℕ) (b : Beam) (att : BitVec 4) (form : SegForm) (r data : List Byte) (total : ℕ) (s : State) : List Admit :=
  if broughtBefore k b att r form s then [] else [{ op := k, beam := b, head := r.take 16, form := form, data := data, total := total }]

theorem admitRec_kept (data : List Byte) (total : ℕ) (loose : Bool) :
    (admitRec k b att form r data total s loose).ctl = { s.ctl with admitted := s.ctl.admitted ++ admission k b att form r data total s } ∧
      (admitRec k b att form r data total s loose).img = s.img ∧ (admitRec k b att form r data total s loose).port = s.port ∧
      (admitRec k b att form r data total s loose).ce = s.ce := by
  unfold admitRec admission broughtBefore
  dsimp only
  split
  next again => exact ⟨by simp [onBeam], rfl, rfl, rfl⟩
  next => exact ⟨rfl, rfl, rfl, rfl⟩

variable {typ : ℕ} {fits : OpSt → Bool} {cls : OpSt → Fin 2} {len : OpSt → ℕ} {f : OpSt → BitVec 4 → List Byte → State → Res}

theorem lit_of_there (there : opThere k o s) : streamsLit s := by
  obtain ⟨-, -, -, lit, -⟩ := there
  exact lit

theorem recordRow_of_there (there : opThere k o s) (fit : fits o = true) : recordRow b typ k form fits cls len f s =
    resOut s (takeRecord b (cls o) typ (len o) (fun att r => !otherOps s b k form att r) (f o) s) := by
  obtain ⟨up, phase, found, -, -⟩ := there
  simp [recordRow, up, phase, found, fit]

/-- A record that is not the operation's waits (R52). -/
theorem recordRow_of_other (there : opThere k o s) (fit : fits o = true) (waits : recordWaits b (cls o) typ (len o) att r s)
    (other : otherOps s b k form att r = true) : recordRow b typ k form fits cls len f s = .next (irqSettle s) := by
  have lit := lit_of_there there
  rw [recordRow_of_there there fit, takeRecord_of_other (f o) waits (by simp [other])]
  exact resOut_of_lit rfl rfl rfl lit fun _ => .inl

/-- A record of the operation has its effect, and the tokens behind it count. -/
theorem recordRow_of_mine (u : ℕ → State) (there : opThere k o s) (fit : fits o = true) (waits : recordWaits b (cls o) typ (len o) att r s)
    (mine : otherOps s b k form att r = false) (effect : ∀ j, f o att r (onBeam b (handOn (cls o) j 0) s) = .ok (u j) ∧ (u j).img = s.img ∧
      (u j).port = s.port ∧ (u j).ctl.streams = s.ctl.streams ∧ (u j).ce.queue = s.ce.queue) :
    ∃ j t, recordRow b typ k form fits cls len f s = .next (irqSettle t) ∧ tasks t = tasks (u j) := by
  obtain ⟨-, -, -, lit, quiet⟩ := id there
  obtain ⟨j, takes⟩ := takeRecord_of_mine (mine := fun att r => !otherOps s b k form att r) (f o) waits (by simp [mine])
  obtain ⟨ends, img, port, streams, queue⟩ := effect j
  have kept : tasks (drainBeam b (u j)) = tasks (u j) := drainBeam_tasks (by rw [img]; exact quiet)
  refine ⟨j, drainBeam b (u j), ?_, kept⟩
  rw [recordRow_of_there there fit, takes _ ends]
  exact resOut_of_tasks kept img port streams queue lit quiet

/-- A record taken from a beam and admitted. -/
def admitted (k : ℕ) (b : Beam) (c : Fin 2) (att : BitVec 4) (form : SegForm) (r data : List Byte) (total : ℕ) (loose : Bool) (s : State)
    (j : ℕ) : State := admitRec k b att form r data total (onBeam b (handOn c j 0) s) loose

theorem admitted_kept (c : Fin 2) (data : List Byte) (total : ℕ) (loose : Bool) (j : ℕ) :
    (admitted k b c att form r data total loose s j).img = s.img ∧ (admitted k b c att form r data total loose s j).port = s.port ∧
      (admitted k b c att form r data total loose s j).ctl = { s.ctl with
        admitted := s.ctl.admitted ++ admission k b att form r data total s } ∧
      (admitted k b c att form r data total loose s j).ce = s.ce := by
  obtain ⟨ctl, img, port, ce⟩ := admitRec_kept (k := k) (b := b) (att := att) (form := form) (r := r)
    (s := onBeam b (handOn c j 0) s) data total loose
  have same : admission k b att form r data total (onBeam b (handOn c j 0) s) = admission k b att form r data total s := by
    simp only [admission, broughtBefore_handOn]
  exact ⟨img, port, by rw [admitted, ctl, same]; rfl, ce⟩

/-- A record that the operation only admits. -/
theorem recordRow_admits (data : List Byte) (total : ℕ) (loose : Bool) (there : opThere k o s) (fit : fits o = true)
    (waits : recordWaits b (cls o) typ (len o) att r s) (mine : otherOps s b k form att r = false)
    (effect : ∀ u, f o att r u = .ok (admitRec k b att form r data total u loose)) :
    ∃ t, recordRow b typ k form fits cls len f s = .next t ∧ t.ctl.serial = s.ctl.serial ∧ t.ctl.ops = s.ctl.ops ∧
      t.ctl.admitted = s.ctl.admitted ++ admission k b att form r data total s := by
  have kept := admitted_kept (k := k) (b := b) (att := att) (form := form) (r := r) (s := s) (cls o) data total loose
  obtain ⟨j, t, ends, tasks'⟩ := recordRow_of_mine (admitted k b (cls o) att form r data total loose s) there fit waits mine fun j => by
    obtain ⟨img, port, ctl, ce⟩ := kept j
    exact ⟨effect _, img, port, by rw [ctl], by rw [ce]⟩
  obtain ⟨-, -, ctl, -⟩ := kept j
  obtain ⟨serial, ops, records, -⟩ := tasks_ctl tasks'
  refine ⟨_, ends, ?_⟩
  rw [irqSettle_ctl, serial, ops, records, ctl]
  exact ⟨rfl, rfl, rfl⟩

end

/-- What a COMBINE does with a return: it admits it, and the last one lets it finish. -/
def combineReturnTakes (b : Beam) (k : ℕ) (o : OpSt) (a : BitVec 4) (r : List Byte) (t : State) : Res :=
  let t1 := admitRec k b a .contribution r (r.drop 16) 0 t
  if o.started && !o.final then combAdvance k o t1 else .ok t1

/-- What a collective does with a segment: it admits it, and goes on if it has started. -/
def segmentTakes (b : Beam) (k : ℕ) (form : SegForm) (total : ℕ) (o : OpSt) (a : BitVec 4) (r : List Byte) (t : State) : Res :=
  let t1 := admitRec k b a form r (r.drop 16) total t (looseSum o form)
  if o.started && !o.final then withInputs (collInputs t1 o) (collBody k o) t1 else .ok t1

/-- A tentative record in its window entry. -/
def windowEntered (b : Beam) (att : BitVec 4) (r : List Byte) (x : ℕ) (s : State) : State :=
  let entered : WindowEntry :=
    { beam := b, entry := hdEntry r, attempt := att, token := hdToken r, source := hdSource r, addr := x, data := r.drop 16, resolved := none }
  { s with ce := { s.ce with
    staging := s.ce.staging.writeN x (r.drop 16)
    window := (s.ce.window.filter fun w => w.beam != b || (w.attempt == att && w.entry != hdEntry r)) ++ [entered] } }

theorem windowEnter_of_inside {b : Beam} {a : ℕ × ℕ × ℕ} {att : BitVec 4} {r : List Byte} {x : ℕ} {s : State} (inside : hdEntry r < a.2.1)
    (place : bufLoc s a.1 ((b.val * a.2.1 + hdEntry r) * stride64 a.2.2) a.2.2 = some (.staging x)) :
    windowEnter b a att r s = .ok (windowEntered b att r x s) := by
  simp only [windowEnter, place, if_neg (not_le.2 inside)]
  rfl

/-- The entry that a marker names, resolved. -/
theorem windowAt_resolve {b : Beam} {e : ℕ} {w : WindowEntry} {s : State} (found : windowAt s b e = some w) (how : Bool) :
    windowAt (resolve w how s) b e = some { w with resolved := some how } := by
  have keeps (v : WindowEntry) : (if v = w then { v with resolved := some how } else v).beam = v.beam ∧
      (if v = w then { v with resolved := some how } else v).entry = v.entry := by
    split <;> exact ⟨rfl, rfl⟩
  unfold windowAt at found ⊢
  simp only [resolve, List.find?_map, Function.comp_def, keeps, found, Option.map_some, if_true]

/-- What a marker leaves: the entry resolved, and, when it commits, its record admitted. -/
theorem marker_kept {k : ℕ} {b : Beam} {att : BitVec 4} {r : List Byte} {w : WindowEntry} {s : State} (how : Bool)
    (found : windowAt s b (hdEntry r) = some w) (waits : w.resolved = none) :
    (marker k b how att r s).img = s.img ∧ (marker k b how att r s).port = s.port ∧ (marker k b how att r s).ce = (resolve w how s).ce ∧
      (marker k b how att r s).ctl = { s.ctl with
        admitted := s.ctl.admitted ++ if how then admission k b att .contribution r w.data 0 s else [] } := by
  simp only [marker, found, waits, Option.isSome_none, Bool.false_eq_true, if_false]
  cases how with
  | false => exact ⟨rfl, rfl, rfl, by simp [noteSeen, onBeam, resolve]⟩
  | true =>
    obtain ⟨ctl, img, port, ce⟩ := admitRec_kept (k := k) (b := b) (att := att) (form := .contribution) (r := r)
      (s := resolve w true s) w.data 0 false
    exact ⟨img, port, ce, ctl⟩

/-- A marker of the operation's, over its record of 16 bytes: the entry is resolved and counted, and its record is admitted. -/
theorem recordRow_marks {s : State} {k typ : ℕ} {o : OpSt} {b : Beam} {att : BitVec 4} {r : List Byte} {w : WindowEntry} {fits : OpSt → Bool}
    (how : Bool) (there : opThere k o s) (fit : fits o = true) (waits : recordWaits b 0 typ 16 att r s)
    (mine : otherOps s b k .contribution att r = false) (found : windowAt s b (hdEntry r) = some w) (open_ : w.resolved = none) :
    ∃ t, recordRow b typ k .contribution fits (fun _ => 0) (fun _ => 16) (fun _ a r t => .ok (marker k b how a r t)) s = .next t ∧
      windowAt t b (hdEntry r) = some { w with resolved := some how } ∧ t.ce.raCommit = (resolve w how s).ce.raCommit ∧
      t.ce.raCancel = (resolve w how s).ce.raCancel ∧
      t.ctl.admitted = s.ctl.admitted ++ if how then admission k b att .contribution r w.data 0 s else [] := by
  have kept (j : ℕ) := marker_kept (k := k) (b := b) (att := att) (r := r) (w := w) (s := onBeam b (handOn 0 j 0) s) how found open_
  obtain ⟨j, t, ends, tasks'⟩ := recordRow_of_mine (f := fun _ a r t => .ok (marker k b how a r t)) (cls := fun _ => 0) (len := fun _ => 16)
    (fun j => marker k b how att r (onBeam b (handOn 0 j 0) s)) there fit waits mine fun j => by
      obtain ⟨img, port, ce, ctl⟩ := kept j
      exact ⟨rfl, img, port, by rw [ctl]; rfl, by rw [ce]; rfl⟩
  obtain ⟨-, -, ce, ctl⟩ := kept j
  obtain ⟨-, -, ce', -⟩ := tasks_iff.1 tasks'
  obtain ⟨-, -, records, -⟩ := tasks_ctl tasks'
  have ces : (irqSettle t).ce = (resolve w how s).ce := (irqSettle_ce _).trans (ce'.trans ce)
  have same : admission k b att .contribution r w.data 0 (onBeam b (handOn 0 j 0) s) = admission k b att .contribution r w.data 0 s := by
    simp only [admission, broughtBefore_handOn]
  refine ⟨_, ends, ?_, by rw [ces], by rw [ces], ?_⟩
  · have resolved := windowAt_resolve found how
    unfold windowAt at resolved ⊢
    rw [ces, resolved]
  · rw [irqSettle_ctl, records, ctl, same]
    rfl

/-- Settles O30: a record that waits is either the operation's, and then it is taken, admitted unless it is sent again (`admission`),
and the tokens behind it count without touching an operation (`drainBeam_tasks`), or it stays. -/
theorem recordsAreAdmitted : Obligations.RecordsAreAdmitted := by
  unfold Obligations.RecordsAreAdmitted
  refine ⟨fun b k o att r s there fit waits mine => ?_, fun b k o att r s there fit waits other => recordRow_of_other there fit waits other,
    fun b k o att r s there code idle waits mine => ?_, fun b k n total form o att r s there fit idle waits mine => ?_,
    fun b k a x att r s hs area waits inside place quiet lit => ?_, fun b k o att r w s there fit waits mine found open_ => ?_,
    fun b k o att r w s there fit waits mine found open_ => ?_⟩
  · obtain ⟨t, ends, serial, -, records⟩ := recordRow_admits (typ := 0x01) (f := fun _ a r t => .ok (admitRec k b a .contribution r (r.drop 16) 0 t))
      (cls := fun _ => 0) (len := fun o => 16 + dispRow o) (r.drop 16) 0 false there fit waits mine fun u => rfl
    exact ⟨t, ends, serial, records⟩
  · obtain ⟨t, ends, -, ops, records⟩ := recordRow_admits (typ := 0x03) (f := combineReturnTakes b k) (fits := fun o => opCode o == 0x21)
      (cls := fun _ => 1) (len := fun o => 16 + combRow o) (r.drop 16) 0 false there (by simp [code]) waits mine
      fun u => by simp [combineReturnTakes, idle]
    exact ⟨t, ends, ops, records⟩
  · obtain ⟨t, ends, -, ops, records⟩ := recordRow_admits (typ := 0x20) (f := segmentTakes b k form total)
      (cls := segClass s b form) (len := fun _ => 16 + n) (r.drop 16) total (looseSum o form) there fit waits mine
      fun u => by simp [segmentTakes, idle]
    exact ⟨t, ends, ops, records⟩
  · obtain ⟨j, takes⟩ := takeRecord_of_mine (mine := fun _ _ => true) (windowEnter b a) waits rfl
    have enters := windowEnter_of_inside (s := onBeam b (handOn 0 j 0) s) (att := att) inside place
    have kept := drainBeam_tasks (b := b) (s := windowEntered b att r x (onBeam b (handOn 0 j 0) s)) quiet
    obtain ⟨-, -, ce, -⟩ := tasks_iff.1 kept
    have ends : exec (.tentativeDispatch b k) s =
        .next (irqSettle (drainBeam b (windowEntered b att r x (onBeam b (handOn 0 j 0) s)))) := by
      show execTentativeDispatch b k s = _
      simp only [execTentativeDispatch, hs, area, Bool.true_eq_false, if_false, takes _ enters]
      exact resOut_of_tasks kept rfl rfl rfl rfl lit quiet
    refine ⟨_, ends, by rw [irqSettle_ce, ce]; rfl, ?_⟩
    rw [irqSettle_ce, ce]
    exact ⟨_, List.mem_append_right _ (List.mem_singleton_self _), rfl, rfl, rfl, rfl, rfl, rfl⟩
  · obtain ⟨t, ends, resolved, commits, cancels, records⟩ := recordRow_marks (typ := 0x10) true there fit waits mine found open_
    exact ⟨t, ends, resolved, commits, cancels, records⟩
  · obtain ⟨t, ends, resolved, commits, cancels, records⟩ := recordRow_marks (typ := 0x11) false there fit waits mine found open_
    exact ⟨t, ends, resolved, cancels, commits, records.trans (List.append_nil _)⟩

end Sys2Proof.Machine
end

section
/-!
PROOFS. Sending flits, and the timers of a beam (R244, R245, R248, R253, R254, R263).
-/

-- In sequence: each worker of the elaborator takes its stack from the memory that a check may use.
set_option Elab.async false

namespace Sys2Proof.Machine

section
variable {s t : State} {b : Beam} {p : Port} {n : Line} {raw : List Byte} {e : Emission} {k : ℕ}

@[simp] theorem lineSend_beam : (lineSend p n k s).beam = s.beam := by
  induction k generalizing s with
  | zero => rfl
  | succ k ih =>
    unfold lineSend
    dsimp only
    split
    · rfl
    · simp [ih]

@[simp] theorem bytesOut_beam : (bytesOut p n raw s).beam = s.beam := foldl_kept State.beam _ _ _ fun _ _ => by simp

@[simp] theorem codeLogged_beam (code : CodeResult) : (codeLogged p code s).beam = s.beam := by
  unfold codeLogged
  split <;> split <;> simp

@[simp] theorem countFull_beam : (countFull b s).beam = s.beam := by
  unfold countFull
  dsimp only
  split <;> rfl

@[simp] theorem countFull_img : (countFull b s).img = s.img := by
  unfold countFull
  dsimp only
  split <;> rfl

theorem lineSend_keeps_out (h : e ∈ s.out) : e ∈ (lineSend p n k s).out := by
  induction k generalizing s with
  | zero => exact h
  | succ k ih =>
    unfold lineSend
    dsimp only
    split
    · exact h
    · exact ih (List.mem_cons_of_mem _ h)

theorem bytesOut_keeps_out (h : e ∈ s.out) : e ∈ (bytesOut p n raw s).out :=
  List.foldlRecOn (motive := fun t : State => e ∈ t.out) _ _ h fun _ h _ _ => lineSend_keeps_out h

theorem stripeOut_keeps_out (h : e ∈ s.out) : e ∈ (stripeOut b raw s).out :=
  List.foldlRecOn (motive := fun t : State => e ∈ t.out) _ _ h fun _ h _ _ => bytesOut_keeps_out h

theorem wholeOut_keeps_out (h : e ∈ s.out) : e ∈ (wholeOut b raw s).out :=
  List.foldlRecOn (motive := fun t : State => e ∈ t.out) _ _ h fun _ h _ _ => bytesOut_keeps_out h

/-- What the sending of a flit leaves of its beam: all but the rotation of the credit counters, the place in the stream of words and the
counters. -/
def sender (b : Beam) (s : State) : BeamSt := { s.beam[b.val] with csel := 0, txFlits := 0, counters := Vector.replicate 16 0 }

theorem sender_of_beam (h : t.beam = s.beam) : sender b t = sender b s := by simp only [sender, h]

theorem sender_onBeam (f : BeamSt → BeamSt) : sender b (onBeam b f s) =
    { f s.beam[b.val] with csel := 0, txFlits := 0, counters := Vector.replicate 16 0 } := by
  simp only [sender, onBeam, upd_val_self]

theorem sender_fields {q : BeamSt} (h : sender b t = q) : t.beam[b.val].tx = q.tx ∧ t.beam[b.val].ctl = q.ctl ∧ t.beam[b.val].queue = q.queue ∧
    t.beam[b.val].seq = q.seq ∧ t.beam[b.val].unacked = q.unacked ∧ t.beam[b.val].resend = q.resend ∧ t.beam[b.val].consumed = q.consumed ∧
    t.beam[b.val].expiries = q.expiries := by
  subst h
  exact ⟨rfl, rfl, rfl, rfl, rfl, rfl, rfl, rfl⟩

theorem stripeOut_sender : sender b (stripeOut b raw s) = sender b s := by
  have kept : ((indexed ((fins 35).filter fun n => (sendLines s b).getLsbD n.val)).foldl (fun t e =>
      bytesOut (portOf s b) e.2 (shareOf ((fins 35).filter fun n => (sendLines s b).getLsbD n.val).length (32 * (s.beam[b]).txFlits) e.1
        (flitWords raw)).flatten t) s).beam = s.beam := foldl_kept State.beam _ _ _ fun _ _ => bytesOut_beam
  exact (sender_onBeam _).trans (by rw [kept]; rfl)

theorem wholeOut_sender : sender b (wholeOut b raw s) = sender b s :=
  sender_of_beam (foldl_kept State.beam _ _ _ fun _ _ => bytesOut_beam)

end

theorem flitBytes_length (f : Flit) : (flitBytes f).length = 256 := by
  simp only [flitBytes, List.length_append, Laws.flitHead_length, Laws.leBytes_length]

section
variable {s : State} {b : Beam}

/-- A flit goes out, of 256 bytes, and nothing else of its beam changes. -/
def Sends (b : Beam) (s t : State) : Prop := sender b t = sender b s ∧ ∃ raw : List Byte, Emission.flit b raw ∈ t.out ∧ raw.length = 256

theorem sendFlit_stripes (typ : BitVec 4) (cls : BitVec 2) (head tok : Bool) (attempt : BitVec 4) (seq : BitVec 16) (body : List Byte)
    (via : List Byte → List Byte) : sender b (sendFlit b typ cls head tok attempt seq body s stripeOut via) = sender b s ∧
      ∃ raw, Emission.flit b (via (flitBytes raw)) ∈ (sendFlit b typ cls head tok attempt seq body s stripeOut via).out :=
  ⟨stripeOut_sender.trans ((sender_of_beam (emit_beam ..)).trans (sender_onBeam _)), _, stripeOut_keeps_out (List.mem_cons_self ..)⟩

theorem sendFlit_wholly (typ : BitVec 4) (cls : BitVec 2) (head tok : Bool) (attempt : BitVec 4) (seq : BitVec 16) (body : List Byte)
    (via : List Byte → List Byte) : sender b (sendFlit b typ cls head tok attempt seq body s wholeOut via) = sender b s ∧
      ∃ raw, Emission.flit b (via (flitBytes raw)) ∈ (sendFlit b typ cls head tok attempt seq body s wholeOut via).out :=
  ⟨wholeOut_sender.trans ((sender_of_beam (emit_beam ..)).trans (sender_onBeam _)), _, wholeOut_keeps_out (List.mem_cons_self ..)⟩

theorem sendCtl_sends (c : CtlFlit) : Sends b s (sendCtl b c s) := by
  unfold sendCtl
  split
  · obtain ⟨kept, raw, went⟩ := sendFlit_wholly (b := b) (s := s) c.typ 2 false false 0 0 c.payload fun raw => raw
    exact ⟨kept, _, went, flitBytes_length raw⟩
  · obtain ⟨kept, raw, went⟩ := sendFlit_stripes (b := b) (s := s) c.typ 2 false false 0 0 c.payload fun raw => raw
    exact ⟨kept, _, went, flitBytes_length raw⟩

theorem sendIdle_sender : sender b (sendIdle b s) = sender b s := by
  unfold sendIdle
  split
  · exact (sendCtl_sends _).1
  · exact (sendCtl_sends _).1

theorem sendData_sends (n : BitVec 16) (o : OutFlit) (code : CodeResult) : sender b (sendData b n o s code) = sender b s ∧
    ∃ raw, Emission.flit b raw ∈ (sendData b n o s code).out := by
  obtain ⟨kept, raw, went⟩ := sendFlit_stripes (b := b) (s := codeLogged (portOf s b) code s) 1 o.cls o.head o.token.isSome o.attempt n
    (outBody o) (codeBytes code s.fresh)
  exact ⟨kept.trans (sender_of_beam (codeLogged_beam code)), _, went⟩

/-- A DATA flit leaves the queue for the replay buffer, with its credits. -/
def newFlit (b : Beam) (o : OutFlit) (r : List OutFlit) (s : State) : State :=
  onBeam b (fun q => { q with
    queue := r
    seq := q.seq + 1
    unacked := q.unacked ++ [((s.beam[b]).seq, o)]
    granted := false
    consumed := (creditsOf o).foldl (fun v c => upd v c (· + 1)) q.consumed }) s

theorem sendNew_sends (o : OutFlit) (r : List OutFlit) (code : CodeResult) : sender b (sendNew b o r s code) =
      { s.beam[b.val] with
        queue := r
        seq := s.beam[b.val].seq + 1
        unacked := s.beam[b.val].unacked ++ [(s.beam[b.val].seq, o)]
        granted := false
        consumed := (creditsOf o).foldl (fun v c => upd v c (· + 1)) s.beam[b.val].consumed
        csel := 0
        txFlits := 0
        counters := Vector.replicate 16 0 } ∧ ∃ raw, Emission.flit b raw ∈ (sendNew b o r s code).out := by
  obtain ⟨kept, went⟩ := sendData_sends (b := b) s.beam[b.val].seq o code (s := beamCount b 3 1 (onPort (portOf s b) (fun q =>
    { q with peak := max q.peak (replayUse (newFlit b o r s) (portOf s b)) }) (newFlit b o r s)))
  exact ⟨kept.trans ((sender_onBeam _).trans (sender_onBeam _)), went⟩

end

section
variable {s : State} {b : Beam} {o : OutFlit}

/-- A flit time that is counted changes nothing that the choice of the next flit reads. -/
theorem countFull_sendLines : sendLines (countFull b s) b = sendLines s b := by
  unfold countFull
  dsimp only
  split
  · simp [sendLines, portUp, darkLines, onPort, portOf, beamRec]
  · rfl

theorem countFull_behindSwitch : behindSwitch (countFull b s) b o = behindSwitch s b o := by
  unfold countFull
  dsimp only
  split
  · simp [behindSwitch, onPort, portOf, beamRec]
  · rfl

theorem replayShort_congr {t : State} (img : t.img = s.img) (beam : t.beam = s.beam) : replayShort t b = replayShort s b := by
  cases s
  cases t
  subst img beam
  rfl

end

section
variable {s : State} {b : Beam} {code : CodeResult}

/-- The state from which the next flit of a beam is chosen. -/
theorem flitTx_of_idle (idle : tentNext s b = none) : flitTx b s code =
    flitNext b (if (s.beam[b]).tx = .creditWait then countWait b (countFull b s) else countFull b s) code := by
  simp only [flitTx, tentStart, idle]

variable {o : OutFlit} {r : List OutFlit}

/-- The DATA flit at the front of the queue of a running beam has its turn. -/
def FlitTurn (b : Beam) (o : OutFlit) (r : List OutFlit) (s : State) : Prop :=
  tentNext s b = none ∧ beamLit (s.beam[b]) = true ∧ sendLines s b ≠ 0 ∧ (s.beam[b]).ctl = [] ∧ (s.beam[b]).resend = [] ∧
    (s.beam[b]).tx = .run ∧ (s.beam[b]).queue = o :: r

theorem flitTx_of_turn (turn : FlitTurn b o r s) : flitTx b s code =
    if behindSwitch s b o then sendIdle b (countFull b s)
    else if affordable (s.beam[b]) o = false then sendIdle b (countWait b (onBeam b (fun q => { q with tx := .creditWait }) (countFull b s)))
    else if replayShort s b then sendIdle b (onBeam b (fun q => { q with tx := .replayWait }) (countFull b s))
    else sendNew b o r (onBeam b (fun q => { q with tx := .run }) (countFull b s)) code := by
  obtain ⟨idle, lit, lines, ctl, resend, tx, queue⟩ := turn
  have short : replayShort (countFull b s) b = replayShort s b := replayShort_congr countFull_img countFull_beam
  simp only [Fin.getElem_fin, BitVec.ofNat_eq_ofNat, ne_eq] at lit lines ctl resend tx queue
  simp [flitTx_of_idle idle, flitNext, lit, lines, ctl, resend, tx, queue, countFull_sendLines, countFull_behindSwitch, short]

end

section
variable {s u : State} {b : Beam} {code : CodeResult}

theorem flitNext_of_ctl {c : CtlFlit} {r : List CtlFlit} (same : sender b u = sender b s) (lines : sendLines u b = sendLines s b)
    (lit : beamLit (s.beam[b]) = true) (some_ : sendLines s b ≠ 0) (ctl : (s.beam[b]).ctl = c :: r) :
    flitNext b u code = sendCtl b c (onBeam b (fun q => { q with ctl := r }) u) := by
  have lit' : beamLit u.beam[b.val] = true := (congrArg beamLit same).trans lit
  have ctl' : u.beam[b.val].ctl = c :: r := (congrArg BeamSt.ctl same).trans ctl
  rw [← lines] at some_
  simp only [BitVec.ofNat_eq_ofNat, ne_eq] at some_
  simp [flitNext, lit', ctl', some_]

theorem countWait_sender : sender b (countWait b s) = sender b s := sender_onBeam _

theorem countWait_sendLines : sendLines (countWait b s) b = sendLines s b := by
  have mask : (countWait b s).beam[b.val].txMask = s.beam[b.val].txMask :=
    (congrArg BeamSt.txMask (countWait_sender (s := s) (b := b)) :)
  simp only [sendLines, Fin.getElem_fin, mask]
  rfl

/-- A beam but for what waits in its queue. -/
def unqueued (b : Beam) (s : State) : BeamSt := { s.beam[b.val] with queue := [] }

theorem abortIf_unqueued (c : Bool) : unqueued b (abortIf c s) = unqueued b s := by
  have aborted : unqueued b (abortEpoch s) = unqueued b s := by
    have kept : (abortEpoch s).beam = s.beam.map (dropUnsent (s.ctl.serial + 1)) := noticeAll_beam ..
    rw [unqueued, kept, Vector.getElem_map]
    rfl
  unfold abortIf abortFenced
  (repeat' split)
  · exact aborted
  · exact aborted
  · rfl
  · rfl
  · rfl

theorem broken_fields {q : BeamSt} (h : unqueued b s = breakBeamSt q) : s.beam[b.val].state = 6 ∧ s.beam[b.val].tx = .broken ∧
    s.beam[b.val].rx = .broken ∧ s.beam[b.val].unacked = [] :=
  ⟨(congrArg BeamSt.state h :), (congrArg BeamSt.tx h :), (congrArg BeamSt.rx h :), (congrArg BeamSt.unacked h :)⟩

theorem breakBeam_unqueued (whole : (s.beam[b]).state ≠ 6) : unqueued b (breakBeam b s) = breakBeamSt s.beam[b.val] := by
  rw [breakBeam, if_neg whole, abortIf_unqueued, unqueued, eventBit_beam, setEv_beam, onBeam, upd_val_self]
  rfl

end

section
variable {s : State} {b : Beam} {code : CodeResult} {o : OutFlit} {r : List OutFlit}

theorem flitTx_sends_ctl {c : CtlFlit} {r : List CtlFlit} (idle : tentNext s b = none) (lit : beamLit (s.beam[b]) = true)
    (lines : sendLines s b ≠ 0) (ctl : (s.beam[b]).ctl = c :: r) : sender b (flitTx b s code) = { sender b s with ctl := r } ∧
      ∃ raw : List Byte, Emission.flit b raw ∈ (flitTx b s code).out ∧ raw.length = 256 := by
  rw [flitTx_of_idle idle]
  have counted : sender b (countFull b s) = sender b s := sender_of_beam countFull_beam
  generalize start : (if (s.beam[b]).tx = .creditWait then countWait b (countFull b s) else countFull b s) = u
  have same : sender b u = sender b s ∧ sendLines u b = sendLines s b := by
    subst start
    split
    · exact ⟨countWait_sender.trans counted, countWait_sendLines.trans countFull_sendLines⟩
    · exact ⟨counted, countFull_sendLines⟩
  rw [flitNext_of_ctl same.1 same.2 lit lines ctl]
  obtain ⟨kept, went⟩ := sendCtl_sends (b := b) c (s := onBeam b (fun q => { q with ctl := r }) u)
  refine ⟨kept.trans ((sender_onBeam _).trans ?_), went⟩
  rw [← same.1]
  rfl

theorem flitTx_sends_data (turn : FlitTurn b o r s) (free : behindSwitch s b o = false) (rich : affordable (s.beam[b]) o = true)
    (room : replayShort s b = false) : sender b (flitTx b s code) = { sender b s with
        tx := .run
        queue := r
        seq := s.beam[b.val].seq + 1
        unacked := s.beam[b.val].unacked ++ [(s.beam[b.val].seq, o)]
        granted := false
        consumed := (creditsOf o).foldl (fun v c => upd v c (· + 1)) s.beam[b.val].consumed } ∧
      ∃ raw, Emission.flit b raw ∈ (flitTx b s code).out := by
  have next : flitTx b s code = sendNew b o r (onBeam b (fun q => { q with tx := .run }) (countFull b s)) code := by
    simp only [flitTx_of_turn turn, free, rich, room, Bool.true_eq_false, Bool.false_eq_true, if_false]
  rw [next]
  obtain ⟨kept, went⟩ := sendNew_sends (b := b) o r code (s := onBeam b (fun q => { q with tx := .run }) (countFull b s))
  refine ⟨kept.trans ?_, went⟩
  simp only [onBeam, upd_val_self, countFull_beam]
  rfl

theorem flitTx_waits_credit (turn : FlitTurn b o r s) (free : behindSwitch s b o = false) (poor : affordable (s.beam[b]) o = false) :
    sender b (flitTx b s code) = { sender b s with tx := .creditWait } := by
  rw [flitTx_of_turn turn, free, if_neg Bool.false_ne_true, if_pos poor, sendIdle_sender, countWait_sender, sender_onBeam, countFull_beam]
  rfl

theorem flitTx_waits_replay (turn : FlitTurn b o r s) (free : behindSwitch s b o = false) (rich : affordable (s.beam[b]) o = true)
    (full : replayShort s b = true) : sender b (flitTx b s code) = { sender b s with tx := .replayWait } := by
  rw [flitTx_of_turn turn, free, if_neg Bool.false_ne_true, if_neg (by rw [rich]; decide), if_pos full, sendIdle_sender, sender_onBeam,
    countFull_beam]
  rfl

theorem flitTx_waits_switch (turn : FlitTurn b o r s) (behind : behindSwitch s b o = true) : sender b (flitTx b s code) = sender b s := by
  rw [flitTx_of_turn turn, if_pos behind, sendIdle_sender]
  exact sender_of_beam countFull_beam

theorem initResend_ctl (tx : (s.beam[b]).tx = .init) :
    (initResend b s).beam[b.val].ctl = s.beam[b.val].ctl ++ [⟨6, initPayload s b s.beam[b.val].initSeen⟩] := by
  rw [initResend, if_pos tx, pushCtl, onBeam, upd_val_self]
  rfl

theorem retransmit_sender {n : BitVec 16} {r : List (BitVec 16 × OutFlit)} (unacked : (s.beam[b]).unacked = (n, o) :: r)
    (timers : timersRun (s.beam[b]) = true) (few : (s.beam[b]).expiries + 1 < 8) : sender b (retransmit b s) = { sender b s with
      expiries := s.beam[b.val].expiries + 1
      resend := if s.beam[b.val].resend.contains n then s.beam[b.val].resend else s.beam[b.val].resend ++ [n] } := by
  have one : retransmit b s = beamCount b 9 1 (onBeam b (fun q => { q with
      expiries := (s.beam[b]).expiries + 1
      resend := if (s.beam[b]).resend.contains n then (s.beam[b]).resend else (s.beam[b]).resend ++ [n] }) s) := by
    simp only [Fin.getElem_fin] at unacked timers few ⊢
    simp [retransmit, unacked, timers, Nat.ne_of_lt few, onBeam, upd]
  rw [one, beamCount, sender_onBeam, onBeam, upd_val_self]
  rfl

/-- The outcome of a broken beam, with no DEV_PENUMBRA waiting. -/
theorem stopping_breaks (whole : (s.beam[b]).state ≠ 6) (quiet : s.img.penumbra = []) {f : State → State} (breaks : f s = breakBeam b s) :
    unqueued b (stopping f s) = breakBeamSt s.beam[b.val] := by
  rw [stopping, breaks, stopAfter_of_none s (by simpa using quiet)]
  exact breakBeam_unqueued whole

theorem replayGrant_of_one {p : Port} (room : replayUse s p < 1024) (waiting : (beamsOf s p).filter (fun b => (s.beam[b]).tx == .replayWait) = [b]) :
    replayGrant p s = onPort p (fun q => { q with grant := (b.val + 1) % 256 }) (onBeam b (fun q => { q with tx := .run, granted := true }) s) := by
  simp only [replayGrant, waiting, if_neg (not_le.2 room), List.filter_cons, List.filter_nil]
  rcases le_or_gt s.port[p.val].grant b.val with before | after
  · simp [before, not_lt.2 before]
  · simp [after, not_le.2 after]

end

/-- Settles O33: a flit boundary is read off the order of R244 (`flitTx_of_turn`), and sending leaves all else of the beam (`sender`). -/
theorem linkSendsFlits : Obligations.LinkSendsFlits := by
  unfold Obligations.LinkSendsFlits
  simp only [Fin.getElem_fin]
  refine ⟨fun b c r code s hs idle lit lines ctl => ⟨_, run_of_running _ s hs, ?control⟩,
    fun b o r code s hs idle lit lines ctl resend tx queue free rich room => ⟨_, run_of_running _ s hs, ?data⟩,
    fun b o r code s hs idle lit lines ctl resend tx queue free poor => ⟨_, run_of_running _ s hs, ?credit⟩,
    fun b o r code s hs idle lit lines ctl resend tx queue free rich full => ⟨_, run_of_running _ s hs, ?replay⟩,
    fun b o r code s hs idle lit lines ctl resend tx queue behind => ⟨_, run_of_running _ s hs, ?behind⟩,
    fun b s hs tx => ⟨_, run_of_running _ s hs, ?again⟩,
    fun b s hs tx unseen whole quiet => ⟨_, run_of_running _ s hs, ?silent⟩,
    fun b n o r s hs unacked timers few => ⟨_, run_of_running _ s hs, ?timer⟩,
    fun b s hs timers tx whole quiet => ⟨_, run_of_running _ s hs, ?starved⟩,
    fun p b s hs room waiting => ⟨_, run_of_running _ s hs, ?grant⟩⟩ <;> rw [irqSettle_beam]
  case control =>
    obtain ⟨kept, raw, went, size⟩ := flitTx_sends_ctl (code := code) idle lit lines ctl
    obtain ⟨-, ctl', queue', seq', -, -, -, -⟩ := sender_fields kept
    exact ⟨ctl', queue', seq', raw, mem_out_irqSettle went, size⟩
  case data =>
    obtain ⟨kept, raw, went⟩ := flitTx_sends_data (code := code) ⟨idle, lit, lines, ctl, resend, tx, queue⟩ free rich room
    obtain ⟨-, -, queue', seq', unacked', -, consumed', -⟩ := sender_fields kept
    exact ⟨queue', seq', unacked', consumed', raw, mem_out_irqSettle went⟩
  case credit =>
    obtain ⟨tx', -, queue', seq', unacked', -, -, -⟩ := sender_fields
      (flitTx_waits_credit (code := code) ⟨idle, lit, lines, ctl, resend, tx, queue⟩ free poor)
    exact ⟨tx', queue'.trans queue, seq', unacked'⟩
  case replay =>
    obtain ⟨tx', -, queue', -, unacked', -, -, -⟩ := sender_fields
      (flitTx_waits_replay (code := code) ⟨idle, lit, lines, ctl, resend, tx, queue⟩ free rich full)
    exact ⟨tx', queue'.trans queue, unacked'⟩
  case behind =>
    obtain ⟨tx', -, queue', -, unacked', -, -, -⟩ := sender_fields
      (flitTx_waits_switch (code := code) ⟨idle, lit, lines, ctl, resend, tx, queue⟩ behind)
    exact ⟨tx'.trans tx, queue'.trans queue, unacked'⟩
  case again => exact initResend_ctl tx
  case silent =>
    obtain ⟨state, tx', -, -⟩ := broken_fields (stopping_breaks (b := b) whole quiet (if_pos (And.intro tx unseen)))
    exact ⟨state, tx'⟩
  case timer =>
    obtain ⟨tx', -, -, -, unacked', resend', -, expiries'⟩ := sender_fields (retransmit_sender unacked timers few)
    refine ⟨?_, expiries', unacked', tx'⟩
    rw [resend']
    split
    next there => simpa using there
    next => simp
  case starved =>
    obtain ⟨state, -, rx', unacked'⟩ := broken_fields (stopping_breaks (b := b) whole quiet (if_pos
      (show (timersRun s.beam[b.val] && (s.beam[b.val].tx == .creditWait || s.beam[b.val].unacked != [])) = true by simp [timers, tx])))
    exact ⟨state, rx', unacked'⟩
  case grant =>
    rw [irqSettle_port, replayGrant_of_one room waiting]
    simp [onPort, onBeam, upd_val_self]

end Sys2Proof.Machine
end

section
/-!
PROOFS. Receiving flits (R207, R235, R241, R242, R244, R263).
-/

-- In sequence: each worker of the elaborator takes its stack from the memory that a check may use.
set_option Elab.async false

namespace Sys2Proof.Machine

section
variable {s t : State} {b : Beam} {p : Port} {raw : List Byte} {f : Flit} {typ : BitVec 4}

/-- What a port's lines say about the flits that they carry: substitutions, and which lines are locked to another's light. -/
def listening (q : PortSt) : Vector (Option Subst) 4 × Vector (Bool × BitVec 2) 35 := (q.sub, q.line.map fun l => (l.wrong, l.out))

/-- What the check of an arriving flit and its delivery read. -/
def intake (s : State) : Vector BeamSt 256 × Load × Ctl × (Port → Vector (Option Subst) 4 × Vector (Bool × BitVec 2) 35) :=
  (s.beam, s.img, s.ctl, fun p => listening s.port[p.val])

theorem onPort_intake (g : PortSt → PortSt) (h : ∀ q, listening (g q) = listening q) : intake (onPort p g s) = intake s := by
  have same (k : Port) : listening (upd s.port p g)[k.val] = listening s.port[k.val] := by
    by_cases here : p = k
    · subst here
      rw [upd_val_self, h]
    · rw [upd_val_of_ne _ _ (Ne.symm here)]
  simp only [intake, onPort, same]

theorem onLine_intake (n : Line) (g : LineSt → LineSt) (h : ∀ l : LineSt, (g l).wrong = l.wrong ∧ (g l).out = l.out) :
    intake (onLine p n g s) = intake s := by
  refine onPort_intake _ fun q => Prod.ext rfl (Vector.ext fun k within => ?_)
  simp only [listening, Vector.getElem_map]
  by_cases here : n.val = k
  · subst here
    rw [upd_val_self, (h _).1, (h _).2]
  · rw [upd_val_of_ne (j := ⟨k, within⟩) _ _ (by simpa [Fin.ext_iff, eq_comm] using here)]

theorem intake_of_same (beam : t.beam = s.beam) (img : t.img = s.img) (ctl : t.ctl = s.ctl) (port : t.port = s.port) : intake t = intake s := by
  simp only [intake, beam, img, ctl, port]

theorem logEvent_intake (c k n i : ℕ) : intake (logEvent c k n i s) = intake s := intake_of_same (by simp) (by simp) (by simp) (by simp)

theorem setEv_intake (n : ℕ) : intake (setEv blkPRT p.val n s) = intake s := by
  have port : setEv blkPRT p.val n s = onPort (fin! 64 p.val) (fun q => { q with event := setBit q.event n }) s := by simp [setEv, blkPRT]
  rw [port]
  exact onPort_intake _ fun _ => rfl

theorem codeLogged_intake (code : CodeResult) : intake (codeLogged p code s) = intake s := by
  unfold codeLogged
  dsimp only
  split <;> split
  · exact logEvent_intake ..
  · exact (logEvent_intake ..).trans rfl
  · rfl
  · rfl

theorem lineWordRx_intake (w : LineWord) : intake (lineWordRx p w s).2 = intake s := onLine_intake _ _ fun _ => ⟨rfl, rfl⟩

theorem lineWordsRx_intake (ws : List LineWord) : intake (lineWordsRx p ws s).2 = intake s :=
  List.foldlRecOn (motive := fun a : List FecReport × State => intake a.2 = intake s) _ _ rfl
    fun _ same w _ => (lineWordRx_intake w).trans same

theorem fecRx_intake (rs : List FecReport) : intake (fecRx p rs s) = intake s := by
  refine foldl_kept intake _ _ _ fun t r => ?_
  have counted : intake (onLine p r.line (fun l => { l with
      counters := upd (upd l.counters 0 (· + BitVec.ofNat 64 r.corrected)) 1 (· + BitVec.ofNat 64 r.uncorrectable) }) t) = intake t :=
    onLine_intake _ _ fun _ => ⟨rfl, rfl⟩
  dsimp only
  split
  · rw [setEv_intake, logEvent_intake]
    split
    · rw [logEvent_intake, counted]
    · exact counted
  · split
    · rw [logEvent_intake, counted]
    · exact counted

/-- What came with a DATA flit, decoded and counted before the flit is looked at. -/
def decoded (b : Beam) (words : List LineWord) (code : CodeResult) (s : State) : State :=
  let u := codeLogged (portOf s b) code s
  fecRx (portOf u b) (lineWordsRx (portOf u b) words u).1 (lineWordsRx (portOf u b) words u).2

theorem decoded_intake (words : List LineWord) (code : CodeResult) : intake (decoded b words code s) = intake s :=
  (fecRx_intake _).trans ((lineWordsRx_intake _).trans (codeLogged_intake _))

theorem intake_fields (h : intake t = intake s) : t.beam = s.beam ∧ t.img = s.img ∧ t.ctl = s.ctl ∧
    ∀ p : Port, listening t.port[p.val] = listening s.port[p.val] :=
  ⟨congrArg (·.1) h, congrArg (·.2.1) h, congrArg (·.2.2.1) h, fun p => congrFun (congrArg (·.2.2.2) h) p⟩

theorem wrongLines_of_intake (h : intake t = intake s) : wrongLines t b = wrongLines s b := by
  obtain ⟨beam, img, -, lines⟩ := intake_fields h
  have port : portOf t b = portOf s b := by simp only [portOf, beamRec, img]
  have sub : t.port[(portOf s b).val].sub = s.port[(portOf s b).val].sub := congrArg (·.1) (lines (portOf s b))
  have line (n : Line) : t.port[(portOf s b).val].line[n.val].wrong = s.port[(portOf s b).val].line[n.val].wrong ∧
      t.port[(portOf s b).val].line[n.val].out = s.port[(portOf s b).val].line[n.val].out := by
    have same := congrArg (fun x => x.2[n.val]) (lines (portOf s b))
    simp only [listening, Vector.getElem_map, Prod.mk.injEq] at same
    exact same
  simp only [wrongLines, port, beam, carried, Fin.getElem_fin, sub, line]

theorem rebuilt_of_beam (h : t.beam = s.beam) (raw : List Byte) : rebuilt t b raw = rebuilt s b raw ∧ flitStart t b raw = flitStart s b raw := by
  have at_ (k : ℕ) : rebuiltAt t b raw k = rebuiltAt s b raw k := by simp only [rebuiltAt, h]
  have start : flitStart t b raw = flitStart s b raw := by simp only [flitStart, h, at_]
  exact ⟨by simp only [rebuilt, start, at_], start⟩

theorem rebuilt_of_intake (h : intake t = intake s) (raw : List Byte) : rebuilt t b raw = rebuilt s b raw ∧ flitStart t b raw = flitStart s b raw :=
  rebuilt_of_beam (intake_fields h).1 raw

/-- A flit that passes the checks is handled. -/
theorem flitRx_of_arrives {k : Flit → State → State} (h : intake t = intake s) (came : flitArrives b raw typ f s) :
    flitRx b raw typ k t = k f (flitCame b raw t) := by
  obtain ⟨-, lit, spelt, right, place, beam, type⟩ := came
  obtain ⟨beams, img, -, -⟩ := intake_fields h
  have right' : touchesWrong t b = false := by rw [touchesWrong, wrongLines_of_intake h]; exact right
  have spelt' : flitOf (rebuilt t b raw) = some f := by rw [(rebuilt_of_intake h raw).1]; exact spelt
  have lit' : beamLit (t.beam[b]) = true := by rw [beams]; exact lit
  have from_ : ¬(f.place ≠ (beamRec (flitCame b raw t) b).peerPlace ∨ f.beam ≠ (beamRec (flitCame b raw t) b).peerBeam) := by
    have same : beamRec (flitCame b raw t) b = beamRec s b := by simp only [beamRec, ← img]; rfl
    rw [same, place, beam]
    simp
  rw [flitRx, if_neg (by rw [lit']; decide), right', if_neg Bool.false_ne_true, spelt']
  simp only [flitTaken, if_neg from_, type, if_true]

/-- The beam of a flit that has come in: its place in the stream of words is known again. -/
theorem flitCame_beam (h : t.beam = s.beam) (spelt : flitOf (rebuilt s b raw) = some f) : (flitCame b raw t).beam = upd s.beam b fun q =>
    { q with rxWords := flitStart s b raw + 32, placeLost := false } := by
  obtain ⟨same, start⟩ := rebuilt_of_beam (b := b) h raw
  have came : (flitCame b raw t).beam = upd t.beam b fun q =>
      { q with rxWords := flitStart t b raw + 32, placeLost := q.placeLost && (flitOf (rebuilt t b raw)).isNone } := rfl
  simp only [came, same, start, spelt, h, Option.isNone_some, Bool.and_false]

theorem trimsApply_switchQ (p : Port) : (trimsApply b s).port[p.val].switchQ = s.port[p.val].switchQ := by
  by_cases here : portOf s b = p
  · subst here
    simp [trimsApply, onPort, upd_val_self]
  · simp [trimsApply, onPort, upd_val_of_ne _ _ (Ne.symm here)]

end

section
variable {q : BeamSt} {f : Flit}

/-- What the header of an accepted flit does to its beam (R214, R242, R253). -/
def headed (f : Flit) (q : BeamSt) : BeamSt := creditOk (creditRx f.csel f.ccount (ackRx f.ack (countRx f.sw q)))

theorem creditOk_kept (q : BeamSt) : ∃ tx, creditOk q = { q with tx := tx } ∧ (q.tx ≠ .creditWait → tx = q.tx) := by
  unfold creditOk
  split
  next wait _ =>
    split
    · exact ⟨_, rfl, fun no => absurd wait no⟩
    · exact ⟨q.tx, rfl, fun _ => rfl⟩
  next wait _ => exact ⟨_, rfl, fun no => absurd wait no⟩
  next => exact ⟨q.tx, rfl, fun _ => rfl⟩

theorem ackRx_kept (ack : BitVec 16) (q : BeamSt) : ∃ acked expiries resend, ackRx ack q = { q with
      unacked := q.unacked.drop (ackCovers q ack)
      acked := acked
      expiries := expiries
      resend := resend } ∧ (ackCovers q ack = 0 → resend = q.resend) := by
  unfold ackRx
  dsimp only
  split
  next none_ => exact ⟨_, _, _, by rw [none_]; rfl, fun _ => rfl⟩
  next some_ => exact ⟨_, _, _, rfl, fun none_ => absurd none_ some_⟩

/-- All that the header of a flit touches of its beam. -/
theorem headed_kept (f : Flit) (q : BeamSt) : ∃ newSeen acked expiries resend returned tx, headed f q = { q with
      peerSw := if swNewer q.peerSw f.sw then f.sw else q.peerSw
      newSeen := newSeen
      unacked := q.unacked.drop (ackCovers q f.ack)
      acked := acked
      expiries := expiries
      resend := resend
      returned := returned
      tx := tx } ∧ (q.tx ≠ .creditWait → tx = q.tx) ∧ (ackCovers q f.ack = 0 → resend = q.resend) := by
  obtain ⟨acked, expiries, resend, ackd, keeps⟩ := ackRx_kept f.ack (countRx f.sw q)
  obtain ⟨tx, credited, still⟩ := creditOk_kept (creditRx f.csel f.ccount (ackRx f.ack (countRx f.sw q)))
  refine ⟨(countRx f.sw q).newSeen, acked, expiries, resend, (creditRx f.csel f.ccount (ackRx f.ack (countRx f.sw q))).returned, tx, ?_, ?_, keeps⟩
  · rw [headed, credited, ackd]
    rfl
  · rw [ackd] at still
    exact still

end

section
variable {s t : State} {b : Beam} {raw : List Byte} {f : Flit} {typ : BitVec 4}

theorem headed_waitNew : (headed f q).waitNew = q.waitNew := by
  obtain ⟨newSeen, acked, expiries, resend, returned, tx, kept, -, -⟩ := headed_kept f q
  rw [kept]

/-- A beam that does not wait for a switch goes on after the header. -/
theorem headerRx_of_going (going : (s.beam[b]).waitNew = false) : headerRx b f s = onBeam b (headed f) s := by
  have going' : (headed f s.beam[b.val]).waitNew = false := headed_waitNew.trans going
  have same : (onBeam b (headed f) s).beam[b.val] = headed f s.beam[b.val] := upd_val_self ..
  show tryResume b (onBeam b (headed f) s) = _
  simp only [tryResume, Fin.getElem_fin, same, going', Bool.false_and, Bool.false_eq_true, if_false]

/-- A beam whose flit has come in and whose header has had its effect. -/
def received (f : Flit) (start : ℕ) (q : BeamSt) : BeamSt := headed f { q with rxWords := start, placeLost := false }

theorem upd_upd {α : Type} {n : ℕ} (v : Vector α n) (i : Fin n) (g h : α → α) : upd (upd v i g) i h = upd v i fun x => h (g x) := by
  refine Vector.ext fun k within => ?_
  by_cases here : i.val = k
  · subst here
    simp only [upd_val_self]
  · have other : (⟨k, within⟩ : Fin n) ≠ i := fun e => here (congrArg Fin.val e).symm
    rw [upd_val_of_ne (j := ⟨k, within⟩) _ _ other, upd_val_of_ne (j := ⟨k, within⟩) _ _ other, upd_val_of_ne (j := ⟨k, within⟩) _ _ other]

/-- The state behind the header of an accepted flit, on a beam that does not wait for a switch. -/
theorem headerRx_beam (came : flitOf (rebuilt s b raw) = some f) (going : (s.beam[b]).waitNew = false) (h : t.beam = s.beam) :
    headerRx b f (flitCame b raw t) = onBeam b (headed f) (flitCame b raw t) ∧
      (headerRx b f (flitCame b raw t)).beam = upd s.beam b (received f (flitStart s b raw + 32)) := by
  have beam := flitCame_beam (t := t) h came
  have going' : ((flitCame b raw t).beam[b]).waitNew = false := by
    rw [beam, Fin.getElem_fin, upd_val_self]
    exact going
  have header := headerRx_of_going (f := f) going'
  refine ⟨header, ?_⟩
  rw [header]
  show upd (flitCame b raw t).beam b (headed f) = _
  rw [beam, upd_upd]
  rfl

/-- All that an accepted flit touches of its beam, but for its payload. -/
theorem received_kept (f : Flit) (start : ℕ) (q : BeamSt) : ∃ newSeen acked expiries resend returned tx, received f start q = { q with
      rxWords := start
      placeLost := false
      peerSw := if swNewer q.peerSw f.sw then f.sw else q.peerSw
      newSeen := newSeen
      unacked := q.unacked.drop (ackCovers q f.ack)
      acked := acked
      expiries := expiries
      resend := resend
      returned := returned
      tx := tx } ∧ (q.tx ≠ .creditWait → tx = q.tx) ∧ (ackCovers q f.ack = 0 → resend = q.resend) :=
  headed_kept f { q with rxWords := start, placeLost := false }

/-- The header of a flit touches nothing that its delivery reads. -/
theorem received_same (f : Flit) (start : ℕ) (q : BeamSt) (o : OutFlit) : (received f start q).inbound = q.inbound ∧
    (received f start q).next = q.next ∧ (received f start q).held = q.held ∧ (received f start q).naked = q.naked ∧
    (received f start q).counters = q.counters ∧ (received f start q).seen = q.seen ∧
    isTentative (received f start q) o = isTentative q o := by
  obtain ⟨newSeen, acked, expiries, resend, returned, tx, kept, -, -⟩ := received_kept f start q
  rw [kept]
  exact ⟨rfl, rfl, rfl, rfl, rfl, rfl, rfl⟩

/-- A control flit that passes the checks has the effect of its header, then of its payload. -/
theorem ctlRx_of_arrives {k : List Byte → State → State} (came : flitArrives b raw typ f s) :
    ctlRx b raw typ k s = k f.body (headerRx b f (flitCame b raw s)) := flitRx_of_arrives rfl came

theorem spelt_of_arrives (came : flitArrives b raw typ f s) : flitOf (rebuilt s b raw) = some f := by
  obtain ⟨-, -, spelt, -⟩ := came
  exact spelt

/-- A control flit whose payload asks for nothing. -/
theorem ctlRx_beam (came : flitArrives b raw typ f s) (going : (s.beam[b]).waitNew = false) :
    (ctlRx b raw typ (fun _ s => s) s).beam = upd s.beam b (received f (flitStart s b raw + 32)) := by
  rw [ctlRx_of_arrives came, (headerRx_beam (spelt_of_arrives came) going rfl).2]

/-- A foreign flit: the beam's place in the stream of words is known again (R207). -/
theorem ctlRx_of_foreign {k : List Byte → State → State} (lit : beamLit (s.beam[b]) = true) (spelt : flitOf (rebuilt s b raw) = some f)
    (right : touchesWrong s b = false) (other : f.place ≠ (beamRec s b).peerPlace ∨ f.beam ≠ (beamRec s b).peerBeam) :
    ctlRx b raw typ k s = foreignFlit (flitCame b raw s) := by
  simp only [Fin.getElem_fin] at lit
  simp only [ctlRx, flitRx, Fin.getElem_fin, lit, right, spelt, flitTaken, Bool.true_eq_false, Bool.false_eq_true, if_false]
  exact if_pos other

/-- A NAK that names one number of the replay buffer: it is to be resent. -/
theorem nakMsg_one {body : List Byte} {n : BitVec 16} (one : leNat (body.take 2) = 1) (names : BitVec.ofNat 16 (leNat ((body.drop 2).take 2)) = n)
    (none_ : s.beam[b.val].resend = []) (waits : ∃ o, (n, o) ∈ s.beam[b.val].unacked) :
    (nakMsg b body s).beam[b.val].resend = [n] ∧ (nakMsg b body s).beam[b.val].unacked = s.beam[b.val].unacked := by
  obtain ⟨o, there⟩ := waits
  have known : (s.beam[b.val].unacked.any fun e => e.1 == n) = true := List.any_eq_true.2 ⟨_, there, beq_self_eq_true n⟩
  simp only [nakMsg, beamCount, onBeam, upd_upd, upd_val_self, one]
  simp [names, none_, known]

theorem dataFlitRx_of_arrives {words : List LineWord} {code : CodeResult} (came : flitArrives b (codeBytes code s.fresh raw) 1 f s) :
    dataFlitRx b raw words code s = dataRxFlit b f (flitCame b (codeBytes code s.fresh raw) (decoded b words code s)) := by
  have lit : beamLit (s.beam[b]) = true := by
    obtain ⟨-, lit, -⟩ := came
    exact lit
  have spelt : flitOf (rebuilt (codeLogged (portOf s b) code s) b (codeBytes code s.fresh raw)) = some f := by
    rw [(rebuilt_of_beam (codeLogged_beam code) _).1]
    exact spelt_of_arrives came
  have sound : ¬((flitOf (rebuilt (codeLogged (portOf s b) code s) b (codeBytes code s.fresh raw))).isNone ∧
      (lineWordsRx (portOf (codeLogged (portOf s b) code s) b) words (codeLogged (portOf s b) code s)).1.any
        (fun r => decide (0 < r.uncorrectable))) := by
    rw [spelt]
    simp
  rw [dataFlitRx, if_neg (by rw [lit]; decide)]
  exact (if_neg sound).trans (flitRx_of_arrives (decoded_intake words code) came)

end

section
variable {q : BeamSt} {o : OutFlit}

theorem giveHead_given (o : OutFlit) (q : BeamSt) : ∃ given, giveHead o q = { q with given := given } := by
  unfold giveHead
  split
  · exact ⟨_, rfl⟩
  · exact ⟨q.given, rfl⟩

theorem giveData_given (o : OutFlit) (q : BeamSt) : ∃ given, giveData o q = { q with given := given } := by
  unfold giveData
  split
  · exact ⟨q.given, rfl⟩
  · exact ⟨_, rfl⟩

theorem foldl_given (g : OutFlit → BeamSt → BeamSt) (gives : ∀ o q, ∃ given, g o q = { q with given := given }) (l : List OutFlit) (q : BeamSt) :
    ∃ given, l.foldl (fun a o => g o a) q = { q with given := given } :=
  List.foldlRecOn (motive := fun a : BeamSt => ∃ given, a = { q with given := given }) _ _ ⟨q.given, rfl⟩ fun a ⟨given, same⟩ o _ => by
    obtain ⟨given', more⟩ := gives o a
    exact ⟨given', by rw [more, same]⟩

/-- With nothing in the inbound buffer, the first flit of another attempt discards only what is left of records. -/
theorem newAttempt_of_empty (inbound : q.inbound = []) : ∃ given part, newAttempt o q = { q with given := given, part := part } := by
  simp only [newAttempt, inbound, openFlits, List.filter_nil, List.foldl_nil, List.append_nil, ne_eq, not_true_eq_false, if_false]
  obtain ⟨given, gives⟩ := foldl_given giveHead giveHead_given
    (q.part.toList.map fun l => l.filter fun x => x.attempt != o.attempt && x.ahead == o.ahead).flatten
    { q with inbound := [], part := q.part.map fun l => if l.any (fun x => x.attempt != o.attempt && x.ahead == o.ahead) then [] else l }
  exact ⟨given, _, gives.trans (by rw [← inbound])⟩

/-- The flit that was expected, on a beam that holds and keeps none. -/
theorem deliverNext_alone (held : q.held = []) (inbound : q.inbound = []) :
    (deliverNext o q).inbound = [{ o with ahead := isTentative q o }] ∧ (deliverNext o q).next = q.next + 1 ∧ (deliverNext o q).rx = .run ∧
      (deliverNext o q).counters[4] = q.counters[4] + 1 ∧ (deliverNext o q).seen = q.seen := by
  have one : deliverNext o q = { deliverOne o q with
      rx := if (deliverOne o q).held = [] then .run else .gap
      naked := (deliverOne o q).naked.filter fun n => decide ((n - (deliverOne o q).next).toNat < 1024) } := by
    rw [deliverNext, held]
    rfl
  have kept : ∃ given part, deliverOne o q = { q with
      given := given
      part := part
      inbound := [{ o with ahead := isTentative q o }]
      next := q.next + 1
      openAttempt := if o.token.isSome then none else some o.attempt
      counters := upd q.counters 4 (· + 1) } := by
    unfold deliverOne
    dsimp only
    split
    · obtain ⟨given, part, anew⟩ := newAttempt_of_empty (o := { o with ahead := isTentative q o }) inbound
      rw [anew]
      exact ⟨given, part, by simp only [inbound, List.nil_append]⟩
    · exact ⟨q.given, q.part, by simp only [inbound, List.nil_append]⟩
  obtain ⟨given, part, delivered⟩ := kept
  rw [one, delivered]
  exact ⟨rfl, rfl, if_pos held, upd_val_self .., rfl⟩

theorem dropClass_nil (c : Fin 2) (n : ℕ) : dropClass c n [] = [] := by
  cases n <;> rfl

/-- With nothing in the inbound buffer, what is handed on comes from records that had begun. -/
theorem handOn_of_empty (c : Fin 2) (k m : ℕ) (inbound : q.inbound = []) : ∃ given part, handOn c k m q =
    { q with given := given, part := part } := by
  obtain ⟨given, gives⟩ := foldl_given giveData giveData_given ((classQueue q c).take (k + m - q.part[c].length)) q
  obtain ⟨given', heads⟩ := foldl_given giveHead giveHead_given ((atHand q c).take k) { q with given := given }
  refine ⟨given', upd q.part c fun _ => ((atHand q c).drop k).take m, ?_⟩
  unfold handOn
  dsimp only
  rw [gives, heads, inbound, dropClass_nil, ← inbound]

end

section
variable {s : State} {b : Beam}

theorem dropStale_step (b : Beam) (n : ℕ) (s : State) : dropStale b (n + 1) s = s ∨
    ∃ c k att e, dropStale b (n + 1) s = dropStale b n (onBeam b (fun q => { handOn c k 0 q with seen := renew att (· == e) q.seen }) s) := by
  rcases found : ((s.beam[b]).seen.findSome? fun e => [0, 1].findSome? fun c : Fin 2 => (staleRec s b c e).map fun x => (c, e, x)) with _ |
    ⟨c, e, k, att⟩
  · exact .inl (by simp only [dropStale, found])
  · exact .inr ⟨c, k, att, e, by simp only [dropStale, found]⟩

theorem dropStale_of_empty (n : ℕ) (inbound : s.beam[b.val].inbound = []) :
    ∃ given part seen, (dropStale b n s).beam[b.val] = { s.beam[b.val] with given := given, part := part, seen := seen } := by
  induction n generalizing s with
  | zero => exact ⟨_, _, _, rfl⟩
  | succ n ih =>
    obtain none_ | ⟨c, k, att, e, drops⟩ := dropStale_step b n s
    · exact ⟨_, _, _, by rw [none_]⟩
    · obtain ⟨given, part, handed⟩ := handOn_of_empty c k 0 inbound
      obtain ⟨given', part', seen, kept⟩ := ih (s := onBeam b (fun q => { handOn c k 0 q with seen := renew att (· == e) q.seen }) s) (by
        rw [onBeam, upd_val_self, handed]
        exact inbound)
      refine ⟨given', part', seen, (congrArg (fun t : State => t.beam[b.val]) drops).trans (kept.trans ?_)⟩
      rw [onBeam, upd_val_self, handed]

theorem drainTokens_of_empty (n : ℕ) (inbound : s.beam[b.val].inbound = []) : drainTokens b n s = s := by
  cases n with
  | zero => rfl
  | succ n =>
    unfold drainTokens
    simp only [Fin.getElem_fin, inbound]

/-- With nothing in the inbound buffer, there are only remains of records to drop. -/
theorem drainBeam_of_empty (inbound : s.beam[b.val].inbound = []) :
    ∃ given part seen, (drainBeam b s).beam[b.val] = { s.beam[b.val] with given := given, part := part, seen := seen } := by
  obtain ⟨given, part, seen, kept⟩ := dropStale_of_empty (s.beam[b.val]).seen.length inbound
  refine ⟨given, part, seen, ?_⟩
  have drained : drainBeam b s = dropStale b (s.beam[b.val]).seen.length s := 
    drainTokens_of_empty _ ((congrArg BeamSt.inbound kept).trans inbound)
  rw [drained, kept]

/-- Records of this phase are not stale, and a flit without a token is not drained. -/
theorem drainBeam_of_record {o : OutFlit} (inbound : s.beam[b.val].inbound = [o]) (plain : o.token = none)
    (seen : ∀ e ∈ s.beam[b.val].seen, e.serial = s.ctl.serial + 1) : drainBeam b s = s := by
  have fresh (n : ℕ) : dropStale b n s = s := by
    cases n with
    | zero => rfl
    | succ n =>
      have none_ : ((s.beam[b]).seen.findSome? fun e => [0, 1].findSome? fun c : Fin 2 => (staleRec s b c e).map fun x => (c, e, x)) = none := by
        simp only [List.findSome?_eq_none_iff]
        intro e there c _
        simp [staleRec, seen e there]
      unfold dropStale
      rw [none_]
  rw [drainBeam, fresh]
  rw [Fin.getElem_fin, inbound]
  simp [drainTokens, inbound, tokenOnly, plain]

end

section
variable {s : State} {b : Beam} {raw : List Byte} {words : List LineWord} {code : CodeResult} {f : Flit}

/-- The state in which a DATA flit that passes the checks is looked at, and the one behind its header. -/
theorem data_headed (came : flitArrives b (codeBytes code s.fresh raw) 1 f s) (going : (s.beam[b]).waitNew = false) :
    ∃ u v k, dataFlitRx b raw words code s = dataRxFlit b f u ∧ headerRx b f u = v ∧
      u.beam = upd s.beam b (fun q => { q with rxWords := k, placeLost := false }) ∧ v.beam = upd s.beam b (received f k) ∧
      v.img = s.img ∧ v.ctl = s.ctl := by
  have decodes := decoded_intake (b := b) words code (s := s)
  obtain ⟨beam, img, ctl, -⟩ := intake_fields decodes
  obtain ⟨header, headed'⟩ := headerRx_beam (spelt_of_arrives came) going beam
  refine ⟨_, _, _, dataFlitRx_of_arrives came, rfl, flitCame_beam beam (spelt_of_arrives came), headed', ?_, ?_⟩
  · rw [header]
    exact img
  · rw [header]
    exact ctl

/-- The DATA flit that is expected is delivered (R241). -/
theorem dataFlitRx_next (came : flitArrives b (codeBytes code s.fresh raw) 1 f s) (open_ : (s.beam[b]).rx ≠ .uninit)
    (recent : swOlder (s.beam[b]).peerSw f.sw = false) (seq : f.seq = (s.beam[b]).next) (held : (s.beam[b]).held = [])
    (inbound : (s.beam[b]).inbound = []) (going : (s.beam[b]).waitNew = false) :
    (dataFlitRx b raw words code s).beam[b.val].inbound = [{ inFlit f with ahead := isTentative (s.beam[b]) (inFlit f) }] ∧
      (dataFlitRx b raw words code s).beam[b.val].next = (s.beam[b]).next + 1 ∧ (dataFlitRx b raw words code s).beam[b.val].rx = .run ∧
      (dataFlitRx b raw words code s).beam[b.val].counters[4] = (s.beam[b]).counters[4] + 1 ∧
      (dataFlitRx b raw words code s).beam[b.val].seen = (s.beam[b]).seen ∧ (dataFlitRx b raw words code s).ctl = s.ctl := by
  obtain ⟨u, v, k, handled, header, before, after, img, ctl⟩ := data_headed (words := words) came going
  have here : u.beam[b.val] = { s.beam[b.val] with rxWords := k, placeLost := false } := by rw [before, upd_val_self]
  have delivers : dataRxFlit b f u = onBeam b (deliverNext (inFlit f)) v := by
    simp only [Fin.getElem_fin] at open_ recent seq
    simp [dataRxFlit, here, recent, open_, seq, header]
  obtain ⟨inbound₀, next₀, held₀, -, counters₀, seen₀, tentative₀⟩ := received_same f k s.beam[b.val] (inFlit f)
  obtain ⟨inbound', next', rx', counter', seen'⟩ := deliverNext_alone (q := received f k s.beam[b.val]) (o := inFlit f)
    (held₀.trans held) (inbound₀.trans inbound)
  rw [tentative₀] at inbound'
  rw [next₀] at next'
  rw [counters₀] at counter'
  rw [seen₀] at seen'
  have ends : (dataFlitRx b raw words code s).beam[b.val] = deliverNext (inFlit f) (received f k s.beam[b.val]) := by
    rw [handled, delivers, onBeam, upd_val_self, after, upd_val_self]
  refine ⟨?_, ?_, ?_, ?_, ?_, by rw [handled, delivers]; exact ctl⟩ <;> simp only [ends]
  exacts [inbound', next', rx', counter', seen']

theorem sendNaks_kept (ns : List (BitVec 16)) : ∃ ctl counters, (sendNaks b ns s).beam[b.val] =
    { s.beam[b.val] with naked := s.beam[b.val].naked ++ ns, ctl := ctl, counters := counters } := by
  have pushed (l : List (List (BitVec 16))) : ∃ ctl, (l.foldl (fun t g =>
      pushCtl b 2 (leBytes 2 g.length ++ g.flatMap fun n => leBytes 2 n.toNat) t) s).beam[b.val] = { s.beam[b.val] with ctl := ctl } :=
    List.foldlRecOn (motive := fun t : State => ∃ ctl, t.beam[b.val] = { s.beam[b.val] with ctl := ctl }) _ _ ⟨_, rfl⟩
      fun t ⟨ctl, same⟩ g _ => ⟨_, by rw [pushCtl, onBeam, upd_val_self, same]⟩
  unfold sendNaks
  split
  next none_ =>
    subst none_
    exact ⟨_, _, by rw [List.append_nil]⟩
  next =>
    obtain ⟨ctl, same⟩ := pushed (chunksOf 64 ((ns.length + 63) / 64) ns)
    refine ⟨ctl, upd s.beam[b.val].counters 6 (· + BitVec.ofNat 64 ns.length), ?_⟩
    simp only [beamCount, onBeam, upd_val_self, same]

/-- A DATA flit ahead of the expected one is held, and the gap named (R241). -/
theorem dataFlitRx_gap (came : flitArrives b (codeBytes code s.fresh raw) 1 f s) (open_ : (s.beam[b]).rx ≠ .uninit)
    (recent : swOlder (s.beam[b]).peerSw f.sw = false) (ahead : f.seq ≠ (s.beam[b]).next) (near : (f.seq - (s.beam[b]).next).toNat < 1024)
    (anew : ∀ e ∈ (s.beam[b]).held, e.1 ≠ f.seq) (room : reorderUse s (portOf s b) < 1024) (going : (s.beam[b]).waitNew = false) :
    ∃ q, (dataFlitRx b raw words code s).beam[b.val] = q ∧ q.held = (s.beam[b]).held ++ [(f.seq, inFlit f)] ∧ q.rx = .gap ∧
      q.next = (s.beam[b]).next ∧ q.inbound = (s.beam[b]).inbound ∧ q.naked = (s.beam[b]).naked ++ missing (s.beam[b]) f.seq := by
  obtain ⟨u, v, k, handled, header, before, after, img, ctl⟩ := data_headed (words := words) came going
  have here : u.beam[b.val] = { s.beam[b.val] with rxWords := k, placeLost := false } := by rw [before, upd_val_self]
  have gap : (f.seq - s.beam[b.val].next).toNat ≠ 0 := fun same =>
    ahead (sub_eq_zero.1 (BitVec.eq_of_toNat_eq same))
  have holds : dataRxFlit b f u = aheadRx b f v := by
    simp only [Fin.getElem_fin] at open_ recent near
    simp only [dataRxFlit, Fin.getElem_fin, here, recent, open_, header, gap, near, Bool.false_eq_true, if_false, if_true]
  obtain ⟨inbound₀, next₀, held₀, naked₀, counters₀, seen₀, -⟩ := received_same f k s.beam[b.val] (inFlit f)
  have absent : ((v.beam[b]).held.any fun e => e.1 == f.seq) = false := by
    rw [after, Fin.getElem_fin, upd_val_self, held₀]
    simpa using anew
  have kept (c : Beam) : v.beam[c.val].held = s.beam[c.val].held := by
    rw [after]
    by_cases here : c = b
    · subst here
      rw [upd_val_self, held₀]
    · rw [upd_val_of_ne _ _ here]
  have free : ¬1024 ≤ reorderUse v (portOf v b) := by
    have same : reorderUse v (portOf v b) = reorderUse s (portOf s b) := by
      simp only [reorderUse, portOf, beamRec, img, Fin.getElem_fin, kept]
      rfl
    rw [same]
    exact not_le.2 room
  have named : missing v.beam[b.val] f.seq = missing s.beam[b.val] f.seq := by
    rw [after, upd_val_self]
    simp only [missing, next₀, held₀, naked₀]
  have ends : aheadRx b f v = sendNaks b (missing v.beam[b.val] f.seq)
      (onBeam b (fun q => { q with held := q.held ++ [(f.seq, inFlit f)], rx := .gap }) v) := by
    simp only [aheadRx, absent, free, Bool.false_eq_true, if_false]
    rfl
  obtain ⟨ctl, counters, sent⟩ := sendNaks_kept (s := onBeam b (fun q => { q with held := q.held ++ [(f.seq, inFlit f)], rx := .gap }) v) (b := b)
    (missing v.beam[b.val] f.seq)
  have waits : (onBeam b (fun q => { q with held := q.held ++ [(f.seq, inFlit f)], rx := .gap }) v).beam[b.val] =
      { received f k s.beam[b.val] with held := (received f k s.beam[b.val]).held ++ [(f.seq, inFlit f)], rx := .gap } := by
    rw [onBeam, upd_val_self, after, upd_val_self]
  rw [waits] at sent
  refine ⟨_, (congrArg (fun t : State => t.beam[b.val]) (handled.trans (holds.trans ends))).trans sent, congrArg (· ++ _) held₀, rfl, next₀,
    inbound₀, ?_⟩
  exact congrArg₂ (· ++ ·) naked₀ named

/-- A DATA flit that fails its check is counted (R235, R268). -/
theorem dataFlitRx_spoilt (lit : beamLit (s.beam[b]) = true) (spoilt : flitOf (rebuilt s b (codeBytes code s.fresh raw)) = none) :
    ∃ k, (dataFlitRx b raw words code s).beam[b.val] = { s.beam[b.val] with
      rxWords := k
      counters := upd s.beam[b.val].counters 5 (· + BitVec.ofNat 64 1) } := by
  obtain ⟨beam, -, -, -⟩ := intake_fields (decoded_intake (b := b) words code (s := s))
  have came : (flitCame b (codeBytes code s.fresh raw) (decoded b words code s)).beam[b.val] =
      { s.beam[b.val] with rxWords := flitStart s b (codeBytes code s.fresh raw) + 32 } := by
    obtain ⟨same, start⟩ := rebuilt_of_beam (b := b) beam (codeBytes code s.fresh raw)
    show (upd (decoded b words code s).beam b _)[b.val] = _
    rw [upd_val_self, same, start, spoilt, beam, Option.isNone_none, Bool.and_true]
  have spoilt' (u : State) (same : u.beam = s.beam) : flitOf (rebuilt u b (codeBytes code s.fresh raw)) = none := by
    rw [(rebuilt_of_beam same _).1]
    exact spoilt
  have fails : dataFlitRx b raw words code s = beamCount b 5 1 (flitCame b (codeBytes code s.fresh raw) (decoded b words code s)) ∨
      dataFlitRx b raw words code s = flitFailed b (flitCame b (codeBytes code s.fresh raw) (decoded b words code s)) := by
    have lit' : beamLit ((decoded b words code s).beam[b]) = true := by rw [beam]; exact lit
    have looked : flitRx b (codeBytes code s.fresh raw) 1 (dataRxFlit b) (decoded b words code s) =
        flitFailed b (flitCame b (codeBytes code s.fresh raw) (decoded b words code s)) := by
      rw [flitRx, if_neg (by rw [lit']; decide), spoilt' _ beam, ite_self]
      rfl
    rw [dataFlitRx, if_neg (by rw [lit]; decide)]
    dsimp only
    split
    · exact .inl rfl
    · exact .inr looked
  refine ⟨flitStart s b (codeBytes code s.fresh raw) + 32, ?_⟩
  obtain fails | fails := fails
  · rw [fails, beamCount, onBeam, upd_val_self, came]
  · rw [fails, flitFailed, logEvent_beam, beamCount, onBeam, upd_val_self, came]

end

section
variable {s : State} {b : Beam}

/-- An INIT starts the receiver and is answered (Tables 8.6, 8.7). -/
def initReply (b : Beam) (body : List Byte) (s : State) : State :=
  let adv : Vector Nat 4 := vmk 4 fun i => leNat ((body.drop (2 * i.val)).take 2)
  let s1 := onBeam b (fun q => { q with
    initSeen := true
    initAcked := q.initAcked || (byteAt body 8).getLsbD 0
    rx := if q.rx = .uninit then .run else q.rx
    next := if q.rx = .uninit then 0 else q.next
    advertised := if q.tx = .init then adv else q.advertised }) s
  pushCtl b 6 (initPayload s1 b true) s1

theorem initReply_kept {body : List Byte} (answers : (byteAt body 8).getLsbD 0 = true) : ∃ ctl advertised,
    (initReply b body s).beam[b.val] = { s.beam[b.val] with
      initSeen := true
      initAcked := true
      rx := if s.beam[b.val].rx = .uninit then .run else s.beam[b.val].rx
      next := if s.beam[b.val].rx = .uninit then 0 else s.beam[b.val].next
      advertised := advertised
      ctl := ctl } ∧ ctl.length = s.beam[b.val].ctl.length + 1 := by
  refine ⟨(initReply b body s).beam[b.val].ctl, (initReply b body s).beam[b.val].advertised, ?_, ?_⟩
  · simp only [initReply, pushCtl, onBeam, upd_val_self, answers, Bool.or_true]
  · simp only [initReply, pushCtl, onBeam, upd_val_self, List.length_append, List.length_singleton]

/-- The end of the initialisation of a transmitter (R214, Table 8.6). -/
theorem initDone_kept (b : Beam) (s : State) : ∃ state tx waitNew newSeen, (initDone b s).beam[b.val] =
      { s.beam[b.val] with state := state, tx := tx, waitNew := waitNew, newSeen := newSeen } ∧
    if switchDone s b ∧ s.beam[b.val].peerSw = BitVec.ofNat 4 s.beam[b.val].swcount then
      tx = .run ∧ (s.beam[b.val].retrain = none → state = 3 ∨ state = 5)
    else tx = .paused ∧ waitNew = true ∧ state = 4 := by
  have same : (switchDone s b && s.beam[b.val].peerSw == BitVec.ofNat 4 s.beam[b.val].swcount) = true ↔
      switchDone s b ∧ s.beam[b.val].peerSw = BitVec.ofNat 4 s.beam[b.val].swcount := by simp
  unfold initDone
  dsimp only [Fin.getElem_fin]
  by_cases met : switchDone s b ∧ s.beam[b.val].peerSw = BitVec.ofNat 4 s.beam[b.val].swcount
  · rw [if_pos (same.2 met)]
    simp only [if_pos met, beamOpen, onBeam, upd_val_self]
    refine ⟨_, .run, _, _, rfl, rfl, fun steady => ?_⟩
    rw [steady]
    simp only [Option.isSome_none, Bool.false_eq_true, if_false]
    exact ite_eq_or_eq ..
  · rw [if_neg (mt same.1 met)]
    simp only [if_neg met, onBeam, upd_val_self]
    exact ⟨_, _, _, _, rfl, rfl, rfl, rfl⟩

theorem initMsg_of_init {body : List Byte} (starts : s.beam[b.val].tx = .init) (answers : (byteAt body 8).getLsbD 0 = true) :
    initMsg b body s = initDone b (initReply b body s) := by
  exact if_pos ⟨starts, answers⟩

theorem initReply_switchDone (body : List Byte) : switchDone (initReply b body s) b = switchDone s b := rfl

theorem foreignFlit_counts (few : s.pln.foreign ≠ BitVec.allOnes 32) : (foreignFlit s).pln.foreign = s.pln.foreign + 1 := by
  simp only [foreignFlit, if_neg few, flag, eventBit, logEvent_pln]
  rfl

end

/-- Settles O32: each arrival is brought to the beam's record, which the header changes as `received_kept` says and the payload as its own lemma. -/
theorem linkReceivesFlits : Obligations.LinkReceivesFlits := by
  unfold Obligations.LinkReceivesFlits
  simp only [Fin.getElem_fin]
  refine ⟨fun b raw words code f s came open_ old plain seq held inbound going seen => ⟨_, run_of_running _ s came.1, ?next⟩,
    fun b raw words code f s came open_ old ahead near fresh room inbound going => ⟨_, run_of_running _ s came.1, ?gap⟩,
    fun b raw words code s hs lit spoilt inbound => ⟨_, run_of_running _ s hs, ?spoilt⟩,
    fun b raw f s hs lit spelt right other few => ⟨_, run_of_running _ s hs, ?other⟩,
    fun b raw f s came going => ⟨_, run_of_running _ s came.1, ?idle⟩,
    fun b raw f s came going => ⟨_, run_of_running _ s came.1, ?switch⟩,
    fun b raw f n s came going one names none_ covers waits => ⟨_, run_of_running _ s came.1, ?nak⟩,
    fun b raw f s came starts answers going => ⟨_, run_of_running _ s came.1, ?init⟩⟩
  case next =>
    rw [irqSettle_beam]
    obtain ⟨inbound', next', rx', counter', seen', ctl⟩ := dataFlitRx_next (words := words) came open_ old seq held inbound going
    have kept : dataFlitMeaning b raw words code s = dataFlitRx b raw words code s := by
      refine drainBeam_of_record inbound' ?_ (by rw [seen', ctl]; exact seen)
      simp [inFlit, plain]
    rw [kept]
    exact ⟨inbound', next', rx', counter'⟩
  case gap =>
    rw [irqSettle_beam]
    obtain ⟨q, ends, held', rx', next', inbound', naked'⟩ := dataFlitRx_gap (words := words) came open_ old ahead near fresh room going
    have empty : q.inbound = [] := inbound'.trans inbound
    obtain ⟨given, part, seen, drained⟩ := drainBeam_of_empty (b := b) (s := dataFlitRx b raw words code s) (by rw [ends]; exact empty)
    have kept : (dataFlitMeaning b raw words code s).beam[b.val] = { q with given := given, part := part, seen := seen } := by
      rw [← ends]
      exact drained
    rw [kept]
    simp only [Fin.getElem_fin] at naked'
    exact ⟨held', rx', next', empty, fun named none_ => by rw [naked', named, List.nil_append]⟩
  case spoilt =>
    rw [irqSettle_beam]
    obtain ⟨k, failed⟩ := dataFlitRx_spoilt (words := words) lit spoilt
    obtain ⟨given, part, seen, drained⟩ := drainBeam_of_empty (b := b) (s := dataFlitRx b raw words code s) (by rw [failed]; exact inbound)
    rw [failed] at drained
    have kept : (dataFlitMeaning b raw words code s).beam[b.val] = _ := drained
    simp only [kept]
    exact ⟨upd_val_self .., inbound, trivial, trivial⟩
  case other =>
    rw [irqSettle_beam, irqSettle_pln, ctlRx_of_foreign lit spelt right other]
    have beam := flitCame_beam (t := s) rfl spelt
    refine ⟨?_, ?_, fun c ne => ?_⟩
    · exact foreignFlit_counts few
    · rw [foreignFlit, flag_beam, beam, upd_val_self]
    · rw [foreignFlit, flag_beam, beam, upd_val_of_ne _ _ ne]
  case idle =>
    rw [irqSettle_beam, ctlRx_beam came going]
    obtain ⟨newSeen, acked, expiries, resend, returned, tx, kept, -, -⟩ := received_kept f (flitStart s b raw + 32) s.beam[b.val]
    rw [upd_val_self, kept]
    exact ⟨rfl, rfl, rfl, fun c ne => upd_val_of_ne _ _ ne⟩
  case switch =>
    rw [irqSettle_beam, ctlRx_beam came going]
    obtain ⟨newSeen, acked, expiries, resend, returned, tx, kept, -, -⟩ := received_kept f (flitStart s b raw + 32) s.beam[b.val]
    rw [upd_val_self, kept]
    exact ⟨rfl, rfl⟩
  case nak =>
    rw [irqSettle_beam, ctlRx_of_arrives came]
    obtain ⟨newSeen, acked, expiries, resend, returned, tx, kept, -, keeps⟩ := received_kept f (flitStart s b raw + 32) s.beam[b.val]
    have header := (headerRx_beam (spelt_of_arrives came) going (t := s) rfl).2
    have beam : (headerRx b f (flitCame b raw s)).beam[b.val] = received f (flitStart s b raw + 32) s.beam[b.val] := by rw [header, upd_val_self]
    rw [keeps covers, covers] at kept
    rw [kept] at beam
    obtain ⟨again, waits'⟩ := nakMsg_one (s := headerRx b f (flitCame b raw s)) one names (by rw [beam]; exact none_) (by rw [beam]; exact waits)
    exact ⟨again, waits'.trans (by rw [beam]; rfl)⟩
  case init =>
    rw [irqSettle_beam, ctlRx_of_arrives came]
    have headed' := headerRx_beam (spelt_of_arrives came) going (t := s) rfl
    obtain ⟨newSeen, acked, expiries, resend, returned, tx, kept, still, -⟩ := received_kept f (flitStart s b raw + 32) s.beam[b.val]
    rw [still (by rw [starts]; decide), starts] at kept
    have beam : (headerRx b f (flitCame b raw s)).beam[b.val] = received f (flitStart s b raw + 32) s.beam[b.val] := by rw [headed'.2, upd_val_self]
    rw [kept] at beam
    have switch : switchDone (headerRx b f (flitCame b raw s)) b = switchDone s b := by
      rw [headed'.1]
      exact congrArg (List.all · fun e => !(e.running && decide (b ∈ e.beams))) (trimsApply_switchQ (portOf s b))
    obtain ⟨ctl, advertised, reply, length⟩ := initReply_kept (s := headerRx b f (flitCame b raw s)) (b := b) answers
    obtain ⟨state, tx', waitNew, newSeen', ends, met⟩ := initDone_kept b (initReply b f.body (headerRx b f (flitCame b raw s)))
    rw [initReply_switchDone, switch] at met
    rw [reply, beam] at ends met
    rw [beam] at length
    rw [initMsg_of_init (by rw [beam]) answers, ends]
    exact ⟨rfl, rfl, length, fun closed => ⟨if_pos closed, if_pos closed⟩, met⟩

end Sys2Proof.Machine
end

section
/-!
PROOFS. The retrain of a beam (R264 to R266).
-/

-- In sequence: each worker of the elaborator takes its stack from the memory that a check may use.
set_option Elab.async false

namespace Sys2Proof.Machine

section
variable {s t : State} {b : Beam} {p : Port} {raw : List Byte} {f : Flit}

/-- Beams, image and sequencer: what the lines of a port do not touch. -/
def offLine (s : State) : Vector BeamSt 256 × Load × Ctl := (s.beam, s.img, s.ctl)

theorem offLine_fields (h : offLine t = offLine s) : t.beam = s.beam ∧ t.img = s.img ∧ t.ctl = s.ctl := by
  simpa only [offLine, Prod.mk.injEq] using h

theorem flag_offLine (k i n : ℕ) : offLine (flag k i n s) = offLine s := by simp [offLine]

theorem learnPeer_offLine (m : LineSet) : offLine (learnPeer b m s) = offLine s := by
  unfold learnPeer
  split <;> rfl

theorem joinLines_offLine (old new : LineSet) : offLine (joinLines b old new s) = offLine s := by
  refine foldl_kept offLine _ _ _ fun t n => ?_
  dsimp only
  split
  · rfl
  · rw [flag_offLine]
    rfl

theorem freeSubs_offLine (m : LineSet × LineSet) : offLine (freeSubs b m s) = offLine s := rfl

theorem leaveLines_offLine (m : LineSet) : offLine (leaveLines p m s) = offLine s := rfl

/-- Go takes effect on a beam with a line in each direction (R266). -/
theorem goApply_kept {number : BitVec 8} {m : LineSet × LineSet} (tx : m.1 ≠ 0) (rx : m.2 ≠ 0) :
    (goApply b number m s).beam[b.val] = { s.beam[b.val] with
      txMask := m.1
      rxMask := m.2
      placeLost := true
      tx := if timersRun s.beam[b.val] then .paused else s.beam[b.val].tx
      state := if s.beam[b.val].waitNew then 4 else 2
      retrain := some { number := number, wantTx := m.1, wantRx := m.2, requesting := false, going := true }
      counters := upd s.beam[b.val].counters 14 (· + BitVec.ofNat 64 1) } ∧
      (goApply b number m s).img = s.img ∧ (goApply b number m s).ctl = s.ctl := by
  have lines : offLine (freeSubs b m (leaveLines (portOf s b) ((s.beam[b]).rxMask &&& ~~~ m.2) (joinLines b (s.beam[b]).rxMask m.2 s))) = offLine s :=
    joinLines_offLine ..
  obtain ⟨beam, img, ctl⟩ := offLine_fields lines
  unfold goApply
  rw [if_neg (by simp only [tx, rx, or_self, not_false_eq_true])]
  simp only [logEvent_beam, logEvent_img, logEvent_ctl, setEv_beam, setEv_img, setEv_ctl, beamCount, onBeam, upd_val_self, beam, img, ctl]
  exact ⟨rfl, trivial, trivial⟩

/-- What the masks of a beam rest on at its port. -/
def portMasks (q : PortSt) : Option (BitVec 16 × PlanBlock) × LineSet × LineSet × LineSet × Vector (Option Subst) 4 × List Subst ×
    Vector (BitVec 2) 35 := (q.block, q.dimmed, q.partnerOk, q.lineOk, q.sub, q.needs, q.line.map (·.out))

/-- A beam with its masks in two states that differ in what its masks do not rest on. -/
def SameMasks (b : Beam) (t s : State) : Prop :=
  t.img = s.img ∧ (∀ p : Port, portMasks t.port[p.val] = portMasks s.port[p.val]) ∧ t.beam[b.val].retrain = s.beam[b.val].retrain ∧
    t.beam[b.val].txMask = s.beam[b.val].txMask ∧ t.beam[b.val].rxMask = s.beam[b.val].rxMask

theorem learnPeer_sameMasks (h : SameMasks b t s) (m : LineSet) : SameMasks b (learnPeer b m t) (learnPeer b m s) := by
  obtain ⟨img, port, retrain, tx, rx⟩ := h
  obtain ⟨beamT, imgT, -⟩ := offLine_fields (learnPeer_offLine (s := t) (b := b) m)
  obtain ⟨beamS, imgS, -⟩ := offLine_fields (learnPeer_offLine (s := s) (b := b) m)
  have at_ : portOf t b = portOf s b := by simp only [portOf, beamRec, img]
  refine ⟨by rw [imgT, imgS, img], fun p => ?_, by rw [beamT, beamS, retrain], by rw [beamT, beamS, tx], by rw [beamT, beamS, rx]⟩
  have fields := port (portOf s b)
  simp only [portMasks, Prod.mk.injEq] at fields
  obtain ⟨block, dimmed, partner, lineOk, sub, needs, out⟩ := fields
  have entry : planEntry t b = planEntry s b := by simp only [planEntry, at_, Fin.getElem_fin, block]
  unfold learnPeer
  rw [entry, at_]
  rcases planEntry s b with _ | e
  · exact port p
  · by_cases here : p = portOf s b
    · subst here
      simp only [portMasks, onPort, upd_val_self, askedTx, Fin.getElem_fin, block, dimmed, partner, lineOk, sub, needs, out, retrain, tx]
    · simp only [onPort, upd_val_of_ne _ _ here, port p]

theorem ownMasks_of_sameMasks (h : SameMasks b t s) (peer : LineSet × LineSet) : ownMasks t b peer = ownMasks s b peer := by
  obtain ⟨img, port, retrain, tx, rx⟩ := h
  have fields := port (portOf s b)
  simp only [portMasks, Prod.mk.injEq] at fields
  obtain ⟨block, dimmed, partner, lineOk, sub, needs, out⟩ := fields
  have at_ : portOf t b = portOf s b := by simp only [portOf, beamRec, img]
  have order (d : ℕ) : inOrder t.port[(portOf s b).val] d = inOrder s.port[(portOf s b).val] d := by
    have line (n : Line) : t.port[(portOf s b).val].line[n.val].out = s.port[(portOf s b).val].line[n.val].out := by
      have same := congrArg (·[n.val]) out
      simpa only [Vector.getElem_map] using same
    simp only [inOrder, Fin.getElem_fin, line]
  have covered (d : Bool) : coveredLines t.port[(portOf s b).val] d = coveredLines s.port[(portOf s b).val] d := by
    simp only [coveredLines, Fin.getElem_fin, sub, needs]
  have want : wantMasks t b = wantMasks s b := by
    simp only [wantMasks, planEntry, at_, Fin.getElem_fin, block, dimmed, partner, lineOk, order, covered]
  simp only [ownMasks, Fin.getElem_fin, want, retrain, tx, rx]

theorem trimsApply_portMasks (p : Port) : portMasks (trimsApply b s).port[p.val] = portMasks s.port[p.val] := by
  by_cases here : portOf s b = p
  · subst here
    have out (l : Vector LineSt 35) (m : LineSet) : (vmk 35 fun n : Fin 35 => if m.getLsbD n.val then
        { l[n] with threshold := l[n].threshold + l[n].trim, trim := 0 } else l[n]).map (·.out) = l.map (·.out) := by
      refine Vector.ext fun k within => ?_
      simp only [Vector.getElem_map, vmk_at _ within]
      split <;> rfl
    simp only [portMasks, trimsApply, onPort, upd_val_self, out]
  · simp only [trimsApply, onPort, upd_val_of_ne _ _ (Ne.symm here)]

/-- A control flit that comes whole on each line: its header has its effect, and its masks are judged as they stood. -/
theorem wholeRx_of_arrives {k : Flit → State → State} {typ : BitVec 4} (came : wholeArrives b raw typ f s) :
    wholeRx b raw typ k s = k f (trimsApply b s) := by
  obtain ⟨-, lit, spelt, right, place, beam, type⟩ := came
  have from_ : ¬(f.place ≠ (beamRec (trimsApply b s) b).peerPlace ∨ f.beam ≠ (beamRec (trimsApply b s) b).peerBeam) := by
    show ¬(f.place ≠ (beamRec s b).peerPlace ∨ f.beam ≠ (beamRec s b).peerBeam)
    rw [place, beam]
    simp
  rw [wholeRx, if_neg (by rw [lit]; decide), if_neg right, spelt]
  simp only [flitTaken, if_neg from_, type, if_true]

theorem headerRx_sameMasks (going : (t.beam[b]).waitNew = false) (same : SameMasks b t s) : SameMasks b (headerRx b f t) s := by
  obtain ⟨img, port, retrain, tx, rx⟩ := same
  obtain ⟨newSeen, acked, expiries, resend, returned, tx', kept, -, -⟩ := headed_kept f t.beam[b.val]
  rw [headerRx_of_going going]
  refine ⟨img, port, ?_, ?_, ?_⟩ <;> rw [onBeam, upd_val_self, kept]
  exacts [retrain, tx, rx]

theorem leads_of_img (img : t.img = s.img) (n : ℕ) : leads t b n = leads s b n := by
  have rec_ : beamRec t b = beamRec s b := by simp only [beamRec, img]
  have place : ownPlace t = ownPlace s := by simp only [ownPlace, img]
  have port : portOf t b = portOf s b := by simp only [portOf, rec_]
  unfold leads
  rw [rec_, place, port]

/-- The masks on which the leader answers a request (R265). -/
def mergedMasks (b : Beam) (body : List Byte) (s : State) : LineSet × LineSet :=
  let own := ownMasks (learnPeer b (maskAt body 7) s) b (maskAt body 7, maskAt body 2)
  (mergeMask own.1 (maskAt body 7), mergeMask own.2 (maskAt body 2))

/-- A request that the leader answers: it goes on the merged masks (R265). -/
theorem requestMsg_of_leader {body : List Byte} (init : (s.beam[b]).tx ≠ .init) (leader : leads s b (byteAt body 15).toNat = true)
    (idle : (s.beam[b]).retrain = none) : requestMsg b body s = goApply b (byteAt body 1) (mergedMasks b body s)
      (pushCtl b 5 (retrainPayload (learnPeer b (maskAt body 7) s) b 1 (byteAt body 1) (mergedMasks b body s)) (learnPeer b (maskAt body 7) s)) := by
  obtain ⟨beam, img, -⟩ := offLine_fields (learnPeer_offLine (s := s) (b := b) (maskAt body 7))
  have leader' : leads (learnPeer b (maskAt body 7) s) b (byteAt body 15).toNat = true := by
    rw [leads_of_img img]
    exact leader
  have init' : ¬((learnPeer b (maskAt body 7) s).beam[b]).tx = .init := by rw [beam]; exact init
  have still : ¬retrainGoes ((learnPeer b (maskAt body 7) s).beam[b]) = true := by
    rw [beam, retrainGoes, idle]
    decide
  unfold requestMsg
  dsimp only
  rw [if_neg init', if_pos leader', if_neg still]
  rfl

/-- A go that a beam takes (R266). -/
theorem goMsg_of_idle {body : List Byte} (init : (s.beam[b]).tx ≠ .init) (idle : (s.beam[b]).retrain = none) :
    goMsg b body s = goApply b (byteAt body 1) (maskAt body 7, maskAt body 2) (learnPeer b (maskAt body 7) s) := by
  refine if_neg ?_
  rintro (starts | goes)
  · exact init starts
  · rw [retrainGoes, idle] at goes
    exact absurd goes (by decide)

theorem requestResend_ctl {r : Retrain} (open_ : (s.beam[b]).retrain = some r) (asks : r.requesting = true) :
    (requestResend b s).beam[b.val] = { s.beam[b.val] with
      ctl := s.beam[b.val].ctl ++ [⟨5, retrainPayload s b 0 r.number (r.wantTx, r.wantRx)⟩] } := by
  simp only [requestResend, open_, asks, if_true, pushCtl, onBeam, upd_val_self]

/-- A held switch that goes on pauses its beams. -/
theorem heldSwitch_kept (p : Port) (s : State) (b : Beam) : (∃ tx, (heldSwitch p s).beam[b.val] = { s.beam[b.val] with tx := tx }) ∧
    (heldSwitch p s).img = s.img ∧ (heldSwitch p s).ctl = s.ctl := by
  have paused (l : List Beam) (s : State) : (∃ tx, (l.foldl (fun t b => onBeam b (fun q =>
      { q with tx := if timersRun q then .paused else q.tx }) t) s).beam[b.val] = { s.beam[b.val] with tx := tx }) :=
    List.foldlRecOn (motive := fun t : State => ∃ tx, t.beam[b.val] = { s.beam[b.val] with tx := tx }) _ _ ⟨_, rfl⟩ fun t ⟨tx, same⟩ c _ => by
      by_cases here : b = c
      · subst here
        exact ⟨_, by rw [onBeam, upd_val_self, same]⟩
      · exact ⟨tx, by rw [onBeam, upd_val_of_ne _ _ here, same]⟩
  unfold heldSwitch
  split
  next e _ =>
    split
    · exact ⟨⟨_, rfl⟩, rfl, rfl⟩
    · refine ⟨?_, foldl_kept State.img _ _ _ fun _ _ => rfl, foldl_kept State.ctl _ _ _ fun _ _ => rfl⟩
      exact paused e.beams (onPort p (setStage e.serial .arrived) s)
  next => exact ⟨⟨_, rfl⟩, rfl, rfl⟩

theorem heldSwitch_of_none (none_ : ∀ e ∈ s.port[p.val].switchQ, e.stage ≠ .held) : heldSwitch p s = s := by
  have absent : (s.port[p]).switchQ.find? (fun e => e.stage == .held) = none := by simpa using none_
  rw [heldSwitch, absent]

theorem retrainEnds_of_waiting {r : Retrain} (open_ : s.beam[b.val].retrain = some r) (waits : r.peerReady = false) : retrainEnds b s = s := by
  simp [retrainEnds, open_, waits]

/-- This end is aligned, and its peer has not said so yet: it says ready (R266). -/
theorem deskewDone_kept {r : Retrain} (open_ : (s.beam[b]).retrain = some r) (going : r.going = true) (fresh : r.aligned = false)
    (waits : r.peerReady = false) : (deskewDone b s).beam[b.val] = { s.beam[b.val] with
      retrain := some { r with aligned := true }
      ctl := s.beam[b.val].ctl ++ [⟨5, retrainPayload s b 2 r.number (s.beam[b.val].txMask, s.beam[b.val].rxMask)⟩] } := by
  unfold deskewDone
  rw [open_]
  dsimp only
  rw [if_pos ⟨going, fresh⟩, retrainEnds_of_waiting (r := { r with aligned := true }) (by simp only [pushCtl, onBeam, upd_val_self]) waits]
  simp only [pushCtl, onBeam, upd_val_self, Fin.getElem_fin]

/-- The peer is ready too: the beam resumes and resends what is not acknowledged (R266, Table 8.6). -/
theorem readyMsg_kept {body : List Byte} {r : Retrain} (kind : byteAt body 0 = 2) (open_ : s.beam[b.val].retrain = some r)
    (going : r.going = true) (aligned : r.aligned = true) (once : s.beam[b.val].again = none) (steady : s.beam[b.val].waitNew = false) :
    ∃ state, (readyMsg b body s).beam[b.val] = { s.beam[b.val] with
      retrain := none
      again := none
      tx := .run
      resend := s.beam[b.val].unacked.map (·.1)
      expiries := 0
      waitNew := false
      newSeen := false
      state := state } ∧ (state = 3 ∨ state = 5) ∧ (readyMsg b body s).port = s.port := by
  have ends : readyMsg b body s = resume b (onBeam b (fun q => { q with retrain := none, again := none })
      (onBeam b (fun q => { q with retrain := some { r with peerReady := true } }) s)) := by
    simp [readyMsg, kind, open_, going, retrainEnds, onBeam, upd_val_self, aligned, once, steady]
  rw [ends]
  refine ⟨(resume b (onBeam b (fun q => { q with retrain := none, again := none })
      (onBeam b (fun q => { q with retrain := some { r with peerReady := true } }) s))).beam[b.val].state, ?_, ?_, rfl⟩
  · simp only [resume, beamOpen, onBeam, upd_val_self]
  · simp only [resume, beamOpen, onBeam, upd_val_self, Option.isSome_none, Bool.false_eq_true, if_false]
    exact ite_eq_or_eq ..

theorem creditOk_init {q : BeamSt} (starts : q.tx ≠ .init) : (creditOk q).tx ≠ .init := by
  unfold creditOk
  split
  · split
    · exact TxSt.noConfusion
    · exact starts
  · exact TxSt.noConfusion
  · exact starts

theorem headed_init {q : BeamSt} (starts : q.tx ≠ .init) : (headed f q).tx ≠ .init := by
  obtain ⟨acked, expiries, resend, ackd, -⟩ := ackRx_kept f.ack (countRx f.sw q)
  refine creditOk_init ?_
  rw [ackd]
  exact starts

theorem stopAfter_of_same (ctl : t.ctl = s.ctl) (img : t.img = s.img) : stopAfter s t = t := by
  rw [stopAfter, ctl, img]
  simp

/-- A request of a beam that the leader answers with go. -/
theorem request_goes (going : (s.beam[b]).waitNew = false) (starts : (s.beam[b]).tx ≠ .init)
    (leader : leads s b (byteAt f.body 15).toNat = true) (idle : (s.beam[b]).retrain = none) : ∃ u x, u.beam[b.val] = headed f s.beam[b.val] ∧
      u.img = s.img ∧ u.ctl = s.ctl ∧
      requestMsg b f.body (headerRx b f (trimsApply b s)) = goApply b (byteAt f.body 1) (mergedMasks b f.body s) (pushCtl b 5 x u) := by
  have header := headerRx_of_going (f := f) (s := trimsApply b s) (b := b) going
  have beam : (headerRx b f (trimsApply b s)).beam[b.val] = headed f s.beam[b.val] := by
    rw [header]
    exact upd_val_self ..
  have same := headerRx_sameMasks (f := f) (t := trimsApply b s) (b := b) (s := s) going ⟨rfl, trimsApply_portMasks, rfl, rfl, rfl⟩
  have own := ownMasks_of_sameMasks (learnPeer_sameMasks same (maskAt f.body 7)) (maskAt f.body 7, maskAt f.body 2)
  obtain ⟨beamL, imgL, ctlL⟩ := offLine_fields (learnPeer_offLine (s := headerRx b f (trimsApply b s)) (b := b) (maskAt f.body 7))
  have img : (headerRx b f (trimsApply b s)).img = s.img := by rw [header]; rfl
  have ctl : (headerRx b f (trimsApply b s)).ctl = s.ctl := by rw [header]; rfl
  have idle' : (headerRx b f (trimsApply b s)).beam[b.val].retrain = none := by
    obtain ⟨newSeen, acked, expiries, resend, returned, tx', kept, -, -⟩ := headed_kept f s.beam[b.val]
    rw [beam, kept]
    exact idle
  have merged : mergedMasks b f.body (headerRx b f (trimsApply b s)) = mergedMasks b f.body s := by
    simp only [mergedMasks, own]
  have goes := requestMsg_of_leader (body := f.body) (by rw [Fin.getElem_fin, beam]; exact headed_init starts)
    (by rw [leads_of_img img]; exact leader) idle'
  rw [merged] at goes
  exact ⟨_, _, by rw [beamL, beam], imgL.trans img, ctlL.trans ctl, goes⟩

end

/-- Settles O34: go leaves a beam as `goApply_kept` says, and the masks that it merges rest on nothing that the arrival of the flit touches. -/
theorem beamRetrains : Obligations.BeamRetrains := by
  unfold Obligations.BeamRetrains
  simp only [Fin.getElem_fin]
  refine ⟨fun b raw f s came going kind starts leader idle tx rx => ⟨_, run_of_running _ s came.1, ?request⟩,
    fun b r s hs open_ asks => ⟨_, run_of_running _ s hs, ?again⟩,
    fun b raw f s came going kind runs idle tx rx => ⟨_, run_of_running _ s came.1, ?go⟩,
    fun b r s hs open_ going fresh waits => ⟨_, run_of_running _ s hs, ?aligned⟩,
    fun b raw f r s came kind open_ going aligned once steady held => ⟨_, run_of_running _ s came.1, ?ready⟩,
    fun b r s hs open_ going whole quiet => ⟨_, run_of_running _ s hs, ?late⟩⟩ <;> rw [irqSettle_beam]
  case request =>
    obtain ⟨u, x, beam, img, ctl, goes⟩ := request_goes going starts leader idle
    obtain ⟨ends, img', ctl'⟩ := goApply_kept (b := b) (number := byteAt f.body 1) (m := mergedMasks b f.body s)
      (s := pushCtl b 5 x u) tx rx
    obtain ⟨newSeen, acked, expiries, resend, returned, tx', kept, -, -⟩ := headed_kept f s.beam[b.val]
    rw [stopping, wholeRx_of_arrives came]
    dsimp only
    rw [if_pos kind, goes, stopAfter_of_same (ctl'.trans ctl) (img'.trans img), ends]
    simp only [pushCtl, onBeam, upd_val_self, beam, kept, going, List.length_append, List.length_singleton]
    exact ⟨rfl, rfl, rfl, rfl, trivial⟩
  case again =>
    rw [requestResend_ctl open_ asks]
    exact ⟨rfl, open_⟩
  case go =>
    have header := headerRx_beam (spelt_of_arrives came) going (t := s) rfl
    obtain ⟨newSeen, acked, expiries, resend, returned, tx', kept, still, -⟩ := received_kept f (flitStart s b raw + 32) s.beam[b.val]
    rw [still (by rw [runs]; decide), runs] at kept
    have beam : (headerRx b f (flitCame b raw s)).beam[b.val] = received f (flitStart s b raw + 32) s.beam[b.val] := by rw [header.2, upd_val_self]
    rw [kept] at beam
    obtain ⟨beamL, imgL, ctlL⟩ := offLine_fields (learnPeer_offLine (s := headerRx b f (flitCame b raw s)) (b := b) (maskAt f.body 7))
    obtain ⟨ends, img', ctl'⟩ := goApply_kept (b := b) (number := byteAt f.body 1) (m := (maskAt f.body 7, maskAt f.body 2))
      (s := learnPeer b (maskAt f.body 7) (headerRx b f (flitCame b raw s))) tx rx
    rw [stopping, ctlRx_of_arrives came, if_pos kind, goMsg_of_idle (by rw [Fin.getElem_fin, beam]; exact TxSt.noConfusion)
      (by rw [Fin.getElem_fin, beam]; exact idle), stopAfter_of_same (ctl'.trans (ctlL.trans (by rw [header.1]; rfl)))
      (img'.trans (imgL.trans (by rw [header.1]; rfl))), ends, beamL, beam]
    simp only [going]
    exact ⟨rfl, rfl, trivial, trivial, rfl⟩
  case aligned =>
    obtain ⟨⟨tx, kept⟩, -, -⟩ := heldSwitch_kept (portOf s b) (deskewDone b s) b
    rw [kept, deskewDone_kept open_ going fresh waits]
    exact ⟨rfl, rfl⟩
  case ready =>
    have header := (headerRx_beam (spelt_of_arrives came) steady (t := s) rfl)
    obtain ⟨newSeen, acked, expiries, resend, returned, tx', kept, -, -⟩ := received_kept f (flitStart s b raw + 32) s.beam[b.val]
    have beam : (headerRx b f (flitCame b raw s)).beam[b.val] = received f (flitStart s b raw + 32) s.beam[b.val] := by rw [header.2, upd_val_self]
    rw [kept] at beam
    obtain ⟨state, ends, opens, port⟩ := readyMsg_kept (s := headerRx b f (flitCame b raw s)) kind (by rw [beam]; exact open_) going aligned
      (by rw [beam]; exact once) (by rw [beam]; exact steady)
    rw [ctlRx_of_arrives came, heldSwitch_of_none, ends, beam]
    · exact ⟨rfl, rfl, rfl, opens⟩
    · have queue (p : Port) : (readyMsg b f.body (headerRx b f (flitCame b raw s))).port[p.val].switchQ = s.port[p.val].switchQ := by
        rw [port, header.1]
        exact trimsApply_switchQ p
      have here : portOf (headerRx b f (flitCame b raw s)) b = portOf s b := by
        rw [header.1]
        rfl
      have held' (p : Port) (at_ : p = portOf s b) : ∀ e ∈ s.port[p.val].switchQ, e.stage ≠ .held := by
        subst at_
        exact held
      rw [queue]
      exact held' _ here
  case late =>
    have goes : retrainGoes s.beam[b.val] = true := by rw [retrainGoes, open_]; exact going
    obtain ⟨⟨tx, kept⟩, img, -⟩ := heldSwitch_kept (portOf s b) (breakBeam b s) b
    have ends : stopping (fun s => heldSwitch (portOf s b) (retrainExpires b s)) s = heldSwitch (portOf s b) (breakBeam b s) := by
      rw [stopping, retrainExpires, Fin.getElem_fin, if_pos goes]
      exact stopAfter_of_none s (by rw [img, breakBeam_img]; exact quiet)
    have broken := breakBeam_unqueued (b := b) whole
    rw [ends, kept]
    exact ⟨(congrArg BeamSt.state broken :), (congrArg BeamSt.retrain broken :)⟩

end Sys2Proof.Machine
end

section
/-!
PROOFS. The plan switch at a Port Engine (R213 to R218, Table 7.6).
-/

-- In sequence: each worker of the elaborator takes its stack from the memory that a check may use.
set_option Elab.async false

namespace Sys2Proof.Machine

section
variable {s t : State} {p : Port} {b : Beam} {r : BitVec 4} {raw : List Byte} {l : Line} {n k i j : ℕ} {c : Bool} {d : Fin 4} {o : Subst}

/-- The switches of the ports, their blocks, the plan in force and the image: what a switch at a port changes by its own steps alone. -/
def planned (s : State) : (Port → List PortSwitch × Option (BitVec 16 × PlanBlock)) × (BitVec 16 × BitVec 16 × BitVec 64 × ℕ) × Load :=
  (fun p => ((s.port[p.val]).switchQ, (s.port[p.val]).block), (s.pln.inForce, s.pln.previous, s.pln.switches, s.pln.shown), s.img)

theorem planned_fields (h : planned t = planned s) : (∀ p : Port, (t.port[p.val]).switchQ = (s.port[p.val]).switchQ ∧
    (t.port[p.val]).block = (s.port[p.val]).block) ∧ t.pln.inForce = s.pln.inForce ∧ t.pln.previous = s.pln.previous ∧
    t.pln.switches = s.pln.switches ∧ t.pln.shown = s.pln.shown ∧ t.img = s.img := by
  simp only [planned, Prod.mk.injEq] at h
  obtain ⟨port, ⟨force, previous, switches, shown⟩, img⟩ := h
  exact ⟨fun p => Prod.mk.inj (congrFun port p), force, previous, switches, shown, img⟩

@[simp] theorem planned_ite (x : Prop) [Decidable x] : planned (if x then s else t) = if x then planned s else planned t := apply_ite ..

@[simp] theorem onBeam_planned (g : BeamSt → BeamSt) : planned (onBeam b g s) = planned s := (rfl)

@[simp] theorem onPort_planned (g : PortSt → PortSt) (switchQ : ∀ q, (g q).switchQ = q.switchQ) (block : ∀ q, (g q).block = q.block) :
    planned (onPort p g s) = planned s := by
  have same (k : Port) : ((upd s.port p g)[k.val]).switchQ = (s.port[k.val]).switchQ ∧ ((upd s.port p g)[k.val]).block = (s.port[k.val]).block := by
    by_cases here : k = p
    · subst here
      rw [upd_val_self]
      exact ⟨switchQ _, block _⟩
    · rw [upd_val_of_ne _ _ here]
      exact ⟨rfl, rfl⟩
  simp only [planned, onPort, same]

@[simp] theorem onLine_planned (g : LineSt → LineSt) : planned (onLine p l g s) = planned s := onPort_planned _ (fun _ => rfl) fun _ => rfl

@[simp] theorem logEvent_planned : planned (logEvent n k i j s) = planned s := by simp [planned]

@[simp] theorem setEv_planned : planned (setEv n k i s) = planned s := by
  by_cases port : n = 8
  · subst port
    exact onPort_planned (p := fin! 64 k) _ (fun _ => rfl) fun _ => rfl
  by_cases broken : n = 9
  · subst broken
    rfl
  by_cases plan : n = 10
  · subst plan
    rfl
  · simp only [planned, setEv_port (h := port), setEv_pln (h0 := broken) (h1 := plan), setEv_img]

@[simp] theorem flag_planned : planned (flag n k i s) = planned s := by simp [flag, eventBit]

@[simp] theorem abortIf_planned : planned (abortIf c s) = planned s := by simp [planned]

@[simp] theorem eventBit_planned : planned (eventBit n k i j s) = planned s := by simp [eventBit]

@[simp] theorem breakBeam_planned : planned (breakBeam b s) = planned s := by simp [breakBeam]
@[simp] theorem beamOpen_planned : planned (beamOpen b s) = planned s := by simp [beamOpen]
@[simp] theorem pushCtl_planned : planned (pushCtl b r raw s) = planned s := by simp [pushCtl]
@[simp] theorem beamFirst_planned : planned (beamFirst b s) = planned s := by simp [beamFirst]
@[simp] theorem resume_planned : planned (resume b s) = planned s := by simp [resume]
@[simp] theorem tryResume_planned : planned (tryResume b s) = planned s := by simp [tryResume]
@[simp] theorem joinLines_planned (old new : LineSet) : planned (joinLines b old new s) = planned s := by
  refine foldl_kept planned _ _ _ fun t n => ?_
  dsimp only
  split
  · simp
  · rw [flag_planned]
    exact onLine_planned ..
@[simp] theorem leaveLines_planned (m : LineSet) : planned (leaveLines p m s) = planned s := by simp [leaveLines]
@[simp] theorem putRequest_planned (m : LineSet × LineSet) : planned (putRequest b m s) = planned s := by
  unfold putRequest; split <;> simp
@[simp] theorem askRetrain_planned : planned (askRetrain b s) = planned s := by simp [askRetrain]
@[simp] theorem setOut_planned : planned (setOut p l n c s) = planned s := by simp [setOut]
@[simp] theorem putSub_planned (u : Option Subst) : planned (putSub p d u s) = planned s := by simp [putSub]
@[simp] theorem subSend_planned : planned (subSend p n o c s) = planned s := by simp [subSend]
@[simp] theorem stopCal_planned : planned (stopCal p l c s) = planned s := by simp [stopCal]
@[simp] theorem takeSpare_planned : planned (takeSpare p d o s) = planned s := by simp [takeSpare]
@[simp] theorem withMarker_planned : planned (withMarker o s).2 = planned s := (rfl)
@[simp] theorem ownerGo_planned : planned (ownerGo p d o c s) = planned s := by unfold ownerGo; split <;> simp
@[simp] theorem widthCheck_planned : planned (widthCheck p s) = planned s := by simp [widthCheck]
@[simp] theorem serveNeeds_planned : planned (serveNeeds p d s) = planned s := by unfold serveNeeds; split <;> simp
@[simp] theorem subEnd_planned : planned (subEnd p d c s) = planned s := by unfold subEnd; split <;> simp
@[simp] theorem setShed_planned : planned (setShed p s) = planned s := foldl_kept planned _ _ _ fun _ _ => rfl
@[simp] theorem putDim_planned (d : LineSet) : planned (putDim p d s) = planned s := by
  have asked (t : State) (l : List PlanBeam) : planned (l.foldl (fun t e =>
      if (t.beam[e.beam]).retrain.isNone ∧ (wantMasks t e.beam).1 = (t.beam[e.beam]).txMask then t else askRetrain e.beam t) t) = planned t :=
    foldl_kept planned _ _ _ fun _ _ => by simp
  unfold putDim
  split
  · rfl
  · rw [asked]
    simp
@[simp] theorem portDim_planned : planned (portDim p s) = planned s := by simp [portDim]
@[simp] theorem pairDim_planned : planned (pairDim p s) = planned s := by simp [pairDim]
@[simp] theorem noteLocked_planned : planned (noteLocked b s) = planned s := by simp [noteLocked]
@[simp] theorem renewRequest_planned : planned (renewRequest b s) = planned s := by simp [renewRequest]
@[simp] theorem switchLines_planned : planned (switchLines b s) = planned s := by simp [switchLines]
@[simp] theorem switchBeam_planned (new : PlanBlock) : planned (switchBeam p new b s) = planned s := by
  unfold switchBeam; split <;> simp
@[simp] theorem dropSubs_planned (new : PlanBlock) : planned (dropSubs p new s) = planned s := by
  unfold dropSubs
  refine (foldl_kept planned _ _ _ fun u i => ?_).trans (onPort_planned _ (fun _ => rfl) fun _ => rfl)
  split
  · split <;> simp
  · rfl

end

section
variable {s t : State} {p : Port} {b : Beam} {e : PortSwitch}

/-- A beam of a switch pauses its data. -/
def pausing (q : BeamSt) : BeamSt := { q with tx := if timersRun q then .paused else q.tx }

theorem pausing_of_paused {q : BeamSt} (paused : q.tx = .paused) : (pausing q).tx = .paused := by
  simp [pausing, paused]

theorem pauses_keep (l : List Beam) (paused : t.beam[b.val].tx = .paused) : (l.foldl (fun t c => onBeam c pausing t) t).beam[b.val].tx = .paused :=
  List.foldlRecOn (motive := fun t : State => t.beam[b.val].tx = .paused) _ _ paused fun t paused c _ => by
    show ((onBeam c pausing t).beam[b.val]).tx = .paused
    by_cases here : b = c
    · subst here
      rw [onBeam, upd_val_self]
      exact pausing_of_paused paused
    · rw [onBeam, upd_val_of_ne _ _ here]
      exact paused

theorem pauses_all {l : List Beam} (there : b ∈ l) (runs : timersRun t.beam[b.val] = true) :
    (l.foldl (fun t c => onBeam c pausing t) t).beam[b.val].tx = .paused := by
  induction l generalizing t with
  | nil => cases there
  | cons c l ih =>
    by_cases here : b = c
    · subst here
      refine pauses_keep l ?_
      show ((onBeam b pausing t).beam[b.val]).tx = .paused
      rw [onBeam, upd_val_self]
      exact if_pos runs
    · refine ih ((List.mem_cons.1 there).resolve_left here) ?_
      show timersRun ((onBeam c pausing t).beam[b.val]) = true
      rw [onBeam, upd_val_of_ne _ _ here]
      exact runs

/-- A switch that starts at a port pauses the data of its beams. -/
theorem switchPauses_kept (p : Port) (e : PortSwitch) (s : State) : (switchPauses p e s).port = (onPort p (setStage e.serial .arrived) s).port ∧
    (switchPauses p e s).pln = s.pln ∧ ∀ b ∈ e.beams, timersRun s.beam[b.val] = true → (switchPauses p e s).beam[b.val].tx = .paused :=
  ⟨foldl_kept State.port _ _ _ fun _ _ => rfl, foldl_kept State.pln _ _ _ fun _ _ => rfl,
    fun _ there runs => pauses_all (t := onPort p (setStage e.serial .arrived) s) there runs⟩

theorem switchArrive_of_free (coming : s.port[p.val].switchQ.find? (fun d => d.stage == .coming) = some e) (free : switchBlocked s e = false)
    (none_ : ∀ d ∈ s.port[p.val].switchQ, d.stage ≠ .held) : switchArrive p s = switchPauses p e s := by
  have nobody : (s.port[p.val].switchQ.any fun e => e.stage == .held) = false := by simpa using none_
  simp only [switchArrive, Fin.getElem_fin, coming, free, nobody, Bool.false_eq_true, or_self, if_false]

/-- The rings of a port take their places; nothing else does. -/
theorem ringsPlace_kept (p : Port) (s : State) : (ringsPlace p s).port = s.port ∧ (ringsPlace p s).beam = s.beam ∧ (ringsPlace p s).pln = s.pln :=
  ⟨foldl_kept State.port _ _ _ fun _ _ => rfl, foldl_kept State.beam _ _ _ fun _ _ => rfl, foldl_kept State.pln _ _ _ fun _ _ => rfl⟩

/-- The end of a switch at a port: the beams and the Dim overlay that it lets go on leave the other switches as they are. -/
theorem switchComplete_planned (set_ : s.port[p.val].switchQ.find? (fun d => d.stage == .ringsSet) = some e) :
    planned (switchComplete p s) = planned (onPort p (fun q => { q with switchQ := q.switchQ.filter fun d => d.serial != e.serial }) s) := by
  simp only [switchComplete, Fin.getElem_fin, set_, portDim_planned]
  exact foldl_kept planned _ _ _ fun _ _ => tryResume_planned

/-- The block and the plan that a switch puts in force at its anchor. -/
def anchorShows (p : Port) (e : PortSwitch) (s : State) : State :=
  onPort p (fun q => { anchored e.serial (blockTx e.block &&& ~~~ blockTx (blockNow s p)) q with
    block := some (e.planId, e.block), dimmed := dimmedLines s p e.block }) (showPlan e.serial e.planId s)

/-- What follows from the new block at its anchor changes neither switches nor plans. -/
theorem switchAnchor_planned (arrived : s.port[p.val].switchQ.find? (fun d => d.stage == .arrived) = some e)
    (none_ : ∀ d ∈ s.port[p.val].switchQ, d.stage ≠ .held) : planned (switchAnchor p s) = planned (anchorShows p e s) := by
  have beams (l : List Beam) (t : State) : planned (l.foldl (fun t b => switchBeam p e.block b t) t) = planned t :=
    foldl_kept planned _ _ _ fun _ _ => switchBeam_planned _
  have locks (l : List Beam) (t : State) : planned (l.foldl (fun t b => noteLocked b t) t) = planned t :=
    foldl_kept planned _ _ _ fun _ _ => noteLocked_planned
  unfold switchAnchor
  rw [heldSwitch_of_none none_]
  simp only [Fin.getElem_fin, arrived, planned_ite, pairDim_planned, ite_self, dropSubs_planned, setShed_planned, leaveLines_planned, beams, locks]
  rfl

theorem flag_plnEvent (i : ℕ) : (flag blkPLN 0 i s).pln.event = setBit s.pln.event i := by
  simp only [flag, eventBit, logEvent_pln]
  rfl

theorem anchorShows_pln (new : s.pln.shown < e.serial) : (anchorShows p e s).pln = { s.pln with
    shown := e.serial, previous := s.pln.inForce, inForce := e.planId, epoch := s.pln.epoch + 1, switches := s.pln.switches + 1 } := by
  show (showPlan e.serial e.planId s).pln = _
  rw [showPlan, if_neg (not_le.2 new)]

end

/-- Settles O35: of what a step of a switch sets off, only the step itself moves the switches of the ports and the plan in force (`planned`). -/
theorem planSwitchRuns : Obligations.PlanSwitchRuns := by
  unfold Obligations.PlanSwitchRuns
  simp only [Fin.getElem_fin]
  refine ⟨fun p e s hs coming free none_ => ⟨_, run_of_running _ s hs, ?arrives⟩,
    fun p e s hs coming blocked => ⟨_, run_of_running _ s hs, ?held⟩,
    fun p e s hs arrived none_ new quiet => ⟨_, run_of_running _ s hs, ?anchor⟩,
    fun p e s hs anchored => ?rings,
    fun p n s hs => ⟨_, run_of_running _ s hs, ?relock⟩,
    fun p e s hs set_ => ⟨_, run_of_running _ s hs, ?complete⟩,
    fun b s hs waits seen => ?seen,
    fun b s hs waits unseen over_ whole quiet => ⟨_, run_of_running _ s hs, ?silent⟩,
    fun b s hs waits => ⟨_, run_of_running _ s hs, ?stall⟩⟩
  case arrives =>
    obtain ⟨port, pln, paused⟩ := switchPauses_kept p e s
    rw [irqSettle_port, irqSettle_pln, irqSettle_beam, switchArrive_of_free coming free none_, port, pln, onPort, upd_val_self]
    exact ⟨rfl, rfl, rfl, paused⟩
  case held =>
    have ends : switchArrive p s = onPort p (setStage e.serial .held) s := by
      simp only [switchArrive, Fin.getElem_fin, coming, blocked, true_or, if_true]
    rw [irqSettle_port, irqSettle_pln, irqSettle_beam, ends, onPort, upd_val_self]
    exact ⟨rfl, rfl, rfl, rfl⟩
  case anchor =>
    obtain ⟨port, force, previous, switches, shown, img⟩ := planned_fields (switchAnchor_planned arrived none_)
    obtain ⟨switchQ, block⟩ := port p
    have plan := anchorShows_pln (p := p) new
    have img' : (anchorShows p e s).img = s.img := by
      show (showPlan e.serial e.planId s).img = _
      rw [showPlan, if_neg (not_le.2 new)]
    rw [irqSettle_port, irqSettle_pln, stopping, stopAfter_of_none s (by rw [img, img']; exact quiet), switchQ, block, force, previous, switches,
      shown,
      plan]
    simp only [anchorShows, onPort, upd_val_self]
    have shown' : (showPlan e.serial e.planId s).port = s.port := by rw [showPlan, if_neg (not_le.2 new)]
    rw [shown']
    exact ⟨rfl, trivial, trivial, trivial, trivial, trivial⟩
  case rings =>
    obtain ⟨port, beam, pln⟩ := ringsPlace_kept p (onPort p (setStage e.serial .ringsSet) s)
    refine ⟨irqSettle (ringsPlace p (onPort p (setStage e.serial .ringsSet) s)), (run_of_running _ s hs).trans ?_, ?_⟩
    · simp only [Fin.getElem_fin, anchored]
    · rw [irqSettle_port, irqSettle_pln, irqSettle_beam, port, beam, pln, onPort, upd_val_self]
      exact ⟨rfl, rfl, rfl⟩
  case relock =>
    rw [irqSettle_port]
    simp only [onLine, onPort, upd_val_self]
    exact ⟨trivial, trivial, fun k ne => upd_val_of_ne _ _ ne⟩
  case complete =>
    obtain ⟨port, -⟩ := planned_fields (switchComplete_planned set_)
    obtain ⟨switchQ, block⟩ := port p
    rw [irqSettle_port, switchQ, block, onPort, upd_val_self]
    exact ⟨rfl, rfl⟩
  case seen =>
    have still : stopping (fun s => if (s.beam[b]).waitNew && !(s.beam[b]).newSeen && switchDone s b then breakBeam b s else s) s = s := by
      rw [stopping, if_neg (by simp [seen])]
      exact stopAfter_of_same rfl rfl
    exact (run_of_running _ s hs).trans (by rw [still])
  case silent =>
    have ends := stopping_breaks (b := b) whole quiet
      (f := fun s => if (s.beam[b]).waitNew && !(s.beam[b]).newSeen && switchDone s b then breakBeam b s else s)
        (if_pos (show (s.beam[b.val].waitNew && !s.beam[b.val].newSeen && switchDone s b) = true by
      rw [waits, unseen, over_]
      rfl))
    rw [irqSettle_beam]
    exact ⟨(congrArg BeamSt.state ends :), (congrArg BeamSt.waitNew ends :)⟩
  case stall =>
    rw [irqSettle_pln, irqSettle_beam, Fin.getElem_fin, if_pos waits, flag_beam]
    exact ⟨flag_plnEvent .., rfl⟩

end Sys2Proof.Machine
end

section
/-!
PROOFS. Port training and its commands (R258 to R261, R270, Table 8.8).
-/

-- In sequence: each worker of the elaborator takes its stack from the memory that a check may use.
set_option Elab.async false

namespace Sys2Proof.Machine

section
variable {s t : State} {p : Port} {r : PortStep}

/-- What a port's training has come to, and what its partner has said. -/
def training (p : Port) (t : State) : (BitVec 4 × BitVec 4 × LineSet × Bool) × Bool × LineSet × BitVec 16 :=
  let q := t.port[p.val]
  ((q.state, q.step, q.lineOk, q.qualDone), q.partnerAccepts, q.partnerOk, q.partnerHigh)

theorem training_of_core (h : portCore p t = portCore p s) : training p t = training p s :=
  (congrArg (fun q : PortSt => ((q.state, q.step, q.lineOk, q.qualDone), q.partnerAccepts, q.partnerOk, q.partnerHigh)) h :)

/-- A port without its event bits and its lines, taken by itself. -/
def bare (q : PortSt) : PortSt := { q with event := 0, line := Vector.replicate 35 {} }

theorem bare_fields {q r : PortSt} (h : bare q = bare r) : q.state = r.state ∧ q.step = r.step ∧ q.epoch = r.epoch ∧ q.reason = r.reason ∧
    q.hold = r.hold ∧ q.shutter = r.shutter ∧ q.counters = r.counters ∧ q.noComb = r.noComb ∧ q.shutterFailed = r.shutterFailed :=
  ⟨(congrArg PortSt.state h :), (congrArg PortSt.step h :), (congrArg PortSt.epoch h :), (congrArg PortSt.reason h :), (congrArg PortSt.hold h :),
    (congrArg PortSt.shutter h :), (congrArg PortSt.counters h :), (congrArg PortSt.noComb h :), (congrArg PortSt.shutterFailed h :)⟩

theorem bare_training {q r : PortSt} (h : bare q = bare r) : q.lineOk = r.lineOk ∧ q.lockOk = r.lockOk ∧ q.qualDone = r.qualDone ∧
    q.maskSeen = r.maskSeen :=
  ⟨(congrArg PortSt.lineOk h :), (congrArg PortSt.lockOk h :), (congrArg PortSt.qualDone h :), (congrArg PortSt.maskSeen h :)⟩

theorem onPort_core (f : PortSt → PortSt) : portCore p (onPort p f s) = bare (f s.port[p.val]) := by
  rw [portCore, onPort, upd_val_self, bare]

theorem onLine_core (n : Line) (q : Port) (f : LineSt → LineSt) : portCore p (onLine q n f s) = portCore p s := onPort_portCore s _ _ p fun _ => rfl

theorem portCore_of_intake (h : t.port = s.port) : portCore p t = portCore p s := portCore_of_port h p

theorem setEv_core (q : Port) (n : ℕ) : portCore p (setEv blkPRT q.val n s) = portCore p s := onPort_portCore s _ _ p fun _ => rfl

theorem flag_core (q : Port) (n : ℕ) : portCore p (flag blkPRT q.val n s) = portCore p s := by
  rw [flag, eventBit, logEvent_portCore]
  exact setEv_core q n

theorem fecRx_core (q : Port) (rs : List FecReport) : portCore p (fecRx q rs s) = portCore p s := by
  refine foldl_kept (portCore p) _ _ _ fun t r => ?_
  dsimp only
  split
  · rw [setEv_core, logEvent_portCore]
    split
    · rw [logEvent_portCore, onLine_core]
    · exact onLine_core ..
  · split
    · rw [logEvent_portCore, onLine_core]
    · exact onLine_core ..

theorem trainStep_core (k : BitVec 4) : portCore p (trainStep p k s) = bare { s.port[p.val] with step := k } := onPort_core _

theorem trainStep_emits (k : BitVec 4) : ∃ raw, Emission.train p raw ∈ (trainStep p k s).out := ⟨_, List.mem_cons_self ..⟩

/-- A port's training, the sequencer and the image. -/
def course (p : Port) (t : State) : ((BitVec 4 × BitVec 4 × LineSet × Bool) × Bool × LineSet × BitVec 16) × Ctl × Load := (training p t, t.ctl, t.img)

theorem course_eq : course p t = course p s ↔ training p t = training p s ∧ t.ctl = s.ctl ∧ t.img = s.img := by
  simp only [course, Prod.mk.injEq]

theorem course_of_core (core : portCore p t = portCore p s) (ctl : t.ctl = s.ctl) (img : t.img = s.img) : course p t = course p s := by
  rw [course, training_of_core core, ctl, img, course]

theorem logEvent_course (c k n i : ℕ) : course p (logEvent c k n i s) = course p s :=
  course_of_core (logEvent_portCore ..) (by simp) (by simp)

theorem subServes_course (i : Fin 4) (u : Subst) : course p (subServes p i u s) = course p s := by
  have relocks (t : State) : course p (subRelocks p i u t) = course p t := by
    unfold subRelocks
    (repeat' split) <;> rfl
  unfold subServes
  dsimp only
  rw [relocks]
  split
  · exact logEvent_course ..
  · split
    · exact logEvent_course ..
    · rfl

theorem onPort_training (f : PortSt → PortSt) (h : training p (onPort p f s) = training p s) : course p (onPort p f s) = course p s :=
  course_eq.2 ⟨h, rfl, rfl⟩

theorem takeSpare_course (i : Fin 4) (u : Subst) : course p (takeSpare p i u s) = course p s := by
  have stopped : course p (stopCal p (spareLine (i.val % 2)) (decide (2 ≤ i.val)) s) = course p s :=
    course_of_core (onLine_core ..) rfl rfl
  refine Eq.trans (onPort_training _ ?_) stopped
  simp only [training, onPort, upd_val_self]

theorem assignSpare_course (i : Fin 4) : course p (assignSpare p i s) = course p s := by
  unfold assignSpare
  dsimp only
  split
  · split
    · rw [subServes_course, takeSpare_course]
    · rfl
  · rfl

/-- The exchange of the masks begins the last step, when both ends have qualified their lines (Table 8.8). -/
theorem masksExchanged_met (met : s.port[p.val].state = 2 ∧ s.port[p.val].step = 4 ∧ s.port[p.val].qualDone ∧ s.port[p.val].maskSeen) :
    ∃ t, masksExchanged p s = trainStep p 5 t ∧ course p t = course p s := by
  have spares (t : State) : course p ((fins 4).foldl (fun t i => assignSpare p i t) t) = course p t :=
    foldl_kept (course p) _ _ _ fun _ i => assignSpare_course i
  have judged : course p (onPort p qualified s) = course p s := onPort_training _ (by simp only [training, onPort, upd_val_self, qualified])
  unfold masksExchanged
  dsimp only [Fin.getElem_fin]
  rw [if_pos met]
  refine ⟨_, rfl, ?_⟩
  split
  · exact judged
  · rw [spares, judged]

theorem masksExchanged_unmet (unmet : ¬(s.port[p.val].state = 2 ∧ s.port[p.val].step = 4 ∧ s.port[p.val].qualDone ∧ s.port[p.val].maskSeen)) :
    masksExchanged p s = s := if_neg unmet

end

section
variable {s t : State} {p : Port} {r : PortStep}

theorem trainStep_port (k : BitVec 4) : (trainStep p k s).port[p.val] = { s.port[p.val] with step := k } := upd_val_self ..

theorem portStep_first (state : (s.port[p]).state = 2) (step : (s.port[p]).step = 1) :
    portStep p r s = trainStep p 2 (onPort p (fun q => { q with lineOk := 1 }) s) := by
  simp only [portStep, state, step]
  rfl

theorem portStep_second (state : (s.port[p]).state = 2) (step : (s.port[p]).step = 2) :
    ((portStep p r s).port[p.val].step = 3 ∧ (portStep p r s).port[p.val].lockOk = r.locked ∧ (portStep p r s).port[p.val].lineOk = 1) ∧
      (portStep p r s).ctl = s.ctl ∧ (portStep p r s).img = s.img := by
  have ends : portStep p r s = trainStep p 3 (onPort p (fun q => { q with
      lineOk := 1, lockOk := r.locked
      line := vmk 35 fun n => { q.line[n] with aligned := decide (0 < n.val) && r.locked.getLsbD n.val, missed := 0 } }) s) := by
    simp only [portStep, state, step]
    rfl
  rw [ends, trainStep_port]
  simp only [onPort, upd_val_self]
  exact ⟨⟨trivial, trivial, trivial⟩, rfl, rfl⟩

theorem portStep_third (state : (s.port[p]).state = 2) (step : (s.port[p]).step = 3) :
    portStep p r s = if (s.port[p]).trainSeen && (s.port[p]).partnerAccepts then trainStep p 4 s else s := by
  simp only [portStep, state, step]
  rfl

theorem portStep_fourth (state : (s.port[p]).state = 2) (step : (s.port[p]).step = 4) :
    portStep p r s = if (s.port[p]).qualDone then s else portQualifies p r.counts s := by
  simp only [portStep, state, step]
  rfl

theorem portStep_fifth (state : (s.port[p]).state = 2) (step : (s.port[p]).step = 5) : portStep p r s = portOpens p s := by
  simp only [portStep, state, step]
  rfl

/-- The state in which the masks are exchanged once the lines have been counted. -/
theorem portQualifies_counts (counts : List (ℕ × Bool)) : ∃ u, portQualifies p counts s = masksExchanged p u ∧
    portCore p u = portCore p (onPort p (fun q => { q with lineOk := linesQualify s.port[p.val] counts ||| (q.lineOk &&& 1), qualDone := true }) s) ∧
    u.ctl = s.ctl ∧ u.img = s.img := by
  refine ⟨_, rfl, ?_, ?_, ?_⟩
  · exact fecRx_core _ _
  · obtain ⟨-, -, ctl, -⟩ := intake_fields (fecRx_intake (p := p) (s := onPort p (fun q =>
      { q with lineOk := linesQualify s.port[p.val] counts ||| (q.lineOk &&& 1), qualDone := true }) s) _)
    exact ctl
  · obtain ⟨-, img, -, -⟩ := intake_fields (fecRx_intake (p := p) (s := onPort p (fun q =>
      { q with lineOk := linesQualify s.port[p.val] counts ||| (q.lineOk &&& 1), qualDone := true }) s) _)
    exact img

/-- The count of step 4: the lines that pass are in service, and the masks are exchanged when the partner's has come (R260). -/
theorem portQualifies_ends (counts : List (ℕ × Bool)) (state : s.port[p.val].state = 2) (step : s.port[p.val].step = 4) :
    (portQualifies p counts s).port[p.val].state = 2 ∧ (portQualifies p counts s).port[p.val].qualDone = true ∧
      (portQualifies p counts s).port[p.val].step = (if s.port[p.val].maskSeen then 5 else 4) ∧
      (portQualifies p counts s).port[p.val].lineOk = linesQualify s.port[p.val] counts ||| (s.port[p.val].lineOk &&& 1) ∧
      (portQualifies p counts s).ctl = s.ctl ∧ (portQualifies p counts s).img = s.img := by
  obtain ⟨u, ends, core, ctl, img⟩ := portQualifies_counts (p := p) (s := s) counts
  rw [onPort_core] at core
  obtain ⟨state', step', -⟩ := bare_fields core
  obtain ⟨lines, -, done', seen⟩ := bare_training core
  rw [state] at state'
  rw [step] at step'
  rw [ends]
  by_cases there : s.port[p.val].maskSeen = true
  · obtain ⟨t, begins, same⟩ := masksExchanged_met ⟨state', step', done', seen.trans there⟩
    obtain ⟨port, ctl', img'⟩ := course_eq.1 same
    simp only [training, Prod.mk.injEq] at port
    obtain ⟨⟨stateT, -, linesT, doneT⟩, -⟩ := port
    rw [begins, trainStep_port, if_pos there]
    exact ⟨stateT.trans state', doneT.trans done', rfl, linesT.trans lines, ctl'.trans ctl, img'.trans img⟩
  · rw [masksExchanged_unmet (by rw [seen]; exact fun met => there met.2.2.2), if_neg there]
    exact ⟨state', done', step', lines, ctl, img⟩

theorem spend_core (n : ℕ) : portCore p (spend n s) = portCore p s := rfl

theorem lightPort_core : portCore p (lightPort p s) = portCore p s := by
  have beams (t : State) (b : Beam) : portCore p (lightBeam b t) = portCore p t := by
    unfold lightBeam
    dsimp only
    (repeat' split)
    · rfl
    · rfl
    · exact (breakBeam_portCore ..).trans rfl
    · exact (portCore_of_port (beamFirst_port ..) p).trans rfl
    · rfl
    · exact (portCore_of_port (tryResume_port ..) p).trans rfl
    · exact (portCore_of_port (askRetrain_port ..) p).trans rfl
    · rfl
  unfold lightPort
  split
  · rfl
  · split
    · exact foldl_kept (portCore p) _ _ _ fun _ _ => rfl
    · exact foldl_kept (portCore p) _ _ _ fun t b => beams t b

theorem lightBeam_planned (b : Beam) : planned (lightBeam b s) = planned s := by
  unfold lightBeam
  dsimp only
  (repeat' split) <;> simp

theorem lightPort_img : (lightPort p s).img = s.img := by
  have kept : planned (lightPort p s) = planned s := by
    unfold lightPort
    split
    · rfl
    · split
      · exact foldl_kept planned _ _ _ fun _ _ => rfl
      · exact foldl_kept planned _ _ _ fun t b => lightBeam_planned b
  obtain ⟨-, -, -, -, -, img⟩ := planned_fields kept
  exact img

theorem portOpens_img : (portOpens p s).img = s.img := by
  simp only [portOpens, lightPort_img, flag_img]
  rfl

theorem portOpens_ends : (portOpens p s).port[p.val].state = (if usableLines s.port[p.val] == dataLines s.port[p.val] then 3 else 4) ∧
    (portOpens p s).port[p.val].step = 0 ∧ (portOpens p s).port[p.val].epoch = s.port[p.val].epoch + 1 := by
  have core := (lightPort_core (p := p) (s := flag blkPRT p.val (if usableLines s.port[p.val] == dataLines s.port[p.val] then 0 else 2)
    (spend 35 (onPort p (fun q => { phasesTrained s.fresh q with
      state := if usableLines s.port[p.val] == dataLines s.port[p.val] then 3 else 4, step := 0, epoch := q.epoch + 1, lastFail := 0 }) s)))).trans
    ((flag_core ..).trans (onPort_core _))
  obtain ⟨state, step, epoch, -⟩ := bare_fields core
  exact ⟨state, step, epoch⟩

end

section
variable {s t : State} {p : Port} {raw : List Byte} {f : Flit}

/-- What a port notes of a TRAIN payload (Table 8.9). -/
def heard (s : State) (p : Port) (b : List Byte) (q : PortSt) : PortSt :=
  { q with
    partnerHigh := BitVec.ofNat 16 (leNat (b.take 2))
    peerPlace := BitVec.ofNat 24 (leNat ((b.drop 4).take 4))
    peerPort := BitVec.ofNat 6 (byteAt b 16).toNat
    penumbra := q.penumbra || (byteAt b 18).getLsbD 1
    partnerAccepts := (byteAt b 18).getLsbD 2
    partnerOk := maskAt b 20
    maskSeen := q.maskSeen || decide ((byteAt b 17).toNat = 5) || (decide ((byteAt b 17).toNat = 4) && maskAt b 20 != 0)
    peerMatch := if q.step = 3 then
        BitVec.ofNat 2 (identity s p (byteAt b 18).toNat (leNat ((b.drop 4).take 4)) (BitVec.ofNat 64 (leNat ((b.drop 8).take 8))))
      else q.peerMatch }

theorem trainRx_of_training (state : s.port[p.val].state = 2) (spelt : flitOf raw = some f) (typ : f.typ = 4) :
    trainRx p raw s = trainMsg p f.body s := by
  have down : portUp s.port[p.val] = false := by rw [portUp, state]; rfl
  simp only [trainRx, spelt, typ, Fin.getElem_fin, down, ne_eq, not_true_eq_false, Bool.false_eq_true, false_and, if_false]
  exact if_pos state

theorem trainMsg_judged {b : List Byte} (step : s.port[p.val].step = 3) : trainMsg p b s =
    judgePartner p (identity s p (byteAt b 18).toNat (leNat ((b.drop 4).take 4)) (BitVec.ofNat 64 (leNat ((b.drop 8).take 8))))
      (leNat (b.take 2)) (leNat ((b.drop 2).take 2)) (onPort p (heard s p b) s) := if_pos step

theorem trainMsg_masks {b : List Byte} (step : s.port[p.val].step ≠ 3) : trainMsg p b s = masksExchanged p (onPort p (heard s p b) s) := if_neg step

/-- A TRAIN flit in another step than the judgement of the partner. -/
theorem trainMsg_ends {b : List Byte} (state : s.port[p.val].state = 2) (step : s.port[p.val].step ≠ 3) :
    training p (trainMsg p b s) = ((2, if s.port[p.val].step = 4 ∧ s.port[p.val].qualDone ∧ (heard s p b s.port[p.val]).maskSeen then 5
      else s.port[p.val].step, s.port[p.val].lineOk, s.port[p.val].qualDone), (byteAt b 18).getLsbD 2, maskAt b 20, BitVec.ofNat 16
        (leNat (b.take 2))) ∧
    (trainMsg p b s).ctl = s.ctl ∧ (trainMsg p b s).img = s.img := by
  have here : (onPort p (heard s p b) s).port[p.val] = heard s p b s.port[p.val] := upd_val_self ..
  rw [trainMsg_masks step]
  by_cases met : s.port[p.val].step = 4 ∧ s.port[p.val].qualDone ∧ (heard s p b s.port[p.val]).maskSeen
  · rw [if_pos met]
    obtain ⟨t, begins, same⟩ := masksExchanged_met (p := p) (s := onPort p (heard s p b) s) (by rw [here]; exact ⟨state, met⟩)
    obtain ⟨port, ctl, img⟩ := course_eq.1 same
    simp only [training, here, Prod.mk.injEq] at port
    obtain ⟨⟨stateT, -, linesT, doneT⟩, acceptsT, okT, highT⟩ := port
    rw [begins]
    refine ⟨?_, ctl, img⟩
    simp only [training, trainStep_port, stateT, linesT, doneT, acceptsT, okT, highT]
    simp only [heard, state]
  · rw [if_neg met, masksExchanged_unmet (by rw [here]; exact fun all => met all.2)]
    refine ⟨?_, rfl, rfl⟩
    simp only [training, here]
    simp only [heard, state]

/-- Training that ends in Dark with its reason (R261). -/
theorem trainFails_core (reason bit : ℕ) : portCore p (trainFails p reason bit s) = portCore p (onPort p (fun q =>
    { portDarkSt reason q with lastFail := BitVec.ofNat 4 reason }) s) ∧ (trainFails p reason bit s).img = s.img := by
  unfold trainFails
  dsimp only
  split
  · exact ⟨breakBeams_portCore .., foldl_img _ _ _ fun _ _ => breakBeam_img ..⟩
  · refine ⟨?_, ?_⟩
    · rw [flag_core, setEv_core]
      exact breakBeams_portCore ..
    · rw [flag_img, setEv_img]
      exact foldl_img _ _ _ fun _ _ => breakBeam_img ..

theorem trainFails_ends (reason bit : ℕ) : (trainFails p reason bit s).port[p.val].state = 0 ∧ (trainFails p reason bit s).port[p.val].shutter =
    .closed ∧
    (trainFails p reason bit s).port[p.val].reason = darkReason s.port[p.val] (BitVec.ofNat 4 reason) := by
  obtain ⟨core, -⟩ := trainFails_core (p := p) (s := s) reason bit
  rw [onPort_core] at core
  obtain ⟨state, -, -, reason, -, shutter, -⟩ := bare_fields core
  exact ⟨state, shutter, reason⟩

/-- The identity and the level of the partner are accepted (R259). -/
theorem judgePartner_accepts {m high low l : ℕ} (known : m ≠ 2) (level : settleLevel high low = some l) :
    (judgePartner p m high low s).port[p.val] = { s.port[p.val] with settled := BitVec.ofNat 16 l, trainSeen := true } ∧
      (judgePartner p m high low s).ctl = s.ctl ∧ (judgePartner p m high low s).img = s.img := by
  unfold judgePartner
  rw [if_neg known, level]
  dsimp only
  split
  · exact ⟨upd_val_self .., rfl, rfl⟩
  · exact ⟨upd_val_self .., rfl, rfl⟩

theorem retrainPort_of_up (up : portUp s.port[p.val] = true) (k : BitVec 4) : retrainPort p k s =
    logEvent clsRecoverable blkPRT 0x0102 p.val (trainPort p k (onPort p (fun q => { q with counters := upd q.counters 1 (· + 1) }) s)) :=
  if_neg (by rw [Fin.getElem_fin, up]; decide)

theorem pausePort_img : (pausePort p s).img = s.img := foldl_img _ _ _ fun _ _ => rfl

theorem trainPort_img (k : BitVec 4) : (trainPort p k s).img = s.img := by
  simp [trainPort, trainStep, pausePort_img]

theorem retrainPort_img (k : BitVec 4) : (retrainPort p k s).img = s.img := by
  unfold retrainPort
  split
  · rfl
  · rw [logEvent_img, trainPort_img, onPort_img]

theorem pausePort_core : portCore p (pausePort p s) = portCore p s := foldl_kept (portCore p) _ _ _ fun _ _ => rfl

theorem trainPort_counters (k : BitVec 4) : (trainPort p k s).port[p.val].counters = s.port[p.val].counters := by
  have quiet : portCore p (pausePort p (endEchoFibre p (endSubs p s))) = portCore p s := by
    rw [pausePort_core, endEchoFibre_portCore, portCore_of_port (endSubs_port ..)]
  rw [trainPort, trainStep_port]
  obtain ⟨-, -, -, -, -, -, counters, -⟩ := bare_fields quiet
  simp only [onPort, upd_val_self, counters]

/-- A port in service counts its retrain (R268, Table 8.20). -/
theorem retrainPort_counts (up : portUp s.port[p.val] = true) (k : BitVec 4) :
    (retrainPort p k s).port[p.val].counters = upd s.port[p.val].counters 1 (· + 1) := by
  rw [retrainPort_of_up up, logEvent_port, trainPort_counters, onPort, upd_val_self]

/-- A command that fits is carried out within its write (R270). -/
theorem prtCmd_runs {code : ℕ} {v : Word} (here : fin! 64 (fld v 13 8) = p) (epoch : fld v 31 16 = s.port[p.val].epoch.toNat)
    (fits : prtCmdEffect code p s = some t) : prtCmd code v s =
      { onPort p (fun q => { q with epoch := q.epoch + 1 }) t with pln := { t.pln with prtCmd := (BitVec.ofNat 8 code, false, 1) } } := by
  subst here
  simp only [prtCmd, Fin.getElem_fin, ne_eq, epoch, not_true_eq_false, if_false, fits]
  rfl

theorem prtCmd_stale {code : ℕ} {v : Word} (here : fin! 64 (fld v 13 8) = p) (stale : fld v 31 16 ≠ s.port[p.val].epoch.toNat) :
    prtCmd code v s = flag blkPRT p.val 10 { s with pln := { s.pln with prtCmd := (BitVec.ofNat 8 code, false, 2) } } := by
  subst here
  exact if_pos stale

/-- A port with its comb and its shutter is dark for the reason given. -/
theorem darkReason_of_lit {q : PortSt} {reason : BitVec 4} (comb : q.noComb = false) (shutter : q.shutterFailed = false) :
    darkReason q reason = reason := by
  rw [darkReason, comb, shutter]
  rfl

theorem endEchoPort_kept : portCore p (endEchoPort p s) = portCore p s ∧ (endEchoPort p s).ctl = s.ctl ∧ (endEchoPort p s).img = s.img := by
  unfold endEchoPort
  split
  · exact ⟨endEcho_portCore .., by simp [endEcho], by simp [endEcho]⟩
  · exact ⟨rfl, rfl, rfl⟩

theorem portDarkSt_kept (reason : ℕ) (q : PortSt) : (portDarkSt reason q).state = 0 ∧ (portDarkSt reason q).noComb = q.noComb ∧
    (portDarkSt reason q).shutterFailed = q.shutterFailed := ⟨rfl, rfl, rfl⟩

/-- A port that is held goes dark. -/
theorem portDarkBreak_ends (reason : ℕ) : (portDarkBreak p reason s).port[p.val].state = 0 ∧
    (portDarkBreak p reason s).port[p.val].noComb = s.port[p.val].noComb ∧
    (portDarkBreak p reason s).port[p.val].shutterFailed = s.port[p.val].shutterFailed := by
  have quiet : portCore p (endEchoFibre p (endSubs p s)) = portCore p s := by rw [endEchoFibre_portCore, portCore_of_port (endSubs_port ..)]
  have core : portCore p (portDarkBreak p reason s) = portCore p (onPort p (portDarkSt reason) (endEchoFibre p (endSubs p s))) := by
    unfold portDarkBreak portDark
    dsimp only
    rw [breakBeams_portCore]
    split
    · exact flag_core ..
    · rfl
  rw [onPort_core] at core
  obtain ⟨state, -, -, -, -, -, -, comb, failed⟩ := bare_fields core
  obtain ⟨-, -, -, -, -, -, -, comb', failed'⟩ := bare_fields quiet
  obtain ⟨dark, keptComb, keptFailed⟩ := portDarkSt_kept reason (endEchoFibre p (endSubs p s)).port[p.val]
  exact ⟨state.trans dark, (comb.trans keptComb).trans comb', (failed.trans keptFailed).trans failed'⟩

/-- A port that PRT_CMD holds is dark behind its shutter. -/
theorem prtCmdHold_effect (free : s.port[p.val].hold = false) : ∃ u, prtCmdEffect 2 p s =
      some (onPort p (fun q => { q with hold := true, reason := darkReason q 6, shutter := .closed }) u) ∧ u.port[p.val].state = 0 ∧
      u.port[p.val].noComb = s.port[p.val].noComb ∧ u.port[p.val].shutterFailed = s.port[p.val].shutterFailed ∧ u.img = s.img := by
  by_cases dark : s.port[p.val].state = 0
  · refine ⟨onPort p (fun q => { q with probing := false, probes := 0 }) s, ?_, ?_⟩
    · simp only [prtCmdEffect, Fin.getElem_fin, free, dark]
      rfl
    · simp only [onPort, upd_val_self]
      exact ⟨dark, trivial, trivial, trivial⟩
  · obtain ⟨state, comb, shutter⟩ := portDarkBreak_ends (s := s) (p := p) 6
    refine ⟨portDarkBreak p 6 s, ?_, state, comb, shutter, portDarkBreak_img ..⟩
    simp only [prtCmdEffect, Fin.getElem_fin, free, dark]
    rfl

theorem vector_at {α : Type*} {n : ℕ} {v w : Vector α n} (h : v = w) (i : ℕ) (hi : i < n) : v[i] = w[i] := by rw [h]

theorem flag_portEvent (n : ℕ) : (flag blkPRT p.val n s).port[p.val].event = setBit s.port[p.val].event n := by
  have here : fin! 64 p.val = p := Fin.ext (Nat.mod_eq_of_lt p.isLt)
  have core : (setEv blkPRT p.val n s).port = (onPort (fin! 64 p.val) (fun q => { q with event := setBit q.event n }) s).port := rfl
  rw [flag, eventBit, logEvent_port, core, here, onPort, upd_val_self]

end

/-- Settles O36, by what each step of training does to the port and by the exchange of the masks. -/
theorem portTrainingAndCommands : Obligations.PortTrainingAndCommands := by
  unfold Obligations.PortTrainingAndCommands
  simp only [Fin.getElem_fin]
  refine ⟨fun p r s hs state step => ⟨_, run_of_running _ s hs, ?first⟩,
    fun p r s hs state step => ⟨_, run_of_running _ s hs, ?second⟩,
    fun p r s hs state step => ⟨_, run_of_running _ s hs, ?third⟩,
    fun p r s hs state step => ⟨_, run_of_running _ s hs, ?fourth⟩,
    fun p r s hs state step quiet => ⟨_, run_of_running _ s hs, ?fifth⟩,
    fun p raw f s hs state step spelt typ => ⟨_, run_of_running _ s hs, ?masks⟩,
    fun p raw f l s hs state step spelt typ known level => ⟨_, run_of_running _ s hs, ?accepted⟩,
    fun p raw f s hs state step spelt typ foreign quiet => ⟨_, run_of_running _ s hs, ?mismatch⟩,
    fun p s hs state quiet => ⟨_, run_of_running _ s hs, ?late⟩,
    fun p s hs up => ⟨_, run_of_running _ s hs, ?lost⟩,
    fun p v s hs good here epoch up => ⟨_, regRow_of_running _ hs.1 hs.2 good, ?retrain⟩,
    fun p v s hs good here epoch free quiet => ⟨_, regRow_of_running _ hs.1 hs.2 good, ?hold⟩,
    fun p v s hs good here epoch held => ⟨_, regRow_of_running _ hs.1 hs.2 good, ?release⟩,
    fun p v s hs good here stale => ⟨_, regRow_of_running _ hs.1 hs.2 good, ?stale⟩⟩ <;> rw [irqSettle_port]
  case first =>
    obtain ⟨raw, goes⟩ := trainStep_emits (p := p) (s := onPort p (fun q => { q with lineOk := 1 }) s) 2
    have ends : stopping (portStep p r) s = trainStep p 2 (onPort p (fun q => { q with lineOk := 1 }) s) := by
      rw [stopping, portStep_first state step]
      exact stopAfter_of_same rfl rfl
    rw [ends, trainStep_port]
    simp only [onPort, upd_val_self]
    exact ⟨state, trivial, raw, mem_out_irqSettle goes⟩
  case second =>
    obtain ⟨⟨step', lock, line⟩, ctl, img⟩ := portStep_second (r := r) state step
    rw [stopping, stopAfter_of_same ctl img]
    exact ⟨step', lock, line⟩
  case third =>
    by_cases both : (s.port[p.val].trainSeen && s.port[p.val].partnerAccepts) = true
    · have ends : stopping (portStep p r) s = trainStep p 4 s := by
        exact (congrArg (stopAfter s) ((portStep_third state step).trans (if_pos both))).trans (stopAfter_of_same rfl rfl)
      rw [ends, trainStep_port, if_pos both]
      exact ⟨state, rfl⟩
    · have ends : stopping (portStep p r) s = s := by
        exact (congrArg (stopAfter s) ((portStep_third state step).trans (if_neg both))).trans (stopAfter_of_same rfl rfl)
      rw [ends, if_neg both]
      exact ⟨state, step⟩
  case fourth =>
    by_cases over_ : (s.port[p]).qualDone = true
    · have ends : stopping (portStep p r) s = s := by
        rw [stopping, portStep_fourth state step, if_pos over_]
        exact stopAfter_of_same rfl rfl
      rw [ends]
      exact ⟨state, over_, fun _ => ⟨step, rfl⟩, fun no => absurd (over_.symm.trans no) (by decide)⟩
    · obtain ⟨state', done', step', lines, ctl, img⟩ := portQualifies_ends (p := p) r.counts state step
      have ends : stopping (portStep p r) s = portQualifies p r.counts s := by
        rw [stopping, portStep_fourth state step, if_neg over_]
        exact stopAfter_of_same ctl img
      rw [ends]
      exact ⟨state', done', fun yes => absurd yes over_, fun _ => ⟨step', lines⟩⟩
  case fifth =>
    obtain ⟨state', step', epoch⟩ := portOpens_ends (s := s) (p := p)
    have ends : stopping (portStep p r) s = portOpens p s := by
      rw [stopping, portStep_fifth state step]
      exact stopAfter_of_none s (by rw [portOpens_img]; exact quiet)
    rw [ends]
    exact ⟨step', epoch, state'⟩
  case masks =>
    obtain ⟨port, ctl, img⟩ := trainMsg_ends (b := f.body) state step
    simp only [training, Prod.mk.injEq] at port
    obtain ⟨⟨state', step', -, -⟩, accepts, ok, high⟩ := port
    have ends : stopping (trainRx p raw) s = trainMsg p f.body s := by
      rw [stopping, trainRx_of_training state spelt typ]
      exact stopAfter_of_same ctl img
    rw [ends]
    refine ⟨accepts, ok, high, state', fun other => ?_, fun here last => ?_⟩
    · rw [step', if_neg fun all => other all.1]
    · have seen : (heard s p f.body s.port[p.val]).maskSeen = true := by simp [heard, last]
      rw [step', here]
      simp only [seen, and_true, true_and]
  case accepted =>
    obtain ⟨port, ctl, img⟩ := judgePartner_accepts (p := p) (s := onPort p (heard s p f.body) s) known level
    have ends : stopping (trainRx p raw) s = trainMsg p f.body s := by
      rw [stopping, trainRx_of_training state spelt typ, trainMsg_judged step]
      exact stopAfter_of_same ctl img
    rw [ends, trainMsg_judged step, port, onPort, upd_val_self]
    exact ⟨state, step, rfl, rfl⟩
  case mismatch =>
    have fails : trainMsg p f.body s = trainFails p 2 4 (onPort p (heard s p f.body) s) := by
      rw [trainMsg_judged step, judgePartner, if_pos foreign]
    obtain ⟨-, img⟩ := trainFails_core (p := p) (s := onPort p (heard s p f.body) s) 2 4
    obtain ⟨state', -, reason⟩ := trainFails_ends (p := p) (s := onPort p (heard s p f.body) s) 2 4
    have ends : stopping (trainRx p raw) s = trainFails p 2 4 (onPort p (heard s p f.body) s) := by
      rw [stopping, trainRx_of_training state spelt typ, fails]
      exact stopAfter_of_none s (by rw [img]; exact quiet)
    rw [ends]
    refine ⟨state', fun comb shutter => ?_⟩
    rw [reason, onPort, upd_val_self]
    exact darkReason_of_lit comb shutter
  case late =>
    obtain ⟨-, img⟩ := trainFails_core (p := p) (s := s) 1 3
    obtain ⟨state', shutter', reason⟩ := trainFails_ends (p := p) (s := s) 1 3
    have ends : stopping (fun s => if (s.port[p]).state = 2 then trainFails p 1 3 s else s) s = trainFails p 1 3 s :=
      (congrArg (stopAfter s) (if_pos state)).trans (stopAfter_of_none s (by rw [img]; exact quiet))
    rw [ends]
    refine ⟨state', shutter', fun comb shutter => ?_⟩
    rw [reason]
    exact darkReason_of_lit comb shutter
  case lost =>
    have seen := retrainPort_trainSeen (p := p) (q := p) (s := s) 1
    rw [if_pos ⟨rfl, up⟩] at seen
    obtain ⟨state', step'⟩ := Prod.mk.injEq .. ▸ seen
    refine ⟨state', step', ?_⟩
    exact (vector_at (retrainPort_counts up 1) 1 (by decide)).trans (upd_val_self ..)
  case retrain =>
    have runs := prtCmd_runs (p := p) (s := s) (code := 1) here epoch (if_pos up)
    have ends : stopping (prtCmd 1 v) s = prtCmd 1 v s := by
      rw [stopping, runs]
      exact stopAfter_of_same (retrainPort_ctl ..) (retrainPort_img ..)
    have seen := retrainPort_trainSeen (p := p) (q := p) (s := s) 2
    rw [if_pos ⟨rfl, up⟩] at seen
    obtain ⟨state', step'⟩ := Prod.mk.injEq .. ▸ seen
    rw [ends, runs, irqSettle_pln]
    simp only [onPort, upd_val_self]
    exact ⟨state', step', rfl⟩
  case hold =>
    obtain ⟨u, runs, state', comb', shutter', img⟩ := prtCmdHold_effect (p := p) (s := s) free
    have ends : stopping (prtCmd 2 v) s = prtCmd 2 v s := by
      rw [stopping, prtCmd_runs here epoch runs]
      exact stopAfter_of_none s (by simpa only [onPort, img] using quiet)
    rw [ends, prtCmd_runs here epoch runs, irqSettle_pln]
    simp only [onPort, upd_val_self]
    refine ⟨trivial, state', rfl, fun comb shutter => darkReason_of_lit (comb'.trans comb) (shutter'.trans shutter)⟩
  case release =>
    have runs := prtCmd_runs (p := p) (s := s) (code := 3) here epoch (if_pos held)
    obtain ⟨core, ctl, img⟩ := endEchoPort_kept (p := p) (s := onPort p (fun q => { q with hold := false }) s)
    have ends : stopping (prtCmd 3 v) s = prtCmd 3 v s := by
      rw [stopping, runs]
      exact stopAfter_of_same (s := s) ctl img
    obtain ⟨state', -, -, -, hold', -⟩ := bare_fields core
    rw [ends, runs, irqSettle_pln]
    simp only [onPort, upd_val_self] at state' hold' ⊢
    exact ⟨hold', state', rfl⟩
  case stale =>
    have stale' := prtCmd_stale (p := p) (s := s) (code := 1) here stale
    have ends : stopping (prtCmd 1 v) s = prtCmd 1 v s := by
      rw [stopping, stale']
      exact stopAfter_of_same (s := s) (by simp) (by simp)
    obtain ⟨state', -, epoch', -⟩ := bare_fields (flag_core (p := p) (s := { s with pln := { s.pln with prtCmd := (1, false, 2) } }) p 10)
    rw [ends, stale', irqSettle_pln, flag_pln (h0 := by decide) (h1 := by decide)]
    refine ⟨state', epoch', ?_, rfl⟩
    exact flag_portEvent _

end Sys2Proof.Machine
end

section
/-!
PROOFS. Line markers (R230 to R233).
-/

-- In sequence: each worker of the elaborator takes its stack from the memory that a check may use.
set_option Elab.async false

namespace Sys2Proof.Machine

section
variable {s t u : State} {p q : Port} {n m : Line} {b : Beam} {i : Fin 4} {v : Subst}

/-- What the markers of a line have come to, and what it has counted. -/
def markersOf (l : LineSt) : Bool × ℕ × Bool × Option Word × Vector (BitVec 64) 3 := (l.aligned, l.missed, l.wrong, l.lastCount, l.counters)

/-- A port keeps what a line's markers have come to, and takes the line neither back to its place nor back into service. -/
def PortWears (n : Line) (x y : PortSt) : Prop := markersOf y.line[n.val] = markersOf x.line[n.val] ∧
  (x.line[n.val].out.getLsbD 0 = true → y.line[n.val].out.getLsbD 0 = true) ∧ (x.lineOk.getLsbD n.val = false → y.lineOk.getLsbD n.val = false)

def Wears (p : Port) (n : Line) (s t : State) : Prop := PortWears n s.port[p.val] t.port[p.val]

theorem Wears.refl : Wears p n s s := ⟨rfl, id, id⟩

theorem Wears.trans (h : Wears p n s t) (k : Wears p n t u) : Wears p n s u := by
  obtain ⟨markers, out, ok⟩ := h
  obtain ⟨markers', out', ok'⟩ := k
  exact ⟨markers'.trans markers, out' ∘ out, ok' ∘ ok⟩

theorem wears_of_port (h : t.port = s.port) : Wears p n s t := by
  unfold Wears
  rw [h]
  exact Wears.refl

theorem wears_foldl {α : Type} (g : State → α → State) (l : List α) (h : ∀ t x, Wears p n t (g t x)) : Wears p n s (l.foldl g s) :=
  List.foldlRecOn l g Wears.refl fun t kept x _ => Wears.trans kept (h t x)

theorem wears_onPort {f : PortSt → PortSt} (h : ∀ x, PortWears n x (f x)) : Wears p n s (onPort q f s) := by
  unfold Wears
  by_cases same : q = p
  · subst same
    rw [onPort, upd_val_self]
    exact h _
  · rw [onPort, upd_val_of_ne _ _ (Ne.symm same)]
    exact Wears.refl

theorem wears_onLine {f : LineSt → LineSt} (markers : ∀ x, markersOf (f x) = markersOf x)
    (out : ∀ x, x.out.getLsbD 0 = true → (f x).out.getLsbD 0 = true) : Wears p n s (onLine q m f s) := by
  refine wears_onPort fun x => ?_
  by_cases same : m = n
  · subst same
    simp only [PortWears, upd_val_self]
    exact ⟨markers _, out _, id⟩
  · have kept : (upd x.line m f)[n.val] = x.line[n.val] := upd_val_of_ne _ _ (Ne.symm same)
    simp only [PortWears, kept]
    exact ⟨trivial, id, id⟩

theorem wears_logEvent (c k j : ℕ) : Wears p n s (logEvent c blkPRT k j s) := wears_of_port (logEvent_port ..)

theorem flag_prtPort (k j : ℕ) : (flag blkPRT j k s).port = (onPort (fin! 64 j) (fun q => { q with event := setBit q.event k }) s).port := by
  rw [flag, eventBit, logEvent_port]
  rfl

theorem wears_flag (j k : ℕ) : Wears p n s (flag blkPRT j k s) := by
  have kept : Wears p n s (onPort (fin! 64 j) (fun q => { q with event := setBit q.event k }) s) := wears_onPort fun _ => ⟨rfl, id, id⟩
  exact kept.trans (wears_of_port (flag_prtPort ..))

theorem wears_widthCheck : Wears p n s (widthCheck q s) := by
  unfold widthCheck
  dsimp only
  split
  · exact (wears_onPort (q := q) (f := fun q => { q with state := 4, epoch := q.epoch + 1 }) fun _ => ⟨rfl, id, id⟩).trans (wears_flag ..)
  · split
    · exact (wears_onPort (q := q) (f := fun q => { q with state := 3, epoch := q.epoch + 1 }) fun _ => ⟨rfl, id, id⟩).trans (wears_flag ..)
    · exact Wears.refl

theorem wears_out : Wears p n s (setOut q m 0 true s) := wears_onLine (fun _ => rfl) fun x h => by
  simp only [putBit, if_true, getLsbD_setBit, h]
  rfl

theorem wears_putSub (v : Option Subst) : Wears p n s (putSub q i v s) := wears_onPort fun _ => ⟨rfl, id, id⟩

theorem wears_stopCal (rx : Bool) : Wears p n s (stopCal q m rx s) := by
  refine wears_onLine (fun x => ?_) fun x h => ?_
  · cases rx <;> rfl
  · cases rx <;> exact h

theorem wears_takeSpare : Wears p n s (takeSpare q i v s) := (wears_stopCal _).trans (wears_putSub _)

theorem wears_askRetrain : Wears p n s (askRetrain b s) := wears_of_port (askRetrain_port ..)

theorem wears_subSend (k : ℕ) (back : Bool) : Wears p n s (subSend q k v back s) := wears_of_port (pushCtl_port ..)

theorem wears_ownerGo (back : Bool) : Wears p n s (ownerGo q i v back s) := by
  have choice : Wears p n s (withMarker { v with phase := if back then .returning else .going } s).2 := wears_of_port rfl
  unfold ownerGo
  dsimp only
  split
  · exact (choice.trans (wears_putSub _)).trans (wears_subSend ..)
  · exact (choice.trans wears_takeSpare).trans (wears_subSend ..)

theorem wears_serveNeeds : Wears p n s (serveNeeds q i s) := by
  unfold serveNeeds
  split
  next v _ =>
    have taken : Wears p n s (onPort q (fun x => { x with needs := x.needs.erase v }) s) := wears_onPort fun _ => ⟨rfl, id, id⟩
    dsimp only
    (repeat' split)
    · exact taken.trans wears_takeSpare
    · exact taken.trans (wears_ownerGo _)
    · exact Wears.refl
  · exact Wears.refl

theorem wears_subEnd : Wears p n s (subEnd q i true s) := by
  unfold subEnd
  split
  · exact Wears.refl
  next v _ =>
    have ended : Wears p n s (logEvent clsRecoverable blkPRT 0x0107 q.val (stopCal q v.line (decide (2 ≤ i.val)) (putSub q i none s))) :=
      ((wears_putSub _).trans (wears_stopCal _)).trans (wears_logEvent ..)
    have served (t : State) : Wears p n t (serveNeeds q i (widthCheck q (askRetrain v.beam t))) :=
      (wears_askRetrain.trans wears_widthCheck).trans wears_serveNeeds
    dsimp only
    split
    · exact (ended.trans wears_out).trans (served _)
    · exact ended.trans (served _)

theorem wears_clrBit {e : LineSet} (no : e.getLsbD n.val = false) : (clrBit e m.val).getLsbD n.val = false := by
  rw [getLsbD_clrBit _ _ _ n.isLt, no, Bool.false_and]

theorem wears_lineRemoved : Wears p n s (lineRemoved q m s) := by
  have removed : Wears p n s (widthCheck q (setOut q m 0 true (onPort q (fun x => { x with lineOk := clrBit x.lineOk m.val }) s))) :=
    ((wears_onPort (f := fun x => { x with lineOk := clrBit x.lineOk m.val }) fun x => ⟨rfl, id, wears_clrBit⟩).trans wears_out).trans
      wears_widthCheck
  unfold lineRemoved
  dsimp only
  split
  · exact (removed.trans (wears_logEvent ..)).trans wears_askRetrain
  · exact removed

theorem wears_spareLost : Wears p n s (spareLost q m s) := by
  have waits : Wears p n s (onPort q (fun x => { x with needs := x.needs.filter fun u => !(u.rx && spareOf u.line == m.val - 33) }) s) :=
    wears_onPort fun _ => ⟨rfl, id, id⟩
  exact (waits.trans wears_subEnd).trans (wears_foldl _ _ fun _ _ => wears_lineRemoved)

theorem wears_relockRing (k : ℕ) : Wears p n s (relockRing k s) := wears_of_port rfl

theorem wears_startReturn : Wears p n s (startReturn q i v s) := by
  unfold startReturn
  split
  · exact wears_ownerGo _
  · exact (wears_putSub _).trans (wears_subSend ..)

theorem wears_abandonCal : Wears p n s (abandonCal q i s) := by
  unfold abandonCal
  split
  · split
    · exact (wears_stopCal _).trans wears_startReturn
    · exact Wears.refl
  · exact Wears.refl

theorem wears_subServes : Wears p n s (subServes q i v s) := by
  have relocks (t : State) : Wears p n t (subRelocks q i v t) := by
    unfold subRelocks
    (repeat' split) <;> exact wears_of_port rfl
  unfold subServes
  dsimp only
  split
  · exact (wears_logEvent ..).trans (relocks _)
  · split
    · exact (wears_logEvent ..).trans (relocks _)
    · exact relocks _

theorem wears_raiseSub (w : Subst) : Wears p n s (raiseSub q i v w s) := by
  unfold raiseSub
  dsimp only
  (repeat' split)
  · exact (wears_putSub _).trans wears_subServes
  · exact wears_putSub _
  · exact Wears.refl

theorem wears_startSub : Wears p n s (startSub q i v s) := by
  have numbered : Wears p n s (onPort q (fun x => { x with lastSub := x.lastSub + 1 }) s) := wears_onPort fun _ => ⟨rfl, id, id⟩
  unfold startSub
  dsimp only
  split
  · exact numbered.trans (wears_ownerGo _)
  · exact (numbered.trans wears_takeSpare).trans (wears_subSend ..)

theorem wears_joinNeeds : Wears p n s (joinNeeds q v s) := wears_onPort fun _ => ⟨rfl, id, id⟩

theorem wears_needSpare (rx : Bool) (taken : needSpare q rx v s = some t) : Wears p n s t := by
  have numbered : Wears p n s (onPort q (fun x => { x with lastSub := x.lastSub + 1 }) s) := wears_onPort fun _ => ⟨rfl, id, id⟩
  unfold needSpare at taken
  dsimp only at taken
  split at taken
  · cases taken
  · split at taken
    · cases taken
      exact wears_startSub
    · split at taken
      · split at taken
        · cases taken
          split
          · exact (wears_raiseSub _).trans (wears_subSend ..)
          · exact wears_raiseSub _
        · cases taken
          exact Wears.refl
      · split at taken
        · cases taken
        · cases taken
          (repeat' split)
          · exact (numbered.trans wears_joinNeeds).trans (wears_subSend ..)
          · exact numbered.trans wears_joinNeeds
          · exact ((numbered.trans wears_joinNeeds).trans (wears_subSend ..)).trans wears_abandonCal
          · exact (numbered.trans wears_joinNeeds).trans wears_abandonCal

theorem wears_lineNeeds (reason : BitVec 8) (suspect : Bool) : Wears p n s (lineNeeds q m reason suspect s) := by
  unfold lineNeeds
  split
  · split
    · exact wears_out.trans wears_widthCheck
    · exact Wears.refl
  · dsimp only
    split
    next taken =>
      split at taken
      · exact (wears_out.trans (wears_needSpare _ taken)).trans wears_widthCheck
      · exact (wears_needSpare _ taken).trans wears_widthCheck
    · exact wears_lineRemoved

end

section
variable {s t u : State} {p q : Port} {n m : Line}

/-- A port without the scramblers of its lines. -/
def plainPort (q : PortSt) : PortSt := { q with line := vmk 35 fun n => { q.line[n.val] with txScr := 0 } }

/-- The state without the scramblers, what it has sent and the choices it has drawn. -/
def plain (s : State) : State := { s with port := vmk 64 fun p => plainPort s.port[p.val], out := [], fresh := 0 }

theorem plain_port : (plain s).port[p.val] = plainPort s.port[p.val] := vmk_val ..

theorem plain_beam : (plain s).beam = s.beam := by simp only [plain]

theorem plain_pln : (plain s).pln = s.pln := by simp only [plain]

theorem plain_img : (plain s).img = s.img := by simp only [plain]

theorem plainPort_fields (x : PortSt) : (plainPort x).state = x.state ∧ (plainPort x).step = x.step ∧ (plainPort x).penumbra = x.penumbra ∧
    (plainPort x).switchQ = x.switchQ ∧ (plainPort x).block = x.block ∧ (plainPort x).sub = x.sub := by
  simp only [plainPort, and_self]

theorem markerData_plain : markerData (plain s) p n = markerData s p n := by
  have power : (plainPort s.port[p.val]).line[n.val].rxPower = s.port[p.val].line[n.val].rxPower := by
    simp only [plainPort, vmk_val]
  obtain ⟨-, -, penumbra, -⟩ := plainPort_fields s.port[p.val]
  simp only [markerData, ownPlace, Fin.getElem_fin, plain_port, plain_pln, plain_img, power, penumbra]

theorem beamRec_plain (b : Beam) : beamRec (plain s) b = beamRec s b := by simp only [beamRec, plain_img]

theorem portOf_plain (b : Beam) : portOf (plain s) b = portOf s b := by simp only [portOf, beamRec_plain]

theorem beamsOf_plain : beamsOf (plain s) p = beamsOf s p :=
  List.filter_congr fun b _ => by rw [beamRec_plain, portOf_plain]

theorem passMask_plain : passMask (plain s) p = passMask s p := by
  obtain ⟨-, -, -, -, block, -⟩ := plainPort_fields s.port[p.val]
  simp only [passMask, Fin.getElem_fin, plain_port, block]

theorem planEntry_plain (b : Beam) : planEntry (plain s) b = planEntry s b := by
  obtain ⟨-, -, -, -, block, -⟩ := plainPort_fields s.port[(portOf s b).val]
  have place : portOf (plain s) b = portOf s b := portOf_plain b
  simp only [planEntry, place, Fin.getElem_fin, plain_port, block]

theorem darkLines_plain (x : PortSt) : darkLines (plainPort x) = darkLines x := by simp only [darkLines, plainPort]

theorem beamLines_plain : beamLines (plain s) p = beamLines s p := by
  have calTx (n : Line) : (plainPort s.port[p.val]).line[n.val].calTx = s.port[p.val].line[n.val].calTx := by
    simp only [plainPort, vmk_val]
  have carries : carried (plainPort s.port[p.val]) false = carried s.port[p.val] false := by simp only [carried, plainPort]
  simp only [beamLines, beamsOf_plain, planEntry_plain, passMask_plain, plain_beam, Fin.getElem_fin, plain_port, calTx, carries, darkLines_plain]

theorem expressMask_plain : expressMask (plain s) p = expressMask s p := by
  have record : portRec (plain s) p = portRec s p := by simp only [portRec, plain_img]
  rw [expressMask, passMask_plain, record, expressMask]

theorem litLines_plain : litLines (plain s) p = litLines s p := by
  obtain ⟨state, step, penumbra, -⟩ := plainPort_fields s.port[p.val]
  have port : (plain s).port[p] = plainPort s.port[p.val] := plain_port
  unfold litLines portUp dataLines
  dsimp only
  rw [port, state, step, penumbra, beamLines_plain, expressMask_plain]
  rfl

theorem sendLines_plain (b : Beam) : sendLines (plain s) b = sendLines s b := by
  have place : portOf (plain s) b = portOf s b := portOf_plain b
  obtain ⟨state, -⟩ := plainPort_fields s.port[(portOf s b).val]
  have port (q : Port) : (plain s).port[q] = plainPort s.port[q.val] := plain_port
  unfold sendLines portUp
  dsimp only
  rw [port, plain_beam, darkLines_plain]
  simp only [place]
  rw [state]
  rfl

theorem shareLines_plain : shareLines (plain s) p = shareLines s p := by
  have carries (n : Line) : carriers (plainPort s.port[p.val]) n = carriers s.port[p.val] n := by simp only [carriers, plainPort]
  simp only [shareLines, beamsOf_plain, plain_beam, sendLines_plain, Fin.getElem_fin, plain_port, carries]

theorem plain_onLine (x : BitVec 31) : plain (onLine q m (fun l => { l with txScr := x }) s) = plain s := by
  have same : (vmk 64 fun p : Fin 64 => plainPort (onLine q m (fun l => { l with txScr := x }) s).port[p.val]) = vmk 64 fun p :
    Fin 64 => plainPort s.port[p.val] := by
    refine congrArg (vmk 64) (funext fun p => ?_)
    by_cases here : p = q
    · subst here
      rw [onLine, onPort, upd_val_self]
      have lines : (fun n : Fin 35 => ({ (upd s.port[p.val].line m fun l => { l with txScr := x })[n.val] with txScr := 0 } : LineSt)) =
          fun n => { s.port[p.val].line[n.val] with txScr := 0 } := by
        funext n
        by_cases one : n = m
        · subst one
          rw [upd_val_self]
        · rw [upd_val_of_ne _ _ one]
      simp only [plainPort, lines]
    · rw [onLine, onPort, upd_val_of_ne _ _ here]
  rw [plain, same]
  simp only [plain, onLine, onPort]

theorem plain_markerTx : plain (markerTx q m s) = plain s := by
  rw [markerTx, plain_onLine]
  simp only [plain, emit]

theorem plain_idleTx : plain (idleTx q m s) = plain s := by
  unfold idleTx
  split
  · rfl
  · simp only [plain, spend, emit]

theorem plain_clockTx : plain (clockTx q s) = plain s := by
  unfold clockTx
  split
  · simp only [plain, emit]
  · rfl

/-- The markers of one port. -/
def portMarks (s : State) (p : Port) (t : State) : State :=
  clockTx p (((fins 35).filter fun n => (litLines s p).getLsbD n.val).foldl (fun u n => markerTx p n (idleTx p n u)) t)

theorem markersTx_eq : markersTx s = { (fins 64).foldl (fun t p => portMarks s p t) s with
    pln := { ((fins 64).foldl (fun t p => portMarks s p t) s).pln with marker :=
      ((fins 64).foldl (fun t p => portMarks s p t) s).pln.marker + 1 } } := rfl

theorem plain_lineMarks (l : List Line) : plain (l.foldl (fun u n => markerTx q n (idleTx q n u)) s) = plain s :=
  foldl_kept plain _ _ _ fun t n => by rw [plain_markerTx, plain_idleTx]

theorem plain_portMarks : plain (portMarks t q s) = plain s := by
  rw [portMarks, plain_clockTx, plain_lineMarks]

theorem plain_marks (l : List Port) : plain (l.foldl (fun u q => portMarks t q u) s) = plain s :=
  foldl_kept plain _ _ _ fun _ _ => plain_portMarks

/-- The scrambler of a line. -/
def txScr (p : Port) (n : Line) (t : State) : BitVec 31 := t.port[p.val].line[n.val].txScr

theorem txScr_markerTx : txScr p n (markerTx q m s) = if q = p ∧ m = n then scramStart n else txScr p n s := by
  by_cases here : q = p
  · subst here
    by_cases one : m = n
    · subst one
      simp only [txScr, markerTx, onLine, onPort, upd_val_self, true_and, if_true]
    · have kept (v : Vector LineSt 35) (f : LineSt → LineSt) : (upd v m f)[n.val] = v[n.val] := upd_val_of_ne _ _ (Ne.symm one)
      simp only [txScr, markerTx, onLine, onPort, upd_val_self, kept, one, and_false, if_false]
      rfl
  · have kept (v : Vector PortSt 64) (f : PortSt → PortSt) : (upd v q f)[p.val] = v[p.val] := upd_val_of_ne _ _ (Ne.symm here)
    simp only [txScr, markerTx, onLine, onPort, kept, here, false_and, if_false]
    rfl

theorem txScr_idleTx : txScr p n (idleTx q m s) = txScr p n s := by
  unfold idleTx
  split <;> rfl

theorem txScr_lineMarks (l : List Line) :
    txScr p n (l.foldl (fun u m => markerTx q m (idleTx q m u)) s) = if q = p ∧ n ∈ l then scramStart n else txScr p n s := by
  induction l generalizing s with
  | nil => simp
  | cons m l ih =>
    rw [List.foldl_cons, ih, txScr_markerTx, txScr_idleTx]
    by_cases here : q = p
    · by_cases one : m = n
      · subst one
        simp [here]
      · simp [here, one, Ne.symm one]
    · simp [here]

theorem txScr_portMarks : txScr p n (portMarks t q s) = if q = p ∧ (litLines t p).getLsbD n.val then scramStart n else txScr p n s := by
  have clock (u : State) : txScr p n (clockTx q u) = txScr p n u := by
    unfold clockTx
    split <;> rfl
  rw [portMarks, clock, txScr_lineMarks]
  by_cases here : q = p
  · subst here
    simp only [List.mem_filter, mem_fins, true_and]
  · simp [here]

theorem txScr_marks (l : List Port) : txScr p n (l.foldl (fun u q => portMarks t q u) s) =
    if p ∈ l ∧ (litLines t p).getLsbD n.val then scramStart n else txScr p n s := by
  induction l generalizing s with
  | nil => simp
  | cons q l ih =>
    rw [List.foldl_cons, ih, txScr_portMarks]
    by_cases here : q = p
    · cases lit : (litLines t p).getLsbD n.val
      · simp only [Bool.false_eq_true, and_false, if_false]
      · simp [here]
    · simp [here, Ne.symm here]

/-! ### What the markers send -/

variable {e : Emission}

theorem sent_foldl {α : Type} {g : State → α → State} (l : List α) (h : ∀ t x, e ∈ t.out → e ∈ (g t x).out) (there : e ∈ s.out) :
    e ∈ (l.foldl g s).out := List.foldlRecOn l g there fun t kept x _ => h t x kept

theorem sent_idleTx (there : e ∈ s.out) : e ∈ (idleTx q m s).out := by
  unfold idleTx
  split
  · exact there
  · exact List.mem_cons_of_mem _ there

theorem sent_lineMarks (l : List Line) (there : e ∈ s.out) : e ∈ (l.foldl (fun u m => markerTx q m (idleTx q m u)) s).out :=
  sent_foldl l (fun _ _ there => List.mem_cons_of_mem _ (List.mem_cons_of_mem _ (sent_idleTx there))) there

theorem sent_clockTx (there : e ∈ s.out) : e ∈ (clockTx q s).out := by
  unfold clockTx
  split
  · exact List.mem_cons_of_mem _ there
  · exact there

theorem sent_marks (l : List Port) (there : e ∈ s.out) : e ∈ (l.foldl (fun u q => portMarks t q u) s).out :=
  sent_foldl l (fun _ _ there => sent_clockTx (sent_lineMarks _ there)) there

/-- The turn of a port among the markers: what comes before it has left it as it was. -/
theorem marks_turn (p : Port) : ∃ u, plain u = plain s ∧ (∀ n, txScr p n u = txScr p n s) ∧
    ∀ e, e ∈ (portMarks s p u).out → e ∈ ((fins 64).foldl (fun t q => portMarks s q t) s).out := by
  obtain ⟨before, after, all, apart⟩ := List.eq_append_cons_of_mem (mem_fins p)
  refine ⟨before.foldl (fun u q => portMarks s q u) s, plain_marks before, fun n => ?_, fun e sent => ?_⟩
  · rw [txScr_marks, if_neg fun h => apart h.1]
  · rw [all, List.foldl_append, List.foldl_cons]
    exact sent_marks after sent

/-- The turn of a line among the markers of its port. -/
theorem lineMarks_turn {l : List Line} (lit : n ∈ l) : ∃ u, plain u = plain s ∧ txScr p n u = txScr p n s ∧
    ∀ e, e ∈ (markerTx p n (idleTx p n u)).out → e ∈ (l.foldl (fun u m => markerTx p m (idleTx p m u)) s).out := by
  obtain ⟨before, after, all, apart⟩ := List.eq_append_cons_of_mem lit
  refine ⟨before.foldl (fun u m => markerTx p m (idleTx p m u)) s, plain_lineMarks before, ?_, fun e sent => ?_⟩
  · rw [txScr_lineMarks, if_neg fun h => apart h.2]
  · rw [all, List.foldl_append, List.foldl_cons]
    exact sent_lineMarks after sent

/-- A lit line sends its marker, after IDLE codewords when it carries no flits (R230, R232). -/
theorem marker_sent (same : plain u = plain s) (scr : txScr p n u = txScr p n s) :
    Emission.marker p n (markerData s p n) ∈ (markerTx p n (idleTx p n u)).out ∧
    Emission.lineCodeword p n (lineEncode (markerData s p n)) ∈ (markerTx p n (idleTx p n u)).out ∧
    ((shareLines s p).getLsbD n.val = false → ∃ k, Emission.idleCodewords p n (idleWords 256 k (txScr p n s)) ∈
      (markerTx p n (idleTx p n u)).out) := by
  have word (t : State) (h : plain t = plain s) : markerData t p n = markerData s p n := by
    rw [← markerData_plain, h, markerData_plain]
  have share : shareLines u p = shareLines s p := by rw [← shareLines_plain, same, shareLines_plain]
  have data := word (idleTx p n u) (plain_idleTx.trans same)
  refine ⟨?_, ?_, fun idle => ⟨u.fresh, ?_⟩⟩
  · rw [← data]
    exact List.mem_cons_self ..
  · rw [← data]
    exact List.mem_cons_of_mem _ (List.mem_cons_self ..)
  · refine List.mem_cons_of_mem _ (List.mem_cons_of_mem _ ?_)
    rw [idleTx, share, idle, ← scr]
    exact List.mem_cons_self ..

theorem lineSt_of_plain {a b : LineSt} (h : { a with txScr := 0 } = { b with txScr := 0 }) : a = { b with txScr := a.txScr } := by
  cases a
  cases b
  simp only [LineSt.mk.injEq] at h ⊢
  simp only [h, and_self]

theorem line_of_plain (same : plain u = plain s) : u.port[p.val].line[n.val] = { s.port[p.val].line[n.val] with txScr := txScr p n u } ∧
    u.port[p.val].state = s.port[p.val].state := by
  have port : (plain u).port[p.val] = (plain s).port[p.val] := by rw [same]
  rw [plain_port, plain_port] at port
  obtain ⟨stateU, -⟩ := plainPort_fields u.port[p.val]
  obtain ⟨stateS, -⟩ := plainPort_fields s.port[p.val]
  refine ⟨?_, ?_⟩
  · have line : (plainPort u.port[p.val]).line[n.val] = (plainPort s.port[p.val]).line[n.val] := by rw [port]
    simp only [plainPort, vmk_val] at line
    exact lineSt_of_plain line
  · rw [← stateU, port, stateS]

theorem clock_sent (on : 2 ≤ s.port[p.val].state.toNat) (same : plain u = plain s) : Emission.clock p clockPattern ∈ (portMarks s p u).out := by
  obtain ⟨-, state⟩ := line_of_plain (p := p) (n := 0) ((plain_lineMarks (q := p)
    ((fins 35).filter fun n => (litLines s p).getLsbD n.val)).trans same)
  rw [portMarks, clockTx, if_pos (by rw [Fin.getElem_fin, state]; exact on)]
  exact List.mem_cons_self ..

/-- What a line sends and starts anew when all lit lines send their markers. -/
theorem marks_line (p : Port) (n : Line) : ∃ t, t = (fins 64).foldl (fun t q => portMarks s q t) s ∧
    ((litLines s p).getLsbD n.val = true → Emission.marker p n (markerData s p n) ∈ t.out ∧
      Emission.lineCodeword p n (lineEncode (markerData s p n)) ∈ t.out ∧ ((shareLines s p).getLsbD n.val = false →
        ∃ k, Emission.idleCodewords p n (idleWords 256 k (txScr p n s)) ∈ t.out)) := by
  refine ⟨_, rfl, fun lit => ?_⟩
  obtain ⟨u, same, scr, goes⟩ := marks_turn (s := s) p
  obtain ⟨w, same', scr', goes'⟩ := lineMarks_turn (p := p) (s := u)
    (List.mem_filter (p := fun n : Line => (litLines s p).getLsbD n.val) |>.2 ⟨mem_fins n, lit⟩)
  obtain ⟨marker, word, idle⟩ := marker_sent (same'.trans same) (scr'.trans (scr n))
  have there (e : Emission) (h : e ∈ (markerTx p n (idleTx p n w)).out) := goes e (sent_clockTx (goes' e h))
  exact ⟨there _ marker, there _ word, fun no => (idle no).imp fun k h => there _ h⟩

end

section
variable {s t : State} {p : Port} {n : Line} {raw : List Byte}

theorem lineMarkerRx_of_on (here : n.val ≠ 0) (on : receiverOn s p n = true) (pattern : raw.take 8 = linePattern) : lineMarkerRx p n raw s =
    if (byteAt raw 8).toNat ≠ n.val then
      wrongLine p n (byteAt raw 8).toNat (markerCame p n (w32 (leNat ((raw.drop 10).take 4))) (BitVec.ofNat 24 (leNat ((raw.drop 14).take 3))) s)
    else rightLine p n (BitVec.ofNat 16 (leNat ((raw.drop 18).take 2)))
      (markerCame p n (w32 (leNat ((raw.drop 10).take 4))) (BitVec.ofNat 24 (leNat ((raw.drop 14).take 3))) s) := by
  unfold lineMarkerRx
  dsimp only
  rw [if_neg (by simp [here, on]), if_neg (by simp [pattern])]

theorem onLine_line (f : LineSt → LineSt) : (onLine p n f s).port[p.val].line[n.val] = f s.port[p.val].line[n.val] := by
  simp only [onLine, onPort, upd_val_self]

theorem rightLine_of_right (power : BitVec 16) (right : s.port[p.val].line[n.val].wrong = false) :
    rightLine p n power s = onLine p n (fun l => { l with farPower := power, right := if l.wrong then l.right + 1 else l.right }) s := by
  have kept : (onLine p n (fun l => { l with farPower := power, right :=
    if l.wrong then l.right + 1 else l.right }) s).port[p.val].line[n.val].wrong = false := by
    rw [onLine_line]
    exact right
  unfold rightLine
  dsimp only [Fin.getElem_fin]
  rw [if_pos kept]

/-- A wrong line is marked and counted, and nothing that it sets off unmarks it. -/
theorem wears_wrongLine (named : ℕ) :
    Wears p n (onLine p n (fun l => { l with wrong := true, right := 0, counters := upd l.counters 2 (· + 1) }) s) (wrongLine p n named s) := by
  unfold wrongLine
  dsimp only
  (repeat' split)
  · exact wears_of_port rfl
  · exact Wears.refl
  · exact wears_spareLost.trans (wears_relockRing _)
  · exact wears_lineNeeds ..

theorem setOut_out : (setOut p n 0 true s).port[p.val].line[n.val].out.getLsbD 0 = true := by
  rw [setOut, onLine_line, putBit, if_pos rfl, getLsbD_setBit, decide_eq_true rfl, decide_eq_true (by decide : 0 < 2)]
  exact Bool.or_true _

theorem Wears.out (h : Wears p n s t) (out : s.port[p.val].line[n.val].out.getLsbD 0 = true) : t.port[p.val].line[n.val].out.getLsbD 0 = true := by
  obtain ⟨-, kept, -⟩ := h
  exact kept out

theorem lineRemoved_out : (lineRemoved p n s).port[p.val].line[n.val].out.getLsbD 0 = true := by
  have removed (t : State) : (widthCheck p (setOut p n 0 true t)).port[p.val].line[n.val].out.getLsbD 0 = true := wears_widthCheck.out setOut_out
  unfold lineRemoved
  dsimp only
  split
  · exact ((wears_logEvent ..).trans wears_askRetrain).out (removed _)
  · exact removed _

theorem lineNeeds_out (suspect : Bool) : (lineNeeds p n 2 suspect s).port[p.val].line[n.val].out.getLsbD 0 = true := by
  unfold lineNeeds
  split
  · rw [if_pos rfl]
    exact wears_widthCheck.out setOut_out
  · dsimp only
    rw [if_pos rfl]
    split
    next taken => exact ((wears_needSpare _ taken).trans wears_widthCheck).out setOut_out
    · exact lineRemoved_out

theorem onPort_here (f : PortSt → PortSt) : (onPort p f s).port[p.val] = f s.port[p.val] := upd_val_self ..

/-- A line that loses its alignment is out of place and out of service (R233). -/
theorem lineLost_ends (on : receiverOn s p n = true) : (lineLost p n s).port[p.val].line[n.val].aligned = false ∧
    (lineLost p n s).port[p.val].line[n.val].missed = 0 ∧ (portUp s.port[p.val] = true → n.val ≠ 0 →
      (lineLost p n s).port[p.val].line[n.val].out.getLsbD 0 = true ∧ (lineLost p n s).port[p.val].lineOk.getLsbD n.val = false) := by
  let lost := onLine p n (fun l => { l with aligned := false, missed := 0, lastCount := none }) s
  let down := onPort p (fun q => { q with lineOk := clrBit q.lineOk n.val }) lost
  have marks : down.port[p.val].line[n.val] = { s.port[p.val].line[n.val] with aligned := false, missed := 0, lastCount := none } := by
    rw [onPort_here]
    exact onLine_line _
  have clear : down.port[p.val].lineOk.getLsbD n.val = false := by
    rw [onPort_here, getLsbD_clrBit _ _ _ n.isLt, decide_eq_true rfl, Bool.not_true, Bool.and_false]
  have ends (u : State) (h : Wears p n down u) (out : u.port[p.val].line[n.val].out.getLsbD 0 = true) :
      u.port[p.val].line[n.val].aligned = false ∧ u.port[p.val].line[n.val].missed = 0 ∧ (portUp s.port[p.val] = true → n.val ≠ 0 →
        u.port[p.val].line[n.val].out.getLsbD 0 = true ∧ u.port[p.val].lineOk.getLsbD n.val = false) := by
    obtain ⟨markers, -, ok⟩ := h
    rw [marks] at markers
    simp only [markersOf, Prod.mk.injEq] at markers
    obtain ⟨aligned, missed, -⟩ := markers
    exact ⟨aligned, missed, fun _ _ => ⟨out, ok clear⟩⟩
  unfold lineLost
  dsimp only [Fin.getElem_fin]
  rw [if_neg (by rw [on]; decide)]
  split
  next quiet =>
    rw [onLine_line]
    refine ⟨rfl, rfl, fun up here => ?_⟩
    rw [up] at quiet
    exact absurd quiet (by simp [here])
  · split
    · exact ends _ (wears_out.trans wears_spareLost) (wears_spareLost.out setOut_out)
    · split
      next out => exact ends down Wears.refl (by rw [marks]; exact out)
      · exact ends _ (wears_lineNeeds ..) (lineNeeds_out _)

/-! ### The end of a requalification -/

variable {c : ℕ} {u : Subst}

/-- What a line has asked for, whether it is in its place, and the substitutions of its port. -/
def asking (p : Port) (n : Line) (t : State) : Bool × BitVec 2 × Vector (Option Subst) 4 :=
  (t.port[p.val].line[n.val].requal, t.port[p.val].line[n.val].out, t.port[p.val].sub)

theorem asking_of_port (h : t.port = s.port) : asking p n t = asking p n s := by rw [asking, h, asking]

theorem fecRx_asking (r : FecReport) (here : r.line = n) : asking p n (fecRx p [r] s) = asking p n s := by
  subst here
  have counted (f : Vector (BitVec 64) 3 → Vector (BitVec 64) 3) :
      asking p r.line (onLine p r.line (fun l => { l with counters := f l.counters }) s) = asking p r.line s := by
    simp only [asking, onLine, onPort, upd_val_self]
  have event (t : State) : asking p r.line (setEv blkPRT p.val 6 t) = asking p r.line t := by
    have here : fin! 64 p.val = p := Fin.ext (Nat.mod_eq_of_lt p.isLt)
    have core : (setEv blkPRT p.val 6 t).port = (onPort (fin! 64 p.val) (fun q => { q with event := setBit q.event 6 }) t).port := rfl
    rw [asking_of_port core, here, asking, onPort_here, asking]
  have logged (c k j : ℕ) (t : State) : asking p r.line (logEvent c blkPRT k j t) = asking p r.line t := asking_of_port (logEvent_port ..)
  rw [fecRx, List.foldl_cons, List.foldl_nil]
  dsimp only
  (repeat' split)
  · rw [event, logged, logged, counted fun v => upd (upd v 0 (· + BitVec.ofNat 64 r.corrected)) 1 (· + BitVec.ofNat 64 r.uncorrectable)]
  · rw [event, logged, counted fun v => upd (upd v 0 (· + BitVec.ofNat 64 r.corrected)) 1 (· + BitVec.ofNat 64 r.uncorrectable)]
  · rw [logged, counted fun v => upd (upd v 0 (· + BitVec.ofNat 64 r.corrected)) 1 (· + BitVec.ofNat 64 r.uncorrectable)]
  · rw [counted fun v => upd (upd v 0 (· + BitVec.ofNat 64 r.corrected)) 1 (· + BitVec.ofNat 64 r.uncorrectable)]

/-- The state in which a requalification has been counted. -/
theorem requalified_counts (asked : s.port[p.val].line[n.val].requal = true) (bad : Bool) : ∃ t, t.port[p.val].sub = s.port[p.val].sub ∧
    t.port[p.val].line[n.val].requal = false ∧ t.port[p.val].line[n.val].out = s.port[p.val].line[n.val].out ∧
    requalified p n c bad s = if lineQualifies c bad then
      (if 33 ≤ n.val then onPort p (fun q => { q with lineOk := setBit q.lineOk n.val }) (setOut p n 0 false t) else lineBack p n t) else t := by
  have kept := (fecRx_asking (p := p) (n := n) (s := onLine p n (fun l => { l with requal := false }) s) ⟨n, c, b2n bad⟩ rfl)
  simp only [asking, onLine_line, Prod.mk.injEq] at kept
  obtain ⟨requal, out, sub⟩ := kept
  refine ⟨_, ?_, requal, out, ?_⟩
  · rw [sub, onLine, onPort_here]
  · unfold requalified
    dsimp only [Fin.getElem_fin]
    rw [if_neg (by rw [asked]; decide)]

theorem lineQualifies_of_few (few : c ≤ 64) : lineQualifies c false = true := by
  rw [lineQualifies, decide_eq_true few]
  rfl

theorem widthCheck_asking : asking p n (widthCheck p s) = asking p n s ∧ (widthCheck p s).port[p.val].lineOk = s.port[p.val].lineOk := by
  have flagged (k : ℕ) (t : State) : asking p n (flag blkPRT p.val k t) = asking p n t ∧ (flag blkPRT p.val k t).port[p.val].lineOk =
    t.port[p.val].lineOk := by
    have here : fin! 64 p.val = p := Fin.ext (Nat.mod_eq_of_lt p.isLt)
    rw [asking, flag_prtPort, here, onPort_here]
    exact ⟨rfl, rfl⟩
  have moved (f : PortSt → PortSt) (line : ∀ q, (f q).line = q.line) (sub : ∀ q, (f q).sub = q.sub) (ok : ∀ q, (f q).lineOk = q.lineOk) :
      asking p n (onPort p f s) = asking p n s ∧ (onPort p f s).port[p.val].lineOk = s.port[p.val].lineOk := by
    simp only [asking, onPort_here, line, sub, ok, and_self]
  unfold widthCheck
  dsimp only
  split
  · obtain ⟨asks, ok⟩ := flagged 2 (onPort p (fun q => { q with state := 4, epoch := q.epoch + 1 }) s)
    obtain ⟨asks', ok'⟩ := moved (fun q => { q with state := 4, epoch := q.epoch + 1 }) (fun _ => rfl) (fun _ => rfl) fun _ => rfl
    exact ⟨asks.trans asks', ok.trans ok'⟩
  · split
    · obtain ⟨asks, ok⟩ := flagged 0 (onPort p (fun q => { q with state := 3, epoch := q.epoch + 1 }) s)
      obtain ⟨asks', ok'⟩ := moved (fun q => { q with state := 3, epoch := q.epoch + 1 }) (fun _ => rfl) (fun _ => rfl) fun _ => rfl
      exact ⟨asks.trans asks', ok.trans ok'⟩
    · exact ⟨rfl, rfl⟩

theorem setBit_here (e : LineSet) : (setBit e n.val).getLsbD n.val = true := by
  rw [getLsbD_setBit, decide_eq_true rfl, decide_eq_true n.isLt]
  exact Bool.or_true _

theorem putBit_clear (e : BitVec 2) : (putBit e 0 false).getLsbD 0 = false := by
  rw [putBit, if_neg (by decide), getLsbD_clrBit _ _ _ (by decide), decide_eq_true rfl]
  exact Bool.and_false _

/-- A data line that qualifies with no spare is back in its place. -/
theorem lineBack_of_none (none_ : (s.port[p.val].sub[subIx true (spareOf n)]).filter (fun u => u.line == n) = none)
    (asked : s.port[p.val].line[n.val].requal = false) : (lineBack p n s).port[p.val].line[n.val].requal = false ∧
      (lineBack p n s).port[p.val].line[n.val].out.getLsbD 0 = false ∧ (lineBack p n s).port[p.val].lineOk.getLsbD n.val = true := by
  let back := onPort p (fun q => { q with lineOk := setBit q.lineOk n.val }) (onLine p n (fun l => { l with wrong := false, right := 0 }) s)
  have line : (setOut p n 0 false back).port[p.val].line[n.val] =
      { s.port[p.val].line[n.val] with wrong := false, right := 0, out := putBit s.port[p.val].line[n.val].out 0 false } := by
    rw [setOut, onLine_line, onPort_here]
    exact congrArg (fun l : LineSt => { l with out := putBit l.out 0 false }) (onLine_line _)
  have ok : (setOut p n 0 false back).port[p.val].lineOk = setBit s.port[p.val].lineOk n.val := by
    simp only [setOut, onLine, back, onPort_here]
  obtain ⟨asks, okW⟩ := widthCheck_asking (p := p) (n := n) (s := setOut p n 0 false back)
  simp only [asking, line, Prod.mk.injEq] at asks
  obtain ⟨requal, out, -⟩ := asks
  have ends (t : State) (h : t.port = (widthCheck p (setOut p n 0 false back)).port) : t.port[p.val].line[n.val].requal = false ∧
      t.port[p.val].line[n.val].out.getLsbD 0 = false ∧ t.port[p.val].lineOk.getLsbD n.val = true := by
    simp only [h, requal, out, okW, ok]
    exact ⟨asked, putBit_clear _, setBit_here _⟩
  unfold lineBack
  dsimp only [Fin.getElem_fin]
  split
  next some_ => exact absurd (some_.symm.trans none_) (by simp)
  · split
    · exact ends _ (askRetrain_port ..)
    · exact ends _ rfl

/-- A data line with a standing spare returns from it. -/
theorem lineBack_of_standing (sub : s.port[p.val].sub[subIx true (spareOf n)] = some u) (line : u.line = n) (stands : u.phase = .standing) :
    (lineBack p n s).port[p.val].line[n.val].requal = s.port[p.val].line[n.val].requal ∧ (lineBack p n s).port[p.val].lineOk.getLsbD n.val = true ∧
      ((lineBack p n s).port[p.val].sub[subIx true (spareOf n)]).map (·.phase) = some .returning := by
  let back := onPort p (fun q => { q with lineOk := setBit q.lineOk n.val }) (onLine p n (fun l => { l with wrong := false, right := 0 }) s)
  have receives : ¬(subIx true (spareOf n)).val < 2 := by
    unfold subIx spareOf
    split <;> decide
  have port : (lineBack p n s).port = (putSub p (subIx true (spareOf n))
    (some { u with phase := .returning, goSeen := false, marker := 0 }) back).port := by
    have served : (s.port[p.val].sub[subIx true (spareOf n)]).filter (fun u => u.line == n) = some u := by
      rw [sub, Option.filter_some, if_pos (by rw [line]; exact beq_self_eq_true n)]
    unfold lineBack
    dsimp only [Fin.getElem_fin] at served ⊢
    rw [served]
    dsimp only
    rw [if_pos stands, startReturn, if_neg receives]
    exact pushCtl_port ..
  simp only [port, putSub, onPort_here, back, onLine, upd_val_self, Fin.getElem_fin]
  exact ⟨trivial, setBit_here _, rfl⟩

theorem spareBack (asked : s.port[p.val].line[n.val].requal = false) :
    (onPort p (fun q => { q with lineOk := setBit q.lineOk n.val }) (setOut p n 0 false s)).port[p.val].line[n.val].requal = false ∧
    (onPort p (fun q => { q with lineOk := setBit q.lineOk n.val }) (setOut p n 0 false s)).port[p.val].line[n.val].out.getLsbD 0 = false ∧
    (onPort p (fun q => { q with lineOk := setBit q.lineOk n.val }) (setOut p n 0 false s)).port[p.val].lineOk.getLsbD n.val = true := by
  simp only [setOut, onLine, onPort_here, upd_val_self]
  exact ⟨asked, putBit_clear _, setBit_here _⟩

end

/-- Settles O37: what a line that fails sets off takes it only further out (`Wears`), and the markers of one line leave the others as they are
  (`plain`). -/
theorem lineMarkersAndAlignment : Obligations.LineMarkersAndAlignment := by
  unfold Obligations.LineMarkersAndAlignment
  simp only [Fin.getElem_fin]
  refine ⟨fun p n raw s hs here on pattern named right => ⟨_, run_of_running _ s hs, ?right⟩,
    fun p n raw s hs here on pattern named => ⟨_, run_of_running _ s hs, ?wrong⟩,
    fun p n raw s hs off => ⟨_, run_of_running _ s hs, ?off⟩,
    fun s hs => ⟨_, run_of_running _ s hs, ?send⟩,
    fun p n s hs on => ⟨_, run_of_running _ s hs, ?lost⟩,
    fun p n s hs off => ⟨_, run_of_running _ s hs, ?unlit⟩,
    fun p n s hs up out => ⟨_, run_of_running _ s hs, ?asks⟩,
    fun p n c s hs asked spare few => ⟨_, run_of_running _ s hs, ?spare⟩,
    fun p n c s hs asked data few none_ => ⟨_, run_of_running _ s hs, ?back⟩,
    fun p n c u s hs asked data few sub line stands => ⟨_, run_of_running _ s hs, ?returns⟩,
    fun p n c s hs asked many => ⟨_, run_of_running _ s hs, ?fails⟩⟩
  case right =>
    rw [irqSettle_port, lineMarkerRx_of_on here on pattern, if_neg (by simp [named]), rightLine_of_right _
      (by rw [markerCame, onLine_line]; exact right),
      markerCame, onLine_line, onLine_line]
    refine ⟨rfl, rfl, rfl, fun next => ?_⟩
    simp [next]
  case wrong =>
    rw [irqSettle_port, lineMarkerRx_of_on here on pattern, if_pos named]
    obtain ⟨markers, -⟩ := wears_wrongLine (p := p) (n := n) (s := markerCame p n (w32 (leNat ((raw.drop 10).take 4)))
      (BitVec.ofNat 24 (leNat ((raw.drop 14).take 3))) s) (byteAt raw 8).toNat
    rw [onLine_line, markerCame, onLine_line] at markers
    simp only [markersOf, Prod.mk.injEq] at markers
    obtain ⟨-, missed, wrong, last, counters⟩ := markers
    refine ⟨wrong, missed, last, ?_⟩
    exact (vector_at counters 2 (by decide)).trans (upd_val_self _ 2 _)
  case off =>
    rw [irqSettle_port, lineMarkerRx]
    exact congrArg State.port (if_pos off)
  case send =>
    obtain same := plain_marks (s := s) (t := s) (fins 64)
    have beam : ((fins 64).foldl (fun t q => portMarks s q t) s).beam = s.beam := by rw [← plain_beam, same, plain_beam]
    have pln : ((fins 64).foldl (fun t q => portMarks s q t) s).pln = s.pln := by rw [← plain_pln, same, plain_pln]
    rw [irqSettle_pln, irqSettle_beam, irqSettle_port, markersTx_eq]
    refine ⟨by rw [pln], beam, fun p on => mem_out_irqSettle ?_, fun p n => ?_⟩
    · obtain ⟨u, plainU, -, goes⟩ := marks_turn (s := s) p
      exact goes _ (clock_sent on plainU)
    · obtain ⟨line, state⟩ := line_of_plain (p := p) (n := n) same
      obtain ⟨t, rfl, sent⟩ := marks_line (s := s) p n
      have scr := txScr_marks (p := p) (n := n) (s := s) (t := s) (fins 64)
      refine ⟨state, line, fun lit => ?_, fun unlit => ?_⟩
      · obtain ⟨marker, word, idle⟩ := sent lit
        rw [if_pos ⟨mem_fins p, lit⟩] at scr
        exact ⟨mem_out_irqSettle marker, scr, mem_out_irqSettle word, fun none_ => (idle none_).imp fun _ => mem_out_irqSettle⟩
      · rw [if_neg fun h => Bool.noConfusion (unlit.symm.trans h.2)] at scr
        exact scr
  case lost =>
    rw [irqSettle_port]
    exact lineLost_ends on
  case unlit =>
    rw [irqSettle_port, lineLost, if_pos off]
  case asks =>
    rw [irqSettle_port]
    have asks : requalify p n .rx s = onLine p n (fun l => { l with requal := true }) s := if_pos ⟨up, rfl, out⟩
    rw [asks, onLine_line]
    exact ⟨rfl, rfl⟩
  case spare =>
    obtain ⟨t, -, requal, -, ends⟩ := requalified_counts (c := c) asked false
    rw [irqSettle_port, ends, if_pos (lineQualifies_of_few few), if_pos spare]
    exact spareBack requal
  case back =>
    obtain ⟨t, sub, requal, -, ends⟩ := requalified_counts (c := c) asked false
    rw [irqSettle_port, ends, if_pos (lineQualifies_of_few few), if_neg (by omega)]
    exact lineBack_of_none (by rw [sub]; exact none_) requal
  case returns =>
    obtain ⟨t, same, requal, -, ends⟩ := requalified_counts (c := c) asked false
    rw [irqSettle_port, ends, if_pos (lineQualifies_of_few few), if_neg (by omega), ← requal]
    exact lineBack_of_standing (by rw [same]; exact sub) line stands
  case fails =>
    obtain ⟨t, -, requal, out, ends⟩ := requalified_counts (c := c) asked false
    have bad : lineQualifies c false = false := by rw [lineQualifies, decide_eq_false (by omega)]; rfl
    rw [irqSettle_port, ends, bad]
    exact ⟨requal, out⟩

end Sys2Proof.Machine
end

section
/-!
PROOFS. A ring that is found off its setpoint while a spare serves its line (refutes O38).
-/

-- In sequence: each worker of the elaborator takes its stack from the memory that a check may use.
set_option Elab.async false

namespace Sys2Proof.Machine

section

/-- A running device whose ring 71, the drop ring of line 1 of port 0, stands off its setpoint while a spare serves line 1 for a calibration. -/
def strayRing : State := { State.reset with
  dev := { State.reset.dev with sysRst := false, perst := false }
  img := { State.reset.img with image := some { beams := [{ valid := true, port := 0 }] } }
  port := upd State.reset.port 0 fun q => { q with
    state := 3, lineOk := 0x200000000, block := some (0, { port := 0, beams := [{ beam := 0, tx := 0, rx := 2 }], pass := 0 })
    sub := upd q.sub 2 fun _ => some { beam := 0, line := 1, reason := 0, request := 0, phase := .standing } }
  beam := upd State.reset.beam 0 fun q => { q with state := 3, rxMask := 2 }
  ring := { State.reset.ring with
    ring := [(71, { integ := 4 })]
    halo := [(71, { tc := 0, eff := 64 * 20, nb := [], tile := [], f0 := 0 })] } }

theorem strayRing_visited : running strayRing = true ∧ ringParked strayRing 71 = false ∧ (ringSt (ringVisit 71 10000 strayRing) 71).closed =
    false := by
  decide +kernel

end

/-- Refutes O38: a visit that finds the ring of line 1 off its setpoint raises the standing calibration of that line to a wrong lock, and the ring
relocks with its loop open (R301, R305). -/
theorem not_ringLoopsAndCalibrations : ¬ Obligations.RingLoopsAndCalibrations := by
  unfold Obligations.RingLoopsAndCalibrations
  intro h
  obtain ⟨visit, -⟩ := h
  obtain ⟨on, unparked, open_⟩ := strayRing_visited
  obtain ⟨t, ht, -, -, closes⟩ := visit 71 10000 .clean strayRing on (by decide) unparked (by decide)
  obtain ⟨closed, -⟩ := closes (.inr (.inr (by decide)))
  have answer : exec (.ringLoopVisit 71 10000 .clean) strayRing = .next (irqSettle (ringVisit 71 10000 strayRing)) := run_of_running _ _ on
  rw [answer] at ht
  injection ht with ht
  rw [← ht, ringSt, irqSettle_ring, ← ringSt, show (71 : Ring).val = 71 from rfl, open_] at closed
  cases closed

end Sys2Proof.Machine
end

section
/-!
PROOFS. The hand-over of a line to a spare (R293 to R296).
-/

-- In sequence: each worker of the elaborator takes its stack from the memory that a check may use.
set_option Elab.async false

namespace Sys2Proof.Machine

section
variable {s t u : State} {p q : Port} {b : Beam} {i : Fin 4} {v w : Subst} {n : Line} {f : Flit} {raw body : List Byte}

/-! ### What the arrival of a flit leaves of the port -/

/-- A port without the trims of its samplers. -/
def untrimmed (q : PortSt) : PortSt := { q with line := vmk 35 fun n => { q.line[n.val] with threshold := 0, trim := 0 } }

theorem untrimmed_keeps (x : PortSt) : (untrimmed x).sub = x.sub ∧ (untrimmed x).needs = x.needs ∧ (untrimmed x).state = x.state ∧
    (untrimmed x).penumbra = x.penumbra ∧ (untrimmed x).lineOk = x.lineOk ∧ (untrimmed x).partnerOk = x.partnerOk := by
  simp only [untrimmed, and_self]

theorem untrimmed_fields {x y : PortSt} (h : untrimmed x = untrimmed y) : x.sub = y.sub ∧ x.needs = y.needs ∧ x.state = y.state ∧
    x.penumbra = y.penumbra ∧ x.lineOk = y.lineOk ∧ x.partnerOk = y.partnerOk := by
  have keepsX := untrimmed_keeps x
  rw [h] at keepsX
  obtain ⟨sub, needs, state, penumbra, ok, partner⟩ := keepsX
  obtain ⟨sub', needs', state', penumbra', ok', partner'⟩ := untrimmed_keeps y
  exact ⟨sub.symm.trans sub', needs.symm.trans needs', state.symm.trans state', penumbra.symm.trans penumbra', ok.symm.trans ok',
    partner.symm.trans partner'⟩

theorem untrimmed_line {x y : PortSt} (h : untrimmed x = untrimmed y) (n : Line) : x.line[n.val].out = y.line[n.val].out ∧
    x.line[n.val].wrong = y.line[n.val].wrong ∧ x.line[n.val].farPlace = y.line[n.val].farPlace := by
  have line : (untrimmed x).line[n.val] = (untrimmed y).line[n.val] := by rw [h]
  simp only [untrimmed, vmk_val] at line
  exact ⟨(congrArg LineSt.out line :), (congrArg LineSt.wrong line :), (congrArg LineSt.farPlace line :)⟩

theorem trimsApply_untrimmed : untrimmed (trimsApply b s).port[q.val] = untrimmed s.port[q.val] := by
  by_cases here : q = portOf s b
  · subst here
    rw [trimsApply, onPort_here]
    have lines (c : Prop) [Decidable c] (l : LineSt) : ({ (if c then { l with threshold := l.threshold + l.trim, trim := 0 } else l) with
        threshold := 0, trim := 0 } : LineSt) = { l with threshold := 0, trim := 0 } := by
      split <;> rfl
    simp only [untrimmed, vmk_val, Fin.getElem_fin, lines]
  · rw [trimsApply, onPort, upd_val_of_ne _ _ here]

theorem tryResume_ctls : ((tryResume b s).beam[b.val]).ctl = (s.beam[b.val]).ctl := by
  unfold tryResume
  dsimp only
  split
  · simp only [resume, beamOpen, onBeam, upd_val_self]
  · rfl

/-- What the header of a flit that arrives leaves: the ports but for their trims, the plan and the image, and what the beam has still to send. -/
theorem headerRx_leaves : planned (headerRx b f (flitCame b raw s)) = planned s ∧
    (∀ q : Port, untrimmed (headerRx b f (flitCame b raw s)).port[q.val] = untrimmed s.port[q.val]) ∧
    ((headerRx b f (flitCame b raw s)).beam[b.val]).ctl = (s.beam[b.val]).ctl := by
  refine ⟨?_, fun q => ?_, ?_⟩
  · rw [headerRx, tryResume_planned, onBeam_planned, flitCame, trimsApply]
    exact onPort_planned _ (fun _ => rfl) fun _ => rfl
  · rw [headerRx, tryResume_port, onBeam_port, flitCame, trimsApply_untrimmed, onBeam_port]
  · rw [headerRx, tryResume_ctls, onBeam, upd_val_self]
    obtain ⟨_, _, _, _, _, _, kept, -⟩ := headed_kept f (flitCame b raw s).beam[b.val]
    have ctl : (headed f (flitCame b raw s).beam[b.val]).ctl = (flitCame b raw s).beam[b.val].ctl := by rw [kept]
    have came : (flitCame b raw s).beam = upd s.beam b (fun q => { q with
      rxWords := flitStart s b raw + 32, placeLost := q.placeLost && (flitOf (rebuilt s b raw)).isNone }) := rfl
    rw [came, upd_val_self] at ctl
    rw [came, upd_val_self]
    exact ctl

/-- A spare that can serve still can when nothing but trims has changed. -/
theorem spareOk_kept (plans : planned t = planned s) (ports : ∀ q : Port, untrimmed t.port[q.val] = untrimmed s.port[q.val]) :
    spareOk t p i b = spareOk s p i b := by
  obtain ⟨blocks, -, -, -, -, img⟩ := planned_fields plans
  obtain ⟨-, -, state, penumbra, ok, partner⟩ := untrimmed_fields (ports p)
  have line (n : Line) := untrimmed_line (ports p) n
  have pass (q : Port) : passMask t q = passMask s q := by
    obtain ⟨-, block⟩ := blocks q
    simp only [passMask, Fin.getElem_fin, block]
  obtain ⟨-, block⟩ := blocks p
  have place : portRec t p = portRec s p := by simp only [portRec, img]
  have express : expressMask t p = expressMask s p := by rw [expressMask, pass, place, expressMask]
  have out (n : Line) : t.port[p.val].line[n.val].out = s.port[p.val].line[n.val].out := And.left (line n)
  have wrong (n : Line) : t.port[p.val].line[n.val].wrong = s.port[p.val].line[n.val].wrong := And.left (And.right (line n))
  have far (n : Line) : t.port[p.val].line[n.val].farPlace = s.port[p.val].line[n.val].farPlace := And.right (And.right (line n))
  have record : beamRec t b = beamRec s b := by simp only [beamRec, img]
  have order : inOrder t.port[p.val] 0 = inOrder s.port[p.val] 0 := by simp only [inOrder, Fin.getElem_fin, out]
  simp only [spareOk, spareWorks, pathPasses, portUp, Fin.getElem_fin, state, penumbra, ok, partner, pass, express, wrong, far, record, order, img,
    block]

end

section
variable {s t u : State} {p q : Port} {b : Beam} {i : Fin 4} {v w : Subst} {n : Line} {f : Flit} {raw body : List Byte}

/-! ### The substitutions of a port and what its beams have to send -/

theorem putSub_sub (v : Option Subst) : (putSub p i v s).port[p.val].sub[i.val] = v := by rw [putSub, onPort_here, upd_val_self]

theorem subSend_port (k : ℕ) (back : Bool) : (subSend p k v back s).port = s.port := pushCtl_port ..

theorem subSend_ctl (k : ℕ) (back : Bool) : (subSend p k v back s).beam[v.beam.val].ctl =
    s.beam[v.beam.val].ctl ++ [⟨5, subPayload s p k v back⟩] := by
  rw [subSend, pushCtl, onBeam, upd_val_self]

theorem subSend_length (k : ℕ) (back : Bool) :
    ((subSend p k v back s).beam[v.beam.val].ctl).length = (s.beam[v.beam.val].ctl).length + 1 := by
  rw [subSend_ctl, List.length_append, List.length_singleton]

theorem takeSpare_sub : (takeSpare p i v s).port[p.val].sub[i.val] = some v := putSub_sub _

/-- The owner grants a take-over with a marker of its own (R296). -/
theorem ownerGo_takes : ((((ownerGo p i v false s).port[p.val]).sub[i.val]).map fun u => (u.line, u.phase, u.request, u.goSeen)) =
      some (v.line, .going, v.request, true) ∧
    ((ownerGo p i v false s).beam[v.beam.val].ctl).length = (s.beam[v.beam.val].ctl).length + 1 := by
  have goes : ownerGo p i v false s = subSend p 4 (withMarker { v with phase := .going } s).1 false
      (takeSpare p i (withMarker { v with phase := .going } s).1 (withMarker { v with phase := .going } s).2) := rfl
  rw [goes]
  refine ⟨?_, subSend_length ..⟩
  simp only [subSend_port, takeSpare_sub]
  rfl

theorem subRequest_takes (place : portOf u b = p) (line : subLine body = some n) (kind : byteAt body 0 = 3) (takes : byteAt body 4 = 0) :
    subRequestMsg b body u = takeOverAsked p (subIx false (spareOf n)) b n body u := by
  subst place
  simp only [subRequestMsg, line, kind, takes, ne_eq, not_true_eq_false, if_false, if_true]

theorem subGo_takes (place : portOf u b = p) (line : subLine body = some n) (kind : byteAt body 0 = 4) (takes : byteAt body 4 = 0) :
    subGoMsg b body u = goTakeOver p (subIx true (spareOf n)) b n body u := by
  subst place
  simp only [subGoMsg, line, kind, takes, ne_eq, not_true_eq_false, if_false, if_true]

theorem subApplied_stands (place : portOf u b = p) (line : subLine body = some n) (kind : byteAt body 0 = 5) (takes : byteAt body 4 = 0)
    (sub : u.port[p.val].sub[(subIx false (spareOf n)).val] = some v) (here : v.line = n) (going : v.phase = .going) :
    subAppliedMsg b body u = subStands p (subIx false (spareOf n)) v u := by
  subst place
  simp only [subAppliedMsg, line, kind, takes, Fin.getElem_fin, sub, here, going, ne_eq, not_true_eq_false, or_self, if_false, and_self, if_true]

/-- The substitution that a request asks for (R295). -/
def asked (b : Beam) (n : Line) (body : List Byte) : Subst where
  beam := b
  line := n
  reason := byteAt body 5
  request := byteAt body 1
  phase := .going
  suspect := (byteAt body 10).getLsbD 0

theorem takeOverAsked_granted (free : u.port[p.val].sub[i.val] = none) (can : spareOk u p i b = true) :
    ((((takeOverAsked p i b n body u).port[p.val]).sub[i.val]).map fun u => (u.line, u.phase, u.request, u.goSeen)) =
      some (n, .going, byteAt body 1, true) ∧ ((takeOverAsked p i b n body u).beam[b.val].ctl).length = (u.beam[b.val].ctl).length + 1 := by
  unfold takeOverAsked
  dsimp only [Fin.getElem_fin]
  rw [if_neg (by rw [can]; decide), free]
  dsimp only
  obtain ⟨sub, ctl⟩ := ownerGo_takes (p := p) (i := i) (v := asked b n body) (s := if byteAt body 5 = 2 then setOut p n 1 true u else u)
  refine ⟨sub, ctl.trans ?_⟩
  split <;> rfl

end

section
variable {s t u : State} {p q : Port} {b : Beam} {i : Fin 4} {v w : Subst} {n : Line} {f : Flit} {raw body : List Byte}

theorem onPort_needs {g : PortSt → PortSt} : (onPort p g s).port[p.val].needs = (g s.port[p.val]).needs := by rw [onPort_here]

/-- The substitution that a go of the owner's own brings (R305). -/
def brought (b : Beam) (n : Line) (body : List Byte) : Subst where
  beam := b
  line := n
  reason := byteAt body 5
  request := byteAt body 1
  phase := .going
  rx := true

/-- The substitution that a go serves: a need that waits for the line, or what the owner brings. -/
def served (b : Beam) (n : Line) (body : List Byte) (needs : List Subst) : Subst :=
  { (needs.find? fun u => u.rx && u.line == n).getD (brought b n body) with
    phase := .going, marker := w32 (leNat ((body.drop 6).take 4)), goSeen := true }

theorem served_line (needs : List Subst) : (served b n body needs).line = n := by
  unfold served
  dsimp only
  cases found : needs.find? fun u => u.rx && u.line == n with
  | none => rfl
  | some w =>
    have both := List.find?_some found
    simp only [Bool.and_eq_true, beq_iff_eq] at both
    obtain ⟨-, line⟩ := both
    exact line

theorem served_beam {needs : List Subst} (none_ : needs.find? (fun u => u.rx && u.line == n) = none) : (served b n body needs).beam = b := by
  rw [served, none_]
  rfl

/-- The lines that still wait when a go for one of them is taken. -/
def unserved (p : Port) (n : Line) (s : State) : State := onPort p (fun q => { q with needs := q.needs.filter fun u => !(u.rx && u.line == n) }) s

theorem goTakeOver_free (free : u.port[p.val].sub[i.val] = none) :
    goTakeOver p i b n body u = takeSpare p i (served b n body u.port[p.val].needs) (unserved p n u) := by
  unfold goTakeOver
  dsimp only [Fin.getElem_fin]
  rw [free]
  rfl

theorem goTakeOver_other (sub : u.port[p.val].sub[i.val] = some v) (other : v.line ≠ n) (asks : v.phase = .requested) :
    goTakeOver p i b n body u = takeSpare p i (served b n body u.port[p.val].needs) (unserved p n (joinNeeds p v u)) := by
  unfold goTakeOver
  dsimp only [Fin.getElem_fin]
  rw [sub]
  dsimp only
  rw [if_pos other, if_pos asks]
  rfl

/-- A request that gives way joins those that wait. -/
theorem joinNeeds_waits : ∃ w ∈ (joinNeeds p v s).port[p.val].needs, w.rx = v.rx ∧ w.line = v.line := by
  rw [joinNeeds, onPort_needs]
  dsimp only
  split
  next some_ =>
    obtain ⟨w, there, same⟩ := List.any_eq_true.1 some_
    refine ⟨_, List.mem_map.2 ⟨w, there, rfl⟩, ?_⟩
    rw [if_pos same]
    simp only [Bool.and_eq_true, beq_iff_eq] at same
    exact same
  · exact ⟨v, List.mem_append.2 (.inr (List.mem_singleton.2 rfl)), rfl, rfl⟩

theorem unserved_waits (h : ∃ w ∈ s.port[p.val].needs, w.rx = v.rx ∧ w.line = v.line) (other : v.line ≠ n) :
    ∃ w ∈ (unserved p n s).port[p.val].needs, w.rx = v.rx ∧ w.line = v.line := by
  obtain ⟨w, there, rx, line⟩ := h
  refine ⟨w, ?_, rx, line⟩
  rw [unserved, onPort_needs]
  refine List.mem_filter.2 ⟨there, ?_⟩
  simp [line, other]

theorem takeSpare_needs : (takeSpare p i v s).port[p.val].needs = s.port[p.val].needs := by
  rw [takeSpare, putSub, onPort_needs, stopCal, onLine, onPort_needs]

/-- The substitutions of a port, its needs, what of its lines is in order, and the beams. -/
def subState (p : Port) (t : State) : Vector (Option Subst) 4 × List Subst × LineSet × (Line → Bool) × Vector BeamSt 256 :=
  (t.port[p.val].sub, t.port[p.val].needs, t.port[p.val].lineOk, fun n => t.port[p.val].line[n.val].wrong, t.beam)

theorem subState_fields (h : subState p t = subState p s) : t.port[p.val].sub = s.port[p.val].sub ∧ t.port[p.val].needs = s.port[p.val].needs ∧
    t.port[p.val].lineOk = s.port[p.val].lineOk ∧ (∀ n : Line, t.port[p.val].line[n.val].wrong = s.port[p.val].line[n.val].wrong) ∧ t.beam =
      s.beam := by
  simp only [subState, Prod.mk.injEq] at h
  obtain ⟨sub, needs, ok, wrong, beam⟩ := h
  exact ⟨sub, needs, ok, congrFun wrong, beam⟩

theorem onLine_subState {g : LineSt → LineSt} (h : ∀ l, (g l).wrong = l.wrong) : subState p (onLine p n g s) = subState p s := by
  have wrong (k : Line) : (upd s.port[p.val].line n g)[k.val].wrong = s.port[p.val].line[k.val].wrong := by
    by_cases here : k = n
    · subst here
      rw [upd_val_self, h]
    · rw [upd_val_of_ne _ _ here]
  simp only [subState, onLine, onPort_here, wrong]
  rfl

theorem subServes_subState : subState p (subServes p i v s) = subState p s := by
  have logged (c k j m : ℕ) (t : State) : subState p (logEvent c k j m t) = subState p t := by simp [subState]
  have relocks (t : State) : subState p (subRelocks p i v t) = subState p t := by
    unfold subRelocks
    (repeat' split) <;> rfl
  unfold subServes
  dsimp only
  rw [relocks]
  split
  · exact logged ..
  · split
    · exact logged ..
    · rfl

theorem subCalibrates_subState (none_ : v.reason = 0 → v.own = true → ∀ w ∈ s.port[p.val].needs, subIx w.rx (spareOf w.line) = i → w.reason = 0) :
    subState p (subCalibrates p i v s) = subState p s := by
  unfold subCalibrates
  split
  next both =>
    obtain ⟨reason, own⟩ := both
    rw [if_neg ?_]
    · split
      · exact onLine_subState fun _ => rfl
      · exact onLine_subState fun _ => rfl
    · simp only [Fin.getElem_fin, List.any_eq_true, Bool.and_eq_true, beq_iff_eq, bne_iff_ne, not_exists, not_and]
      exact fun w there same other => other (none_ reason own w there same)
  · rfl

theorem widthCheck_subState : subState p (widthCheck p s) = subState p s := by
  have moved (f : PortSt → PortSt) (line : ∀ q, (f q).line = q.line) (sub : ∀ q, (f q).sub = q.sub) (ok : ∀ q, (f q).lineOk = q.lineOk)
      (needs : ∀ q, (f q).needs = q.needs) (t : State) : subState p (onPort p f t) = subState p t := by
    simp only [subState, onPort_here, line, sub, ok, needs]
    rfl
  have flagged (k : ℕ) (t : State) : subState p (flag blkPRT p.val k t) = subState p t := by
    have here : fin! 64 p.val = p := Fin.ext (Nat.mod_eq_of_lt p.isLt)
    have beam : (flag blkPRT p.val k t).beam = t.beam := by simp
    have port : subState p (flag blkPRT p.val k t) = subState p (onPort p (fun q => { q with event := setBit q.event k }) t) := by
      rw [subState, flag_prtPort, here, beam]
      rfl
    rw [port]
    exact moved (fun q => { q with event := setBit q.event k }) (fun _ => rfl) (fun _ => rfl) (fun _ => rfl) (fun _ => rfl) t
  unfold widthCheck
  dsimp only
  split
  · rw [flagged]
    exact moved (fun q => { q with state := 4, epoch := q.epoch + 1 }) (fun _ => rfl) (fun _ => rfl) (fun _ => rfl) (fun _ => rfl) s
  · split
    · rw [flagged]
      exact moved (fun q => { q with state := 3, epoch := q.epoch + 1 }) (fun _ => rfl) (fun _ => rfl) (fun _ => rfl) (fun _ => rfl) s
    · rfl

/-- A substitution that stands. -/
def stood (v : Subst) : Subst := { v with phase := .standing, goSeen := false }

theorem subStands_eq : subStands p i v s = widthCheck p (subRecovered p i v
    (subCalibrates p i v (subServes p i v (putSub p i (some (stood v)) s)))) := rfl

theorem putSub_needs (o : Option Subst) : (putSub p i o s).port[p.val].needs = s.port[p.val].needs := by rw [putSub, onPort_needs]

/-- A substitution whose line stays out and before which nothing takes precedence stands (R296). -/
theorem subStands_stays (none_ : noHigherNeed p i v s) (out : i.val < 2 ∨ v.reason = 0 ∨ s.port[p.val].lineOk.getLsbD v.line.val = false ∨
    s.port[p.val].line[v.line.val].wrong = true) : subState p (subStands p i v s) = subState p (putSub p i (some (stood v)) s) := by
  have quiet : subState p (subCalibrates p i v (subServes p i v (putSub p i (some (stood v)) s))) = subState p (putSub p i (some (stood v)) s) := by
    obtain ⟨-, needs, -⟩ := subState_fields (subServes_subState (p := p) (i := i) (v := v) (s := putSub p i (some (stood v)) s))
    refine (subCalibrates_subState fun reason own w there same => ?_).trans subServes_subState
    rw [needs, putSub_needs] at there
    exact none_ reason own w there same
  rw [subStands_eq, widthCheck_subState, ← quiet]
  obtain ⟨-, -, ok, wrong, -⟩ := subState_fields quiet
  unfold subRecovered
  split
  · rw [if_neg]
    rintro ⟨receives, reason, back, right⟩
    rw [Fin.getElem_fin, ok, putSub, onPort_here] at back
    rw [Fin.getElem_fin, Fin.getElem_fin, wrong, putSub, onPort_here] at right
    rcases out with sends | none' | lost | wrong'
    · omega
    · exact reason none'
    · exact Bool.noConfusion (lost.symm.trans back)
    · exact Bool.noConfusion (right.symm.trans wrong')
  · rfl

/-- A receiving end that asks for the return of a line. -/
theorem startReturn_returns (receives : 2 ≤ i.val) : (startReturn p i v s).port[p.val].sub[i.val] =
    some { v with phase := .returning, goSeen := false, marker := 0 } := by
  unfold startReturn
  rw [if_neg (by omega)]
  dsimp only
  rw [subSend_port, putSub_sub]

theorem widthCheck_sub : (widthCheck p s).port[p.val].sub = s.port[p.val].sub := by
  obtain ⟨sub, -⟩ := subState_fields (widthCheck_subState (p := p) (s := s))
  exact sub

/-- A line that has recovered meanwhile goes back at once (R296). -/
theorem subStands_recovered (receives : 2 ≤ i.val) (fault : v.reason ≠ 0) (back : s.port[p.val].lineOk.getLsbD v.line.val = true)
    (right : s.port[p.val].line[v.line.val].wrong = false) :
    (subStands p i v s).port[p.val].sub[i.val] = some { stood v with phase := .returning, goSeen := false, marker := 0 } := by
  have idle (t : State) : subCalibrates p i v t = t := if_neg fun both => fault both.1
  obtain ⟨sub, -, ok, wrong, -⟩ := subState_fields (subServes_subState (p := p) (i := i) (v := v) (s := putSub p i (some (stood v)) s))
  have here : (subServes p i v (putSub p i (some (stood v)) s)).port[p.val].sub[i.val] = some (stood v) := by
    simp only [sub, putSub_sub]
  have ok' : (subServes p i v (putSub p i (some (stood v)) s)).port[p.val].lineOk.getLsbD v.line.val = true := by
    rw [ok, putSub, onPort_here]
    exact back
  have right' : (subServes p i v (putSub p i (some (stood v)) s)).port[p.val].line[v.line.val].wrong = false := by
    rw [wrong, putSub, onPort_here]
    exact right
  simp only [subStands_eq, widthCheck_sub, idle, subRecovered, Fin.getElem_fin, here, ok', right', receives, fault, ne_eq, not_false_eq_true,
    and_self, if_true]
  exact startReturn_returns receives

/-- A calibration in the way of a higher need goes back at once (R294). -/
theorem subStands_abandoned (receives : 2 ≤ i.val) (reason : v.reason = 0) (own : v.own = true) (there : w ∈ s.port[p.val].needs)
    (same : subIx w.rx (spareOf w.line) = i) (higher : w.reason ≠ 0) :
    (subStands p i v s).port[p.val].sub[i.val] = some { stood v with phase := .returning, goSeen := false, marker := 0 } := by
  obtain ⟨sub, needs, -⟩ := subState_fields (subServes_subState (p := p) (i := i) (v := v) (s := putSub p i (some (stood v)) s))
  have here : (subServes p i v (putSub p i (some (stood v)) s)).port[p.val].sub[i.val] = some (stood v) := by
    simp only [sub, putSub_sub]
  have waits : (subServes p i v (putSub p i (some (stood v)) s)).port[p.val].needs.any
    (fun w => subIx w.rx (spareOf w.line) == i && w.reason != 0) = true := by
    rw [needs, putSub_needs, List.any_eq_true]
    exact ⟨w, there, by rw [same, beq_self_eq_true, Bool.true_and, bne_iff_ne]; exact higher⟩
  have abandons (t : State) (here : t.port[p.val].sub[i.val] = some (stood v)) :
      abandonCal p i t = startReturn p i (stood v) (stopCal p (stood v).line (decide (2 ≤ i.val)) t) := by
    simp only [abandonCal, Fin.getElem_fin, here]
    exact if_pos ⟨reason, rfl⟩
  have ends : (subCalibrates p i v (subServes p i v (putSub p i (some (stood v)) s))).port[p.val].sub[i.val] =
      some { stood v with phase := .returning, goSeen := false, marker := 0 } := by
    have calibrates : subCalibrates p i v (subServes p i v (putSub p i (some (stood v)) s)) =
        abandonCal p i (subServes p i v (putSub p i (some (stood v)) s)) := (if_pos ⟨reason, own⟩).trans (if_pos waits)
    rw [calibrates, abandons _ here]
    exact startReturn_returns receives
  have recovers (t : State) : subRecovered p i v t = t := by
    unfold subRecovered
    split
    · exact if_neg fun all => all.2.1 reason
    · rfl
  simp only [subStands_eq, widthCheck_sub, recovers, ends]

theorem portOf_planned (h : planned t = planned s) : portOf t b = portOf s b := by
  obtain ⟨-, -, -, -, -, img⟩ := planned_fields h
  simp only [portOf, beamRec, img]

theorem subMarker_goes {upper : Bool} (sub : s.port[p.val].sub[(subIx true (b2n upper)).val] = some v) (seen : v.goSeen = true)
    (going : v.phase = .going) :
    subMarker p upper v.marker s = subSend p 5 v false (subStands p (subIx true (b2n upper)) v s) := by
  simp only [subMarker, Fin.getElem_fin, sub, seen, going, ne_eq, not_true_eq_false, Bool.true_eq_false, or_self, if_false, if_true]

theorem subIx_receives (upper : Bool) : 2 ≤ (subIx true (b2n upper)).val := by cases upper <;> decide

theorem subIx_sends (n : Line) : (subIx false (spareOf n)).val < 2 := by
  unfold subIx spareOf
  split <;> decide

end

/-- Settles O39: the arrival of a flit leaves the port but for its trims (`headerRx_leaves`),
  and what a substitution that stands sets off leaves the rest
of them (`subStands_stays`). -/
theorem substitutionHandshake : Obligations.SubstitutionHandshake := by
  unfold Obligations.SubstitutionHandshake
  simp only [Fin.getElem_fin]
  refine ⟨fun b raw f n s came line kind takes free can => ⟨_, run_of_running _ s came.1, ?request⟩,
    fun b raw f n s came line kind takes free => ⟨_, run_of_running _ s came.1, ?go⟩,
    fun b raw f n u s came line kind takes sub other asks => ⟨_, run_of_running _ s came.1, ?crosses⟩,
    fun p upper u s hs sub seen going higher out => ⟨_, run_of_running _ s hs, ?stands⟩,
    fun p upper u s hs sub seen going fault back right => ⟨_, run_of_running _ s hs, ?recovered⟩,
    fun p upper u v s hs sub seen going cal own there same higher => ⟨_, run_of_running _ s hs, ?abandoned⟩,
    fun b raw f n u s came line kind takes sub here going higher => ⟨_, run_of_running _ s came.1, ?applied⟩,
    fun p upper u s hs sub going => ⟨_, run_of_running _ s hs, ?again⟩⟩ <;> rw [irqSettle_port]
  case request =>
    obtain ⟨plans, ports, ctl⟩ := headerRx_leaves (s := s) (b := b) (raw := raw) (f := f)
    obtain ⟨sub, -⟩ := untrimmed_fields (ports (portOf s b))
    rw [ctlRx_of_arrives came, subRequest_takes (portOf_planned plans) line kind takes, irqSettle_beam, ← ctl]
    exact takeOverAsked_granted (by simp only [sub, free]) ((spareOk_kept plans ports).trans can)
  case go =>
    obtain ⟨plans, ports, -⟩ := headerRx_leaves (s := s) (b := b) (raw := raw) (f := f)
    obtain ⟨sub, needs, -⟩ := untrimmed_fields (ports (portOf s b))
    rw [ctlRx_of_arrives came, subGo_takes (portOf_planned plans) line kind takes, goTakeOver_free (by simp only [sub, free]), needs]
    simp only [takeSpare_sub, Option.map_some, served_line, Option.some.injEq]
    exact ⟨rfl, served_beam⟩
  case crosses =>
    obtain ⟨plans, ports, -⟩ := headerRx_leaves (s := s) (b := b) (raw := raw) (f := f)
    obtain ⟨sub', -⟩ := untrimmed_fields (ports (portOf s b))
    rw [ctlRx_of_arrives came, subGo_takes (portOf_planned plans) line kind takes, goTakeOver_other (by simp only [sub', sub]) other asks]
    refine ⟨?_, ?_⟩
    · simp only [takeSpare_sub, Option.map_some, served_line]
      rfl
    · rw [takeSpare_needs]
      exact unserved_waits joinNeeds_waits other
  case stands =>
    obtain ⟨sub', -, -, -, beam⟩ := subState_fields (subStands_stays higher (.inr out))
    rw [irqSettle_beam, subMarker_goes sub seen going]
    refine ⟨?_, ?_⟩
    · simp only [subSend_port, sub', putSub_sub]
      rfl
    · rw [subSend_length, beam]
      rfl
  case recovered =>
    rw [subMarker_goes sub seen going]
    simp only [subSend_port, subStands_recovered (subIx_receives _) fault back right]
    rfl
  case abandoned =>
    rw [subMarker_goes sub seen going]
    simp only [subSend_port, subStands_abandoned (subIx_receives _) cal own there same higher]
    rfl
  case applied =>
    obtain ⟨plans, ports, -⟩ := headerRx_leaves (s := s) (b := b) (raw := raw) (f := f)
    obtain ⟨sub', needs, -⟩ := untrimmed_fields (ports (portOf s b))
    rw [ctlRx_of_arrives came, subApplied_stands (portOf_planned plans) line kind takes (by simp only [sub', sub]) here going]
    obtain ⟨stands, -⟩ := subState_fields (subStands_stays (p := portOf s b) (i := subIx false (spareOf n)) (v := u)
      (s := headerRx b f (flitCame b raw s)) (fun cal own w there => higher cal own w (by simpa only [Fin.getElem_fin, needs] using there))
        (.inl (subIx_sends _)))
    simp only [stands, putSub_sub]
    rfl
  case again =>
    have goes : subRepeat p .tx upper s = subSend p 4 u false s := by
      simp only [subRepeat, Fin.getElem_fin, show (Dir.tx == Dir.rx) = false from rfl, sub, going]
      rfl
    rw [goes, irqSettle_beam, subSend_ctl]
    exact ⟨rfl, subSend_port ..⟩

end Sys2Proof.Machine
end

section
/-!
PROOFS. The sideband link of a site (R358 to R360, Table 11.6).
-/

-- In sequence: each worker of the elaborator takes its stack from the memory that a check may use.
set_option Elab.async false

namespace Sys2Proof.Machine

section
variable {s t : State} {x : SiteIx} {m : Slot} {raw : List Byte} {n : ℕ} {f : Site → Site} {g : Sideband → Sideband}

/-! ### The site of a step -/

theorem onSite_here : (onSite x f s).site[x.val] = f s.site[x.val] := upd_val_self ..

theorem onSb_here : (onSb x g s).site[x.val] = { s.site[x.val] with sb := g s.site[x.val].sb } := upd_val_self ..

/-- A site's event bit stands in the block of its kind of port. -/
theorem setEv_ofSite : setEv (siteBlk x) (siteInst x) n s = onSite x (fun q => { q with event := setBit q.event n }) s := by
  unfold siteBlk siteInst
  by_cases wide : x.val < 4
  · have here : fin! 6 x.val = x := Fin.ext (Nat.mod_eq_of_lt x.isLt)
    rw [if_pos wide, if_pos wide]
    exact congrArg (fun y => onSite y (fun q => { q with event := setBit q.event n }) s) here
  · have here : fin! 6 (x.val - 4 + 4) = x := by
      rw [Nat.sub_add_cancel (by omega)]
      exact Fin.ext (Nat.mod_eq_of_lt x.isLt)
    rw [if_neg wide, if_neg wide]
    exact congrArg (fun y => onSite y (fun q => { q with event := setBit q.event n }) s) here

theorem eventBit_ofSite (c : ℕ) : (eventBit c (siteBlk x) (siteInst x) n s).site =
    (onSite x (fun q => { q with event := setBit q.event n }) s).site := by
  rw [eventBit, logEvent_site, setEv_ofSite]

/-- A site that is contained (R347): what its token queue holds is left out, which an aborted epoch adds to. -/
theorem containSite_siteCore (reason code : ℕ) : siteCore x (containSite x reason code s) = { siteIdle s.site[x.val] with
    state := 5, reason := BitVec.ofNat 4 reason, rstn := true, epoch := s.site[x.val].epoch + 1, event := setBit s.site[x.val].event 2 } := by
  have cleared : (clearSiteChannels x s).site = s.site := by simp [clearSiteChannels]
  unfold containSite
  dsimp only
  rw [abortIf_siteCore, siteCore, logEvent_site, setEv_ofSite, onSite_here, onSite_here, cleared]
  rfl

/-! ### The sideband link -/

theorem sbSlot_of_arrives {is : Byte → Bool} {k : Slot → State → State} (came : slotArrives x raw m s) (mine : is m.typ = true) :
    sbSlot x raw is k s = k m (if m.typ.toNat < 0x10 then onSb x (sbAck m.ack) s
      else onSb x (fun b => { b with rxSeq := b.rxSeq + 1 }) (onSb x (sbAck m.ack) s)) := by
  obtain ⟨-, spelt, up, inOrder⟩ := came
  unfold sbSlot
  rw [spelt]
  dsimp only
  rw [if_neg (by rw [up, mine]; decide)]
  by_cases low : m.typ.toNat < 0x10
  · rw [if_pos low, if_pos low]
  · rw [if_neg low, if_neg low, if_pos (inOrder (by omega))]

/-- A slot out of order asks for a RETRY (R359). -/
theorem sbSlot_of_gap {is : Byte → Bool} {k : Slot → State → State} (spelt : slotOf raw = some m) (up : (s.site[x]).sb.up = true)
    (mine : is m.typ = true) (high : 0x10 ≤ m.typ.toNat) (gap : m.seq ≠ (s.site[x]).sb.rxSeq) :
    sbSlot x raw is k s = onSb x (fun b => { b with retryOwed := true }) (onSb x (sbAck m.ack) s) := by
  unfold sbSlot
  rw [spelt]
  dsimp only
  rw [if_neg (by rw [up, mine]; decide), if_neg (by omega), if_neg gap]

theorem sbAck_of_none {b : Sideband} {ack : Byte} (none_ : ackCount b ack = 0) :
    (sbAck ack b).unacked = b.unacked ∧ (sbAck ack b).resend = min b.resend b.unacked.length := by
  simp only [sbAck, none_, List.drop_zero, and_self]

/-- The waiting messages that a RETRY or a time-out sends again (R359). -/
theorem sbResendFrom_ends {k : ℕ} (some_ : k < (s.site[x]).sb.unacked.length) : (sbResendFrom x k s).site[x.val] = { s.site[x.val] with
    sb := { s.site[x.val].sb with resend := max s.site[x.val].sb.resend ((s.site[x]).sb.unacked.length - k) }
    event := setBit s.site[x.val].event 7 } := by
  unfold sbResendFrom
  dsimp only
  rw [if_neg (by omega), eventBit_ofSite, onSite_here, onSb_here]

end

/-- Settles O40: a slot is judged by its sequence number, and a RETRY or a time-out sends all that waits again (`sbResendFrom_ends`). -/
theorem sidebandLinkRecovers : Obligations.SidebandLinkRecovers := by
  unfold Obligations.SidebandLinkRecovers
  simp only [Fin.getElem_fin]
  refine ⟨fun x raw m s came typ noAck all some_ => ⟨_, run_of_running _ s came.1, ?retry⟩,
    fun x raw m s came typ => ⟨_, run_of_running _ s came.1, ?ack⟩,
    fun x raw m s hs spelt typ up gap => ⟨_, run_of_running _ s hs, ?gap⟩,
    fun x s hs up some_ few => ⟨_, run_of_running _ s hs, ?late⟩,
    fun x s hs up some_ quiet => ⟨_, run_of_running _ s hs, ?silent⟩,
    fun x raw m s came reserved => ⟨_, run_of_running _ s came.1, ?reserved⟩⟩ <;> rw [irqSettle_site]
  case retry =>
    have low : m.typ.toNat < 0x10 := by rw [typ]; decide
    have mine : (m.typ == 0x01 || m.typ == 0x00) = true := by rw [typ]; rfl
    obtain ⟨same, clamped⟩ := sbAck_of_none noAck
    have heard : (onSb x (sbAck m.ack) s).site[x.val].sb = sbAck m.ack s.site[x.val].sb := by rw [onSb_here]
    have from_ : ackCount (onSb x (sbAck m.ack) s).site[x].sb (byteAt m.body 0) = 0 := by
      rw [Fin.getElem_fin, heard, ackCount, same]
      exact all
    have waits : 0 < (onSb x (sbAck m.ack) s).site[x].sb.unacked.length := by
      rw [Fin.getElem_fin, heard, same]
      exact List.length_pos_iff.2 some_
    rw [sbSlot_of_arrives came mine, if_pos low, if_pos typ, retryMsg, from_, sbResendFrom_ends waits]
    dsimp only [Fin.getElem_fin]
    rw [heard, same, clamped, onSb_here]
    exact ⟨max_eq_right (min_le_right ..), rfl, rfl⟩
  case ack =>
    have low : m.typ.toNat < 0x10 := by rw [typ]; decide
    have mine : (m.typ == 0x01 || m.typ == 0x00) = true := by rw [typ]; rfl
    rw [sbSlot_of_arrives came mine, if_pos low, if_neg (by rw [typ]; decide), onSb_here]
    exact ⟨rfl, rfl, rfl⟩
  case gap =>
    rw [irqSettle_dbl, sbSlot_of_gap (is := (· == 0x1C)) (k := fun m => doorbellMsg m.body) spelt up (by rw [typ]; rfl) (by rw [typ]; decide) gap,
      onSb_here, onSb_here]
    exact ⟨rfl, rfl, rfl⟩
  case late =>
    simp only [Fin.getElem_fin, up, if_true]
    rw [sbResendFrom_ends (List.length_pos_iff.2 some_)]
    exact ⟨max_eq_right few, rfl⟩
  case silent =>
    have core := containSite_siteCore (s := s) (x := x) 7 3
    have ends : stopping (fun s => if siteUp s x ∧ (s.site[x]).sb.unacked ≠ [] then containSite x 7 3 s else s) s = containSite x 7 3 s :=
      (congrArg (stopAfter s) (if_pos ⟨up, some_⟩)).trans (stopAfter_of_none s (by rw [containSite_img]; exact quiet))
    rw [ends]
    exact ⟨(congrArg Site.state core :), (congrArg Site.reason core :), (congrArg Site.rstn core :), (congrArg Site.epoch core :)⟩
  case reserved =>
    rw [sbSlot_of_arrives came reserved, reservedMsg, logEvent_site, onSite_here]
    split
    · rw [onSb_here]
      exact ⟨rfl, rfl⟩
    · rw [onSb_here, onSb_here]
      exact ⟨rfl, rfl⟩

end Sys2Proof.Machine
end

section
/-!
PROOFS. Levels and stream credits of a site (R349, R356, Table 11.9).
-/

-- In sequence: each worker of the elaborator takes its stack from the memory that a check may use.
set_option Elab.async false

namespace Sys2Proof.Machine

section
variable {s t : State} {x : SiteIx} {m : Slot} {raw : List Byte} {k : ℕ}

/-- The state in which a new sideband message is acted on: what it acknowledges is gone and the expected number steps on (R359). -/
def numbered (x : SiteIx) (m : Slot) (s : State) : State := onSb x (fun b => { b with rxSeq := b.rxSeq + 1 }) (onSb x (sbAck m.ack) s)

theorem numbered_site : (numbered x m s).site[x.val] =
    { s.site[x.val] with sb := { sbAck m.ack s.site[x.val].sb with rxSeq := s.site[x.val].sb.rxSeq + 1 } } := by
  rw [numbered, onSb_here, onSb_here]
  rfl

theorem sbSlot_of_new {is : Byte → Bool} {f : Slot → State → State} (came : slotArrives x raw m s) (mine : is m.typ = true)
    (high : ¬m.typ.toNat < 0x10) : sbSlot x raw is f s = f m (numbered x m s) := by
  rw [sbSlot_of_arrives came mine, if_neg high]
  rfl

/-! ### Levels (R349) -/

/-- A site that is disabled is idle. -/
theorem siteDisable_ends (reason : ℕ) : (siteDisable x reason s).site[x.val].state = 6 ∧
    (siteDisable x reason s).site[x.val].reason = BitVec.ofNat 4 reason ∧ (siteDisable x reason s).site[x.val].sb.up = false := by
  unfold siteDisable flag setSite
  dsimp only
  rw [eventBit_ofSite, onSite_here, onSite_here, onSite_here]
  exact ⟨rfl, rfl, rfl⟩

/-- What a site notes of a LEVEL message. -/
def levelHeard (x : SiteIx) (b : List Byte) (q : Site) : Site :=
  { q with
    partnerHigh := BitVec.ofNat 16 (bnat b 0 2)
    partnerLatency := if x.val < 4 then byteAt b 4 else q.partnerLatency
    penumbra := q.penumbra || (byteAt b 5).getLsbD 0
    levelSeen := true }

theorem levelMsg_settles {b : List Byte} {l : ℕ} (state : s.site[x.val].state = 2) (common : settle (bnat b 0 2) (bnat b 2 2) = some l)
    (enough : (siteRec s x).adapterMin.toNat ≤ l) :
    (levelMsg x b s).site[x.val] = { levelHeard x b s.site[x.val] with settled := BitVec.ofNat 16 l } := by
  have record : siteRec (onSite x (levelHeard x b) s) x = siteRec s x := rfl
  have ends : levelMsg x b s = onSite x (fun q => { q with settled := BitVec.ofNat 16 l }) (onSite x (levelHeard x b) s) := by
    unfold levelMsg
    dsimp only [Fin.getElem_fin]
    rw [if_neg (by rw [state]; decide), common]
    exact if_neg (by rw [← record] at enough; exact Nat.not_lt.2 enough)
  rw [ends, onSite_here, onSite_here]

theorem levelMsg_disables {b : List Byte} (state : s.site[x.val].state = 2) (none_ : settle (bnat b 0 2) (bnat b 2 2) = none) :
    levelMsg x b s = siteDisable x 2 (onSite x (levelHeard x b) s) := by
  unfold levelMsg
  dsimp only [Fin.getElem_fin]
  rw [if_neg (by rw [state]; decide), none_]
  rfl

/-! ### Stream credits (R356) -/

theorem aget_onStream {α : Type} {l : List (ℕ × α)} {f : α → α} {e : α} (h : aget l k = some e) : aget (onStream l k f) k = some (f e) := by
  induction l with
  | nil => cases h
  | cons a l ih =>
    obtain ⟨j, y⟩ := a
    by_cases here : j = k
    · simp only [aget, here, if_true, Option.some.injEq] at h
      simp only [onStream, List.map_cons, here, if_true, aget, h]
    · simp only [aget, here, if_false] at h
      simp only [onStream, List.map_cons, here, if_false, aget]
      exact ih h

theorem sbSend_rx (typ : Byte) (b : List Byte) : (sbSend x typ b s).site[x.val].rx = s.site[x.val].rx := by
  rw [sbSend, onSite_here]
  split <;> rfl

end

/-- Settles O41: each message acts on the state behind its slot (`numbered`), and a stream's entry alone changes (`aget_onStream`). -/
theorem levelsAndCredits : Obligations.LevelsAndCredits := by
  unfold Obligations.LevelsAndCredits
  simp only [Fin.getElem_fin]
  refine ⟨fun x raw m l s came typ state common enough => ⟨_, run_of_running _ s came.1, ?settles⟩,
    fun x raw m s came typ state none_ => ⟨_, run_of_running _ s came.1, ?disables⟩,
    fun x raw m e s came typ state stream => ⟨_, run_of_running _ s came.1, ?init⟩,
    fun x raw m e s came typ first second third fourth stream => ⟨_, run_of_running _ s came.1, ?credit⟩,
    fun x s hs => ⟨_, run_of_running _ s hs, ?timer⟩⟩ <;> rw [irqSettle_site]
  case settles =>
    have arrives := sbSlot_of_new (is := (· == 0x10)) (f := fun m => levelMsg x m.body) came (by rw [typ]; rfl) (by rw [typ]; decide)
    rw [arrives, levelMsg_settles (s := numbered x m s) (by rw [numbered_site]; exact state) common enough, numbered_site]
    exact ⟨rfl, rfl, state, rfl⟩
  case disables =>
    have arrives := sbSlot_of_new (is := (· == 0x10)) (f := fun m => levelMsg x m.body) came (by rw [typ]; rfl) (by rw [typ]; decide)
    rw [arrives, levelMsg_disables (by rw [numbered_site]; exact state) none_]
    exact siteDisable_ends 2
  case init =>
    have arrives := sbSlot_of_new (is := (· == 0x15)) (f := fun m => creditInitMsg x m.body) came (by rw [typ]; rfl) (by rw [typ]; decide)
    have state' : ¬(numbered x m s).site[x].state ≠ siTraining := by rw [Fin.getElem_fin, numbered_site]; exact not_not.2 state
    rw [arrives, creditInitMsg, if_neg state', onSite_here, numbered_site]
    exact aget_onStream (f := fun t : TxStream => { t with
      limit := bnat m.body 2 2, window := (if byteAt m.body 4 = 0 then 256 else (byteAt m.body 4).toNat) * 2 ^ 20, inited := true }) stream
  case credit =>
    have arrives := sbSlot_of_new (is := (· == 0x16)) (f := fun m => creditMsg x m.body) came (by rw [typ]; rfl) (by rw [typ]; decide)
    have one : creditMsg x m.body (numbered x m s) = onSite x (fun q => { q with tx := onStream q.tx (bnat m.body 0 2) fun e =>
        { e with freed := unwrap16 e.freed (bnat m.body 2 2) } }) (numbered x m s) := by
      have four : List.range 4 = [0, 1, 2, 3] := rfl
      simp only [creditMsg, four, List.foldl_cons, List.foldl_nil, Nat.mul_zero, first, if_false, Nat.reduceMul, second, third, fourth, if_true]
    rw [arrives, one, onSite_here, numbered_site]
    exact aget_onStream (f := fun e : TxStream => { e with freed := unwrap16 e.freed (bnat m.body 2 2) }) stream
  case timer =>
    have kept (l : List (List Byte)) : (l.foldl (fun t b => sbSend x 0x16 b t) s).site[x.val].rx = s.site[x.val].rx :=
      foldl_kept (fun t => t.site[x.val].rx) _ l s fun t b => sbSend_rx (s := t) 0x16 b
    rw [sendCredits, onSite_here]
    refine ⟨fun e there => ?_, ?_⟩
    · obtain ⟨r, -, rfl⟩ := List.mem_map.1 there
      split
      · rfl
      next none_ => simpa using none_
    · rw [List.length_map, kept]

end Sys2Proof.Machine
end

section
/-!
PROOFS. A message of the host that a compute die has taken (refutes O42).
-/

-- In sequence: each worker of the elaborator takes its stack from the memory that a check may use.
set_option Elab.async false

namespace Sys2Proof.Machine

section

/-- A slot that tells that the message of channel 0 has been taken. -/
def takenSlot : Slot := { typ := 0x1B, seq := 0, body := 0 :: 2 :: List.replicate 14 0, ack := 0 }

/-- A running device with a message of the host at site 0. -/
def hostMessageAtSite : State := { State.reset with
  dev := { State.reset.dev with sysRst := false, perst := false }
  site := upd State.reset.site 0 fun q => { q with state := 3, sb := { q.sb with up := true } }
  mbx := { State.reset.mbx with h2d := upd State.reset.mbx.h2d 0 fun v => upd v 0 fun h => { h with go := true, msg := { sender := 1 } } } }

theorem hostMessageAtSite_waits : running hostMessageAtSite = true ∧ slotOf (slotBytes takenSlot) = some takenSlot ∧
    (hostMessageAtSite.site[(0 : SiteIx)]).sb.up = true ∧ takenSlot.seq = (hostMessageAtSite.site[(0 : SiteIx)]).sb.rxSeq ∧
    oldResp (byteAt takenSlot.body 1).toNat ((hostMessageAtSite.mbx.h2d[(0 : SiteIx)])[(0 : Fin 8)]) = none ∧
    ((hostMessageAtSite.mbx.h2d[(0 : SiteIx)])[(0 : Fin 8)]).go = true ∧
    ((hostMessageAtSite.mbx.h2d[(0 : SiteIx)])[(0 : Fin 8)]).msg.sender = 1 := by
  decide +kernel

/-- That the message is taken makes the condition of vector 3 true. -/
theorem hostMessageAtSite_taken : (irqSettle (sbSlot 0 (slotBytes takenSlot) (· == 0x1B) (fun m => mbxRespMsg 0 m.body) hostMessageAtSite)).host.was ≠
    hostMessageAtSite.host.was := by
  decide +kernel

end

/-- Refutes O42: a message of the host that is taken sets the condition of vector 3 (Table 16.6), so the host interface is not as before. -/
theorem not_sidebandMessagesAct : ¬ Obligations.SidebandMessagesAct := by
  unfold Obligations.SidebandMessagesAct
  intro h
  obtain ⟨-, -, -, -, -, -, answered, -⟩ := h
  obtain ⟨on, spelt, up, inOrder, young, go, own⟩ := hostMessageAtSite_waits
  obtain ⟨t, ht, -, -, taken⟩ := answered 0 (slotBytes takenSlot) takenSlot 0 hostMessageAtSite ⟨on, spelt, up, fun _ => inOrder⟩ rfl rfl young go own
  obtain ⟨-, -, -, host⟩ := taken rfl
  have answer : exec (.mbxResp 0 (slotBytes takenSlot)) hostMessageAtSite =
      .next (irqSettle (sbSlot 0 (slotBytes takenSlot) (· == 0x1B) (fun m => mbxRespMsg 0 m.body) hostMessageAtSite)) := run_of_running _ _ on
  rw [answer] at ht
  injection ht with ht
  exact hostMessageAtSite_taken (ht ▸ congrArg HostIf.was host)

end Sys2Proof.Machine
end

section
/-!
PROOFS. The training of sites (R348, R350, R382, Tables 11.5 and 12.8).
-/

-- In sequence: each worker of the elaborator takes its stack from the memory that a check may use.
set_option Elab.async false

namespace Sys2Proof.Machine

section
variable {s t : State} {x : SiteIx} {w : WideIx} {q : ReachIx} {n : ℕ} {k : BitVec 4}

/-! ### What the operations of a site leave of it, its messages that wait left out -/

theorem onSite_siteCore (f : Site → Site) : siteCore x (onSite x f s) = { f s.site[x.val] with sb := { (f s.site[x.val]).sb with queue := [] } } := by
  rw [siteCore, onSite_here]

theorem sbSend_siteCore (y : SiteIx) (typ : Byte) (b : List Byte) : siteCore x (sbSend y typ b s) = siteCore x s := by
  by_cases here : y = x
  · subst here
    rw [sbSend, onSite_siteCore, siteCore]
    split <;> rfl
  · rw [siteCore, sbSend, onSite, upd_val_of_ne _ _ (Ne.symm here), siteCore]

theorem sbSends_siteCore {α : Type} (l : List α) (y : SiteIx) (typ : Byte) (b : α → List Byte) :
    siteCore x (l.foldl (fun t e => sbSend y typ (b e) t) s) = siteCore x s := foldl_kept (siteCore x) _ _ _ fun _ _ => sbSend_siteCore ..

theorem sbSends_wide {α : Type} (l : List α) (y : SiteIx) (typ : Byte) (b : α → List Byte) :
    (l.foldl (fun t e => sbSend y typ (b e) t) s).wide = s.wide := foldl_kept (fun t => t.wide) _ _ _ fun _ _ => sbSend_wide ..

theorem sbSends_reach {α : Type} (l : List α) (y : SiteIx) (typ : Byte) (b : α → List Byte) :
    (l.foldl (fun t e => sbSend y typ (b e) t) s).reach = s.reach := foldl_kept (fun t => t.reach) _ _ _ fun _ _ => sbSend_reach ..

/-- The state and the training step of a site, whether its sideband is up, why it is out of service, its reset and its epoch. -/
theorem siteCore_fields {a b : Site} (h : ({ a with sb := { a.sb with queue := [] } } : Site) = { b with sb := { b.sb with queue := [] } }) :
    a.state = b.state ∧ a.step = b.step ∧ a.sb.up = b.sb.up ∧ a.reason = b.reason ∧ a.rstn = b.rstn ∧ a.epoch = b.epoch :=
  ⟨(congrArg Site.state h :), (congrArg Site.step h :), (congrArg (fun q : Site => q.sb.up) h :), (congrArg Site.reason h :),
    (congrArg Site.rstn h :), (congrArg Site.epoch h :)⟩

theorem eventBit_course (c m : ℕ) : (eventBit c (siteBlk x) (siteInst x) m s).site[x.val] =
    { s.site[x.val] with event := setBit s.site[x.val].event m } := by rw [eventBit_ofSite, onSite_here]

/-- An event that may be reported leaves the state and the step of its site, and the Reach Ports. -/
theorem eventIf_kept (c : Prop) [Decidable c] (cls m : ℕ) :
    (if c then eventBit cls (siteBlk x) (siteInst x) m s else s).site[x.val].state = s.site[x.val].state ∧
    (if c then eventBit cls (siteBlk x) (siteInst x) m s else s).site[x.val].step = s.site[x.val].step ∧
    (if c then eventBit cls (siteBlk x) (siteInst x) m s else s).reach = s.reach := by
  split
  · rw [eventBit_course]
    exact ⟨rfl, rfl, eventBit_reach ..⟩
  · exact ⟨rfl, rfl, rfl⟩

theorem blk_wide (w : WideIx) : siteBlk w.site = blkWP ∧ siteInst w.site = w.val := by
  have low : w.site.val < 4 := w.isLt
  exact ⟨if_pos low, if_pos low⟩

theorem blk_reach (q : ReachIx) : siteBlk q.site = blkTP ∧ siteInst q.site = q.val := by
  have high : ¬q.site.val < 4 := by simp [ReachIx.site]
  exact ⟨if_neg high, (if_neg high).trans (Nat.add_sub_cancel_left ..)⟩

theorem setSite_site (st : BitVec 4) : (setSite x st s).site[x.val] =
    { s.site[x.val] with state := st, epoch := if s.site[x.val].state = st then s.site[x.val].epoch else s.site[x.val].epoch + 1 } := by
  unfold setSite
  dsimp only
  rw [onSite_here]
  split <;> simp

theorem siteActive_site : (siteActive x s).site[x.val].state = 3 ∧ (siteActive x s).site[x.val].step = 0 := by
  unfold siteActive flag
  dsimp only
  rw [eventBit_course]
  split
  · rw [onSite_here, setSite_site]
    exact ⟨rfl, rfl⟩
  · rw [onSite_here, setSite_site]
    exact ⟨rfl, rfl⟩

theorem setSite_wide (st : BitVec 4) : (setSite x st s).wide = s.wide := by
  unfold setSite
  dsimp only
  split <;> simp

theorem setSite_reach (st : BitVec 4) : (setSite x st s).reach = s.reach := by
  unfold setSite
  dsimp only
  split <;> simp

/-! ### A Wide Port site (R348, Table 11.5) -/

theorem sendOnAll_kept (f : Fin 33 → List DWord) : (sendOnAll w f s).site = s.site ∧ (sendOnAll w f s).wide = s.wide ∧ (sendOnAll w f s).img =
    s.img :=
  ⟨foldl_kept (fun t => t.site) _ _ _ fun _ _ => rfl, foldl_kept (fun t => t.wide) _ _ _ fun _ _ => rfl,
    foldl_kept (fun t => t.img) _ _ _ fun _ _ => rfl⟩

theorem sendReports_kept : (sendReports w s).site = s.site ∧ (sendReports w s).wide = s.wide ∧ (sendReports w s).img = s.img := by
  obtain ⟨site, wide, img⟩ := sendOnAll_kept (w := w) (s := s) fun m => wtB m.val (((s.wide[w]).mods[m]).rx.good) false
  obtain ⟨site', wide', img'⟩ := sendOnAll_kept (w := w) (s := sendOnAll w (fun m => wtB m.val (((s.wide[w]).mods[m]).rx.good) false) s)
    fun m => wtB m.val (((s.wide[w]).mods[m]).rx.good) true
  exact ⟨site'.trans site, wide'.trans wide, img'.trans img⟩

theorem modUsed_of_img (h : t.img = s.img) (m : ℕ) : modUsed t w m = modUsed s w m := by simp only [modUsed, siteRec, h]

theorem trainFailed_of_kept (wide : t.wide = s.wide) (img : t.img = s.img) : trainFailed w t = trainFailed w s := by
  simp only [trainFailed, wide, modUsed_of_img img]

theorem reportDegraded_kept : siteCore w.site (reportDegraded w s) =
    { siteCore w.site s with event := (siteCore w.site (reportDegraded w s)).event } ∧
    (reportDegraded w s).wide = s.wide := by
  obtain ⟨blk, inst⟩ := blk_wide w
  unfold reportDegraded
  split
  · exact ⟨rfl, rfl⟩
  · refine ⟨?_, by simp⟩
    simp only [siteCore, ← blk, ← inst, eventBit_course]

/-- Step 3 that ends well brings the sideband up and the exchange of step 4 (Table 11.5). -/
theorem exchange_site : (exchange w s).site[w.site.val].state = s.site[w.site.val].state ∧ (exchange w s).site[w.site.val].step =
    s.site[w.site.val].step ∧
    (exchange w s).site[w.site.val].sb.up = true ∧ (exchange w s).wide = s.wide := by
  unfold exchange
  extract_lets ms rx tx s1 s2 s3
  have core : siteCore w.site (rx.foldl (fun t e => sbSend w.site 0x15 (sbBody (leBytes 2 e.1 ++ leBytes 2 e.2 ++ [0])) t) s3) =
    siteCore w.site s1 := by
    rw [sbSends_siteCore, sbSends_siteCore, sbSend_siteCore]
  have wide : (rx.foldl (fun t e => sbSend w.site 0x15 (sbBody (leBytes 2 e.1 ++ leBytes 2 e.2 ++ [0])) t) s3).wide = s.wide := by
    rw [sbSends_wide, sbSends_wide, sbSend_wide]
    rfl
  obtain ⟨state, step, up, -⟩ := siteCore_fields core
  have here : s1.site[w.site.val] = { s.site[w.site.val] with
      sb := { up := true }
      rx := rx.map fun e => (e.1, { advertised := e.2 })
      tx := tx.map fun k => (k, {}) } := onSite_here
  rw [here] at state step up
  exact ⟨state, step, up, wide⟩

end

section
variable {s t : State} {w : WideIx} {q : ReachIx} {r : WideStep} {z : ReachStep} {k : BitVec 4}

theorem wpStep_first (state : s.site[w.site.val].state = 2) (step : s.site[w.site.val].step = 1) :
    wpStep w r s = alignStart w (onSite w.site (fun q => { q with step := 2 }) s) := by
  simp only [wpStep, Fin.getElem_fin, state, step]
  rfl

theorem wpStep_third (state : s.site[w.site.val].state = 2) (step : s.site[w.site.val].step = 3) :
    wpStep w r s = match trainFailed w (trainMaps w r s) with
      | some reason => siteDisable w.site reason (sendReports w (trainMaps w r s))
      | none => exchange w (onSite w.site (fun q => { q with step := 4 }) (reportDegraded w (sendReports w (trainMaps w r s)))) := by
  obtain ⟨-, wide, img⟩ := sendReports_kept (w := w) (s := trainMaps w r s)
  rw [← trainFailed_of_kept wide img]
  simp only [wpStep, Fin.getElem_fin, state, step]
  rfl

theorem wpStep_fifth (state : s.site[w.site.val].state = 2) (step : s.site[w.site.val].step = 5) :
    wpStep w r s = siteActive w.site (sendOnAll w (fun m => wtC m.val) s) := by
  simp only [wpStep, Fin.getElem_fin, state, step]
  rfl

/-- A Wide Port that passes the test of step 3 exchanges its levels with the good sets found (R348). -/
theorem wpStep_passes (state : s.site[w.site.val].state = 2) (step : s.site[w.site.val].step = 3)
    (whole : trainFailed w (trainMaps w r s) = none) : (wpStep w r s).site[w.site.val].step = 4 ∧ (wpStep w r s).site[w.site.val].sb.up = true ∧
      (wpStep w r s).wide = (trainMaps w r s).wide := by
  obtain ⟨-, wide, -⟩ := sendReports_kept (w := w) (s := trainMaps w r s)
  obtain ⟨-, wide'⟩ := reportDegraded_kept (w := w) (s := sendReports w (trainMaps w r s))
  obtain ⟨-, step', up, wide''⟩ := exchange_site (w := w)
    (s := onSite w.site (fun q => { q with step := 4 }) (reportDegraded w (sendReports w (trainMaps w r s))))
  rw [onSite_here] at step'
  have ends : wpStep w r s = exchange w (onSite w.site (fun q => { q with step := 4 }) (reportDegraded w (sendReports w (trainMaps w r s)))) := by
    rw [wpStep_third state step, whole]
  rw [ends]
  exact ⟨step', up, by rw [wide'', onSite_wide, wide', wide]⟩

theorem trainMaps_good {m : Fin 33} (used : modUsed s w m.val = true) :
    (((trainMaps w r s).wide[w.val]).mods[m.val]).rx.good = nth r.goodRx m.val 0 &&& ~~~((s.wide[w.val]).mods[m.val]).wtBad := by
  simp only [trainMaps, upd_val_self, vmk_val, used, if_true, Fin.getElem_fin]

theorem wideOf_site : wideOf w.site = some w := dif_pos w.isLt

/-- An Active Wide Port counts its frames from 0. -/
theorem siteActive_frames (m : Fin 33) : (((siteActive w.site s).wide[w.val]).mods[m.val]).rxFrame = 0 ∧
    (((siteActive w.site s).wide[w.val]).mods[m.val]).txFrame = 0 := by
  unfold siteActive
  dsimp only
  rw [wideOf_site]
  simp only [flag_wide, upd_val_self, Vector.getElem_map, and_self]

theorem siteActive_reach : (siteActive q.site s).reach = s.reach := by
  have none_ : wideOf q.site = none := dif_neg (by simp [ReachIx.site])
  unfold siteActive
  dsimp only
  rw [none_, flag_reach]
  exact setSite_reach _

/-! ### A Reach Port site (R382, Table 12.8) -/

theorem tpStep_first (state : s.site[q.site.val].state = 2) (step : s.site[q.site.val].step = 1) : tpStep q z s =
    if framesLocked s q (Config.freeChoice s.fresh) then
      onSite q.site (fun y => { y with step := 2 }) (onReach q (equaliseStart s.time (fins 32)) { s with fresh := s.fresh + 1 })
    else { s with fresh := s.fresh + 1 } := by
  simp only [tpStep, Fin.getElem_fin, state, step]
  rfl

theorem tpStep_second (state : s.site[q.site.val].state = 2) (step : s.site[q.site.val].step = 2) :
    tpStep q z s = if equalised s q then onSite q.site (fun y => { y with step := 3 }) s else s := by
  simp only [tpStep, Fin.getElem_fin, state, step]
  rfl

theorem tpStep_third (state : s.site[q.site.val].state = 2) (step : s.site[q.site.val].step = 3) : tpStep q z s = qualify q z s := by
  simp only [tpStep, Fin.getElem_fin, state, step]
  rfl

theorem tpStep_fifth (state : s.site[q.site.val].state = 2) (step : s.site[q.site.val].step = 5) : tpStep q z s = reachStart q s := by
  simp only [tpStep, Fin.getElem_fin, state, step]
  rfl

/-- What step 4 of a Reach Port sends leaves the site but for its streams (R383). -/
theorem exchangeR_site : (exchangeR q s).site[q.site.val].state = s.site[q.site.val].state ∧
    (exchangeR q s).site[q.site.val].step = s.site[q.site.val].step ∧ (exchangeR q s).reach = s.reach := by
  unfold exchangeR
  extract_lets rx tx n s1 s2 s3
  have core : siteCore q.site (rx.foldl (fun a k => sbSend q.site 0x15 (sbBody (leBytes 2 k ++ leBytes 2 n ++ [0])) a) s3) = siteCore q.site s1 := by
    rw [sbSends_siteCore, sbSends_siteCore, sbSend_siteCore]
  have reach : (rx.foldl (fun a k => sbSend q.site 0x15 (sbBody (leBytes 2 k ++ leBytes 2 n ++ [0])) a) s3).reach = s.reach := by
    rw [sbSends_reach, sbSends_reach, sbSend_reach]
    rfl
  obtain ⟨state, step, -⟩ := siteCore_fields core
  have here : s1.site[q.site.val] = { s.site[q.site.val] with
      rx := rx.map fun k => (k, { advertised := n })
      tx := tx.map fun k => (k, {}) } := onSite_here
  rw [here] at state step
  exact ⟨state, step, reach⟩

/-- The quads that are good at both ends (R383). -/
def bothGood (s : State) (q : ReachIx) (z : ReachStep) : BitVec 8 :=
  BitVec.ofNat 8 (boolsNat ((fins 8).map fun k => (quadMask s q).getLsbD k.val && quadPasses z k)) &&& z.partnerGood

/-- The end of step 3 of a Reach Port: the quads that are good at both ends decide (R383, R390). -/
theorem qualify_ends : if quadCount (bothGood s q z) < quadsNeeded (quadCount (quadMask s q)) then
      (qualify q z s).site[q.site.val].state = 6 ∧ (qualify q z s).site[q.site.val].reason = 5
    else if quadCount (bothGood s q z) < quadCount (quadMask s q) ∧ (siteRec s q.site).degraded = false then
      (qualify q z s).site[q.site.val].state = 5 ∧ (qualify q z s).site[q.site.val].reason = 6
    else (qualify q z s).site[q.site.val].state = s.site[q.site.val].state ∧ (qualify q z s).site[q.site.val].step = 4 ∧
      ((qualify q z s).reach[q.val]).good = bothGood s q z := by
  unfold qualify
  extract_lets mask own good s1 s2 s3
  have same : good = bothGood s q z := rfl
  clear_value good
  subst same
  split
  · obtain ⟨state, reason, -⟩ := siteDisable_ends (x := q.site) (s := s1) 5
    exact ⟨state, reason⟩
  · split
    · have core := containSite_siteCore (x := q.site) (s := setEv blkTP q.val 6 s1) 6 3
      exact ⟨(congrArg Site.state core :), (congrArg Site.reason core :)⟩
    · obtain ⟨blk, inst⟩ := blk_reach q
      have sent : siteCore q.site s3 = siteCore q.site s2 := sbSend_siteCore ..
      obtain ⟨state, step, -⟩ := siteCore_fields sent
      have here : s2.site[q.site.val] = { s.site[q.site.val] with step := 4, sb := { up := true } } := onSite_here
      rw [here] at state step
      have reach : s3.reach = s1.reach := sbSend_reach ..
      have judged : (s1.reach[q.val]).good = bothGood s q z := by
        simp only [s1, onReach, upd_val_self]
        rfl
      obtain ⟨stateR, stepR, reachR⟩ := eventIf_kept (s := s3) (x := q.site) (quadCount (bothGood s q z) < quadCount mask) clsCorrected 6
      rw [blk, inst] at stateR stepR reachR
      obtain ⟨stateX, stepX, reachX⟩ := exchangeR_site (q := q)
        (s := if quadCount (bothGood s q z) < quadCount mask then eventBit clsCorrected blkTP q.val 6 s3 else s3)
      exact ⟨stateX.trans (stateR.trans state), stepX.trans (stepR.trans step),
        (congrArg ReachSite.good (vector_at (reachX.trans (reachR.trans reach)) q.val q.isLt)).trans judged⟩

theorem siteDisable_img (x : SiteIx) (n : ℕ) : (siteDisable x n s).img = s.img := by simp [siteDisable, setSite]

theorem qualify_img : (qualify q z s).img = s.img := by
  have sends {α : Type} (l : List α) (y : SiteIx) (typ : Byte) (b : α → List Byte) (t : State) :
      (l.foldl (fun t e => sbSend y typ (b e) t) t).img = t.img := foldl_img _ _ _ fun _ _ => sbSend_img ..
  unfold qualify
  dsimp only
  split
  · rw [siteDisable_img]
    rfl
  · split
    · rw [containSite_img, setEv_img]
      rfl
    · rw [exchangeR, sends, sends, sbSend_img, onSite_img]
      split
      · rw [eventBit_img, sbSend_img]
        rfl
      · rw [sbSend_img]
        rfl

theorem reachStart_kept : (reachStart q s).ctl = s.ctl ∧ (reachStart q s).img = s.img := by
  have active (x : SiteIx) (t : State) : (siteActive x t).ctl = t.ctl ∧ (siteActive x t).img = t.img := by
    unfold siteActive
    dsimp only
    rw [flag_ctl, flag_img]
    split
    · exact ⟨by simp, by simp [setSite]⟩
    · exact ⟨by simp, by simp [setSite]⟩
  obtain ⟨ctl, img⟩ := active q.site (onReach q (fun r => { r with
    ownNow := (r.ownNow.1, r.good), partnerNow := (r.partnerNow.1, r.good), ownMap := none, partnerMap := none }) s)
  exact ⟨ctl, img⟩

theorem reachStart_serves : ((reachStart q s).reach[q.val]).inService = (s.reach[q.val]).good := by
  simp only [reachStart, siteActive_reach, onReach, upd_val_self, ReachSite.inService, BitVec.and_self]

end

/-- Settles O43: each step of training is one branch of the port's step function, and what it sends leaves the site itself
  (`exchange_site`, `exchangeR_site`). -/
theorem sitesTrain : Obligations.SitesTrain := by
  unfold Obligations.SitesTrain
  simp only [Fin.getElem_fin]
  refine ⟨fun x s hs state free use => ⟨_, run_of_running _ s hs, ?release⟩,
    fun w r s hs state step => ⟨_, run_of_running _ s hs, ?first⟩,
    fun w r s hs state step whole => ⟨_, run_of_running _ s hs, ?passes⟩,
    fun w r k s hs state step failed => ⟨_, run_of_running _ s hs, ?failed⟩,
    fun w r s hs state step => ⟨_, run_of_running _ s hs, ?active⟩,
    fun w s hs state => ⟨_, run_of_running _ s hs, ?late⟩,
    fun q r s hs state step => ⟨_, run_of_running _ s hs, ?locks⟩,
    fun q r s hs state step => ⟨_, run_of_running _ s hs, ?equal⟩,
    fun q r g s hs state step both quiet => ⟨_, run_of_running _ s hs, ?qualifies⟩,
    fun q r s hs state step => ⟨_, run_of_running _ s hs, ?serves⟩,
    fun q s hs state => ⟨_, run_of_running _ s hs, ?overdue⟩⟩ <;> rw [irqSettle_site]
  case release =>
    have goes : siteRelease x s = onSite x (fun r => { r with rstn := false, step := 1, penumbra := ownPenumbra s, pad := (siteRec s x).pad })
        (setSite x siTraining s) := by
      simp only [siteRelease, Fin.getElem_fin, state, free, use]
      rfl
    rw [goes, onSite_here, setSite_site]
    exact ⟨rfl, rfl, rfl, if_neg (by rw [state]; decide)⟩
  case first =>
    rw [wpStep_first state step, alignStart, onSite_here]
    exact ⟨state, rfl⟩
  case passes =>
    obtain ⟨step', up, wide⟩ := wpStep_passes state step whole
    rw [irqSettle_wide, wide]
    exact ⟨step', up, fun m used => trainMaps_good used⟩
  case failed =>
    rw [wpStep_third state step, failed]
    obtain ⟨state', reason, -⟩ := siteDisable_ends (x := w.site) (s := sendReports w (trainMaps w r s)) k
    exact ⟨state', reason⟩
  case active =>
    rw [irqSettle_wide, wpStep_fifth state step]
    obtain ⟨state', step'⟩ := siteActive_site (x := w.site) (s := sendOnAll w (fun m => wtC m.val) s)
    exact ⟨state', step', siteActive_frames⟩
  case late =>
    simp only [Fin.getElem_fin, state, siTraining, if_true]
    obtain ⟨state', reason, -⟩ := siteDisable_ends (x := w.site) (s := s) 1
    exact ⟨state', reason⟩
  case locks =>
    by_cases lock : framesLocked s q (Config.freeChoice s.fresh) = true
    · have ends : stopping (tpStep q r) s = onSite q.site (fun y => { y with step := 2 })
          (onReach q (equaliseStart s.time (fins 32)) { s with fresh := s.fresh + 1 }) :=
        (congrArg (stopAfter s) ((tpStep_first state step).trans (if_pos lock))).trans (stopAfter_of_same rfl rfl)
      rw [ends, onSite_here, if_pos lock]
      exact ⟨state, rfl⟩
    · have ends : stopping (tpStep q r) s = { s with fresh := s.fresh + 1 } :=
        (congrArg (stopAfter s) ((tpStep_first state step).trans (if_neg lock))).trans (stopAfter_of_same rfl rfl)
      rw [ends, if_neg lock]
      exact ⟨state, step⟩
  case equal =>
    by_cases equal : equalised s q = true
    · have ends : stopping (tpStep q r) s = onSite q.site (fun y => { y with step := 3 }) s :=
        (congrArg (stopAfter s) ((tpStep_second state step).trans (if_pos equal))).trans (stopAfter_of_same rfl rfl)
      rw [ends, onSite_here, if_pos equal]
      exact ⟨state, rfl⟩
    · have ends : stopping (tpStep q r) s = s :=
        (congrArg (stopAfter s) ((tpStep_second state step).trans (if_neg equal))).trans (stopAfter_of_same rfl rfl)
      rw [ends, if_neg equal]
      exact ⟨state, step⟩
  case qualifies =>
    subst both
    rw [irqSettle_reach, stopping, tpStep_third state step, stopAfter_of_none s (by rw [qualify_img]; exact quiet), ← state]
    exact qualify_ends
  case serves =>
    obtain ⟨ctl, img⟩ := reachStart_kept (q := q) (s := s)
    rw [irqSettle_reach, stopping, tpStep_fifth state step, stopAfter_of_same ctl img, reachStart_serves]
    obtain ⟨state', -⟩ := siteActive_site (x := q.site) (s := onReach q (fun r => { r with
      ownNow := (r.ownNow.1, r.good), partnerNow := (r.partnerNow.1, r.good), ownMap := none, partnerMap := none }) s)
    exact ⟨state', rfl⟩
  case overdue =>
    simp only [Fin.getElem_fin, state, siTraining, if_true]
    obtain ⟨state', reason, -⟩ := siteDisable_ends (x := q.site) (s := s) 1
    exact ⟨state', reason⟩

end Sys2Proof.Machine
end

section
/-!
PROOFS. Module frames of a Wide Port (R338 to R340, R353 to R357, Table 11.7).
-/

-- In sequence: each worker of the elaborator takes its stack from the memory that a check may use.
set_option Elab.async false

namespace Sys2Proof.Machine

section
variable {s t : State} {w : WideIx} {m : Fin 33} {j : Fin 32} {ls : List DWord} {x : SiteIx} {k n : ℕ} {f : Module → Module}

/-! ### The module of a step -/

theorem onMod_here : ((onMod w m f s).wide[w.val]).mods[m.val] = f ((s.wide[w.val]).mods[m.val]) := by
  rw [onMod, upd_val_self, upd_val_self]

theorem modCount_here (i : Fin 8) : ((modCount w m i n s).wide[w.val]).mods[m.val] =
    { (s.wide[w.val]).mods[m.val] with counters := upd ((s.wide[w.val]).mods[m.val]).counters i (· + BitVec.ofNat 64 n) } := onMod_here

theorem module_fields {a b : Module} (h : a = b) : a.rxFrame = b.rxFrame ∧ a.txFrame = b.txFrame ∧ ∀ (i : ℕ) (hi : i < 8), a.counters[i] =
    b.counters[i] := by
  rw [h]
  exact ⟨rfl, rfl, fun _ _ => rfl⟩

theorem counter_here (v : Vector (BitVec 64) 8) (i : Fin 8) : (upd v i (· + BitVec.ofNat 64 1))[i.val] = v[i.val] + 1 := upd_val_self ..

/-! ### A frame that a module receives (R338 to R340) -/

theorem state_of_modOn (on : modOn s w m = true) : ¬s.site[w.site.val].state = 2 := by
  intro training
  rw [modOn, siteUp, Fin.getElem_fin, training] at on
  exact Bool.noConfusion on

theorem listens_of_modOn (on : modOn s w m = true) : wtListens s w m = false := by
  have other : (s.site[w.site.val].state == siTraining) = false := beq_eq_false_iff_ne.2 (state_of_modOn on)
  rw [wtListens]
  dsimp only [Fin.getElem_fin]
  rw [other, Bool.and_false, Bool.false_and]

theorem frameOn_of_modOn (on : modOn s w m = true) : frameOn s w m = true := by rw [frameOn, on, Bool.true_or]

/-- A frame that the module's streams have room for is received. -/
theorem moduleFrame_runs (hs : running s = true) (fits : modOn s w m = false ∨ frameOverrun w m ls s = false) :
    exec (.moduleFrame w m ls) s = .next (irqSettle (stopping (frameRx w m ls) s)) := by
  have room : (running s && modOn s w m && frameOverrun w m ls s) = false := by
    rcases fits with off | fits
    · rw [off, Bool.and_false, Bool.false_and]
    · rw [fits, Bool.and_false]
  have arm : exec (.moduleFrame w m ls) s = if running s && modOn s w m && frameOverrun w m ls s then hostError 357 s else
      run (stopping (frameRx w m ls)) s := rfl
  rw [arm, room, if_neg Bool.false_ne_true, run_of_running _ s hs]

theorem frameOverrun_of_test (tests : modTests s w m = true) : frameOverrun w m ls s = false := by
  rw [frameOverrun, tests, Bool.not_true, Bool.and_false, Bool.false_and]

theorem frameOverrun_of_unclassified (none_ : classifyFrame (((s.wide[w]).mods[m]).rx.good) ls = none) : frameOverrun w m ls s = false := by
  rw [frameOverrun, none_]
  exact Bool.and_false _

theorem frameOverrun_of_idle (idle : classifyFrame (((s.wide[w]).mods[m]).rx.good) ls = some (2, [])) : frameOverrun w m ls s = false := by
  rw [frameOverrun, idle]
  split
  next found _ =>
    cases found
    simp
  · exact Bool.and_false _

theorem frameOverrun_of_room {q : FrameTyp} (clean : classifyFrame (((s.wide[w]).mods[m]).rx.good) ls = some (q, []))
    (stream : slotStream (boundStreams s w m.val false) ((s.wide[w]).mods[m]).rxFrame.toNat = some k) (room : noCredit (s.site[w.site]) k = false) :
    frameOverrun w m ls s = false := by
  rw [frameOverrun, clean, stream]
  dsimp only
  rw [room, Bool.and_false, Bool.and_false]

/-- The next frame number of a module. -/
def nextFrame (w : WideIx) (m : Fin 33) (s : State) : State := onMod w m (fun q => { q with rxFrame := q.rxFrame + 1 }) s

theorem nextFrame_fields {q : Module} (h : ((s.wide[w.val]).mods[m.val]) = q) : (((nextFrame w m s).wide[w.val]).mods[m.val]).rxFrame =
    q.rxFrame + 1 ∧
    ∀ (i : ℕ) (hi : i < 8), (((nextFrame w m s).wide[w.val]).mods[m.val]).counters[i] = q.counters[i] := by
  obtain ⟨frame, -, counters⟩ := module_fields (onMod_here (s := s) (w := w) (m := m) (f := fun q => { q with rxFrame := q.rxFrame + 1 }))
  obtain ⟨before, -, same⟩ := module_fields h
  exact ⟨frame.trans (congrArg (· + 1) before), fun i hi => (counters i hi).trans (same i hi)⟩

theorem frameRx_tests (on : modOn s w m = true) (tests : modTests s w m = true) : frameRx w m ls s = nextFrame w m (wtFrame w m ls s) := by
  rw [frameRx, listens_of_modOn on, if_neg Bool.false_ne_true, frameOn_of_modOn on, if_neg (by decide)]
  dsimp only
  rw [tests, if_pos rfl]
  rfl

theorem frameRx_classed (on : modOn s w (mix j) = true) (works : modTests s w (mix j) = false) :
    frameRx w (mix j) ls s = nextFrame w (mix j) (classRx w j ls s) := by
  rw [frameRx, listens_of_modOn on, if_neg Bool.false_ne_true, frameOn_of_modOn on, if_neg (by decide)]
  dsimp only
  rw [works, if_neg Bool.false_ne_true, dif_pos (show (mix j).val < 32 from j.isLt)]
  rfl

theorem classRx_clean {q : FrameTyp} (clean : classifyFrame (((s.wide[w]).mods[mix j]).rx.good) ls = some (q, [])) :
    classRx w j ls s = cleanFrame w j q (((s.wide[w]).mods[mix j]).rx.good) ls s := by
  unfold classRx
  dsimp only [Fin.getElem_fin] at clean ⊢
  rw [clean]

theorem classRx_unclassified (none_ : classifyFrame (((s.wide[w]).mods[mix j]).rx.good) ls = none) :
    classRx w j ls s = parityContained w (modCount w (mix j) 5 1 s) := by
  unfold classRx
  dsimp only [Fin.getElem_fin] at none_ ⊢
  rw [none_]

/-- Streams that a parity error contains: the site shows the reason, and the sidebands may tell of the abort (R338). -/
theorem parityContained_ends : (parityContained w s).site[w.site.val].reason = 9 ∧
    (parityContained w s).site[w.site.val].event = setBit s.site[w.site.val].event 3 ∧
    (parityContained w s).site[w.site.val].state = s.site[w.site.val].state ∧ (parityContained w s).wide = s.wide ∧
    (parityContained w s).img = s.img := by
  obtain ⟨blk, inst⟩ := blk_wide w
  have core : siteCore w.site (parityContained w s) = siteCore w.site (onSite w.site (fun q => { q with reason := BitVec.ofNat 4 9 })
      (onSite w.site (fun q => { q with event := setBit q.event 3 }) s)) := by
    rw [parityContained, containStreams, abortIf_siteCore, siteCore_of_site (logEvent_site ..), ← blk, ← inst, setEv_ofSite]
  rw [onSite_siteCore, onSite_here] at core
  refine ⟨(congrArg Site.reason core :), (congrArg Site.event core :), (congrArg Site.state core :), ?_, ?_⟩
  · simp [parityContained, containStreams]
  · simp [parityContained]

/-- A head that fits opens its stream's transfer (R353 to R357). -/
theorem headRx_opens {r : RxStream} {b : List Byte} (stream : aget s.site[x.val].rx k = some r) (closed : r.opened = none) (named : bnat b 0 2 = k)
    (some_ : 0 < bnat b 4 4) (fits : bnat b 4 4 ≤ 2 ^ 28) (more : (b.drop 16).length < bnat b 4 4)
    (unnamed : s.ctl.named.contains (x.val, k, bnat b 2 2) = false) : headRx x k b s =
    onSite x (fun q => { q with rx := onStream q.rx k fun e => { e with
      opened := some { stream := k, offset := bnat b 2 2, length := bnat b 4 4, data := b.drop 16, frames := 1 } } }) s := by
  have waits : isNamed s x { stream := k, offset := bnat b 2 2, length := bnat b 4 4, data := b.drop 16, frames := 0 } = false := unnamed
  have opened : aget ((onSite x (fun q => { q with rx := onStream q.rx k fun e => { e with
      opened := some { stream := k, offset := bnat b 2 2, length := bnat b 4 4, data := b.drop 16, frames := 1 } } }) s).site[x.val]).rx k =
        some { r with
      opened := some { stream := k, offset := bnat b 2 2, length := bnat b 4 4, data := b.drop 16, frames := 1 } } := by
    rw [onSite_here]
    exact aget_onStream (f := fun e : RxStream => { e with
      opened := some { stream := k, offset := bnat b 2 2, length := bnat b 4 4, data := b.drop 16, frames := 1 } }) stream
  unfold headRx
  dsimp only [Fin.getElem_fin]
  rw [stream]
  dsimp only
  rw [if_neg (by simp only [closed, named, Option.isSome_none, Bool.false_eq_true, ne_eq, not_true_eq_false, false_or]; omega)]
  unfold storeFrame
  dsimp only
  rw [waits, if_neg Bool.false_ne_true]
  unfold completeRx
  dsimp only [Fin.getElem_fin] at opened ⊢
  rw [opened]
  dsimp only
  rw [if_neg (by omega)]

/-- What a clean head on its slot's stream leaves. -/
theorem cleanFrame_head {good : BitVec 68} (stream : slotStream (boundStreams s w j.val false) ((s.wide[w.val]).mods[(mix j).val]).rxFrame.toNat =
    some k) :
    cleanFrame w j 1 good ls s = headRx w.site k (frameBytes good ls) (modCount w (mix j) 1 1 s) := by
  unfold cleanFrame
  dsimp only [Fin.getElem_fin]
  rw [if_neg (by decide), stream]
  rfl

theorem cleanFrame_idle {good : BitVec 68} : cleanFrame w j 2 good ls s = modCount w (mix j) 2 1 s := if_pos rfl

/-- Suspected lanes make a repair due and leave the site. -/
theorem suspectRx_kept (l : List ℕ) : (suspectRx w m l s).site = s.site ∧ (suspectRx w m l s).ctl = s.ctl ∧ (suspectRx w m l s).img = s.img ∧
    ((suspectRx w m l s).wide[w.val].mods[m.val]).rxFrame = (s.wide[w.val].mods[m.val]).rxFrame ∧
    (l ≠ [] → ((suspectRx w m l s).wide[w.val].mods[m.val]).due = true) := by
  by_cases none_ : l = []
  · have ends : suspectRx w m l s = s := if_pos none_
    rw [ends]
    exact ⟨rfl, rfl, rfl, rfl, fun some_ => absurd none_ some_⟩
  · have ends : suspectRx w m l s = logEvent clsCorrected blkWP 0x0100 w.val
        (onMod w m (fun q => { q with rx := suspect l q.rx }.fallDue s.time) s) :=
      if_neg none_
    rw [ends]
    refine ⟨by simp, by simp, by simp, ?_, fun _ => ?_⟩
    · rw [logEvent_wide, onMod_here, Module.fallDue]
      split <;> rfl
    · rw [logEvent_wide, onMod_here, Module.fallDue]
      split
      next due => exact due
      · rfl

theorem frameRx_sideband (on : frameOn s w 32 = true) (works : modTests s w 32 = false) :
    frameRx w 32 ls s = nextFrame w 32 (sidebandParity w ls s) := by
  have quiet : wtListens s w 32 = false := by
    rw [frameOn, Bool.or_eq_true] at on
    rcases on with up | trains
    · exact listens_of_modOn up
    · simp only [Bool.and_eq_true, decide_eq_true_eq] at trains
      obtain ⟨-, late⟩ := trains
      rw [wtListens, Bool.and_eq_false_iff]
      refine .inr ?_
      rw [Bool.or_eq_false_iff, beq_eq_false_iff_ne, beq_eq_false_iff_ne]
      exact ⟨fun h => by rw [h] at late; exact absurd late (by decide), fun h => by rw [h] at late; exact absurd late (by decide)⟩
  rw [frameRx, quiet, if_neg Bool.false_ne_true, on, if_neg (by decide)]
  dsimp only
  rw [works, if_neg Bool.false_ne_true, dif_neg (by decide)]
  rfl

/-! ### A frame that a module sends (R353, R354) -/

/-- The next frame number of a module that sends. -/
def sentFrame (w : WideIx) (m : Fin 33) (s : State) : State := onMod w m (fun q => { q with txFrame := q.txFrame + 1 }) s

/-- An idle frame. -/
def idleFrame (w : WideIx) (m : Fin 33) (s : State) : State :=
  emit (.frame w m (frameLanes ((s.wide[w]).mods[m]).tx.good 2 [])) (sentFrame w m s)

theorem frameTx_tests (on : modOn s w (mix j) = true) (tests : modTests s w (mix j) = true) :
    frameTx w j s = sendWtA w (mix j) (sentFrame w (mix j) s) := by
  rw [frameTx, on, if_neg (by decide), tests, if_pos rfl]
  rfl

theorem frameTx_idle (on : modOn s w (mix j) = true) (works : modTests s w (mix j) = false) (none_ : boundStreams s w j.val true = []) :
    frameTx w j s = idleFrame w (mix j) s := by
  have unbound (n : ℕ) : slotStream (boundStreams s w j.val true) n = none := if_pos none_
  rw [frameTx, on, if_neg (by decide), works, if_neg Bool.false_ne_true]
  dsimp only
  rw [unbound, ite_self]
  rfl

/-- A stream's next frame goes out on its slot (R353). -/
theorem frameTx_sends {e e1 : TxStream} {ty : FrameTyp} {b : List Byte} (on : modOn s w (mix j) = true)
    (idle : ((s.wide[w.val]).mods[(mix j).val]).phase = .idle)
    (stream : slotStream (boundStreams s w j.val true) ((s.wide[w.val]).mods[(mix j).val]).txFrame.toNat = some k)
    (there : aget s.site[w.site.val].tx k = some e) (next : txNext 488 504 e = some (ty, b, e1)) :
    frameTx w j s = emit (.frame w (mix j) (frameLanes ((s.wide[w.val]).mods[(mix j).val]).tx.good ty b)) (modCount w (mix j) 6 1
      (onSite w.site (fun y => { y with tx := onStream y.tx k fun _ => e1 }) (sentFrame w (mix j) s))) := by
  have works : modTests s w (mix j) = false := by
    rw [modTests, Fin.getElem_fin, Fin.getElem_fin, idle]
    rfl
  rw [frameTx, on, if_neg (by decide), works, if_neg Bool.false_ne_true]
  dsimp only [Fin.getElem_fin]
  rw [if_pos idle, stream]
  dsimp only
  rw [there]
  dsimp only
  rw [next]
  rfl

/-- The sideband sends its slots (R358). -/
theorem sidebandTx_sends (wide : wideOf x = some w) (up : s.site[x.val].sb.up = true) (idle : ((s.wide[w.val]).mods[32]).phase = .idle)
    (works : wtTime s w 32 = false) : sidebandTx x s =
    emit (.frame w 32 (sidebandLanes (((s.wide[w.val]).mods[32]).tx.good) (sbSlots (mayLeave s) 6 s.site[x.val].sb).1))
      (emit (.sideband x (sbSlots (mayLeave s) 6 s.site[x.val].sb).1) (siteCount x 8 (sbSlots (mayLeave s) 6 s.site[x.val].sb).2.2
        (onSb x (fun _ => (sbSlots (mayLeave s) 6 s.site[x.val].sb).2.1) (sentFrame w 32 s)))) := by
  have tests : modTests s w 32 = false := by
    rw [modTests, Fin.getElem_fin, Fin.getElem_fin]
    exact congrArg (· == RepairPhase.testing) idle
  unfold sidebandTx
  rw [wide]
  dsimp only [Fin.getElem_fin]
  rw [works, if_neg Bool.false_ne_true, tests, if_neg Bool.false_ne_true, if_pos up]
  rfl

end

/-- Settles O44: a frame is classified first (`frameRx_classed`), and its module counts it last
(`nextFrame`). -/
theorem widePortFrames : Obligations.WidePortFrames := by
  unfold Obligations.WidePortFrames
  simp only [Fin.getElem_fin]
  refine ⟨fun w m ls s hs on works idle => ⟨_, moduleFrame_runs hs (.inr (frameOverrun_of_idle idle)), ?idle⟩,
    fun w m ls s hs on works none_ quiet => ⟨_, moduleFrame_runs hs (.inr (frameOverrun_of_unclassified none_)), ?odd⟩,
    fun w m ls k r b s hs on works clean bytes stream there closed room named some_ fits more unnamed =>
      ⟨_, moduleFrame_runs hs (.inr (frameOverrun_of_room clean stream room)), ?head⟩,
    fun w m ls s hs on tests => ⟨_, moduleFrame_runs hs (.inr (frameOverrun_of_test tests)), ?tests⟩,
    fun w m ls s hs listens => ⟨_, moduleFrame_runs hs (.inl ?off), ?listens⟩,
    fun w ls s hs on works => ⟨_, moduleFrame_runs hs (.inr rfl), ?sideband⟩,
    fun w m s hs on tests => ⟨_, run_of_running _ s hs, ?testSent⟩,
    fun w m s hs on works none_ => ⟨_, run_of_running _ s hs, ?idleSent⟩,
    fun w m k e e1 ty b s hs on idle stream there next => ⟨_, run_of_running _ s hs, ?streamSent⟩,
    fun w x s hs wide up idle works => ⟨_, run_of_running _ s hs, ?slotsSent⟩⟩
  case idle =>
    have ends : stopping (frameRx w (mix m) ls) s = nextFrame w (mix m) (modCount w (mix m) 2 1 s) := by
      rw [stopping, frameRx_classed on works, classRx_clean idle, cleanFrame_idle]
      exact stopAfter_of_same rfl rfl
    obtain ⟨frame, counters⟩ := nextFrame_fields (modCount_here (s := s) (w := w) (m := mix m) (n := 1) 2)
    rw [ends, irqSettle_wide, irqSettle_site]
    exact ⟨frame, (counters 2 (by decide)).trans (counter_here _ 2), rfl⟩
  case odd =>
    obtain ⟨reason, event, state, wide, img⟩ := parityContained_ends (w := w) (s := modCount w (mix m) 5 1 s)
    have ends : stopping (frameRx w (mix m) ls) s = nextFrame w (mix m) (parityContained w (modCount w (mix m) 5 1 s)) := by
      rw [stopping, frameRx_classed on works, classRx_unclassified none_]
      exact stopAfter_of_none s (by rw [nextFrame, onMod_img, img]; exact quiet)
    have module : ((parityContained w (modCount w (mix m) 5 1 s)).wide[w.val]).mods[(mix m).val] = _ :=
      (congrArg (fun y : WideSite => y.mods[(mix m).val]) (vector_at wide w.val w.isLt)).trans (modCount_here 5)
    obtain ⟨frame, counters⟩ := nextFrame_fields module
    rw [ends, irqSettle_wide, irqSettle_site]
    exact ⟨frame, (counters 5 (by decide)).trans (counter_here _ 5), reason, event, state⟩
  case head =>
    have ends : stopping (frameRx w (mix m) ls) s = nextFrame w (mix m) (onSite w.site (fun q => { q with rx := onStream q.rx k fun e => { e with
        opened := some { stream := k, offset := bnat b 2 2, length := bnat b 4 4, data := b.drop 16, frames := 1 } } })
          (modCount w (mix m) 1 1 s)) := by
      have opens := headRx_opens (s := modCount w (mix m) 1 1 s) there closed named some_ fits more unnamed
      rw [stopping, frameRx_classed on works, classRx_clean clean, cleanFrame_head stream, Fin.getElem_fin, Fin.getElem_fin, bytes, opens]
      exact stopAfter_of_same rfl rfl
    obtain ⟨-, counters⟩ := nextFrame_fields (modCount_here (s := s) (w := w) (m := mix m) (n := 1) 1)
    rw [ends, irqSettle_wide, irqSettle_site]
    refine ⟨?_, (counters 1 (by decide)).trans (counter_here _ 1)⟩
    have site : (nextFrame w (mix m) (onSite w.site (fun q => { q with rx := onStream q.rx k fun e => { e with
        opened := some { stream := k, offset := bnat b 2 2, length := bnat b 4 4, data := b.drop 16, frames := 1 } } })
        (modCount w (mix m) 1 1 s))).site[w.site.val].rx = onStream s.site[w.site.val].rx k fun e => { e with
        opened := some { stream := k, offset := bnat b 2 2, length := bnat b 4 4, data := b.drop 16, frames := 1 } } := congrArg Site.rx onSite_here
    rw [site, aget_onStream (f := fun e : RxStream => { e with
      opened := some { stream := k, offset := bnat b 2 2, length := bnat b 4 4, data := b.drop 16, frames := 1 } }) there]
    rfl
  case tests =>
    have ends : stopping (frameRx w m ls) s = nextFrame w m (wtFrame w m ls s) := by
      rw [stopping, frameRx_tests on tests]
      exact stopAfter_of_same rfl rfl
    rw [ends, irqSettle_wide, irqSettle_site, nextFrame, onMod_here, wtFrame, onMod_here]
    exact ⟨rfl, rfl, rfl⟩
  case off =>
    by_contra on
    rw [listens_of_modOn (eq_true_of_ne_false on)] at listens
    cases listens
  case listens =>
    have ends : stopping (frameRx w m ls) s = wtFrame w m ls s := by
      rw [stopping, frameRx, listens, if_pos rfl]
      exact stopAfter_of_same rfl rfl
    rw [ends]
    exact ⟨irqSettle_wide _, rfl⟩
  case sideband =>
    obtain ⟨site, ctl, img, frame, due⟩ := suspectRx_kept (w := w) (m := 32) (s := s) (sidebandOdd (((s.wide[w]).mods[(32 : Fin 33)]).rx.good) ls)
    have ends : stopping (frameRx w 32 ls) s = nextFrame w 32 (suspectRx w 32 (sidebandOdd (((s.wide[w]).mods[(32 : Fin 33)]).rx.good) ls) s) := by
      rw [stopping, frameRx_sideband on works]
      exact stopAfter_of_same ctl img
    rw [ends, irqSettle_wide, irqSettle_site, nextFrame, onMod_site, site, onMod_here]
    exact ⟨congrArg (· + 1) frame, rfl, due⟩
  case testSent =>
    have seeds : ((sentFrame w (mix m) s).wide[w.val]).mods[(mix m).val] = { (s.wide[w.val]).mods[(mix m).val] with
        txFrame := ((s.wide[w.val]).mods[(mix m).val]).txFrame + 1 } := onMod_here
    obtain ⟨-, frame, -⟩ := module_fields (onMod_here (s := sentFrame w (mix m) s) (w := w) (m := mix m)
      (f := fun q => { q with wtFrames := q.wtFrames + 1 }))
    obtain ⟨-, before, -⟩ := module_fields seeds
    rw [frameTx_tests on tests, irqSettle_wide, irqSettle_site]
    refine ⟨frame.trans before, rfl, mem_out_irqSettle ?_⟩
    rw [sendWtA, Fin.getElem_fin, Fin.getElem_fin, seeds]
    exact List.mem_cons_self ..
  case idleSent =>
    obtain ⟨-, frame, -⟩ := module_fields (onMod_here (s := s) (w := w) (m := mix m) (f := fun q => { q with txFrame := q.txFrame + 1 }))
    rw [frameTx_idle on works none_, irqSettle_wide, irqSettle_site]
    exact ⟨frame, rfl, mem_out_irqSettle (List.mem_cons_self ..)⟩
  case streamSent =>
    have counted := modCount_here (s := onSite w.site (fun y => { y with tx := onStream y.tx k fun _ => e1 }) (sentFrame w (mix m) s)) (w := w)
      (m := mix m) (n := 1) 6
    have seeds : ((sentFrame w (mix m) s).wide[w.val]).mods[(mix m).val] = { (s.wide[w.val]).mods[(mix m).val] with
        txFrame := ((s.wide[w.val]).mods[(mix m).val]).txFrame + 1 } := onMod_here
    obtain ⟨-, -, counters⟩ := module_fields counted
    obtain ⟨-, -, before⟩ := module_fields seeds
    rw [frameTx_sends on idle stream there next, irqSettle_wide, irqSettle_site]
    refine ⟨?_, ?_, mem_out_irqSettle (List.mem_cons_self ..)⟩
    · have site : (onSite w.site (fun y => { y with tx := onStream y.tx k fun _ => e1 }) (sentFrame w (mix m) s)).site[w.site.val].tx =
          onStream s.site[w.site.val].tx k fun _ => e1 := congrArg Site.tx onSite_here
      exact (congrArg (aget · k) site).trans (aget_onStream (f := fun _ => e1) there)
    · exact (counters 6 (by decide)).trans ((counter_here _ 6).trans (congrArg (· + 1) (before 6 (by decide))))
  case slotsSent =>
    rw [sidebandTx_sends wide up idle works, irqSettle_site]
    refine ⟨mem_out_irqSettle (List.mem_cons_self ..), mem_out_irqSettle (List.mem_cons_of_mem _ (List.mem_cons_self ..)), ?_⟩
    have slots : (onSb x (fun _ => (sbSlots (mayLeave s) 6 s.site[x.val].sb).2.1) (sentFrame w 32 s)).site[x.val].sb =
        (sbSlots (mayLeave s) 6 s.site[x.val].sb).2.1 := congrArg Site.sb onSb_here
    exact (congrArg Site.sb (onSite_here (s := onSb x (fun _ => (sbSlots (mayLeave s) 6 s.site[x.val].sb).2.1) (sentFrame w 32 s)))).trans slots

end Sys2Proof.Machine
end

section
/-!
PROOFS. Repairs of a Wide Port (R341 to R343, R367, Table 11.4).
-/

-- In sequence: each worker of the elaborator takes its stack from the memory that a check may use.
set_option Elab.async false

namespace Sys2Proof.Machine

section
variable {s t : State} {w : WideIx} {m : Fin 33} {x : SiteIx} {f : Module → Module} {d : LaneDir}

theorem site_of_wide (h : wideOf x = some w) : w.site = x := by
  unfold wideOf at h
  split at h
  · exact Fin.ext (congrArg Fin.val (Option.some.inj h)).symm
  · cases h

theorem module_of_wide (h : t.wide = s.wide) : (t.wide[w.val]).mods[m.val] = (s.wide[w.val]).mods[m.val] := by rw [h]

theorem setSite_img (x : SiteIx) (st : BitVec 4) : (setSite x st s).img = s.img := by simp [setSite]

/-! ### A repair asks its partner and tests (R342) -/

theorem sbSend_grows (typ : Byte) (b : List Byte) (up : s.site[x.val].sb.up = true) : (sbSend x typ b s).site[x.val] = { s.site[x.val] with
    sb := { s.site[x.val].sb with queue := s.site[x.val].sb.queue ++ [{ typ := typ, body := b }] } } := by rw [sbSend, onSite_here, if_pos up]

theorem repairStart_asks (up : siteUp s w.site = true) (used : modUsed s w m.val = true) (due : ((s.wide[w]).mods[m]).due = true)
    (idle : ((s.wide[w]).mods[m]).phase = .idle) (may : mayRepair s ((s.wide[w]).mods[m]).atCommit ((s.wide[w]).mods[m]).dueAt = true) :
    repairStart w m s = sbSend w.site 0x12 (sbBody [modCode m, 1]) (sbSend w.site 0x12 (sbBody [modCode m, 0]) (setSite w.site siRepair
      (onMod w m (fun q => { q with due := false, atCommit := false, phase := .requested, partnerReady := false, mapSeen := false }) s))) := by
  have goes : (siteUp s w.site && modUsed s w m.val && ((s.wide[w]).mods[m]).due && ((s.wide[w]).mods[m]).phase == .idle &&
      mayRepair s ((s.wide[w]).mods[m]).atCommit ((s.wide[w]).mods[m]).dueAt) = true := by rw [up, used, due, idle, may]; rfl
  exact if_pos goes

theorem fallDue_due (now : ℕ) (q : Module) : (q.fallDue now).due = true := by
  unfold Module.fallDue
  split
  next due => exact due
  · rfl

/-! ### The test's end names a good set and a frame (R343) -/

/-- The good set that the end of a test names. -/
def namedGood (q : Module) (g : BitVec 68) : BitVec 68 := testedGood q.rx (g &&& ~~~ q.wtBad)

theorem namedGood_within (q : Module) (g : BitVec 68) : namedGood q g &&& q.rx.good = namedGood q g ∧ namedGood q g &&& g = namedGood q g ∧
    namedGood q g &&& q.wtBad = 0 := by
  unfold namedGood testedGood
  refine ⟨?_, ?_, ?_⟩ <;> ext i hi <;> simp only [BitVec.getElem_and, BitVec.getElem_not]
  · generalize q.rx.good[i] = a
    cases a <;> simp
  · generalize g[i] = a
    cases a <;> simp
  · generalize q.wtBad[i] = a
    cases a <;> simp

theorem namedFrame_ahead (now : Word) (k : BitVec 6) : 64 ≤ (now + 64 + k.setWidth 32 - now).toNat ∧
    (now + 64 + k.setWidth 32 - now).toNat < 128 := by
  have ahead : now + 64 + k.setWidth 32 - now = 64 + k.setWidth 32 := by rw [BitVec.add_assoc, BitVec.add_comm, BitVec.add_sub_cancel]
  have small := k.isLt
  rw [ahead]
  have value : (64 + k.setWidth 32 : BitVec 32).toNat = 64 + k.toNat := by
    rw [BitVec.toNat_add, BitVec.toNat_setWidth, Nat.mod_eq_of_lt (a := k.toNat) (by omega)]
    exact Nat.mod_eq_of_lt (by change 64 + k.toNat < 4294967296; omega)
  omega

theorem repairTested_names (g : BitVec 68) (tests : ((s.wide[w.val]).mods[m.val]).phase = .testing) :
    ∃ k : BitVec 6, ((repairTested w m g s).wide[w.val]).mods[m.val] = { (s.wide[w.val]).mods[m.val] with
      phase := .mapping, rx := { ((s.wide[w.val]).mods[m.val]).rx with
        nextMap := some (((s.wide[w.val]).mods[m.val]).rxFrame + 64 + k.setWidth 32, namedGood ((s.wide[w.val]).mods[m.val]) g), suspected :=
          0 } } := by
  refine ⟨Config.freeValue 6 s.fresh, ?_⟩
  have ends : (repairTested w m g s).wide = (onMod w m (fun q => { q with phase := .mapping, rx := { q.rx with
      nextMap := some (((s.wide[w.val]).mods[m.val]).rxFrame + 64 + (Config.freeValue 6 s.fresh).setWidth 32,
        namedGood ((s.wide[w.val]).mods[m.val]) g), suspected := 0 } }) s).wide := by
    unfold repairTested
    dsimp only [Fin.getElem_fin]
    rw [if_neg (not_not.2 tests), sbSend_wide]
    split
    · rfl
    · rw [eventBit_wide]
      rfl
  exact (module_of_wide ends).trans onMod_here

/-! ### Lanes that a PARITY report suspects (R341) -/

theorem suspectTx_kept (l : List ℕ) : (suspectTx w m l s).site = s.site ∧ (suspectTx w m l s).ctl = s.ctl ∧ (suspectTx w m l s).img = s.img ∧
    ((suspectTx w m l s).wide[w.val].mods[m.val]).counters = (s.wide[w.val].mods[m.val]).counters := by
  by_cases none_ : l = []
  · have ends : suspectTx w m l s = s := if_pos none_
    rw [ends]
    exact ⟨rfl, rfl, rfl, rfl⟩
  · have ends : suspectTx w m l s = logEvent clsCorrected blkWP 0x0100 w.val
        (onMod w m (fun q => { q with tx := suspect l q.tx }.fallDue s.time) s) := if_neg none_
    rw [ends]
    refine ⟨by simp, by simp, by simp, ?_⟩
    rw [logEvent_wide, onMod_here, Module.fallDue]
    split <;> rfl

theorem parityMsgW_tests {b : List Byte} (mod : modOf (byteAt b 0) = some m) (tests : modTests s w m = true) :
    parityMsgW w b s = setEv blkWP w.val 9 s := by
  rw [parityMsgW, mod]
  exact if_pos tests

/-- The lanes that a PARITY report names. -/
def reportedLanes (b : List Byte) : List ℕ := (List.range 68).filter fun k => (BitVec.ofNat 72 (bnat b 6 9)).getLsbD k

theorem parityMsgW_idle {b : List Byte} (mod : modOf (byteAt b 0) = some m) (band : m.val ≠ 32) (works : modTests s w m = false)
    (kind : byteAt b 1 = 2) : parityMsgW w b s = parityIdle w (suspectTx w m (reportedLanes b) (modCount w m 4 1 (setEv blkWP w.val 9 s))) := by
  have other : ¬m = 32 := fun h => band (congrArg Fin.val h)
  rw [parityMsgW, mod]
  exact (if_neg (by rw [works]; exact Bool.false_ne_true)).trans ((if_neg band).trans (if_pos kind))

theorem parity_suspects {b : List Byte} (wide : wideOf w.site = some w) (mod : modOf (byteAt b 0) = some m) (band : m.val ≠ 32)
    (works : modTests s w m = false) (kind : byteAt b 1 = 2) : ∃ u, stopping (parityMsg w.site b) s = u ∧
      u.site[w.site.val] = { s.site[w.site.val] with event := setBit (setBit s.site[w.site.val].event 9) 4 } ∧
      ((u.wide[w.val]).mods[m.val]).counters[4] = ((s.wide[w.val]).mods[m.val]).counters[4] + 1 := by
  obtain ⟨blk, inst⟩ := blk_wide w
  obtain ⟨site, ctl, img, counters⟩ := suspectTx_kept (w := w) (m := m) (s := modCount w m 4 1 (setEv blkWP w.val 9 s)) (reportedLanes b)
  obtain ⟨-, -, counted⟩ := module_fields (modCount_here (s := setEv blkWP w.val 9 s) (w := w) (m := m) (n := 1) 4)
  have goes : parityMsg w.site b s = parityIdle w (suspectTx w m (reportedLanes b) (modCount w m 4 1 (setEv blkWP w.val 9 s))) := by
    rw [parityMsg, wide]
    exact parityMsgW_idle mod band works kind
  refine ⟨_, (congrArg (stopAfter s) goes).trans (stopAfter_of_same ?_ ?_), ?_, ?_⟩
  · rw [parityIdle, eventBit_ctl, ctl, modCount, onMod_ctl, setEv_ctl]
  · rw [parityIdle, eventBit_img, img, modCount, onMod_img, setEv_img]
  · rw [parityIdle, ← blk, ← inst, eventBit_course, blk, inst, site, modCount, onMod_site, ← blk, ← inst, setEv_ofSite, onSite_here]
  · rw [parityIdle, eventBit_wide]
    refine (vector_at counters 4 (by decide)).trans ((counted 4 (by decide)).trans ((counter_here _ 4).trans ?_))
    rw [setEv_wide]
    rfl

/-! ### The maps apply at their frames -/

theorem judgeModule_kept (before : Module) : (judgeModule w m before s).wide = s.wide ∧ (judgeModule w m before s).img = s.img := by
  unfold judgeModule
  dsimp only
  split
  · exact ⟨by simp, by simp⟩
  · split
    · split <;> exact ⟨by simp, by simp⟩
    · exact ⟨rfl, rfl⟩

/-- A module after a frame at which maps apply. -/
def mapped (f : Word) (q : Module) : Module := repairOver { q with rx := applyDir f q.rx, tx := applyDir f q.tx }

theorem mapsApplyW_ends (f : Word) : ((mapsApplyW w f s).wide[w.val]).mods[m.val] = mapped f ((s.wide[w.val]).mods[m.val]) ∧
    (mapsApplyW w f s).img = s.img := by
  have kept (l : List (Fin 33)) (u : State) : (fun t : State => (t.wide, t.img)) (l.foldl (fun t m =>
      if siteUp t w.site && modUsed t w m.val then judgeModule w m ((s.wide[w]).mods[m]) t else t) u) = (u.wide, u.img) :=
    foldl_kept (fun t => (t.wide, t.img)) _ l u fun t m => by
      split
      · exact Prod.ext_iff.2 (judgeModule_kept _)
      · rfl
  obtain ⟨wide, img⟩ := Prod.mk.inj (kept (fins 33) { s with wide := upd s.wide w fun y => { mods := y.mods.map (mapped f) } })
  have module : ((upd s.wide w fun y : WideSite => { mods := y.mods.map (mapped f) })[w.val]).mods[m.val] = mapped f
      ((s.wide[w.val]).mods[m.val]) := by
    rw [upd_val_self]
    exact Vector.getElem_map ..
  have ends : (mapsApplyW w f s).wide = upd s.wide w (fun y : WideSite => { mods := y.mods.map (mapped f) }) ∧ (mapsApplyW w f s).img = s.img := by
    unfold mapsApplyW
    dsimp only
    split
    · exact ⟨(setSite_wide _).trans wide, (setSite_img _ _).trans img⟩
    · exact ⟨wide, img⟩
  exact ⟨(congrArg (fun y : WideSite => y.mods[m.val]) (vector_at ends.1 w.val w.isLt)).trans module, ends.2⟩

theorem mapped_applies {f : Word} {q : Module} {g : BitVec 68} (named : q.rx.nextMap = some (f, g)) : (mapped f q).rx.good = g ∧
    (mapped f q).rx.nextMap = none ∧ (q.phase = .mapping → q.tx.nextMap = none → (mapped f q).phase = if q.mapSeen then .idle else .mapping) := by
  have rx : applyDir f q.rx = { q.rx with good := g, nextMap := none } := by rw [applyDir, named]; exact if_pos rfl
  unfold mapped repairOver
  rw [rx]
  refine ⟨by split <;> rfl, by split <;> rfl, fun maps none_ => ?_⟩
  have tx : applyDir f q.tx = q.tx := by rw [applyDir, none_]
  rw [tx]
  cases seen : q.mapSeen
  · exact (congrArg Module.phase (if_neg (by simp))).trans maps
  · exact congrArg Module.phase (if_pos ⟨maps, rfl, rfl, none_⟩)

end

/-! ### A lost clock leaves the epoch as it is -/

section
variable {s : State} {p : Port} {b : Beam} {l : Line} {n : ℕ} {c : Bool} {d : Fin 4} {o : Subst}

/-- What decides whether a commit or a takeover has just ended. -/
def jobs (s : State) : Ctl × Load := (s.ctl, s.img)

@[simp] theorem onPort_jobs (f : PortSt → PortSt) : jobs (onPort p f s) = jobs s := rfl
@[simp] theorem onLine_jobs (f : LineSt → LineSt) : jobs (onLine p l f s) = jobs s := rfl
@[simp] theorem onBeam_jobs (b : Beam) (f : BeamSt → BeamSt) : jobs (onBeam b f s) = jobs s := rfl
@[simp] theorem onRing_jobs (r : ℕ) (f : RingSt → RingSt) : jobs (onRing r f s) = jobs s := rfl
@[simp] theorem logEvent_jobs (a b i j : ℕ) : jobs (logEvent a b i j s) = jobs s := by simp [jobs]
@[simp] theorem pushCtl_jobs (b : Beam) (typ : BitVec 4) (v : List Byte) : jobs (pushCtl b typ v s) = jobs s := rfl
@[simp] theorem fresh_jobs (k : ℕ) : jobs { s with fresh := k } = jobs s := rfl
@[simp] theorem ite_jobs (g : Prop) [Decidable g] (a b : State) : jobs (if g then a else b) = if g then jobs a else jobs b := apply_ite ..
@[simp] theorem subSend_jobs (k : ℕ) (o : Subst) : jobs (subSend p k o c s) = jobs s := rfl
@[simp] theorem flag_jobs (a b i : ℕ) : jobs (flag a b i s) = jobs s := by simp [jobs]
@[simp] theorem setOut_jobs : jobs (setOut p l n c s) = jobs s := by simp [setOut]
@[simp] theorem putRequest_jobs (m : LineSet × LineSet) : jobs (putRequest b m s) = jobs s := by
  unfold putRequest; split <;> simp
@[simp] theorem withMarker_jobs : jobs (withMarker o s).2 = jobs s := by simp [withMarker]
@[simp] theorem askRetrain_jobs : jobs (askRetrain b s) = jobs s := by simp [askRetrain]
@[simp] theorem widthCheck_jobs : jobs (widthCheck p s) = jobs s := by simp [widthCheck]
@[simp] theorem putSub_jobs (u : Option Subst) : jobs (putSub p d u s) = jobs s := by simp [putSub]
@[simp] theorem stopCal_jobs : jobs (stopCal p l c s) = jobs s := by simp [stopCal]
@[simp] theorem takeSpare_jobs : jobs (takeSpare p d o s) = jobs s := by simp [takeSpare]
@[simp] theorem ownerGo_jobs : jobs (ownerGo p d o c s) = jobs s := by unfold ownerGo; split <;> simp
@[simp] theorem serveNeeds_jobs : jobs (serveNeeds p d s) = jobs s := by unfold serveNeeds; split <;> simp
@[simp] theorem subEnd_jobs : jobs (subEnd p d c s) = jobs s := by unfold subEnd; split <;> simp
@[simp] theorem lineRemoved_jobs : jobs (lineRemoved p l s) = jobs s := by unfold lineRemoved; split <;> simp
@[simp] theorem relockRing_jobs : jobs (relockRing n s) = jobs s := by simp [relockRing]
@[simp] theorem subRelocks_jobs : jobs (subRelocks p d o s) = jobs s := by simp [subRelocks]
@[simp] theorem startReturn_jobs : jobs (startReturn p d o s) = jobs s := by simp [startReturn]
@[simp] theorem abandonCal_jobs : jobs (abandonCal p d s) = jobs s := by unfold abandonCal; split <;> simp
@[simp] theorem subServes_jobs : jobs (subServes p d o s) = jobs s := by simp [subServes]
@[simp] theorem raiseSub_jobs (u : Subst) : jobs (raiseSub p d o u s) = jobs s := by simp [raiseSub]
@[simp] theorem startSub_jobs : jobs (startSub p d o s) = jobs s := by simp [startSub]
@[simp] theorem joinNeeds_jobs : jobs (joinNeeds p o s) = jobs s := by simp [joinNeeds]
theorem needSpare_jobs {s₂ : State} (hs : needSpare p c o s = some s₂) : jobs s₂ = jobs s := by
  unfold needSpare at hs
  dsimp only at hs
  split at hs
  · cases hs
  · split at hs
    · simp [← Option.some.inj hs]
    · split_ifs at hs <;> simp [← Option.some.inj hs]
@[simp] theorem lineNeeds_jobs (reason : BitVec 8) : jobs (lineNeeds p l reason c s) = jobs s := by
  unfold lineNeeds
  dsimp only
  split
  · simp
  · split
    next h => rw [widthCheck_jobs, needSpare_jobs h]; simp
    · simp
@[simp] theorem spareLost_jobs : jobs (spareLost p l s) = jobs s := by
  refine (foldl_kept jobs _ _ _ fun t u => lineRemoved_jobs).trans ?_
  simp
@[simp] theorem lineLost_jobs : jobs (lineLost p l s) = jobs s := by simp [lineLost]

end

/-- Settles O45: a repair's steps write the module and the site's messages; the good set that a test's end names loses lanes only
(`namedGood_within`). -/
theorem widePortRepairs : Obligations.WidePortRepairs := by
  unfold Obligations.WidePortRepairs
  simp only [Fin.getElem_fin]
  refine ⟨fun w m s hs up used due idle sb may => ⟨_, run_of_running _ s hs, ?asks⟩,
    fun x w m raw y s came typ wide mod asks phase => ⟨_, run_of_running _ s came.1, ?ready⟩,
    fun x w m raw y s came typ wide mod asks => ⟨_, run_of_running _ s came.1, ?asked⟩,
    fun w m g s hs tests => ⟨_, run_of_running _ s hs, ?tested⟩,
    fun x w m raw y s came typ wide mod => ⟨_, run_of_running _ s came.1, ?map⟩,
    fun x w m f g s hs wide named quiet => ⟨_, run_of_running _ s hs, ?applies⟩,
    fun x w m raw y s came typ wide mod band works kind => ⟨_, run_of_running _ s came.1, ?idle⟩,
    fun x w m raw y s came typ wide mod tests => ⟨_, run_of_running _ s came.1, ?tests⟩,
    fun x s hs up quiet => ⟨_, run_of_running _ s hs, ?clock⟩,
    fun p n s hs on => ⟨_, run_of_running _ s hs, ?line⟩⟩
  case asks =>
    have sb' : (setSite w.site siRepair (onMod w m (fun q => { q with
        due := false, atCommit := false, phase := .requested, partnerReady := false, mapSeen := false }) s)).site[w.site.val].sb.up = true := by
      rw [setSite_site]
      exact sb
    have first := sbSend_grows 0x12 (sbBody [modCode m, 0]) sb'
    have second := sbSend_grows (s := sbSend w.site 0x12 (sbBody [modCode m, 0]) (setSite w.site siRepair (onMod w m (fun q => { q with
        due := false, atCommit := false, phase := .requested, partnerReady := false, mapSeen := false }) s))) 0x12 (sbBody [modCode m, 1])
      (by rw [first]; exact sb')
    have wide := (sbSend_wide w.site 0x12 (sbBody [modCode m, 1]) _).trans ((sbSend_wide w.site 0x12 (sbBody [modCode m, 0]) _).trans
      (setSite_wide (x := w.site) (s := onMod w m (fun q => { q with
        due := false, atCommit := false, phase := .requested, partnerReady := false, mapSeen := false }) s) siRepair))
    have module := (module_of_wide (w := w) (m := m) wide).trans onMod_here
    rw [irqSettle_wide, irqSettle_site, repairStart_asks up used due idle may, module, second, first, setSite_site]
    refine ⟨rfl, rfl, rfl, ?_⟩
    simp
  case ready =>
    obtain rfl := site_of_wide wide
    have arrives := sbSlot_of_new (is := (· == 0x12)) (f := fun y => repairMsg w.site y.body) came (by rw [typ]; rfl) (by rw [typ]; decide)
    have takes : repairMsg w.site y.body (numbered w.site y s) = onMod w m (fun q => { q with
        phase := .testing, partnerReady := true, wtLast := [], wtBad := 0 }) (numbered w.site y s) := by
      rw [repairMsg, wide]
      dsimp only
      rw [repairMsgW, mod]
      exact (if_neg asks).trans (if_pos phase)
    rw [irqSettle_wide, arrives, takes, onMod_here]
    exact ⟨rfl, rfl⟩
  case asked =>
    obtain rfl := site_of_wide wide
    have arrives := sbSlot_of_new (is := (· == 0x12)) (f := fun y => repairMsg w.site y.body) came (by rw [typ]; rfl) (by rw [typ]; decide)
    have takes : repairMsg w.site y.body (numbered w.site y s) = if ((s.wide[w.val]).mods[m.val]).phase = .requested then numbered w.site y s
        else onMod w m (Module.fallDue s.time) (numbered w.site y s) := by
      rw [repairMsg, wide]
      dsimp only
      rw [repairMsgW, mod]
      exact if_pos asks
    rw [irqSettle_wide, arrives, takes]
    refine ⟨fun phase => ?_, fun other => ?_⟩
    · rw [if_pos phase]
      rfl
    · simp only [if_neg other, onMod_here, fallDue_due]
  case tested =>
    obtain ⟨k, module⟩ := repairTested_names g tests
    obtain ⟨loses, asked, bad⟩ := namedGood_within ((s.wide[w.val]).mods[m.val]) g
    obtain ⟨ahead, near⟩ := namedFrame_ahead ((s.wide[w.val]).mods[m.val]).rxFrame k
    rw [irqSettle_wide, module]
    exact ⟨rfl, _, _, rfl, ahead, near, loses, asked, bad⟩
  case map =>
    obtain rfl := site_of_wide wide
    have arrives := sbSlot_of_new (is := (· == 0x11)) (f := fun y => laneMapMsg w.site y.body) came (by rw [typ]; rfl) (by rw [typ]; decide)
    have takes : (laneMapMsg w.site y.body (numbered w.site y s)).wide = (onMod w m (fun q => { q with mapSeen := true, tx := { q.tx with
        nextMap := some (w32 (bnat y.body 11 4), BitVec.ofNat 68 (bnat y.body 2 9)), suspected := 0 } }) (numbered w.site y s)).wide := by
      rw [laneMapMsg, wide]
      dsimp only
      rw [laneMapMsgW, mod]
      dsimp only
      split
      · rfl
      · rw [eventBit_wide]
    rw [irqSettle_wide, arrives, (module_of_wide takes).trans onMod_here]
    exact ⟨rfl, rfl, rfl⟩
  case applies =>
    obtain rfl := site_of_wide wide
    obtain ⟨module, img⟩ := mapsApplyW_ends (w := w) (m := m) (s := s) f
    have ends : stopping (mapsApply w.site f) s = mapsApplyW w f s := by
      have goes : mapsApply w.site f s = mapsApplyW w f s := by
        rw [mapsApply, wide]
      exact (congrArg (stopAfter s) goes).trans (stopAfter_of_none s (by rw [img]; exact quiet))
    rw [irqSettle_wide, ends, module]
    exact mapped_applies named
  case idle =>
    obtain rfl := site_of_wide wide
    have arrives := sbSlot_of_new (is := (· == 0x13)) (f := fun y => stopping (parityMsg w.site y.body)) came (by rw [typ]; rfl) (by rw [typ]; decide)
    obtain ⟨u, ends, site, wide'⟩ := parity_suspects (s := numbered w.site y s) wide mod band works kind
    rw [irqSettle_wide, irqSettle_site, arrives, ends, site, numbered_site]
    exact ⟨wide', rfl, rfl⟩
  case tests =>
    obtain rfl := site_of_wide wide
    obtain ⟨blk, inst⟩ := blk_wide w
    have arrives := sbSlot_of_new (is := (· == 0x13)) (f := fun y => stopping (parityMsg w.site y.body)) came (by rw [typ]; rfl) (by rw [typ]; decide)
    have ends : stopping (parityMsg w.site y.body) (numbered w.site y s) = setEv blkWP w.val 9 (numbered w.site y s) := by
      have goes : parityMsg w.site y.body (numbered w.site y s) = setEv blkWP w.val 9 (numbered w.site y s) := by
        rw [parityMsg, wide]
        exact parityMsgW_tests mod tests
      exact (congrArg (stopAfter _) goes).trans (stopAfter_of_same (by simp) (by simp))
    rw [irqSettle_wide, irqSettle_site, arrives, ends, setEv_wide, ← blk, ← inst, setEv_ofSite, onSite_here, numbered_site]
    exact ⟨rfl, rfl, rfl⟩
  case clock =>
    have core := containSite_siteCore (x := x) (s := s) 4 0x0104
    have ends : stopping (clockLost (.site x)) s = containSite x 4 0x0104 s := by
      have goes : clockLost (.site x) s = containSite x 4 0x0104 s := if_pos (by simpa [siteUp] using up)
      exact (congrArg (stopAfter s) goes).trans (stopAfter_of_none s (by rw [containSite_img]; exact quiet))
    rw [irqSettle_site, ends]
    exact ⟨(congrArg Site.state core :), (congrArg Site.reason core :), (congrArg Site.rstn core :)⟩
  case line =>
    have same : jobs (lineLost p n s) = jobs s := lineLost_jobs
    obtain ⟨ctl, img⟩ := Prod.mk.inj same
    have ends : stopping (clockLost (.line p n)) s = lineLost p n s := stopAfter_of_same ctl img
    rw [irqSettle_port, ends]
    exact (lineLost_ends on).1

end Sys2Proof.Machine
end

section
/-!
PROOFS. WP_CMD (R369, Table 11.14).
-/

-- In sequence: each worker of the elaborator takes its stack from the memory that a check may use.
set_option Elab.async false

namespace Sys2Proof.Machine

section
variable {s t : State} {w : WideIx} {m : Fin 33} {x : SiteIx}

/-! ### WP_CMD (R369) -/

theorem wpCmd_runs {code : ℕ} {v : Word} (here : fin! 4 (fld v 9 8) = w) (epoch : fld v 31 16 = s.site[w.site.val].epoch.toNat)
    (fits : wpCmdEffect code w (fin! 33 (fld v 15 11)) s = some t) : wpCmd code v s =
      { onSite w.site (fun q => { q with epoch := q.epoch + 1 }) t with
        siteReg := { t.siteReg with wpCmd := (BitVec.ofNat 8 code, false, 1) } } := by
  subst here
  simp only [wpCmd, Fin.getElem_fin, ne_eq, epoch, not_true_eq_false, if_false, fits]
  rfl

theorem wpCmd_refused {code : ℕ} {v : Word} (here : fin! 4 (fld v 9 8) = w) (epoch : fld v 31 16 = s.site[w.site.val].epoch.toNat)
    (unfit : wpCmdEffect code w (fin! 33 (fld v 15 11)) s = none) :
    wpCmd code v s = { s with siteReg := { s.siteReg with wpCmd := (BitVec.ofNat 8 code, false, 3) } } := by
  subst here
  simp only [wpCmd, Fin.getElem_fin, ne_eq, epoch, not_true_eq_false, if_false, unfit]
  rfl

theorem wpCmd_stale {code : ℕ} {v : Word} (here : fin! 4 (fld v 9 8) = w) (stale : fld v 31 16 ≠ s.site[w.site.val].epoch.toNat) :
    wpCmd code v s = flag blkWP w.val 10 { s with siteReg := { s.siteReg with wpCmd := (BitVec.ofNat 8 code, false, 2) } } := by
  subst here
  exact if_pos stale

theorem siteUnhold_site : (siteUnhold x s).site[x.val] = { s.site[x.val] with hold := false } := by
  have same (u : State) : (endEchoSite x u).site = u.site := by simp [endEchoSite]
  rw [siteUnhold, same, onSite_here]

theorem siteReset_site : (siteReset x s).site[x.val].state = 1 ∧ (siteReset x s).site[x.val].rstn = true ∧
    (siteReset x s).site[x.val].hold = s.site[x.val].hold := by
  have site : (siteReset x s).site = (onSite x (fun q => { siteIdle q with rstn := true, reason := 0, settled := 0, partnerHigh := 0 })
      (setSite x siReset s)).site := by
    unfold siteReset reachForget wideForget
    dsimp only
    split <;> split <;> rfl
  rw [site, onSite_here, setSite_site]
  exact ⟨rfl, rfl, rfl⟩

end

/-- Settles O46: by the case of the command (`wpCmd_runs`, `wpCmd_refused`, `wpCmd_stale`). -/
theorem widePortCommands : Obligations.WidePortCommands := by
  unfold Obligations.WidePortCommands
  simp only [Fin.getElem_fin]
  refine ⟨fun w v s hs good here epoch state => ⟨_, regRow_of_running _ hs.1 hs.2 good, ?retrain⟩,
    fun w v s hs good here epoch state => ⟨_, regRow_of_running _ hs.1 hs.2 good, ?unfit⟩,
    fun w v s hs good here epoch low high other => ⟨_, regRow_of_running _ hs.1 hs.2 good, ?hold⟩,
    fun w v s hs good here epoch held => ⟨_, regRow_of_running _ hs.1 hs.2 good, ?release⟩,
    fun w v s hs good here epoch up used => ⟨_, regRow_of_running _ hs.1 hs.2 good, ?repair⟩,
    fun w v s hs good here stale => ⟨_, regRow_of_running _ hs.1 hs.2 good, ?stale⟩⟩ <;> rw [irqSettle_siteReg]
  case retrain =>
    obtain ⟨state', rstn, -⟩ := siteReset_site (x := w.site) (s := s)
    have fits : wpCmdEffect 1 w (fin! 33 (fld v 15 11)) s = some (siteReset w.site s) := if_pos state
    rw [irqSettle_site, wpCmd_runs here epoch fits]
    have site := onSite_here (x := w.site) (s := siteReset w.site s) (f := fun q => { q with epoch := q.epoch + 1 })
    exact ⟨(congrArg Site.state site).trans state', (congrArg Site.rstn site).trans rstn, rfl⟩
  case unfit =>
    have unfit : wpCmdEffect 1 w (fin! 33 (fld v 15 11)) s = none := if_neg state
    rw [irqSettle_site, wpCmd_refused here epoch unfit]
    exact ⟨rfl, rfl⟩
  case hold =>
    obtain ⟨state, -, hold⟩ := siteReset_site (x := w.site) (s := onSite w.site (fun q => { q with hold := true }) s)
    have holds : siteHold w.site s = siteReset w.site (onSite w.site (fun q => { q with hold := true }) s) := if_neg other
    have fits : wpCmdEffect 2 w (fin! 33 (fld v 15 11)) s = some (siteHold w.site s) := if_pos ⟨low, high⟩
    rw [irqSettle_site, wpCmd_runs here epoch fits, holds]
    have site := onSite_here (x := w.site) (s := siteReset w.site (onSite w.site (fun q => { q with hold := true }) s))
      (f := fun q => { q with epoch := q.epoch + 1 })
    refine ⟨(congrArg Site.hold site).trans (hold.trans ?_), (congrArg Site.state site).trans state, rfl⟩
    rw [onSite_here]
  case release =>
    have fits : wpCmdEffect 3 w (fin! 33 (fld v 15 11)) s = some (siteUnhold w.site s) := if_pos held
    rw [irqSettle_site, wpCmd_runs here epoch fits]
    have site := onSite_here (x := w.site) (s := siteUnhold w.site s) (f := fun q => { q with epoch := q.epoch + 1 })
    rw [siteUnhold_site] at site
    exact ⟨(congrArg Site.hold site :), (congrArg Site.state site :), rfl⟩
  case repair =>
    have fits : wpCmdEffect 4 w (fin! 33 (fld v 15 11)) s = some (onMod w (fin! 33 (fld v 15 11)) (Module.fallDue s.time) s) :=
      if_pos (by rw [up, used]; rfl)
    rw [irqSettle_wide, wpCmd_runs here epoch fits]
    have module := onMod_here (w := w) (m := fin! 33 (fld v 15 11)) (s := s) (f := Module.fallDue s.time)
    exact ⟨(congrArg Module.due module).trans (fallDue_due ..), rfl⟩
  case stale =>
    obtain ⟨blk, inst⟩ := blk_wide w
    have site := eventBit_course (x := w.site) (s := { s with siteReg := { s.siteReg with wpCmd := (BitVec.ofNat 8 2, false, 2) } }) 0 10
    rw [blk, inst] at site
    rw [irqSettle_site, wpCmd_stale here stale]
    exact ⟨(congrArg Site.state site :), (congrArg Site.hold site :), (congrArg Site.event site :), (congrArg SiteRegs.wpCmd (flag_siteReg ..) :)⟩

end Sys2Proof.Machine
end

section
/-!
PROOFS. Codewords of a Reach Port (R374 to R376, R384, R387, R388).
-/

-- In sequence: each worker of the elaborator takes its stack from the memory that a check may use.
set_option Elab.async false

namespace Sys2Proof.Machine

section
variable {s u : State} {x : SiteIx} {t : ReachIx} {q : Fin 8} {k : ℕ} {w v : List Sym} {f : ReachSite → ReachSite}

theorem onReach_here : (onReach t f s).reach[t.val] = f s.reach[t.val] := upd_val_self ..

/-! ### Words without injected errors -/

theorem pickErrors_nil {l : List ℕ} {m n : ℕ} (none_ : pickErrors k l m = []) : pickErrors k l n = [] := by
  cases k with
  | zero => rfl
  | succ k =>
    cases l with
    | nil => rfl
    | cons a l =>
      have inside : (Config.freeValue 10 m).toNat % (a :: l).length < (a :: l).length := Nat.mod_lt _ (Nat.succ_pos _)
      rw [pickErrors, List.getElem?_eq_getElem inside] at none_
      cases none_

theorem wordErrors_nil {side : Bool} (none_ : wordErrors s t q side = []) (inject : u.reach[t.val].inject = s.reach[t.val].inject) :
    wordErrors u t q side = [] := by
  have armed (kind : ℕ) : armedFor u t kind side = armedFor s t kind side := by simp only [armedFor, Fin.getElem_fin, inject]
  unfold wordErrors at none_ ⊢
  simp only [Fin.getElem_fin, armed, inject] at none_ ⊢
  split
  · rfl
  next here =>
    rw [if_neg here] at none_
    split
    next one =>
      rw [if_pos one, List.map_eq_nil_iff] at none_
      rw [List.map_eq_nil_iff]
      exact pickErrors_nil none_
    next other =>
      rw [if_neg other] at none_
      split
      next two =>
        rw [if_pos two] at none_
        exact pickErrors_nil none_
      · rfl

/-! ### A codeword received (R374 to R376) -/

theorem state_of_siteUp (up : siteUp s x = true) : s.site[x.val].state = 3 ∨ s.site[x.val].state = 4 := by simpa [siteUp] using up

theorem other_of_siteUp (up : siteUp s x = true) : s.site[x.val].state ≠ siTest ∧ s.site[x.val].state ≠ siTraining := by
  obtain h | h := state_of_siteUp up <;> rw [h] <;> decide

theorem serves_of_hears (up : siteUp s t.site = true) (hears : quadHears s t q = true) : quadServes s t q = true := by
  obtain ⟨-, training⟩ := other_of_siteUp up
  have off : (s.site[t.site.val].state == siTraining) = false := beq_eq_false_iff_ne.2 training
  unfold quadHears at hears
  rw [Fin.getElem_fin, off, Bool.false_and, Bool.or_false] at hears
  exact (Bool.and_eq_true_iff.1 hears).2

theorem inRetest_of_serves (serves : quadServes s t q = true) : inRetest s t q = false := by rw [inRetest, serves]; simp

/-- A state that has counted a codeword. -/
def wordHeard (t : ReachIx) (q : Fin 8) (s : State) : State := onReach t (fun r => { r with rxIndex := upd r.rxIndex q (· + 1) }) s

theorem wordHeard_index : (wordHeard t q s).reach[t.val].rxIndex[q.val] = s.reach[t.val].rxIndex[q.val] + 1 := by
  have index : (wordHeard t q s).reach[t.val].rxIndex = upd s.reach[t.val].rxIndex q (· + 1) := congrArg ReachSite.rxIndex onReach_here
  exact (vector_at index q.val q.isLt).trans (upd_val_self ..)

theorem codewordRx_hears (up : siteUp s t.site = true) (hears : quadHears s t q = true) (errors : wordErrors s t q true = []) :
    codewordRx t q w s = match rsDecode 30 (wordSeen s t q w) with
      | none => uncorrectableRx t q (atSideband s t q) (wordHeard t q s)
      | some (v, ps) => decodedRx t q (atSideband s t q) (reachFields v) (correctedRx t q ps (wordHeard t q s)) := by
  have runs : wordsRun s t = true := by rw [wordsRun, up, Bool.true_or]
  have counted : wordCounted t q s = wordHeard t q s := by rw [wordCounted, errors]; rfl
  have qual : qualifies s t q = false := by rw [qualifies, inRetest_of_serves (serves_of_hears up hears), Bool.false_and]
  unfold codewordRx
  dsimp only [Fin.getElem_fin]
  rewrite [if_neg (other_of_siteUp up).1, runs, if_neg Bool.noConfusion, qual, if_neg Bool.false_ne_true, hears, if_neg Bool.noConfusion, counted]
  rfl

theorem codewordRx_clean (up : siteUp s t.site = true) (hears : quadHears s t q = true) (place : atSideband s t q = false)
    (errors : wordErrors s t q true = []) (clean : rsDecode 30 (wordSeen s t q w) = some (v, [])) {kind : ℕ} {b : List Byte}
    (fields : reachFields v = (kind, k, b)) (data : kind ≠ 3) : codewordRx t q w s = kindRx t kind k b (wordHeard t q s) := by
  have up' : ¬siteUp (wordHeard t q s) t.site = false := by
    have same : siteUp (wordHeard t q s) t.site = siteUp s t.site := rfl
    rw [same, up]
    exact Bool.noConfusion
  rw [codewordRx_hears up hears errors, clean, place]
  dsimp only
  rw [fields, correctedRx, if_pos rfl, decodedRx]
  dsimp only
  rw [Bool.false_and, if_neg Bool.false_ne_true, if_neg up', Bool.false_or, if_neg (by simpa using data)]

theorem reachCodeword_runs (hs : running s = true) (fits : wordOverrun t q w s = false) :
    exec (.reachCodeword t q w) s = .next (irqSettle (stopping (codewordRx t q w) s)) := by
  have runs : execReachCodeword t q w s = run (stopping (codewordRx t q w)) s := if_neg (by rw [fits, Bool.and_false]; exact Bool.false_ne_true)
  exact runs.trans (run_of_running _ s hs)

theorem wordOverrun_of_bad (bad : rsDecode 30 (wordSeen s t q w) = none) : wordOverrun t q w s = false := by
  rw [wordOverrun, bad, Bool.and_false]

theorem wordOverrun_of_room {ps : List ℕ} (clean : rsDecode 30 (wordSeen s t q w) = some (v, ps)) {kind : ℕ} {b : List Byte}
    (fields : reachFields v = (kind, k, b)) (room : kind ≠ 0 → noCredit (s.site[t.site]) k = false) (head : kind ≤ 1) : wordOverrun t q w s =
      false := by
  rw [wordOverrun, clean]
  dsimp only
  rw [fields]
  dsimp only
  obtain rfl | rfl : kind = 0 ∨ kind = 1 := by omega
  · simp
  · rw [room (by decide), Bool.and_false, Bool.and_false]

/-! ### A codeword that cannot be corrected (R387, R388) -/

theorem worstLane_quad : quadOf (worstLane s t q) = q := by
  have first : quadOf (fin! 32 (4 * q.val)) = q := by revert q; decide
  have kept (l : List (Fin 32)) (within : ∀ a ∈ l, quadOf a = q) (n : Fin 32 → ℕ) (a : Fin 32) (here : quadOf a = q) :
      quadOf (l.foldl (fun a l => if n a < n l then l else a) a) = q := by
    induction l generalizing a with
    | nil => exact here
    | cons b l ih =>
      obtain ⟨hb, hl⟩ := List.forall_mem_cons.1 within
      refine ih hl _ ?_
      dsimp only
      split
      · exact hb
      · exact here
  refine kept _ (fun a there => ?_) _ _ first
  obtain ⟨-, here⟩ := List.mem_filter.1 there
  exact Fin.ext (beq_iff_eq.1 here)

theorem fallDue_dueQuad (now : ℕ) (r : ReachSite) : (r.fallDue now q).due.getLsbD q.val = true ∧ (r.fallDue now q).uncorr = r.uncorr := by
  unfold ReachSite.fallDue
  split
  next due => exact ⟨due, rfl⟩
  · refine ⟨?_, rfl⟩
    rw [getLsbD_setBit, decide_eq_true rfl, decide_eq_true q.isLt]
    simp

theorem containStreams_siteCore (reason code : ℕ) : siteCore x (containStreams x reason code s) = siteCore x (onSite x (fun q => { q with
    reason := BitVec.ofNat 4 reason }) s) := by
  rw [containStreams, abortIf_siteCore]
  exact siteCore_of_site (logEvent_site ..) x

theorem suspectQuiet_ends (l : Fin 32) (here : quadOf l = q) : (suspectQuiet t l s).reach[t.val].due.getLsbD q.val = true ∧
    (suspectQuiet t l s).reach[t.val].uncorr = s.reach[t.val].uncorr ∧ (suspectQuiet t l s).img = s.img ∧
    (suspectQuiet t l s).site[t.site.val] = { s.site[t.site.val] with event := setBit s.site[t.site.val].event 4 } := by
  obtain ⟨blk, inst⟩ := blk_reach t
  subst here
  obtain ⟨due, uncorr⟩ := fallDue_dueQuad (q := quadOf l) s.time s.reach[t.val]
  have reach : (suspectQuiet t l s).reach[t.val] = { s.reach[t.val].fallDue s.time (quadOf l) with
      lanes := upd (s.reach[t.val].fallDue s.time (quadOf l)).lanes l fun y => { y with state := 2 } } := by
    rw [suspectQuiet, setEv_reach, onLane, onReach_here, onReach_here]
  rw [reach]
  refine ⟨due, uncorr, by simp [suspectQuiet], ?_⟩
  rw [suspectQuiet, ← blk, ← inst, setEv_ofSite, onSite_here]
  rfl

theorem uncorrectableRx_ends (up : siteUp s t.site = true) : (uncorrectableRx t q false s).reach[t.val].uncorr[q.val] =
    s.reach[t.val].uncorr[q.val] + 1 ∧
    (uncorrectableRx t q false s).site[t.site.val].reason = 9 ∧ (uncorrectableRx t q false s).reach[t.val].due.getLsbD q.val = true ∧
    (uncorrectableRx t q false s).site[t.site.val].state = s.site[t.site.val].state ∧ (uncorrectableRx t q false s).img = s.img := by
  have ends : uncorrectableRx t q false s = containStreams t.site 9 4 (setEv blkTP t.val 3 (suspectQuiet t (worstLane s t q)
      (onReach t (fun r => { r with uncorr := upd r.uncorr q (· + 1) }) s))) :=
    (if_neg (show ¬siteUp s t.site = false by rw [up]; exact Bool.noConfusion)).trans (if_neg Bool.false_ne_true)
  obtain ⟨due, uncorr, img, site⟩ := suspectQuiet_ends (t := t) (q := q) (s := onReach t (fun r => { r with uncorr := upd r.uncorr q (· + 1) }) s)
    (worstLane s t q) worstLane_quad
  have core := containStreams_siteCore (x := t.site) (s := setEv blkTP t.val 3 (suspectQuiet t (worstLane s t q)
      (onReach t (fun r => { r with uncorr := upd r.uncorr q (· + 1) }) s))) 9 4
  have reach : (containStreams t.site 9 4 (setEv blkTP t.val 3 (suspectQuiet t (worstLane s t q)
      (onReach t (fun r => { r with uncorr := upd r.uncorr q (· + 1) }) s)))).reach = (suspectQuiet t (worstLane s t q)
      (onReach t (fun r => { r with uncorr := upd r.uncorr q (· + 1) }) s)).reach := by simp [containStreams]
  obtain ⟨blk, inst⟩ := blk_reach t
  have before : (setEv blkTP t.val 3 (suspectQuiet t (worstLane s t q)
      (onReach t (fun r => { r with uncorr := upd r.uncorr q (· + 1) }) s))).site[t.site.val] =
      { s.site[t.site.val] with event := setBit (setBit s.site[t.site.val].event 4) 3 } := by
    rw [← blk, ← inst, setEv_ofSite, onSite_here, site]
    rfl
  rw [onSite_siteCore, before] at core
  rw [ends, reach]
  refine ⟨?_, (congrArg Site.reason core :), due, (congrArg Site.state core :), ?_⟩
  · refine (vector_at uncorr q.val q.isLt).trans ?_
    rw [onReach_here, upd_val_self]
  · refine Eq.trans ?_ img
    simp [containStreams]

/-! ### Codewords sent (R376) -/

/-- A state that has numbered a codeword to send. -/
def advanced (t : ReachIx) (q : Fin 8) (s : State) : State := onReach t (fun r => { r with txIndex := upd r.txIndex q (· + 1) }) s

theorem emitAll_kept {α : Type} (g : α → Emission) (l : List α) : (l.foldl (fun a y => emit (g y) a) s).site = s.site ∧
    (l.foldl (fun a y => emit (g y) a) s).reach = s.reach :=
  ⟨foldl_kept State.site _ l s fun _ _ => rfl, foldl_kept State.reach _ l s fun _ _ => rfl⟩

theorem sendWord_sends (errors : wordErrors s t q false = []) : (sendWord t q w s).site = s.site ∧
    (sendWord t q w s).reach[t.val].txIndex = s.reach[t.val].txIndex ∧ Emission.codeword t q (addErrors [] w) ∈ (sendWord t q w s).out := by
  have lanes (l : List (Fin 32)) : (l.foldl (fun a l => onLane t l
      (fun y => { y with txBip := y.txBip ^^^ bipOf w l.val }) a) s).reach[t.val].txIndex =
      s.reach[t.val].txIndex := foldl_kept (fun a => a.reach[t.val].txIndex) _ l s fun a l => by rw [onLane, onReach_here]
  have site (l : List (Fin 32)) : (l.foldl (fun a l => onLane t l (fun y => { y with txBip := y.txBip ^^^ bipOf w l.val }) a) s).site = s.site :=
    foldl_kept State.site _ l s fun _ _ => rfl
  obtain ⟨same, reach⟩ := emitAll_kept (s := emit (.codeword t q (addErrors [] w)) ((lanesOf q).foldl (fun a l =>
    onLane t l (fun y => { y with txBip := y.txBip ^^^ bipOf w l.val }) a) s))
      (fun l => .levels t l (pamLevels (laneBits (addErrors [] w) l.val))) (lanesOf q)
  unfold sendWord
  dsimp only
  rw [errors, spendErrors, if_pos rfl, same, reach]
  exact ⟨site _, lanes _, sent_foldl _ (fun _ _ there => List.mem_cons_of_mem _ there) (List.mem_cons_self ..)⟩

theorem codewordTx_data (up : siteUp s t.site = true) (lanes : (quadMask s t).getLsbD q.val = true) (serves : quadServes s t q = true)
    (place : s.reach[t.val].txIndex[q.val].toNat % 32 ≠ 4 * q.val) : codewordTx t q s = match nextStream s.site[t.site.val] with
      | some (k, typ, b, e) => sendWord t q (reachSymbols (if typ = 1 then 1 else 2) k b) (siteCount t.site 4 1
          (onSite t.site (fun y => { y with tx := onStream y.tx k fun _ => e, rr := (k + 1) % 512 }) (advanced t q s)))
      | none => sendWord t q (reachSymbols 0 0 []) (creditWait t q (advanced t q s)) := by
  obtain ⟨test, training⟩ := other_of_siteUp up
  have trains : quadTrains s t q = false := by
    have off : (s.site[t.site.val].state == siTraining) = false := beq_eq_false_iff_ne.2 training
    unfold quadTrains
    dsimp only [Fin.getElem_fin]
    rw [off, Bool.false_and, inRetest_of_serves serves]
    rfl
  have data : (s.reach[t.val].txIndex[q.val].toNat % 32 == 4 * q.val) = false := beq_eq_false_iff_ne.2 place
  unfold codewordTx
  dsimp only [Fin.getElem_fin]
  refine (if_neg test).trans ((if_neg ?_).trans ((if_neg ?_).trans ((if_neg ?_).trans (if_neg ?_))))
  · rw [up, lanes]
    simp
  · rw [trains]
    exact Bool.false_ne_true
  · rw [data, Bool.and_false]
    exact Bool.false_ne_true
  · rw [serves]
    exact Bool.noConfusion

theorem aget_of_mem {α : Type} {l : List (ℕ × α)} {e : α} (there : (k, e) ∈ l) : ∃ v, aget l k = some v := by
  induction l with
  | nil => cases there
  | cons a l ih =>
    obtain ⟨j, y⟩ := a
    by_cases here : j = k
    · exact ⟨y, if_pos here⟩
    · obtain ⟨v, rest⟩ := ih ((List.mem_cons.1 there).resolve_left fun h => here (congrArg Prod.fst h).symm)
      exact ⟨v, (if_neg here).trans rest⟩

theorem stream_of_nextStream {y : Site} {ty : FrameTyp} {b : List Byte} {e : TxStream} (next : nextStream y = some (k, ty, b, e)) :
    ∃ v, aget y.tx k = some v := by
  obtain ⟨a, there, sends⟩ := List.mem_filterMap.1 (List.mem_of_head? next)
  obtain ⟨r, -, named⟩ := Option.map_eq_some_iff.1 sends
  obtain ⟨j, v⟩ := a
  obtain rfl : j = k := congrArg Prod.fst named
  refine aget_of_mem (e := v) ?_
  obtain there | there := List.mem_append.1 there
  · exact (List.mem_filter.1 there).1
  · exact (List.mem_filter.1 there).1

end

/-- Settles O47: a quad in service decodes each codeword (`codewordRx_hears`) and sends the next stream's or an idle one (`codewordTx_data`). -/
theorem reachCodewords : Obligations.ReachCodewords := by
  unfold Obligations.ReachCodewords
  simp only [Fin.getElem_fin]
  refine ⟨fun t q w v k b s hs up hears place errors clean fields => ⟨_, reachCodeword_runs hs ?idleFits, ?idle⟩,
    fun t q w v k b e s hs up hears place errors clean fields there closed room named some_ fits more unnamed =>
      ⟨_, reachCodeword_runs hs ?headFits, ?head⟩,
    fun t q w s hs up hears place errors bad quiet => ⟨_, reachCodeword_runs hs ?badFits, ?bad⟩,
    fun t q s hs up lanes serves place none_ errors => ⟨_, run_of_running _ s hs, ?idleSent⟩,
    fun t q k ty b e s hs up lanes serves place next errors => ⟨_, run_of_running _ s hs, ?sent⟩⟩
  case idleFits => exact wordOverrun_of_room clean fields (fun none_ => absurd rfl none_) (by decide)
  case headFits => exact wordOverrun_of_room clean fields (fun _ => room) (by decide)
  case badFits => exact wordOverrun_of_bad bad
  case idle =>
    have ends : stopping (codewordRx t q w) s = wordHeard t q s :=
      (congrArg (stopAfter s) (codewordRx_clean up hears place errors clean fields (by decide))).trans (stopAfter_of_same rfl rfl)
    rw [irqSettle_reach, irqSettle_site, ends]
    exact ⟨wordHeard_index, rfl⟩
  case head =>
    have opens := headRx_opens (s := siteCount t.site 3 1 (wordHeard t q s)) (x := t.site) (by rw [siteCount, onSite_here]; exact there) closed named
      some_ fits more unnamed
    have ends : stopping (codewordRx t q w) s = _ :=
      (congrArg (stopAfter s) ((codewordRx_clean up hears place errors clean fields (by decide)).trans opens)).trans (stopAfter_of_same rfl rfl)
    rw [irqSettle_site, ends, onSite_here, siteCount, onSite_here]
    exact congrArg (·.bind (·.opened)) (aget_onStream (f := fun e : RxStream => { e with
      opened := some { stream := k, offset := bnat b 2 2, length := bnat b 4 4, data := b.drop 16, frames := 1 } }) there)
  case bad =>
    have goes : codewordRx t q w s = uncorrectableRx t q false (wordHeard t q s) := by rw [codewordRx_hears up hears errors, bad, place]
    obtain ⟨uncorr, reason, due, state, img⟩ := uncorrectableRx_ends (s := wordHeard t q s) (t := t) (q := q) up
    have ends : stopping (codewordRx t q w) s = uncorrectableRx t q false (wordHeard t q s) :=
      (congrArg (stopAfter s) goes).trans (stopAfter_of_none s (by rw [img]; exact quiet))
    rw [irqSettle_reach, irqSettle_site, ends]
    refine ⟨uncorr.trans ?_, reason, due, state⟩
    rw [wordHeard, onReach_here]
  case idleSent =>
    have inject : (creditWait t q (advanced t q s)).reach = (advanced t q s).reach := by
      unfold creditWait
      split <;> rfl
    obtain ⟨-, index, sent⟩ := sendWord_sends (t := t) (q := q) (w := reachSymbols 0 0 []) (s := creditWait t q (advanced t q s))
      (wordErrors_nil errors (by rw [inject, advanced, onReach_here]))
    have goes : codewordTx t q s = sendWord t q (reachSymbols 0 0 []) (creditWait t q (advanced t q s)) := by
      rw [codewordTx_data up lanes serves place, none_]
    rw [irqSettle_reach, goes]
    refine ⟨(vector_at index q.val q.isLt).trans ?_, mem_out_irqSettle sent⟩
    rw [inject, advanced, onReach_here, upd_val_self]
  case sent =>
    have goes : codewordTx t q s = sendWord t q (reachSymbols (if ty = 1 then 1 else 2) k b) (siteCount t.site 4 1
          (onSite t.site (fun y => { y with tx := onStream y.tx k fun _ => e, rr := (k + 1) % 512 }) (advanced t q s))) := by
      rw [codewordTx_data up lanes serves place, next]
    obtain ⟨site, -, sent⟩ := sendWord_sends (t := t) (q := q) (w := reachSymbols (if ty = 1 then 1 else 2) k b) (s := siteCount t.site 4 1
      (onSite t.site (fun y => { y with tx := onStream y.tx k fun _ => e, rr := (k + 1) % 512 }) (advanced t q s)))
      (wordErrors_nil errors (congrArg ReachSite.inject (onReach_here (s := s) (f := fun r => { r with txIndex := upd r.txIndex q (· + 1) })) :))
    obtain ⟨v, there⟩ := stream_of_nextStream next
    rw [irqSettle_site, goes, site, siteCount, onSite_here, onSite_here]
    exact ⟨aget_onStream (f := fun _ => e) there, rfl, mem_out_irqSettle sent⟩

end Sys2Proof.Machine
end

section
/-!
PROOFS. Lanes of a Reach Port (R377 to R381, R388).
-/

-- In sequence: each worker of the elaborator takes its stack from the memory that a check may use.
set_option Elab.async false

namespace Sys2Proof.Machine

section
variable {s u : State} {t : ReachIx} {l : Fin 32} {q : Fin 8} {f : ReachLane → ReachLane} {raw : List Byte} {c v : Word} {y z : ReachLane}

/-! ### The lane of a step -/

theorem onLane_record : (onLane t l f s).reach[t.val] = { s.reach[t.val] with lanes := upd s.reach[t.val].lanes l f } := onReach_here

theorem lane_of_reach {r r' : ReachSite} (h : r = r') : r.lanes[l.val] = r'.lanes[l.val] := by rw [h]

theorem onLane_here : (onLane t l f s).reach[t.val].lanes[l.val] = f s.reach[t.val].lanes[l.val] :=
  (lane_of_reach onLane_record).trans (upd_val_self ..)

/-! ### Markers (R377) -/

/-- A state in which a marker has aligned its lane. -/
def aligned (t : ReachIx) (l : Fin 32) (raw : List Byte) (s : State) : State := onReach t (fun r => { r with
  rxMarker := w32 (bnat raw 10 4)
  rxIndex := upd r.rxIndex (quadOf l) fun _ => w32 (bnat raw 10 4) * 1024
  lanes := upd r.lanes l fun y => { y with seen := true, aligned := y.aligned || y.seen, missed := 0, peerFom := byteAt raw 15 } }) s

theorem aligned_here : (aligned t l raw s).reach[t.val].rxMarker = w32 (bnat raw 10 4) ∧ (aligned t l raw s).reach[t.val].lanes[l.val] =
    { s.reach[t.val].lanes[l.val] with
      seen := true, aligned := s.reach[t.val].lanes[l.val].aligned || s.reach[t.val].lanes[l.val].seen, missed := 0, peerFom := byteAt raw 15 } := by
  obtain reach := onReach_here (t := t) (s := s) (f := fun r => { r with
    rxMarker := w32 (bnat raw 10 4)
    rxIndex := upd r.rxIndex (quadOf l) fun _ => w32 (bnat raw 10 4) * 1024
    lanes := upd r.lanes l fun y => { y with seen := true, aligned := y.aligned || y.seen, missed := 0, peerFom := byteAt raw 15 } })
  exact ⟨congrArg ReachSite.rxMarker reach, (lane_of_reach reach).trans (upd_val_self ..)⟩

theorem markerRx_comes (bip : Byte) (on : s.site[t.site.val].state = 2 ∨ siteUp s t.site = true) (plain : armedFor s t 3 true = false)
    (pattern : raw.take 8 = tpPattern) : markerRx t l raw bip s = if byteAt raw 14 = bip ∨ siteUp s t.site = false then aligned t l raw s
      else suspectLane t l (tpLaneCount t l 1 1 (aligned t l raw s)) := by
  have injected : ¬(armedFor s t 3 true && (s.reach[t]).inject.lane.toNat == l.val) = true := by rw [plain, Bool.false_and]; exact Bool.false_ne_true
  exact (if_pos on).trans ((if_neg injected).trans (if_pos pattern))

theorem suspectLane_ends : (suspectLane t l s).reach[t.val].due.getLsbD (quadOf l).val = true ∧
    (suspectLane t l s).reach[t.val].lanes[l.val] = { s.reach[t.val].lanes[l.val] with state := 2 } := by
  obtain ⟨due, -⟩ := suspectQuiet_ends (t := t) (s := s) l rfl
  have lanes : (s.reach[t.val].fallDue s.time (quadOf l)).lanes = s.reach[t.val].lanes := by
    unfold ReachSite.fallDue
    split <;> rfl
  rw [suspectLane, logEvent_reach]
  refine ⟨due, ?_⟩
  rw [suspectQuiet, setEv_reach, onLane_here, onReach_here]
  exact congrArg (fun y : ReachLane => { y with state := 2 }) (vector_at lanes l.val l.isLt)

theorem sendMarker_kept (k : Fin 32) : (sendMarker t s k).reach[t.val].txMarker = s.reach[t.val].txMarker ∧
    (∀ e ∈ s.out, e ∈ (sendMarker t s k).out) ∧ ∃ raw, Emission.laneMarker t k raw ∈ (sendMarker t s k).out := by
  have clear : (onLane t k (fun y => { y with txBip := 0 }) s).reach[t.val].txMarker = s.reach[t.val].txMarker :=
    (congrArg ReachSite.txMarker (onLane_record (t := t) (l := k) (s := s)) :)
  unfold sendMarker
  dsimp only
  split
  · refine ⟨?_, fun e there => List.mem_cons_of_mem _ (List.mem_cons_of_mem _ there), _, List.mem_cons_of_mem _ (List.mem_cons_self ..)⟩
    have placed' : (placed t (onLane t k (fun y => { y with txBip := 0 }) s)).reach[t.val].txMarker = _ := congrArg ReachSite.txMarker onReach_here
    exact (congrArg ReachSite.txMarker (onLane_record (l := k))).trans (placed'.trans clear)
  · exact ⟨clear, fun e there => List.mem_cons_of_mem _ (List.mem_cons_of_mem _ there), _, List.mem_cons_of_mem _ (List.mem_cons_self ..)⟩

theorem sendMarkers_ends (ls : List (Fin 32)) : (ls.foldl (sendMarker t) s).reach[t.val].txMarker = s.reach[t.val].txMarker ∧
    (∀ e ∈ s.out, e ∈ (ls.foldl (sendMarker t) s).out) ∧ ∀ k ∈ ls, ∃ raw, Emission.laneMarker t k raw ∈ (ls.foldl (sendMarker t) s).out := by
  induction ls generalizing s with
  | nil => exact ⟨rfl, fun _ there => there, fun _ none_ => nomatch none_⟩
  | cons k ls ih =>
    obtain ⟨marker, sent, raw, own⟩ := sendMarker_kept (t := t) (s := s) k
    obtain ⟨markers, later, each⟩ := ih (s := sendMarker t s k)
    refine ⟨markers.trans marker, fun e there => later e (sent e there), fun j there => ?_⟩
    obtain rfl | there := List.mem_cons.1 there
    · exact ⟨raw, later _ own⟩
    · exact each j there

/-! ### Training frames (R379 to R381) -/

/-- What a training frame says of the lane. -/
def said (y : ReachLane) : ReachLane := { y with qual := 0, prbs := 0 }

theorem words_of_said (h : said y = said z) (n : ℕ) (step : ℕ) : ownControl l n y = ownControl l n z ∧ statusWord step y = statusWord step z := by
  have control : ownControl l n y = ownControl l n (said y) ∧ ownControl l n z = ownControl l n (said z) := ⟨rfl, rfl⟩
  have status : statusWord step y = statusWord step (said y) ∧ statusWord step z = statusWord step (said z) := ⟨rfl, rfl⟩
  rw [control.1, control.2, status.1, status.2, h]
  exact ⟨rfl, rfl⟩

theorem said_fields (h : said y = said z) : y.locked = z.locked ∧ y.taps = z.taps := ⟨(congrArg ReachLane.locked h :), (congrArg ReachLane.taps h :)⟩

theorem qualBegin_said (now : ℕ) (k : Fin 32) (r : ReachSite) : said (qualBegin now k r).lanes[l.val] = said r.lanes[l.val] := by
  have cleared (ls : List (Fin 32)) (w : Vector ReachLane 32) : said (ls.foldl (fun v k => upd v k fun y => { y with qual := 0 }) w)[l.val] =
      said w[l.val] := by
    refine List.foldlRecOn ls _ (motive := fun x : Vector ReachLane 32 => said x[l.val] = said w[l.val]) rfl fun x kept j _ => ?_
    by_cases here : j = l
    · subst here
      rw [upd_val_self]
      exact kept
    · rw [upd_val_of_ne _ _ (Ne.symm here)]
      exact kept
  unfold qualBegin
  split
  · exact cleared _ _
  · rfl

/-- The lane after a training frame received. -/
def framed (c v : Word) (s : State) (t : ReachIx) (y : ReachLane) : ReachLane :=
  if laneStep s t = 2 then ownRequests v s s.reach[t.val].stepAt (frameOnLane c y) else frameOnLane c y

/-- A state in which a training frame has come. -/
def frameCame (t : ReachIx) (l : Fin 32) (c v : Word) (s : State) : State := onReach t (fun r => { r with
  lockAt := if r.lanes[l].locked then r.lockAt else s.time
  lanes := upd r.lanes l fun y =>
    let y1 := frameOnLane c y
    if laneStep s t = 2 then ownRequests v s r.stepAt y1 else y1 }) s

theorem frameCame_lane : (frameCame t l c v s).reach[t.val].lanes[l.val] = framed c v s t s.reach[t.val].lanes[l.val] :=
  (lane_of_reach onReach_here).trans (upd_val_self ..)

theorem sendTrainFrame_ends (n : ℕ) : said (sendTrainFrame t l n s).reach[t.val].lanes[l.val] = said s.reach[t.val].lanes[l.val] ∧
    Emission.trainWord t l (ownControl l n s.reach[t.val].lanes[l.val]) (statusWord (laneStep s t) s.reach[t.val].lanes[l.val]) ∈
      (sendTrainFrame t l n s).out := by
  unfold sendTrainFrame
  dsimp only [Fin.getElem_fin]
  refine ⟨?_, List.mem_cons_of_mem _ (List.mem_cons_self ..)⟩
  rw [emit_reach, emit_reach, onLane_here]
  simp only [said]

theorem trainFrame_ends (trains : inTraining s t l = true) : said (trainFrame t l c v s).reach[t.val].lanes[l.val] =
      said (framed c v s t s.reach[t.val].lanes[l.val]) ∧
    ∃ n, Emission.trainWord t l (ownControl l n (framed c v s t s.reach[t.val].lanes[l.val]))
      (statusWord (laneStep s t) (framed c v s t s.reach[t.val].lanes[l.val])) ∈ (trainFrame t l c v s).out := by
  have ends : ∃ n k, trainFrame t l c v s = onReach t (qualBegin s.time l) (sendTrainFrame t l n { frameCame t l c v s with fresh := k }) :=
    ⟨_, _, if_neg (by rw [trains]; exact Bool.noConfusion)⟩
  obtain ⟨n, k, ends⟩ := ends
  obtain ⟨lane, sent⟩ := sendTrainFrame_ends (t := t) (l := l) (s := { frameCame t l c v s with fresh := k }) n
  have came : ({ frameCame t l c v s with fresh := k } : State).reach[t.val].lanes[l.val] = framed c v s t s.reach[t.val].lanes[l.val] :=
      frameCame_lane
  rw [came] at lane sent
  rw [ends]
  exact ⟨(congrArg said (lane_of_reach onReach_here)).trans ((qualBegin_said _ _ _).trans lane), n, sent⟩

theorem tapRequest_locked (i : Fin 4) (n : ℕ) : (tapRequest i n y).locked = y.locked := by
  unfold tapRequest
  dsimp only
  split_ifs <;> rfl

theorem frameOnLane_locked : (frameOnLane c y).locked = true := by
  unfold frameOnLane
  dsimp only
  split
  · unfold controlWord
    dsimp only
    split
    · rfl
    · exact List.foldlRecOn _ _ (motive := fun z : ReachLane => z.locked = true) rfl fun z kept i _ => (tapRequest_locked i _).trans kept
  · rfl

theorem frameOnLane_taps : (crc8Ok c = true → 1 ≤ fld c 10 8 → fld c 10 8 ≤ 4 → (frameOnLane c y).taps = presetTaps (fld c 10 8)) ∧
    (crc8Ok c = false → (frameOnLane c y).taps = y.taps) := by
  refine ⟨fun good low high => ?_, fun bad => ?_⟩
  · exact (congrArg ReachLane.taps (if_pos good)).trans (congrArg ReachLane.taps (if_pos ⟨low, high⟩))
  · unfold frameOnLane
    dsimp only
    rw [bad, if_neg Bool.false_ne_true]

theorem framed_fields : (framed c v s t y).locked = (frameOnLane c y).locked ∧ (framed c v s t y).taps = (frameOnLane c y).taps := by
  unfold framed
  split <;> exact ⟨rfl, rfl⟩

theorem fomWindow_lane (fom : Byte) : (fomWindow t l fom s).reach[t.val].lanes[l.val].fom = fom ∧
    (fomWindow t l fom s).reach[t.val].lanes[l.val].lowSince.isSome = decide (fom.toNat < 48) := by
  have lane := onLane_here (t := t) (l := l) (s := s) (f := fun r => { r with
    fom := fom, lowSince := if fom.toNat < fomLow then some (s.reach[t.val].lanes[l.val].lowSince.getD s.time) else none })
  have first : ∀ r : ReachLane, r = { s.reach[t.val].lanes[l.val] with
      fom := fom, lowSince := if fom.toNat < fomLow then some (s.reach[t.val].lanes[l.val].lowSince.getD s.time) else none } ∨ r =
        { s.reach[t.val].lanes[l.val] with
      fom := fom, lowSince := if fom.toNat < fomLow then some (s.reach[t.val].lanes[l.val].lowSince.getD s.time) else none, state := 2 } →
      r.fom = fom ∧ r.lowSince.isSome = decide (fom.toNat < 48) := by
    intro r is
    have shown : (if fom.toNat < fomLow then some (s.reach[t.val].lanes[l.val].lowSince.getD s.time) else none).isSome = decide (fom.toNat < 48) := by
      unfold fomLow
      split
      next low => rw [decide_eq_true low]; rfl
      next high => rw [decide_eq_false high]; rfl
    obtain rfl | rfl := is <;> exact ⟨rfl, shown⟩
  refine first _ ?_
  unfold fomWindow
  dsimp only [Fin.getElem_fin]
  split
  · split
    · exact .inr (suspectLane_ends.2.trans (congrArg (fun y : ReachLane => { y with state := 2 }) lane))
    · exact .inl lane
  · exact .inl lane

end

/-- Settles O48: each event writes the lane that it comes on (`aligned_here`, `suspectLane_ends`, `trainFrame_ends`). -/
theorem reachLanes : Obligations.ReachLanes := by
  unfold Obligations.ReachLanes
  simp only [Fin.getElem_fin]
  refine ⟨fun t l raw bip s hs on plain pattern parity => ⟨_, run_of_running _ s hs, ?aligns⟩,
    fun t l raw bip s hs up plain pattern parity => ⟨_, run_of_running _ s hs, ?suspects⟩,
    fun t s hs up => ⟨_, run_of_running _ s hs, ?send⟩,
    fun t l c v s hs trains => ⟨_, run_of_running _ s hs, ?frame⟩,
    fun t l fom s hs => ⟨_, run_of_running _ s hs, ?fom⟩⟩ <;> rw [irqSettle_reach]
  case aligns =>
    obtain ⟨marker, lane⟩ := aligned_here (t := t) (l := l) (raw := raw) (s := s)
    rw [markerRx_comes bip on plain pattern, if_pos (.inl parity), marker, lane]
    exact ⟨rfl, rfl, rfl, fun seen => by simp [seen]⟩
  case suspects =>
    have up' : ¬(byteAt raw 14 = bip ∨ siteUp s t.site = false) := by simp [parity, up]
    obtain ⟨due, lane⟩ := suspectLane_ends (t := t) (l := l) (s := tpLaneCount t l 1 1 (aligned t l raw s))
    rw [markerRx_comes bip (.inr up) plain pattern, if_neg up']
    refine ⟨congrArg ReachLane.state lane, ?_, due⟩
    have counted : (tpLaneCount t l 1 1 (aligned t l raw s)).reach[t.val].lanes[l.val].counters = upd s.reach[t.val].lanes[l.val].counters 1
        (· + 1) := by
      rw [tpLaneCount, onLane_here, aligned_here.2]
      rfl
    exact (vector_at ((congrArg ReachLane.counters lane).trans counted) 1 (by decide)).trans (upd_val_self _ 1 _)
  case send =>
    obtain ⟨marker, -, each⟩ := sendMarkers_ends (t := t) (s := s) ((fins 32).filter fun l => (siteRec s t.site).laneMask.getLsbD l.val)
    have ends : tpMarkers t s = onReach t (fun r => { r with txIndex := Vector.replicate 8 (r.txMarker * 1024), txMarker := r.txMarker + 1 })
        (((fins 32).filter fun l => (siteRec s t.site).laneMask.getLsbD l.val).foldl (sendMarker t) s) := if_pos (.inl up)
    rw [ends, onReach_here]
    refine ⟨congrArg (· + 1) marker, fun l on => ?_⟩
    obtain ⟨raw, sent⟩ := each l (List.mem_filter.2 ⟨mem_fins l, on⟩)
    exact ⟨raw, mem_out_irqSettle sent⟩
  case frame =>
    obtain ⟨lane, n, sent⟩ := trainFrame_ends (c := c) (v := v) trains
    obtain ⟨locked, taps⟩ := said_fields lane
    obtain ⟨locked', taps'⟩ := framed_fields (c := c) (v := v) (s := s) (t := t) (y := s.reach[t.val].lanes[l.val])
    obtain ⟨preset, kept⟩ := frameOnLane_taps (c := c) (y := s.reach[t.val].lanes[l.val])
    obtain ⟨control, status⟩ := words_of_said (l := l) lane n (laneStep s t)
    rw [locked, locked', taps, taps']
    exact ⟨frameOnLane_locked, ⟨n, mem_out_irqSettle (by rw [control, status]; exact sent)⟩, preset, kept⟩
  case fom => exact fomWindow_lane fom

end Sys2Proof.Machine
end

section
/-!
PROOFS. A word that corrects a symbol during the qualification of a quad (R388, R389).
-/

-- In sequence: each worker of the elaborator takes its stack from the memory that a check may use.
set_option Elab.async false

namespace Sys2Proof.Machine

section

/-- A running device whose Reach Port 0 retests its quad 0 out of service; lane 0 has met 20,000 corrected symbols in this millisecond. -/
def busyRetest : State := { State.reset with
  dev := { State.reset.dev with sysRst := false, perst := false }
  site := upd State.reset.site 4 fun q => { q with state := 4 }
  reach := upd State.reset.reach 0 fun r => { r with
    retest := some 0, qualAt := some 0, lanes := upd r.lanes 0 fun y => { y with recent := [(0, 20000)] } } }

/-- A word whose only symbol is in error. -/
def oneError : List Sym := [1]

theorem busyRetest_qualifies : running busyRetest = true ∧ qualifies busyRetest 0 0 = true ∧ wordErrors busyRetest 0 0 true = [] ∧
    wordOverrun 0 0 oneError busyRetest = false := by
  decide +kernel

theorem busyRetest_marks : (stopping (codewordRx 0 0 oneError) busyRetest).site[4].event ≠ busyRetest.site[4].event := by
  decide +kernel

end

/-- Refutes O49: a codeword of a quad in qualification whose corrected symbol brings its lane over the limit of a millisecond suspects the lane, which
sets the event bit of the site (R388). -/
theorem not_reachRetests : ¬ Obligations.ReachRetests := by
  unfold Obligations.ReachRetests
  intro h
  obtain ⟨-, -, -, -, -, word, -⟩ := h
  obtain ⟨on, qual, errors, fits⟩ := busyRetest_qualifies
  obtain ⟨t, ht, same, -⟩ := word 0 0 oneError busyRetest on qual errors
  rw [reachCodeword_runs on fits] at ht
  injection ht with ht
  rw [← ht, irqSettle_site] at same
  exact busyRetest_marks (congrArg Site.event (vector_at same 4 (by decide)))

end Sys2Proof.Machine
end

section
/-!
PROOFS. TP_CMD, TP_PAT_CTRL and TP_INJECT (R392 to R394, R398, Tables 12.10, 12.17, 12.18).
-/

-- In sequence: each worker of the elaborator takes its stack from the memory that a check may use.
set_option Elab.async false

namespace Sys2Proof.Machine

section
variable {s u : State} {t : ReachIx} {l : Fin 32} {q : Fin 8} {x : SiteIx} {v : Word}

/-! ### TP_CMD (R398) -/

theorem tpCmd_runs {code : ℕ} (here : fin! 2 (fld v 8 8) = t) (epoch : fld v 31 16 = s.site[t.site.val].epoch.toNat)
    (fits : tpCmdEffect code t (fin! 8 (fld v 11 9)) s = some u) : tpCmd code v s =
      { onSite t.site (fun q => { q with epoch := q.epoch + 1 }) u with
        siteReg := { u.siteReg with tpCmd := (BitVec.ofNat 8 code, false, 1) } } := by
  subst here
  simp only [tpCmd, Fin.getElem_fin, ne_eq, epoch, not_true_eq_false, if_false, fits]
  rfl

theorem tpCmd_refused {code : ℕ} (here : fin! 2 (fld v 8 8) = t) (epoch : fld v 31 16 = s.site[t.site.val].epoch.toNat)
    (unfit : tpCmdEffect code t (fin! 8 (fld v 11 9)) s = none) :
    tpCmd code v s = { s with siteReg := { s.siteReg with tpCmd := (BitVec.ofNat 8 code, false, 3) } } := by
  subst here
  simp only [tpCmd, Fin.getElem_fin, ne_eq, epoch, not_true_eq_false, if_false, unfit]
  rfl

/-- What a command that is carried out leaves at its site and its lanes. -/
theorem tpCmd_ends {code : ℕ} (here : fin! 2 (fld v 8 8) = t) (epoch : fld v 31 16 = s.site[t.site.val].epoch.toNat)
    (fits : tpCmdEffect code t (fin! 8 (fld v 11 9)) s = some u) : (tpCmd code v s).site[t.site.val].state = u.site[t.site.val].state ∧
      (tpCmd code v s).site[t.site.val].rstn = u.site[t.site.val].rstn ∧ (tpCmd code v s).site[t.site.val].hold = u.site[t.site.val].hold ∧
      (tpCmd code v s).reach = u.reach ∧ (tpCmd code v s).siteReg.tpCmd = (BitVec.ofNat 8 code, false, 1) := by
  have site := onSite_here (x := t.site) (s := u) (f := fun q => { q with epoch := q.epoch + 1 })
  rw [tpCmd_runs here epoch fits]
  exact ⟨(congrArg Site.state site :), (congrArg Site.rstn site :), (congrArg Site.hold site :), rfl, rfl⟩

theorem setBit_again {n i : ℕ} {e : BitVec n} (there : e.getLsbD i = true) : setBit e i = e := by
  refine BitVec.eq_of_getLsbD_eq fun j _ => ?_
  rw [getLsbD_setBit]
  by_cases here : i = j
  · subst here
    rw [there, Bool.true_or]
  · rw [decide_eq_false here, Bool.and_false, Bool.or_false]

theorem fallDue_due_eq (now : ℕ) (r : ReachSite) : (r.fallDue now q).due = setBit r.due q.val := by
  unfold ReachSite.fallDue
  split
  next there => exact (setBit_again there).symm
  · rfl

theorem siteHold_resets (other : s.site[x.val].state ≠ 5) : (siteHold x s).site[x.val].hold = true ∧ (siteHold x s).site[x.val].state = 1 := by
  obtain ⟨state, -, hold⟩ := siteReset_site (x := x) (s := onSite x (fun q => { q with hold := true }) s)
  have holds : siteHold x s = siteReset x (onSite x (fun q => { q with hold := true }) s) := if_neg other
  rw [holds, state, hold, onSite_here]
  exact ⟨rfl, rfl⟩

/-! ### The pattern generators (R393) -/

/-- What the generators of a site's lanes start with. -/
def started (s : State) (r : ReachSite) : ReachSite := { r with lanes := vmk 32 fun l => { r.lanes[l] with
  gen := genStart s.siteReg.pattern.toNat l s.fresh, chk := 0, chkOk := 0 } }

theorem started_fields (r : ReachSite) : (started s r).testFrom = r.testFrom ∧ (started s r).inject = r.inject ∧
    ((started s r).lanes[l.val]).taps = (r.lanes[l.val]).taps := by
  refine ⟨by dsimp only [started], by dsimp only [started], ?_⟩
  have lane : (started s r).lanes[l.val] = { r.lanes[l.val] with gen := genStart s.siteReg.pattern.toNat l s.fresh, chk := 0, chkOk := 0 } :=
      vmk_val ..
  rw [lane]

theorem checkersNow_kept : (checkersNow s).site = s.site ∧ (checkersNow s).reach[t.val].testFrom = s.reach[t.val].testFrom ∧
    (checkersNow s).reach[t.val].inject = s.reach[t.val].inject ∧ ((checkersNow s).reach[t.val].lanes[l.val]).taps =
      (s.reach[t.val].lanes[l.val]).taps := by
  refine ⟨rfl, ?_⟩
  by_cases here : s.siteReg.patSite = t
  · subst here
    have reach : (checkersNow s).reach[s.siteReg.patSite.val] = started s s.reach[s.siteReg.patSite.val] := onReach_here
    rw [reach]
    exact started_fields _
  · have reach : (checkersNow s).reach[t.val] = s.reach[t.val] := upd_val_of_ne _ _ (Ne.symm here)
    rw [reach]
    exact ⟨rfl, rfl, rfl⟩

theorem testLanes_taps (r : ReachSite) : (testLanes r).lanes[l.val].taps = presetTaps 1 := congrArg ReachLane.taps (Vector.getElem_map ..)

end

/-! ### The generators send -/

section
variable {s : State} {t : ReachIx} {q : Fin 8} {p : ℕ}

theorem lanesOf_nodup : (lanesOf q).Nodup := (List.nodup_ofFn.2 fun _ _ h => h).filter _

theorem eachLane_ends {f : ReachLane → ReachLane} {ls : List (Fin 32)} (once : ls.Nodup) (l : Fin 32) :
    (ls.foldl (fun a l => onLane t l f a) s).reach[t.val].lanes[l.val] =
      if l ∈ ls then f s.reach[t.val].lanes[l.val] else s.reach[t.val].lanes[l.val] := by
  induction ls generalizing s with
  | nil => rfl
  | cons k ls ih =>
    obtain ⟨fresh, rest⟩ := List.nodup_cons.1 once
    have step : (onLane t k f s).reach[t.val].lanes[l.val] = if l = k then f s.reach[t.val].lanes[l.val] else s.reach[t.val].lanes[l.val] := by
      by_cases here : l = k
      · subst here
        rw [if_pos rfl, onLane_here]
      · rw [if_neg here]
        exact (lane_of_reach onLane_record).trans (upd_val_of_ne _ _ here)
    rw [List.foldl_cons, ih rest, step]
    by_cases here : l = k
    · subst here
      simp [fresh]
    · simp [here]

theorem emits_each {α : Type} (g : α → Emission) {l : List α} {a : α} (there : a ∈ l) : g a ∈ (l.foldl (fun u y => emit (g y) u) s).out := by
  induction l generalizing s with
  | nil => cases there
  | cons b l ih =>
    obtain rfl | there := List.mem_cons.1 there
    · exact sent_foldl l (fun _ _ => List.mem_cons_of_mem _) (List.mem_cons_self ..)
    · exact ih there

theorem patternTx_sends (pat : patternOf s t = p) (low : 1 ≤ p) (high : p ≤ 5) (echo : s.siteReg.echo = false)
    (errors : wordErrors s t q false = []) :
    (patternTx t q s).site = s.site ∧ (∀ k ∈ lanesOf q, ∃ l, Emission.levels t k l ∈ (patternTx t q s).out) ∧
      ∀ k ∈ lanesOf q, ((patternTx t q s).reach[t.val].lanes[k.val]).gen = (patUis p 680 (s.reach[t.val].lanes[k.val]).gen).2 := by
  have ends : ∃ w, patternTx t q s = (lanesOf q).foldl (fun a l => emit (.levels t l (pamLevels (laneBits w l.val))) a)
      ((lanesOf q).foldl (fun a l => onLane t l (fun y => { y with gen := (patUis p 680 y.gen).2 }) a) s) := by
    refine ⟨addErrors [] (weaveLanes ((lanesOf q).map (patBits s t))), ?_⟩
    unfold patternTx
    dsimp only
    rw [pat, if_neg (by omega), echo, if_neg Bool.false_ne_true, errors, spendErrors, if_pos rfl]
  obtain ⟨w, ends⟩ := ends
  obtain ⟨site, reach⟩ := emitAll_kept (s := (lanesOf q).foldl (fun a l => onLane t l (fun y => { y with gen := (patUis p 680 y.gen).2 }) a) s)
    (fun l => .levels t l (pamLevels (laneBits w l.val))) (lanesOf q)
  rw [ends, site, reach]
  refine ⟨foldl_kept State.site _ _ _ fun _ _ => rfl, fun k on => ⟨_, emits_each (fun l => .levels t l (pamLevels (laneBits w l.val))) on⟩,
    fun k on => ?_⟩
  rw [eachLane_ends lanesOf_nodup, if_pos on]

end

/-! ### Errors injected (R394) -/

section
variable {s : State} {t : ReachIx} {v : Word}

/-- What a write of TP_INJECT injects. -/
def injection (kind : ℕ) (v : Word) : Inject where
  kind := BitVec.ofNat 4 kind
  count := BitVec.ofNat 5 (fld v 27 23)
  side := bit v 19
  again := bit v 18
  lane := BitVec.ofNat 5 (fld v 16 12)
  interval := BitVec.ofNat 12 (fld v 11 0)
  armed := true

theorem injectWrite_arms {kind : ℕ} (here : fin! 2 (fld v 17 17) = t) (up : siteUp s t.site = true) (once : bit v 18 = false)
    (fits : kind = 2 → (BitVec.ofNat 5 (fld v 27 23)).toNat ≠ 0 ∧ (BitVec.ofNat 5 (fld v 27 23)).toNat ≤ 16) :
    (injectWrite kind v s).reach[t.val].inject = injection kind v := by
  subst here
  have allowed : injectAllowed s (fin! 2 (fld v 17 17)) kind = true := by rw [injectAllowed, up, Bool.true_or]
  have arms : injectWrite kind v s = armInject (fin! 2 (fld v 17 17)) { injection kind v with armed := false } s := by
    refine if_neg ?_
    rintro (refused | ⟨symbols, zero | many⟩ | ⟨again, -⟩)
    · rw [allowed] at refused
      cases refused
    · exact (fits symbols).1 (congrArg BitVec.toNat zero)
    · exact absurd many (Nat.not_lt.2 (fits symbols).2)
    · rw [once] at again
      cases again
  rw [arms, armInject, onReach_here]
  rfl

end

/-- Settles O50: TP_CMD by the case of the command (`tpCmd_ends`, `tpCmd_refused`). -/
theorem reachCommandsAndInjection : Obligations.ReachCommandsAndInjection := by
  unfold Obligations.ReachCommandsAndInjection
  simp only [Fin.getElem_fin]
  refine ⟨fun t v s hs good here epoch => ⟨fun state => ⟨_, regRow_of_running _ hs.1 hs.2 good, ?retrain⟩,
      fun low high other => ⟨_, regRow_of_running _ hs.1 hs.2 good, ?hold⟩,
      fun held other => ⟨_, regRow_of_running _ hs.1 hs.2 good, ?release⟩,
      fun held state => ⟨_, regRow_of_running _ hs.1 hs.2 good, ?unfit⟩,
      fun up used => ⟨_, regRow_of_running _ hs.1 hs.2 good, ?retest⟩,
      fun may => ⟨_, regRow_of_running _ hs.1 hs.2 good, ?enter⟩,
      fun state => ⟨_, regRow_of_running _ hs.1 hs.2 good, ?leave⟩⟩,
    fun v s hs good => ⟨_, regRow_of_running _ hs.1 hs.2 good, ?pattern⟩,
    fun t q p s hs state pat low high echo errors => ⟨_, run_of_running _ s hs, ?sends⟩,
    fun t v s hs good here up once => ⟨⟨_, regRow_of_running _ hs.1 hs.2 good, ?bit⟩,
      fun some_ few => ⟨_, regRow_of_running _ hs.1 hs.2 good, ?symbols⟩,
      ⟨_, regRow_of_running _ hs.1 hs.2 good, ?marker⟩, ⟨_, regRow_of_running _ hs.1 hs.2 good, ?crc⟩⟩,
    fun t v s hs good here => ⟨_, regRow_of_running _ hs.1 hs.2 good, ?stop⟩,
    fun t s hs up again => ⟨_, run_of_running _ s hs, ?again⟩⟩
  case retrain =>
    obtain ⟨state', rstn', -⟩ := siteReset_site (x := t.site) (s := s)
    obtain ⟨state, rstn, -, -, cmd⟩ := tpCmd_ends (code := 1) here epoch (if_pos state)
    rw [irqSettle_site, irqSettle_siteReg, state, rstn]
    exact ⟨state', rstn', cmd⟩
  case hold =>
    obtain ⟨hold', state'⟩ := siteHold_resets other
    obtain ⟨state, -, hold, -, cmd⟩ := tpCmd_ends (code := 2) here epoch (if_pos ⟨low, high⟩)
    rw [irqSettle_site, irqSettle_siteReg, state, hold]
    exact ⟨hold', state', cmd⟩
  case release =>
    have fits : tpCmdEffect 3 t (fin! 8 (fld v 11 9)) s = some (siteUnhold t.site s) := if_pos (by
      rw [Fin.getElem_fin, held]
      exact bne_iff_ne.2 other)
    obtain ⟨-, -, hold, -, cmd⟩ := tpCmd_ends here epoch fits
    rw [irqSettle_site, irqSettle_siteReg, hold, siteUnhold_site]
    exact ⟨rfl, cmd⟩
  case unfit =>
    have unfit : tpCmdEffect 3 t (fin! 8 (fld v 11 9)) s = none := if_neg (by
      rw [Fin.getElem_fin, state, Bool.and_eq_true_iff]
      rintro ⟨-, other⟩
      cases other)
    rw [irqSettle_site, irqSettle_siteReg, tpCmd_refused here epoch unfit]
    exact ⟨rfl, rfl⟩
  case retest =>
    have fits : tpCmdEffect 4 t (fin! 8 (fld v 11 9)) s = some (onReach t (ReachSite.fallDue s.time (fin! 8 (fld v 11 9))) s) :=
      if_pos (by rw [up, used]; rfl)
    obtain ⟨-, -, -, reach, cmd⟩ := tpCmd_ends here epoch fits
    rw [irqSettle_reach, irqSettle_siteReg, reach, onReach_here]
    exact ⟨fallDue_due_eq .., cmd⟩
  case enter =>
    have fits : tpCmdEffect 5 t (fin! 8 (fld v 11 9)) s = some (checkersNow (onReach t (fun r => { testLanes r with
        testFrom := s.site[t.site.val].state }) (onSite t.site (fun y => { y with rstn := true }) (setSite t.site siTest s)))) := if_pos may
    obtain ⟨state, rstn, -, reach, cmd⟩ := tpCmd_ends here epoch fits
    have kept (l : Fin 32) := checkersNow_kept (t := t) (l := l) (s := onReach t (fun r => { testLanes r with
        testFrom := s.site[t.site.val].state }) (onSite t.site (fun y => { y with rstn := true }) (setSite t.site siTest s)))
    have before := onReach_here (t := t) (s := onSite t.site (fun y => { y with rstn := true }) (setSite t.site siTest s))
        (f := fun r => { testLanes r with
        testFrom := s.site[t.site.val].state })
    have site := onSite_here (x := t.site) (s := setSite t.site siTest s) (f := fun y => { y with rstn := true })
    obtain ⟨same, from_, -, -⟩ := kept 0
    rw [irqSettle_site, irqSettle_reach, irqSettle_siteReg, state, rstn, reach, same]
    refine ⟨(congrArg Site.state site).trans ?_, congrArg Site.rstn site, from_.trans (congrArg ReachSite.testFrom before), fun l => ?_, cmd⟩
    · rw [setSite_site]
      rfl
    · obtain ⟨-, -, -, taps⟩ := kept l
      exact taps.trans ((congrArg ReachLane.taps (lane_of_reach before)).trans (testLanes_taps _))
  case leave =>
    have fits : tpCmdEffect 6 t (fin! 8 (fld v 11 9)) s = some (checkersNow (onReach t (fun r => { r with inject := {} })
        (onSite t.site (fun y => { y with rstn := s.reach[t.val].testFrom != siDisabled }) (setSite t.site s.reach[t.val].testFrom s)))) :=
          if_pos state
    obtain ⟨state, rstn, -, reach, cmd⟩ := tpCmd_ends here epoch fits
    have before := onReach_here (t := t) (f := fun r => { r with inject := {} })
      (s := onSite t.site (fun y => { y with rstn := s.reach[t.val].testFrom != siDisabled }) (setSite t.site s.reach[t.val].testFrom s))
    have site := onSite_here (x := t.site) (s := setSite t.site s.reach[t.val].testFrom s) (f := fun y => { y with
      rstn := s.reach[t.val].testFrom != siDisabled })
    obtain ⟨same, -, inject, -⟩ := checkersNow_kept (t := t) (l := 0) (s := onReach t (fun r => { r with inject := {} })
      (onSite t.site (fun y => { y with rstn := s.reach[t.val].testFrom != siDisabled }) (setSite t.site s.reach[t.val].testFrom s)))
    rw [irqSettle_site, irqSettle_reach, irqSettle_siteReg, state, rstn, reach, same]
    refine ⟨(congrArg Site.state site).trans ?_, congrArg Site.rstn site, inject.trans (congrArg ReachSite.inject before), cmd⟩
    rw [setSite_site]
  case pattern =>
    rw [irqSettle_siteReg, irqSettle_site]
    exact ⟨rfl, rfl, rfl, rfl, rfl⟩
  case bit =>
    rw [irqSettle_reach, injectWrite_arms here up once (fun odd => absurd odd (by decide))]
    exact ⟨rfl, rfl, rfl⟩
  case symbols =>
    have count : (BitVec.ofNat 5 (fld v 27 23)).toNat = fld v 27 23 := Nat.mod_eq_of_lt (by omega)
    rw [irqSettle_reach, injectWrite_arms here up once (fun _ => by omega)]
    exact ⟨rfl, rfl, count⟩
  case marker =>
    rw [irqSettle_reach, injectWrite_arms here up once (fun odd => absurd odd (by decide))]
    exact ⟨rfl, rfl⟩
  case crc =>
    rw [irqSettle_reach, injectWrite_arms here up once (fun odd => absurd odd (by decide))]
    exact ⟨rfl, rfl⟩
  case stop =>
    subst here
    rw [irqSettle_reach, irqSettle_site, injectStop, onReach_here]
    exact ⟨rfl, rfl⟩
  case again =>
    have allowed : injectAllowed s t s.reach[t.val].inject.kind.toNat = true := by rw [injectAllowed, up, Bool.true_or]
    have arms : (if s.reach[t].inject.again && injectAllowed s t s.reach[t].inject.kind.toNat then armInject t s.reach[t].inject s else s) =
        armInject t s.reach[t.val].inject s := if_pos (by rw [Fin.getElem_fin, again, allowed]; rfl)
    rw [irqSettle_reach]
    refine (congrArg (fun u : State => u.reach[t.val].inject) arms).trans ?_
    rw [armInject, onReach_here]
  case sends =>
    obtain ⟨site, sent, lanes⟩ := patternTx_sends pat low high echo errors
    have goes : codewordTx t q s = patternTx t q s := if_pos state
    rw [irqSettle_site, irqSettle_reach, goes]
    refine ⟨site, fun k on => ?_, lanes⟩
    obtain ⟨l, there⟩ := sent k on
    exact ⟨l, mem_out_irqSettle there⟩

end Sys2Proof.Machine
end

section
/-!
PROOFS. Collectives that have started: what they go by, what they send, how they end (R136, R147, R160).
-/

-- In sequence: each worker of the elaborator takes its stack from the memory that a check may use.
set_option Elab.async false

namespace Sys2Proof.Machine

section
variable {s t u : State} {k stp chunk : ℕ} {o : OpSt} {b : Beam} {cls : BitVec 2} {segs : List (ℕ × List Byte)} {ins : List (List Byte)}

/-! ### A collective that has started -/

/-- A state in which an operation has counted its inputs and started. -/
def begun (k : ℕ) (m : Hbm) (s : State) : State := opStarts k { s with hbm := m }

/-- A state of a collective that has started and sent. -/
def Runs (k : ℕ) (s t : State) : Prop := ∃ m, Sent k (begun k m s) t

theorem collStart_begins (ready : inputsReady (collInputs s o) ins s) : ∃ m, collStart k o s = collBody k o ins (begun k m s) := by
  obtain ⟨m, counts, -, -⟩ := countInputs_kept (collInputs s o) s
  refine ⟨m, (withInputs_of_ready _ ready).trans ?_⟩
  rw [counts, begun]

theorem runs_begun (m : Hbm) : Runs k s (begun k m s) := ⟨m, sent_refl _ _⟩

theorem beamInPlan_begun (m : Hbm) (b : Beam) : beamInPlan (begun k m s) b = beamInPlan s b := beamInPlan_congr rfl rfl b

/-! What a collective goes by does not change as it sends. -/

theorem routeOf_runs (kept : Runs k s t) (o : OpSt) : routeOf t o = routeOf s o := by
  obtain ⟨m, beams, ops, streams, rfl, -, -⟩ := kept
  rfl

theorem roleOf_runs (kept : Runs k s t) (o : OpSt) (role : ℕ) : roleOf t o role = roleOf s o role := by rw [roleOf, routeOf_runs kept, roleOf]

theorem segsIn_runs (kept : Runs k s t) (b : Beam) (form : SegForm) (chunk : Option ℕ) : segsIn t k b form chunk = segsIn s k b form chunk := by
  obtain ⟨m, beams, ops, streams, rfl, -, -⟩ := kept
  rfl

theorem codesFrom_runs (kept : Runs k s t) (n : ℕ) (chunk : Option ℕ) : codesFrom t k n chunk = codesFrom s k n chunk := by
  funext b
  rw [codesFrom, segsIn_runs kept, codesFrom]

theorem elsFrom_runs (kept : Runs k s t) (mode : RMode) (f : Elem) (codes : List ℕ) (lo n : ℕ) (shadow : Bool) (chunk : Option ℕ) :
    elsFrom t k mode f codes lo n shadow chunk = elsFrom s k mode f codes lo n shadow chunk := by
  funext b
  rw [elsFrom, segsIn_runs kept, segsIn_runs kept, elsFrom]

theorem allEls_runs (kept : Runs k s t) : allEls t k = allEls s k := by
  obtain ⟨m, beams, ops, streams, rfl, -, -⟩ := kept
  rfl

theorem pieceFrom_runs (kept : Runs k s t) : pieceFrom t k = pieceFrom s k := by
  obtain ⟨m, beams, ops, streams, rfl, -, -⟩ := kept
  rfl

theorem chunkFrom_runs (kept : Runs k s t) (o : OpSt) : chunkFrom t k o = chunkFrom s k o := by
  funext e
  rw [chunkFrom, segsIn_runs kept, chunkFrom]

theorem bufFits_runs (kept : Runs k s t) (h n : ℕ) : bufFits t h n = bufFits s h n := by
  obtain ⟨m, beams, ops, streams, rfl, -, -⟩ := kept
  rfl

/-! ### Segments sent (R147, R160) -/

theorem sendSegs_runs (kept : Runs k s t) (lit : beamInPlan s b = true) : Runs k s (sendSegs k stp b cls chunk segs t) := by
  obtain ⟨m, sent⟩ := kept
  refine ⟨m, ?_⟩
  unfold sendSegs
  dsimp only
  split
  · exact sent
  · refine foldl_sent _ (fun e _ u kept => sendRecord_sent _ kept ((beamInPlan_begun m b).trans lit) cls _) ?_
    obtain ⟨beams, ops, streams, rfl, mark, lits⟩ := sent
    refine ⟨beams, _, streams, rfl, ?_, lits⟩
    rw [lupd_at, Option.map_map]
    exact mark

theorem foldl_runs {α : Type} {g : State → α → State} {l : List α} (h : ∀ x ∈ l, ∀ u, Runs k s u → Runs k s (g u x)) (kept : Runs k s t) :
    Runs k s (l.foldl g t) :=
  List.foldlRecOn (motive := fun u => Runs k s u) l g kept fun u sent x within => h x within u sent

theorem sendEach_runs (kept : Runs k s t) {l : List Route} (lit : ∀ e ∈ l, beamInPlan s e.beam = true) :
    Runs k s (sendEach k stp cls l segs t) := foldl_runs (fun e within _ kept => sendSegs_runs kept (lit e within)) kept

/-- The flits of segments. -/
def segFlits (s : State) (cls : BitVec 2) (chunk : ℕ) (segs : List (ℕ × List Byte)) : List OutFlit :=
  (segs.flatMap fun g => recordFlits cls (attempt4 s) false (segRecord s chunk g.1 g.2)).map fun x =>
    { x with behind := s.pln.issued, serial := s.ctl.serial + 1 }

theorem sendRecords_queue (idle : beamSent t b = false) : ((segs.foldl
    (fun u e => sendRecord k b cls (segRecord u chunk e.1 e.2) u) t).beam[b.val]).queue =
    (t.beam[b.val]).queue ++ segFlits t cls chunk segs := by
  induction segs generalizing t with
  | nil => simp [segFlits]
  | cons e segs ih =>
    have first : (sendRecord k b cls (segRecord t chunk e.1 e.2) t).beam[b.val].queue = t.beam[b.val].queue ++ segFlits t cls chunk [e] := by
      have queued : (queueFlits b (recordFlits cls (attempt4 t) false (segRecord t chunk e.1 e.2)) t).beam[b.val] = { t.beam[b.val] with
          queue := t.beam[b.val].queue ++ (recordFlits cls (attempt4 t) false (segRecord t chunk e.1 e.2)).map fun x => { x with
            behind := t.pln.issued, serial := t.ctl.serial + 1 } } := upd_val_self ..
      rw [sendRecord, if_neg (by rw [idle]; exact Bool.false_ne_true)]
      refine (congrArg BeamSt.queue queued).trans ?_
      simp [segFlits]
    have same : segFlits (sendRecord k b cls (segRecord t chunk e.1 e.2) t) cls chunk segs = segFlits t cls chunk segs := by
      rw [sendRecord, if_neg (by rw [idle]; exact Bool.false_ne_true)]
      rfl
    have still : beamSent (sendRecord k b cls (segRecord t chunk e.1 e.2) t) b = false := by
      rw [sendRecord, if_neg (by rw [idle]; exact Bool.false_ne_true)]
      exact idle
    rw [List.foldl_cons, ih still, first, same, List.append_assoc]
    congr 1
    simp [segFlits]

theorem begun_found (m : Hbm) (found : s.ctl.ops[k]? = some o) : (begun k m s).ctl.ops[k]? = some { o with started := true } := by
  rw [begun, opStarts, onOp]
  exact (lupd_at ..).trans (by rw [found]; rfl)

theorem hasSent_begun (m : Hbm) (found : s.ctl.ops[k]? = some o) (fresh : o.sent = []) (key : ℕ) : hasSent (begun k m s) k key = false := by
  rw [hasSent, begun_found m found]
  simp [fresh]

theorem sendSegs_begun (m : Hbm) (found : s.ctl.ops[k]? = some o) (fresh : o.sent = []) (idle : beamSent s b = false)
    (same : t.beam = (sendSegs k stp b cls chunk segs (begun k m s)).beam) : segsSent b cls chunk segs s t := by
  have goes : sendSegs k stp b cls chunk segs (begun k m s) = segs.foldl (fun t e => sendRecord k b cls (segRecord t chunk e.1 e.2) t)
      (onOp k (fun o => { o with sent := (b.val + 256 * (stp + 2048 * chunk)) :: o.sent }) (begun k m s)) :=
    if_neg (by rw [hasSent_begun m found fresh]; exact Bool.false_ne_true)
  have queue := sendRecords_queue (k := k) (b := b) (cls := cls) (chunk := chunk) (segs := segs)
    (t := onOp k (fun o => { o with sent := (b.val + 256 * (stp + 2048 * chunk)) :: o.sent }) (begun k m s)) idle
  rw [segsSent, Fin.getElem_fin, same, goes, queue]
  rfl

/-! ### How a collective ends -/

/-- A state with more outputs staged. -/
def staged (l : List (ℕ × ℕ × List Byte)) (s : State) : State := { s with ctl := { s.ctl with outputs := s.ctl.outputs ++ l } }

theorem stage_staged {h off : ℕ} {bytes : List Byte} (mem : inMemory h) : stage h off bytes s = staged [(h, off, bytes)] s := stage_of_memory mem

theorem staged_staged (l l' : List (ℕ × ℕ × List Byte)) : staged l (staged l' s) = staged (l' ++ l) s := by
  simp [staged]

theorem collective_ends {code : ℕ} {bad : OpCheck} {l : List (ℕ × ℕ × List Byte)} (issued : opIssued k code o s) (good : bad s o = none)
    (runs : collStart k o s = .ok (opFinal k (staged l u))) (kept : Runs k s u) : ∃ t, opRow code k bad collStart s = .next t ∧ opEnded k t ∧
      t.ctl.outputs = s.ctl.outputs ++ l ∧ t.beam = u.beam := by
  have found := found_of_issued issued
  obtain ⟨m, beams, ops, streams, rfl, mark, lits⟩ := kept
  refine ⟨_, opRow_ends collStart issued good runs rfl rfl rfl (fun e within => ?_) (fun e within => .inl within), ?_, ?_, ?_⟩
  · rw [← beamInPlan_begun (k := k) m]
    exact lits (fun e within => (beamInPlan_begun m _).trans (streamsLit_of_issued issued e within)) e within
  · exact opFinal_of_mark (s := begun k m s) mark (begun_found m found)
  · rw [irqSettle_ctl]
    rfl
  · rw [irqSettle_beam]
    rfl

theorem collective_goesOn {code : ℕ} {bad : OpCheck} (issued : opIssued k code o s) (good : bad s o = none) (open_ : o.final = false)
    (runs : collStart k o s = .ok u) (kept : Runs k s u) : ∃ t, opRow code k bad collStart s = .next t ∧ opGoesOn k t ∧
      t.ctl.outputs = s.ctl.outputs ∧ t.beam = u.beam := by
  have found := found_of_issued issued
  obtain ⟨m, beams, ops, streams, rfl, mark, lits⟩ := kept
  refine ⟨_, opRow_ends collStart issued good runs rfl rfl rfl (fun e within => ?_) (fun e within => .inl within), ?_, ?_, ?_⟩
  · rw [← beamInPlan_begun (k := k) m]
    exact lits (fun e within => (beamInPlan_begun m _).trans (streamsLit_of_issued issued e within)) e within
  · rw [begun_found m found] at mark
    obtain ⟨o', found', marks⟩ := Option.map_eq_some_iff.1 mark
    obtain ⟨started, final⟩ := Prod.mk.inj marks
    rw [opGoesOn, irqSettle_ctl]
    refine Option.map_eq_some_iff.2 ⟨o', found', ?_⟩
    rw [started, final, open_]
  · rw [irqSettle_ctl]
    rfl
  · rw [irqSettle_beam]

end

end Sys2Proof.Machine
end

section
/-!
PROOFS. BROADCAST, STREAM, ALLGATHER and ALLTOALLV (R159 to R161).
-/

-- In sequence: each worker of the elaborator takes its stack from the memory that a check may use.
set_option Elab.async false

namespace Sys2Proof.Machine

section
variable {s t u : State} {k : ℕ} {o : OpSt} {b dst : List Byte} {e : Route} {ins : List (List Byte)} {l : List (List Byte)}

/-! ### BROADCAST -/

/-- The segments of a vector that moves. -/
def moved (o : OpSt) (b : List Byte) : List (ℕ × List Byte) := segments (.fmt (collIn o) 0 []) (shadowed o) (cutVec (collIn o) (opCount o) b)

theorem broadcastOn_ends (kept : Runs k s t) (lit : routeLit o s) (mem : inMemory (collDst o)) : ∃ u, broadcastOn k o b t =
    opFinal k (staged [(collDst o, 0, b)] u) ∧ Runs k s u ∧
      ∀ e, routeOf s o = [e] → e.role = 0 → u = sendSegs k 3 e.beam 1 e.chunk (moved o b) t := by
  refine ⟨(routeOf s o).foldl (fun t e => if e.role = 0 then sendSegs k 3 e.beam 1 e.chunk (moved o b) t
    else if e.role = 2 then sendSegs k 2 e.beam 0 e.chunk (moved o b) t else t) t, ?_, ?_, fun e one role => ?_⟩
  · rw [broadcastOn, routeOf_runs kept, stage_staged mem]
    rfl
  · refine foldl_runs (fun e within u kept => ?_) kept
    split
    · exact sendSegs_runs kept (lit e within)
    · split
      · exact sendSegs_runs kept (lit e within)
      · exact kept
  · rw [one]
    exact if_pos role

theorem broadcastBody_root (root : opFlag o 1 = true) : broadcastBody k o [b] t = .ok (broadcastOn k o b t) := if_pos root

theorem broadcastBody_forwards (kept : Runs k s t) (leaf : opFlag o 1 = false) (up : upEntry s o = some e)
    (there : gathered (.fmt (collIn o) 0 []) (shadowed o) (opCount o) (segsIn s k e.beam (if e.role = 1 then .result else .contribution) none) =
      .ok (some l)) : broadcastBody k o ins t = .ok (broadcastOn k o (joinVec (collIn o) l) t) := by
  have up' : upEntry t o = some e := by rw [upEntry, routeOf_runs kept]; exact up
  rw [broadcastBody, leaf, if_neg Bool.false_ne_true, up']
  dsimp only
  rw [segsIn_runs kept, there]

/-! ### STREAM -/

theorem streamBody_buffers (kept : Runs k s t) (none_ : routeOf s o = []) (mem : inMemory (collDst o)) :
    streamBody k o [b] t = .ok (opFinal k (staged [(collDst o, 0, b)] t)) := by
  have entry : streamEntry t o = none := by rw [streamEntry, routeOf_runs kept, none_]; rfl
  rw [streamBody, entry]
  dsimp only
  rw [stage_staged mem]
  rfl

theorem streamReads_of_route (one : routeOf s o = [e]) : streamReads s o = (e.role != 3) ∧ streamWrites s o = (e.role != 2) := by
  have entry : streamEntry s o = some e := by rw [streamEntry, one]; rfl
  rw [streamReads, streamWrites, entry]
  exact ⟨rfl, rfl⟩

theorem streamBody_out (kept : Runs k s t) (one : routeOf s o = [e]) (role : e.role = 2) :
    streamBody k o [b] t = .ok (opFinal k (sendSegs k 2 e.beam 0 e.chunk [(0, b)] t)) := by
  have one' : routeOf t o = [e] := (routeOf_runs kept o).trans one
  have entry : streamEntry t o = some e := by rw [streamEntry, one']; rfl
  obtain ⟨reads, writes⟩ := streamReads_of_route one'
  rw [streamBody, entry]
  dsimp only
  rw [reads, writes, role]
  rfl

theorem streamBody_in {a : Admit} (kept : Runs k s t) (one : routeOf s o = [e]) (role : e.role = 3) (there : pieceFrom s k e.beam 0 = some a)
    (whole : a.data.length = opCount o) (mem : inMemory (collDst o)) : streamBody k o ins t = .ok
      (opFinal k (staged [(collDst o, 0, a.data)] t)) := by
  have one' : routeOf t o = [e] := (routeOf_runs kept o).trans one
  have entry : streamEntry t o = some e := by rw [streamEntry, one']; rfl
  obtain ⟨reads, writes⟩ := streamReads_of_route one'
  rw [streamBody, entry]
  dsimp only
  rw [reads, writes, role, pieceFrom_runs kept, there]
  dsimp only
  rw [if_pos (by decide), if_pos whole, if_neg (by decide), stage_staged mem]

/-! ### ALLGATHER -/

theorem stageChunk_staged (total : ℕ) (mem : inMemory (collDst o)) (h : ℕ × List (List Byte)) :
    stageChunk (collIn o) (collDst o) total (h.1 * chunkSize o) h.2 s = staged (gatherPieces o total h) s := by
  unfold stageChunk gatherPieces
  dsimp only
  split
  · rw [stage_staged mem, stage_staged mem, staged_staged]
    rfl
  · exact stage_staged mem

theorem stageChunks_staged (total : ℕ) (mem : inMemory (collDst o)) (l : List (ℕ × List (List Byte))) :
    l.foldl (fun t h => stageChunk (collIn o) (collDst o) total (h.1 * chunkSize o) h.2 t) s = staged (l.flatMap (gatherPieces o total)) s := by
  induction l generalizing s with
  | nil => simp [staged]
  | cons h l ih => rw [List.foldl_cons, stageChunk_staged total mem, ih, staged_staged, List.flatMap_cons]

/-- The state of an ALLGATHER that has sent its own chunk. -/
def gatherSends (k : ℕ) (o : OpSt) (b : List Byte) (s t : State) : State := ((routeOf s o).filter fun e => e.role == 4).foldl (fun t e =>
  sendSegs k 2 e.beam 0 (gatherChunk (routeOf s o)) (moved o b) t) t

/-- The state of an ALLGATHER that has forwarded the chunks that it has. -/
def gatherForwards (k : ℕ) (o : OpSt) (have_ : List (ℕ × List (List Byte))) (s t : State) : State :=
  ((routeOf s o).filter fun e => e.role == 2).foldl (fun t e => match have_.find? fun h => h.1 == e.chunk with
    | some h => sendSegs k 2 e.beam 0 e.chunk (segments (.fmt (collIn o) 0 []) (shadowed o) h.2) t
    | none => t) t

theorem gatherSends_runs (kept : Runs k s t) (lit : routeLit o s) : Runs k s (gatherSends k o b s t) :=
  foldl_runs (fun e within _ kept => sendSegs_runs kept (lit e (List.mem_of_mem_filter within))) kept

theorem gatherForwards_runs (kept : Runs k s t) (lit : routeLit o s) (have_ : List (ℕ × List (List Byte))) : Runs k s
    (gatherForwards k o have_ s t) := by
  refine foldl_runs (fun e within u kept => ?_) kept
  split
  · exact sendSegs_runs kept (lit e (List.mem_of_mem_filter within))
  · exact kept

theorem allgatherBody_ends {got : List (ℕ × List (List Byte))} (kept : Runs k s t) (mem : inMemory (collDst o))
    (there : ((routeOf s o).filter fun e => e.role == 3 || e.role == 4).map (chunkFrom s k o) = got.map fun g => .ok (some g)) :
    allgatherBody k o [b] t = .ok (opFinal k (staged (((gatherChunk (routeOf s o), cutVec (collIn o) (opCount o) b) :: got).flatMap
      (gatherPieces o (chunkSize o * chunkCount (routeOf s o))))
        (gatherForwards k o ((gatherChunk (routeOf s o), cutVec (collIn o) (opCount o) b) :: got) s
        (gatherSends k o b s t)))) := by
  have number : got.length = ((routeOf s o).filter fun e => e.role == 3 || e.role == 4).length := by
    have := congrArg List.length there
    rw [List.length_map, List.length_map] at this
    exact this.symm
  unfold allgatherBody
  dsimp only
  rw [routeOf_runs kept, chunkFrom_runs kept, there]
  split
  next r found =>
    obtain ⟨x, within, odd⟩ := List.exists_of_findSome?_eq_some found
    obtain ⟨g, -, rfl⟩ := List.mem_map.1 within
    cases odd
  next =>
    simp only [List.filterMap_map, Function.comp_def, List.filterMap_some]
    rw [if_pos (by rw [List.length_cons, number]), stageChunks_staged _ mem]
    rfl

theorem segsIn_empty (empty : s.ctl.admitted = []) (beam : Beam) (form : SegForm) (chunk : Option ℕ) : segsIn s k beam form chunk = [] := by
  rw [segsIn, empty, List.filter_nil]

theorem gathered_empty (w : Wire) (shadow : Bool) (n : ℕ) : gathered w shadow n [] = .ok none := if_pos rfl

theorem chunkFrom_empty (empty : s.ctl.admitted = []) : chunkFrom s k o e = .ok none := by
  unfold chunkFrom
  dsimp only
  rw [segsIn_empty empty, gathered_empty]

theorem allgatherBody_waits (kept : Runs k s t) (one : routeOf s o = [e]) (role : e.role = 4) (empty : s.ctl.admitted = []) :
    allgatherBody k o [b] t = .ok (sendSegs k 2 e.beam 0 (gatherChunk (routeOf s o)) (moved o b) t) := by
  have receives : [e].filter (fun e => e.role == 3 || e.role == 4) = [e] := by simp [role]
  have sends : [e].filter (fun e => e.role == 4) = [e] := by simp [role]
  have forwards : [e].filter (fun e => e.role == 2) = [] := by simp [role]
  unfold allgatherBody
  dsimp only
  rw [routeOf_runs kept, chunkFrom_runs kept, one, receives, sends, forwards, List.map_cons, List.map_nil, chunkFrom_empty empty]
  rfl

/-! ### ALLTOALLV (R161) -/

theorem sendPiecesOf_runs (total : ℕ) (src : List Byte) (l : List (Route × ℕ)) (i lo : ℕ) (kept : Runs k s t)
    (lit : ∀ e ∈ l, beamInPlan s e.1.beam = true) : Runs k s (sendPiecesOf k o total src l i lo t) := by
  induction l generalizing t i lo with
  | nil => exact kept
  | cons x l ih =>
    obtain ⟨here, rest⟩ := List.forall_mem_cons.1 lit
    obtain ⟨e, n⟩ := x
    refine ih _ _ ?_ rest
    split
    · exact kept
    · exact sendSegs_runs kept here

theorem alltoallvBody_ends {ps : List (ℕ × List Byte)} (kept : Runs k s t) (lit : routeLit o s)
    (fits : (sendCounts (nth ins 0 []) (routeCount o)).all (fun n => !lenBad (collIn o) n) = true)
    (there : ((rxEntries (routeOf s o) []).map fun e => match e with
      | none => some (0, [])
      | some (b, j) => (pieceFrom s k b j).map fun a => (segElems (collIn o) a.data.length, a.data)) = ps.map some)
    (whole : ∀ p ∈ ps, rowBytes (collIn o) p.1 = p.2.length) (counts : inMemory (opBits o 3 31 0)) (mem : inMemory (collDst o))
    (is : dst = joinVec (collIn o) (ps.flatMap fun p => cutVec (collIn o) p.1 p.2)) (room : bufFits s (collDst o) dst.length = true) :
    ∃ u, alltoallvBody k o ins t = .ok (opFinal k (staged ((if dst = [] then [] else [(collDst o, 0, dst)]) ++
      [(opBits o 3 31 0, 0, ps.flatMap fun p => leBytes 4 p.1)]) u)) ∧ Runs k s u := by
  refine ⟨sendPiecesOf k o ((sendCounts (nth ins 0 []) (routeCount o)).foldl (· + ·) 0) (nth ins 1 [])
    ((routeOf s o).zip (sendCounts (nth ins 0 []) (routeCount o))) 0 0 t, ?_, sendPiecesOf_runs _ _ _ _ _ kept fun e within => lit _
      (List.of_mem_zip within).1⟩
  unfold alltoallvBody
  dsimp only
  rw [if_neg (by simpa using fits), routeOf_runs kept, pieceFrom_runs kept]
  generalize known : List.map _ (rxEntries (routeOf s o) []) = got
  obtain rfl : got = ps.map some := known.symm.trans there
  have pieces : (ps.map some).filterMap id = ps := by rw [List.filterMap_map]; exact List.filterMap_some
  have lens : ¬(ps.any fun p => rowBytes (collIn o) p.1 != p.2.length) = true := by
    simpa using whole
  rw [if_neg (by simp), pieces, if_neg lens, ← is, bufFits_runs kept, if_pos room]
  by_cases none_ : dst = []
  · rw [if_pos none_, if_pos none_, stage_staged counts]
    rfl
  · rw [if_neg none_, if_neg none_, stage_staged counts, stage_staged mem, staged_staged]

end

end Sys2Proof.Machine
end

section
/-!
PROOFS. ALLREDUCE and REDUCESCATTER (R162, R184 to R190), and the collectives in all.
-/

-- In sequence: each worker of the elaborator takes its stack from the memory that a check may use.
set_option Elab.async false

namespace Sys2Proof.Machine

section
variable {s t u : State} {k : ℕ} {o : OpSt} {b : List Byte} {e : Route} {g : List ℕ} {l : List (List Byte)}

theorem roleOf_lit (lit : routeLit o s) (role : ℕ) : ∀ e ∈ roleOf s o role, beamInPlan s e.beam = true :=
  fun e within => lit e (List.mem_of_mem_filter within)

/-! ### ALLREDUCE (R162, R184 to R190) -/

theorem reduceDone_ends (kept : Runs k s t) (lit : routeLit o s) (mem : inMemory (collDst o)) (r : List Byte) :
    ∃ u, reduceDone k o r t = opFinal k (staged [(collDst o, 0, r)] u) ∧ Runs k s u ∧ (roleOf s o 0 = [] → u = t) := by
  refine ⟨sendEach k 3 1 (roleOf s o 0) (segments (.fmt (collOut o) 0 []) (shadowed o) (cutVec (collOut o) (opCount o) r)) t, ?_,
    sendEach_runs kept (roleOf_lit lit 0), fun none_ => ?_⟩
  · rw [reduceDone, roleOf_runs kept, stage_staged mem]
  · rw [none_]
    rfl

theorem exponentStep_top {own : List ℕ} {cs xs : List (List ℕ)} (kept : Runs k s t) (lit : routeLit o s) (top : roleOf s o 1 = [])
    (kids : collectAll (codesFrom s k own.length none) ((roleOf s o 0).map (·.beam)) = .ok (some cs))
    (peers : collectAll (codesFrom s k own.length none) ((roleOf s o 4).map (·.beam)) = .ok (some xs)) :
    ∃ u, exponentStep k o own t = .ok (u, some (xs.foldl maxCodes (cs.foldl maxCodes own))) ∧ Runs k s u := by
  refine ⟨sendEach k 1 1 (roleOf s o 0) (codeSegs (xs.foldl maxCodes (cs.foldl maxCodes own)))
    (sendEach k 0 0 (roleOf s o 4) (codeSegs (cs.foldl maxCodes own)) t), ?_,
    sendEach_runs (sendEach_runs kept (roleOf_lit lit 4)) (roleOf_lit lit 0)⟩
  unfold exponentStep
  dsimp only
  rw [roleOf_runs kept, roleOf_runs kept, roleOf_runs kept, codesFrom_runs kept, kids]
  dsimp only
  rw [peers, top]
  rfl

theorem valueStep_top {kc xc : List (List LongForm)} (kept : Runs k s t) (lit : routeLit o s) (mem : inMemory (collDst o)) (top : roleOf s o 1 = [])
    (kids : allEls s k (elsFrom s k (redMode o) (collIn o) g 0 (opCount o) (shadowed o) none) ((roleOf s o 0).map (·.beam)) = .ok (some kc))
    (all : allEls s k (elsFrom s k (redMode o) (collIn o) g 0 (opCount o) (shadowed o) none) ((roleOf s o 0 ++ roleOf s o 4).map (·.beam)) =
      .ok (some xc)) : ∃ u, valueStep k o b g t = .ok (opFinal k (staged [(collDst o, 0,
        sumResult (redMode o) (collOut o) g 0 (addAll (redMode o) xc (contribEls (redMode o) (collIn o) g 0 (opCount o) b)))] u)) ∧ Runs k s u := by
  obtain ⟨u, done_, kept', -⟩ := reduceDone_ends (r := sumResult (redMode o) (collOut o) g 0 (addAll (redMode o) xc
    (contribEls (redMode o) (collIn o) g 0 (opCount o) b))) (sendEach_runs (segs := upSegs o g b (roleOf s o 0 == []) (addAll (redMode o) kc
      (contribEls (redMode o) (collIn o) g 0 (opCount o) b))) (stp := 2) (cls := 0) kept (roleOf_lit lit 4)) lit mem
  refine ⟨u, ?_, kept'⟩
  unfold valueStep
  dsimp only
  rw [roleOf_runs kept, roleOf_runs kept, roleOf_runs kept, elsFrom_runs kept, allEls_runs kept, kids]
  dsimp only
  rw [all, top]
  exact congrArg Except.ok done_

theorem allreduceBody_top {kc xc : List (List LongForm)} (kept : Runs k s t) (lit : routeLit o s) (mem : inMemory (collDst o))
    (top : roleOf s o 1 = [])
    (known : codesKnown k o b g s)
    (kids : allEls s k (elsFrom s k (redMode o) (collIn o) g 0 (opCount o) (shadowed o) none) ((roleOf s o 0).map (·.beam)) = .ok (some kc))
    (all : allEls s k (elsFrom s k (redMode o) (collIn o) g 0 (opCount o) (shadowed o) none) ((roleOf s o 0 ++ roleOf s o 4).map (·.beam)) =
      .ok (some xc)) : ∃ u, allreduceBody k o [b] t = .ok (opFinal k (staged [(collDst o, 0,
        sumResult (redMode o) (collOut o) g 0 (addAll (redMode o) xc (contribEls (redMode o) (collIn o) g 0 (opCount o) b)))] u)) ∧ Runs k s u := by
  obtain ⟨fast, rfl⟩ | ⟨exact_, cs, xs, codes, peers, rfl⟩ := known
  · obtain ⟨u, runs, kept'⟩ := valueStep_top (b := b) kept lit mem top kids all
    exact ⟨u, (if_neg fast).trans runs, kept'⟩
  · obtain ⟨v, exponents, sent⟩ := exponentStep_top kept lit top codes peers
    obtain ⟨u, runs, kept'⟩ := valueStep_top (b := b) sent lit mem top kids all
    refine ⟨u, (if_pos exact_).trans ?_, kept'⟩
    dsimp only [nth, List.getElem?_cons_zero, Option.getD_some]
    rw [exponents]
    exact runs

theorem allEls_nil (els : Beam → Except ℕ (Option (List LongForm))) : allEls s k els [] = .ok (some []) := by
  have order : admitOrder s k [] = [] := by
    unfold admitOrder
    exact List.foldlRecOn _ _ (motive := fun l : List Beam => l = []) rfl fun l same a _ => by rw [same]; rfl
  rw [allEls, collectAll]
  dsimp only
  rw [order, collectAll]

theorem roleOf_one (one : routeOf s o = [e]) (role : ℕ) : roleOf s o role = if e.role = role then [e] else [] := by
  rw [roleOf, one]
  by_cases here : e.role = role <;> simp [here]

theorem allreduceBody_leaf (kept : Runs k s t) (lit : routeLit o s) (mem : inMemory (collDst o)) (fast : redMode o ≠ .exact) (one : routeOf s o = [e])
    (role : e.role = 1)
    (there : gathered (.fmt (collOut o) 0 []) (shadowed o) (opCount o) (segsIn s k e.beam .result none) = .ok (some l)) :
    ∃ u, allreduceBody k o [b] t = .ok (opFinal k (staged [(collDst o, 0, joinVec (collOut o) l)] u)) ∧ Runs k s u ∧
      u = sendSegs k 2 e.beam 0 e.chunk (contribSegs (collIn o) (shadowed o) 0 (opCount o) (noCodes (opCount o)) b) t := by
  have kids : roleOf s o 0 = [] := by rw [roleOf_one one, role]; rfl
  have peers : roleOf s o 4 = [] := by rw [roleOf_one one, role]; rfl
  have par : roleOf s o 1 = [e] := by rw [roleOf_one one, role]; rfl
  have sent : Runs k s (sendSegs k 2 e.beam 0 e.chunk (contribSegs (collIn o) (shadowed o) 0 (opCount o) (noCodes (opCount o)) b) t) :=
    sendSegs_runs kept (lit e (by rw [one]; exact List.mem_singleton_self e))
  obtain ⟨u, done_, kept', still⟩ := reduceDone_ends (r := joinVec (collOut o) l) sent lit mem
  refine ⟨u, (if_neg fast).trans ?_, kept', still kids⟩
  unfold valueStep
  dsimp only
  rw [roleOf_runs kept, roleOf_runs kept, roleOf_runs kept, kids, peers, par, List.append_nil, List.map_nil, allEls_nil]
  dsimp only [fromParent]
  rw [segsIn_runs kept, there]
  exact congrArg Except.ok done_

/-! ### REDUCESCATTER -/

theorem scatterSends_runs (kept : Runs k s t) (lit : routeLit o s) (codes : List ℕ) : Runs k s (scatterSends k o b codes t) := by
  rw [scatterSends, roleOf_runs kept]
  exact foldl_runs (fun e within _ kept => sendSegs_runs kept (roleOf_lit lit 4 e within)) kept

theorem scatterCodes_runs (kept : Runs k s t) (lit : routeLit o s) (own : List ℕ) : Runs k s (scatterCodes k o own t) := by
  rw [scatterCodes, roleOf_runs kept]
  exact sendEach_runs kept (roleOf_lit lit 4)

/-- A place's own chunk: its first element, and how many. -/
def ownRange (s : State) (o : OpSt) : ℕ × ℕ := chunkRange o (ownChunk (routeOf s o))

/-- The sum of a REDUCESCATTER over what the peers have brought. -/
def scatterSum (s : State) (o : OpSt) (g : List ℕ) (l : List (List LongForm)) (b : List Byte) : List LongForm :=
  addAll (redMode o) l (contribEls (redMode o) (collIn o) (chunkCodes (ownRange s o) g) (ownRange s o).1 (ownRange s o).2
    (vecSlice (collIn o) (opCount o) (ownRange s o).1 (ownRange s o).2 b))

theorem reducescatterBody_ends {l : List (List LongForm)} (kept : Runs k s t) (lit : routeLit o s) (mem : inMemory (collDst o))
    (known : scatterKnown k o b g s)
    (all : allEls s k (elsFrom s k (redMode o) (collIn o) (chunkCodes (ownRange s o) g) (ownRange s o).1 (ownRange s o).2 (shadowed o)
      (some (ownChunk (routeOf s o)))) ((roleOf s o 4).map (·.beam)) = .ok (some l)) :
    ∃ u, reducescatterBody k o [b] t = .ok (opFinal k (staged [(collDst o, 0,
      sumResult (redMode o) (collOut o) (chunkCodes (ownRange s o) g) (ownRange s o).1 (scatterSum s o g l b))] u)) ∧ Runs k s u := by
  obtain ⟨fast, rfl⟩ | ⟨exact_, cs, codes, rfl⟩ := known
  · refine ⟨_, ?_, scatterSends_runs (b := b) kept lit ((codesOf (decodeRow (collIn o) (opCount o) b) 0 (opCount o)).map fun _ => 1)⟩
    unfold reducescatterBody
    dsimp only [nth, List.getElem?_cons_zero, Option.getD_some]
    simp only [if_neg fast]
    rw [routeOf_runs kept, roleOf_runs kept, elsFrom_runs kept, allEls_runs kept]
    unfold ownRange at all
    rw [all]
    dsimp only
    rw [stage_staged mem]
    rfl
  · refine ⟨_, ?_, scatterSends_runs (b := b) (scatterCodes_runs kept lit (codesOf (decodeRow (collIn o) (opCount o) b) 0 (opCount o))) lit
      (cs.foldl maxCodes (codesOf (decodeRow (collIn o) (opCount o) b) 0 (opCount o)))⟩
    unfold reducescatterBody
    dsimp only [nth, List.getElem?_cons_zero, Option.getD_some]
    simp only [if_pos exact_]
    rw [routeOf_runs kept, roleOf_runs kept, codesFrom_runs kept, codes]
    dsimp only
    rw [elsFrom_runs kept, allEls_runs kept]
    unfold ownRange at all
    rw [all]
    dsimp only
    rw [stage_staged mem]
    rfl

theorem elsFrom_empty (empty : s.ctl.admitted = []) (mode : RMode) (f : Elem) (codes : List ℕ) (lo n : ℕ) (shadow : Bool) (chunk : Option ℕ)
    (beam : Beam) : elsFrom s k mode f codes lo n shadow chunk beam = .ok none := by
  unfold elsFrom
  rw [segsIn_empty empty, segsIn_empty empty, gathered_empty, gathered_empty]

theorem codesOf_ones (vals : List FV) (n : ℕ) : (codesOf vals 0 n).map (fun _ => 1) = List.replicate (blockCount n) 1 := by
  have number : (codesOf vals 0 n).length = blockCount n := by simp [codesOf, blockCount]
  rw [List.map_const', number]

theorem reducescatterBody_waits (kept : Runs k s t) (fast : redMode o ≠ .exact) (one : routeOf s o = [e]) (role : e.role = 4)
    (empty : s.ctl.admitted = []) : reducescatterBody k o [b] t = .ok (sendSegs k 2 e.beam 0 e.chunk (contribSegs (collIn o) (shadowed o)
      (chunkRange o e.chunk).1 (chunkRange o e.chunk).2 (chunkCodes (chunkRange o e.chunk) (List.replicate (blockCount (opCount o)) 1))
      (vecSlice (collIn o) (opCount o) (chunkRange o e.chunk).1 (chunkRange o e.chunk).2 b)) t) := by
  have peers : roleOf s o 4 = [e] := by rw [roleOf_one one, role]; rfl
  unfold reducescatterBody
  dsimp only [nth, List.getElem?_cons_zero, Option.getD_some]
  simp only [if_neg fast]
  rw [routeOf_runs kept, roleOf_runs kept, elsFrom_runs kept, allEls_runs kept, peers, codesOf_ones]
  have none_ : allEls s k (elsFrom s k (redMode o) (collIn o) (chunkCodes (chunkRange o (ownChunk (routeOf s o)))
      (List.replicate (blockCount (opCount o)) 1)) (chunkRange o (ownChunk (routeOf s o))).1 (chunkRange o (ownChunk (routeOf s o))).2 (shadowed o)
      (some (ownChunk (routeOf s o)))) ([e].map (·.beam)) = .ok none := by
    rw [List.map_cons, List.map_nil, allEls, collectAll, elsFrom_empty empty, collectAll]
  rw [none_]
  dsimp only
  rw [scatterSends, roleOf_runs kept, peers]
  rfl

end

/-! ### The rows -/

section
variable {s t u : State} {k : ℕ} {o : OpSt} {ins : List (List Byte)}

theorem code_of_issued {code : ℕ} (issued : opIssued k code o s) : opCode o = code := by
  obtain ⟨-, -, -, named, -, -⟩ := issued
  exact named

theorem collBody_allreduce (named : opCode o = 0x30) : collBody k o ins t = allreduceBody k o ins t := by simp [collBody, named]
theorem collBody_reducescatter (named : opCode o = 0x31) : collBody k o ins t = reducescatterBody k o ins t := by simp [collBody, named]
theorem collBody_allgather (named : opCode o = 0x32) : collBody k o ins t = allgatherBody k o ins t := by simp [collBody, named]
theorem collBody_alltoallv (named : opCode o = 0x33) : collBody k o ins t = alltoallvBody k o ins t := by simp [collBody, named]
theorem collBody_broadcast (named : opCode o = 0x34) : collBody k o ins t = broadcastBody k o ins t := by simp [collBody, named]
theorem collBody_stream (named : opCode o = 0x35) : collBody k o ins t = streamBody k o ins t := by simp [collBody, named]

theorem collInputs_vector (low : 0x30 ≤ opCode o) (high : opCode o ≤ 0x32) : collInputs s o = [(collSrc o, rowBytes (collIn o) (opCount o))] := by
  unfold collInputs
  dsimp only
  rw [if_neg (by omega), if_neg (by omega), if_neg (by omega)]

theorem inputsReady_nil : inputsReady [] [] s := ⟨fun _ none_ => (nomatch none_), rfl⟩

theorem staged_nil : staged [] s = s := by simp [staged]

end

/-- Settles O31: each collective runs its body once its inputs are there (`collStart_begins`), and ends with what it staged (`collective_ends`) or
goes on (`collective_goesOn`). -/
theorem collectivesStart : Obligations.CollectivesStart := by
  unfold Obligations.CollectivesStart
  refine ⟨fun k o b s issued good root lit ready mem => ?root, fun k o e l s issued good leaf lit up mem there => ?leaf,
    fun k o b s issued good none_ ready mem => ?buffers, fun k o e b s issued good one role lit ready fresh idle => ?out,
    fun k o e a s issued good one role there whole mem => ?in_, fun k o b g kc xc s issued good lit ready mem known top kids all => ?top,
    fun k o e b l s issued good fast lit ready mem one role there => ?child, fun k o b g l s issued good lit ready mem known all => ?scatter,
    fun k o e b s issued good fast lit one role empty open_ ready => ?scatterWaits,
    fun k o b got s issued good lit ready mem there => ?gather, fun k o e b s issued good lit one role empty open_ ready => ?gatherWaits,
    fun k o ins ps dst s issued good lit ready fits there whole counts mem is room => ?all,
    fun v s hs good epoch => ⟨_, regRow_of_running _ hs.1 hs.2 good, ?write⟩⟩
  case root =>
    have named := code_of_issued issued
    have inputs : collInputs s o = [(collSrc o, rowBytes (collIn o) (opCount o))] := by simp [collInputs, named, root]
    obtain ⟨m, starts⟩ := collStart_begins (k := k) (inputs ▸ ready)
    obtain ⟨u, ends, kept, sends⟩ := broadcastOn_ends (b := b) (runs_begun m) lit mem
    obtain ⟨t, row, ended, outputs, beam⟩ := collective_ends issued good
      (starts.trans ((collBody_broadcast named).trans ((broadcastBody_root root).trans (congrArg Except.ok ends)))) kept
    exact ⟨t, row, ended, outputs, fun e one role fresh idle =>
      sendSegs_begun m (found_of_issued issued) fresh idle (beam.trans (congrArg State.beam (sends e one role)))⟩
  case leaf =>
    have named := code_of_issued issued
    have inputs : collInputs s o = [] := by simp [collInputs, named, leaf]
    obtain ⟨m, starts⟩ := collStart_begins (s := s) (o := o) (k := k) (ins := []) (by rw [inputs]; exact inputsReady_nil)
    obtain ⟨u, ends, kept, -⟩ := broadcastOn_ends (b := joinVec (collIn o) l) (runs_begun m) lit mem
    obtain ⟨t, row, ended, outputs, -⟩ := collective_ends issued good
      (starts.trans ((collBody_broadcast named).trans ((broadcastBody_forwards (runs_begun m) leaf up there).trans (congrArg Except.ok ends)))) kept
    exact ⟨t, row, ended, outputs⟩
  case buffers =>
    have named := code_of_issued issued
    have reads : streamReads s o = true := by rw [streamReads, streamEntry, none_]; rfl
    have inputs : collInputs s o = [(collSrc o, opCount o)] := by simp [collInputs, named, reads]
    obtain ⟨m, starts⟩ := collStart_begins (k := k) (inputs ▸ ready)
    have moves := streamBody_buffers (b := b) (runs_begun (k := k) m) none_ mem
    obtain ⟨t, row, ended, outputs, beam⟩ := collective_ends issued good (starts.trans ((collBody_stream named).trans moves)) (runs_begun m)
    exact ⟨t, row, ended, outputs, beam⟩
  case out =>
    have named := code_of_issued issued
    obtain ⟨reads, -⟩ := streamReads_of_route one
    have inputs : collInputs s o = [(collSrc o, opCount o)] := by simp [collInputs, named, reads, role]
    obtain ⟨m, starts⟩ := collStart_begins (k := k) (inputs ▸ ready)
    have sends := streamBody_out (b := b) (runs_begun (k := k) m) one role
    rw [← staged_nil (s := sendSegs k 2 e.beam 0 e.chunk [(0, b)] (begun k m s))] at sends
    obtain ⟨t, row, ended, outputs, beam⟩ := collective_ends issued good (starts.trans ((collBody_stream named).trans sends))
      (sendSegs_runs (runs_begun m) (lit e (by rw [one]; exact List.mem_singleton_self e)))
    exact ⟨t, row, ended, outputs.trans (List.append_nil _), sendSegs_begun m (found_of_issued issued) fresh idle beam⟩
  case in_ =>
    have named := code_of_issued issued
    obtain ⟨reads, -⟩ := streamReads_of_route one
    have inputs : collInputs s o = [] := by simp [collInputs, named, reads, role]
    obtain ⟨m, starts⟩ := collStart_begins (s := s) (o := o) (k := k) (ins := []) (by rw [inputs]; exact inputsReady_nil)
    have takes := streamBody_in (ins := []) (runs_begun m) one role there whole mem
    obtain ⟨t, row, ended, outputs, beam⟩ := collective_ends issued good (starts.trans ((collBody_stream named).trans takes)) (runs_begun m)
    exact ⟨t, row, ended, outputs, beam⟩
  case top =>
    have named := code_of_issued issued
    obtain ⟨m, starts⟩ := collStart_begins (k := k) (collInputs_vector (s := s) (o := o) (by omega) (by omega) ▸ ready)
    obtain ⟨u, ends, kept⟩ := allreduceBody_top (runs_begun m) lit mem top known kids all
    obtain ⟨t, row, ended, outputs, -⟩ := collective_ends issued good (starts.trans ((collBody_allreduce named).trans ends)) kept
    exact ⟨t, row, ended, outputs⟩
  case child =>
    have named := code_of_issued issued
    obtain ⟨m, starts⟩ := collStart_begins (k := k) (collInputs_vector (s := s) (o := o) (by omega) (by omega) ▸ ready)
    obtain ⟨u, ends, kept, sends⟩ := allreduceBody_leaf (b := b) (runs_begun m) lit mem fast one role there
    obtain ⟨t, row, ended, outputs, beam⟩ := collective_ends issued good (starts.trans ((collBody_allreduce named).trans ends)) kept
    exact ⟨t, row, ended, outputs, fun fresh idle =>
      sendSegs_begun m (found_of_issued issued) fresh idle (beam.trans (congrArg State.beam sends))⟩
  case scatter =>
    have named := code_of_issued issued
    obtain ⟨m, starts⟩ := collStart_begins (k := k) (collInputs_vector (s := s) (o := o) (by omega) (by omega) ▸ ready)
    obtain ⟨u, ends, kept⟩ := reducescatterBody_ends (runs_begun m) lit mem known all
    obtain ⟨t, row, ended, outputs, -⟩ := collective_ends issued good (starts.trans ((collBody_reducescatter named).trans ends)) kept
    exact ⟨t, row, ended, outputs⟩
  case scatterWaits =>
    have named := code_of_issued issued
    obtain ⟨m, starts⟩ := collStart_begins (k := k) (collInputs_vector (s := s) (o := o) (by omega) (by omega) ▸ ready)
    obtain ⟨t, row, goes, outputs, beam⟩ := collective_goesOn issued good open_
      (starts.trans ((collBody_reducescatter named).trans (reducescatterBody_waits (b := b) (runs_begun m) fast one role empty)))
      (sendSegs_runs (runs_begun m) (lit e (by rw [one]; exact List.mem_singleton_self e)))
    refine ⟨t, row, goes, outputs, fun fresh idle r is => ?_⟩
    subst is
    exact sendSegs_begun m (found_of_issued issued) fresh idle beam
  case gather =>
    have named := code_of_issued issued
    obtain ⟨m, starts⟩ := collStart_begins (k := k) (collInputs_vector (s := s) (o := o) (by omega) (by omega) ▸ ready)
    obtain ⟨t, row, ended, outputs, -⟩ := collective_ends issued good
      (starts.trans ((collBody_allgather named).trans (allgatherBody_ends (runs_begun m) mem there)))
      (gatherForwards_runs (gatherSends_runs (runs_begun m) lit) lit _)
    exact ⟨t, row, ended, outputs⟩
  case gatherWaits =>
    have named := code_of_issued issued
    obtain ⟨m, starts⟩ := collStart_begins (k := k) (collInputs_vector (s := s) (o := o) (by omega) (by omega) ▸ ready)
    obtain ⟨t, row, goes, outputs, beam⟩ := collective_goesOn issued good open_
      (starts.trans ((collBody_allgather named).trans (allgatherBody_waits (b := b) (runs_begun m) one role empty)))
      (sendSegs_runs (runs_begun m) (lit e (by rw [one]; exact List.mem_singleton_self e)))
    exact ⟨t, row, goes, outputs, fun fresh idle => sendSegs_begun m (found_of_issued issued) fresh idle beam⟩
  case all =>
    have named := code_of_issued issued
    have inputs : collInputs s o = alltoallvInputs s o := by simp [collInputs, named]
    obtain ⟨m, starts⟩ := collStart_begins (k := k) (inputs ▸ ready)
    obtain ⟨u, ends, kept⟩ := alltoallvBody_ends (runs_begun m) lit fits there whole counts mem is room
    obtain ⟨t, row, ended, outputs, -⟩ := collective_ends issued good (starts.trans ((collBody_alltoallv named).trans ends)) kept
    exact ⟨t, row, ended, outputs.trans (List.append_assoc ..).symm⟩
  case write =>
    have takes : ceCtrl v s = { s with ce := { s.ce with raDisable := bit v 0, epoch := s.ce.epoch + 1 } } := if_neg (not_not.2 epoch)
    rw [irqSettle_ce, takes]
    exact ⟨rfl, rfl, rfl⟩

end Sys2Proof.Machine
end
